-- ==== Sys2Proof/Word.lean ====
section
/-!
DEFINITION. Word.lean: the word types of the device (00 R4, R5, R13; 04 R91) and the names of its agents and modes
(01 Tables 1.1, 1.2, 1.6; 07 Table 7.1).
-/

namespace Sys2Proof

/-- A 64-bit general register or 64-bit device register. -/
abbrev Word := BitVec 64
/-- A 32-bit register, instruction word or memory word. -/
abbrev Word32 := BitVec 32
/-- One byte. -/
abbrev Byte := BitVec 8

/-- The operating modes (01 Table 1.6). -/
inductive Mode where
  | cell | boot | standby | service | custody | quench
  deriving DecidableEq, Repr

/-- The lifecycle states, in their order (01, 13 R319). -/
inductive Lifecycle where
  | blank | manufacture | provisioned | field | returned
  deriving DecidableEq, Repr

/-- The causes of a device reset, one-hot in SYS_RSTCAUSE (13 R326). -/
inductive ResetCause where
  | por | pwrgood | pin | sw | reprov
  deriving DecidableEq, Repr

/-- What executes Wenak instructions: a control core, a service core, or the core of Wick (04 R91). -/
inductive Hart where
  | ctl (n : Fin 16)
  | svc (k : Fin 64)
  | wick
  deriving DecidableEq, Repr

/-- The two pools of engines a service program commands (08, 09). -/
inductive EnginePool where
  | cph | mau
  deriving DecidableEq, Repr

/-- The kinds of access the access table checks (07 R198). -/
inductive Access where
  | read | write | fetch | rmw
  deriving DecidableEq, Repr

end Sys2Proof
end

