-- ==== Sys2Proof/Machine/Wire.lean ====
section
/-!
DEFINITION. Machine/Wire.lean: bytes as numbers in both byte orders (00 R4), frames as they stand on a port
(02 R31-R37), the CRP headers (02 Tables 2.3, 2.4), and what the device sends.
-/

namespace Sys2Proof.Machine

/-- The number that bytes spell, most significant first. -/
def beNat (l : List Byte) : Nat := l.foldl (fun a b => a * 256 + b.toNat) 0

/-- The number that bytes spell, least significant first. -/
def leNat : List Byte → Nat
  | [] => 0
  | b :: t => b.toNat + 256 * leNat t

/-- `k` bytes of `n`, least significant first. -/
def leBytes : Nat → Nat → List Byte
  | 0, _ => []
  | k + 1, n => BitVec.ofNat 8 n :: leBytes k (n / 256)

/-- `k` bytes of `n`, most significant first. -/
def beBytes (k n : Nat) : List Byte := (leBytes k n).reverse

/-- `len` bytes from offset `off`; bytes beyond the end are absent. -/
def slice (l : List Byte) (off len : Nat) : List Byte := (l.drop off).take len

/-- The big-endian number at offset `off`. -/
def beAt (l : List Byte) (off len : Nat) : Nat := beNat (slice l off len)

/-- The little-endian number at offset `off`. -/
def leAt (l : List Byte) (off len : Nat) : Nat := leNat (slice l off len)

/-- `l` cut or zero-padded at the end to `n` bytes. -/
def padTo (n : Nat) (l : List Byte) : List Byte := l.take n ++ List.replicate (n - l.length) 0

/-- A frame as it arrives on a port: its bytes from the destination address to the last before the FCS, and whether its
FEC and its FCS are correct (02 R32, R43). -/
structure RxFrame where
  fecOk : Bool
  fcsOk : Bool
  bytes : List Byte
  deriving DecidableEq, Repr

/-- The length of the frame from the destination address to the FCS inclusive (02 Table 2.1). -/
def RxFrame.length (f : RxFrame) : Nat := f.bytes.length + 4

/-- How a response goes back (02 R34). -/
inductive Encap where
  | ether
  | udp (src dst : BitVec 128) (sport dport : BitVec 16) (tcFlow : BitVec 28)
  deriving DecidableEq, Repr

/-- The request header (02 Table 2.3). -/
structure CrpReq where
  verType : Nat := 0
  flags : Nat := 0
  service : Nat := 0
  cls : Nat := 0
  status : Nat := 0
  plen : Nat := 0
  requester : Nat := 0
  hostTag : Nat := 0
  seq : Nat := 0
  handle : Nat := 0
  param : Nat := 0
  deriving DecidableEq, Repr

/-- The header at the start of a CRP message. -/
def CrpReq.parse (m : List Byte) : CrpReq :=
  { verType := beAt m 0 1, flags := beAt m 1 1, service := beAt m 2 2, cls := beAt m 4 1,
    status := beAt m 5 1, plen := beAt m 6 2, requester := beAt m 8 4, hostTag := beAt m 12 4,
    seq := beAt m 16 8, handle := beAt m 24 8, param := beAt m 32 8 }

/-- TSREQ of the request's FLAGS. -/
def CrpReq.tsreq (r : CrpReq) : Bool := r.flags % 2 = 1

/-- The INDEX of a key handle (02 Table 2.6). -/
def handleIndex (h : Nat) : Nat := h % 2 ^ 34
/-- The VERSION field of a key handle. -/
def handleVersion (h : Nat) : Nat := h / 2 ^ 40 % 256
/-- The HCHK field of a key handle. -/
def handleCheck (h : Nat) : Nat := h / 2 ^ 48 % 2 ^ 16
/-- The reserved bits 39:34 of a key handle are zero. -/
def handleOk (h : Nat) : Bool := h / 2 ^ 34 % 64 = 0

/-- A response: the header fields of 02 Table 2.4 that are not echoed, the timestamp block and the payload. -/
structure Response where
  flags : Nat := 0
  status : Nat := 0
  detail : Nat := 0
  result : Nat := 0
  ts : Option (Nat × Nat) := none
  payload : List Byte := []
  deriving DecidableEq, Repr

/-- The bytes of a response to the request `q`, from the CRP header to the end of the payload (02 Table 2.4). -/
def Response.bytes (r : Response) (q : CrpReq) (devid : Nat) : List Byte :=
  [0x11, BitVec.ofNat 8 r.flags] ++ beBytes 2 q.service ++ [BitVec.ofNat 8 q.cls, BitVec.ofNat 8 r.status] ++
  beBytes 2 r.payload.length ++ beBytes 4 q.requester ++ beBytes 4 q.hostTag ++ beBytes 8 q.seq ++
  beBytes 4 devid ++ beBytes 4 r.detail ++ beBytes 8 r.result ++
  (match r.ts with
   | some (i, o) => beBytes 8 i ++ beBytes 8 o
   | none => []) ++ r.payload

/-- The Internet checksum's one's complement sum of 16-bit words. -/
def onesSum : List Byte → Nat
  | [] => 0
  | [a] => a.toNat * 256
  | a :: b :: t => a.toNat * 256 + b.toNat + onesSum t

/-- Fold a sum to 16 bits with end-around carry; four folds cover any frame. -/
def onesFold (n : Nat) : Nat :=
  let f := fun m : Nat => m % 65536 + m / 65536
  f (f (f (f n)))

/-- The UDP checksum over the pseudo-header, header and data; 0 is sent as 0xFFFF. -/
def udpChecksum (src dst : BitVec 128) (udp : List Byte) : Nat :=
  let s := onesSum (beBytes 16 src.toNat ++ beBytes 16 dst.toNat ++ beBytes 4 udp.length ++ [0, 0, 0, 17] ++ udp)
  let c := 65535 - onesFold s
  if c = 0 then 65535 else c

/-- What the device sends to the outside, recorded in `State.out`. -/
inductive OutEvent where
  /-- A frame on a port: its start, and its bytes from the destination address to the last before the FCS. -/
  | frame (port : Fin 4) (start : Nat) (bytes : List Byte)
  /-- A lease frame on LEASE_OUT. -/
  | lease (bits : List Byte)
  /-- Characters sent to a card. -/
  | card (slot : Fin 2) (bytes : List Byte)
  /-- A frame of the tag to the reader, and how many bits of its first byte the reader sent itself: the byte holds the
  bits that follow. -/
  | tag (skip : Nat) (bytes : List Byte)
  /-- The data register captured for the TAP. -/
  | tap (bits : Nat)
  deriving DecidableEq, Repr

end Sys2Proof.Machine
end

