-- ==== Sys2Proof/Machine/Sha.lean ====
section
/-!
DEFINITION. Machine/Sha.lean: the hash functions that 00 Table 0.5 names: SHA-2 (FIPS 180-4), HMAC (FIPS 198-1), SHA-3 and
SHAKE (FIPS 202), KMAC (SP 800-185). The spec names the standards and repeats none of their text: PRESUMED, log entry 11.
-/

namespace Sys2Proof.Machine

/-- The first `len` bytes of `l` in pieces of `n` bytes each. -/
def pieces (n : Nat) (l : List Byte) : List (List Byte) := (List.range (l.length / n)).map fun i => slice l (n * i) n

/-- Byte strings of equal length, bit by bit. -/
def xorBytes (a b : List Byte) : List Byte := List.zipWith (· ^^^ ·) a b

/-! ### SHA-2 (FIPS 180-4) -/

/-- The largest `r` below `2 ^ b` above `r0` whose `k`-th power is at most `n`, found bit by bit. -/
def rootFrom (k n : Nat) : Nat → Nat → Nat
  | 0, r => r
  | b + 1, r => rootFrom k n b (if (r + 2 ^ b) ^ k ≤ n then r + 2 ^ b else r)

/-- The first eighty primes. -/
def smallPrimes : List Nat :=
  (List.range 410).filter fun n => decide (2 ≤ n) && ((List.range n).all fun d => decide (d < 2) || decide (n % d ≠ 0))

/-- The first 64 bits of the fractional part of the `k`-th root of `p`. -/
def rootBits (k p : Nat) : Nat := rootFrom k (p * 2 ^ (64 * k)) 70 0 % 2 ^ 64

/-- What sets SHA-256 and SHA-512 apart: the rotations of Σ0, Σ1, σ0 and σ1, where the last of a σ is a shift, and the
rounds. -/
structure Sha2Form where
  big0 : Nat × Nat × Nat
  big1 : Nat × Nat × Nat
  small0 : Nat × Nat × Nat
  small1 : Nat × Nat × Nat
  rounds : Nat
  deriving DecidableEq, Repr

/-- SHA-256 and SHA-224. -/
def sha32 : Sha2Form := { big0 := (2, 13, 22), big1 := (6, 11, 25), small0 := (7, 18, 3), small1 := (17, 19, 10), rounds := 64 }
/-- SHA-512 and SHA-384. -/
def sha64 : Sha2Form := { big0 := (28, 34, 39), big1 := (14, 18, 41), small0 := (1, 8, 7), small1 := (19, 61, 6), rounds := 80 }

/-- A function Σ. -/
def bigSigma {w : Nat} (r : Nat × Nat × Nat) (x : BitVec w) : BitVec w :=
  x.rotateRight r.1 ^^^ x.rotateRight r.2.1 ^^^ x.rotateRight r.2.2
/-- A function σ. -/
def smallSigma {w : Nat} (r : Nat × Nat × Nat) (x : BitVec w) : BitVec w :=
  x.rotateRight r.1 ^^^ x.rotateRight r.2.1 ^^^ (x >>> r.2.2)

/-- The message schedule, latest word first, extended by `n` words. -/
def schedule {w : Nat} (f : Sha2Form) : Nat → List (BitVec w) → List (BitVec w)
  | 0, l => l
  | n + 1, l => schedule f n
      ((smallSigma f.small1 (l.getD 1 0) + l.getD 6 0 + smallSigma f.small0 (l.getD 14 0) + l.getD 15 0) :: l)

/-- One round on the eight working variables. -/
def sha2Round {w : Nat} (f : Sha2Form) (v : List (BitVec w)) (kw : BitVec w × BitVec w) : List (BitVec w) :=
  match v with
  | [a, b, c, d, e, g, h, i] =>
    let t1 := i + bigSigma f.big1 e + ((e &&& g) ^^^ (~~~e &&& h)) + kw.1 + kw.2
    let t2 := bigSigma f.big0 a + ((a &&& b) ^^^ (a &&& c) ^^^ (b &&& c))
    [t1 + t2, a, b, c, d + t1, e, g, h]
  | v => v

/-- The hash value after one block. -/
def sha2Compress {w : Nat} (f : Sha2Form) (k : List (BitVec w)) (hv : List (BitVec w)) (block : List Byte) : List (BitVec w) :=
  let ws := (schedule f (f.rounds - 16) ((pieces (w / 8) block).map fun x => BitVec.ofNat w (beNat x)).reverse).reverse
  List.zipWith (· + ·) hv ((k.zip ws).foldl (sha2Round f) hv)

/-- The padding to whole blocks: a one, zeros, the length in bits. -/
def sha2Pad (block : Nat) (msg : List Byte) : List Byte :=
  let len := block / 8
  let zeros := (2 * block - 1 - len - msg.length % block) % block
  msg ++ [0x80] ++ List.replicate zeros 0 ++ beBytes len (8 * msg.length)

/-- A SHA-2 digest of `out` bytes from initial words `iv`. -/
def sha2 (w : Nat) (f : Sha2Form) (iv : List Nat) (out : Nat) (msg : List Byte) : List Byte :=
  let k := (smallPrimes.take f.rounds).map fun p => BitVec.ofNat w (rootBits 3 p / 2 ^ (64 - w))
  let hv := (pieces (2 * w) (sha2Pad (2 * w) msg)).foldl (sha2Compress f k) (iv.map (BitVec.ofNat w))
  (hv.map fun x => beBytes (w / 8) x.toNat).flatten.take out

/-- SHA-2 by the length of its digest in bytes: 28, 32, 48, 64. -/
def sha2Digest (out : Nat) (msg : List Byte) : List Byte :=
  let roots := fun (from_ : Nat) => ((smallPrimes.drop from_).take 8).map (rootBits 2)
  if out = 28 then sha2 32 sha32 ((roots 8).map (· % 2 ^ 32)) 28 msg
  else if out = 32 then sha2 32 sha32 ((roots 0).map (· / 2 ^ 32)) 32 msg
  else if out = 48 then sha2 64 sha64 (roots 8) 48 msg
  else sha2 64 sha64 (roots 0) 64 msg

/-- HMAC over SHA-2 with a digest of `out` bytes; the key is no longer than the block. -/
def hmac (out : Nat) (key msg : List Byte) : List Byte :=
  let block := if out ≤ 32 then 64 else 128
  let k := padTo block key
  let pad := fun (b : Byte) => k.map (· ^^^ b)
  sha2Digest out (pad 0x5C ++ sha2Digest out (pad 0x36 ++ msg))

/-! ### Keccak (FIPS 202) -/

/-- The places of the lanes in the walk of ρ, from (1, 0). -/
def rhoWalk : Nat → Nat → Nat → List Nat
  | 0, _, _ => []
  | n + 1, x, y => (x + 5 * y) :: rhoWalk n y ((2 * x + 3 * y) % 5)

/-- The rotation of lane `i`. -/
def rhoOf (i : Nat) : Nat :=
  match (rhoWalk 24 1 0).findIdx? (fun j => decide (j = i)) with
  | some t => (t + 1) * (t + 2) / 2 % 64
  | none => 0

/-- The shift register of the round constants. -/
def rcLfsr : Nat → Nat → Nat
  | 0, r => r
  | n + 1, r => rcLfsr n (if r / 128 % 2 = 1 then (2 * r % 256) ^^^ 0x71 else 2 * r)

/-- The round constant of round `ir`. -/
def roundConst (ir : Nat) : BitVec 64 :=
  (List.range 7).foldl (fun a j => if rcLfsr (j + 7 * ir) 1 % 2 = 1 then a ||| (1#64 <<< (2 ^ j - 1)) else a) 0

/-- One round of Keccak-f[1600] on the 25 lanes; lane (x, y) stands at x + 5 y. -/
def keccakRound (a : List (BitVec 64)) (rc : BitVec 64) : List (BitVec 64) :=
  let at_ := fun (l : List (BitVec 64)) (x y : Nat) => l.getD (x % 5 + 5 * (y % 5)) 0
  let c := (List.range 5).map fun x => at_ a x 0 ^^^ at_ a x 1 ^^^ at_ a x 2 ^^^ at_ a x 3 ^^^ at_ a x 4
  let d := (List.range 5).map fun x => c.getD ((x + 4) % 5) 0 ^^^ (c.getD ((x + 1) % 5) 0).rotateLeft 1
  let r := (List.range 25).map fun i => (a.getD i 0 ^^^ d.getD (i % 5) 0).rotateLeft (rhoOf i)
  let b := (List.range 25).map fun i => at_ r (i % 5 + 3 * (i / 5)) (i % 5)
  (List.range 25).map fun i =>
    let x := i % 5
    let y := i / 5
    (b.getD i 0 ^^^ (~~~(at_ b (x + 1) y) &&& at_ b (x + 2) y)) ^^^ (if i = 0 then rc else 0)

/-- Keccak-f[1600]. -/
def keccakF (a : List (BitVec 64)) : List (BitVec 64) := ((List.range 24).map roundConst).foldl keccakRound a

/-- Squeeze `n` blocks of `rate` bytes. -/
def squeeze (rate : Nat) : Nat → List (BitVec 64) → List Byte
  | 0, _ => []
  | n + 1, a => (a.map fun x => leBytes 8 x.toNat).flatten.take rate ++ squeeze rate n (keccakF a)

/-- The sponge: `out` bytes of the message at a rate of `rate` bytes, with the first byte of its padding. -/
def sponge (rate : Nat) (suffix : Byte) (out : Nat) (msg : List Byte) : List Byte :=
  let m := msg ++ [suffix] ++ List.replicate ((rate - 1 - msg.length % rate) % rate) 0
  let m := m.take (m.length - 1) ++ [m.getLastD 0 ||| 0x80]
  let a := (pieces rate m).foldl (fun a p =>
    keccakF ((List.range 25).map fun i => a.getD i 0 ^^^ BitVec.ofNat 64 (leAt p (8 * i) 8))) (List.replicate 25 0)
  (squeeze rate ((out + rate - 1) / rate) a).take out

/-- SHA3 with a digest of `out` bytes. -/
def sha3 (out : Nat) (msg : List Byte) : List Byte := sponge (200 - 2 * out) 0x06 out msg
/-- SHAKE128. -/
def shake128 (out : Nat) (msg : List Byte) : List Byte := sponge 168 0x1F out msg
/-- SHAKE256. -/
def shake256 (out : Nat) (msg : List Byte) : List Byte := sponge 136 0x1F out msg

/-- A number in as few bytes as it needs, at least one. -/
def fewBytes (n : Nat) : List Byte := beBytes (max 1 ((Nat.log2 n) / 8 + 1)) n
/-- left_encode of SP 800-185. -/
def leftEncode (n : Nat) : List Byte := [BitVec.ofNat 8 (fewBytes n).length] ++ fewBytes n
/-- right_encode. -/
def rightEncode (n : Nat) : List Byte := fewBytes n ++ [BitVec.ofNat 8 (fewBytes n).length]
/-- encode_string. -/
def encodeString (s : List Byte) : List Byte := leftEncode (8 * s.length) ++ s
/-- bytepad. -/
def bytePad (rate : Nat) (x : List Byte) : List Byte :=
  let z := leftEncode rate ++ x
  z ++ List.replicate ((rate - z.length % rate) % rate) 0

/-- KMAC at the rate of its strength: 168 for KMAC128, 136 for KMAC256; `out` bytes of key, customisation string and
message. -/
def kmac (rate out : Nat) (key s msg : List Byte) : List Byte :=
  sponge rate 0x04 out (bytePad rate (encodeString [0x4B, 0x4D, 0x41, 0x43] ++ encodeString s) ++
    bytePad rate (encodeString key) ++ msg ++ rightEncode (8 * out))

/-! ### By operation (08 Table 8.1) -/

/-- A hash operation of 08 Table 8.1, with its output length in bytes. -/
def hash (op out : Nat) (msg : List Byte) : List Byte :=
  match op with
  | 0x0201 => sha2Digest 28 msg
  | 0x0202 => sha2Digest 32 msg
  | 0x0203 => sha2Digest 48 msg
  | 0x0204 => sha2Digest 64 msg
  | 0x0301 => sha3 28 msg
  | 0x0302 => sha3 32 msg
  | 0x0303 => sha3 48 msg
  | 0x0304 => sha3 64 msg
  | 0x0311 => shake128 out msg
  | _ => shake256 out msg

end Sys2Proof.Machine
end

