-- ==== Sys2Proof/Machine/Ec.lean ====
section
/-! DEFINITION. Machine/Ec.lean: ECDSA on P-256 and P-384 (FIPS 186-5) and the deterministic nonce of RFC 6979, on which
06 R189, 08 R211, 09 R236 and 17 R393 rest. PRESUMED from the standards, log entry 11. -/

namespace Sys2Proof.Machine

/-- `b ^ e mod m`, `f` bits of the exponent. -/
def powMod (b m : Nat) : Nat → Nat → Nat
  | 0, _ => 1 % m
  | f + 1, e =>
    let h := powMod (b * b % m) m f (e / 2)
    if e % 2 = 1 then h * b % m else h

/-- A curve y² = x³ − 3x + b over a prime field, its base point, of prime order `n`, and the bytes of a coordinate. -/
structure Curve where
  size : Nat
  p : Nat
  b : Nat
  n : Nat
  gx : Nat
  gy : Nat
  deriving DecidableEq, Repr

/-- P-256. -/
def p256 : Curve :=
  { size := 32
    p := 2 ^ 256 - 2 ^ 224 + 2 ^ 192 + 2 ^ 96 - 1
    b := 0x5AC635D8AA3A93E7B3EBBD55769886BC651D06B0CC53B0F63BCE3C3E27D2604B
    n := 0xFFFFFFFF00000000FFFFFFFFFFFFFFFFBCE6FAADA7179E84F3B9CAC2FC632551
    gx := 0x6B17D1F2E12C4247F8BCE6E563A440F277037D812DEB33A0F4A13945D898C296
    gy := 0x4FE342E2FE1A7F9B8EE7EB4A7C0F9E162BCE33576B315ECECBB6406837BF51F5 }

/-- P-384. -/
def p384 : Curve :=
  { size := 48
    p := 2 ^ 384 - 2 ^ 128 - 2 ^ 96 + 2 ^ 32 - 1
    b := 0xB3312FA7E23EE7E4988E056BE3F82D19181D9C6EFE8141120314088F5013875AC656398D8A2ED19D2A85C8EDD3EC2AEF
    n := 0xFFFFFFFFFFFFFFFFFFFFFFFFFFFFFFFFFFFFFFFFFFFFFFFFC7634D81F4372DDF581A0DB248B0A77AECEC196ACCC52973
    gx := 0xAA87CA22BE8B05378EB1C71EF320AD746E1D3B628BA79B9859F741E082542A385502F25DBF55296C3A545E3872760AB7
    gy := 0x3617DE4A96262C6F5D9E98BF9292DC29F8F41DBD289A147CE9DA3113B5F0B8C00A60B1CE1D7E819D7A431D7C90EA0E5F }

/-- A point, or none at infinity. -/
abbrev Point := Option (Nat × Nat)

/-- The inverse modulo a prime of at most 384 bits. -/
def invMod (a p : Nat) : Nat := powMod a p 384 (p - 2)

/-- (x, y) is a point of the curve. -/
def Curve.on (c : Curve) (x y : Nat) : Bool :=
  decide (x < c.p) && decide (y < c.p) && decide ((y * y + 3 * x) % c.p = (x * x * x + c.b) % c.p)

/-- The point on the line of slope `l` through (x1, y1) and a point of x-coordinate x2. -/
def Curve.chord (c : Curve) (l x1 y1 x2 : Nat) : Point :=
  let x := (l * l + 2 * c.p - x1 - x2) % c.p
  some (x, (l * (x1 + c.p - x) + c.p - y1) % c.p)

/-- The sum of two points. -/
def Curve.add (c : Curve) : Point → Point → Point
  | none, q => q
  | p, none => p
  | some (x1, y1), some (x2, y2) =>
    if x1 = x2 then
      if (y1 + y2) % c.p = 0 then none
      else c.chord ((3 * x1 * x1 + c.p * 3 - 3) * invMod (2 * y1 % c.p) c.p % c.p) x1 y1 x2
    else c.chord ((y2 + c.p - y1) * invMod ((x2 + c.p - x1) % c.p) c.p % c.p) x1 y1 x2

/-- `k` times a point, `f` bits of `k`. -/
def Curve.mul (c : Curve) : Nat → Nat → Point → Point
  | 0, _, _ => none
  | f + 1, k, q => let h := c.mul f (k / 2) (c.add q q)
                   if k % 2 = 1 then c.add h q else h

/-- `k` times the point. -/
def Curve.scale (c : Curve) (k : Nat) (q : Point) : Point := c.mul (8 * c.size) k q

/-- The base point. -/
def Curve.base (c : Curve) : Point := some (c.gx, c.gy)

/-- A scalar in [1, n − 1]. -/
def Curve.scalarOk (c : Curve) (k : Nat) : Bool := decide (1 ≤ k) && decide (k < c.n)

/-- An ECDSA signature (r, s) of the digest `h` under the key `d` with the nonce `k`; none where r or s is 0. -/
def Curve.sign (c : Curve) (d k h : Nat) : Option (Nat × Nat) :=
  match c.scale k c.base with
  | none => none
  | some (x, _) =>
    let r := x % c.n
    let s := invMod k c.n * (h + r * d) % c.n
    if r = 0 ∨ s = 0 then none else some (r, s)

/-- An ECDSA signature of the digest `h` verifies under a point of the curve. -/
def Curve.verify (c : Curve) (qx qy h r s : Nat) : Bool :=
  c.scalarOk r && c.scalarOk s &&
  (let w := invMod s c.n
   match c.add (c.scale (h * w % c.n) c.base) (c.scale (r * w % c.n) (some (qx, qy))) with
   | none => false
   | some (x, _) => decide (x % c.n = r))

/-- An ECDSA P-256 signature over SHA-256 of a message verifies under a public key x ‖ y. -/
def ecdsaVerifies (key msg sig : List Byte) : Bool :=
  p256.on (beAt key 0 32) (beAt key 32 32) &&
  p256.verify (beAt key 0 32) (beAt key 32 32) (beNat (sha2Digest 32 msg)) (beAt sig 0 32) (beAt sig 32 32)

/-! ### RFC 6979, section 3.2 -/

/-- The HMAC of the process: its state V and K after more input. -/
def nonceUpdate (size : Nat) (v k : List Byte) (sep : Byte) (more : List Byte) : List Byte × List Byte :=
  let k := hmac size k (v ++ [sep] ++ more)
  (hmac size k v, k)

/-- At most two candidates for k, of the key `d` and the digest `h`; none where both are rejected (08 Table 8.6). -/
def Curve.nonce (c : Curve) (d h : List Byte) : Option Nat :=
  let seed := d ++ beBytes c.size (beNat h % c.n)
  let s := nonceUpdate c.size (List.replicate c.size 1) (List.replicate c.size 0) 0 seed
  let s := nonceUpdate c.size s.1 s.2 1 seed
  let v := hmac c.size s.2 s.1
  if c.scalarOk (beNat v) then some (beNat v)
  else
    let s := nonceUpdate c.size v s.2 0 []
    let v := hmac c.size s.2 s.1
    if c.scalarOk (beNat v) then some (beNat v) else none

end Sys2Proof.Machine
end

