-- ==== Sys2Proof/Config.lean ====
section
/-!
DEFINITION. Config.lean: what the spec leaves open. Every constant here has no body: nothing in Lean can evaluate it,
so a claim holds whatever it is (log entry 5).
-/

namespace Sys2Proof.Config

/-- A value the spec leaves open, drawn with the state's counter. -/
opaque freeWord : Nat → BitVec 64
/-- A byte the spec leaves open. -/
opaque freeByte : Nat → BitVec 8
/-- A bit the spec leaves open. -/
opaque freeBit : Nat → Bool
/-- The public ECDSA P-384 key x ‖ y of key pair KEYID; where Kindling finds it is left open (13 R317). -/
opaque imageEcKey : Nat → BitVec 768
/-- The public ML-DSA-65 key of key pair KEYID; where Kindling finds it is left open (13 R317). -/
opaque imagePqKey : Nat → BitVec 15616
/-- The digest of key pair KEYID that the cells of the factory OTP region hold; its place is left open (13 R317, 14
R331). -/
opaque keyDigest : List (Nat × BitVec 8) → Nat → List (BitVec 8)
/-- The address of Kindling's QUENCH entry in ROM (13 R321). -/
opaque quenchEntry : BitVec 48
/-- The MAC address of a port that the cells of the factory OTP region hold (19 Table 19.1). -/
opaque factoryMac : List (Nat × BitVec 8) → Nat → BitVec 48
/-- The serial number that the cells of the factory OTP region hold; its place is left open (14 R331). -/
opaque factorySerial : List (Nat × BitVec 8) → BitVec 64
/-- INDEX of CORE_ID on Wick's core (04 Table 4.7 gives it for the two kinds of the logic die alone). -/
opaque wickIndex : BitVec 8
/-- The bytes of the tag's UID, fixed at manufacture from the serial number (18 R397). -/
opaque tagUid : BitVec 64 → Nat → BitVec 8
/-- What the four bits of ADM_POOLp_STAT.SPARES show for a count of spares above 15 (03 R90). -/
opaque manySpares : Nat → BitVec 4
/-- A factory calibration word that the cells of the factory OTP region hold: item, index, word (19 Table 19.1). -/
opaque factoryCal : List (Nat × BitVec 8) → Nat → Nat → Nat → BitVec 32
/-- How many words of the engine bound table stand at an index of the overlay; none where the index is unknown. Item 3
names no layout (19 Table 19.1). -/
opaque boundWords : Nat → Nat
/-- By how much the words of overlay item 3, with their index and place, raise the duration of an operation: pool, opcode,
length, flags; below a quarter of it and one (19 Table 19.1). -/
opaque boundRaise : List (Nat × Nat × BitVec 32) → Nat → Nat → Nat → Nat → Nat
/-- The low or the high limit that an overlay's tamper threshold word spells: one word holds both, in a layout that is
left open (19 Tables 19.1 and 19.3). -/
opaque tmpLimit : Nat → Bool → BitVec 32 → BitVec 32
/-- The factory threshold of the light sensors, 0.5 µW/mm², in the units of source 22, which are left open (15
Table 15.1, 19 Table 19.3). -/
opaque lightLimit : BitVec 32
/-- Ralhorn's JEDEC manufacturer identity (19 R425). -/
opaque jedecId : BitVec 11
/-- The recovery roster and its threshold that the cells of the factory OTP region hold; their place is left open
(17 R392). -/
opaque recoveryRoster : List (Nat × BitVec 8) → List (BitVec 256) × Nat
/-- The sealing key that a BMK gives (10 R266). -/
opaque sealingKey : BitVec 256 → BitVec 256
/-- The root of the counter tree that maps indices to log sequence numbers; the tree's layout is internal (10 R266). -/
opaque treeRoot : List (Nat × Nat) → BitVec 256
/-- The bytes of a root record of ROOTSEQ, tree root, log position and JSEQ_SNAP; its layout is left open (10 R270). -/
opaque rootByte : Nat → BitVec 256 → Nat → Nat → Nat → BitVec 8

end Sys2Proof.Config
end

