-- ==== Sys2Proof/Machine/Regs.lean ====
section
/-!
DEFINITION. Machine/Regs.lean: the address, the fields and the access types of every register of the register
tables of spec/ (00 R5, R8, R9 and the Registers section of each chapter). A register is named as the spec names it;
an indexed register takes its index. Fields are named REGISTER_FIELD.
-/

namespace Sys2Proof.Machine

/-- A field of a register: the register's address, the lowest bit and the width (00 R5). -/
structure Fld where
  addr : Nat
  lo : Nat
  width : Nat
  deriving DecidableEq, Repr

/-- One row of the register map: registers `base + stride * k` for `k < count`, 64 bits wide when `dbl`; the bits
a plain write sets (`rw`), the bits a written 1 clears (`w1c`) (00 R9), and whether the register is held in two
banks (03 R69, 06 R182). -/
structure RegRow where
  base : Nat
  stride : Nat
  count : Nat
  dbl : Bool
  rw : Nat
  w1c : Nat
  banked : Bool
  deriving DecidableEq, Repr

/-! ### Identification (00 R2) -/

abbrev SYS_ID : Nat := 0x40000000
abbrev SYS_ID_PART : Fld := ⟨SYS_ID, 16, 16⟩
abbrev SYS_ID_STEP_MAJ : Fld := ⟨SYS_ID, 12, 4⟩
abbrev SYS_ID_STEP_MIN : Fld := ⟨SYS_ID, 8, 4⟩
abbrev SYS_ID_PKG : Fld := ⟨SYS_ID, 0, 8⟩

/-! ### SVC and ETH (02 R66, R67) -/

abbrev SVC_CTRL : Nat := 0x40200000
abbrev SVC_CTRL_MSEC_REQ : Fld := ⟨SVC_CTRL, 3, 1⟩
abbrev SVC_CTRL_UDP_EN : Fld := ⟨SVC_CTRL, 2, 1⟩
abbrev SVC_CTRL_ETYPE_EN : Fld := ⟨SVC_CTRL, 1, 1⟩
abbrev SVC_CTRL_EN : Fld := ⟨SVC_CTRL, 0, 1⟩

abbrev SVC_PORTCFG : Nat := 0x40200004
abbrev SVC_PORTCFG_P3_HOST : Fld := ⟨SVC_PORTCFG, 8, 1⟩
abbrev SVC_PORTCFG_PORT_EN : Fld := ⟨SVC_PORTCFG, 0, 4⟩

abbrev SVC_UDP : Nat := 0x40200008
abbrev SVC_UDP_UDP_PORT : Fld := ⟨SVC_UDP, 0, 16⟩

abbrev SVC_DEVID : Nat := 0x4020000c
abbrev SVC_DEVID_DEVID : Fld := ⟨SVC_DEVID, 0, 32⟩

abbrev SVC_EVT : Nat := 0x40200010
abbrev SVC_EVT_RQ_SEQ_MAX : Fld := ⟨SVC_EVT, 4, 1⟩
abbrev SVC_EVT_CFG_REJ : Fld := ⟨SVC_EVT, 3, 1⟩
abbrev SVC_EVT_MGQ_OVF : Fld := ⟨SVC_EVT, 2, 1⟩
abbrev SVC_EVT_RESP_DROP : Fld := ⟨SVC_EVT, 1, 1⟩
abbrev SVC_EVT_PN_THRESH : Fld := ⟨SVC_EVT, 0, 1⟩

abbrev SVC_MGQ_CTRL : Nat := 0x40200014
abbrev SVC_MGQ_CTRL_EN : Fld := ⟨SVC_MGQ_CTRL, 31, 1⟩
abbrev SVC_MGQ_CTRL_RX_HEAD : Fld := ⟨SVC_MGQ_CTRL, 16, 6⟩
abbrev SVC_MGQ_CTRL_RX_TAIL : Fld := ⟨SVC_MGQ_CTRL, 0, 6⟩

abbrev SVC_MGT_GO : Nat := 0x40200018
abbrev SVC_MGT_GO_TSCAP : Fld := ⟨SVC_MGT_GO, 23, 1⟩
abbrev SVC_MGT_GO_SLOT : Fld := ⟨SVC_MGT_GO, 16, 4⟩
abbrev SVC_MGT_GO_PORT : Fld := ⟨SVC_MGT_GO, 8, 2⟩
abbrev SVC_MGT_GO_GO : Fld := ⟨SVC_MGT_GO, 0, 1⟩

abbrev SVC_MGQ_BASE : Nat := 0x40200020
abbrev SVC_MGQ_BASE_BASE : Fld := ⟨SVC_MGQ_BASE, 11, 37⟩

abbrev SVC_MAC (n : Nat) : Nat := 0x40200040 + 8 * n
abbrev SVC_MAC_MAC (n : Nat) : Fld := ⟨(SVC_MAC n), 0, 48⟩

abbrev SVC_IP6 (n : Nat) : Nat := 0x40200080 + 4 * n
abbrev SVC_IP6_ADDR (n : Nat) : Fld := ⟨(SVC_IP6 n), 0, 32⟩

abbrev SVC_RQ_SEL : Nat := 0x40200100
abbrev SVC_RQ_SEL_INDEX : Fld := ⟨SVC_RQ_SEL, 0, 6⟩

abbrev SVC_RQ_ID : Nat := 0x40200104
abbrev SVC_RQ_ID_ID : Fld := ⟨SVC_RQ_ID, 0, 32⟩

abbrev SVC_RQ_CFG : Nat := 0x40200108
abbrev SVC_RQ_CFG_EN : Fld := ⟨SVC_RQ_CFG, 31, 1⟩
abbrev SVC_RQ_CFG_PLAIN : Fld := ⟨SVC_RQ_CFG, 16, 4⟩
abbrev SVC_RQ_CFG_RXSC : Fld := ⟨SVC_RQ_CFG, 0, 16⟩

abbrev SVC_RQ_FLOOR : Nat := 0x40200110
abbrev SVC_RQ_FLOOR_FLOOR : Fld := ⟨SVC_RQ_FLOOR, 0, 64⟩

abbrev SVC_RQ_HIGH : Nat := 0x40200118
abbrev SVC_RQ_HIGH_HIGH : Fld := ⟨SVC_RQ_HIGH, 0, 64⟩

abbrev ETH_MSEC_CTRL (n : Nat) : Nat := 0x41300000 + 4 * n
abbrev ETH_MSEC_CTRL_RPWIN (n : Nat) : Fld := ⟨(ETH_MSEC_CTRL n), 16, 16⟩
abbrev ETH_MSEC_CTRL_EN (n : Nat) : Fld := ⟨(ETH_MSEC_CTRL n), 8, 1⟩
abbrev ETH_MSEC_CTRL_TXAN (n : Nat) : Fld := ⟨(ETH_MSEC_CTRL n), 0, 2⟩

abbrev ETH_MSEC_SEL : Nat := 0x41300010
abbrev ETH_MSEC_SEL_PORT : Fld := ⟨ETH_MSEC_SEL, 6, 2⟩
abbrev ETH_MSEC_SEL_DIR : Fld := ⟨ETH_MSEC_SEL, 5, 1⟩
abbrev ETH_MSEC_SEL_SC : Fld := ⟨ETH_MSEC_SEL, 3, 2⟩
abbrev ETH_MSEC_SEL_AN : Fld := ⟨ETH_MSEC_SEL, 0, 2⟩

abbrev ETH_MSEC_SA : Nat := 0x41300014
abbrev ETH_MSEC_SA_VALID : Fld := ⟨ETH_MSEC_SA, 31, 1⟩
abbrev ETH_MSEC_SA_BUSY : Fld := ⟨ETH_MSEC_SA, 30, 1⟩
abbrev ETH_MSEC_SA_ERR : Fld := ⟨ETH_MSEC_SA, 29, 1⟩
abbrev ETH_MSEC_SA_KSLOT : Fld := ⟨ETH_MSEC_SA, 0, 16⟩

abbrev ETH_MSEC_SSCI : Nat := 0x41300018
abbrev ETH_MSEC_SSCI_SSCI : Fld := ⟨ETH_MSEC_SSCI, 0, 32⟩

abbrev ETH_MSEC_SCI : Nat := 0x41300020
abbrev ETH_MSEC_SCI_SCI : Fld := ⟨ETH_MSEC_SCI, 0, 64⟩

abbrev ETH_MSEC_PN : Nat := 0x41300028
abbrev ETH_MSEC_PN_PN : Fld := ⟨ETH_MSEC_PN, 0, 64⟩

/-! ### ADM (03 R90) -/

abbrev ADM_CTRL : Nat := 0x40300000
abbrev ADM_CTRL_STALE_US : Fld := ⟨ADM_CTRL, 8, 8⟩
abbrev ADM_CTRL_FASTCLS : Fld := ⟨ADM_CTRL, 4, 3⟩
abbrev ADM_CTRL_EN : Fld := ⟨ADM_CTRL, 0, 1⟩

abbrev ADM_STAT : Nat := 0x40300004
abbrev ADM_STAT_CLAMP : Fld := ⟨ADM_STAT, 22, 1⟩
abbrev ADM_STAT_STALE : Fld := ⟨ADM_STAT, 21, 1⟩
abbrev ADM_STAT_LANTERN : Fld := ⟨ADM_STAT, 19, 2⟩
abbrev ADM_STAT_RNG_SEV : Fld := ⟨ADM_STAT, 18, 1⟩
abbrev ADM_STAT_BANK : Fld := ⟨ADM_STAT, 16, 1⟩
abbrev ADM_STAT_USED : Fld := ⟨ADM_STAT, 0, 14⟩

abbrev ADM_EVT : Nat := 0x40300008
abbrev ADM_EVT_SHRINK : Fld := ⟨ADM_EVT, 5, 1⟩
abbrev ADM_EVT_OVERRUN : Fld := ⟨ADM_EVT, 4, 1⟩
abbrev ADM_EVT_EPOCH_ERR : Fld := ⟨ADM_EVT, 3, 1⟩
abbrev ADM_EVT_STALE : Fld := ⟨ADM_EVT, 2, 1⟩
abbrev ADM_EVT_TAPER_BEYOND : Fld := ⟨ADM_EVT, 1, 1⟩
abbrev ADM_EVT_TAPER_UP : Fld := ⟨ADM_EVT, 0, 1⟩

abbrev ADM_EPOCH : Nat := 0x4030000c
abbrev ADM_EPOCH_SWITCH : Fld := ⟨ADM_EPOCH, 31, 1⟩
abbrev ADM_EPOCH_BUSY : Fld := ⟨ADM_EPOCH, 30, 1⟩
abbrev ADM_EPOCH_NUM : Fld := ⟨ADM_EPOCH, 0, 16⟩

abbrev ADM_EPOCH_DRAIN : Nat := 0x40300010
abbrev ADM_EPOCH_DRAIN_OLD_LIVE : Fld := ⟨ADM_EPOCH_DRAIN, 0, 14⟩

abbrev ADM_LGUARD : Nat := 0x40300014
abbrev ADM_LGUARD_DECAY : Fld := ⟨ADM_LGUARD, 16, 16⟩
abbrev ADM_LGUARD_SLEW : Fld := ⟨ADM_LGUARD, 8, 8⟩
abbrev ADM_LGUARD_GMAX : Fld := ⟨ADM_LGUARD, 0, 8⟩

abbrev ADM_TAPER : Nat := 0x40300018
abbrev ADM_TAPER_XMARGIN : Fld := ⟨ADM_TAPER, 16, 16⟩
abbrev ADM_TAPER_TMARGIN : Fld := ⟨ADM_TAPER, 0, 16⟩

abbrev ADM_REFRESH : Nat := 0x4030001c
abbrev ADM_REFRESH_CLAMP : Fld := ⟨ADM_REFRESH, 0, 1⟩

abbrev ADM_FETCH_HOT : Nat := 0x40300020
abbrev ADM_FETCH_HOT_COST : Fld := ⟨ADM_FETCH_HOT, 0, 32⟩

abbrev ADM_FETCH_SEAL : Nat := 0x40300024
abbrev ADM_FETCH_SEAL_COST : Fld := ⟨ADM_FETCH_SEAL, 0, 32⟩

abbrev ADM_TEMPO (n : Nat) : Nat := 0x40300040 + 4 * n
abbrev ADM_TEMPO_FACTOR (n : Nat) : Fld := ⟨(ADM_TEMPO n), 0, 32⟩

abbrev ADM_TEFF (n : Nat) : Nat := 0x40300050 + 4 * n
abbrev ADM_TEFF_FACTOR (n : Nat) : Fld := ⟨(ADM_TEFF n), 0, 32⟩

abbrev ADM_TAPRD (n : Nat) : Nat := 0x40300060 + 4 * n
abbrev ADM_TAPRD_RATIO (n : Nat) : Fld := ⟨(ADM_TAPRD n), 0, 32⟩

abbrev ADM_ACT (n : Nat) : Nat := 0x40300070 + 4 * n
abbrev ADM_ACT_ACT (n : Nat) : Fld := ⟨(ADM_ACT n), 0, 17⟩

abbrev ADM_CLASS_BOUND (n : Nat) : Nat := 0x40300080 + 8 * n
abbrev ADM_CLASS_BOUND_BOUND (n : Nat) : Fld := ⟨(ADM_CLASS_BOUND n), 0, 32⟩

abbrev ADM_CLASS_CFG (n : Nat) : Nat := 0x40300084 + 8 * n
abbrev ADM_CLASS_CFG_CUST_OK (n : Nat) : Fld := ⟨(ADM_CLASS_CFG n), 31, 1⟩
abbrev ADM_CLASS_CFG_MAXENT (n : Nat) : Fld := ⟨(ADM_CLASS_CFG n), 0, 14⟩

abbrev ADM_POOL_CFG (n : Nat) : Nat := 0x40300100 + 32 * n
abbrev ADM_POOL_CFG_FAST (n : Nat) : Fld := ⟨(ADM_POOL_CFG n), 8, 8⟩
abbrev ADM_POOL_CFG_LONG_CAP (n : Nat) : Fld := ⟨(ADM_POOL_CFG n), 0, 8⟩

abbrev ADM_POOL_LONG_NS (n : Nat) : Nat := 0x40300104 + 32 * n
abbrev ADM_POOL_LONG_NS_LONG_NS (n : Nat) : Fld := ⟨(ADM_POOL_LONG_NS n), 0, 27⟩

abbrev ADM_POOL_STAT (n : Nat) : Nat := 0x40300108 + 32 * n
abbrev ADM_POOL_STAT_SPARES (n : Nat) : Fld := ⟨(ADM_POOL_STAT n), 16, 4⟩
abbrev ADM_POOL_STAT_ACTIVE (n : Nat) : Fld := ⟨(ADM_POOL_STAT n), 8, 8⟩
abbrev ADM_POOL_STAT_MEFF (n : Nat) : Fld := ⟨(ADM_POOL_STAT n), 0, 8⟩

abbrev ADM_POOL_BS (n : Nat) : Nat := 0x4030010c + 32 * n
abbrev ADM_POOL_BS_NS (n : Nat) : Fld := ⟨(ADM_POOL_BS n), 0, 32⟩

abbrev ADM_POOL_BL (n : Nat) : Nat := 0x40300110 + 32 * n
abbrev ADM_POOL_BL_NS (n : Nat) : Fld := ⟨(ADM_POOL_BL n), 0, 32⟩

abbrev ADM_POOL_BF (n : Nat) : Nat := 0x40300114 + 32 * n
abbrev ADM_POOL_BF_NS (n : Nat) : Fld := ⟨(ADM_POOL_BF n), 0, 32⟩

abbrev ADM_PORT (n : Nat) : Nat := 0x40300280 + 4 * n
abbrev ADM_PORT_MAXRESP (n : Nat) : Fld := ⟨(ADM_PORT n), 0, 14⟩

/-- Word `w` of the entry of service `svc`. -/
abbrev ADM_COST (svc w : Nat) : Nat := 0x40340000 + 32 * svc + 4 * w
/-! ### DSP (06 R192) -/

abbrev DSP_CTRL : Nat := 0x40400000
abbrev DSP_CTRL_IREQ_EN : Fld := ⟨DSP_CTRL, 0, 1⟩

abbrev DSP_STAT : Nat := 0x40400004
abbrev DSP_STAT_BANK : Fld := ⟨DSP_STAT, 16, 1⟩
abbrev DSP_STAT_LIVE : Fld := ⟨DSP_STAT, 0, 14⟩

abbrev DSP_EVT : Nat := 0x40400008
abbrev DSP_EVT_IREQ_BUSY : Fld := ⟨DSP_EVT, 5, 1⟩
abbrev DSP_EVT_RESP_BAD : Fld := ⟨DSP_EVT, 4, 1⟩
abbrev DSP_EVT_PROG_EXC : Fld := ⟨DSP_EVT, 3, 1⟩
abbrev DSP_EVT_EPOCH_ERR : Fld := ⟨DSP_EVT, 2, 1⟩
abbrev DSP_EVT_LDR_ERR : Fld := ⟨DSP_EVT, 1, 1⟩
abbrev DSP_EVT_LDR_DONE : Fld := ⟨DSP_EVT, 0, 1⟩

abbrev DSP_EPOCH : Nat := 0x4040000c
abbrev DSP_EPOCH_SWITCH : Fld := ⟨DSP_EPOCH, 31, 1⟩
abbrev DSP_EPOCH_BUSY : Fld := ⟨DSP_EPOCH, 30, 1⟩
abbrev DSP_EPOCH_ERR : Fld := ⟨DSP_EPOCH, 16, 8⟩
abbrev DSP_EPOCH_NUM : Fld := ⟨DSP_EPOCH, 0, 16⟩

abbrev DSP_EPOCH_ESVC : Nat := 0x40400010
abbrev DSP_EPOCH_ESVC_ESVC : Fld := ⟨DSP_EPOCH_ESVC, 0, 12⟩

abbrev DSP_EPOCH_DRAIN : Nat := 0x40400014
abbrev DSP_EPOCH_DRAIN_OLD_LIVE : Fld := ⟨DSP_EPOCH_DRAIN, 0, 14⟩

abbrev DSP_LDR_SRC : Nat := 0x40400020
abbrev DSP_LDR_SRC_ADDR : Fld := ⟨DSP_LDR_SRC, 4, 44⟩

abbrev DSP_LDR_CTRL : Nat := 0x40400028
abbrev DSP_LDR_CTRL_GO : Fld := ⟨DSP_LDR_CTRL, 31, 1⟩
abbrev DSP_LDR_CTRL_BUSY : Fld := ⟨DSP_LDR_CTRL, 30, 1⟩
abbrev DSP_LDR_CTRL_SLOT : Fld := ⟨DSP_LDR_CTRL, 0, 10⟩

abbrev DSP_LDR_RES : Nat := 0x4040002c
abbrev DSP_LDR_RES_INDEX : Fld := ⟨DSP_LDR_RES, 16, 12⟩
abbrev DSP_LDR_RES_ERR : Fld := ⟨DSP_LDR_RES, 0, 8⟩

abbrev DSP_LDR_CFG : Nat := 0x40400030
abbrev DSP_LDR_CFG_KEY_NS : Fld := ⟨DSP_LDR_CFG, 8, 8⟩
abbrev DSP_LDR_CFG_ISSUE_NS : Fld := ⟨DSP_LDR_CFG, 0, 8⟩

abbrev DSP_LDR_MIR : Nat := 0x40400034
abbrev DSP_LDR_MIR_NS : Fld := ⟨DSP_LDR_MIR, 0, 27⟩

abbrev DSP_PSLOT_SEL : Nat := 0x40400038
abbrev DSP_PSLOT_SEL_SLOT : Fld := ⟨DSP_PSLOT_SEL, 0, 10⟩

abbrev DSP_PSLOT_STAT : Nat := 0x4040003c
abbrev DSP_PSLOT_STAT_FREE : Fld := ⟨DSP_PSLOT_STAT, 31, 1⟩
abbrev DSP_PSLOT_STAT_LOADED : Fld := ⟨DSP_PSLOT_STAT, 30, 1⟩
abbrev DSP_PSLOT_STAT_IN_ACTIVE : Fld := ⟨DSP_PSLOT_STAT, 29, 1⟩
abbrev DSP_PSLOT_STAT_IN_INACTIVE : Fld := ⟨DSP_PSLOT_STAT, 28, 1⟩
abbrev DSP_PSLOT_STAT_LIVE : Fld := ⟨DSP_PSLOT_STAT, 0, 14⟩

abbrev DSP_PSLOT_ID : Nat := 0x40400040
abbrev DSP_PSLOT_ID_PROG_ID : Fld := ⟨DSP_PSLOT_ID, 0, 32⟩

abbrev DSP_XLOG : Nat := 0x40400048
abbrev DSP_XLOG_INDEX : Fld := ⟨DSP_XLOG, 52, 12⟩
abbrev DSP_XLOG_DETAIL : Fld := ⟨DSP_XLOG, 48, 4⟩
abbrev DSP_XLOG_SERVICE : Fld := ⟨DSP_XLOG, 32, 16⟩
abbrev DSP_XLOG_VALID : Fld := ⟨DSP_XLOG, 31, 1⟩
abbrev DSP_XLOG_CTX : Fld := ⟨DSP_XLOG, 18, 13⟩
abbrev DSP_XLOG_CORE : Fld := ⟨DSP_XLOG, 8, 6⟩
abbrev DSP_XLOG_CAUSE : Fld := ⟨DSP_XLOG, 0, 5⟩

abbrev DSP_IREQ_BASE : Nat := 0x40400050
abbrev DSP_IREQ_BASE_BASE : Fld := ⟨DSP_IREQ_BASE, 15, 33⟩

abbrev DSP_IREQ_GO : Nat := 0x40400058
abbrev DSP_IREQ_GO_GO : Fld := ⟨DSP_IREQ_GO, 31, 1⟩
abbrev DSP_IREQ_GO_SLOT : Fld := ⟨DSP_IREQ_GO, 0, 4⟩

abbrev DSP_IREQ_DONE : Nat := 0x4040005c
abbrev DSP_IREQ_DONE_DONE : Fld := ⟨DSP_IREQ_DONE, 0, 16⟩

/-- Word `w` of the entry of service `svc`. -/
abbrev DSP_DISP (svc w : Nat) : Nat := 0x40420000 + 32 * svc + 4 * w
/-! ### ACT (07 R208) -/

abbrev ACT_CTRL : Nat := 0x40100000
abbrev ACT_CTRL_NMLOCK : Fld := ⟨ACT_CTRL, 1, 1⟩
abbrev ACT_CTRL_NOMATCH : Fld := ⟨ACT_CTRL, 0, 1⟩

abbrev ACT_EPOCH : Nat := 0x40100004
abbrev ACT_EPOCH_SWITCH : Fld := ⟨ACT_EPOCH, 31, 1⟩
abbrev ACT_EPOCH_BUSY : Fld := ⟨ACT_EPOCH, 30, 1⟩
abbrev ACT_EPOCH_ERR : Fld := ⟨ACT_EPOCH, 29, 1⟩
abbrev ACT_EPOCH_ERRRULE : Fld := ⟨ACT_EPOCH, 16, 10⟩
abbrev ACT_EPOCH_NUM : Fld := ⟨ACT_EPOCH, 0, 16⟩

abbrev ACT_EPOCH_DRAIN : Nat := 0x40100008
abbrev ACT_EPOCH_DRAIN_OLD_LIVE : Fld := ⟨ACT_EPOCH_DRAIN, 0, 13⟩

abbrev ACT_EVT : Nat := 0x4010000c
abbrev ACT_EVT_CFG_REJ : Fld := ⟨ACT_EVT, 4, 1⟩
abbrev ACT_EVT_EPOCH_ERR : Fld := ⟨ACT_EVT, 3, 1⟩
abbrev ACT_EVT_EPOCH_DONE : Fld := ⟨ACT_EVT, 2, 1⟩
abbrev ACT_EVT_DBG_LOCK : Fld := ⟨ACT_EVT, 1, 1⟩
abbrev ACT_EVT_VIOL : Fld := ⟨ACT_EVT, 0, 1⟩

abbrev ACT_VIOL_ADDR : Nat := 0x40100010
abbrev ACT_VIOL_ADDR_ADDR : Fld := ⟨ACT_VIOL_ADDR, 0, 48⟩

abbrev ACT_VIOL_INFO : Nat := 0x40100018
abbrev ACT_VIOL_INFO_VALID : Fld := ⟨ACT_VIOL_INFO, 31, 1⟩
abbrev ACT_VIOL_INFO_MORE : Fld := ⟨ACT_VIOL_INFO, 30, 1⟩
abbrev ACT_VIOL_INFO_RULE : Fld := ⟨ACT_VIOL_INFO, 16, 10⟩
abbrev ACT_VIOL_INFO_MID : Fld := ⟨ACT_VIOL_INFO, 8, 5⟩
abbrev ACT_VIOL_INFO_REASON : Fld := ⟨ACT_VIOL_INFO, 4, 3⟩
abbrev ACT_VIOL_INFO_TYPE : Fld := ⟨ACT_VIOL_INFO, 0, 2⟩

abbrev ACT_DBGSTKY : Nat := 0x4010001c
abbrev ACT_DBGSTKY_HIT : Fld := ⟨ACT_DBGSTKY, 0, 1⟩

abbrev ACT_DBGSTKY_CLR : Nat := 0x40100020
abbrev ACT_DBGSTKY_CLR_CLR : Fld := ⟨ACT_DBGSTKY_CLR, 0, 1⟩

abbrev ACT_RULE_START (n : Nat) : Nat := 0x40110000 + 32 * n
abbrev ACT_RULE_START_START (n : Nat) : Fld := ⟨(ACT_RULE_START n), 5, 43⟩

abbrev ACT_RULE_END (n : Nat) : Nat := 0x40110008 + 32 * n
abbrev ACT_RULE_END_END (n : Nat) : Fld := ⟨(ACT_RULE_END n), 5, 43⟩

abbrev ACT_RULE_ATTR (n : Nat) : Nat := 0x40110010 + 32 * n
abbrev ACT_RULE_ATTR_EN (n : Nat) : Fld := ⟨(ACT_RULE_ATTR n), 31, 1⟩
abbrev ACT_RULE_ATTR_LOCK (n : Nat) : Fld := ⟨(ACT_RULE_ATTR n), 30, 1⟩
abbrev ACT_RULE_ATTR_X (n : Nat) : Fld := ⟨(ACT_RULE_ATTR n), 2, 1⟩
abbrev ACT_RULE_ATTR_W (n : Nat) : Fld := ⟨(ACT_RULE_ATTR n), 1, 1⟩
abbrev ACT_RULE_ATTR_R (n : Nat) : Fld := ⟨(ACT_RULE_ATTR n), 0, 1⟩

abbrev ACT_RULE_MSET (n : Nat) : Nat := 0x40110014 + 32 * n
abbrev ACT_RULE_MSET_MSET (n : Nat) : Fld := ⟨(ACT_RULE_MSET n), 0, 23⟩

abbrev ACT_ARULE_START (n : Nat) : Nat := 0x40120000 + 32 * n

abbrev ACT_ARULE_END (n : Nat) : Nat := 0x40120008 + 32 * n

abbrev ACT_ARULE_ATTR (n : Nat) : Nat := 0x40120010 + 32 * n
abbrev ACT_ARULE_ATTR_EN (n : Nat) : Fld := ⟨(ACT_ARULE_ATTR n), 31, 1⟩
abbrev ACT_ARULE_ATTR_LOCK (n : Nat) : Fld := ⟨(ACT_ARULE_ATTR n), 30, 1⟩
abbrev ACT_ARULE_ATTR_X (n : Nat) : Fld := ⟨(ACT_ARULE_ATTR n), 2, 1⟩
abbrev ACT_ARULE_ATTR_W (n : Nat) : Fld := ⟨(ACT_ARULE_ATTR n), 1, 1⟩
abbrev ACT_ARULE_ATTR_R (n : Nat) : Fld := ⟨(ACT_ARULE_ATTR n), 0, 1⟩

abbrev ACT_ARULE_MSET (n : Nat) : Nat := 0x40120014 + 32 * n
abbrev ACT_ARULE_MSET_MSET (n : Nat) : Fld := ⟨(ACT_ARULE_MSET n), 0, 23⟩

/-! ### CPH (08 R225) -/

abbrev CPH_ACTIVE : Nat := 0x40500000
abbrev CPH_ACTIVE_UNITS : Fld := ⟨CPH_ACTIVE, 0, 18⟩

abbrev CPH_SPARE : Nat := 0x40500004
abbrev CPH_SPARE_UNITS : Fld := ⟨CPH_SPARE, 0, 18⟩

abbrev CPH_RETIRED : Nat := 0x40500008
abbrev CPH_RETIRED_UNITS : Fld := ⟨CPH_RETIRED, 0, 18⟩

abbrev CPH_FASTROLE : Nat := 0x4050000c
abbrev CPH_FASTROLE_UNITS : Fld := ⟨CPH_FASTROLE, 0, 18⟩

abbrev CPH_EVT : Nat := 0x40500010
abbrev CPH_EVT_CFG_REJ : Fld := ⟨CPH_EVT, 5, 1⟩
abbrev CPH_EVT_NO_SPARE : Fld := ⟨CPH_EVT, 4, 1⟩
abbrev CPH_EVT_BIST_FAIL : Fld := ⟨CPH_EVT, 3, 1⟩
abbrev CPH_EVT_RETIRED : Fld := ⟨CPH_EVT, 2, 1⟩
abbrev CPH_EVT_REISSUE : Fld := ⟨CPH_EVT, 1, 1⟩
abbrev CPH_EVT_MISMATCH : Fld := ⟨CPH_EVT, 0, 1⟩

abbrev CPH_RETIRE : Nat := 0x40500014
abbrev CPH_RETIRE_GO : Fld := ⟨CPH_RETIRE, 31, 1⟩
abbrev CPH_RETIRE_UNIT : Fld := ⟨CPH_RETIRE, 0, 5⟩

abbrev CPH_REINST : Nat := 0x40500018
abbrev CPH_REINST_GO : Fld := ⟨CPH_REINST, 31, 1⟩
abbrev CPH_REINST_UNIT : Fld := ⟨CPH_REINST, 0, 5⟩

abbrev CPH_BIST : Nat := 0x4050001c
abbrev CPH_BIST_BUSY : Fld := ⟨CPH_BIST, 31, 1⟩
abbrev CPH_BIST_PASS : Fld := ⟨CPH_BIST, 30, 1⟩
abbrev CPH_BIST_FAIL : Fld := ⟨CPH_BIST, 29, 1⟩
abbrev CPH_BIST_UNIT : Fld := ⟨CPH_BIST, 0, 5⟩

abbrev CPH_MMLOG : Nat := 0x40500020
abbrev CPH_MMLOG_VALID : Fld := ⟨CPH_MMLOG, 63, 1⟩
abbrev CPH_MMLOG_MORE : Fld := ⟨CPH_MMLOG, 62, 1⟩
abbrev CPH_MMLOG_OPCODE : Fld := ⟨CPH_MMLOG, 32, 16⟩
abbrev CPH_MMLOG_CTX : Fld := ⟨CPH_MMLOG, 16, 13⟩
abbrev CPH_MMLOG_REUNIT : Fld := ⟨CPH_MMLOG, 8, 5⟩
abbrev CPH_MMLOG_UNIT : Fld := ⟨CPH_MMLOG, 0, 5⟩

/-! ### MAU (09 R252) -/

abbrev MAU_ACTIVE (n : Nat) : Nat := 0x40600000 + 4 * n
abbrev MAU_ACTIVE_UNITS (n : Nat) : Fld := ⟨(MAU_ACTIVE n), 0, 32⟩

abbrev MAU_SPARE (n : Nat) : Nat := 0x40600020 + 4 * n
abbrev MAU_SPARE_UNITS (n : Nat) : Fld := ⟨(MAU_SPARE n), 0, 32⟩

abbrev MAU_RETIRED (n : Nat) : Nat := 0x40600040 + 4 * n
abbrev MAU_RETIRED_UNITS (n : Nat) : Fld := ⟨(MAU_RETIRED n), 0, 32⟩

abbrev MAU_FASTROLE (n : Nat) : Nat := 0x40600060 + 4 * n
abbrev MAU_FASTROLE_UNITS (n : Nat) : Fld := ⟨(MAU_FASTROLE n), 0, 32⟩

abbrev MAU_EVT : Nat := 0x40600080
abbrev MAU_EVT_MIG_FAIL : Fld := ⟨MAU_EVT, 8, 1⟩
abbrev MAU_EVT_DBE : Fld := ⟨MAU_EVT, 7, 1⟩
abbrev MAU_EVT_ENTROPY : Fld := ⟨MAU_EVT, 6, 1⟩
abbrev MAU_EVT_CFG_REJ : Fld := ⟨MAU_EVT, 5, 1⟩
abbrev MAU_EVT_NO_SPARE : Fld := ⟨MAU_EVT, 4, 1⟩
abbrev MAU_EVT_BIST_FAIL : Fld := ⟨MAU_EVT, 3, 1⟩
abbrev MAU_EVT_RETIRED : Fld := ⟨MAU_EVT, 2, 1⟩
abbrev MAU_EVT_MIGRATED : Fld := ⟨MAU_EVT, 1, 1⟩
abbrev MAU_EVT_CHKFAIL : Fld := ⟨MAU_EVT, 0, 1⟩

abbrev MAU_RETIRE : Nat := 0x40600084
abbrev MAU_RETIRE_GO : Fld := ⟨MAU_RETIRE, 31, 1⟩
abbrev MAU_RETIRE_UNIT : Fld := ⟨MAU_RETIRE, 0, 8⟩

abbrev MAU_REINST : Nat := 0x40600088
abbrev MAU_REINST_GO : Fld := ⟨MAU_REINST, 31, 1⟩
abbrev MAU_REINST_UNIT : Fld := ⟨MAU_REINST, 0, 8⟩

abbrev MAU_BIST : Nat := 0x4060008c
abbrev MAU_BIST_BUSY : Fld := ⟨MAU_BIST, 31, 1⟩
abbrev MAU_BIST_PASS : Fld := ⟨MAU_BIST, 30, 1⟩
abbrev MAU_BIST_FAIL : Fld := ⟨MAU_BIST, 29, 1⟩
abbrev MAU_BIST_UNIT : Fld := ⟨MAU_BIST, 0, 8⟩

abbrev MAU_GEN : Nat := 0x40600090
abbrev MAU_GEN_RESEED_CMDS : Fld := ⟨MAU_GEN, 16, 16⟩
abbrev MAU_GEN_RESEED_US : Fld := ⟨MAU_GEN, 0, 16⟩

abbrev MAU_GENSTAT : Nat := 0x40600094
abbrev MAU_GENSTAT_MIGBUF : Fld := ⟨MAU_GENSTAT, 24, 2⟩
abbrev MAU_GENSTAT_LIMIT : Fld := ⟨MAU_GENSTAT, 16, 8⟩
abbrev MAU_GENSTAT_SEEDED : Fld := ⟨MAU_GENSTAT, 0, 8⟩

abbrev MAU_CHKLOG : Nat := 0x40600098
abbrev MAU_CHKLOG_VALID : Fld := ⟨MAU_CHKLOG, 63, 1⟩
abbrev MAU_CHKLOG_MORE : Fld := ⟨MAU_CHKLOG, 62, 1⟩
abbrev MAU_CHKLOG_OPCODE : Fld := ⟨MAU_CHKLOG, 32, 16⟩
abbrev MAU_CHKLOG_CTX : Fld := ⟨MAU_CHKLOG, 16, 13⟩
abbrev MAU_CHKLOG_KIND : Fld := ⟨MAU_CHKLOG, 12, 4⟩
abbrev MAU_CHKLOG_UNIT : Fld := ⟨MAU_CHKLOG, 0, 8⟩

abbrev MAU_OMSEL : Nat := 0x406000a0
abbrev MAU_OMSEL_UNIT : Fld := ⟨MAU_OMSEL, 24, 8⟩
abbrev MAU_OMSEL_WORD : Fld := ⟨MAU_OMSEL, 0, 13⟩

abbrev MAU_OMDATA : Nat := 0x406000a8
abbrev MAU_OMDATA_DATA : Fld := ⟨MAU_OMDATA, 0, 64⟩

/-! ### KST (10 R275) -/

abbrev KST_CTRL : Nat := 0x40700000
abbrev KST_CTRL_HOT_EN : Fld := ⟨KST_CTRL, 1, 1⟩
abbrev KST_CTRL_EN : Fld := ⟨KST_CTRL, 0, 1⟩

abbrev KST_STAT : Nat := 0x40700004
abbrev KST_STAT_CMD_BUSY : Fld := ⟨KST_STAT, 3, 1⟩
abbrev KST_STAT_LOGSTALL : Fld := ⟨KST_STAT, 2, 1⟩
abbrev KST_STAT_HOT_READY : Fld := ⟨KST_STAT, 1, 1⟩
abbrev KST_STAT_MOUNTED : Fld := ⟨KST_STAT, 0, 1⟩

abbrev KST_EVT : Nat := 0x40700008
abbrev KST_EVT_CKPT_DONE : Fld := ⟨KST_EVT, 8, 1⟩
abbrev KST_EVT_ECC : Fld := ⟨KST_EVT, 7, 1⟩
abbrev KST_EVT_SEAL_INT : Fld := ⟨KST_EVT, 6, 1⟩
abbrev KST_EVT_HOT_INT : Fld := ⟨KST_EVT, 5, 1⟩
abbrev KST_EVT_LOGSTALL : Fld := ⟨KST_EVT, 4, 1⟩
abbrev KST_EVT_CEILSTALL : Fld := ⟨KST_EVT, 3, 1⟩
abbrev KST_EVT_CNT_STUCK : Fld := ⟨KST_EVT, 2, 1⟩
abbrev KST_EVT_CMD_ERR : Fld := ⟨KST_EVT, 1, 1⟩
abbrev KST_EVT_CMD_DONE : Fld := ⟨KST_EVT, 0, 1⟩

abbrev KST_MEMCFG : Nat := 0x4070000c
abbrev KST_MEMCFG_DIMM_GIB : Fld := ⟨KST_MEMCFG, 16, 8⟩
abbrev KST_MEMCFG_CORE_GIB : Fld := ⟨KST_MEMCFG, 0, 5⟩

abbrev KST_SEALCFG : Nat := 0x40700010
abbrev KST_SEALCFG_TGT_GIB : Fld := ⟨KST_SEALCFG, 8, 8⟩
abbrev KST_SEALCFG_NTGT : Fld := ⟨KST_SEALCFG, 0, 6⟩

abbrev KST_NIDX : Nat := 0x40700018
abbrev KST_NIDX_NIDX : Fld := ⟨KST_NIDX, 0, 35⟩

abbrev KST_HOTLINES : Nat := 0x40700020
abbrev KST_HOTLINES_LINES : Fld := ⟨KST_HOTLINES, 0, 32⟩

abbrev KST_HOTFILL : Nat := 0x40700024
abbrev KST_HOTFILL_INVALID : Fld := ⟨KST_HOTFILL, 0, 20⟩

abbrev KST_PINMAX : Nat := 0x40700028
abbrev KST_PINMAX_LINES : Fld := ⟨KST_PINMAX, 0, 20⟩

abbrev KST_PINUSE : Nat := 0x4070002c
abbrev KST_PINUSE_FIXED : Fld := ⟨KST_PINUSE, 0, 20⟩

abbrev KST_CNTCFG : Nat := 0x40700030
abbrev KST_CNTCFG_RSV_LOG2 : Fld := ⟨KST_CNTCFG, 0, 5⟩

abbrev KST_CKPT : Nat := 0x40700034
abbrev KST_CKPT_PERIOD_MS : Fld := ⟨KST_CKPT, 0, 16⟩

abbrev KST_JRNCAP : Nat := 0x40700038
abbrev KST_JRNCAP_ENTRIES : Fld := ⟨KST_JRNCAP, 0, 32⟩

abbrev KST_CMD : Nat := 0x40700040
abbrev KST_CMD_GO : Fld := ⟨KST_CMD, 31, 1⟩
abbrev KST_CMD_BUSY : Fld := ⟨KST_CMD, 30, 1⟩
abbrev KST_CMD_ERR : Fld := ⟨KST_CMD, 8, 4⟩
abbrev KST_CMD_OP : Fld := ⟨KST_CMD, 0, 4⟩

abbrev KST_CMD_SLOT : Nat := 0x40700044
abbrev KST_CMD_SLOT_SLOT : Fld := ⟨KST_CMD_SLOT, 0, 16⟩

abbrev KST_CMD_HANDLE : Nat := 0x40700048
abbrev KST_CMD_HANDLE_HANDLE : Fld := ⟨KST_CMD_HANDLE, 0, 64⟩

abbrev KST_CMD_SRC : Nat := 0x40700050
abbrev KST_CMD_SRC_ADDR : Fld := ⟨KST_CMD_SRC, 4, 44⟩

abbrev KST_JSEQ : Nat := 0x40700058
abbrev KST_JSEQ_JSEQ : Fld := ⟨KST_JSEQ, 0, 64⟩

abbrev KST_SNAP : Nat := 0x40700060
abbrev KST_SNAP_JSEQ_SNAP : Fld := ⟨KST_SNAP, 0, 64⟩

abbrev KST_CLOG : Nat := 0x40700068
abbrev KST_CLOG_VALID : Fld := ⟨KST_CLOG, 31, 1⟩
abbrev KST_CLOG_MORE : Fld := ⟨KST_CLOG, 30, 1⟩
abbrev KST_CLOG_CTX : Fld := ⟨KST_CLOG, 13, 13⟩
abbrev KST_CLOG_ENTRY : Fld := ⟨KST_CLOG, 0, 5⟩

abbrev KST_INTLOG : Nat := 0x40700070
abbrev KST_INTLOG_VALID : Fld := ⟨KST_INTLOG, 63, 1⟩
abbrev KST_INTLOG_MORE : Fld := ⟨KST_INTLOG, 62, 1⟩
abbrev KST_INTLOG_TIER : Fld := ⟨KST_INTLOG, 34, 2⟩
abbrev KST_INTLOG_INDEX : Fld := ⟨KST_INTLOG, 0, 34⟩

/-! ### RNG (11 R287) -/

abbrev RNG_CTRL : Nat := 0x40800000
abbrev RNG_CTRL_RAW_EN : Fld := ⟨RNG_CTRL, 1, 1⟩
abbrev RNG_CTRL_EN : Fld := ⟨RNG_CTRL, 0, 1⟩

abbrev RNG_STAT : Nat := 0x40800004
abbrev RNG_STAT_SU_DEAD : Fld := ⟨RNG_STAT, 9, 1⟩
abbrev RNG_STAT_READY : Fld := ⟨RNG_STAT, 8, 1⟩
abbrev RNG_STAT_BLOCKS : Fld := ⟨RNG_STAT, 0, 7⟩

abbrev RNG_CFG : Nat := 0x40800008
abbrev RNG_CFG_SU_RETRY : Fld := ⟨RNG_CFG, 8, 2⟩
abbrev RNG_CFG_RESERVE : Fld := ⟨RNG_CFG, 0, 6⟩

abbrev RNG_CUTOFF : Nat := 0x4080000c
abbrev RNG_CUTOFF_APT_C : Fld := ⟨RNG_CUTOFF, 16, 11⟩
abbrev RNG_CUTOFF_RCT_C : Fld := ⟨RNG_CUTOFF, 0, 7⟩

abbrev RNG_EVT : Nat := 0x40800010
abbrev RNG_EVT_SVC_CANCEL : Fld := ⟨RNG_EVT, 2, 1⟩
abbrev RNG_EVT_SU_FAIL : Fld := ⟨RNG_EVT, 1, 1⟩
abbrev RNG_EVT_HT_FAIL : Fld := ⟨RNG_EVT, 0, 1⟩

abbrev RNG_LAST : Nat := 0x40800014
abbrev RNG_LAST_VALID : Fld := ⟨RNG_LAST, 31, 1⟩
abbrev RNG_LAST_MORE : Fld := ⟨RNG_LAST, 30, 1⟩
abbrev RNG_LAST_TEST : Fld := ⟨RNG_LAST, 8, 2⟩
abbrev RNG_LAST_CELL : Fld := ⟨RNG_LAST, 0, 4⟩

abbrev RNG_FWREQ : Nat := 0x40800018
abbrev RNG_FWREQ_GO : Fld := ⟨RNG_FWREQ, 0, 1⟩

abbrev RNG_FWSTAT : Nat := 0x4080001c
abbrev RNG_FWSTAT_DROPPED : Fld := ⟨RNG_FWSTAT, 2, 1⟩
abbrev RNG_FWSTAT_WAITING : Fld := ⟨RNG_FWSTAT, 1, 1⟩
abbrev RNG_FWSTAT_VALID : Fld := ⟨RNG_FWSTAT, 0, 1⟩

abbrev RNG_FW (n : Nat) : Nat := 0x40800020 + 4 * n
abbrev RNG_FW_DATA (n : Nat) : Fld := ⟨(RNG_FW n), 0, 32⟩

abbrev RNG_RAW : Nat := 0x40800040
abbrev RNG_RAW_SAMPLES : Fld := ⟨RNG_RAW, 0, 32⟩

abbrev RNG_RAWSTAT : Nat := 0x40800044
abbrev RNG_RAWSTAT_SHORT : Fld := ⟨RNG_RAWSTAT, 31, 1⟩
abbrev RNG_RAWSTAT_COUNT : Fld := ⟨RNG_RAWSTAT, 0, 6⟩

/-! ### DUO (12 R309) -/

abbrev DUO_CTRL : Nat := 0x40900000
abbrev DUO_CTRL_WAKE : Fld := ⟨DUO_CTRL, 6, 1⟩
abbrev DUO_CTRL_FORCE : Fld := ⟨DUO_CTRL, 5, 1⟩
abbrev DUO_CTRL_RELEASE : Fld := ⟨DUO_CTRL, 4, 1⟩
abbrev DUO_CTRL_LEAVE : Fld := ⟨DUO_CTRL, 3, 1⟩
abbrev DUO_CTRL_LL_EN : Fld := ⟨DUO_CTRL, 1, 1⟩
abbrev DUO_CTRL_EN : Fld := ⟨DUO_CTRL, 0, 1⟩

abbrev DUO_STAT : Nat := 0x40900004
abbrev DUO_STAT_RESYNC : Fld := ⟨DUO_STAT, 11, 1⟩
abbrev DUO_STAT_DIVERGED : Fld := ⟨DUO_STAT, 10, 1⟩
abbrev DUO_STAT_STUCK : Fld := ⟨DUO_STAT, 9, 1⟩
abbrev DUO_STAT_PEER_SYNCED : Fld := ⟨DUO_STAT, 8, 1⟩
abbrev DUO_STAT_SYNCED : Fld := ⟨DUO_STAT, 7, 1⟩
abbrev DUO_STAT_SOLO : Fld := ⟨DUO_STAT, 6, 1⟩
abbrev DUO_STAT_HEARD : Fld := ⟨DUO_STAT, 2, 3⟩
abbrev DUO_STAT_ROLE : Fld := ⟨DUO_STAT, 0, 2⟩

abbrev DUO_EVT : Nat := 0x40900008
abbrev DUO_EVT_SWITCHED : Fld := ⟨DUO_EVT, 11, 1⟩
abbrev DUO_EVT_EPOCH_SKEW : Fld := ⟨DUO_EVT, 10, 1⟩
abbrev DUO_EVT_MHOLD_OVF : Fld := ⟨DUO_EVT, 9, 1⟩
abbrev DUO_EVT_RESYNC_DONE : Fld := ⟨DUO_EVT, 8, 1⟩
abbrev DUO_EVT_EPOCH_MAX : Fld := ⟨DUO_EVT, 7, 1⟩
abbrev DUO_EVT_SPLIT : Fld := ⟨DUO_EVT, 6, 1⟩
abbrev DUO_EVT_GAP : Fld := ⟨DUO_EVT, 5, 1⟩
abbrev DUO_EVT_SOLO_OFF : Fld := ⟨DUO_EVT, 4, 1⟩
abbrev DUO_EVT_SOLO_ON : Fld := ⟨DUO_EVT, 3, 1⟩
abbrev DUO_EVT_YIELDED : Fld := ⟨DUO_EVT, 2, 1⟩
abbrev DUO_EVT_LAPSED : Fld := ⟨DUO_EVT, 1, 1⟩
abbrev DUO_EVT_CLAIMED : Fld := ⟨DUO_EVT, 0, 1⟩

abbrev DUO_EPOCH : Nat := 0x4090000c
abbrev DUO_EPOCH_EPOCH : Fld := ⟨DUO_EPOCH, 0, 32⟩

abbrev DUO_EPOCHCLR : Nat := 0x40900010
abbrev DUO_EPOCHCLR_CLR : Fld := ⟨DUO_EPOCHCLR, 0, 1⟩

abbrev DUO_PEER_DEVID : Nat := 0x40900014
abbrev DUO_PEER_DEVID_DEVID : Fld := ⟨DUO_PEER_DEVID, 0, 32⟩

abbrev DUO_PEER_JSEQ : Nat := 0x40900018
abbrev DUO_PEER_JSEQ_JSEQ : Fld := ⟨DUO_PEER_JSEQ, 0, 64⟩

abbrev DUO_JKEY : Nat := 0x40900020
abbrev DUO_JKEY_SLOT : Fld := ⟨DUO_JKEY, 0, 16⟩

abbrev DUO_SWAT : Nat := 0x40900028
abbrev DUO_SWAT_ARM : Fld := ⟨DUO_SWAT, 63, 1⟩
abbrev DUO_SWAT_TIME : Fld := ⟨DUO_SWAT, 0, 63⟩

abbrev DUO_RESYNC : Nat := 0x40900030
abbrev DUO_RESYNC_GO : Fld := ⟨DUO_RESYNC, 31, 1⟩
abbrev DUO_RESYNC_BUSY : Fld := ⟨DUO_RESYNC, 30, 1⟩
abbrev DUO_RESYNC_ERR : Fld := ⟨DUO_RESYNC, 0, 3⟩

abbrev DUO_RSIDX : Nat := 0x40900038
abbrev DUO_RSIDX_INDEX : Fld := ⟨DUO_RSIDX, 0, 35⟩

/-! ### SYS (13 R326) -/

abbrev SYS_STAT : Nat := 0x40000004
abbrev SYS_STAT_REJ : Fld := ⟨SYS_STAT, 16, 4⟩
abbrev SYS_STAT_LC : Fld := ⟨SYS_STAT, 8, 3⟩
abbrev SYS_STAT_MODE : Fld := ⟨SYS_STAT, 0, 3⟩

abbrev SYS_MODEREQ : Nat := 0x40000008
abbrev SYS_MODEREQ_GO : Fld := ⟨SYS_MODEREQ, 31, 1⟩
abbrev SYS_MODEREQ_TARGET : Fld := ⟨SYS_MODEREQ, 0, 3⟩

abbrev SYS_EVT : Nat := 0x4000000c
abbrev SYS_EVT_CORE_ERR : Fld := ⟨SYS_EVT, 4, 1⟩
abbrev SYS_EVT_LC_ERR : Fld := ⟨SYS_EVT, 3, 1⟩
abbrev SYS_EVT_LC_DONE : Fld := ⟨SYS_EVT, 2, 1⟩
abbrev SYS_EVT_REQ_REJ : Fld := ⟨SYS_EVT, 1, 1⟩
abbrev SYS_EVT_MODE_CHG : Fld := ⟨SYS_EVT, 0, 1⟩

abbrev SYS_RSTCAUSE : Nat := 0x40000010
abbrev SYS_RSTCAUSE_REPROV : Fld := ⟨SYS_RSTCAUSE, 4, 1⟩
abbrev SYS_RSTCAUSE_SW : Fld := ⟨SYS_RSTCAUSE, 3, 1⟩
abbrev SYS_RSTCAUSE_PIN : Fld := ⟨SYS_RSTCAUSE, 2, 1⟩
abbrev SYS_RSTCAUSE_PWRGOOD : Fld := ⟨SYS_RSTCAUSE, 1, 1⟩
abbrev SYS_RSTCAUSE_POR : Fld := ⟨SYS_RSTCAUSE, 0, 1⟩

abbrev SYS_BOOTSTAT : Nat := 0x40000014
abbrev SYS_BOOTSTAT_DONE : Fld := ⟨SYS_BOOTSTAT, 31, 1⟩
abbrev SYS_BOOTSTAT_SLOT : Fld := ⟨SYS_BOOTSTAT, 30, 1⟩
abbrev SYS_BOOTSTAT_FWSLOT : Fld := ⟨SYS_BOOTSTAT, 29, 1⟩
abbrev SYS_BOOTSTAT_PATCHES : Fld := ⟨SYS_BOOTSTAT, 16, 5⟩
abbrev SYS_BOOTSTAT_ERR : Fld := ⟨SYS_BOOTSTAT, 8, 8⟩
abbrev SYS_BOOTSTAT_STEP : Fld := ⟨SYS_BOOTSTAT, 0, 8⟩

abbrev SYS_BOOTTAMP : Nat := 0x40000018
abbrev SYS_BOOTTAMP_BMK_NEW : Fld := ⟨SYS_BOOTTAMP, 3, 1⟩
abbrev SYS_BOOTTAMP_BMK_VALID : Fld := ⟨SYS_BOOTTAMP, 2, 1⟩
abbrev SYS_BOOTTAMP_SNUFF : Fld := ⟨SYS_BOOTTAMP, 1, 1⟩
abbrev SYS_BOOTTAMP_CELL_ALARM : Fld := ⟨SYS_BOOTTAMP, 0, 1⟩

abbrev SYS_LCADV : Nat := 0x4000001c
abbrev SYS_LCADV_GO : Fld := ⟨SYS_LCADV, 31, 1⟩
abbrev SYS_LCADV_BUSY : Fld := ⟨SYS_LCADV, 30, 1⟩
abbrev SYS_LCADV_ERR : Fld := ⟨SYS_LCADV, 8, 3⟩
abbrev SYS_LCADV_TARGET : Fld := ⟨SYS_LCADV, 0, 3⟩

abbrev SYS_WAKECFG : Nat := 0x40000020
abbrev SYS_WAKECFG_BOOTPREF : Fld := ⟨SYS_WAKECFG, 1, 1⟩
abbrev SYS_WAKECFG_STBY_ON_POWER : Fld := ⟨SYS_WAKECFG, 0, 1⟩

abbrev SYS_SVNFLOOR : Nat := 0x40000024
abbrev SYS_SVNFLOOR_FW : Fld := ⟨SYS_SVNFLOOR, 16, 16⟩
abbrev SYS_SVNFLOOR_STAGE1 : Fld := ⟨SYS_SVNFLOOR, 0, 16⟩

abbrev SYS_RST : Nat := 0x40000028
abbrev SYS_RST_KEY : Fld := ⟨SYS_RST, 16, 16⟩
abbrev SYS_RST_GO : Fld := ⟨SYS_RST, 0, 1⟩

abbrev SYS_REPROV : Nat := 0x4000002c
abbrev SYS_REPROV_GO : Fld := ⟨SYS_REPROV, 31, 1⟩
abbrev SYS_REPROV_BUSY : Fld := ⟨SYS_REPROV, 30, 1⟩
abbrev SYS_REPROV_ERR : Fld := ⟨SYS_REPROV, 29, 1⟩
abbrev SYS_REPROV_METHOD : Fld := ⟨SYS_REPROV, 0, 1⟩

abbrev SYS_CORE_CTRL (n : Nat) : Nat := 0x40000100 + 16 * n
abbrev SYS_CORE_CTRL_START (n : Nat) : Fld := ⟨(SYS_CORE_CTRL n), 31, 1⟩
abbrev SYS_CORE_CTRL_STOP (n : Nat) : Fld := ⟨(SYS_CORE_CTRL n), 30, 1⟩
abbrev SYS_CORE_CTRL_ERR (n : Nat) : Fld := ⟨(SYS_CORE_CTRL n), 3, 1⟩
abbrev SYS_CORE_CTRL_STATE (n : Nat) : Fld := ⟨(SYS_CORE_CTRL n), 0, 3⟩

abbrev SYS_CORE_SBLK (n : Nat) : Nat := 0x40000104 + 16 * n
abbrev SYS_CORE_SBLK_ADDR (n : Nat) : Fld := ⟨(SYS_CORE_SBLK n), 5, 43⟩

abbrev SYS_TCMP (n : Nat) : Nat := 0x40000400 + 16 * n
abbrev SYS_TCMP_TIME (n : Nat) : Fld := ⟨(SYS_TCMP n), 0, 64⟩

abbrev SYS_TCTL (n : Nat) : Nat := 0x40000408 + 16 * n
abbrev SYS_TCTL_PEND (n : Nat) : Fld := ⟨(SYS_TCTL n), 1, 1⟩
abbrev SYS_TCTL_EN (n : Nat) : Fld := ⟨(SYS_TCTL n), 0, 1⟩

abbrev SYS_DBELL (n : Nat) : Nat := 0x40000600 + 8 * n
abbrev SYS_DBELL_BITS (n : Nat) : Fld := ⟨(SYS_DBELL n), 0, 32⟩

abbrev SYS_DBSET (n : Nat) : Nat := 0x40000604 + 8 * n
abbrev SYS_DBSET_BITS (n : Nat) : Fld := ⟨(SYS_DBSET n), 0, 32⟩

/-! ### FLC (14 R345) -/

abbrev FLC_CTRL : Nat := 0x40a00000
abbrev FLC_CTRL_CREAD : Fld := ⟨FLC_CTRL, 0, 1⟩

abbrev FLC_STAT : Nat := 0x40a00004
abbrev FLC_STAT_BUSY : Fld := ⟨FLC_STAT, 31, 1⟩
abbrev FLC_STAT_SUSP : Fld := ⟨FLC_STAT, 30, 1⟩
abbrev FLC_STAT_STEP : Fld := ⟨FLC_STAT, 24, 3⟩
abbrev FLC_STAT_OP : Fld := ⟨FLC_STAT, 20, 4⟩
abbrev FLC_STAT_LEFT : Fld := ⟨FLC_STAT, 0, 9⟩

abbrev FLC_EVT : Nat := 0x40a00008
abbrev FLC_EVT_FLAGFIX : Fld := ⟨FLC_EVT, 7, 1⟩
abbrev FLC_EVT_WEAR : Fld := ⟨FLC_EVT, 6, 1⟩
abbrev FLC_EVT_ASUSP : Fld := ⟨FLC_EVT, 5, 1⟩
abbrev FLC_EVT_DED : Fld := ⟨FLC_EVT, 4, 1⟩
abbrev FLC_EVT_SEC : Fld := ⟨FLC_EVT, 3, 1⟩
abbrev FLC_EVT_CMD_REJ : Fld := ⟨FLC_EVT, 2, 1⟩
abbrev FLC_EVT_ERR : Fld := ⟨FLC_EVT, 1, 1⟩
abbrev FLC_EVT_DONE : Fld := ⟨FLC_EVT, 0, 1⟩

abbrev FLC_CMD : Nat := 0x40a0000c
abbrev FLC_CMD_GO : Fld := ⟨FLC_CMD, 31, 1⟩
abbrev FLC_CMD_ERR : Fld := ⟨FLC_CMD, 28, 3⟩
abbrev FLC_CMD_OP : Fld := ⟨FLC_CMD, 24, 4⟩
abbrev FLC_CMD_COUNT : Fld := ⟨FLC_CMD, 0, 24⟩

abbrev FLC_ADDR : Nat := 0x40a00010
abbrev FLC_ADDR_ADDR : Fld := ⟨FLC_ADDR, 5, 43⟩

abbrev FLC_SRC : Nat := 0x40a00018
abbrev FLC_SRC_ADDR : Fld := ⟨FLC_SRC, 5, 43⟩

abbrev FLC_ERSCFG : Nat := 0x40a00020
abbrev FLC_ERSCFG_QUANTUM_US : Fld := ⟨FLC_ERSCFG, 16, 16⟩
abbrev FLC_ERSCFG_HOLD_US : Fld := ⟨FLC_ERSCFG, 0, 16⟩

abbrev FLC_ECNTSEL : Nat := 0x40a00024
abbrev FLC_ECNTSEL_BLOCK : Fld := ⟨FLC_ECNTSEL, 0, 12⟩

abbrev FLC_ECNT : Nat := 0x40a00028
abbrev FLC_ECNT_FLAG : Fld := ⟨FLC_ECNT, 31, 1⟩
abbrev FLC_ECNT_COUNT : Fld := ⟨FLC_ECNT, 0, 20⟩

abbrev FLC_WEAR : Nat := 0x40a0002c
abbrev FLC_WEAR_BLOCK : Fld := ⟨FLC_WEAR, 20, 12⟩
abbrev FLC_WEAR_THRESH : Fld := ⟨FLC_WEAR, 0, 20⟩

abbrev FLC_ECCLOG : Nat := 0x40a00030
abbrev FLC_ECCLOG_VALID : Fld := ⟨FLC_ECCLOG, 63, 1⟩
abbrev FLC_ECCLOG_MORE : Fld := ⟨FLC_ECCLOG, 62, 1⟩
abbrev FLC_ECCLOG_KIND : Fld := ⟨FLC_ECCLOG, 48, 1⟩
abbrev FLC_ECCLOG_ADDR : Fld := ⟨FLC_ECCLOG, 2, 46⟩

/-! ### TMP and WCK (15 R366, R367) -/

abbrev TMP_STAT : Nat := 0x40b00000
abbrev TMP_STAT_BKUP_COLD : Fld := ⟨TMP_STAT, 2, 1⟩
abbrev TMP_STAT_VBAT_OK : Fld := ⟨TMP_STAT, 1, 1⟩
abbrev TMP_STAT_X32K_OK : Fld := ⟨TMP_STAT, 0, 1⟩

abbrev TMP_CAUSE : Nat := 0x40b00004
abbrev TMP_CAUSE_CAUSE : Fld := ⟨TMP_CAUSE, 0, 32⟩

abbrev TMP_STKY : Nat := 0x40b00008
abbrev TMP_STKY_STKY : Fld := ⟨TMP_STKY, 0, 32⟩

abbrev TMP_STKY_CLR : Nat := 0x40b0000c
abbrev TMP_STKY_CLR_CLR : Fld := ⟨TMP_STKY_CLR, 0, 32⟩

abbrev TMP_FIRST : Nat := 0x40b00010
abbrev TMP_FIRST_VALID : Fld := ⟨TMP_FIRST, 31, 1⟩
abbrev TMP_FIRST_MULTI : Fld := ⟨TMP_FIRST, 30, 1⟩
abbrev TMP_FIRST_MODE : Fld := ⟨TMP_FIRST, 27, 3⟩
abbrev TMP_FIRST_SRC : Fld := ⟨TMP_FIRST, 0, 5⟩

abbrev TMP_FIRST_TS : Nat := 0x40b00018
abbrev TMP_FIRST_TS_TSC : Fld := ⟨TMP_FIRST_TS, 0, 64⟩

abbrev TMP_TSC : Nat := 0x40b00020
abbrev TMP_TSC_TSC : Fld := ⟨TMP_TSC, 0, 64⟩

abbrev TMP_TSCSET : Nat := 0x40b00028
abbrev TMP_TSCSET_TSC : Fld := ⟨TMP_TSCSET, 0, 64⟩

abbrev TMP_ROOTSEQ : Nat := 0x40b00030
abbrev TMP_ROOTSEQ_ROOTSEQ : Fld := ⟨TMP_ROOTSEQ, 0, 64⟩

abbrev TMP_EVT : Nat := 0x40b00038
abbrev TMP_EVT_BIST_DONE : Fld := ⟨TMP_EVT, 3, 1⟩
abbrev TMP_EVT_CFG_REJ : Fld := ⟨TMP_EVT, 2, 1⟩
abbrev TMP_EVT_CLR_REJ : Fld := ⟨TMP_EVT, 1, 1⟩
abbrev TMP_EVT_ALARM : Fld := ⟨TMP_EVT, 0, 1⟩

abbrev TMP_BIST : Nat := 0x40b0003c
abbrev TMP_BIST_GO : Fld := ⟨TMP_BIST, 31, 1⟩
abbrev TMP_BIST_BUSY : Fld := ⟨TMP_BIST, 30, 1⟩
abbrev TMP_BIST_PASS : Fld := ⟨TMP_BIST, 29, 1⟩
abbrev TMP_BIST_FAIL : Fld := ⟨TMP_BIST, 28, 1⟩
abbrev TMP_BIST_SRC : Fld := ⟨TMP_BIST, 0, 5⟩

abbrev TMP_SRCCFG (n : Nat) : Nat := 0x40b00100 + 4 * n
abbrev TMP_SRCCFG_DEB (n : Nat) : Fld := ⟨(TMP_SRCCFG n), 4, 4⟩
abbrev TMP_SRCCFG_POL (n : Nat) : Fld := ⟨(TMP_SRCCFG n), 3, 1⟩
abbrev TMP_SRCCFG_ERASE (n : Nat) : Fld := ⟨(TMP_SRCCFG n), 1, 1⟩
abbrev TMP_SRCCFG_EN (n : Nat) : Fld := ⟨(TMP_SRCCFG n), 0, 1⟩

abbrev WCK_CTRL : Nat := 0x40c00000
abbrev WCK_CTRL_RLOCK : Fld := ⟨WCK_CTRL, 2, 1⟩
abbrev WCK_CTRL_HALT : Fld := ⟨WCK_CTRL, 1, 1⟩
abbrev WCK_CTRL_RUN : Fld := ⟨WCK_CTRL, 0, 1⟩

abbrev WCK_STAT : Nat := 0x40c00004
abbrev WCK_STAT_STATE : Fld := ⟨WCK_STAT, 0, 2⟩

abbrev WCK_EVT : Nat := 0x40c00008
abbrev WCK_EVT_LOAD_REJ : Fld := ⟨WCK_EVT, 3, 1⟩
abbrev WCK_EVT_WDOG : Fld := ⟨WCK_EVT, 2, 1⟩
abbrev WCK_EVT_DFAULT : Fld := ⟨WCK_EVT, 1, 1⟩
abbrev WCK_EVT_ACTION : Fld := ⟨WCK_EVT, 0, 1⟩

abbrev WCK_LDADDR : Nat := 0x40c0000c
abbrev WCK_LDADDR_WORD : Fld := ⟨WCK_LDADDR, 2, 14⟩

abbrev WCK_LDDATA : Nat := 0x40c00010
abbrev WCK_LDDATA_DATA : Fld := ⟨WCK_LDDATA, 0, 32⟩

abbrev WCK_ALM : Nat := 0x40c00014
abbrev WCK_ALM_VALID : Fld := ⟨WCK_ALM, 31, 1⟩
abbrev WCK_ALM_SNUFF : Fld := ⟨WCK_ALM, 27, 1⟩
abbrev WCK_ALM_ALARM : Fld := ⟨WCK_ALM, 26, 1⟩
abbrev WCK_ALM_PROMOTE : Fld := ⟨WCK_ALM, 25, 1⟩
abbrev WCK_ALM_WAKE : Fld := ⟨WCK_ALM, 24, 1⟩
abbrev WCK_ALM_CORE : Fld := ⟨WCK_ALM, 5, 1⟩
abbrev WCK_ALM_RULE : Fld := ⟨WCK_ALM, 0, 5⟩

abbrev WCK_WDOG : Nat := 0x40c00018
abbrev WCK_WDOG_KICK : Fld := ⟨WCK_WDOG, 31, 1⟩
abbrev WCK_WDOG_PERIOD_US : Fld := ⟨WCK_WDOG, 0, 16⟩

abbrev WCK_ACT : Nat := 0x40c0001c
abbrev WCK_ACT_SNUFF : Fld := ⟨WCK_ACT, 3, 1⟩
abbrev WCK_ACT_ALARM : Fld := ⟨WCK_ACT, 2, 1⟩
abbrev WCK_ACT_PROMOTE : Fld := ⟨WCK_ACT, 1, 1⟩
abbrev WCK_ACT_WAKE : Fld := ⟨WCK_ACT, 0, 1⟩

abbrev WCK_WIRQ : Nat := 0x40c00020
abbrev WCK_WIRQ_LEASE : Fld := ⟨WCK_WIRQ, 1, 1⟩
abbrev WCK_WIRQ_FRAME : Fld := ⟨WCK_WIRQ, 0, 1⟩

abbrev WCK_WRULE : Nat := 0x40c00024
abbrev WCK_WRULE_FIRED : Fld := ⟨WCK_WRULE, 0, 32⟩

abbrev WCK_FRAME (n : Nat) : Nat := 0x40c00030 + 4 * n

abbrev WCK_RULE_A (n : Nat) : Nat := 0x40c00100 + 8 * n
abbrev WCK_RULE_A_EN (n : Nat) : Fld := ⟨(WCK_RULE_A n), 31, 1⟩
abbrev WCK_RULE_A_INPUT (n : Nat) : Fld := ⟨(WCK_RULE_A n), 24, 4⟩
abbrev WCK_RULE_A_CMP (n : Nat) : Fld := ⟨(WCK_RULE_A n), 22, 2⟩
abbrev WCK_RULE_A_BIT (n : Nat) : Fld := ⟨(WCK_RULE_A n), 16, 6⟩
abbrev WCK_RULE_A_THRESH (n : Nat) : Fld := ⟨(WCK_RULE_A n), 0, 16⟩

abbrev WCK_RULE_B (n : Nat) : Nat := 0x40c00104 + 8 * n
abbrev WCK_RULE_B_IRQ (n : Nat) : Fld := ⟨(WCK_RULE_B n), 31, 1⟩
abbrev WCK_RULE_B_SNUFF (n : Nat) : Fld := ⟨(WCK_RULE_B n), 30, 1⟩
abbrev WCK_RULE_B_ALARM (n : Nat) : Fld := ⟨(WCK_RULE_B n), 29, 1⟩
abbrev WCK_RULE_B_PROMOTE (n : Nat) : Fld := ⟨(WCK_RULE_B n), 28, 1⟩
abbrev WCK_RULE_B_WAKE (n : Nat) : Fld := ⟨(WCK_RULE_B n), 27, 1⟩
abbrev WCK_RULE_B_N (n : Nat) : Fld := ⟨(WCK_RULE_B n), 20, 4⟩
abbrev WCK_RULE_B_W_US (n : Nat) : Fld := ⟨(WCK_RULE_B n), 0, 20⟩

/-! ### FLT (16 R379) -/

abbrev FLT_STAT : Nat := 0x40d00000
abbrev FLT_STAT_SNUFFED : Fld := ⟨FLT_STAT, 2, 1⟩
abbrev FLT_STAT_ISOLATED : Fld := ⟨FLT_STAT, 1, 1⟩
abbrev FLT_STAT_SAFE : Fld := ⟨FLT_STAT, 0, 1⟩

abbrev FLT_EVT : Nat := 0x40d00004
abbrev FLT_EVT_CFG_REJ : Fld := ⟨FLT_EVT, 3, 1⟩
abbrev FLT_EVT_CLR_REJ : Fld := ⟨FLT_EVT, 2, 1⟩
abbrev FLT_EVT_FORCE_REJ : Fld := ⟨FLT_EVT, 1, 1⟩
abbrev FLT_EVT_ROUND : Fld := ⟨FLT_EVT, 0, 1⟩

abbrev FLT_FIRST : Nat := 0x40d00008
abbrev FLT_FIRST_VALID : Fld := ⟨FLT_FIRST, 31, 1⟩
abbrev FLT_FIRST_MULTI : Fld := ⟨FLT_FIRST, 30, 1⟩
abbrev FLT_FIRST_FORCED : Fld := ⟨FLT_FIRST, 29, 1⟩
abbrev FLT_FIRST_REACT : Fld := ⟨FLT_FIRST, 24, 2⟩
abbrev FLT_FIRST_UNIT : Fld := ⟨FLT_FIRST, 16, 8⟩
abbrev FLT_FIRST_SRC : Fld := ⟨FLT_FIRST, 0, 7⟩

abbrev FLT_FIRST_TS : Nat := 0x40d00010
abbrev FLT_FIRST_TS_TIME : Fld := ⟨FLT_FIRST_TS, 0, 64⟩

abbrev FLT_ISOSBLK : Nat := 0x40d00018
abbrev FLT_ISOSBLK_ADDR : Fld := ⟨FLT_ISOSBLK, 5, 43⟩

abbrev FLT_FORCE_UNIT : Nat := 0x40d00020
abbrev FLT_FORCE_UNIT_UNIT : Fld := ⟨FLT_FORCE_UNIT, 0, 8⟩

abbrev FLT_SEV (n : Nat) : Nat := 0x40d00040 + 4 * n
abbrev FLT_SEV_SEV (n : Nat) : Fld := ⟨(FLT_SEV n), 0, 32⟩

abbrev FLT_STKY (n : Nat) : Nat := 0x40d00060 + 4 * n
abbrev FLT_STKY_STKY (n : Nat) : Fld := ⟨(FLT_STKY n), 0, 32⟩

abbrev FLT_STKYCLR (n : Nat) : Nat := 0x40d00070 + 4 * n
abbrev FLT_STKYCLR_CLR (n : Nat) : Fld := ⟨(FLT_STKYCLR n), 0, 32⟩

abbrev FLT_FORCE (n : Nat) : Nat := 0x40d00080 + 4 * n
abbrev FLT_FORCE_FORCE (n : Nat) : Fld := ⟨(FLT_FORCE n), 0, 32⟩

abbrev FLT_CAUSE (n : Nat) : Nat := 0x40d00090 + 4 * n
abbrev FLT_CAUSE_CAUSE (n : Nat) : Fld := ⟨(FLT_CAUSE n), 0, 32⟩

abbrev FLT_CFG (n : Nat) : Nat := 0x40d00400 + 4 * n
abbrev FLT_CFG_FIXED (n : Nat) : Fld := ⟨(FLT_CFG n), 31, 1⟩
abbrev FLT_CFG_REACT (n : Nat) : Fld := ⟨(FLT_CFG n), 24, 2⟩
abbrev FLT_CFG_N (n : Nat) : Fld := ⟨(FLT_CFG n), 16, 8⟩
abbrev FLT_CFG_WUNIT (n : Nat) : Fld := ⟨(FLT_CFG n), 15, 1⟩
abbrev FLT_CFG_W (n : Nat) : Fld := ⟨(FLT_CFG n), 0, 15⟩

abbrev FLT_CNT (n : Nat) : Nat := 0x40d00600 + 4 * n
abbrev FLT_CNT_OPEN (n : Nat) : Fld := ⟨(FLT_CNT n), 31, 1⟩
abbrev FLT_CNT_CNT (n : Nat) : Fld := ⟨(FLT_CNT n), 0, 8⟩

/-! ### CRD (17 R395) -/

abbrev CRD_CTRL : Nat := 0x40e00000
abbrev CRD_CTRL_CLKDIV : Fld := ⟨CRD_CTRL, 8, 6⟩
abbrev CRD_CTRL_EN : Fld := ⟨CRD_CTRL, 0, 1⟩

abbrev CRD_EVT : Nat := 0x40e00004
abbrev CRD_EVT_CFG_REJ : Fld := ⟨CRD_EVT, 10, 1⟩
abbrev CRD_EVT_QFAIL : Fld := ⟨CRD_EVT, 9, 1⟩
abbrev CRD_EVT_QAUTH : Fld := ⟨CRD_EVT, 8, 1⟩
abbrev CRD_EVT_XFER_ERR : Fld := ⟨CRD_EVT, 6, 2⟩
abbrev CRD_EVT_XFER_DONE : Fld := ⟨CRD_EVT, 4, 2⟩
abbrev CRD_EVT_ACT : Fld := ⟨CRD_EVT, 2, 2⟩
abbrev CRD_EVT_DET : Fld := ⟨CRD_EVT, 0, 2⟩

abbrev CRD_QCTRL : Nat := 0x40e00010
abbrev CRD_QCTRL_GO : Fld := ⟨CRD_QCTRL, 31, 1⟩
abbrev CRD_QCTRL_ABORT : Fld := ⟨CRD_QCTRL, 30, 1⟩
abbrev CRD_QCTRL_ATTEST : Fld := ⟨CRD_QCTRL, 29, 1⟩
abbrev CRD_QCTRL_SLOT : Fld := ⟨CRD_QCTRL, 16, 1⟩
abbrev CRD_QCTRL_PURPOSE : Fld := ⟨CRD_QCTRL, 12, 4⟩
abbrev CRD_QCTRL_TMO_S : Fld := ⟨CRD_QCTRL, 0, 12⟩

abbrev CRD_QSTAT : Nat := 0x40e00014
abbrev CRD_QSTAT_AUTH : Fld := ⟨CRD_QSTAT, 31, 1⟩
abbrev CRD_QSTAT_OPEN : Fld := ⟨CRD_QSTAT, 30, 1⟩
abbrev CRD_QSTAT_BUSY : Fld := ⟨CRD_QSTAT, 29, 1⟩
abbrev CRD_QSTAT_RECOVERY : Fld := ⟨CRD_QSTAT, 28, 1⟩
abbrev CRD_QSTAT_ERR : Fld := ⟨CRD_QSTAT, 16, 3⟩
abbrev CRD_QSTAT_M : Fld := ⟨CRD_QSTAT, 8, 4⟩
abbrev CRD_QSTAT_COUNT : Fld := ⟨CRD_QSTAT, 0, 4⟩

abbrev CRD_ROSTER_CTRL : Nat := 0x40e00018
abbrev CRD_ROSTER_CTRL_COMMIT : Fld := ⟨CRD_ROSTER_CTRL, 31, 1⟩
abbrev CRD_ROSTER_CTRL_VALID : Fld := ⟨CRD_ROSTER_CTRL, 30, 1⟩
abbrev CRD_ROSTER_CTRL_N : Fld := ⟨CRD_ROSTER_CTRL, 4, 4⟩
abbrev CRD_ROSTER_CTRL_M : Fld := ⟨CRD_ROSTER_CTRL, 0, 4⟩

abbrev CRD_ROSTER_BUF (n : Nat) : Nat := 0x40e00100 + 4 * n
abbrev CRD_ROSTER_BUF_DATA (n : Nat) : Fld := ⟨(CRD_ROSTER_BUF n), 0, 32⟩

abbrev CRD_SCTRL (n : Nat) : Nat := 0x40e01000 + 4096 * n
abbrev CRD_SCTRL_ACT (n : Nat) : Fld := ⟨(CRD_SCTRL n), 31, 1⟩
abbrev CRD_SCTRL_DEACT (n : Nat) : Fld := ⟨(CRD_SCTRL n), 30, 1⟩
abbrev CRD_SCTRL_PPS_EN (n : Nat) : Fld := ⟨(CRD_SCTRL n), 2, 1⟩
abbrev CRD_SCTRL_CLASS_EN (n : Nat) : Fld := ⟨(CRD_SCTRL n), 0, 2⟩

abbrev CRD_SSTAT (n : Nat) : Nat := 0x40e01004 + 4096 * n
abbrev CRD_SSTAT_DET (n : Nat) : Fld := ⟨(CRD_SSTAT n), 31, 1⟩
abbrev CRD_SSTAT_ERR (n : Nat) : Fld := ⟨(CRD_SSTAT n), 8, 3⟩
abbrev CRD_SSTAT_CLASS (n : Nat) : Fld := ⟨(CRD_SSTAT n), 7, 1⟩
abbrev CRD_SSTAT_STATE (n : Nat) : Fld := ⟨(CRD_SSTAT n), 0, 3⟩

abbrev CRD_SPARAM (n : Nat) : Nat := 0x40e01008 + 4096 * n
abbrev CRD_SPARAM_FI (n : Nat) : Fld := ⟨(CRD_SPARAM n), 28, 4⟩
abbrev CRD_SPARAM_DI (n : Nat) : Fld := ⟨(CRD_SPARAM n), 24, 4⟩
abbrev CRD_SPARAM_IFSC (n : Nat) : Fld := ⟨(CRD_SPARAM n), 16, 8⟩
abbrev CRD_SPARAM_BWI (n : Nat) : Fld := ⟨(CRD_SPARAM n), 12, 4⟩
abbrev CRD_SPARAM_CWI (n : Nat) : Fld := ⟨(CRD_SPARAM n), 8, 4⟩
abbrev CRD_SPARAM_GUARD (n : Nat) : Fld := ⟨(CRD_SPARAM n), 0, 8⟩

abbrev CRD_SXFER (n : Nat) : Nat := 0x40e0100c + 4096 * n
abbrev CRD_SXFER_GO (n : Nat) : Fld := ⟨(CRD_SXFER n), 31, 1⟩
abbrev CRD_SXFER_BUSY (n : Nat) : Fld := ⟨(CRD_SXFER n), 30, 1⟩
abbrev CRD_SXFER_PHASE (n : Nat) : Fld := ⟨(CRD_SXFER n), 27, 3⟩
abbrev CRD_SXFER_ERR (n : Nat) : Fld := ⟨(CRD_SXFER n), 24, 3⟩
abbrev CRD_SXFER_RLEN (n : Nat) : Fld := ⟨(CRD_SXFER n), 12, 9⟩
abbrev CRD_SXFER_LEN (n : Nat) : Fld := ⟨(CRD_SXFER n), 0, 9⟩

abbrev CRD_SBUF0 (n : Nat) : Nat := 0x40e01400 + 4 * n

abbrev CRD_SBUF1 (n : Nat) : Nat := 0x40e02400 + 4 * n

/-! ### TAG (18 R412) -/

abbrev TAG_STAT : Nat := 0x40f00000
abbrev TAG_STAT_FIELD : Fld := ⟨TAG_STAT, 31, 1⟩
abbrev TAG_STAT_FTXN : Fld := ⟨TAG_STAT, 30, 1⟩
abbrev TAG_STAT_WBUSY : Fld := ⟨TAG_STAT, 29, 1⟩
abbrev TAG_STAT_WWAIT : Fld := ⟨TAG_STAT, 28, 1⟩
abbrev TAG_STAT_FSTATE : Fld := ⟨TAG_STAT, 24, 2⟩

abbrev TAG_EVT : Nat := 0x40f00004
abbrev TAG_EVT_LOCKOUT : Fld := ⟨TAG_EVT, 5, 1⟩
abbrev TAG_EVT_AUTH_FAIL : Fld := ⟨TAG_EVT, 4, 1⟩
abbrev TAG_EVT_FWRITE : Fld := ⟨TAG_EVT, 3, 1⟩
abbrev TAG_EVT_PREEMPT : Fld := ⟨TAG_EVT, 2, 1⟩
abbrev TAG_EVT_WERR : Fld := ⟨TAG_EVT, 1, 1⟩
abbrev TAG_EVT_WDONE : Fld := ⟨TAG_EVT, 0, 1⟩

abbrev TAG_WCMD : Nat := 0x40f00008
abbrev TAG_WCMD_GO : Fld := ⟨TAG_WCMD, 31, 1⟩
abbrev TAG_WCMD_ERR : Fld := ⟨TAG_WCMD, 28, 3⟩
abbrev TAG_WCMD_OP : Fld := ⟨TAG_WCMD, 24, 2⟩
abbrev TAG_WCMD_LINE : Fld := ⟨TAG_WCMD, 0, 9⟩

abbrev TAG_WDATA (n : Nat) : Nat := 0x40f00010 + 4 * n
abbrev TAG_WDATA_DATA (n : Nat) : Fld := ⟨(TAG_WDATA n), 0, 32⟩

abbrev TAG_FINFO : Nat := 0x40f00020
abbrev TAG_FINFO_FVALID : Fld := ⟨TAG_FINFO, 31, 1⟩
abbrev TAG_FINFO_LVALID : Fld := ⟨TAG_FINFO, 30, 1⟩
abbrev TAG_FINFO_LGRP : Fld := ⟨TAG_FINFO, 24, 3⟩
abbrev TAG_FINFO_FLINE : Fld := ⟨TAG_FINFO, 0, 9⟩

abbrev TAG_GRPSEL : Nat := 0x40f00030
abbrev TAG_GRPSEL_GROUP : Fld := ⟨TAG_GRPSEL, 0, 3⟩

abbrev TAG_GRPCFG : Nat := 0x40f00034
abbrev TAG_GRPCFG_APPLY : Fld := ⟨TAG_GRPCFG, 31, 1⟩
abbrev TAG_GRPCFG_BUSY : Fld := ⟨TAG_GRPCFG, 30, 1⟩
abbrev TAG_GRPCFG_ERR : Fld := ⟨TAG_GRPCFG, 29, 1⟩
abbrev TAG_GRPCFG_LOCKED : Fld := ⟨TAG_GRPCFG, 12, 1⟩
abbrev TAG_GRPCFG_ATTEMPTS : Fld := ⟨TAG_GRPCFG, 8, 4⟩
abbrev TAG_GRPCFG_PWSET : Fld := ⟨TAG_GRPCFG, 4, 1⟩
abbrev TAG_GRPCFG_WPW : Fld := ⟨TAG_GRPCFG, 3, 1⟩
abbrev TAG_GRPCFG_RPW : Fld := ⟨TAG_GRPCFG, 2, 1⟩
abbrev TAG_GRPCFG_FWE : Fld := ⟨TAG_GRPCFG, 1, 1⟩
abbrev TAG_GRPCFG_FRE : Fld := ⟨TAG_GRPCFG, 0, 1⟩

abbrev TAG_GRPPW : Nat := 0x40f00038
abbrev TAG_GRPPW_PW : Fld := ⟨TAG_GRPPW, 0, 64⟩

/-! ### CAL, PMC and OBS (19 R427-R429) -/

abbrev CAL_STAT : Nat := 0x41000000
abbrev CAL_STAT_BUSY : Fld := ⟨CAL_STAT, 4, 1⟩
abbrev CAL_STAT_BANK : Fld := ⟨CAL_STAT, 3, 1⟩
abbrev CAL_STAT_OVL_COPY : Fld := ⟨CAL_STAT, 2, 1⟩
abbrev CAL_STAT_OVL_ACTIVE : Fld := ⟨CAL_STAT, 1, 1⟩
abbrev CAL_STAT_FACT_OK : Fld := ⟨CAL_STAT, 0, 1⟩

abbrev CAL_EVT : Nat := 0x41000004
abbrev CAL_EVT_OVL_SKIP : Fld := ⟨CAL_EVT, 2, 1⟩
abbrev CAL_EVT_APPLY_ERR : Fld := ⟨CAL_EVT, 1, 1⟩
abbrev CAL_EVT_APPLIED : Fld := ⟨CAL_EVT, 0, 1⟩

abbrev CAL_APPLY : Nat := 0x41000008
abbrev CAL_APPLY_GO : Fld := ⟨CAL_APPLY, 31, 1⟩
abbrev CAL_APPLY_COPY : Fld := ⟨CAL_APPLY, 0, 1⟩

abbrev CAL_OVLSTAT : Nat := 0x4100000c
abbrev CAL_OVLSTAT_ERR : Fld := ⟨CAL_OVLSTAT, 28, 4⟩
abbrev CAL_OVLSTAT_ENTRY : Fld := ⟨CAL_OVLSTAT, 0, 10⟩

abbrev CAL_OVLSEQ : Nat := 0x41000010
abbrev CAL_OVLSEQ_SEQ : Fld := ⟨CAL_OVLSEQ, 0, 32⟩

abbrev PMC_SNAP : Nat := 0x41100000
abbrev PMC_SNAP_GO : Fld := ⟨PMC_SNAP, 31, 1⟩
abbrev PMC_SNAP_BUSY : Fld := ⟨PMC_SNAP, 30, 1⟩

abbrev PMC_SNAPTIME : Nat := 0x41100008
abbrev PMC_SNAPTIME_TIME : Fld := ⟨PMC_SNAPTIME, 0, 64⟩

abbrev PMC_BWCFG : Nat := 0x41100010
abbrev PMC_BWCFG_WINDOW_US : Fld := ⟨PMC_BWCFG, 0, 20⟩

abbrev PMC_BWSEQ : Nat := 0x41100014
abbrev PMC_BWSEQ_SEQ : Fld := ⟨PMC_BWSEQ, 0, 32⟩

abbrev PMC_OVF (n : Nat) : Nat := 0x41100100 + 4 * n
abbrev PMC_OVF_OVF (n : Nat) : Fld := ⟨(PMC_OVF n), 0, 32⟩

abbrev PMC_OVFEN (n : Nat) : Nat := 0x41100180 + 4 * n
abbrev PMC_OVFEN_EN (n : Nat) : Fld := ⟨(PMC_OVFEN n), 0, 32⟩

abbrev PMC_BW_RX (n : Nat) : Nat := 0x41100300 + 16 * n
abbrev PMC_BW_RX_BYTES (n : Nat) : Fld := ⟨(PMC_BW_RX n), 0, 48⟩

abbrev PMC_BW_TX (n : Nat) : Nat := 0x41100308 + 16 * n
abbrev PMC_BW_TX_BYTES (n : Nat) : Fld := ⟨(PMC_BW_TX n), 0, 48⟩

abbrev PMC_CNT (n : Nat) : Nat := 0x41110000 + 8 * n
abbrev PMC_CNT_COUNT (n : Nat) : Fld := ⟨(PMC_CNT n), 0, 48⟩

abbrev PMC_SNAPC (n : Nat) : Nat := 0x41120000 + 8 * n
abbrev PMC_SNAPC_COUNT (n : Nat) : Fld := ⟨(PMC_SNAPC n), 0, 48⟩

abbrev OBS_CTRL : Nat := 0x41200000
abbrev OBS_CTRL_EN : Fld := ⟨OBS_CTRL, 0, 1⟩

abbrev OBS_EVT : Nat := 0x41200004
abbrev OBS_EVT_DCAP_FAULT : Fld := ⟨OBS_EVT, 2, 1⟩
abbrev OBS_EVT_TAP_DENY : Fld := ⟨OBS_EVT, 1, 1⟩
abbrev OBS_EVT_SEL_DENY : Fld := ⟨OBS_EVT, 0, 1⟩

abbrev OBS_SEL (n : Nat) : Nat := 0x41200010 + 4 * n
abbrev OBS_SEL_DENIED (n : Nat) : Fld := ⟨(OBS_SEL n), 31, 1⟩
abbrev OBS_SEL_SIG (n : Nat) : Fld := ⟨(OBS_SEL n), 0, 12⟩

abbrev OBS_DCAP_BASE : Nat := 0x41200040
abbrev OBS_DCAP_BASE_ADDR : Fld := ⟨OBS_DCAP_BASE, 0, 48⟩

abbrev OBS_DCAP_END : Nat := 0x41200048
abbrev OBS_DCAP_END_ADDR : Fld := ⟨OBS_DCAP_END, 0, 48⟩

abbrev OBS_DCAP_PERM : Nat := 0x41200050
abbrev OBS_DCAP_PERM_PERMS : Fld := ⟨OBS_DCAP_PERM, 0, 16⟩

/-- The rows of chapter 00. -/
def regRows00 : List RegRow :=
  [ ⟨0x40000000, 0, 1, false, 0x0, 0x0, false⟩ ]

/-- The rows of chapter 02. -/
def regRows02 : List RegRow :=
  [ ⟨0x40200000, 0, 1, false, 0xf, 0x0, false⟩
  , ⟨0x40200004, 0, 1, false, 0x10f, 0x0, false⟩
  , ⟨0x40200008, 0, 1, false, 0xffff, 0x0, false⟩
  , ⟨0x4020000c, 0, 1, false, 0xffffffff, 0x0, false⟩
  , ⟨0x40200010, 0, 1, false, 0x0, 0x1f, false⟩
  , ⟨0x40200014, 0, 1, false, 0x8000003f, 0x0, false⟩
  , ⟨0x40200018, 0, 1, false, 0x0, 0x0, false⟩
  , ⟨0x40200020, 0, 1, true, 0xfffffffff800, 0x0, false⟩
  , ⟨0x40200040, 8, 4, true, 0xffffffffffff, 0x0, false⟩
  , ⟨0x40200080, 4, 16, false, 0xffffffff, 0x0, false⟩
  , ⟨0x40200100, 0, 1, false, 0x3f, 0x0, false⟩
  , ⟨0x40200104, 0, 1, false, 0xffffffff, 0x0, false⟩
  , ⟨0x40200108, 0, 1, false, 0x800fffff, 0x0, false⟩
  , ⟨0x40200110, 0, 1, true, 0x0, 0x0, false⟩
  , ⟨0x40200118, 0, 1, true, 0x0, 0x0, false⟩
  , ⟨0x41300000, 4, 4, false, 0xffff0103, 0x0, false⟩
  , ⟨0x41300010, 0, 1, false, 0xfb, 0x0, false⟩
  , ⟨0x41300014, 0, 1, false, 0x8000ffff, 0x0, false⟩
  , ⟨0x41300018, 0, 1, false, 0xffffffff, 0x0, false⟩
  , ⟨0x41300020, 0, 1, true, 0xffffffffffffffff, 0x0, false⟩
  , ⟨0x41300028, 0, 1, true, 0xffffffffffffffff, 0x0, false⟩ ]

/-- The rows of chapter 03. -/
def regRows03 : List RegRow :=
  [ ⟨0x40300000, 0, 1, false, 0xff71, 0x0, false⟩
  , ⟨0x40300004, 0, 1, false, 0x0, 0x0, false⟩
  , ⟨0x40300008, 0, 1, false, 0x0, 0x3f, false⟩
  , ⟨0x4030000c, 0, 1, false, 0x0, 0x0, false⟩
  , ⟨0x40300010, 0, 1, false, 0x0, 0x0, false⟩
  , ⟨0x40300014, 0, 1, false, 0xffffffff, 0x0, false⟩
  , ⟨0x40300018, 0, 1, false, 0xffffffff, 0x0, false⟩
  , ⟨0x4030001c, 0, 1, false, 0x0, 0x0, false⟩
  , ⟨0x40300020, 0, 1, false, 0xffffffff, 0x0, false⟩
  , ⟨0x40300024, 0, 1, false, 0xffffffff, 0x0, false⟩
  , ⟨0x40300040, 4, 3, false, 0xffffffff, 0x0, false⟩
  , ⟨0x40300050, 4, 3, false, 0x0, 0x0, false⟩
  , ⟨0x40300060, 4, 3, false, 0x0, 0x0, false⟩
  , ⟨0x40300070, 4, 3, false, 0x0, 0x0, false⟩
  , ⟨0x40300080, 8, 8, false, 0xffffffff, 0x0, true⟩
  , ⟨0x40300084, 8, 8, false, 0x80003fff, 0x0, true⟩
  , ⟨0x40300100, 32, 10, false, 0xffff, 0x0, true⟩
  , ⟨0x40300104, 32, 10, false, 0x7ffffff, 0x0, true⟩
  , ⟨0x40300108, 32, 10, false, 0x0, 0x0, false⟩
  , ⟨0x4030010c, 32, 10, false, 0x0, 0x0, false⟩
  , ⟨0x40300110, 32, 10, false, 0x0, 0x0, false⟩
  , ⟨0x40300114, 32, 10, false, 0x0, 0x0, false⟩
  , ⟨0x40300280, 4, 4, false, 0x3fff, 0x0, true⟩
  , ⟨0x40340200, 32, 4080, false, 0xe7003fff, 0x0, true⟩
  , ⟨0x40340204, 32, 4080, false, 0xfffff, 0x0, true⟩
  , ⟨0x40340208, 32, 4080, false, 0xf7ffffff, 0x0, true⟩
  , ⟨0x4034020c, 32, 4080, false, 0xf7ffffff, 0x0, true⟩
  , ⟨0x40340210, 32, 4080, false, 0xf7ffffff, 0x0, true⟩
  , ⟨0x40340214, 32, 4080, false, 0xf7ffffff, 0x0, true⟩
  , ⟨0x40340218, 32, 4080, false, 0xf7ffffff, 0x0, true⟩
  , ⟨0x4034021c, 32, 4080, false, 0xf7ffffff, 0x0, true⟩ ]

/-- The rows of chapter 06. -/
def regRows06 : List RegRow :=
  [ ⟨0x40400000, 0, 1, false, 0x1, 0x0, false⟩
  , ⟨0x40400004, 0, 1, false, 0x0, 0x0, false⟩
  , ⟨0x40400008, 0, 1, false, 0x0, 0x3f, false⟩
  , ⟨0x4040000c, 0, 1, false, 0x0, 0x0, false⟩
  , ⟨0x40400010, 0, 1, false, 0x0, 0x0, false⟩
  , ⟨0x40400014, 0, 1, false, 0x0, 0x0, false⟩
  , ⟨0x40400020, 0, 1, true, 0xfffffffffff0, 0x0, false⟩
  , ⟨0x40400028, 0, 1, false, 0x3ff, 0x0, false⟩
  , ⟨0x4040002c, 0, 1, false, 0x0, 0x0, false⟩
  , ⟨0x40400030, 0, 1, false, 0xffff, 0x0, false⟩
  , ⟨0x40400034, 0, 1, false, 0x7ffffff, 0x0, false⟩
  , ⟨0x40400038, 0, 1, false, 0x3ff, 0x0, false⟩
  , ⟨0x4040003c, 0, 1, false, 0x0, 0x0, false⟩
  , ⟨0x40400040, 0, 1, false, 0x0, 0x0, false⟩
  , ⟨0x40400048, 0, 1, true, 0x0, 0x0, false⟩
  , ⟨0x40400050, 0, 1, true, 0xffffffff8000, 0x0, false⟩
  , ⟨0x40400058, 0, 1, false, 0x0, 0x0, false⟩
  , ⟨0x4040005c, 0, 1, false, 0x0, 0xffff, false⟩
  , ⟨0x40420200, 32, 4080, false, 0xff8003ff, 0x0, true⟩
  , ⟨0x40420204, 32, 4080, false, 0x3fff3fff, 0x0, true⟩
  , ⟨0x40420208, 32, 4080, false, 0xffff3fff, 0x0, true⟩
  , ⟨0x4042020c, 32, 4080, false, 0xffffffff, 0x0, true⟩
  , ⟨0x40420210, 32, 4080, false, 0xffffffff, 0x0, true⟩
  , ⟨0x40420214, 32, 4080, false, 0xffffffff, 0x0, true⟩
  , ⟨0x40420218, 32, 4080, false, 0x0, 0x0, true⟩
  , ⟨0x4042021c, 32, 4080, false, 0x0, 0x0, true⟩ ]

/-- The rows of chapter 07. -/
def regRows07 : List RegRow :=
  [ ⟨0x40100000, 0, 1, false, 0x3, 0x0, false⟩
  , ⟨0x40100004, 0, 1, false, 0x0, 0x0, false⟩
  , ⟨0x40100008, 0, 1, false, 0x0, 0x0, false⟩
  , ⟨0x4010000c, 0, 1, false, 0x0, 0x1f, false⟩
  , ⟨0x40100010, 0, 1, true, 0x0, 0x0, false⟩
  , ⟨0x40100018, 0, 1, false, 0x0, 0x80000000, false⟩
  , ⟨0x4010001c, 0, 1, false, 0x0, 0x0, false⟩
  , ⟨0x40100020, 0, 1, false, 0x0, 0x0, false⟩
  , ⟨0x40110000, 32, 1024, true, 0xffffffffffe0, 0x0, false⟩
  , ⟨0x40110008, 32, 1024, true, 0xffffffffffe0, 0x0, false⟩
  , ⟨0x40110010, 32, 1024, false, 0xc0000007, 0x0, false⟩
  , ⟨0x40110014, 32, 1024, false, 0x7fffff, 0x0, false⟩
  , ⟨0x40120000, 32, 1024, true, 0x0, 0x0, false⟩
  , ⟨0x40120008, 32, 1024, true, 0x0, 0x0, false⟩
  , ⟨0x40120010, 32, 1024, false, 0x0, 0x0, false⟩
  , ⟨0x40120014, 32, 1024, false, 0x0, 0x0, false⟩ ]

/-- The rows of chapter 08. -/
def regRows08 : List RegRow :=
  [ ⟨0x40500000, 0, 1, false, 0x0, 0x0, false⟩
  , ⟨0x40500004, 0, 1, false, 0x0, 0x0, false⟩
  , ⟨0x40500008, 0, 1, false, 0x0, 0x0, false⟩
  , ⟨0x4050000c, 0, 1, false, 0x0, 0x0, false⟩
  , ⟨0x40500010, 0, 1, false, 0x0, 0x3f, false⟩
  , ⟨0x40500014, 0, 1, false, 0x0, 0x0, false⟩
  , ⟨0x40500018, 0, 1, false, 0x0, 0x0, false⟩
  , ⟨0x4050001c, 0, 1, false, 0x0, 0x0, false⟩
  , ⟨0x40500020, 0, 1, true, 0x0, 0x8000000000000000, false⟩ ]

/-- The rows of chapter 09. -/
def regRows09 : List RegRow :=
  [ ⟨0x40600000, 4, 5, false, 0x0, 0x0, false⟩
  , ⟨0x40600020, 4, 5, false, 0x0, 0x0, false⟩
  , ⟨0x40600040, 4, 5, false, 0x0, 0x0, false⟩
  , ⟨0x40600060, 4, 5, false, 0x0, 0x0, false⟩
  , ⟨0x40600080, 0, 1, false, 0x0, 0x1ff, false⟩
  , ⟨0x40600084, 0, 1, false, 0x0, 0x0, false⟩
  , ⟨0x40600088, 0, 1, false, 0x0, 0x0, false⟩
  , ⟨0x4060008c, 0, 1, false, 0x0, 0x0, false⟩
  , ⟨0x40600090, 0, 1, false, 0xffffffff, 0x0, false⟩
  , ⟨0x40600094, 0, 1, false, 0x0, 0x0, false⟩
  , ⟨0x40600098, 0, 1, true, 0x0, 0x8000000000000000, false⟩
  , ⟨0x406000a0, 0, 1, false, 0xff001fff, 0x0, false⟩
  , ⟨0x406000a8, 0, 1, true, 0x0, 0x0, false⟩ ]

/-- The rows of chapter 10. -/
def regRows10 : List RegRow :=
  [ ⟨0x40700000, 0, 1, false, 0x3, 0x0, false⟩
  , ⟨0x40700004, 0, 1, false, 0x0, 0x0, false⟩
  , ⟨0x40700008, 0, 1, false, 0x0, 0x1ff, false⟩
  , ⟨0x4070000c, 0, 1, false, 0x1f, 0x0, false⟩
  , ⟨0x40700010, 0, 1, false, 0x0, 0x0, false⟩
  , ⟨0x40700018, 0, 1, true, 0x0, 0x0, false⟩
  , ⟨0x40700020, 0, 1, false, 0x0, 0x0, false⟩
  , ⟨0x40700024, 0, 1, false, 0x0, 0x0, false⟩
  , ⟨0x40700028, 0, 1, false, 0xfffff, 0x0, false⟩
  , ⟨0x4070002c, 0, 1, false, 0x0, 0x0, false⟩
  , ⟨0x40700030, 0, 1, false, 0x1f, 0x0, false⟩
  , ⟨0x40700034, 0, 1, false, 0xffff, 0x0, false⟩
  , ⟨0x40700038, 0, 1, false, 0x0, 0x0, false⟩
  , ⟨0x40700040, 0, 1, false, 0xf, 0x0, false⟩
  , ⟨0x40700044, 0, 1, false, 0xffff, 0x0, false⟩
  , ⟨0x40700048, 0, 1, true, 0xffffffffffffffff, 0x0, false⟩
  , ⟨0x40700050, 0, 1, true, 0xfffffffffff0, 0x0, false⟩
  , ⟨0x40700058, 0, 1, true, 0x0, 0x0, false⟩
  , ⟨0x40700060, 0, 1, true, 0x0, 0x0, false⟩
  , ⟨0x40700068, 0, 1, false, 0x0, 0x80000000, false⟩
  , ⟨0x40700070, 0, 1, true, 0x0, 0x8000000000000000, false⟩ ]

/-- The rows of chapter 11. -/
def regRows11 : List RegRow :=
  [ ⟨0x40800000, 0, 1, false, 0x3, 0x0, false⟩
  , ⟨0x40800004, 0, 1, false, 0x0, 0x0, false⟩
  , ⟨0x40800008, 0, 1, false, 0x33f, 0x0, false⟩
  , ⟨0x4080000c, 0, 1, false, 0x7ff007f, 0x0, false⟩
  , ⟨0x40800010, 0, 1, false, 0x0, 0x7, false⟩
  , ⟨0x40800014, 0, 1, false, 0x0, 0x80000000, false⟩
  , ⟨0x40800018, 0, 1, false, 0x0, 0x0, false⟩
  , ⟨0x4080001c, 0, 1, false, 0x0, 0x4, false⟩
  , ⟨0x40800020, 4, 8, false, 0x0, 0x0, false⟩
  , ⟨0x40800040, 0, 1, false, 0x0, 0x0, false⟩
  , ⟨0x40800044, 0, 1, false, 0x0, 0x0, false⟩ ]

/-- The rows of chapter 12. -/
def regRows12 : List RegRow :=
  [ ⟨0x40900000, 0, 1, false, 0x6b, 0x0, false⟩
  , ⟨0x40900004, 0, 1, false, 0x0, 0x0, false⟩
  , ⟨0x40900008, 0, 1, false, 0x0, 0xfff, false⟩
  , ⟨0x4090000c, 0, 1, false, 0x0, 0x0, false⟩
  , ⟨0x40900010, 0, 1, false, 0x0, 0x0, false⟩
  , ⟨0x40900014, 0, 1, false, 0x0, 0x0, false⟩
  , ⟨0x40900018, 0, 1, true, 0x0, 0x0, false⟩
  , ⟨0x40900020, 0, 1, false, 0xffff, 0x0, false⟩
  , ⟨0x40900028, 0, 1, true, 0xffffffffffffffff, 0x0, false⟩
  , ⟨0x40900030, 0, 1, false, 0x0, 0x0, false⟩
  , ⟨0x40900038, 0, 1, true, 0x0, 0x0, false⟩ ]

/-- The rows of chapter 13. -/
def regRows13 : List RegRow :=
  [ ⟨0x40000004, 0, 1, false, 0x0, 0x0, false⟩
  , ⟨0x40000008, 0, 1, false, 0x0, 0x0, false⟩
  , ⟨0x4000000c, 0, 1, false, 0x0, 0x1f, false⟩
  , ⟨0x40000010, 0, 1, false, 0x0, 0x0, false⟩
  , ⟨0x40000014, 0, 1, false, 0xffff, 0x0, false⟩
  , ⟨0x40000018, 0, 1, false, 0x0, 0x0, false⟩
  , ⟨0x4000001c, 0, 1, false, 0x7, 0x0, false⟩
  , ⟨0x40000020, 0, 1, false, 0x3, 0x0, false⟩
  , ⟨0x40000024, 0, 1, false, 0xffffffff, 0x0, false⟩
  , ⟨0x40000028, 0, 1, false, 0x0, 0x0, false⟩
  , ⟨0x4000002c, 0, 1, false, 0x1, 0x0, false⟩
  , ⟨0x40000100, 16, 16, false, 0x0, 0x0, false⟩
  , ⟨0x40000104, 16, 16, true, 0xffffffffffe0, 0x0, false⟩
  , ⟨0x40000400, 16, 16, true, 0xffffffffffffffff, 0x0, false⟩
  , ⟨0x40000408, 16, 16, false, 0x1, 0x2, false⟩
  , ⟨0x40000600, 8, 16, false, 0x0, 0xffffffff, false⟩
  , ⟨0x40000604, 8, 16, false, 0x0, 0x0, false⟩ ]

/-- The rows of chapter 14. -/
def regRows14 : List RegRow :=
  [ ⟨0x40a00000, 0, 1, false, 0x1, 0x0, false⟩
  , ⟨0x40a00004, 0, 1, false, 0x0, 0x0, false⟩
  , ⟨0x40a00008, 0, 1, false, 0x0, 0xff, false⟩
  , ⟨0x40a0000c, 0, 1, false, 0xfffffff, 0x0, false⟩
  , ⟨0x40a00010, 0, 1, true, 0xffffffffffe0, 0x0, false⟩
  , ⟨0x40a00018, 0, 1, true, 0xffffffffffe0, 0x0, false⟩
  , ⟨0x40a00020, 0, 1, false, 0xffff, 0x0, false⟩
  , ⟨0x40a00024, 0, 1, false, 0xfff, 0x0, false⟩
  , ⟨0x40a00028, 0, 1, false, 0x0, 0x0, false⟩
  , ⟨0x40a0002c, 0, 1, false, 0xfffff, 0x0, false⟩
  , ⟨0x40a00030, 0, 1, true, 0x0, 0x8000000000000000, false⟩ ]

/-- The rows of chapter 15. -/
def regRows15 : List RegRow :=
  [ ⟨0x40b00000, 0, 1, false, 0x0, 0x0, false⟩
  , ⟨0x40b00004, 0, 1, false, 0x0, 0x0, false⟩
  , ⟨0x40b00008, 0, 1, false, 0x0, 0x0, false⟩
  , ⟨0x40b0000c, 0, 1, false, 0x0, 0x0, false⟩
  , ⟨0x40b00010, 0, 1, false, 0x0, 0x0, false⟩
  , ⟨0x40b00018, 0, 1, true, 0x0, 0x0, false⟩
  , ⟨0x40b00020, 0, 1, true, 0x0, 0x0, false⟩
  , ⟨0x40b00028, 0, 1, true, 0x0, 0x0, false⟩
  , ⟨0x40b00030, 0, 1, true, 0x0, 0x0, false⟩
  , ⟨0x40b00038, 0, 1, false, 0x0, 0xf, false⟩
  , ⟨0x40b0003c, 0, 1, false, 0x1f, 0x0, false⟩
  , ⟨0x40b00100, 4, 28, false, 0xfb, 0x0, false⟩
  , ⟨0x40c00000, 0, 1, false, 0x4, 0x0, false⟩
  , ⟨0x40c00004, 0, 1, false, 0x0, 0x0, false⟩
  , ⟨0x40c00008, 0, 1, false, 0x0, 0xf, false⟩
  , ⟨0x40c0000c, 0, 1, false, 0xfffc, 0x0, false⟩
  , ⟨0x40c00010, 0, 1, false, 0xffffffff, 0x0, false⟩
  , ⟨0x40c00014, 0, 1, false, 0x0, 0x80000000, false⟩
  , ⟨0x40c00018, 0, 1, false, 0xffff, 0x0, false⟩
  , ⟨0x40c0001c, 0, 1, false, 0x0, 0x0, false⟩
  , ⟨0x40c00020, 0, 1, false, 0x0, 0x3, false⟩
  , ⟨0x40c00024, 0, 1, false, 0x0, 0xffffffff, false⟩
  , ⟨0x40c00030, 4, 4, false, 0x0, 0x0, false⟩
  , ⟨0x40c00100, 8, 32, false, 0x8fffffff, 0x0, false⟩
  , ⟨0x40c00104, 8, 32, false, 0xf8ffffff, 0x0, false⟩ ]

/-- The rows of chapter 16. -/
def regRows16 : List RegRow :=
  [ ⟨0x40d00000, 0, 1, false, 0x0, 0x0, false⟩
  , ⟨0x40d00004, 0, 1, false, 0x0, 0xf, false⟩
  , ⟨0x40d00008, 0, 1, false, 0x0, 0x80000000, false⟩
  , ⟨0x40d00010, 0, 1, true, 0x0, 0x0, false⟩
  , ⟨0x40d00018, 0, 1, true, 0xffffffffffe0, 0x0, false⟩
  , ⟨0x40d00020, 0, 1, false, 0xff, 0x0, false⟩
  , ⟨0x40d00040, 4, 4, false, 0x0, 0xffffffff, false⟩
  , ⟨0x40d00060, 4, 4, false, 0x0, 0x0, false⟩
  , ⟨0x40d00070, 4, 4, false, 0x0, 0x0, false⟩
  , ⟨0x40d00080, 4, 4, false, 0x0, 0x0, false⟩
  , ⟨0x40d00090, 4, 4, false, 0x0, 0x0, false⟩
  , ⟨0x40d00400, 4, 128, false, 0x3ffffff, 0x0, false⟩
  , ⟨0x40d00600, 4, 128, false, 0x0, 0x0, false⟩ ]

/-- The rows of chapter 17. -/
def regRows17 : List RegRow :=
  [ ⟨0x40e00000, 0, 1, false, 0x3f01, 0x0, false⟩
  , ⟨0x40e00004, 0, 1, false, 0x0, 0x7ff, false⟩
  , ⟨0x40e00010, 0, 1, false, 0x1ffff, 0x0, false⟩
  , ⟨0x40e00014, 0, 1, false, 0x0, 0x0, false⟩
  , ⟨0x40e00018, 0, 1, false, 0xff, 0x0, false⟩
  , ⟨0x40e00100, 4, 64, false, 0xffffffff, 0x0, false⟩
  , ⟨0x40e01000, 4096, 2, false, 0x7, 0x0, false⟩
  , ⟨0x40e01004, 4096, 2, false, 0x0, 0x0, false⟩
  , ⟨0x40e01008, 4096, 2, false, 0x0, 0x0, false⟩
  , ⟨0x40e0100c, 4096, 2, false, 0x1ff, 0x0, false⟩
  , ⟨0x40e01400, 4, 128, false, 0xffffffff, 0x0, false⟩
  , ⟨0x40e02400, 4, 128, false, 0xffffffff, 0x0, false⟩ ]

/-- The rows of chapter 18. -/
def regRows18 : List RegRow :=
  [ ⟨0x40f00000, 0, 1, false, 0x0, 0x0, false⟩
  , ⟨0x40f00004, 0, 1, false, 0x0, 0x3f, false⟩
  , ⟨0x40f00008, 0, 1, false, 0x30001ff, 0x0, false⟩
  , ⟨0x40f00010, 4, 4, false, 0xffffffff, 0x0, false⟩
  , ⟨0x40f00020, 0, 1, false, 0x0, 0xc0000000, false⟩
  , ⟨0x40f00030, 0, 1, false, 0x7, 0x0, false⟩
  , ⟨0x40f00034, 0, 1, false, 0xf, 0x0, false⟩
  , ⟨0x40f00038, 0, 1, true, 0x0, 0x0, false⟩ ]

/-- The rows of chapter 19. -/
def regRows19 : List RegRow :=
  [ ⟨0x41000000, 0, 1, false, 0x0, 0x0, false⟩
  , ⟨0x41000004, 0, 1, false, 0x0, 0x7, false⟩
  , ⟨0x41000008, 0, 1, false, 0x0, 0x0, false⟩
  , ⟨0x4100000c, 0, 1, false, 0x0, 0x0, false⟩
  , ⟨0x41000010, 0, 1, false, 0x0, 0x0, false⟩
  , ⟨0x41100000, 0, 1, false, 0x0, 0x0, false⟩
  , ⟨0x41100008, 0, 1, true, 0x0, 0x0, false⟩
  , ⟨0x41100010, 0, 1, false, 0xfffff, 0x0, false⟩
  , ⟨0x41100014, 0, 1, false, 0x0, 0x0, false⟩
  , ⟨0x41100100, 4, 18, false, 0x0, 0xffffffff, false⟩
  , ⟨0x41100180, 4, 18, false, 0xffffffff, 0x0, false⟩
  , ⟨0x41100300, 16, 4, true, 0x0, 0x0, false⟩
  , ⟨0x41100308, 16, 4, true, 0x0, 0x0, false⟩
  , ⟨0x41110000, 8, 576, true, 0x0, 0x0, false⟩
  , ⟨0x41120000, 8, 576, true, 0x0, 0x0, false⟩
  , ⟨0x41200000, 0, 1, false, 0x1, 0x0, false⟩
  , ⟨0x41200004, 0, 1, false, 0x0, 0x7, false⟩
  , ⟨0x41200010, 4, 8, false, 0xfff, 0x0, false⟩
  , ⟨0x41200040, 0, 1, true, 0x0, 0x0, false⟩
  , ⟨0x41200048, 0, 1, true, 0x0, 0x0, false⟩
  , ⟨0x41200050, 0, 1, false, 0x0, 0x0, false⟩ ]

/-- The whole register map. -/
def regRows : List RegRow :=
  regRows00 ++
  regRows02 ++
  regRows03 ++
  regRows06 ++
  regRows07 ++
  regRows08 ++
  regRows09 ++
  regRows10 ++
  regRows11 ++
  regRows12 ++
  regRows13 ++
  regRows14 ++
  regRows15 ++
  regRows16 ++
  regRows17 ++
  regRows18 ++
  regRows19

/-- Whether the row covers the word at `a`. -/
def RegRow.covers (r : RegRow) (a : Nat) : Bool :=
  decide (r.base ≤ a) &&
    (if r.stride = 0 then decide (a < r.base + (if r.dbl then 8 else 4))
     else decide ((a - r.base) / r.stride < r.count) &&
       decide ((a - r.base) % r.stride < (if r.dbl then 8 else 4)))

/-- The address of the register that holds the word at `a`: the low word of a 64-bit register (00 R7). -/
def RegRow.regOf (r : RegRow) (a : Nat) : Nat :=
  if r.stride = 0 then r.base else r.base + r.stride * ((a - r.base) / r.stride)

/-- The row that holds the word at `a`, if any register is defined there (00 R8). -/
def regRow? (a : Nat) : Option RegRow := regRows.find? (·.covers a)

end Sys2Proof.Machine
end

