-- ==== Sys2Proof/Machine/Sparse.lean ====
section
/-!
DEFINITION. Machine/Sparse.lean: sparse maps with natural-number keys, as plain data in one canonical form: keys
strictly rising, and no entry equal to what an unlisted key reads as. Registers, memory and the large tables of the
device are held so.
-/

namespace Sys2Proof.Machine

/-- A sparse map: a list of key and value pairs. -/
abbrev Sparse (α : Type) := List (Nat × α)

/-- The value at key `k`; an unlisted key reads as `d`. -/
def sget {α : Type} (d : α) : Sparse α → Nat → α
  | [], _ => d
  | (k', v) :: t, k => if k' = k then v else sget d t k

/-- Insert an entry before the first larger key. -/
def sinsert {α : Type} (k : Nat) (v : α) : Sparse α → Sparse α
  | [] => [(k, v)]
  | (k', v') :: t => if k < k' then (k, v) :: (k', v') :: t else (k', v') :: sinsert k v t

/-- Remove every entry of key `k`. -/
def serase {α : Type} (k : Nat) : Sparse α → Sparse α
  | [] => []
  | (k', v') :: t => if k' = k then serase k t else (k', v') :: serase k t

/-- Write `v` at key `k` of a map whose unlisted keys read as `d` (at `k`): the canonical form is kept. -/
def sput {α : Type} [DecidableEq α] (d : α) (m : Sparse α) (k : Nat) (v : α) : Sparse α :=
  if v = d then serase k m else sinsert k v (serase k m)

/-- The keys rise strictly. -/
def keysRise {α : Type} : Sparse α → Bool
  | [] => true
  | [_] => true
  | (k, _) :: (k', v') :: t => decide (k < k') && keysRise ((k', v') :: t)

/-- The canonical form: keys strictly rising and no entry equal to the default of its key. -/
def swf {α : Type} [DecidableEq α] (d : Nat → α) (m : Sparse α) : Bool :=
  keysRise m && m.all (fun e => decide (e.2 ≠ d e.1))

end Sys2Proof.Machine
end

