-- ==== Sys2Proof/Machine/ResetRegs.lean ====
section
/-!
DEFINITION. Machine/ResetRegs.lean: the registers whose value after reset is not zero, as the header lines and tables
of spec/ give them (the cal fields at their factory values, log entry 54), by address.
-/

namespace Sys2Proof.Machine

/-- SYS and ACT. -/
def resetSys : Sparse Word :=
  [ (0x40000000, 0x74081101)
  , (0x40000010, 0x1)
  , (0x40000014, 0x1)
  , (0x40000100, 0x1)
  , (0x40100000, 0x1) ]

/-- SVC, ADM and DSP. -/
def resetAdmA : Sparse Word :=
  [ (0x40200000, 0xe)
  , (0x40200008, 0xc4e0)
  , (0x40300000, 0x2800)
  , (0x40300014, 0x80020f)
  , (0x40300018, 0x10000800)
  , (0x40300020, 0x708)
  , (0x40300024, 0x2625a00)
  , (0x40300040, 0x10000)
  , (0x40300044, 0x10000)
  , (0x40300048, 0x10000)
  , (0x40300050, 0x10000)
  , (0x40300054, 0x10000)
  , (0x40300058, 0x10000)
  , (0x40300060, 0x10000)
  , (0x40300064, 0x10000)
  , (0x40300068, 0x10000)
  , (0x40300070, 0x10000)
  , (0x40300074, 0x10000)
  , (0x40300078, 0x10000)
  , (0x40300080, 0x3e8)
  , (0x40300084, 0x2000)
  , (0x40300088, 0x4e20)
  , (0x4030008c, 0x2000)
  , (0x40300090, 0x3d090)
  , (0x40300094, 0x2000)
  , (0x40300098, 0x1e8480)
  , (0x4030009c, 0x2000)
  , (0x403000a0, 0x1312d00)
  , (0x403000a4, 0x2000)
  , (0x403000a8, 0xbebc200)
  , (0x403000ac, 0x2000)
  , (0x403000b0, 0x77359400)
  , (0x403000b4, 0x2000)
  , (0x403000bc, 0x200)
  , (0x40300100, 0x2000)
  , (0x40300104, 0x7ffffff)
  , (0x40300120, 0xc02)
  , (0x40300124, 0x3e8)
  , (0x40300140, 0x20)
  , (0x40300144, 0x186a0) ]

/-- SVC, ADM and DSP. -/
def resetAdmB : Sparse Word :=
  [ (0x40300164, 0x7ffffff)
  , (0x40300184, 0x7ffffff)
  , (0x403001a4, 0x7ffffff)
  , (0x403001c4, 0x7ffffff)
  , (0x403001e4, 0x7ffffff)
  , (0x40300204, 0x7ffffff)
  , (0x40300224, 0x7ffffff)
  , (0x40300280, 0x2400)
  , (0x40300284, 0x2400)
  , (0x40300288, 0x2400)
  , (0x4030028c, 0x2400)
  , (0x40400030, 0x120c)
  , (0x40400034, 0x7d0) ]

/-- MAU to FLC. -/
def resetMid : Sparse Word :=
  [ (0x40600090, 0x4002710)
  , (0x40700028, 0x40000)
  , (0x40700030, 0x10)
  , (0x40700034, 0x3e8)
  , (0x40800008, 0x308)
  , (0x4080000c, 0x3480029)
  , (0x40900000, 0x2)
  , (0x40a00000, 0x1)
  , (0x40a00020, 0xc801f4)
  , (0x40a0002c, 0x186a0) ]

/-- TMP and WCK. -/
def resetTmp : Sparse Word :=
  [ (0x40b00000, 0x4)
  , (0x40b00100, 0x1)
  , (0x40b00104, 0x1)
  , (0x40b00108, 0x1)
  , (0x40b0010c, 0x1)
  , (0x40b00110, 0x1)
  , (0x40b00114, 0x1)
  , (0x40b00118, 0x1)
  , (0x40b0011c, 0x1)
  , (0x40b00120, 0x1)
  , (0x40b00124, 0x1)
  , (0x40b00128, 0x1)
  , (0x40b0012c, 0x1)
  , (0x40b00130, 0x1)
  , (0x40b00134, 0x1)
  , (0x40b00138, 0x1)
  , (0x40b0013c, 0x1)
  , (0x40b00140, 0x1)
  , (0x40b00144, 0x1)
  , (0x40b00148, 0x1)
  , (0x40b0014c, 0x1)
  , (0x40b00150, 0x1)
  , (0x40b00154, 0x1)
  , (0x40b00158, 0x1)
  , (0x40b0015c, 0x1)
  , (0x40b00160, 0x10)
  , (0x40b00164, 0x10)
  , (0x40b00168, 0x10)
  , (0x40b0016c, 0x10)
  , (0x40c00100, 0x81000000)
  , (0x40c00104, 0x40100001)
  , (0x40c00108, 0x82000000)
  , (0x40c0010c, 0x28100001)
  , (0x40c00110, 0x87000003)
  , (0x40c00114, 0x10400020)
  , (0x40c00118, 0x85400960)
  , (0x40c0011c, 0x20100001) ]

/-- FLT. -/
def resetFltA : Sparse Word :=
  [ (0x40d00400, 0x2010000)
  , (0x40d00404, 0x2010000)
  , (0x40d00408, 0x2010000)
  , (0x40d0040c, 0x2010000)
  , (0x40d00410, 0x2010000)
  , (0x40d00414, 0x2010000)
  , (0x40d00418, 0x2010000)
  , (0x40d00420, 0x2010000)
  , (0x40d00424, 0x2010000)
  , (0x40d00428, 0x2010000)
  , (0x40d0042c, 0x2010000)
  , (0x40d00430, 0x2010000)
  , (0x40d00434, 0x2010000)
  , (0x40d00438, 0x2010000)
  , (0x40d0043c, 0x10000)
  , (0x40d00440, 0x2010000)
  , (0x40d00444, 0x2010000)
  , (0x40d00448, 0x3010000)
  , (0x40d0044c, 0x3010000)
  , (0x40d00450, 0x3010000)
  , (0x40d00454, 0x3010000)
  , (0x40d00458, 0x3010000)
  , (0x40d0045c, 0x10000)
  , (0x40d00460, 0x10000)
  , (0x40d00464, 0x10000)
  , (0x40d00468, 0x10000)
  , (0x40d0046c, 0x10000)
  , (0x40d00480, 0x80010000)
  , (0x40d00484, 0x80010000)
  , (0x40d00488, 0x80010000)
  , (0x40d0048c, 0x80010000)
  , (0x40d00490, 0x80010000)
  , (0x40d00494, 0x80010000)
  , (0x40d00498, 0x80010000)
  , (0x40d0049c, 0x80010000)
  , (0x40d004a0, 0x80010000)
  , (0x40d004a4, 0x80010000)
  , (0x40d004a8, 0x80010000)
  , (0x40d004ac, 0x80010000)
  , (0x40d004b0, 0x80010000) ]

/-- FLT. -/
def resetFltB : Sparse Word :=
  [ (0x40d004b4, 0x80010000)
  , (0x40d004b8, 0x80010000)
  , (0x40d004bc, 0x80010000)
  , (0x40d004c0, 0x10000)
  , (0x40d004c4, 0x10000)
  , (0x40d004c8, 0x83010000)
  , (0x40d004cc, 0x10000)
  , (0x40d004d0, 0x10000)
  , (0x40d004d4, 0x10000)
  , (0x40d004d8, 0x10000)
  , (0x40d004dc, 0x10000)
  , (0x40d004e0, 0x10000)
  , (0x40d004e4, 0x10000)
  , (0x40d004e8, 0x10000)
  , (0x40d004ec, 0x10000)
  , (0x40d004f0, 0x10000)
  , (0x40d004f4, 0x10000)
  , (0x40d004f8, 0x2010000)
  , (0x40d00500, 0x10283e8)
  , (0x40d00504, 0x11083e8)
  , (0x40d00508, 0x10283e8)
  , (0x40d0050c, 0x1010000)
  , (0x40d00510, 0x11083e8)
  , (0x40d00514, 0x10000)
  , (0x40d00518, 0x10000)
  , (0x40d0051c, 0x10000)
  , (0x40d00520, 0x48001)
  , (0x40d00524, 0x10000)
  , (0x40d00528, 0x10000)
  , (0x40d0052c, 0x10000)
  , (0x40d00530, 0x10000)
  , (0x40d00534, 0x10000)
  , (0x40d00538, 0x10000)
  , (0x40d0053c, 0x10000)
  , (0x40d00540, 0x10000)
  , (0x40d00544, 0x10000)
  , (0x40d00548, 0x10000)
  , (0x40d0054c, 0x80010000)
  , (0x40d00550, 0x10000)
  , (0x40d00554, 0x10000) ]

/-- FLT. -/
def resetFltC : Sparse Word :=
  [ (0x40d00558, 0x10000)
  , (0x40d0055c, 0x10000)
  , (0x40d00560, 0x10000)
  , (0x40d00564, 0x10000)
  , (0x40d00568, 0x10000)
  , (0x40d0056c, 0x10000)
  , (0x40d00570, 0x2010000)
  , (0x40d00574, 0x2010000)
  , (0x40d00578, 0x10000)
  , (0x40d0057c, 0x10000)
  , (0x40d00580, 0x10000)
  , (0x40d00584, 0x10000)
  , (0x40d00588, 0x10000)
  , (0x40d0058c, 0x10000)
  , (0x40d00590, 0x10000)
  , (0x40d00594, 0x10000)
  , (0x40d00598, 0x10000)
  , (0x40d0059c, 0x10000)
  , (0x40d005a0, 0x2010000)
  , (0x40d005a4, 0x2010000)
  , (0x40d005a8, 0x10000)
  , (0x40d005ac, 0x10000)
  , (0x40d005b0, 0x10000)
  , (0x40d005b4, 0x10000)
  , (0x40d005b8, 0x10000)
  , (0x40d005bc, 0x10000)
  , (0x40d005c0, 0x10000)
  , (0x40d005c4, 0x10000)
  , (0x40d005c8, 0x10000)
  , (0x40d005cc, 0x10000)
  , (0x40d005d0, 0x10000)
  , (0x40d005d4, 0x10000)
  , (0x40d005d8, 0x10000)
  , (0x40d005dc, 0x10000)
  , (0x40d005e0, 0x10000)
  , (0x40d005e4, 0x10000) ]

/-- CRD to OBS. -/
def resetEnd : Sparse Word :=
  [ (0x40e00000, 0x2800)
  , (0x40e00010, 0x78)
  , (0x40e01000, 0x3)
  , (0x40e02000, 0x3)
  , (0x41100010, 0x3e8)
  , (0x41200050, 0x203) ]

/-- The second bank of the banked registers (03 R69). -/
def resetBank1 : Sparse Word :=
  [ (0x1000040300080, 0x3e8)
  , (0x1000040300084, 0x2000)
  , (0x1000040300088, 0x4e20)
  , (0x100004030008c, 0x2000)
  , (0x1000040300090, 0x3d090)
  , (0x1000040300094, 0x2000)
  , (0x1000040300098, 0x1e8480)
  , (0x100004030009c, 0x2000)
  , (0x10000403000a0, 0x1312d00)
  , (0x10000403000a4, 0x2000)
  , (0x10000403000a8, 0xbebc200)
  , (0x10000403000ac, 0x2000)
  , (0x10000403000b0, 0x77359400)
  , (0x10000403000b4, 0x2000)
  , (0x10000403000bc, 0x200)
  , (0x1000040300100, 0x2000)
  , (0x1000040300104, 0x7ffffff)
  , (0x1000040300120, 0xc02)
  , (0x1000040300124, 0x3e8)
  , (0x1000040300140, 0x20)
  , (0x1000040300144, 0x186a0)
  , (0x1000040300164, 0x7ffffff)
  , (0x1000040300184, 0x7ffffff)
  , (0x10000403001a4, 0x7ffffff)
  , (0x10000403001c4, 0x7ffffff)
  , (0x10000403001e4, 0x7ffffff)
  , (0x1000040300204, 0x7ffffff)
  , (0x1000040300224, 0x7ffffff)
  , (0x1000040300280, 0x2400)
  , (0x1000040300284, 0x2400)
  , (0x1000040300288, 0x2400)
  , (0x100004030028c, 0x2400) ]

/-- Every register that is not zero after the first reset release (13 R312, R326). -/
def resetRegs : Sparse Word :=
  resetSys ++ resetAdmA ++ resetAdmB ++ resetMid ++ resetTmp ++
  resetFltA ++ resetFltB ++ resetFltC ++ resetEnd ++ resetBank1

end Sys2Proof.Machine
end

