-- ==== Sys2Proof/Machine/Formats.lean ====
section
/-!
DEFINITION. Machine/Formats.lean: the nine instruction formats of Wenak (04 Table 4.2), the capability (05 Table 5.1),
and what a master of the system interconnect presents with an access (07 Table 7.1).
-/

namespace Sys2Proof.Machine

/-- Format A, register: rd ra rb. -/
structure FmtA where
  rd : BitVec 5
  ra : BitVec 5
  rb : BitVec 5
  deriving DecidableEq, Repr

/-- Format I, immediate: rd ra imm16. -/
structure FmtI where
  rd : BitVec 5
  ra : BitVec 5
  imm : BitVec 16
  deriving DecidableEq, Repr

/-- Format I as SHI reads it (04 R105): bits 11:6 of the immediate, and the shift amount. -/
structure FmtShift where
  rd : BitVec 5
  ra : BitVec 5
  mid : BitVec 6
  sh : BitVec 6
  deriving DecidableEq, Repr

/-- Format I as BFX reads it (04 R106): bits 13:12, pos and len - 1. -/
structure FmtField where
  rd : BitVec 5
  ra : BitVec 5
  mid : BitVec 2
  pos : BitVec 6
  len1 : BitVec 6
  deriving DecidableEq, Repr

/-- Format M, memory: rt ra cb imm12. -/
structure FmtM where
  rt : BitVec 5
  ra : BitVec 5
  cb : BitVec 4
  imm : BitVec 12
  deriving DecidableEq, Repr

/-- Format T, atomic: rd ra rb cb. -/
structure FmtT where
  rd : BitVec 5
  ra : BitVec 5
  rb : BitVec 5
  cb : BitVec 4
  deriving DecidableEq, Repr

/-- Format B, branch: ra rb disp16. -/
structure FmtB where
  ra : BitVec 5
  rb : BitVec 5
  disp : BitVec 16
  deriving DecidableEq, Repr

/-- Format J, jump: disp26. -/
structure FmtJ where
  disp : BitVec 26
  deriving DecidableEq, Repr

/-- Format C, capability: X Y Z U. -/
structure FmtC where
  x : BitVec 4
  y : BitVec 4
  z : BitVec 4
  u : BitVec 5
  deriving DecidableEq, Repr

/-- Format S, system: rd ra imm12. -/
structure FmtS where
  rd : BitVec 5
  ra : BitVec 5
  imm : BitVec 12
  deriving DecidableEq, Repr

/-- Format E, engine: rd ra ce imm8. -/
structure FmtE where
  rd : BitVec 5
  ra : BitVec 5
  ce : BitVec 4
  imm : BitVec 8
  deriving DecidableEq, Repr

/-- A capability: 128 bits and a hidden tag (05 R142, Table 5.1). `top` is the end field: 0 encodes 2^48. -/
structure Cap where
  tag : Bool := false
  otype : BitVec 16 := 0
  perms : BitVec 16 := 0
  top : BitVec 48 := 0
  base : BitVec 48 := 0
  deriving DecidableEq, Repr

/-- A master of the system interconnect (07 Table 7.1); Wick's core is no master of the access table (07 R193). -/
inductive Master where
  | ctl (n : Fin 16)
  | dap | loader | ireq | mgq | kst | flc | duo
  | wick
  deriving DecidableEq, Repr

/-- An access as a master presents it: who, and the permission set it carries (07 R195). -/
structure Acc where
  master : Master
  perms : BitVec 16
  deriving DecidableEq, Repr

end Sys2Proof.Machine
end

