-- ==== Sys2Proof/Machine/Inputs.lean ====
section
/-!
DEFINITION. Machine/Inputs.lean: what the surroundings bring into the device with an event: the noise samples of a
window set (11 R276), the sensors of a Wick frame (15 R360), a correction of the timebase (01 R13), what a fault event
carries (16 R370), and the width of a bus access (00 R6).
-/

namespace Sys2Proof.Machine

/-- The width of an access, in bytes. -/
inductive AccSize where
  | b1 | b2 | b4 | b8
  deriving DecidableEq, Repr

/-- The number of bytes. -/
def AccSize.bytes : AccSize → Nat
  | .b1 => 1
  | .b2 => 2
  | .b4 => 4
  | .b8 => 8

/-- The raw stream of one window set (11 R276, R278): sample `i` in bit `i`, the sixteen cells in turn, cell 0 first. -/
abbrev RngWindow := BitVec 16384

/-- The sensors behind one Wick sample frame (15 R360): the hottest and the coldest reading in signed degrees, and
VDD_AON and VBAT in mV. -/
structure SensorFrame where
  hot : BitVec 16
  cold : BitVec 16
  vaon : BitVec 16
  vbat : BitVec 16
  deriving DecidableEq, Repr

/-- Firmware's correction of the timebase (01 R13): the phase step in ns and the rate adjustment from now on, in parts per
10^9. -/
structure TbCorrection where
  phase : Int
  rate : Int
  deriving DecidableEq, Repr

/-- What a fault event carries (16 R370): the unit's number, and for an error in a memory the offset of the word. -/
structure FaultAt where
  unit : Byte
  addr : BitVec 48
  deriving DecidableEq, Repr

end Sys2Proof.Machine
end

