-- ==== Sys2Proof/Syntax.lean ====
section
/-!
DEFINITION. Syntax.lean: the commands of the block, one constructor for each row of spec/opcode_table.json, in its
order. A register write carries the access that makes it; an event carries `dt`, the nanoseconds of the timebase since
the command before it (log entry 3); a Wenak instruction carries the core that executes it and its format fields.
-/

namespace Sys2Proof

open Sys2Proof.Machine

/-- A command of the block. -/
inductive Instr where
  /-- REGISTER_WRITE (R9): A write to a register field that has no behaviour of its own sets or ignores the field by its access type. -/
  | registerWrite (a : Acc) (addr : BitVec 48) (size : AccSize) (v : Word)
  /-- LOW_WORD_READ (R7): A read of the low word of a 64-bit register latches its high word for the next high-word read by the same master. -/
  | lowWordRead (a : Acc) (addr : BitVec 48)
  /-- TIMEBASE_PHASE_STEP (R13): Firmware steps the timebase phase, which is accepted only in BOOT and CUSTODY; the step closes every fault-collector window. -/
  | timebasePhaseStep (c : TbCorrection)
  /-- FRAME_RECEIVE (R43): A frame is received whole on a port and passes the front-end checks in order; it is dropped, refused, queued for management, passed to the duo link, or handed to ADM as a descriptor. -/
  | frameReceive (dt : Nat) (port : Fin 4) (f : RxFrame)
  /-- REFUSAL_RESPONSE_DROP (R44): A refusal response that cannot start within its bound is dropped and counted. -/
  | refusalResponseDrop (dt : Nat) (port : Fin 4)
  /-- ADM_DECISION (R78): ADM decides a descriptor: it accepts it and commits it to the pools, or declines it. -/
  | admDecision (dt : Nat) (c : Fin 8192)
  /-- FETCH_COMPLETE (R177): The HOT or SEAL fetch stage of an admitted request completes; the key is bound and the context becomes READY. -/
  | fetchComplete (dt : Nat) (c : Fin 8192) (ok : Bool)
  /-- BEST_EFFORT_FETCH_DONE (R80): A fetch queued by a KEY_NOT_RESIDENT decline completes and installs the record in the key cache. -/
  | bestEffortFetchDone (dt : Nat) (ok : Bool)
  /-- CONTEXT_DISPATCH (R177): A free service core takes the READY context of least key, and an SC stage begins. -/
  | contextDispatch (dt : Nat) (k : Fin 64)
  /-- RESPONSE_GRANT (R75): The TX pool grants a response to its port, which ends the service phase; the frame is built and sent, or dropped when the port cannot transmit, and the context becomes FREE. -/
  | responseGrant (dt : Nat) (port : Fin 4)
  /-- IREQ_RESPONSE_WRITTEN (R186): DSP writes an internal request's response into its ring slot, sets DSP_IREQ_DONE, and frees the context. -/
  | ireqResponseWritten (dt : Nat) (c : Fin 8192)
  /-- ENTRY_OVERRUN (R84): An admitted entry reaches E plus 20 µs without ending, and ADM cancels it with FAULT. -/
  | entryOverrun (dt : Nat) (c : Fin 8192)
  /-- TEMPO_STALE (R83): ADM_TEMPOp has not been written within STALE_US, so the factor falls back to 1.0 and STALE is set. -/
  | tempoStale (dt : Nat) (p : Fin 3)
  /-- TAPER_READING (R83): Every 1 µs ADM takes Taper readings, updates ADM_TAPRDp and ADM_TEFFp, and raises TAPER events. -/
  | taperReading (dt : Nat) (sc : Word32) (cph : Word32) (mau : Word32)
  /-- ACTIVITY_WINDOW_END (R82): At the end of each 100 µs window ADM updates ADM_ACTp. -/
  | activityWindowEnd (dt : Nat) (sc : BitVec 17) (cph : BitVec 17) (mau : BitVec 17)
  /-- FASTCLS_WRITE (R72): A write of ADM_CTRL.FASTCLS recomputes the blocking terms BS, BL and BF. -/
  | fastclsWrite (a : Acc) (v : Word32)
  /-- EPOCH_SWITCH (R184): A write of DSP_EPOCH.SWITCH or ADM_EPOCH.SWITCH starts the joint validation of the inactive banks. -/
  | epochSwitch (a : Acc) (adm : Bool) (v : Word32)
  /-- EPOCH_SWITCH_DONE (R184): Joint validation ends: the dispatch and ADM banks switch at one instant, or the switch fails with ERR set. -/
  | epochSwitchDone (dt : Nat)
  /-- SA_LOAD (R39): A write of ETH_MSEC_SA with VALID = 1 starts the transfer of the SAK and salt from a key slot. -/
  | saLoad (a : Acc) (v : Word32)
  /-- SA_LOAD_DONE (R67): The SAK transfer ends: the SA becomes valid, or ERR is set. -/
  | saLoadDone (dt : Nat)
  /-- RQ_FLOOR_WRITE (R50): A write of SVC_RQ_FLOOR sets HIGH and every SEEN bit, or is rejected with CFG_REJ. -/
  | rqFloorWrite (a : Acc) (v : Word)
  /-- PORTCFG_WRITE (R62): A write of SVC_PORTCFG changes port enables and, under conditions, P3's role. -/
  | portcfgWrite (a : Acc) (v : Word32)
  /-- MGT_GO (R65): A write of SVC_MGT_GO transmits a management transmit slot. -/
  | mgtGo (a : Acc) (v : Word32)
  /-- MGT_TX_DONE (R65): A management frame has been sent; the egress timestamp and the completion flag are written into its slot. -/
  | mgtTxDone (dt : Nat)
  /-- LINK_STATE_CHANGE (R368): A port's link goes down or comes up, which drives its ETH_LINK level source. -/
  | linkStateChange (dt : Nat) (port : Fin 4) (up : Bool)
  /-- REFCLK_LOSS (R441): A reference clock has been absent for 1 µs and raises its fault source. -/
  | refclkLoss (dt : Nat) (mem : Bool)
  /-- SERVICE_CORE_HANG (R368): A service core that is running a context retires nothing for 50 ns and signals SC_HANG. -/
  | serviceCoreHang (dt : Nat) (k : Fin 64)
  /-- ILL (R97): Opcode 0x00 or 0x3F raises ILLEGAL. -/
  | ill (h : Hart) (ones : Bool) (rest : BitVec 26)
  /-- RESERVED_INSTRUCTION (R98): A reserved encoding raises RESERVED for emulation. -/
  | reservedInstruction (h : Hart) (w : Word32)
  /-- ADD (R101): Adds two registers modulo 2^64. -/
  | add (h : Hart) (f : FmtA)
  /-- SUB (R101): Subtracts two registers modulo 2^64. -/
  | sub (h : Hart) (f : FmtA)
  /-- AND (R101): Bitwise and. -/
  | and (h : Hart) (f : FmtA)
  /-- OR (R101): Bitwise or. -/
  | or (h : Hart) (f : FmtA)
  /-- XOR (R101): Bitwise exclusive or. -/
  | xor (h : Hart) (f : FmtA)
  /-- NOR (R101): Bitwise not-or. -/
  | nor (h : Hart) (f : FmtA)
  /-- SLT (R101): Signed less-than comparison. -/
  | slt (h : Hart) (f : FmtA)
  /-- SLTU (R101): Unsigned less-than comparison. -/
  | sltu (h : Hart) (f : FmtA)
  /-- SLL (R101): Logical left shift. -/
  | sll (h : Hart) (f : FmtA)
  /-- SRL (R101): Logical right shift. -/
  | srl (h : Hart) (f : FmtA)
  /-- SRA (R101): Arithmetic right shift. -/
  | sra (h : Hart) (f : FmtA)
  /-- MOVZ (R101): Conditional move when the test register is zero. -/
  | movz (h : Hart) (f : FmtA)
  /-- MOVN (R101): Conditional move when the test register is non-zero. -/
  | movn (h : Hart) (f : FmtA)
  /-- MIN (R101): Signed minimum. -/
  | min (h : Hart) (f : FmtA)
  /-- MAX (R101): Signed maximum. -/
  | max (h : Hart) (f : FmtA)
  /-- MINU (R101): Unsigned minimum. -/
  | minu (h : Hart) (f : FmtA)
  /-- MAXU (R101): Unsigned maximum. -/
  | maxu (h : Hart) (f : FmtA)
  /-- CLZ (R101): Counts leading zeros. -/
  | clz (h : Hart) (f : FmtA)
  /-- POPC (R101): Counts set bits. -/
  | popc (h : Hart) (f : FmtA)
  /-- BSWAP (R101): Reverses the 8 bytes of a register. -/
  | bswap (h : Hart) (f : FmtA)
  /-- BSWAPW (R101): Reverses the low 4 bytes and zero-extends the result. -/
  | bswapw (h : Hart) (f : FmtA)
  /-- ADDW (R101): 32-bit add, sign-extended. -/
  | addw (h : Hart) (f : FmtA)
  /-- SUBW (R101): 32-bit subtract, sign-extended. -/
  | subw (h : Hart) (f : FmtA)
  /-- SLLW (R101): 32-bit left shift. -/
  | sllw (h : Hart) (f : FmtA)
  /-- SRLW (R101): 32-bit logical right shift. -/
  | srlw (h : Hart) (f : FmtA)
  /-- SRAW (R101): 32-bit arithmetic right shift. -/
  | sraw (h : Hart) (f : FmtA)
  /-- MUL (R101): Low 64 bits of the product. -/
  | mul (h : Hart) (f : FmtA)
  /-- MULH (R101): High 64 bits of the signed product. -/
  | mulh (h : Hart) (f : FmtA)
  /-- MULHU (R101): High 64 bits of the unsigned product. -/
  | mulhu (h : Hart) (f : FmtA)
  /-- DIV (R102): Signed division, with DIVZ or the defined result on a zero divisor. -/
  | div (h : Hart) (f : FmtA)
  /-- DIVU (R102): Unsigned division. -/
  | divu (h : Hart) (f : FmtA)
  /-- REM (R102): Signed remainder. -/
  | rem (h : Hart) (f : FmtA)
  /-- REMU (R102): Unsigned remainder. -/
  | remu (h : Hart) (f : FmtA)
  /-- ADDV (R103): Add with overflow detection. -/
  | addv (h : Hart) (f : FmtA)
  /-- SUBV (R103): Subtract with overflow detection. -/
  | subv (h : Hart) (f : FmtA)
  /-- MULV (R103): Multiply with signed overflow detection. -/
  | mulv (h : Hart) (f : FmtA)
  /-- ADDI (R104): Adds a sign-extended immediate. -/
  | addi (h : Hart) (f : FmtI)
  /-- ADDIW (R104): 32-bit add of an immediate, sign-extended. -/
  | addiw (h : Hart) (f : FmtI)
  /-- ANDI (R104): And with a zero-extended immediate. -/
  | andi (h : Hart) (f : FmtI)
  /-- ORI (R104): Or with a zero-extended immediate. -/
  | ori (h : Hart) (f : FmtI)
  /-- XORI (R104): Exclusive or with a zero-extended immediate. -/
  | xori (h : Hart) (f : FmtI)
  /-- SLTI (R104): Signed compare against an immediate. -/
  | slti (h : Hart) (f : FmtI)
  /-- SLTIU (R104): Unsigned compare against a sign-extended immediate. -/
  | sltiu (h : Hart) (f : FmtI)
  /-- LUI (R104): Loads an upper immediate. -/
  | lui (h : Hart) (f : FmtI)
  /-- SLLI (R105): Immediate left shift. -/
  | slli (h : Hart) (f : FmtShift)
  /-- SRLI (R105): Immediate logical right shift. -/
  | srli (h : Hart) (f : FmtShift)
  /-- SRAI (R105): Immediate arithmetic right shift. -/
  | srai (h : Hart) (f : FmtShift)
  /-- SLLIW (R105): 32-bit immediate left shift. -/
  | slliw (h : Hart) (f : FmtShift)
  /-- SRLIW (R105): 32-bit immediate logical right shift. -/
  | srliw (h : Hart) (f : FmtShift)
  /-- SRAIW (R105): 32-bit immediate arithmetic right shift. -/
  | sraiw (h : Hart) (f : FmtShift)
  /-- EXTU (R106): Extracts a zero-extended bit field. -/
  | extu (h : Hart) (f : FmtField)
  /-- EXTS (R106): Extracts a sign-extended bit field. -/
  | exts (h : Hart) (f : FmtField)
  /-- INS (R106): Inserts a bit field. -/
  | ins (h : Hart) (f : FmtField)
  /-- LB (R107): Loads a sign-extended byte through a capability. -/
  | lb (h : Hart) (f : FmtM)
  /-- LBU (R107): Loads a zero-extended byte. -/
  | lbu (h : Hart) (f : FmtM)
  /-- LH (R107): Loads a sign-extended halfword. -/
  | lh (h : Hart) (f : FmtM)
  /-- LHU (R107): Loads a zero-extended halfword. -/
  | lhu (h : Hart) (f : FmtM)
  /-- LW (R107): Loads a sign-extended word. -/
  | lw (h : Hart) (f : FmtM)
  /-- LWU (R107): Loads a zero-extended word. -/
  | lwu (h : Hart) (f : FmtM)
  /-- LD (R107): Loads a doubleword. -/
  | ld (h : Hart) (f : FmtM)
  /-- SB (R107): Stores a byte and clears the granule's tag. -/
  | sb (h : Hart) (f : FmtM)
  /-- SH (R107): Stores a halfword. -/
  | sh (h : Hart) (f : FmtM)
  /-- SW (R107): Stores a word. -/
  | sw (h : Hart) (f : FmtM)
  /-- SD (R107): Stores a doubleword. -/
  | sd (h : Hart) (f : FmtM)
  /-- LCAP (R110): Loads a capability with its tag. -/
  | lcap (h : Hart) (f : FmtM)
  /-- SCAP (R110): Stores a capability with its tag. -/
  | scap (h : Hart) (f : FmtM)
  /-- AMOSWAP (R111): Atomic swap. -/
  | amoswap (h : Hart) (f : FmtT)
  /-- AMOADD (R111): Atomic add. -/
  | amoadd (h : Hart) (f : FmtT)
  /-- AMOAND (R111): Atomic and. -/
  | amoand (h : Hart) (f : FmtT)
  /-- AMOOR (R111): Atomic or. -/
  | amoor (h : Hart) (f : FmtT)
  /-- AMOCAS (R111): Atomic compare-and-swap. -/
  | amocas (h : Hart) (f : FmtT)
  /-- BEQ (R113): Branch if equal, with a delay slot. -/
  | beq (h : Hart) (f : FmtB)
  /-- BNE (R113): Branch if not equal. -/
  | bne (h : Hart) (f : FmtB)
  /-- BLT (R113): Branch if signed less. -/
  | blt (h : Hart) (f : FmtB)
  /-- BGE (R113): Branch if signed greater or equal. -/
  | bge (h : Hart) (f : FmtB)
  /-- BLTU (R113): Branch if unsigned less. -/
  | bltu (h : Hart) (f : FmtB)
  /-- BGEU (R113): Branch if unsigned greater or equal. -/
  | bgeu (h : Hart) (f : FmtB)
  /-- J (R113): Jump by displacement. -/
  | j (h : Hart) (f : FmtJ)
  /-- JAL (R113): Jump and link into g31. -/
  | jal (h : Hart) (f : FmtJ)
  /-- JR (R113): Jump to a register. -/
  | jr (h : Hart) (f : FmtA)
  /-- JALR (R113): Jump to a register and link. -/
  | jalr (h : Hart) (f : FmtA)
  /-- CJMP (R148): Domain switch through a sealed gate capability and its gate record. -/
  | cjmp (h : Hart) (f : FmtC)
  /-- CRET (R149): Returns through the return capability in c15. -/
  | cret (h : Hart) (f : FmtC)
  /-- CCOPY (R119): Copies a capability. -/
  | ccopy (h : Hart) (f : FmtC)
  /-- CNARROW (R120): Narrows a capability's bounds. -/
  | cnarrow (h : Hart) (f : FmtC)
  /-- CTRIM (R147): Removes permission bits. -/
  | ctrim (h : Hart) (f : FmtC)
  /-- CLOCK (R147): Seals a capability with an object type under type authority. -/
  | clock (h : Hart) (f : FmtC)
  /-- CUNLOCK (R147): Unseals a capability under type authority. -/
  | cunlock (h : Hart) (f : FmtC)
  /-- CVOID (R119): Copies a capability with its tag cleared. -/
  | cvoid (h : Hart) (f : FmtC)
  /-- CPCC (R119): Copies PCC into a capability register. -/
  | cpcc (h : Hart) (f : FmtC)
  /-- CINFO_BASE (R119): Reads a capability's base. -/
  | cinfoBase (h : Hart) (f : FmtC)
  /-- CINFO_END (R119): Reads a capability's decoded end. -/
  | cinfoEnd (h : Hart) (f : FmtC)
  /-- CINFO_LENGTH (R119): Reads a capability's length. -/
  | cinfoLength (h : Hart) (f : FmtC)
  /-- CINFO_PERMS (R119): Reads a capability's perms. -/
  | cinfoPerms (h : Hart) (f : FmtC)
  /-- CINFO_OTYPE (R119): Reads a capability's otype. -/
  | cinfoOtype (h : Hart) (f : FmtC)
  /-- CINFO_TAG (R119): Reads a capability's tag. -/
  | cinfoTag (h : Hart) (f : FmtC)
  /-- CWITHIN (R120): Tests whether one capability grants no more than another. -/
  | cwithin (h : Hart) (f : FmtC)
  /-- CSAME (R120): Tests two capabilities for identity. -/
  | csame (h : Hart) (f : FmtC)
  /-- NOP (R122): System no-operation. -/
  | nop (h : Hart) (f : FmtS)
  /-- SRD (R123): Reads a system register. -/
  | srd (h : Hart) (f : FmtS)
  /-- SWR (R123): Writes a system register. -/
  | swr (h : Hart) (f : FmtS)
  /-- TRAP (R122): Raises TRAP with a code. -/
  | trap (h : Hart) (f : FmtS)
  /-- ERET (R160): Returns from an exception using the frame and the registers. -/
  | eret (h : Hart) (f : FmtS)
  /-- HOLD (R125): Opens a hold window over the next n retirements. -/
  | hold (h : Hart) (f : FmtS)
  /-- WAIT (R126): Stops retiring until an enabled interrupt is pending. -/
  | wait (h : Hart) (f : FmtS)
  /-- FENCE (R112): Completes earlier accesses before later ones begin. -/
  | fence (h : Hart) (f : FmtS)
  /-- END (R174): Ends a service context; the response block is checked and, for a STATE image, the commit list is committed. -/
  | endCtx (h : Hart) (f : FmtS) (dt : Nat)
  /-- TLI (R136): Table lookup with upward-rounded interpolation. -/
  | tli (h : Hart) (f : FmtM)
  /-- EPUT (R128): Writes a staging word. -/
  | eput (h : Hart) (f : FmtE)
  /-- EISS (R129): Issues the staged command to an engine pool and returns a ticket. -/
  | eiss (h : Hart) (f : FmtE)
  /-- EWAIT (R132): Ends the SC stage and parks the context until its ticket completes. -/
  | ewait (h : Hart) (f : FmtE)
  /-- EPOLL (R130): Returns a ticket's completion word if it has completed. -/
  | epoll (h : Hart) (f : FmtE)
  /-- EABORT (R133): Aborts a ticket's operation. -/
  | eabort (h : Hart) (f : FmtE)
  /-- INTERRUPT_ENTRY (R164): An enabled pending interrupt is taken at an instruction boundary. -/
  | interruptEntry (h : Hart)
  /-- WAIT_WAKE (R164): An enabled line becomes pending during a WAIT with IE = 0, and the core continues without entry. -/
  | waitWake (h : Hart)
  /-- STORE_BUFFER_DRAIN (R204): A buffered store leaves the store buffer and enters the interconnect. -/
  | storeBufferDrain (n : Fin 16)
  /-- DEFERRED_BUS_ERROR (R155): A failed buffered store is reported at a later boundary. -/
  | deferredBusError (n : Fin 16)
  /-- PROGRAM_LOAD (R179): A write of DSP_LDR_CTRL.GO starts loading an image into a program slot. -/
  | programLoad (a : Acc) (v : Word32)
  /-- PROGRAM_LOAD_DONE (R179): The loader finishes its checks and fills the slot, or fails with ERR. -/
  | programLoadDone (dt : Nat)
  /-- PSLOT_FREE (R185): A write of DSP_PSLOT_STAT.FREE empties an unreferenced program slot, or is ignored. -/
  | pslotFree (a : Acc) (v : Word32)
  /-- IREQ_SUBMIT (R186): A write of DSP_IREQ_GO submits an internal request slot. -/
  | ireqSubmit (a : Acc) (v : Word32)
  /-- ACT_EPOCH_SWITCH (R203): A write of ACT_EPOCH.SWITCH starts an access-table epoch switch. -/
  | actEpochSwitch (a : Acc) (v : Word32)
  /-- ACT_SWITCH_INSTANT (R203): Once OLD_LIVE is 0, the staging rules are validated and become active, or the switch fails. -/
  | actSwitchInstant (dt : Nat)
  /-- INTERCONNECT_ACCESS_COMPLETE (R205): An access in flight completes or ends in a bus error, which lowers OLD_LIVE. -/
  | interconnectAccessComplete (dt : Nat) (n : Fin 16)
  /-- RULE_STAGING_WRITE (R201): A write to a staging rule register takes effect, or is ignored with CFG_REJ when the rule is locked or a switch is busy. -/
  | ruleStagingWrite (a : Acc) (n : Fin 1024) (k : Fin 6) (v : Word32)
  /-- DBGSTKY_CLEAR (R202): A write of ACT_DBGSTKY_CLR with CUST clears HIT. -/
  | dbgstkyClear (a : Acc) (v : Word32)
  /-- CPH_COMMAND_START (R216): A free cipher engine takes a ready command, and the keys are delivered. -/
  | cphCommandStart (dt : Nat) (u : Fin 18)
  /-- CPH_COMPLETION (R214): A cipher engine finishes a command, compares the lanes, releases output, clears itself and posts the completion word. -/
  | cphCompletion (dt : Nat) (u : Fin 18) (agree : Bool)
  /-- CPH_RETIRE (R222): A write of CPH_RETIRE retires a cipher engine, and its command is reissued on a spare. -/
  | cphRetire (a : Acc) (v : Word32)
  /-- CPH_SPARE_TAKEOVER (R222): A spare busy with a mismatch reissue takes over a retired unit's role when the reissue ends. -/
  | cphSpareTakeover (dt : Nat) (u : Fin 18)
  /-- CPH_REINST (R224): A write of CPH_REINST in CUSTODY starts the self-test of a retired unit. -/
  | cphReinst (a : Acc) (v : Word32)
  /-- CPH_BIST_DONE (R224): A reinstatement self-test ends and makes the unit a spare on a pass. -/
  | cphBistDone (dt : Nat) (pass : Bool)
  /-- MAU_COMMAND_START (R244): A free MAU takes a ready command, subject to its masking-generator limit. -/
  | mauCommandStart (dt : Nat) (u : Fin 136)
  /-- MAU_COMPLETION (R232): A MAU finishes a command, checks it, releases output, clears itself and posts the completion word. -/
  | mauCompletion (dt : Nat) (u : Fin 136) (chk : Fin 3)
  /-- MAU_ABORT_IDLE (R246): An aborted MAU ends its clearing and reports idle, which completes its stage for ADM. -/
  | mauAbortIdle (dt : Nat) (u : Fin 136)
  /-- MAU_RETIRE (R248): A write of MAU_RETIRE retires a MAU and starts migrating its command. -/
  | mauRetire (a : Acc) (v : Word32)
  /-- MAU_MIGRATION_DONE (R248): The frozen state reaches the spare, and the command resumes. -/
  | mauMigrationDone (dt : Nat) (u : Fin 136) (ok : Bool)
  /-- MAU_REINST (R250): A write of MAU_REINST in CUSTODY starts the self-test of a retired MAU. -/
  | mauReinst (a : Acc) (v : Word32)
  /-- MAU_BIST_DONE (R250): A MAU reinstatement self-test ends. -/
  | mauBistDone (dt : Nat) (pass : Bool)
  /-- MAU_RESEED_REQUEST (R243): A MAU generator reaches its command-count or time limit and asks for a reseed. -/
  | mauReseedRequest (dt : Nat) (u : Fin 136)
  /-- PIN (R274): The PIN command holds a record in a fixed slot. -/
  | pin (a : Acc)
  /-- UNPIN (R274): The UNPIN command releases a fixed slot. -/
  | unpin (a : Acc)
  /-- PREFETCH (R274): The PREFETCH command brings a record into the cache. -/
  | prefetch (a : Acc)
  /-- EVICT (R274): The EVICT command drops a clean, unpinned record. -/
  | evict (a : Acc)
  /-- CHECKPOINT (R270): The CHECKPOINT command takes a checkpoint. -/
  | checkpoint (a : Acc)
  /-- IMPORT (R274): The IMPORT command unwraps a blob and creates a record as a mirrored commit. -/
  | importBlob (a : Acc)
  /-- KST_CMD_INVALID (R274): A GO with an OP not in Table 10.8 ends at once with ERR 8. -/
  | kstCmdInvalid (a : Acc) (op : BitVec 4)
  /-- KST_CMD_COMPLETE (R274): A running KST command ends and clears BUSY with CMD_DONE or CMD_ERR. -/
  | kstCmdComplete (dt : Nat) (ok : Bool)
  /-- CHECKPOINT_TIMER (R270): PERIOD_MS expires and a checkpoint starts. -/
  | checkpointTimer (dt : Nat)
  /-- CHECKPOINT_DONE (R270): A checkpoint's root record is written and ROOTSEQ raised. -/
  | checkpointDone (dt : Nat) (ok : Bool)
  /-- LOG_FRAME_PROGRAMMED (R267): A sealed frame reaches NAND, which releases dirty pins and log-buffer space. -/
  | logFrameProgrammed (dt : Nat)
  /-- LOGSTALL_RESUME (R267): A commit waiting for log-buffer space or the dirty-pin limit proceeds. -/
  | logstallResume (dt : Nat)
  /-- HOT_REGION_REFRESH (R265): The rewrite of a hot region under a new generation completes. -/
  | hotRegionRefresh (dt : Nat) (n : BitVec 20)
  /-- SEALED_STORE_MOUNT (R272): KST_CTRL.EN set at BOOT starts the mount and roll-forward of the sealed store. -/
  | sealedStoreMount (dt : Nat)
  /-- MOUNT_COMPLETE (R272): The mount ends, with MOUNTED set or SEAL_INT on failure. -/
  | mountComplete (dt : Nat)
  /-- HOT_REGION_REFILL (R272): A hot region is refilled from the sealed store and becomes valid. -/
  | hotRegionRefill (dt : Nat) (n : BitVec 20)
  /-- WINDOW_SET_END (R280): An RNG window set ends: its blocks are released, or discarded on a failed test. -/
  | windowSetEnd (dt : Nat) (w : RngWindow)
  /-- STARTUP_TEST_END (R281): The RNG start-up window ends: pass, retry or SU_DEAD. -/
  | startupTestEnd (dt : Nat) (w : RngWindow)
  /-- RNG_ENABLE (R281): A rise of RNG_CTRL.EN starts the start-up test. -/
  | rngEnable (a : Acc) (v : Word32)
  /-- RNG_DISABLE (R282): A write of 0 to RNG_CTRL.EN clears READY, discards blocks and cancels waiting draws. -/
  | rngDisable (a : Acc) (v : Word32)
  /-- RAW_EN_WRITE (R286): A write of RNG_CTRL.RAW_EN enters or leaves raw access. -/
  | rawEnWrite (a : Acc) (v : Word32)
  /-- RNG_RAW_READ (R286): A read of RNG_RAW consumes the next raw samples. -/
  | rngRawRead (a : Acc)
  /-- RNG_FW_REQUEST (R285): A write of RNG_FWREQ.GO requests one block for firmware. -/
  | rngFwRequest (a : Acc) (v : Word32)
  /-- RNG_BLOCK_GRANT (R283): A conditioned block goes to the highest-priority waiting consumer. -/
  | rngBlockGrant (dt : Nat)
  /-- RNG_FW7_READ (R285): A read of RNG_FW7 destroys the firmware block and clears VALID. -/
  | rngFw7Read (a : Acc)
  /-- SERVICE_DRAW_EXPIRY (R284): A service draw reaches its command bound unsatisfied, and the context is cancelled with RNG_FAIL. -/
  | serviceDrawExpiry (dt : Nat) (c : Fin 8192)
  /-- DUO_ENABLE (R462): A rise of DUO_CTRL.EN draws a new SALT and starts the first-use wait. -/
  | duoEnable (a : Acc) (v : Word32)
  /-- LEASE_FRAME_SEND (R289): Every 4 µs a lease frame is sent on LEASE_OUT. -/
  | leaseFrameSend (dt : Nat)
  /-- LEASE_FRAME_RECEIVE (R289): A lease frame arrives on LEASE_IN. -/
  | leaseFrameReceive (dt : Nat) (bits : List Byte)
  /-- RENEW_SEND (R292): The holder sends RENEW with the next RSEQ every 4 µs. -/
  | renewSend (dt : Nat)
  /-- STATUS_SEND (R292): A non-holder sends STATUS echoing the newest RSEQ every 4 µs. -/
  | statusSend (dt : Nat)
  /-- RENEW_RECEIVE (R296): A RENEW arrives: the device adopts the epoch, follows the holder, or yields. -/
  | renewReceive (dt : Nat)
  /-- STATUS_RECEIVE (R292): A STATUS arrives, which extends the holder's lease, confirms a claim, or changes SOLO. -/
  | statusReceive (dt : Nat)
  /-- MIRROR_RECEIVE (R301): A MIRROR arrives: it is applied, answered or held, and acknowledged. -/
  | mirrorReceive (dt : Nat)
  /-- MACK_RECEIVE (R299): A MACK arrives, and the holder grants the waiting committed responses. -/
  | mackReceive (dt : Nat)
  /-- JREQ_RECEIVE (R304): A JREQ arrives, and the device answers with JDATA from its journal ring. -/
  | jreqReceive (dt : Nat)
  /-- JDATA_RECEIVE (R302): JDATA arrives, and the catching-up device checks and applies its entries. -/
  | jdataReceive (dt : Nat)
  /-- LEASE_END (R292): The holder's lease runs out while it is not SOLO. -/
  | leaseEnd (dt : Nat)
  /-- FOLLOWER_LAPSE (R294): A follower reaches 16 µs after the newest RSEQ, and its role falls to 0b00. -/
  | followerLapse (dt : Nat)
  /-- LANTERN_CLAIM (R294): The claim conditions come to hold, and the device claims with a new EPOCH. -/
  | lanternClaim (dt : Nat)
  /-- PEER_SILENCE (R293): Nothing has been heard from the peer for 8 µs, and the holder becomes SOLO. -/
  | peerSilence (dt : Nat)
  /-- MACK_WAIT_EXPIRY (R293): A MIRROR has waited 8 µs for its MACK while the peer echoes renewals, and the holder becomes SOLO. -/
  | mackWaitExpiry (dt : Nat)
  /-- LANTERN_RELEASE (R295): A write of DUO_CTRL.RELEASE on the holder stops new STATE entries. -/
  | lanternRelease (a : Acc) (v : Word32)
  /-- RELEASE_RENEW_SEND (R295): Once every MACK is in, the holder sends RENEW with RELEASE. -/
  | releaseRenewSend (dt : Nat)
  /-- MIRROR_HOLD_EXPIRY (R301): A held MIRROR reaches 50 µs and is removed from the hold table. -/
  | mirrorHoldExpiry (dt : Nat)
  /-- MIRROR_WAIT_EXPIRY (R300): A follower context reaches E minus its TX charge without its MIRROR, and is answered NO_LANTERN. -/
  | mirrorWaitExpiry (dt : Nat) (c : Fin 8192)
  /-- JSEQ_GAP_TIMEOUT (R302): A RENEW's JSEQ has exceeded the last applied JSEQ for 8 µs, and the follower starts a catch-up. -/
  | jseqGapTimeout (dt : Nat)
  /-- FULL_RESYNC (R304): A write of DUO_RESYNC.GO starts a full resync. -/
  | fullResync (a : Acc) (v : Word32)
  /-- COPY_ENTRY_RECEIVE (R304): A resync copy entry arrives and is applied when it is newer. -/
  | copyEntryReceive (dt : Nat)
  /-- RESYNC_COMPLETE (R304): A resync ends with SYNCED set, or fails with ERR. -/
  | resyncComplete (dt : Nat)
  /-- RESYNC_LINK_LOSS (R304): The link has been lost for more than 19 µs during a resync, which fails with ERR 3. -/
  | resyncLinkLoss (dt : Nat)
  /-- EPOCH_CLEAR (R291): A write of DUO_EPOCHCLR sets DUO_EPOCH to 0 under its conditions. -/
  | epochClear (a : Acc) (v : Word32)
  /-- DUO_LEAVE (R308): A write of DUO_CTRL.LEAVE makes the device stop claiming and report not SYNCED. -/
  | duoLeave (a : Acc) (v : Word32)
  /-- SCHEDULED_SWITCH (R307): The timebase reaches DUO_SWAT.TIME, and DUO starts the joint switch. -/
  | scheduledSwitch (dt : Nat)
  /-- EPOCH_SKEW_TIMEOUT (R307): The peer's DNUM has differed for 1 ms, and EPOCH_SKEW is set. -/
  | epochSkewTimeout (dt : Nat)
  /-- VDD_AON_LOST (R312): VDD_AON falls below its threshold, and the device enters CELL. -/
  | vddAonLost (dt : Nat)
  /-- VDD_AON_GOOD (R312): VDD_AON becomes good, and the device enters STANDBY with Wick reset. -/
  | vddAonGood (dt : Nat)
  /-- BACKUP_COLD_START (R347): The backup domain powers up after VBAT and VDD_AON were both absent, and loses all state. -/
  | backupColdStart (dt : Nat)
  /-- PWR_GOOD_RISE (R312): PWR_GOOD rises while MAIN_EN is high, and BOOT starts with core 0. -/
  | pwrGoodRise (dt : Nat)
  /-- PWR_GOOD_FALL (R312): PWR_GOOD falls, and every unit outside the always-on domains is reset into STANDBY. -/
  | pwrGoodFall (dt : Nat)
  /-- RESET_PIN (R312): A RESET_N low resets the device into BOOT. -/
  | resetPin (dt : Nat)
  /-- SYS_RESET (R312): A write of SYS_RST with the key resets the device into BOOT. -/
  | sysReset (a : Acc) (v : Word32)
  /-- MODE_REQUEST_SERVICE (R313): SYS_MODEREQ with TARGET SERVICE is checked and accepted or rejected. -/
  | modeRequestService (a : Acc) (v : Word32)
  /-- MODE_REQUEST_CUSTODY (R313): SYS_MODEREQ with TARGET CUSTODY is checked and accepted or rejected. -/
  | modeRequestCustody (a : Acc) (v : Word32)
  /-- MODE_REQUEST_STANDBY (R313): SYS_MODEREQ with TARGET STANDBY stops the control cores and drops MAIN_EN, or is rejected. -/
  | modeRequestStandby (a : Acc) (v : Word32)
  /-- MODE_REQUEST_INVALID (R313): A mode request for BOOT, CELL, QUENCH or a reserved code is rejected with REJ 0x8. -/
  | modeRequestInvalid (a : Acc) (v : Word32)
  /-- BOOTSTAT_WRITE (R315): A write of SYS_BOOTSTAT with STEP 0x0D and ERR 0 sets DONE. -/
  | bootstatWrite (a : Acc) (v : Word32)
  /-- LIFECYCLE_ADVANCE (R320): A write of SYS_LCADV.GO checks the conditions and starts programming the OTP group. -/
  | lifecycleAdvance (a : Acc) (v : Word32)
  /-- LIFECYCLE_ADVANCE_DONE (R320): The lifecycle group reaches 6 bits, and the locks apply. -/
  | lifecycleAdvanceDone (dt : Nat) (ok : Bool)
  /-- REPROVISION (R322): A write of SYS_REPROV.GO starts re-provisioning, or is refused. -/
  | reprovision (a : Acc) (v : Word32)
  /-- REPROVISION_COMPLETE (R322): Re-provisioning clears the flags and resets the device into BOOT. -/
  | reprovisionComplete (dt : Nat)
  /-- CORE_START (R323): SYS_COREn_CTRL.START starts a control core from its start block. -/
  | coreStart (a : Acc) (n : Fin 16) (v : Word32)
  /-- CORE_STOP (R324): SYS_COREn_CTRL.STOP asks a control core to stop. -/
  | coreStop (a : Acc) (n : Fin 16) (v : Word32)
  /-- CORE_STOPPED (R324): The core reaches a permitted boundary, drains its stores, and reads STOPPED. -/
  | coreStopped (dt : Nat) (n : Fin 16)
  /-- TIMER_COMPARE (R326): The timebase reaches SYS_TCMPn, and PEND is set. -/
  | timerCompare (dt : Nat) (n : Fin 16)
  /-- DOORBELL_SET (R326): A write of SYS_DBSETn sets doorbell bits. -/
  | doorbellSet (a : Acc) (n : Fin 16) (v : Word32)
  /-- TSC_SET (R349): A write of TMP_TSCSET sets the time-stamp counter, or is ignored. -/
  | tscSet (a : Acc) (v : Word)
  /-- PROGRAM (R333): The FLC PROGRAM command programs consecutive pages. -/
  | program (a : Acc) (v : Word32)
  /-- ERASE (R334): The FLC ERASE command erases one block. -/
  | erase (a : Acc) (v : Word32)
  /-- COPY (R332): The FLC COPY command copies the array to a destination. -/
  | copy (a : Acc) (v : Word32)
  /-- OTP_PROGRAM (R331): The FLC OTP_PROGRAM command programs one OTP page once. -/
  | otpProgram (a : Acc) (v : Word32)
  /-- FLASH_CMD_DONE (R332): A flash command ends and clears BUSY with DONE or ERR. -/
  | flashCmdDone (dt : Nat) (ok : Bool)
  /-- ERASE_SUSPEND (R336): A waiting read meets the erase quantum, and the erase suspends. -/
  | eraseSuspend (dt : Nat)
  /-- ERASE_RESUME (R336): After 2 µs without reads, or after HOLD_US, the erase resumes. -/
  | eraseResume (dt : Nat)
  /-- TAMPER_ALARM (R355): A tamper source's cause rises and it alarms, with its record and its reaction for the mode. -/
  | tamperAlarm (dt : Nat) (srcs : List (Fin 28))
  /-- TMP_STKY_CLEAR (R357): A write of TMP_STKY_CLR clears sticky bits whose cause is absent. -/
  | tmpStkyClear (a : Acc) (v : Word32)
  /-- TMP_SRCCFG_WRITE (R354): A write of TMP_SRCCFGn, limited by lifecycle. -/
  | tmpSrccfgWrite (a : Acc) (n : Fin 28) (v : Word32)
  /-- TAMPER_BIST (R358): A write of TMP_BIST.GO stimulates one source's detector. -/
  | tamperBist (a : Acc) (v : Word32)
  /-- TAMPER_BIST_DONE (R358): A tamper test ends with PASS or FAIL, and the real input is evaluated again. -/
  | tamperBistDone (dt : Nat) (pass : Bool)
  /-- WICK_FRAME (R360): Every 1 µs Wick builds a sample frame and evaluates its rules. -/
  | wickFrame (dt : Nat) (f : SensorFrame)
  /-- WCK_ACT_WAKE (R363): A WCK_ACT write by Wick's core requests WAKE. -/
  | wckActWake (a : Acc) (v : Word32)
  /-- WCK_ACT_PROMOTE (R363): A WCK_ACT write requests PROMOTE. -/
  | wckActPromote (a : Acc) (v : Word32)
  /-- WCK_ACT_ALARM (R363): A WCK_ACT write requests ALARM. -/
  | wckActAlarm (a : Acc) (v : Word32)
  /-- WCK_ACT_SNUFF (R363): A WCK_ACT write requests SNUFF. -/
  | wckActSnuff (a : Acc) (v : Word32)
  /-- WICK_RUN (R364): A write of WCK_CTRL.RUN starts Wick's core. -/
  | wickRun (a : Acc) (v : Word32)
  /-- WICK_HALT (R367): A write of WCK_CTRL.HALT stops Wick's core. -/
  | wickHalt (a : Acc) (v : Word32)
  /-- WICK_LOAD_WRITE (R364): A write of WCK_LDDATA stores a word into Wick SRAM and advances the address. -/
  | wickLoadWrite (a : Acc) (v : Word32)
  /-- WICK_LOAD_READ (R367): A read of WCK_LDDATA returns a word and advances the address. -/
  | wickLoadRead (a : Acc)
  /-- WATCHDOG_KICK (R365): A write of WCK_WDOG.KICK restarts the watchdog period. -/
  | watchdogKick (a : Acc) (v : Word32)
  /-- WICK_WATCHDOG_EXPIRY (R365): The watchdog period expires and stops Wick's core. -/
  | wickWatchdogExpiry (dt : Nat)
  /-- FAULT_EVENT (R370): A fault source signals an event, which is counted and may make the source severe. -/
  | faultEvent (dt : Nat) (src : Fin 128) (e : FaultAt)
  /-- FAULT_WINDOW_EXPIRY (R370): A source's window closes, and its count returns to 0. -/
  | faultWindowExpiry (dt : Nat) (src : Fin 128)
  /-- REACTION_ROUND (R374): A reaction round gathers the sources that become severe within 50 ns and runs the strongest reaction. -/
  | reactionRound (dt : Nat)
  /-- ISOLATE_CORE_START (R373): Once the safe state holds, core 0 starts from FLT_ISOSBLK. -/
  | isolateCoreStart (dt : Nat)
  /-- SEVERE_CLEAR (R376): A write of FLT_SEVk clears a source's SEV and may end the safe state. -/
  | severeClear (a : Acc) (k : Fin 4) (v : Word32)
  /-- FAULT_STICKY_CLEAR (R380): A write of FLT_STKYCLRk clears sticky bits in CUSTODY with CUST. -/
  | faultStickyClear (a : Acc) (k : Fin 4) (v : Word32)
  /-- FAULT_FORCE (R377): A write of FLT_FORCEk injects events. -/
  | faultForce (a : Acc) (k : Fin 4) (v : Word32)
  /-- FAULT_CONFIG_WRITE (R378): A write of FLT_CFGn, refused when it would loosen the source. -/
  | faultConfigWrite (a : Acc) (n : Fin 128) (v : Word32)
  /-- CARD_ACTIVATE (R382): A write of CRD_SnCTRL.ACT starts card activation. -/
  | cardActivate (a : Acc) (s : Fin 2) (v : Word32)
  /-- ATR_RECEIVE (R384): A card's ATR arrives and is parsed. -/
  | atrReceive (dt : Nat) (s : Fin 2) (bytes : List Byte)
  /-- ATR_TIMEOUT (R382): No ATR begins within 10.24 ms, and the card is retried or fails. -/
  | atrTimeout (dt : Nat) (s : Fin 2)
  /-- PPS_RESPONSE (R385): The card's answer to PPS arrives, and the slot adopts its values or reactivates. -/
  | ppsResponse (dt : Nat) (s : Fin 2) (bytes : List Byte)
  /-- CARD_DEACTIVATE (R383): A write of CRD_SnCTRL.DEACT deactivates the card. -/
  | cardDeactivate (a : Acc) (s : Fin 2) (v : Word32)
  /-- CARD_DETECT_CHANGE (R383): CRD_DETn_N changes, and a removal deactivates the card. -/
  | cardDetectChange (dt : Nat) (s : Fin 2) (present : Bool)
  /-- CRD_DISABLE (R395): Clearing CRD_CTRL.EN deactivates both slots. -/
  | crdDisable (a : Acc) (v : Word32)
  /-- CARD_EXCHANGE (R386): A write of CRD_SnXFER.GO starts a T=1 command exchange. -/
  | cardExchange (a : Acc) (s : Fin 2) (v : Word32)
  /-- CARD_BLOCK_RECEIVE (R386): A T=1 block arrives from the card and is handled by the block layer. -/
  | cardBlockReceive (dt : Nat) (s : Fin 2) (bytes : List Byte)
  /-- CARD_BLOCK_TIMEOUT (R386): A card block waiting time expires, and the exchange retransmits or fails. -/
  | cardBlockTimeout (dt : Nat) (s : Fin 2)
  /-- CARD_EXCHANGE_DONE (R386): The exchange ends with the response in the buffer, or with ERR. -/
  | cardExchangeDone (dt : Nat) (s : Fin 2)
  /-- QUORUM_OPEN (R393): A write of CRD_QCTRL.GO opens a quorum session and draws a challenge. -/
  | quorumOpen (a : Acc) (v : Word32)
  /-- QUORUM_ATTEST (R393): A write of CRD_QCTRL.ATTEST sends ATTEST to a card. -/
  | quorumAttest (a : Acc) (v : Word32)
  /-- QUORUM_ATTEST_DONE (R393): An attestation is verified and counted, or fails. -/
  | quorumAttestDone (dt : Nat)
  /-- QUORUM_ABORT (R393): A write of CRD_QCTRL.ABORT closes the session. -/
  | quorumAbort (a : Acc) (v : Word32)
  /-- QUORUM_TIMEOUT (R393): The session reaches TMO_S and closes. -/
  | quorumTimeout (dt : Nat)
  /-- ROSTER_COMMIT (R394): A write of CRD_ROSTER_CTRL.COMMIT installs the staged roster under quorum. -/
  | rosterCommit (a : Acc) (v : Word32)
  /-- TAG_POWER_UP (R398): The tag domain powers up, scrubs, and enters IDLE. -/
  | tagPowerUp (dt : Nat) (field : Bool)
  /-- FIELD_LOSS (R398): The reader's field is lost, and the tag powers down or returns to IDLE. -/
  | fieldLoss (dt : Nat)
  /-- REQA (R398): REQA moves an idle tag to READY. -/
  | reqa (dt : Nat)
  /-- WUPA (R398): WUPA moves an idle or halted tag to READY. -/
  | wupa (dt : Nat)
  /-- ANTICOLLISION (R398): An ANTICOLLISION frame that matches the UID is answered. -/
  | anticollision (dt : Nat) (bytes : List Byte)
  /-- SELECT (R398): SELECT at level 1 or 2 answers SAK, and level 2 moves the tag to ACTIVE. -/
  | select (dt : Nat) (level : Fin 2) (bytes : List Byte)
  /-- HLTA (R398): HLTA moves an active tag to HALT. -/
  | hlta (dt : Nat)
  /-- TAG_FRAME_ERROR (R398): An unexpected or bad frame moves the tag to IDLE or HALT. -/
  | tagFrameError (dt : Nat)
  /-- GET_INFO (R401): The GET_INFO command returns the version and group policies. -/
  | getInfo (dt : Nat)
  /-- TAG_READ (R402): The READ command returns a line under the group policy. -/
  | tagRead (dt : Nat) (bytes : List Byte)
  /-- TAG_WRITE (R402): The WRITE command checks and begins a two-copy commit of a line. -/
  | tagWrite (dt : Nat) (bytes : List Byte)
  /-- TAG_AUTH (R403): The AUTH command counts an attempt and compares a group password. -/
  | tagAuth (dt : Nat) (bytes : List Byte)
  /-- TAG_COMMIT_DONE (R410): A two-copy commit programs its marker and completes. -/
  | tagCommitDone (dt : Nat)
  /-- TAG_WIRED_READ (R405): TAG_WCMD with OP READ reads a line into TAG_WDATA. -/
  | tagWiredRead (a : Acc) (v : Word32)
  /-- TAG_WIRED_WRITE (R405): TAG_WCMD with OP WRITE commits a line from TAG_WDATA. -/
  | tagWiredWrite (a : Acc) (v : Word32)
  /-- TAG_WIRED_INVALID (R412): TAG_WCMD with another OP ends with RANGE. -/
  | tagWiredInvalid (a : Acc) (v : Word32)
  /-- TAG_WIRED_START (R406): A wired operation that waited for a field transaction starts when the transaction ends. -/
  | tagWiredStart (dt : Nat)
  /-- TAG_WIRED_DONE (R406): A wired operation ends with WDONE or WERR. -/
  | tagWiredDone (dt : Nat)
  /-- TAG_GROUP_APPLY (R409): A write of TAG_GRPCFG.APPLY commits the staged group policy and password. -/
  | tagGroupApply (a : Acc) (v : Word32)
  /-- CAL_APPLY (R417): A write of CAL_APPLY starts applying an overlay copy. -/
  | calApply (a : Acc) (v : Word32)
  /-- CALIBRATION_SWITCH (R417): The effective bank switches and the new thresholds load, or the apply is refused. -/
  | calibrationSwitch (dt : Nat)
  /-- BANDWIDTH_WINDOW_END (R420): A bandwidth window ends, and PMC_BW registers and PMC_BWSEQ update. -/
  | bandwidthWindowEnd (dt : Nat)
  /-- PMC_SNAPSHOT (R421): A write of PMC_SNAP.GO latches every counter. -/
  | pmcSnapshot (a : Acc) (v : Word32)
  /-- OBS_SELECT (R424): A write of OBS_SELk selects a signal, or drives the channel low when the signal is denied. -/
  | obsSelect (a : Acc) (k : Fin 8) (v : Word32)
  /-- IDCODE (R425): The TAP IDCODE instruction. -/
  | idcode (dt : Nat)
  /-- SAMPLE_PRELOAD (R425): The TAP SAMPLE/PRELOAD instruction. -/
  | samplePreload (dt : Nat)
  /-- EXTEST (R425): The TAP EXTEST instruction, permitted by lifecycle. -/
  | extest (dt : Nat)
  /-- TAP_CLAMP (R425): The TAP CLAMP instruction. -/
  | tapClamp (dt : Nat)
  /-- HIGHZ (R425): The TAP HIGHZ instruction. -/
  | highz (dt : Nat)
  /-- DAP (R425): The TAP DAP instruction selects the debug data register. -/
  | dap (dt : Nat)
  /-- BYPASS (R425): The TAP BYPASS instruction, also loaded for an unlisted or refused code. -/
  | bypass (dt : Nat)
  /-- TAP_RESET (R425): A TAP reset, or the replacement of EXTEST, CLAMP or HIGHZ, resets the device into BOOT. -/
  | tapReset (dt : Nat)
  /-- DAP_READ (R426): Update-DR with OP read issues a debug read checked by DCAP and the access table. -/
  | dapRead (dt : Nat) (addr : BitVec 48)
  /-- DAP_WRITE (R426): Update-DR with OP write issues a debug write. -/
  | dapWrite (dt : Nat) (addr : BitVec 48) (v : Word32)
  /-- DAP_ACCESS_DONE (R426): A debug access ends, and DONE, ERR and DATA are captured. -/
  | dapAccessDone (dt : Nat)
  /-- STAGE_START (R73): A free HOT, SEAL or MIR unit takes the ready stage of least key and starts it. -/
  | stageStart (dt : Nat) (p : Fin 3)
  /-- REFCLK_RESTORE (R368): An absent reference clock runs again, and the cause of its level source falls. -/
  | refclkRestore (dt : Nat) (mem : Bool)
  /-- TAMPER_CAUSE_FALL (R353): A tamper source's cause falls: a rail or temperature returns to range, a pin samples inactive, or the crystal runs again. -/
  | tamperCauseFall (dt : Nat) (src : Fin 28)
  /-- TAMPER_MONITOR_ARM (R352): 1 ms after PWR_GOOD rises, the glitch and slow-excursion monitors of the main rails arm. -/
  | tamperMonitorArm (dt : Nat)
  /-- ENGINE_SELF_TEST_DONE (R209): The BOOT known-answer self-tests of all cipher engines and MAUs end, and active, spare and retired roles are assigned. -/
  | engineSelfTestDone (dt : Nat) (cph : BitVec 18) (mau : BitVec 136)
  /-- MEMORY_TRAINING_DONE (R273): DDR5 and NAND training ends, and the population is reported in KST_MEMCFG and KST_SEALCFG. -/
  | memoryTrainingDone (dt : Nat) (ddrGib : Byte) (ddrOk : Bool) (tgtGib : Byte) (ntgt : BitVec 6)
  /-- CALIBRATION_LOAD (R414): At boot step 0x08 CAL verifies factory calibration, applies the chosen overlay, loads every cal field and sets FACT_OK or OVL_SKIP. -/
  | calibrationLoad (dt : Nat)
  /-- PATCH_TABLE_APPLY (R317): From boot step 0x04, the verified patch table takes effect, so reads of patched ROM granules return the replacement and PATCHES is set. -/
  | patchTableApply (dt : Nat)
  /-- BOOT_QUENCH (R318): At boot step 0x02 Kindling finds a QUENCH condition, and the device enters QUENCH. -/
  | bootQuench (dt : Nat)
  /-- FIELD_ARRIVAL (R412): A reader field appears while the tag domain is already powered from VDD_AON, and TAG_STAT.FIELD rises. -/
  | fieldArrival (dt : Nat)
  /-- PMC_SNAPSHOT_DONE (R421): A snapshot finishes being taken and PMC_SNAP.BUSY clears, so a new GO is accepted. -/
  | pmcSnapshotDone (dt : Nat)
  deriving DecidableEq, Repr

end Sys2Proof
end

