-- ==== Sys2Proof/Machine/State.lean ====
section
/-!
DEFINITION. Machine/State.lean: everything the spec gives the block, as plain data. Registers stand in one sparse map
keyed by the address of the register (00 R5; `Machine/Regs.lean` names them); memory, tables, queues and the hidden
state of each unit stand in structures of their own. `State.reset` is the block at its reset release into BOOT.
-/

namespace Sys2Proof.Machine

/-! ### Wenak cores (04, 05) -/

/-- A store in a core's store buffer (04 R112, 05 R155). `tag` is the tag an SCAP stores; `entered` says that it has
entered the interconnect, and `old` that it was checked under the previous access-table epoch (07 R205). -/
structure BufStore where
  addr : Nat
  bytes : List Byte
  tag : Bool
  perms : BitVec 16
  entered : Bool := false
  old : Bool := false
  deriving DecidableEq, Repr

/-- A core context: the registers of 04 R91 and the system registers of 05 R167. `slot` holds the branch's address and
the continuation while the next instruction stands in a delay slot (04 R114); `shadow` marks the first instruction
after CJMP or CRET (05 R150). -/
structure Core where
  g : Sparse Word := []
  c : Sparse Cap := []
  pcc : Cap := {}
  pc : BitVec 48 := 0
  slot : Option (BitVec 48 × BitVec 48) := none
  shadow : Bool := false
  estat : Word := 0
  epc : Word := 0
  ebadaddr : Word := 0
  einstr : Word := 0
  ectrl : Word := 4
  evec : Word := 0
  ien : Word := 0
  holdcnt : Nat := 0
  waiting : Bool := false
  storeBuf : List BufStore := []
  defErr : Option (Nat × Bool) := none
  deriving DecidableEq, Repr

/-- The root capability (04 R93). -/
def rootCap : Cap := { tag := true, otype := 0, perms := 0x7FFF, top := 0, base := 0 }

/-- A control core as reset leaves it (04 R93). -/
def coreAtReset : Core :=
  { c := [(1, rootCap)], pcc := { tag := true, otype := 0, perms := 5, top := 0x10000, base := 0 }, pc := 0 }

/-! ### Service front end (02) -/

/-- A requester entry (02 R47). -/
structure Requester where
  id : Nat := 0
  en : Bool := false
  plain : BitVec 4 := 0
  rxsc : BitVec 16 := 0
  high : Nat := 0
  seen : BitVec 8192 := 0
  deriving DecidableEq, Repr

/-- A secure association (02 R39, R67): the key and the salt came over the key link and no register returns them. -/
structure Sa where
  valid : Bool := false
  busy : Bool := false
  err : Bool := false
  kslot : Nat := 0
  pn : Nat := 0
  sak : BitVec 256 := 0
  salt : BitVec 96 := 0
  deriving DecidableEq, Repr

/-- A secure channel: its short and its full identifier (02 R67). -/
structure Sc where
  ssci : BitVec 32 := 0
  sci : BitVec 64 := 0
  deriving DecidableEq, Repr

/-- Where a response goes (02 R34). -/
structure Reply where
  dst : BitVec 48 := 0
  encap : Encap := .ether
  deriving DecidableEq, Repr

/-- A refusal response that could not start at once, since when it waits and until when it may start (02 R44); for one of
step 11, the requester entry and the sequence number: another port's request of the same instant may go before it (02
R49). -/
structure PendingRefusal where
  port : Fin 4
  since : Nat
  bound : Nat
  content : List Byte
  turn : Option (Nat × Nat) := none
  deriving DecidableEq, Repr

/-- A management transmit in progress (02 R65). -/
structure MgtTx where
  port : Fin 4
  slot : Nat
  tscap : Bool
  content : List Byte
  deriving DecidableEq, Repr

/-- A request that step 11 judged: its ingress timestamp, port and requester entry, the request and where its answer goes,
and the entry as it stood before it (02 R49). -/
structure Arrival where
  time : Nat
  port : Fin 4
  rq : Nat
  req : CrpReq
  reply : Reply
  before : Requester
  deriving DecidableEq, Repr

/-- The front end's state beside its registers; `instant` lists, in the order of step 11, the requests whose ingress
timestamps equal the last one's. -/
structure SvcState where
  rq : Sparse Requester := []
  sas : Sparse Sa := []
  scs : Sparse Sc := []
  refusals : List PendingRefusal := []
  instant : List Arrival := []
  mgt : List MgtTx := []
  txBusy : Sparse Nat := []
  linkUp : BitVec 4 := 0
  deriving DecidableEq, Repr

/-! ### Key records and journal entries (10) -/

/-- A key record: the header of 10 Table 10.3 and the key material. -/
structure KeyRec where
  type : Nat := 0
  hchk : Nat := 0
  flags : Nat := 0
  version : Nat := 0
  use : Nat := 0
  svclo : Nat := 0
  svchi : Nat := 0
  rqmask : Nat := 0
  count : Nat := 0
  limit : Nat := 0
  ceil : Nat := 0
  key : List Byte := []
  deriving DecidableEq, Repr

/-- A journal entry (10 R271), with the SALT and the counter its frames are sealed under (12 R462). -/
structure JEntry where
  jseq : Nat
  index : Nat
  op : Nat
  devid : Nat
  image : KeyRec
  salt : Option (BitVec 128) := none
  ctr : Nat := 0
  deriving DecidableEq, Repr

/-! ### Admission and dispatch (03, 06) -/

/-- Where a request came from: a port or a slot of the internal-request ring (06 R186). -/
inductive Source where
  | port (p : Fin 4)
  | ring (slot : Fin 16)
  deriving DecidableEq, Repr

/-- A request descriptor handed to ADM at step 12 (02 Table 2.5), with the epoch of step 8 (03 R69). -/
structure Desc where
  src : Source
  reply : Reply
  req : CrpReq
  message : List Byte
  rq : Nat
  ingress : Nat
  epoch : Nat
  bank : Nat
  deriving DecidableEq, Repr

/-- A stage that a ledger entry holds (03 R75, R76): its pool, its charge, whether it is long, whether it has completed,
and the instruction index of the run or the issue it stands for. -/
structure LStage where
  pool : Nat
  charge : Nat
  long : Bool
  done : Bool := false
  started : Bool := false
  index : Nat := 0
  deriving DecidableEq, Repr

/-- The states of a context (06 Table 6.5). -/
inductive CtxState where
  | free | fetch | ready | running | parked | ending
  deriving DecidableEq, Repr

/-- A ticket of a service context (04 R130). -/
inductive Ticket where
  | free
  | outstanding
  | done (w : Word)
  deriving DecidableEq, Repr

/-- A context with its ledger entry (01 R20, 03 R78, 06 R171, R177). `cancelled` says that R84 cancelled it, `fell` that
the Lantern fell while it was in FETCH (03 R88). -/
structure Ctx where
  st : CtxState := .free
  src : Source := .port 0
  reply : Reply := {}
  req : CrpReq := {}
  rq : Nat := 0
  ingress : Nat := 0
  key : Option Nat := none
  slack : Option Int := none
  fast : Bool := false
  order : Nat := 0
  epoch : Nat := 0
  bank : Nat := 0
  stages : List LStage := []
  isState : Bool := false
  isRand : Bool := false
  committed : Bool := false
  cancelled : Bool := false
  fell : Bool := false
  late : Bool := false
  mirrored : Bool := false
  nop : Bool := false
  prog : Nat := 0
  respMax : Nat := 0
  ktype : Nat := 0
  bound : Option Nat := none
  boundVersion : Nat := 0
  useN : Option Nat := none
  core : Option (Fin 64) := none
  await : Option (Nat × BitVec 5) := none
  resumed : Bool := false
  ew : Sparse Word := []
  tickets : Sparse Ticket := []
  resp : Option Response := none
  respAt : Nat := 0
  grantable : Bool := false
  mackFor : Option Nat := none
  commitEntries : List JEntry := []
  deriving DecidableEq, Repr

/-- ADM's state beside its registers and the ledger: descriptors waiting for their decision, the blocking terms of
each bank in hundredths of a ns (03 R72), when each tempo factor was last written, the pools whose staleness
ADM_EVT.STALE has reported (03 R83), and the best-effort fetches that wait and those that a unit runs (03 R80). -/
structure AdmState where
  descs : List Desc := []
  terms : List (Nat × Nat × Nat) := []
  oldTerms : List (Nat × Nat × Nat) := []
  tempoAt : Sparse Nat := []
  staleSeen : BitVec 3 := 0
  decided : Nat := 0
  beFetch : List Nat := []
  beRun : List (Nat × LStage) := []
  deriving DecidableEq, Repr

/-- An issue descriptor of an image (06 Table 6.7). -/
structure IssueDesc where
  index : Nat
  pool : Nat
  flags : Nat
  opcode : Nat
  maxlen : Nat
  deriving DecidableEq, Repr

/-- A derived stage of a program (06 R181) and the instruction index it begins at. -/
structure PStage where
  pool : Nat
  cost : Nat
  index : Nat
  deriving DecidableEq, Repr

/-- A program slot (06 R178, R179). -/
structure Prog where
  loaded : Bool := false
  id : Nat := 0
  ver : Nat := 0
  ncode : Nat := 0
  nconst : Nat := 0
  rand : Bool := false
  state : Bool := false
  descs : List IssueDesc := []
  stages : List PStage := []
  lpath : Nat := 0
  deriving DecidableEq, Repr

/-- DSP's state: program slots, contexts, the private service memory with its tags (06 R168), the registers of each
context, the internal slots outstanding (06 R186), and the source and the slot of a load under way (06 R179). -/
structure DspState where
  progs : Sparse Prog := []
  ctxs : Sparse Ctx := []
  regs : Sparse Core := []
  mem : List Host.Cell := []
  tags : Sparse Bool := []
  ringBusy : BitVec 16 := 0
  loading : Option (Nat × Nat) := none
  deriving DecidableEq, Repr

/-- A command issued to an engine pool (04 R129): its context and ticket, its words, the bounds of the capability it was
issued under, and the stage of the ledger it is charged to. `reissue` marks one that goes first (08 R223), `second` one
whose lanes have disagreed once (08 R219), `logged` one whose mismatch CPH_MMLOG holds (08 R225), and `snap` is the
context memory under its capability as the staging buffer of a unit takes it in: as it was at the issue, with the stores
since that reach the engine (08 R215). -/
structure EngCmd where
  ctx : Nat
  ticket : Nat
  pool : EnginePool
  words : List Word
  base : Nat
  top : Nat
  perms : BitVec 16
  index : Nat
  reissue : Bool := false
  second : Bool := false
  logged : Bool := false
  snap : List Host.Cell := []
  deriving DecidableEq, Repr

/-- The content of a key slot as the private key bus delivers it (08 R216): its type, its usage bits and FLAGS where it
is a stored record, its bytes. -/
structure SlotContent where
  type : Nat
  use : Option Nat
  wrappable : Bool
  bytes : List Byte
  deriving DecidableEq, Repr

/-- An engine unit (08, 09): the command it runs, an aborted command whose clearing is under way and its charge, with
the key and the fast mark of its entry (09 R246), a self-test under way, the blocks of a random draw it still wants and
those it got (08 R218), the contents of KSLOT and ISLOT as delivered to the primary lane and, in complemented form, to
the checker of a cipher engine, and the staging buffers of a cipher engine for input and output (08 R210, R216), the
spare its frozen state moves to (09 R248); for a modular unit its operand memory (09 R227): all zeros, or, while a
command runs, with words that the spec leaves open, from free value `om` on (log entry 131); and its masking generator:
its seed and whether it has one, the seed drawn ahead of need, secret-bearing commands since the last reseed, when that
was, a reseed asked for (09 R242-R244). Its role stands in the registers. -/
structure EngUnit where
  cmd : Option EngCmd := none
  startedAt : Nat := 0
  clearing : Option EngCmd := none
  held : Option (Option Nat × Bool × LStage) := none
  testing : Bool := false
  want : Nat := 0
  got : List (BitVec 256) := []
  key : Option SlotContent := none
  plain : Option SlotContent := none
  checkKey : Option SlotContent := none
  checkPlain : Option SlotContent := none
  input : List Byte := []
  output : List Byte := []
  migrating : Option Nat := none
  om : Option Nat := none
  seeded : Bool := false
  seed : BitVec 256 := 0
  nextSeed : Option (BitVec 256) := none
  secretCmds : Nat := 0
  reseededAt : Nat := 0
  reseedAsked : Bool := false
  deriving DecidableEq, Repr

/-- The random number source beside its registers (11): the blocks of the output buffer, oldest first; the samples of the
last window set that raw access shows and how many of them were read (11 R286, log entry 124); a start-up test under way
and its failed attempts; whether the hot key waits for its draw. -/
structure RngState where
  buffer : List (BitVec 256) := []
  raw : BitVec 16384 := 0
  rawTaken : Nat := 16384
  testing : Bool := false
  attempts : Nat := 0
  hkWait : Bool := false
  nextCutoff : Option (Nat × Nat) := none
  deriving DecidableEq, Repr

/-! ### Key store (10) -/

/-- A record held in the key cache (10 R268): its fixed slot, its binding slot and the number of contexts that bind it,
the frame groups not yet programmed, the hot regions whose rewrite it awaits, and when it was last used. -/
structure Cached where
  fixed : Option Nat := none
  bindSlot : Option Nat := none
  binds : Nat := 0
  dirty : Nat := 0
  refreshing : List Nat := []
  lastUse : Nat := 0
  deriving DecidableEq, Repr

/-- A frame group in the log buffer: the commit, the record it seals and its image (10 R267). -/
structure LogEntry where
  jseq : Nat
  index : Nat
  image : KeyRec
  frames : Nat
  deriving DecidableEq, Repr

/-- A raise of CEIL that is not yet in effect (10 R269). -/
structure CeilRaise where
  index : Nat
  ceil : Nat
  jseq : Nat
  programmed : Bool := false
  macked : Bool := false
  deriving DecidableEq, Repr

/-- The frames of one image as the NAND log holds them (10 R266): the log sequence number and the commit they belong to,
the index and the image they seal, and the sealing key they are sealed under; `bad` where they fail verification though
they are sealed under the key in force. The ciphertext itself is internal to the device (log entry 132). -/
structure SealedRec where
  lsn : Nat := 0
  jseq : Nat := 0
  index : Nat := 0
  image : KeyRec := {}
  key : BitVec 256 := 0
  bad : Bool := false
  deriving DecidableEq, Repr

/-- A root record of a checkpoint (10 R270): ROOTSEQ, the tree root, the log position and JSEQ_SNAP. -/
structure Root where
  rootseq : Nat
  treeRoot : BitVec 256
  logPos : Nat
  jseqSnap : Nat
  deriving DecidableEq, Repr

/-- A commit that waits for log-buffer space or for the dirty-pin limit (10 R267, R268). -/
structure WaitingCommit where
  ctx : Option Nat
  changes : List (Nat × Nat × KeyRec)
  deriving DecidableEq, Repr

/-- A content of a transient slot (10 R261): its type and its bytes. -/
structure Transient where
  type : Nat := 0
  bytes : List Byte := []
  deriving DecidableEq, Repr

/-- The key store's state: the records as the device sees them now; the sealed store: what the counter tree of the last
checkpoint maps each index to, the frames programmed since in log sequence order, the last log sequence number, and the
tree root in on-die SRAM (10 R266, R270); what the cache holds, NEXT of each counted record (10 R262), the versions of
destroyed records, the transient slots, the log buffer, the journal ring, the hot regions that are valid, the operations
under way, and the last JSEQ whose frames are programmed. -/
structure KstState where
  records : Sparse KeyRec := []
  sealedRecs : Sparse SealedRec := []
  tail : List SealedRec := []
  lsn : Nat := 0
  treeRoot : BitVec 256 := 0
  cached : Sparse (Option Cached) := []
  nexts : Sparse Nat := []
  deadVersion : Sparse Nat := []
  transient : Sparse Transient := []
  log : List LogEntry := []
  waiting : List WaitingCommit := []
  journal : List JEntry := []
  raises : List CeilRaise := []
  hotValid : Sparse Bool := []
  hotGen : Sparse Nat := []
  refresh : List Nat := []
  useClock : Nat := 0
  running : Option Nat := none
  mounting : Bool := false
  checkpointing : Bool := false
  lastCheckpoint : Nat := 0
  durable : Nat := 0
  roots : List Root := []
  hotKey : BitVec 256 := 0
  sealingKey : BitVec 256 := 0
  deriving DecidableEq, Repr

/-! ### Duo (12) -/

/-- A peer message as the front end hands it to the duo link: the header of 12 Table 12.4 and the body. -/
structure PeerMsg where
  port : Fin 4
  typ : Nat
  dflags : Nat
  devid : Nat
  epoch : Nat
  rseq : Nat
  jseq : Nat
  dnum : Nat
  mode : Nat
  seg : Nat
  nseg : Nat
  body : List Byte
  deriving DecidableEq, Repr

/-- The content of an opened MIRROR (12 R299): whom it answers, its entries, the response. -/
structure Mirror where
  jseq : Nat
  requester : Nat
  seq : Nat
  entries : List JEntry
  resp : Option Response
  deriving DecidableEq, Repr

/-- The duo link's state beside its registers: the messages received and not yet taken, the session of R462 and
the MIRRORs that wait for its SALT with their CTR, the renewals sent with their times, when each path was last heard, the
newest renewal heard, the peer's latest STATUS, the MIRRORs not yet acknowledged, the hold table, the catch-up with the
journal entries that wait for log room, and the resync: what was applied for each index, the entries that wait for room (of
the journal where the flag is set), and the JSEQs applied above a gap. -/
structure DuoState where
  inbox : List PeerMsg := []
  salt : BitVec 128 := 0
  saltWait : Bool := false
  mirrorWait : List (Nat × Nat × List Byte) := []
  ctr : Nat := 0
  rseq : Nat := 0
  sent : List (Nat × Nat) := []
  leaseFrom : Nat := 0
  claiming : Bool := false
  releasing : Bool := false
  releaseSent : Option Nat := none
  enRose : Nat := 0
  renewHeard : Bool := false
  newest : Nat := 0
  newestAt : Option Nat := none
  newestRelease : Bool := false
  newestPair : Nat × Nat := (0, 0)
  renewJseq : Nat := 0
  ahead : List (Nat × Nat) := []
  epochHeard : Nat := 0
  heardP2 : Option Nat := none
  heardP3 : Option Nat := none
  heardLease : Option Nat := none
  peerClaimable : Bool := false
  claimableAt : Option Nat := none
  peerEpoch : Nat := 0
  peerEcho : Nat := 0
  peerStby : Bool := false
  peerDnum : Option Nat := none
  skewSince : Option Nat := none
  unacked : List (Nat × Nat) := []
  held : List (Mirror × Nat) := []
  buffer : List Mirror := []
  catching : Option (Nat × Bool) := none
  needFull : Bool := false
  caught : Bool := false
  target : Option Nat := none
  statusHeard : Bool := false
  journalWait : List JEntry := []
  copied : Sparse Nat := []
  copies : List (JEntry × Bool) := []
  live : List Nat := []
  wakeNext : Bool := false
  deriving DecidableEq, Repr

/-! ### Modes and lifecycle (13) -/

/-- The mode, the lifecycle state, the pins and supplies, and what start-up leaves outside the registers: a lifecycle
group partly programmed and the advance under way (13 R320), the next reset release is the first since VDD_AON came up
(13 R326), STOP requests, the BMK (15 R348), the reference clocks present (16 R368), whether the core partition of DDR5
is trained, the patched ROM granules in force (13 R317), when PWR_GOOD rose and whether the
monitors are armed (15 R352), the real input of the source under test (15 R358), whether a BMK waits for its draw
(13 R320, R322), and the method of a re-provisioning under way; the levels of the TMP_IN pins and the runs of samples at
the active level (15 R346, R353), the instant of the first alarm (15 R356), and when the backup domain last started cold
(15 R347). -/
structure SysState where
  mode : Mode := .boot
  lc : Lifecycle := .blank
  lcPartial : Option Lifecycle := none
  advancing : Option Lifecycle := none
  mainEn : Bool := true
  pwrGood : Bool := true
  firstPower : Bool := false
  stopReq : BitVec 16 := 0
  bmk : BitVec 256 := 0
  refclkEth : Bool := true
  refclkMem : Bool := true
  ddrTrained : Bool := false
  patches : List (Nat × List Byte) := []
  serial : BitVec 64 := 0
  pwrGoodAt : Nat := 0
  armed : Bool := false
  testInput : Bool := false
  bmkWait : Bool := false
  reprovNew : Bool := false
  stepsDone : BitVec 16 := 0
  pins : BitVec 4 := 0xF
  pinRun : Sparse Nat := []
  firstAt : Option (Nat × Nat) := none
  coldAt : Option Nat := none
  deriving DecidableEq, Repr

/-! ### Fault collector (16) -/

/-- A source that a reaction round takes in: the unit of its event, whether it was forced, and the timebase
when it became severe (16 R374, R375). -/
structure RoundSrc where
  src : Nat
  unit : Nat
  forced : Bool
  time : Nat
  deriving DecidableEq, Repr

/-- A reaction round: when its first source became severe, and the sources in order of arrival (16 R374). -/
structure Round where
  start : Nat
  srcs : List RoundSrc
  deriving DecidableEq, Repr

/-- The collector's state beside its registers: when each window opened, the sources whose SEV bit a SNUFF round set,
the round under way, the further events of severe RETIRE sources with their units (16 R372), and whether core 0 still
awaits its start from the safe state (16 R373). -/
structure FltState where
  tOpen : Sparse Nat := []
  bySnuff : BitVec 128 := 0
  round : Option Round := none
  again : List (Nat × Nat) := []
  startCore0 : Bool := false
  deriving DecidableEq, Repr

/-! ### Flash (14) -/

/-- What an exception reports beside the address of its instruction; `wait` marks what is none: an access of the
instruction has not ended (14 R337). -/
structure Exc where
  cause : Nat
  detail : Nat := 0
  addr : Word := 0
  fetch : Bool := false
  wait : Bool := false
  deriving DecidableEq, Repr

/-- What entry is told: the exception, the word, where it arose, and how. -/
structure Entry where
  x : Exc
  instr : Word := 0
  epc : BitVec 48
  bd : Bool := false
  tgt : BitVec 48 := 0
  sh : Bool := false
  imp : Bool := false
  more : Bool := false
  deriving DecidableEq, Repr

/-- An access that the flash array stalls (14 R335-R337): its master, granule and type; whether it came in step E1 or E4 of
an erase, which suspends nothing; whether the array has been free for it since; whether it has been served, which its
master still holds; and whether it was checked under the previous access-table epoch (07 R205). -/
structure Stall where
  master : Master
  granule : Nat
  ty : Access
  inE1 : Bool
  ready : Bool := false
  served : Bool := false
  old : Bool := false
  deriving DecidableEq, Repr

/-- What goes on when the flash array is free for its read (14 R335-R337): a management transmit (02 R65), an internal
request (06 R186), the start of a control core (13 R323), the entry of an exception (05 R158). -/
inductive ArrayWait where
  | mgt (v : Word32)
  | ireq (slot : Fin 16)
  | start (n : Fin 16) (perms : BitVec 16) (a : Nat)
  | entry (n : Fin 16) (e : Entry)
  deriving DecidableEq, Repr

/-- The flash controller beside its registers: the erase counts and the flag cells of the blocks (14 R334, R344), the
OTP pages that cannot be programmed again (14 R340); of the running command, the address, the source and the pages or
granules that are left (14 R332), the source bytes of the page in progress and the error that its preparation met (14
R333), and whether the erase completes one that was interrupted (14 R341); when E1 ends, when the quantum began to
count, the progress made before, the progress at which E3 and E4 begin, when the erase was suspended and the last read of
the array meanwhile (14 R334, R336); the accesses that the array stalls, what waits for them, and whether the array has
been free for the reads of an overlay (19 R417). -/
structure FlcState where
  counts : Sparse Nat := []
  flags : Sparse Bool := []
  otpUsed : Sparse Bool := []
  addr : Nat := 0
  src : Nat := 0
  count : Nat := 0
  page : List Byte := []
  pageErr : Nat := 0
  fixing : Bool := false
  e2At : Nat := 0
  resumedAt : Nat := 0
  progress : Nat := 0
  e3From : Nat := 0
  e4From : Nat := 0
  suspendedAt : Nat := 0
  lastRead : Nat := 0
  stalled : List Stall := []
  waits : List ArrayWait := []
  calReady : Bool := false
  deriving DecidableEq, Repr

/-! ### Cards (17) -/

/-- A card slot beside its registers: the outputs CRD_VENn and CRD_VSELn to the card supply switch (17 R381), when its
deactivation is complete (17 R383), whether the retry at class A is used, the command of the exchange under way, when
RST rises, the PPS request sent, whether PPS is given up, the divider in force; the block layer: the command bytes not
yet acknowledged, the last block sent, the sequence bits of both directions, retransmissions and the resynchronisation
under way, the response so far, whether S(IFS) awaits its answer, when the card's block began to be awaited and the
granted multiplier, whether the exchange is the quorum's own, and how it ended (17 R382-R386). -/
structure CardSlot where
  ven : Bool := false
  vsel : Bool := false
  offAt : Nat := 0
  cmd : List Byte := []
  retried : Bool := false
  rstAt : Nat := 0
  pps : Option (List Byte) := none
  noPps : Bool := false
  clkdiv : Nat := 40
  toSend : List Byte := []
  sentLen : Nat := 0
  last : List Byte := []
  ns : Bool := false
  nr : Bool := false
  retries : Nat := 0
  resynch : Bool := false
  resp : List Byte := []
  ifs : Bool := false
  waitFrom : Nat := 0
  wtx : Nat := 1
  attest : Bool := false
  ended : Option Nat := none
  deriving DecidableEq, Repr

/-- The card interface beside its registers: the slots, the operational roster of the backup domain with its threshold
(17 R392), the quorum session: its challenge, whether the challenge is still to be drawn, its purpose, the roster entries
counted, when it opened, and the slot and the answer of the attestation under way (17 R393). -/
structure CrdState where
  slots : Sparse CardSlot := []
  roster : List (BitVec 256) := []
  rosterM : Nat := 0
  challenge : BitVec 256 := 0
  wantChallenge : Bool := false
  purpose : Nat := 0
  counted : List Nat := []
  openedAt : Nat := 0
  attSlot : Option Nat := none
  answer : Option (List Byte) := none
  deriving DecidableEq, Repr

/-! ### Tag (18) -/

/-- A physical copy of a line or of a group's configuration: its generation, its data, whether its CRC is correct, and
how many of its eight marker bits read as programmed (18 R408). -/
structure TagCopy where
  gen : Nat := 0
  data : List Byte := []
  crcOk : Bool := false
  marker : Nat := 0
  deriving DecidableEq, Repr

/-- The two copies of a line (18 R408). -/
structure TagLine where
  a : TagCopy := { data := List.replicate 16 0, crcOk := true, marker := 8 }
  b : TagCopy := {}
  deriving DecidableEq, Repr

/-- A commit under way: what it writes, and whether the field or the wire asked for it (18 R410), and whether
the field has held since, so that the response is sent (18 R407). -/
structure TagCommit where
  line : Nat
  data : List Byte
  field : Bool
  answers : Bool := true
  deriving DecidableEq, Repr

/-- The tag beside its registers: the lines, with the group configurations from 512 on (18 R399, R403), WOKEN, whether
SELECT at level 1 is complete, the groups authenticated (18 R398, R403), the field, the commit under way, the wired
operation and its data, the writes of the last fault record that are left (18 R400), the staged policy and password of
the selected group, and the configuration that an APPLY commits (18 R409), the antenna tuning in force and the one that
waits for a field transaction (19 Table 19.1). -/
structure TagState where
  lines : Sparse TagLine := []
  powered : Bool := true
  woken : Bool := false
  level1 : Bool := false
  authed : List Nat := []
  field : Bool := false
  commit : Option TagCommit := none
  reading : Option Nat := none
  waiting : Option (Bool × Nat × List Byte) := none
  policy : Option Nat := none
  password : Option (BitVec 64) := none
  apply : Option (Nat × List Byte) := none
  record : List (Nat × List Byte) := []
  tuning : BitVec 5 := 0
  nextTuning : Option (BitVec 5) := none
  deriving DecidableEq, Repr

/-! ### Calibration, counters, observation (19) -/

/-- The instructions of the TAP (19 Table 19.7). -/
inductive TapInstr where
  | idcode | samplePreload | extest | clamp | highz | dap | bypass
  deriving DecidableEq, Repr

/-- The last debug access: running, failed, its data (19 R426); the address of a read that the flash array stalls (14
R337); whether the access is in flight on the interconnect, and whether it was at the last access-table switch (07
R205). -/
structure DapState where
  busy : Bool := false
  err : Bool := false
  done : Bool := false
  data : Word32 := 0
  result : Option (Bool × Word32) := none
  waits : Option Nat := none
  flight : Bool := false
  old : Bool := false
  deriving DecidableEq, Repr

/-- An overlay word: item, index, word, value (19 Table 19.2). -/
structure CalWord where
  item : Nat
  index : Nat
  word : Nat
  value : Word32
  deriving DecidableEq, Repr

/-- Calibration, counters and observation beside their registers: the cells of the factory area as boot step 0x08 read them
(19 R414), the overlay words of each bank of effective tables, the copy an apply is reading (19 R417), when the last
snapshot was taken (19 R421), the byte counts at the last window end, the window in force and when it last
ended (19 R420), the TAP and the debug port (19 R425, R426). -/
structure ObsState where
  cells : List Host.Cell := []
  bank0 : List CalWord := []
  bank1 : List CalWord := []
  applying : Nat := 0
  snapAt : Option Nat := none
  bwBase : Sparse Nat := []
  bwWindow : Nat := 1000
  bwAt : Option Nat := none
  tap : TapInstr := .idcode
  dap : DapState := {}
  deriving DecidableEq, Repr

/-! ### Wick (15) -/

/-- The hit history of one Wick rule: the frames, newest first, in which its condition held, and whether the rule is
armed (15 R361). -/
structure RuleState where
  hits : List Nat := []
  armed : Bool := true
  deriving DecidableEq, Repr

/-- Wick's private memory with its tags, the number of the last frame, the sticky bits that rose since, the rule states,
the lease frames since the last frame, and when the watchdog was last kicked (15 R359-R365). -/
structure WckState where
  mem : List Host.Cell := []
  tags : Sparse Bool := []
  frameNo : Nat := 0
  rises : Word32 := 0
  rules : Sparse RuleState := []
  leases : List Nat := []
  kicked : Nat := 0
  deriving DecidableEq, Repr

/-! ### The whole block -/

/-- The state of the block. `cphTake` lists cipher engines whose role waits, each with the busy spare that will take it
(08 R222), `mauBuf` the frozen commands of the migration buffers (09 R249). `regs` holds every register of the register
map that is not derived from another field; `heldLow` and `latchHigh` are the half-done accesses to 64-bit registers of
each master (00 R7); `damaged` marks the words and the tag granules whose stored codeword holds a double-bit error (01
R15, 05 R146; keyed by `damKey`); `tb` is the timebase, `tbRem` its fraction of a ns in 10^-9 and `rate` its rate
adjustment in 10^-9 (01 R13); `clock` counts the nanoseconds that passed, for what goes on while the timebase has no
power (log entry 3); `freeCtr` counts the free values drawn (the model's own field, log entry 5); `out` lists what was
sent to the outside, oldest last; `lastRead` is the answer of the last read command; `pending` holds the commands that
wait. -/
structure State where
  regs : Sparse Word := []
  heldLow : Sparse (Option Word32) := []
  latchHigh : Sparse (Option Word32) := []
  mem : List Host.Cell := []
  tags : Sparse Bool := []
  damaged : Sparse Bool := []
  tb : Nat := 0
  tbRem : Nat := 0
  rate : Int := 0
  clock : Nat := 0
  cores : Sparse Core := []
  svc : SvcState := {}
  adm : AdmState := {}
  dsp : DspState := {}
  kst : KstState := {}
  duo : DuoState := {}
  sys : SysState := {}
  flc : FlcState := {}
  flt : FltState := {}
  wck : WckState := {}
  crd : CrdState := {}
  tag : TagState := {}
  obs : ObsState := {}
  cphQ : List EngCmd := []
  mauQ : List EngCmd := []
  cph : Sparse EngUnit := []
  mau : Sparse EngUnit := []
  cphTake : List (Nat × Nat) := []
  mauBuf : List EngUnit := []
  rng : RngState := {}
  tscRem : Nat := 0
  freeCtr : Nat := 0
  out : List OutEvent := []
  lastRead : Option (Bool × Word) := none
  pending : List Instr := []
  deriving DecidableEq, Repr

/-- The block right after the first reset release (13 R312, R315): in BOOT, BLANK, the registers at their reset values,
core 0 at the root capability (04 R93), nothing in memory, no command waiting. -/
def State.reset : State :=
  { regs := resetRegs, cores := [(0, coreAtReset)], rng := { hkWait := true } }

/-- Why the block stops on a command. -/
inductive Fault where
  /-- Raised by a command whose operands no sender of the spec can send (`Instr.wf` is false of it): safe, since the
  spec describes no such event. -/
  | illFormed (mnemonic : String)
  deriving DecidableEq, Repr

/-- Why the block gives a command no meaning. -/
inductive Refusal where
  /-- Raised by the dispatch of a command that has no meaning yet: safe. -/
  | notModelled (mnemonic : String)
  deriving DecidableEq, Repr

end Sys2Proof.Machine
end

