-- ==== Sys2Proof/Machine/Ops.lean ====
section
/-!
DEFINITION. Machine/Ops.lean: the named operations every meaning is built from: registers and their fields (00 R5, R9),
memory and its tags (00 R4, 04 R109), the timebase (01 R13), free values, the event counters (19 R418), the counting of
fault events (16 R370), contexts and cores.
-/

namespace Sys2Proof.Machine

/-! ### Outcomes -/

/-- The outcome of every command of this block (log entry 4). -/
abbrev Out := Host.Outcome State Fault Refusal

/-- The effect `f` where the event's conditions `c` hold; the state unchanged where they do not (00 R10). -/
def event (c : Bool) (s : State) (f : State → State) : Out := .next (if c then f s else s)

/-! ### Registers and fields -/

/-- The value of the register at address `a`. -/
def State.rd (s : State) (a : Nat) : Word := sget 0 s.regs a

/-- Set the register at address `a`. -/
def State.wr (s : State) (a : Nat) (v : Word) : State := { s with regs := sput 0 s.regs a v }

/-- The bits `lo` to `lo + width - 1` of a word. -/
def bitsOf (w : Word) (lo width : Nat) : Nat := w.toNat / 2 ^ lo % 2 ^ width

/-- Replace the bits `lo` to `lo + width - 1` of a word. -/
def withBits (w : Word) (lo width v : Nat) : Word :=
  BitVec.ofNat 64 (w.toNat % 2 ^ lo + v % 2 ^ width * 2 ^ lo + w.toNat / 2 ^ (lo + width) * 2 ^ (lo + width))

/-- The value of a field. -/
def State.fget (s : State) (f : Fld) : Nat := bitsOf (s.rd f.addr) f.lo f.width

/-- Set a field; the other bits of its register stay. -/
def State.fset (s : State) (f : Fld) (v : Nat) : State :=
  s.wr f.addr (withBits (s.rd f.addr) f.lo f.width v)

/-- A one-bit field is 1. -/
def State.on (s : State) (f : Fld) : Bool := decide (s.fget f = 1)

/-- Set a one-bit field to 1: an event bit, a status bit. -/
def State.raise (s : State) (f : Fld) : State := s.fset f 1

/-- Set a one-bit field to 0. -/
def State.lower (s : State) (f : Fld) : State := s.fset f 0

/-- Set a one-bit field to a truth value. -/
def State.put (s : State) (f : Fld) (b : Bool) : State := s.fset f (if b then 1 else 0)

/-- Bit `i` of the register at `a`, as a field. -/
def bitFld (a i : Nat) : Fld := ⟨a, i, 1⟩

/-- The key under which bank `b` of a banked register is held (03 R69): the bank stands above the 48 address bits. -/
def bankAddr (b a : Nat) : Nat := a + b * 2 ^ 48

/-! ### Free values -/

/-- Advance the counter of free values. -/
def State.drawn (s : State) (n : Nat) : State := { s with freeCtr := s.freeCtr + n }

/-! ### Output -/

/-- Record what is sent to the outside. -/
def State.emit (s : State) (e : OutEvent) : State := { s with out := s.out ++ [e] }

/-! ### Modes and power -/

/-- The modes in which the core domain and the Ethernet island have power (01 Table 1.5). -/
def modePowered : Mode → Bool
  | .boot | .service | .custody | .quench => true
  | .cell | .standby => false

/-- VDD_AON holds: in every mode but CELL (01 Table 1.5). -/
def State.aon (s : State) : Bool := decide (s.sys.mode ≠ .cell)

/-- The code of a mode (13 Table 13.1). -/
def modeCode : Mode → Nat
  | .cell => 0
  | .boot => 1
  | .standby => 2
  | .service => 3
  | .custody => 4
  | .quench => 5

/-- The code of a lifecycle state (02 R53). -/
def lifecycleCode : Lifecycle → Nat
  | .blank => 0
  | .manufacture => 1
  | .provisioned => 2
  | .field => 3
  | .returned => 4

/-- The core domain has power. -/
def State.powered (s : State) : Bool := modePowered s.sys.mode

/-- The lifecycle state is PROVISIONED or a later one: RWL fields are locked (13 Table 13.6). -/
def State.locked (s : State) : Bool := decide (2 ≤ lifecycleCode s.sys.lc)

/-! ### Time (01 R13, R14; log entry 3) -/

/-- Source `n` is under test (15 R358). -/
def State.underTest (s : State) (n : Nat) : Bool := s.on TMP_BIST_BUSY && decide (s.fget TMP_BIST_SRC = n)

/-- The crystal is stopped (15 R349): the cause of source 23, which a test of it hides. -/
def State.crystalStopped (s : State) : Bool := s.on (bitFld TMP_CAUSE 23) || (s.underTest 23 && s.sys.testInput)

/-- The time-stamp counter counts periods of 2^-15 s from X32K (15 R349); the remainder is kept in 2^-15 ns. While the
crystal is stopped, the counter holds. -/
def State.tscTick (s : State) (dt : Nat) : State :=
  if s.crystalStopped then s
  else
    let t := s.tscRem + dt * 32768
    { s.wr TMP_TSC (s.rd TMP_TSC + BitVec.ofNat 64 (t / 1000000000)) with tscRem := t % 1000000000 }

/-- The timebase counts `dt` nanoseconds of REFCLK_ETH with its rate adjustment on top (01 R13). -/
def State.tbTick (s : State) (dt : Nat) : State :=
  let t := s.tbRem + dt * (1000000000 + s.rate).toNat
  { s with tb := (s.tb + t / 1000000000) % 2 ^ 64, tbRem := t % 1000000000 }

/-- `dt` nanoseconds pass: the timebase runs while the Ethernet island has power and its clock, the time-stamp counter
and the clock of what goes on without the timebase run always. -/
def State.elapse (s : State) (dt : Nat) : State :=
  let s := s.tscTick dt
  let s := { s with clock := s.clock + dt }
  if s.powered && s.sys.refclkEth then s.tbTick dt else s

/-- `n` ns have passed on the timebase since it read `t` (01 R14). While REFCLK_ETH is absent the timebase stands still
and bounds nothing (log entry 117). -/
def State.passed (s : State) (t n : Nat) : Bool := decide (t + n ≤ s.tb) || !s.sys.refclkEth

/-- A timed event: time passes, and then the effect happens where its conditions hold. -/
def timed (dt : Nat) (c : State → Bool) (s : State) (f : State → State) : Out :=
  event (c (s.elapse dt)) (s.elapse dt) f

/-! ### Memory (00 R4, Table 0.3) -/

/-- An address in the Kindling ROM. -/
def inRom (a : Nat) : Bool := decide (a < 0x10000)
/-- An address in the flash window. -/
def inFlash (a : Nat) : Bool := decide (0x10000000 ≤ a) && decide (a < 0x20000000)
/-- An address in the shared SRAM. -/
def inSram (a : Nat) : Bool := decide (0x20000000 ≤ a) && decide (a < 0x22000000)
/-- An address in the register blocks. -/
def inRegs (a : Nat) : Bool := decide (0x40000000 ≤ a) && decide (a < 0x41600000)

/-- The size of the core partition in bytes (10 Table 10.7); values above 16 act as 16. -/
def State.coreBytes (s : State) : Nat := min (s.fget KST_MEMCFG_CORE_GIB) 16 * 2 ^ 30

/-- An address in the DDR core region (07 Table 7.3). -/
def State.inCore (s : State) (a : Nat) : Bool := decide (0x100000000 ≤ a) && decide (a < 0x100000000 + s.coreBytes)

/-- An address in the DDR core region, once the memory is trained. -/
def State.inDdr (s : State) (a : Nat) : Bool := s.sys.ddrTrained && s.inCore a

/-- Tagged memory of the system interconnect (04 R109). -/
def State.tagged (s : State) (a : Nat) : Bool := inSram a || s.inDdr a

/-- What a byte of memory that nothing has written reads as: the BLANK group is programmed at wafer test (13 R320, whose
place is log entry 129), erased flash is all ones (14 R327), other memory zero (log entry 13). -/
def memDefault (a : Nat) : Byte := if a = 0x10000000 then 0 else if inFlash a then 0xFF else 0

/-- One byte of memory. -/
def memGet (m : List Host.Cell) (a : Nat) : Byte := sget (memDefault a) m a
/-- Write one byte of memory. -/
def memPut (m : List Host.Cell) (a : Nat) (v : Byte) : List Host.Cell := sput (memDefault a) m a v

/-- `n` bytes from address `a`. -/
def memRead (m : List Host.Cell) (a : Nat) : Nat → List Byte
  | 0 => []
  | n + 1 => memGet m a :: memRead m (a + 1) n

/-- Write bytes from address `a`. -/
def memWrite (m : List Host.Cell) (a : Nat) : List Byte → List Host.Cell
  | [] => m
  | b :: t => memWrite (memPut m a b) (a + 1) t

/-- One byte of a private memory (06 R168, 15 R359): what nothing has written reads as zero (log entry 13). -/
def prvGet (m : List Host.Cell) (a : Nat) : Byte := sget 0 m a

/-- `n` bytes of a private memory. -/
def prvRead (m : List Host.Cell) (a : Nat) : Nat → List Byte
  | 0 => []
  | n + 1 => prvGet m a :: prvRead m (a + 1) n

/-- Write bytes of a private memory. -/
def prvWrite (m : List Host.Cell) (a : Nat) : List Byte → List Host.Cell
  | [] => m
  | b :: t => prvWrite (sput 0 m a b) (a + 1) t

/-- The memory's canonical form. -/
abbrev memWf (m : List Host.Cell) : Prop := swf memDefault m = true

/-- The tag of the granule that holds address `a` (04 R109). -/
def tagAt (t : Sparse Bool) (a : Nat) : Bool := sget false t (a / 16)
/-- Set the tag of the granule that holds address `a`. -/
def tagPut (t : Sparse Bool) (a : Nat) (b : Bool) : Sparse Bool := sput false t (a / 16) b

/-- Clear the tags of the granules from granule `g` on, `n` of them. -/
def tagClear (t : Sparse Bool) (g : Nat) : Nat → Sparse Bool
  | 0 => t
  | n + 1 => tagClear (sput false t g false) (g + 1) n

/-! ### Double-bit errors (01 R15, 05 R146; log entry 118) -/

/-- The arrays that SEC-DED codewords protect and that a bus or a core reads: the memory of the system interconnect, the
program and context stores, Wick's SRAM, and the tag array of each. -/
inductive EccArray where
  | bus | ctx | wick
  deriving DecidableEq, Repr

/-- The number of an array. -/
def EccArray.code : EccArray → Nat
  | .bus => 0
  | .ctx => 1
  | .wick => 2

/-- The key of the word at `a` of an array, in `State.damaged`. -/
def damKey (m : EccArray) (a : Nat) : Nat := m.code * 2 ^ 48 + a / 4 * 4
/-- The key of the tag of the granule at `a`. -/
def tagKey (m : EccArray) (a : Nat) : Nat := (3 + m.code) * 2 ^ 48 + a / 16 * 16

/-- The key of a key slot whose content in the key cache or the transient-slot array holds a double-bit error (16
Table 16.1). -/
def slotKey (slot : Nat) : Nat := 6 * 2 ^ 48 + slot

/-- The content of a key slot holds a double-bit error. -/
def State.slotBad (s : State) (slot : Nat) : Bool := sget false s.damaged (slotKey slot)

/-- The content of a key slot is written anew, or the slot is released. -/
def State.slotHealed (s : State) (slot : Nat) : State := { s with damaged := sput false s.damaged (slotKey slot) false }

/-- A word of the `n` bytes at `a` holds a double-bit error. -/
def State.damagedAt (s : State) (m : EccArray) (a n : Nat) : Bool :=
  s.damaged.any fun e => e.2 && decide (damKey m a ≤ e.1) && decide (e.1 < m.code * 2 ^ 48 + a + n)

/-- The tag of the granule at `a` holds a double-bit error. -/
def State.tagDamaged (s : State) (m : EccArray) (a : Nat) : Bool := sget false s.damaged (tagKey m a)

/-- A write of `n` bytes at `a` writes the codewords of the words it covers and of the tags it touches anew. -/
def healed (d : Sparse Bool) (m : EccArray) (a n : Nat) : Sparse Bool :=
  d.filter fun e => !((decide (m.code * 2 ^ 48 + a ≤ e.1) && decide (e.1 + 4 ≤ m.code * 2 ^ 48 + a + n)) ||
    (decide (tagKey m a ≤ e.1) && decide (e.1 < (3 + m.code) * 2 ^ 48 + a + n)))

/-- Store bytes into memory: a data store clears the tag of every granule it touches (04 R109, 05 R146). -/
def State.storeBytes (s : State) (a : Nat) (bs : List Byte) : State :=
  { s with mem := memWrite s.mem a bs,
           damaged := healed s.damaged .bus a bs.length,
           tags := tagClear s.tags (a / 16) (if bs.isEmpty then 0 else (a + bs.length - 1) / 16 - a / 16 + 1) }

/-- Program bytes onto blank cells: bits move from 1 to 0 (14 R327). -/
def State.programBytes (s : State) (a : Nat) (bs : List Byte) : State :=
  { s with mem := memWrite s.mem a bs, damaged := healed s.damaged .bus a bs.length }

/-- A byte of memory as a read sees it: a patched ROM granule reads as its replacement (13 R317). -/
def State.loadByte (s : State) (a : Nat) : Byte :=
  match s.sys.patches.find? (fun p => decide (p.1 = a / 64 * 64)) with
  | some p => if inRom a then p.2.getD (a % 64) 0 else memGet s.mem a
  | none => memGet s.mem a

/-- `n` bytes as reads see them. -/
def State.loadBytes (s : State) (a : Nat) : Nat → List Byte
  | 0 => []
  | n + 1 => s.loadByte a :: s.loadBytes (a + 1) n

/-! ### Event counters (19 R418) -/

/-- The core domain has power, also from the acceptance of STANDBY until PWR_GOOD falls. -/
def State.counting (s : State) : Bool := s.powered || (decide (s.sys.mode = .standby) && s.sys.pwrGood)

/-- Add `n` to counter `e` of 19 Table 19.4: 48 bits, wrapping, and setting its overflow bit when it wraps. Counting
stops while the core domain has no power (19 R418). An event at the instant of the last snapshot is in the snapshot (19
R421). -/
def State.count (s : State) (e n : Nat) : State :=
  if s.counting then
    let t := (s.rd (PMC_CNT e)).toNat + n
    let s := s.wr (PMC_CNT e) (BitVec.ofNat 64 (t % 2 ^ 48))
    let s := if s.obs.snapAt = some s.tb then s.wr (PMC_SNAPC e) (BitVec.ofNat 64 (t % 2 ^ 48)) else s
    if 2 ^ 48 ≤ t then s.raise (bitFld (PMC_OVF (e / 32)) (e % 32)) else s
  else s

/-- The time of a unit that falls idle is added to the busy time of its pool, counter `e`. A read and a snapshot show with
it the time of the units that run, so a snapshot of this instant holds it already (19 R418, R421). -/
def State.countBusy (s : State) (e n : Nat) : State :=
  if n = 0 || !s.counting then s
  else
    let t := (s.rd (PMC_CNT e)).toNat + n
    let s := s.wr (PMC_CNT e) (BitVec.ofNat 64 (t % 2 ^ 48))
    if 2 ^ 48 ≤ t then s.raise (bitFld (PMC_OVF (e / 32)) (e % 32)) else s

/-- A unit runs a command, or clears itself of an aborted one. -/
def EngUnit.busy (x : EngUnit) : Bool := x.cmd.isSome || x.clearing.isSome

/-- The time since which the busy ones of these units run. -/
def State.busyNow (s : State) (l : Sparse EngUnit) : Nat :=
  (l.map fun e => if e.2.busy then s.tb - e.2.startedAt else 0).sum

/-- The busy ns of the cipher engines and of the modular units, as a read shows them (19 Table 19.4). -/
def State.busyShown (s : State) (e : Nat) : Word :=
  BitVec.ofNat 64 (((s.rd (PMC_CNT e)).toNat + s.busyNow (if e = 0x057 then s.cph else s.mau)) % 2 ^ 48)

/-! ### Fault events (16 R370) -/

/-- The sources of 16 Table 16.1. -/
def fltListed (n : Nat) : Bool :=
  decide (n ≤ 6) || (decide (8 ≤ n) && decide (n ≤ 27)) || (decide (32 ≤ n) && decide (n ≤ 62)) ||
  (decide (64 ≤ n) && decide (n ≤ 121))

/-- The sources whose events carry a unit: CPH, MAU and service-core sources (16 Table 16.1). -/
def fltUnitSource (n : Nat) : Bool :=
  (decide (64 ≤ n) && decide (n ≤ 68)) || (decide (106 ≤ n) && decide (n ≤ 121))

/-- The SEV bit of source `n`. -/
def sevFld (n : Nat) : Fld := bitFld (FLT_SEV (n / 32)) (n % 32)
/-- The sticky bit of source `n`. -/
def stkyFld (n : Nat) : Fld := bitFld (FLT_STKY (n / 32)) (n % 32)
/-- The cause bit of level source `n`. -/
def causeFld (n : Nat) : Fld := bitFld (FLT_CAUSE (n / 32)) (n % 32)

/-- Source `n` became severe: it joins the round under way, or begins one (16 R374). -/
def State.react (s : State) (n unit : Nat) (forced : Bool) : State :=
  let x : RoundSrc := { src := n, unit := unit, forced := forced, time := s.tb }
  match s.flt.round with
  | some r => { s with flt := { s.flt with round := some { r with srcs := r.srcs ++ [x] } } }
  | none => { s with flt := { s.flt with round := some { start := s.tb, srcs := [x] } } }

/-- A further event of a severe source (16 R372): a RETIRE source retires the unit of each event; the other reactions
change nothing. -/
def State.reactAgain (s : State) (n unit : Nat) : State :=
  if s.fget (FLT_CFG_REACT n) = 1 ∧ fltUnitSource n then { s with flt := { s.flt with again := s.flt.again ++ [(n, unit)] } }
  else s

/-- The threshold of source `n`: 0 acts as 1 (16 R379). -/
def State.fltN (s : State) (n : Nat) : Nat := max 1 (s.fget (FLT_CFG_N n))

/-- The window of source `n` in ns: 0 never closes. -/
def State.fltWindow (s : State) (n : Nat) : Nat := s.fget (FLT_CFG_W n) * (if s.on (FLT_CFG_WUNIT n) then 1000000 else 1000)

/-- The window of source `n` is open and has run out (16 R370). -/
def State.windowOver (s : State) (n : Nat) : Bool :=
  s.on (FLT_CNT_OPEN n) && decide (s.fltWindow n ≠ 0) && decide (sget 0 s.flt.tOpen n + s.fltWindow n ≤ s.tb)

/-- The window of source `n` closes: its count returns to 0. -/
def State.closeWindow (s : State) (n : Nat) : State := (s.lower (FLT_CNT_OPEN n)).fset (FLT_CNT_CNT n) 0

/-- The window of source `n` closes where it has run out. -/
def State.closeIfOver (s : State) (n : Nat) : State := if s.windowOver n then s.closeWindow n else s

/-- The event `on_event(n, unit)` of 16 R370. -/
def State.fault (s : State) (n unit : Nat) (forced : Bool) : State :=
  let s := s.raise (stkyFld n)
  if s.on (sevFld n) then s.reactAgain n unit
  else
    let s := s.closeIfOver n
    let s :=
      if s.fget (FLT_CNT_CNT n) = 0 then
        { s.raise (FLT_CNT_OPEN n) with flt := { s.flt with tOpen := sput 0 s.flt.tOpen n s.tb } }
      else s
    let s := s.fset (FLT_CNT_CNT n) (min (s.fltN n) (s.fget (FLT_CNT_CNT n) + 1))
    if s.fltN n ≤ s.fget (FLT_CNT_CNT n) then
      ((s.raise (sevFld n)).lower (FLT_CNT_OPEN n)).react n unit forced
    else s

/-- A unit's own event on source `n`; a unit signals only while the core domain has power. -/
def State.signal (s : State) (n unit : Nat) : State :=
  if s.powered then s.fault n unit false else s

/-! ### Contexts and cores -/

/-- Context `c` and its ledger entry. -/
def State.ctx (s : State) (c : Nat) : Ctx := sget {} s.dsp.ctxs c

/-- Replace context `c`. -/
def State.setCtx (s : State) (c : Nat) (x : Ctx) : State :=
  { s with dsp := { s.dsp with ctxs := sput {} s.dsp.ctxs c x } }

/-- The contexts that are not FREE, with their numbers. -/
def State.live (s : State) : List (Nat × Ctx) := s.dsp.ctxs.filter (fun e => decide (e.2.st ≠ .free))

/-- The context that service core `k` runs. -/
def State.ctxOn (s : State) (k : Fin 64) : Option Nat :=
  (s.dsp.ctxs.find? (fun e => decide (e.2.core = some k ∧ e.2.st = .running))).map (·.1)

/-- The number of the control core, or 16 for Wick's core: the key of its registers. -/
def coreKey : Hart → Nat
  | .ctl n => n.val
  | .wick => 16
  | .svc _ => 17

/-- The registers that hart `h` works on: a service core works on those of the context it runs. -/
def State.core (s : State) (h : Hart) : Core :=
  match h with
  | .svc k => match s.ctxOn k with
    | some c => sget {} s.dsp.regs c
    | none => {}
  | h => sget {} s.cores (coreKey h)

/-- Replace the registers that hart `h` works on. -/
def State.setCore (s : State) (h : Hart) (x : Core) : State :=
  match h with
  | .svc k => match s.ctxOn k with
    | some c => { s with dsp := { s.dsp with regs := sput {} s.dsp.regs c x } }
    | none => s
  | h => { s with cores := sput {} s.cores (coreKey h) x }

/-- The profile excludes nothing and the core has no context to run on: a control core or Wick's core. -/
def isService : Hart → Bool
  | .svc _ => true
  | _ => false

/-- Control core `n` still runs to the boundary at which the acceptance of STANDBY stops it (13 Table 13.2, R324). -/
def State.stopping (s : State) (n : Fin 16) : Bool :=
  decide (s.sys.mode = .standby) && s.sys.pwrGood && s.sys.stopReq.getLsbD n.val

/-- A STOP is asked of control core `n`, or no more (13 R324). -/
def State.stopAsked (s : State) (n : Fin 16) (b : Bool) : State :=
  let bit : BitVec 16 := 1#16 <<< n.val
  { s with sys := { s.sys with stopReq := if b then s.sys.stopReq ||| bit else s.sys.stopReq &&& ~~~bit } }

/-- What control core `n` has left for the flash array waits no more. -/
def State.dropWaits (s : State) (n : Fin 16) : State :=
  { s with flc := { s.flc with waits := s.flc.waits.filter fun w => match w with
      | .entry k _ | .start k _ _ => decide (k ≠ n)
      | _ => true } }

/-- Control core `n` is in the entry of an exception, which waits for a read of the flash array (14 R337). -/
def State.entering (s : State) (n : Fin 16) : Bool :=
  s.flc.waits.any fun w => match w with
    | .entry k _ => decide (k = n)
    | _ => false

/-- Hart `h` retires instructions now: a control core that is RUNNING, Wick's core while it runs, a service core that
runs a context; none in the halt of a WAIT or in the entry of an exception. -/
def State.runs (s : State) (h : Hart) : Bool :=
  match h with
  | .ctl n => (s.powered || s.stopping n) && decide (s.fget (SYS_CORE_CTRL_STATE n) = 1) && !(s.core h).waiting &&
      !s.entering n
  | .svc k => s.powered && (s.ctxOn k).isSome
  | .wick => s.aon && decide (s.fget WCK_STAT_STATE = 1) && !(s.core h).waiting

end Sys2Proof.Machine
end

