-- ==== Sys2Proof/Machine/Act.lean ====
section
/-!
DEFINITION. Machine/Act.lean: the check of the access table (07 R198), the record of a denial (07 R206), and the reads
and writes of memory that pass it. Every master's memory traffic goes through `spaceRead` and `spaceWrite`.
-/

namespace Sys2Proof.Machine

/-- Why an access fails (05 Table 5.5), or that it has not ended: the flash array stalls it (14 R337). -/
inductive BusErr where
  | act | target | ecc | wait
  deriving DecidableEq, Repr

/-- The DETAIL of a bus error (05 Table 5.5). -/
def BusErr.detail : BusErr → Nat
  | .act => 1
  | .target => 2
  | .ecc => 3
  | .wait => 0

/-- The master identity (07 Table 7.1). -/
def midOf : Master → Nat
  | .ctl n => n.val
  | .dap => 0x10
  | .loader => 0x11
  | .ireq => 0x12
  | .mgq => 0x13
  | .kst => 0x14
  | .flc => 0x15
  | .duo => 0x16
  | .wick => 0x1F

/-- TYPE of an access (07 Table 7.2). -/
def accCode : Access → Nat
  | .read => 0
  | .write => 1
  | .fetch => 2
  | .rmw => 3

/-- A permission bit of 05 Table 5.2. -/
def permBit (p : BitVec 16) (i : Nat) : Bool := p.getLsbD i
/-- R. -/
abbrev pR := 0
/-- W. -/
abbrev pW := 1
/-- X. -/
abbrev pX := 2
/-- LC. -/
abbrev pLC := 3
/-- SC. -/
abbrev pSC := 4
/-- SEAL. -/
abbrev pSEAL := 5
/-- UNSEAL. -/
abbrev pUNSEAL := 6
/-- SYS. -/
abbrev pSYS := 7
/-- ACT. -/
abbrev pACT := 8
/-- DBG. -/
abbrev pDBG := 9
/-- FPGM. -/
abbrev pFPGM := 10
/-- KSLOT. -/
abbrev pKSLOT := 11
/-- ENG. -/
abbrev pENG := 12
/-- TIME. -/
abbrev pTIME := 13
/-- CUST. -/
abbrev pCUST := 14

/-- Rights R, W and X grant an access of the type (07 Table 7.2). -/
def grants (r w x : Bool) : Access → Bool
  | .read => r
  | .write => w
  | .fetch => x
  | .rmw => r && w

/-- The active rules whose EN is 1, from the registers of the active copy (07 R203). -/
def State.activeRules (s : State) : List Nat :=
  s.regs.filterMap fun (a, v) =>
    if 0x40120000 ≤ a ∧ a < 0x40128000 ∧ (a - 0x40120000) % 32 = 0x10 ∧ v.getLsbD 31 = true
    then some ((a - 0x40120000) / 32) else none

/-- Active rule `n` covers granule `g` (07 R197). -/
def State.ruleCovers (s : State) (g n : Nat) : Bool :=
  decide ((s.rd (ACT_ARULE_START n)).toNat ≤ g) && decide (g ≤ (s.rd (ACT_ARULE_END n)).toNat)

/-- Active rule `n` admits the master. -/
def State.ruleAdmits (s : State) (mid n : Nat) : Bool := (s.rd (ACT_ARULE_MSET n)).getLsbD mid

/-- Active rule `n` grants the type. -/
def State.ruleGrants (s : State) (ty : Access) (n : Nat) : Bool :=
  grants (s.on (ACT_ARULE_ATTR_R n)) (s.on (ACT_ARULE_ATTR_W n)) (s.on (ACT_ARULE_ATTR_X n)) ty

/-- The default map (07 Table 7.3). -/
def State.defaultMap (s : State) (g : Nat) (ty : Access) : Bool :=
  if inRom g then grants true false true ty
  else if inFlash g then grants true false (decide (s.sys.mode = .boot)) ty
  else if inSram g || s.inCore g then grants true true true ty
  else if inRegs g then grants true true false ty
  else false

/-- The least number of a list. -/
def lowest : List Nat → Option Nat
  | [] => none
  | n :: t => match lowest t with
    | none => some n
    | some m => some (min n m)

/-- A denial: its REASON of 07 Table 7.4 and the rule that decided it. -/
structure Denial where
  reason : Nat
  rule : Nat
  deriving DecidableEq, Repr

/-- The resolution `check(a)` of 07 R198: `none` is GRANT. -/
def State.actCheck (s : State) (a : Acc) (addr : Nat) (ty : Access) : Option Denial :=
  let mid := midOf a.master
  let g := addr / 32 * 32
  let cover := s.activeRules.filter (s.ruleCovers g)
  match if mid = 0x10 then lowest (cover.filter (fun n => s.on (ACT_ARULE_ATTR_LOCK n))) else none with
  | some n => some ⟨4, n⟩
  | none =>
    if ty = .fetch && inFlash g && decide (s.sys.mode ≠ .boot) then some ⟨6, 0⟩
    else if cover.isEmpty then
      if s.on ACT_CTRL_NOMATCH && permBit a.perms pSYS && decide (mid ≠ 0x10) then
        if s.defaultMap g ty then none else some ⟨5, 0⟩
      else some ⟨1, 0⟩
    else match lowest (cover.filter (fun n => !(s.ruleAdmits mid n && s.ruleGrants ty n))) with
      | none => none
      | some n => if s.ruleAdmits mid n then some ⟨2, n⟩ else some ⟨3, n⟩

/-- What a denial records (07 R202, R206): the first capture, MORE afterwards, the events, and the fault source. -/
def State.violate (s : State) (a : Acc) (addr : Nat) (ty : Access) (d : Denial) : State :=
  let s := s.raise ACT_EVT_VIOL
  let s := s.count 0x05B 1
  let s :=
    if s.on ACT_VIOL_INFO_VALID then s.raise ACT_VIOL_INFO_MORE
    else (s.wr ACT_VIOL_ADDR (BitVec.ofNat 64 addr)).wr ACT_VIOL_INFO
      (BitVec.ofNat 64 (0x80000000 + d.rule * 0x10000 + midOf a.master * 0x100 + d.reason * 0x10 + accCode ty))
  if d.reason = 4 then ((s.raise ACT_EVT_DBG_LOCK).raise ACT_DBGSTKY_HIT).signal 81 0
  else s.signal 80 0

/-- The answer of an access: data or the error, and the state it leaves. -/
abbrev Ans (α : Type) := Except BusErr α × State

/-- One access enters the interconnect: it is checked once (07 R193), and a denial is recorded. -/
def State.enter (s : State) (a : Acc) (addr : Nat) (ty : Access) : Ans Unit :=
  if a.master = .wick then (.ok (), s)
  else match s.actCheck a addr ty with
    | none => (.ok (), s)
    | some d => (.error .act, s.violate a addr ty d)

/-! ### Double-bit errors on a read (01 R15, 14 R329) -/

/-- The capture of an error in the flash word at `a` (14 R329). -/
def State.flcEcc (s : State) (double : Bool) (a : Nat) : State :=
  let s := s.raise (if double then FLC_EVT_DED else FLC_EVT_SEC)
  let s := if double then s else s.count 0x05C 1
  if s.on FLC_ECCLOG_VALID then s.raise FLC_ECCLOG_MORE
  else s.wr FLC_ECCLOG (BitVec.ofNat 64 (2 ^ 63 + (if double then 2 ^ 48 else 0) + a / 4 * 4))

/-- The first damaged word at or above `a`, below `a + 4 * n`. -/
def State.damagedWord (s : State) (a : Nat) : Nat → Nat
  | 0 => a
  | n + 1 => if s.damagedAt .bus a 4 then a else s.damagedWord (a + 4) n

/-- A read of the `n` bytes at `a` met a word with a double-bit error: the source of its memory has one event. The channel
of a word of the core region is left open. -/
def State.eccRead (s : State) (a n : Nat) : State :=
  if inFlash a then (s.flcEcc true (s.damagedWord (a / 4 * 4) (n / 4 + 1))).signal 78 0
  else if inSram a then s.signal 52 0
  else (s.drawn 1).signal (if Config.freeBit s.freeCtr then 95 else 94) 0

/-- Step E1: the block's count rises, saturating, and its flag is set (14 R334, R344); OTP blocks keep their count. -/
def State.eraseE1 (s : State) (b : Nat) : State :=
  let old := sget 0 s.flc.counts b
  let n := min 0xFFFFF (old + 1)
  let s := { s with flc := { s.flc with counts := sput 0 s.flc.counts b n, flags := sput false s.flc.flags b true } }
  if n = s.fget FLC_WEAR_THRESH ∧ old ≠ n then (s.raise FLC_EVT_WEAR).fset FLC_WEAR_BLOCK b else s

/-- Every bit of the block at `a` is 1. -/
def State.blockBlank (s : State) (a : Nat) : State :=
  { s with
    mem := s.mem.filter fun e => !(decide (a ≤ e.1) && decide (e.1 < a + 0x10000))
    damaged := healed s.damaged .bus a 0x10000 }

/-- Step E4: the block's flag is clear (14 R334). -/
def State.eraseE4 (s : State) (b : Nat) : State := { s with flc := { s.flc with flags := sput false s.flc.flags b false } }

/-! ### Reads of the flash array (14 R335-R337) -/

/-- The block of a flash address. -/
def flcBlock (a : Nat) : Nat := (a - 0x10000000) / 0x10000

/-- The address lies in the block that an erase works on. -/
def State.erasing (s : State) (a : Nat) : Bool :=
  s.on FLC_STAT_BUSY && decide (s.fget FLC_STAT_OP = 2) && inFlash a && decide (flcBlock a = flcBlock s.flc.addr)

/-- The array answers no read now: a page is being programmed, or a block erased and not suspended. What an OTP_PROGRAM
does to reads is left open: it programs a page (DEDUCED, log entry 127). -/
def State.arrayBusy (s : State) : Bool :=
  s.on FLC_STAT_BUSY && !s.on FLC_STAT_SUSP && decide (s.fget FLC_STAT_OP ≠ 3)

/-- The progress of an erase since E2 began (14 R336). -/
def State.eraseProgress (s : State) : Nat :=
  s.flc.progress + (if s.on FLC_STAT_SUSP then 0 else s.tb - s.flc.resumedAt)

/-- The step of the erase that runs, E1 to E4 (14 R334). -/
def State.eraseStep (s : State) : Nat :=
  if !s.passed s.flc.e2At 0 then 1
  else if s.eraseProgress < s.flc.e3From then 2
  else if s.eraseProgress < s.flc.e4From then 3
  else 4

/-- An erase is in E1 or E4, in which reads wait and suspend nothing (14 R336). -/
def State.inE1 (s : State) : Bool :=
  s.on FLC_STAT_BUSY && decide (s.fget FLC_STAT_OP = 2) && (decide (s.eraseStep = 1) || decide (s.eraseStep = 4))

/-- One access that was in flight at the last access-table switch has ended (07 R205). -/
def State.drainOld (s : State) : State :=
  let k := s.fget ACT_EPOCH_DRAIN_OLD_LIVE
  if k = 0 then s
  else
    let s := s.fset ACT_EPOCH_DRAIN_OLD_LIVE (k - 1)
    if k = 1 then s.raise ACT_EVT_EPOCH_DONE else s

/-- The masters whose reads the array stalls: every master of the interconnect but the controller itself, whose own
transfers are part of the command that runs (14 R337). -/
def canStall : Master → Bool
  | .flc | .wick => false
  | _ => true

/-- The stalled access of a master to a granule. -/
def State.stallOf (s : State) (m : Master) (addr : Nat) (ty : Access) : Option Stall :=
  s.flc.stalled.find? fun x => decide (x.master = m ∧ x.granule = addr / 32 ∧ x.ty = ty)

/-- The array stalls an access of the master. -/
def State.stalls (s : State) (m : Master) : Bool := s.flc.stalled.any fun x => decide (x.master = m)

/-- The array is free for a stalled access: since it came, or because E1 is over; or it has served it. -/
def State.stallOver (s : State) (x : Stall) : Bool := x.ready || x.served || !s.arrayBusy || (x.inE1 && !s.inE1)

/-- The access has to wait for the array. -/
def State.mustWait (s : State) (m : Master) (addr : Nat) (ty : Access) : Bool :=
  canStall m && match s.stallOf m addr ty with
    | some x => !s.stallOver x
    | none => s.arrayBusy

/-- The array stalls an access, which holds its access-table decision (14 R337). -/
def State.stall (s : State) (m : Master) (addr : Nat) (ty : Access) : State :=
  if (s.stallOf m addr ty).isSome then s
  else { s with flc := { s.flc with stalled := s.flc.stalled ++
    [({ master := m, granule := addr / 32, ty := ty, inE1 := s.inE1 } : Stall)] } }

/-- Every access that the array holds up may reach it, those of an overlay that is applied among them (19 R417). -/
def State.freeStalls (s : State) : State :=
  { s with flc := { s.flc with stalled := s.flc.stalled.map fun x => { x with ready := true }, calReady := true } }

/-- Accesses that the array had stalled are in flight no more (07 R205). -/
def State.drainStalls (s : State) (l : List Stall) : State := (l.filter (·.old)).foldl (fun s _ => s.drainOld) s

/-- The array serves an access that it had stalled; its master holds what it read until its transfer ends. -/
def State.serve (s : State) (m : Master) (addr : Nat) (ty : Access) : State :=
  let hit (x : Stall) : Bool := decide (x.master = m ∧ x.granule = addr / 32 ∧ x.ty = ty)
  State.drainStalls { s with flc := { s.flc with
    stalled := s.flc.stalled.map fun x => if hit x then { x with served := true, old := false } else x } }
    (s.flc.stalled.filter hit)

/-- The stalled accesses of a master have ended. -/
def State.endStalls (s : State) (m : Master) : State :=
  State.drainStalls { s with flc := { s.flc with stalled := s.flc.stalled.filter fun x => !decide (x.master = m) } }
    (s.flc.stalled.filter fun x => decide (x.master = m))

/-- A read reaches the array. -/
def State.flashRead (s : State) : State := { s with flc := { s.flc with lastRead := s.tb } }

/-- Memory that answers reads on the system interconnect. -/
def State.readable (s : State) (a : Nat) : Bool := inRom a || inFlash a || inSram a || s.inDdr a
/-- Memory that answers writes on the system interconnect. -/
def State.writable (s : State) (a : Nat) : Bool := inSram a || s.inDdr a

/-- An access enters the interconnect, unless the array stalled it after it entered: then it keeps its decision (07
R204). -/
def State.passes (s : State) (a : Acc) (addr : Nat) (ty : Access) : Ans Unit :=
  if (s.stallOf a.master addr ty).isSome then (.ok (), s) else s.enter a addr ty

/-- What memory answers to a read of `n` bytes: a double-bit error ends it (01 R15). -/
def State.readNow (s : State) (addr n : Nat) : Ans (List Byte) :=
  if s.damagedAt .bus addr n then (.error .ecc, s.eccRead addr n) else (.ok (s.loadBytes addr n), s)

/-- A read of `n` bytes of memory within one granule. A read of the block being erased ends at once in a bus error; any
other read of the array waits while the array is busy (14 R335, R336). -/
def State.busRead (s : State) (a : Acc) (addr n : Nat) (ty : Access := .read) : Ans (List Byte) :=
  match s.passes a addr ty with
  | (.error e, s) => (.error e, s)
  | (.ok _, s) =>
    if !s.readable addr || s.erasing addr then (.error .target, s)
    else if inFlash addr && s.mustWait a.master addr ty then (.error .wait, s.stall a.master addr ty)
    else (if inFlash addr then s.flashRead.serve a.master addr ty else s).readNow addr n

/-- A write of bytes of memory within one granule; the tags of the granules are cleared, or set to `tag` for a
capability store. -/
def State.busWrite (s : State) (a : Acc) (addr : Nat) (bs : List Byte) (tag : Bool := false) : Ans Unit :=
  match s.enter a addr .write with
  | (.error e, s) => (.error e, s)
  | (.ok _, s) =>
    if s.writable addr then
      let s := s.storeBytes addr bs
      (.ok (), if tag then { s with tags := tagPut s.tags addr true } else s)
    else (.error .target, s)

/-- A transfer longer than one granule, split into granules, each checked on its own (07 R194): `n` granules from the
address of the first. -/
def State.burstRead (s : State) (a : Acc) (addr : Nat) : Nat → Ans (List Byte)
  | 0 => (.ok [], s)
  | n + 1 =>
    match s.busRead a addr 32 with
    | (.error e, s) => (.error e, s)
    | (.ok bs, s) =>
      match s.burstRead a (addr + 32) n with
      | (.error e, s) => (.error e, s)
      | (.ok t, s) => (.ok (bs ++ t), s)

/-- A read of `len` bytes from any address, by granules. -/
def State.readBlock (s : State) (a : Acc) (addr len : Nat) : Ans (List Byte) :=
  let first := addr / 32 * 32
  match s.burstRead a first (if len = 0 then 0 else (addr + len - 1) / 32 - addr / 32 + 1) with
  | (.error e, s) => (.error e, s)
  | (.ok bs, s) => (.ok (slice bs (addr - first) len), s)

/-- A write of `n` granule-sized pieces: `fuel` bounds the pieces. -/
def State.burstWrite (s : State) (a : Acc) (addr : Nat) (bs : List Byte) : Nat → Ans Unit
  | 0 => (.ok (), s)
  | n + 1 =>
    if bs.isEmpty then (.ok (), s)
    else
      let k := 32 - addr % 32
      match s.busWrite a addr (bs.take k) with
      | (.error e, s) => (.error e, s)
      | (.ok _, s) => s.burstWrite a (addr + k) (bs.drop k) n

/-- A read of one granule that a longer piece of work made before its command: what waits the flash array put into it lie
before the command as well (log entry 147). -/
def State.granuleRead (s : State) (a : Acc) (addr : Nat) : Ans (List Byte) :=
  match s.enter a addr .read with
  | (.error e, s) => (.error e, s)
  | (.ok _, s) => if !s.readable addr || s.erasing addr then (.error .target, s) else s.readNow addr 32

/-- `n` granules from the address of the first. -/
def State.granulesRead (s : State) (a : Acc) (addr : Nat) : Nat → Ans (List Byte)
  | 0 => (.ok [], s)
  | n + 1 =>
    match s.granuleRead a addr with
    | (.error e, s) => (.error e, s)
    | (.ok bs, s) =>
      match s.granulesRead a (addr + 32) n with
      | (.error e, s) => (.error e, s)
      | (.ok t, s) => (.ok (bs ++ t), s)

/-- `len` bytes from a granule on. -/
def State.pieceRead (s : State) (a : Acc) (addr len : Nat) : Ans (List Byte) :=
  match s.granulesRead a addr ((len + 31) / 32) with
  | (.error e, s) => (.error e, s)
  | (.ok bs, s) => (.ok (bs.take len), s)

/-- A write of bytes to any address, by granules. -/
def State.writeBlock (s : State) (a : Acc) (addr : Nat) (bs : List Byte) : Ans Unit :=
  s.burstWrite a addr bs (bs.length / 32 + 2)

/-! ### The switch of the rules (07 R203-R205) -/

/-- A staging rule register (07 R201). -/
def isStaging (r : Nat) : Bool := decide (0x40110000 ≤ r) && decide (r < 0x40118000)

/-- The staging rules that fail validation: EN = 1 and START above END (07 R203). -/
def State.rulesFailing (s : State) : List Nat :=
  s.regs.filterMap fun (a, v) =>
    if 0x40110000 ≤ a ∧ a < 0x40118000 ∧ (a - 0x40110000) % 32 = 0x10 ∧ v.getLsbD 31 = true ∧
        s.rd (ACT_RULE_END ((a - 0x40110000) / 32)) < s.rd (ACT_RULE_START ((a - 0x40110000) / 32))
    then some ((a - 0x40110000) / 32) else none

/-- Every rule's staging copy becomes its active copy. -/
def State.rulesInForce (s : State) : State :=
  let active (a : Nat) : Bool := decide (0x40120000 ≤ a) && decide (a < 0x40128000)
  let staged := s.regs.filter fun (e : Nat × Word) => isStaging e.1
  let kept := s.regs.filter fun (e : Nat × Word) => !active e.1
  { s with regs := staged.foldl (fun m (e : Nat × Word) => sput 0 m (e.1 + 0x10000) e.2) kept }

/-- The buffered stores that have entered the interconnect were checked under the old epoch. -/
def markOld (c : Core) : Core := { c with storeBuf := c.storeBuf.map fun b => { b with old := b.entered } }

/-- The accesses in flight: the stores that have entered the interconnect and not yet completed, the reads of every
master that the flash array holds up (14 R337), and the access of the debug port that has entered. -/
def State.inFlight (s : State) : Nat :=
  (s.cores.map fun (e : Nat × Core) => (e.2.storeBuf.filter (·.entered)).length).sum +
    (s.flc.stalled.filter fun x => !x.served && decide (x.master ≠ .dap)).length + (if s.obs.dap.flight then 1 else 0)

/-- The accesses in flight were checked under the old epoch. -/
def State.markFlight (s : State) : State :=
  { s with
    cores := s.cores.map fun (e : Nat × Core) => (e.1, markOld e.2)
    flc := { s.flc with stalled := s.flc.stalled.map fun x => { x with old := !x.served && decide (x.master ≠ .dap) } }
    obs := { s.obs with dap := { s.obs.dap with old := s.obs.dap.flight } } }

/-- The switch instant: the new epoch is in force, and the accesses in flight are counted (07 R203, R205). -/
def State.actSwitched (s : State) : State :=
  let s := s.rulesInForce
  let s := s.fset ACT_EPOCH_NUM (s.fget ACT_EPOCH_NUM + 1)
  let s := ((s.lower ACT_EPOCH_ERR).lower ACT_EPOCH_BUSY).raise ACT_EVT_EPOCH_DONE
  (s.fset ACT_EPOCH_DRAIN_OLD_LIVE s.inFlight).markFlight

/-! ### Capabilities in memory (05 R142) -/

/-- The 16 bytes of a capability. -/
def capBytes (c : Cap) : List Byte :=
  leBytes 6 c.base.toNat ++ leBytes 6 c.top.toNat ++ leBytes 2 c.perms.toNat ++ leBytes 2 c.otype.toNat

/-- The capability that 16 bytes and a tag spell. -/
def capOfBytes (tag : Bool) (bs : List Byte) : Cap :=
  { tag := tag, base := BitVec.ofNat 48 (leAt bs 0 6), top := BitVec.ofNat 48 (leAt bs 6 6),
    perms := BitVec.ofNat 16 (leAt bs 12 2), otype := BitVec.ofNat 16 (leAt bs 14 2) }

/-- The exclusive upper bound: an encoded end of 0 is 2^48 (05 R143). -/
def Cap.limit (c : Cap) : Nat := if c.top = 0 then 2 ^ 48 else c.top.toNat

/-- A tagged, unsealed capability. -/
def Cap.usable (c : Cap) : Bool := c.tag && decide (c.otype = 0)

/-! ### The memory each hart sees -/

/-- Patch bytes at `addr` with a buffered store that overlaps them (04 R112: a core sees its own stores). -/
def patchBytes (addr : Nat) (data : List Byte) (b : BufStore) : List Byte :=
  data.mapIdx fun i x =>
    if b.addr ≤ addr + i ∧ addr + i < b.addr + b.bytes.length then b.bytes.getD (addr + i - b.addr) x else x

/-- The tag of the granule at `addr` after the buffered stores that touch it. -/
def patchTag (addr : Nat) (t : Bool) (b : BufStore) : Bool :=
  if b.addr / 16 ≤ addr / 16 ∧ addr / 16 ≤ (b.addr + b.bytes.length - 1) / 16 then b.tag else t

/-- The regions of the service address space (06 Table 6.1). -/
def inProgStore (a : Nat) : Bool := decide (a < 0x2000000)
/-- The context store. -/
def inCtxStore (a : Nat) : Bool := decide (0x10000000 ≤ a) && decide (a < 0x1C000000)

/-- A read of memory by hart `h` under the permissions of the authorising capability: the bytes and the tag of their
granule (04 R109, R138; 06 R168; 15 R364). -/
def State.spaceRead (s : State) (h : Hart) (perms : BitVec 16) (addr n : Nat) (ty : Access := .read) :
    Ans (List Byte × Bool) :=
  match h with
  | .ctl k =>
    match s.busRead ⟨.ctl k, perms⟩ addr n ty with
    | (.error e, s) => (.error e, s)
    | (.ok bs, s) =>
      let sb := (s.core h).storeBuf
      (.ok (sb.foldl (patchBytes addr) bs, s.tagged addr && sb.foldl (patchTag addr) (tagAt s.tags addr)), s)
  | .svc _ =>
    if inProgStore addr || inCtxStore addr then
      if s.damagedAt .ctx addr n then (.error .ecc, s.signal 56 0)
      else (.ok (prvRead s.dsp.mem addr n, inCtxStore addr && tagAt s.dsp.tags addr), s)
    else (.error .target, s)
  | .wick =>
    if addr < 0x10000 then
      if s.damagedAt .wick addr n then (.error .ecc, s.signal 60 0)
      else (.ok (prvRead s.wck.mem addr n, tagAt s.wck.tags addr), s)
    else (.error .target, s)

/-- A command takes in a store into the memory of its context, or not, which is left open (08 R215): `free` numbers the
free values of the store. -/
def EngCmd.sees (e : EngCmd) (c free addr : Nat) (bs : List Byte) : EngCmd :=
  if e.ctx = c ∧ Config.freeBit (free + e.ticket) then { e with snap := prvWrite e.snap addr bs } else e

/-- A store of context `c` reaches the commands of it that have not completed, or not, each by itself (08 R215, 09
R233). -/
def State.storeReaches (s : State) (c addr : Nat) (bs : List Byte) : State :=
  let cmd (e : EngCmd) : EngCmd := e.sees c s.freeCtr addr bs
  let unit (x : EngUnit) : EngUnit := { x with cmd := x.cmd.map cmd }
  { s.drawn 32 with
    cphQ := s.cphQ.map cmd
    mauQ := s.mauQ.map cmd
    cph := s.cph.map fun e => (e.1, unit e.2)
    mau := s.mau.map fun e => (e.1, unit e.2)
    mauBuf := s.mauBuf.map unit }

/-- A write of memory by hart `h`. -/
def State.spaceWrite (s : State) (h : Hart) (perms : BitVec 16) (addr : Nat) (bs : List Byte) (tag : Bool := false) :
    Ans Unit :=
  match h with
  | .ctl k => s.busWrite ⟨.ctl k, perms⟩ addr bs tag
  | .svc k =>
    if inProgStore addr || inCtxStore addr then
      let s := { s with dsp := { s.dsp with mem := prvWrite s.dsp.mem addr bs, tags := tagPut s.dsp.tags addr tag },
                        damaged := healed s.damaged .ctx addr bs.length }
      (.ok (), match s.ctxOn k with
        | some c => s.storeReaches c addr bs
        | none => s)
    else (.error .target, s)
  | .wick =>
    if addr < 0x10000 then
      (.ok (), { s with wck := { s.wck with mem := prvWrite s.wck.mem addr bs, tags := tagPut s.wck.tags addr tag },
                        damaged := healed s.damaged .wick addr bs.length })
    else (.error .target, s)

/-- Whether a region holds tags for hart `h` (04 R109). -/
def State.holdsTags (s : State) (h : Hart) (addr : Nat) : Bool :=
  match h with
  | .ctl _ => s.tagged addr
  | .svc _ => inCtxStore addr
  | .wick => decide (addr < 0x10000)

/-- The memory that hart `h` reads. -/
def eccArray : Hart → EccArray
  | .ctl _ => .bus
  | .svc _ => .ctx
  | .wick => .wick

/-- A capability read with its tag: a tag with a double-bit error ends it in a bus error (05 R146). -/
def State.capRead (s : State) (h : Hart) (perms : BitVec 16) (addr : Nat) : Ans Cap :=
  match s.spaceRead h perms addr 16 with
  | (.error e, s) => (.error e, s)
  | (.ok (bs, t), s) =>
    if s.holdsTags h addr && s.tagDamaged (eccArray h) addr then (.error .ecc, s.signal 58 0)
    else (.ok (capOfBytes t bs), s)

end Sys2Proof.Machine
end

