-- ==== Sys2Proof/Machine/Alarm.lean ====
section
/-!
DEFINITION. Machine/Alarm.lean: the erasure of the BMK (15 R348), the tamper causes (15 R351-R353), the alarms with their
record (15 R355, R356), and the end of a source's test (15 R358).
-/

namespace Sys2Proof.Machine

/-! ### The BMK (15 R348) -/

/-- The BMK is erased: every sealed frame is unreadable from then on (10 R266, 15 R348). -/
def State.eraseBmk (s : State) : State :=
  let s := s.lower SYS_BOOTTAMP_BMK_VALID
  { s with sys := { s.sys with bmk := 0 }, kst := { s.kst with sealedRecs := [], tail := [], roots := [] } }

/-! ### Causes (15 R351-R353) -/

/-- The sources of 15 Table 15.1. -/
def tmpListed (n : Nat) : Bool := decide (n < 28) && decide (n ≠ 7)

/-- The sources whose monitors arm and disarm with the main rails (15 R352). -/
def tmpRail (n : Nat) : Bool := decide (n ≤ 5) || (decide (8 ≤ n) && decide (n ≤ 13))

/-- The source is live in the present mode (15 Table 15.1): the rails while armed, all others but in CELL, and four
kinds in every mode. -/
def State.tmpLive (s : State) (n : Nat) : Bool :=
  tmpListed n && (if tmpRail n then s.sys.armed else decide (s.sys.mode ≠ .cell) || decide (n = 15) || decide (23 ≤ n))

/-- The cause of source `n` as TMP_CAUSE and FLT_CAUSE show it (15 R366, 16 R368). -/
def State.tmpCause (s : State) (n : Nat) (b : Bool) : State := (s.put (bitFld TMP_CAUSE n) b).put (causeFld n) b

/-- The causes of sources that are no longer live read 0 (15 Table 15.1). -/
def State.deadCauses (s : State) : State :=
  ((List.range 28).filter fun n => !s.tmpLive n).foldl (fun s n => s.tmpCause n false) s

/-- The sampler of the pin of source `n` stands at a run of samples at the pin's active level, or at a sample that is not
(15 R353). -/
def State.pinSampled (s : State) (n : Nat) (active : Bool) : State :=
  if 24 ≤ n ∧ n < 28 then
    let bit : BitVec 4 := 1#4 <<< (n - 24)
    let high := s.on (TMP_SRCCFG_POL n) == active
    { s with sys := { s.sys with
        pins := if high then s.sys.pins ||| bit else s.sys.pins &&& ~~~bit
        pinRun := sput 0 s.sys.pinRun n (if active then max 1 (s.fget (TMP_SRCCFG_DEB n)) else 0) } }
  else s

/-- The pin of source `n` is at its active level. -/
def State.pinActive (s : State) (n : Nat) : Bool := s.sys.pins.getLsbD (n - 24) == s.on (TMP_SRCCFG_POL n)

/-! ### Alarms (15 R355, R356) -/

/-- The sticky bit of source `n` rises, which Wick's next frame shows (15 R360). -/
def State.stickyRise (s : State) (n : Nat) : State :=
  if s.on (bitFld TMP_STKY n) then s
  else { s.raise (bitFld TMP_STKY n) with wck := { s.wck with rises := s.wck.rises ||| (1#32 <<< n) } }

/-- The alarm of source `n` in CELL (15 Table 15.3). -/
def State.cellAlarm (s : State) (n : Nat) : State :=
  let s := s.raise SYS_BOOTTAMP_CELL_ALARM
  if s.on (TMP_SRCCFG_ERASE n) then s.eraseBmk else s

/-- One source alarms (15 R355): its sticky bit, and the reaction of the mode. In STANDBY Wick's rules react to the
sticky rise at the next frame. -/
def State.alarm (s : State) (n : Nat) : State :=
  let s := s.stickyRise n
  if s.sys.mode = .cell then s.cellAlarm n
  else if s.powered then (s.raise TMP_EVT_ALARM).fault n 0 false
  else s

/-- The instant in which an alarm is registered: the X32K period in CELL, the Wick frame of 1 µs in every other mode (15
R356). -/
def State.alarmInstant (s : State) : Nat × Nat :=
  if s.sys.mode = .cell then (0, (s.rd TMP_TSC).toNat) else (1, s.clock / 1000)

/-- The first-alarm record of alarms that are registered now (15 R355, R356): another alarm of the instant that it
records is simultaneous with it. -/
def State.firstAlarm (s : State) (ns : List Nat) : State :=
  match lowest ns with
  | none => s
  | some n =>
    if s.on TMP_FIRST_VALID then
      let old := s.fget TMP_FIRST_SRC
      if s.sys.firstAt = some s.alarmInstant ∧ ns.any (fun m => decide (m ≠ old)) then
        (s.fset TMP_FIRST_SRC (min old n)).raise TMP_FIRST_MULTI
      else s
    else
      let s := { s with sys := { s.sys with firstAt := some s.alarmInstant } }
      (s.wr TMP_FIRST (BitVec.ofNat 64 (2 ^ 31 + (if 1 < ns.length then 2 ^ 30 else 0) + modeCode s.sys.mode * 2 ^ 27 + n))).wr
        TMP_FIRST_TS (s.rd TMP_TSC)

/-- The causes of the listed sources rise in one instant (15 R356). A source that is not live keeps its cause low, a
source whose cause is present already signals nothing further. -/
def State.causesRise (s : State) (ns : List Nat) : State :=
  let new := (List.range 28).filter fun n => ns.contains n && s.tmpLive n && !s.underTest n && !s.on (bitFld TMP_CAUSE n)
  let s := if ns.any s.underTest then { s with sys := { s.sys with testInput := true } } else s
  let s := new.foldl (fun s n => (s.pinSampled n true).tmpCause n true) s
  let hit := new.filter fun n => s.on (TMP_SRCCFG_EN n)
  hit.foldl State.alarm (s.firstAlarm hit)

/-- The cause of source `n` falls. -/
def State.causeFalls (s : State) (n : Nat) : State :=
  let s := s.pinSampled n false
  if s.underTest n then { s with sys := { s.sys with testInput := false } } else s.tmpCause n false

/-- The test of a source ends: its real input is evaluated again, and where its cause is present the source alarms (15
R358). -/
def State.testEnds (s : State) : State :=
  if s.on TMP_BIST_BUSY then
    let t := s.lower TMP_BIST_BUSY
    if s.sys.testInput then { t with sys := { t.sys with testInput := false } }.causesRise [s.fget TMP_BIST_SRC] else t
  else s

end Sys2Proof.Machine
end

