-- ==== Sys2Proof/Machine/Aes.lean ====
section
/-!
DEFINITION. Machine/Aes.lean: AES-128 and AES-256 (FIPS 197) and the modes that 00 Table 0.5 names: CTR (SP 800-38A), CMAC
(38B), GCM (38D), XTS (38E), KW and KWP (38F). PRESUMED from the standards, log entry 11.
-/

namespace Sys2Proof.Machine

/-! ### The cipher (FIPS 197) -/

/-- Multiplication by x in GF(2^8). -/
def xtime (a : Byte) : Byte := (a <<< 1) ^^^ (if a.getLsbD 7 then 0x1B else 0)

/-- `n` bits of `b`, from the highest, times `a`. -/
def gfMulFrom (a b : Byte) : Nat → Byte → Byte
  | 0, r => r
  | n + 1, r => gfMulFrom a b n (xtime r ^^^ (if b.getLsbD n then a else 0))

/-- Multiplication in GF(2^8). -/
def gfMul (a b : Byte) : Byte := gfMulFrom a b 8 0

/-- The inverse in GF(2^8): the 254th power, as the product of the powers 2, 4, …, 128. -/
def gfInv (a : Byte) : Byte := ((List.range 7).foldl (fun p _ => let q := gfMul p.1 p.1; (q, gfMul p.2 q)) (a, (1 : Byte))).2

/-- SubBytes of one byte. -/
def subByte (a : Byte) : Byte :=
  let b := gfInv a
  b ^^^ b.rotateLeft 1 ^^^ b.rotateLeft 2 ^^^ b.rotateLeft 3 ^^^ b.rotateLeft 4 ^^^ 0x63

/-- InvSubBytes of one byte. -/
def invSubByte (a : Byte) : Byte := gfInv (a.rotateLeft 1 ^^^ a.rotateLeft 3 ^^^ a.rotateLeft 6 ^^^ 0x05)

/-- ShiftRows, by `k` columns to the left for each row number: 1, or 3 for its inverse. -/
def shiftRows (k : Nat) (s : List Byte) : List Byte := (List.range 16).map fun i => s.getD ((i + 4 * k * (i % 4)) % 16) 0

/-- MixColumns with the coefficients of a row of its matrix. -/
def mixColumns (m : List Byte) (s : List Byte) : List Byte :=
  (List.range 16).map fun i => (List.range 4).foldl (fun a j =>
    a ^^^ gfMul (m.getD ((j + 4 - i % 4) % 4) 0) (s.getD (i / 4 * 4 + j) 0)) 0

/-- The words of the key schedule up to the `n`-th more, latest first: `nk` words of key. -/
def keyWords (nk : Nat) : Nat → List (List Byte) → List (List Byte)
  | 0, l => l
  | n + 1, l =>
    let i := l.length
    let t := l.headD []
    let t := if i % nk = 0 then
        xorBytes ((t.drop 1 ++ t.take 1).map subByte) [(List.range (i / nk - 1)).foldl (fun r _ => xtime r) 1, 0, 0, 0]
      else if nk = 8 ∧ i % 8 = 4 then t.map subByte else t
    keyWords nk n (xorBytes (l.getD (nk - 1) []) t :: l)

/-- The round keys of a key of 16 or 32 bytes. -/
def roundKeys (key : List Byte) : List (List Byte) :=
  let nk := key.length / 4
  pieces 16 (keyWords nk (4 * (nk + 7) - nk) (pieces 4 key).reverse).reverse.flatten

/-- AES encryption of one block. -/
def aesEnc (key b : List Byte) : List Byte :=
  let ks := roundKeys key
  let s := (ks.drop 1).dropLast.foldl (fun s k => xorBytes (mixColumns [2, 3, 1, 1] (shiftRows 1 (s.map subByte))) k)
    (xorBytes b (ks.headD []))
  xorBytes (shiftRows 1 (s.map subByte)) (ks.getLastD [])

/-- AES decryption of one block. -/
def aesDec (key b : List Byte) : List Byte :=
  let ks := (roundKeys key).reverse
  let s := (ks.drop 1).dropLast.foldl (fun s k => mixColumns [14, 11, 13, 9] (xorBytes ((shiftRows 3 s).map invSubByte) k))
    (xorBytes b (ks.headD []))
  xorBytes ((shiftRows 3 s).map invSubByte) (ks.getLastD [])

/-! ### CTR and GCM (SP 800-38A, 38D) -/

/-- The key stream over `n` bytes: block `i` encrypts the counter block `ctr i`. -/
def keyStream (key : List Byte) (ctr : Nat → Nat) (n : Nat) : List Byte :=
  ((List.range ((n + 15) / 16)).map fun i => aesEnc key (beBytes 16 (ctr i))).flatten.take n

/-- AES-CTR: the initial counter block is incremented as a whole (08 Table 8.1). -/
def aesCtr (key iv x : List Byte) : List Byte := xorBytes x (keyStream key (fun i => (beNat iv + i) % 2 ^ 128) x.length)

/-- `n` more bits of `x`, from the first, times the present multiple `v` of the hash key, onto `z`. -/
def ghashBits (x : BitVec 128) : Nat → BitVec 128 → BitVec 128 → BitVec 128
  | 0, _, z => z
  | n + 1, v, z =>
    ghashBits x n ((v >>> 1) ^^^ (if v.getLsbD 0 then 0xE1#128 <<< 120 else 0)) (if x.getLsbD n then z ^^^ v else z)

/-- GHASH of whole blocks. -/
def ghash (h : BitVec 128) (x : List Byte) : BitVec 128 :=
  (pieces 16 x).foldl (fun y b => ghashBits (y ^^^ BitVec.ofNat 128 (beNat b)) 128 h 0) 0

/-- Zeros up to a whole block. -/
def pad16 (x : List Byte) : List Byte := x ++ List.replicate ((16 - x.length % 16) % 16) 0

/-- The GCM tag of 16 bytes of associated data and ciphertext, for an IV of 12 bytes. -/
def gcmTag (key iv aad ct : List Byte) : List Byte :=
  let h := BitVec.ofNat 128 (beNat (aesEnc key (List.replicate 16 0)))
  let s := ghash h (pad16 aad ++ pad16 ct ++ beBytes 8 (8 * aad.length) ++ beBytes 8 (8 * ct.length))
  xorBytes (beBytes 16 s.toNat) (aesEnc key (iv ++ [0, 0, 0, 1]))

/-- GCM's encryption, which is its own inverse. -/
def gcmCrypt (key iv x : List Byte) : List Byte :=
  xorBytes x (keyStream key (fun i => beNat iv * 2 ^ 32 + (2 + i) % 2 ^ 32) x.length)

/-- GCM encryption: ciphertext and the whole tag. -/
def gcmSeal (key iv aad x : List Byte) : List Byte × List Byte :=
  let c := gcmCrypt key iv x
  (c, gcmTag key iv aad c)

/-- GCM decryption under a tag of any permitted length; none where it does not verify. -/
def gcmOpen (key iv aad c tag : List Byte) : Option (List Byte) :=
  if (gcmTag key iv aad c).take tag.length = tag then some (gcmCrypt key iv c) else none

/-! ### XTS (SP 800-38E) -/

/-- The tweak of block `i`: the encrypted tweak times the `i`-th power of x. -/
def xtsTweak (t : List Byte) : Nat → List Byte
  | 0 => t
  | i + 1 =>
    let n := 2 * leNat (xtsTweak t i)
    leBytes 16 (if n < 2 ^ 128 then n else (n % 2 ^ 128) ^^^ 0x87)

/-- One block of XTS. -/
def xtsBlock (cipher : List Byte → List Byte) (t b : List Byte) : List Byte := xorBytes (cipher (xorBytes b t)) t

/-- AES-XTS over one data unit: key 1 and key 2 are the halves of the key; ciphertext stealing where the length is no
multiple of 16. -/
def aesXts (dec : Bool) (key iv x : List Byte) : List Byte :=
  let k1 := key.take (key.length / 2)
  let cipher := if dec then aesDec k1 else aesEnc k1
  let t := xtsTweak (aesEnc (key.drop (key.length / 2)) iv)
  let m := x.length / 16
  let r := x.length % 16
  let whole := fun n => ((List.range n).map fun i => xtsBlock cipher (t i) (slice x (16 * i) 16)).flatten
  if r = 0 then whole m
  else
    let cc := xtsBlock cipher (t (if dec then m else m - 1)) (slice x (16 * (m - 1)) 16)
    let last := xtsBlock cipher (t (if dec then m - 1 else m)) (x.drop (16 * m) ++ cc.drop r)
    whole (m - 1) ++ last ++ cc.take r

/-! ### CMAC (SP 800-38B) -/

/-- The doubling of CMAC's subkeys. -/
def cmacDouble (b : List Byte) : List Byte :=
  let n := 2 * beNat b
  beBytes 16 (if n < 2 ^ 128 then n else (n % 2 ^ 128) ^^^ 0x87)

/-- AES-CMAC, 16 bytes. -/
def aesCmac (key msg : List Byte) : List Byte :=
  let k1 := cmacDouble (aesEnc key (List.replicate 16 0))
  let whole := decide (0 < msg.length) && decide (msg.length % 16 = 0)
  let n := if whole then msg.length / 16 - 1 else msg.length / 16
  let last := msg.drop (16 * n)
  let last := if whole then xorBytes last k1 else xorBytes (padTo 16 (last ++ [0x80])) (cmacDouble k1)
  aesEnc key (xorBytes last ((pieces 16 (msg.take (16 * n))).foldl (fun c b => aesEnc key (xorBytes c b)) (List.replicate 16 0)))

/-! ### Key wrap (SP 800-38F) -/

/-- Step `t` of the wrapping function on A and the semiblocks. -/
def wrapStep (key : List Byte) (s : List Byte × List (List Byte)) (t : Nat) : List Byte × List (List Byte) :=
  let b := aesEnc key (s.1 ++ s.2.headD [])
  (xorBytes (b.take 8) (beBytes 8 t), s.2.drop 1 ++ [b.drop 8])

/-- Step `t` of the inverse. -/
def unwrapStep (key : List Byte) (s : List Byte × List (List Byte)) (t : Nat) : List Byte × List (List Byte) :=
  let b := aesDec key (xorBytes s.1 (beBytes 8 t) ++ s.2.getLastD [])
  (b.take 8, b.drop 8 :: s.2.dropLast)

/-- The wrapping function W. -/
def wrapW (key s : List Byte) : List Byte :=
  let p := pieces 8 s
  let r := ((List.range (6 * (p.length - 1))).map (· + 1)).foldl (wrapStep key) (p.headD [], p.drop 1)
  r.1 ++ r.2.flatten

/-- Its inverse. -/
def unwrapW (key c : List Byte) : List Byte :=
  let p := pieces 8 c
  let r := ((List.range (6 * (p.length - 1))).map (· + 1)).reverse.foldl (unwrapStep key) (p.headD [], p.drop 1)
  r.1 ++ r.2.flatten

/-- AES-KW wrap. -/
def kwWrap (key p : List Byte) : List Byte := wrapW key (List.replicate 8 0xA6 ++ p)
/-- AES-KW unwrap; none where the integrity check fails. -/
def kwUnwrap (key c : List Byte) : Option (List Byte) :=
  let s := unwrapW key c
  if s.take 8 = List.replicate 8 0xA6 then some (s.drop 8) else none

/-- AES-KWP wrap. -/
def kwpWrap (key p : List Byte) : List Byte :=
  let s := ([0xA6, 0x59, 0x59, 0xA6] : List Byte) ++ beBytes 4 p.length ++ p ++ List.replicate ((8 - p.length % 8) % 8) 0
  if s.length = 16 then aesEnc key s else wrapW key s
/-- AES-KWP unwrap; none where the integrity check fails. -/
def kwpUnwrap (key c : List Byte) : Option (List Byte) :=
  let s := if c.length = 16 then aesDec key c else unwrapW key c
  let n := beAt s 4 4
  if s.take 4 = [0xA6, 0x59, 0x59, 0xA6] ∧ s.length < n + 16 ∧ n + 8 ≤ s.length ∧ (∀ b ∈ s.drop (8 + n), b = 0) then
    some (slice s 8 n) else none

end Sys2Proof.Machine
end

