-- ==== Sys2Proof/Machine/Ports.lean ====
section
/-!
DEFINITION. Machine/Ports.lean: MACsec with GCM-AES-XPN-256 (02 R37-R39; IEEE 802.1AE-2018), and the transmit side of the
ports: when a port can send (02 R39, R62; 16 R373), and the frame that leaves (02 R34, R40).
-/

namespace Sys2Proof.Machine

/-- The key of a secure association: port, direction, receive SC and association number (02 R67). -/
def saKey (port : Nat) (tx : Bool) (sc an : Nat) : Nat := port * 32 + (if tx then 16 else 0) + (if tx then 0 else sc * 4) + an

/-- The key of a secure channel. -/
def scKey (port : Nat) (tx : Bool) (sc : Nat) : Nat := port * 8 + (if tx then 4 else sc)

/-- The SA under a key. -/
def State.sa (s : State) (k : Nat) : Sa := sget {} s.svc.sas k
/-- Replace an SA. -/
def State.setSa (s : State) (k : Nat) (x : Sa) : State := { s with svc := { s.svc with sas := sput {} s.svc.sas k x } }
/-- The SC under a key. -/
def State.sc (s : State) (k : Nat) : Sc := sget {} s.svc.scs k
/-- Replace an SC. -/
def State.setSc (s : State) (k : Nat) (x : Sc) : State := { s with svc := { s.svc with scs := sput {} s.svc.scs k x } }

/-- The MACsec SecY of the port is enabled. -/
def State.secy (s : State) (port : Nat) : Bool := s.on (ETH_MSEC_CTRL_EN port)

/-- The transmit SA of the port: the one TXAN names. -/
def State.txSa (s : State) (port : Nat) : Nat := saKey port true 0 (s.fget (ETH_MSEC_CTRL_TXAN port))

/-- The port is enabled. -/
def State.portOn (s : State) (port : Nat) : Bool := s.on (bitFld SVC_PORTCFG port)

/-- The port is a peer port: P2, and P3 unless P3_HOST is 1 (02 R62). -/
def State.peerPort (s : State) (port : Nat) : Bool :=
  decide (port = 2) || (decide (port = 3) && !s.on SVC_PORTCFG_P3_HOST)

/-- PORT_EN is set, and a transmit SA is valid where MACsec is on. -/
def State.portReady (s : State) (port : Nat) : Bool :=
  s.powered && s.portOn port && (!s.secy port || (s.sa (s.txSa port)).valid)

/-- The port can transmit: it is ready and the safe state does not silence it (16 R373). -/
def State.canSend (s : State) (port : Nat) : Bool := s.portReady port && !s.on FLT_STAT_SAFE

/-- The management queue can transmit on the port: in QUENCH it alone may, in spite of the safe state (16 R373). -/
def State.canSendMgt (s : State) (port : Nat) : Bool :=
  s.portReady port && (!s.on FLT_STAT_SAFE || decide (s.sys.mode = .quench))

/-! ### GCM-AES-XPN-256 (02 R37; IEEE 802.1AE-2018, log entry 6) -/

/-- The EtherType of a frame or of a frame's content. -/
def etherType (c : List Byte) : Nat := beAt c 12 2

/-- A frame with a SecTAG. -/
def secTagged (b : List Byte) : Bool := decide (etherType b = 0x88E5)

/-- An IEEE 802.1Q or 802.1ad tag (02 R32). -/
def vlanTagged (c : List Byte) : Bool := decide (etherType c = 0x8100) || decide (etherType c = 0x88A8)

/-- The IV of a frame: the salt, exclusive or the short SCI before the packet number. -/
def secIv (a : Sa) (ssci : BitVec 32) (pn : Nat) : List Byte :=
  beBytes 12 (a.salt ^^^ BitVec.ofNat 96 (ssci.toNat * 2 ^ 64 + pn)).toNat

/-- The head of a protected frame: its addresses, and the SecTAG of 16 bytes with SC, E and C set, which carries the
association number, the length of secure data shorter than 48 bytes, the low half of the packet number, and the SCI. -/
def secHead (c : Sc) (an pn : Nat) (content : List Byte) : List Byte :=
  let n := content.length - 12
  content.take 12 ++ [0x88, 0xE5, BitVec.ofNat 8 (0x2C + an), BitVec.ofNat 8 (if n < 48 then n else 0)] ++
    beBytes 4 pn ++ beBytes 8 c.sci.toNat

/-- A protected frame: head, ciphertext, ICV. -/
def secFrame (a : Sa) (c : Sc) (an : Nat) (content : List Byte) : List Byte :=
  let h := secHead c an a.pn content
  let x := gcmSeal (beBytes 32 a.sak.toNat) (secIv a c.ssci a.pn) h (content.drop 12)
  h ++ x.1 ++ x.2

/-- The packet number of a received frame: the upper half that goes with the lowest acceptable one. -/
def secPn (lowest pn : Nat) : Nat :=
  (lowest / 2 ^ 32 + (if 2 ^ 31 ≤ lowest % 2 ^ 32 ∧ pn < 2 ^ 31 then 1 else 0)) * 2 ^ 32 % 2 ^ 64 + pn

/-- The length of the secure data of a protected frame, where its SecTAG is in order: version 0, SC, E and C set, ES and
SCB clear, and a length that the frame holds. -/
def secLen (b : List Byte) : Option Nat :=
  let n := beAt b 15 1
  if beAt b 14 1 / 4 ≠ 0x0B ∨ b.length < 44 + n then none
  else if n = 0 then (if b.length < 92 then none else some (b.length - 44))
  else if n < 48 then some n else none

/-- The content of a protected frame under an SA and its SC, with the packet number: none where the frame does not
verify. -/
def Sa.opens (a : Sa) (c : Sc) (b : List Byte) : Option (Nat × List Byte) :=
  match secLen b with
  | none => none
  | some n =>
    let pn := secPn a.pn (beAt b 16 4)
    if a.valid && decide (a.pn ≤ pn) then
      (gcmOpen (beBytes 32 a.sak.toNat) (secIv a c.ssci pn) (b.take 28) (slice b 28 n) (slice b (28 + n) 16)).map
        fun x => (pn, b.take 12 ++ x)
    else none

/-! ### Transmit -/

/-- A short frame is padded with zero bytes to 64 bytes with its FCS (02 R40). -/
def padFrame (b : List Byte) : List Byte := b ++ List.replicate (60 - b.length) 0

/-- The length of a frame from the destination address to the FCS: its content, SecTAG and ICV, FCS. -/
def frameLen (secy : Bool) (content : List Byte) : Nat := max 60 (content.length + (if secy then 32 else 0)) + 4

/-- The packet number that sets SVC_EVT.PN_THRESH (02 R39). -/
def pnThresh : Nat := 0xFFFFFFFF00000000

/-- The packet number of a transmit SA is used: it steps, or the SA is no longer valid after the last (02 R39). -/
def State.usePn (s : State) (k : Nat) : State :=
  let a := s.sa k
  let s := if a.pn + 1 = pnThresh then s.raise SVC_EVT_PN_THRESH else s
  if a.pn = 0xFFFFFFFFFFFFFFFF then s.setSa k { a with valid := false } else s.setSa k { a with pn := a.pn + 1 }

/-- The bytes of a frame that leaves, protected where MACsec is on (02 R37). -/
def State.wireBytes (s : State) (port : Fin 4) (content : List Byte) : List Byte :=
  padFrame (if s.secy port then
    secFrame (s.sa (s.txSa port)) (s.sc (scKey port true 0)) (s.fget (ETH_MSEC_CTRL_TXAN port)) content else content)

/-- Send a frame on a port that can send: it is protected where MACsec is on and uses a packet number (02 R39), the
counters of frames and bytes sent step, and the frame is recorded with its start. -/
def State.sendFrame (s : State) (port : Fin 4) (content : List Byte) (start : Nat) : State :=
  let len := frameLen (s.secy port) content
  let s := (s.count (16 * port.val + 2) 1).count (16 * port.val + 3) len
  let s := s.emit (.frame port start (s.wireBytes port content))
  if s.secy port then s.usePn (s.txSa port) else s

/-- A frame the device wants to send: it leaves on a port that can transmit, and is lost on another. -/
def State.transmit (s : State) (port : Fin 4) (content : List Byte) : State :=
  if s.canSend port then s.sendFrame port content s.tb else s

/-- The wire time of a frame of `len` bytes at 100 Gbit/s, 0.08 ns per byte with 20 bytes of preamble and gap, rounded
up (03 R75). -/
def wireNs (len : Nat) : Nat := ((len + 20) * 8 + 99) / 100

/-- The MAC address of the port. -/
def State.portMac (s : State) (port : Nat) : Nat := (s.rd (SVC_MAC port)).toNat

/-- The IPv6 address of the port, word 0 most significant. -/
def State.portIp (s : State) (port : Nat) : BitVec 128 :=
  BitVec.ofNat 128 ((s.rd (SVC_IP6 (4 * port))).toNat * 2 ^ 96 + (s.rd (SVC_IP6 (4 * port + 1))).toNat * 2 ^ 64 +
    (s.rd (SVC_IP6 (4 * port + 2))).toNat * 2 ^ 32 + (s.rd (SVC_IP6 (4 * port + 3))).toNat)

/-- The frame that carries a CRP message to a reply address (02 R31, R34). -/
def State.crpFrame (s : State) (port : Fin 4) (r : Reply) (msg : List Byte) : List Byte :=
  beBytes 6 r.dst.toNat ++ beBytes 6 (s.portMac port) ++
  match r.encap with
  | .ether => [0x88, 0xB5] ++ msg
  | .udp src dst sport dport tcFlow =>
    let head := fun c : Nat => beBytes 2 dport.toNat ++ beBytes 2 sport.toNat ++ beBytes 2 (8 + msg.length) ++ beBytes 2 c
    [0x86, 0xDD] ++ beBytes 4 (0x60000000 + tcFlow.toNat) ++ beBytes 2 (8 + msg.length) ++ [17, 64] ++
      beBytes 16 dst.toNat ++ beBytes 16 src.toNat ++ head (udpChecksum dst src (head 0 ++ msg)) ++ msg

end Sys2Proof.Machine
end

