-- ==== Sys2Proof/Machine/Records.lean ====
section
/-!
DEFINITION. Machine/Records.lean: key records, their images and spans (10 R255-R258), the key cache and its pins
(10 R268), slots (10 R261), and the use check of the private key bus (10 R259).
-/

namespace Sys2Proof.Machine

/-- The cells of the factory OTP region (14 R331). -/
def State.otpCells (s : State) : List Host.Cell := s.mem.filter fun e => decide (0x10000000 ≤ e.1) && decide (e.1 < 0x10040000)

/-- The digest of a key pair (13 R317). -/
def State.keyDigest (s : State) (keyid : Nat) : List Byte := Config.keyDigest s.otpCells keyid

/-- The length of a record's image (10 R257). -/
def KeyRec.size (r : KeyRec) : Nat := 64 + r.key.length
/-- The indices of a record's span (10 R255). -/
def KeyRec.lines (r : KeyRec) : Nat := (r.size + 127) / 128
/-- The frames of a record in the sealed store (10 R255). -/
def KeyRec.frames (r : KeyRec) : Nat := (r.size + 511) / 512
/-- FLAGS.COUNTED. -/
def KeyRec.counted (r : KeyRec) : Bool := decide (r.flags % 2 = 1)
/-- FLAGS.WRAPPABLE. -/
def KeyRec.wrappable (r : KeyRec) : Bool := decide (r.flags / 2 % 2 = 1)
/-- FLAGS.INTERNAL. -/
def KeyRec.internal (r : KeyRec) : Bool := decide (r.flags / 4 % 2 = 1)
/-- FLAGS.STUCK. -/
def KeyRec.stuck (r : KeyRec) : Bool := decide (r.flags / 8 % 2 = 1)
/-- The USE bit `n` of 10 Table 10.4. -/
def KeyRec.useBit (r : KeyRec) (n : Nat) : Bool := decide (r.use / 2 ^ n % 2 = 1)

/-- The image of a record: its header, little-endian, and its key material (10 R257, R258). -/
def KeyRec.image (r : KeyRec) : List Byte :=
  leBytes 2 r.type ++ leBytes 2 r.key.length ++ leBytes 2 r.hchk ++ leBytes 2 r.flags ++ leBytes 4 r.version ++
  leBytes 2 r.use ++ leBytes 2 r.svclo ++ leBytes 2 r.svchi ++ List.replicate 6 0 ++ leBytes 8 r.rqmask ++
  leBytes 8 r.count ++ leBytes 8 r.limit ++ leBytes 8 r.ceil ++ List.replicate 8 0 ++ r.key

/-- The record that an image spells. -/
def recOfImage (b : List Byte) : KeyRec :=
  { type := leAt b 0 2, hchk := leAt b 4 2, flags := leAt b 6 2, version := leAt b 8 4, use := leAt b 12 2,
    svclo := leAt b 14 2, svchi := leAt b 16 2, rqmask := leAt b 24 8, count := leAt b 32 8, limit := leAt b 40 8,
    ceil := leAt b 48 8, key := slice b 64 (leAt b 2 2) }

/-- The frames of a record as bytes: its image filled with zeros to whole frames. -/
def KeyRec.frameBytes (r : KeyRec) : List Byte := padTo (512 * r.frames) r.image

/-- The record at an index; TYPE 0 marks an empty one. -/
def State.recAt (s : State) (i : Nat) : KeyRec := sget {} s.kst.records i
/-- An index holds a record. -/
def State.hasRec (s : State) (i : Nat) : Bool := decide ((s.recAt i).type ≠ 0)
/-- Replace the record at an index. -/
def State.setRec (s : State) (i : Nat) (r : KeyRec) : State :=
  { s with kst := { s.kst with records := sput {} s.kst.records i r } }

/-- The latest frames of an index that the NAND log holds (10 R266). -/
def State.sealedAt (s : State) (i : Nat) : SealedRec :=
  ((s.kst.tail.filter fun e => decide (e.index = i)).getLast?).getD (sget {} s.kst.sealedRecs i)

/-- The latest frames of an index fail verification from now on. -/
def State.spoilFrames (s : State) (i : Nat) : State :=
  if s.kst.tail.any fun e => decide (e.index = i) then
    let n := (s.sealedAt i).lsn
    { s with kst := { s.kst with tail := s.kst.tail.map fun e => if e.lsn = n then { e with bad := true } else e } }
  else if (s.sealedAt i).image.type = 0 then s
  else { s with kst := { s.kst with sealedRecs := sput {} s.kst.sealedRecs i { s.sealedAt i with bad := true } } }

/-- The hot regions that the lines of a span at index `i` lie in, one or two (10 R256, R265). -/
def State.regionsOf (s : State) (i lines : Nat) : List Nat :=
  ([i / 4096, (i + lines - 1) / 4096].eraseDups).filter fun n => decide (n * 4096 < (s.rd KST_HOTLINES).toNat)

/-- What the key cache holds of the record at an index. -/
def State.cachedAt (s : State) (i : Nat) : Option Cached := sget none s.kst.cached i
/-- Replace the cache's view of a record. -/
def State.setCached (s : State) (i : Nat) (c : Option Cached) : State :=
  { s with kst := { s.kst with cached := sput none s.kst.cached i c } }

/-- A dirty pin: frames not yet programmed, or a hot region not yet refreshed (10 R267). -/
def Cached.dirtyPin (c : Cached) : Bool := decide (0 < c.dirty) || !c.refreshing.isEmpty

/-- A record with a fixed, bound or dirty pin is never replaced (10 R268). -/
def Cached.pinned (c : Cached) : Bool := c.fixed.isSome || decide (0 < c.binds) || c.dirtyPin

/-- The lines of a cached record at an index. -/
def State.linesAt (s : State) (i : Nat) : Nat := (s.recAt i).lines

/-- The lines of the cache's entries that satisfy `p`. -/
def State.cacheLines (s : State) (p : Cached → Bool) : Nat :=
  (s.kst.cached.map fun e => match e.2 with
    | some c => if p c then s.linesAt e.1 else 0
    | none => 0).sum

/-- The lines of the key cache (01 R29). -/
def cacheCapacity : Nat := 524288

/-- The unpinned record least recently used. -/
def State.lruVictim (s : State) : Option Nat :=
  ((s.kst.cached.filterMap fun e => match e.2 with
    | some c => if c.pinned then none else some (e.1, c.lastUse)
    | none => none).foldl
      (fun best e => match best with
        | none => some e
        | some b => if e.2 < b.2 then some e else some b) none).map (·.1)

/-- Drop unpinned records, least recently used first, until `need` lines are free; at most `n` of them. -/
def State.makeRoom (s : State) (need : Nat) : Nat → State
  | 0 => s
  | n + 1 =>
    if s.cacheLines (fun _ => true) + need ≤ cacheCapacity then s
    else match s.lruVictim with
      | none => s
      | some i => (s.setCached i none).makeRoom need n

/-- Bring the record at an index into the key cache, or mark its use. -/
def State.install (s : State) (i : Nat) : State :=
  let s := { s with kst := { s.kst with useClock := s.kst.useClock + 1 } }
  match s.cachedAt i with
  | some c => s.setCached i (some { c with lastUse := s.kst.useClock })
  | none => (s.makeRoom (s.linesAt i) s.kst.cached.length).setCached i (some { lastUse := s.kst.useClock })

/-- The record pinned in a fixed slot, with its index (10 R261). -/
def State.fixedRec (s : State) (slot : Nat) : Option (Nat × KeyRec) :=
  (s.kst.cached.find? fun e => match e.2 with
    | some c => decide (c.fixed = some slot)
    | none => false).map fun e => (e.1, s.recAt e.1)

/-- The record held in a binding slot. -/
def State.boundRec (s : State) (slot : Nat) : Option (Nat × KeyRec) :=
  (s.kst.cached.find? fun e => match e.2 with
    | some c => decide (c.bindSlot = some slot)
    | none => false).map fun e => (e.1, s.recAt e.1)

/-- The record in a fixed slot as a reader of its key material gets it: none where a word of it holds a double-bit error
(01 R15). -/
def State.fixedKey (s : State) (slot : Nat) : Option (Nat × KeyRec) := if s.slotBad slot then none else s.fixedRec slot

/-- The number of a context's transient slot TS0 or TS1 (10 R261). -/
def tsSlot (c k : Nat) : Nat := 0x4000 + 2 * c + k

/-- The content of a transient slot. -/
def State.transient (s : State) (slot : Nat) : Transient := sget {} s.kst.transient slot
/-- Replace the content of a transient slot. -/
def State.setTransient (s : State) (slot : Nat) (t : Transient) : State :=
  { s with kst := { s.kst with transient := sput {} s.kst.transient slot t },
           damaged := sput false s.damaged (slotKey slot) false }

/-- A record of these lines at index `i` would meet a record or reach NIDX (10 R255, R264). -/
def State.spanBusy (s : State) (i lines : Nat) : Bool :=
  decide ((s.rd KST_NIDX).toNat < i + lines) ||
  s.kst.records.any fun e => decide (e.2.type ≠ 0 ∧ e.1 < i + lines ∧ i < e.1 + e.2.lines)

/-- What an index can be fetched from (10 R254). -/
inductive Tier where
  | none | cache | hot | seal
  deriving DecidableEq, Repr

/-- The tier that KST reports for an index during a decision (10 R254). -/
def State.tier (s : State) (i : Nat) : Tier :=
  if (s.rd KST_NIDX).toNat ≤ i || !(s.kst.records.any fun e => decide (e.2.type ≠ 0 ∧ e.1 / 4096 = i / 4096)) then .none
  else if (s.cachedAt i).isSome then .cache
  else if s.on KST_CTRL_HOT_EN && decide (i < (s.rd KST_HOTLINES).toNat) && !(s.recAt i).counted &&
      (s.regionsOf i (s.linesAt i)).all (fun n => sget false s.kst.hotValid n) then .hot
  else .seal

/-- The fetch of a record is counted by its tier (19 Table 19.4). -/
def State.countFetch (s : State) (i : Nat) : State :=
  match s.tier i with
  | .hot => s.count 0x051 1
  | .seal => s.count 0x052 1
  | _ => s

/-- A handle matches the record at its INDEX (10 R260). -/
def State.handleMatches (s : State) (h : Nat) : Bool :=
  let r := s.recAt (handleIndex h)
  handleOk h && decide (r.type ≠ 0) && decide (r.hchk = handleCheck h) && decide (r.version % 256 = handleVersion h)

end Sys2Proof.Machine
end

