-- ==== Sys2Proof/Machine/Ledger.lean ====
section
/-!
DEFINITION. Machine/Ledger.lean: the pools and their units (03 R70, R71), the blocking terms (03 R72), tempo (03 R83),
the ledger of contexts and its order (03 R73), and the ends of a context (03 R79, R84; 06 R174-R177; 04 R133).
-/

namespace Sys2Proof.Machine

/-! ### Banks -/

/-- The active bank (03 R69). -/
def State.bank (s : State) : Nat := s.fget ADM_STAT_BANK
/-- A register of bank `b`. -/
def State.rdb (s : State) (b a : Nat) : Nat := (s.rd (bankAddr b a)).toNat
/-- A field of a register of bank `b`. -/
def State.fgetb (s : State) (b : Nat) (f : Fld) : Nat := bitsOf (s.rd (bankAddr b f.addr)) f.lo f.width

/-! ### Pools -/

/-- The lowest `width` bits of `n` that are 1, counted. -/
def popNat (n : Nat) : Nat → Nat
  | 0 => 0
  | w + 1 => n % 2 + popNat (n / 2) w

/-- The cipher engines whose bit is set in a unit register (08 R225). -/
def State.cphSet (s : State) (a : Nat) (u : Nat) : Bool := (s.rd a).getLsbD u
/-- The modular units whose bit is set in a unit register array (09 R252). -/
def State.mauSet (s : State) (a : Nat → Nat) (u : Nat) : Bool := (s.rd (a (u / 32))).getLsbD (u % 32)
/-- The units counted in a cipher-engine register. -/
def State.cphCount (s : State) (a : Nat) : Nat := popNat (s.rd a).toNat 18
/-- The units counted in a modular-unit register array. -/
def State.mauCount (s : State) (a : Nat → Nat) : Nat :=
  popNat (s.rd (a 0)).toNat 32 + popNat (s.rd (a 1)).toNat 32 + popNat (s.rd (a 2)).toNat 32 +
    popNat (s.rd (a 3)).toNat 32 + popNat (s.rd (a 4)).toNat 32

/-- The active units of a pool (03 R71, Table 3.2). -/
def State.activeUnits (s : State) (p : Nat) : Nat :=
  match p with
  | 0 => 64
  | 1 => s.cphCount CPH_ACTIVE
  | 2 => s.mauCount MAU_ACTIVE
  | 3 => 32
  | 4 => 32
  | 5 => if s.on SVC_PORTCFG_P3_HOST then 1 else 2
  | _ => 1

/-- The spares of a pool. -/
def State.spareUnits (s : State) (p : Nat) : Nat :=
  match p with
  | 1 => s.cphCount CPH_SPARE
  | 2 => s.mauCount MAU_SPARE
  | _ => 0

/-- MEFF (03 R71). -/
def State.meff (s : State) (p : Nat) : Nat :=
  if p = 1 ∨ p = 2 then (if 0 < s.spareUnits p then s.activeUnits p else s.activeUnits p - 1) else s.activeUnits p

/-- FAST of the active bank. -/
def State.fastUnits (s : State) (p : Nat) : Nat := s.fgetb s.bank (ADM_POOL_CFG_FAST p)
/-- G, the general units. -/
def State.general (s : State) (p : Nat) : Nat := s.meff p - s.fastUnits p
/-- L, the long-stage cap. -/
def State.longCap (s : State) (p : Nat) : Nat := min (s.fgetb s.bank (ADM_POOL_CFG_LONG_CAP p)) (s.general p)

/-- The `k` lowest numbers below `n` for which `p` holds. -/
def firstUnits (p : Nat → Bool) (n k : Nat) : List Nat := ((List.range n).filter p).take k

/-- A bitmap of numbers. -/
def maskOf (l : List Nat) : Word := l.foldl (fun m u => m ||| (1#64 <<< u)) 0

/-- The numbers of word `k` of a bitmap of 32-bit words. -/
def maskPart (l : List Nat) (k : Nat) : Word := maskOf ((l.filter fun u => decide (u / 32 = k)).map (· % 32))

/-- The FAST roles go to the lowest-numbered active units (08 R221, 09 R226). -/
def State.assignFast (s : State) : State :=
  let cph := firstUnits (s.cphSet CPH_ACTIVE) 18 (s.fastUnits 1)
  let mau := firstUnits (s.mauSet MAU_ACTIVE) 136 (s.fastUnits 2)
  (List.range 5).foldl (fun s k => s.wr (MAU_FASTROLE k) (maskPart mau k)) (s.wr CPH_FASTROLE (maskOf cph))

/-- The worst-corner cost of a stage in hundredths of a ns: an SC cost counts instructions of 2.5 ns (03 R70). -/
def costHundredths (pool cost : Nat) : Nat := if pool = 0 then cost * 250 else cost * 100

/-- A stage of this cost is long in bank `b` (03 R72). -/
def State.isLong (s : State) (b pool cost : Nat) : Bool :=
  decide ((s.fgetb b (ADM_POOL_LONG_NS_LONG_NS pool)) * 100 < costHundredths pool cost)

/-- Division rounded up. -/
def cdiv (a b : Nat) : Nat := (a + b - 1) / b

/-- The tempo factor of a pool for a class, Q16.16 (03 R72, R83). -/
def State.factor (s : State) (pool cls : Nat) : Nat :=
  if pool ≤ 2 then
    let f := (s.rd (ADM_TEFF pool)).toNat
    if 4 ≤ cls ∧ cls ≤ 6 then max f 0x10000 else f
  else 0x10000

/-- A time in hundredths of a ns, scaled by a Q16.16 factor and rounded up to whole ns (03 R76). -/
def scaleNs (h f : Nat) : Nat := cdiv (h * f) (100 * 65536)

/-- The three blocking terms of a pool for a class: BS, BL, BF, the larger of both banks while old entries live
(03 R72). -/
def State.terms (s : State) (pool cls : Nat) (oldLive : Bool) : Nat × Nat × Nat :=
  let t := s.adm.terms.getD pool (0, 0, 0)
  let o := if oldLive then s.adm.oldTerms.getD pool (0, 0, 0) else (0, 0, 0)
  let f := s.factor pool cls
  (scaleNs (max t.1 o.1) f, scaleNs (max t.2.1 o.2.1) f, scaleNs (max t.2.2 o.2.2) f)

/-! ### Cost entries and dispatch entries of a bank (03 R74, 06 R182) -/

/-- A word of the cost entry of a service in bank `b`. -/
def State.costWord (s : State) (b svc w : Nat) : Nat := s.rdb b (ADM_COST svc w)
/-- A word of the dispatch entry of a service in bank `b`. -/
def State.dispWord (s : State) (b svc w : Nat) : Nat := s.rdb b (DSP_DISP svc w)

/-- A cost entry (03 Table 3.4). -/
structure CostEntry where
  rand : Bool
  state : Bool
  respMax : Nat
  lpath : Nat
  stages : List (Nat × Nat)
  deriving DecidableEq, Repr

/-- The built-in entry of NOP (02 R53). -/
def nopCost : CostEntry := { rand := false, state := false, respMax := 0, lpath := 10, stages := [(0, 6)] }

/-- Bits of a natural number. -/
def natBits (n lo width : Nat) : Nat := n / 2 ^ lo % 2 ^ width

/-- The cost entry of a service in bank `b`, where it is valid. -/
def State.costEntry (s : State) (b svc : Nat) : Option CostEntry :=
  if svc = 1 then some nopCost
  else if 0x10 ≤ svc ∧ svc ≤ 0xFFF ∧ natBits (s.costWord b svc 0) 31 1 = 1 then
    let w0 := s.costWord b svc 0
    some { rand := decide (natBits w0 30 1 = 1), state := decide (natBits w0 29 1 = 1), respMax := natBits w0 0 14,
           lpath := natBits (s.costWord b svc 1) 0 20,
           stages := (List.range (natBits w0 24 3)).map fun i =>
             let w := s.costWord b svc (2 + i)
             (natBits w 28 4, natBits w 0 27) }
  else none

/-! ### The ledger -/

/-- Ledger entries in use: every context that is not FREE holds one (01 R20). -/
def State.used (s : State) : Nat := s.live.length

/-- Contexts of the previous epoch that are live: those bound to the inactive bank (03 R69, 06 R185). -/
def State.oldLive (s : State) : Nat := (s.live.filter fun e => decide (e.2.bank ≠ s.bank)).length

/-- Entry `a` ranks before `b`: by key, D7 last, then by the order of decision (03 R73). -/
def Ctx.before (a b : Ctx) : Bool :=
  match a.key, b.key with
  | some x, some y => decide (x < y) || (decide (x = y) && decide (a.order < b.order))
  | some _, none => true
  | none, some _ => false
  | none, none => decide (a.order < b.order)

/-- The entry of least key of a list. -/
def firstByKey : List (Nat × Ctx) → Option (Nat × Ctx)
  | [] => none
  | e :: t => match firstByKey t with
    | none => some e
    | some m => if m.2.before e.2 then some m else some e

/-- Mark the first uncompleted stage of an entry that `p` picks as completed: its charge leaves the pool (03 R79). -/
def completeStage (p : LStage → Bool) : List LStage → List LStage
  | [] => []
  | x :: t => if p x && !x.done then { x with done := true } :: t else x :: completeStage p t

/-- Mark the first unstarted stage that `p` picks as started. -/
def startStage (p : LStage → Bool) : List LStage → List LStage
  | [] => []
  | x :: t => if p x && !x.done && !x.started then { x with started := true } :: t else x :: startStage p t

/-- The stages of a pool that are under way, over all live entries, restricted to those that satisfy `p`. -/
def State.running (s : State) (pool : Nat) (p : Ctx → LStage → Bool) : Nat :=
  (s.live.map fun e =>
    (e.2.stages.filter fun x => decide (x.pool = pool) && x.started && !x.done && p e.2 x).length).sum

/-- The best-effort fetches that units of the pool run, restricted to those that satisfy `p` (03 R80). -/
def State.beRunning (s : State) (pool : Nat) (p : LStage → Bool) : Nat :=
  (s.adm.beRun.filter fun x => decide (x.2.pool = pool) && p x.2).length

/-- A unit of the pool may take the stage `x` of the entry `c`: FAST units run only fast-class entries, and a long
stage starts only under the long cap (03 Table 3.3). -/
def State.mayRun (s : State) (pool : Nat) (c : Ctx) (x : LStage) : Bool :=
  decide (s.running pool (fun _ _ => true) + s.beRunning pool (fun _ => true) < s.meff pool) &&
  (c.fast || decide (s.running pool (fun c' _ => !c'.fast) + s.beRunning pool (fun _ => true) < s.general pool)) &&
  (!x.long || decide (s.running pool (fun _ x' => x'.long) + s.beRunning pool LStage.long < s.longCap pool))

/-- The first uncompleted, unstarted stage of a pool. -/
def nextStage (x : Ctx) (pool : Nat) : Option LStage :=
  x.stages.find? fun l => decide (l.pool = pool) && !l.done && !l.started

/-- A unit of the pool may take the entry's next stage in it. -/
def State.nextMayRun (s : State) (pool : Nat) (x : Ctx) : Bool :=
  match nextStage x pool with
  | some l => s.mayRun pool x l
  | none => false

/-! ### The context area (06 Tables 6.1, 6.2) -/

/-- The start of the area of context `c`. -/
def areaBase (c : Nat) : Nat := 0x10000000 + 0x6000 * c

/-- Bytes of the service memory. -/
def State.svcRead (s : State) (a n : Nat) : List Byte := prvRead s.dsp.mem a n

/-- Store bytes into the service memory; their granules lose their tags. -/
def State.svcWrite (s : State) (a : Nat) (bs : List Byte) : State :=
  { s with
    damaged := healed s.damaged .ctx a bs.length
    dsp := { s.dsp with
      mem := prvWrite s.dsp.mem a bs,
      tags := tagClear s.dsp.tags (a / 16) (if bs.isEmpty then 0 else (a + bs.length - 1) / 16 - a / 16 + 1) } }

/-- Clear the area of context `c`, its tags with it (06 Table 6.5). -/
def State.clearArea (s : State) (c : Nat) : State :=
  { s with damaged := healed s.damaged .ctx (areaBase c) 0x6000, dsp := { s.dsp with
      mem := s.dsp.mem.filter fun e => !(decide (areaBase c ≤ e.1) && decide (e.1 < areaBase c + 0x6000)),
      tags := s.dsp.tags.filter fun e =>
        !(decide (areaBase c / 16 ≤ e.1) && decide (e.1 < areaBase c / 16 + 0x600)) } }

/-! ### Ends -/

/-- Abort commands of context `c` (04 R133, 09 R246): waiting commands leave their queues, a cipher engine clears itself
at once, and their stages complete; a modular unit begins its clearing, and for ADM its stage completes when it reports
idle, so the unit holds the charge from here on. A cipher engine's busy time ends here (19 R418). -/
def State.abortWhere (s : State) (c : Nat) (p : EngCmd → Bool) : State :=
  let mine := fun (x : EngCmd) => decide (x.ctx = c) && p x
  let hits := (s.cphQ ++ s.mauQ ++ s.cph.filterMap (·.2.cmd) ++ s.mau.filterMap (·.2.cmd) ++
    s.mauBuf.filterMap (·.cmd)).filter mine
  let x := s.ctx c
  let isHit := fun (l : LStage) => decide (l.pool = 1 ∨ l.pool = 2) && hits.any fun e => decide (e.index = l.index)
  let keeps := fun (e : Nat × EngUnit) => match e.2.cmd with
    | some k => !mine k
    | none => true
  let busy := s.busyNow (s.cph.filter fun e => !keeps e)
  let mau := s.mau.map fun e => match e.2.cmd with
    | some k =>
      if mine k then (e.1, { e.2 with cmd := none, key := none, plain := none, om := none, clearing := some k,
                                      held := (x.stages.find? fun l => decide (l.pool = 2 ∧ l.index = k.index) && !l.done).map
                                        fun l => (x.key, x.fast, l) })
      else e
    | none => e
  let s := { s with
    cphQ := s.cphQ.filter (fun k => !mine k)
    mauQ := s.mauQ.filter (fun k => !mine k)
    mauBuf := s.mauBuf.filter fun u => match u.cmd with
      | some k => !mine k
      | none => true
    cph := s.cph.filter keeps
    mau := mau }
  (s.countBusy 0x057 busy).setCtx c { x with stages := x.stages.map fun l => if isHit l then { l with done := true } else l }

/-- Abort every ticket of context `c`. -/
def State.abortAll (s : State) (c : Nat) : State := s.abortWhere c fun _ => true

/-- Release the pin of the record that a context bound (06 R172, 10 R261). -/
def State.unbind (s : State) (i : Nat) : State :=
  match s.cachedAt i with
  | none => s
  | some x =>
    let s := if x.binds ≤ 1 then s.slotHealed (x.bindSlot.getD 0) else s
    s.setCached i (some { x with binds := x.binds - 1, bindSlot := if x.binds ≤ 1 then none else x.bindSlot })

/-- An instruction that context `c` had issued does not retire: the context was cancelled or stopped while it ran (19 R419,
class 1). -/
def State.wasted (s : State) (c : Nat) : State :=
  match (s.ctx c).core with
  | some k => s.count (0x101 + 4 * k.val) 1
  | none => s

/-- The context becomes FREE: area, staging words and tickets cleared, TS0 and TS1 cleared, pin and ledger entry
released (06 Table 6.5). -/
def State.freeCtx (s : State) (c : Nat) : State :=
  let x := s.ctx c
  let s := (s.wasted c).abortAll c
  let s := match x.bound with
    | some i => s.unbind i
    | none => s
  let s := (s.clearArea c).setTransient (tsSlot c 0) {}
  let s := s.setTransient (tsSlot c 1) {}
  let s := { s with dsp := { s.dsp with regs := sput {} s.dsp.regs c {} } }
  s.setCtx c {}

/-- The SC stage or the fetch under way ends with its entry: its unit is free (03 Table 3.3). -/
def stagesEnd (l : List LStage) : List LStage :=
  l.map fun x => if x.started ∧ (x.pool = 0 ∨ x.pool = 3 ∨ x.pool = 4) then { x with done := true } else x

/-- The context is ENDING with the response `r`, whose descriptor is written now (06 Table 6.5). -/
def State.endWith (s : State) (c : Nat) (r : Response) (grant : Bool := true) : State :=
  let s := (s.wasted c).abortAll c
  let x := s.ctx c
  s.setCtx c { x with st := .ending, core := none, await := none, tickets := [], resp := some r, respAt := s.tb,
                      grantable := grant, stages := stagesEnd x.stages }

/-- A FAULT answer whose DETAIL names block and instance (02 Table 2.7). -/
def faultResp (block inst : Nat) : Response := { status := 0x39, detail := block * 0x10000 + inst }

/-- A NO_LANTERN answer. -/
def noLanternResp : Response := { status := 0x11 }

/-- The state-changing entry has not committed: it is not past its END, and no MIRROR of it was applied (06 R175,
12 R300). -/
def Ctx.uncommitted (x : Ctx) : Bool := x.isState && !x.committed

/-- The Lantern falls for the uncommitted STATE entry `c`: it is answered NO_LANTERN. Table 6.5 has no row for it in
FETCH, which the event therefore leaves (00 R10): the entry ends when its fetch has made it READY (log entry 14). -/
def State.endUnlit (s : State) (c : Nat) : State :=
  if (s.ctx c).st = .fetch then s.setCtx c { s.ctx c with fell := true } else s.endWith c noLanternResp

/-- LANTERN fell to 0b00: every admitted STATE entry that has not committed is answered NO_LANTERN (03 R88; 06
Table 6.5). An entry that is ENDING already has its answer. -/
def State.lanternFell (s : State) : State :=
  (s.live.filter fun e => e.2.uncommitted && decide (e.2.st ≠ .ending)).foldl (fun s e => s.endUnlit e.1) s

/-- Set ADM_STAT.LANTERN; a fall to 0b00 ends the uncommitted STATE entries (03 R88). -/
def State.setLantern (s : State) (v : Nat) : State :=
  let old := s.fget ADM_STAT_LANTERN
  let s := s.fset ADM_STAT_LANTERN v
  if v = 0 ∧ old ≠ 0 then s.lanternFell else s

/-- The response of a context whose image sets STATE or not becomes grantable. -/
def State.grantable (s : State) (c : Nat) : State := s.setCtx c { s.ctx c with grantable := true }

/-- The write of a ticket's completion word (04 R131): the ticket completes, and a context parked on it becomes READY
(06 Table 6.5). -/
def State.postTicket (s : State) (c t : Nat) (w : Word) : State :=
  let x := s.ctx c
  if sget .free x.tickets t = .outstanding then
    let wake := decide (x.st = .parked) && (match x.await with
      | some (t', _) => decide (t' = t)
      | none => false)
    s.setCtx c { x with tickets := sput .free x.tickets t (.done w), st := if wake then .ready else x.st,
                        resumed := if wake then true else x.resumed }
  else s

end Sys2Proof.Machine
end

