-- ==== Sys2Proof/Machine/DuoLink.lean ====
section
/-!
DEFINITION. Machine/DuoLink.lean: the peer messages of the duo (12 R290), the sealing of their bodies (12 R462), journal
entries (10 R271) and MIRRORs (12 R299), and when the device can claim (12 Table 12.5).
-/

namespace Sys2Proof.Machine

/-! ### Journal entries and MIRROR bodies -/

/-- The header of a journal entry (10 R271), most significant byte first (00 R4). -/
def JEntry.header (e : JEntry) : List Byte :=
  beBytes 8 e.jseq ++ beBytes 8 e.index ++ [BitVec.ofNat 8 e.op, BitVec.ofNat 8 e.image.frames, 0, 0] ++
  beBytes 4 e.devid ++ beBytes 4 e.image.version ++ List.replicate 36 0

/-- A journal entry with its frames unsealed, as a MIRROR body holds it (12 R299). -/
def JEntry.plain (e : JEntry) : List Byte := e.header ++ e.image.frameBytes

/-- The journal entry that a header and frames spell. -/
def entryOf (h frames : List Byte) : JEntry :=
  { jseq := beAt h 0 8, index := beAt h 8 8, op := beAt h 16 1, devid := beAt h 20 4, image := recOfImage frames }

/-- The entries at the start of a MIRROR body's entry part, and what follows them. -/
def entriesOf : Nat → List Byte → List JEntry × List Byte
  | 0, b => ([], b)
  | n + 1, b =>
    let h := b.take 64
    let k := 512 * beAt h 17 1
    let r := entriesOf n (b.drop (64 + k))
    (entryOf h (slice b 64 k) :: r.1, r.2)

/-- The body of a MIRROR (12 R299). -/
def mirrorBody (requester seq : Nat) (es : List JEntry) (tail : List Byte) : List Byte :=
  beBytes 4 requester ++ [0, 0, 0, 0] ++ beBytes 8 seq ++ [BitVec.ofNat 8 es.length] ++ List.replicate 7 0 ++
  (es.map JEntry.plain).flatten ++ tail

/-- The MIRROR that a body spells: a body that ends with its entries carries no response (10 R269). -/
def mirrorOf (jseq : Nat) (b : List Byte) : Mirror :=
  let r := entriesOf (beAt b 16 1) (b.drop 24)
  { jseq := jseq, requester := beAt b 0 4, seq := beAt b 8 8, entries := r.1,
    resp := if r.2.length < 40 then none
      else some { status := beAt r.2 5 1, detail := beAt r.2 28 4, result := beAt r.2 32 8,
                  payload := slice r.2 40 (beAt r.2 6 2) } }

/-! ### Sealing (12 R462) -/

/-- SVC_DEVID. -/
def State.devid (s : State) : Nat := (s.rd SVC_DEVID).toNat

/-- The duo journal key: the SECRET record of 32 bytes in the fixed slot that DUO_JKEY names. -/
def State.journalKey (s : State) : Option (List Byte) :=
  match s.fixedKey (s.fget DUO_JKEY_SLOT) with
  | some (_, r) => if r.type = 0x60 ∧ r.key.length = 32 then some r.key else none
  | none => none

/-- The customisation string of the session key: LANTERN SEAL. -/
def lanternSeal : List Byte := [0x4C, 0x41, 0x4E, 0x54, 0x45, 0x52, 0x4E, 0x20, 0x53, 0x45, 0x41, 0x4C]

/-- The session key of a sender: KMAC256 of the journal key over SALT and DEVID. -/
def sessionKey (jkey : List Byte) (salt devid : Nat) : List Byte :=
  kmac 136 32 jkey lanternSeal (beBytes 16 salt ++ beBytes 4 devid)

/-- The AAD of a sealed body: the VER and TYPE byte, DEVID, JSEQ. -/
def sealAad (typ devid jseq : Nat) : List Byte := [BitVec.ofNat 8 (0x10 + typ)] ++ beBytes 4 devid ++ beBytes 8 jseq

/-- A sealed body: SALT, CTR, ciphertext, tag. -/
def sealedBody (jkey : List Byte) (salt ctr devid typ jseq : Nat) (body : List Byte) : List Byte :=
  let r := gcmSeal (sessionKey jkey salt devid) (beBytes 4 devid ++ beBytes 8 ctr) (sealAad typ devid jseq) body
  beBytes 16 salt ++ beBytes 8 ctr ++ r.1 ++ r.2

/-- Open a sealed body; a body whose tag fails opens to nothing. -/
def openBody (jkey : List Byte) (devid typ jseq : Nat) (b : List Byte) : Option (List Byte) :=
  if b.length < 40 then none
  else gcmOpen (sessionKey jkey (beAt b 0 16) devid) (beBytes 4 devid ++ slice b 16 8) (sealAad typ devid jseq)
    ((b.drop 24).take (b.length - 40)) (b.drop (b.length - 16))

/-- A journal entry as the ring holds it: its header, then its frames sealed with the holder's SALT and CTR. -/
def JEntry.stored (e : JEntry) (jkey : List Byte) : List Byte :=
  e.header ++ sealedBody jkey (e.salt.getD 0).toNat e.ctr e.devid 7 e.jseq e.image.frameBytes

/-! ### Sending -/

/-- Enabled, apart from the wait of a release (12 Table 12.5). -/
def State.duoEnabled (s : State) : Bool :=
  s.on DUO_CTRL_EN && !s.on DUO_CTRL_LEAVE && (decide (s.sys.mode = .service) || decide (s.sys.mode = .custody)) &&
  s.on KST_STAT_MOUNTED

/-- `n` ns have passed since a recorded time. -/
def State.since (s : State) (t : Option Nat) (n : Nat) : Bool :=
  match t with
  | none => true
  | some x => decide (x + n ≤ s.tb)

/-- The peer's DNUM is compared with DSP_EPOCH.NUM, whichever of them has changed (12 R307). -/
def State.judgeSkew (s : State) : State :=
  { s with duo := { s.duo with skewSince :=
      match s.duo.peerDnum with
      | none => none
      | some d => if d = s.fget DSP_EPOCH_NUM then none else s.duo.skewSince.orElse fun _ => some s.tb } }

/-- Something was heard within the last 8 us (12 R288). -/
def State.within (s : State) (t : Option Nat) (n : Nat) : Bool :=
  match t with
  | none => false
  | some x => decide (s.tb < x + n)

/-- The peer has been heard on some path within 8 us. -/
def State.peerHeard (s : State) : Bool :=
  s.within s.duo.heardP2 8000 || s.within s.duo.heardP3 8000 || s.within s.duo.heardLease 8000

/-- The conditions of 12 Table 12.5 apart from silence. -/
def State.claimable (s : State) : Bool :=
  s.duoEnabled && s.since s.duo.releaseSent 24000 &&
  (s.on DUO_STAT_SYNCED || s.on DUO_CTRL_FORCE) && !s.on DUO_STAT_DIVERGED && !s.on DUO_STAT_STUCK &&
  !(s.within s.duo.claimableAt 8000 && decide (s.devid < s.fget DUO_PEER_DEVID_DEVID))

/-- ROLE is 0b01: this device holds the Lantern. -/
def State.holds (s : State) : Bool := decide (s.fget DUO_STAT_ROLE = 1)

/-- DFLAGS of a peer message (12 Table 12.4); CLAIMABLE is a STATUS's bit, as in 12 Table 12.2 (log entry 72). -/
def State.dflags (s : State) (typ : Nat) (release : Bool) : Nat :=
  let leave := s.on DUO_CTRL_LEAVE
  (if s.holds then 1 else 0) + (if s.on DUO_STAT_SYNCED && !leave then 2 else 0) + (if typ = 3 ∧ s.claimable then 4 else 0) +
  (if release then 8 else 0) + (if s.on DUO_STAT_SOLO then 16 else 0)

/-- The header of a peer message (12 Table 12.4). -/
def State.peerHeader (s : State) (typ rseq jseq seg nseg plen : Nat) (release : Bool) : List Byte :=
  [BitVec.ofNat 8 (0x10 + typ), BitVec.ofNat 8 (s.dflags typ release)] ++ beBytes 2 plen ++ beBytes 4 s.devid ++
  beBytes 4 (s.fget DUO_EPOCH_EPOCH) ++ beBytes 4 rseq ++ beBytes 8 jseq ++ beBytes 2 (s.fget DSP_EPOCH_NUM) ++
  [BitVec.ofNat 8 (modeCode s.sys.mode), 0] ++ beBytes 2 seg ++ beBytes 2 nseg

/-- Send one frame of a peer message on a port. The spec does not say which destination address it carries: a free
value (log entry 5). -/
def State.sendPeerFrame (s : State) (port : Fin 4) (head body : List Byte) : State :=
  let s' := s.drawn 1
  s'.transmit port (beBytes 6 ((Config.freeWord s.freeCtr).toNat % 2 ^ 48) ++ beBytes 6 (s.portMac port) ++ [0x88, 0xB5] ++
    head ++ body)

/-- Send the segments of a message: `n` of them from segment `k` on (12 R462). -/
def State.sendSegments (s : State) (port : Fin 4) (typ jseq nseg : Nat) (body : List Byte) (k : Nat) : Nat → State
  | 0 => s
  | n + 1 =>
    let part := slice body (8192 * k) 8192
    (s.sendPeerFrame port (s.peerHeader typ 0 jseq k nseg part.length false) part).sendSegments port typ jseq nseg body
      (k + 1) n

/-- A message without a body on every peer port. -/
def State.sendEveryPort (s : State) (typ rseq jseq : Nat) (release : Bool) : State :=
  let send := fun (s : State) (p : Fin 4) =>
    if s.peerPort p then s.sendPeerFrame p (s.peerHeader typ rseq jseq 0 1 0 release) [] else s
  send (send s 2) 3

/-- The peer port that carries a message the spec gives to no port by name: P2, or P3 while P2 cannot transmit
(log entry 20). -/
def State.peerPath (s : State) : Fin 4 := if s.canSend 2 || !s.peerPort 3 then 2 else 3

/-- A body of a peer message sent whole, in segments. -/
def State.sendBody (s : State) (typ jseq : Nat) (body : List Byte) : State :=
  let nseg := max 1 ((body.length + 8191) / 8192)
  s.sendSegments s.peerPath typ jseq nseg body 0 nseg

/-- Seal a MIRROR's body under a CTR of the session and send it (12 R462). -/
def State.sealMirror (s : State) (jseq ctr : Nat) (body : List Byte) : State :=
  match s.journalKey with
  | none => s
  | some k => s.sendBody 4 jseq (sealedBody k s.duo.salt.toNat ctr s.devid 4 jseq body)

/-- Seal and send the MIRROR of entries, or one that holds none; without the journal key nothing is sent (12 R462), and it
waits while the session's SALT has not been drawn (log entry 70). A commit's MIRROR has the CTR after those of its entries
(log entry 99), and waits for its MACK unless the holder is SOLO (12 R293, R299). -/
def State.sendMirror (s : State) (jseq : Nat) (es : List JEntry) (body : List Byte) : State :=
  if !s.on DUO_CTRL_EN || s.journalKey.isNone then s
  else
    let s := if jseq = 0 || s.on DUO_STAT_SOLO then s
      else { s with duo := { s.duo with unacked := s.duo.unacked ++ [(jseq, s.tb)] } }
    let ctr := (es.getLast?.map fun e => e.ctr + 1).getD s.duo.ctr
    let s := { s with duo := { s.duo with ctr := max s.duo.ctr (ctr + 1) } }
    if s.duo.saltWait then { s with duo := { s.duo with mirrorWait := s.duo.mirrorWait ++ [(jseq, ctr, body)] } }
    else s.sealMirror jseq ctr body

/-- The MIRRORs that waited for the SALT leave in order. -/
def State.sendWaiting (s : State) : List (Nat × Nat × List Byte) → State
  | [] => { s with duo := { s.duo with mirrorWait := [] } }
  | m :: t => (s.sealMirror m.1 m.2.1 m.2.2).sendWaiting t

/-- The session's SALT is drawn: the journal entries sealed since DUO_CTRL.EN rose carry it, and the MIRRORs that waited
leave (12 R462, log entry 70). -/
def State.saltDrawn (s : State) (salt : BitVec 128) : State :=
  State.sendWaiting { s with
    duo := { s.duo with salt := salt, saltWait := false }
    kst := { s.kst with journal := s.kst.journal.map fun e => { e with salt := some (e.salt.getD salt) } } } s.duo.mirrorWait

/-- The response part of a MIRROR: the response with FLAGS 0 (12 R299). -/
def State.mirrorTail (s : State) (x : Ctx) (r : Response) : List Byte :=
  ({ r with flags := 0, ts := none }).bytes x.req s.devid

end Sys2Proof.Machine
end

