-- ==== Sys2Proof/Machine/Commit.lean ====
section
/-!
DEFINITION. Machine/Commit.lean: the binding of a key (06 R172, 10 R262), the raise of CEIL (10 R269), the checks of a
commit list (10 R264), the commit itself (10 R263, R267, R271) and its MIRROR (12 R299).
-/

namespace Sys2Proof.Machine

/-! ### Commits -/

/-- The frames in the log buffer (10 R267). -/
def State.logFrames (s : State) : Nat := (s.kst.log.map LogEntry.frames).sum

/-- Mark the record at an index dirty once more, in the cache, whose content is written anew. -/
def State.dirty (s : State) (i : Nat) : State :=
  let s := s.install i
  match s.cachedAt i with
  | some c =>
    let s := s.setCached i (some { c with dirty := c.dirty + 1 })
    (s.slotHealed (c.fixed.getD 0)).slotHealed (c.bindSlot.getD 0)
  | none => s

/-- A record of the hot range that is kept in the hot store (10 R256). -/
def State.hotImage (s : State) (i : Nat) (r : KeyRec) : Bool :=
  decide (i < (s.rd KST_HOTLINES).toNat) && !r.counted

/-- The journal ring keeps its last entries (10 R271). -/
def State.journalPut (s : State) (e : JEntry) : State :=
  let j := s.kst.journal ++ [e]
  { s with kst := { s.kst with journal := j.drop (j.length - (s.rd KST_JRNCAP).toNat) } }

/-- The hot regions of a changed record's lines are due for a rewrite, which keeps the record pinned (10 R265, R267). -/
def State.askRefresh (s : State) (i lines : Nat) : State :=
  let ns := s.regionsOf i lines
  let s := match s.cachedAt i with
    | some c => s.setCached i (some { c with refreshing := (c.refreshing ++ ns).eraseDups })
    | none => s
  { s with kst := { s.kst with refresh := (s.kst.refresh ++ ns).eraseDups } }

/-- A record is destroyed; its VERSION is kept (10 R260). -/
def State.destroyRec (s : State) (i : Nat) : State :=
  { s.setRec i {} with kst := { (s.setRec i {}).kst with
      deadVersion := sput 0 s.kst.deadVersion i (s.recAt i).version } }

/-- No raise of CEIL goes on for a record that changes destroy. -/
def State.dropRaises (s : State) (cs : List (Nat × Nat × KeyRec)) : State :=
  { s with kst := { s.kst with raises := s.kst.raises.filter fun x =>
      !(cs.any fun c => decide (c.2.2.type = 0 ∧ c.2.1 = x.index)) } }

/-- The CEIL that the latest image of the record at an index carries: that of a raise which is not yet in effect, or else
its own (10 R269). -/
def State.pendingCeil (s : State) (i own : Nat) : Nat :=
  ((s.kst.raises.filter fun x => decide (x.index = i)).map CeilRaise.ceil).foldl max own

/-- Apply the image of one journal entry: the record as the device sees it, dirty in the cache, sealed into the log
buffer, its hot regions due for a rewrite, and in the journal ring (10 R265, R267, R271). An image of TYPE 0 is a
destroyed record. A raise of CEIL is not seen by the device before it takes effect. -/
def State.applyEntry (s : State) (e : JEntry) (seen : Bool := true) : State :=
  let old := s.recAt e.index
  let raised := s.kst.raises.any fun x => decide (x.index = e.index)
  let s := if seen then
      (if e.image.type = 0 then s.destroyRec e.index
       else s.setRec e.index (if raised then { e.image with ceil := old.ceil } else e.image))
    else s
  let s := s.dirty e.index
  let s := { s with kst := { s.kst with log := s.kst.log ++ [({ jseq := e.jseq, index := e.index, image := e.image, frames := max 1 e.image.frames } : LogEntry)] } }
  let s := if s.hotImage e.index (if e.image.type = 0 then old else e.image) then
      s.askRefresh e.index (max old.lines e.image.lines) else s
  s.journalPut e

/-- There is room in the log buffer for images (10 R267). -/
def State.logHas (s : State) (cs : List (Nat × KeyRec)) : Bool :=
  decide (s.logFrames + (cs.map fun c => max 1 c.2.frames).sum ≤ 8192)

/-- The lines that dirty pins would hold once images stand at their indices, the last one of each index (10 R268). -/
def State.dirtyLines (s : State) (cs : List (Nat × KeyRec)) : Nat :=
  s.cacheLines Cached.dirtyPin + ((cs.map (·.1)).eraseDups.map fun i =>
    let lines := (((cs.filter fun c => decide (c.1 = i)).getLast?).map fun c => c.2.lines).getD 0
    match s.cachedAt i with
    | some x => if x.dirtyPin then lines - s.linesAt i else lines
    | none => lines).sum

/-- There is room in the log buffer, and under the dirty-pin limit, for images at their indices (10 R267, R268). -/
def State.roomFor (s : State) (cs : List (Nat × KeyRec)) : Bool := s.logHas cs && decide (s.dirtyLines cs ≤ 90112)

/-- The entries of the MIRROR that is to be applied next (12 R301, R304). -/
def State.nextMirror (s : State) : List JEntry :=
  match if s.on DUO_STAT_RESYNC then s.duo.buffer.head?
    else s.duo.buffer.find? fun m => decide (m.jseq = (s.rd KST_JSEQ).toNat + 1) with
  | some m => m.entries
  | none => []

/-- KST_STAT.LOGSTALL: the log buffer is full, so that not a frame fits, or not those of the commit or the MIRROR that is
next (10 R267). -/
def State.logFull (s : State) : Bool :=
  decide (8192 ≤ s.logFrames) || !s.logHas ((s.kst.waiting.head?.map fun w => w.changes.map (·.2)).getD []) ||
  !s.logHas (s.nextMirror.map fun e => (e.index, e.image))

/-- A commit need not wait: none waits before it, and there is room for its changes. -/
def State.commitFits (s : State) (cs : List (Nat × Nat × KeyRec)) : Bool :=
  s.kst.waiting.isEmpty && s.roomFor (cs.map (·.2))

/-- One commit: JSEQ is assigned, and every change applies under it (10 R264, R267, R271). Its entries and its MIRROR take
the session's next values of CTR (12 R462, log entry 99). -/
def State.commit (s : State) (cs : List (Nat × Nat × KeyRec)) (seen : Bool := true) : State × List JEntry :=
  let s := s.dropRaises cs
  let j := (s.rd KST_JSEQ).toNat + 1
  let es := cs.mapIdx fun k c => { jseq := j, index := c.2.1, op := c.1, devid := s.devid,
                                   image := { c.2.2 with ceil := s.pendingCeil c.2.1 c.2.2.ceil },
                                   salt := if s.duo.saltWait then none else some s.duo.salt,
                                   ctr := s.duo.ctr + k : JEntry }
  let s := { s with duo := { s.duo with ctr := s.duo.ctr + es.length + 1 } }
  let s := (s.wr KST_JSEQ (BitVec.ofNat 64 j)).count 0x053 1
  (es.foldl (fun s e => s.applyEntry e seen) s, es)

/-! ### The MIR stage -/

/-- The MIR stage of a context waits for a unit. -/
def mirReady (x : Ctx) : Bool := decide (x.st = .ending) && x.mackFor.isSome && (nextStage x 5).isSome

/-- A context's MIRROR is sent (12 R299). -/
def State.sendCommit (s : State) (c : Nat) : State :=
  let x := s.ctx c
  match x.mackFor, x.resp with
  | some j, some r => s.sendMirror j x.commitEntries (mirrorBody x.req.requester x.req.seq x.commitEntries (s.mirrorTail x r))
  | _, _ => s

/-- A free MIR unit takes the ready stage of least key and sends its MIRROR (03 R73, 12 R299). -/
def State.mirStart (s : State) : State :=
  match firstByKey (s.live.filter fun e => mirReady e.2 && s.nextMayRun 5 e.2) with
  | none => s
  | some (c, x) => (s.setCtx c { x with stages := startStage (fun l => decide (l.pool = 5)) x.stages }).sendCommit c

/-- The MIR stage of a context completes: its response can be granted (12 R299). -/
def State.mirDone (s : State) (c : Nat) : State :=
  let x := s.ctx c
  s.setCtx c { x with stages := completeStage (fun l => decide (l.pool = 5)) x.stages, mackFor := none, grantable := true }

/-- A commit of a context has been made under `j`: while SOLO its answer needs no MACK; otherwise the MIR stage
begins (12 R293, R299). -/
def State.afterCommit (s : State) (c : Nat) (es : List JEntry) (j : Nat) : State :=
  let s := s.setCtx c { s.ctx c with mackFor := some j, commitEntries := es }
  if s.on DUO_STAT_SOLO then (s.sendCommit c).mirDone c else s.mirStart

/-- The raises of CEIL that are programmed and acknowledged take effect (10 R269): an acknowledgement is not needed
while the holder is SOLO. -/
def State.raisesTakeEffect (s : State) : State :=
  let ready := fun (x : CeilRaise) => x.programmed && (x.macked || s.on DUO_STAT_SOLO)
  let s' := (s.kst.raises.filter ready).foldl
    (fun s x => if s.hasRec x.index then s.setRec x.index { s.recAt x.index with ceil := x.ceil } else s) s
  { s' with kst := { s'.kst with raises := s.kst.raises.filter (fun x => !ready x) } }

/-- A commit waits for room: KST_EVT.LOGSTALL (10 R267, R268). -/
def State.stallCommit (s : State) (w : WaitingCommit) : State :=
  { s.raise KST_EVT_LOGSTALL with kst := { s.kst with waiting := s.kst.waiting ++ [w] } }

/-- The raise of CEIL of the record at an index, as a commit of its own with REQUESTER and SEQ 0 (10 R269). -/
def State.raiseCeil (s : State) (i : Nat) : State :=
  let r := s.recAt i
  let c := min (r.ceil + 2 ^ s.fget KST_CNTCFG_RSV_LOG2) r.limit
  let img := { r with ceil := c }
  if s.commitFits [(0, i, img)] then
    let (s, es) := s.commit [(0, i, img)] false
    let j := (s.rd KST_JSEQ).toNat
    let s := { s with kst := { s.kst with raises := s.kst.raises ++ [({ index := i, ceil := c, jseq := j } : CeilRaise)] } }
    s.sendMirror j es (mirrorBody 0 0 es [])
  else
    s.stallCommit ⟨none, [(0, i, img)]⟩

/-- A raise is due: NEXT has reached CEIL - RSV / 2, CEIL can rise, and no raise is under way. It is judged at each
binding of the record, so where NEXT has stood there since the mount or the claim the first binding asks for the raise
(log entry 133). -/
def State.raiseDue (s : State) (i : Nat) : Bool :=
  let r := s.recAt i
  decide (r.ceil ≤ sget 0 s.kst.nexts i + 2 ^ s.fget KST_CNTCFG_RSV_LOG2 / 2) && decide (r.ceil < r.limit) &&
  !(s.kst.raises.any fun x => decide (x.index = i)) &&
  !(s.kst.waiting.any fun w => w.ctx.isNone && w.changes.any fun c => decide (c.2.1 = i))

/-! ### Binding (06 R172, 10 R262) -/

/-- A free binding slot: the spec does not say which, so the search begins at a free value (log entry 5). -/
def State.pickSlot (s : State) : Nat :=
  let start := (Config.freeWord s.freeCtr).toNat % 0x3000
  let used := s.kst.cached.filterMap fun e => e.2.bind (·.bindSlot)
  match (List.range 0x3000).find? (fun k => !used.contains (0x1000 + (start + k) % 0x3000)) with
  | some k => 0x1000 + (start + k) % 0x3000
  | none => 0x1000 + start

/-- Pin the record at an index for one more context; g2 is its fixed slot, or else its binding slot. -/
def State.pinBound (s : State) (i : Nat) : State × Nat :=
  let s := s.install i
  match s.cachedAt i with
  | none => (s, 0)
  | some c =>
    let c := { c with binds := c.binds + 1 }
    match c.fixed, c.bindSlot with
    | some f, _ => (s.setCached i (some c), f)
    | none, some b => (s.setCached i (some c), b)
    | none, none =>
      let b := s.pickSlot
      ((s.setCached i (some { c with bindSlot := some b })).drawn 1, b)

/-- The record's policy permits the binding of this request by this program (10 R262, step 2). -/
def policyOk (r : KeyRec) (x : Ctx) : Bool :=
  (decide (x.ktype = 0) || decide (r.type = x.ktype)) && decide (r.svclo ≤ x.req.service) &&
  decide (x.req.service ≤ r.svchi) &&
  (match x.src with
   | .port _ => decide (r.rqmask / 2 ^ x.rq % 2 = 1)
   | .ring _ => r.internal) &&
  (!r.counted || x.isState)

/-- Bind the key that a context's request names: g2 and g3, and N for a counted record on the holder. -/
def State.bindKey (s : State) (c : Nat) : State × Nat × Nat :=
  let x := s.ctx c
  let h := x.req.handle
  if h = 0 then (s, 0, 0)
  else
    let i := handleIndex h
    let r := s.recAt i
    if !s.handleMatches h then (s, 0, 0x30)
    else if !policyOk r x then (s, 0, 0x31)
    else
      let nx := sget 0 s.kst.nexts i
      let counts := r.counted && s.holds
      if r.stuck || (counts && decide (nx = r.limit)) then (s, 0, 0x32)
      else if counts && decide (r.ceil ≤ nx) then
        let s := s.raise KST_EVT_CEILSTALL
        (if s.raiseDue i then s.raiseCeil i else s, 0, 0x32)
      else
        let (s, g2) := s.pinBound i
        let s := s.setCtx c { s.ctx c with bound := some i, boundVersion := r.version,
                                           useN := if counts then some nx else none }
        let s := if counts then
            let s := { s with kst := { s.kst with nexts := sput 0 s.kst.nexts i (nx + 1) } }
            let s := s.svcWrite (areaBase c + 0x4080) (leBytes 8 nx)
            if s.raiseDue i then s.raiseCeil i else s
          else s
        (s, g2, 0)

/-! ### The commit list (10 R264) -/

/-- The key lengths of a stored record type (10 Table 10.2). -/
def klenOk (type len : Nat) : Bool :=
  match type with
  | 0x01 => decide (len = 16)
  | 0x02 | 0x03 | 0x30 => decide (len = 32)
  | 0x04 | 0x50 => decide (len = 64)
  | 0x11 | 0x60 => decide (16 ≤ len) && decide (len ≤ 128)
  | 0x12 => decide (16 ≤ len) && decide (len ≤ 64)
  | 0x20 => decide (len = 44)
  | 0x31 => decide (len = 48)
  | 0x40 => decide (len = 640)
  | 0x41 => decide (len = 960)
  | 0x42 => decide (len = 1280)
  | 0x51 => decide (len = 128)
  | _ => false

/-- The check value of a created record (10 R260). -/
def State.checkValue (s : State) (i j : Nat) : Nat :=
  let d := sha3 32 (beBytes 4 s.devid ++ beBytes 8 i ++ beBytes 8 j)
  let v := beAt d 30 2
  if v = 0 then 1 else v

/-- The handle of a record (02 Table 2.6). -/
def handleOf (i : Nat) (r : KeyRec) : Nat := r.hchk * 2 ^ 48 + r.version % 256 * 2 ^ 40 + i

/-- The change that one commit entry makes, judged on the state the earlier entries left; `none` is a failure. USE bits
15:11 are no reserved field of the entry and are stored as they come (DESIGN CHOICE, log entry 155). The image of a
destroyed record holds its VERSION, the resulting VERSION of its journal entry (10 R271). -/
def State.entryChange (s : State) (c : Nat) (x : Ctx) (e : List Byte) : Option (Nat × Nat × KeyRec) :=
  let op := leAt e 0 1
  let eflags := leAt e 1 1
  let src := leAt e 2 2
  let type := leAt e 4 2
  let use := leAt e 6 2
  let handle := leAt e 8 8
  let limit := leAt e 24 8
  let rflags := leAt e 36 2
  let ts := s.transient src
  let srcOk := (decide (src = tsSlot c 0) || decide (src = tsSlot c 1)) && decide (ts.type ≠ 0)
  if (slice e 38 26).any (· ≠ 0) || decide (4 < op) || decide (op = 0) then none
  else if op = 1 then
    let i := handle
    let counted := rflags % 2 = 1
    let r : KeyRec :=
      { type := type, hchk := s.checkValue i ((s.rd KST_JSEQ).toNat + 1), flags := rflags,
        version := (sget 0 s.kst.deadVersion i + 1) % 2 ^ 32, use := use, svclo := leAt e 32 2, svchi := leAt e 34 2,
        rqmask := leAt e 16 8, count := 0, limit := limit,
        ceil := if counted then (Config.freeWord s.freeCtr).toNat % (limit + 1) else 0, key := ts.bytes }
    if 1 < eflags ∨ 7 < rflags ∨ 2 ^ 34 ≤ handle then none
    else if (counted ∧ limit = 0) ∨ (¬ counted ∧ limit ≠ 0) then none
    else if !srcOk || decide (ts.type ≠ type) || !klenOk type ts.bytes.length then none
    else if s.spanBusy i r.lines then none
    else if counted ∧ i < (s.rd KST_HOTLINES).toNat then none
    else some (1, i, r)
  else
    let target := if handle = 0 then x.bound else if s.handleMatches handle then some (handleIndex handle) else none
    match target with
    | none => none
    | some i =>
      let r := s.recAt i
      let isBound := decide (x.bound = some i)
      if eflags ≠ 0 ∨ limit ≠ 0 ∨ r.type = 0 then none
      else if isBound ∧ r.version ≠ x.boundVersion then none
      else if op = 4 then some (4, i, { version := r.version })
      else if r.stuck ∨ r.version = 0xFFFFFFFF then none
      else if op = 2 then
        if rflags / 8 ≠ 0 ∨ rflags % 2 ≠ r.flags % 2 then none
        else some (2, i, { r with flags := r.flags / 8 * 8 + rflags, version := r.version + 1, use := use,
                                  svclo := leAt e 32 2, svchi := leAt e 34 2, rqmask := leAt e 16 8 })
      else
        let r' := { r with key := ts.bytes, version := r.version + 1 }
        if !srcOk || decide (ts.type ≠ r.type) || !klenOk r.type ts.bytes.length then none
        else if r.lines < r'.lines ∧ s.spanBusy (i + r.lines) (r'.lines - r.lines) then none
        else some (3, i, r')

/-- The size of the MIRROR body of changes (12 R299). -/
def mirrorSize (cs : List (Nat × Nat × KeyRec)) (plen : Nat) : Nat :=
  24 + (cs.map fun c => 64 + 512 * c.2.2.frames).sum + 40 + plen

/-- The state as the entries so far would leave it, for the checks of the next. -/
def State.preview (s : State) (c : Nat × Nat × KeyRec) : State :=
  if c.2.2.type = 0 then s.destroyRec c.2.1 else (s.setRec c.2.1 c.2.2).drawn 1

/-- The changes of a list of entries in order, or the index of the first that fails. -/
def State.listChanges (s : State) (c : Nat) (x : Ctx) (plen : Nat) :
    List (List Byte) → Nat → List (Nat × Nat × KeyRec) → Except Nat (State × List (Nat × Nat × KeyRec))
  | [], _, acc => .ok (s, acc)
  | e :: t, k, acc =>
    match s.entryChange c x e with
    | none => .error k
    | some ch =>
      if 16384 < mirrorSize (acc ++ [ch]) plen then .error k
      else (s.preview ch).listChanges c x plen t (k + 1) (acc ++ [ch])

/-- The count of one use at the commit of a context that holds N (10 R263): nothing where the record is gone, or where
the list destroyed it and made another at its index. Where an earlier commit did that, the count goes to the record that
stands there now (DESIGN CHOICE, log entry 157). -/
def State.implicitCount (s : State) (x : Ctx) (cs : List (Nat × Nat × KeyRec)) : Except Unit (List (Nat × Nat × KeyRec)) :=
  match x.bound, x.useN with
  | some i, some n =>
    let r := s.recAt i
    if r.type = 0 ∨ cs.any (fun e => decide (e.1 = 4 ∧ e.2.1 = i)) then .ok []
    else if r.stuck ∨ r.limit < n + 1 then .error ()
    else
      let k := max r.count (n + 1)
      .ok [(0, i, { r with count := k, flags := if k = r.limit then r.flags / 16 * 16 + r.flags % 8 + 8 else r.flags })]
  | _, _ => .ok []

/-- The entries of the commit list of context `c` (10 Table 10.6); one that holds a word with a double-bit error returns
no data (01 R15). -/
def State.commitList (s : State) (c : Nat) : List (List Byte) :=
  (List.range (leAt (s.svcRead (areaBase c + 0x5800) 1) 0 1)).map fun k =>
    let a := areaBase c + 0x5840 + 64 * k
    if s.damagedAt .ctx a 64 then [] else s.svcRead a 64

/-- The commit list's header is well formed: at most 31 entries, and 63 bytes of zero. -/
def State.commitHeaderOk (s : State) (c : Nat) : Bool :=
  let h := s.svcRead (areaBase c + 0x5800) 64
  decide (leAt h 0 1 ≤ 31) && (h.drop 1).all (· = 0) && !s.damagedAt .ctx (areaBase c + 0x5800) 64

/-- All changes of a commit, or the number that KST_CLOG.ENTRY reports. -/
def State.commitChanges (s : State) (c plen : Nat) : Except Nat (List (Nat × Nat × KeyRec)) :=
  let x := s.ctx c
  if !s.commitHeaderOk c then .error 0
  else
    let es := s.commitList c
    match s.listChanges c x plen es 0 [] with
    | .error k => .error k
    | .ok (s', cs) =>
      match s'.implicitCount x cs with
      | .error _ => .error es.length
      | .ok n => if !n.isEmpty && decide (16384 < mirrorSize (cs ++ n) plen) then .error es.length else .ok (cs ++ n)

/-- A failed commit is captured in KST_CLOG (10 R264). -/
def State.logCommitFailure (s : State) (c k : Nat) : State :=
  if s.on KST_CLOG_VALID then s.raise KST_CLOG_MORE
  else ((s.fset KST_CLOG_CTX c).fset KST_CLOG_ENTRY k).raise KST_CLOG_VALID

/-- The new handle of the last CREATE entry whose EFLAGS.RESULT is set. -/
def State.createdHandle (s : State) (c : Nat) (cs : List (Nat × Nat × KeyRec)) : Option Nat :=
  (((s.commitList c).zip cs).filterMap fun (e, ch) =>
    if leAt e 1 1 = 1 ∧ ch.1 = 1 then some (handleOf ch.2.1 ch.2.2) else none).getLast?

/-- The event of a commit: a record becomes STUCK (10 R263). -/
def State.commitEvents (s : State) (cs : List (Nat × Nat × KeyRec)) : State :=
  if cs.any (fun c => c.2.2.stuck && !(s.recAt c.2.1).stuck) then s.raise KST_EVT_CNT_STUCK else s

/-- A created record's NEXT starts at its COUNT: 0, or what an imported header holds (DESIGN CHOICE, log entry 156). -/
def State.resetNexts (s : State) (cs : List (Nat × Nat × KeyRec)) : State :=
  cs.foldl (fun s c => if c.1 = 1 then { s with kst := { s.kst with nexts := sput 0 s.kst.nexts c.2.1 c.2.2.count } }
    else s) s

/-- END of a STATE context with the response `r`: its commit list is checked, and commits, or waits for room, or fails
as a whole (06 R175, 10 R264, R267). -/
def State.endCommit (s : State) (c : Nat) (r : Response) : State :=
  match s.commitChanges c r.payload.length with
  | .error k =>
    let s := if s.damagedAt .ctx (areaBase c + 0x5800) 0x800 then s.signal 56 0 else s
    (s.logCommitFailure c k).endWith c { status := 0x31 }
  | .ok cs =>
    let r := match s.createdHandle c cs with
      | some h => { r with result := h }
      | none => r
    let s := s.endWith c r (grant := cs.isEmpty)
    let s := s.setCtx c { s.ctx c with committed := true }
    if cs.isEmpty then s
    else if s.commitFits cs then
      let s := (s.commitEvents cs).resetNexts cs
      let (s, es) := (s.drawn cs.length).commit cs
      s.afterCommit c es (s.rd KST_JSEQ).toNat
    else
      (s.setCtx c { s.ctx c with late := true }).stallCommit ⟨some c, cs⟩

end Sys2Proof.Machine
end

