-- ==== Sys2Proof/Machine/Adm.lean ====
section
/-!
DEFINITION. Machine/Adm.lean: the admission ledger: the decision (03 R75-R80), refusal responses (02 R44), the state of
a context at its first instruction (06 R171), tempo (03 R81-R83), and the end of an entry that overruns (03 R84).
-/

namespace Sys2Proof.Machine

/-! ### Responses that refuse (02 R44) -/

/-- The port is free from this time on. -/
def State.portFree (s : State) (port : Nat) : Nat := sget 0 s.svc.txBusy port

/-- The port is taken until `t`. -/
def State.takePort (s : State) (port t : Nat) : State :=
  { s with svc := { s.svc with txBusy := sput 0 s.svc.txBusy port t } }

/-- A response to an accepted request for the port was ready at `t`: it goes before every refusal. -/
def State.acceptedReady (s : State) (port : Fin 4) (t : Nat) : Bool :=
  s.live.any fun e => decide (e.2.src = .port port ∧ e.2.st = .ending ∧ e.2.respAt ≤ t) && e.2.grantable

/-- The instant `t` is over: a request of it on another port can no longer arrive (02 R49; log entry 115). Without
REFCLK_ETH the timebase does not tell instants apart. -/
def State.instantOver (s : State) (t : Nat) : Bool := decide (t < s.tb) || !s.sys.refclkEth

/-- The refusals that wait for the port start in turn, up to `n` of them: each at the first instant at which the port is
free, if that is within its bound and no accepted response is ready then (log entry 26). One of step 11 leaves once no
request can go before it. -/
def State.startRefusals (s : State) (port : Fin 4) : Nat → State
  | 0 => s
  | n + 1 =>
    let start := fun (r : PendingRefusal) => max r.since (s.portFree port)
    match s.svc.refusals.find? (fun r => decide (r.port = port ∧ start r ≤ r.bound)) with
    | none => s
    | some r =>
      if s.canSend port && decide (start r ≤ s.tb) && !s.acceptedReady port (start r) &&
          (r.turn.isNone || s.instantOver r.since) then
        State.startRefusals ((State.sendFrame { s with svc := { s.svc with refusals := s.svc.refusals.erase r } } port r.content
          (start r)).takePort port (start r + wireNs (frameLen (s.secy port) r.content))) port n
      else s

/-- The refusals that can have started by now have. -/
def State.flushRefusals (s : State) (port : Fin 4) : State := s.startRefusals port s.svc.refusals.length

/-- The port is enabled, but the SA that TXAN names is not valid: what would be sent is dropped (02 R39). -/
def State.saMissing (s : State) (port : Nat) : Bool := s.portOn port && s.secy port && !(s.sa (s.txSa port)).valid

/-- The frame of a refusal. -/
def State.refusalFrame (s : State) (port : Fin 4) (r : Reply) (q : CrpReq) (status detail : Nat) : List Byte :=
  s.crpFrame port r (({ status := status, detail := detail } : Response).bytes q s.devid)

/-- A refusal leaves where it can start within its bound and no accepted response is ready; one that cannot waits, at
most until it is dropped (log entry 26). Without a valid transmit SA it is dropped at once (02 R39). -/
def State.refuse (s : State) (port : Fin 4) (r : Reply) (q : CrpReq) (status detail bound : Nat)
    (turn : Option (Nat × Nat) := none) : State :=
  if s.saMissing port then (s.count (16 * port.val + 15) 1).raise SVC_EVT_RESP_DROP
  else
    State.flushRefusals { s with svc := { s.svc with refusals := s.svc.refusals ++
      [{ port := port, since := s.tb, bound := bound, content := s.refusalFrame port r q status detail, turn := turn }] } }
      port

/-- The oldest refusal of the port whose bound has passed is dropped, counted. -/
def State.dropOldest (s : State) (port : Fin 4) : State :=
  match s.svc.refusals.find? (fun r => decide (r.port = port) && decide (r.bound ≤ s.tb)) with
  | none => s
  | some r =>
    let s := if s.saMissing port then s.raise SVC_EVT_RESP_DROP else s
    { s.count (16 * port.val + 15) 1 with svc := { s.svc with refusals := s.svc.refusals.erase r } }

/-- The effect of REFUSAL_RESPONSE_DROP: of the refusals that could not start. -/
def State.dropRefusal (s : State) (port : Fin 4) : State := (s.flushRefusals port).dropOldest port

/-- REFUSAL_RESPONSE_DROP (02 R44). -/
def execRefusalResponseDrop (dt : Nat) (port : Fin 4) (s : State) : Out :=
  .next ((s.elapse dt).dropRefusal port)

/-- A CRP response of a request that came over the internal ring is written into its slot, whole granules at a time, by
the ring's own master (06 R186; 07 Table 7.1), and its DONE bit is set; a bus error on the way leaves the rest unwritten
and changes nothing else (log entry 29). -/
def State.ringAnswer (s : State) (slot : Fin 16) (bytes : List Byte) : State :=
  let base := (s.rd DSP_IREQ_BASE).toNat + 0x8000 * slot.val + 0x4000
  let s := (s.writeBlock ⟨.ireq, 0⟩ base bytes).2
  { s.raise (bitFld DSP_IREQ_DONE slot.val) with
      dsp := { s.dsp with ringBusy := s.dsp.ringBusy &&& ~~~(1#16 <<< slot.val) } }

/-- A request is refused or declined at once. -/
def State.refuseTo (s : State) (src : Source) (r : Reply) (q : CrpReq) (status detail bound : Nat) : State :=
  match src with
  | .port p => s.refuse p r q status detail bound
  | .ring i => s.ringAnswer i (({ status := status, detail := detail } : Response).bytes q s.devid)

/-! ### Building stages (03 R75, R76) -/

/-- The length of the response frame (03 R75). -/
def respFrame (q : Desc) (respMax : Nat) : Nat :=
  (match q.reply.encap with
   | .ether => 30
   | .udp .. => 78) + 40 + (if q.req.tsreq then 16 else 0) + respMax + 20

/-- A stage with its charge and whether it is long. -/
def State.mkStage (s : State) (b cls pool cost index : Nat) : LStage :=
  { pool := pool, charge := scaleNs (costHundredths pool cost) (s.factor pool cls), long := s.isLong b pool cost,
    index := index }

/-- The instruction indices of a program's stages, in order (06 R181). -/
def State.stageIndex (s : State) (prog i : Nat) : Nat :=
  match (sget {} s.dsp.progs prog).stages[i]? with
  | some p => p.index
  | none => 0

/-- The fetch stage of a request (03 R75, 10 R254). -/
def State.fetchStage (s : State) (q : Desc) : List LStage :=
  if q.req.handle = 0 then []
  else match s.tier (handleIndex q.req.handle) with
    | .hot => [s.mkStage q.bank q.req.cls 3 (s.rd ADM_FETCH_HOT).toNat 0]
    | .seal => [s.mkStage q.bank q.req.cls 4 (s.rd ADM_FETCH_SEAL).toNat 0]
    | _ => []

/-- The program slot that serves a request in its bank. -/
def State.progOf (s : State) (q : Desc) : Nat := natBits (s.dispWord q.bank q.req.service 0) 0 10

/-- The stages of the service itself. -/
def State.serviceStages (s : State) (q : Desc) (ce : CostEntry) : List LStage :=
  ce.stages.mapIdx fun i st => s.mkStage q.bank q.req.cls st.1 st.2 (s.stageIndex (s.progOf q) i)

/-- The TX stage: none for an internal request (06 R186). -/
def State.txStage (s : State) (q : Desc) (ce : CostEntry) : List LStage :=
  match q.src with
  | .port p =>
    let c := ((respFrame q ce.respMax) + 20) * 8
    [{ pool := 6 + p.val, charge := cdiv c 100,
       long := decide (s.fgetb q.bank (ADM_POOL_LONG_NS_LONG_NS (6 + p.val)) * 100 < c) }]
  | .ring _ => []

/-! ### The decision (03 R78) -/

/-- The outcome of a decision. -/
inductive Verdict where
  | decline (status detail : Nat)
  | accept (key : Option Nat) (slack : Option Int) (fast : Bool) (stages : List LStage) (deltas : List (Nat × Nat))
  deriving DecidableEq, Repr

/-- The charges of a pool over committed entries with keys up to `e`, restricted to the stages `p` picks; the
stage of an aborted modular command counts until its unit reports idle (09 R246). -/
def State.poolSum (s : State) (pool e : Nat) (p : Ctx → LStage → Bool) : Nat :=
  (s.live.map fun j => match j.2.key with
    | some k => if k ≤ e then
        ((j.2.stages.filter fun x => decide (x.pool = pool) && !x.done && p j.2 x).map LStage.charge).sum else 0
    | none => 0).sum +
  (s.mau.map fun u => match u.2.held with
    | some (some k, fast, x) =>
      if decide (k ≤ e) && decide (x.pool = pool) && p { fast := fast } x then x.charge else 0
    | _ => 0).sum

/-- `wait(s, E, fc)`, rounded up; `none` is INF. With no general unit left nothing outside the FAST units can run. -/
def State.waitNs (s : State) (cls : Nat) (x : LStage) (e : Nat) (fc : Bool) : Option Nat :=
  let p := x.pool
  let (bs, bl, bf) := s.terms p cls (decide (0 < s.oldLive))
  let fast := s.fastUnits p
  if fc && decide (0 < fast) then some (cdiv (s.poolSum p e (fun c _ => c.fast)) fast + bf)
  else
    let g := s.general p
    let l := s.longCap p
    let hp := s.poolSum p e (fun _ _ => true)
    let hpl := s.poolSum p e (fun _ x => x.long)
    let a := hp + l * max bs bl + (g - l) * bs
    if g = 0 then none
    else if x.long then (if l = 0 then none else some (cdiv (a * l + (hpl + l * bl) * g) (g * l)))
    else if l < g then some (min (cdiv a g) (cdiv (hp - hpl + bs * (g - l)) (g - l)))
    else some (cdiv a g)

/-- The sum of waits and costs of the stages, `none` where one is infinite. -/
def State.pathNs (s : State) (cls e : Nat) (fc : Bool) : List LStage → Option Nat
  | [] => some 0
  | x :: t => match s.waitNs cls x e fc, s.pathNs cls e fc t with
    | some w, some r => some (w + x.charge + r)
    | _, _ => none

/-- One pool's share of `delta`, as a fraction. Where no general unit is left (MIR with FAST 1 once P3 is a host port), the
pseudocode divides by 0: the pool's share is 0 then, since the entry can run nothing there (DESIGN CHOICE, log entry
138). -/
def State.deltaShare (s : State) (j : Ctx) (stages : List LStage) (fc : Bool) (p : Nat) : Nat × Nat :=
  let mine := stages.filter fun x => decide (x.pool = p)
  if mine.isEmpty || !(j.stages.any fun x => decide (x.pool = p)) then (0, 1)
  else
    let c := (mine.map LStage.charge).sum
    let cl := ((mine.filter LStage.long).map LStage.charge).sum
    let fast := s.fastUnits p
    if j.fast && decide (0 < fast) then (if fc then (c, fast) else (0, 1))
    else
      let g := s.general p
      let l := s.longCap p
      let d := if l < g then g - l else g
      if g = 0 then (0, 1) else if l = 0 then (c, d) else (c * l + cl * d, d * l)

/-- The sum of two fractions. -/
def fracAdd (a b : Nat × Nat) : Nat × Nat := (a.1 * b.2 + b.1 * a.2, a.2 * b.2)

/-- `delta(j, stages, fc)`. -/
def State.delta (s : State) (j : Ctx) (stages : List LStage) (fc : Bool) : Nat :=
  let f := (List.range 10).foldl (fun a p => fracAdd a (s.deltaShare j stages fc p)) (0, 1)
  cdiv f.1 f.2

/-- `decide(q)` at time `t`. -/
def State.decideReq (s : State) (q : Desc) : Verdict :=
  let cls := q.req.cls
  match s.costEntry q.bank q.req.service with
  | none => .decline 0x10 2
  | some ce =>
    if !s.on ADM_CTRL_EN then .decline 0x10 2
    else if s.sys.mode = .custody ∧ s.fgetb q.bank (ADM_CLASS_CFG_CUST_OK cls) = 0 then .decline 0x10 4
    else if ce.state ∧ s.fget ADM_STAT_LANTERN = 0 then .decline 0x11 0
    else if ce.rand ∧ s.on (sevFld 72) then .decline 0x10 5
    else if !s.on KST_CTRL_EN && (decide (q.req.handle ≠ 0) || ce.state) then .decline 0x10 2
    else if s.used = 8192 ∨
        s.fgetb q.bank (ADM_CLASS_CFG_MAXENT cls) ≤ (s.live.filter fun e => decide (e.2.req.cls = cls)).length then
      .decline 0x10 1
    else if (match q.src with
        | .port p => decide (s.fgetb q.bank (ADM_PORT_MAXRESP p.val) < respFrame q ce.respMax)
        | .ring _ => false) then .decline 0x10 2
    else
      let fetch := s.fetchStage q
      let service := s.serviceStages q ce
      let stages := fetch ++ service ++ s.txStage q ce
      if stages.any (fun x => (decide (x.pool = 1 ∨ x.pool = 2) && decide (s.general x.pool = 0)) ||
          (x.long && decide (s.longCap x.pool = 0))) then
        .decline 0x10 2
      else
        let fc := decide (cls ≤ s.fget ADM_CTRL_FASTCLS) && !service.any LStage.long
        if cls = 7 then .accept none none fc stages []
        else
          let e := q.ingress + s.rdb q.bank (ADM_CLASS_BOUND cls) - 180
          let late := Verdict.decline 0x10 (if fetch.isEmpty then 2 else 3)
          match s.pathNs cls e fc stages with
          | none => late
          | some n =>
            let w := max s.tb (q.ingress + 200) + scaleNs (ce.lpath * 100) (s.factor 0 cls) + n
            if e < w then late
            else
              let later := s.live.filter fun j => match j.2.key with
                | some k => decide (e < k)
                | none => false
              let ds := later.map fun j => (j.1, s.delta j.2 stages fc)
              if ds.any (fun d => match (s.ctx d.1).slack with
                  | some sl => decide (sl < (d.2 : Int))
                  | none => false) then .decline 0x10 2
              else .accept (some e) (some ((e : Int) - w)) fc stages ds

/-! ### A context at its first instruction (06 R171) -/

/-- A capability over a range. -/
def rangeCap (base top : Nat) (perms : BitVec 16) : Cap :=
  { tag := true, otype := 0, perms := perms, top := BitVec.ofNat 48 top, base := BitVec.ofNat 48 base }

/-- The registers of context `c` (06 Table 6.4). -/
def State.firstRegs (s : State) (c g2 g3 : Nat) : Core :=
  let x := s.ctx c
  let b := areaBase c
  let p := sget {} s.dsp.progs x.prog
  let code := 0x8000 * x.prog
  let w0 := s.dispWord x.bank x.req.service 0
  let arg := s.dispWord x.bank x.req.service 3
  let caps : List (Nat × Cap) :=
    (if p.nconst = 0 then [] else [(1, rangeCap (code + 0x4000) (code + 0x4000 + p.nconst) 1)]) ++
    [(2, rangeCap b (b + 40 + x.req.plen) 1), (3, rangeCap (b + 0x2040) (b + 0x2080 + x.respMax) 3),
     (4, rangeCap (b + 0x4080) (b + 0x6000) 0x1B),
     (5, rangeCap b (b + 0x6000) (if natBits w0 28 1 = 1 then 0x1800 else 0x1000))]
  let g := fun (m : Sparse Word) (i v : Nat) => sput 0 m i (BitVec.ofNat 64 v)
  { g := g (g (g (g (g (g [] 1 x.req.plen) 2 g2) 3 g3) 4 x.req.param) 5 arg) 6 (tsSlot c 0 + tsSlot c 1 * 0x10000),
    c := caps, pcc := rangeCap code (code + 4 * p.ncode) 0x2005, pc := BitVec.ofNat 48 code, ectrl := 0 }

/-- The context becomes READY: its key is bound and its registers are set. NOP's fixed program has no slot (log entry
21). -/
def State.makeReady (s : State) (c : Nat) : State :=
  let (s, g2, g3) := s.bindKey c
  let s := s.setCtx c { s.ctx c with st := .ready }
  if (s.ctx c).nop then s else { s with dsp := { s.dsp with regs := sput {} s.dsp.regs c (s.firstRegs c g2 g3) } }

/-- Apply the response of a MIRROR to the context that awaits it (12 R300). -/
def State.answerFrom (s : State) (c : Nat) (r : Response) : State :=
  let s := s.setCtx c { s.ctx c with committed := true, mirrored := true }
  s.endWith c r

/-- The context of an accepted request (03 R78 commit; 06 Table 6.5; 12 R300). -/
def State.accept (s : State) (c : Nat) (q : Desc) (key : Option Nat) (slack : Option Int) (fast : Bool)
    (stages : List LStage) (isState isRand : Bool) : State :=
  let order := s.adm.decided
  let s := { s with adm := { s.adm with decided := order + 1 } }
  let nop := decide (q.req.service = 1)
  let follower := isState && decide (s.fget ADM_STAT_LANTERN = 2)
  let stages := if follower then
      stages.map fun x => if x.pool < 6 then { x with done := true, started := true } else x
    else stages
  let w2 := s.dispWord q.bank q.req.service 2
  let fetch := stages.any fun x => (decide (x.pool = 3) || decide (x.pool = 4)) && !x.done
  let x : Ctx :=
    { st := .fetch, src := q.src, reply := q.reply, req := q.req, rq := q.rq, ingress := q.ingress, key := key,
      slack := slack, fast := fast, order := order, epoch := q.epoch, bank := q.bank, stages := stages,
      isState := isState, isRand := isRand, nop := nop, prog := if nop then 1024 else s.progOf q,
      respMax := if nop then 0 else natBits w2 0 14, ktype := if nop then 0 else natBits w2 16 16 }
  let s := (s.setCtx c x).svcWrite (areaBase c) q.message
  let s := s.count (0x040 + q.req.cls) 1
  if follower then
    let s := s.setCtx c { s.ctx c with st := .parked }
    let s : State := if q.req.handle ≠ 0 ∧ s.tier (handleIndex q.req.handle) = Tier.cache then (s.bindKey c).1 else s
    match s.duo.held.find? (fun m => decide (m.1.requester = q.req.requester ∧ m.1.seq = q.req.seq)) with
    | some m =>
      let s := { s with duo := { s.duo with held := s.duo.held.erase m } }
      match m.1.resp with
      | some r => s.answerFrom c r
      | none => s
    | none => s
  else if fetch then s
  else
    let s : State := if q.req.handle ≠ 0 ∧ s.tier (handleIndex q.req.handle) = Tier.cache then s.count 0x050 1 else s
    s.makeReady c

/-- The counter of a decline (19 Table 19.4). -/
def declineEvent (status detail : Nat) : Nat := if status = 0x11 then 0x04D else 0x047 + detail

/-- ADM decides the descriptor `q`; an accepted request takes context `c`. -/
def State.admDecide (s : State) (c : Nat) (q : Desc) : State :=
  match s.decideReq q with
  | .decline status detail =>
    let s := s.count (declineEvent status detail) 1
    let s := if status = 0x10 ∧ detail = 3 then
        { s with adm := { s.adm with beFetch := s.adm.beFetch ++ [handleIndex q.req.handle] } } else s
    s.refuseTo q.src q.reply q.req status detail (q.ingress + 680)
  | .accept key slack fast stages deltas =>
    let s := deltas.foldl (fun s d => s.setCtx d.1
      { s.ctx d.1 with slack := (s.ctx d.1).slack.map (fun v => v - (d.2 : Int)) }) s
    match s.costEntry q.bank q.req.service with
    | some ce => s.accept c q key slack fast stages ce.state ce.rand
    | none => s

/-- The effect of ADM_DECISION: the descriptor that arrived first is decided (03 R77), once the instant of its arrival is
over (log entry 115). The context an accepted request takes is the event's own; it must be FREE (log entry 7). -/
def State.admNext (s : State) (c : Nat) : State :=
  match s.adm.descs with
  | [] => s
  | q :: rest =>
    if s.instantOver q.ingress then
      match s.decideReq q with
      | .accept .. => if (s.ctx c).st = .free then { s with adm := { s.adm with descs := rest } }.admDecide c q else s
      | .decline .. => { s with adm := { s.adm with descs := rest } }.admDecide c q
    else s

/-- ADM_DECISION (03 R78). -/
def execAdmDecision (dt : Nat) (c : Fin 8192) (s : State) : Out := .next ((s.elapse dt).admNext c.val)

/-! ### Overrun (03 R84) -/

/-- The entry of context `c` has not ended by E + 20 us, and may be cancelled: one that is ENDING has its answer (06
Table 6.5). -/
def State.overdue (s : State) (c : Nat) : Bool :=
  let x := s.ctx c
  decide (x.st ≠ .free ∧ x.st ≠ .ending) && !x.committed &&
  (match x.key with
   | some e => decide (e + 20000 < s.tb)
   | none => false)

/-- An entry is cancelled, or answered later than E + 20 us (03 R84). -/
def State.reportOverrun (s : State) : State := ((s.raise ADM_EVT_OVERRUN).count 0x04E 1).signal 71 0

/-- ADM cancels an entry: FAULT with DETAIL 0x03 and the ledger entry index. -/
def State.cancel (s : State) (c : Nat) : State :=
  let s := s.reportOverrun
  (s.setCtx c { s.ctx c with cancelled := true }).endWith c (faultResp 3 c)

/-- ENTRY_OVERRUN (03 R84). -/
def execEntryOverrun (dt : Nat) (c : Fin 8192) (s : State) : Out :=
  timed dt (fun s => s.overdue c.val) s (fun s => s.cancel c.val)

/-! ### Tempo (03 R82, R83) -/

/-- The age in us after which a tempo factor is stale: values below 0x0C act as 0x0C. -/
def State.staleUs (s : State) : Nat := max (s.fget ADM_CTRL_STALE_US) 0x0C

/-- The tempo factor of pool `p` has not been written within STALE_US. -/
def State.tempoOld (s : State) (p : Nat) : Bool := decide (sget 0 s.adm.tempoAt p + s.staleUs * 1000 < s.tb)

/-- The Taper term of pool `p` in Q16.16, rounded up. -/
def State.taperTerm (s : State) (p : Nat) : Nat :=
  let r := (s.rd (ADM_TAPRD p)).toNat
  let m := s.fget ADM_TAPER_TMARGIN
  cdiv (r * (65536 + (if 65536 < r then m + s.fget ADM_TAPER_XMARGIN else m))) 65536

/-- ADM_STAT.STALE: at least one tempo factor is stale. -/
def State.setStale (s : State) : State := s.put ADM_STAT_STALE (s.tempoOld 0 || s.tempoOld 1 || s.tempoOld 2)

/-- ADM_EVT.STALE is set once for each time the factor of pool `p` grows stale (03 R83). -/
def State.reportStale (s : State) (p : Nat) : State :=
  if !s.tempoOld p then { s with adm := { s.adm with staleSeen := s.adm.staleSeen &&& ~~~(1#3 <<< p) } }
  else if s.adm.staleSeen.getLsbD p then s
  else
    let s := s.raise ADM_EVT_STALE
    { s with adm := { s.adm with staleSeen := s.adm.staleSeen ||| (1#3 <<< p) } }

/-- ADM_TEFFp, from the tempo factor or, where that is stale, 1.0, and the Taper term, with what is reported of both (03
R83). The register shows 32 bits of the factor (DESIGN CHOICE, log entry 119). -/
def State.setTeff (s : State) (p : Nat) : State :=
  let tempo := if s.tempoOld p then 0x10000 else (s.rd (ADM_TEMPO p)).toNat
  let s := (s.reportStale p).setStale
  let s := if (s.rd (ADM_TEMPO p)).toNat < s.taperTerm p then s.raise ADM_EVT_TAPER_UP else s
  s.wr (ADM_TEFF p) (BitVec.ofNat 64 (max tempo (s.taperTerm p) % 2 ^ 32))

/-- The effective factors of the three tempo pools. -/
def State.setTeffs (s : State) : State := ((s.setTeff 0).setTeff 1).setTeff 2

/-- TEMPO_STALE (03 R83): the factor of pool `p` falls back to 1.0. -/
def execTempoStale (dt : Nat) (p : Fin 3) (s : State) : Out :=
  timed dt (fun s => s.powered && s.tempoOld p.val) s (fun s => s.setTeff p.val)

/-- One pool's Taper reading (03 R83). -/
def State.taper (s : State) (p : Nat) (r : Word32) : State :=
  let old := (s.rd (ADM_TAPRD p)).toNat
  let s := s.wr (ADM_TAPRD p) (r.zeroExtend 64)
  let s := if old ≤ 65536 ∧ 65536 < r.toNat then (s.raise ADM_EVT_TAPER_BEYOND).signal 70 0 else s
  s.setTeff p

/-- TAPER_READING (03 R83). -/
def execTaperReading (dt : Nat) (sc cph mau : Word32) (s : State) : Out :=
  timed dt State.powered s (fun s => ((s.taper 0 sc).taper 1 cph).taper 2 mau)

/-- One pool's activity at the end of a window (03 R82): the share of busy units, or the old value less DECAY. -/
def State.activity (s : State) (p : Nat) (a : BitVec 17) : State :=
  s.wr (ADM_ACT p) (BitVec.ofNat 64 (max (min a.toNat 0x10000) ((s.rd (ADM_ACT p)).toNat - s.fget ADM_LGUARD_DECAY)))

/-- ACTIVITY_WINDOW_END (03 R82). -/
def execActivityWindowEnd (dt : Nat) (sc cph mau : BitVec 17) (s : State) : Out :=
  timed dt State.powered s (fun s => ((s.activity 0 sc).activity 1 cph).activity 2 mau)

/-! ### Blocking terms (03 R72) -/

/-- The service can be fast-class (03 R72). -/
def State.canBeFast (s : State) (b svc : Nat) (ce : CostEntry) : Bool :=
  ce.stages.all (fun st => !s.isLong b st.1 st.2) &&
  (decide (svc = 1) || decide (natBits (s.dispWord b svc 0) 23 3 ≤ s.fget ADM_CTRL_FASTCLS))

/-- The stages that count for the blocking terms of a service in bank `b`: its pools and costs, whether they are long,
and whether the service can be fast-class. -/
def State.termStages (s : State) (b svc : Nat) : List (Nat × Nat × Bool × Bool) :=
  match s.costEntry b svc with
  | none => []
  | some ce => ce.stages.map fun st => (st.1, costHundredths st.1 st.2, s.isLong b st.1 st.2, s.canBeFast b svc ce)

/-- The services that can have a valid cost entry in bank `b`: those whose word 0 is not zero, and NOP. -/
def State.services (s : State) (b : Nat) : List Nat :=
  1 :: s.regs.filterMap fun e =>
    let a := e.1
    if bankAddr b 0x40340000 ≤ a ∧ a < bankAddr b 0x40360000 ∧ (a - bankAddr b 0x40340000) % 32 = 0
    then some ((a - bankAddr b 0x40340000) / 32) else none

/-- The wire time of the largest response frame, in hundredths of a ns, among the services of bank `b` that `p` picks,
held to MAXRESP of the port (03 R72, R75). -/
def State.txTerm (s : State) (b port : Nat) (p : Nat → CostEntry → Bool) : Option Nat :=
  match (s.services b).filterMap (fun v => match s.costEntry b v with
      | some ce => if p v ce then some (78 + 40 + 16 + ce.respMax + 20) else none
      | none => none) with
  | [] => none
  | f :: t => some ((min (s.fgetb b (ADM_PORT_MAXRESP port)) (t.foldl max f) + 20) * 8)

/-- The largest number of a list, 0 for none. -/
def listMax (l : List Nat) : Nat := l.foldl max 0

/-- A service of bank `b` that can be fast-class takes a key, and so may have a fetch stage (03 R72, R75). -/
def State.keyedFast (s : State) (b : Nat) : Bool :=
  (s.services b).any fun v => decide (v ≠ 1) && decide (natBits (s.dispWord b v 0) 26 2 ≠ 0) &&
    (match s.costEntry b v with
     | some ce => s.canBeFast b v ce
     | none => false)

/-- The blocking terms of a pool in bank `b`, in hundredths of a ns. -/
def State.poolTerms (s : State) (b p : Nat) : Nat × Nat × Nat :=
  if 6 ≤ p then
    let t := (s.txTerm b (p - 6) fun _ _ => true).getD 0
    (t, if s.fgetb b (ADM_POOL_LONG_NS_LONG_NS p) * 100 < t then t else 0, (s.txTerm b (p - 6) (s.canBeFast b)).getD 0)
  else
    let fetch := if p = 3 then (s.rd ADM_FETCH_HOT).toNat else if p = 4 then (s.rd ADM_FETCH_SEAL).toNat else 0
    let all := ((s.services b).map (s.termStages b)).flatten.filter (fun x => decide (x.1 = p))
    let extra := if p = 3 ∨ p = 4 then [(p, fetch * 100, s.isLong b p fetch, s.keyedFast b)] else []
    let all := all ++ extra
    (listMax ((all.filter fun x => !x.2.2.1).map fun x => x.2.1), listMax ((all.filter fun x => x.2.2.1).map fun x => x.2.1),
     listMax ((all.filter fun x => x.2.2.2).map fun x => x.2.1))

/-- All blocking terms of bank `b`. -/
def State.bankTerms (s : State) (b : Nat) : List (Nat × Nat × Nat) := (List.range 10).map (s.poolTerms b)

/-- The blocking terms of both banks, at a write of FASTCLS (03 R72). -/
def State.recompute (s : State) : State :=
  { s with adm := { s.adm with terms := s.bankTerms s.bank, oldTerms := s.bankTerms (1 - s.bank) } }

end Sys2Proof.Machine
end

