-- ==== Sys2Proof/Machine/Dsp.lean ====
section
/-!
DEFINITION. Machine/Dsp.lean: the life of a context after its admission (06 R174-R177), the fetch stages (03 R75, 10
R265, R266), the grant of a response (02 R41, R42, R59; 03 R75), the joint epoch switch (03 R69, 06 R184) and the
program slots (06 R185).
-/

namespace Sys2Proof.Machine

/-! ### Fetches -/

/-- KST_INTLOG captures the failure of a line or frame. -/
def State.logIntegrity (s : State) (tier i : Nat) : State :=
  if s.on KST_INTLOG_VALID then s.raise KST_INTLOG_MORE
  else ((s.fset KST_INTLOG_TIER tier).fset KST_INTLOG_INDEX i).raise KST_INTLOG_VALID

/-- A line of the hot image at index `i` fails: which of its lines is left open (log entry 5). Its region is invalid (10
R265). -/
def State.hotFailure (s : State) (i : Nat) : State :=
  let l := i + (Config.freeWord s.freeCtr).toNat % (s.linesAt i)
  let s := (s.drawn 1).logIntegrity 1 l
  let s := { s with kst := { s.kst with hotValid := sput false s.kst.hotValid (l / 4096) false } }
  (s.raise KST_EVT_HOT_INT).signal 75 0

/-- The frames of index `i` fail their verification (10 R266). -/
def State.sealFailure (s : State) (i : Nat) : State :=
  (((s.spoilFrames i).logIntegrity 2 i).raise KST_EVT_SEAL_INT).signal 76 0

/-- A fetch fails its integrity check (10 R265, R266). -/
def State.integrityFailure (s : State) (hot : Bool) (i : Nat) : State := if hot then s.hotFailure i else s.sealFailure i

/-- A fetch verifies: frames that failed once fail again, and so do frames sealed under another key (10 R266). -/
def State.fetchVerifies (s : State) (hot : Bool) (i : Nat) (ok : Bool) : Bool :=
  let f := s.sealedAt i
  ok && (hot || decide (f.image.type = 0) || (!f.bad && decide (f.key = s.kst.sealingKey)))

/-- A fetch brings the record at an index into the cache; an index that holds none brings nothing. -/
def State.fetched (s : State) (i : Nat) : State := if s.hasRec i then s.install i else s

/-- A context waits in its fetch stage, which a unit has started. -/
def fetching (x : Ctx) : Bool :=
  decide (x.st = .fetch) && x.stages.any fun l => (decide (l.pool = 3) || decide (l.pool = 4)) && l.started && !l.done

/-- The fetch stage of context `c` ends. -/
def State.fetchEnds (s : State) (c : Nat) (ok : Bool) : State :=
  let x := s.ctx c
  let hot := x.stages.any fun l => decide (l.pool = 3)
  let i := handleIndex x.req.handle
  let s := s.setCtx c { x with stages := completeStage (fun l => decide (l.pool = 3) || decide (l.pool = 4)) x.stages }
  if s.fetchVerifies hot i ok then
    let s := (s.fetched i).makeReady c
    if x.fell then s.endWith c noLanternResp else s
  else (s.integrityFailure hot i).endWith c (faultResp 7 (if hot then 1 else 2))

/-- FETCH_COMPLETE (06 R177, 10 R262): `ok` is false where the line or frame fails its integrity check. -/
def execFetchComplete (dt : Nat) (c : Fin 8192) (ok : Bool) (s : State) : Out :=
  timed dt (fun s => fetching (s.ctx c.val)) s (fun s => s.fetchEnds c.val ok)

/-- The best-effort fetch that a unit began first ends (03 R80). -/
def State.bestEffortEnds (s : State) (ok : Bool) : State :=
  match s.adm.beRun with
  | [] => s
  | (i, x) :: t =>
    let s := { s with adm := { s.adm with beRun := t } }
    let hot := decide (x.pool = 3)
    if s.fetchVerifies hot i ok then s.fetched i else s.integrityFailure hot i

/-- BEST_EFFORT_FETCH_DONE (03 R80). -/
def execBestEffortFetchDone (dt : Nat) (ok : Bool) (s : State) : Out := .next ((s.elapse dt).bestEffortEnds ok)

/-! ### Stages -/

/-- The entries whose stage of this pool is ready and may run: a fetch stage of a context in FETCH. -/
def State.readyFor (s : State) (pool : Nat) : List (Nat × Ctx) :=
  s.live.filter fun e => decide (e.2.st = .fetch) && s.nextMayRun pool e.2

/-- The stage of a best-effort fetch: of no entry, at its worst-corner cost. -/
def State.beStage (s : State) (pool : Nat) : LStage :=
  s.mkStage s.bank 7 pool (s.rd (if pool = 3 then ADM_FETCH_HOT else ADM_FETCH_SEAL)).toNat 0

/-- A free unit takes the first best-effort fetch of its pool, where no keyed stage waits for the pool (03 R80). -/
def State.beStart (s : State) (pool : Nat) : State :=
  if (s.live.any fun e => decide (e.2.st = .fetch) && (nextStage e.2 pool).isSome) || !s.mayRun pool {} (s.beStage pool) then s
  else match s.adm.beFetch.find? (fun i => decide (s.tier i = if pool = 3 then Tier.hot else Tier.seal)) with
    | none => s
    | some i =>
      { s.count (0x04E + pool) 1 with adm := { s.adm with
          beFetch := s.adm.beFetch.erase i, beRun := s.adm.beRun ++ [(i, s.beStage pool)] } }

/-- A free unit of HOT or SEAL takes the ready stage of least key (03 R73), and behind all of them a best-effort fetch. -/
def State.fetchStart (s : State) (pool : Nat) : State :=
  match firstByKey (s.readyFor pool) with
  | none => s.beStart pool
  | some (c, x) =>
    (s.setCtx c { x with stages := startStage (fun l => decide (l.pool = pool)) x.stages }).count (0x04E + pool) 1

/-- STAGE_START (03 R73) for HOT, SEAL or MIR. -/
def execStageStart (dt : Nat) (p : Fin 3) (s : State) : Out :=
  .next (let s := s.elapse dt
    if p.val = 2 then s.mirStart else s.fetchStart (3 + p.val))

/-- The instruction index a context stands at. -/
def State.indexOf (s : State) (c : Nat) : Nat :=
  ((sget {} s.dsp.regs c).pc.toNat - 0x8000 * (s.ctx c).prog) / 4

/-- The SC stage that the next run of a context is: the one that begins where the context stands (06 R180). -/
def State.scStage (s : State) (c : Nat) : Option LStage :=
  let x := s.ctx c
  let k := if x.nop then 0 else s.indexOf c
  x.stages.find? fun l => decide (l.pool = 0) && !l.done && !l.started && decide (l.index = k)

/-- Context `c` is READY and a service core may take it now (03 Table 3.3). -/
def State.scMayRun (s : State) (c : Nat) (x : Ctx) : Bool :=
  decide (x.st = .ready) && (match s.scStage c with
    | some l => s.mayRun 0 x l
    | none => true)

/-- Service core `k` takes the READY context of least key that it may run, and an SC stage begins (06 R177). The slots in
which its state is loaded are front-starved; the model counts one (19 R419, log entry 160). -/
def State.dispatch (s : State) (k : Fin 64) : State :=
  match firstByKey (s.live.filter fun e => s.scMayRun e.1 e.2) with
  | none => s
  | some (c, x) =>
    let st := match s.scStage c with
      | some l => startStage (fun y => decide (y.pool = 0) && decide (y.index = l.index)) x.stages
      | none => x.stages
    (s.setCtx c { x with st := .running, core := some k, stages := st }).count (0x102 + 4 * k.val) 1

/-- CONTEXT_DISPATCH (06 R177): the core must be free. -/
def execContextDispatch (dt : Nat) (k : Fin 64) (s : State) : Out :=
  timed dt (fun s => s.powered && (s.ctxOn k).isNone) s (fun s => s.dispatch k)

/-- The SC stage under way ends, and the core is free. -/
def State.scEnds (s : State) (c : Nat) : State :=
  let x := s.ctx c
  s.setCtx c { x with stages := completeStage (fun l => decide (l.pool = 0) && l.started) x.stages, core := none }

/-! ### The end of a context -/

/-- The RESULT of NOP (02 R53). -/
def State.nopResult (s : State) : Nat :=
  (if s.sys.mode = .custody then 4 else 3) + lifecycleCode s.sys.lc * 256 +
  (if s.holds then 65536 else 0) + (if s.on (sevFld 72) then 131072 else 0)

/-- STATUS values a program may answer (06 R174). -/
def statusOk (n : Nat) : Bool := decide (n ≤ 3) || (decide (0x30 ≤ n) && decide (n ≤ 0x32)) || decide (0x80 ≤ n)

/-- The response block of context `c` or its payload holds a word with a double-bit error, which returns no data (01
R15). -/
def State.respDamaged (s : State) (c : Nat) : Bool :=
  let a := areaBase c
  s.damagedAt .ctx (a + 0x2040) 16 || s.damagedAt .ctx (a + 0x2080) (leAt (s.svcRead (a + 0x2040) 16) 2 2)

/-- The response that the response block of context `c` describes, where it passes R174. -/
def State.blockResponse (s : State) (c : Nat) : Option Response :=
  let x := s.ctx c
  let b := s.svcRead (areaBase c + 0x2040) 16
  let plen := leAt b 2 2
  if x.nop then some { status := 0, result := s.nopResult }
  else if s.respDamaged c then none
  else if statusOk (leAt b 0 1) && decide (plen ≤ x.respMax) then
    some { status := leAt b 0 1, detail := leAt b 4 4, result := leAt b 8 8, payload := s.svcRead (areaBase c + 0x2080) plen }
  else none

/-- END retires on service core `k` for context `c` (06 R174, R175): from here on a STATE entry counts as committed. -/
def State.endRun (s : State) (c : Nat) (k : Nat) : State :=
  let s := s.scEnds c
  let s := s.setCtx c { s.ctx c with committed := (s.ctx c).isState }
  match s.blockResponse c with
  | none =>
    let s := if s.respDamaged c then s.signal 56 0 else s
    (s.raise DSP_EVT_RESP_BAD).endWith c (faultResp 4 k)
  | some r =>
    if (s.ctx c).isState && (decide (r.status ≤ 0x0F) || decide (0x80 ≤ r.status)) then s.endCommit c r
    else s.endWith c r

/-- An exception in a service context (06 R176): the log, the events, and the FAULT answer. -/
def State.svcException (s : State) (c k cause detail : Nat) : State :=
  let x := s.ctx c
  let s := s.wr DSP_XLOG (BitVec.ofNat 64 (s.indexOf c % 4096 * 2 ^ 52 + detail % 16 * 2 ^ 48 +
    x.req.service % 65536 * 2 ^ 32 + 2 ^ 31 + c * 2 ^ 18 + k * 2 ^ 8 + cause))
  let s := ((s.raise DSP_EVT_PROG_EXC).count 0x05F 1).signal 83 0
  (s.scEnds c).endWith c (faultResp 4 k)

/-! ### The grant of a response -/

/-- The response as SVC sends it: its FLAGS and its timestamp block (02 R41, R42); one that waited for
log room is LATE (10 R267). TS_LOCKED tells whether the timebase
was locked to PTP, which no register holds: a free value; so is whether a response granted in the last 180 ns before
its deadline leaves after it (log entries 5, 23). -/
def State.finalResponse (s : State) (x : Ctx) (r : Response) : Response × Bool :=
  let late := match x.key with
    | some e => x.late || decide (e + 180 < s.tb) || (decide (e < s.tb) && Config.freeBit s.freeCtr)
    | none => x.late
  let ts := x.req.tsreq
  ({ r with flags := (if ts then 1 else 0) + (if late then 2 else 0) + (if x.mirrored then 4 else 0) +
              (if Config.freeBit (s.freeCtr + 1) then 8 else 0),
            ts := if ts then some (x.ingress, x.respAt) else none }, late)

/-- The counts and events of a response: LATE, and an entry that is answered past E + 20 us without having been cancelled
(03 R84; 19 Table 19.4). -/
def State.countLate (s : State) (x : Ctx) (late : Bool) : State :=
  let s := if late then s.count 0x04F 1 else s
  match x.key with
  | some e => if decide (e + 20000 < s.tb) && !x.cancelled then s.reportOverrun else s
  | none => s

/-- A STATE ending on the holder that committed nothing sends a MIRROR with JSEQ 0 after its grant (12 R299). -/
def State.mirrorEnding (s : State) (x : Ctx) (r : Response) : State :=
  if x.isState && s.holds && x.commitEntries.isEmpty && !x.mirrored then
    s.sendMirror 0 [] (mirrorBody x.req.requester x.req.seq [] (s.mirrorTail x r))
  else s

/-- The response of context `c` goes to port `p`: it is sent, or dropped where the port cannot transmit, and the
context becomes FREE. -/
def State.grantTo (s : State) (p : Fin 4) (c : Nat) (x : Ctx) (r : Response) : State :=
  let (r', late) := s.finalResponse x r
  let s := s.drawn 2
  let content := s.crpFrame p x.reply (r'.bytes x.req s.devid)
  let s := if s.canSend p then
      ((s.sendFrame p content s.tb).takePort p (s.tb + wireNs (frameLen (s.secy p) content))).countLate x late
    else s.raise SVC_EVT_RESP_DROP
  (s.mirrorEnding x r).freeCtx c

/-- The TX stage of an entry may start in the pool of port `p`. -/
def State.txMayRun (s : State) (p : Fin 4) (x : Ctx) : Bool :=
  match nextStage x (6 + p.val) with
  | some l => s.mayRun (6 + p.val) x l
  | none => true

/-- The TX pool of port `p` takes the grantable response of least key that it may run (03 R73, R75). -/
def State.grant (s : State) (p : Fin 4) : State :=
  match firstByKey (s.live.filter fun e => decide (e.2.src = .port p ∧ e.2.st = .ending) && e.2.grantable &&
      s.txMayRun p e.2) with
  | none => s
  | some (c, x) => match x.resp with
    | some r => s.grantTo p c x r
    | none => s

/-- RESPONSE_GRANT (03 R75): the port's transmit unit must be free, also of the refusals that went before. -/
def execResponseGrant (dt : Nat) (port : Fin 4) (s : State) : Out :=
  timed dt State.powered s (fun s =>
    let s := s.flushRefusals port
    if s.portFree port ≤ s.tb then s.grant port else s)

/-- DSP writes an internal request's response into its ring slot (06 R186). -/
def State.writeRing (s : State) (c : Nat) : State :=
  let x := s.ctx c
  match x.src, x.resp with
  | .ring i, some r =>
    let (r', late) := s.finalResponse x r
    let s := ((s.drawn 2).ringAnswer i (r'.bytes x.req s.devid)).countLate x late
    (s.mirrorEnding x r).freeCtx c
  | _, _ => s

/-- IREQ_RESPONSE_WRITTEN (06 R186). -/
def execIreqResponseWritten (dt : Nat) (c : Fin 8192) (s : State) : Out :=
  timed dt (fun s => decide ((s.ctx c.val).st = .ending) && (s.ctx c.val).grantable) s (fun s => s.writeRing c.val)

/-! ### Program slots and the dispatch table -/

/-- Program slot `n`. -/
def State.prog (s : State) (n : Nat) : Prog := sget {} s.dsp.progs n

/-- The services whose dispatch entry in bank `b` is VALID, ascending. -/
def State.dispatched (s : State) (b : Nat) : List Nat :=
  s.regs.filterMap fun e =>
    let a := e.1
    if bankAddr b 0x40420000 ≤ a ∧ a < bankAddr b 0x40440000 ∧ (a - bankAddr b 0x40420000) % 32 = 0 ∧
      e.2.getLsbD 31 = true
    then some ((a - bankAddr b 0x40420000) / 32) else none

/-- Bank `b` references the slot. -/
def State.references (s : State) (b slot : Nat) : Bool :=
  (s.dispatched b).any fun v => decide (natBits (s.dispWord b v 0) 0 10 = slot)

/-- Live contexts that run the slot. -/
def State.slotLive (s : State) (slot : Nat) : Nat := (s.live.filter fun e => decide (e.2.prog = slot)).length

/-- The slot is referenced by neither bank and runs no context (06 R185, Table 6.8). -/
def State.slotIdle (s : State) (slot : Nat) : Bool :=
  !s.references 0 slot && !s.references 1 slot && decide (s.slotLive slot = 0)

/-- Empty a program slot: its program, code and constants. -/
def State.emptySlot (s : State) (slot : Nat) : State :=
  { s with damaged := healed s.damaged .ctx (0x8000 * slot) 0x8000, dsp := { s.dsp with
      progs := sput {} s.dsp.progs slot {},
      mem := s.dsp.mem.filter fun e => !(decide (0x8000 * slot ≤ e.1) && decide (e.1 < 0x8000 * (slot + 1))) } }

/-- A write of DSP_PSLOT_STAT (06 R185). -/
def State.pslotFree (s : State) (v : Word32) : State :=
  if v.getLsbD 31 then
    let slot := s.fget DSP_PSLOT_SEL_SLOT
    if s.slotIdle slot then s.emptySlot slot else s.raise DSP_EVT_EPOCH_ERR
  else s

/-! ### The epoch switch (03 R69, 06 R184) -/

/-- A write of DSP_EPOCH or ADM_EPOCH: SWITCH starts the joint switch, or fails while old entries live, which leaves
DSP_EPOCH_ESVC as it was. A SWITCH while the joint switch runs is ignored (DESIGN CHOICE, log entry 120). -/
def State.epochSwitch (s : State) (v : Word32) : State :=
  if !v.getLsbD 31 || s.on DSP_EPOCH_BUSY then s
  else if 0 < s.oldLive then (s.fset DSP_EPOCH_ERR 6).raise DSP_EVT_EPOCH_ERR
  else (s.raise DSP_EPOCH_BUSY).raise ADM_EPOCH_BUSY

/-- The code of 06 Table 6.10 that fails the dispatch entry of a service in bank `b`, if any. -/
def State.entryFault (s : State) (b v : Nat) : Option Nat :=
  let w := s.dispWord b v
  let p := s.prog (natBits (w 0) 0 10)
  let reserved := natBits (w 0) 10 13 + natBits (w 1) 30 2 + natBits (w 1) 14 2 + natBits (w 2) 14 2 + w 6 + w 7
  let plenMax := natBits (w 1) 16 14
  let respMax := natBits (w 2) 0 14
  let minCls := natBits (w 0) 23 3
  if !p.loaded then some 1
  else if reserved ≠ 0 ∨ natBits (w 0) 26 2 = 3 ∨ plenMax < natBits (w 1) 0 14 ∨ 8192 < plenMax ∨ 8192 < respMax then some 2
  else if p.descs.any (fun d => decide (d.flags % 2 = 1)) && (decide (natBits (w 0) 28 1 = 0) || decide (natBits (w 0) 26 2 = 0))
    then some 3
  else if minCls = 0 ∧ (256 < plenMax ∨ 256 < respMax) then some 4
  else if p.state ∧ minCls < 2 then some 5
  else none

/-- The first entry that fails validation, with its code. -/
def State.firstFault (s : State) (b : Nat) : List Nat → Option (Nat × Nat)
  | [] => none
  | v :: t => match s.entryFault b v with
    | some e => some (v, e)
    | none => s.firstFault b t

/-- The 27 bits of COST hold no more than this: a stage that lasts longer is charged as this (DESIGN CHOICE, log entry
139). -/
def costMax : Nat := 2 ^ 27 - 1

/-- The cost entry of a valid dispatch entry (06 R184, step 2). -/
def State.writeCost (s : State) (b v : Nat) : State :=
  let p := s.prog (natBits (s.dispWord b v 0) 0 10)
  let put := fun (s : State) (w n : Nat) => s.wr (bankAddr b (ADM_COST v w)) (BitVec.ofNat 64 n)
  let s := put s 0 (2 ^ 31 + (if p.rand then 2 ^ 30 else 0) + (if p.state then 2 ^ 29 else 0) + p.stages.length * 2 ^ 24 +
    natBits (s.dispWord b v 2) 0 14)
  let s := put s 1 p.lpath
  (List.range 6).foldl (fun s i => match p.stages[i]? with
    | some st => put s (2 + i) (st.pool * 2 ^ 28 + min st.cost costMax)
    | none => put s (2 + i) 0) s

/-- Every cost entry of bank `b` is written anew: those without a valid dispatch entry get VALID = 0. -/
def State.writeCosts (s : State) (b : Nat) : State :=
  let lo := bankAddr b 0x40340000
  let s' := { s with regs := s.regs.filter fun e =>
    !(decide (lo ≤ e.1) && decide (e.1 < lo + 0x20000) && decide ((e.1 - lo) % 32 = 0)) }
  (s.dispatched b).foldl (fun s v => s.writeCost b v) s'

/-- The limits of the class bounds (03 Table 3.1). -/
def boundLimits : List (Nat × Nat) :=
  [(800, 2000), (5000, 100000), (100000, 1000000), (1000000, 10000000), (10000000, 100000000),
   (100000000, 1000000000), (1000000000, 4000000000)]

/-- ADM's validation of bank `b` (03 R69). -/
def State.bankValid (s : State) (b : Nat) : Bool :=
  let bound := fun c : Nat => s.rdb b (ADM_CLASS_BOUND c)
  (List.range 7).all (fun c => match boundLimits[c]? with
    | some (lo, hi) => decide (lo ≤ bound c) && decide (bound c ≤ hi)
    | none => false) &&
  (List.range 6).all (fun c => decide (bound c < bound (c + 1))) &&
  (s.services b).all (fun v => match s.costEntry b v with
    | some ce => decide (ce.stages.length ≤ 6) && ce.stages.all (fun st => [0, 1, 2, 5].contains st.1)
    | none => true) &&
  (List.range 10).all (fun p => decide (s.fgetb b (ADM_POOL_CFG_FAST p) < s.meff p))

/-- The number of the next epoch (03 R69). -/
def State.nextEpoch (s : State) : Nat := if s.fget ADM_EPOCH_NUM = 0xFFFF then 1 else s.fget ADM_EPOCH_NUM + 1

/-- Bank `b` is in force in both units, with its blocking terms; those of the old bank stay for the entries that live. -/
def State.useBank (s : State) (b : Nat) : State :=
  { (s.fset ADM_STAT_BANK b).fset DSP_STAT_BANK b with adm := { s.adm with terms := s.bankTerms b, oldTerms := s.adm.terms } }

/-- Both banks switch at one instant, under a new epoch number (06 R184). -/
def State.bankSwitches (s : State) (b : Nat) : State :=
  ((((s.fset DSP_EPOCH_NUM s.nextEpoch).judgeSkew.fset ADM_EPOCH_NUM s.nextEpoch).fset DSP_EPOCH_ERR 0).useBank b).assignFast

/-- The validation fails with code `e` at service `v`. -/
def State.switchFails (s : State) (e v : Nat) : State :=
  ((s.fset DSP_EPOCH_ERR e).fset DSP_EPOCH_ESVC_ESVC v).raise DSP_EVT_EPOCH_ERR

/-- The joint validation of bank `b` (06 R184): a failure leaves both banks; a pass switches both at one instant. -/
def State.switchTo (s : State) (b : Nat) : State :=
  match s.firstFault b (s.dispatched b) with
  | some (v, e) => s.switchFails e v
  | none =>
    if (s.writeCosts b).bankValid b then (s.writeCosts b).bankSwitches b
    else ((s.writeCosts b).switchFails 7 0).raise ADM_EVT_EPOCH_ERR

/-- The joint validation ends. -/
def State.switchEnds (s : State) : State := ((s.lower DSP_EPOCH_BUSY).lower ADM_EPOCH_BUSY).switchTo (1 - s.bank)

/-- EPOCH_SWITCH_DONE (06 R184). -/
def execEpochSwitchDone (dt : Nat) (s : State) : Out := timed dt (fun s => s.on DSP_EPOCH_BUSY) s State.switchEnds

end Sys2Proof.Machine
end

