-- ==== Sys2Proof/Machine/Cph.lean ====
section
/-!
DEFINITION. Machine/Cph.lean: the cipher engines: command words (08 R212), the checks at issue (08 R213, R215), key
delivery and the checks at the unit (08 R214, R216, R217; 10 R259), the operations (08 R211), checked release (08 R219),
durations (08 R220), retirement and reinstatement (08 R222-R224).
-/

namespace Sys2Proof.Machine

/-! ### Unit registers -/

/-- Set or clear bit `u` of a unit register. -/
def State.putUnit (s : State) (a u : Nat) (b : Bool) : State := s.put (bitFld a u) b

/-! ### Command words (08 R212) -/

/-- A command of the cipher engines (08 Tables 8.2-8.5). -/
structure CphCmd where
  op : Nat
  tlen : Nat
  rsv : Nat
  osel : Bool
  rnd : Bool
  vfy : Bool
  dec : Bool
  alen : Nat
  len : Nat
  oktype : Nat
  oslot : Nat
  islot : Nat
  kslot : Nat
  tagOff : Nat
  auxOff : Nat
  outOff : Nat
  inOff : Nat
  rsv3 : Nat
  slen : Nat
  ivOff : Nat
  deriving DecidableEq, Repr

/-- The command that staging words spell. -/
def cphParse (ws : List Word) : CphCmd :=
  let w := fun (i lo n : Nat) => bitsOf (ws.getD i 0) lo n
  { op := w 0 48 16, tlen := w 0 40 8, rsv := w 0 36 4, osel := decide (w 0 35 1 = 1), rnd := decide (w 0 34 1 = 1),
    vfy := decide (w 0 33 1 = 1), dec := decide (w 0 32 1 = 1), alen := w 0 16 16, len := w 0 0 16, oktype := w 1 48 16,
    oslot := w 1 32 16, islot := w 1 16 16, kslot := w 1 0 16, tagOff := w 2 48 16, auxOff := w 2 32 16,
    outOff := w 2 16 16, inOff := w 2 0 16, rsv3 := w 3 24 40, slen := w 3 16 8, ivOff := w 3 0 16 }

/-- KW or KWP. -/
def isKw (op : Nat) : Bool := decide (op = 0x105) || decide (op = 0x106)
/-- SHA-2 digests. -/
def isSha2 (op : Nat) : Bool := decide (0x201 ≤ op) && decide (op ≤ 0x204)
/-- SHA-3 digests. -/
def isSha3 (op : Nat) : Bool := decide (0x301 ≤ op) && decide (op ≤ 0x304)
/-- SHAKE. -/
def isShake (op : Nat) : Bool := decide (op = 0x311) || decide (op = 0x312)
/-- HMAC. -/
def isHmac (op : Nat) : Bool := decide (0x211 ≤ op) && decide (op ≤ 0x214)
/-- KMAC. -/
def isKmac (op : Nat) : Bool := decide (op = 0x321) || decide (op = 0x322)
/-- CMAC, HMAC or KMAC. -/
def isMac (op : Nat) : Bool := decide (op = 0x104) || isHmac op || isKmac op
/-- GCM, CTR or XTS. -/
def isStream (op : Nat) : Bool := decide (0x101 ≤ op) && decide (op ≤ 0x103)
/-- NONCE6979 or MLDSA_PRE, which write only to a slot. -/
def isPre (op : Nat) : Bool := decide (op = 0x501) || decide (op = 0x601)

/-- The operation is in 08 Table 8.1. -/
def cphKnown (op : Nat) : Bool :=
  isStream op || isMac op || isKw op || isSha2 op || isSha3 op || isShake op || isPre op || decide (op = 0x401)

/-- The words of a command. -/
def cphWords (op : Nat) : Nat := if isStream op || isKmac op then 4 else 3

/-- The digest length of a hash operation, by the last digit of its code. -/
def digestLen (op : Nat) : Nat :=
  match op % 16 with
  | 1 => 28
  | 2 => 32
  | 3 => 48
  | _ => 64

/-- The operation takes a key at KSLOT. -/
def takesKey (op : Nat) : Bool := isStream op || isMac op || isKw op || isPre op

/-- The tag or MAC length with its default (08 Table 8.1). -/
def CphCmd.tag (m : CphCmd) : Nat :=
  if m.tlen ≠ 0 then m.tlen
  else if isHmac m.op then digestLen m.op
  else if isKmac m.op then 32
  else 16

/-- The input length: RAND has none, and ISLOT supplies it where it is named. -/
def CphCmd.inLen (m : CphCmd) : Nat := if m.op = 0x401 ∨ m.islot ≠ 0 then 0 else m.len

/-- The length of the output that goes to OUT_OFF or to OSLOT (08 R212, R217). -/
def CphCmd.outLen (m : CphCmd) : Nat :=
  if isStream m.op then m.len
  else if m.op = 0x105 then (if m.dec then m.len - 8 else m.len + 8)
  else if m.op = 0x106 then (if m.dec then m.len - 8 else (m.len + 7) / 8 * 8 + 8)
  else if isMac m.op then (if m.vfy then 0 else m.tag)
  else if isShake m.op then m.alen
  else if isSha2 m.op || isSha3 m.op then digestLen m.op
  else if m.op = 0x401 then m.len
  else if m.op = 0x501 then m.len
  else 128

/-- The tag buffer is used. -/
def CphCmd.usesTag (m : CphCmd) : Bool := decide (m.op = 0x101) || m.vfy

/-- Check 1 of 08 R213: the operation, the word count, reserved and unused fields, OSEL. -/
def CphCmd.formOk (m : CphCmd) (nwords : Nat) : Bool :=
  cphKnown m.op && decide (nwords = cphWords m.op) && decide (m.rsv = 0) && decide (m.rsv3 = 0) &&
  (isMac m.op || decide (m.op = 0x101) || decide (m.tlen = 0)) &&
  (decide (m.op = 0x601) || !m.rnd) && (isMac m.op || !m.vfy) &&
  (decide (m.op = 0x101) || decide (m.op = 0x103) || isKw m.op || !m.dec) &&
  (decide (m.op = 0x101) || isShake m.op || decide (m.alen = 0)) &&
  (m.osel || decide (m.oktype = 0 ∧ m.oslot = 0)) && (!isPre m.op || (m.osel && decide (m.oktype = 0))) &&
  !(m.osel && m.vfy) && ((isKw m.op && !m.dec) || decide (m.islot = 0)) && (takesKey m.op || decide (m.kslot = 0)) &&
  (m.usesTag || decide (m.tagOff = 0)) && (decide (m.op = 0x101) || isKmac m.op || decide (m.auxOff = 0)) &&
  ((!m.osel && !m.vfy) || decide (m.outOff = 0)) && (decide (m.op ≠ 0x401) || decide (m.inOff = 0)) &&
  (isKmac m.op || decide (m.slen = 0)) && (isStream m.op || decide (m.ivOff = 0))

/-- Check 2 of 08 R213: the issue descriptor. -/
def CphCmd.matchesDesc (m : CphCmd) (d : IssueDesc) : Bool :=
  decide (m.op = d.opcode) && decide (m.len ≤ d.maxlen) &&
  (decide (d.flags % 2 = 1) || decide (m.kslot = 0 ∧ m.islot = 0 ∧ m.oslot = 0)) &&
  (decide (d.flags / 2 % 2 = 1) || (!m.rnd && decide (m.op ≠ 0x401))) &&
  (!isKw m.op || (m.dec == decide (d.flags / 4 % 2 = 1)))

/-- The input buffers of a command, as offset and length. -/
def CphCmd.inputs (m : CphCmd) : List (Nat × Nat) :=
  ([(m.inOff, m.inLen), (m.auxOff, if m.op = 0x101 then m.alen else m.slen),
    (m.ivOff, if m.op = 0x101 then 12 else if isStream m.op then 16 else 0),
    (m.tagOff, if m.vfy || (decide (m.op = 0x101) && m.dec) then m.tag else 0)]).filter fun b => decide (0 < b.2)

/-- The output buffers of a command. -/
def CphCmd.outputs (m : CphCmd) : List (Nat × Nat) :=
  ([(m.outOff, if m.osel || m.vfy then 0 else m.outLen),
    (m.tagOff, if m.op = 0x101 ∧ !m.dec then m.tag else 0)]).filter fun b => decide (0 < b.2)

/-- Two spans overlap. -/
def spansMeet (a b : Nat × Nat) : Bool := decide (a.1 < b.1 + b.2) && decide (b.1 < a.1 + a.2)

/-! ### Slots -/

/-- What the private key bus delivers from a slot (10 R259, R261): nothing where a word of its content holds a double-bit
error (01 R15). -/
def State.slotContent (s : State) (slot : Nat) : Option SlotContent :=
  let ofRec := fun (x : Option (Nat × KeyRec)) =>
    x.map fun e => { type := e.2.type, use := some e.2.use, wrappable := e.2.wrappable, bytes := e.2.key : SlotContent }
  if slot = 0 ∨ s.slotBad slot then none
  else if slot ≤ 0x0FFF then ofRec (s.fixedRec slot)
  else if slot ≤ 0x3FFF then ofRec (s.boundRec slot)
  else if slot ≤ 0x7FFF then
    let t := s.transient slot
    if t.type = 0 then none else some { type := t.type, use := none, wrappable := true, bytes := t.bytes }
  else none

/-- The lengths of a record type, those of the transient types included (10 Table 10.2). -/
def typeLenOk (type len : Nat) : Bool :=
  klenOk type len || (decide (type = 0xF0) && (decide (len = 32) || decide (len = 48))) ||
  (decide (type = 0xF1) && decide (len = 128))

/-- The lengths of a command are inside 08 Table 8.1. -/
def CphCmd.lengthOk (m : CphCmd) : Bool :=
  match m.op with
  | 0x101 => decide (m.len ≤ 8192 ∧ m.alen ≤ 1024 ∧ 12 ≤ m.tag ∧ m.tag ≤ 16)
  | 0x102 => decide (1 ≤ m.len ∧ m.len ≤ 8192)
  | 0x103 => decide (16 ≤ m.len ∧ m.len ≤ 8192)
  | 0x104 => decide (m.len ≤ 8192 ∧ 8 ≤ m.tag ∧ m.tag ≤ 16)
  | 0x105 =>
    if m.dec then decide (24 ≤ m.len ∧ m.len ≤ 1032 ∧ m.len % 8 = 0) else decide (16 ≤ m.len ∧ m.len ≤ 1024 ∧ m.len % 8 = 0)
  | 0x106 => if m.dec then decide (16 ≤ m.len ∧ m.len ≤ 1032 ∧ m.len % 8 = 0) else decide (1 ≤ m.len ∧ m.len ≤ 1024)
  | 0x311 | 0x312 => decide (m.len ≤ 8192 ∧ 1 ≤ m.alen ∧ m.alen ≤ 8192)
  | 0x321 | 0x322 => decide (m.len ≤ 8192 ∧ m.slen ≤ 64 ∧ 16 ≤ m.tag ∧ m.tag ≤ 64)
  | 0x401 => decide (16 ≤ m.len ∧ m.len ≤ 64 ∧ m.len % 16 = 0)
  | 0x501 => decide (m.len = 32 ∨ m.len = 48)
  | op => decide (m.len ≤ 8192) && (!isHmac op || decide (16 ≤ m.tag ∧ m.tag ≤ digestLen op))

/-- The key type that an operation accepts, with its length (08 Table 8.1). -/
def CphCmd.typeOk (m : CphCmd) (k : SlotContent) : Bool :=
  let aes := decide (k.type = 1) || decide (k.type = 2)
  if m.op = 0x103 then decide (k.type = 3) || decide (k.type = 4)
  else if isHmac m.op then decide (k.type = 0x11) && decide (k.bytes.length ≤ if m.op ≤ 0x212 then 64 else 128)
  else if isKmac m.op then decide (k.type = 0x12)
  else if m.op = 0x501 then (decide (k.type = 0x30) && decide (m.len = 32)) || (decide (k.type = 0x31) && decide (m.len = 48))
  else if m.op = 0x601 then decide (k.type = 0x51)
  else aes

/-- The usage bit that a command needs on KSLOT (10 Table 10.4). The table lists OSEL 1 of HMAC and KMAC alone; CMAC with
OSEL 1, whose result too goes to a slot, needs DERIVE as they do (DESIGN CHOICE, log entry 159). -/
def CphCmd.useNeeded (m : CphCmd) : Nat :=
  if isStream m.op then (if m.dec then 1 else 0)
  else if isKw m.op then (if m.dec then 3 else 2)
  else if isMac m.op then (if m.vfy then 5 else if m.osel then 6 else 4)
  else 7

/-- Bit `n` of the usage bits; a transient slot carries none and passes. -/
def SlotContent.may (k : SlotContent) (n : Nat) : Bool :=
  match k.use with
  | none => true
  | some u => decide (u / 2 ^ n % 2 = 1)

/-- The slots of a command, their types, lengths and usage bits (08 R214, R217; 10 R259). -/
def CphCmd.slotsOk (m : CphCmd) (key plain : Option SlotContent) : Bool :=
  (!takesKey m.op || (match key with
    | some k => m.typeOk k && k.may m.useNeeded
    | none => false)) &&
  (decide (m.islot = 0) || (match plain with
    | some k => k.wrappable && decide (k.bytes.length = m.len)
    | none => false)) &&
  (!m.osel || isPre m.op || (decide (16 ≤ m.outLen) && decide (m.outLen ≤ 128) &&
    (decide (m.op = 0x106 ∧ m.dec) || typeLenOk m.oktype m.outLen)))

/-! ### The checks at issue (08 R213, R215) -/

/-- The commands of a context that have not completed, of both pools. -/
def State.outstanding (s : State) (c : Nat) : List EngCmd :=
  let ofUnits := fun (m : Sparse EngUnit) => m.filterMap (·.2.cmd)
  (s.cphQ ++ s.mauQ ++ ofUnits s.cph ++ ofUnits s.mau ++ s.mauBuf.filterMap (·.cmd)).filter fun x => decide (x.ctx = c)

/-- A slot that a context may name (10 R261). A reserved number passes here and fails at the unit with KEY_TYPE. -/
def State.mayName (s : State) (c slot : Nat) : Bool :=
  decide (slot = 0) || decide (slot = tsSlot c 0) || decide (slot = tsSlot c 1) || decide (slot ≤ 0x0FFF) ||
  decide (0x8000 ≤ slot) ||
  (match (s.ctx c).bound with
   | some i => match s.cachedAt i with
     | some x => decide (x.bindSlot = some slot)
     | none => false
   | none => false)

/-- Checks 1 to 5 of 08 R213 for context `c`: the command, its descriptor, and the capability it is issued under. -/
def State.cphIssueOk (s : State) (c : Nat) (ws : List Word) (d : IssueDesc) (ce : Cap) : Bool :=
  let m := cphParse ws
  m.formOk ws.length && m.matchesDesc d &&
  (decide (m.kslot = 0 ∧ m.islot = 0 ∧ m.oslot = 0) || permBit ce.perms pKSLOT) &&
  ((m.inputs ++ m.outputs).all fun b => decide (ce.base.toNat + b.1 + b.2 ≤ ce.limit)) &&
  (!m.osel || decide (m.oslot = tsSlot c 0) || decide (m.oslot = tsSlot c 1)) && s.mayName c m.kslot && s.mayName c m.islot

/-! ### The result (08 R211, R214) -/

/-- `n` bytes of a command's input from an offset of its capability, as the unit took them in (08 R215). -/
def EngCmd.input (e : EngCmd) (off n : Nat) : List Byte := prvRead e.snap (e.base + off) n

/-- The result of a command: STATUS, the output, the GCM tag. -/
structure CphResult where
  status : Nat
  out : List Byte := []
  tag : List Byte := []
  deriving DecidableEq, Repr

/-- The key bytes. -/
def keyBytes : Option SlotContent → List Byte
  | some k => k.bytes
  | none => []

/-- An untruncated MAC of a MAC operation; KMAC's length is an operand of its own. -/
def CphCmd.mac (m : CphCmd) (key input aux : List Byte) : List Byte :=
  match m.op with
  | 0x104 => aesCmac key input
  | 0x211 => hmac 28 key input
  | 0x212 => hmac 32 key input
  | 0x213 => hmac 48 key input
  | 0x214 => hmac 64 key input
  | 0x321 => kmac 168 m.tag key aux input
  | _ => kmac 136 m.tag key aux input

/-- An operation that verifies: its output, or TAG_FAIL. -/
def opened : Option (List Byte) → CphResult
  | some o => { status := 0, out := o }
  | none => { status := 1 }

/-- The operation itself, on its operands: key, plaintext from ISLOT or the input, associated data or S, IV, expected
tag, random bytes. -/
def CphCmd.compute (m : CphCmd) (key input aux iv tag rand : List Byte) : CphResult :=
  match m.op with
  | 0x101 =>
    if m.dec then opened (gcmOpen key iv aux input tag)
    else { status := 0, out := (gcmSeal key iv aux input).1, tag := (gcmSeal key iv aux input).2.take m.tag }
  | 0x102 => { status := 0, out := aesCtr key iv input }
  | 0x103 => { status := 0, out := aesXts m.dec key iv input }
  | 0x105 => if m.dec then opened (kwUnwrap key input) else { status := 0, out := kwWrap key input }
  | 0x106 => if m.dec then opened (kwpUnwrap key input) else { status := 0, out := kwpWrap key input }
  | 0x401 => { status := 0, out := padTo m.len rand }
  | 0x501 =>
    match (if m.len = 32 then p256 else p384).nonce key input with
    | some k => { status := 0, out := beBytes m.len k }
    | none => { status := 4 }
  | 0x601 =>
    let mu := shake256 64 (slice key 64 64 ++ input)
    { status := 0
      out := mu ++ shake256 64 (slice key 32 32 ++ (if m.rnd then padTo 32 rand else List.replicate 32 0) ++ mu) }
  | _ =>
    if isMac m.op then
      let o := (m.mac key input aux).take m.tag
      if m.vfy then { status := if o = tag then 0 else 1 } else { status := 0, out := o }
    else { status := 0, out := hash m.op m.outLen input }

/-- The bytes of random blocks. -/
def blockBytes (bs : List (BitVec 256)) : List Byte := (bs.map fun b => leBytes 32 b.toNat).flatten

/-- The unit reads the whole input of its command into its staging buffer (08 R210, R215). -/
def EngUnit.staged (x : EngUnit) (e : EngCmd) : EngUnit :=
  let m := cphParse e.words
  { x with input := e.input m.inOff m.inLen }

/-- The result of the command that unit `x` runs, with its input staged. -/
def EngUnit.cphResult (x : EngUnit) (e : EngCmd) : CphResult :=
  let m := cphParse e.words
  let rd := e.input
  if !m.lengthOk then { status := 3 }
  else if !m.slotsOk x.key x.plain then { status := 2 }
  else
    let r := m.compute (keyBytes x.key) (if m.islot ≠ 0 then keyBytes x.plain else x.input)
      (rd m.auxOff (if m.op = 0x101 then m.alen else m.slen))
      (rd m.ivOff (if m.op = 0x101 then 12 else if isStream m.op then 16 else 0)) (rd m.tagOff m.tag) (blockBytes x.got)
    if r.status = 0 ∧ m.osel ∧ !isPre m.op ∧ !typeLenOk m.oktype r.out.length then { status := 2 } else r

/-- The record type that a slot output receives. -/
def CphCmd.outType (m : CphCmd) : Nat := if m.op = 0x501 then 0xF0 else if m.op = 0x601 then 0xF1 else m.oktype

/-- Output is released (08 R215, R217): to OUT_OFF and TAG_OFF, or to OSLOT. -/
def State.release (s : State) (e : EngCmd) (r : CphResult) : State :=
  let m := cphParse e.words
  if r.status ≠ 0 then s
  else
    let s := if m.osel then s.setTransient m.oslot { type := m.outType, bytes := r.out }
      else if m.vfy then s else s.svcWrite (e.base + m.outOff) r.out
    if m.op = 0x101 ∧ !m.dec then s.svcWrite (e.base + m.tagOff) r.tag else s

/-! ### Ledger and tickets -/

/-- The stage of a command begins or completes in its context's ledger entry (03 R79). -/
def State.cmdStage (s : State) (e : EngCmd) (begins : Bool) : State :=
  let x := s.ctx e.ctx
  let mine := fun (l : LStage) => decide ((l.pool = 1 ∨ l.pool = 2) ∧ l.index = e.index)
  s.setCtx e.ctx { x with stages := if begins then startStage mine x.stages else completeStage (fun l => mine l && l.started) x.stages }

/-- The completion word (04 R131). -/
def doneWord (unit status : Nat) : Word := BitVec.ofNat 64 (2 ^ 63 + unit * 2 ^ 32 + status)

/-- The command completes on `unit` with `status`. -/
def State.completeCmd (s : State) (e : EngCmd) (unit status : Nat) : State :=
  (s.cmdStage e false).postTicket e.ctx e.ticket (doneWord unit status)

/-! ### Starting a command (03 Table 3.3, 08 R216) -/

/-- A cipher engine. -/
def State.cphUnit (s : State) (u : Nat) : EngUnit := sget {} s.cph u
/-- Replace a cipher engine. -/
def State.setCph (s : State) (u : Nat) (x : EngUnit) : State := { s with cph := sput {} s.cph u x }

/-- Unit `u` is idle: it runs nothing and no retirement or self-test holds it. -/
def State.cphIdle (s : State) (u : Nat) : Bool :=
  (s.cphUnit u).cmd.isNone && !(s.cphUnit u).testing && !s.cphTake.any fun e => decide (e.1 = u)

/-- Spare `u` will take the role of a unit when the reissue it runs ends (08 R222). -/
def State.cphTaken (s : State) (u : Nat) : Bool := s.cphTake.any fun e => decide (e.2 = u)

/-- The ledger stage of a command is long. -/
def State.cmdLong (s : State) (e : EngCmd) : Bool := (s.ctx e.ctx).stages.any fun l => decide (l.index = e.index) && l.long &&
  decide (l.pool = 1 ∨ l.pool = 2)

/-- Long stages under way in a pool's units. -/
def State.longRunning (s : State) (m : Sparse EngUnit) : Nat :=
  (m.filter fun e => match e.2.cmd with
    | some x => s.cmdLong x
    | none => false).length

/-- The waiting command of least key among those that satisfy `p`. -/
def State.leastCmd (s : State) (p : EngCmd → Bool) : List EngCmd → Option EngCmd
  | [] => none
  | e :: t =>
    match s.leastCmd p t with
    | none => if p e then some e else none
    | some m => if p e && !((s.ctx m.ctx).before (s.ctx e.ctx)) then some e else some m

/-- The command that a free unit takes: a reissue first, then the one of least key that it may run. -/
def State.nextCmd (s : State) (q : List EngCmd) (fastUnit : Bool) (longOk : Bool) : Option EngCmd :=
  match q.find? (·.reissue) with
  | some e => some e
  | none => s.leastCmd (fun e => (!fastUnit || (s.ctx e.ctx).fast) && (longOk || !s.cmdLong e)) q

/-- The blocks a command draws (08 R218, 11 Table 11.1): none where its checks fail. -/
def CphCmd.blocks (m : CphCmd) (key plain : Option SlotContent) : Nat :=
  if !m.lengthOk || !m.slotsOk key plain then 0
  else if m.op = 0x401 then (m.len + 31) / 32
  else if m.op = 0x601 ∧ m.rnd then 1
  else 0

/-- The content of a slot in the complemented form in which the checker lane holds it (08 R210). -/
def SlotContent.complement (x : SlotContent) : SlotContent := { x with bytes := x.bytes.map fun b => ~~~b }

/-- Unit `u` takes the command: the keys are delivered to both lanes, and a captured mismatch names the unit of its
reissue. -/
def State.cphTakes (s : State) (u : Nat) (e : EngCmd) : State :=
  let m := cphParse e.words
  let key := s.slotContent m.kslot
  let plain := s.slotContent m.islot
  let s := s.setCph u { cmd := some e, startedAt := s.tb, key := key, plain := plain,
                        checkKey := key.map SlotContent.complement, checkPlain := plain.map SlotContent.complement,
                        want := m.blocks key plain }
  let s := s.cmdStage e true
  let s := if e.reissue then s.raise CPH_EVT_REISSUE else s
  if e.logged ∧ s.on CPH_MMLOG_VALID ∧ s.fget CPH_MMLOG_REUNIT = 0x1F then s.fset CPH_MMLOG_REUNIT u else s

/-- The effect of CPH_COMMAND_START on an active idle unit. -/
def State.cphStart (s : State) (u : Nat) : State :=
  match s.nextCmd s.cphQ (s.cphSet CPH_FASTROLE u) (decide (s.longRunning s.cph < s.longCap 1)) with
  | none => s
  | some e => { s with cphQ := s.cphQ.erase e }.cphTakes u e

/-- CPH_COMMAND_START (03 R73): an active unit that is free takes the ready command of least key. -/
def execCphCommandStart (dt : Nat) (u : Fin 18) (s : State) : Out :=
  timed dt (fun s => s.powered && s.cphSet CPH_ACTIVE u.val && s.cphIdle u.val) s (fun s => s.cphStart u.val)

/-! ### Completion (08 R219) -/

/-- The lowest idle spare. -/
def State.cphIdleSpare (s : State) : Option Nat :=
  (List.range 18).find? fun u => s.cphSet CPH_SPARE u && s.cphIdle u && !s.cphTaken u

/-- The capture of a mismatch in CPH_MMLOG; the commands whose mismatch it held before are its own no more. -/
def State.cphLog (s : State) (u : Nat) (e : EngCmd) : State :=
  { s.wr CPH_MMLOG (BitVec.ofNat 64 (2 ^ 63 + (cphParse e.words).op * 2 ^ 32 + e.ctx * 2 ^ 16 + 0x1F00 + u)) with
    cphQ := s.cphQ.map fun x => { x with logged := false }
    cph := s.cph.map fun x => (x.1, { x.2 with cmd := x.2.cmd.map fun e => { e with logged := false } }) }

/-- The lanes of unit `u` disagree: nothing is released, the capture, the fault event, and the reissue or the end. -/
def State.cphMismatch (s : State) (u : Nat) (e : EngCmd) : State :=
  let s := (s.countBusy 0x057 (s.tb - (s.cphUnit u).startedAt)).setCph u {} |>.raise CPH_EVT_MISMATCH
  let logs := !s.on CPH_MMLOG_VALID
  let s := if logs then s.cphLog u e else s.raise CPH_MMLOG_MORE
  let s := s.signal 64 u
  if e.second then (s.cmdStage e false).endWith e.ctx (faultResp 0x05 u)
  else
    let e := { e with reissue := true, second := true, logged := logs }
    match s.cphIdleSpare with
    | some v => s.cphTakes v e
    | none => { s with cphQ := e :: s.cphQ }

/-- The command of unit `u` ends with agreement. -/
def State.cphDone (s : State) (u : Nat) (x : EngUnit) (e : EngCmd) : State :=
  let x := x.staged e
  let r := x.cphResult e
  let s := ((s.setCph u { x with output := r.out ++ r.tag }).count 0x056 1).countBusy 0x057 (s.tb - x.startedAt)
  ((s.release e r).setCph u {}).completeCmd e u r.status

/-- CPH_COMPLETION (08 R219): a draw still waiting holds the unit. -/
def execCphCompletion (dt : Nat) (u : Fin 18) (agree : Bool) (s : State) : Out :=
  timed dt (fun s => (s.cphUnit u.val).want = 0 && (s.cphUnit u.val).cmd.isSome) s (fun s =>
    match (s.cphUnit u.val).cmd with
    | none => s
    | some e => if agree then s.cphDone u.val (s.cphUnit u.val) e else s.cphMismatch u.val e)

/-- The context is cancelled as an RNG cancellation (06 Table 6.5): answered RNG_FAIL, its tickets aborted. -/
def State.rngCancel (s : State) (c : Nat) : State := s.endWith c { status := 0x38 }

/-! ### Retirement (08 R222, R223) and reinstatement (08 R224) -/

/-- MEFF fell: ADM_EVT.SHRINK (03 R86). -/
def State.shrinkFrom (s : State) (p old : Nat) : State := if s.meff p < old then s.raise ADM_EVT_SHRINK else s

/-- Unit `u` moves to CPH_RETIRED. -/
def State.cphToRetired (s : State) (u : Nat) : State :=
  (((s.putUnit CPH_ACTIVE u false).putUnit CPH_SPARE u false).putUnit CPH_FASTROLE u false).putUnit CPH_RETIRED u true

/-- Spare `v` takes the role of unit `u`, which moves to CPH_RETIRED. -/
def State.cphRole (s : State) (u v : Nat) : State :=
  let fast := s.cphSet CPH_FASTROLE u
  let s := ((s.putUnit CPH_SPARE v false).putUnit CPH_ACTIVE v true).putUnit CPH_FASTROLE v fast
  (s.cphToRetired u).raise CPH_EVT_RETIRED

/-- The lowest spare that runs a reissue and is to take no other role. -/
def State.cphBusySpare (s : State) : Option Nat :=
  (List.range 18).find? fun u => s.cphSet CPH_SPARE u && (s.cphUnit u).cmd.isSome && !s.cphTaken u

/-- A command put at the head of the ready queue. -/
def State.cphHead (s : State) (cmd : Option EngCmd) : State :=
  match cmd with
  | some e => { s with cphQ := e :: s.cphQ }
  | none => s

/-- A FAST role that unit `u` held goes to the lowest-numbered active unit that holds none (08 R221). -/
def State.cphFastOn (s : State) (fast : Bool) : State :=
  match (List.range 18).find? fun u => s.cphSet CPH_ACTIVE u && !s.cphSet CPH_FASTROLE u with
  | some v => if fast then s.putUnit CPH_FASTROLE v true else s
  | none => s

/-- Unit `u` is retired onto no spare (08 R223). -/
def State.cphNoSpare (s : State) (u : Nat) : State :=
  ((((s.cphToRetired u).cphFastOn (s.cphSet CPH_FASTROLE u)).raise CPH_EVT_RETIRED).raise CPH_EVT_NO_SPARE)

/-- The role of unit `u` goes to the lowest idle spare at once; to the lowest spare that is busy with a reissue when that
ends; to none when none remains (08 R222, R223). -/
def State.cphRehome (s : State) (u : Nat) : State :=
  match s.cphIdleSpare, s.cphBusySpare with
  | some v, _ => s.cphRole u v
  | none, some v => { s with cphTake := s.cphTake ++ [(u, v)] }
  | none, none => s.cphNoSpare u

/-- A spare is retired: it moves no command, and a reissue that it runs goes on (08 R222). A unit that waited for it finds
another spare, or none. -/
def State.cphRetireSpare (s : State) (u : Nat) : State :=
  let waits := s.cphTake.filter fun e => decide (e.2 = u)
  let s := { ((s.cphToRetired u).raise CPH_EVT_RETIRED) with cphTake := s.cphTake.filter fun e => !decide (e.2 = u) }
  waits.foldl (fun s e => s.cphRehome e.1) s

/-- Retirement of a unit that is no spare: its role finds another home, and its abandoned command runs on the idle spare
that takes the role, or enters the head of the ready queue (08 R222, R223). -/
def State.cphRetireActive (s : State) (u : Nat) : State :=
  let cmd := (s.cphUnit u).cmd.map fun e => { e with reissue := true }
  let spare := s.cphIdleSpare
  let s := ((s.countBusy 0x057 (if cmd.isSome then s.tb - (s.cphUnit u).startedAt else 0)).setCph u {}).cphRehome u
  match spare, cmd with
  | some v, some e => s.cphTakes v e
  | _, _ => s.cphHead cmd

/-- Retirement of a unit, by the collector's reaction or by CPH_RETIRE (08 R222). The retirement of the last spare lets
MEFF fall, and SHRINK tells it (03 R71, R86; log entry 141). -/
def State.cphRetireUnit (s : State) (u : Nat) : State :=
  if s.cphSet CPH_RETIRED u || s.cphTake.any (fun e => decide (e.1 = u)) then s
  else (if s.cphSet CPH_SPARE u then s.cphRetireSpare u else s.cphRetireActive u).shrinkFrom 1 (s.meff 1)

/-- A write of CPH_RETIRE. -/
def State.cphRetire (s : State) (v : Word32) : State :=
  let u := v.toNat % 32
  if !v.getLsbD 31 then s else if 17 < u then s.raise CPH_EVT_CFG_REJ else s.cphRetireUnit u

/-- CPH_SPARE_TAKEOVER (08 R222): a spare whose reissue has ended takes the role of the unit that waits for it. -/
def execCphSpareTakeover (dt : Nat) (u : Fin 18) (s : State) : Out :=
  timed dt (fun s => s.cphTaken u.val && s.cphIdle u.val) s (fun s =>
    match s.cphTake.find? fun e => decide (e.2 = u.val) with
    | none => s
    | some r =>
      let t := { s with cphTake := s.cphTake.filter fun e => !decide (e.2 = u.val) }
      (t.cphRole r.1 u.val).shrinkFrom 1 (s.meff 1))

/-- A write of CPH_REINST (08 R224): only in CUSTODY, and of a retired unit. -/
def State.cphReinst (s : State) (v : Word32) : State :=
  let u := v.toNat % 32
  if !v.getLsbD 31 then s
  else if s.sys.mode ≠ .custody ∨ 17 < u ∨ !s.cphSet CPH_RETIRED u ∨ s.on CPH_BIST_BUSY then s.raise CPH_EVT_CFG_REJ
  else (s.wr CPH_BIST (BitVec.ofNat 64 (2 ^ 31 + u))).setCph u { s.cphUnit u with testing := true }

/-- CPH_BIST_DONE (08 R224). -/
def execCphBistDone (dt : Nat) (pass : Bool) (s : State) : Out :=
  timed dt (fun s => s.on CPH_BIST_BUSY) s (fun s =>
    let u := s.fget CPH_BIST_UNIT
    let s := (((s.lower CPH_BIST_BUSY).put CPH_BIST_PASS pass).put CPH_BIST_FAIL (!pass)).setCph u {}
    if pass then (s.putUnit CPH_RETIRED u false).putUnit CPH_SPARE u true else s.raise CPH_EVT_BIST_FAIL)

/-! ### Durations (08 R220) -/

/-- The time of one SHA-2 compression. -/
def sha2Ns (op : Nat) : Nat := if op % 16 ≤ 2 then 68 else 85
/-- The block size of a SHA-2 operation. -/
def sha2Block (op : Nat) : Nat := if op % 16 ≤ 2 then 64 else 128
/-- The compressions of a message of `m` bytes. -/
def sha2Blocks (op m : Nat) : Nat := if op % 16 ≤ 2 then cdiv (m + 9) 64 else cdiv (m + 17) 128
/-- The Keccak rate. -/
def keccakRate (op : Nat) : Nat :=
  match op with
  | 0x301 => 144
  | 0x303 => 104
  | 0x304 => 72
  | 0x311 | 0x321 => 168
  | _ => 136

/-- bound(0, OPCODE, MAXLEN, FLAGS) of 06 R181: the largest worst-corner duration of every command an issue descriptor
permits, in ns rounded up; none where the operation or the length is not in the table. -/
def cphBound (op maxlen flags : Nat) : Option Nat :=
  if !cphKnown op || decide (8192 < maxlen) then none
  else if op = 0x101 then some (cdiv (3300 + 512 * (64 + cdiv maxlen 16)) 100)
  else if op = 0x102 then some (cdiv (1700 + 512 * cdiv maxlen 16) 100)
  else if op = 0x103 then some (cdiv (2700 + 512 * (cdiv maxlen 16 + 1)) 100)
  else if op = 0x104 then some (cdiv (230 + 45 * max 1 (cdiv maxlen 16)) 10)
  else if op = 0x105 then
    if 1032 < maxlen then none
    else some (17 + 27 * (if flags / 4 % 2 = 1 then maxlen / 8 - 1 else maxlen / 8))
  else if op = 0x106 then
    if 1032 < maxlen then none
    else
      let n := if flags / 4 % 2 = 1 then maxlen / 8 - 1 else cdiv maxlen 8
      some (if n ≤ 1 then 22 else 17 + 27 * n)
  else if isSha2 op then some (17 + sha2Ns op * sha2Blocks op maxlen)
  else if isHmac op then some (17 + sha2Ns op * (sha2Blocks op (sha2Block op + maxlen) + 2))
  else if isSha3 op then some (17 + 60 * (cdiv (maxlen + 1) (keccakRate op) + cdiv (digestLen op) (keccakRate op) - 1))
  else if isShake op then some (17 + 60 * (cdiv (maxlen + 1) (keccakRate op) + cdiv 8192 (keccakRate op) - 1))
  else if isKmac op then some (17 + 60 * (2 + cdiv (maxlen + 4) (keccakRate op)))
  else if op = 0x401 then if 64 < maxlen then none else some (17 + 40 * (maxlen / 16))
  else if op = 0x501 then if maxlen < 32 ∨ 48 < maxlen then none else some (if maxlen < 48 then 2400 else 2995)
  else some (17 + 60 * (cdiv (maxlen + 65) 136 + 1) + (if flags / 2 % 2 = 1 then 80 else 0))

end Sys2Proof.Machine
end

