-- ==== Sys2Proof/Machine/Lattice.lean ====
section
/-!
DEFINITION. Machine/Lattice.lean: the transforms of 09 R234, ML-KEM-768 (FIPS 203) and ML-DSA-65 (FIPS 204) as 09 R238-R240
use them. PRESUMED from the standards, log entry 11; the block limits of the samplers and the attempts of a signature are
the spec's own.
-/

namespace Sys2Proof.Machine

/-- A polynomial: its 256 coefficients below q. -/
abbrev Poly := List Nat

/-! ### Coefficients and transforms (09 R227, R234) -/

/-- The sum of two polynomials. -/
def polyAdd (q : Nat) (a b : Poly) : Poly := List.zipWith (fun x y => (x + y) % q) a b
/-- Their difference. -/
def polySub (q : Nat) (a b : Poly) : Poly := List.zipWith (fun x y => (x + q - y) % q) a b
/-- A polynomial times a number. -/
def polyScale (q z : Nat) (a : Poly) : Poly := a.map fun x => z * x % q

/-- The `n` lowest bits of `k`, reversed. -/
def bitRev : Nat → Nat → Nat
  | 0, _ => 0
  | n + 1, k => k % 2 * 2 ^ n + bitRev n (k / 2)

/-- A transform's ring: the modulus, a root of unity and its order, the layers, the inverse of their number of leaves. -/
structure Ring where
  q : Nat
  root : Nat
  order : Nat
  layers : Nat
  scale : Nat
  deriving DecidableEq, Repr

/-- The ring of ML-KEM: a leaf holds two coefficients. -/
def kemRing : Ring := { q := 3329, root := 17, order := 256, layers := 7, scale := 3303 }
/-- The ring of ML-DSA. -/
def dsaRing : Ring := { q := 8380417, root := 1753, order := 512, layers := 8, scale := 8347681 }

/-- The root's power at node `k` of the tree of layers, counted from 1. -/
def Ring.zeta (r : Ring) (k : Nat) : Nat := powMod r.root r.q 10 (bitRev r.layers k)
/-- Its inverse. -/
def Ring.zetaInv (r : Ring) (k : Nat) : Nat := powMod r.root r.q 10 (r.order - bitRev r.layers k)

/-- `d` layers of the forward transform below node `k`. -/
def Ring.nttFrom (r : Ring) : Nat → Nat → Poly → Poly
  | 0, _, a => a
  | d + 1, k, a =>
    let lo := a.take (2 ^ d * (256 / 2 ^ r.layers))
    let hi := polyScale r.q (r.zeta k) (a.drop (2 ^ d * (256 / 2 ^ r.layers)))
    r.nttFrom d (2 * k) (polyAdd r.q lo hi) ++ r.nttFrom d (2 * k + 1) (polySub r.q lo hi)

/-- The forward NTT in the standard's order. -/
def Ring.ntt (r : Ring) (a : Poly) : Poly := r.nttFrom r.layers 1 a

/-- `d` layers of the inverse transform below node `k`. -/
def Ring.inttFrom (r : Ring) : Nat → Nat → Poly → Poly
  | 0, _, a => a
  | d + 1, k, a =>
    let lo := r.inttFrom d (2 * k) (a.take (2 ^ d * (256 / 2 ^ r.layers)))
    let hi := r.inttFrom d (2 * k + 1) (a.drop (2 ^ d * (256 / 2 ^ r.layers)))
    polyAdd r.q lo hi ++ polyScale r.q (r.zetaInv k) (polySub r.q lo hi)

/-- The inverse NTT, with its final scaling. -/
def Ring.intt (r : Ring) (a : Poly) : Poly := polyScale r.q r.scale (r.inttFrom r.layers 1 a)

/-- The base multiplication of FIPS 203 from leaf `i` on. -/
def baseMul (i : Nat) : Poly → Poly → Poly
  | a0 :: a1 :: a, b0 :: b1 :: b =>
    let g := powMod 17 3329 10 (2 * bitRev 7 i + 1)
    (a0 * b0 + a1 * b1 * g) % 3329 :: (a0 * b1 + a1 * b0) % 3329 :: baseMul (i + 1) a b
  | _, _ => []

/-- The product in the domain of the NTT. -/
def Ring.pwm (r : Ring) (a b : Poly) : Poly :=
  if r.layers = 7 then baseMul 0 a b else List.zipWith (fun x y => x * y % r.q) a b

/-- The zero polynomial. -/
def polyZero : Poly := List.replicate 256 0

/-- The sum of the products of two vectors, in the domain of the NTT. -/
def Ring.dot (r : Ring) (a b : List Poly) : Poly := (List.zipWith r.pwm a b).foldl (polyAdd r.q) polyZero

/-- Numbers of `d` bits each, packed from the lowest bit. -/
def packBits (d : Nat) (a : List Nat) : List Byte := leBytes (a.length * d / 8) (a.foldr (fun x n => x % 2 ^ d + 2 ^ d * n) 0)

/-- 256 numbers of `d` bits each. -/
def unpackBits (d : Nat) (l : List Byte) : List Nat :=
  let n := leNat l
  (List.range 256).map fun i => n / 2 ^ (d * i) % 2 ^ d

/-- STATUS SAMPLE: a sampler reached its block limit (09 R240). -/
def sampleFails {α : Type} : Except Nat α := .error 9

/-- The first 256 of the numbers, or SAMPLE where there are fewer. -/
def sampled (l : List Nat) : Except Nat Poly := if 256 ≤ l.length then .ok (l.take 256) else sampleFails

/-- Each polynomial of a list of samplings. -/
def allSampled : List (Except Nat Poly) → Except Nat (List Poly)
  | [] => .ok []
  | .error e :: _ => .error e
  | .ok p :: l => match allSampled l with
    | .error e => .error e
    | .ok ps => .ok (p :: ps)

/-- A matrix whose rows are sampled. -/
def sampledRows : List (List (Except Nat Poly)) → Except Nat (List (List Poly))
  | [] => .ok []
  | r :: l => match allSampled r, sampledRows l with
    | .ok p, .ok ps => .ok (p :: ps)
    | .error e, _ => .error e
    | _, .error e => .error e

/-! ### ML-KEM-768 (FIPS 203; 09 R238) -/

/-- The candidates of three bytes: two numbers of twelve bits. -/
def kemCandidates : List Byte → List Nat
  | a :: b :: c :: l => (a.toNat + 256 * (b.toNat % 16)) :: (b.toNat / 16 + 16 * c.toNat) :: kemCandidates l
  | _ => []

/-- SampleNTT, of at most seven SHAKE128 blocks (09 R240). -/
def kemSampleNtt (seed : List Byte) : Except Nat Poly :=
  sampled ((kemCandidates (shake128 (7 * 168) seed)).filter fun x => decide (x < 3329))

/-- The matrix Â of a seed ρ. -/
def kemMatrix (rho : List Byte) : Except Nat (List (List Poly)) :=
  sampledRows ((List.range 3).map fun i => (List.range 3).map fun j =>
    kemSampleNtt (rho ++ [BitVec.ofNat 8 j, BitVec.ofNat 8 i]))

/-- The centred binomial distribution with η = 2 of 128 bytes. -/
def kemCbd (l : List Byte) : Poly :=
  let n := leNat l
  let bit := fun i => n / 2 ^ i % 2
  (List.range 256).map fun i => (bit (4 * i) + bit (4 * i + 1) + 3329 - bit (4 * i + 2) - bit (4 * i + 3)) % 3329

/-- The small polynomial number `n` of a seed. -/
def kemNoise (sigma : List Byte) (n : Nat) : Poly := kemCbd (shake256 128 (sigma ++ [BitVec.ofNat 8 n]))

/-- Compression to `d` bits. -/
def kemCompress (d : Nat) (a : Poly) : Poly := a.map fun x => (2 ^ d * x * 2 + 3329) / (2 * 3329) % 2 ^ d
/-- Its inverse. -/
def kemDecompress (d : Nat) (a : Poly) : Poly := a.map fun x => (3329 * x * 2 + 2 ^ d) / (2 * 2 ^ d)

/-- The keys of K-PKE from the seed d: ŝ and the encapsulation key. -/
def kemKeys (d : List Byte) : Except Nat (List Poly × List Byte) :=
  let g := sha3 64 (d ++ [3])
  let rho := g.take 32
  match kemMatrix rho with
  | .error e => .error e
  | .ok m =>
    let s := (List.range 3).map fun i => kemRing.ntt (kemNoise (g.drop 32) i)
    let t := (List.range 3).map fun i => polyAdd 3329 (kemRing.dot (m.getD i []) s) (kemRing.ntt (kemNoise (g.drop 32) (3 + i)))
    .ok (s, (t.map (packBits 12)).flatten ++ rho)

/-- The modulus check of an encapsulation key. -/
def kemKeyOk (ek : List Byte) : Bool :=
  (List.range 3).all fun i => (unpackBits 12 (slice ek (384 * i) 384)).all fun x => decide (x < 3329)

/-- Encryption of a message of 32 bytes with the randomness r. -/
def kemEncrypt (ek msg r : List Byte) : Except Nat (List Byte) :=
  match kemMatrix (ek.drop 1152) with
  | .error e => .error e
  | .ok m =>
    let t := (List.range 3).map fun i => unpackBits 12 (slice ek (384 * i) 384)
    let y := (List.range 3).map fun i => kemRing.ntt (kemNoise r i)
    let u := (List.range 3).map fun i =>
      polyAdd 3329 (kemRing.intt (kemRing.dot (m.map fun row => row.getD i []) y)) (kemNoise r (3 + i))
    let v := polyAdd 3329 (polyAdd 3329 (kemRing.intt (kemRing.dot t y)) (kemNoise r 6)) (kemDecompress 1 (unpackBits 1 msg))
    .ok ((u.map fun p => packBits 10 (kemCompress 10 p)).flatten ++ packBits 4 (kemCompress 4 v))

/-- Decryption under ŝ. -/
def kemDecrypt (s : List Poly) (c : List Byte) : List Byte :=
  let u := (List.range 3).map fun i => kemRing.ntt (kemDecompress 10 (unpackBits 10 (slice c (320 * i) 320)))
  let v := kemDecompress 4 (unpackBits 4 (c.drop 960))
  packBits 1 (kemCompress 1 (polySub 3329 v (kemRing.intt (kemRing.dot s u))))

/-- MLKEM768_KEYGEN of d ‖ z: the encapsulation key. -/
def kemKeygen (seed : List Byte) : Except Nat (List Byte) :=
  match kemKeys (seed.take 32) with
  | .error e => .error e
  | .ok k => .ok k.2

/-- MLKEM768_ENCAPS: RANGE for a key that fails its modulus check; else the ciphertext and the shared secret K. -/
def kemEncaps (ek msg : List Byte) : Except Nat (List Byte × List Byte) :=
  if !kemKeyOk ek then .error 4
  else
    let g := sha3 64 (msg ++ sha3 32 ek)
    match kemEncrypt ek msg (g.drop 32) with
    | .error e => .error e
    | .ok c => .ok (c, g.take 32)

/-- MLKEM768_DECAPS of the record's d ‖ z, with implicit rejection. -/
def kemDecaps (seed c : List Byte) : Except Nat (List Byte) :=
  match kemKeys (seed.take 32) with
  | .error e => .error e
  | .ok (s, ek) =>
    let m := kemDecrypt s c
    let g := sha3 64 (m ++ sha3 32 ek)
    match kemEncrypt ek m (g.drop 32) with
    | .error e => .error e
    | .ok c' => .ok (if c = c' then g.take 32 else shake256 32 (slice seed 32 32 ++ c))

/-! ### ML-DSA-65 (FIPS 204; 09 R239) -/

/-- The modulus. -/
def dsaQ : Nat := 8380417
/-- 2 γ2. -/
def dsaAlpha : Nat := 523776

/-- The candidates of three bytes: 23 bits. -/
def dsaCandidates : List Byte → List Nat
  | a :: b :: c :: l => (a.toNat + 256 * b.toNat + 65536 * (c.toNat % 128)) :: dsaCandidates l
  | _ => []

/-- The matrix Â of a seed ρ: RejNTTPoly, of at most five SHAKE128 blocks each. -/
def dsaMatrix (rho : List Byte) : Except Nat (List (List Poly)) :=
  sampledRows ((List.range 6).map fun r => (List.range 5).map fun s =>
    sampled ((dsaCandidates (shake128 (5 * 168) (rho ++ [BitVec.ofNat 8 s, BitVec.ofNat 8 r]))).filter fun x => decide (x < dsaQ)))

/-- RejBoundedPoly with η = 4, of at most five SHAKE256 blocks. -/
def dsaBounded (seed : List Byte) : Except Nat Poly :=
  sampled ((((shake256 (5 * 136) seed).map fun b => [b.toNat % 16, b.toNat / 16]).flatten.filter fun x => decide (x < 9)).map
    fun x => (dsaQ + 4 - x) % dsaQ)

/-- The secret vectors s1 and s2 of a seed ρ′, in one list. -/
def dsaSecrets (rho : List Byte) : Except Nat (List Poly) :=
  allSampled ((List.range 11).map fun r => dsaBounded (rho ++ leBytes 2 r))

/-- ExpandMask: the vector y of ρ″ and κ; a coefficient is γ1 less a number of 20 bits. -/
def dsaMask (rho : List Byte) (kappa : Nat) : List Poly :=
  (List.range 5).map fun r => (unpackBits 20 (shake256 640 (rho ++ leBytes 2 (kappa + r)))).map fun x => (dsaQ + 2 ^ 19 - x) % dsaQ

/-- SampleInBall from position `i` on, with the signs and the polynomial so far. -/
def dsaBallFrom (signs : Nat) : List Byte → Nat → Poly → Except Nat Poly
  | [], i, c => if 256 ≤ i then .ok c else sampleFails
  | b :: l, i, c =>
    if 256 ≤ i then .ok c
    else if b.toNat ≤ i then
      dsaBallFrom signs l (i + 1)
        ((c.set i (c.getD b.toNat 0)).set b.toNat (if signs / 2 ^ (i - 207) % 2 = 1 then dsaQ - 1 else 1))
    else dsaBallFrom signs l i c

/-- SampleInBall with τ = 49, of at most two SHAKE256 blocks. -/
def dsaBall (seed : List Byte) : Except Nat Poly :=
  let l := shake256 (2 * 136) seed
  dsaBallFrom (leAt l 0 8) (l.drop 8) 207 polyZero

/-- Power2Round with d = 13: the high part. -/
def dsaT1 (x : Nat) : Nat := (x + 4095) / 8192
/-- The low part, modulo q. -/
def dsaT0 (x : Nat) : Nat := (x + dsaQ - 8192 * dsaT1 x) % dsaQ

/-- Decompose: the high and the low bits. -/
def dsaDecompose (x : Nat) : Nat × Int :=
  let r0 : Int := if dsaAlpha / 2 < x % dsaAlpha then (x % dsaAlpha : Int) - dsaAlpha else x % dsaAlpha
  if (x : Int) - r0 = dsaQ - 1 then (0, r0 - 1) else (((x : Int) - r0).toNat / dsaAlpha, r0)

/-- UseHint. -/
def dsaUseHint (h x : Nat) : Nat :=
  let (r1, r0) := dsaDecompose x
  if h = 0 then r1 else if 0 < r0 then (r1 + 1) % 16 else (r1 + 15) % 16

/-- Every coefficient of the vector lies within `n` of 0. -/
def dsaWithin (n : Nat) (v : List Poly) : Bool := v.all fun p => p.all fun x => decide (min x (dsaQ - x) < n)

/-- The challenge hash of μ and w1. -/
def dsaHash (mu : List Byte) (w1 : List Poly) : List Byte := shake256 48 (mu ++ (w1.map (packBits 4)).flatten)

/-- The keys of a seed ξ: ρ, Â, s1 and s2, t. -/
structure DsaKeys where
  rho : List Byte
  key : List Byte
  matrix : List (List Poly)
  s1 : List Poly
  s2 : List Poly
  t : List Poly
  deriving DecidableEq, Repr

/-- The expansion of a seed ξ. -/
def dsaKeys (xi : List Byte) : Except Nat DsaKeys :=
  let g := shake256 128 (xi ++ [6, 5])
  match dsaMatrix (g.take 32), dsaSecrets (slice g 32 64) with
  | .ok m, .ok s =>
    let s1 := (s.take 5).map dsaRing.ntt
    .ok { rho := g.take 32, key := g.drop 96, matrix := m, s1 := s.take 5, s2 := s.drop 5
          t := List.zipWith (fun row e => polyAdd dsaQ (dsaRing.intt (dsaRing.dot row s1)) e) m (s.drop 5) }
  | .error e, _ => .error e
  | _, .error e => .error e

/-- The public key. -/
def DsaKeys.pk (k : DsaKeys) : List Byte := k.rho ++ (k.t.map fun p => packBits 10 (p.map dsaT1)).flatten

/-- MLDSA65_KEYGEN of ξ: the public key, and the record's key material ξ ‖ K ‖ tr. -/
def dsaKeygen (xi : List Byte) : Except Nat (List Byte × List Byte) :=
  match dsaKeys xi with
  | .error e => .error e
  | .ok k => .ok (k.pk, xi ++ k.key ++ shake256 64 k.pk)

/-- The packing of hints: the places of the ones of each polynomial, then their running counts. -/
def dsaHintPack (h : List (List Nat)) : List Byte :=
  let ones := h.map fun p => (List.range 256).filter fun i => decide (p.getD i 0 = 1)
  (padTo 55 (ones.flatten.map (BitVec.ofNat 8))) ++
    (List.range 6).map fun i => BitVec.ofNat 8 ((ones.take (i + 1)).map List.length).sum

/-- The vector c · v in the domain of the NTT, transformed back. -/
def dsaTimes (c : Poly) (v : List Poly) : List Poly := v.map fun p => dsaRing.intt (dsaRing.pwm c (dsaRing.ntt p))

/-- Attempt `a` of a signature: none where it is rejected. -/
def dsaAttempt (k : DsaKeys) (mu rho : List Byte) (a : Nat) : Except Nat (Option (List Byte)) :=
  let y := dsaMask rho (5 * a)
  let w := k.matrix.map fun row => dsaRing.intt (dsaRing.dot row (y.map dsaRing.ntt))
  let ct := dsaHash mu (w.map fun p => p.map fun x => (dsaDecompose x).1)
  match dsaBall ct with
  | .error e => .error e
  | .ok c =>
    let c := dsaRing.ntt c
    let z := List.zipWith (polyAdd dsaQ) y (dsaTimes c k.s1)
    let r := List.zipWith (polySub dsaQ) w (dsaTimes c k.s2)
    let ct0 := dsaTimes c (k.t.map fun p => p.map dsaT0)
    let h := List.zipWith (List.zipWith fun x y =>
      if (dsaDecompose ((x + y) % dsaQ)).1 = (dsaDecompose x).1 then 0 else 1) r ct0
    .ok (if dsaWithin (2 ^ 19 - 196) z && (r.all fun p => p.all fun x => decide ((dsaDecompose x).2.natAbs < dsaAlpha / 2 - 196)) &&
          dsaWithin (dsaAlpha / 2) ct0 && decide ((h.map List.sum).sum ≤ 55)
      then some (ct ++ (z.map fun p => packBits 20 (p.map fun x => (dsaQ + 2 ^ 19 - x) % dsaQ)).flatten ++ dsaHintPack h)
      else none)

/-- `n` attempts from `a` on: the first that passes, or EXHAUSTED. -/
def dsaAttempts (k : DsaKeys) (mu rho : List Byte) : Nat → Nat → Except Nat (List Byte)
  | 0, _ => .error 6
  | n + 1, a => match dsaAttempt k mu rho a with
    | .error e => .error e
    | .ok (some s) => .ok s
    | .ok none => dsaAttempts k mu rho n (a + 1)

/-- MLDSA65_SIGN of the record's seed, of μ ‖ ρ″, and of the base b: sixteen attempts (09 R239). -/
def dsaSign (xi seed : List Byte) (b : Nat) : Except Nat (List Byte) :=
  match dsaKeys xi with
  | .error e => .error e
  | .ok k => dsaAttempts k (seed.take 64) (seed.drop 64) 16 b

/-- The places of ones of the polynomials from number `i` on, from index `from_` of the packed hints; none where they are
malformed. -/
def dsaHintUnpack (l : List Byte) : Nat → Nat → Nat → Option (List (List Nat))
  | 0, _, from_ => if (l.take 55).drop from_ |>.all (fun b => decide (b = 0)) then some [] else none
  | n + 1, i, from_ =>
    let to_ := (l.getD (55 + i) 0).toNat
    let ones := ((l.take to_).drop from_).map BitVec.toNat
    if to_ < from_ ∨ 55 < to_ ∨ !((ones.zip (ones.drop 1)).all fun p => decide (p.1 < p.2)) then none
    else (dsaHintUnpack l n (i + 1) to_).map fun rest => ones :: rest

/-- MLDSA65_VERIFY of pk, μ and σ: OK, or VERIFY_FAIL, or SAMPLE. -/
def dsaVerify (pk mu sig : List Byte) : Except Nat Bool :=
  match dsaHintUnpack (sig.drop 3248) 6 0 0 with
  | none => .ok false
  | some h =>
    let z := (List.range 5).map fun i => (unpackBits 20 (slice sig (48 + 640 * i) 640)).map fun x => (dsaQ + 2 ^ 19 - x) % dsaQ
    let t1 := (List.range 6).map fun i => unpackBits 10 (slice pk (32 + 320 * i) 320)
    match dsaMatrix (pk.take 32), dsaBall (sig.take 48) with
    | .ok m, .ok c =>
      let c := dsaRing.ntt c
      let zn := z.map dsaRing.ntt
      let w := List.zipWith (fun row t => dsaRing.intt (polySub dsaQ (dsaRing.dot row zn)
        (dsaRing.pwm c (dsaRing.ntt (t.map fun x => 8192 * x))))) m t1
      let w1 := List.zipWith (fun p ones => p.mapIdx fun i x => dsaUseHint (if ones.contains i then 1 else 0) x) w h
      .ok (dsaWithin (2 ^ 19 - 196) z && decide (sig.take 48 = dsaHash mu w1))
    | .error e, _ => .error e
    | _, .error e => .error e

end Sys2Proof.Machine
end

