-- ==== Sys2Proof/Machine/Mau.lean ====
section
/-!
DEFINITION. Machine/Mau.lean: the modular arithmetic units: command words (09 R230), the checks at issue and at the unit
(09 R231, R232), primitives (09 R234), routines (09 R235-R240), step lists (09 R241), the masking generators (09 R243,
R244), checks and aborts (09 R245, R246), retirement by migration (09 R248, R249) and reinstatement (09 R250).
-/

namespace Sys2Proof.Machine

/-! ### Command words (09 R230) -/

/-- A command of the modular units (08 Table 8.3; 09 Tables 9.1, 9.2). -/
structure MauCmd where
  op : Nat
  arg : Nat
  nw : Nat
  qsel : Bool
  osel : Bool
  rsv : Nat
  oktype : Nat
  oslot : Nat
  islot : Nat
  kslot : Nat
  auxOff : Nat
  outOff : Nat
  inOff : Nat
  deriving DecidableEq, Repr

/-- The command that staging words spell. -/
def mauParse (ws : List Word) : MauCmd :=
  let w := fun (i lo n : Nat) => bitsOf (ws.getD i 0) lo n
  { op := w 0 48 16, arg := w 0 32 16, nw := w 0 16 9, qsel := decide (w 0 9 1 = 1), osel := decide (w 0 8 1 = 1),
    rsv := w 0 25 7 + w 0 10 6 + w 0 0 8 + w 2 48 16, oktype := w 1 48 16, oslot := w 1 32 16, islot := w 1 16 16,
    kslot := w 1 0 16, auxOff := w 2 32 16, outOff := w 2 16 16, inOff := w 2 0 16 }

/-- An integer primitive. -/
def isIntPrim (op : Nat) : Bool := decide (0x1001 ≤ op) && decide (op ≤ 0x1007)
/-- A polynomial primitive. -/
def isPoly (op : Nat) : Bool := decide (0x1011 ≤ op) && decide (op ≤ 0x1015)
/-- A primitive. -/
def isPrim (op : Nat) : Bool := isIntPrim op || isPoly op
/-- An RSA routine. -/
def isRsa (op : Nat) : Bool := decide (0x1111 ≤ op) && decide (op ≤ 0x1113)
/-- A verify routine. -/
def isVerify (op : Nat) : Bool := decide (op = 0x1103) || decide (op = 0x1104) || decide (op = 0x1133)
/-- EC_MUL. -/
def isEcMul (op : Nat) : Bool := decide (op = 0x1105) || decide (op = 0x1106)
/-- A key generation, which writes its private key material to OSLOT. -/
def isKeygen (op : Nat) : Bool := decide (op = 0x1121) || decide (op = 0x1131)

/-- A routine of 09 Table 9.5: input bytes, output bytes at OUT_OFF, bytes of the secret result, the record types at KSLOT
(none: the slot must be 0), the length of ISLOT's content (0: the slot must be 0), the usage bit, whether its result is
checked, the bound in ns. -/
structure Routine where
  input : Nat
  output : Nat
  secret : Nat := 0
  ktypes : Option (List Nat) := none
  ilen : Nat := 0
  use : Nat := 7
  checked : Bool := false
  bound : Nat
  deriving DecidableEq, Repr

/-- The index of an RSA size in the bounds of 09 Table 9.5. -/
def rsaPick (n a b c : Nat) : Nat := if n = 32 then a else if n = 48 then b else c

/-- The table of routines, for a command's NW, ARG and OSEL. -/
def routineOf (op nw arg : Nat) (osel : Bool) : Option Routine :=
  let rsa := [rsaPick nw 0x40 0x41 0x42]
  let ec := fun (n : Nat) => if arg / 2 % 2 = 1 then n else 2 * n
  match op with
  | 0x1101 => some { input := 32, output := 64, ktypes := some [0x30], ilen := 32, checked := true, bound := 64000 }
  | 0x1102 => some { input := 48, output := 96, ktypes := some [0x31], ilen := 48, checked := true, bound := 152500 }
  | 0x1103 => some { input := 160, output := 0, bound := 64200 }
  | 0x1104 => some { input := 240, output := 0, bound := 160500 }
  | 0x1105 => some { input := if arg % 2 = 1 then 0 else 64, output := if osel then 0 else ec 32,
                     secret := if osel then ec 32 else 0, ktypes := some [], use := 6, checked := true, bound := 63200 }
  | 0x1106 => some { input := if arg % 2 = 1 then 0 else 96, output := if osel then 0 else ec 48,
                     secret := if osel then ec 48 else 0, ktypes := some [], use := 6, checked := true, bound := 150600 }
  | 0x1111 => some { input := 8 * nw, output := 4 * nw, ktypes := some rsa, bound := rsaPick nw 257600 835200 1946600 }
  | 0x1112 => some { input := 16 * nw, output := 8 * nw, ktypes := some rsa, checked := true,
                     bound := rsaPick nw 16400 35700 62700 }
  | 0x1113 => some { input := 16 * nw, output := 8 * nw, bound := rsaPick nw 15400 33600 59000 }
  | 0x1121 => some { input := 0, output := 1184, secret := 64, ilen := 64, checked := true, bound := 71200 }
  | 0x1122 => some { input := 1184, output := if osel then 1088 else 1120, secret := if osel then 32 else 0, ilen := 32,
                     checked := true, bound := 85300 }
  | 0x1123 => some { input := 1088, output := if osel then 0 else 32, secret := if osel then 32 else 0,
                     ktypes := some [0x50], use := 8, checked := true, bound := 178400 }
  | 0x1131 => some { input := 0, output := 1952, secret := 128, ilen := 32, bound := 88400 }
  | 0x1132 => some { input := 0, output := 3309, ktypes := some [0x51], ilen := 128, bound := 865000 }
  | 0x1133 => some { input := 5325, output := 0, bound := 98000 }
  | _ => none

/-- With OSEL the whole output of a routine that Table 9.5 gives no secret result goes to OSLOT (08 R217). -/
def Routine.withOsel (r : Routine) (osel : Bool) : Routine :=
  if osel && decide (r.secret = 0) then { r with output := 0, secret := r.output } else r

/-- The routine of a command. -/
def MauCmd.routine (m : MauCmd) : Option Routine := (routineOf m.op m.nw m.arg m.osel).map (·.withOsel m.osel)

/-- The operation is in 09 Table 9.4 or 9.5. -/
def mauKnown (op : Nat) : Bool := isPrim op || decide (op = 0x1F01) || (routineOf op 32 0 false).isSome

/-- The words of each operand of an integer primitive, in units of NW, in order, and of its output. -/
def primShape (op : Nat) : List Nat × Nat :=
  match op with
  | 0x1001 | 0x1002 | 0x1003 | 0x1005 => ([1, 1, 1], 1)
  | 0x1004 => ([1, 1], 1)
  | 0x1006 => ([1, 1], 2)
  | _ => ([2, 1], 1)

/-- The polynomials that a polynomial primitive reads. -/
def polyInputs (op : Nat) : Nat := if op = 0x1011 ∨ op = 0x1012 then 1 else 2

/-- The input bytes of a command at IN_OFF. -/
def MauCmd.inLen (m : MauCmd) : Nat :=
  if isIntPrim m.op then 8 * m.nw * (primShape m.op).1.sum
  else if isPoly m.op then 1024 * polyInputs m.op
  else match m.routine with
    | some r => r.input
    | none => 0

/-- The output bytes of a command at OUT_OFF. -/
def MauCmd.outLen (m : MauCmd) : Nat :=
  if isPrim m.op then
    if m.osel then 0 else if isPoly m.op then 1024 else 8 * m.nw * (primShape m.op).2
  else match m.routine with
    | some r => r.output
    | none => 0

/-- OSEL is permitted for every operation that writes an output (08 R217, 09 R231): all but the verify routines. -/
def oselMay (op : Nat) : Bool := !isVerify op

/-- The operation has an input at IN_OFF, whatever NW is. -/
def MauCmd.usesIn (m : MauCmd) : Bool :=
  isPrim m.op || (match routineOf m.op 32 m.arg m.osel with
    | some r => decide (0 < r.input)
    | none => false)

/-- The operation writes at OUT_OFF, whatever NW is. -/
def MauCmd.usesOut (m : MauCmd) : Bool :=
  (isPrim m.op && !m.osel) || (match (routineOf m.op 32 m.arg m.osel).map (·.withOsel m.osel) with
    | some r => decide (0 < r.output)
    | none => false)

/-- The integer primitives with two operands beside the modulus: ISLOT supplies the second, or A of MEXP (DESIGN CHOICE,
log entry 130). -/
def primTakesI (op : Nat) : Bool :=
  decide (op = 0x1001) || decide (op = 0x1002) || decide (op = 0x1003) || decide (op = 0x1005) || decide (op = 0x1006) ||
  decide (op = 0x1013) || decide (op = 0x1014) || decide (op = 0x1015)

/-- KSLOT is used. -/
def MauCmd.usesK (m : MauCmd) : Bool :=
  isPrim m.op || decide (m.op = 0x1F01) || (match m.routine with
    | some r => r.ktypes.isSome
    | none => false)
/-- ISLOT is used. -/
def MauCmd.usesI (m : MauCmd) : Bool :=
  decide (m.op = 0x1F01) || primTakesI m.op || (match m.routine with
    | some r => decide (r.ilen ≠ 0)
    | none => false)

/-- The buffers of a command: inputs and outputs (09 R231). -/
def MauCmd.inputs (m : MauCmd) : List (Nat × Nat) :=
  ([(m.inOff, m.inLen), (m.auxOff, if m.op = 0x1F01 then 16 * m.nw else 0)]).filter fun b => decide (0 < b.2)
/-- The output buffers. -/
def MauCmd.outputs (m : MauCmd) : List (Nat × Nat) := ([(m.outOff, m.outLen)]).filter fun b => decide (0 < b.2)

/-- Check 1: the operation, the words, reserved and unused fields, OSEL; NW, ARG and QSEL are not checked at issue. -/
def MauCmd.formOk (m : MauCmd) (nwords : Nat) : Bool :=
  mauKnown m.op && decide (nwords = 3) && decide (m.rsv = 0) && (!m.osel || oselMay m.op) && (!isKeygen m.op || m.osel) &&
  (m.osel || decide (m.oktype = 0 ∧ m.oslot = 0)) && (m.usesK || decide (m.kslot = 0)) && (m.usesI || decide (m.islot = 0)) &&
  (decide (m.op = 0x1F01) || decide (m.auxOff = 0)) && (m.usesIn || decide (m.inOff = 0)) && (m.usesOut || decide (m.outOff = 0))

/-- The length that is compared with MAXLEN (09 R230). -/
def MauCmd.length (m : MauCmd) : Nat :=
  if isPrim m.op || isRsa m.op then m.nw else if m.op = 0x1F01 then m.arg else 0

/-- Checks 1 to 5 for context `c` (08 R213, 09 R231). -/
def State.mauIssueOk (s : State) (c : Nat) (ws : List Word) (d : IssueDesc) (ce : Cap) : Bool :=
  let m := mauParse ws
  let slots := decide (m.kslot = 0 ∧ m.islot = 0 ∧ m.oslot = 0)
  m.formOk ws.length && decide (m.op = d.opcode) && decide (m.length ≤ d.maxlen) &&
  (slots || (decide (d.flags % 2 = 1) && permBit ce.perms pKSLOT)) &&
  ((m.inputs ++ m.outputs).all fun b => decide (ce.base.toNat + b.1 + b.2 ≤ ce.limit)) &&
  (!m.osel || decide (m.oslot = tsSlot c 0) || decide (m.oslot = tsSlot c 1)) && s.mayName c m.kslot && s.mayName c m.islot

/-! ### Conflicts with outstanding commands (08 R215, 09 R233) -/

/-- The input spans of a command of either pool, as addresses. -/
def EngCmd.ins (e : EngCmd) : List (Nat × Nat) :=
  let l : List (Nat × Nat) := match e.pool with
    | .cph => (cphParse e.words).inputs
    | .mau => (mauParse e.words).inputs
  l.map fun b => (e.base + b.1, b.2)
/-- The output spans. -/
def EngCmd.outs (e : EngCmd) : List (Nat × Nat) :=
  let l : List (Nat × Nat) := match e.pool with
    | .cph => (cphParse e.words).outputs
    | .mau => (mauParse e.words).outputs
  l.map fun b => (e.base + b.1, b.2)
/-- The slots a command names: KSLOT, ISLOT, OSLOT; EW1 has one layout for both pools. -/
def EngCmd.slots (e : EngCmd) : List Nat :=
  let m := mauParse e.words
  [m.kslot, m.islot, m.oslot]
/-- The slot a command writes. -/
def EngCmd.oslot (e : EngCmd) : Nat := (mauParse e.words).oslot

/-- Check 6: the new command conflicts with an outstanding one of its context. -/
def EngCmd.conflicts (new old : EngCmd) : Bool :=
  (decide (old.oslot ≠ 0) && new.slots.contains old.oslot) ||
  ((new.ins ++ new.outs).any fun a => old.outs.any (spansMeet a)) ||
  (new.outs.any fun a => old.ins.any (spansMeet a))

/-! ### Integers (09 R233, R234) -/

/-- The outcome of an arithmetic step: a STATUS of 09 Table 9.3, or the result. -/
abbrev Arith := Except Nat Nat

/-- An integer primitive on its operands (09 Table 9.4): A, B or E, M, and the length. MRED by M = 0 ends with RANGE
(DESIGN CHOICE, log entry 142). -/
def intPrim (op n : Nat) (a b m : Nat) : Arith :=
  let range : Arith := .error 4
  match op with
  | 0x1001 => if a < m ∧ b < m then .ok ((a + b) % m) else range
  | 0x1002 => if a < m ∧ b < m then .ok ((a + m - b) % m) else range
  | 0x1003 => if a < m ∧ b < m ∧ m % 2 = 1 then .ok (a * b * powMod ((m + 1) / 2) m 20 (64 * n) % m) else range
  | 0x1004 =>
    if a < m ∧ m % 2 = 1 then
      (if Nat.gcd a m = 1 then .ok ((Nat.gcdA a m % (m : Int)).toNat) else .error 5)
    else range
  | 0x1005 => if a < m ∧ m % 2 = 1 then .ok (powMod a m (64 * n) b) else range
  | 0x1006 => .ok (a * b)
  | _ => if m = 0 then range else .ok (a % m)

/-- The coefficients of a polynomial: 256 fields of 32 bits. -/
def coeffs (bs : List Byte) : List Nat := (List.range 256).map fun i => leAt bs (4 * i) 4
/-- The bytes of a polynomial. -/
def coeffBytes (cs : List Nat) : List Byte := (cs.map (leBytes 4)).flatten
/-- The ring that QSEL selects. -/
def polyRing (qsel : Bool) : Ring := if qsel then dsaRing else kemRing

/-- A polynomial primitive on its inputs (09 Table 9.4), in the ring that QSEL selects. -/
def polyPrim (op : Nat) (qsel : Bool) (a b : List Byte) : Except Nat (List Byte) :=
  let r := polyRing qsel
  let x := coeffs a
  let y := if polyInputs op = 2 then coeffs b else []
  if (x ++ y).any (fun v => decide (r.q ≤ v)) then .error 4
  else
    match op with
    | 0x1014 => .ok (coeffBytes (polyAdd r.q x y))
    | 0x1015 => .ok (coeffBytes (polySub r.q x y))
    | 0x1013 => .ok (coeffBytes (r.pwm x y))
    | 0x1011 => .ok (coeffBytes (r.ntt x))
    | _ => .ok (coeffBytes (r.intt x))

/-! ### Results -/

/-- The result of a command: STATUS, what goes to offsets of the context memory, what goes to OSLOT. -/
structure MauResult where
  status : Nat
  out : List (Nat × List Byte) := []
  secret : Option (List Byte) := none
  failed : Bool := false
  deriving DecidableEq, Repr

/-- A big-endian integer. -/
def beInt (bs : List Byte) : Nat := beNat bs

/-- A primitive command. The slot at KSLOT supplies E of MEXP, A of every other, in place of the operand's bytes, and the
slot at ISLOT the other operand (09 R233, log entry 130); a polynomial takes the slot's bytes as they stand. -/
def MauCmd.prim (m : MauCmd) (input : List Byte) (key plain : Option SlotContent) : MauResult :=
  let put := fun (bs : List Byte) => if m.osel then { status := 0, secret := some bs : MauResult } else { status := 0, out := [(m.outOff, bs)] }
  if isPoly m.op then
    let take (x : Option SlotContent) (bs : List Byte) : List Byte := (x.map fun k => padTo 1024 k.bytes).getD bs
    match polyPrim m.op m.qsel (take key (input.take 1024)) (take plain (slice input 1024 1024)) with
    | .error e => { status := e }
    | .ok o => put o
  else
    let w := 8 * m.nw
    let aw := if m.op = 0x1007 then 2 * w else w
    let two := decide (m.op = 0x1004) || decide (m.op = 0x1007)
    let int (x : Option SlotContent) (v : Nat) : Nat := (x.map fun k => beInt k.bytes).getD v
    let mexp := decide (m.op = 0x1005)
    let a := int (if mexp then plain else key) (leAt input 0 aw)
    let b := int (if mexp then key else plain) (leAt input aw w)
    let md := if two then leAt input aw w else leAt input (2 * w) w
    match intPrim m.op m.nw a b md with
    | .error e => { status := e }
    | .ok v => put (leBytes (8 * m.nw * (primShape m.op).2) v)

/-- The RSA routines (09 R237): p, q, dp, dq, qinv, each of 4 NW bytes. -/
def MauCmd.rsa (m : MauCmd) (input key : List Byte) : MauResult :=
  let h := 4 * m.nw
  let p := beAt key 0 h
  let q := beAt key h h
  let put := fun (len v : Nat) => { status := 0, out := [(m.outOff, beBytes len v)] : MauResult }
  if m.op = 0x1111 then
    let c := beAt input 0 (2 * h)
    if p * q ≤ c then { status := 4 }
    else if m.arg % 2 = 0 then put h (powMod (c % p) p (8 * h) (beAt key (2 * h) h))
    else put h (powMod (c % q) q (8 * h) (beAt key (3 * h) h))
  else if m.op = 0x1112 then
    let mp := beAt input 0 h
    let mq := beAt input h h
    let c := beAt input (2 * h) (2 * h)
    if p ≤ mp ∨ q ≤ mq ∨ p * q ≤ c then { status := 4 }
    else
      let v := mq + q * (beAt key (4 * h) h * (mp + p - mq % p) % p)
      if powMod (v % (p * q)) (p * q) 17 65537 = c then put (2 * h) v else { status := 0, failed := true }
  else
    let n := beAt input 0 (2 * h)
    let x := beAt input (2 * h) (2 * h)
    if n % 2 = 0 ∨ n ≤ x then { status := 4 } else put (2 * h) (powMod x n 17 65537)

/-- ECDSA_SIGN of the digest `h`: RANGE for d or k outside [1, n − 1], DEGENERATE for r = 0 or s = 0 (09 R236). -/
def ecdsaSign (c : Curve) (d k h : List Byte) : Except Nat (List Byte) :=
  if !c.scalarOk (beNat d) || !c.scalarOk (beNat k) then .error 4
  else match c.sign (beNat d) (beNat k) (beNat h) with
    | some (r, s) => .ok (beBytes c.size r ++ beBytes c.size s)
    | none => .error 7

/-- ECDSA_VERIFY of Q ‖ h ‖ r ‖ s: RANGE for a Q off the curve, VERIFY_FAIL for a signature that is none (09 R236). -/
def ecdsaCheck (c : Curve) (b : List Byte) : Except Nat (List Byte) :=
  let x := fun i => beAt b (i * c.size) c.size
  if !c.on (x 0) (x 1) then .error 4 else if c.verify (x 0) (x 1) (x 2) (x 3) (x 4) then .ok [] else .error 1

/-- EC_MUL: the scalar times the input point, or times G where ARG bit 0 is 1; only x where bit 1 is (09 Table 9.5). -/
def ecMul (c : Curve) (arg : Nat) (k b : List Byte) : Except Nat (List Byte) :=
  let x := beAt b 0 c.size
  let y := beAt b c.size c.size
  if !c.scalarOk (beNat k) || (decide (arg % 2 = 0) && !c.on x y) then .error 4
  else match c.scale (beNat k) (if arg % 2 = 1 then c.base else some (x, y)) with
    | none => .error 7
    | some (x, y) => .ok (beBytes c.size x ++ if arg / 2 % 2 = 1 then [] else beBytes c.size y)

/-- A result without a secret part. -/
def public_ (r : Except Nat (List Byte)) : Except Nat (List Byte × List Byte) := r.map fun b => (b, [])

/-- The EC and lattice routines (09 R236, R238, R239): what they put out and the secret beside it, or their STATUS. -/
def MauCmd.standard (m : MauCmd) (key plain input : List Byte) : Except Nat (List Byte × List Byte) :=
  match m.op with
  | 0x1101 => public_ (ecdsaSign p256 key plain input)
  | 0x1102 => public_ (ecdsaSign p384 key plain input)
  | 0x1103 => public_ (ecdsaCheck p256 input)
  | 0x1104 => public_ (ecdsaCheck p384 input)
  | 0x1105 => public_ (ecMul p256 m.arg key input)
  | 0x1106 => public_ (ecMul p384 m.arg key input)
  | 0x1121 => (kemKeygen plain).map fun ek => (ek, plain)
  | 0x1122 => kemEncaps input plain
  | 0x1123 => public_ (kemDecaps key input)
  | 0x1131 => dsaKeygen plain
  | 0x1132 => public_ (dsaSign (key.take 32) plain m.arg)
  | _ => match dsaVerify (input.take 1952) (slice input 1952 64) (input.drop 2016) with
    | .ok true => .ok ([], [])
    | .ok false => .error 1
    | .error e => .error e

/-- The result of such a routine: what Table 9.5 gives no secret to goes whole to OSLOT with OSEL, and K of ENCAPS after c
without it. -/
def MauCmd.routineResult (m : MauCmd) (r : Routine) (key plain input : List Byte) : MauResult :=
  match m.standard key plain input with
  | .error e => { status := e }
  | .ok (a, b) =>
    { status := 0, out := if r.output = 0 then [] else [(m.outOff, a ++ if m.osel then [] else b)]
      secret := if r.secret = 0 then none else some (if b = [] then a else b) }

/-! ### Step lists (09 R241) -/

/-- A list step (09 Table 9.9). -/
structure ListStep where
  sop : Nat
  nw : Nat
  d : Nat
  a : Nat
  b : Nat
  m : Nat
  qsel : Bool
  sec : Bool
  isrc : Bool
  skip : Nat
  cond : Nat
  val : Nat
  rsv : Bool
  deriving DecidableEq, Repr

/-- The step that two words spell. -/
def stepOf (w0 w1 : Nat) : ListStep :=
  { sop := natBits w0 56 8, nw := natBits w0 47 9, d := natBits w0 42 5, a := natBits w0 37 5, b := natBits w0 32 5,
    m := natBits w0 27 5, qsel := decide (natBits w0 26 1 = 1), sec := decide (natBits w0 25 1 = 1),
    isrc := decide (natBits w0 24 1 = 1), skip := natBits w0 8 8, cond := natBits w0 6 2, val := natBits w1 0 32,
    rsv := decide (natBits w0 16 8 = 0 ∧ natBits w0 0 6 = 0 ∧ natBits w1 32 32 = 0) }

/-- t_M, t_A and t_I in hundredths of a ns (09 R234). -/
def tM (n : Nat) : Nat := 600 + 70 * n * n
/-- t_A. -/
def tA (n : Nat) : Nat := 400 + 50 * n
/-- t_I. -/
def tI (n : Nat) : Nat := 4000 + 4640 * n * n
/-- The multiplications of MEXP. -/
def mexpM (n : Nat) : Nat := 64 * n + cdiv (64 * n) 5 + 34

/-- t_op of a primitive, secret-bearing or not, in hundredths of a ns. -/
def tOp (op n : Nat) (qsel sec : Bool) : Nat :=
  let twice := fun (t : Nat) => if sec then 2 * t else t
  match op with
  | 0x1001 | 0x1002 => twice (tA n)
  | 0x1003 | 0x1006 => twice (tM n)
  | 0x1004 => twice (tI n)
  | 0x1005 => mexpM n * tM n + (if sec then cdiv (mexpM n) 16 * tM n else 0)
  | 0x1007 => twice (2 * tM n)
  | 0x1011 | 0x1012 => twice (if qsel then 86800 else 77200)
  | 0x1013 => twice (if qsel then 22800 else 29200)
  | _ => twice 16400

/-- The NW range of a primitive. -/
def primNwOk (op nw : Nat) : Bool :=
  if isPoly op then decide (nw = 0)
  else decide (1 ≤ nw) && decide (nw ≤ if op = 0x1006 ∨ op = 0x1007 then 128 else 256)

/-- The OPCODE that a step operation stands for. -/
def sopPrim (sop : Nat) : Nat := 0x1000 + sop

/-- A step is well formed: a known operation, its NW in range, its reserved fields 0, its skip inside the list, its
context span inside the capability, and a source or a destination slot where it names one. An NW outside 1 to 256 makes a
step malformed wherever its action counts words; slot fields that a step does not use are let through (DESIGN CHOICE, log
entry 143). -/
def ListStep.ok (t : ListStep) (m : MauCmd) (span i : Nat) : Bool :=
  let nwOk := decide (1 ≤ t.nw) && decide (t.nw ≤ 256)
  t.rsv && (decide (t.cond = 0) || decide (i + 1 + t.skip ≤ m.nw)) &&
  (if isPrim (sopPrim t.sop) then primNwOk (sopPrim t.sop) t.nw
   else match t.sop with
    | 0x20 | 0x21 => nwOk && decide (t.val + 8 * t.nw ≤ span)
    | 0x22 => decide ((if t.isrc then m.islot else m.kslot) ≠ 0)
    | 0x23 => nwOk && m.osel
    | 0x30 | 0x31 => nwOk
    | 0x32 => true
    | 0x3F => decide (t.val % 65536 = 0) || (decide (0x100 ≤ t.val % 65536) && decide (t.val % 65536 ≤ 0x1FF))
    | _ => false)

/-- The bound of a step in hundredths of a ns (09 Table 9.10). -/
def ListStep.bound (t : ListStep) : Nat :=
  if isPrim (sopPrim t.sop) then tOp (sopPrim t.sop) t.nw t.qsel t.sec
  else match t.sop with
    | 0x20 | 0x21 => 2000 + 100 * t.nw
    | 0x22 | 0x23 => 4000
    | 0x30 | 0x31 => 2000 + 50 * t.nw
    | 0x32 => 16400
    | _ => 0

/-- The memory of a running list: the operand slots, FLAG, the stores and the slot output it has made. -/
structure ListRun where
  slots : Sparse Nat := []
  flag : Bool := false
  out : List (Nat × List Byte) := []
  secret : Option (List Byte) := none
  deriving DecidableEq, Repr

/-- The low `n` words of a slot. -/
def ListRun.get (r : ListRun) (slot n : Nat) : Nat := sget 0 r.slots slot % 2 ^ (64 * n)
/-- Replace the low `n` words of a slot. -/
def ListRun.put (r : ListRun) (slot n v : Nat) : ListRun :=
  let w := 2 ^ (64 * n)
  { r with slots := sput 0 r.slots slot (sget 0 r.slots slot / w * w + v % w) }

/-- The centred infinity norm of a polynomial is at least `v`. -/
def normAtLeast (q v : Nat) (cs : List Nat) : Bool := cs.any fun c => decide (v ≤ min c (q - c))

/-- One step's action: the run it leaves, or the STATUS the list ends with. `read` reads context bytes from an offset. -/
def ListStep.act (t : ListStep) (read : Nat → Nat → List Byte) (key plain : List Byte) (r : ListRun) : Except Nat ListRun :=
  let op := sopPrim t.sop
  if isPoly op then
    match polyPrim op t.qsel (leBytes 1024 (r.get t.a 128)) (leBytes 1024 (r.get t.b 128)) with
    | .error e => .error e
    | .ok o => .ok (r.put t.d 128 (leNat o))
  else if isIntPrim op then
    match intPrim op t.nw (r.get t.a (if op = 0x1007 then 2 * t.nw else t.nw)) (r.get t.b t.nw) (r.get t.m t.nw) with
    | .error e => .error e
    | .ok v => .ok (r.put t.d (if op = 0x1006 then 2 * t.nw else t.nw) v)
  else match t.sop with
    | 0x20 => .ok (r.put t.d t.nw (leNat (read t.val (8 * t.nw))))
    | 0x21 => .ok { r with out := r.out ++ [(t.val, leBytes (8 * t.nw) (r.get t.a t.nw))] }
    | 0x22 => let k := if t.isrc then plain else key
              .ok (r.put t.d ((k.length + 7) / 8) (beInt k))
    | 0x23 => .ok { r with secret := some (leBytes (8 * t.nw) (r.get t.a t.nw)) }
    | 0x30 => .ok { r with flag := decide (r.get t.a t.nw = 0) }
    | 0x31 => .ok { r with flag := decide (r.get t.a t.nw < r.get t.b t.nw) }
    | 0x32 => .ok { r with flag := normAtLeast (polyRing t.qsel).q t.val (coeffs (leBytes 1024 (r.get t.a 128))) }
    | _ => .error (t.val % 65536)

/-- The steps in order, with the STATUS the list ends with; a step whose COND holds after its action skips the next
SKIP steps, and the first number counts those still to skip. -/
def runSteps (read : Nat → Nat → List Byte) (key plain : List Byte) : List ListStep → Nat → ListRun → Nat × ListRun
  | [], _, r => (0, r)
  | _ :: l, k + 1, r => runSteps read key plain l k r
  | t :: l, 0, r =>
    match t.act read key plain r with
    | .error e => (e, r)
    | .ok r =>
      let c := decide (t.cond = 3) || (decide (t.cond = 1) && r.flag) || (decide (t.cond = 2) && !r.flag)
      runSteps read key plain l (if c then t.skip else 0) r

/-- The steps of a LIST command. -/
def MauCmd.steps (m : MauCmd) (read : Nat → Nat → List Byte) : List ListStep :=
  (List.range m.nw).map fun i =>
    let b := read (m.auxOff + 16 * i) 16
    stepOf (leAt b 0 8) (leAt b 8 8)

/-- A LIST command: what it stored is released only with OK. -/
def MauCmd.list (m : MauCmd) (read : Nat → Nat → List Byte) (span : Nat) (key plain : List Byte) : MauResult :=
  let l := m.steps read
  if !(l.mapIdx fun i t => t.ok m span i).all id || decide (m.arg * 100000 < 70000 + (l.map ListStep.bound).sum) then
    { status := 8 }
  else
    match runSteps read key plain l 0 {} with
    | (0, r) => { status := 0, out := r.out, secret := r.secret }
    | (e, _) => { status := e }

/-! ### The checks of a unit (09 R232) -/

/-- NW, ARG and QSEL are inside their ranges. -/
def MauCmd.lengthOk (m : MauCmd) : Bool :=
  if isPrim m.op then primNwOk m.op m.nw && decide (m.arg = 0) && (isPoly m.op || !m.qsel)
  else !m.qsel &&
    (if m.op = 0x1F01 then decide (1 ≤ m.nw) && decide (m.nw ≤ 256)
     else if isRsa m.op then (decide (m.nw = 32) || decide (m.nw = 48) || decide (m.nw = 64)) &&
      decide (m.arg ≤ if m.op = 0x1111 then 1 else 0)
     else decide (m.nw = 0) &&
      (if isEcMul m.op then decide (m.arg ≤ 3) else if m.op = 0x1132 then decide (m.arg % 16 = 0) else decide (m.arg = 0)))

/-- The content of KSLOT is one the command accepts (09 R232; 10 R259). -/
def MauCmd.keyOk (m : MauCmd) (key : Option SlotContent) : Bool :=
  if isPrim m.op || decide (m.op = 0x1F01) then
    decide (m.kslot = 0) || (match key with
      | some k => k.may 9 && (decide (m.op = 0x1F01) || (isPoly m.op && decide (k.bytes.length = 1024)) ||
          (isIntPrim m.op && decide ((k.bytes.length + 7) / 8 = m.nw)))
      | none => false)
  else match m.routine with
    | none => false
    | some r => match r.ktypes with
      | none => true
      | some ts => match key with
        | none => false
        | some k => k.may r.use && (ts.isEmpty || ts.contains k.type) &&
            (!isEcMul m.op || decide (k.bytes.length = if m.op = 0x1105 then 32 else 48))

/-- The content of ISLOT is one the command accepts. -/
def MauCmd.plainOk (m : MauCmd) (plain : Option SlotContent) : Bool :=
  if m.op = 0x1F01 ∨ isPrim m.op then
    decide (m.islot = 0) || (match plain with
      | some k => k.may 9 && (decide (m.op = 0x1F01) || (isPoly m.op && decide (k.bytes.length = 1024)) ||
          (isIntPrim m.op && decide ((k.bytes.length + 7) / 8 = m.nw)))
      | none => false)
  else match m.routine with
    | none => true
    | some r => decide (r.ilen = 0) || (match plain with
      | some k => decide (k.bytes.length = r.ilen) && (decide (m.op ≠ 0x1132) || decide (k.type = 0xF1)) &&
          (!(decide (m.op = 0x1101) || decide (m.op = 0x1102)) || decide (k.type = 0xF0))
      | none => false)

/-- OKTYPE fits a secret of `n` bytes. -/
def MauCmd.fits (m : MauCmd) (n : Nat) : Bool :=
  decide (16 ≤ n) && decide (n ≤ 128) && typeLenOk m.oktype n &&
  (decide (m.op ≠ 0x1121) || decide (m.oktype = 0x50)) && (decide (m.op ≠ 0x1131) || decide (m.oktype = 0x51))

/-- The lengths that the secret result may have: a list has one for each of its KEYST steps. -/
def MauCmd.secretLens (m : MauCmd) (read : Nat → Nat → List Byte) : List Nat :=
  if !m.osel then []
  else if m.op = 0x1F01 then ((m.steps read).filter fun t => decide (t.sop = 0x23)).map fun t => 8 * t.nw
  else if isPoly m.op then [1024]
  else if isIntPrim m.op then [8 * m.nw * (primShape m.op).2]
  else match m.routine with
    | some r => [r.secret]
    | none => []

/-- OKTYPE fits the output (09 R232 step 2): of a list, one of its KEYST steps (log entry 143). -/
def MauCmd.oktypeOk (m : MauCmd) (read : Nat → Nat → List Byte) : Bool :=
  (m.secretLens read).isEmpty || (m.secretLens read).any m.fits

/-- The result of the command that unit `x` runs. -/
def EngUnit.mauResult (x : EngUnit) (e : EngCmd) : MauResult :=
  let m := mauParse e.words
  if !m.lengthOk then { status := 3 }
  else if !m.keyOk x.key || !m.plainOk x.plain || !m.oktypeOk e.input then { status := 2 }
  else
    let input := e.input m.inOff m.inLen
    let r :=
      if isPrim m.op then m.prim input (if m.kslot = 0 then none else x.key) (if m.islot = 0 then none else x.plain)
      else if m.op = 0x1F01 then m.list e.input (e.top - e.base) (keyBytes x.key) (keyBytes x.plain)
      else match m.routine with
        | some r =>
          let t := if isRsa m.op then m.rsa input (keyBytes x.key) else m.routineResult r (keyBytes x.key) (keyBytes x.plain) input
          if m.osel ∧ t.secret = none ∧ t.status = 0 then { t with out := [], secret := t.out.head?.map (·.2) } else t
        | none => { status := 3 }
    match r.secret with
    | some b => if r.status = 0 ∧ !m.fits b.length then { status := 2 } else r
    | none => r

/-! ### The masking generator (09 R242-R244) -/

/-- The command is secret-bearing: it names a slot, or it is a routine of 09 Table 9.5, LIST among them, but a verify
routine or RSA_PUB (09 R242). -/
def EngCmd.secretBearing (e : EngCmd) : Bool :=
  let m := mauParse e.words
  decide (m.kslot ≠ 0) || decide (m.islot ≠ 0) || (!isPrim m.op && !isVerify m.op && decide (m.op ≠ 0x1113))

/-- A modular unit. -/
def State.mauUnit (s : State) (u : Nat) : EngUnit := sget {} s.mau u
/-- Replace a modular unit. -/
def State.setMau (s : State) (u : Nat) (x : EngUnit) : State := { s with mau := sput {} s.mau u x }

/-- The unit's generator is within its limit. -/
def EngUnit.within (x : EngUnit) : Bool := x.seeded && decide (x.secretCmds < 2 ^ 20)

/-- The active units. -/
def State.mauActives (s : State) : List Nat := (List.range 136).filter fun u => s.mauSet MAU_ACTIVE u

/-- Set or clear a unit's bit in a register array. -/
def State.putMau (s : State) (a : Nat → Nat) (u : Nat) (b : Bool) : State := s.put (bitFld (a (u / 32)) (u % 32)) b

/-- The unit is the target of a migration under way. -/
def State.mauTarget (s : State) (u : Nat) : Bool := s.mau.any fun e => decide (e.2.migrating = some u)

/-- Unit `u` is idle. -/
def State.mauIdle (s : State) (u : Nat) : Bool :=
  let x := s.mauUnit u
  x.cmd.isNone && x.clearing.isNone && !x.testing && x.migrating.isNone && !s.mauTarget u

/-- The limits of 09 R243 are reached: RESEED_CMDS and RESEED_US, whose values 0 and above the largest act as it. -/
def State.reseedDue (s : State) (u : Nat) : Bool :=
  let x := s.mauUnit u
  !x.seeded || decide (s.fget MAU_GEN_RESEED_CMDS ≤ x.secretCmds) ||
  decide (x.reseededAt + s.fget MAU_GEN_RESEED_US * 1000 ≤ s.tb)

/-- A generator whose limit is reached takes the seed that was drawn ahead, between commands (09 R243). -/
def State.reseed (s : State) (u : Nat) : State :=
  let x := s.mauUnit u
  match x.nextSeed with
  | some b =>
    if s.reseedDue u ∧ x.cmd.isNone then
      s.setMau u { x with seeded := true, seed := b, nextSeed := none, secretCmds := 0, reseededAt := s.tb }
    else s
  | none => s

/-- MAU_RESEED_REQUEST (09 R243): a unit asks for a seed ahead of need. -/
def execMauReseedRequest (dt : Nat) (u : Fin 136) (s : State) : Out :=
  timed dt (fun s => s.powered && !s.mauSet MAU_RETIRED u.val && (s.mauUnit u.val).nextSeed.isNone) s (fun s =>
    s.setMau u.val { s.mauUnit u.val with reseedAsked := true })

/-- The waiting secret-bearing command of least key that no active unit can take, of a parked context. -/
def State.starved (s : State) : Option EngCmd :=
  if s.mauActives.any fun u => (s.mauUnit u).within then none
  else s.leastCmd (fun e => e.secretBearing && decide ((s.ctx e.ctx).st = .parked)) s.mauQ

/-- The context of a starved command is cancelled (09 R244). -/
def State.starve (s : State) (e : EngCmd) : State :=
  let s := if s.on MAU_EVT_ENTROPY then s else (s.raise MAU_EVT_ENTROPY).signal 69 0
  s.rngCancel e.ctx

/-! ### Starting and completing -/

/-- Unit `u` takes the command: keys are delivered, and the masking generator counts a secret-bearing one. -/
def State.mauTakes (s : State) (u : Nat) (e : EngCmd) : State :=
  let m := mauParse e.words
  let s := s.reseed u
  let x := s.mauUnit u
  ((s.drawn 8192).setMau u { x with
    cmd := some e, startedAt := s.tb, key := s.slotContent m.kslot, plain := s.slotContent m.islot, om := some s.freeCtr,
    secretCmds := x.secretCmds + (if e.secretBearing then 1 else 0) }).cmdStage e true

/-- The effect of MAU_COMMAND_START on an active idle unit: a frozen command first, then a command for which no unit has
entropy is cancelled, then the ready command of least key that the unit may run. -/
def State.mauStart (s : State) (u : Nat) : State :=
  match s.mauBuf with
  | b :: rest =>
    let x := s.mauUnit u
    let s := { s with mauBuf := rest }
    (s.setMau u { x with cmd := b.cmd, startedAt := s.tb, key := b.key, plain := b.plain, om := b.om }).raise
      MAU_EVT_MIGRATED
  | [] =>
    match s.starved with
    | some e => s.starve e
    | none =>
      let longOk := decide (s.longRunning s.mau < s.longCap 2)
      match s.leastCmd (fun e => (!s.mauSet MAU_FASTROLE u || (s.ctx e.ctx).fast) && (longOk || !s.cmdLong e) &&
          (!e.secretBearing || (s.mauUnit u).within)) s.mauQ with
      | none => s
      | some e => { s with mauQ := s.mauQ.erase e }.mauTakes u e

/-- MAU_COMMAND_START (09 R244). -/
def execMauCommandStart (dt : Nat) (u : Fin 136) (s : State) : Out :=
  timed dt (fun s => s.powered && s.mauSet MAU_ACTIVE u.val && s.mauIdle u.val) s (fun s => s.mauStart u.val)

/-- The unit is cleared after a command; its generator stays, and reseeds where its limit is reached. Its busy time ends
(19 R418). -/
def State.mauFree (s : State) (u : Nat) : State :=
  let s := s.countBusy 0x059 (if (s.mauUnit u).cmd.isSome then s.tb - (s.mauUnit u).startedAt else 0)
  (s.setMau u { s.mauUnit u with cmd := none, key := none, plain := none, migrating := none, om := none }).reseed u

/-- The capture of MAU_CHKLOG. -/
def State.mauLog (s : State) (u : Nat) (e : EngCmd) (kind : Nat) : State :=
  if s.on MAU_CHKLOG_VALID then s.raise MAU_CHKLOG_MORE
  else s.wr MAU_CHKLOG (BitVec.ofNat 64 (2 ^ 63 + (mauParse e.words).op * 2 ^ 32 + e.ctx * 2 ^ 16 + kind * 2 ^ 12 + u))

/-- A detected fault ends the command and its context (09 R245): kind 1 a failed check, 2 a double-bit error. -/
def State.mauFault (s : State) (u : Nat) (e : EngCmd) (kind : Nat) : State :=
  let s := (s.mauFree u).raise (if kind = 1 then MAU_EVT_CHKFAIL else MAU_EVT_DBE)
  let s := (s.mauLog u e kind).signal (if kind = 1 then 66 else 67) u
  (s.cmdStage e false).endWith e.ctx (faultResp 0x06 u)

/-- Output is released in one piece (09 R233). -/
def State.mauRelease (s : State) (e : EngCmd) (r : MauResult) : State :=
  if r.status ≠ 0 then s
  else
    let s := r.out.foldl (fun s o => s.svcWrite (e.base + o.1) o.2) s
    match r.secret with
    | some b => s.setTransient (mauParse e.words).oslot { type := (mauParse e.words).oktype, bytes := b }
    | none => s

/-- The routine of a command makes a consistency check (09 Table 9.5). -/
def EngCmd.checked (e : EngCmd) : Bool :=
  match (mauParse e.words).routine with
  | some r => r.checked
  | none => false

/-- The command of unit `u` ends: `chk` is 0, 1 for a failed check, 2 for a double-bit error. -/
def State.mauDone (s : State) (u : Nat) (e : EngCmd) (chk : Nat) : State :=
  let x := s.mauUnit u
  let r := x.mauResult e
  if chk = 2 then s.mauFault u e 2
  else if chk = 1 || r.failed then s.mauFault u e 1
  else (((s.mauRelease e r).mauFree u).count 0x058 1).completeCmd e u r.status

/-- MAU_COMPLETION (09 R232): a check fails only in a routine that makes one. -/
def execMauCompletion (dt : Nat) (u : Fin 136) (chk : Fin 3) (s : State) : Out :=
  .next (let s := s.elapse dt
    match (s.mauUnit u.val).cmd with
    | none => s
    | some e =>
      if (s.mauUnit u.val).migrating.isSome || (decide (chk.val = 1) && !e.checked) then s else s.mauDone u.val e chk.val)

/-- MAU_ABORT_IDLE (09 R246): the cleared unit reports idle, and the aborted stage completes for ADM. -/
def execMauAbortIdle (dt : Nat) (u : Fin 136) (s : State) : Out :=
  timed dt (fun s => (s.mauUnit u.val).clearing.isSome) s (fun s =>
    ((s.countBusy 0x059 (s.tb - (s.mauUnit u.val).startedAt)).setMau u.val
      { s.mauUnit u.val with clearing := none, held := none }).reseed u.val)

/-! ### Retirement (09 R248, R249) -/

/-- A FAST role that a unit held goes to the lowest-numbered active unit that holds none (09 R226). -/
def State.mauFastOn (s : State) (fast : Bool) : State :=
  match (List.range 136).find? fun u => s.mauSet MAU_ACTIVE u && !s.mauSet MAU_FASTROLE u with
  | some v => if fast then s.putMau MAU_FASTROLE v true else s
  | none => s

/-- Unit `u` moves to MAU_RETIRED. -/
def State.mauToRetired (s : State) (u : Nat) : State :=
  ((s.putMau MAU_ACTIVE u false).putMau MAU_FASTROLE u false).putMau MAU_RETIRED u true

/-- The lowest spare. -/
def State.mauSpare (s : State) : Option Nat := (List.range 136).find? fun u => s.mauSet MAU_SPARE u && !(s.mauUnit u).testing

/-- Spare `v` takes the role of unit `u`. -/
def State.mauRole (s : State) (u v : Nat) : State :=
  let fast := s.mauSet MAU_FASTROLE u
  (((s.putMau MAU_SPARE v false).putMau MAU_ACTIVE v true).putMau MAU_FASTROLE v fast).putMau MAU_ACTIVE u false

/-- A unit of which nothing but its generator remains. -/
def State.mauRetireNow (s : State) (u : Nat) : State := ((s.mauToRetired u).mauFree u).raise MAU_EVT_RETIRED

/-- A unit is retired onto no spare (09 R249). -/
def State.mauNoSpare (s : State) (u : Nat) : State :=
  ((s.mauRetireNow u).mauFastOn (s.mauSet MAU_FASTROLE u)).raise MAU_EVT_NO_SPARE

/-- Retirement of a unit, by the collector's reaction or by MAU_RETIRE. -/
def State.mauRetireUnit (s : State) (u : Nat) : State :=
  let x := s.mauUnit u
  let old := s.meff 2
  if !s.mauSet MAU_ACTIVE u then s
  else match s.mauSpare, x.cmd with
    | some v, some _ => ((s.mauRole u v).setMau u { x with migrating := some v }).shrinkFrom 2 old
    | some v, none => ((s.mauRole u v).mauRetireNow u).shrinkFrom 2 old
    | none, none => (s.mauNoSpare u).shrinkFrom 2 old
    | none, some e =>
      let s := (s.mauNoSpare u).shrinkFrom 2 old
      if s.mauBuf.length < 2 then { s with mauBuf := s.mauBuf ++ [({ cmd := x.cmd, startedAt := x.startedAt, key := x.key, plain := x.plain, om := x.om } : EngUnit)] }
      else (((s.raise MAU_EVT_MIG_FAIL).mauLog u e 3).cmdStage e false).endWith e.ctx (faultResp 0x06 u)

/-- A write of MAU_RETIRE. -/
def State.mauRetire (s : State) (v : Word32) : State :=
  let u := v.toNat % 256
  if !v.getLsbD 31 then s else if 135 < u then s.raise MAU_EVT_CFG_REJ else s.mauRetireUnit u

/-- The copy of unit `u`'s frozen state to its spare ends; `ok` false is a double-bit error during it. -/
def State.migrated (s : State) (u v : Nat) (ok : Bool) : State :=
  let x := s.mauUnit u
  let s := s.mauRetireNow u
  match x.cmd with
  | none => s
  | some e =>
    if ok then
      (s.setMau v { s.mauUnit v with cmd := some e, startedAt := s.tb, key := x.key, plain := x.plain, om := x.om }).raise
        MAU_EVT_MIGRATED
    else
      let s := (((s.raise MAU_EVT_DBE).raise MAU_EVT_MIG_FAIL).mauLog u e 3).signal 67 u
      (s.cmdStage e false).endWith e.ctx (faultResp 0x06 u)

/-- MAU_MIGRATION_DONE (09 R248). -/
def execMauMigrationDone (dt : Nat) (u : Fin 136) (ok : Bool) (s : State) : Out :=
  .next (let s := s.elapse dt
    match (s.mauUnit u.val).migrating with
    | some v => s.migrated u.val v ok
    | none => s)

/-- A write of MAU_REINST (09 R250). -/
def State.mauReinst (s : State) (v : Word32) : State :=
  let u := v.toNat % 256
  if !v.getLsbD 31 ∨ s.sys.mode ≠ .custody ∨ 135 < u ∨ !s.mauSet MAU_RETIRED u ∨ s.on MAU_BIST_BUSY then
    s.raise MAU_EVT_CFG_REJ
  else (s.wr MAU_BIST (BitVec.ofNat 64 (2 ^ 31 + u))).setMau u { s.mauUnit u with testing := true }

/-- MAU_BIST_DONE (09 R250). -/
def execMauBistDone (dt : Nat) (pass : Bool) (s : State) : Out :=
  timed dt (fun s => s.on MAU_BIST_BUSY) s (fun s =>
    let u := s.fget MAU_BIST_UNIT
    let s := (((s.lower MAU_BIST_BUSY).put MAU_BIST_PASS pass).put MAU_BIST_FAIL (!pass)).setMau u
      { s.mauUnit u with testing := false }
    if pass then (s.putMau MAU_RETIRED u false).putMau MAU_SPARE u true else s.raise MAU_EVT_BIST_FAIL)

/-! ### Derived registers -/

/-- MAU_GENSTAT. -/
def State.genStat (s : State) : Nat :=
  let within := (s.mauActives.filter fun u => (s.mauUnit u).within).length
  (2 - s.mauBuf.length) * 2 ^ 24 + (s.mauActives.length - within) * 2 ^ 16 + within

/-- The low words of a slot that a step of a list may write (09 R227, Table 9.10); KEYLD writes its key's words. -/
def ListStep.writes (t : ListStep) (slot : Nat) : Nat :=
  if t.d ≠ slot then 0
  else if t.sop = 0x22 then 256
  else if isPoly (sopPrim t.sop) then 128
  else if isIntPrim (sopPrim t.sop) then t.nw * (primShape (sopPrim t.sop)).2
  else if t.sop = 0x20 then t.nw
  else 0

/-- The low words of slot `slot` of the operand memory that a command may use (09 R227): the other words stay zero. Which
slots a primitive or a routine uses is left open. -/
def EngCmd.omSpan (e : EngCmd) (slot : Nat) : Nat :=
  let m := mauParse e.words
  if m.op = 0x1F01 then ((m.steps e.input).map fun t => t.writes slot).foldl max 0
  else if isPoly m.op then 128
  else if isIntPrim m.op then (if m.op = 0x1006 ∨ m.op = 0x1007 then 2 * m.nw else m.nw)
  else 256

/-- Word `w` of the operand memory of a unit (09 R227, R228). -/
def EngUnit.omWord (x : EngUnit) (w : Nat) : Word :=
  match x.om, x.cmd with
  | some k, some e => if w % 256 < e.omSpan (w / 256) then Config.freeWord (k + w) else 0
  | _, _ => 0

/-- MAU_OMDATA (09 R247): the word that MAU_OMSEL names; zero outside MANUFACTURE and RETURNED, and between an abort and
its idle report. -/
def State.omData (s : State) : Word :=
  let x := s.mauUnit (s.fget MAU_OMSEL_UNIT)
  if (s.sys.lc = .manufacture ∨ s.sys.lc = .returned) ∧ x.clearing.isNone then x.omWord (s.fget MAU_OMSEL_WORD) else 0

/-- The running command of the unit that MAU_OMSEL names goes on after a read: its operand memory is open again (log entry
131). -/
def State.omRead (s : State) : State :=
  let u := s.fget MAU_OMSEL_UNIT
  let x := s.mauUnit u
  if x.om.isSome then (s.drawn 8192).setMau u { x with om := some s.freeCtr } else s

/-- A write of MAU_GEN (09 R252): a value above the largest, or of 0, leaves the largest. -/
def mauGenValue (v : Nat) : Nat :=
  let fix := fun (x top : Nat) => if x = 0 ∨ top < x then top else x
  fix (v / 65536 % 65536) 0x400 * 65536 + fix (v % 65536) 0x2710

/-! ### Durations (09 R234, R235) -/

/-- The bytes moved of a primitive, in eighths of a ns each. -/
def bytesMoved (op n : Nat) : Nat :=
  if isPoly op then 1024 * (polyInputs op + 1) else 8 * n * ((primShape op).1.sum + (primShape op).2)

/-- The largest duration of a primitive of length `n`, in ns. -/
def primBound (op n : Nat) (keyed : Bool) : Nat :=
  let t := if isPoly op then max (tOp op n false keyed) (tOp op n true keyed) else tOp op n false keyed
  cdiv (70000 + bytesMoved op n * 25 / 2 + t) 100

/-- bound(1, OPCODE, MAXLEN, FLAGS) of 06 R181. -/
def mauBound (op maxlen flags : Nat) : Option Nat :=
  if isPrim op then if primNwOk op maxlen then some (primBound op maxlen (decide (flags % 2 = 1))) else none
  else if op = 0x1F01 then if maxlen ≤ 65535 then some (maxlen * 1000) else none
  else if isRsa op then
    if maxlen = 32 ∨ maxlen = 48 ∨ maxlen = 64 then (routineOf op maxlen 0 false).map Routine.bound else none
  else if maxlen = 0 then (routineOf op 0 0 false).map Routine.bound else none

end Sys2Proof.Machine
end

