-- ==== Sys2Proof/Machine/Rng.lean ====
section
/-!
DEFINITION. Machine/Rng.lean: the random number source: health tests (11 R278, R280), the start-up test (11 R281), the
output buffer and its consumers (11 R283-R285), raw access (11 R286).
-/

namespace Sys2Proof.Machine

/-- RNG_CFG.RESERVE: values above 0x30 act as 0x30. -/
def State.rngReserve (s : State) : Nat := min (s.fget RNG_CFG_RESERVE) 0x30

/-- Set the output buffer; RNG_STAT.BLOCKS counts it. -/
def State.setBuffer (s : State) (b : List (BitVec 256)) : State :=
  { s with rng := { s.rng with buffer := b } }.fset RNG_STAT_BLOCKS b.length

/-! ### A window set (11 R276, R278, R279) -/

/-- Sample `t` of cell `k` in a window set (11 R276). -/
def cellSample (w : RngWindow) (k t : Nat) : Bool := w.getLsbD (16 * t + k)

/-- The run of equal samples of cell `k` that ends at the last of its first `n` samples, and the longest run among them.
-/
def cellRuns (w : RngWindow) (k : Nat) : Nat → Nat × Nat
  | 0 => (0, 0)
  | n + 1 =>
    let r := cellRuns w k n
    let cur := if cellSample w k n = cellSample w k (n - 1) then r.1 + 1 else 1
    (cur, max r.2 cur)

/-- How often the first sample of cell `k` occurs in the window set, itself included. -/
def firstCount (w : RngWindow) (k : Nat) : Nat :=
  ((List.range 1024).filter fun t => cellSample w k t = cellSample w k 0).length

/-- The tests that cell `k` failed in a window set: 1 repetition count, 2 adaptive proportion, 3 both (11 R278). -/
def State.cellFails (s : State) (w : RngWindow) (k : Nat) : Nat :=
  (if s.fget RNG_CUTOFF_RCT_C ≤ (cellRuns w k 1024).2 then 1 else 0) +
  (if s.fget RNG_CUTOFF_APT_C ≤ firstCount w k then 2 else 0)

/-- The lowest failing cell of a window set. -/
def State.windowFails (s : State) (w : RngWindow) : Option Nat := (List.range 16).find? fun k => decide (s.cellFails w k ≠ 0)

/-- The 128 bytes of block `b` of a window set: 1,024 consecutive samples, sample i in bit i mod 8 of byte i div 8. -/
def packedBlock (w : RngWindow) (b : Nat) : List Byte :=
  (List.range 128).map fun j => w.extractLsb' (1024 * b + 8 * j) 8

/-- The conditioned block `b` of a window set: SHA3-256 of its bytes (11 R279). -/
def conditioned (w : RngWindow) (b : Nat) : BitVec 256 :=
  BitVec.ofNat 256 (leNat (sha3 32 (packedBlock w b)))

/-- The capture of a failure in RNG_LAST (11 R280). -/
def State.captureCell (s : State) (w : RngWindow) (k : Nat) : State :=
  if s.on RNG_LAST_VALID then s.raise RNG_LAST_MORE
  else s.wr RNG_LAST (BitVec.ofNat 64 (0x80000000 + s.cellFails w k * 256 + k))

/-- Sixteen blocks enter the output buffer, replacing the oldest where it is full (11 R280, R283). -/
def State.releaseBlocks (s : State) (w : RngWindow) : State :=
  let b := s.rng.buffer ++ (List.range 16).map (conditioned w)
  (s.setBuffer (b.drop (b.length - 64))).count 0x054 16

/-- RAW_EN is in effect: the bit is 1, in MANUFACTURE or RETURNED (11 R286). -/
def State.rawOn (s : State) : Bool :=
  s.on RNG_CTRL_RAW_EN && (decide (s.sys.lc = .manufacture) || decide (s.sys.lc = .returned))

/-- Raw access shows the samples of the window set that ended (11 R286): those of the one before that no read took are
lost (DESIGN CHOICE, log entry 124). -/
def State.showRaw (s : State) (w : RngWindow) : State :=
  if s.rawOn then { s with rng := { s.rng with raw := w, rawTaken := 0 } } else s

/-- The source runs a window set: it is enabled and past its start-up test. A dead source goes on sampling and testing
and only releases nothing (11 R281, R286; DEDUCED, log entry 124). -/
def State.rngRuns (s : State) : Bool := s.powered && s.on RNG_CTRL_EN && !s.rng.testing

/-- A window set begins: cut-offs that an overlay changed are its cut-offs (19 Table 19.1, ITEM 0x05). -/
def State.windowBegins (s : State) : State :=
  match s.rng.nextCutoff with
  | none => s
  | some (rct, apt) =>
    { (s.fset RNG_CUTOFF_RCT_C rct).fset RNG_CUTOFF_APT_C apt with rng := { s.rng with nextCutoff := none } }

/-- WINDOW_SET_END (11 R280). -/
def execWindowSetEnd (dt : Nat) (w : RngWindow) (s : State) : Out :=
  timed dt State.rngRuns s (fun s =>
    let s := s.showRaw w
    State.windowBegins (match s.windowFails w with
      | some k => (((s.raise RNG_EVT_HT_FAIL).captureCell w k).signal 72 0).count 0x055 1
      | none => if s.rawOn || s.on RNG_STAT_SU_DEAD then s else s.releaseBlocks w))

/-- The start-up test begins (11 R281), its attempts counted anew: at a rise of EN, and where RAW_EN clears, a source that
was dead included (11 R286; DESIGN CHOICE, log entry 124). -/
def State.startTest (s : State) : State :=
  let s := s.windowBegins
  { (s.lower RNG_STAT_READY).lower RNG_STAT_SU_DEAD with rng := { s.rng with testing := true, attempts := 0 } }

/-- The start-up window ends: the source is ready, or tries again, or is dead (11 R281). -/
def State.startupWindow (s : State) (w : RngWindow) : State :=
  let s := s.showRaw w
  State.windowBegins (match s.windowFails w with
  | none => { (if s.rawOn then s else s.raise RNG_STAT_READY) with rng := { s.rng with testing := false } }
  | some k =>
    let n := s.rng.attempts + 1
    let s := ((s.raise RNG_EVT_SU_FAIL).captureCell w k).signal 73 0
    if s.fget RNG_CFG_SU_RETRY < n then
      { s.raise RNG_STAT_SU_DEAD with rng := { s.rng with testing := false, attempts := n } }
    else { s with rng := { s.rng with attempts := n } })

/-- The contexts whose service draws wait for blocks (11 R284). -/
def State.drawsWaiting (s : State) : List Nat :=
  s.cph.filterMap fun e => if 0 < e.2.want then e.2.cmd.map (·.ctx) else none

/-- A service draw is cancelled. -/
def State.cancelDraw (s : State) (c : Nat) : State := (s.rngCancel c).raise RNG_EVT_SVC_CANCEL

/-- EN is written 0 (11 R282): the blocks are discarded and the service draws that wait are cancelled. -/
def State.rngOff (s : State) : State :=
  let s := { (s.lower RNG_STAT_READY).setBuffer [] with rng := { s.rng with testing := false, buffer := [] } }
  s.drawsWaiting.foldl State.cancelDraw s

/-- EN is cleared: a firmware request that waits is discarded (11 R285). -/
def State.dropFwReq (s : State) : State :=
  if s.on RNG_FWSTAT_WAITING then (s.lower RNG_FWSTAT_WAITING).raise RNG_FWSTAT_DROPPED else s

/-- A write of RNG_CTRL: RAW_EN takes effect only in MANUFACTURE and RETURNED (11 R281, R282, R286). -/
def State.rngCtrl (s : State) (v : Word32) : State :=
  let mayRaw := decide (s.sys.lc = .manufacture) || decide (s.sys.lc = .returned)
  let wasEn := s.on RNG_CTRL_EN
  let wasRaw := s.on RNG_CTRL_RAW_EN
  let en := v.getLsbD 0
  let raw := if mayRaw then v.getLsbD 1 else wasRaw
  let s := (s.put RNG_CTRL_EN en).put RNG_CTRL_RAW_EN raw
  let s := if raw && !wasRaw then { s with rng := { s.rng with rawTaken := 16384 } } else s
  if !en then (if wasEn then s.rngOff.dropFwReq else s.rngOff)
  else if !wasEn then s.startTest
  else if wasRaw && !raw then s.startTest
  else if raw then s.lower RNG_STAT_READY
  else s

/-- The lifecycle state no longer lets RAW_EN take effect (11 R286): the field, which no write could clear any more,
clears, with what its clearing does (DESIGN CHOICE, log entry 124). -/
def State.rawEnds (s : State) : State :=
  if s.on RNG_CTRL_RAW_EN && !s.rawOn then
    (if s.on RNG_CTRL_EN then s.startTest else s).lower RNG_CTRL_RAW_EN
  else s

/-- A write of RNG_CUTOFF: a cut-off can only be lowered (11 R277, Table 11.2). -/
def State.rngCutoff (s : State) (v : Word32) : State :=
  let apt := v.toNat / 65536 % 2048
  let rct := v.toNat % 128
  let s := s.fset RNG_CUTOFF_APT_C (if 840 < apt then 840 else apt)
  if 41 < rct ∨ rct < 2 then s else s.fset RNG_CUTOFF_RCT_C rct

/-- A write of RNG_FWREQ (11 R285). -/
def State.rngFwReq (s : State) (v : Word32) : State :=
  if v.getLsbD 0 && !s.on RNG_FWSTAT_VALID && !s.on RNG_FWSTAT_WAITING then s.raise RNG_FWSTAT_WAITING else s

/-- The firmware's block: its eight words. -/
def State.fwWords (s : State) (b : BitVec 256) : Nat → State
  | 0 => s
  | n + 1 => (s.fwWords b n).wr (RNG_FW n) ((b >>> (32 * n)).setWidth 32 |>.zeroExtend 64)

/-- A read of RNG_FW7 destroys the block (11 R285). -/
def State.rngFwTaken (s : State) : State :=
  if s.on RNG_FWSTAT_VALID then (s.fwWords 0 8).lower RNG_FWSTAT_VALID else s

/-- A read of RNG_RAW (11 R286) takes the next samples, 32 or as many as are new, the oldest in bit 0; RNG_RAWSTAT says
how many they were. -/
def State.rngRawTaken (s : State) : State :=
  if s.rawOn then
    let n := min 32 (16384 - s.rng.rawTaken)
    let v := (s.rng.raw >>> s.rng.rawTaken).toNat % 2 ^ n
    let s := (s.wr RNG_RAW (BitVec.ofNat 64 v)).wr RNG_RAWSTAT (BitVec.ofNat 64 ((if n < 32 then 2 ^ 31 else 0) + n))
    { s with rng := { s.rng with rawTaken := s.rng.rawTaken + n } }
  else (s.wr RNG_RAW 0).wr RNG_RAWSTAT 0x80000000

/-! ### The consumers (11 Table 11.1) -/

/-- A consumer of a block. -/
inductive Consumer where
  | hotKey
  | bmk
  | mau (u : Nat)
  | draw (u : Nat)
  | salt
  | challenge
  | firmware
  deriving DecidableEq, Repr

/-- The cipher engine whose waiting draw has the least key. -/
def State.leastDraw (s : State) : Option Nat :=
  ((s.cph.filterMap fun e => if 0 < e.2.want then e.2.cmd.map (fun x => (e.1, x)) else none).foldl
    (fun best (e : Nat × EngCmd) => match best with
      | none => some e
      | some b => if (s.ctx e.2.ctx).before (s.ctx b.2.ctx) then some e else some b) none).map (·.1)

/-- The waiting consumer of highest priority that may take a block. The duo's SALT and the challenge of a quorum session
draw at the priority of control firmware (12 R462, 17 R393); the BMK has no place in the table (log entry 56). -/
def State.consumer (s : State) : Option Consumer :=
  let above := decide (s.rngReserve < s.rng.buffer.length)
  if s.rng.hkWait then some .hotKey
  else if s.sys.bmkWait then some .bmk
  else match (List.range 136).find? fun u => (s.mauUnit u).reseedAsked && (s.mauUnit u).cmd.isNone &&
      (s.mauUnit u).clearing.isNone with
    | some u => some (.mau u)
    | none => match (if above then s.leastDraw else none) with
      | some u => some (.draw u)
      | none =>
        if above && s.duo.saltWait then some .salt
        else if above && s.crd.wantChallenge then some .challenge
        else if above && s.on RNG_FWSTAT_WAITING then some .firmware
        else none

/-- Give block `b` to a consumer. -/
def State.giveBlock (s : State) (b : BitVec 256) : Consumer → State
  | .hotKey => { s with kst := { s.kst with hotKey := b }, rng := { s.rng with hkWait := false } }
  | .bmk =>
    let s := (s.raise SYS_BOOTTAMP_BMK_VALID).raise SYS_BOOTTAMP_BMK_NEW
    { s with sys := { s.sys with bmk := b, bmkWait := false } }
  | .challenge => { s with crd := { s.crd with challenge := b, wantChallenge := false } }
  | .mau u => (s.setMau u { s.mauUnit u with nextSeed := some b, reseedAsked := false }).reseed u
  | .draw u => s.setCph u { s.cphUnit u with want := (s.cphUnit u).want - 1, got := (s.cphUnit u).got ++ [b] }
  | .salt => s.saltDrawn (b.setWidth 128)
  | .firmware => (((s.fwWords b 8)).lower RNG_FWSTAT_WAITING).raise RNG_FWSTAT_VALID

/-- RNG_BLOCK_GRANT (11 R283): each block goes to one consumer, once. -/
def execRngBlockGrant (dt : Nat) (s : State) : Out :=
  .next (let s := s.elapse dt
    if s.on RNG_STAT_READY && !s.rawOn then
      match s.rng.buffer, s.consumer with
      | b :: rest, some k => (s.setBuffer rest).giveBlock b k
      | _, _ => s
    else s)

/-- The draw of a context has reached its bound, the command's own duration (11 R284). The context is then cancelled
whatever its state, since the command it would wait for ends ABORTED (DESIGN CHOICE, log entry 152). -/
def State.drawOver (s : State) (c : Nat) : Bool :=
  s.cph.any fun e => decide (0 < e.2.want) && (match e.2.cmd with
    | some x => decide (x.ctx = c) && (match cphBound (cphParse x.words).op (cphParse x.words).len 2 with
      | some b => decide (e.2.startedAt + b ≤ s.tb)
      | none => false)
    | none => false)

/-- SERVICE_DRAW_EXPIRY (11 R284). -/
def execServiceDrawExpiry (dt : Nat) (c : Fin 8192) (s : State) : Out :=
  timed dt (fun s => s.drawOver c.val) s (fun s => s.cancelDraw c.val)

end Sys2Proof.Machine
end

