-- ==== Sys2Proof/Machine/Kst.lean ====
section
/-!
DEFINITION. Machine/Kst.lean: the key store's own work: control commands (10 R274), the log buffer and waiting commits
(10 R267), hot regions (10 R265), checkpoints (10 R270), the mount (10 R272).
-/

namespace Sys2Proof.Machine

/-! ### Control commands (10 R274) -/

/-- A write of KST_CMD. -/
def State.kstCmd (s : State) (v : Word32) : State :=
  let op := v.toNat % 16
  if s.on KST_CMD_BUSY then s
  else
    let s := s.fset KST_CMD_OP op
    if !v.getLsbD 31 then s
    else if 1 ≤ op ∧ op ≤ 6 then
      { ((s.raise KST_CMD_BUSY).raise KST_STAT_CMD_BUSY).fset KST_CMD_ERR 0 with kst := { s.kst with running := some op } }
    else (s.fset KST_CMD_ERR 8).raise KST_EVT_CMD_ERR

/-- An operation ends with an ERR code; 0 is success. -/
def State.cmdEnds (s : State) (err : Nat) : State :=
  let s := { (s.lower KST_CMD_BUSY).lower KST_STAT_CMD_BUSY with kst := { s.kst with running := none } }
  (s.fset KST_CMD_ERR err).raise (if err = 0 then KST_EVT_CMD_DONE else KST_EVT_CMD_ERR)

/-- A fixed slot number. -/
def fixedSlot (n : Nat) : Bool := decide (1 ≤ n) && decide (n ≤ 0xFFF)

/-- The record of an index reaches the cache; `ok` false is an integrity failure of a fetch that was needed. -/
def State.bringIn (s : State) (i : Nat) (ok : Bool) : Except Unit State × State :=
  match s.tier i with
  | .cache => (.ok (s.install i), s)
  | t =>
    let s := s.countFetch i
    if s.fetchVerifies (decide (t = .hot)) i ok then (.ok (s.install i), s)
    else (.error (), s.integrityFailure (decide (t = .hot)) i)

/-- The lines held by fixed pins (KST_PINUSE). -/
def State.pinUse (s : State) : Nat := s.cacheLines fun c => c.fixed.isSome

/-- PIN. -/
def State.cmdPin (s : State) (ok : Bool) : State :=
  let h := (s.rd KST_CMD_HANDLE).toNat
  let i := handleIndex h
  let slot := s.fget KST_CMD_SLOT_SLOT
  let held := match s.cachedAt i with
    | some c => c.fixed
    | none => none
  if !s.handleMatches h then s.cmdEnds 1
  else if !fixedSlot slot || (s.fixedRec slot).isSome || held.isSome then s.cmdEnds 2
  else if s.fget KST_PINMAX_LINES < s.pinUse + s.linesAt i then s.cmdEnds 3
  else match s.bringIn i ok with
    | (.error _, s) => s.cmdEnds 5
    | (.ok s, _) =>
      (match s.cachedAt i with
       | some c => s.setCached i (some { c with fixed := some slot })
       | none => s).cmdEnds 0

/-- UNPIN. -/
def State.cmdUnpin (s : State) : State :=
  let slot := s.fget KST_CMD_SLOT_SLOT
  match (if fixedSlot slot then s.fixedRec slot else none) with
  | none => s.cmdEnds 2
  | some (i, _) =>
    ((match s.cachedAt i with
      | some c => s.setCached i (some { c with fixed := none })
      | none => s).slotHealed slot).cmdEnds 0

/-- PREFETCH. -/
def State.cmdPrefetch (s : State) (ok : Bool) : State :=
  let h := (s.rd KST_CMD_HANDLE).toNat
  if !s.handleMatches h then s.cmdEnds 1
  else match s.bringIn (handleIndex h) ok with
    | (.error _, s) => s.cmdEnds 5
    | (.ok s, _) => s.cmdEnds 0

/-- EVICT; a record that the cache does not hold is already dropped. -/
def State.cmdEvict (s : State) : State :=
  let h := (s.rd KST_CMD_HANDLE).toNat
  if !s.handleMatches h then s.cmdEnds 1
  else match s.cachedAt (handleIndex h) with
    | none => s.cmdEnds 0
    | some c => if c.pinned then s.cmdEnds 4 else (s.setCached (handleIndex h) none).cmdEnds 0

/-- The counter tree after frames of the log: an index maps to its latest frames, a destroyed one to none (10 R266). -/
def treeAfter (m : Sparse SealedRec) : List SealedRec → Sparse SealedRec
  | [] => m
  | e :: t => treeAfter (sput {} m e.index (if e.image.type = 0 then {} else e)) t

/-- The root of a tree. -/
def rootOf (m : Sparse SealedRec) : BitVec 256 := Config.treeRoot (m.map fun e => (e.1, e.2.lsn))

/-- The start of the root copy that a ROOTSEQ stands in (14 Table 14.1, log entry 134). -/
def rootAddr (rootseq : Nat) : Nat := 0x10050000 + 0x10000 * (rootseq % 2)

/-- A root record is written to the copy whose turn it is (10 R270, 14 R330): its block is erased, which its erase count
counts (14 R344), and the record programmed at its start (log entry 134). -/
def State.writeRoot (s : State) (r : Root) : State :=
  let a := rootAddr r.rootseq
  let page := (List.range 256).map fun k => Config.rootByte r.rootseq r.treeRoot r.logPos r.jseqSnap k
  (((s.eraseE1 (flcBlock a)).blockBlank a).eraseE4 (flcBlock a)).programBytes a page

/-- KST's writes enter the interconnect at these addresses (07 R195); the first denial ends them. -/
def State.kstEnters (s : State) : List Nat → Ans Unit
  | [] => (.ok (), s)
  | a :: t => match s.enter ⟨.kst, 0⟩ a .write with
    | (.error e, s) => (.error e, s)
    | (.ok _, s) => s.kstEnters t

/-- A checkpoint is taken (10 R270): the root record with the next ROOTSEQ, of which two copies are kept, the same
ROOTSEQ in the backup domain, and the JSEQ it includes. The tree takes in every frame programmed. The answer is false
where the access table denies KST a write (07 R195, log entry 158): then nothing is written. -/
def State.takeCheckpoint (s : State) : Bool × State :=
  let n := (s.rd TMP_ROOTSEQ).toNat + 1
  match s.kstEnters ((List.range 8).map (fun k => rootAddr n + 32 * k) ++ [TMP_ROOTSEQ]) with
  | (.error _, s) => (false, { s with kst := { s.kst with checkpointing := false, lastCheckpoint := s.tb } })
  | (.ok _, s) =>
    let tree := treeAfter s.kst.sealedRecs s.kst.tail
    let r : Root := { rootseq := n, treeRoot := rootOf tree, logPos := s.kst.lsn, jseqSnap := s.kst.durable }
    let roots := s.kst.roots ++ [r]
    let s := { s with kst := { s.kst with roots := roots.drop (roots.length - 2), lastCheckpoint := s.tb,
                                          checkpointing := false, sealedRecs := tree, tail := [], treeRoot := rootOf tree } }
    (true, ((s.writeRoot r |>.wr TMP_ROOTSEQ (BitVec.ofNat 64 n)).wr KST_SNAP (BitVec.ofNat 64 s.kst.durable)).raise
      KST_EVT_CKPT_DONE)

/-- The image that an IMPORT blob unwraps to. The spec gives no length of the blob: a free value (log entry 36). A read
that waits for the array leaves the command as it was. -/
def State.unwrapBlob (s : State) (kek : List Byte) : Ans (Option (List Byte)) :=
  match s.readBlock ⟨.kst, 0⟩ (s.fget KST_CMD_SRC_ADDR * 16) (72 + 8 * ((Config.freeWord s.freeCtr).toNat % 161)) with
  | (.ok b, s) => (.ok (kwpUnwrap kek b), s.drawn 1)
  | (.error .wait, s) => (.error .wait, s)
  | (.error _, s) => (.ok none, s.drawn 1)

/-- The checks of a CREATE that an import makes at index `i` (10 R264). -/
def State.importOk (s : State) (i : Nat) (r : KeyRec) : Bool :=
  decide (r.flags ≤ 7) && klenOk r.type r.key.length && (decide (r.limit = 0) != r.counted) && !s.spanBusy i r.lines &&
  !(r.counted && decide (i < (s.rd KST_HOTLINES).toNat))

/-- The record that a CREATE at index `i` makes now of an image: its handle check and its VERSION are those of the creation
(10 R260). -/
def State.asCreated (s : State) (i : Nat) (r : KeyRec) : KeyRec :=
  { r with hchk := s.checkValue i ((s.rd KST_JSEQ).toNat + 1), version := (sget 0 s.kst.deadVersion i + 1) % 2 ^ 32 }

/-- The record that an imported image creates at index `i`, where the CREATE checks of 10 R264 pass: its header's fields,
COUNT and CEIL among them. Reserved header bytes are dropped and USE bits 15:11 kept as they come (DESIGN CHOICE, log
entry 155). -/
def State.importRecord (s : State) (i : Nat) (img : List Byte) : Option KeyRec :=
  let r := recOfImage img
  if img.length = 64 + leAt img 2 2 ∧ s.importOk i r then some (s.asCreated i r) else none

/-- A commit that no context makes is applied, and mirrored with REQUESTER and SEQ 0. -/
def State.commitAlone (s : State) (cs : List (Nat × Nat × KeyRec)) : State :=
  let (s, es) := (s.resetNexts cs).commit cs
  s.sendMirror (s.rd KST_JSEQ).toNat es (mirrorBody 0 0 es [])

/-- An IMPORT's commit waits for room; the command goes on until its record exists (10 R267, R274). -/
def importWaits (l : List WaitingCommit) : Bool := l.any fun w => w.ctx.isNone && w.changes.any fun c => decide (c.1 = 1)

/-- IMPORT. -/
def State.cmdImport (s : State) (ok : Bool) : State :=
  let slot := s.fget KST_CMD_SLOT_SLOT
  let i := handleIndex (s.rd KST_CMD_HANDLE).toNat
  if importWaits s.kst.waiting then s
  else if s.sys.mode ≠ .custody ∨ !s.holds then s.cmdEnds 7
  else if !fixedSlot slot then s.cmdEnds 2
  else match s.fixedRec slot with
    | none => s.cmdEnds 1
    | some (_, k) =>
      if k.type ≠ 2 ∨ !k.useBit 3 then s.cmdEnds 1
      else if !ok ∨ s.slotBad slot then s.cmdEnds 5
      else match s.unwrapBlob k.key with
        | (.error _, s) => s
        | (.ok none, s) => s.cmdEnds 7
        | (.ok (some img), s) => match s.importRecord i img with
          | none => s.cmdEnds 7
          | some r =>
            if s.commitFits [(1, i, r)] then (s.commitAlone [(1, i, r)]).cmdEnds 0 else s.stallCommit ⟨none, [(1, i, r)]⟩

/-- KST_CMD_COMPLETE (10 R274): `ok` is false where a fetch fails its integrity check or the flash fails. -/
def execKstCmdComplete (dt : Nat) (ok : Bool) (s : State) : Out :=
  .next (let s := s.elapse dt
    match s.kst.running with
    | some 1 => s.cmdPin ok
    | some 2 => s.cmdUnpin
    | some 3 => s.cmdPrefetch ok
    | some 4 => s.cmdEvict
    | some 5 => match (if ok then s.takeCheckpoint else (false, s)) with
      | (true, s) => s.cmdEnds 0
      | (false, s) => s.cmdEnds 6
    | some _ => s.cmdImport ok
    | none => s)

/-! ### Checkpoints (10 R270) -/

/-- CHECKPOINT_TIMER: PERIOD_MS has passed; 0 acts as 0x03E8. -/
def execCheckpointTimer (dt : Nat) (s : State) : Out :=
  timed dt (fun s =>
    let p := s.fget KST_CKPT_PERIOD_MS
    s.powered && s.on KST_STAT_MOUNTED && !s.kst.checkpointing &&
    decide (s.kst.lastCheckpoint + (if p = 0 then 0x3E8 else p) * 1000000 ≤ s.tb)) s
    (fun s => { s with kst := { s.kst with checkpointing := true } })

/-- CHECKPOINT_DONE: `ok` is false where the flash fails, and no root record is written. -/
def execCheckpointDone (dt : Nat) (ok : Bool) (s : State) : Out :=
  timed dt (fun s => s.powered && s.kst.checkpointing) s (fun s =>
    if ok then s.takeCheckpoint.2 else { s with kst := { s.kst with checkpointing := false, lastCheckpoint := s.tb } })

/-! ### The log buffer (10 R267) -/

/-- The oldest frame group of the log buffer is programmed; the tree in on-die SRAM takes it in (10 R266). -/
def State.logProgrammed (s : State) : State :=
  match s.kst.log with
  | [] => s
  | e :: rest =>
    let tail := s.kst.tail ++ [({ lsn := s.kst.lsn + 1, jseq := e.jseq, index := e.index, image := e.image,
                                  key := s.kst.sealingKey } : SealedRec)]
    let s := { s with kst := { s.kst with
      log := rest
      tail := tail
      treeRoot := rootOf (treeAfter s.kst.sealedRecs tail)
      lsn := s.kst.lsn + 1
      durable := max s.kst.durable e.jseq
      raises := s.kst.raises.map fun (r : CeilRaise) => if r.jseq = e.jseq then { r with programmed := true } else r } }
    let s := match s.cachedAt e.index with
      | some c =>
        let c := { c with dirty := c.dirty - 1 }
        s.setCached e.index (if s.hasRec e.index || c.pinned then some c else none)
      | none => s
    s.raisesTakeEffect

/-- The changes of a waiting commit as they stand when it proceeds: a context's list is judged again, so that it sees
every commit before it; an import's CREATE is checked again; a raise of CEIL is dropped where its record is gone. -/
def State.waitingChanges (s : State) (w : WaitingCommit) : Except Nat (List (Nat × Nat × KeyRec)) :=
  match w.ctx with
  | some c => s.commitChanges c (match (s.ctx c).resp with
      | some r => r.payload.length
      | none => 0)
  | none => match w.changes with
    | [(1, i, r)] => if s.importOk i r then .ok [(1, i, s.asCreated i r)] else .error 0
    | cs => .ok (cs.filterMap fun ch =>
        let r := s.recAt ch.2.1
        if r.type ≠ 0 ∧ r.hchk = ch.2.2.hchk then some (0, ch.2.1, { r with ceil := ch.2.2.ceil }) else none)

/-- The waiting commit of context `c` proceeds. -/
def State.resumeCtx (s : State) (c : Nat) (cs : List (Nat × Nat × KeyRec)) : State :=
  let s := match s.createdHandle c cs, (s.ctx c).resp with
    | some h, some r => s.setCtx c { s.ctx c with resp := some { r with result := h } }
    | _, _ => s
  let s := (s.commitEvents cs).resetNexts cs
  let (s, es) := (s.drawn cs.length).commit cs
  s.afterCommit c es (s.rd KST_JSEQ).toNat

/-- A waiting commit that no context makes proceeds: a raise of CEIL, or an import. -/
def State.resumeAlone (s : State) (cs : List (Nat × Nat × KeyRec)) : State :=
  let isRaise := cs.any fun c => decide (c.1 = 0)
  let (s, es) := (s.resetNexts cs).commit cs (!isRaise)
  let j := (s.rd KST_JSEQ).toNat
  let s := if isRaise then
      { s with kst := { s.kst with raises := s.kst.raises ++ cs.map fun c => ({ index := c.2.1, ceil := c.2.2.ceil, jseq := j } : CeilRaise) } }
    else s
  let s := s.sendMirror j es (mirrorBody 0 0 es [])
  if isRaise then s else s.cmdEnds 0

/-- The first waiting commit proceeds where there is room. -/
def State.resumeCommit (s : State) : State :=
  match s.kst.waiting with
  | [] => s
  | w :: rest =>
    let s' := { s with kst := { s.kst with waiting := [] } }
    let back := fun (s : State) => { s with kst := { s.kst with waiting := rest } }
    match s'.waitingChanges w with
    | .error k => match w.ctx with
      | some c => back (((s'.logCommitFailure c k).setCtx c { s.ctx c with committed := false }).endWith c { status := 0x31 })
      | none => back (s'.cmdEnds 7)
    | .ok cs =>
      if s'.commitFits cs then
        match w.ctx with
        | some c => back (s'.resumeCtx c cs)
        | none => back (if cs.isEmpty then s' else s'.resumeAlone cs)
      else s

/-- LOGSTALL_RESUME (10 R267, R268): only the holder commits. -/
def execLogstallResume (dt : Nat) (s : State) : Out := timed dt (fun s => s.powered && s.holds) s State.resumeCommit

/-! ### Hot regions (10 R265) -/

/-- The number of hot regions. -/
def State.hotRegions (s : State) : Nat := cdiv (s.rd KST_HOTLINES).toNat 4096

/-- The hot regions that are invalid (KST_HOTFILL). -/
def State.hotInvalid (s : State) : Nat :=
  s.hotRegions - (s.kst.hotValid.filter fun e => e.2 && decide (e.1 < s.hotRegions)).length

/-- The rewrite of region `n` under a new generation ends. -/
def State.regionRefreshed (s : State) (n : Nat) : State :=
  { s with kst := { s.kst with
      refresh := s.kst.refresh.erase n
      hotGen := sput 0 s.kst.hotGen n (sget 0 s.kst.hotGen n + 1)
      cached := s.kst.cached.map fun e => (e.1, e.2.map fun c => { c with refreshing := c.refreshing.erase n }) } }

/-- HOT_REGION_REFRESH (10 R265). -/
def execHotRegionRefresh (dt : Nat) (n : BitVec 20) (s : State) : Out :=
  timed dt (fun s => s.powered && s.kst.refresh.contains n.toNat) s (fun s => s.regionRefreshed n.toNat)

/-- HOT_REGION_REFILL (10 R272): an invalid region is refilled from the sealed store under a new generation. -/
def execHotRegionRefill (dt : Nat) (n : BitVec 20) (s : State) : Out :=
  timed dt (fun s => s.powered && s.on KST_STAT_MOUNTED && !s.rng.hkWait && decide (n.toNat < s.hotRegions) &&
      !sget false s.kst.hotValid n.toNat) s
    (fun s => { s with kst := { s.kst with hotValid := sput false s.kst.hotValid n.toNat true,
                                           hotGen := sput 0 s.kst.hotGen n.toNat (sget 0 s.kst.hotGen n.toNat + 1) } })

/-! ### The mount (10 R272) -/

/-- SEALED_STORE_MOUNT: KST_CTRL.EN set at BOOT, on an attachment that BOOT accepts (10 R273). -/
def execSealedStoreMount (dt : Nat) (s : State) : Out :=
  timed dt (fun s => decide (s.sys.mode = .boot) && s.on KST_CTRL_EN && !s.on KST_STAT_MOUNTED && !s.kst.mounting &&
      decide (s.fget KST_SEALCFG_TGT_GIB ≠ 0) && decide (s.fget KST_MEMCFG_DIMM_GIB ≠ 0)) s
    (fun s => { s with kst := { s.kst with mounting := true } })

/-- The largest ROOTSEQ of the root copies. -/
def State.rootSeq (s : State) : Nat := (s.kst.roots.map Root.rootseq).foldl max 0

/-- NEXT of every counted record starts at its CEIL (10 R269). -/
def nextsOf (m : Sparse KeyRec) : Sparse Nat := m.filterMap fun e => if e.2.counted && decide (e.2.ceil ≠ 0) then some (e.1, e.2.ceil) else none

/-- The frames after the root that verify under a key, in log sequence order, up to the first that fails (10 R272). -/
def verified (key : BitVec 256) : List SealedRec → List SealedRec
  | [] => []
  | e :: t => if e.bad || decide (e.key ≠ key) then [] else e :: verified key t

/-- The records that a tree maps indices to. -/
def recordsOf (m : Sparse SealedRec) : Sparse KeyRec := m.map fun e => (e.1, e.2.image)

/-- JSEQ_SNAP of the newest root copy. -/
def State.jseqSnap (s : State) : Nat := (s.kst.roots.map Root.jseqSnap).foldl max 0

/-- The store as the roll-forward leaves it: the newest root's tree with the frames after it that verify, and JSEQ_LOCAL
the last JSEQ reached (10 R272). A BMK drawn since the last mount leaves nothing readable, and an empty store is
formatted (13 R315). -/
def State.rollForward (s : State) : State :=
  let fresh := s.on SYS_BOOTTAMP_BMK_NEW
  let key := Config.sealingKey s.sys.bmk
  let tail := if fresh then [] else verified key s.kst.tail
  let tree := if fresh then [] else treeAfter s.kst.sealedRecs tail
  let recs := recordsOf tree
  let j := if fresh then 0 else (tail.map SealedRec.jseq).foldl max s.jseqSnap
  let s := { s with kst := { s.kst with
      records := recs, sealedRecs := if fresh then [] else s.kst.sealedRecs, tail := tail, treeRoot := rootOf tree,
      cached := [], nexts := nextsOf recs, log := [], waiting := [], raises := [],
      deadVersion := if fresh then [] else s.kst.deadVersion, durable := j, mounting := false,
      journal := if fresh then [] else s.kst.journal.filter fun e => decide (e.jseq ≤ j),
      hotValid := [], refresh := [], lastCheckpoint := s.tb, sealingKey := key } }
  let snap := if fresh then 0 else s.jseqSnap
  (((s.wr KST_JSEQ (BitVec.ofNat 64 j)).wr KST_SNAP (BitVec.ofNat 64 snap)).raise KST_STAT_MOUNTED).lower SYS_BOOTTAMP_BMK_NEW

/-- Ask the peer for the journal from `j` on; `compare` says that the first entry is checked against the device's own. -/
def State.askJournal (s : State) (j : Nat) (compare : Bool) : State :=
  let s := { s with duo := { s.duo with
      catching := some (j, compare), caught := false, target := none, journalWait := [] } }
  s.sendSegments s.peerPath 6 j 1 [] 0 1

/-- The largest ROOTSEQ of the root copies that KST can read (10 R270), as MID 0x14 (07 R195): a copy whose read is denied
or damaged is not valid, and a read that waits for the array waits. -/
def State.readRoots (s : State) : List Root → Ans Nat
  | [] => (.ok 0, s)
  | r :: t => match s.readBlock ⟨.kst, 0⟩ (rootAddr r.rootseq) 256 with
    | (.error .wait, s) => (.error .wait, s)
    | (.error _, s) => s.readRoots t
    | (.ok _, s) => match s.readRoots t with
      | (.error e, s) => (.error e, s)
      | (.ok n, s) => (.ok (max r.rootseq n), s)

/-- The mount is done. A device whose duo protocol is enabled asks the peer for the journal (10 R272, 12 R304). -/
def State.mounted (s : State) : State :=
  let s := s.rollForward
  if s.on DUO_CTRL_EN then s.askJournal (s.rd KST_JSEQ).toNat true else s

/-- The mount ends: it fails where the best valid root copy is older than the backup domain's ROOTSEQ, or than the tree that
its frames belong to (10 R270, log entry 158). After a new BMK there is nothing to load (13 R315). -/
def State.mountEnds (s : State) : State :=
  if s.on SYS_BOOTTAMP_BMK_NEW then s.mounted
  else match s.readRoots s.kst.roots with
    | (.error _, s) => s
    | (.ok n, s) =>
      if n < max (s.rd TMP_ROOTSEQ).toNat s.rootSeq then
        { s.raise KST_EVT_SEAL_INT with kst := { s.kst with mounting := false } }
      else s.mounted

end Sys2Proof.Machine
end

