-- ==== Sys2Proof/Machine/Svc.lean ====
section
/-!
DEFINITION. Machine/Svc.lean: the service front end: the checks on arrival (02 R43), MACsec on the receive side (02 R37,
R38), the replay window (02 R48, R50), the management queue (02 R65), port configuration (02 R62), SA loads (02 R39,
R67), internal requests (06 R186), and the level sources of links and reference clocks (16 R368).
-/

namespace Sys2Proof.Machine

/-! ### Level sources (16 R368) -/

/-- The cause of level source `n` is present or not; its rise is one event. -/
def State.setCause (s : State) (n : Nat) (b : Bool) : State :=
  if b && !s.on (causeFld n) then (s.raise (causeFld n)).signal n 0 else s.put (causeFld n) b

/-- ETH_LINKn: the link of port `n` is down while its PORT_EN bit is 1. -/
def State.linkCause (s : State) (n : Nat) : State :=
  s.setCause (84 + n) (s.portOn n && !s.svc.linkUp.getLsbD n)

/-- The level sources of the four links, from the link states. -/
def State.linkCauses (s : State) : State := (((s.linkCause 0).linkCause 1).linkCause 2).linkCause 3

/-- Set the link state of a port. -/
def State.setLink (s : State) (port : Nat) (up : Bool) : State :=
  let m : BitVec 4 := 1#4 <<< port
  { s with svc := { s.svc with linkUp := if up then s.svc.linkUp ||| m else s.svc.linkUp &&& ~~~m } }

/-- LINK_STATE_CHANGE (16 R368): a link comes up only on an enabled port. -/
def execLinkStateChange (dt : Nat) (port : Fin 4) (up : Bool) (s : State) : Out :=
  timed dt (fun s => s.powered && (!up || s.portOn port)) s (fun s => (s.setLink port up).linkCause port)

/-- The reference clock of an island is absent or present; the Ethernet island's clock carries the timebase. -/
def State.setRefclk (s : State) (mem present : Bool) : State :=
  let s := { s with sys := if mem then { s.sys with refclkMem := present } else { s.sys with refclkEth := present } }
  s.setCause (if mem then 93 else 92) (!present)

/-- REFCLK_LOSS (20 R441): while the core domain has no power the loss is no event, and it is one at the next reset release
(16 R369). -/
def execRefclkLoss (dt : Nat) (mem : Bool) (s : State) : Out := .next ((s.elapse dt).setRefclk mem false)

/-- REFCLK_RESTORE (16 R368). -/
def execRefclkRestore (dt : Nat) (mem : Bool) (s : State) : Out := .next ((s.elapse dt).setRefclk mem true)

/-- SERVICE_CORE_HANG (16 R368): only a core that runs a context can hang. -/
def execServiceCoreHang (dt : Nat) (k : Fin 64) (s : State) : Out :=
  timed dt (fun s => (s.ctxOn k).isSome) s (fun s => s.signal (106 + k.val / 4) k.val)

/-! ### MACsec on arrival (02 R37, R38) -/

/-- The receive SC of a port whose SCI a frame carries: the lowest index where several hold it (DESIGN CHOICE, log entry
121). -/
def State.rxSc (s : State) (port : Nat) (sci : BitVec 64) : Option Nat :=
  (List.range 4).find? fun k => decide ((s.sc (scKey port false k)).sci = sci)

/-- The association number of a protected frame. -/
def secAn (b : List Byte) : Nat := beAt b 14 1 % 4

/-- A protected frame is opened under the SA that its SCI and its association number name: its SC, its packet number and
its content; none where it does not verify. -/
def State.secOpened (s : State) (port : Nat) (b : List Byte) : Option (Nat × Nat × List Byte) :=
  match s.rxSc port (BitVec.ofNat 64 (beAt b 20 8)) with
  | none => none
  | some k => ((s.sa (saKey port false k (secAn b))).opens (s.sc (scKey port false k)) b).map fun x => (k, x)

/-- The lowest acceptable packet number after a frame is accepted: the window is ETH_MSEC_CTRLn.RPWIN. -/
def State.rxAdvance (s : State) (port k an pn : Nat) : State :=
  let key := saKey port false k an
  let a := s.sa key
  s.setSa key { a with pn := max a.pn (pn + 1 - s.fget (ETH_MSEC_CTRL_RPWIN port)) }

/-! ### The management queue (02 R65) -/

/-- A PTP event message: over EtherType 0x88F7, or over UDP/IPv6 port 319 (02 R64). -/
def isPtpEvent (c : List Byte) : Bool :=
  (decide (etherType c = 0x88F7) && decide (beAt c 14 1 % 16 ≤ 3)) ||
  (decide (etherType c = 0x86DD) && decide (beAt c 20 1 = 17) && decide (beAt c 56 2 = 319))

/-- The time from the message timestamp point of IEEE 1588, the start of the destination address, to the last bit of a
frame of `len` bytes, rounded up (02 R64; log entry 136). -/
def rxNs (len : Nat) : Nat := (len * 8 + 99) / 100

/-- The header of a ring slot. -/
def slotHeader (ts len port sc flags : Nat) : List Byte :=
  leBytes 8 ts ++ leBytes 2 len ++ [BitVec.ofNat 8 port, BitVec.ofNat 8 sc, BitVec.ofNat 8 flags, 0, 0, 0]

/-- The address of a ring slot: 64 receive slots, then 16 transmit slots. -/
def State.mgqSlot (s : State) (n : Nat) : Nat := (s.rd SVC_MGQ_BASE).toNat + 2048 * n

/-- A frame of `len` bytes for control firmware: written into the next receive slot, or dropped. The slot's length
counts the content from the destination address on, without SecTAG, ICV and FCS (DESIGN CHOICE, log entry 122). -/
def State.toManagement (s : State) (port sc len : Nat) (c : List Byte) : State :=
  let h := s.fget SVC_MGQ_CTRL_RX_HEAD
  if !s.on SVC_MGQ_CTRL_EN || decide (2032 < c.length) then s
  else if (h + 1) % 64 = s.fget SVC_MGQ_CTRL_RX_TAIL then s.raise SVC_EVT_MGQ_OVF
  else
    match s.writeBlock ⟨.mgq, 0⟩ (s.mgqSlot h) (slotHeader (s.tb - rxNs len) c.length port sc (if isPtpEvent c then 1 else 0) ++ c) with
    | (.ok _, s) => s.fset SVC_MGQ_CTRL_RX_HEAD ((h + 1) % 64)
    | (.error _, s) => s

/-- What a transfer of a unit leaves for the time when the flash array is free (14 R337). -/
def State.waitsFor (s : State) (w : ArrayWait) : State := { s with flc := { s.flc with waits := s.flc.waits ++ [w] } }

/-- The frame of a transmit slot is taken for its port; a slot in flash waits for the array (14 R337). -/
def State.mgtTake (s : State) (v : Word32) : State :=
  let slot := v.toNat / 2 ^ 16 % 16
  match s.readBlock ⟨.mgq, 0⟩ (s.mgqSlot (64 + slot)) 2048 with
  | (.ok bs, s) =>
    let m : MgtTx := { port := Fin.ofNat 4 (v.toNat / 2 ^ 8), slot := slot, tscap := v.getLsbD 23,
                       content := slice bs 16 (min (leAt bs 8 2) 2032) }
    State.endStalls { s with svc := { s.svc with mgt := s.svc.mgt ++ [m] } } .mgq
  | (.error .wait, s) => s.waitsFor (.mgt v)
  | (.error _, s) => s.endStalls .mgq

/-- The management queue waits for the flash array. -/
def State.mgtHeld (s : State) : Bool :=
  s.flc.waits.any fun w => match w with
    | .mgt _ => true
    | _ => false

/-- A write of SVC_MGT_GO: the queue takes its frames in order. -/
def State.mgtGo (s : State) (v : Word32) : State :=
  if v.getLsbD 0 then (if s.mgtHeld then s.waitsFor (.mgt v) else s.mgtTake v) else s

/-- A management frame that its port can send leaves: the timestamp where it was asked for, then the completion flag. -/
def State.mgtDone (s : State) : State :=
  match s.svc.mgt.find? (fun m => s.canSendMgt m.port) with
  | none => s
  | some m =>
    let s := { s with svc := { s.svc with mgt := s.svc.mgt.erase m } }
    let s := s.sendFrame m.port m.content s.tb
    let a := s.mgqSlot (64 + m.slot)
    let s := if m.tscap then (s.writeBlock ⟨.mgq, 0⟩ a (leBytes 8 s.tb)).2 else s
    match s.readBlock ⟨.mgq, 0⟩ (a + 12) 1 with
    | (.ok bs, s) => (s.writeBlock ⟨.mgq, 0⟩ (a + 12) [bs.getD 0 0 ||| 2]).2
    | (.error _, s) => if s.mgtHeld then s else s.endStalls .mgq

/-- MGT_TX_DONE (02 R65). -/
def execMgtTxDone (dt : Nat) (s : State) : Out := .next (s.elapse dt).mgtDone

/-! ### Requesters and the replay window (02 R47-R50) -/

/-- The requester entry `n`. -/
def State.requester (s : State) (n : Nat) : Requester := sget {} s.svc.rq n
/-- Replace a requester entry. -/
def State.setRequester (s : State) (n : Nat) (r : Requester) : State :=
  { s with svc := { s.svc with rq := sput {} s.svc.rq n r } }

/-- The enabled entries of an identity; identity 0 matches nothing. -/
def State.entriesFor (s : State) (id : Nat) : List Nat :=
  if id = 0 then [] else (s.svc.rq.filter fun e => e.2.en && decide (e.2.id = id)).map (·.1)

/-- Step 6: the one enabled entry of the identity, if it covers the way of arrival. -/
def State.requesterFor (s : State) (id port : Nat) (sc : Option Nat) : Option Nat :=
  match s.entriesFor id with
  | [n] =>
    let e := s.requester n
    let covers := match sc with
      | some k => e.rxsc.getLsbD (4 * port + k)
      | none => e.plain.getLsbD port && !s.on SVC_CTRL_MSEC_REQ
    if covers then some n else none
  | _ => none

/-- A run of `k` bits from bit `lo` of a window of 8,192 bits, around its end. -/
def windowMask (lo k : Nat) : BitVec 8192 := (BitVec.ofNat 8192 (2 ^ k - 1)).rotateLeft (lo % 8192)

/-- The outcome of `check_and_mark` (02 R48). -/
inductive MarkResult where
  | pass | stale | replayed
  deriving DecidableEq, Repr

/-- `check_and_mark(e, SEQ)` (02 R48). -/
def checkAndMark (e : Requester) (seq : Nat) : MarkResult × Requester :=
  let bit : BitVec 8192 := 1#8192 <<< (seq % 8192)
  if e.high < seq then
    let k := min (seq - e.high - 1) 8191
    (.pass, { e with high := seq, seen := (e.seen &&& ~~~(windowMask (seq - k) k)) ||| bit })
  else if seq + 8192 ≤ e.high then (.stale, e)
  else if e.seen.getLsbD (seq % 8192) then (.replayed, e)
  else (.pass, { e with seen := e.seen ||| bit })

/-- The largest sequence number: an entry whose HIGH is here accepts no new request (02 R50). -/
def seqMax : Nat := 0xFFFFFFFFFFFFFFFF

/-- Step 11 for the entry `n`. -/
def State.stepEleven (s : State) (n seq : Nat) : MarkResult × State :=
  let e := s.requester n
  if e.high = seqMax then (if e.seen.getLsbD (seq % 8192) && decide (seqMax < seq + 8192) then .replayed else .stale, s)
  else
    let (r, e') := checkAndMark e seq
    let s := s.setRequester n e'
    (r, if e'.high = seqMax ∧ e.high ≠ seqMax then s.raise SVC_EVT_RQ_SEQ_MAX else s)

/-- A write of SVC_RQ_FLOOR (02 R50). -/
def State.rqFloor (s : State) (v : Word) : State :=
  let n := s.fget SVC_RQ_SEL_INDEX
  let e := s.requester n
  if e.en then s.raise SVC_EVT_CFG_REJ
  else
    let s := s.setRequester n { e with high := v.toNat, seen := BitVec.allOnes 8192 }
    let s := { s with svc := { s.svc with instant := s.svc.instant.filter fun x => decide (x.rq ≠ n) } }
    if v.toNat = seqMax then s.raise SVC_EVT_RQ_SEQ_MAX else s

/-! ### Steps 7 to 10 (02 R43, R52-R55; 06 R183) -/

/-- A refusal at steps 6 to 11: its step, STATUS and DETAIL. -/
structure FrontRefusal where
  step : Nat
  status : Nat
  detail : Nat := 0
  deriving DecidableEq, Repr

/-- Steps 7 to 10 for a request with `follow` bytes after its header; `permitted` says whether step 8's permissions hold
for word 0 and the requester mask of the service's dispatch entry. -/
def State.checkRequest (s : State) (q : CrpReq) (plenOk : Bool) (permitted : Nat → Nat → Bool) : Option FrontRefusal :=
  let b := s.bank
  let w := s.dispWord b q.service
  let mask := w 4 + w 5 * 2 ^ 32
  let minCls := natBits (w 0) 23 3
  let nop := decide (q.service = 1)
  let keyReq := natBits (w 0) 26 2
  if q.flags / 2 ≠ 0 ∨ q.cls / 8 ≠ 0 ∨ q.status ≠ 0 ∨ q.seq = 0 ∨ 8192 < q.plen ∨ !plenOk then some ⟨7, 0x20, 0⟩
  else if !nop && (decide (q.service < 0x10) || decide (0xFFF < q.service) || decide (natBits (w 0) 31 1 = 0) ||
      !permitted (w 0) mask || (s.costEntry b q.service).isNone) then some ⟨8, 0x24, 0⟩
  else if !nop && (decide (q.cls < minCls) ||
      (decide (q.cls = 0) && (decide (256 < q.plen) || decide (256 < natBits (w 2) 0 14)))) then some ⟨9, 0x25, minCls⟩
  else if nop && decide (q.cls = 0) && decide (256 < q.plen) then some ⟨9, 0x25, 0⟩
  else if !handleOk q.handle then some ⟨10, 0x26, 0⟩
  else if nop then (if q.handle ≠ 0 ∨ q.plen ≠ 0 then some ⟨10, 0x26, 0⟩ else none)
  else if q.plen < natBits (w 1) 0 14 ∨ natBits (w 1) 16 14 < q.plen ∨ (keyReq = 0 ∧ q.handle ≠ 0) ∨
      (keyReq = 1 ∧ q.handle = 0) then some ⟨10, 0x26, 0⟩
  else none

/-- The place of a source among descriptors of one instant: the ports ascending, then the ring (03 R77, 06 R186). -/
def Source.rank : Source → Nat
  | .port p => p.val
  | .ring _ => 4

/-- A descriptor in the order in which ADM takes them: by arrival, and of one instant by their sources. -/
def insertDesc (d : Desc) : List Desc → List Desc
  | [] => [d]
  | x :: t => if d.ingress = x.ingress ∧ d.src.rank < x.src.rank then d :: x :: t else x :: insertDesc d t

/-- Hand a descriptor over to ADM (step 12). -/
def State.handOver (s : State) (d : Desc) : State := { s with adm := { s.adm with descs := insertDesc d s.adm.descs } }

/-- The request with the class field of its three bits, as ADM reads it. -/
def State.descOf (s : State) (src : Source) (r : Reply) (q : CrpReq) (msg : List Byte) (rq ingress : Nat) : Desc :=
  { src := src, reply := r, req := q, message := msg.take (40 + q.plen), rq := rq, ingress := ingress,
    epoch := s.fget ADM_EPOCH_NUM, bank := s.bank }

/-! ### Frames (02 R31-R33, R40, R43) -/

/-- What step 3 makes of a frame's content. -/
inductive Parsed where
  | crp (r : Reply) (msg : List Byte) (padded : Bool)
  | management
  | dropped
  deriving DecidableEq, Repr

/-- The length a CRP message states: its header, of 32 bytes for a peer message, and PLEN. -/
def crpLength (m : List Byte) : Nat := (if 2 ≤ beAt m 0 1 % 16 ∧ beAt m 0 1 % 16 ≤ 7 then 32 + beAt m 2 2 else 40 + beAt m 6 2)

/-- Step 3 (02 R31, R33, R40) for the content of a frame; `short` says that the frame may hold padding. -/
def State.parseFrame (s : State) (port : Nat) (short : Bool) (c : List Byte) : Parsed :=
  let src := BitVec.ofNat 48 (beAt c 6 6)
  if etherType c = 0x88B5 ∧ s.on SVC_CTRL_ETYPE_EN then
    .crp { dst := src, encap := .ether } (c.drop 14) short
  else if etherType c = 0x86DD ∧ s.on SVC_CTRL_UDP_EN ∧ 58 ≤ c.length ∧ beAt c 20 1 = 17 ∧
      s.portIp port ≠ 0 ∧ beAt c 38 16 = (s.portIp port).toNat ∧ beAt c 56 2 = s.fget SVC_UDP_UDP_PORT then
    let sip := BitVec.ofNat 128 (beAt c 22 16)
    let dip := BitVec.ofNat 128 (beAt c 38 16)
    let len := beAt c 58 2
    let udp := slice c 54 len
    let msg := udp.drop 8
    let sum := onesFold (onesSum (beBytes 16 sip.toNat ++ beBytes 16 dip.toNat ++ beBytes 4 len ++ [0, 0, 0, 17] ++ udp))
    if udp.length = len ∧ beAt c 60 2 ≠ 0 ∧ sum = 0xFFFF ∧ len = 8 + crpLength msg then
      let encap : Encap := .udp sip dip (BitVec.ofNat 16 (beAt c 54 2)) (BitVec.ofNat 16 (beAt c 56 2))
        (BitVec.ofNat 28 (beAt c 14 4))
      .crp { dst := src, encap := encap } msg false
    else .dropped
  else .management

/-- The peer message that a CRP message on a peer port spells (12 Table 12.4). -/
def peerMsgOf (port : Fin 4) (m : List Byte) : PeerMsg :=
  { port := port, typ := beAt m 0 1 % 16, dflags := beAt m 1 1, devid := beAt m 4 4, epoch := beAt m 8 4,
    rseq := beAt m 12 4, jseq := beAt m 16 8, dnum := beAt m 24 2, mode := beAt m 26 1, seg := beAt m 28 2,
    nseg := beAt m 30 2, body := slice m 32 (beAt m 2 2) }

/-- The duo link takes peer messages in BOOT, SERVICE and CUSTODY while DUO_CTRL.EN is 1 (02 R63). -/
def State.duoTakes (s : State) : Bool :=
  s.on DUO_CTRL_EN && (decide (s.sys.mode = .boot) || decide (s.sys.mode = .service) || decide (s.sys.mode = .custody))

/-- Hand a message to the duo link. -/
def State.toDuo (s : State) (m : PeerMsg) : State :=
  if s.duoTakes then { s with duo := { s.duo with inbox := s.duo.inbox ++ [m] } } else s

/-- A drop at step `k` of 02 Table 2.5, counted (02 R45). -/
def State.dropAt (s : State) (port k : Nat) : State := s.count (16 * port + 3 + k) 1

/-- A refusal at steps 6 to 11, counted and answered within 380 ns (02 R44, R45). -/
def State.refuseAt (s : State) (port : Fin 4) (r : Reply) (q : CrpReq) (x : FrontRefusal)
    (turn : Option (Nat × Nat) := none) : State :=
  (s.count (16 * port.val + 3 + x.step) 1).refuse port r q x.status x.detail (s.tb + 380) turn

/-- The refusal of step 11 for the requester entry `n` (02 Table 2.7). -/
def State.stepElevenRefusal (s : State) (n : Nat) (r : MarkResult) : FrontRefusal :=
  if r = .stale then ⟨11, 0x22, (s.requester n).high % 2 ^ 32⟩ else ⟨11, 0x23, 0⟩

/-- A request that step 11 refuses is answered STALE or REPLAYED. -/
def State.refuseEleven (s : State) (x : Arrival) (r : MarkResult) : State :=
  s.refuseAt x.port x.reply x.req (s.stepElevenRefusal x.rq r) (some (x.rq, x.req.seq))

/-- A request of this instant that a lower port's went before no longer passes step 11: its descriptor is withdrawn, and
it is refused (02 R49). The answer of one that was refused before says what step 11 says now. -/
def State.withdraw (s : State) (x : Arrival) (r : MarkResult) : State :=
  match s.adm.descs.find? (fun d =>
      decide (d.src = .port x.port ∧ d.rq = x.rq ∧ d.req.seq = x.req.seq ∧ d.ingress = x.time)) with
  | some d => State.refuseEleven { s with adm := { s.adm with descs := s.adm.descs.erase d } } x r
  | none =>
    let n := s.stepElevenRefusal x.rq r
    let content := s.refusalFrame x.port x.reply x.req n.status n.detail
    { s with svc := { s.svc with refusals := s.svc.refusals.map fun p =>
        if p.port = x.port ∧ p.since = x.time ∧ p.turn = some (x.rq, x.req.seq) then { p with content := content } else p } }

/-- Step 11 takes its turn for the request `x`, of this instant. -/
def State.stepElevenOf (s : State) (x : Arrival) : MarkResult × State :=
  let y := { x with before := s.requester x.rq }
  let (r, s) := s.stepEleven x.rq x.req.seq
  (r, { s with svc := { s.svc with instant := s.svc.instant ++ [y] } })

/-- Step 11 again for a request whose turn comes after one that arrived later. -/
def State.stepElevenAgain (s : State) (x : Arrival) : State :=
  match s.stepElevenOf x with
  | (.pass, s) => s
  | (r, s) => s.withdraw x r

/-- The window of a requester entry goes back to what it was in `e`. -/
def State.rewind (s : State) (n : Nat) (e : Requester) : State :=
  s.setRequester n { s.requester n with high := e.high, seen := e.seen }

/-- Step 11 of a request that arrives now. Requests of one requester and one ingress timestamp take their turn by ascending
port, so those on higher ports that came before it take theirs again (02 R49). -/
def State.stepElevenTurn (s : State) (x : Arrival) : MarkResult × State :=
  let now := s.svc.instant.filter fun y => decide (y.time = s.tb)
  let (again, rest) := now.partition fun y => decide (y.rq = x.rq ∧ x.port < y.port)
  let s := { s with svc := { s.svc with instant := rest } }
  let s := match again with
    | y :: _ => s.rewind x.rq y.before
    | [] => s
  let (r, s) := s.stepElevenOf x
  (r, again.foldl State.stepElevenAgain s)

/-- Steps 5 to 12 of a request on a host port. -/
def State.hostRequest (s : State) (port : Fin 4) (sc : Option Nat) (r : Reply) (msg : List Byte) (padded : Bool) : State :=
  let q := CrpReq.parse msg
  if !((decide (s.sys.mode = .service) || decide (s.sys.mode = .custody)) && s.on SVC_CTRL_EN) then s.dropAt port 5
  else match s.requesterFor q.requester port sc with
    | none => s.refuseAt port r q ⟨6, 0x21, 0⟩
    | some n =>
      let plenOk := if padded then decide (40 + q.plen ≤ msg.length) else decide (40 + q.plen = msg.length)
      match s.checkRequest q plenOk (fun w0 mask => decide (natBits w0 30 1 = 1) && decide (mask / 2 ^ n % 2 = 1)) with
      | some x => s.refuseAt port r q x
      | none =>
        let x : Arrival := { time := s.tb, port := port, rq := n, req := q, reply := r, before := {} }
        match s.stepElevenTurn x with
        | (.stale, s) => s.refuseEleven x .stale
        | (.replayed, s) => s.refuseEleven x .replayed
        | (.pass, s) => s.handOver (s.descOf (.port port) r q msg n s.tb)

/-- Steps 3 and 4 for the content of a frame of `len` bytes, and where it goes from there. The receive-SC byte of a
frame without MACsec is 0 (DESIGN CHOICE, log entry 122). -/
def State.frameOn (s : State) (port : Fin 4) (sc : Option Nat) (len : Nat) (c : List Byte) : State :=
  match s.parseFrame port (sc.isNone && decide (len = 64)) c with
  | .management => s.toManagement port (sc.getD 0) len c
  | .dropped => s.dropAt port 3
  | .crp r msg padded =>
    let typ := beAt msg 0 1 % 16
    if beAt msg 0 1 / 16 ≠ 1 then s.dropAt port 4
    else if s.peerPort port then
      if 2 ≤ typ ∧ typ ≤ 7 ∧ 32 ≤ msg.length then s.toDuo (peerMsgOf port msg) else s.dropAt port 4
    else if typ = 0 ∧ 40 ≤ msg.length then s.hostRequest port sc r msg padded
    else s.dropAt port 4

/-- A frame that verifies neither way is dropped at step 2; on a SecY it is a verification failure (02 R37). -/
def State.dropTwo (s : State) (port : Nat) : State :=
  if s.secy port then ((s.dropAt port 2).count 0x05E 1).signal (88 + port) 0 else s.dropAt port 2

/-- The whole of FRAME_RECEIVE: steps 1 and 2, then the rest. A tag inside the secure data shows once the frame is opened:
the frame is dropped by the check of step 1 then. -/
def State.receive (s : State) (port : Fin 4) (f : RxFrame) : State :=
  let s := (s.count (16 * port.val) 1).count (16 * port.val + 1) f.length
  let s := if f.fecOk then s else s.signal (100 + port.val) 0
  if !f.fecOk || !f.fcsOk || decide (f.length < 64) || decide (9216 < f.length) || vlanTagged f.bytes then s.dropAt port 1
  else if s.secy port then
    if !secTagged f.bytes then s.dropTwo port
    else match s.secOpened port f.bytes with
      | none => s.dropTwo port
      | some (k, pn, c) =>
        let s := s.rxAdvance port k (secAn f.bytes) pn
        if vlanTagged c then s.dropAt port 1 else s.frameOn port (some k) f.length c
  else if secTagged f.bytes || s.on SVC_CTRL_MSEC_REQ then s.dropTwo port
  else s.frameOn port none f.length f.bytes

/-- FRAME_RECEIVE (02 R43): a frame arrives only while the port's link is up. -/
def execFrameReceive (dt : Nat) (port : Fin 4) (f : RxFrame) (s : State) : Out :=
  timed dt (fun s => s.powered && s.portOn port && s.svc.linkUp.getLsbD port) s (fun s => s.receive port f)

/-! ### Internal requests (06 R186) -/

/-- Slot `i` of the ring is outstanding, or no more. -/
def State.ringMarked (s : State) (i : Fin 16) (b : Bool) : State :=
  let bit : BitVec 16 := 1#16 <<< i.val
  { s with dsp := { s.dsp with ringBusy := if b then s.dsp.ringBusy ||| bit else s.dsp.ringBusy &&& ~~~bit } }

/-- The request in slot `i` passes steps 7 to 12. A REQUESTER other than 0 is answered before step 7 is looked at (DESIGN
CHOICE, log entry 137). -/
def State.ireqJudge (s : State) (i : Fin 16) (q : CrpReq) (msg : List Byte) : State :=
  let s := s.count 0x05A 1
  let refuse := fun (x : FrontRefusal) =>
    s.ringAnswer i (({ status := x.status, detail := x.detail } : Response).bytes q s.devid)
  if q.requester ≠ 0 then refuse ⟨6, 0x21, 0⟩
  else match s.checkRequest q true (fun w0 _ => decide (natBits w0 29 1 = 1)) with
    | some x => refuse x
    | none => s.handOver (s.descOf (.ring i) {} q msg 0 s.tb)

/-- The request in slot `i` is read: its header, then its payload; a slot in flash waits for the array (14 R337), and one
that cannot be read is outstanding no more. -/
def State.ireqTake (s : State) (i : Fin 16) : State :=
  let base := (s.rd DSP_IREQ_BASE).toNat + 0x8000 * i.val
  match s.readBlock ⟨.ireq, 0⟩ base 40 with
  | (.error .wait, s) => s.waitsFor (.ireq i)
  | (.error _, s) => (s.endStalls .ireq).ringMarked i false
  | (.ok h, s) =>
    let q := CrpReq.parse h
    match s.readBlock ⟨.ireq, 0⟩ base (40 + min q.plen 8192) with
    | (.error .wait, s) => s.waitsFor (.ireq i)
    | (.error _, s) => (s.endStalls .ireq).ringMarked i false
    | (.ok msg, s) => (s.endStalls .ireq).ireqJudge i q msg

/-- The ring waits for the flash array. -/
def State.ireqHeld (s : State) : Bool :=
  s.flc.waits.any fun w => match w with
    | .ireq _ => true
    | _ => false

/-- A write of DSP_IREQ_GO (06 R186): the ring takes its slots in order. -/
def State.ireqSubmit (s : State) (v : Word32) : State :=
  let i : Fin 16 := Fin.ofNat 16 v.toNat
  if !v.getLsbD 31 || !s.on DSP_CTRL_IREQ_EN then s
  else if s.dsp.ringBusy.getLsbD i.val || s.on (bitFld DSP_IREQ_DONE i.val) then s.raise DSP_EVT_IREQ_BUSY
  else
    let s := s.ringMarked i true
    if s.ireqHeld then s.waitsFor (.ireq i) else s.ireqTake i

/-! ### Configuration -/

/-- A write of SVC_PORTCFG (02 R62): the role of P3 changes only in BOOT or CUSTODY with PORT_EN[3] 0. -/
def State.portcfg (s : State) (v : Word32) : State :=
  let changes := decide (v.getLsbD 8 ≠ s.on SVC_PORTCFG_P3_HOST)
  let may := (decide (s.sys.mode = .boot) || decide (s.sys.mode = .custody)) && !s.portOn 3
  if changes && !may then s.raise SVC_EVT_CFG_REJ
  else
    let s := s.wr SVC_PORTCFG (v.zeroExtend 64 &&& 0x10F)
    let s := { s with svc := { s.svc with linkUp := s.svc.linkUp &&& v.setWidth 4 } }
    s.linkCauses

/-- The SA that ETH_MSEC_SEL selects. -/
def State.selSa (s : State) : Nat :=
  saKey (s.fget ETH_MSEC_SEL_PORT) (s.on ETH_MSEC_SEL_DIR) (s.fget ETH_MSEC_SEL_SC) (s.fget ETH_MSEC_SEL_AN)

/-- The SC that ETH_MSEC_SEL selects. -/
def State.selSc (s : State) : Nat :=
  scKey (s.fget ETH_MSEC_SEL_PORT) (s.on ETH_MSEC_SEL_DIR) (s.fget ETH_MSEC_SEL_SC)

/-- A write of ETH_MSEC_SA (02 R39, R67). A write with VALID 0, or with another KSLOT, while a load runs does not stop
it: the load delivers the slot named last and makes the SA valid (DESIGN CHOICE, log entry 123). -/
def State.saLoad (s : State) (v : Word32) : State :=
  let a := s.sa s.selSa
  let a := { a with kslot := v.toNat % 65536 }
  s.setSa s.selSa (if v.getLsbD 31 then { a with busy := true, err := false } else { a with valid := false })

/-- The transfer of a SAK ends (02 R67, 10 R259): only a fixed slot whose record is of type MACSEC, with its MACSEC
usage bit, gives a key. -/
def State.saLoaded (s : State) : State :=
  match s.svc.sas.find? (fun e => e.2.busy) with
  | none => s
  | some (k, a) =>
    match (if 1 ≤ a.kslot ∧ a.kslot ≤ 0xFFF then s.fixedKey a.kslot else none) with
    | some (_, r) =>
      if r.type = 0x20 ∧ r.useBit 10 then
        s.setSa k { a with busy := false, err := false, valid := true, sak := BitVec.ofNat 256 (beAt r.key 0 32),
                           salt := BitVec.ofNat 96 (beAt r.key 32 12) }
      else s.setSa k { a with busy := false, err := true, valid := false }
    | none => s.setSa k { a with busy := false, err := true, valid := false }

/-- SA_LOAD_DONE (02 R67). -/
def execSaLoadDone (dt : Nat) (s : State) : Out := timed dt State.powered s State.saLoaded

end Sys2Proof.Machine
end

