-- ==== Sys2Proof/Machine/Duo.lean ====
section
/-!
DEFINITION. Machine/Duo.lean: the duo: roles and the Lantern (12 R294), renewals and statuses (12 R292), SOLO (12 R293),
yielding (12 R296), divergence (12 R297), mirrors and acknowledgements (12 R299-R302), catching up and resync (12 R304),
lease frames (12 R289), joint switches (12 R307).
-/

namespace Sys2Proof.Machine

/-! ### Roles (12 R294) -/

/-- ADM_STAT.LANTERN equals ROLE, but is 0b00 for a follower that is not SYNCED and for a holder that releases. -/
def State.relantern (s : State) : State :=
  let r := s.fget DUO_STAT_ROLE
  s.setLantern (if r = 1 then (if s.duo.releasing then 0 else 1) else if r = 2 ∧ s.on DUO_STAT_SYNCED then 2 else 0)

/-- The commits that wait for room are never made on a device that ceases to hold the Lantern: a context's is never
answered, since its END counts as the commit (06 R175, 12 R292), a raise of CEIL is forgotten, and an IMPORT ends with ERR
7 (DEDUCED, log entry 153). -/
def State.dropWaiting (s : State) : State :=
  let l := s.kst.waiting
  let s := { s with kst := { s.kst with waiting := [] } }
  (l.filterMap WaitingCommit.ctx).foldl State.freeCtx (if importWaits l then s.cmdEnds 7 else s)

/-- A device that ceases to hold the Lantern: each record's CEIL is that of its latest image, and NEXT of each counted
record is its CEIL (10 R262, R269). -/
def State.dropLantern (s : State) : State :=
  let s := s.dropWaiting
  let recs := s.kst.records.map fun e => (e.1, { e.2 with ceil := s.pendingCeil e.1 e.2.ceil })
  { s with kst := { s.kst with records := recs, raises := [], nexts := nextsOf recs } }

/-- Set DUO_STAT.ROLE. -/
def State.setRole (s : State) (r : Nat) : State :=
  ((if s.holds && decide (r ≠ 1) then s.dropLantern else s).fset DUO_STAT_ROLE r).relantern

/-- Set DUO_STAT.SYNCED. -/
def State.setSynced (s : State) (b : Bool) : State := (s.put DUO_STAT_SYNCED b).relantern

/-- Set DUO_EPOCH; at its largest value it sticks (12 R291). -/
def State.setDuoEpoch (s : State) (e : Nat) : State :=
  let s := s.fset DUO_EPOCH_EPOCH (min e 0xFFFFFFFF)
  if 0xFFFFFFFF ≤ e ∧ !s.on DUO_STAT_STUCK then (s.raise DUO_STAT_STUCK).raise DUO_EVT_EPOCH_MAX else s

/-- The device diverged (12 R297). -/
def State.diverge (s : State) : State :=
  (((s.raise DUO_STAT_DIVERGED).raise DUO_EVT_SPLIT).lower SVC_CTRL_EN |>.setSynced false).signal 82 0

/-- The claim is confirmed (12 R294). -/
def State.confirm (s : State) : State :=
  if s.duo.claiming then { s with duo := { s.duo with claiming := false } }.setRole 1 else s

/-- This device holds the Lantern or has claimed it. -/
def State.holding (s : State) : Bool := s.holds || s.duo.claiming

/-- The commits of contexts that wait for a MACK, with their JSEQ. -/
def State.waitingMack (s : State) : List (Nat × Nat) :=
  s.live.filterMap fun e => e.2.mackFor.map fun j => (e.1, j)

/-- Contexts in the order of their commits. -/
def inOrder : List (Nat × Nat) → List (Nat × Nat)
  | [] => []
  | e :: t => let r := inOrder t
    r.filter (fun x => decide (x.2 < e.2)) ++ e :: r.filter (fun x => decide (e.2 ≤ x.2))

/-- A commit is answered without a MACK: its MIRROR is sent where no MIR unit has sent it yet (12 R293, R299). -/
def State.answeredAlone (s : State) (c : Nat) : State := (if mirReady (s.ctx c) then s.sendCommit c else s).mirDone c

/-- SOLO begins: commits are answered without a MACK (12 R293). -/
def State.soloOn (s : State) : State :=
  if s.on DUO_STAT_SOLO then s.confirm
  else
    let s := (s.raise DUO_STAT_SOLO).raise DUO_EVT_SOLO_ON
    let s := (inOrder s.waitingMack).foldl (fun s e => s.answeredAlone e.1) s
    let s := { s with duo := { s.duo with unacked := [] } }
    s.raisesTakeEffect.confirm

/-- SOLO ends. -/
def State.soloOff (s : State) : State :=
  if s.on DUO_STAT_SOLO then (s.lower DUO_STAT_SOLO).raise DUO_EVT_SOLO_OFF else s

/-- Commits above `j` that wait for a MACK are never answered: their contexts end without a response. -/
def State.dropUnacked (s : State) (j : Nat) : State :=
  let s := (s.waitingMack.filter fun e => decide (j < e.2)).foldl (fun s e => s.freeCtx e.1) s
  { s with duo := { s.duo with unacked := s.duo.unacked.filter fun e => decide (e.1 ≤ j) } }

/-- A commit waits for its MACK, one that waits for room among them: it counts as committed since END (06 R175). -/
def State.anyUnacked (s : State) : Bool :=
  !s.waitingMack.isEmpty || !s.duo.unacked.isEmpty || s.kst.waiting.any fun w => w.ctx.isSome

/-! ### Hearing the peer -/

/-- A valid peer message is heard (12 R288, R291, R309): its path, the sender, its epoch, its JSEQ and DNUM. -/
def State.hear (s : State) (m : PeerMsg) : State :=
  let s := { s with duo := { s.duo with
    heardP2 := if m.port = 2 then some s.tb else s.duo.heardP2
    heardP3 := if m.port = 3 then some s.tb else s.duo.heardP3
    epochHeard := max s.duo.epochHeard m.epoch
    peerDnum := some m.dnum } }
  let s := s.judgeSkew.fset DUO_PEER_DEVID_DEVID m.devid
  if m.typ = 2 ∨ m.typ = 3 ∨ m.typ = 5 then s.wr DUO_PEER_JSEQ (BitVec.ofNat 64 m.jseq) else s

/-- The segments of the oldest whole message of a type, joined (12 R462), and the state without them; a message without a
body is heard at once. -/
def State.takeMsg (s : State) (typ : Nat) : Option (PeerMsg × List Byte) × State :=
  let parts := fun (m : PeerMsg) => (List.range m.nseg).filterMap fun k => s.duo.inbox.find? fun x =>
    decide (x.typ = m.typ ∧ x.devid = m.devid ∧ x.jseq = m.jseq ∧ x.nseg = m.nseg ∧ x.seg = k)
  match s.duo.inbox.find? fun m => decide (m.typ = typ ∧ (parts m).length = m.nseg) with
  | none => (none, s)
  | some m =>
    let ps := parts m
    (some (m, (ps.map PeerMsg.body).flatten),
      let s := { s with duo := { s.duo with inbox := s.duo.inbox.filter fun x => !ps.contains x } }
      if typ = 4 ∨ typ = 7 then s else s.hear m)

/-- Open the sealed body of a message with the journal key. -/
def State.opened (s : State) (m : PeerMsg) (b : List Byte) : Option (List Byte) :=
  match s.journalKey with
  | none => none
  | some k => openBody k m.devid m.typ m.jseq b

/-- A sealed message: it is heard where its body opens; one whose tag fails is as if never received (12 R462). -/
def State.takeSealed (s : State) (typ : Nat) : Option (PeerMsg × List Byte × List Byte) × State :=
  match s.takeMsg typ with
  | (none, s) => (none, s)
  | (some (m, b), s) => match s.opened m b with
    | none => (none, s)
    | some body => (some (m, b, body), s.hear m)

/-! ### Sending renewals and statuses (12 R289, R292) -/

/-- CRC-8 with polynomial 0x07 and initial value 0 over bytes. -/
def crc8 (bs : List Byte) : Byte :=
  bs.foldl (fun c b => (List.range 8).foldl (fun c _ => if c.getLsbD 7 then (c <<< 1) ^^^ 0x07#8 else c <<< 1) (c ^^^ b)) 0

/-- A lease frame (12 Table 12.2). -/
def leaseFrame (kind : Nat) (synced claimable release : Bool) (rseq : Nat) : List Byte :=
  let w := 0xA0 + kind
  let b := (if synced then 0x80 else 0) + (if claimable then 0x40 else 0) + (if release then 0x20 else 0) + rseq % 4096 / 256
  let h := [BitVec.ofNat 8 w, BitVec.ofNat 8 b, BitVec.ofNat 8 rseq]
  h ++ [crc8 h]

/-- A RENEW goes out on every port path, and with `line` as a lease frame (12 Table 12.3). -/
def State.renew (s : State) (release line : Bool) : State :=
  let n := (s.duo.rseq + 1) % 2 ^ 32
  let s := { s with duo := { s.duo with rseq := n, sent := (s.duo.sent.filter fun (e : Nat × Nat) => decide (s.tb < e.2 + 20000)) ++ [(n, s.tb)] } }
  let s := s.sendEveryPort 2 n (s.rd KST_JSEQ).toNat release
  if line && s.on DUO_CTRL_LL_EN then s.emit (.lease (leaseFrame 1 false false release n)) else s

/-- The duo protocol runs: enabled, in a mode in which the device takes and sends peer messages (02 R63). -/
def State.duoRuns (s : State) : Bool := s.duoTakes && s.powered

/-- RENEW_SEND (12 R292). -/
def execRenewSend (dt : Nat) (s : State) : Out :=
  timed dt (fun s => s.duoRuns && s.holding) s (fun s => s.renew false false)

/-- STATUS_SEND (12 R292): it echoes the newest RSEQ heard. -/
def execStatusSend (dt : Nat) (s : State) : Out :=
  timed dt (fun s => s.duoRuns && !s.holding) s (fun s => s.sendEveryPort 3 s.duo.newest (s.rd KST_JSEQ).toNat false)

/-- The lease frame due now (12 R289): STBY in STANDBY; else RENEW or STATUS, and every second one WAKE under
DUO_CTRL.WAKE. -/
def State.leaseNow (s : State) : State :=
  if s.sys.mode = .standby then s.emit (.lease (leaseFrame 4 false false false 0))
  else if s.on DUO_CTRL_WAKE && s.duo.wakeNext then
    { s with duo := { s.duo with wakeNext := false } }.emit (.lease (leaseFrame 3 false false false 0))
  else
    let s := { s with duo := { s.duo with wakeNext := true } }
    let leave := s.on DUO_CTRL_LEAVE
    s.emit (.lease (if s.holding then leaseFrame 1 false false false s.duo.rseq
      else leaseFrame 2 (s.on DUO_STAT_SYNCED && !leave) s.claimable false s.duo.newest))

/-- LEASE_FRAME_SEND (12 R289): while DUO_CTRL.LL_EN is 0, LEASE_OUT sends nothing. -/
def execLeaseFrameSend (dt : Nat) (s : State) : Out :=
  timed dt (fun s => (decide (s.sys.mode = .standby) || s.duoRuns) && s.on DUO_CTRL_LL_EN) s State.leaseNow

/-! ### RENEW (12 R291, R294, R296) -/

/-- Whether sequence number `a` is newer than `b`, over 32 bits. -/
def newer (a b : Nat) : Bool :=
  let d := (a + 2 ^ 32 - b) % 2 ^ 32
  decide (0 < d) && decide (d < 2 ^ 31)

/-- A renewal is heard: its first receipt sets when the follower's view of the lease ends. -/
def State.renewalHeard (s : State) (pair : Option (Nat × Nat)) (rseq : Nat) (release : Bool) : State :=
  let d := s.duo
  let other := match pair with
    | some p => decide (p ≠ d.newestPair)
    | none => false
  let d := { d with renewHeard := true, peerStby := false, newestPair := pair.getD d.newestPair }
  if other || d.newestAt.isNone || newer rseq d.newest then
    { s with duo := { d with newest := rseq, newestAt := some s.tb, newestRelease := release } }
  else { s with duo := { d with newestRelease := d.newestRelease || (release && decide (rseq = d.newest)) } }

/-- SYNCED is set when the last applied JSEQ reaches that of a RENEW heard after the catch-up (12 R302). -/
def State.trySync (s : State) : State :=
  match s.duo.target with
  | some t =>
    if t ≤ (s.rd KST_JSEQ).toNat ∧ s.journalKey.isSome then
      { s with duo := { s.duo with caught := false, target := none } }.setSynced true
    else s
  | none => s

/-- A follower accepts a RENEW message: it adopts the epoch and follows (12 R291, R294), notes the holder's JSEQ, and
catches up where it is not SYNCED (12 R304). -/
def State.follow (s : State) (m : PeerMsg) : State :=
  let s := s.renewalHeard (some (m.epoch, m.devid)) m.rseq (decide (m.dflags / 8 % 2 = 1))
  let s := if s.fget DUO_EPOCH_EPOCH < m.epoch then s.setDuoEpoch m.epoch else s
  let s := if s.on DUO_STAT_DIVERGED then s else s.setRole 2
  let last := (s.rd KST_JSEQ).toNat
  let ahead := s.duo.ahead.filter fun e => decide (last < e.1)
  let s := { s with duo := { s.duo with
      renewJseq := m.jseq,
      ahead := if last < m.jseq ∧ ahead.all (fun e => decide (e.1 ≠ m.jseq)) then ahead ++ [(m.jseq, s.tb)] else ahead,
      target := if s.duo.caught then some (s.duo.target.getD m.jseq) else s.duo.target } }
  let s := s.trySync
  if !s.on DUO_STAT_SYNCED && s.duo.catching.isNone && !s.duo.caught && !s.duo.needFull && !s.on DUO_STAT_DIVERGED &&
      !s.on DUO_STAT_RESYNC && s.on KST_STAT_MOUNTED && s.journalKey.isSome then
    s.askJournal (s.rd KST_JSEQ).toNat true
  else s

/-- The commits up to `j` are acknowledged: their MIR stages complete (12 R299). -/
def State.acked (s : State) (j : Nat) : State :=
  let s' := { s with duo := { s.duo with unacked := s.duo.unacked.filter fun e => decide (j < e.1) } }
  (s.waitingMack.filter fun e => decide (e.2 ≤ j)).foldl (fun s e => (s.mirDone e.1).mirStart) s'

/-- The holder yields to a RENEW with a greater pair (12 R296), whose EPOCH it adopts (12 R291). Its commits up to the
JSEQ of that RENEW stand in the duo, and complete (03 R88). -/
def State.yieldTo (s : State) (m : PeerMsg) : State :=
  let s := s.soloOff
  let s := { s with duo := { s.duo with claiming := false, releasing := false } }
  let s := ((s.setRole 0).raise DUO_EVT_YIELDED).acked m.jseq
  State.follow (if m.jseq < (s.rd KST_JSEQ).toNat then (s.dropUnacked m.jseq).diverge else s) m

/-- A RENEW message. A holder ignores one of a lesser pair, but for the silence of its own next claim it was heard (12
Table 12.5). -/
def State.onRenew (s : State) (m : PeerMsg) : State :=
  if s.holding then
    let own := s.fget DUO_EPOCH_EPOCH
    if m.epoch < own ∨ (m.epoch = own ∧ m.devid ≤ s.devid) then
      s.renewalHeard (some (m.epoch, m.devid)) m.rseq (decide (m.dflags / 8 % 2 = 1))
    else s.yieldTo m
  else if m.epoch < s.fget DUO_EPOCH_EPOCH then s
  else s.follow m

/-- RENEW_RECEIVE (12 R296). -/
def execRenewReceive (dt : Nat) (s : State) : Out :=
  .next (match (s.elapse dt).takeMsg 2 with
    | (some (m, _), s) => s.onRenew m
    | (none, s) => s)

/-! ### STATUS (12 R292-R294) -/

/-- The peer's latest STATUS echoes an RSEQ sent within the last 8 us. -/
def State.echoFresh (s : State) : Bool :=
  s.duo.sent.any fun e => decide (e.1 = s.duo.peerEcho) && decide (s.tb < e.2 + 8000)

/-- The holder judges SOLO by the peer's latest STATUS (12 R293). -/
def State.judgeSolo (s : State) : State :=
  if !s.holding then s
  else
    let able := s.on DUO_STAT_PEER_SYNCED && s.duo.peerClaimable
    if s.duo.peerStby || (s.duo.statusHeard && !able) || !s.peerHeard then s.soloOn
    else if s.duo.statusHeard && able && s.echoFresh then s.soloOff
    else s

/-- A STATUS is heard: its flags, and the send it echoes, from which the lease runs. -/
def State.statusHeardNow (s : State) (synced claimable : Bool) (echo : Nat) (extends_ : Bool) : State :=
  let s := (s.put DUO_STAT_PEER_SYNCED synced)
  let at_ := (s.duo.sent.find? fun e => decide (e.1 = echo)).map (·.2)
  { s with duo := { s.duo with
      statusHeard := true, peerStby := false, peerClaimable := claimable, peerEcho := echo,
      claimableAt := if claimable then some s.tb else s.duo.claimableAt,
      leaseFrom := match at_ with
        | some t => if extends_ then max s.duo.leaseFrom t else s.duo.leaseFrom
        | none => s.duo.leaseFrom } }

/-- A STATUS message. -/
def State.onStatus (s : State) (m : PeerMsg) : State :=
  let ours := decide (m.epoch = s.fget DUO_EPOCH_EPOCH)
  let s := s.statusHeardNow (decide (m.dflags / 2 % 2 = 1)) (decide (m.dflags / 4 % 2 = 1)) m.rseq (s.holding && ours)
  let s := { s with duo := { s.duo with peerEpoch := m.epoch } }
  let s := if ours then s.confirm else s
  s.judgeSolo

/-- STATUS_RECEIVE (12 R292). -/
def execStatusReceive (dt : Nat) (s : State) : Out :=
  .next (match (s.elapse dt).takeMsg 3 with
    | (some (m, _), s) => s.onStatus m
    | (none, s) => s)

/-! ### Lease frames (12 R289) -/

/-- The RSEQ near `near` whose low 12 bits are `r`. -/
def extendRseq (r near : Nat) : Nat :=
  let d := (r + 4096 - near % 4096) % 4096
  (near + (if d < 2048 then d else d + 2 ^ 32 - 4096)) % 2 ^ 32

/-- A lease frame reaches the duo protocol. -/
def State.onLease (s : State) (kind : Nat) (synced claimable release : Bool) (r : Nat) : State :=
  let s := { s with duo := { s.duo with heardLease := some s.tb } }
  match kind with
  | 1 =>
    let s := s.renewalHeard none (if s.duo.newestAt.isNone then r else extendRseq r s.duo.newest) release
    if s.holding || s.on DUO_STAT_DIVERGED then s else s.setRole 2
  | 2 => (s.statusHeardNow synced claimable (extendRseq r s.duo.rseq) s.holds).judgeSolo
  | 4 => { s with duo := { s.duo with peerStby := true } }.judgeSolo
  | _ => s

/-- LEASE_FRAME_RECEIVE (12 R289): a frame with a wrong SYNC or CRC or a reserved KIND is ignored. It is also an
input of Wick's rules and of its LEASE line (15 R361, R364). -/
def execLeaseFrameReceive (dt : Nat) (bits : List Byte) (s : State) : Out :=
  .next (let s := s.elapse dt
    let b := fun i => (bits.getD i 0).toNat
    let kind := b 0 % 16
    let ok := decide (bits.length = 4) && decide (b 0 / 16 = 0xA) && decide (1 ≤ kind) && decide (kind ≤ 4) &&
      decide (crc8 (bits.take 3) = bits.getD 3 0)
    if !ok || !s.on DUO_CTRL_LL_EN || !s.aon then s
    else
      let s := { s.raise WCK_WIRQ_LEASE with wck := { s.wck with leases := s.wck.leases ++ [kind] } }
      if s.duoRuns then
        s.onLease kind (decide (b 1 / 128 = 1)) (decide (b 1 / 64 % 2 = 1)) (decide (b 1 / 32 % 2 = 1)) (b 1 % 16 * 256 + b 2)
      else s)

/-! ### Mirrors (12 R299-R302) -/

/-- Apply a journal entry on a device that does not hold the Lantern: NEXT of a counted record equals the CEIL of its
latest applied image (10 R262). -/
def State.applyRemote (s : State) (e : JEntry) : State :=
  let s := s.applyEntry e
  if e.image.counted then { s with kst := { s.kst with nexts := sput 0 s.kst.nexts e.index e.image.ceil } } else s

/-- The context that awaits a MIRROR for a request (12 R300). -/
def State.awaiting (s : State) (m : Mirror) : Option Nat :=
  (s.live.find? fun e => decide (e.2.st = .parked) && e.2.isState && e.2.await.isNone && !e.2.mirrored && e.2.core.isNone &&
    decide (e.2.req.requester = m.requester ∧ e.2.req.seq = m.seq)).map (·.1)

/-- A sequence number has passed the replay window of a requester entry, or can pass it no more (02 R48). -/
def Requester.past (e : Requester) (seq : Nat) : Bool :=
  decide (seq ≤ e.high) && (decide (seq + 8192 ≤ e.high) || e.seen.getLsbD (seq % 8192))

/-- The request that a MIRROR answers may still be accepted: it waits for its decision, or has not arrived (12 R301). -/
def State.mayCome (s : State) (m : Mirror) : Bool :=
  s.adm.descs.any (fun d => decide (d.req.requester = m.requester ∧ d.req.seq = m.seq)) ||
  !(s.entriesFor m.requester).any (fun n => (s.requester n).past m.seq)

/-- Answer the waiting context from the MIRROR, or keep a MIRROR whose request may still come in the hold table (12 R300,
R301). -/
def State.answerMirror (s : State) (m : Mirror) : State :=
  if m.requester = 0 ∧ m.seq = 0 then s
  else match s.awaiting m, m.resp with
    | some c, some r => s.answerFrom c r
    | some _, none => s
    | none, _ =>
      if !s.mayCome m then s
      else if s.duo.held.length < 1024 then { s with duo := { s.duo with held := s.duo.held ++ [(m, s.tb)] } }
      else { s.raise DUO_EVT_MHOLD_OVF with duo := { s.duo with held := s.duo.held.drop 1 ++ [(m, s.tb)] } }

/-- There is room in the log buffer and under the dirty-pin limit for entries. -/
def State.remoteFits (s : State) (es : List JEntry) : Bool := s.roomFor (es.map fun e => (e.index, e.image))

/-- Apply a MIRROR: its entries, JSEQ, and the answer. -/
def State.applyMirror (s : State) (m : Mirror) : State :=
  let s := m.entries.foldl State.applyRemote s
  (s.wr KST_JSEQ (BitVec.ofNat 64 m.jseq)).answerMirror m

/-- Apply buffered MIRRORs in JSEQ order as far as they follow and fit: at most `n` of them. One that does not fit waits as
a commit does (10 R267). -/
def State.drain (s : State) : Nat → State
  | 0 => s
  | n + 1 =>
    let next := (s.rd KST_JSEQ).toNat + 1
    match s.duo.buffer.find? fun m => decide (m.jseq = next) with
    | none => s
    | some m =>
      if s.remoteFits m.entries then
        ({ s with duo := { s.duo with buffer := s.duo.buffer.filter fun x => decide (next < x.jseq) } }.applyMirror m).drain n
      else s.raise KST_EVT_LOGSTALL

/-- MACK for every JSEQ sealed so far; a device that is not SYNCED sends none. -/
def State.sendMack (s : State) : State :=
  if s.on DUO_STAT_SYNCED then s.sendSegments s.peerPath 5 (s.rd KST_JSEQ).toNat 1 [] 0 1 else s

/-- A gap in JSEQ (12 R302). -/
def State.gap (s : State) : State :=
  let s := (s.setSynced false).raise DUO_EVT_GAP
  let s := { s with duo := { s.duo with ahead := [] } }
  s.askJournal ((s.rd KST_JSEQ).toNat + 1) false

/-- Keep a MIRROR for later; an overfull buffer is discarded, and the journal asked again from the last applied JSEQ. -/
def State.bufferMirror (s : State) (m : Mirror) : State :=
  if s.duo.buffer.length < 8192 then { s with duo := { s.duo with buffer := s.duo.buffer ++ [m] } }
  else { s with duo := { s.duo with buffer := [] } }.askJournal (s.rd KST_JSEQ).toNat true

/-! ### What a full resync applies (12 R304) -/

/-- An entry is applied, and its JSEQ noted for its index. -/
def State.applyNoted (s : State) (e : JEntry) : State :=
  let s := s.applyRemote e
  { s with duo := { s.duo with copied := sput 0 s.duo.copied e.index e.jseq } }

/-- The JSEQs applied that follow the last one close up with it: at most `n` of them. -/
def State.closeUp (s : State) : Nat → State
  | 0 => s
  | n + 1 =>
    let j := (s.rd KST_JSEQ).toNat + 1
    if s.duo.live.contains j then
      ({ s with duo := { s.duo with live := s.duo.live.filter fun x => decide (j < x) } }.wr KST_JSEQ (BitVec.ofNat 64 j)).closeUp n
    else s

/-- A commit was applied during the resync; the last applied JSEQ passes no gap. -/
def State.liveApplied (s : State) (j : Nat) : State :=
  { s with duo := { s.duo with live := s.duo.live ++ [j] } }.closeUp (s.duo.live.length + 1)

/-- One entry of the copy or of the journal: applied when it is newer than what the device holds for its index. -/
def State.copyApplied (s : State) (e : JEntry) (ofJournal : Bool) : State :=
  let s := if sget 0 s.duo.copied e.index < e.jseq then s.applyNoted e else s
  if ofJournal && decide ((s.rd KST_JSEQ).toNat < e.jseq) && !s.duo.live.contains e.jseq then s.liveApplied e.jseq else s

/-- What arrived during a resync is applied, MIRRORs first, as far as it fits: at most `n` of them. -/
def State.resyncDrain (s : State) : Nat → State
  | 0 => s
  | n + 1 =>
    match s.duo.buffer, s.duo.copies with
    | m :: t, _ =>
      if s.remoteFits m.entries then
        ((m.entries.foldl State.applyNoted { s with duo := { s.duo with buffer := t } }).liveApplied m.jseq).resyncDrain n
      else s.raise KST_EVT_LOGSTALL
    | [], e :: t =>
      if s.remoteFits [e.1] then ({ s with duo := { s.duo with copies := t } }.copyApplied e.1 e.2).resyncDrain n
      else s.raise KST_EVT_LOGSTALL
    | [], [] => s

/-- Everything that arrived during a resync and can be applied is applied. -/
def State.resyncApply (s : State) : State := s.resyncDrain (s.duo.buffer.length + s.duo.copies.length)

/-- A live MIRROR during a full resync is applied as it arrives (12 R304). One above a gap is a gap as R302 has it, whose
entries the journal gives. -/
def State.liveMirror (s : State) (m : Mirror) : State :=
  if m.jseq ≤ (s.rd KST_JSEQ).toNat ∨ s.duo.live.contains m.jseq then s
  else
    let s := (s.bufferMirror m).resyncApply
    if (s.rd KST_JSEQ).toNat < m.jseq ∧ s.duo.live.contains m.jseq ∧ s.duo.catching.isNone then s.gap else s

/-- A MIRROR with a commit. -/
def State.commitMirror (s : State) (m : Mirror) : State :=
  let last := (s.rd KST_JSEQ).toNat
  if s.on DUO_STAT_RESYNC then s.liveMirror m
  else if s.duo.catching.isSome then s.bufferMirror m
  else if !(s.on DUO_STAT_SYNCED || s.duo.caught) then s
  else if m.jseq ≤ last then s.sendMack
  else
    let s := s.bufferMirror m
    if m.jseq = last + 1 then (s.drain (s.duo.buffer.length)).trySync.sendMack
    else if s.duo.buffer.any fun x => decide (x.jseq = last + 1) then s
    else s.gap

/-- A MIRROR message whose body `body` opened from `b`. The values of CTR before the MIRROR's own are those that its entries
were sealed with (12 R462, log entry 99). -/
def State.onMirror (s : State) (m : PeerMsg) (b body : List Byte) : State :=
  if s.holding then s
  else
    let x := mirrorOf m.jseq body
    let n := x.entries.length
    let x := { x with entries := x.entries.mapIdx fun k e =>
      { e with salt := some (BitVec.ofNat 128 (beAt b 0 16)), ctr := (beAt b 16 8 + k) - n : JEntry } }
    if m.jseq = 0 then s.answerMirror x else s.commitMirror x

/-- MIRROR_RECEIVE (12 R301). -/
def execMirrorReceive (dt : Nat) (s : State) : Out :=
  .next (match (s.elapse dt).takeSealed 4 with
    | (some (m, b, body), s) => s.onMirror m b body
    | (none, s) => s)

/-- A MACK for `j` and every JSEQ below it (12 R299, 10 R269). -/
def State.onMack (s : State) (j : Nat) : State :=
  if !s.holds then s
  else
    let s := { s with kst := { s.kst with
      raises := s.kst.raises.map fun (r : CeilRaise) => if r.jseq ≤ j then { r with macked := true } else r } }
    (s.acked j).raisesTakeEffect

/-- MACK_RECEIVE (12 R299). -/
def execMackReceive (dt : Nat) (s : State) : Out :=
  .next (match (s.elapse dt).takeMsg 5 with
    | (some (m, _), s) => s.onMack m.jseq
    | (none, s) => s)

/-- MIRROR_HOLD_EXPIRY (12 R301): a MIRROR is kept for 50 us. -/
def execMirrorHoldExpiry (dt : Nat) (s : State) : Out :=
  .next (let s := s.elapse dt
    { s with duo := { s.duo with held := s.duo.held.filter fun e => decide (s.tb < e.2 + 50000) } })

/-- The charge of a context's TX stage. -/
def Ctx.txCharge (x : Ctx) : Nat := ((x.stages.filter fun l => decide (6 ≤ l.pool)).map LStage.charge).sum

/-- Context `c` awaits its MIRROR and has reached E less its TX charge. -/
def State.mirrorLate (s : State) (c : Nat) : Bool :=
  let x := s.ctx c
  decide (x.st = .parked) && x.isState && x.await.isNone && !x.mirrored && !x.committed && x.core.isNone && (match x.key with
    | some e => decide (e ≤ s.tb + x.txCharge)
    | none => false)

/-- MIRROR_WAIT_EXPIRY (12 R300). -/
def execMirrorWaitExpiry (dt : Nat) (c : Fin 8192) (s : State) : Out :=
  timed dt (fun s => s.mirrorLate c.val) s (fun s => s.endWith c.val noLanternResp)

/-! ### Lease, claim, SOLO -/

/-- LEASE_END (12 R292). -/
def execLeaseEnd (dt : Nat) (s : State) : Out :=
  timed dt (fun s => s.holds && !s.on DUO_STAT_SOLO && decide (s.duo.leaseFrom + 16000 ≤ s.tb)) s (fun s =>
    let lost := s.anyUnacked
    let s := { s with duo := { s.duo with releasing := false } }
    let s := ((s.setRole 0).raise DUO_EVT_LAPSED).dropUnacked 0
    if lost then s.diverge else s)

/-- FOLLOWER_LAPSE (12 R294). -/
def execFollowerLapse (dt : Nat) (s : State) : Out :=
  timed dt (fun s => decide (s.fget DUO_STAT_ROLE = 2) && s.since s.duo.newestAt 16000) s
    (fun s => (s.setRole 0).raise DUO_EVT_LAPSED)

/-- The silence of 12 Table 12.5. -/
def State.silence (s : State) : Bool :=
  if s.duo.renewHeard then s.since s.duo.newestAt 19000 || s.duo.newestRelease else decide (s.duo.enRose + 24000 ≤ s.tb)

/-- A claim (12 R291, R294): EPOCH is one more than every EPOCH known, and RENEW goes out on every path. -/
def State.claim (s : State) : State :=
  let s := s.setDuoEpoch (max (s.fget DUO_EPOCH_EPOCH) s.duo.epochHeard + 1)
  let s := { s with duo := { s.duo with claiming := true, leaseFrom := s.tb, newestRelease := false, catching := none, buffer := [] } }
  let s := ((s.setRole 0).raise DUO_EVT_CLAIMED).renew false true
  s.judgeSolo

/-- LANTERN_CLAIM (12 R294). -/
def execLanternClaim (dt : Nat) (s : State) : Out :=
  timed dt (fun s => s.claimable && !s.holding && s.silence) s State.claim

/-- PEER_SILENCE (12 R293, case 1). -/
def execPeerSilence (dt : Nat) (s : State) : Out :=
  timed dt (fun s => s.holding && !s.peerHeard) s State.soloOn

/-- MACK_WAIT_EXPIRY (12 R293, case 3). -/
def execMackWaitExpiry (dt : Nat) (s : State) : Out :=
  timed dt (fun s => s.holds && s.echoFresh && s.duo.unacked.any (fun e => decide (e.2 + 8000 ≤ s.tb))) s State.soloOn

/-- The holder begins to release (12 R295): it takes no new STATE entry. -/
def State.release_ (s : State) : State :=
  if s.holds then { s with duo := { s.duo with releasing := true } }.relantern else s

/-- RELEASE_RENEW_SEND (12 R295): every MACK is in. -/
def execReleaseRenewSend (dt : Nat) (s : State) : Out :=
  timed dt (fun s => s.holds && s.duo.releasing && !s.anyUnacked) s (fun s =>
    let s := s.renew true true
    let s := { s.soloOff with duo := { s.duo with releasing := false, releaseSent := some s.tb } }
    s.setRole 0)

/-! ### Catching up (12 R302, R304) -/

/-- The JSEQ of the latest change of the record at an index. -/
def State.latestJseq (s : State) (i : Nat) : Nat :=
  match (s.kst.log.filter fun e => decide (e.index = i)).getLast? with
  | some e => e.jseq
  | none => (s.sealedAt i).jseq

/-- The OP of a copy entry: that of the record's latest change where the ring still holds it, or else a free value of those
that leave a record (log entry 154). -/
def State.copyOp (s : State) (i : Nat) : Nat :=
  match (s.kst.journal.filter fun e => decide (e.index = i)).getLast? with
  | some e => e.op
  | none => (Config.freeWord s.freeCtr).toNat % 4

/-- A copy entry of a full resync: journal-formatted, with the JSEQ of the record's latest change (12 R304). -/
def State.sendCopy (k : List Byte) (s : State) (e : Nat × KeyRec) : State :=
  let x : JEntry := { jseq := s.latestJseq e.1, index := e.1, op := s.copyOp e.1, devid := s.devid, image := e.2,
                      salt := some s.duo.salt, ctr := s.duo.ctr }
  let b := sealedBody k s.duo.salt.toNat (s.duo.ctr + 1) s.devid 7 x.jseq (x.stored k)
  State.sendBody { s.drawn 1 with duo := { s.duo with ctr := s.duo.ctr + 2 } } 7 x.jseq b

/-- The holder sends a copy entry for every index that holds a record, in ascending index order (12 R304). No message of
Table 12.3 asks for the copy: it answers a JREQ for JSEQ 0, which a device sends when its resync starts (DESIGN CHOICE,
log entry 154). -/
def State.copyStream (s : State) (k : List Byte) : State :=
  (s.kst.records.filter fun e => decide (e.2.type ≠ 0)).foldl (State.sendCopy k) s

/-- JREQ: the entries of the ring from the JSEQ asked for, or JDATA with JSEQ 0. -/
def State.onJreq (s : State) (j : Nat) : State :=
  match s.journalKey with
  | none => s
  | some k =>
    let es := if s.kst.journal.any fun e => decide (e.jseq = j) then s.kst.journal.filter fun e => decide (j ≤ e.jseq) else []
    let first := if es.isEmpty then 0 else j
    let b := sealedBody k s.duo.salt.toNat s.duo.ctr s.devid 7 first (es.map fun e => e.stored k).flatten
    let s := State.sendBody { s with duo := { s.duo with ctr := s.duo.ctr + 1 } } 7 first b
    if j = 0 ∧ s.holds then s.copyStream k else s

/-- JREQ_RECEIVE (12 R304); it waits while the session's SALT has not been drawn (log entry 70). -/
def execJreqReceive (dt : Nat) (s : State) : Out :=
  .next (let s := s.elapse dt
    if s.duo.saltWait then s
    else match s.takeMsg 6 with
      | (some (m, _), s) => s.onJreq m.jseq
      | (none, s) => s)

/-- The stored journal entries that bytes spell: each a header and its frames sealed under the holder's key; an entry
whose tag fails ends the list. -/
def storedEntries (k : List Byte) : Nat → List Byte → List JEntry
  | 0, _ => []
  | n + 1, b =>
    if b.length < 64 then []
    else
      let h := b.take 64
      let len := 512 * beAt h 17 1 + 40
      let sb := slice b 64 len
      match openBody k (beAt h 20 4) 7 (beAt h 0 8) sb with
      | none => []
      | some f => { entryOf h f with salt := some (BitVec.ofNat 128 (beAt sb 0 16)), ctr := beAt sb 16 8 } ::
          storedEntries k n (b.drop (64 + len))

/-- Apply journal entries above the last applied JSEQ in order, each commit whole, as far as they fit, at most `n` commits;
the entries left over wait for room (10 R267, R272). -/
def State.applyJournal (s : State) (es : List JEntry) : Nat → State
  | 0 => { s with duo := { s.duo with journalWait := es } }
  | n + 1 =>
    match es with
    | [] => { s with duo := { s.duo with journalWait := [] } }
    | e :: _ =>
      let mine := es.takeWhile fun x => decide (x.jseq = e.jseq)
      let rest := es.drop mine.length
      if e.jseq ≤ (s.rd KST_JSEQ).toNat then s.applyJournal rest n
      else if s.remoteFits mine then
        ((mine.foldl State.applyRemote s).wr KST_JSEQ (BitVec.ofNat 64 e.jseq)).applyJournal rest n
      else { s.raise KST_EVT_LOGSTALL with duo := { s.duo with journalWait := es } }

/-- The first entry returned matches the device's own: the holder's DEVID, INDEX and the resulting VERSION (12 R304). -/
def State.journalMatches (s : State) (es : List JEntry) : Bool :=
  match es.head? with
  | none => false
  | some e => s.kst.journal.any fun x =>
      decide (x.jseq = e.jseq ∧ x.devid = e.devid ∧ x.index = e.index ∧ x.image.version = e.image.version)

/-- The catch-up found that only a full resync helps. -/
def State.wantFull (s : State) : State := { s with duo := { s.duo with needFull := true, catching := none, buffer := [] } }

/-- The journal entries are applied: the MIRRORs buffered meanwhile follow (12 R302). One that waits for log room leaves no
gap. -/
def State.journalDone (s : State) : State :=
  if !s.duo.journalWait.isEmpty then s
  else
    let s := { s with duo := { s.duo with
        catching := none, caught := true, target := none,
        buffer := s.duo.buffer.filter fun x => decide ((s.rd KST_JSEQ).toNat < x.jseq) } }
    let s := s.drain s.duo.buffer.length
    if s.duo.buffer.isEmpty || !s.nextMirror.isEmpty then s else s.askJournal ((s.rd KST_JSEQ).toNat + 1) false

/-- JDATA for a device that catches up; during a full resync its entries close a gap (12 R302, R304). -/
def State.onJdata (s : State) (m : PeerMsg) (body k : List Byte) : State :=
  match s.duo.catching with
  | none => s
  | some (_, compare) =>
    let es := storedEntries k body.length body
    if s.on DUO_STAT_RESYNC then
      State.resyncApply { s with duo := { s.duo with catching := none, copies := s.duo.copies ++ es.map fun e => (e, true) } }
    else if m.jseq = 0 ∨ (compare ∧ !s.journalMatches es) then s.wantFull
    else (s.applyJournal es (es.length + 1)).journalDone

/-- JDATA_RECEIVE (12 R302). -/
def execJdataReceive (dt : Nat) (s : State) : Out :=
  .next (let s := s.elapse dt
    if s.on DUO_STAT_RESYNC ∧ s.duo.catching.isNone then s
    else match s.takeSealed 7 with
      | (some (m, _, body), s) => s.onJdata m body (s.journalKey.getD [])
      | (none, s) => s)

/-- LOG_FRAME_PROGRAMMED (10 R267): the room it makes lets a device apply the journal entries and the MIRRORs that wait for
it (12 R301, R302, R304). -/
def execLogFrameProgrammed (dt : Nat) (s : State) : Out :=
  timed dt State.powered s (fun s =>
    let s := s.logProgrammed
    if s.holding then s
    else if s.on DUO_STAT_RESYNC then s.resyncApply
    else if s.duo.catching.isSome then
      (if s.duo.journalWait.isEmpty then s
       else (s.applyJournal s.duo.journalWait (s.duo.journalWait.length + 1)).journalDone)
    else
      let t := (s.drain s.duo.buffer.length).trySync
      if t.duo.buffer.length < s.duo.buffer.length then t.sendMack else s)

/-- JSEQ_GAP_TIMEOUT (12 R302): a follower that is SYNCED, or has caught up, or takes a full resync, finds the gap. -/
def execJseqGapTimeout (dt : Nat) (s : State) : Out :=
  timed dt (fun s => decide (s.fget DUO_STAT_ROLE = 2) && s.duo.catching.isNone &&
    (s.on DUO_STAT_SYNCED || s.duo.caught || s.on DUO_STAT_RESYNC) &&
    s.duo.ahead.any (fun e => decide ((s.rd KST_JSEQ).toNat < e.1) && decide (e.2 + 8001 ≤ s.tb))) s State.gap

/-! ### Full resync (12 R304) -/

/-- A full resync ends with an ERR code. -/
def State.resyncEnds (s : State) (err : Nat) : State :=
  { ((s.lower DUO_RESYNC_BUSY).lower DUO_STAT_RESYNC).fset DUO_RESYNC_ERR err with
    duo := { s.duo with buffer := [], copies := [], live := [] } }

/-- The store is emptied, with a new log, and a checkpoint writes its new root (10 R270, log entry 144); records pinned in
fixed slots, the duo journal key among them, stay in the cache. Every JSEQ that the holder had reached comes with the copy.
-/
def State.emptyStore (s : State) : State :=
  let keep := s.kst.records.filter fun e => match s.cachedAt e.1 with
    | some c => c.fixed.isSome
    | none => false
  let s := { s with kst := { s.kst with
    records := keep, sealedRecs := [], tail := [], treeRoot := rootOf [], cached := s.kst.cached.filter (fun e => keep.any fun k => decide (k.1 = e.1)),
    nexts := [], log := [], waiting := [], raises := [], journal := [], deadVersion := [],
    durable := s.duo.renewJseq } }
  (s.takeCheckpoint.2).wr KST_JSEQ (BitVec.ofNat 64 s.duo.renewJseq)

/-- A write of DUO_RESYNC. -/
def State.duoResync (s : State) (v : Word32) : State :=
  if !v.getLsbD 31 || s.on DUO_RESYNC_BUSY || !(decide (s.sys.mode = .boot) || decide (s.sys.mode = .custody)) then s
  else if !s.peerHeard then s.fset DUO_RESYNC_ERR 1
  else if s.holding || s.since s.duo.newestAt 16000 then s.fset DUO_RESYNC_ERR 2
  else
    let s := ((s.raise DUO_RESYNC_BUSY).raise DUO_STAT_RESYNC).fset DUO_RESYNC_ERR 0
    let s := s.emptyStore
    let s := { s with duo := { s.duo with
        copied := [], copies := [], live := [], journalWait := [], needFull := false, catching := none, caught := false,
        target := none, buffer := [] } }
    ((s.wr DUO_RSIDX 0).setSynced false).sendSegments s.peerPath 6 0 1 [] 0 1

/-- One copy entry: applied, behind the entries that wait for room. -/
def State.copyEntry (s : State) (e : JEntry) : State :=
  if !s.on DUO_RESYNC_BUSY then s
  else if (s.rd KST_NIDX).toNat < e.index + 1 then s.resyncEnds 4
  else
    let s := s.wr DUO_RSIDX (BitVec.ofNat 64 (e.index + 1))
    State.resyncApply { s with duo := { s.duo with copies := s.duo.copies ++ [(e, false)] } }

/-- COPY_ENTRY_RECEIVE (12 R304). -/
def execCopyEntryReceive (dt : Nat) (s : State) : Out :=
  .next (let s := s.elapse dt
    if !s.on DUO_STAT_RESYNC then s
    else match s.takeSealed 7 with
      | (some (_, _, body), s) => (storedEntries (s.journalKey.getD []) body.length body).foldl State.copyEntry s
      | (none, s) => s)

/-- RESYNC_COMPLETE (12 R304): the event itself says that the copy has passed the holder's highest index, which no
message carries (log entry 135); every MIRROR up to the holder's JSEQ is applied, without a gap. Without the journal key
the device never becomes SYNCED (12 R462). -/
def execResyncComplete (dt : Nat) (s : State) : Out :=
  timed dt (fun s => s.on DUO_RESYNC_BUSY && s.journalKey.isSome && decide (s.duo.renewJseq ≤ (s.rd KST_JSEQ).toNat) &&
      s.duo.live.isEmpty && s.duo.buffer.isEmpty && s.duo.copies.isEmpty) s (fun s =>
    (((s.resyncEnds 0).lower DUO_STAT_DIVERGED).raise DUO_EVT_RESYNC_DONE).setSynced true)

/-- RESYNC_LINK_LOSS (12 R304): no path has been heard for more than 19 us. -/
def execResyncLinkLoss (dt : Nat) (s : State) : Out :=
  timed dt (fun s => s.on DUO_RESYNC_BUSY && !(s.within s.duo.heardP2 19001 || s.within s.duo.heardP3 19001)) s
    (fun s => s.resyncEnds 3)

/-! ### Register writes -/

/-- The protocol is switched off: a holder's lease ends with it, and no catch-up goes on. -/
def State.duoOff (s : State) : State :=
  let lost := s.holds && !s.on DUO_STAT_SOLO && s.anyUnacked
  let s := { s with duo := { s.duo with claiming := false, releasing := false, catching := none, caught := false, target := none, inbox := [] } }
  let s := (s.soloOff.setRole 0).dropUnacked 0
  if lost then s.diverge else s

/-- A write of DUO_CTRL (12 R294, R295, R306, R308, R462): FORCE only in CUSTODY with CUST. -/
def State.duoCtrl (s : State) (cust : Bool) (v : Word32) : State :=
  let was := s.on DUO_CTRL_EN
  let force := if s.sys.mode = .custody ∧ cust then v.getLsbD 5 else s.on DUO_CTRL_FORCE
  let s := ((((s.put DUO_CTRL_WAKE (v.getLsbD 6)).put DUO_CTRL_FORCE force).put DUO_CTRL_LEAVE (v.getLsbD 3)).put
    DUO_CTRL_LL_EN (v.getLsbD 1)).put DUO_CTRL_EN (v.getLsbD 0)
  let s := if v.getLsbD 0 && !was then
      { s with duo := { s.duo with saltWait := true, ctr := if s.duo.saltWait then s.duo.ctr else 0, mirrorWait := [], enRose := s.tb, renewHeard := false, statusHeard := false } }
    else if was && !v.getLsbD 0 then s.duoOff
    else s
  if v.getLsbD 4 then s.release_ else s

/-- A write of DUO_EPOCHCLR (12 R291): only in CUSTODY, with CUST, and while ROLE is 0b00. -/
def State.epochClear (s : State) (cust : Bool) (v : Word32) : State :=
  if v.getLsbD 0 ∧ s.sys.mode = .custody ∧ cust ∧ s.fget DUO_STAT_ROLE = 0 then
    { (s.fset DUO_EPOCH_EPOCH 0).lower DUO_STAT_STUCK with duo := { s.duo with epochHeard := 0 } }
  else s

/-! ### Joint switches (12 R307) -/

/-- SCHEDULED_SWITCH (12 R307). -/
def execScheduledSwitch (dt : Nat) (s : State) : Out :=
  timed dt (fun s => s.powered && s.on DUO_SWAT_ARM && decide (s.fget DUO_SWAT_TIME ≤ s.tb)) s
    (fun s => ((s.lower DUO_SWAT_ARM).raise DUO_EVT_SWITCHED).epochSwitch 0x80000000)

/-- EPOCH_SKEW_TIMEOUT (12 R307). -/
def execEpochSkewTimeout (dt : Nat) (s : State) : Out :=
  timed dt (fun s => decide (s.duo.peerDnum ≠ some (s.fget DSP_EPOCH_NUM)) && s.duo.skewSince.isSome &&
    s.since s.duo.skewSince 1000001) s (fun s => s.raise DUO_EVT_EPOCH_SKEW)

/-- DUO_STAT.HEARD: bit 0 LEASE_IN, bit 1 P3, bit 2 P2 of the field. -/
def State.duoHeard (s : State) : Nat :=
  (if s.within s.duo.heardLease 8000 then 1 else 0) + (if s.within s.duo.heardP3 8000 then 2 else 0) +
  (if s.within s.duo.heardP2 8000 then 4 else 0)

end Sys2Proof.Machine
end

