-- ==== Sys2Proof/Machine/StoreBuf.lean ====
section
/-!
DEFINITION. Machine/StoreBuf.lean: the store buffers of the control cores: a buffered store leaves its buffer and enters
the interconnect, where it is checked (07 R204), and completes there (07 R205); its error is deferred (05 R155).
-/

namespace Sys2Proof.Machine

/-- A buffered store of core `n` failed: the first error is kept, later ones set MORE (05 R155). -/
def State.deferError (s : State) (n : Fin 16) (addr : Nat) : State :=
  let c := s.core (.ctl n)
  s.setCore (.ctl n) { c with defErr := match c.defErr with
    | none => some (addr, false)
    | some (a, _) => some (a, true) }

/-- The buffer of core `n`. -/
def State.setBuf (s : State) (n : Fin 16) (b : List BufStore) : State :=
  s.setCore (.ctl n) { s.core (.ctl n) with storeBuf := b }

/-- The oldest store of core `n` that has not yet entered the interconnect enters it (07 R204): a denied store leaves the
buffer with its error. Stores stay in order (04 R112). -/
def State.storeEnters (s : State) (n : Fin 16) : State :=
  let buf := (s.core (.ctl n)).storeBuf
  match buf.find? (fun b => !b.entered) with
  | none => s
  | some b =>
    let done := buf.takeWhile (·.entered)
    let rest := (buf.dropWhile (·.entered)).drop 1
    match s.enter ⟨.ctl n, b.perms⟩ b.addr .write with
    | (.ok _, s) => s.setBuf n (done ++ { b with entered := true } :: rest)
    | (.error _, s) => (s.setBuf n (done ++ rest)).deferError n b.addr

/-- A store reaches its target: its bytes and its tag are stored, or the target refuses them. -/
def State.storeLands (s : State) (n : Fin 16) (b : BufStore) : State :=
  if s.writable b.addr then
    if b.tag then { s.storeBytes b.addr b.bytes with tags := tagPut (s.storeBytes b.addr b.bytes).tags b.addr true }
    else s.storeBytes b.addr b.bytes
  else s.deferError n b.addr

/-- The oldest store of core `n` completes, if it has entered the interconnect: its bytes are stored, or its target
refuses them. -/
def State.storeCompletes (s : State) (n : Fin 16) : State :=
  match (s.core (.ctl n)).storeBuf with
  | b :: rest =>
    if b.entered then
      let s := (s.setBuf n rest).storeLands n b
      if b.old then s.drainOld else s
    else s
  | [] => s

/-- Every buffered store of core `n` completes: `k` steps. -/
def State.drainSteps (s : State) (n : Fin 16) : Nat → State
  | 0 => s
  | k + 1 => ((s.storeEnters n).storeCompletes n).drainSteps n k

/-- Every buffered store of core `n` completes (13 R324). -/
def State.drainBuf (s : State) (n : Fin 16) : State := s.drainSteps n (s.core (.ctl n)).storeBuf.length

/-- Core `n` stops; its buffered stores complete first (13 R324). -/
def State.stopCore (s : State) (n : Fin 16) : State :=
  if s.fget (SYS_CORE_CTRL_STATE n) = 1 then
    ((((s.drainBuf n).endStalls (.ctl n)).dropWaits n).fset (SYS_CORE_CTRL_STATE n) 2).stopAsked n false
  else s

/-- Every control core stops without entering a handler (16 R373). -/
def State.stopCores (s : State) : State := (List.finRange 16).foldl State.stopCore s

end Sys2Proof.Machine
end

