-- ==== Sys2Proof/Machine/TagMem.lean ====
section
/-!
DEFINITION. Machine/TagMem.lean: the tag memory: lines and group configurations in two copies (18 R408), reading one,
committing one (18 R410), a commit that loses power (18 Table 18.6), the scrub (18 R411), and the last fault record
(18 R400).
-/

namespace Sys2Proof.Machine

/-- A copy is valid when its marker is set, six bits or more, and its CRC is correct (18 R408). -/
def TagCopy.valid (c : TagCopy) : Bool := decide (6 ≤ c.marker) && c.crcOk

/-- Copy `a` is the one a read returns: the valid one, and of two valid copies the newer (18 R408). -/
def TagLine.readsA (l : TagLine) : Bool := l.a.valid && (!l.b.valid || decide ((l.a.gen + 4 - l.b.gen % 4) % 4 = 1))

/-- The copy a read returns, if any is valid. -/
def TagLine.current (l : TagLine) : Option TagCopy :=
  if l.readsA then some l.a else if l.b.valid then some l.b else none

/-- The key of the configuration of group `g`: the configurations stand behind the 512 lines. -/
def tagCfgKey (g : Nat) : Nat := 512 + g

/-- The policy of a group at delivery (18 Table 18.2): bit 0 FRE, bit 1 FWE, bit 2 RPW, bit 3 WPW. -/
def deliveredPolicy (g : Nat) : Nat := if g = 1 then 3 else if g ≤ 3 then 1 else 0

/-- A line as it is at delivery: one valid copy of zeros; a configuration holds its policy byte, its password and its
attempts (log entry 60). -/
def tagDelivered (k : Nat) : TagLine :=
  if k < 512 then {}
  else { a := { data := BitVec.ofNat 8 (deliveredPolicy (k - 512)) :: List.replicate 9 0, crcOk := true, marker := 8 } }

/-- Line or configuration `k`. -/
def State.tagLine (s : State) (k : Nat) : TagLine := sget (tagDelivered k) s.tag.lines k

/-- Replace line or configuration `k`. -/
def State.setTagLine (s : State) (k : Nat) (l : TagLine) : State :=
  { s with tag := { s.tag with lines := sput (tagDelivered k) s.tag.lines k l } }

/-- The content of line or configuration `k`; without a valid copy it reads as zeros (18 R408). -/
def State.tagRead (s : State) (k : Nat) : List Byte :=
  match (s.tagLine k).current with
  | some c => c.data
  | none => List.replicate (if k < 512 then 16 else 10) 0

/-- The copy that a commit leaves alone: the current one; the other is its target (18 R410). -/
def TagLine.put (l : TagLine) (c : TagCopy) : TagLine := if l.readsA then { l with b := c } else { l with a := c }

/-- The generation that a commit writes: the other copy's plus one (18 Table 18.6, C2). -/
def TagLine.nextGen (l : TagLine) : Nat :=
  match l.current with
  | some c => (c.gen + 1) % 4
  | none => 0

/-- The commit of `data` into line `k`, all its steps done (18 Table 18.6). -/
def State.tagCommit (s : State) (k : Nat) (data : List Byte) : State :=
  let l := s.tagLine k
  s.setTagLine k (l.put { gen := l.nextGen, data := data, crcOk := true, marker := 8 })

/-- A commit of `data` into line `k` is abandoned or loses power in C1 to C3: its target copy is not valid. -/
def State.tagCut (s : State) (k : Nat) : State := s.setTagLine k ((s.tagLine k).put {})

/-- A commit that loses power at a step that is left open (18 Table 18.6): before C5 the target copy is not valid; in
C5 some of its marker bits are programmed. -/
def State.tagTorn (s : State) (k : Nat) (data : List Byte) : State :=
  if Config.freeBit s.freeCtr then
    let l := s.tagLine k
    let m := (Config.freeWord (s.freeCtr + 1)).toNat % 8
    (s.drawn 2).setTagLine k (l.put { gen := l.nextGen, data := data, crcOk := true, marker := m })
  else (s.drawn 1).tagCut k

/-- The scrub of one copy: a marker with 1 to 7 bits is completed where the CRC is correct, and the copy is erased
where it is not (18 R411). -/
def TagCopy.scrub (c : TagCopy) : TagCopy :=
  if 1 ≤ c.marker ∧ c.marker ≤ 7 then (if c.crcOk then { c with marker := 8 } else {}) else c

/-- The scrub at power-up of the tag domain (18 R411). -/
def State.tagScrub (s : State) : State :=
  (s.tag.lines.map fun e => (e.1, ({ a := e.2.a.scrub, b := e.2.b.scrub } : TagLine))).foldl
    (fun s e => s.setTagLine e.1 e.2) s

/-! ### Wired writes (18 R405, R406) -/

/-- The memory is busy for the wire: a field transaction, or a commit still running. -/
def State.tagBusy (s : State) : Bool := s.on TAG_STAT_FTXN || s.tag.commit.isSome

/-- The commit of a line begins for the wire. -/
def State.wiredWrite (s : State) (l : Nat) (d : List Byte) : State :=
  let s := (s.raise TAG_STAT_WBUSY).lower TAG_STAT_WWAIT
  { s with tag := { s.tag with waiting := none, commit := some { line := l, data := d, field := false } } }

/-- A write of a line waits for the field, or begins. -/
def State.wiredAsked (s : State) (l : Nat) (d : List Byte) : State :=
  if s.tagBusy then { s.raise TAG_STAT_WWAIT with tag := { s.tag with waiting := some (true, l, d) } } else s.wiredWrite l d

/-- Kindling's next write of the last fault record, once the wired operation before it has ended: its data and its
command stand in the registers (18 R412). -/
def State.faultWrites (s : State) : State :=
  match s.tag.record with
  | [] => s
  | (l, d) :: rest =>
    if !s.tag.powered || s.on TAG_STAT_WBUSY || s.on TAG_STAT_WWAIT then s
    else
      let s := (List.range 4).foldl (fun s k => s.wr (TAG_WDATA k) (BitVec.ofNat 64 (leAt d (4 * k) 4))) s
      let s := (s.fset TAG_WCMD_OP 2).fset TAG_WCMD_LINE l
      State.wiredAsked { s with tag := { s.tag with record := rest } } l d

/-- The last fault record in lines 192 and 193, line 193 first (18 R400): two wired writes. -/
def State.lastFault (s : State) : State :=
  let l0 := leBytes 4 0x4C465231 ++ [BitVec.ofNat 8 (s.fget SYS_BOOTSTAT_STEP), BitVec.ofNat 8 (s.fget SYS_BOOTSTAT_ERR),
    BitVec.ofNat 8 (modeCode s.sys.mode), BitVec.ofNat 8 (lifecycleCode s.sys.lc)] ++
    leBytes 4 (s.rd TMP_FIRST).toNat ++ leBytes 4 (s.rd FLT_FIRST).toNat
  let l1 := leBytes 8 (s.rd TMP_TSC).toNat ++ List.replicate 8 0
  State.faultWrites { s with tag := { s.tag with record := [(193, l1), (192, l0)] } }

/-! ### The states of the tag (18 R398) -/

/-- FSTATE: 0 IDLE, 1 READY, 2 ACTIVE, 3 HALT. -/
def State.tagState (s : State) (n : Nat) : State :=
  { s.fset TAG_STAT_FSTATE n with tag := { s.tag with authed := if n = 2 then s.tag.authed else [] } }

/-- The antenna tuning that is due takes effect while no field transaction runs (19 Table 19.1). -/
def State.tagTuned (s : State) : State :=
  if s.on TAG_STAT_FTXN then s
  else { s with tag := { s.tag with tuning := s.tag.nextTuning.getD s.tag.tuning, nextTuning := none } }

/-- The field transaction ends (18 R405). -/
def State.tagTxnEnds (s : State) : State := (s.lower TAG_STAT_FTXN).tagTuned

/-- The tag domain loses power: a commit under way is torn, and the state of the tag is lost (18 R398, R407). -/
def State.tagPowerDown (s : State) : State :=
  let s := match s.tag.commit with
    | some c => s.tagTorn c.line c.data
    | none => s
  let s := match s.tag.apply with
    | some (k, d) => s.tagTorn k d
    | none => s
  { (s.wr TAG_STAT 0).lower TAG_GRPCFG_BUSY with tag := { s.tag with
      powered := false, woken := false, level1 := false, authed := [], field := false, commit := none, reading := none, waiting := none, apply := none,
      record := [] } }

end Sys2Proof.Machine
end

