-- ==== Sys2Proof/Machine/Power.lean ====
section
/-!
DEFINITION. Machine/Power.lean: what changes of mode share: the BMK (15 R348), the card slots and the quorum session at
a mode change (17 R383, R393), a flash command that is stopped (14 R340), the reset of the core domain (13 R312), the
reset release (13 R315), the safe state (16 R373) and QUENCH entry (13 R321).
-/

namespace Sys2Proof.Machine

/-! ### The BMK (15 R348) -/

/-- A fresh BMK is asked of the random number source (13 R320, R322). -/
def State.askBmk (s : State) : State := { s with sys := { s.sys with bmkWait := true } }

/-! ### Cards and quorum at a mode change (17 R383, R393) -/

/-- Slot `n` of the card interface beside its registers. -/
def State.slot (s : State) (n : Nat) : CardSlot := sget {} s.crd.slots n
/-- Replace a slot. -/
def State.setSlot (s : State) (n : Nat) (x : CardSlot) : State :=
  { s with crd := { s.crd with slots := sput {} s.crd.slots n x } }

/-- Word `k` of the buffer of slot `n`. -/
def slotBuf (n k : Nat) : Nat := if n = 0 then CRD_SBUF0 k else CRD_SBUF1 k

/-- Clear the buffer of slot `n`. -/
def State.clearBuf (s : State) (n : Nat) : State :=
  { s with regs := s.regs.filter fun e => !(decide (slotBuf n 0 ≤ e.1) && decide (e.1 < slotBuf n 128)) }

/-- An attestation fails: the session stays open (17 R393). -/
def State.attestFails (s : State) (err : Nat) : State :=
  { ((s.fset CRD_QSTAT_ERR err).lower CRD_QSTAT_BUSY).raise CRD_EVT_QFAIL with crd := { s.crd with answer := none } }

/-- An exchange of slot `n` fails. -/
def State.xferFails (s : State) (n err : Nat) : State :=
  if s.on (CRD_SXFER_BUSY n) then
    let s := ((s.lower (CRD_SXFER_BUSY n)).fset (CRD_SXFER_ERR n) err).raise (bitFld CRD_EVT (6 + n))
    if (s.slot n).attest && decide (s.crd.attSlot = some n) then s.attestFails (if err = 1 then 5 else 4) else s
  else s

/-- When a deactivation that begins now is complete: within 50 µs, which is left open (17 R383). -/
def State.offTime (s : State) : Nat := s.tb + (Config.freeWord s.freeCtr).toNat % 50001

/-- The card in slot `n` is deactivated (17 R383): its exchange ends with `err`, and the slot keeps `serr` as its error
and `st` as its state. Until the deactivation is complete, the slot reads DEACTIVATING (17 R395). -/
def State.deactivate (s : State) (n err serr st : Nat) : State :=
  let s := (s.xferFails n err).clearBuf n
  let s := ((s.fset (CRD_SSTAT_STATE n) st).fset (CRD_SSTAT_ERR n) serr).lower (CRD_SSTAT_CLASS n)
  ((s.drawn 1).wr (CRD_SPARAM n) 0).setSlot n { offAt := s.offTime }

/-- The slot holds an activated card. -/
def State.cardLive (s : State) (n : Nat) : Bool :=
  decide (s.fget (CRD_SSTAT_STATE n) = 1) || decide (s.fget (CRD_SSTAT_STATE n) = 2) || decide (s.fget (CRD_SSTAT_STATE n) = 3)

/-- Both slots are deactivated. -/
def State.cardsOff (s : State) : State :=
  [0, 1].foldl (fun s n => if s.cardLive n then s.deactivate n 4 0 0 else s) s

/-- The quorum session closes (17 R393). -/
def State.quorumClose (s : State) : State :=
  { ((s.lower CRD_QSTAT_AUTH).lower CRD_QSTAT_OPEN).lower CRD_QSTAT_BUSY with crd := { s.crd with
      challenge := 0, wantChallenge := false, counted := [], attSlot := none, answer := none } }

/-- AUTH for a purpose is there to be consumed (17 R393). -/
def State.hasAuth (s : State) (purpose : Nat) : Bool := s.on CRD_QSTAT_AUTH && decide (s.crd.purpose = purpose)

/-! ### Mode changes (13 R310, R312) -/

/-- What the change into mode `m` does first: FORCE falls when CUSTODY is left (13 Table 13.2), the quorum session
closes (17 R393), and the cards are deactivated where the core domain loses power. -/
def State.leavesFor (s : State) (m : Mode) : State :=
  let s := State.quorumClose (if s.sys.mode = .custody then s.lower DUO_CTRL_FORCE else s)
  if m = .standby ∨ m = .cell then s.cardsOff else s

/-- The mode is `m`, and MODE_CHG says so where the core domain that holds it has power. -/
def State.inMode (s : State) (m : Mode) : State :=
  let t := if s.counting then s.raise SYS_EVT_MODE_CHG else s
  { t with sys := { t.sys with mode := m } }

/-- The mode changes (13 R310, R312). -/
def State.setMode (s : State) (m : Mode) : State := if s.sys.mode = m then s else (s.leavesFor m).inMode m

/-! ### A flash command is stopped (14 R340) -/

/-- `n` bytes the spec leaves open, from free value `k` on. -/
def freeBytes (k : Nat) : Nat → List Byte
  | 0 => []
  | n + 1 => Config.freeByte k :: freeBytes (k + 1) n

/-- Whether each of `n` words from `a` on holds a double-bit error is left open, from free value `k` on. -/
def freeDamage (d : Sparse Bool) (a k : Nat) : Nat → Sparse Bool
  | 0 => d
  | n + 1 => freeDamage (sput false d (damKey .bus a) (Config.freeBit k)) (a + 4) (k + 1) n

/-- Bytes of flash take values that are left open, and any of their words may hold a double-bit error (14 Table 14.5). -/
def State.spoil (s : State) (a n : Nat) : State :=
  { s.drawn n with
    mem := memWrite s.mem a (freeBytes s.freeCtr n)
    damaged := freeDamage s.damaged a s.freeCtr (n / 4) }

/-- Every bit of a page is 1. -/
def State.pageBlank (s : State) (a : Nat) : Bool :=
  (memRead s.mem a 256).all (fun b => decide (b = 0xFF)) && !s.damagedAt .bus a 256

/-- The next page of a PROGRAM or the page of an OTP_PROGRAM is prepared (14 R333 step 1): its source bytes are read, and
the page is checked to be blank; what fails is kept for the end of the page. -/
def State.preparePage (s : State) : State :=
  match s.readBlock ⟨.flc, 0⟩ s.flc.src 256 with
  | (.error _, s) => { s with flc := { s.flc with page := [], pageErr := 7 } }
  | (.ok bs, s) =>
    let blank := s.pageBlank s.flc.addr && !sget false s.flc.otpUsed (s.flc.addr / 256)
    { s with flc := { s.flc with page := bs, pageErr := if blank then 0 else 3 } }

/-- COPY, granule by granule (14 R332), until a granule holds a double-bit error or its destination fails: the error of 14
Table 14.3. -/
def State.copyGranules (s : State) (a dst : Nat) : Nat → State × Nat
  | 0 => (s, 0)
  | n + 1 =>
    if s.damagedAt .bus a 32 then (s.eccRead a 32, 6)
    else match s.writeBlock ⟨.flc, 0⟩ dst (memRead s.mem a 32) with
      | (.error _, s) => (s, 7)
      | (.ok _, s) => s.copyGranules (a + 32) (dst + 32) n

/-- The page in progress is stopped (14 Table 14.5): in the blank check, which of the two is left open, it is unchanged;
later it is undefined, and an OTP page cannot be programmed again. -/
def State.pageStopped (s : State) (otp : Bool) : State :=
  if s.flc.pageErr ≠ 0 ∨ Config.freeBit s.freeCtr then s.drawn 1
  else
    let t := (s.drawn 1).spoil s.flc.addr 256
    if otp then { t with flc := { t.flc with otpUsed := sput false t.flc.otpUsed (s.flc.addr / 256) true } } else t

/-- An erase is stopped (14 Table 14.5): in E1 it leaves its block and a flag that is set or clear; in E2 and E3 it leaves
the block open and the flag set, and in E4 the block erased and the flag set. -/
def State.eraseStopped (s : State) : State :=
  if s.eraseStep = 1 then
    { s.drawn 1 with flc := { s.flc with
        flags := sput false s.flc.flags (flcBlock s.flc.addr) (Config.freeBit s.freeCtr) } }
  else if s.eraseStep = 4 then s.blockBlank s.flc.addr
  else s.spoil s.flc.addr 0x10000

/-- The running command has left the controller: the reads that it stalled may reach the array. -/
def State.flcIdle (s : State) : State :=
  { s.freeStalls with flc := { s.freeStalls.flc with addr := 0, src := 0, count := 0, page := [], pageErr := 0, fixing := false } }

/-- A running flash command is stopped at a point that is left open (14 Table 14.5). -/
def State.flcStopped (s : State) : State :=
  if s.on FLC_STAT_BUSY then
    (match s.fget FLC_STAT_OP with
     | 1 => s.pageStopped false
     | 2 => s.eraseStopped
     | 3 => ((s.drawn 1).copyGranules s.flc.addr s.flc.src ((Config.freeWord s.freeCtr).toNat % (s.flc.count + 1))).1
     | _ => s.pageStopped true).flcIdle
  else s

/-! ### Reset (13 R312) -/

/-- What keeps a register: main power and reset, main power lost with VDD_AON present, or VDD_AON lost. -/
inductive ResetKind where
  | reset | power | aon
  deriving DecidableEq, Repr

/-- The register at `a` is one of the backup domain (15 R346, 17 R392). TMP_CAUSE shows the monitors that this domain
powers, and FLT_CAUSE 0 shows them too (16 R368). -/
def inBackup (a : Nat) : Bool :=
  (decide (0x40B00000 ≤ a) && decide (a < 0x40B00200) && decide (a ≠ TMP_EVT ∧ a ≠ TMP_BIST ∧ a ≠ TMP_TSCSET ∧ a ≠ TMP_STKY_CLR)) ||
  decide (a = SYS_BOOTTAMP ∨ a = SYS_WAKECFG ∨ a = SYS_SVNFLOOR ∨ a = CRD_ROSTER_CTRL ∨ a = FLT_CAUSE 0)

/-- The bits of the register at `a` that a reset of this kind leaves as they are: the backup domain's always (15 R346,
17 R392), the tag's, whose domain a field may feed (18 R396), the causes of absent reference clocks, Wick's while VDD_AON
holds (15 R359), and the fields marked so through a reset (00 R5, R9). -/
def keptBits (k : ResetKind) (a : Nat) : Nat :=
  let all := 2 ^ 64 - 1
  let within (lo hi : Nat) : Bool := decide (lo ≤ a) && decide (a < hi)
  if inBackup a then all
  else if a = TAG_STAT then 2 ^ 64 - 1 - 2 ^ 28
  else if a = TAG_GRPCFG then 2 ^ 30
  else if a = FLT_CAUSE 2 then 0x30000000
  else if k = .aon then 0
  else if within 0x40C00000 0x40D00000 then all
  else if a = CRD_SSTAT 0 ∨ a = CRD_SSTAT 1 then 2 ^ 31
  else if k = .power then 0
  else if a = FLT_FIRST ∨ a = FLT_FIRST_TS ∨ a = ACT_DBGSTKY ∨ within (FLT_STKY 0) (FLT_STKY 4) then all
  else if within CPH_ACTIVE (CPH_FASTROLE + 4) ∨ within (MAU_ACTIVE 0) (MAU_FASTROLE 5) then all
  else if a = KST_MEMCFG then 0xFF0000
  else if a = KST_SEALCFG then 0xFF3F
  else if a = KST_NIDX ∨ a = KST_JRNCAP then all
  else 0

/-- What a reset of kind `k` keeps of a register's value. -/
def keptOf (k : ResetKind) (a : Nat) (v : Word) : Word := v &&& BitVec.ofNat 64 (keptBits k a)

/-- The reset values of the bits that a reset of kind `k` does not keep. -/
def resetBase (k : ResetKind) : Sparse Word :=
  (resetRegs.map fun e => (e.1, e.2 &&& ~~~BitVec.ofNat 64 (keptBits k e.1))).filter fun e => decide (e.2 ≠ 0)

/-- The registers after a reset of kind `k`. -/
def resetMap (k : ResetKind) (old : Sparse Word) : Sparse Word :=
  old.foldl (fun m (e : Nat × Word) =>
    if keptOf k e.1 e.2 = 0 then m else sput 0 m e.1 (sget 0 m e.1 ||| keptOf k e.1 e.2)) (resetBase k)

/-- The later of two lifecycle states. -/
def laterState (a b : Lifecycle) : Lifecycle := if lifecycleCode a < lifecycleCode b then b else a

/-- The byte of page 0 that holds the lifecycle group of a state (13 R320, 14 R331); its place in the page is left open
(DESIGN CHOICE, log entry 129). -/
def lcGroup (t : Lifecycle) : Nat := 0x10000000 + lifecycleCode t

/-- The programmed bits of a group: an erased bit reads 1 (14 R327). -/
def groupBits (b : Byte) : Nat := ((List.range 8).filter fun i => !b.getLsbD i).length

/-- The group of `t` reads `b`. -/
def State.setGroup (s : State) (t : Lifecycle) (b : Byte) : State := s.programBytes (lcGroup t) [b]

/-- What an advance to `t` that stops short leaves in its group: it is left open which bits are programmed, fewer than 6
in all (13 R320). -/
def State.groupLeft (s : State) (t : Lifecycle) : Byte :=
  let old := memGet s.mem (lcGroup t)
  let new := old &&& ~~~Config.freeByte s.freeCtr
  if groupBits new < 6 then new else old

/-- The group that Kindling will complete after an advance to `t` stopped short: of two groups partly programmed the
higher one counts (13 R320). -/
def State.partLeft (s : State) (t : Lifecycle) : Option Lifecycle :=
  if groupBits (s.groupLeft t) = 0 then s.sys.lcPartial else some ((s.sys.lcPartial.map (laterState t)).getD t)

/-- A reset interrupts an advance of the lifecycle under way: its group may be programmed in part, once the BMK that comes
before it is drawn (13 R320). -/
def State.advanceCut (s : State) : State :=
  match s.sys.advancing with
  | some t =>
    if s.sys.bmkWait then { s with sys := { s.sys with advancing := none } }
    else { (s.drawn 1).setGroup t (s.groupLeft t) with sys := { s.sys with lcPartial := s.partLeft t, advancing := none } }
  | none => s

/-- Every field of the units that are reset. Memory on the die and in DDR5 is lost with main power; a reset alone leaves
its data and clears its tags (05 R146, log entry 55). The sealed store keeps the frames programmed, and with them the
journal ring its entries (10 R271). -/
def State.cleared (s : State) (k : ResetKind) : State :=
  { s with
    regs := resetMap k s.regs
    heldLow := []
    latchHigh := []
    mem := if k = .reset then s.mem else s.mem.filter fun e => inFlash e.1
    tags := []
    damaged := s.damaged.filter fun e => (decide (e.1 < 2 ^ 48) && (decide (k = .reset) || inFlash e.1)) ||
      (decide (k ≠ .aon) && (decide (e.1 / 2 ^ 48 = 2) || decide (e.1 / 2 ^ 48 = 5)))
    cores := s.cores.filter fun e => decide (e.1 = 16)
    svc := {}
    adm := {}
    dsp := {}
    kst := { sealedRecs := s.kst.sealedRecs, tail := s.kst.tail, lsn := s.kst.lsn, deadVersion := s.kst.deadVersion,
             roots := s.kst.roots, durable := s.kst.durable,
             journal := s.kst.journal.filter fun e => decide (e.jseq ≤ s.kst.durable) }
    duo := {}
    sys := { s.sys with stopReq := 0, ddrTrained := false, patches := [], bmkWait := false }
    flc := { counts := s.flc.counts, flags := s.flc.flags, otpUsed := s.flc.otpUsed }
    flt := {}
    crd := { roster := s.crd.roster, rosterM := s.crd.rosterM }
    tag := { s.tag with policy := none, password := none, waiting := none, record := [] }
    obs := { tap := s.obs.tap }
    cphQ := []
    mauQ := []
    cph := []
    mau := []
    cphTake := []
    mauBuf := []
    rng := {} }

/-- Every unit outside the always-on and the backup domain is reset (13 Table 13.2). A test of a tamper source ends with it,
and the source's real input is evaluated again (15 R358). -/
def State.resetCore (s : State) (k : ResetKind) : State := s.flcStopped.advanceCut.testEnds.cleared k

/-- The debug capability of the lifecycle state (19 Table 19.8). -/
def State.loadDcap (s : State) : State :=
  let (b, e, p) := match s.sys.lc with
    | .provisioned => (0x40000000, 0x41600000, 0x201)
    | .field => (0x41100000, 0x41300000, 0x201)
    | _ => (0, 0, 0x203)
  ((s.wr OBS_DCAP_BASE (BitVec.ofNat 64 b)).wr OBS_DCAP_END (BitVec.ofNat 64 e)).wr OBS_DCAP_PERM (BitVec.ofNat 64 p)

/-- The code of a reset cause in SYS_RSTCAUSE (13 R326). -/
def causeBit : ResetCause → Nat
  | .por => 0
  | .pwrgood => 1
  | .pin => 2
  | .sw => 3
  | .reprov => 4

/-- The level sources whose cause is present at a reset release count one event each; a tamper source only where it is
enabled (16 R369). -/
def State.startupEvents (s : State) : State :=
  ((List.range 28).filter (fun n => s.on (causeFld n) && s.on (TMP_SRCCFG_EN n)) ++
    [92, 93].filter (fun n => s.on (causeFld n))).foldl (fun s n => s.fault n 0 false) s

/-- A reset release records its cause, and loads the timebase after a loss of power (13 R326, Table 13.5 step 0x01). -/
def State.resetCause (s : State) (c : ResetCause) : State :=
  let s := s.wr SYS_RSTCAUSE (BitVec.ofNat 64 (2 ^ causeBit c))
  if c = .por ∨ c = .pwrgood then { s with tb := (s.rd TMP_TSC).toNat * 1000000000 / 32768 % 2 ^ 64, tbRem := 0, rate := 0 } else s

/-- Kindling completes the lifecycle groups that hold 1 to 5 programmed bits (13 R320). -/
def State.groupsCompleted (s : State) : State :=
  [Lifecycle.manufacture, .provisioned, .field, .returned].foldl (fun s t =>
    let n := groupBits (memGet s.mem (lcGroup t))
    if 1 ≤ n ∧ n ≤ 5 then s.setGroup t 0 else s) s

/-- BOOT begins on core 0; a lifecycle group left partly programmed is completed, and of two the higher one is the state
(13 R315, R320). -/
def State.released (s : State) : State :=
  { s.groupsCompleted with
    sys := { s.sys with mode := .boot, stepsDone := 0, lc := (s.sys.lcPartial.map (laterState s.sys.lc)).getD s.sys.lc, lcPartial := none }
    cores := sput {} s.cores 0 coreAtReset
    rng := { s.rng with hkWait := true } }

/-- The reset release into BOOT (13 R312, R315): with the debug capability and the start-up events. -/
def State.enterBoot (s : State) (c : ResetCause) : State := (s.resetCause c).released.loadDcap.startupEvents

/-- A reset while main power holds (13 Table 13.2). -/
def State.resetDevice (s : State) (c : ResetCause) : State := (s.resetCore .reset).enterBoot c

/-! ### Starting a control core (13 R323) -/

/-- Core `n` starts from the block at `a`, read under its own identity: the PCC and c1, both tagged and unsealed, and the
PCC with X. The answer says whether it started. -/
def State.startFrom (s : State) (n : Fin 16) (perms : BitVec 16) (a : Nat) : Ans Bool :=
  match s.busRead ⟨.ctl n, perms⟩ a 32 with
  | (.error .wait, s) => (.error .wait, s)
  | (.error e, s) => (.error e, s.endStalls (.ctl n))
  | (.ok bs, s) =>
    let s := s.endStalls (.ctl n)
    let pcc := capOfBytes (s.tagged a && tagAt s.tags a) (bs.take 16)
    let c1 := capOfBytes (s.tagged a && tagAt s.tags (a + 16)) (bs.drop 16)
    if pcc.usable && c1.usable && permBit pcc.perms pX then
      (.ok true, ((s.setCore (.ctl n) { c := sput {} [] 1 c1, pcc := pcc, pc := pcc.base }).fset
        (SYS_CORE_CTRL_STATE n) 1).stopAsked n false)
    else (.ok false, s)

/-! ### The safe state (16 R373) -/

/-- The safe state: silence, no service, no role, no context, and every control core stopped. -/
def State.safeState (s : State) : State :=
  let s := s.raise FLT_STAT_SAFE
  let s := ((s.lower SVC_CTRL_EN).lower ADM_CTRL_EN).lower DUO_CTRL_EN
  let s := s.duoOff
  let s := s.live.foldl (fun s e => s.freeCtx e.1) s
  let s := { s with
    adm := { s.adm with descs := [] }
    svc := { s.svc with refusals := [] }
    mau := s.mau.map fun (e : Nat × EngUnit) => (e.1, { e.2 with held := none }) }
  s.setLantern 0 |>.stopCores

/-! ### QUENCH (13 R321) -/

/-- What QUENCH entry destroys: the key cache, transient slots, engine state, HK and SK, the random blocks, and the log
buffer, whose commits are lost. -/
def State.destroyKeys (s : State) : State :=
  let s := { s with
    kst := { s.kst with records := [], cached := [], nexts := [], transient := [], log := [], waiting := [], raises := [],
                        hotValid := [], refresh := [], running := none, mounting := false, checkpointing := false,
                        hotKey := 0, sealingKey := 0 }
    cphQ := []
    mauQ := []
    cph := []
    mau := []
    cphTake := []
    mauBuf := []
    damaged := s.damaged.filter fun e => decide (e.1 < slotKey 0) }
  let s := s.lower KST_STAT_MOUNTED
  { s.setBuffer [] with rng := { s.rng with buffer := [] } }

/-- QUENCH entry: the safe state of the outputs, the destruction, the BMK and the flag after a SNUFF, and core 0 at
Kindling's QUENCH entry. The memory PHYs are gated (13 Table 13.1), so the core region of
DDR5 answers no more. Flash commands run on (14 R343); an erase that is suspended resumes. -/
def State.quenchEntry (s : State) (snuff : Bool) : State :=
  let s := s.safeState.destroyKeys
  let s := if snuff then s.eraseBmk.raise SYS_BOOTTAMP_SNUFF else s
  let s := if s.on FLC_STAT_SUSP then { s.lower FLC_STAT_SUSP with flc := { s.flc with resumedAt := s.tb } } else s
  let s := State.setMode { s with sys := { s.sys with ddrTrained := false } } .quench
  let s := (s.setCore (.ctl 0) { coreAtReset with pc := Config.quenchEntry }).fset (SYS_CORE_CTRL_STATE 0) 1
  s.lastFault

/-- A boot step has failed: the last fault record is written, core 0 halts (13 R316). -/
def State.bootHalt (s : State) : State :=
  let c := s.core (.ctl 0)
  let s := s.setCore (.ctl 0) { c with estat := c.estat &&& ~~~0x1000#64 }
  (s.stopCore 0).lastFault

/-- Boot step `step` fails: ERR is set and STEP stays at it (13 R316). -/
def State.bootFails (s : State) (step : Nat) : State :=
  ((s.fset SYS_BOOTSTAT_STEP step).fset SYS_BOOTSTAT_ERR step).bootHalt

/-- A boot step has failed, and BOOT lasts until a reset or a loss of power (13 R316). -/
def State.bootFailed (s : State) : Bool := decide (s.sys.mode = .boot) && decide (s.fget SYS_BOOTSTAT_ERR ≠ 0)

/-- BOOT, and no step has failed (13 R316). -/
def State.bootRuns (s : State) : Bool := decide (s.sys.mode = .boot) && decide (s.fget SYS_BOOTSTAT_ERR = 0)

/-- Kindling finds a QUENCH condition (13 R318). -/
def State.quenchDue (s : State) : Bool :=
  s.on SYS_BOOTTAMP_CELL_ALARM || s.on SYS_BOOTTAMP_SNUFF ||
    ((decide (s.sys.lc = .provisioned) || decide (s.sys.lc = .field)) && !s.on SYS_BOOTTAMP_BMK_VALID)

/-- The blocks whose erase BOOT has to complete (14 R341). -/
def State.flagged (s : State) : List Nat := (s.flc.flags.filter (·.2)).map (·.1)

/-- The work of boot step `n` is done (13 Table 13.4): no QUENCH condition holds, no flag cell is set, the random number
source is ready; the work of the steps that an event or a write ends is recorded. Step 0x01 is the reset release. -/
def State.stepDone (s : State) (n : Nat) : Bool :=
  match n with
  | 0 | 1 => true
  | 2 => !s.quenchDue
  | 3 => s.flagged.isEmpty
  | 6 => s.on RNG_STAT_READY
  | n => s.sys.stepsDone.getLsbD n

/-- The work of boot step `n` is done now. -/
def State.stepEnds (s : State) (n : Nat) : State :=
  { s with sys := { s.sys with stepsDone := s.sys.stepsDone ||| (1#16 <<< n) } }

/-- Boot step `n` may take place: BOOT runs its steps in order (13 R315), so the work of every step before it is done and
its own is not. -/
def State.bootStep (s : State) (n : Nat) : Bool :=
  s.bootRuns && decide (s.fget SYS_BOOTSTAT_STEP ≤ n) && (List.range n).all s.stepDone && !s.sys.stepsDone.getLsbD n

end Sys2Proof.Machine
end

