-- ==== Sys2Proof/Machine/Tmp.lean ====
section
/-!
DEFINITION. Machine/Tmp.lean: the commands of the tamper monitors (15 R351-R358): alarms, the sticky record, source
configuration, built-in stimulation, the time-stamp counter, arming, and a cold start of the backup domain (15 R347).
-/

namespace Sys2Proof.Machine

/-- TAMPER_ALARM (15 R355). -/
def execTamperAlarm (dt : Nat) (srcs : List (Fin 28)) (s : State) : Out :=
  timed dt (fun _ => true) s (fun s => s.causesRise (srcs.map Fin.val))

/-- TAMPER_CAUSE_FALL (15 R353). -/
def execTamperCauseFall (dt : Nat) (src : Fin 28) (s : State) : Out :=
  timed dt (fun s => s.tmpLive src) s (fun s => s.causeFalls src)

/-- The monitors of the main rails disarm: their causes read 0 (15 R352). -/
def State.disarm (s : State) : State :=
  let s := ((List.range 14).filter tmpRail).foldl (fun s n => s.tmpCause n false) s
  { s with sys := { s.sys with armed := false } }

/-- TAMPER_MONITOR_ARM: 1 ms after PWR_GOOD rose (15 R352). -/
def execTamperMonitorArm (dt : Nat) (s : State) : Out :=
  timed dt (fun s => s.sys.pwrGood && s.sys.mainEn && !s.sys.armed && decide (s.sys.pwrGoodAt + 1000000 ≤ s.clock)) s
    (fun s => { s with sys := { s.sys with armed := true } })

/-- A write of TMP_STKY_CLR (15 R357). -/
def State.stkyClear (s : State) (cust : Bool) (v : Word32) : State :=
  let ok := decide (s.sys.mode = .custody) && cust
  let want := (List.range 32).filter fun n => v.getLsbD n && s.on (bitFld TMP_STKY n)
  let free := want.filter fun n => ok && !s.on (bitFld TMP_CAUSE n)
  let s := free.foldl (fun s n => s.lower (bitFld TMP_STKY n)) s
  let s := if free.length < want.length then s.raise TMP_EVT_CLR_REJ else s
  if s.rd TMP_STKY = 0 then (s.lower TMP_FIRST_VALID).lower TMP_FIRST_MULTI else s

/-- The samples of a pin after a write of its configuration: its cause follows its level under the new POL (15 R353; log
entry 145). -/
def State.pinJudged (s : State) (n : Nat) : State :=
  if n < 24 then s
  else if s.pinActive n then s.causesRise [n]
  else if s.on (bitFld TMP_CAUSE n) then s.causeFalls n
  else s

/-- A write of TMP_SRCCFGn (15 R354): only in CUSTODY with CUST, and from PROVISIONED on only tighter. -/
def State.srccfg (s : State) (cust : Bool) (n : Nat) (v : Word32) : State :=
  let new := v.toNat % 256 - v.toNat / 4 % 2 * 4
  let new := if n < 24 then new % 4 else new
  let deb := max 1 (new / 16)
  let locked := decide (s.sys.lc = .provisioned) || decide (s.sys.lc = .field)
  let loosens := (s.on (TMP_SRCCFG_EN n) && decide (new % 2 = 0)) || (s.on (TMP_SRCCFG_ERASE n) && decide (new / 2 % 2 = 0)) ||
    (decide (24 ≤ n) && (decide (max 1 (s.fget (TMP_SRCCFG_DEB n)) < deb) || decide (s.fget (TMP_SRCCFG_POL n) ≠ new / 8 % 2)))
  if decide (s.sys.mode = .custody) && cust && !(locked && loosens) then
    (s.wr (TMP_SRCCFG n) (BitVec.ofNat 64 new)).pinJudged n
  else s.raise TMP_EVT_CFG_REJ

/-- A write of TMP_TSCSET (15 R349). -/
def State.tscSet (s : State) (may : Bool) (v : Word) : State :=
  if (s.sys.mode = .boot ∨ s.sys.mode = .custody) ∧ may then { s.wr TMP_TSC v with tscRem := 0 }
  else s.raise TMP_EVT_CFG_REJ

/-- A write of TMP_BIST (15 R358): a test starts, or SRC alone is set. While a source is under test, its detector's output
goes to TMP_BIST alone, so its cause reads 0. -/
def State.bist (s : State) (may : Bool) (v : Word32) : State :=
  if v.getLsbD 31 then
    if may && (decide (s.sys.mode = .boot) || decide (s.sys.mode = .custody)) && !s.on TMP_BIST_BUSY && tmpListed (v.toNat % 32) then
      let n := v.toNat % 32
      let s := { s with sys := { s.sys with testInput := s.on (bitFld TMP_CAUSE n) } }
      (s.wr TMP_BIST (BitVec.ofNat 64 (2 ^ 30 + n))).tmpCause n false
    else s.raise TMP_EVT_CFG_REJ
  else if s.on TMP_BIST_BUSY then s
  else s.fset TMP_BIST_SRC v.toNat

/-- TAMPER_BIST_DONE (15 R358): the real input is evaluated again, and where its cause is present the source alarms. -/
def execTamperBistDone (dt : Nat) (pass : Bool) (s : State) : Out :=
  timed dt (fun s => s.on TMP_BIST_BUSY) s (fun s =>
    (((s.put TMP_BIST_PASS pass).put TMP_BIST_FAIL !pass).raise TMP_EVT_BIST_DONE).testEnds)

/-- The backup registers at their cold values. -/
def backupResetRegs : Sparse Word := resetRegs.filter fun e => inBackup e.1

/-- Every backup register takes its cold value, the operational roster is gone, and the samplers and detectors begin
anew (15 R346, R347). -/
def State.backupCold (s : State) : State :=
  { s with
    regs := backupResetRegs.foldl (fun m (e : Nat × Word) => sput 0 m e.1 e.2)
      (s.regs.filter fun (e : Nat × Word) => !inBackup e.1)
    crd := { s.crd with roster := [], rosterM := 0 }
    sys := { s.sys with pins := 0xF, pinRun := [], firstAt := none, coldAt := some s.clock }
    tscRem := 0 }

/-- BACKUP_COLD_START (15 R347): VBAT and VDD_AON were absent together, which only CELL allows; with the backup registers
the BMK is gone. -/
def execBackupColdStart (dt : Nat) (s : State) : Out :=
  timed dt (fun s => decide (s.sys.mode = .cell)) s (fun s => s.eraseBmk.backupCold.raise TMP_STAT_BKUP_COLD)

end Sys2Proof.Machine
end

