-- ==== Sys2Proof/Machine/Wck.lean ====
section
/-!
DEFINITION. Machine/Wck.lean: Wick (15 R359-R367): the sample frame and the rule filter, the four actions, the control
of its core, its private memory as control firmware loads it, and the watchdog.
-/

namespace Sys2Proof.Machine

/-! ### Actions (15 R363) -/

/-- The actions a rule or a write of WCK_ACT asks for (15 Table 15.7). -/
structure WckActions where
  wake : Bool
  promote : Bool
  alarm : Bool
  snuff : Bool
  deriving DecidableEq, Repr

/-- Some action is asked for. -/
def WckActions.any (x : WckActions) : Bool := x.wake || x.promote || x.alarm || x.snuff

/-- The record of an action taken in STANDBY (15 R363, R367): the first one names its source. -/
def State.wckAlm (s : State) (core : Bool) (rule : Nat) (x : WckActions) : State :=
  let s := if s.on WCK_ALM_VALID then s
    else ((s.raise WCK_ALM_VALID).put WCK_ALM_CORE core).fset WCK_ALM_RULE (if core then 0 else rule)
  let s := if x.wake then s.raise WCK_ALM_WAKE else s
  let s := if x.promote then s.raise WCK_ALM_PROMOTE else s
  let s := if x.alarm then s.raise WCK_ALM_ALARM else s
  if x.snuff then s.raise WCK_ALM_SNUFF else s

/-- Take actions, by WCK_ACT or by rule `rule` (15 Table 15.7, 13 Table 13.2). -/
def State.wckTake (s : State) (core : Bool) (rule : Nat) (x : WckActions) : State :=
  if !x.any then s
  else
    let s := s.raise WCK_EVT_ACTION
    if s.sys.mode = .standby then
      let s := s.wckAlm core rule x
      let s := if x.snuff then s.eraseBmk.raise SYS_BOOTTAMP_SNUFF else s
      if x.wake || x.promote || x.snuff then { s with sys := { s.sys with mainEn := true } } else s
    else
      let s := if x.alarm then s.signal 49 0 else s
      if x.snuff then s.signal 50 0 else s

/-- A write of WCK_ACT: Wick's core alone (15 R367). -/
def State.wckAct (s : State) (wick : Bool) (v : Word32) : State :=
  if wick then s.wckTake true 0 { wake := v.getLsbD 0, promote := v.getLsbD 1, alarm := v.getLsbD 2, snuff := v.getLsbD 3 }
  else s

/-! ### The rule filter (15 R361) -/

/-- What one frame brings to the rules: the sticky rises, the lease frames, the values. -/
structure WckSample where
  rises : Word32
  leases : List Nat
  frame : SensorFrame
  silence : Nat

/-- The comparison of a value input. -/
def wckCompare (cmp : Nat) (v t : Int) : Bool := (decide (cmp = 0) && decide (t ≤ v)) || (decide (cmp = 1) && decide (v ≤ t))

/-- The condition of rule `n` holds in the frame (15 Table 15.5). -/
def State.wckHolds (s : State) (n : Nat) (x : WckSample) : Bool :=
  let t := s.fget (WCK_RULE_A_THRESH n)
  let cmp := s.fget (WCK_RULE_A_CMP n)
  match s.fget (WCK_RULE_A_INPUT n) with
  | 0 => x.rises.getLsbD (s.fget (WCK_RULE_A_BIT n))
  | 1 => (List.range 28).any fun k => x.rises.getLsbD k && s.on (TMP_SRCCFG_ERASE k)
  | 2 => decide (x.rises ≠ 0)
  | 3 => wckCompare cmp x.frame.hot.toInt (BitVec.ofNat 16 t).toInt
  | 4 => wckCompare cmp x.frame.cold.toInt (BitVec.ofNat 16 t).toInt
  | 5 => wckCompare cmp x.frame.vbat.toNat t
  | 6 => wckCompare cmp x.frame.vaon.toNat t
  | 7 => x.leases.contains (t % 16)
  | 8 => wckCompare cmp x.silence t
  | _ => false

/-- The state of rule `n`. -/
def State.wckRule (s : State) (n : Nat) : RuleState := sget {} s.wck.rules n
/-- Replace the state of rule `n`. -/
def State.setWckRule (s : State) (n : Nat) (r : RuleState) : State :=
  { s with wck := { s.wck with rules := sput {} s.wck.rules n r } }

/-- The actions of rule `n`. -/
def State.ruleActions (s : State) (n : Nat) : WckActions :=
  { wake := s.on (WCK_RULE_B_WAKE n), promote := s.on (WCK_RULE_B_PROMOTE n), alarm := s.on (WCK_RULE_B_ALARM n),
    snuff := s.on (WCK_RULE_B_SNUFF n) }

/-- Rule `n` on one frame: its hits within the window, its firing, its re-arming. -/
def State.wckRuleStep (s : State) (x : WckSample) (n : Nat) : State :=
  if !s.on (WCK_RULE_A_EN n) then s.setWckRule n {}
  else
    let r := s.wckRule n
    let now := s.wck.frameNo
    if s.wckHolds n x then
      let hits := now :: r.hits
      let hits := hits.filter fun f => decide (now < f + s.fget (WCK_RULE_B_W_US n))
      let need := s.fget (WCK_RULE_B_N n)
      if r.armed ∧ need ≠ 0 ∧ need ≤ hits.length then
        let s := s.setWckRule n { hits := [], armed := false }
        let s := if s.on (WCK_RULE_B_IRQ n) then s.raise (bitFld WCK_WRULE n) else s
        s.wckTake false n (s.ruleActions n)
      else s.setWckRule n { r with hits := hits }
    else s.setWckRule n { hits := r.hits.filter fun f => decide (now < f + s.fget (WCK_RULE_B_W_US n)), armed := true }

/-- The sample frame (15 R360): the frame registers, FRAME of WCK_WIRQ, then every rule. -/
def State.wickFrame (s : State) (f : SensorFrame) : State :=
  let silence := if s.wck.leases.isEmpty then min (s.fget ⟨WCK_FRAME 3, 0, 20⟩ + 1) 0xFFFFF else 0
  let kind := (s.wck.leases.getLast?).getD (s.fget ⟨WCK_FRAME 3, 28, 4⟩)
  let x : WckSample := { rises := s.wck.rises, leases := s.wck.leases, frame := f, silence := silence }
  let s := s.wr (WCK_FRAME 0) ((s.rd TMP_CAUSE).setWidth 32 |>.setWidth 64)
  let s := s.wr (WCK_FRAME 1) (BitVec.ofNat 64 (f.hot.toNat * 2 ^ 16 + f.cold.toNat))
  let s := s.wr (WCK_FRAME 2) (BitVec.ofNat 64 (f.vaon.toNat * 2 ^ 16 + f.vbat.toNat))
  let s := s.wr (WCK_FRAME 3) (BitVec.ofNat 64 (kind * 2 ^ 28 + silence))
  let s := { s.raise WCK_WIRQ_FRAME with wck := { s.wck with frameNo := s.wck.frameNo + 1, rises := 0, leases := [] } }
  (List.range 32).foldl (fun s n => s.wckRuleStep x n) s

/-- WICK_FRAME (15 R360). -/
def execWickFrame (dt : Nat) (f : SensorFrame) (s : State) : Out :=
  timed dt State.aon s (fun s => s.wickFrame f)

/-! ### The core (15 R364) -/

/-- The start of Wick's core. -/
def State.wickStart (s : State) : State :=
  let all : BitVec 48 := 0x10000
  let c1 : Cap := { tag := true, perms := 0x1B, base := 0, top := all }
  let c2 : Cap := { tag := true, perms := 3, base := 0x40B00000, top := 0x40D00000 }
  let pcc : Cap := { tag := true, perms := 0x2085, base := 0, top := all }
  let s := s.setCore .wick { c := [(1, c1), (2, c2)], pcc := pcc }
  { s.fset WCK_STAT_STATE 1 with wck := { s.wck with kicked := s.clock } }

/-- A write of WCK_CTRL (15 R364, R367): RLOCK only sets, RUN starts the core unless it runs, HALT stops it. -/
def State.wckCtrl (s : State) (v : Word32) : State :=
  let s := if v.getLsbD 2 then s.raise WCK_CTRL_RLOCK else s
  let s := if v.getLsbD 0 ∧ s.fget WCK_STAT_STATE ≠ 1 then s.wickStart else s
  if v.getLsbD 1 then s.fset WCK_STAT_STATE 0 else s

/-- The load address moves on by one word (15 R367). -/
def State.ldNext (s : State) : State := s.fset WCK_LDADDR_WORD (s.fget WCK_LDADDR_WORD + 1)

/-- A write of WCK_LDDATA (15 R364): one word, whose granule loses its tag. -/
def State.ldWrite (s : State) (v : Word32) : State :=
  if s.fget WCK_STAT_STATE = 1 then s.raise WCK_EVT_LOAD_REJ
  else
    let a := 4 * s.fget WCK_LDADDR_WORD
    { s with wck := { s.wck with mem := prvWrite s.wck.mem a (leBytes 4 v.toNat), tags := tagPut s.wck.tags a false },
             damaged := healed s.damaged .wick a 4 }.ldNext

/-- The word that WCK_LDDATA shows. -/
def State.ldWord (s : State) : Word := BitVec.ofNat 64 (leNat (prvRead s.wck.mem (4 * s.fget WCK_LDADDR_WORD) 4))

/-- A read of WCK_LDDATA moves the address on; a word with a double-bit error gives no data (01 R15). -/
def State.ldRead (s : State) : Ans Unit :=
  if s.damagedAt .wick (4 * s.fget WCK_LDADDR_WORD) 4 then (.error .ecc, s.ldNext.signal 60 0) else (.ok (), s.ldNext)

/-- A write of WCK_WDOG (15 R365, R367): KICK by Wick's core alone, the period by a control core until RLOCK. -/
def State.wckWdog (s : State) (wick : Bool) (v : Word32) : State :=
  if wick then (if v.getLsbD 31 then { s with wck := { s.wck with kicked := s.clock } } else s)
  else if s.on WCK_CTRL_RLOCK then s
  else { s.fset WCK_WDOG_PERIOD_US v.toNat with wck := { s.wck with kicked := s.clock } }

/-- A write of WCK_RULEn_A or WCK_RULEn_B by a control core (15 R362). -/
def State.wckRuleWrite (s : State) (n : Nat) (b : Bool) (v : Word32) : State :=
  if n ≤ 1 then s
  else if n ≤ 7 then (if b then s else s.put (WCK_RULE_A_EN n) (v.getLsbD 31))
  else if s.on WCK_CTRL_RLOCK then s
  else if b then s.wr (WCK_RULE_B n) (BitVec.ofNat 64 (v.toNat &&& 0xF8FFFFFF))
  else s.wr (WCK_RULE_A n) (BitVec.ofNat 64 (v.toNat &&& 0x8FFFFFFF))

/-- Wick's core stops with `state` and its event bit; outside STANDBY its fault source signals (15 R365). -/
def State.wickStops (s : State) (state : Nat) (evt : Fld) : State :=
  let s := (s.fset WCK_STAT_STATE state).raise evt
  if s.sys.mode = .standby then s else s.signal 48 0

/-- WICK_WATCHDOG_EXPIRY (15 R365). -/
def execWickWatchdogExpiry (dt : Nat) (s : State) : Out :=
  timed dt (fun s => s.aon && decide (s.fget WCK_STAT_STATE = 1) && decide (s.fget WCK_WDOG_PERIOD_US ≠ 0) &&
      decide (s.wck.kicked + 1000 * s.fget WCK_WDOG_PERIOD_US ≤ s.clock)) s
    (fun s => s.wickStops 3 WCK_EVT_WDOG)

/-- A register of Wick's block. -/
def inWckBlock (a : Nat) : Bool := decide (0x40C00000 ≤ a) && decide (a < 0x40D00000)

/-- Wick's registers as its reset leaves them. -/
def wckResetRegs : Sparse Word := resetRegs.filter fun e => inWckBlock e.1

/-- The rise of VDD_AON resets Wick (15 R359). -/
def State.wickReset (s : State) : State :=
  { s with
    regs := wckResetRegs.foldl (fun m (e : Nat × Word) => sput 0 m e.1 e.2) (s.regs.filter fun e => !inWckBlock e.1)
    cores := s.cores.filter fun e => decide (e.1 ≠ 16)
    damaged := s.damaged.filter fun e => !(decide (e.1 / 2 ^ 48 = 2) || decide (e.1 / 2 ^ 48 = 5))
    wck := {} }

end Sys2Proof.Machine
end

