-- ==== Sys2Proof/Machine/Flt.lean ====
section
/-! DEFINITION. Machine/Flt.lean: the fault collector (16): events and windows (16 R370), reaction rounds (16
R372-R375), the start of core 0 in the safe state (16 R373), leaving the fault state (16 R376), injection (16 R377),
configuration (16 R378) and the sticky bits (16 R380). -/

namespace Sys2Proof.Machine

/-! ### Events (16 R370) -/

/-- The codeword under key `k` holds a double-bit error. -/
def State.damage (s : State) (k : Nat) : State := { s with damaged := sput false s.damaged k true }

/-- What the unit that owns source `n` records with an event that only the collector's row reports, for an error in the
word at offset `a` of its memory: a word or a tag with a double-bit error stays so until it is written anew (01 R15, 05
R146). An address in Wick's SRAM or in the context store names the tag of that array (04 R109); in the key cache it
names the key slot. -/
def State.ownRecord (s : State) (n a : Nat) : State :=
  let flash := 0x10000000 + a % 0x10000000
  if n = 52 then s.damage (damKey .bus (0x20000000 + a % 0x2000000))
  else if n = 54 then s.damage (slotKey (a % 65536))
  else if n = 56 then s.damage (damKey .ctx a)
  else if n = 58 then s.damage (tagKey (if a < 0x10000 then .wick else if inCtxStore a then .ctx else .bus) a)
  else if n = 60 then s.damage (damKey .wick a)
  else if n = 74 then s.raise KST_EVT_ECC
  else if n = 77 then s.flcEcc false flash
  else if n = 78 then (s.damage (damKey .bus flash)).flcEcc true flash
  else if n = 94 ∨ n = 95 then s.damage (damKey .bus (0x100000000 + a))
  else s

/-- FAULT_EVENT (16 R370): an event of a source with the unit it carries; for an error in a memory, of the word it
names (log entry 118). -/
def execFaultEvent (dt : Nat) (src : Fin 128) (e : FaultAt) (s : State) : Out :=
  timed dt (fun s => s.powered && fltListed src) s (fun s =>
    (s.ownRecord src e.addr.toNat).fault src (if fltUnitSource src then e.unit.toNat else 0) false)

/-- FAULT_WINDOW_EXPIRY (16 R370). -/
def execFaultWindowExpiry (dt : Nat) (src : Fin 128) (s : State) : Out :=
  timed dt (fun s => s.powered && s.windowOver src) s (fun s => s.closeWindow src)

/-! ### Reactions (16 R372-R375) -/

/-- The reaction of source `n` (16 Table 16.2). -/
def State.reactOf (s : State) (n : Nat) : Nat := s.fget (FLT_CFG_REACT n)

/-- The strongest reaction of sources. -/
def State.strongest (s : State) (xs : List RoundSrc) : Nat := xs.foldl (fun m (x : RoundSrc) => max m (s.reactOf x.src)) 0

/-- The unit of an event is retired: CPH and MAU unit sources (16 Table 16.2). -/
def State.retireUnit (s : State) (n unit : Nat) : State :=
  if n = 64 ∨ n = 65 then (if unit < 18 then s.cphRetireUnit unit else s)
  else if 66 ≤ n ∧ n ≤ 68 then (if unit < 136 then s.mauRetireUnit unit else s)
  else s

/-- The source whose event arrived first; of one instant, the lowest number (16 R375). -/
def firstSrc : List RoundSrc → Option RoundSrc
  | [] => none
  | x :: t => match firstSrc t with
    | none => some x
    | some y => if y.time < x.time ∨ (y.time = x.time ∧ y.src < x.src) then some y else some x

/-- FLT_FIRST and FLT_FIRST_TS (16 R375). -/
def State.recordFirst (s : State) (xs : List RoundSrc) (r : Nat) : State :=
  match firstSrc xs with
  | none => s
  | some x =>
    if s.on FLT_FIRST_VALID then s
    else
      let multi := xs.any fun y => decide (y.src ≠ x.src)
      (s.wr FLT_FIRST (BitVec.ofNat 64 (2 ^ 31 + (if multi then 2 ^ 30 else 0) + (if x.forced then 2 ^ 29 else 0) +
        r * 2 ^ 24 + x.unit % 256 * 2 ^ 16 + x.src))).wr FLT_FIRST_TS (BitVec.ofNat 64 x.time)

/-- ISOLATE: the safe state, unless it holds already (16 R372, R373). -/
def State.isolate (s : State) : State :=
  if s.on FLT_STAT_ISOLATED ∨ s.sys.mode = .quench then s
  else { s.safeState.raise FLT_STAT_ISOLATED with flt := { s.safeState.flt with startCore0 := true } }

/-- SNUFF: the safe state, then QUENCH entry where 13 Table 13.2 has a row for it. -/
def State.snuff (s : State) : State :=
  let s := s.raise FLT_STAT_SNUFFED
  if s.sys.mode = .quench then s
  else { s.quenchEntry true with flt := { (s.quenchEntry true).flt with startCore0 := false } }

/-- A round runs the strongest reaction of its sources once; the unit of a RETIRE source is retired in any case
(16 R374). -/
def State.runRound (s : State) (xs : List RoundSrc) : State :=
  let r := s.strongest xs
  let s := (s.raise FLT_EVT_ROUND).recordFirst xs r
  let s := if r = 3 then s.snuff else if r = 2 then s.isolate else s
  let s := if r = 3 then xs.foldl (fun s (x : RoundSrc) => { s with flt := { s.flt with bySnuff := s.flt.bySnuff ||| (1#128 <<< x.src) } }) s else s
  xs.foldl (fun s (x : RoundSrc) => if s.reactOf x.src = 1 then s.retireUnit x.src x.unit else s) s

/-- The sources that became severe after the 50 ns: up to the first stronger one, only a RETIRE source beside a RETIRE
round still reacts; a stronger one begins a new round (16 R374). -/
def State.lateSources (s : State) (r : Nat) (late : List RoundSrc) : State :=
  let weak := late.takeWhile fun x => decide (s.reactOf x.src ≤ r)
  let s' := weak.foldl (fun s (x : RoundSrc) => if s.reactOf x.src = 1 ∧ r = 1 then s.retireUnit x.src x.unit else s) s
  match late.dropWhile fun x => decide (s.reactOf x.src ≤ r) with
  | [] => s'
  | x :: rest => { s' with flt := { s'.flt with round := some { start := x.time, srcs := x :: rest } } }

/-- The further events of severe RETIRE sources, then the round under way (16 R372, R374). -/
def State.reactionRound (s : State) : State :=
  let again := s.flt.again
  let s := again.foldl (fun s (x : Nat × Nat) => s.retireUnit x.1 x.2) { s with flt := { s.flt with again := [] } }
  match s.flt.round with
  | none => s
  | some r =>
    let early := r.srcs.filter fun x => decide (x.time ≤ r.start + 50)
    let late := r.srcs.filter fun x => decide (r.start + 50 < x.time)
    let k := s.strongest early
    (State.runRound { s with flt := { s.flt with round := none } } early).lateSources k late

/-- REACTION_ROUND (16 R374). -/
def execReactionRound (dt : Nat) (s : State) : Out :=
  timed dt (fun s => s.powered && (match s.flt.round with
    | some r => s.passed r.start 50
    | none => !s.flt.again.isEmpty)) s State.reactionRound

/-- ISOLATE_CORE_START (16 R373): core 0 starts from FLT_ISOSBLK, or stays STOPPED; a start block that the flash array
holds up is read later (14 R337). -/
def execIsolateCoreStart (dt : Nat) (s : State) : Out :=
  timed dt (fun s => s.powered && s.flt.startCore0 && !s.bootFailed) s (fun s =>
    let t := { s with flt := { s.flt with startCore0 := false } }
    let a := (s.rd FLT_ISOSBLK).toNat
    if a = 0 then t
    else match t.startFrom 0 0 a with
      | (.error .wait, u) => { u with flt := { u.flt with startCore0 := true } }
      | (_, u) => u)

/-! ### Leaving the fault state (16 R376, R380) -/

/-- Some source whose own REACT is ISOLATE is severe. -/
def State.isolateHeld (s : State) : Bool := (List.range 128).any fun n => s.on (sevFld n) && decide (s.reactOf n = 2)

/-- ISOLATED clears when no such source remains severe, and the safe state ends with it, but not in QUENCH. -/
def State.isolationEnds (s : State) : State :=
  if s.on FLT_STAT_ISOLATED ∧ !s.isolateHeld then
    let s := s.lower FLT_STAT_ISOLATED
    if s.sys.mode = .quench then s else s.lower FLT_STAT_SAFE
  else s

/-- The bits of a written word as source numbers of bitmap register `k`. -/
def fltBits (k : Nat) (v : Word32) : List Nat := ((List.range 32).filter v.getLsbD).map fun i => 32 * k + i

/-- A write of FLT_SEVk (16 R376). -/
def State.severeClear (s : State) (k : Nat) (v : Word32) : State :=
  ((fltBits k v).foldl (fun s (n : Nat) =>
    if s.on (causeFld n) || s.flt.bySnuff.getLsbD n then s.raise FLT_EVT_CLR_REJ
    else (s.lower (sevFld n)).closeWindow n) s).isolationEnds

/-- A write of FLT_STKYCLRk (16 R380). -/
def State.stickyClear (s : State) (cust : Bool) (k : Nat) (v : Word32) : State :=
  if v = 0 then s
  else if s.sys.mode = .custody ∧ cust then (fltBits k v).foldl (fun s (n : Nat) => s.lower (stkyFld n)) s
  else s.raise FLT_EVT_CLR_REJ

/-! ### Injection and configuration (16 R377, R378) -/

/-- A write of FLT_FORCEk (16 R377). -/
def State.faultForce (s : State) (cust : Bool) (k : Nat) (v : Word32) : State :=
  (fltBits k v).foldl (fun s (n : Nat) =>
    if !fltListed n then s
    else if 2 ≤ s.reactOf n ∧ !(decide (s.sys.mode = .custody) && cust) then s.raise FLT_EVT_FORCE_REJ
    else s.fault n (if fltUnitSource n then s.fget FLT_FORCE_UNIT_UNIT else 0) true) s

/-- The bits of FLT_CFGn that are fixed (16 Table 16.1). -/
def fltFixed (n : Nat) : Nat :=
  if 32 ≤ n ∧ n ≤ 47 then 0xFF0000
  else if n = 50 then 0x3FFFFFF
  else if n = 83 then 0x3000000
  else 0

/-- A longer window is stronger, and 0 is the longest. -/
def shorterWindow (new old : Nat) : Bool := decide (new ≠ 0) && (decide (old = 0) || decide (new < old))

/-- A count never exceeds N (16 R370). -/
def State.capCount (s : State) (n : Nat) : State := s.fset (FLT_CNT_CNT n) (min (s.fltN n) (s.fget (FLT_CNT_CNT n)))

/-- A write of FLT_CFGn (16 R378). -/
def State.faultConfig (s : State) (n : Nat) (v : Word32) : State :=
  if !fltListed n then s
  else
    let old := (s.rd (FLT_CFG n)).toNat
    let new := v.toNat &&& 0x3FFFFFF
    let s' := s.wr (FLT_CFG n) (BitVec.ofNat 64 (old &&& 0x80000000 ||| new))
    let locked := decide (s.sys.lc = .provisioned) || decide (s.sys.lc = .field)
    let loosens := decide (s'.reactOf n < s.reactOf n) || decide (s.fltN n < s'.fltN n) ||
      shorterWindow (s'.fltWindow n) (s.fltWindow n)
    if old &&& fltFixed n ≠ new &&& fltFixed n ∨ s.on (sevFld n) ∨ (locked && loosens) then s.raise FLT_EVT_CFG_REJ
    else s'.capCount n

end Sys2Proof.Machine
end

