-- ==== Sys2Proof/Machine/Sys.lean ====
section
/-!
DEFINITION. Machine/Sys.lean: modes and start-up (13): supplies and resets (13 R312), mode requests (13 R313), the boot
steps that change what the block shows (13 R315-R318), the lifecycle (13 R320), re-provisioning (13 R322), the control cores
(13 R323, R324), timers and doorbells (13 R326), and a phase step of the timebase (01 R13).
-/

namespace Sys2Proof.Machine

/-! ### Supplies and resets (13 Table 13.2) -/

/-- The always-on domain is without power. -/
def State.aonGone (s : State) : State :=
  { s with
    sys := { s.sys with mainEn := false, pwrGood := false }
    cores := []
    wck := {}
    obs := {} }

/-- VDD_AON is lost: every domain but the backup domain loses power, the tag's unless a field feeds it (18 R407). Sources
that are not live in CELL show no cause (15 Table 15.1). -/
def State.aonLost (s : State) : State :=
  let s := (((s.setMode .cell).disarm.deadCauses).resetCore .aon).aonGone
  if s.tag.field then s else s.tagPowerDown

/-- VDD_AON_LOST (13 R312). -/
def execVddAonLost (dt : Nat) (s : State) : Out := timed dt State.aon s State.aonLost

/-- VDD_AON is good: Wick starts from reset, and MAIN_EN follows STBY_ON_POWER. -/
def State.aonGood (s : State) : State :=
  let s := (s.setMode .standby).wickReset
  { s with sys := { s.sys with firstPower := true, mainEn := !s.on SYS_WAKECFG_STBY_ON_POWER } }

/-- VDD_AON_GOOD (13 R312). -/
def execVddAonGood (dt : Nat) (s : State) : Out := timed dt (fun s => !s.aon) s State.aonGood

/-- PWR_GOOD_RISE (13 R312): the reset release, whose cause is the first since VDD_AON came up or not. -/
def execPwrGoodRise (dt : Nat) (s : State) : Out :=
  timed dt (fun s => decide (s.sys.mode = .standby) && s.sys.mainEn && !s.sys.pwrGood) s (fun s =>
    let first := s.sys.firstPower
    State.enterBoot { s with sys := { s.sys with firstPower := false, pwrGood := true, pwrGoodAt := s.clock } }
      (if first then .por else .pwrgood))

/-- PWR_GOOD_FALL (13 R312): every unit outside the always-on and backup domains is reset. -/
def execPwrGoodFall (dt : Nat) (s : State) : Out :=
  timed dt (fun s => s.aon && s.sys.pwrGood) s (fun s =>
    let s := ((s.setMode .standby).disarm).resetCore .power
    { s with sys := { s.sys with pwrGood := false } })

/-- RESET_PIN (13 R312). -/
def execResetPin (dt : Nat) (s : State) : Out := timed dt State.powered s (fun s => s.resetDevice .pin)

/-- A write of SYS_RST: the key and GO reset the device (13 R326). -/
def State.sysRst (s : State) (v : Word32) : State :=
  if v.toNat / 65536 = 0xD1A5 ∧ v.getLsbD 0 then s.resetDevice .sw else s

/-! ### Mode requests (13 R313) -/

/-- The first condition of 13 Table 13.3 that a request for `t` fails. -/
def State.modeRefused (s : State) (t : Nat) : Option Nat :=
  let lc := s.sys.lc
  let m := s.sys.mode
  if t = 3 then
    if m ≠ .boot ∧ m ≠ .custody then some 8
    else if lc = .blank ∨ lc = .returned then some 1
    else if !s.on RNG_STAT_READY then some 2
    else if !s.on KST_STAT_MOUNTED then some 3
    else if s.fget ADM_EPOCH_NUM = 0 ∨ s.fget DSP_EPOCH_NUM = 0 then some 4
    else none
  else if t = 4 then
    if m ≠ .boot ∧ m ≠ .service then some 8
    else if lc = .blank then some 1
    else none
  else if t = 2 then
    if m ≠ .boot ∧ m ≠ .service ∧ m ≠ .custody then some 8
    else if s.on SVC_CTRL_EN || !s.live.isEmpty then some 5
    else if s.fget DUO_STAT_ROLE ≠ 0 then some 6
    else if s.on FLC_STAT_BUSY || s.on FLC_STAT_SUSP then some 7
    else none
  else some 8

/-- Control core `n` stands at a boundary at which STOP stops it (13 R324): not between a branch and its delay slot, no
hold window open, and no access or entry under way. -/
def State.mayStop (s : State) (n : Fin 16) : Bool :=
  (s.core (.ctl n)).slot.isNone && decide ((s.core (.ctl n)).holdcnt = 0) && !s.stalls (.ctl n) && !s.entering n

/-- A running core is asked to stop. -/
def State.askStop (s : State) (n : Fin 16) : State :=
  if s.fget (SYS_CORE_CTRL_STATE n) = 1 then s.stopAsked n true else s

/-- Every control core stops as STOP does: at once, or at its next permitted boundary (13 R324). -/
def State.stopAll (s : State) : State :=
  (List.finRange 16).foldl (fun s n => if s.mayStop n then s.stopCore n else s.askStop n) s

/-- STANDBY is accepted: every control core stops as STOP does, its stores completing first, and MAIN_EN goes low. -/
def State.toStandby (s : State) : State :=
  let s := s.stopAll
  (State.disarm { s with sys := { s.sys with mainEn := false } }).setMode .standby

/-- A request for the mode with code `t`. -/
def State.modeRequest (s : State) (t : Nat) : State :=
  if (t = 3 ∨ t = 4) ∧ modeCode s.sys.mode = t then s
  else match s.modeRefused t with
    | some r => (s.fset SYS_STAT_REJ r).raise SYS_EVT_REQ_REJ
    | none => if t = 2 then s.toStandby else s.setMode (if t = 3 then .service else .custody)

/-- A write of SYS_MODEREQ; after a failed boot step the device stays in BOOT (13 R316). -/
def State.modeReq (s : State) (v : Word32) : State :=
  if v.getLsbD 31 && !s.bootFailed then s.modeRequest (v.toNat % 8) else s

/-! ### Start-up (13 R315-R318) -/

/-- Boot step `n` is in progress. -/
def State.atStep (s : State) (n : Nat) : State := s.fset SYS_BOOTSTAT_STEP n

/-- A load address, and a body of `len` bytes at it: 4 KiB aligned, in shared SRAM or the DDR core region. -/
def State.loadOk (s : State) (a len : Nat) : Bool :=
  decide (a % 4096 = 0) &&
    ((inSram a && decide (a + len ≤ 0x22000000)) || (s.inDdr a && decide (a + len ≤ 0x100000000 + s.coreBytes)))

/-- Kindling and stage one run on core 0 under the root (05 R146; log entry 57). -/
def kindling : Acc := ⟨.ctl 0, rootCap.perms⟩

/-- The header `h` of 13 Table 13.5, with the padding behind its signatures, is right for `kind`, and its body is no longer
than `maxLen`. -/
def State.headerOk (s : State) (h : List Byte) (kind floor maxLen : Nat) : Bool :=
  decide (leAt h 0 4 = 0x4B494E44) && decide (leAt h 4 1 = kind) && decide (leAt h 5 1 ≤ 3) &&
    decide (floor ≤ leAt h 6 2) && decide (leAt h 8 4 ≤ maxLen) && decide (leAt h 12 4 % 4 = 0) &&
    (if kind = 2 then s.loadOk (leAt h 16 8) (leAt h 8 4) else decide (leAt h 16 8 = 0)) &&
    (slice h 0x18 40).all (fun b => decide (b = 0)) && (slice h 0xD8D 3).all (fun b => decide (b = 0))

/-- The representative μ of a message under a public key of ML-DSA-65, pure and with an empty context (FIPS 204). -/
def dsaMu (pk msg : List Byte) : List Byte := shake256 64 (shake256 64 pk ++ [0, 0] ++ msg)

/-- The two signatures of a message verify over its SHA-384 with the keys of the pair, and the keys hash to the digest that
the OTP region holds for the pair (13 R317, log entry 149). -/
def State.signed (s : State) (keyid : Nat) (msg sigEc sigPq : List Byte) : Bool :=
  let d := sha2Digest 48 msg
  let ec := beBytes 96 (Config.imageEcKey keyid).toNat
  let pq := beBytes 1952 (Config.imagePqKey keyid).toNat
  decide (sha2Digest 48 (ec ++ pq) = s.keyDigest keyid) &&
    p384.on (beAt ec 0 48) (beAt ec 48 48) &&
    p384.verify (beAt ec 0 48) (beAt ec 48 48) (beNat d) (beAt sigEc 0 48) (beAt sigEc 48 48) &&
    (match dsaVerify pq (dsaMu pq d) sigPq with
     | .ok b => b
     | .error _ => false)

/-- The image at flash address `a`, header, signatures and body, where it verifies (13 R317). A read that ends in a bus
error leaves none. -/
def State.image (s : State) (a kind floor maxLen : Nat) : Option (List Byte) × State :=
  match s.pieceRead kindling a 0xD90 with
  | (.error _, s) => (none, s)
  | (.ok h, s) =>
    if !s.headerOk h kind floor maxLen then (none, s)
    else match s.pieceRead kindling a (0xD90 + leAt h 8 4) with
      | (.error _, s) => (none, s)
      | (.ok b, s) =>
        (if s.signed (leAt b 5 1) (b.take 64 ++ b.drop 0xD90) (slice b 0x40 96) (slice b 0xA0 3309) then some b else none, s)

/-- The flash addresses of the stage-one slots and of the firmware slots (14 Table 14.1). -/
def stageSlot (b : Bool) : Nat := if b then 0x10600000 else 0x10100000
def firmwareSlot (b : Bool) : Nat := if b then 0x14D00000 else 0x10B00000

/-- The slot that verifies, with its image: the preferred one first. -/
def State.bootSlot (s : State) (at_ : Bool → Nat) (kind floor maxLen : Nat) : Option (Bool × List Byte) × State :=
  let pref := s.on SYS_WAKECFG_BOOTPREF
  match s.image (at_ pref) kind floor maxLen with
  | (some b, s) => (some (pref, b), s)
  | (none, s) => match s.image (at_ !pref) kind floor maxLen with
    | (some b, s) => (some (!pref, b), s)
    | (none, s) => (none, s)

/-- SYS_BOOTSTAT takes STEP and ERR: DONE at STEP 0x0D with ERR 0; in BOOT an ERR is a failure of the step (13 R315,
R316). -/
def State.putStep (s : State) (step err : Nat) : State :=
  let s := (s.fset SYS_BOOTSTAT_STEP step).fset SYS_BOOTSTAT_ERR err
  if err ≠ 0 then (if s.sys.mode = .boot then s.bootHalt else s)
  else if step = 13 then s.raise SYS_BOOTSTAT_DONE else s

/-- A rule of the access table is written, unlocked: its range, its rights and every master (07 R196). -/
def State.putRule (s : State) (n lo hi rights : Nat) : State :=
  (((s.wr (ACT_RULE_START n) (BitVec.ofNat 64 lo)).wr (ACT_RULE_END n) (BitVec.ofNat 64 hi)).wr (ACT_RULE_ATTR n)
    (BitVec.ofNat 64 (2 ^ 31 + rights))).wr (ACT_RULE_MSET n) 0x7FFFFF

/-- The rules of 19 Table 19.8 in a lifecycle state: number, first and last granule, rights X, W, R. -/
def kindlingRules : Lifecycle → List (Nat × Nat × Nat × Nat)
  | .provisioned => [(1020, 0x40000000, 0x415FFFE0, 3)]
  | .field => [(1020, 0x41100000, 0x412FFFE0, 3)]
  | _ => [(1016, 0, 0xFFE0, 5), (1017, 0x10000000, 0x1FFFFFE0, 5), (1018, 0x20000000, 0x21FFFFE0, 7),
          (1019, 0x100000000, 0x4FFFFFFE0, 7), (1020, 0x40000000, 0x415FFFE0, 3)]

/-- The end of step 0x01: Kindling writes the rules of the lifecycle state and switches them in (19 R426). -/
def State.stepOne (s : State) : State :=
  if s.sys.stepsDone.getLsbD 1 then s
  else
    let s := (kindlingRules s.sys.lc).foldl (fun s (n, lo, hi, r) => s.putRule n lo hi r) s
    s.actSwitched.stepEnds 1

/-- Step 0x05 ends: the stage-one slot that verifies is shown, or the step fails. -/
def State.stageEnds (s : State) (step : Nat) : State :=
  match s.bootSlot stageSlot 1 (s.fget SYS_SVNFLOOR_STAGE1) 0x400000 with
  | (some (b, _), s) => ((s.put SYS_BOOTSTAT_SLOT b).stepEnds 5).putStep step 0
  | (none, s) => s.bootFails 5

/-- Step 0x0A ends: the control firmware of the slot that verifies is copied to its load address, or the step fails. -/
def State.firmwareEnds (s : State) (step : Nat) : State :=
  match s.bootSlot firmwareSlot 2 (s.fget SYS_SVNFLOOR_FW) 0x4000000 with
  | (some (b, img), s) =>
    match s.writeBlock kindling (leAt img 16 8) (img.drop 0xD90) with
    | (.ok _, s) => ((s.put SYS_BOOTSTAT_FWSLOT b).stepEnds 10).putStep step 0
    | (.error _, s) => s.bootFails 10
  | (none, s) => s.bootFails 10

/-- A write of SYS_BOOTSTAT (13 R315). A write that leaves step 0x01, 0x05 or 0x0A in BOOT ends the work of that step (log
entry 57). After a failed step the device stays as it is (13 R316). -/
def State.bootstat (s : State) (v : Word32) : State :=
  let step := v.toNat % 256
  let err := v.toNat / 256 % 256
  let old := s.fget SYS_BOOTSTAT_STEP
  if s.bootFailed then s
  else
    let s := if s.bootRuns ∧ old = 1 ∧ step ≠ 1 then s.stepOne else s
    if err = 0 ∧ old = 5 ∧ step = 6 ∧ s.bootStep 5 then s.stageEnds step
    else if err = 0 ∧ old = 10 ∧ step = 11 ∧ s.bootStep 10 then s.firmwareEnds step
    else s.putStep step err

/-- Core 0 jumps to `a` under the root (DESIGN CHOICE, log entry 57). -/
def State.bootJump (s : State) (a : Nat) : State :=
  s.setCore (.ctl 0) { s.core (.ctl 0) with pcc := rootCap, pc := BitVec.ofNat 48 a, slot := none, shadow := false }

/-- The word of the image header at flash address `a`. -/
def State.headerAt (s : State) (a o n : Nat) : Nat := leNat (memRead s.mem (a + o) n)

/-- Core 0 jumps to stage one in the flash window (13 R315, step 0x05). -/
def State.stageStarts (s : State) (b : Bool) : State :=
  s.bootJump (stageSlot b + 0xD90 + s.headerAt (stageSlot b) 12 4)

/-- Core 0 jumps to the control firmware at its load address (13 R315, step 0x0A). -/
def State.firmwareStarts (s : State) (b : Bool) : State :=
  s.bootJump (s.headerAt (firmwareSlot b) 16 8 + s.headerAt (firmwareSlot b) 12 4)

/-- STARTUP_TEST_END (11 R281): a dead source fails boot step 0x06 (13 R315). -/
def execStartupTestEnd (dt : Nat) (w : RngWindow) (s : State) : Out :=
  timed dt (fun s => s.powered && s.rng.testing) s (fun s =>
    let s := s.startupWindow w
    if s.on RNG_STAT_SU_DEAD && s.bootRuns && decide (s.fget SYS_BOOTSTAT_STEP = 6) then s.bootFails 6 else s)

/-- MOUNT_COMPLETE (10 R272): a mount that fails fails boot step 0x0B (13 R315). -/
def execMountComplete (dt : Nat) (s : State) : Out :=
  timed dt (fun s => s.powered && s.kst.mounting) s (fun s =>
    let s := s.mountEnds
    if !s.on KST_STAT_MOUNTED && !s.kst.mounting && s.bootStep 11 then s.bootFails 11 else s)

/-- BOOT_QUENCH: step 0x02 (13 R318). -/
def execBootQuench (dt : Nat) (s : State) : Out :=
  timed dt (fun s => s.bootStep 2 && s.quenchDue) s (fun s => (s.stepOne.atStep 2).quenchEntry false)

/-- The entries of the patch table whose bytes are `b`, up to `n` of them: the granule each patches and its bytes. -/
def patchEntries (b : List Byte) : Nat → List (Nat × List Byte)
  | 0 => []
  | n + 1 =>
    let t := patchEntries (b.drop 72) n
    let g := leAt b 0 8
    if g % 64 = 0 ∧ 0x1000 ≤ g ∧ inRom g then (g, slice b 8 64) :: t else t

/-- The patch table is applied (13 R317). -/
def State.patched (s : State) (ps : List (Nat × List Byte)) : State :=
  { s.fset SYS_BOOTSTAT_PATCHES (min 31 ps.length) with sys := { s.sys with patches := ps } }

/-- The patch table is read and applied, or fails verification (13 R317). A table whose header is erased is not
present. -/
def State.patchTable (s : State) : State :=
  match s.pieceRead kindling 0x10040000 64 with
  | (.error _, s) => s.bootFails 4
  | (.ok h, s) =>
    if h.all (fun b => decide (b = 0xFF)) then s.stepEnds 4
    else match s.image 0x10040000 3 (s.fget SYS_SVNFLOOR_STAGE1) 4096 with
      | (some b, s) => (s.patched (patchEntries (b.drop 0xD90) (min 32 ((b.length - 0xD90) / 72)))).stepEnds 4
      | (none, s) => s.bootFails 4

/-- PATCH_TABLE_APPLY: step 0x04 (13 R317). -/
def execPatchTableApply (dt : Nat) (s : State) : Out :=
  timed dt (fun s => s.bootStep 4) s (fun s => (s.stepOne.atStep 4).patchTable)

/-- The roles after the self-tests (08 R209, 09 R226): the lowest units that pass are active, the next are spares. -/
def State.assignRoles (s : State) (cph : BitVec 18) (mau : BitVec 136) : State :=
  let pc := (List.range 18).filter cph.getLsbD
  let pm := (List.range 136).filter mau.getLsbD
  let fm := (List.range 136).filter fun u => !mau.getLsbD u
  let s := (s.wr CPH_ACTIVE (maskOf (pc.take 16))).wr CPH_SPARE (maskOf (pc.drop 16))
  let s := s.wr CPH_RETIRED (maskOf ((List.range 18).filter fun u => !cph.getLsbD u))
  let s := (List.range 5).foldl (fun s k => ((s.wr (MAU_ACTIVE k) (maskPart (pm.take 128) k)).wr
    (MAU_SPARE k) (maskPart (pm.drop 128) k)).wr (MAU_RETIRED k) (maskPart fm k)) s
  s.assignFast

/-- ENGINE_SELF_TEST_DONE: step 0x07 (08 R209, 09 R226). -/
def execEngineSelfTestDone (dt : Nat) (cph : BitVec 18) (mau : BitVec 136) (s : State) : Out :=
  timed dt (fun s => s.bootStep 7) s (fun s =>
    let s := (s.atStep 7).assignRoles cph mau
    if cph = 0 ∨ mau = 0 then s.bootFails 7 else s.stepEnds 7)

/-- The hot range that the memory leaves beside the core partition (10 R273). -/
def State.setHotLines (s : State) : State :=
  s.wr KST_HOTLINES (BitVec.ofNat 64 ((2 * s.fget KST_MEMCFG_DIMM_GIB - min 16 (s.fget KST_MEMCFG_CORE_GIB)) * 2 ^ 23 % 2 ^ 32))

/-- MEMORY_TRAINING_DONE: step 0x09 (10 R273). The capacity of the journal ring is left open. -/
def execMemoryTrainingDone (dt : Nat) (ddrGib : Byte) (ddrOk : Bool) (tgtGib : Byte) (ntgt : BitVec 6) (s : State) : Out :=
  timed dt (fun s => s.bootStep 9) s (fun s =>
    let ddr := ddrOk && [16, 32, 64, 96, 128].contains ddrGib.toNat
    let nand := [0x10, 0x20, 0x40].contains tgtGib.toNat && decide (ntgt = 32)
    let s := ((s.atStep 9).fset KST_MEMCFG_DIMM_GIB (if ddr then ddrGib.toNat else 0)).fset
      KST_SEALCFG_TGT_GIB (if nand then tgtGib.toNat else 0)
    let s := s.fset KST_SEALCFG_NTGT ntgt.toNat
    if ddr && nand then
      let s := (s.wr KST_NIDX (BitVec.ofNat 64 (tgtGib.toNat * 2 ^ 28))).setHotLines
      let s := (s.drawn 1).wr KST_JRNCAP (Config.freeWord s.freeCtr &&& 0xFFFFFFFF)
      State.stepEnds { s with sys := { s.sys with ddrTrained := true } } 9
    else s.bootFails 9)

/-! ### Lifecycle (13 R320) -/

/-- The lifecycle state with a code. -/
def lifecycleOf : Nat → Option Lifecycle
  | 0 => some .blank
  | 1 => some .manufacture
  | 2 => some .provisioned
  | 3 => some .field
  | 4 => some .returned
  | _ => none

/-- The target may follow the present state (13 Table 13.7). -/
def lcFrom : Lifecycle → Lifecycle → Bool
  | .blank, .manufacture => true
  | .manufacture, .provisioned => true
  | .provisioned, .field => true
  | .manufacture, .returned | .provisioned, .returned | .field, .returned => true
  | _, _ => false

/-- The mode and the authority of an advance (13 Table 13.7). -/
def State.lcMay (s : State) (sys cust : Bool) : Lifecycle → Bool
  | .manufacture => decide (s.sys.mode = .boot) && sys
  | .provisioned | .field => decide (s.sys.mode = .custody) && cust
  | .returned => decide (s.sys.mode = .quench) && cust
  | .blank => false

/-- The first failing condition of an advance. -/
def State.lcRefused (s : State) (sys cust : Bool) (t : Lifecycle) : Option Nat :=
  if !lcFrom s.sys.lc t then some 1
  else if !s.lcMay sys cust t then some 2
  else if (t = .provisioned ∨ t = .returned) ∧ !s.hasAuth 1 then some 3
  else if (t = .manufacture ∨ t = .provisioned) ∧ !s.on RNG_STAT_READY then some 4
  else none

/-- An advance fails with code `e`. -/
def State.lcFails (s : State) (e : Nat) : State := (s.fset SYS_LCADV_ERR e).raise SYS_EVT_LC_ERR

/-- What the start of an advance does beside the programming: an authorisation of its purpose is consumed (17 R393), a
BMK is drawn where 13 Table 13.7 says so. -/
def State.lcPrepares (s : State) (t : Lifecycle) : State :=
  let s := (s.fset SYS_LCADV_ERR 0).raise SYS_LCADV_BUSY
  let s := if s.hasAuth 1 then s.quorumClose else s
  let s := if t = .manufacture ∨ t = .provisioned then s.askBmk else s
  if t = .provisioned then s.raise SVC_CTRL_MSEC_REQ else s

/-- The advance to `t` is under way. -/
def State.advancingTo (s : State) (t : Lifecycle) : State := { s with sys := { s.sys with advancing := some t } }

/-- An advance starts. -/
def State.lcStarts (s : State) (t : Lifecycle) : State := (s.lcPrepares t).advancingTo t

/-- A write of SYS_LCADV (13 R320); while an advance is programmed, it is ignored. -/
def State.lcadv (s : State) (sys cust : Bool) (v : Word32) : State :=
  if s.on SYS_LCADV_BUSY then s
  else
    let s := s.fset SYS_LCADV_TARGET v.toNat
    if v.getLsbD 31 then
      match lifecycleOf (v.toNat % 8) with
      | none => s.lcFails 1
      | some t => match s.lcRefused sys cust t with
        | some e => s.lcFails e
        | none => s.lcStarts t
    else s

/-- The lifecycle state permits signal `sig` (19 Table 19.6). -/
def sigAllowed (lc : Lifecycle) (sig : Nat) : Bool :=
  if sig < 0x100 then true
  else if sig < 0x400 then decide (lc ≠ .field)
  else decide (lc = .blank) || decide (lc = .manufacture) || decide (lc = .returned)

/-- Channel `k` is judged by the present lifecycle state (19 R424). -/
def State.obsJudge (s : State) (k : Nat) : State :=
  if sigAllowed s.sys.lc (s.fget (OBS_SEL_SIG k)) then s.lower (OBS_SEL_DENIED k)
  else (s.raise (OBS_SEL_DENIED k)).raise OBS_EVT_SEL_DENY

/-- The lifecycle state is `t`, and no advance is under way. -/
def State.nowIn (s : State) (t : Lifecycle) : State := { s with sys := { s.sys with lc := t, advancing := none } }

/-- The lifecycle group is programmed and reaches 6 bits: MSEC_REQ is 1 from PROVISIONED on (02 R38), locks and
observation limits apply (13 R320, 19 R424), and raw access ends where the state does not allow it (11 R286). -/
def State.lcReached (s : State) (t : Lifecycle) : State :=
  let s := (((s.setGroup t 0).nowIn t).lower SYS_LCADV_BUSY).raise SYS_EVT_LC_DONE
  (List.range 8).foldl State.obsJudge (if t = .provisioned then s.raise SVC_CTRL_MSEC_REQ else s).rawEnds

/-- LIFECYCLE_ADVANCE_DONE (13 R320): a failure leaves open whether bits of the group are programmed. -/
def execLifecycleAdvanceDone (dt : Nat) (ok : Bool) (s : State) : Out :=
  timed dt (fun s => s.powered && s.sys.advancing.isSome && !s.sys.bmkWait) s (fun s =>
    match s.sys.advancing with
    | none => s
    | some t =>
      if ok then s.lcReached t
      else (s.advanceCut.lower SYS_LCADV_BUSY).lcFails 5)

/-! ### Re-provisioning (13 R322) -/

/-- A write of SYS_REPROV: METHOD, and GO under its conditions. -/
def State.reprov (s : State) (v : Word32) : State :=
  let s := s.fset SYS_REPROV_METHOD v.toNat
  if v.getLsbD 31 then
    if s.sys.mode = .quench ∧ s.hasAuth 2 ∧ s.rd TMP_CAUSE = 0 ∧ (v.getLsbD 0 ∨ s.on SYS_BOOTTAMP_BMK_VALID) ∧
        !s.on SYS_REPROV_BUSY then
      let s := ((s.lower SYS_REPROV_ERR).raise SYS_REPROV_BUSY).quorumClose
      let s := { s with sys := { s.sys with reprovNew := v.getLsbD 0 } }
      if v.getLsbD 0 then s.askBmk else s
    else s.raise SYS_REPROV_ERR
  else s

/-- REPROVISION_COMPLETE (13 R322): the flags clear, and the device is reset into BOOT. -/
def execReprovisionComplete (dt : Nat) (s : State) : Out :=
  timed dt (fun s => decide (s.sys.mode = .quench) && s.on SYS_REPROV_BUSY && !s.sys.bmkWait) s (fun s =>
    let s := (s.lower SYS_BOOTTAMP_CELL_ALARM).lower SYS_BOOTTAMP_SNUFF
    let s := (((s.wr TMP_STKY 0).lower TMP_FIRST_VALID).lower TMP_FIRST_MULTI).lower TMP_STAT_BKUP_COLD
    s.resetDevice .reprov)

/-! ### Control cores (13 R323, R324) -/

/-- Core `n` starts from the block at `a`, or the start is refused, or it waits for the flash array (14 R337). -/
def State.startCore (s : State) (n : Fin 16) (perms : BitVec 16) (a : Nat) : State :=
  match s.startFrom n perms a with
  | (.error .wait, s) => { s with flc := { s.flc with waits := s.flc.waits ++ [.start n perms a] } }
  | (.ok true, s) => s.lower (SYS_CORE_CTRL_ERR n)
  | (_, s) => (s.raise (SYS_CORE_CTRL_ERR n)).raise SYS_EVT_CORE_ERR

/-- The start of core `n` waits for the flash array. -/
def State.starting (s : State) (n : Fin 16) : Bool :=
  s.flc.waits.any fun w => match w with
    | .start k _ _ => decide (k = n)
    | _ => false

/-- Core `n` is asked to start: nothing where it runs, and nothing in the halt of a failed boot step, which only a reset
ends (13 R316). -/
def State.coreStarts (s : State) (perms : BitVec 16) (n : Fin 16) : State :=
  if s.fget (SYS_CORE_CTRL_STATE n) = 1 || s.starting n || s.bootFailed then s
  else (s.drainBuf n).startCore n perms (s.rd (SYS_CORE_SBLK n)).toNat

/-- A write of SYS_COREn_CTRL. -/
def State.coreCtrl (s : State) (perms : BitVec 16) (n : Fin 16) (v : Word32) : State :=
  let s := if v.getLsbD 31 then s.coreStarts perms n else s
  if v.getLsbD 30 then s.askStop n else s

/-- CORE_STOPPED (13 R324): an instruction boundary, not between a branch and its delay slot, no hold window open. -/
def execCoreStopped (dt : Nat) (n : Fin 16) (s : State) : Out :=
  timed dt (fun s => (s.powered || s.stopping n) && decide (s.fget (SYS_CORE_CTRL_STATE n) = 1) &&
      s.sys.stopReq.getLsbD n.val && s.mayStop n) s
    (fun s => s.stopCore n)

/-! ### Timers, doorbells, the timebase (13 R326, 01 R13) -/

/-- TIMER_COMPARE (13 R326). -/
def execTimerCompare (dt : Nat) (n : Fin 16) (s : State) : Out :=
  timed dt (fun s => s.powered && s.on (SYS_TCTL_EN n) && decide ((s.rd (SYS_TCMP n)).toNat ≤ s.tb)) s
    (fun s => s.raise (SYS_TCTL_PEND n))

/-- A write of SYS_DBSETn (13 R326). -/
def State.doorbell (s : State) (n : Nat) (v : Word32) : State :=
  s.wr (SYS_DBELL n) (s.rd (SYS_DBELL n) ||| v.setWidth 64)

/-- A write of SYS_SVNFLOOR (13 R326): in CUSTODY, each field upward only. -/
def State.svnFloor (s : State) (v : Word32) : State :=
  if s.sys.mode = .custody then
    let up (s : State) (f : Fld) (n : Nat) : State := if s.fget f < n then s.fset f n else s
    up (up s SYS_SVNFLOOR_STAGE1 (v.toNat % 65536)) SYS_SVNFLOOR_FW (v.toNat / 65536)
  else s

/-- The timebase steps by `delta` ns: every open fault window closes (16 R371). -/
def State.tbStep (s : State) (delta : Int) : State :=
  (List.range 128).foldl (fun s n => if s.on (FLT_CNT_OPEN n) then s.closeWindow n else s)
    { s with tb := ((s.tb + delta) % (2 ^ 64 : Int)).toNat }

/-- TIMEBASE_PHASE_STEP (01 R13): firmware's correction of the timebase: the rate adjustment from now on, within 100 ppm,
and a phase step, which is accepted in BOOT and CUSTODY alone (log entry 3). -/
def execTimebasePhaseStep (c : TbCorrection) (s : State) : Out :=
  event s.powered s (fun s =>
    let s := if -100000 ≤ c.rate ∧ c.rate ≤ 100000 then { s with rate := c.rate } else s
    if c.phase ≠ 0 ∧ (s.sys.mode = .boot ∨ s.sys.mode = .custody) then s.tbStep c.phase else s)

end Sys2Proof.Machine
end

