-- ==== Sys2Proof/Machine/Flc.lean ====
section
/-!
DEFINITION. Machine/Flc.lean: the flash controller (14): partitions (14 R330), commands (14 R332-R334), suspension of an
erase by reads (14 R336), the completion of interrupted erases (14 R341), QUENCH (14 R343) and wear (14 R344).
-/

namespace Sys2Proof.Machine

/-! ### Partitions (14 R330) -/

/-- What a partition of 14 Table 14.1 accepts. -/
inductive PartKind where
  | otp | signed | root | open_
  deriving DecidableEq, Repr

/-- The partition of a block: its first block, its number of blocks, and what it accepts. -/
def flcPart (b : Nat) : Nat × Nat × PartKind :=
  if b < 4 then (0, 4, .otp)
  else if b = 4 then (4, 1, .signed)
  else if b < 7 then (5, 2, .root)
  else if b < 9 then (7, 2, .open_)
  else if b < 16 then (9, 7, .open_)
  else if b < 96 then (16, 80, .signed)
  else if b < 176 then (96, 80, .signed)
  else if b < 1232 then (176, 1056, .open_)
  else if b < 2288 then (1232, 1056, .open_)
  else if b < 3056 then (2288, 768, .open_)
  else if b < 3312 then (3056, 256, .open_)
  else (3312, 784, .open_)

/-- The lifecycle state is BLANK or MANUFACTURE. -/
def State.early (s : State) : Bool := decide (s.sys.lc = .blank) || decide (s.sys.lc = .manufacture)

/-- The blocks that accept PROGRAM and ERASE in QUENCH: custody journal and firmware data (14 R343). -/
def quenchBlock (b : Nat) : Bool := (decide (9 ≤ b) && decide (b ≤ 15)) || decide (3056 ≤ b)

/-- A program or an erase of block `b` is refused: ADDR by its partition, STATE by mode or lifecycle. -/
def State.partRefused (s : State) (b : Nat) : Option Nat :=
  match (flcPart b).2.2 with
  | .otp | .root => some 1
  | .signed =>
    if s.sys.mode = .quench then some 2
    else if s.sys.mode = .custody ∨ s.early then none else some 2
  | .open_ => if s.sys.mode = .quench ∧ !quenchBlock b then some 2 else none

/-! ### Starting a command (14 R332) -/

/-- The error with which a command ends at once, if any. -/
def State.flcRefused (s : State) (op a src n : Nat) : Option Nat :=
  let b := flcBlock a
  if op = 1 then
    if !inFlash a ∨ a % 256 ≠ 0 ∨ src % 32 ≠ 0 ∨ n = 0 ∨ 256 < n then some 1
    else if 0x10000000 + 0x10000 * ((flcPart b).1 + (flcPart b).2.1) < a + 256 * n then some 1
    else s.partRefused b
  else if op = 2 then
    if !inFlash a ∨ a % 0x10000 ≠ 0 ∨ src ≠ 0 ∨ n ≠ 0 then some 1 else s.partRefused b
  else if op = 3 then
    if !inFlash a ∨ a % 32 ≠ 0 ∨ src % 32 ≠ 0 ∨ n = 0 ∨ 0x210000 < n ∨ 0x20000000 < a + 32 * n then some 1
    else if s.sys.mode = .quench then some 2 else none
  else
    if !inFlash a ∨ a % 256 ≠ 0 ∨ src % 32 ≠ 0 ∨ n ≠ 1 ∨ 4 ≤ b ∨ a = 0x10000000 then some 1
    else if s.sys.mode = .quench ∨ !s.early then some 2 else none

/-- A command ends in failure. -/
def State.flcFails (s : State) (e : Nat) : State := (s.fset FLC_CMD_ERR e).raise FLC_EVT_ERR

/-- The running command ends: FLC_STAT.LEFT keeps the pages that a program has not done (14 R333). -/
def State.flcEnds (s : State) : State :=
  let s := ((s.lower FLC_STAT_BUSY).lower FLC_STAT_SUSP).fset FLC_STAT_OP 0
  (s.fset FLC_STAT_STEP 0).flcIdle

/-- An erase starts in E1, which takes at most 25 µs; after how much progress E3 and E4 begin is left open (14 Table
14.4, log entry 58). The quantum counts from E2 (14 R336). -/
def State.eraseStarts (s : State) (a : Nat) : State :=
  let e2 := s.tb + (Config.freeWord s.freeCtr).toNat % 25001
  let e4 := (Config.freeWord (s.freeCtr + 1)).toNat % 1000000001
  let e3 := (Config.freeWord (s.freeCtr + 2)).toNat % (e4 + 1)
  let s := ((s.drawn 3).eraseE1 (flcBlock a)).fset FLC_STAT_STEP 1
  { s with flc := { s.flc with e2At := e2, resumedAt := e2, progress := 0, e3From := e3, e4From := e4, calReady := false } }

/-- A command starts; a program prepares its first page. -/
def State.flcStarts (s : State) (op a src n : Nat) (fixing : Bool) : State :=
  let s := ((s.raise FLC_STAT_BUSY).fset FLC_STAT_OP op).fset FLC_STAT_LEFT (if op = 1 then n else 0)
  let s := { s with flc := { s.flc with addr := a, src := src, count := n, fixing := fixing, calReady := false } }
  if op = 2 then s.eraseStarts a else if op = 3 then s else s.preparePage

/-- Kindling's erase of a flagged block at boot step 0x03, which no partition refuses (14 R341). -/
def State.fixes (s : State) (op a : Nat) : Bool :=
  decide (op = 2) && s.bootStep 3 && sget false s.flc.flags (flcBlock a) &&
    inFlash a && decide (a % 0x10000 = 0)

/-- A write of FLC_CMD (14 R332): OP and COUNT, and GO; an OP that 14 Table 14.2 does not list starts nothing. -/
def State.flcCmd (s : State) (v : Word32) : State :=
  let op := v.toNat / 2 ^ 24 % 16
  let n := v.toNat % 2 ^ 24
  let s := (s.fset FLC_CMD_OP op).fset FLC_CMD_COUNT n
  if !v.getLsbD 31 then s
  else if s.on FLC_STAT_BUSY || s.on FLC_STAT_SUSP then s.raise FLC_EVT_CMD_REJ
  else if op = 0 ∨ 4 < op then s
  else
    let a := (s.rd FLC_ADDR).toNat
    let src := (s.rd FLC_SRC).toNat
    if s.fixes op a then s.flcStarts op a 0 0 true
    else match s.flcRefused op a src n with
      | some e => s.flcFails e
      | none => s.flcStarts op a src n false

/-! ### The end of a command (14 R333, R334) -/

/-- A command succeeds. -/
def State.flcDone (s : State) : State := (s.flcEnds.fset FLC_CMD_ERR 0).raise FLC_EVT_DONE

/-- The page in progress fails: its preparation did, or it does not read back and is left open (14 Table 14.3). An OTP
page that was programmed is not programmed again. -/
def State.pageFails (s : State) (otp : Bool) : State :=
  let a := s.flc.addr
  if s.flc.pageErr ≠ 0 then s.flcEnds.flcFails s.flc.pageErr
  else
    let s := s.spoil a 256
    let s := if otp then { s with flc := { s.flc with otpUsed := sput false s.flc.otpUsed (a / 256) true } } else s
    (s.flcEnds.flcFails 4).signal 79 0

/-- The page in progress holds its bytes, and the next one begins: between the two, the reads that wait reach the array
(14 R333, R335). -/
def State.nextPage (s : State) : State :=
  let s := (s.programBytes s.flc.addr s.flc.page).freeStalls
  let s := { s with flc := { s.flc with addr := s.flc.addr + 256, src := s.flc.src + 256, count := s.flc.count - 1 } }
  s.fset FLC_STAT_LEFT s.flc.count

/-- The page in progress of a PROGRAM ends (14 R333): the command ends with the last page or the first that fails. The
table of commands names no row for the end of another page (DESIGN CHOICE, log entry 127). -/
def State.programEnds (s : State) (ok : Bool) : State :=
  if !ok || decide (s.flc.pageErr ≠ 0) then s.pageFails false
  else if s.flc.count ≤ 1 then s.nextPage.flcDone
  else s.nextPage.preparePage

/-- ERASE ends: the block is erased, or it does not verify and its flag stays. -/
def State.eraseEnds (s : State) (ok : Bool) : State :=
  if ok then
    let t := ((s.blockBlank s.flc.addr).eraseE4 (flcBlock s.flc.addr)).flcDone
    if s.flc.fixing then t.raise FLC_EVT_FLAGFIX else t
  else
    let t := ((s.spoil s.flc.addr 0x10000).flcEnds.flcFails 5).signal 79 0
    if s.flc.fixing then t.bootFails 3 else t

/-- A word of the granules that a COPY reads holds a double-bit error; which one is left open. -/
def State.copyDamaged (s : State) : State :=
  let w := (Config.freeWord s.freeCtr).toNat % (8 * max 1 s.flc.count)
  { s.drawn 1 with damaged := sput false s.damaged (damKey .bus (s.flc.addr + 4 * w)) true }

/-- COPY ends: every granule is written, or those before a double-bit error or a failing destination (14 Table 14.3). -/
def State.copyEnds (s : State) (ok : Bool) : State :=
  let s := if ok then s else s.copyDamaged
  match s.copyGranules s.flc.addr s.flc.src s.flc.count with
  | (s, 0) => s.flcDone
  | (s, e) => s.flcEnds.flcFails e

/-- OTP_PROGRAM ends: a page is programmed once (14 R331). -/
def State.otpEnds (s : State) (ok : Bool) : State :=
  let a := s.flc.addr
  if !ok || decide (s.flc.pageErr ≠ 0) then s.pageFails true
  else
    let s := s.programBytes a s.flc.page
    State.flcDone { s with flc := { s.flc with otpUsed := sput false s.flc.otpUsed (a / 256) true } }

/-- The flash domain has power: every mode with main power, QUENCH included (14 R343). -/
def State.flcRuns (s : State) : Bool := s.powered && s.on FLC_STAT_BUSY && !s.on FLC_STAT_SUSP

/-- A read waits for the array in E2 or E3, that of an overlay that is applied among them. -/
def State.readWaits (s : State) : Bool :=
  (s.flc.stalled.any fun x => !x.ready && !x.served && !x.inE1) || (s.on CAL_STAT_BUSY && !s.flc.calReady)

/-- A read suspends the erase that runs (14 R336): in E2 or E3, and when the quantum of progress is met. -/
def State.suspendDue (s : State) : Bool :=
  s.flcRuns && decide (s.fget FLC_STAT_OP = 2) && !s.inE1 && s.readWaits && s.passed s.flc.resumedAt 200000

/-- The erase is suspended. -/
def State.suspended (s : State) : State :=
  let p := s.eraseProgress
  let s := (((s.raise FLC_STAT_SUSP).raise FLC_EVT_ASUSP).count 0x05D 1).freeStalls
  { s with flc := { s.flc with progress := p, suspendedAt := s.tb, lastRead := s.tb } }

/-- A suspended erase resumes (14 R336): no read for 2 µs, or HOLD_US have passed. -/
def State.resumeDue (s : State) : Bool :=
  s.powered && s.on FLC_STAT_SUSP &&
    (s.passed s.flc.lastRead 2000 || s.passed s.flc.suspendedAt (1000 * s.fget FLC_ERSCFG_HOLD_US))

/-- The erase runs on: a further read waits for the next quantum. -/
def State.resumed (s : State) : State :=
  { s.lower FLC_STAT_SUSP with flc := { s.flc with resumedAt := s.tb, calReady := false } }

/-! ### Registers (14 R345) -/

/-- FLC_ECNT shows the selected block. -/
def State.flcEcnt (s : State) : Word :=
  let b := s.fget FLC_ECNTSEL_BLOCK
  BitVec.ofNat 64 ((if sget false s.flc.flags b then 2 ^ 31 else 0) + sget 0 s.flc.counts b)

/-- FLC_STAT shows the step of the erase that runs (log entry 58). -/
def State.flcStat (s : State) : Word :=
  if s.on FLC_STAT_BUSY ∧ s.fget FLC_STAT_OP = 2 then (s.fset FLC_STAT_STEP s.eraseStep).rd FLC_STAT else s.rd FLC_STAT

/-- A write of FLC_ERSCFG: a value outside 50 to 5,000 leaves HOLD_US. -/
def State.flcErscfg (s : State) (v : Word32) : State :=
  let h := v.toNat % 65536
  if 50 ≤ h ∧ h ≤ 5000 then s.fset FLC_ERSCFG_HOLD_US h else s

end Sys2Proof.Machine
end

