-- ==== Sys2Proof/Machine/Crd.lean ====
section
/-!
DEFINITION. Machine/Crd.lean: the card interface (17): activation, ATR and PPS (17 R382-R385), the T=1 block layer
(17 R386), the quorum session (17 R393) and the roster (17 R394).
-/

namespace Sys2Proof.Machine

/-! ### Activation (17 R382, R383) -/

/-- A slot ends its activation: READY or FAILED. -/
def State.slotSettles (s : State) (n : Fin 2) : State := s.raise (bitFld CRD_EVT (2 + n.val))

/-- The activation fails with `err`: the card is deactivated. -/
def State.slotFails (s : State) (n : Fin 2) (err : Nat) : State := (s.deactivate n.val 4 err 4).slotSettles n

/-- CRD_VENn: card VCC is on, once a deactivation under way is complete (20 R446). -/
def State.cardVen (s : State) (n : Nat) : Bool := (s.slot n).ven && decide ((s.slot n).offAt ≤ s.tb)

/-- CRD_SnSTAT shows DEACTIVATING until the deactivation is complete (17 R395). -/
def State.cardStat (s : State) (n : Nat) : Word :=
  if s.tb < (s.slot n).offAt then (s.fset (CRD_SSTAT_STATE n) 5).rd (CRD_SSTAT n) else s.rd (CRD_SSTAT n)

/-- VCC is applied at class `a` once a deactivation under way is complete; the clock starts 50 µs later, and RST rises 200
µs after that. `x` says what an earlier try has used up, and `err` what it ended with. -/
def State.powerCard (s : State) (n : Fin 2) (a : Bool) (x : CardSlot) (err : Nat) : State :=
  let off := (s.slot n.val).offAt
  let s := ((s.fset (CRD_SSTAT_STATE n.val) 1).fset (CRD_SSTAT_ERR n.val) err).put (CRD_SSTAT_CLASS n.val) a
  s.setSlot n.val { ven := true, vsel := a, offAt := off, rstAt := max off s.tb + 250000, retried := x.retried, noPps := x.noPps,
                    clkdiv := max 8 (s.fget CRD_CTRL_CLKDIV) }

/-- The card is deactivated and powered again at class `a`. -/
def State.repower (s : State) (n : Fin 2) (a : Bool) (x : CardSlot) (err : Nat) : State :=
  (s.deactivate n.val 4 0 0).powerCard n a x err

/-- The retry at class A where CLASS_EN permits it, once, and FAILED with `err` otherwise (17 R382). -/
def State.retryOr (s : State) (n : Fin 2) (err : Nat) : State :=
  if bitsOf (s.rd (CRD_SCTRL n.val)) 1 1 = 1 ∧ !(s.slot n.val).retried then
    s.repower n true { s.slot n.val with retried := true } 0
  else s.slotFails n err

/-- ACT: a present card is activated at the lowest class enabled, unless the slot holds an activated card. -/
def State.cardAct (s : State) (n : Fin 2) : State :=
  let cls := s.fget (CRD_SCTRL_CLASS_EN n.val)
  if !s.on CRD_CTRL_EN || !s.on (CRD_SSTAT_DET n.val) || s.cardLive n.val then s
  else if cls = 0 then ((s.fset (CRD_SSTAT_STATE n.val) 4).fset (CRD_SSTAT_ERR n.val) 2).slotSettles n
  else s.powerCard n (decide (cls = 2)) {} 0

/-- A write of CRD_SnCTRL. -/
def State.cardCtrl (s : State) (n : Fin 2) (v : Word32) : State :=
  let s := s.wr (CRD_SCTRL n.val) (BitVec.ofNat 64 (v.toNat % 8))
  let s := if v.getLsbD 30 ∧ s.cardLive n.val then s.deactivate n.val 4 0 0 else s
  if v.getLsbD 31 then s.cardAct n else s

/-- A write of CRD_CTRL: clearing EN deactivates both slots. -/
def State.crdCtrl (s : State) (v : Word32) : State :=
  let s := s.wr CRD_CTRL (v.setWidth 64 &&& 0x3F01)
  if v.getLsbD 0 then s else s.cardsOff

/-- CARD_DETECT_CHANGE (17 R383, R390). -/
def execCardDetectChange (dt : Nat) (n : Fin 2) (present : Bool) (s : State) : Out :=
  timed dt (fun s => !decide (s.on (CRD_SSTAT_DET n.val) = present)) s (fun s =>
    let s := s.put (CRD_SSTAT_DET n.val) present
    let s := if s.powered then s.raise (bitFld CRD_EVT n.val) else s
    if !present && s.cardLive n.val then s.deactivate n.val 1 5 0 else s)

/-- ATR_TIMEOUT (17 R382). -/
def execAtrTimeout (dt : Nat) (n : Fin 2) (s : State) : Out :=
  timed dt (fun s => s.powered && decide (s.fget (CRD_SSTAT_STATE n.val) = 1) &&
      decide ((s.slot n.val).rstAt + 10240000 ≤ s.tb)) s
    (fun s => s.retryOr n 1)

/-! ### The ATR (17 R384) -/

/-- What an ATR says: TA1, TC1, TA2, the bytes for T=1 from the third group on, the class indicator, whether T=1 is
offered, and how many bytes follow the interface bytes. -/
structure Atr where
  ta1 : Option Nat := none
  tc1 : Nat := 0
  ta2 : Option Nat := none
  ifsc : Option Nat := none
  tb : Option Nat := none
  tc : Option Nat := none
  cls : Option Nat := none
  t1 : Bool := false
  rest : Nat := 0
  deriving DecidableEq, Repr

/-- The next byte where its presence bit is set. -/
def takeIf (b : Bool) (l : List Byte) : Option Nat × List Byte :=
  match b, l with
  | true, x :: t => (some x.toNat, t)
  | _, _ => (none, l)

/-- The interface bytes of group `i` on: `y` are the presence bits of the group, `t` the protocol it belongs to. -/
def atrGroups (i y t : Nat) (l : List Byte) (r : Atr) : Nat → Atr
  | 0 => { r with rest := l.length }
  | k + 1 =>
    let (ta, l) := takeIf (y % 2 = 1) l
    let (tb, l) := takeIf (y / 2 % 2 = 1) l
    let (tc, l) := takeIf (y / 4 % 2 = 1) l
    let (td, l) := takeIf (y / 8 % 2 = 1) l
    let first (old new : Option Nat) : Option Nat := old.orElse fun _ => new
    let r := if i = 1 then { r with ta1 := ta, tc1 := tc.getD 0 } else if i = 2 then { r with ta2 := ta } else r
    let r := if 3 ≤ i ∧ t = 1 then { r with ifsc := first r.ifsc ta, tb := first r.tb tb, tc := first r.tc tc } else r
    let r := if 3 ≤ i ∧ t = 15 then { r with cls := first r.cls ta } else r
    match td with
    | some d => atrGroups (i + 1) (d / 16) (d % 16) l { r with t1 := r.t1 || decide (d % 16 = 1) } k
    | none => { r with rest := l.length }

/-- The exclusive or of bytes: LRC and TCK. -/
def xorAll (l : List Byte) : Byte := l.foldl (· ^^^ ·) 0

/-- The Di values 1, 2, 4, 8, 16 and 32 by their index, and the Fi values by theirs (ISO/IEC 7816-3). -/
def diOf (i : Nat) : Option Nat := [none, some 1, some 2, some 4, some 8, some 16, some 32].getD i none
/-- Fi, and the fastest clock it allows in kHz. -/
def fiOf (i : Nat) : Option (Nat × Nat) :=
  [some (372, 4000), some (372, 5000), some (558, 6000), some (744, 8000), some (1116, 12000), some (1488, 16000),
   some (1860, 20000), none, none, some (512, 5000), some (768, 7500), some (1024, 10000), some (1536, 15000),
   some (2048, 20000)].getD i none

/-- A pair of indices as TA1 holds it is supported. -/
def pairOk (ta : Nat) : Bool := (diOf (ta % 16)).isSome && (fiOf (ta / 16)).isSome

/-- The ATR, where it is accepted (17 R384); characters in the card's own convention, TS first. -/
def parseAtr (bs : List Byte) : Option Atr :=
  match bs with
  | ts :: t0 :: rest =>
    let r := atrGroups 1 (t0.toNat / 16) 0 rest {} bs.length
    let pair := r.ta1.getD 0x11
    if 33 < bs.length then none
    else if ts ≠ 0x3B ∧ ts ≠ 0x3F then none
    else if !r.t1 ∨ r.rest ≠ t0.toNat % 16 + 1 then none
    else if xorAll (t0 :: rest) ≠ 0 then none
    else if r.tc.getD 0 % 2 = 1 then none
    else match r.ta2 with
      | some x => if x % 16 ≠ 1 ∨ !pairOk pair then none else some r
      | none => some r
  | _ => none

/-- Bytes into the buffer of a slot, from its first byte on. -/
def State.fillBuf (s : State) (n k : Nat) (bs : List Byte) : Nat → State
  | 0 => s
  | m + 1 => if bs.isEmpty then s
    else
      let old := leBytes 4 (s.rd (slotBuf n k)).toNat
      let w := bs.take 4 ++ old.drop (bs.take 4).length
      (s.wr (slotBuf n k) (BitVec.ofNat 64 (leNat w))).fillBuf n (k + 1) (bs.drop 4) m

/-- The first `len` bytes of the buffer of a slot. -/
def State.readBuf (s : State) (n len : Nat) : List Byte :=
  ((List.range 128).flatMap fun k => leBytes 4 (s.rd (slotBuf n k)).toNat).take len

/-! ### The block layer (17 R386) -/

/-- A block of T=1 to the card: it is sent, and the card's answer is awaited. -/
def State.sendBlock (s : State) (n : Fin 2) (pcb : Nat) (inf : List Byte) : State :=
  let b := (0 : Byte) :: BitVec.ofNat 8 pcb :: BitVec.ofNat 8 inf.length :: inf
  let b := b ++ [xorAll b]
  let s := s.emit (.card n b)
  s.setSlot n.val { s.slot n.val with last := b, waitFrom := s.tb, wtx := 1 }

/-- The next I-block of the command, chained while more remains; PHASE 2 once the last is sent. -/
def State.sendCommand (s : State) (n : Fin 2) : State :=
  let x := s.slot n.val
  let inf := x.toSend.take (max 1 (s.fget (CRD_SPARAM_IFSC n.val)))
  let more := decide (inf.length < x.toSend.length)
  let s := s.setSlot n.val { x with sentLen := inf.length }
  (s.sendBlock n ((if x.ns then 0x40 else 0) + (if more then 0x20 else 0)) inf).fset (CRD_SXFER_PHASE n.val) (if more then 1 else 2)

/-- READY: S(IFS) with IFSD 254 is sent once (17 R386). -/
def State.slotReady (s : State) (n : Fin 2) : State :=
  let s := (s.fset (CRD_SSTAT_STATE n.val) 3).slotSettles n
  let s := s.setSlot n.val { s.slot n.val with ifs := true, pps := none }
  s.sendBlock n 0xC1 [0xFE]

/-- The values of TA1 are adopted; the divider becomes the smallest, from 8 on, that Fi allows at 156.25 MHz. -/
def State.adoptPair (s : State) (n : Fin 2) (ta : Nat) (speed : Bool) : State :=
  let s := (s.fset (CRD_SPARAM_FI n.val) (ta / 16)).fset (CRD_SPARAM_DI n.val) (ta % 16)
  match speed, fiOf (ta / 16) with
  | true, some (_, khz) => s.setSlot n.val { s.slot n.val with clkdiv := max 8 (cdiv 156250 khz) }
  | _, _ => s

/-- An accepted ATR: the parameters, the ATR in the buffer, PPS where it applies (17 R385). -/
def State.atrOk (s : State) (n : Fin 2) (r : Atr) (bs : List Byte) : State :=
  let s := (s.fillBuf n.val 0 bs 128).fset (CRD_SXFER_RLEN n.val) bs.length
  let tb := r.tb.getD 0x4D
  let s := s.wr (CRD_SPARAM n.val) (BitVec.ofNat 64 (0x11000000 + r.ifsc.getD 32 * 0x10000 + tb / 16 * 0x1000 + tb % 16 * 0x100 + r.tc1))
  let ta := r.ta1.getD 0x11
  if r.ta2.isSome then (s.adoptPair n ta false).slotReady n
  else if s.on (CRD_SCTRL_PPS_EN n.val) && decide (ta ≠ 0x11) && !(s.slot n.val).noPps then
    let req : List Byte := [0xFF, 0x11, BitVec.ofNat 8 ta]
    let req := req ++ [xorAll req]
    let s := (s.fset (CRD_SSTAT_STATE n.val) 2).emit (.card n req)
    s.setSlot n.val { s.slot n.val with pps := some req }
  else s.slotReady n

/-- The class indicator of an ATR excludes class A or B (ISO/IEC 7816-3: bit 0 class A, bit 1 class B). -/
def classExcluded (r : Atr) (a : Bool) : Bool :=
  match r.cls with
  | some c => if a then decide (c % 2 = 0) else decide (c / 2 % 2 = 0)
  | none => false

/-- ATR_RECEIVE (17 R384). -/
def execAtrReceive (dt : Nat) (n : Fin 2) (bytes : List Byte) (s : State) : Out :=
  timed dt (fun s => s.powered && decide (s.fget (CRD_SSTAT_STATE n.val) = 1) && decide ((s.slot n.val).rstAt ≤ s.tb)) s
    (fun s => match parseAtr bytes with
      | none => s.slotFails n 3
      | some r => if classExcluded r (s.on (CRD_SSTAT_CLASS n.val)) then s.retryOr n 2 else s.atrOk n r bytes)

/-- PPS_RESPONSE (17 R385): an exact echo, or a reactivation without PPS, with ERR PPS. -/
def execPpsResponse (dt : Nat) (n : Fin 2) (bytes : List Byte) (s : State) : Out :=
  timed dt (fun s => s.powered && decide (s.fget (CRD_SSTAT_STATE n.val) = 2)) s (fun s =>
    match (s.slot n.val).pps with
    | some req =>
      if bytes = req then (s.adoptPair n (bytes.getD 2 0).toNat true).slotReady n
      else s.repower n (s.on (CRD_SSTAT_CLASS n.val)) { s.slot n.val with noPps := true } 4
    | none => s)

/-- The exchange of a slot ends with `err`, which EXCHANGE_DONE reports. -/
def State.exchangeEnds (s : State) (n : Fin 2) (err : Nat) : State :=
  s.setSlot n.val { s.slot n.val with ended := some err }

/-- A command of the block layer starts; it waits while S(IFS) is not yet answered. -/
def State.startExchange (s : State) (n : Fin 2) (cmd : List Byte) (attest : Bool) : State :=
  let s := ((s.raise (CRD_SXFER_BUSY n.val)).fset (CRD_SXFER_ERR n.val) 0).fset (CRD_SXFER_PHASE n.val) 1
  let s := s.setSlot n.val { s.slot n.val with cmd := cmd, toSend := cmd, resp := [], retries := 0, attest := attest }
  if (s.slot n.val).ifs then s else s.sendCommand n

/-- A write of CRD_SnXFER (17 R386): LEN, and GO where the slot is READY and idle. -/
def State.cardXfer (s : State) (n : Fin 2) (v : Word32) : State :=
  let len := v.toNat % 512
  let s := s.fset (CRD_SXFER_LEN n.val) len
  if !v.getLsbD 31 || decide (s.fget (CRD_SSTAT_STATE n.val) ≠ 3) || s.on (CRD_SXFER_BUSY n.val) then s
  else if len < 4 ∨ 261 < len then (s.fset (CRD_SXFER_ERR n.val) 5).raise (bitFld CRD_EVT (6 + n.val))
  else s.startExchange n (s.readBuf n.val len) false

/-- A block failed, in its check bytes (1) or otherwise (2): it is asked for again, three times; then S(RESYNCH) is sent,
and when that fails the exchange ends with PROTOCOL (log entry 59). -/
def State.blockFails (s : State) (n : Fin 2) (kind : Nat) : State :=
  let x := s.slot n.val
  if x.retries < 3 then
    let s := s.setSlot n.val { x with retries := x.retries + 1 }
    if x.ifs then s.sendBlock n 0xC1 [0xFE]
    else if x.resynch then s.sendBlock n 0xC0 []
    else
      let keep := x.last
      let s := s.sendBlock n (0x80 + (if x.nr then 0x10 else 0) + kind) []
      s.setSlot n.val { s.slot n.val with last := keep }
  else if x.resynch then s.exchangeEnds n 3
  else (s.setSlot n.val { x with retries := 0, resynch := true, ifs := false }).sendBlock n 0xC0 []

/-- The last block is sent again, as the card asked. -/
def State.sendAgain (s : State) (n : Fin 2) : State :=
  let x := s.slot n.val
  if x.retries < 3 then
    let s := s.setSlot n.val { x with retries := x.retries + 1, waitFrom := s.tb, wtx := 1 }
    s.emit (.card n x.last)
  else s.blockFails n 1

/-- An I-block from the card: part of the response, or its end. -/
def State.iBlock (s : State) (n : Fin 2) (more : Bool) (inf : List Byte) : State :=
  let x := s.slot n.val
  let x := if x.toSend.isEmpty then x else { x with toSend := [], ns := !x.ns }
  let x := { x with resp := x.resp ++ inf, nr := !x.nr, retries := 0 }
  let s := (s.setSlot n.val x).fset (CRD_SXFER_PHASE n.val) 4
  if 511 < x.resp.length then s.exchangeEnds n 5
  else if more then s.sendBlock n (0x80 + (if x.nr then 0x10 else 0)) []
  else s.exchangeEnds n (if x.resp.length < 2 then 3 else 0)

/-- A correct block with `pcb` and its information field. -/
def State.goodBlock (s : State) (n : Fin 2) (pcb : Nat) (inf : List Byte) : State :=
  let x := s.slot n.val
  let busy := s.on (CRD_SXFER_BUSY n.val)
  let allSent := decide (x.sentLen = x.toSend.length)
  if pcb = 0xE1 then
    if x.ifs && decide (inf = [0xFE]) then
      let s := s.setSlot n.val { x with ifs := false, retries := 0 }
      if busy then s.sendCommand n else s
    else s.blockFails n 1
  else if pcb = 0xE0 then
    if x.resynch && inf.isEmpty then
      let s := s.setSlot n.val { x with resynch := false, ns := false, nr := false, retries := 0, resp := [], toSend := x.cmd }
      if busy then s.sendCommand n else s
    else s.blockFails n 1
  else if x.ifs || x.resynch then s.blockFails n 1
  else if pcb = 0xC3 ∧ inf.length = 1 then
    let s := if s.fget (CRD_SXFER_PHASE n.val) = 2 then s.fset (CRD_SXFER_PHASE n.val) 3 else s
    let keep := x.last
    let s := s.sendBlock n 0xE3 inf
    s.setSlot n.val { s.slot n.val with last := keep, wtx := max 1 (inf.headD 1).toNat, retries := 0 }
  else if pcb = 0xC1 ∧ inf.length = 1 then
    let keep := x.last
    let s := (s.fset (CRD_SPARAM_IFSC n.val) (inf.headD 0).toNat).sendBlock n 0xE1 inf
    s.setSlot n.val { s.slot n.val with last := keep, retries := 0 }
  else if pcb / 64 = 2 ∧ inf.isEmpty then
    let nr := decide (pcb / 16 % 2 = 1)
    if nr = x.ns then s.sendAgain n
    else if !allSent then
      let s := s.setSlot n.val { x with toSend := x.toSend.drop x.sentLen, ns := !x.ns, retries := 0 }
      s.sendCommand n
    else s.blockFails n 1
  else if pcb < 128 ∧ pcb % 32 = 0 ∧ decide (pcb / 64 = 1) = x.nr ∧ (x.toSend.isEmpty || allSent) then
    s.iBlock n (decide (pcb / 32 % 2 = 1)) inf
  else s.blockFails n 1

/-- The block layer awaits a block of the card in slot `n`. -/
def State.awaits (s : State) (n : Fin 2) : Bool :=
  s.powered && decide (s.fget (CRD_SSTAT_STATE n.val) = 3) && (s.slot n.val).ended.isNone &&
    (s.on (CRD_SXFER_BUSY n.val) || (s.slot n.val).ifs || (s.slot n.val).resynch)

/-- CARD_BLOCK_RECEIVE (17 R386): a block with its LRC; a wrong one is asked for again. -/
def execCardBlockReceive (dt : Nat) (n : Fin 2) (bytes : List Byte) (s : State) : Out :=
  timed dt (fun s => s.awaits n) s (fun s =>
    match bytes with
    | nad :: pcb :: len :: rest =>
      if nad = 0 ∧ rest.length = len.toNat + 1 ∧ len ≠ 0xFF ∧ xorAll bytes = 0 then s.goodBlock n pcb.toNat (rest.take len.toNat)
      else s.blockFails n 1
    | _ => s.blockFails n 1)

/-- The block waiting time in ns: 11 etu and 2^BWI × 960 × 372 clocks, at 6.4 ns per step of the divider
(ISO/IEC 7816-3). -/
def State.blockWait (s : State) (n : Fin 2) : Nat :=
  let f := ((fiOf (s.fget (CRD_SPARAM_FI n.val))).map (·.1)).getD 372
  let d := (diOf (s.fget (CRD_SPARAM_DI n.val))).getD 1
  (11 * f / d + 2 ^ s.fget (CRD_SPARAM_BWI n.val) * 357120) * 64 * (s.slot n.val).clkdiv / 10

/-- CARD_BLOCK_TIMEOUT (17 R386). -/
def execCardBlockTimeout (dt : Nat) (n : Fin 2) (s : State) : Out :=
  timed dt (fun s => s.awaits n && decide ((s.slot n.val).waitFrom + (s.slot n.val).wtx * s.blockWait n ≤ s.tb)) s
    (fun s => s.blockFails n 2)

/-- An exchange that ended well leaves the response in the buffer; the quorum's own leaves it to CRD, where its session is
still open. -/
def State.exchangeDone (s : State) (n : Fin 2) : State :=
  let x := s.slot n.val
  match x.ended with
  | none => s
  | some 0 =>
    let s := ((s.lower (CRD_SXFER_BUSY n.val)).fset (CRD_SXFER_PHASE n.val) 5).raise (bitFld CRD_EVT (4 + n.val))
    let s := s.setSlot n.val { x with ended := none, toSend := [], resp := [], attest := false }
    if x.attest then (if s.crd.attSlot = some n.val then { s with crd := { s.crd with answer := some x.resp } } else s)
    else (s.fillBuf n.val 0 x.resp 128).fset (CRD_SXFER_RLEN n.val) x.resp.length
  | some e => s.deactivate n.val e 0 0

/-- CARD_EXCHANGE_DONE (17 R386). -/
def execCardExchangeDone (dt : Nat) (n : Fin 2) (s : State) : Out :=
  timed dt (fun s => s.powered && (s.slot n.val).ended.isSome) s (fun s => s.exchangeDone n)

/-! ### Quorum (17 R392-R394) -/

/-- The roster in use with its threshold. -/
def State.rosterInUse (s : State) : List (BitVec 256) × Nat :=
  if s.on CRD_ROSTER_CTRL_VALID then (s.crd.roster, s.crd.rosterM)
  else Config.recoveryRoster s.otpCells

/-- A quorum write is refused. -/
def State.crdRefuses (s : State) : State := s.raise CRD_EVT_CFG_REJ

/-- CRD_QSTAT shows the roster in use: whether it is the recovery roster, and its threshold. -/
def State.showRoster (s : State) : State :=
  (s.put CRD_QSTAT_RECOVERY (!s.on CRD_ROSTER_CTRL_VALID)).fset CRD_QSTAT_M s.rosterInUse.2

/-- GO: a session opens in CUSTODY or QUENCH for one of the three purposes, unless one is open. -/
def State.quorumGo (s : State) : State :=
  let p := s.fget CRD_QCTRL_PURPOSE
  if (s.sys.mode = .custody ∨ s.sys.mode = .quench) ∧ !s.on CRD_QSTAT_OPEN ∧ 1 ≤ p ∧ p ≤ 3 then
    let s := ((s.wr CRD_QSTAT 0).raise CRD_QSTAT_OPEN).showRoster
    { s with crd := { s.crd with wantChallenge := true, purpose := p, counted := [], openedAt := s.tb, attSlot := none,
                                 answer := none } }
  else s.crdRefuses

/-- The command that CRD builds (17 Table 17.1): challenge, SVC_DEVID and PURPOSE, big-endian. -/
def State.attestInput (s : State) : List Byte :=
  beBytes 32 s.crd.challenge.toNat ++ beBytes 4 (s.rd SVC_DEVID).toNat ++ beBytes 4 s.crd.purpose

/-- ATTEST: the command goes to the card in SLOT. -/
def State.quorumAttest (s : State) : State :=
  let n : Fin 2 := if s.on CRD_QCTRL_SLOT then 1 else 0
  if s.on CRD_QSTAT_OPEN && !s.on CRD_QSTAT_BUSY && !s.crd.wantChallenge &&
      decide (s.fget (CRD_SSTAT_STATE n.val) = 3) && !s.on (CRD_SXFER_BUSY n.val) then
    let s := (s.raise CRD_QSTAT_BUSY).fset CRD_QSTAT_ERR 0
    let s := { s with crd := { s.crd with attSlot := some n.val, answer := none } }
    s.startExchange n (([0xB0, 0x50, 0, 0, 0x28] : List Byte) ++ s.attestInput ++ [0x80]) true
  else s.crdRefuses

/-- A write of CRD_QCTRL: its fields, then ABORT, GO and ATTEST. -/
def State.qctrl (s : State) (v : Word32) : State :=
  let s := s.wr CRD_QCTRL (v.setWidth 64 &&& 0x1FFFF)
  let s := if v.getLsbD 30 then s.quorumClose else s
  let s := if v.getLsbD 31 then s.quorumGo else s
  if v.getLsbD 29 then s.quorumAttest else s

/-- The answer of a card is judged (17 R393): its status, the roster, the session, the signature. -/
def State.attestJudge (s : State) (r : List Byte) : State :=
  let q := r.take 64
  let (roster, m) := s.rosterInUse
  let digest : BitVec 256 := BitVec.ofNat 256 (leNat (sha2Digest 32 q))
  if r.length ≠ 130 ∨ r.drop 128 ≠ [0x90, 0x00] then s.attestFails 4
  else match roster.findIdx? (fun d => decide (d = digest)) with
    | none => s.attestFails 1
    | some i =>
      if s.crd.counted.contains i then s.attestFails 2
      else if !ecdsaVerifies q s.attestInput (slice r 64 64) then s.attestFails 3
      else
        let s := (s.lower CRD_QSTAT_BUSY).fset CRD_QSTAT_COUNT (s.crd.counted.length + 1)
        let s := { s with crd := { s.crd with counted := i :: s.crd.counted, answer := none } }
        if m ≤ s.crd.counted.length then (s.raise CRD_QSTAT_AUTH).raise CRD_EVT_QAUTH else s

/-- QUORUM_ATTEST_DONE (17 R393). -/
def execQuorumAttestDone (dt : Nat) (s : State) : Out :=
  timed dt (fun s => s.powered && s.on CRD_QSTAT_BUSY && s.crd.answer.isSome) s (fun s =>
    match s.crd.answer with
    | some r => s.attestJudge r
    | none => s)

/-- The session timeout in ns: TMO_S from 1 to 600 s, and 120 s otherwise. -/
def State.quorumTmo (s : State) : Nat :=
  let t := s.fget CRD_QCTRL_TMO_S
  (if 1 ≤ t ∧ t ≤ 600 then t else 120) * 1000000000

/-- QUORUM_TIMEOUT (17 R393). -/
def execQuorumTimeout (dt : Nat) (s : State) : Out :=
  timed dt (fun s => s.powered && s.on CRD_QSTAT_OPEN && decide (s.crd.openedAt + s.quorumTmo ≤ s.tb)) s State.quorumClose

/-- Digest `e` of the staged roster. -/
def State.stagedDigest (s : State) (e : Nat) : BitVec 256 :=
  BitVec.ofNat 256 (leNat ((List.range 8).flatMap fun k => leBytes 4 (s.rd (CRD_ROSTER_BUF (8 * e + k))).toNat))

/-- A write of CRD_ROSTER_CTRL (17 R394): N and M, and COMMIT with the authority of a roster session. -/
def State.rosterCtrl (s : State) (v : Word32) : State :=
  let m := v.toNat % 16
  let n := v.toNat / 16 % 16
  let s := (s.fset CRD_ROSTER_CTRL_M m).fset CRD_ROSTER_CTRL_N n
  if v.getLsbD 31 then
    if s.hasAuth 3 ∧ 1 ≤ m ∧ m ≤ n ∧ n ≤ 8 then
      State.showRoster (State.quorumClose { s.raise CRD_ROSTER_CTRL_VALID with crd := { s.crd with
        roster := (List.range n).map s.stagedDigest, rosterM := m } })
    else s.crdRefuses
  else s

end Sys2Proof.Machine
end

