-- ==== Sys2Proof/Machine/Tag.lean ====
section
/-! DEFINITION. Machine/Tag.lean: the tag interface (18): the state machine of the tag (18 R398), the commands of the
field (18 R401-R404), wired operations and arbitration (18 R405-R407), group policies (18 R409), the end of a commit (18
R410). The frames of the reader stand without their CRC_A: a frame with a wrong one arrives as TAG_FRAME_ERROR. -/

namespace Sys2Proof.Machine

/-! ### Power and field (18 R398) -/

/-- FSTATE of the tag. -/
def State.fstate (s : State) : Nat := s.fget TAG_STAT_FSTATE

/-- An event bit or a record of the field, made only while the core domain has power (18 R412). -/
def State.tagEvt (s : State) (f : Fld) : State := if s.powered then s.raise f else s

/-- TAG_POWER_UP (18 R398): the scrub, and IDLE. -/
def execTagPowerUp (dt : Nat) (field : Bool) (s : State) : Out :=
  timed dt (fun s => !s.tag.powered && (field || s.aon)) s (fun s =>
    let s := s.tagScrub.put TAG_STAT_FIELD field
    { s with tag := { s.tag with powered := true, field := field } })

/-- FIELD_ARRIVAL (18 R412). -/
def execFieldArrival (dt : Nat) (s : State) : Out :=
  timed dt (fun s => s.tag.powered && s.aon && !s.tag.field) s (fun s =>
    { s.raise TAG_STAT_FIELD with tag := { s.tag with field := true } })

/-- FIELD_LOSS (18 R398, R405, R407): without VDD_AON the domain powers down; with it the tag returns to IDLE, and a
commit in progress completes. -/
def execFieldLoss (dt : Nat) (s : State) : Out :=
  timed dt (fun s => s.tag.powered && s.tag.field) s (fun s =>
    if s.aon then
      let s := State.tagTxnEnds ((s.lower TAG_STAT_FIELD).tagState 0)
      { s with tag := { s.tag with field := false, woken := false, level1 := false, authed := [],
                                   commit := s.tag.commit.map fun c => { c with answers := false } } }
    else s.tagPowerDown)

/-- A frame of the reader reaches the tag: a field, and no command still running. -/
def State.hears (s : State) : Bool := s.tag.powered && s.tag.field && !s.on TAG_STAT_FTXN

/-- A frame the present state does not expect (18 Table 18.1). -/
def State.tagOther (s : State) : State :=
  if s.fstate = 1 ∨ s.fstate = 2 then
    { s.tagState (if s.tag.woken then 3 else 0) with tag := { s.tag with authed := [], level1 := false } }
  else s

/-! ### Anticollision (18 R397, R398) -/

/-- One bit of CRC_A of ISO/IEC 14443-3. -/
def crcABit (c : Nat) : Nat := if c % 2 = 1 then (c / 2) ^^^ 0x8408 else c / 2
/-- CRC_A: its two bytes, the low one first (log entry 150). -/
def crcA (bs : List Byte) : List Byte :=
  leBytes 2 (bs.foldl (fun c b => (List.range 8).foldl (fun c _ => crcABit c) (c ^^^ b.toNat)) 0x6363)

/-- The tag sends a standard frame, with its CRC_A. -/
def State.tagSends (s : State) (bs : List Byte) : State := s.emit (.tag 0 (bs ++ crcA bs))

/-- READY is entered: ATQA is sent. -/
def State.tagReady (s : State) (woken : Bool) : State :=
  let s := (s.tagState 1).emit (.tag 0 [0x42, 0x00])
  { s with tag := { s.tag with woken := woken, level1 := false } }

/-- REQA. -/
def execReqa (dt : Nat) (s : State) : Out :=
  timed dt State.hears s (fun s => if s.fstate = 0 then s.tagReady false else s.tagOther)

/-- WUPA. -/
def execWupa (dt : Nat) (s : State) : Out :=
  timed dt State.hears s (fun s =>
    if s.fstate = 0 then s.tagReady false else if s.fstate = 3 then s.tagReady true else s.tagOther)

/-- The bytes of the UID, from the serial number (18 R397). -/
def State.uid (s : State) (i : Nat) : Byte := Config.tagUid (Config.factorySerial s.otpCells) i

/-- The five bytes of a cascade level: CT, UID0 to UID2 and BCC, or UID3 to UID6 and BCC. -/
def State.cascade (s : State) (level2 : Bool) : List Byte :=
  let l := if level2 then [s.uid 3, s.uid 4, s.uid 5, s.uid 6] else [0x88, s.uid 0, s.uid 1, s.uid 2]
  l ++ [xorAll l]

/-- A bit-oriented frame: the bytes from bit `n` on. Of a byte that the reader has sent in part, the bits that are left go
first, shifted down; how many are left out stands beside them. -/
def bitFrame (n : Nat) (bs : List Byte) : Nat × List Byte :=
  (n % 8, (bs.drop (n / 8)).mapIdx fun i (b : Byte) => if i = 0 then b >>> (n % 8) else b)

/-- The first `n` bits of both byte strings, least significant bit of each byte first, are the same. -/
def samePrefix (n : Nat) (a b : List Byte) : Bool :=
  (List.range n).all fun i => (a.getD (i / 8) 0).getLsbD (i % 8) == (b.getD (i / 8) 0).getLsbD (i % 8)

/-- ANTICOLLISION: SEL, NVB and the bits known so far; the tag answers with the bits that follow. -/
def execAnticollision (dt : Nat) (bytes : List Byte) (s : State) : Out :=
  timed dt State.hears s (fun s =>
    match bytes with
    | sel :: nvb :: known =>
      let n := 8 * (nvb.toNat / 16 - 2) + nvb.toNat % 16
      if s.fstate = 1 ∧ sel = (if s.tag.level1 then 0x95 else 0x93) ∧ 0x20 ≤ nvb ∧ nvb < 0x70 ∧ nvb.toNat % 16 < 8 ∧
          known.length = cdiv n 8 ∧ samePrefix n known (s.cascade s.tag.level1) then
        let f := bitFrame n (s.cascade s.tag.level1)
        s.emit (.tag f.1 f.2)
      else s.tagOther
    | _ => s.tagOther)

/-- SELECT at level 1 or 2 with the five bytes of the level. -/
def execSelect (dt : Nat) (level : Fin 2) (bytes : List Byte) (s : State) : Out :=
  timed dt State.hears s (fun s =>
    if s.fstate = 1 ∧ s.tag.level1 = decide (level = 1) ∧ bytes = s.cascade s.tag.level1 then
      if s.tag.level1 then
        { (s.tagState 2).tagSends [0x00] with tag := { s.tag with authed := [] } }
      else { s.tagSends [0x04] with tag := { s.tag with level1 := true } }
    else s.tagOther)

/-- HLTA. -/
def execHlta (dt : Nat) (s : State) : Out :=
  timed dt State.hears s (fun s =>
    if s.fstate = 2 then { s.tagState 3 with tag := { s.tag with authed := [] } } else s.tagOther)

/-- TAG_FRAME_ERROR. -/
def execTagFrameError (dt : Nat) (s : State) : Out := timed dt State.hears s State.tagOther

/-! ### Groups (18 R399, R403, R404) -/

/-- The policy of group `g`: bit 0 FRE, bit 1 FWE, bit 2 RPW, bit 3 WPW. -/
def State.grpPolicy (s : State) (g : Nat) : Nat := ((s.tagRead (tagCfgKey g)).getD 0 0).toNat % 16
/-- The password of group `g`. -/
def State.grpPassword (s : State) (g : Nat) : List Byte := slice (s.tagRead (tagCfgKey g)) 1 8
/-- ATTEMPTS of group `g`. -/
def State.grpAttempts (s : State) (g : Nat) : Nat := ((s.tagRead (tagCfgKey g)).getD 9 0).toNat
/-- Group `g` is LOCKED. -/
def State.grpLocked (s : State) (g : Nat) : Bool := decide (8 ≤ s.grpAttempts g)
/-- The stored password of group `g` is not zero. -/
def State.grpPwset (s : State) (g : Nat) : Bool := (s.grpPassword g).any fun b => decide (b ≠ 0)
/-- The configuration of a group as its copies hold it. -/
def cfgBytes (policy : Nat) (pw : List Byte) (attempts : Nat) : List Byte :=
  BitVec.ofNat 8 policy :: padTo 8 pw ++ [BitVec.ofNat 8 attempts]
/-- The read-back of a commit fails, which is left open (18 Table 18.6, C3): its target copy is not valid. -/
def State.commitFails (s : State) : Bool := Config.freeBit s.freeCtr

/-- A commit of `data` into line `k`, up to its end: whether its read-back succeeded, and the state it leaves. -/
def State.commitTried (s : State) (k : Nat) (data : List Byte) : Bool × State :=
  let t := s.drawn 1
  if s.commitFails then (false, t.tagCut k) else (true, t.tagCommit k data)

/-- ATTEMPTS of group `g` is committed. -/
def State.setAttempts (s : State) (g n : Nat) : Bool × State :=
  s.commitTried (tagCfgKey g) (cfgBytes (s.grpPolicy g) (s.grpPassword g) n)

/-! ### Wired operations and arbitration (18 R405, R406) -/

/-- A wired operation ends with `err`; the next write of the last fault record begins. -/
def State.wiredEnds (s : State) (err : Nat) : State :=
  let s := (s.lower TAG_STAT_WBUSY).tagEvt (if err = 0 then TAG_EVT_WDONE else TAG_EVT_WERR)
  State.faultWrites { (if s.powered then s.fset TAG_WCMD_ERR err else s) with tag := { s.tag with reading := none } }

/-- A wired read of line `l` ends: the data, or VERIFY where no copy is valid. -/
def State.wiredRead (s : State) (l : Nat) : State :=
  let d := s.tagRead l
  let s := if s.powered then (List.range 4).foldl (fun s k => s.wr (TAG_WDATA k) (BitVec.ofNat 64 (leAt d (4 * k) 4))) s else s
  s.wiredEnds (if (s.tagLine l).current.isNone then 3 else 0)

/-- The configuration commit of an APPLY ends. -/
def State.applyEnds (s : State) : State :=
  match s.tag.apply with
  | some (k, d) =>
    let r := s.commitTried k d
    { r.2.lower TAG_GRPCFG_BUSY with tag := { r.2.tag with apply := none } }
  | none => s

/-- The wired write `c` is abandoned; Kindling writes its line of the last fault record again. -/
def State.preempted (s : State) (c : TagCommit) : State :=
  let s := if s.bootFailed || decide (s.sys.mode = .quench) then
      (if c.line = 192 ∨ c.line = 193 then { s with tag := { s.tag with record := (c.line, c.data) :: s.tag.record } } else s)
    else s
  let s := ((s.tagCut c.line).lower TAG_STAT_WBUSY).tagEvt TAG_EVT_WERR
  (if s.powered then s.fset TAG_WCMD_ERR 2 else s).tagEvt TAG_EVT_PREEMPT

/-- A commit of the field that has lost its field completes before the next command runs (18 R407). -/
def State.lateCommit (s : State) (c : TagCommit) : State :=
  let r := s.commitTried c.line c.data
  if r.1 && r.2.powered then ((r.2.raise TAG_EVT_FWRITE).raise TAG_FINFO_FVALID).fset TAG_FINFO_FLINE c.line else r.2

/-- A field transaction begins (18 Table 18.5): a wired read completes; a wired write completes in C5 and is abandoned
before it, which one is left open. An APPLY under way completes (log entry 61). -/
def State.fieldBegins (s : State) : State :=
  let s := s.applyEnds
  let s := match s.tag.reading with
    | some l => s.wiredRead l
    | none => s
  match s.tag.commit with
  | some c =>
    let t := { s with tag := { s.tag with commit := none } }
    if c.field then t.lateCommit c
    else if Config.freeBit t.freeCtr then ((t.drawn 1).tagCommit c.line c.data).wiredEnds 0
    else (t.drawn 1).preempted c
  | none => s

/-- The answer of a command: its status and data. -/
def State.tagAnswer (s : State) (status : Byte) (d : List Byte) : State := s.tagSends (status :: d)

/-- A command of the field: executed in ACTIVE, an unexpected frame elsewhere and with a wrong length. -/
def tagCommand (dt : Nat) (okLen : Bool) (s : State) (f : State → State) : Out :=
  timed dt State.hears s (fun s => if s.fstate = 2 ∧ okLen then (f s.fieldBegins).faultWrites else s.tagOther)

/-- GET_INFO (18 R401). -/
def execGetInfo (dt : Nat) (s : State) : Out :=
  tagCommand dt true s (fun s =>
    let flags := (List.range 8).map fun g => BitVec.ofNat 8 (s.grpPolicy g + (if s.grpLocked g then 16 else 0) +
      (if s.tag.authed.contains g then 32 else 0) + (if s.grpPwset g then 64 else 0))
    s.tagAnswer 0 ([0x01, 0x02, 0x00] ++ flags ++ List.replicate 5 0))

/-- Why the field may not reach line `l`: the checks of 18 R402, for a read or a write. -/
def State.fieldRefused (s : State) (l : Nat) (write : Bool) : Option Byte :=
  let g := l / 64
  let p := s.grpPolicy g
  if 511 < l then some 5
  else if (if write then p / 2 else p) % 2 = 0 then some 2
  else if s.grpLocked g then some 3
  else if (if write then p / 8 else p / 4) % 2 = 1 ∧ !s.tag.authed.contains g then some 1
  else none

/-- READ with LINE (18 R402). -/
def execTagRead (dt : Nat) (bytes : List Byte) (s : State) : Out :=
  tagCommand dt (decide (bytes.length = 2)) s (fun s =>
    let l := beNat bytes
    match s.fieldRefused l false with
    | some e => s.tagAnswer e []
    | none => s.tagAnswer 0 (s.tagRead l))

/-- The rectified supply is below the write threshold, which is left open; never while VDD_AON feeds the tag (21 R458). -/
def State.lowField (s : State) : Bool := !s.aon && Config.freeBit s.freeCtr

/-- WRITE with LINE and 16 bytes (18 R402): the commit begins, and the transaction runs until its response. -/
def execTagWrite (dt : Nat) (bytes : List Byte) (s : State) : Out :=
  tagCommand dt (decide (bytes.length = 18)) s (fun s =>
    let l := beNat (bytes.take 2)
    match s.fieldRefused l true with
    | some e => s.tagAnswer e []
    | none =>
      let low := s.lowField
      let s := s.drawn 1
      if low then s.tagAnswer 6 []
      else { s.raise TAG_STAT_FTXN with tag := { s.tag with
          commit := some { line := l, data := bytes.drop 2, field := true } } })

/-- A group locks: the event and its record (18 R404). -/
def State.lockout (s : State) (g : Nat) : State :=
  if s.powered then ((s.raise TAG_EVT_LOCKOUT).raise TAG_FINFO_LVALID).fset TAG_FINFO_LGRP g else s

/-- The password of an AUTH is compared once the attempt is committed: `n` attempts are counted. A commit whose read-back
fails ends the command in silence (18 R403, R410). -/
def State.authCompare (s : State) (g n : Nat) (pw : List Byte) : State :=
  if pw = s.grpPassword g then
    match s.setAttempts g 0 with
    | (true, s) => State.tagAnswer { s with tag := { s.tag with authed := g :: s.tag.authed } } 0 []
    | (false, s) => s
  else
    let s := s.tagEvt TAG_EVT_AUTH_FAIL
    let s := if 8 ≤ n then s.lockout g else s
    s.tagAnswer 4 [BitVec.ofNat 8 (8 - n)]

/-- AUTH with GROUP and a password (18 R403): the attempt is committed before the comparison. A supply below the write
threshold is found before that commit (21 Table 21.7; DEDUCED, log entry 151). -/
def execTagAuth (dt : Nat) (bytes : List Byte) (s : State) : Out :=
  tagCommand dt (decide (bytes.length = 9)) s (fun s =>
    let g := (bytes.headD 0).toNat
    if 7 < g then s.tagAnswer 5 []
    else if s.grpLocked g then s.tagAnswer 3 []
    else if !s.grpPwset g then s.tagAnswer 2 []
    else if s.lowField then (s.drawn 1).tagAnswer 6 []
    else
      let n := s.grpAttempts g + 1
      match (s.drawn 1).setAttempts g n with
      | (true, s) => s.authCompare g n (bytes.drop 1)
      | (false, s) => s)

/-- A commit of the field ends (18 R406, R407, R410): the response is sent where the field has held; one whose read-back
failed ends in silence. -/
def State.fieldCommitEnds (s : State) (c : TagCommit) : State :=
  match s.commitTried c.line c.data with
  | (false, s) => s.tagTxnEnds
  | (true, s) =>
    let s := s.tagTxnEnds
    let s := if s.powered then ((s.raise TAG_EVT_FWRITE).raise TAG_FINFO_FVALID).fset TAG_FINFO_FLINE c.line else s
    if c.answers then s.tagAnswer 0 [] else s

/-- A commit of the wire ends: TAG_WIRED_DONE reports it, or it ends with VERIFY (18 R410). -/
def State.wiredCommitEnds (s : State) (c : TagCommit) : State :=
  match s.commitTried c.line c.data with
  | (false, s) => s.wiredEnds 3
  | (true, s) => s

/-- TAG_COMMIT_DONE (18 R410): the commit of a line, or else that of an APPLY. -/
def execTagCommitDone (dt : Nat) (s : State) : Out :=
  timed dt (fun s => s.tag.powered) s (fun s =>
    match s.tag.commit with
    | some c =>
      let s := { s with tag := { s.tag with commit := none } }
      if c.field then (s.fieldCommitEnds c).faultWrites else s.wiredCommitEnds c
    | none => s.applyEnds)

/-- A wired operation starts: a line is read, or the commit of a line begins. -/
def State.wiredStarts (s : State) (write : Bool) (l : Nat) (d : List Byte) : State :=
  if write then s.wiredWrite l d
  else
    let s := (s.raise TAG_STAT_WBUSY).lower TAG_STAT_WWAIT
    { s with tag := { s.tag with waiting := none, reading := some l } }

/-- A wired operation that is refused before it starts. -/
def State.wiredRefused (s : State) (err : Nat) : State := (s.fset TAG_WCMD_ERR err).raise TAG_EVT_WERR

/-- A write of TAG_WCMD (18 R405, R409, R412). -/
def State.tagWcmd (s : State) (v : Word32) : State :=
  let op := v.toNat / 2 ^ 24 % 4
  let l := v.toNat % 512
  if s.on TAG_STAT_WBUSY || s.on TAG_STAT_WWAIT then (if v.getLsbD 31 then s else (s.fset TAG_WCMD_OP op).fset TAG_WCMD_LINE l)
  else
    let s := (s.fset TAG_WCMD_OP op).fset TAG_WCMD_LINE l
    if !v.getLsbD 31 then s
    else if op ≠ 1 ∧ op ≠ 2 then s.wiredRefused 4
    else if op = 2 ∧ l < 64 ∧ !s.early then s.wiredRefused 1
    else
      let d := (List.range 4).flatMap fun k => leBytes 4 (s.rd (TAG_WDATA k)).toNat
      if s.tagBusy then
        { s.raise TAG_STAT_WWAIT with tag := { s.tag with waiting := some (decide (op = 2), l, d) } }
      else s.wiredStarts (decide (op = 2)) l d

/-- TAG_WIRED_START (18 R406). -/
def execTagWiredStart (dt : Nat) (s : State) : Out :=
  timed dt (fun s => s.tag.powered && !s.tagBusy && s.tag.waiting.isSome) s (fun s =>
    match s.tag.waiting with
    | some (w, l, d) => s.wiredStarts w l d
    | none => s)

/-- TAG_WIRED_DONE (18 R406): a read ends with its data, a write after its commit. -/
def execTagWiredDone (dt : Nat) (s : State) : Out :=
  timed dt (fun s => s.tag.powered && s.on TAG_STAT_WBUSY && s.tag.commit.isNone) s (fun s =>
    match s.tag.reading with
    | some l => s.wiredRead l
    | none => s.wiredEnds 0)

/-! ### Group policy (18 R409, R412) -/

/-- The policy shown and staged for the selected group. -/
def State.grpShown (s : State) (g : Nat) : Nat := s.tag.policy.getD (s.grpPolicy g)

/-- TAG_GRPCFG shows the selected group. -/
def State.grpCfg (s : State) : Word :=
  let g := s.fget TAG_GRPSEL_GROUP
  (s.rd TAG_GRPCFG &&& 0x60000000) ||| BitVec.ofNat 64 ((if s.grpLocked g then 2 ^ 12 else 0) + s.grpAttempts g % 16 * 2 ^ 8 +
    (if s.grpPwset g then 16 else 0) + s.grpShown g)

/-- A write of TAG_GRPSEL: another group's staged values are dropped (log entry 62). -/
def State.grpSelect (s : State) (v : Word32) : State :=
  if v.toNat % 8 = s.fget TAG_GRPSEL_GROUP then s
  else { s.fset TAG_GRPSEL_GROUP v.toNat with tag := { s.tag with policy := none, password := none } }

/-- A write of TAG_GRPPW stages the password. -/
def State.grpPw (s : State) (v : Word) : State := { s with tag := { s.tag with password := some v } }

/-- A write of TAG_GRPCFG: the policy is staged, and APPLY commits it under its conditions. -/
def State.grpApply (s : State) (v : Word32) : State :=
  let s := { s with tag := { s.tag with policy := some (v.toNat % 16) } }
  if !v.getLsbD 31 then s
  else
    let g := s.fget TAG_GRPSEL_GROUP
    let pw := match s.tag.password with
      | some w => beBytes 8 w.toNat
      | none => s.grpPassword g
    let zero := pw.all fun b => decide (b = 0)
    if !(decide (s.sys.mode = .custody) || s.early) || decide (g = 0) || (zero && decide (4 ≤ v.toNat % 16)) ||
        s.on TAG_GRPCFG_BUSY then s.raise TAG_GRPCFG_ERR
    else
      { (s.lower TAG_GRPCFG_ERR).raise TAG_GRPCFG_BUSY with tag := { s.tag with
          policy := none, password := none, apply := some (tagCfgKey g, cfgBytes (v.toNat % 16) pw 0) } }

end Sys2Proof.Machine
end

