-- ==== Sys2Proof/Machine/Obs.lean ====
section
/-!
DEFINITION. Machine/Obs.lean: calibration (19 R413-R417), counters and bandwidth windows (19 R418-R421), the observation
channels (19 R424) and the TAP (19 R425). Overlay items 3 to 7 take the places of log entry 63.
-/

namespace Sys2Proof.Machine

/-! ### Effective values (19 R414, R417) -/

/-- The factory value of the registers of ITEM 0x06, in the order of 19 Table 19.1. -/
def factoryReg (i : Nat) : Nat := [15, 1800, 40000000, 18 * 256 + 12, 2000].getD i 0

/-- A tempo factor of the factory before the conditions of 03 R81: the +110 °C point of a 0.70 V table is 1.0. -/
def rawTempo (c : List Host.Cell) (index word : Nat) : Nat :=
  if index % 4 = 0 ∧ word = 30 then 0x10000 else (Config.factoryCal c 2 index word).toNat

/-- The factory's tempo factor at a point of a table (03 R81): no point is above a later point of its table, nor above
the same point of the table for a lower voltage of its cluster, nor above the 1.0 at +110 °C and 0.70 V. -/
def factoryTempo (c : List Host.Cell) (index word : Nat) : Nat :=
  ((List.range (index % 4 + 1)).flatMap fun v =>
    (List.range (31 - word)).map fun k => rawTempo c (index / 4 * 4 + v) (word + k)).foldl min 0x10000

/-- The factory value of a calibration word, from the cells of the factory area. -/
def factoryWord (c : List Host.Cell) (item index word : Nat) : Word32 :=
  if item = 2 then BitVec.ofNat 32 (factoryTempo c index word)
  else if item = 5 then (if word = 0 then 41 else 840)
  else if item = 6 then BitVec.ofNat 32 (factoryReg index)
  else Config.factoryCal c item index word

/-- The overlay's last value for a place. -/
def overlaid (o : List CalWord) (item index word : Nat) : Option Word32 :=
  (o.reverse.find? (fun x => decide (x.item = item ∧ x.index = index ∧ x.word = word))).map (·.value)

/-- The effective value of a word: the overlay's last, or the factory's. -/
def effective (c : List Host.Cell) (o : List CalWord) (item index word : Nat) : Word32 :=
  (overlaid o item index word).getD (factoryWord c item index word)

/-! ### Tamper thresholds (15 Table 15.1, 20 Table 20.6, 21 R450) -/

/-- The nominal voltage of the rail of a glitch or slow-excursion source but VDD_CORE's, in mV. -/
def railNominal (n : Nat) : Int := [800, 1200, 1100, 600, 1800, 1800].getD (n % 8 - 1) 0

/-- The factory limits of a tamper source, low and high, in mV or m°C; none where unused. -/
def tmpFactory (n : Nat) : Option Int × Option Int :=
  if n = 0 then (some 620, some 950)
  else if n ≤ 6 then (some (railNominal n * 85 / 100), some (railNominal n * 115 / 100))
  else if n = 8 then (some 680, some 870)
  else if 9 ≤ n ∧ n ≤ 13 then (some (railNominal n * 93 / 100), some (railNominal n * 107 / 100))
  else if n = 14 then (none, some (railNominal n * 107 / 100))
  else if n = 15 then (some 2400, none)
  else if n = 16 then (none, some 120000)
  else if n = 17 then (some (-55000), none)
  else if n = 22 then (none, some Config.lightLimit.toInt)
  else (none, none)

/-- The operating range of what a tamper source watches, widened by the 10 mV or 2 °C that a limit keeps from it; the
light sensors have none. -/
def tmpRange (n : Nat) : Option (Int × Int) :=
  if n = 0 ∨ n = 8 then some (690, 860)
  else if n ≤ 14 then some (railNominal n * 97 / 100 - 10, railNominal n * 103 / 100 + 10)
  else if n = 15 then some (2590, 3610)
  else if n = 16 ∨ n = 17 then some (-42000, 112000)
  else none

/-- A limit is no looser than the factory's and keeps its distance from the operating range. -/
def tmpTighter (n : Nat) (high : Bool) (v : Int) : Bool :=
  if high then (tmpFactory n).2.all (fun f => decide (v ≤ f)) && (tmpRange n).all (fun r => decide (r.2 ≤ v))
  else (tmpFactory n).1.all (fun f => decide (f ≤ v)) && (tmpRange n).all (fun r => decide (v ≤ r.1))

/-- The threshold word of a source keeps its clamp: only the limits that the source has count. -/
def tmpClamp (n : Nat) (w : Word32) : Bool :=
  ((tmpFactory n).1.isNone || tmpTighter n false (Config.tmpLimit n false w).toInt) &&
    ((tmpFactory n).2.isNone || tmpTighter n true (Config.tmpLimit n true w).toInt)

/-- The limit of a source in force: the overlay's, or the factory's; 0 where unused. -/
def tmpShown (o : List CalWord) (n : Nat) (high : Bool) : Word32 :=
  match if high then (tmpFactory n).2 else (tmpFactory n).1 with
  | none => 0
  | some f => match overlaid o 4 n 0 with
    | some w => Config.tmpLimit n high w
    | none => BitVec.ofInt 32 f

/-! ### Clamps (19 Table 19.1) -/

/-- The points of a table of ITEM 0x01 or 0x02. -/
def calPoints (item : Nat) : Nat := if item = 1 then 17 else 31

/-- The number of values at an index of an item; none where the item or the index is unknown (19 Table 19.1). -/
def calSize (item index : Nat) : Option Nat :=
  match item with
  | 1 => if index < 52 then some 17 else none
  | 2 => if index < 12 then some 31 else none
  | 3 => if Config.boundWords index = 0 then none else some (Config.boundWords index)
  | 4 => if index < 28 ∧ index ≠ 7 then some 1 else none
  | 5 => if index = 0 then some 2 else none
  | 6 => if index < 5 then some 1 else none
  | 7 => if index = 0 then some 1 else none
  | _ => none

/-- The table of `item` and `index` does not decrease around word `w`. -/
def calRises (c : List Host.Cell) (o : List CalWord) (item index w : Nat) : Bool :=
  let y (k : Nat) : Int := (effective c o item index k).toInt
  (decide (w = 0) || decide (y (w - 1) ≤ y w)) && (decide (w + 1 = calPoints item) || decide (y w ≤ y (w + 1)))

/-- A register value is raised, to at most four times the factory's. -/
def raised (f v : Nat) : Bool := decide (f ≤ v) && decide (v ≤ 4 * f)

/-- The effective value of a word keeps its clamp (19 Table 19.1). -/
def calClamp (c : List Host.Cell) (o : List CalWord) (item index w : Nat) : Bool :=
  let v := effective c o item index w
  let f := factoryWord c item index w
  match item with
  | 1 => decide (f.toInt ≤ v.toInt) && decide (v.toInt ≤ f.toInt + 0x30000) && calRises c o 1 index w
  | 2 => decide (f.toInt ≤ v.toInt) && decide (v.toInt ≤ 0x14000) && calRises c o 2 index w &&
      (decide (index % 4 = 3) || decide ((effective c o 2 (index + 1) w).toInt ≤ v.toInt)) &&
      (decide (index % 4 = 0) || decide (v.toInt ≤ (effective c o 2 (index - 1) w).toInt))
  | 3 => decide (f.toNat ≤ v.toNat) && decide (4 * v.toNat ≤ 5 * f.toNat)
  | 4 => tmpClamp index v
  | 5 => if w = 0 then decide (2 ≤ v.toNat) && decide (v.toNat ≤ 41) else decide (v.toNat ≤ 840)
  | 6 =>
    if index = 3 then decide (v.toNat < 65536) && raised 18 (v.toNat / 256) && raised 12 (v.toNat % 256)
    else raised f.toNat v.toNat
  | _ => decide (v.toNat ≤ 31) && decide (v.toNat ≤ f.toNat + 4) && decide (f.toNat ≤ v.toNat + 4)

/-! ### Overlays (19 R415, R416) -/

/-- An entry of an overlay: the words FIRST to FIRST + COUNT − 1 of table or source INDEX of ITEM (19 Table 19.2). -/
structure CalEntry where
  item : Nat
  index : Nat
  first : Nat
  values : List Word32
  deriving DecidableEq, Repr

/-- The words of an entry. -/
def CalEntry.words (e : CalEntry) : List CalWord :=
  e.values.mapIdx fun i v => { item := e.item, index := e.index, word := e.first + i, value := v }

/-- The entries that bytes spell: none where they do not fill the bytes exactly. -/
def calEntries : Nat → List Byte → Option (List CalEntry)
  | 0, l => if l.isEmpty then some [] else none
  | n + 1, l =>
    let count := leAt l 6 2
    if l.length < 8 + 4 * count then none
    else
      let e : CalEntry := { item := leAt l 0 2, index := leAt l 2 2, first := leAt l 4 2,
                            values := (List.range count).map fun i => BitVec.ofNat 32 (leAt l (8 + 4 * i) 4) }
      (calEntries n (l.drop (8 + 4 * count))).map fun t => e :: t

/-- Why an entry is refused, if it is: an item of the factory alone, an unknown item or index, a range beyond the item, a
broken clamp (19 R416). -/
def entryRefused (c : List Host.Cell) (o : List CalWord) (e : CalEntry) : Option Nat :=
  if e.item = 8 ∨ e.item = 9 then some 4
  else match calSize e.item e.index with
    | none => some 3
    | some n =>
      if n < e.first + e.values.length then some 3
      else if e.words.any (fun x => !calClamp c o x.item x.index x.word) then some 2
      else none

/-- The first refused entry, numbered from `i`. -/
def firstRefused (c : List Host.Cell) (o : List CalWord) : Nat → List CalEntry → Option (Nat × Nat)
  | _, [] => none
  | i, e :: t => match entryRefused c o e with
    | some r => some (r, i)
    | none => firstRefused c o (i + 1) t

/-- The address of an overlay copy. -/
def ovlAt (copy : Nat) : Nat := 0x10070000 + 0x10000 * copy

/-- SEQ of a copy. -/
def State.ovlSeq (s : State) (copy : Nat) : Nat := leNat (memRead s.mem (ovlAt copy + 8) 4)

/-- A granule of an overlay copy as CAL reads it, through the controller's internal path: no access table judges it; a
read of the block being erased and a double-bit error give no data (14 R329, R336, 19 R417). -/
def State.calGranule (s : State) (addr : Nat) : Ans (List Byte) :=
  if s.erasing addr then (.error .target, s) else s.flashRead.readNow addr 32

/-- `n` granules as CAL reads them. -/
def State.calGranules (s : State) (addr : Nat) : Nat → Ans (List Byte)
  | 0 => (.ok [], s)
  | n + 1 =>
    match s.calGranule addr with
    | (.error e, s) => (.error e, s)
    | (.ok bs, s) =>
      match s.calGranules (addr + 32) n with
      | (.error e, s) => (.error e, s)
      | (.ok t, s) => (.ok (bs ++ t), s)

/-- The bytes of overlay copy `copy`, header, entries and digest; a header that is wrong gives the header alone. -/
def State.ovlBytes (s : State) (copy : Nat) : Ans (List Byte) :=
  match s.calGranules (ovlAt copy) 1 with
  | (.error e, s) => (.error e, s)
  | (.ok h, s) =>
    let n := 64 + min 65440 (leAt h 12 4)
    match s.calGranules (ovlAt copy) ((n + 31) / 32) with
    | (.error e, s) => (.error e, s)
    | (.ok b, s) => (.ok (b.take n), s)

/-- A copy is intact (19 R415). -/
def ovlIntact (b : List Byte) : Bool :=
  let len := leAt b 12 4
  decide (leAt b 0 4 = 0x4F564C31) && decide (leAt b 4 2 = 1) && decide (leAt b 6 2 ≤ 1024) && decide (len ≤ 65440) &&
    (slice b 16 16).all (fun x => decide (x = 0)) && decide (sha2Digest 32 (b.take (32 + len)) = b.drop (32 + len))

/-- The overlay that the bytes of a copy spell, or the reason and the entry that refuse it (19 R416). -/
def ovlOf (c : List Host.Cell) (b : List Byte) : Except (Nat × Nat) (List CalWord) :=
  if !ovlIntact b then .error (1, 0)
  else match calEntries (leAt b 6 2) (slice b 32 (leAt b 12 4)) with
    | none => .error (1, 0)
    | some es =>
      let o := es.flatMap CalEntry.words
      match firstRefused c o 0 es with
      | some e => .error e
      | none => .ok o

/-- The overlay of a copy as CAL reads it; a copy that cannot be read whole is not intact. -/
def State.overlay (s : State) (copy : Nat) : Except (Nat × Nat) (List CalWord) × State :=
  match s.ovlBytes copy with
  | (.error _, s) => (.error (1, 0), s)
  | (.ok b, s) => (ovlOf s.obs.cells b, s)

/-! ### Loading and applying (19 R414, R417) -/

/-- The registers of ITEM 0x06 as calibration gives them. -/
def State.loadCalRegs (s : State) (o : List CalWord) : State :=
  let v (i : Nat) : Word := (effective s.obs.cells o 6 i 0).setWidth 64
  let s := ((s.fset ADM_LGUARD_GMAX (v 0).toNat).wr ADM_FETCH_HOT (v 1)).wr ADM_FETCH_SEAL (v 2)
  (s.wr DSP_LDR_CFG (v 3)).wr DSP_LDR_MIR (v 4)

/-- The cut-offs of ITEM 0x05. -/
def State.cutoffs (s : State) (o : List CalWord) : Nat × Nat :=
  ((effective s.obs.cells o 5 0 0).toNat, (effective s.obs.cells o 5 0 1).toNat)

/-- The antenna tuning of ITEM 0x07 is due; it takes effect when no field transaction runs (18 R405). -/
def State.tuneTag (s : State) (o : List CalWord) : State :=
  State.tagTuned { s with tag := { s.tag with nextTuning := some ((effective s.obs.cells o 7 0 0).setWidth 5) } }

/-- Boot step 0x08 loads every calibrated field at once. -/
def State.loadCal (s : State) (o : List CalWord) : State :=
  let s := (s.loadCalRegs o).tuneTag o
  (s.fset RNG_CUTOFF_RCT_C (s.cutoffs o).1).fset RNG_CUTOFF_APT_C (s.cutoffs o).2

/-- An apply rewrites the registers now; the cut-offs take effect with the next window set (19 Table 19.1). -/
def State.applyCal (s : State) (o : List CalWord) : State :=
  let s := (s.loadCalRegs o).tuneTag o
  { s with rng := { s.rng with nextCutoff := some (s.cutoffs o) } }

/-- Copy `copy` is in force, in bank `b`. -/
def State.ovlInForce (s : State) (copy : Nat) (o : List CalWord) (b : Nat) : State :=
  let s := ((s.fset CAL_STAT_BANK b).fset CAL_STAT_OVL_COPY copy).raise CAL_STAT_OVL_ACTIVE
  let s := (s.wr CAL_OVLSEQ (BitVec.ofNat 64 (s.ovlSeq copy))).wr CAL_OVLSTAT 0
  { s with obs := if b = 0 then { s.obs with bank0 := o } else { s.obs with bank1 := o } }

/-- The copy that BOOT tries first: the newer one. -/
def State.newerCopy (s : State) : Nat :=
  let d := (s.ovlSeq 1 + 2 ^ 32 - s.ovlSeq 0) % 2 ^ 32
  if 1 ≤ d ∧ d ≤ 2 ^ 31 then 1 else 0

/-- The overlay that BOOT chooses (19 R416). -/
def State.chooseOverlay (s : State) : State :=
  let a := s.newerCopy
  match s.overlay a with
  | (.ok o, s) => (s.ovlInForce a o 0).loadCal o
  | (.error (e, n), s) =>
    match s.overlay (1 - a) with
    | (.ok o, s) => (s.ovlInForce (1 - a) o 0).loadCal o
    | (.error _, s) =>
      let s := (s.raise CAL_EVT_OVL_SKIP).wr CAL_OVLSTAT (BitVec.ofNat 64 (e * 2 ^ 28 + n))
      { s.loadCal [] with obs := { s.obs with bank0 := [] } }

/-- The factory area verifies (19 R413): it ends with a header in the form of 13 Table 13.5, whose body is what stands
before it (log entry 149). -/
def State.factoryOk (s : State) : Bool × State :=
  match s.pieceRead kindling 0x10010000 0x30000 with
  | (.error _, s) => (false, s)
  | (.ok b, s) =>
    let h := b.drop (0x30000 - 0xD90)
    (s.headerOk h 0 0 (0x30000 - 0xD90) && decide (leAt h 5 1 = 0) &&
      s.signed 0 (h.take 64 ++ b.take (leAt h 8 4)) (slice h 0x40 96) (slice h 0xA0 3309), s)

/-- What calibration loads once the factory area has verified (19 R414). -/
def State.calibrated (s : State) : State :=
  let s := { s with obs := { s.obs with cells := s.otpCells } }
  let s := s.chooseOverlay
  let s := { s with sys := { s.sys with serial := Config.factorySerial s.otpCells } }
  let s := s.wr SVC_DEVID (BitVec.ofNat 64 (s.sys.serial.toNat % 2 ^ 32))
  let s := (List.range 4).foldl (fun s p => s.wr (SVC_MAC p) ((Config.factoryMac s.otpCells p).setWidth 64)) s
  (s.raise CAL_STAT_FACT_OK).stepEnds 8

/-- CALIBRATION_LOAD: step 0x08 (19 R414). -/
def execCalibrationLoad (dt : Nat) (s : State) : Out :=
  timed dt (fun s => s.bootStep 8) s (fun s =>
    match (s.atStep 8).factoryOk with
    | (true, s) => s.calibrated
    | (false, s) => s.bootFails 8)

/-- A write of CAL_APPLY (19 R417): any write that is not accepted is refused with ERR 5. -/
def State.calApply (s : State) (v : Word32) : State :=
  let mode := decide (s.sys.mode = .service) || decide (s.sys.mode = .custody) ||
    (decide (s.sys.mode = .boot) && s.sys.stepsDone.getLsbD 8)
  if v.getLsbD 31 && mode && !s.on CAL_STAT_BUSY then
    { s.raise CAL_STAT_BUSY with
      obs := { s.obs with applying := v.toNat % 2 }
      flc := { s.flc with calReady := false } }
  else (s.raise CAL_EVT_APPLY_ERR).wr CAL_OVLSTAT (BitVec.ofNat 64 (5 * 2 ^ 28))

/-- The apply ends: the switch, or the refusal of the copy. -/
def State.calSwitch (s : State) : State :=
  let c := s.obs.applying
  match (s.lower CAL_STAT_BUSY).overlay c with
  | (.ok o, s) => ((s.ovlInForce c o (1 - s.fget CAL_STAT_BANK)).applyCal o).raise CAL_EVT_APPLIED
  | (.error (e, n), s) => (s.raise CAL_EVT_APPLY_ERR).wr CAL_OVLSTAT (BitVec.ofNat 64 (e * 2 ^ 28 + n))

/-- The array answers CAL's reads: it is free, it has been free for them since the write of CAL_APPLY, or the copy lies in
the block being erased, whose reads end at once (14 R335, R336). -/
def State.calReads (s : State) : Bool := !s.arrayBusy || s.flc.calReady || s.erasing (ovlAt s.obs.applying)

/-- CALIBRATION_SWITCH (19 R417): a test of a tamper source delays it, and so does the flash array. -/
def execCalibrationSwitch (dt : Nat) (s : State) : Out :=
  timed dt (fun s => s.powered && s.on CAL_STAT_BUSY && !s.on TMP_BIST_BUSY && s.calReads) s State.calSwitch

/-- The overlay of a bank. -/
def State.calBank (s : State) (b : Nat) : List CalWord := if b = 0 then s.obs.bank0 else s.obs.bank1

/-- Word `k` of a table in TLI format with `n` points. -/
def tliWord (c : List Host.Cell) (o : List CalWord) (item index n : Nat) (x0 step : Word32) (k : Nat) : Word32 :=
  if k = 0 then BitVec.ofNat 32 (0x01000000 + n) else if k = 1 then x0 else if k = 2 then step else if k = 3 then 0
  else if k - 4 < n then effective c o item index (k - 4) else 0

/-- The effective-table window of bank `b` at an offset (19 Table 19.3): an offset that holds nothing reads 0 (00 R8). -/
def State.calWindow (s : State) (b o : Nat) : Word32 :=
  let c := s.obs.cells
  let w := s.calBank b
  if o < 0xC00 then tliWord c w 2 (o / 0x100) 31 0xFFD80000 0x00050000 (o % 0x100 / 4)
  else if 0x1000 ≤ o ∧ o < 0x1000 + 0x80 * 52 then
    let i := (o - 0x1000) / 0x80
    tliWord c w 1 i 17 (factoryWord c 1 i 17) (factoryWord c 1 i 18) (o % 0x80 / 4)
  else if 0x3000 ≤ o ∧ o < 0x3000 + 8 * 28 then
    tmpShown w ((o - 0x3000) / 8) (decide (o / 4 % 2 = 1))
  else 0

/-! ### Counters (19 R420, R421) -/

/-- What counter `e` counted since the last window goes into register `reg`; `key` names its base (19 R420). -/
def State.bwTake (s : State) (key e reg : Nat) : State :=
  let c := (s.rd (PMC_CNT e)).toNat
  { s.wr reg (BitVec.ofNat 64 ((c + 2 ^ 48 - sget 0 s.obs.bwBase key) % 2 ^ 48)) with
    obs := { s.obs with bwBase := sput 0 s.obs.bwBase key c } }

/-- The bytes each port received and sent in the window. -/
def State.bwTaken (s : State) : State :=
  (List.range 4).foldl (fun s p =>
    (s.bwTake (2 * p) (16 * p + 1) (PMC_BW_RX p)).bwTake (2 * p + 1) (16 * p + 3) (PMC_BW_TX p)) s

/-- The next window begins, with the length that PMC_BWCFG holds now. -/
def State.bwNext (s : State) : State :=
  { s.fset PMC_BWSEQ_SEQ (s.fget PMC_BWSEQ_SEQ + 1) with obs := { s.obs with
      bwWindow := s.fget PMC_BWCFG_WINDOW_US, bwAt := some s.tb } }

/-- BANDWIDTH_WINDOW_END (19 R420). -/
def execBandwidthWindowEnd (dt : Nat) (s : State) : Out :=
  timed dt (fun s => s.powered && decide (s.tb % (1000 * s.obs.bwWindow) = 0) && decide (s.obs.bwAt ≠ some s.tb)) s (fun s =>
    s.bwTaken.bwNext)

/-- The words of the counter array that begins at `lo`. -/
def inCounters (lo a : Nat) : Bool := decide (lo ≤ a) && decide (a < lo + 0x1200)

/-- Every counter is copied into its snapshot register, the busy times with those of the units that run. -/
def State.snapshot (s : State) : State :=
  let (a, b) := (s.busyShown 0x057, s.busyShown 0x059)
  let taken := s.regs.filter fun e => inCounters 0x41110000 e.1
  let kept := s.regs.filter fun e => !inCounters 0x41120000 e.1
  (State.wr { s with regs := taken.foldl (fun m (e : Nat × Word) => sput 0 m (e.1 + 0x10000) e.2) kept }
    (PMC_SNAPC 0x057) a).wr (PMC_SNAPC 0x059) b

/-- A write of PMC_SNAP (19 R421). -/
def State.pmcSnap (s : State) (v : Word32) : State :=
  if !v.getLsbD 31 || s.on PMC_SNAP_BUSY then s
  else State.wr { s.snapshot.raise PMC_SNAP_BUSY with obs := { s.obs with snapAt := some s.tb } } PMC_SNAPTIME (BitVec.ofNat 64 s.tb)

/-- PMC_SNAPSHOT_DONE (19 R421). -/
def execPmcSnapshotDone (dt : Nat) (s : State) : Out :=
  timed dt (fun s => s.powered && s.on PMC_SNAP_BUSY) s (fun s => s.lower PMC_SNAP_BUSY)

/-- A write of PMC_BWCFG: a value outside 1 to 1,000,000 leaves the field. -/
def State.pmcBwcfg (s : State) (v : Word32) : State :=
  let w := v.toNat % 2 ^ 20
  if 1 ≤ w ∧ w ≤ 1000000 then s.fset PMC_BWCFG_WINDOW_US w else s

/-! ### Observation and the TAP (19 R424, R425) -/

/-- A write of OBS_SELk. -/
def State.obsSel (s : State) (k : Nat) (v : Word32) : State := (s.fset (OBS_SEL_SIG k) v.toNat).obsJudge k

/-- The instructions that hand the pins to the tester. -/
def TapInstr.takesPins : TapInstr → Bool
  | .extest | .clamp | .highz => true
  | _ => false

/-- The instruction of an 8-bit code (19 Table 19.7): every unlisted code acts as BYPASS. -/
def tapOf (code : Byte) : TapInstr :=
  if code = 0x01 then .idcode else if code = 0x02 then .samplePreload else if code = 0x03 then .extest
  else if code = 0x04 then .clamp else if code = 0x05 then .highz else if code = 0x10 then .dap else .bypass

/-- Whether an instruction is permitted (19 Table 19.7). -/
def State.tapMay (s : State) (i : TapInstr) : Bool :=
  !i.takesPins || decide (s.sys.lc = .blank) || decide (s.sys.lc = .manufacture) || decide (s.sys.lc = .returned) ||
    decide (s.fget SYS_BOOTSTAT_STEP < 10) || decide (s.fget SYS_BOOTSTAT_ERR ≠ 0)

/-- The instruction of a code is loaded: a refused one loads BYPASS; one that replaces an instruction that holds the
pins resets the device. -/
def State.tapLoad (s : State) (code : Byte) : State :=
  let i := tapOf code
  let ok := s.tapMay i
  let new := if ok then i else .bypass
  let s := if s.obs.tap.takesPins ∧ s.obs.tap ≠ new then s.resetDevice .pin else s
  let s := if ok then s else s.raise OBS_EVT_TAP_DENY
  { s with obs := { s.obs with tap := new } }

/-- The value of IDCODE: SYS_ID.STEP_MAJ, the part, the manufacturer, 1. -/
def State.idcode (s : State) : Nat := s.fget SYS_ID_STEP_MAJ * 2 ^ 28 + 0x7408 * 2 ^ 12 + Config.jedecId.toNat * 2 + 1

/-- IDCODE: its register is captured. -/
def execIdcode (dt : Nat) (s : State) : Out :=
  timed dt State.powered s (fun s => let s := s.tapLoad 0x01; s.emit (.tap s.idcode))

/-- SAMPLE/PRELOAD. -/
def execSamplePreload (dt : Nat) (s : State) : Out := timed dt State.powered s (fun s => s.tapLoad 0x02)
/-- EXTEST. -/
def execExtest (dt : Nat) (s : State) : Out := timed dt State.powered s (fun s => s.tapLoad 0x03)
/-- CLAMP. -/
def execTapClamp (dt : Nat) (s : State) : Out := timed dt State.powered s (fun s => s.tapLoad 0x04)
/-- HIGHZ. -/
def execHighz (dt : Nat) (s : State) : Out := timed dt State.powered s (fun s => s.tapLoad 0x05)
/-- DAP. -/
def execDap (dt : Nat) (s : State) : Out := timed dt State.powered s (fun s => s.tapLoad 0x10)
/-- BYPASS. -/
def execBypass (dt : Nat) (s : State) : Out := timed dt State.powered s (fun s => s.tapLoad 0xFF)

/-- TAP_RESET: the device is reset, and IDCODE is selected. -/
def execTapReset (dt : Nat) (s : State) : Out :=
  timed dt State.powered s (fun s => { s.resetDevice .pin with obs := { (s.resetDevice .pin).obs with tap := .idcode } })

/-- The debug access ends: its outcome is captured, and the access is in flight no more (07 R205). -/
def State.dapEnds (s : State) (err : Bool) (d : Word32) : State :=
  let s := if s.obs.dap.old then s.drainOld else s
  let s := s.endStalls .dap
  let s := { s with obs := { s.obs with dap := { err := err, done := true, data := d } } }
  s.emit (.tap (d.toNat + (if err then 2 ^ 82 else 0) + 2 ^ 83))

/-- The access identity of the debug port (07 Table 7.1). -/
def State.dapAcc (s : State) : Acc := ⟨.dap, (s.rd OBS_DCAP_PERM).setWidth 16⟩

/-- DAP_ACCESS_DONE: what the last access gave is captured (19 R426); one that the flash array still stalls goes on
(14 R337). -/
def execDapAccessDone (dt : Nat) (s : State) : Out :=
  timed dt (fun s => s.powered && s.obs.dap.busy) s (fun s =>
    match s.obs.dap.waits, s.obs.dap.result with
    | some addr, _ =>
      match s.busRead s.dapAcc addr 4 with
      | (.error .wait, s) => s
      | (.error _, s) => s.dapEnds true 0
      | (.ok bs, s) => s.dapEnds false (BitVec.ofNat 32 (leNat bs))
    | none, some (err, d) => s.dapEnds err (if err then 0 else d)
    | none, none => s)

end Sys2Proof.Machine
end

