-- ==== Sys2Proof/Machine/Bus.lean ====
section
/-!
DEFINITION. Machine/Bus.lean: reads and writes of the register map (00 R6-R9), with the permission that a register's
description names (05 R145), what each register does when it is written or read, and the address space as Wick's core
sees it (15 R364).
-/

namespace Sys2Proof.Machine

/-! ### The access table's own registers (07 R201, R203, R208) -/

/-- A write of ACT_EPOCH: SWITCH starts a switch; it is ignored while one is under way. -/
def State.actSwitch (s : State) (v : Word32) : State :=
  if v.getLsbD 31 && !s.on ACT_EPOCH_BUSY then s.raise ACT_EPOCH_BUSY else s

/-- A write of a staging register of rule `n` is ignored: the rule is locked, or a switch is under way. -/
def State.stagingShut (s : State) (n : Nat) : Bool := s.on ACT_EPOCH_BUSY || s.on (ACT_ARULE_ATTR_LOCK n)

/-- A write of ACT_CTRL: NMLOCK only sets, and holds NOMATCH. -/
def State.actCtrl (s : State) (v : Word32) : State :=
  if s.on ACT_CTRL_NMLOCK then s else s.wr ACT_CTRL (BitVec.ofNat 64 (v.toNat % 4))

/-! ### What a read returns -/

/-- The program slot that DSP_PSLOT_SEL selects, as DSP_PSLOT_STAT shows it (06 R192). -/
def State.slotStat (s : State) : Word :=
  let n := s.fget DSP_PSLOT_SEL_SLOT
  let b (i : Nat) (x : Bool) : Nat := if x then 2 ^ i else 0
  BitVec.ofNat 64 (b 30 (s.prog n).loaded + b 29 (s.references s.bank n) + b 28 (s.references (1 - s.bank) n) + s.slotLive n)

/-- The terms of pool `p` as the registers show them: in ns, scaled by ADM_TEFFp (03 R72, whose rounding is that of R76,
log entry 69). -/
def State.shownTerms (s : State) (p : Nat) : Nat × Nat × Nat := s.terms p 0 (decide (0 < s.oldLive))

/-- SPARES of ADM_POOLp_STAT: its four bits hold a count up to 15, and the spec gives no value for a larger one (log
entry 116). -/
def spareField (n : Nat) : Nat := if n < 16 then n else (Config.manySpares n).toNat

/-- X32K_OK and VBAT_OK of TMP_STAT (15 R366). They read 0 at a cold start, and until the detection time of their sources
is over (log entry 146). -/
def State.backupOk (s : State) : Word :=
  let vbatLow := s.on (bitFld TMP_CAUSE 15) || (s.underTest 15 && s.sys.testInput)
  match s.sys.coldAt with
  | some t => if s.clock < t + 2000000 then 0 else BitVec.ofNat 64 ((if s.crystalStopped then 0 else 1) + (if vbatLow then 0 else 2))
  | none => BitVec.ofNat 64 ((if s.crystalStopped then 0 else 1) + (if vbatLow then 0 else 2))

/-- The value of the register at `r`: the registers that show other state are read from it. -/
def State.regValue (s : State) (row : RegRow) (r : Nat) : Word :=
  if row.banked then s.rd (bankAddr (1 - s.bank) r)
  else if r = SYS_STAT then
    (s.rd r &&& 0xF0000) ||| BitVec.ofNat 64 (lifecycleCode s.sys.lc * 256 + modeCode s.sys.mode)
  else if r = SVC_RQ_ID then BitVec.ofNat 64 (s.requester (s.fget SVC_RQ_SEL_INDEX)).id
  else if r = SVC_RQ_CFG then
    let e := s.requester (s.fget SVC_RQ_SEL_INDEX)
    BitVec.ofNat 64 ((if e.en then 2 ^ 31 else 0) + e.plain.toNat * 2 ^ 16 + e.rxsc.toNat)
  else if r = SVC_RQ_HIGH then BitVec.ofNat 64 (s.requester (s.fget SVC_RQ_SEL_INDEX)).high
  else if r = ETH_MSEC_SA then
    let x := s.sa s.selSa
    BitVec.ofNat 64 ((if x.valid then 2 ^ 31 else 0) + (if x.busy then 2 ^ 30 else 0) + (if x.err then 2 ^ 29 else 0) + x.kslot)
  else if r = ETH_MSEC_SSCI then (s.sc s.selSc).ssci.setWidth 64
  else if r = ETH_MSEC_SCI then (s.sc s.selSc).sci
  else if r = ETH_MSEC_PN then BitVec.ofNat 64 (s.sa s.selSa).pn
  else if r = ADM_STAT then
    (s.rd r &&& 0x790000) ||| BitVec.ofNat 64 ((if s.on (sevFld 72) then 2 ^ 18 else 0) + s.live.length)
  else if r = ADM_EPOCH_DRAIN ∨ r = DSP_EPOCH_DRAIN then BitVec.ofNat 64 s.oldLive
  else if ADM_POOL_STAT 0 ≤ r ∧ r < ADM_POOL_STAT 10 ∧ r % 32 = 8 then
    let p := (r - ADM_POOL_STAT 0) / 32
    BitVec.ofNat 64 (spareField (s.spareUnits p) * 65536 + s.activeUnits p * 256 + s.meff p)
  else if ADM_POOL_BS 0 ≤ r ∧ r < ADM_POOL_BS 10 ∧ r % 32 = 12 then
    BitVec.ofNat 64 (s.shownTerms ((r - ADM_POOL_BS 0) / 32)).1
  else if ADM_POOL_BL 0 ≤ r ∧ r < ADM_POOL_BL 10 ∧ r % 32 = 16 then
    BitVec.ofNat 64 (s.shownTerms ((r - ADM_POOL_BL 0) / 32)).2.1
  else if ADM_POOL_BF 0 ≤ r ∧ r < ADM_POOL_BF 10 ∧ r % 32 = 20 then
    BitVec.ofNat 64 (s.shownTerms ((r - ADM_POOL_BF 0) / 32)).2.2
  else if r = DSP_STAT then (s.rd r &&& 0x10000) ||| BitVec.ofNat 64 s.live.length
  else if r = DSP_PSLOT_STAT then s.slotStat
  else if r = DSP_PSLOT_ID then BitVec.ofNat 64 (s.prog (s.fget DSP_PSLOT_SEL_SLOT)).id
  else if r = MAU_GENSTAT then BitVec.ofNat 64 s.genStat
  else if r = MAU_OMDATA then s.omData
  else if r = KST_STAT then
    (s.rd r &&& 0x9) ||| (if decide (0 < s.hotRegions) && decide (s.hotInvalid = 0) then 2 else 0) ||| (if s.logFull then 4 else 0)
  else if r = KST_HOTFILL then BitVec.ofNat 64 s.hotInvalid
  else if r = KST_PINUSE then BitVec.ofNat 64 s.pinUse
  else if r = DUO_STAT then (s.rd r &&& 0xFE3) ||| BitVec.ofNat 64 (s.duoHeard * 4)
  else if r = FLC_STAT then s.flcStat
  else if r = FLC_ECNT then s.flcEcnt
  else if r = TMP_STAT then
    (s.rd r &&& 4) ||| s.backupOk
  else if r = TAG_GRPCFG then s.grpCfg
  else if r = CRD_SSTAT 0 then s.cardStat 0
  else if r = CRD_SSTAT 1 then s.cardStat 1
  else if r = WCK_LDDATA then s.ldWord
  else if r = PMC_CNT 0x057 then s.busyShown 0x057
  else if r = PMC_CNT 0x059 then s.busyShown 0x059
  else s.rd r

/-- A write of DSP_LDR_CTRL: GO starts a load of the image at DSP_LDR_SRC (06 R179); it is ignored while one runs. -/
def State.loaderGo (s : State) (v : Word32) : State :=
  let s := s.fset DSP_LDR_CTRL_SLOT v.toNat
  if v.getLsbD 31 && !s.on DSP_LDR_CTRL_BUSY then
    { s.raise DSP_LDR_CTRL_BUSY with dsp := { s.dsp with loading := some ((s.rd DSP_LDR_SRC).toNat, v.toNat % 1024) } }
  else s

/-! ### Permissions (05 R145) -/

/-- The permissions that a write of `v` to the register at `r` requires; `force` is DUO_CTRL.FORCE, which only a write
with CUST may change (12 R306, log entry 73). A write that names a key slot in a register field requires KSLOT (05 R144,
log entry 93). -/
def writeNeeds (force : Bool) (r : Nat) (v : Word32) : List Nat :=
  if r < 0x40100000 then
    if r = SYS_MODEREQ then (if v.getLsbD 31 ∧ v.toNat % 8 = 4 then [pSYS, pCUST] else [pSYS])
    else if r = SYS_WAKECFG ∨ r = SYS_RST then [pSYS]
    else if r = SYS_SVNFLOOR then [pCUST]
    else if r = SYS_REPROV then (if v.getLsbD 31 then [pCUST] else [])
    else if 0x40000100 ≤ r ∧ r < 0x40000200 ∧ r % 16 = 0 then (if v.getLsbD 31 ∨ v.getLsbD 30 then [pSYS] else [])
    else []
  else if r < 0x40200000 then
    if r = ACT_DBGSTKY_CLR then [pCUST] else if 0x40110000 ≤ r ∧ r < 0x40118000 then [pACT] else []
  else if r = ETH_MSEC_SA ∨ r = KST_CMD_SLOT ∨ r = DUO_JKEY then (if v.toNat % 65536 ≠ 0 then [pKSLOT] else [])
  else if r = DSP_LDR_CTRL then [pSYS]
  else if r = DSP_IREQ_GO then [pENG]
  else if r = CPH_RETIRE then [pSYS]
  else if r = CPH_REINST then (if v.getLsbD 31 then [pSYS] else [])
  else if r = MAU_RETIRE ∨ r = MAU_REINST ∨ r = MAU_GEN then [pSYS]
  else if r = KST_CMD then [pSYS]
  else if r = RNG_CTRL ∨ r = RNG_CFG ∨ r = RNG_CUTOFF then [pSYS]
  else if r = RNG_FWREQ then (if v.getLsbD 0 then [pSYS] else [])
  else if r = DUO_CTRL then (if v.getLsbD 5 != force then [pCUST] else [])
  else if r = DUO_EPOCHCLR then (if v.getLsbD 0 then [pCUST] else [])
  else if r = FLC_CMD then (if v.getLsbD 31 then [pFPGM] else [])
  else if 0x40C00000 ≤ r ∧ r < 0x40E00000 then [pSYS]
  else if 0x40E00000 ≤ r ∧ r < 0x40F00000 then [pCUST]
  else if r = TAG_GRPCFG ∨ r = TAG_GRPPW then [pSYS, pCUST]
  else if 0x40F00000 ≤ r ∧ r < 0x41000000 then [pSYS]
  else if r = CAL_APPLY then [pSYS]
  else if 0x41200000 ≤ r ∧ r < 0x41300000 then [pSYS]
  else []

/-- The permissions that a read of the register at `r` requires. -/
def readNeeds (r : Nat) : List Nat := if 0x40E00000 ≤ r ∧ r < 0x40F00000 then [pCUST] else []

/-- The access carries every permission of the list. -/
def Acc.holdsAll (a : Acc) (l : List Nat) : Bool := l.all (permBit a.perms)

/-! ### What a write does -/

/-- A write sets the RW bits and clears the W1C bits written 1 (00 R9); `k` is the key the register is held under. -/
def State.plainWrite (s : State) (row : RegRow) (k : Nat) (v : Word) : State :=
  let old := s.rd k
  let rw := BitVec.ofNat 64 row.rw
  s.wr k (((old &&& ~~~rw) ||| (v &&& rw)) &&& ~~~(v &&& BitVec.ofNat 64 row.w1c))

/-- Writing 1 to VALID clears VALID and MORE; `i` is the bit of VALID. -/
def State.clearLog (s : State) (r i : Nat) (v : Word) : State :=
  if v.getLsbD i then (s.lower (bitFld r i)).lower (bitFld r (i - 1)) else s

/-- A value below the factory's leaves the factory's. -/
def floorAt (factory v : Nat) : Nat := if v < factory then factory else v

/-- SYS registers (13 R326). -/
def State.writeSys (s : State) (a : Acc) (row : RegRow) (r : Nat) (v : Word) : State :=
  let w := v.setWidth 32
  if r = SYS_MODEREQ then s.modeReq w
  else if r = SYS_BOOTSTAT then s.bootstat w
  else if r = SYS_LCADV then s.lcadv (permBit a.perms pSYS) (permBit a.perms pCUST) w
  else if r = SYS_SVNFLOOR then s.svnFloor w
  else if r = SYS_RST then s.sysRst w
  else if r = SYS_REPROV then s.reprov w
  else if 0x40000100 ≤ r ∧ r < 0x40000200 ∧ r % 16 = 0 then s.coreCtrl a.perms (Fin.ofNat 16 ((r - 0x40000100) / 16)) w
  else if 0x40000600 ≤ r ∧ r < 0x40000680 ∧ r % 8 = 4 then s.doorbell ((r - 0x40000600) / 8) w
  else s.plainWrite row r v

/-- The access is a control core's. -/
def Acc.ofControl (a : Acc) : Bool :=
  match a.master with
  | .ctl _ => true
  | _ => false

/-- ACT registers (07 R208). Only a control core clears ACT_DBGSTKY (07 R202). -/
def State.writeAct (s : State) (a : Acc) (row : RegRow) (r : Nat) (v : Word) : State :=
  let w := v.setWidth 32
  if r = ACT_CTRL then s.actCtrl w
  else if r = ACT_EPOCH then s.actSwitch w
  else if r = ACT_VIOL_INFO then s.clearLog r 31 v
  else if r = ACT_DBGSTKY_CLR then (if v.getLsbD 0 && a.ofControl then s.lower ACT_DBGSTKY_HIT else s)
  else s.plainWrite row r v

/-- SVC and ETH registers (02 R66, R67). EN cannot be set while the device is isolated (16 R373). -/
def State.writeSvc (s : State) (row : RegRow) (r : Nat) (v : Word) : State :=
  let w := v.setWidth 32
  if r = SVC_CTRL then
    if s.on FLT_STAT_ISOLATED && v.getLsbD 0 then s
    else s.wr r ((v &&& 7) ||| (if s.locked then s.rd r &&& 8 else v &&& 8))
  else if r = SVC_PORTCFG then s.portcfg w
  else if r = SVC_MGT_GO then s.mgtGo w
  else if r = SVC_RQ_ID then
    let n := s.fget SVC_RQ_SEL_INDEX
    s.setRequester n { s.requester n with id := w.toNat }
  else if r = SVC_RQ_CFG then
    let n := s.fget SVC_RQ_SEL_INDEX
    s.setRequester n { s.requester n with en := w.getLsbD 31, plain := (w >>> 16).setWidth 4, rxsc := w.setWidth 16 }
  else if r = SVC_RQ_FLOOR then s.rqFloor v
  else if r = ETH_MSEC_SA then s.saLoad w
  else if r = ETH_MSEC_SSCI then s.setSc s.selSc { s.sc s.selSc with ssci := w }
  else if r = ETH_MSEC_SCI then s.setSc s.selSc { s.sc s.selSc with sci := v }
  else if r = ETH_MSEC_PN then
    let s := if s.on ETH_MSEC_SEL_DIR ∧ pnThresh ≤ v.toNat then s.raise SVC_EVT_PN_THRESH else s
    s.setSa s.selSa { s.sa s.selSa with pn := v.toNat }
  else s.plainWrite row r v

/-- ADM registers (03 R90). A write of the inactive bank while a validation runs takes effect, and the validation judges
what EPOCH_SWITCH_DONE finds (DESIGN CHOICE, log entry 120). -/
def State.writeAdm (s : State) (row : RegRow) (r : Nat) (v : Word) : State :=
  let w := v.setWidth 32
  if row.banked then
    if 0 < s.oldLive then s.raise ADM_EVT_EPOCH_ERR else s.plainWrite row (bankAddr (1 - s.bank) r) v
  else if r = ADM_CTRL then
    if s.on FLT_STAT_ISOLATED && v.getLsbD 0 then s else (s.plainWrite row r v).recompute.setTeffs
  else if r = ADM_EPOCH then s.epochSwitch w
  else if r = ADM_LGUARD then s.wr r (BitVec.ofNat 64 (w.toNat / 256 * 256 + floorAt 15 (w.toNat % 256)))
  else if r = ADM_TAPER then (s.plainWrite row r v).setTeffs
  else if r = ADM_REFRESH then s.put ADM_STAT_CLAMP (v.getLsbD 0)
  else if r = ADM_FETCH_HOT then s.wr r (BitVec.ofNat 64 (floorAt 1800 w.toNat))
  else if r = ADM_FETCH_SEAL then s.wr r (BitVec.ofNat 64 (floorAt 40000000 w.toNat))
  else if ADM_TEMPO 0 ≤ r ∧ r ≤ ADM_TEMPO 2 then
    let p := (r - ADM_TEMPO 0) / 4
    let s := s.plainWrite row r v
    State.setTeff { s with adm := { s.adm with tempoAt := sput 0 s.adm.tempoAt p s.tb } } p
  else s.plainWrite row r v

/-- DSP registers but the loader's GO (06 R192). -/
def State.writeDsp (s : State) (row : RegRow) (r : Nat) (v : Word) : State :=
  let w := v.setWidth 32
  if row.banked then
    if 0 < s.oldLive then s.raise DSP_EVT_EPOCH_ERR else s.plainWrite row (bankAddr (1 - s.bank) r) v
  else if r = DSP_EPOCH then s.epochSwitch w
  else if r = DSP_LDR_CFG then
    s.wr r (BitVec.ofNat 64 (floorAt 18 (w.toNat / 256 % 256) * 256 + floorAt 12 (w.toNat % 256)))
  else if r = DSP_LDR_MIR then s.wr r (BitVec.ofNat 64 (floorAt 2000 (w.toNat % 2 ^ 27)))
  else if r = DSP_LDR_CTRL then s.loaderGo w
  else if r = DSP_PSLOT_STAT then s.pslotFree w
  else if r = DSP_IREQ_GO then s.ireqSubmit w
  else s.plainWrite row r v

/-- CPH and MAU registers (08 R225, 09 R252). -/
def State.writeEng (s : State) (row : RegRow) (r : Nat) (v : Word) : State :=
  let w := v.setWidth 32
  if r = CPH_RETIRE then s.cphRetire w
  else if r = CPH_REINST then s.cphReinst w
  else if r = CPH_MMLOG ∨ r = MAU_CHKLOG then s.clearLog r 63 v
  else if r = MAU_RETIRE then s.mauRetire w
  else if r = MAU_REINST then s.mauReinst w
  else if r = MAU_GEN then s.wr r (BitVec.ofNat 64 (mauGenValue w.toNat))
  else s.plainWrite row r v

/-- KST registers (10 R275). -/
def State.writeKst (s : State) (row : RegRow) (r : Nat) (v : Word) : State :=
  let w := v.setWidth 32
  if r = KST_CMD then s.kstCmd w
  else if r = KST_MEMCFG then
    if s.sys.mode = .boot ∧ !s.on KST_CTRL_HOT_EN then
      let s := s.fset KST_MEMCFG_CORE_GIB w.toNat
      if s.sys.ddrTrained then s.setHotLines else s
    else s
  else if r = KST_PINMAX then s.wr r (BitVec.ofNat 64 (min 0x50000 (w.toNat % 2 ^ 20)))
  else if r = KST_CNTCFG then
    if 10 ≤ w.toNat % 32 ∧ w.toNat % 32 ≤ 20 then s.plainWrite row r v else s
  else if r = KST_CLOG then s.clearLog r 31 v
  else if r = KST_INTLOG then s.clearLog r 63 v
  else s.plainWrite row r v

/-- RNG registers (11 R287). -/
def State.writeRng (s : State) (row : RegRow) (r : Nat) (v : Word) : State :=
  let w := v.setWidth 32
  if r = RNG_CTRL then s.rngCtrl w
  else if r = RNG_CUTOFF then s.rngCutoff w
  else if r = RNG_FWREQ then s.rngFwReq w
  else if r = RNG_LAST then s.clearLog r 31 v
  else s.plainWrite row r v

/-- DUO registers (12 R309). EN cannot be set while the device is isolated (16 R373). -/
def State.writeDuo (s : State) (a : Acc) (row : RegRow) (r : Nat) (v : Word) : State :=
  let w := v.setWidth 32
  if r = DUO_CTRL then
    if s.on FLT_STAT_ISOLATED && v.getLsbD 0 then s else s.duoCtrl (permBit a.perms pCUST) w
  else if r = DUO_EPOCHCLR then s.epochClear (permBit a.perms pCUST) w
  else if r = DUO_RESYNC then s.duoResync w
  else s.plainWrite row r v

/-- FLC registers (14 R346). -/
def State.writeFlc (s : State) (row : RegRow) (r : Nat) (v : Word) : State :=
  let w := v.setWidth 32
  if r = FLC_CMD then s.flcCmd w
  else if r = FLC_ERSCFG then s.flcErscfg w
  else if r = FLC_ECCLOG then s.clearLog r 63 v
  else s.plainWrite row r v

/-- TMP registers (15 R366). -/
def State.writeTmp (s : State) (a : Acc) (row : RegRow) (r : Nat) (v : Word) : State :=
  let w := v.setWidth 32
  if r = TMP_STKY_CLR then s.stkyClear (permBit a.perms pCUST) w
  else if r = TMP_TSCSET then s.tscSet (permBit a.perms pSYS && permBit a.perms pTIME) v
  else if r = TMP_BIST then s.bist (permBit a.perms pSYS) w
  else if 0x40B00100 ≤ r ∧ r < 0x40B00170 then s.srccfg (permBit a.perms pCUST) ((r - 0x40B00100) / 4) w
  else s.plainWrite row r v

/-- WCK registers (15 R367): Wick's core writes only five of them (15 R364). -/
def State.writeWck (s : State) (wick : Bool) (row : RegRow) (r : Nat) (v : Word) : State :=
  let w := v.setWidth 32
  if r = WCK_ACT then s.wckAct wick w
  else if r = WCK_WDOG then s.wckWdog wick w
  else if r = WCK_ALM then (if v.getLsbD 31 then s.wr r 0 else s)
  else if r = WCK_WIRQ ∨ r = WCK_WRULE then s.plainWrite row r v
  else if wick then s
  else if r = WCK_CTRL then s.wckCtrl w
  else if r = WCK_LDDATA then s.ldWrite w
  else if 0x40C00100 ≤ r ∧ r < 0x40C00200 then s.wckRuleWrite ((r - 0x40C00100) / 8) (decide (r % 8 = 4)) w
  else s.plainWrite row r v

/-- FLT registers (16 R381). -/
def State.writeFlt (s : State) (a : Acc) (row : RegRow) (r : Nat) (v : Word) : State :=
  let w := v.setWidth 32
  if r = FLT_FIRST then (if v.getLsbD 31 then s.wr r 0 else s)
  else if r = FLT_ISOSBLK then (if s.on FLT_STAT_ISOLATED then s else s.plainWrite row r v)
  else if 0x40D00040 ≤ r ∧ r < 0x40D00050 then s.severeClear ((r - 0x40D00040) / 4) w
  else if 0x40D00070 ≤ r ∧ r < 0x40D00080 then s.stickyClear (permBit a.perms pCUST) ((r - 0x40D00070) / 4) w
  else if 0x40D00080 ≤ r ∧ r < 0x40D00090 then s.faultForce (permBit a.perms pCUST) ((r - 0x40D00080) / 4) w
  else if 0x40D00400 ≤ r ∧ r < 0x40D00600 then s.faultConfig ((r - 0x40D00400) / 4) w
  else s.plainWrite row r v

/-- CRD registers (17 R395). -/
def State.writeCrd (s : State) (row : RegRow) (r : Nat) (v : Word) : State :=
  let w := v.setWidth 32
  if r = CRD_CTRL then s.crdCtrl w
  else if r = CRD_QCTRL then s.qctrl w
  else if r = CRD_ROSTER_CTRL then s.rosterCtrl w
  else if r = CRD_SCTRL 0 then s.cardCtrl 0 w
  else if r = CRD_SCTRL 1 then s.cardCtrl 1 w
  else if r = CRD_SXFER 0 then s.cardXfer 0 w
  else if r = CRD_SXFER 1 then s.cardXfer 1 w
  else s.plainWrite row r v

/-- TAG registers (18 R412). -/
def State.writeTag (s : State) (row : RegRow) (r : Nat) (v : Word) : State :=
  let w := v.setWidth 32
  if r = TAG_WCMD then s.tagWcmd w
  else if r = TAG_GRPSEL then s.grpSelect w
  else if r = TAG_GRPCFG then s.grpApply w
  else if r = TAG_GRPPW then s.grpPw v
  else s.plainWrite row r v

/-- CAL, PMC and OBS registers (19 R427-R429). -/
def State.writeObs (s : State) (row : RegRow) (r : Nat) (v : Word) : State :=
  let w := v.setWidth 32
  if r = CAL_APPLY then s.calApply w
  else if r = PMC_SNAP then s.pmcSnap w
  else if r = PMC_BWCFG then s.pmcBwcfg w
  else if OBS_SEL 0 ≤ r ∧ r ≤ OBS_SEL 7 then s.obsSel ((r - OBS_SEL 0) / 4) w
  else s.plainWrite row r v

/-- A write of `v` to the register at `r` takes effect. -/
def State.regEffect (s : State) (a : Acc) (row : RegRow) (r : Nat) (v : Word) : State :=
  match r / 0x100000 with
  | 0x400 => s.writeSys a row r v
  | 0x401 => s.writeAct a row r v
  | 0x402 => s.writeSvc row r v
  | 0x403 => s.writeAdm row r v
  | 0x404 => s.writeDsp row r v
  | 0x405 => s.writeEng row r v
  | 0x406 => s.writeEng row r v
  | 0x407 => s.writeKst row r v
  | 0x408 => s.writeRng row r v
  | 0x409 => s.writeDuo a row r v
  | 0x40A => s.writeFlc row r v
  | 0x40B => s.writeTmp a row r v
  | 0x40C => s.writeWck (decide (a.master = .wick)) row r v
  | 0x40D => s.writeFlt a row r v
  | 0x40E => s.writeCrd row r v
  | 0x40F => s.writeTag row r v
  | 0x413 => s.writeSvc row r v
  | _ => s.writeObs row r v

/-- The key of a half-done access of a master to a 64-bit register (00 R7). -/
def halfKey (a : Acc) (r : Nat) : Nat := midOf a.master * 2 ^ 48 + r

/-- A write of one word of the register that `row` describes (00 R7): the low word of a 64-bit register is held until the
high word is written. -/
def State.wordWrite (s : State) (a : Acc) (row : RegRow) (addr : Nat) (v : Word32) : State :=
  let r := row.regOf addr
  if isStaging r && s.stagingShut ((r - 0x40110000) / 32) then s.raise ACT_EVT_CFG_REJ
  else if !row.dbl then s.regEffect a row r (v.setWidth 64)
  else if addr = r then { s with heldLow := sput none s.heldLow (halfKey a r) (some v) }
  else
    let low := (sget none s.heldLow (halfKey a r)).getD ((s.regValue row r).setWidth 32)
    State.regEffect { s with heldLow := sput none s.heldLow (halfKey a r) none } a row r
      (v.setWidth 64 <<< 32 ||| low.setWidth 64)

/-- A write of one aligned word inside the register blocks: where no register is defined it is ignored (00 R8). -/
def State.regWrite (s : State) (a : Acc) (addr : Nat) (v : Word32) : Ans Unit :=
  match regRow? addr with
  | none => (.ok (), s)
  | some row =>
    if a.holdsAll (if a.master = .wick then [] else writeNeeds (s.on DUO_CTRL_FORCE) (row.regOf addr) v) then (.ok (), s.wordWrite a row addr v)
    else (.error .target, s)

/-! ### What a read does -/

/-- What a read does beside returning the value (11 R285, R286; 09 R253). -/
def State.readEffect (s : State) (r : Nat) : State :=
  if r = RNG_FW 7 then s.rngFwTaken
  else if r = MAU_OMDATA then s.omRead
  else s

/-- A read of one word of the register that `row` describes: the low word of a 64-bit register latches its high word for
the master's next read of it (00 R7). -/
def State.wordRead (s : State) (a : Acc) (row : RegRow) (addr : Nat) : Word32 × State :=
  let r := row.regOf addr
  let s := if r = RNG_RAW then s.rngRawTaken else s
  let v := s.regValue row r
  if !row.dbl then (v.setWidth 32, s.readEffect r)
  else if addr = r then
    (v.setWidth 32, State.readEffect { s with latchHigh := sput none s.latchHigh (halfKey a r) (some ((v >>> 32).setWidth 32)) } r)
  else
    ((sget none s.latchHigh (halfKey a r)).getD ((v >>> 32).setWidth 32),
      { s with latchHigh := sput none s.latchHigh (halfKey a r) none })

/-- The windows of the effective tables (19 R416). -/
def inCalWindow (addr : Nat) : Bool := decide (0x41010000 ≤ addr) && decide (addr < 0x41030000)

/-- A read of one aligned word inside the register blocks. -/
def State.regRead (s : State) (a : Acc) (addr : Nat) : Ans Word32 :=
  match regRow? addr with
  | none =>
    (.ok (if inCalWindow addr then s.calWindow ((addr - 0x41010000) / 0x10000) (addr % 0x10000) else 0), s)
  | some row =>
    if a.holdsAll (if a.master = .wick then [] else readNeeds (row.regOf addr)) then
      let w := s.wordRead a row addr
      if row.regOf addr = WCK_LDDATA then
        match w.2.ldRead with
        | (.error e, s) => (.error e, s)
        | (.ok _, s) => (.ok w.1, s)
      else (.ok w.1, w.2)
    else (.error .target, s)

/-! ### Accesses of any master -/

/-- The blocks that Wick's core reaches (15 R364). -/
def inWickRegs (addr : Nat) : Bool := decide (0x40B00000 ≤ addr) && decide (addr < 0x40D00000)

/-- A write by any master: of a register, naturally aligned and 32 bits wide (00 R6), or of memory. -/
def State.anyWrite (s : State) (a : Acc) (addr n v : Nat) : Ans Unit :=
  if a.master = .wick then
    if inWickRegs addr then
      if n = 4 ∧ addr % 4 = 0 then
        (if addr < 0x40C00000 then (.ok (), s) else s.regWrite a addr (BitVec.ofNat 32 v))
      else (.error .target, s)
    else s.spaceWrite .wick a.perms addr (leBytes n v)
  else if inRegs addr then
    match s.enter a addr .write with
    | (.error e, s) => (.error e, s)
    | (.ok _, s) => if n = 4 ∧ addr % 4 = 0 then s.regWrite a addr (BitVec.ofNat 32 v) else (.error .target, s)
  else s.busWrite a addr (leBytes n v)

/-- A read by any master. -/
def State.anyRead (s : State) (a : Acc) (addr n : Nat) : Ans Nat :=
  if a.master = .wick then
    if inWickRegs addr then
      if n = 4 ∧ addr % 4 = 0 then
        match s.regRead a addr with
        | (.error e, s) => (.error e, s)
        | (.ok v, s) => (.ok v.toNat, s)
      else (.error .target, s)
    else match s.spaceRead .wick a.perms addr n with
      | (.error e, s) => (.error e, s)
      | (.ok b, s) => (.ok (leNat b.1), s)
  else if inRegs addr then
    match s.enter a addr .read with
    | (.error e, s) => (.error e, s)
    | (.ok _, s) =>
      if n = 4 ∧ addr % 4 = 0 then
        match s.regRead a addr with
        | (.error e, s) => (.error e, s)
        | (.ok v, s) => (.ok v.toNat, s)
      else (.error .target, s)
  else match s.busRead a addr n with
    | (.error e, s) => (.error e, s)
    | (.ok bs, s) => (.ok (leNat bs), s)

/-- The permissions are ones that the master's accesses carry: a unit master carries none, the debug port those of its
capability (07 R195, 19 R426). -/
def State.carries (s : State) (a : Acc) : Bool :=
  match a.master with
  | .ctl _ | .wick => true
  | .dap => decide (a.perms = s.dapAcc.perms)
  | _ => decide (a.perms = 0)

/-- The master can issue such an access now: Wick's core while VDD_AON holds, the others while the core domain has
power. -/
def State.masterUp (s : State) (a : Acc) : Bool := s.carries a && (if a.master = .wick then s.aon else s.powered)

/-- The write of a command: a register write that takes effect, or the bus error that changes nothing more. -/
def State.writeRow (s : State) (a : Acc) (addr : Nat) (v : Word32) : Out :=
  event (s.masterUp a) s fun s => (s.anyWrite a addr 4 v.toNat).2

/-- Both words of a 64-bit register are written, the low word first (00 R7). -/
def State.writeRow64 (s : State) (a : Acc) (addr : Nat) (v : Word) : Out :=
  event (s.masterUp a) s fun s =>
    ((s.anyWrite a addr 4 (v.toNat % 2 ^ 32)).2.anyWrite a (addr + 4) 4 (v.toNat / 2 ^ 32)).2

/-- The answer of a read, and the state. -/
def recordRead (r : Ans Nat) : State :=
  match r with
  | (.ok v, s) => { s with lastRead := some (false, BitVec.ofNat 64 v) }
  | (.error _, s) => { s with lastRead := some (true, 0) }

/-- The read of a command: the answer is recorded. -/
def State.readRow (s : State) (a : Acc) (addr : Nat) : Out :=
  event (s.masterUp a) s fun s => recordRead (s.anyRead a addr 4)

end Sys2Proof.Machine
end

