-- ==== Sys2Proof/Machine/ActRows.lean ====
section
/-!
DEFINITION. Machine/ActRows.lean: the switch of the access table (07 R203) and the accesses in flight (07 R204, R205).
-/

namespace Sys2Proof.Machine

/-- ACT_SWITCH_INSTANT (07 R203). -/
def execActSwitchInstant (dt : Nat) (s : State) : Out :=
  timed dt (fun s => s.powered && s.on ACT_EPOCH_BUSY && decide (s.fget ACT_EPOCH_DRAIN_OLD_LIVE = 0)) s (fun s =>
    match lowest s.rulesFailing with
    | some n => (((s.raise ACT_EPOCH_ERR).fset ACT_EPOCH_ERRRULE n).raise ACT_EVT_EPOCH_ERR).lower ACT_EPOCH_BUSY
    | none => s.actSwitched)

/-- STORE_BUFFER_DRAIN (07 R204): a buffered store enters the interconnect. -/
def execStoreBufferDrain (n : Fin 16) (s : State) : Out := event s.powered s (fun s => s.storeEnters n)

/-- INTERCONNECT_ACCESS_COMPLETE (07 R205): the oldest store of core `n` in flight ends. -/
def execInterconnectAccessComplete (dt : Nat) (n : Fin 16) (s : State) : Out :=
  timed dt State.powered s (fun s => s.storeCompletes n)

end Sys2Proof.Machine
end

