-- ==== Sys2Proof/Decode.lean ====
section
/-!
DEFINITION. Decode.lean: the words of the Wenak instructions (04 R94-R98, Tables 4.2 to 4.8), both ways, for EINSTR and for
the loader's checks (06 R179); and the host's table words: no row of spec/opcode_table.json gives bits, since the rows
are commands of the block.
-/

namespace Sys2Proof

/-- The command that a word spells by the bits of spec/opcode_table.json: no row gives bits, so none. -/
def decodeTableWord (_nbits _w : Nat) : Option Instr := none

namespace Machine

/-! ### The formats (04 Table 4.2) -/

/-- Bits `lo` to `lo + n - 1` of an instruction word. -/
abbrev fieldAt (w : Word32) (lo n : Nat) : BitVec n := w.extractLsb' lo n

/-- Format A. -/
def encA (op : BitVec 6) (fn : BitVec 11) (f : FmtA) : Word32 := op ++ f.rd ++ f.ra ++ f.rb ++ fn
/-- Format I. -/
def encI (op : BitVec 6) (f : FmtI) : Word32 := op ++ f.rd ++ f.ra ++ f.imm
/-- Format I as SHI reads it: the selector in bits 15:12 (04 R105). -/
def encShift (sel : BitVec 4) (f : FmtShift) : Word32 := 0x0A#6 ++ f.rd ++ f.ra ++ sel ++ f.mid ++ f.sh
/-- Format I as BFX reads it: the selector in bits 15:14 (04 R106). -/
def encField (sel : BitVec 2) (f : FmtField) : Word32 := 0x0B#6 ++ f.rd ++ f.ra ++ sel ++ f.mid ++ f.pos ++ f.len1
/-- Format M. -/
def encM (op : BitVec 6) (f : FmtM) : Word32 := op ++ f.rt ++ f.ra ++ f.cb ++ f.imm
/-- Format T. -/
def encT (fn : BitVec 7) (f : FmtT) : Word32 := 0x1D#6 ++ f.rd ++ f.ra ++ f.rb ++ f.cb ++ fn
/-- Format B. -/
def encB (op : BitVec 6) (f : FmtB) : Word32 := op ++ f.ra ++ f.rb ++ f.disp
/-- Format J. -/
def encJ (op : BitVec 6) (f : FmtJ) : Word32 := op ++ f.disp
/-- Format C. -/
def encC (op : BitVec 6) (fn : BitVec 9) (f : FmtC) : Word32 := op ++ f.x ++ f.y ++ f.z ++ f.u ++ fn
/-- Format C as CINFO reads it: the selector in place of Z (04 R119). -/
def encInfo (sel : BitVec 4) (f : FmtC) : Word32 := 0x2A#6 ++ f.x ++ f.y ++ sel ++ f.u ++ 0x07#9
/-- Format S. -/
def encS (fn : BitVec 4) (f : FmtS) : Word32 := 0x2C#6 ++ f.rd ++ f.ra ++ fn ++ f.imm
/-- Format E. -/
def encE (fn : BitVec 4) (f : FmtE) : Word32 := 0x2E#6 ++ f.rd ++ f.ra ++ f.ce ++ fn ++ f.imm

/-- The fields of format A. -/
def decA (w : Word32) : FmtA := ⟨fieldAt w 21 5, fieldAt w 16 5, fieldAt w 11 5⟩
/-- The fields of format I. -/
def decI (w : Word32) : FmtI := ⟨fieldAt w 21 5, fieldAt w 16 5, fieldAt w 0 16⟩
/-- The fields of SHI. -/
def decShift (w : Word32) : FmtShift := ⟨fieldAt w 21 5, fieldAt w 16 5, fieldAt w 6 6, fieldAt w 0 6⟩
/-- The fields of BFX. -/
def decField (w : Word32) : FmtField := ⟨fieldAt w 21 5, fieldAt w 16 5, fieldAt w 12 2, fieldAt w 6 6, fieldAt w 0 6⟩
/-- The fields of format M. -/
def decM (w : Word32) : FmtM := ⟨fieldAt w 21 5, fieldAt w 16 5, fieldAt w 12 4, fieldAt w 0 12⟩
/-- The fields of format T. -/
def decT (w : Word32) : FmtT := ⟨fieldAt w 21 5, fieldAt w 16 5, fieldAt w 11 5, fieldAt w 7 4⟩
/-- The fields of format B. -/
def decB (w : Word32) : FmtB := ⟨fieldAt w 21 5, fieldAt w 16 5, fieldAt w 0 16⟩
/-- The field of format J. -/
def decJ (w : Word32) : FmtJ := ⟨fieldAt w 0 26⟩
/-- The fields of format C. -/
def decC (w : Word32) : FmtC := ⟨fieldAt w 22 4, fieldAt w 18 4, fieldAt w 14 4, fieldAt w 9 5⟩
/-- The fields of CINFO: Z holds the selector, which names the instruction. -/
def decInfo (w : Word32) : FmtC := ⟨fieldAt w 22 4, fieldAt w 18 4, 0, fieldAt w 9 5⟩
/-- The fields of format S. -/
def decS (w : Word32) : FmtS := ⟨fieldAt w 21 5, fieldAt w 16 5, fieldAt w 0 12⟩
/-- The fields of format E. -/
def decE (w : Word32) : FmtE := ⟨fieldAt w 21 5, fieldAt w 16 5, fieldAt w 12 4, fieldAt w 0 8⟩

/-! ### Decoding (04 Tables 4.3 to 4.8) -/

/-- OPA (04 Table 4.4). -/
def decodeOpa (h : Hart) (w : Word32) : Instr :=
  match (fieldAt w 0 11).toNat with
  | 0x00 => .add h (decA w)
  | 0x01 => .sub h (decA w)
  | 0x02 => .and h (decA w)
  | 0x03 => .or h (decA w)
  | 0x04 => .xor h (decA w)
  | 0x05 => .nor h (decA w)
  | 0x06 => .slt h (decA w)
  | 0x07 => .sltu h (decA w)
  | 0x08 => .sll h (decA w)
  | 0x09 => .srl h (decA w)
  | 0x0A => .sra h (decA w)
  | 0x0B => .movz h (decA w)
  | 0x0C => .movn h (decA w)
  | 0x0D => .min h (decA w)
  | 0x0E => .max h (decA w)
  | 0x0F => .minu h (decA w)
  | 0x10 => .maxu h (decA w)
  | 0x11 => .clz h (decA w)
  | 0x12 => .popc h (decA w)
  | 0x13 => .bswap h (decA w)
  | 0x14 => .bswapw h (decA w)
  | 0x18 => .addw h (decA w)
  | 0x19 => .subw h (decA w)
  | 0x1A => .sllw h (decA w)
  | 0x1B => .srlw h (decA w)
  | 0x1C => .sraw h (decA w)
  | 0x20 => .mul h (decA w)
  | 0x21 => .mulh h (decA w)
  | 0x22 => .mulhu h (decA w)
  | 0x24 => .div h (decA w)
  | 0x25 => .divu h (decA w)
  | 0x26 => .rem h (decA w)
  | 0x27 => .remu h (decA w)
  | 0x28 => .addv h (decA w)
  | 0x29 => .subv h (decA w)
  | 0x2A => .mulv h (decA w)
  | _ => .reservedInstruction h w

/-- SHI (04 R105). -/
def decodeShi (h : Hart) (w : Word32) : Instr :=
  match (fieldAt w 12 4).toNat with
  | 0x00 => .slli h (decShift w)
  | 0x01 => .srli h (decShift w)
  | 0x02 => .srai h (decShift w)
  | 0x04 => .slliw h (decShift w)
  | 0x05 => .srliw h (decShift w)
  | 0x06 => .sraiw h (decShift w)
  | _ => .reservedInstruction h w

/-- BFX (04 R106). -/
def decodeBfx (h : Hart) (w : Word32) : Instr :=
  match (fieldAt w 14 2).toNat with
  | 0x00 => .extu h (decField w)
  | 0x01 => .exts h (decField w)
  | 0x02 => .ins h (decField w)
  | _ => .reservedInstruction h w

/-- AMO (04 R111). -/
def decodeAmo (h : Hart) (w : Word32) : Instr :=
  match (fieldAt w 0 7).toNat with
  | 0x00 => .amoswap h (decT w)
  | 0x01 => .amoadd h (decT w)
  | 0x02 => .amoand h (decT w)
  | 0x03 => .amoor h (decT w)
  | 0x04 => .amocas h (decT w)
  | _ => .reservedInstruction h w

/-- JRX (04 R113). -/
def decodeJrx (h : Hart) (w : Word32) : Instr :=
  match (fieldAt w 0 11).toNat with
  | 0x00 => .jr h (decA w)
  | 0x01 => .jalr h (decA w)
  | _ => .reservedInstruction h w

/-- CXFER (04 R121). -/
def decodeCxfer (h : Hart) (w : Word32) : Instr :=
  match (fieldAt w 0 9).toNat with
  | 0x00 => .cjmp h (decC w)
  | 0x01 => .cret h (decC w)
  | _ => .reservedInstruction h w

/-- CINFO by its selector (04 R119). -/
def decodeInfo (h : Hart) (w : Word32) : Instr :=
  match (fieldAt w 14 4).toNat with
  | 0x00 => .cinfoBase h (decInfo w)
  | 0x01 => .cinfoEnd h (decInfo w)
  | 0x02 => .cinfoLength h (decInfo w)
  | 0x03 => .cinfoPerms h (decInfo w)
  | 0x04 => .cinfoOtype h (decInfo w)
  | 0x05 => .cinfoTag h (decInfo w)
  | _ => .reservedInstruction h w

/-- CAP (04 Table 4.5). -/
def decodeCap (h : Hart) (w : Word32) : Instr :=
  match (fieldAt w 0 9).toNat with
  | 0x00 => .ccopy h (decC w)
  | 0x01 => .cnarrow h (decC w)
  | 0x02 => .ctrim h (decC w)
  | 0x03 => .clock h (decC w)
  | 0x04 => .cunlock h (decC w)
  | 0x05 => .cvoid h (decC w)
  | 0x06 => .cpcc h (decC w)
  | 0x08 => .cwithin h (decC w)
  | 0x09 => .csame h (decC w)
  | 0x07 => decodeInfo h w
  | _ => .reservedInstruction h w

/-- SYS (04 Table 4.6). -/
def decodeSys (h : Hart) (w : Word32) : Instr :=
  match (fieldAt w 12 4).toNat with
  | 0x00 => .nop h (decS w)
  | 0x01 => .srd h (decS w)
  | 0x02 => .swr h (decS w)
  | 0x03 => .trap h (decS w)
  | 0x04 => .eret h (decS w)
  | 0x05 => .hold h (decS w)
  | 0x06 => .wait h (decS w)
  | 0x07 => .fence h (decS w)
  | 0x08 => .endCtx h (decS w) 0
  | _ => .reservedInstruction h w

/-- ENG (04 Table 4.8). -/
def decodeEng (h : Hart) (w : Word32) : Instr :=
  match (fieldAt w 8 4).toNat with
  | 0x00 => .eput h (decE w)
  | 0x01 => .eiss h (decE w)
  | 0x02 => .ewait h (decE w)
  | 0x03 => .epoll h (decE w)
  | 0x04 => .eabort h (decE w)
  | _ => .reservedInstruction h w

/-- The instruction that word `w` is on core `h` (04 Table 4.3). -/
def decodeWenak (h : Hart) (w : Word32) : Instr :=
  match (fieldAt w 26 6).toNat with
  | 0x00 => .ill h false (fieldAt w 0 26)
  | 0x01 => decodeOpa h w
  | 0x0A => decodeShi h w
  | 0x0B => decodeBfx h w
  | 0x1D => decodeAmo h w
  | 0x28 => decodeJrx h w
  | 0x29 => decodeCxfer h w
  | 0x2A => decodeCap h w
  | 0x2C => decodeSys h w
  | 0x2E => decodeEng h w
  | 0x3F => .ill h true (fieldAt w 0 26)
  | 0x02 => .addi h (decI w)
  | 0x03 => .addiw h (decI w)
  | 0x04 => .andi h (decI w)
  | 0x05 => .ori h (decI w)
  | 0x06 => .xori h (decI w)
  | 0x07 => .slti h (decI w)
  | 0x08 => .sltiu h (decI w)
  | 0x09 => .lui h (decI w)
  | 0x10 => .lb h (decM w)
  | 0x11 => .lbu h (decM w)
  | 0x12 => .lh h (decM w)
  | 0x13 => .lhu h (decM w)
  | 0x14 => .lw h (decM w)
  | 0x15 => .lwu h (decM w)
  | 0x16 => .ld h (decM w)
  | 0x17 => .lcap h (decM w)
  | 0x18 => .sb h (decM w)
  | 0x19 => .sh h (decM w)
  | 0x1A => .sw h (decM w)
  | 0x1B => .sd h (decM w)
  | 0x1C => .scap h (decM w)
  | 0x20 => .beq h (decB w)
  | 0x21 => .bne h (decB w)
  | 0x22 => .blt h (decB w)
  | 0x23 => .bge h (decB w)
  | 0x24 => .bltu h (decB w)
  | 0x25 => .bgeu h (decB w)
  | 0x26 => .j h (decJ w)
  | 0x27 => .jal h (decJ w)
  | 0x2D => .tli h (decM w)
  | _ => .reservedInstruction h w

/-- The word of a Wenak instruction; none for any other command. -/
def encodeWenak : Instr → Option Word32
  | .ill _ ones rest => some ((if ones then 0x3F#6 else 0x00#6) ++ rest)
  | .reservedInstruction _ w => some w
  | .add _ f => some (encA 0x01 0x00 f)
  | .sub _ f => some (encA 0x01 0x01 f)
  | .and _ f => some (encA 0x01 0x02 f)
  | .or _ f => some (encA 0x01 0x03 f)
  | .xor _ f => some (encA 0x01 0x04 f)
  | .nor _ f => some (encA 0x01 0x05 f)
  | .slt _ f => some (encA 0x01 0x06 f)
  | .sltu _ f => some (encA 0x01 0x07 f)
  | .sll _ f => some (encA 0x01 0x08 f)
  | .srl _ f => some (encA 0x01 0x09 f)
  | .sra _ f => some (encA 0x01 0x0A f)
  | .movz _ f => some (encA 0x01 0x0B f)
  | .movn _ f => some (encA 0x01 0x0C f)
  | .min _ f => some (encA 0x01 0x0D f)
  | .max _ f => some (encA 0x01 0x0E f)
  | .minu _ f => some (encA 0x01 0x0F f)
  | .maxu _ f => some (encA 0x01 0x10 f)
  | .clz _ f => some (encA 0x01 0x11 f)
  | .popc _ f => some (encA 0x01 0x12 f)
  | .bswap _ f => some (encA 0x01 0x13 f)
  | .bswapw _ f => some (encA 0x01 0x14 f)
  | .addw _ f => some (encA 0x01 0x18 f)
  | .subw _ f => some (encA 0x01 0x19 f)
  | .sllw _ f => some (encA 0x01 0x1A f)
  | .srlw _ f => some (encA 0x01 0x1B f)
  | .sraw _ f => some (encA 0x01 0x1C f)
  | .mul _ f => some (encA 0x01 0x20 f)
  | .mulh _ f => some (encA 0x01 0x21 f)
  | .mulhu _ f => some (encA 0x01 0x22 f)
  | .div _ f => some (encA 0x01 0x24 f)
  | .divu _ f => some (encA 0x01 0x25 f)
  | .rem _ f => some (encA 0x01 0x26 f)
  | .remu _ f => some (encA 0x01 0x27 f)
  | .addv _ f => some (encA 0x01 0x28 f)
  | .subv _ f => some (encA 0x01 0x29 f)
  | .mulv _ f => some (encA 0x01 0x2A f)
  | .addi _ f => some (encI 0x02 f)
  | .addiw _ f => some (encI 0x03 f)
  | .andi _ f => some (encI 0x04 f)
  | .ori _ f => some (encI 0x05 f)
  | .xori _ f => some (encI 0x06 f)
  | .slti _ f => some (encI 0x07 f)
  | .sltiu _ f => some (encI 0x08 f)
  | .lui _ f => some (encI 0x09 f)
  | .slli _ f => some (encShift 0x00 f)
  | .srli _ f => some (encShift 0x01 f)
  | .srai _ f => some (encShift 0x02 f)
  | .slliw _ f => some (encShift 0x04 f)
  | .srliw _ f => some (encShift 0x05 f)
  | .sraiw _ f => some (encShift 0x06 f)
  | .extu _ f => some (encField 0x00 f)
  | .exts _ f => some (encField 0x01 f)
  | .ins _ f => some (encField 0x02 f)
  | .lb _ f => some (encM 0x10 f)
  | .lbu _ f => some (encM 0x11 f)
  | .lh _ f => some (encM 0x12 f)
  | .lhu _ f => some (encM 0x13 f)
  | .lw _ f => some (encM 0x14 f)
  | .lwu _ f => some (encM 0x15 f)
  | .ld _ f => some (encM 0x16 f)
  | .lcap _ f => some (encM 0x17 f)
  | .sb _ f => some (encM 0x18 f)
  | .sh _ f => some (encM 0x19 f)
  | .sw _ f => some (encM 0x1A f)
  | .sd _ f => some (encM 0x1B f)
  | .scap _ f => some (encM 0x1C f)
  | .amoswap _ f => some (encT 0x00 f)
  | .amoadd _ f => some (encT 0x01 f)
  | .amoand _ f => some (encT 0x02 f)
  | .amoor _ f => some (encT 0x03 f)
  | .amocas _ f => some (encT 0x04 f)
  | .beq _ f => some (encB 0x20 f)
  | .bne _ f => some (encB 0x21 f)
  | .blt _ f => some (encB 0x22 f)
  | .bge _ f => some (encB 0x23 f)
  | .bltu _ f => some (encB 0x24 f)
  | .bgeu _ f => some (encB 0x25 f)
  | .j _ f => some (encJ 0x26 f)
  | .jal _ f => some (encJ 0x27 f)
  | .jr _ f => some (encA 0x28 0x00 f)
  | .jalr _ f => some (encA 0x28 0x01 f)
  | .cjmp _ f => some (encC 0x29 0x00 f)
  | .cret _ f => some (encC 0x29 0x01 f)
  | .ccopy _ f => some (encC 0x2A 0x00 f)
  | .cnarrow _ f => some (encC 0x2A 0x01 f)
  | .ctrim _ f => some (encC 0x2A 0x02 f)
  | .clock _ f => some (encC 0x2A 0x03 f)
  | .cunlock _ f => some (encC 0x2A 0x04 f)
  | .cvoid _ f => some (encC 0x2A 0x05 f)
  | .cpcc _ f => some (encC 0x2A 0x06 f)
  | .cinfoBase _ f => some (encInfo 0x00 f)
  | .cinfoEnd _ f => some (encInfo 0x01 f)
  | .cinfoLength _ f => some (encInfo 0x02 f)
  | .cinfoPerms _ f => some (encInfo 0x03 f)
  | .cinfoOtype _ f => some (encInfo 0x04 f)
  | .cinfoTag _ f => some (encInfo 0x05 f)
  | .cwithin _ f => some (encC 0x2A 0x08 f)
  | .csame _ f => some (encC 0x2A 0x09 f)
  | .nop _ f => some (encS 0x00 f)
  | .srd _ f => some (encS 0x01 f)
  | .swr _ f => some (encS 0x02 f)
  | .trap _ f => some (encS 0x03 f)
  | .eret _ f => some (encS 0x04 f)
  | .hold _ f => some (encS 0x05 f)
  | .wait _ f => some (encS 0x06 f)
  | .fence _ f => some (encS 0x07 f)
  | .endCtx _ f _ => some (encS 0x08 f)
  | .tli _ f => some (encM 0x2D f)
  | .eput _ f => some (encE 0x00 f)
  | .eiss _ f => some (encE 0x01 f)
  | .ewait _ f => some (encE 0x02 f)
  | .epoll _ f => some (encE 0x03 f)
  | .eabort _ f => some (encE 0x04 f)
  | _ => none

end Machine

end Sys2Proof
end

