-- ==== Sys2Proof/Machine/Operands.lean ====
section
/-!
DEFINITION. Machine/Operands.lean: the operands of Wenak instructions: general and capability registers (04 R91), the
check of a capability operand (04 R99, R107), effective addresses (04 R107, R111), and the data accesses of a core.
-/

namespace Sys2Proof.Machine

/-! ### Registers (04 R91) -/

/-- General register `i`: g0 reads as zero. -/
def Core.gpr (c : Core) (i : BitVec 5) : Word := if i = 0 then 0 else sget 0 c.g i.toNat

/-- Write general register `i`; a write of g0 is discarded. -/
def Core.setGpr (c : Core) (i : BitVec 5) (v : Word) : Core := if i = 0 then c else { c with g := sput 0 c.g i.toNat v }

/-- Capability register `i`: c0 reads as the null capability. -/
def Core.cap (c : Core) (i : BitVec 4) : Cap := if i = 0 then {} else sget {} c.c i.toNat

/-- Write capability register `i`; a write of c0 is discarded. -/
def Core.setCap (c : Core) (i : BitVec 4) (v : Cap) : Core := if i = 0 then c else { c with c := sput {} c.c i.toNat v }

/-- The general register `i` of hart `h`. -/
def State.gpr (s : State) (h : Hart) (i : BitVec 5) : Word := (s.core h).gpr i
/-- Write the general register `i` of hart `h`. -/
def State.setGpr (s : State) (h : Hart) (i : BitVec 5) (v : Word) : State := s.setCore h ((s.core h).setGpr i v)
/-- The capability register `i` of hart `h`. -/
def State.cap (s : State) (h : Hart) (i : BitVec 4) : Cap := (s.core h).cap i
/-- Write the capability register `i` of hart `h`. -/
def State.setCap (s : State) (h : Hart) (i : BitVec 4) (v : Cap) : State := s.setCore h ((s.core h).setCap i v)

/-! ### Exceptions (05 Tables 5.4, 5.5) -/

/-- ILLEGAL. -/
def excIllegal : Exc := { cause := 1 }
/-- RESERVED. -/
def excReserved : Exc := { cause := 2 }
/-- MISALIGN. -/
def excMisalign (a : Word) : Exc := { cause := 3, addr := a }
/-- CAPV with a DETAIL of 05 Table 5.5. -/
def excCap (detail : Nat) (a : Word := 0) : Exc := { cause := 4, detail := detail, addr := a }
/-- BUSERR, or the wait for an access that the flash array stalls. -/
def excBus (e : BusErr) (a : Word) : Exc := { cause := 5, detail := e.detail, addr := a, wait := decide (e = .wait) }

/-- What an instruction does: it completes and the next one follows; it completes as a branch whose delay slot follows,
then the instruction at `cont`; it completes by a switch to `pc`, which may resume a delay slot; it raises an exception;
it does not retire. -/
inductive Res where
  | seq (s : State)
  | branch (s : State) (cont : BitVec 48)
  | switch (s : State) (pc : BitVec 48) (slot : Option (BitVec 48 × BitVec 48)) (shadow : Bool)
  | raises (x : Exc) (s : State)
  | stays (s : State)
  deriving DecidableEq, Repr

/-! ### Capability operands (04 R99, R107) -/

/-- The first check that a capability operand fails, in the order tag, seal, permission; `need` lists permissions. -/
def Cap.checkUse (c : Cap) (need : List Nat) : Option Nat :=
  if !c.tag then some 1 else if c.otype ≠ 0 then some 2 else if need.all (permBit c.perms) then none else some 3

/-- The effective address of an access through `c` at `off` and a displacement, in 65-bit arithmetic. -/
def effAddr (c : Cap) (off : Word) (disp : BitVec 12) : Nat :=
  (((c.base.toNat : Int) + off.toNat + disp.toInt) % 2 ^ 65).toNat

/-- The checks of an access of `n` bytes at `ea` through `c`: capability, bounds, alignment (04 R99, R107). -/
def Cap.checkAccess (c : Cap) (need : List Nat) (ea n : Nat) : Option Exc :=
  match c.checkUse need with
  | some d => some (excCap d (BitVec.ofNat 64 ea))
  | none =>
    if ea < c.base.toNat ∨ c.limit < ea + n then some (excCap 4 (BitVec.ofNat 64 ea))
    else if ea % n ≠ 0 then some (excMisalign (BitVec.ofNat 64 ea))
    else none

/-! ### Data accesses -/

/-- The access that hart `h` presents with a permission set. -/
def accOf (h : Hart) (perms : BitVec 16) : Acc :=
  match h with
  | .ctl n => ⟨.ctl n, perms⟩
  | .svc _ => ⟨.loader, perms⟩
  | .wick => ⟨.wick, perms⟩

/-- The address goes to the register map for this hart. -/
def regsFor (h : Hart) (addr : Nat) : Bool :=
  match h with
  | .ctl _ => inRegs addr
  | .svc _ => false
  | .wick => inWickRegs addr

/-- A data read of `n` bytes by hart `h`. -/
def State.dataRead (s : State) (h : Hart) (perms : BitVec 16) (addr n : Nat) : Ans Nat :=
  if regsFor h addr then s.anyRead (accOf h perms) addr n
  else match s.spaceRead h perms addr n with
    | (.error e, s) => (.error e, s)
    | (.ok b, s) => (.ok (leNat b.1), s)

/-- A store may stay in the buffer of hart `h`: deferral is permitted, and the address is no register (05 R155,
04 R112). -/
def State.buffers (s : State) (h : Hart) (addr : Nat) : Bool :=
  match h with
  | .ctl _ => !inRegs addr && !(s.core h).ectrl.getLsbD 2 && (decide (s.sys.mode = .boot) || decide (s.sys.mode = .custody))
  | _ => false

/-- The earlier stores of hart `h` complete. -/
def State.settle (s : State) (h : Hart) : State :=
  match h with
  | .ctl n => s.drainBuf n
  | _ => s

/-- A data store of bytes by hart `h`, buffered or at once; `tag` is the tag that an SCAP stores. -/
def State.dataWrite (s : State) (h : Hart) (perms : BitVec 16) (addr : Nat) (bs : List Byte) (tag : Bool := false) : Ans Unit :=
  if regsFor h addr then s.anyWrite (accOf h perms) addr bs.length (leNat bs)
  else if s.buffers h addr then
    (.ok (), s.setCore h { s.core h with
      storeBuf := (s.core h).storeBuf ++ [{ addr := addr, bytes := bs, tag := tag, perms := perms }] })
  else (s.settle h).spaceWrite h perms addr bs tag

end Sys2Proof.Machine
end

