-- ==== Sys2Proof/Machine/Flags.lean ====
section
/-!
DEFINITION. Machine/Flags.lean: Wenak has no flags register (04 R117 and the head of 04). What other instruction sets
keep in flags it reports by the two conditions here: signed overflow (04 R103) and a zero divisor (04 R102).
-/

namespace Sys2Proof.Machine

/-- A signed result fits in 64 bits. -/
def fits64 (v : Int) : Bool := decide (-(2 ^ 63) ≤ v) && decide (v < 2 ^ 63)

/-- OVF is detected on this hart: ECTRL.OVF_EN, and always on a service core (04 R103, 05 R166). -/
def Core.ovfOn (c : Core) (h : Hart) : Bool := isService h || c.ectrl.getLsbD 0

/-- DIVZ is enabled: ECTRL.DZ_EN (04 R102). -/
def Core.divzOn (c : Core) : Bool := c.ectrl.getLsbD 1

end Sys2Proof.Machine
end

