-- ==== Sys2Proof/Machine/Exceptions.lean ====
section
/-!
DEFINITION. Machine/Exceptions.lean: taking an exception and returning from one (05 R153-R160), interrupt lines (05 R163,
R164), fetch and the order of checks (04 R99), retirement (04 R100, R114), and the frame every Wenak instruction runs in.
-/

namespace Sys2Proof.Machine

/-! ### Capabilities at a vector and in a frame (05 R157, R158) -/

/-- The capability at `addr` as hart `h` sees it, without an access. -/
def State.capPeek (s : State) (h : Hart) (addr : Nat) : Cap :=
  match h with
  | .ctl _ =>
    let sb := (s.core h).storeBuf
    capOfBytes (s.tagged addr && sb.foldl (patchTag addr) (tagAt s.tags addr)) (sb.foldl (patchBytes addr) (s.loadBytes addr 16))
  | .svc _ => {}
  | .wick => capOfBytes (decide (addr < 0x10000) && tagAt s.wck.tags addr) (prvRead s.wck.mem addr 16)

/-- The instruction of hart `h` has ended: the flash array stalls none of its accesses any more (14 R337). -/
def State.accessesOver (s : State) (h : Hart) : State :=
  match h with
  | .ctl n => s.endStalls (.ctl n)
  | _ => s

/-- The read of the vector or of the reserve stack capability, under the perms of that capability (07 Table 7.1). -/
def State.readVec (s : State) (h : Hart) (addr : Nat) : Ans Cap := s.capRead h (s.capPeek h addr).perms addr

/-- A stack capability that entry can use (05 R157). -/
def usableStack (c : Cap) : Bool :=
  c.usable && permBit c.perms pW && permBit c.perms pSC && decide (c.base.toNat + 64 ≤ c.limit) && decide (c.limit % 16 = 0)

/-- The six parts of a frame (05 Table 5.6): its offset, bytes and tag. -/
def framePieces (c : Core) : List (Nat × List Byte × Bool) :=
  [(0x00, capBytes c.pcc, c.pcc.tag), (0x10, capBytes (c.cap 14), (c.cap 14).tag), (0x20, leBytes 8 c.epc.toNat, false),
   (0x28, leBytes 8 c.estat.toNat, false), (0x30, leBytes 8 c.ebadaddr.toNat, false), (0x38, leBytes 8 c.einstr.toNat, false)]

/-- The unbuffered writes of a frame at `F`; the first that fails ends them. -/
def State.writeFrame (s : State) (h : Hart) (perms : BitVec 16) (F : Nat) : List (Nat × List Byte × Bool) → Bool × State
  | [] => (true, s)
  | (o, bs, t) :: r =>
    match s.spaceWrite h perms (F + o) bs t with
    | (.ok _, s) => s.writeFrame h perms F r
    | (.error _, s) => (false, s)

/-- `push(s)` (05 R158). -/
def State.pushFrame (s : State) (h : Hart) (c : Core) (st : Cap) : Bool × State :=
  if usableStack st then s.writeFrame h st.perms (st.limit - 64) (framePieces c) else (false, s)

/-! ### Entry (05 R158, R159) -/

/-- A bit at a place. -/
def bitAt (b : Bool) (i : Nat) : Nat := if b then 2 ^ i else 0

/-- ESTAT as entry writes it (05 R158, R167). -/
def estatOf (e : Entry) (rsv : Bool) : Word :=
  BitVec.ofNat 64 (e.tgt.toNat / 4 * 2 ^ 18 + bitAt e.sh 17 + bitAt e.bd 16 + bitAt rsv 15 + bitAt e.imp 14 +
    e.x.detail % 16 * 2 ^ 8 + bitAt e.x.fetch 7 + bitAt e.more 6 + e.x.cause)

/-- The bits of EPC that are not reserved. -/
def epcMask : Word := 0xFFFFFFFFFFFC

/-- The exception registers. -/
def Core.report (c : Core) (e : Entry) (rsv : Bool) : Core :=
  { c with estat := estatOf e rsv, epc := e.epc.setWidth 64 &&& epcMask, ebadaddr := e.x.addr, einstr := e.instr }

/-- The core stops in a double fault, and its source signals (05 R159, 15 R365); a STOP asked of it is over (13 R324). -/
def State.doubleFault (s : State) (h : Hart) (e : Entry) : State :=
  let c := (s.core h).report e true
  let s := (s.setCore h { c with waiting := false }).accessesOver h
  match h with
  | .ctl n => ((s.stopAsked n false).fset (SYS_CORE_CTRL_STATE n) 3).signal (32 + n.val) 0
  | .wick => s.wickStops 2 WCK_EVT_DFAULT
  | .svc _ => s

/-- Entry on the stack `st`, whose frame is written: `v` is the vector capability. -/
def Core.entered (c : Core) (e : Entry) (v st : Cap) (rsv : Bool) : Core :=
  { (c.report e rsv).setCap 14 { st with top := BitVec.ofNat 48 (st.limit - 64) } with
    holdcnt := 0
    pcc := v
    pc := v.base
    slot := none
    shadow := false
    waiting := false }

/-- The stack that takes the frame: c14, or the reserve stack (05 R158), whose read the flash array may hold up. -/
def State.takeFrame (s : State) (h : Hart) (c : Core) : Except BusErr (Cap × Bool) × State :=
  match s.pushFrame h c (c.cap 14) with
  | (true, s) => (.ok (c.cap 14, false), s)
  | (false, s) =>
    match s.readVec h (c.evec.toNat + 16) with
    | (.error e, s) => (.error e, s)
    | (.ok st, s) =>
      match s.pushFrame h c st with
      | (true, s) => (.ok (st, true), s)
      | (false, s) => (.error .target, s)

/-- The entry of an exception waits for its read at `addr`, which the flash array stalls (14 R337): the core begins it
anew when the array is free. -/
def State.entryWaits (s : State) (h : Hart) (e : Entry) (addr : Nat) : State :=
  match h with
  | .ctl n =>
    let s := s.stall (.ctl n) addr .read
    { s with flc := { s.flc with waits := s.flc.waits ++ [.entry n e] } }
  | _ => s

/-- The entry once its vector `v` is read. -/
def State.enterAt (s : State) (h : Hart) (e : Entry) (c : Core) (v : Cap) : State :=
  if !(v.usable && permBit v.perms pX) then s.doubleFault h e
  else match s.takeFrame h c with
    | (.error .wait, _) => s.entryWaits h e (c.evec.toNat + 16)
    | (.error _, s) => s.doubleFault h e
    | (.ok (st, rsv), s) => (s.setCore h ((s.core h).entered e v st rsv)).accessesOver h

/-- `enter` (05 R158). The writes of the frame come after every earlier store of the core (04 R112). -/
def State.enterExc (s : State) (h : Hart) (e : Entry) : State :=
  let s := s.settle h
  let c := s.core h
  if c.estat.getLsbD 15 then s.doubleFault h e
  else match s.readVec h c.evec.toNat with
    | (.error .wait, _) => s.entryWaits h e c.evec.toNat
    | (.error _, s) => s.doubleFault h e
    | (.ok v, s) => s.enterAt h e c v

/-- Counter of an issue slot of class `k` (19 R419). -/
def State.countSlot (s : State) (h : Hart) (k : Nat) : State :=
  match h with
  | .ctl n => s.count (0x200 + 4 * n.val + k) 1
  | .svc n => s.count (0x100 + 4 * n.val + k) 1
  | .wick => s

/-- The address that an exception of the instruction at PC is reported at: the branch of a delay slot (04 R116). -/
def Core.reportPc (c : Core) : BitVec 48 := match c.slot with
  | some (a, _) => a
  | none => c.pc

/-- An access of the instruction of hart `h` has entered the interconnect, and the flash array stalls it (14 R337). -/
def State.midAccess (s : State) (h : Hart) : Bool :=
  match h with
  | .ctl n => s.stalls (.ctl n)
  | _ => false

/-- The instruction of word `w` raises `x`: a service context ends (05 R166), any other core enters its handler. -/
def State.takeExc (s : State) (h : Hart) (w : Word32) (x : Exc) : State :=
  let s := s.countSlot h 1
  let c := s.core h
  match h with
  | .svc k => match s.ctxOn k with
    | some n => (s.setCore h { c with pc := c.reportPc }).svcException n k x.cause x.detail
    | none => s
  | h => s.enterExc h { x := x, instr := if x.fetch then 0 else w.setWidth 64, epc := c.reportPc, bd := c.slot.isSome,
                        tgt := (c.slot.map (·.2)).getD 0, sh := c.shadow }

/-- The instruction of word `w` raises `x`, or stays because one of its accesses waits: the slot is front-starved where its
fetch waits, and back-starved where its data does (19 R419, log entry 160). -/
def State.raiseExc (s : State) (h : Hart) (w : Word32) (x : Exc) : State :=
  if x.wait then s.countSlot h (if x.fetch then 2 else 3) else (s.accessesOver h).takeExc h w x

/-! ### Interrupt lines (05 Table 5.7) -/

/-- Some bit of the register is set. -/
def State.anySet (s : State) (a : Nat) : Bool := decide (s.rd a ≠ 0)

/-- The SEV bit of a source whose REACT is LOG or RETIRE is set (16 R379). -/
def State.softSevere (s : State) : Bool :=
  (List.range 128).any fun n => s.on (sevFld n) && decide (s.fget (FLT_CFG_REACT n) ≤ 1)

/-- The counters' overflow line (19 R428). -/
def State.pmcLine (s : State) : Bool := (List.range 18).any fun k => decide (s.rd (PMC_OVF k) &&& s.rd (PMC_OVFEN k) ≠ 0)

/-- A line of control core `n` is asserted: the unit's event bits name it. -/
def State.lineUp (s : State) (n : Fin 16) (l : Nat) : Bool :=
  match l with
  | 0 => s.anySet FLT_EVT || s.softSevere || s.anySet CPH_EVT || s.anySet MAU_EVT
  | 1 => s.anySet DUO_EVT
  | 2 => s.anySet ADM_EVT
  | 3 => s.on (SYS_TCTL_PEND n)
  | 4 => s.anySet (SYS_DBELL n)
  | 5 => s.anySet SVC_EVT || decide (s.fget SVC_MGQ_CTRL_RX_HEAD ≠ s.fget SVC_MGQ_CTRL_RX_TAIL)
  | 6 => s.anySet KST_EVT
  | 7 => s.anySet RNG_EVT
  | 8 => s.anySet DSP_EVT || s.anySet DSP_IREQ_DONE
  | 9 => s.anySet FLC_EVT
  | 10 => s.anySet TMP_EVT || s.anySet WCK_EVT
  | 11 => s.anySet CRD_EVT
  | 12 => s.anySet TAG_EVT
  | 13 => s.pmcLine
  | 14 => s.anySet ACT_EVT
  | 15 => s.anySet CAL_EVT || s.anySet OBS_EVT
  | _ => false

/-- The lines of Wick's core (15 R364). -/
def State.wickLine (s : State) (l : Nat) : Bool :=
  match l with
  | 0 => s.anySet WCK_WRULE
  | 1 => s.on WCK_WIRQ_FRAME
  | 2 => s.on WCK_WIRQ_LEASE
  | _ => false

/-- Line `l` is pending at hart `h` (05 R163). -/
def State.pending? (s : State) (h : Hart) (l : Nat) : Bool :=
  match h with
  | .ctl n => s.lineUp n l
  | .wick => s.wickLine l
  | .svc _ => false

/-- IPEND (05 R167). -/
def State.ipend (s : State) (h : Hart) : Nat := ((List.range 16).map fun l => bitAt (s.pending? h l) l).sum

/-- The enabled pending line of least number. -/
def State.enabledLine (s : State) (h : Hart) : Option Nat :=
  (List.range 16).find? fun l => (s.core h).ien.getLsbD l && s.pending? h l

/-- The interrupt that hart `h` takes at its present boundary (05 R164). -/
def State.interruptDue (s : State) (h : Hart) : Option Nat :=
  let c := s.core h
  if isService h || !c.estat.getLsbD 12 || c.estat.getLsbD 15 || decide (c.holdcnt ≠ 0) || c.slot.isSome ||
      s.midAccess h then none
  else s.enabledLine h

/-- A deferred bus error is due at this boundary (05 R155). -/
def State.deferredDue (s : State) (h : Hart) : Bool :=
  (s.core h).defErr.isSome && (s.core h).slot.isNone && !s.midAccess h

/-! ### Fetch and retirement (04 R99, R100, R114) -/

/-- The instruction at PC was fetched: the flash array stalls an access of its data. -/
def State.hasWord (s : State) (h : Hart) : Bool :=
  match h with
  | .ctl n => s.flc.stalled.any fun x => decide (x.master = .ctl n ∧ x.ty ≠ .fetch)
  | _ => false

/-- The fetch at PC: PCC's tag, seal, X and bounds, the alignment, then the access (04 R99). -/
def State.fetch (s : State) (h : Hart) : Except Exc Unit × State :=
  let c := s.core h
  let a := c.pc.toNat
  match c.pcc.checkAccess [pX] a 4 with
  | some x => (.error { x with fetch := true }, s)
  | none =>
    if s.hasWord h then (.ok (), s)
    else match s.spaceRead h c.pcc.perms a 4 .fetch with
    | (.ok _, s) => (.ok (), s)
    | (.error e, s) => (.error { excBus e (c.pc.setWidth 64) with fetch := true }, s)

/-- One instruction has retired: the hold window and the slot counter (05 R162, 19 R419). -/
def State.retired (s : State) (h : Hart) : State :=
  let c := s.core h
  ((s.setCore h { c with holdcnt := c.holdcnt - 1 }).accessesOver h).countSlot h 0

/-- The instruction after the present one. -/
def Core.nextPc (c : Core) : BitVec 48 := match c.slot with
  | some (_, t) => t
  | none => c.pc + 4

/-- The next instruction follows (04 R114): after a delay slot, the branch's continuation. -/
def Core.advance (c : Core) : Core := { c with pc := c.nextPc, slot := none, shadow := false, waiting := false }

/-- A branch at PC completes: its delay slot follows, and the shadow of a switch lasts through it (05 R150). -/
def Core.branchTo (c : Core) (cont : BitVec 48) : Core := { c with pc := c.pc + 4, slot := some (c.pc, cont) }

/-- What an instruction did takes effect. -/
def Res.finish (h : Hart) (w : Word32) : Res → State
  | .seq t => (t.setCore h (t.core h).advance).retired h
  | .branch t cont => (t.setCore h ((t.core h).branchTo cont)).retired h
  | .switch t pc slot shadow => (t.setCore h { t.core h with pc := pc, slot := slot, shadow := shadow, waiting := false }).retired h
  | .raises x t => t.raiseExc h w x
  | .stays t => t

/-! ### The frame of every instruction -/

/-- How an instruction decodes: its word; its unused fields are zero and its operands in range (04 R95); the profiles
that have it (04 R138-R140); whether it may stand in a delay slot (04 R116). -/
structure Form where
  word : Word32
  ok : Bool := true
  svc : Bool := true
  ctl : Bool := true
  wick : Bool := true
  slot : Bool := true
  deriving DecidableEq, Repr

/-- The profile of the hart has the instruction. -/
def Form.inProfile (f : Form) : Hart → Bool
  | .ctl _ => f.ctl
  | .svc _ => f.svc
  | .wick => f.wick

/-- The instruction raises no ILLEGAL by its form on this hart at this place. -/
def Form.legal (f : Form) (h : Hart) (c : Core) : Bool := f.ok && f.inProfile h && (f.slot || c.slot.isNone)

/-- The context on a service core runs NOP's fixed program, which has no instruction but its END (log entry 21). -/
def State.onNop (s : State) (h : Hart) : Bool :=
  match h with
  | .svc k => match s.ctxOn k with
    | some c => (s.ctx c).nop
    | none => false
  | _ => false

/-- Hart `h` stands at a boundary at which a STOP stops it (13 R324). -/
def State.stopDue (s : State) (h : Hart) : Bool :=
  match h with
  | .ctl n => s.sys.stopReq.getLsbD n.val && s.mayStop n
  | _ => false

/-- Hart `h` can begin an instruction now: it runs, no STOP stops it, and neither a deferred error nor an interrupt comes
first (05 R156). -/
def State.begins (s : State) (h : Hart) : Bool :=
  s.runs h && !s.stopDue h && !s.deferredDue h && (s.interruptDue h).isNone && !s.onNop h

/-- Hart `h` executes the instruction of form `f` whose own effect is `body` (04 R99). -/
def State.execute (s : State) (h : Hart) (f : Form) (body : State → Res) : Out :=
  event (s.begins h) s fun s =>
    match s.fetch h with
    | (.error x, s) => s.raiseExc h f.word x
    | (.ok _, s) =>
      if f.legal h (s.core h) then (body s).finish h f.word else s.raiseExc h f.word excIllegal

/-! ### The commands of interrupts and deferred errors -/

/-- INTERRUPT_ENTRY (05 R164): a core in WAIT retires the WAIT first (04 R126). -/
def execInterruptEntry (h : Hart) (s : State) : Out :=
  let c := s.core h
  let up := s.runs h || (s.setCore h { c with waiting := false }).runs h
  event (up && !s.stopDue h && !s.deferredDue h && (s.interruptDue h).isSome) s fun s =>
    match s.interruptDue h with
    | none => s
    | some l =>
      let s := if c.waiting then (s.setCore h c.advance).retired h else s
      s.enterExc h { x := { cause := 0x10, detail := l }, epc := (s.core h).pc, sh := (s.core h).shadow }

/-- WAIT_WAKE (05 R164): the WAIT retires, and the core continues without entry. -/
def execWaitWake (h : Hart) (s : State) : Out :=
  let c := s.core h
  event (c.waiting && (s.setCore h { c with waiting := false }).runs h && !s.stopDue h && !s.deferredDue h &&
      (s.interruptDue h).isNone &&
      (s.enabledLine h).isSome) s
    fun s => (s.setCore h c.advance).retired h

/-- DEFERRED_BUS_ERROR (05 R155). -/
def execDeferredBusError (n : Fin 16) (s : State) : Out :=
  let c := s.core (.ctl n)
  event (s.powered && decide (s.fget (SYS_CORE_CTRL_STATE n) = 1) && !s.entering n && !s.stopDue (.ctl n) &&
      s.deferredDue (.ctl n)) s fun s =>
    match c.defErr with
    | none => s
    | some (a, more) =>
      (s.setCore (.ctl n) { c with defErr := none }).enterExc (.ctl n)
        { x := { cause := 5, detail := 4, addr := BitVec.ofNat 64 a }, epc := c.pc, sh := c.shadow, imp := true, more := more }

end Sys2Proof.Machine
end

