-- ==== Sys2Proof/Machine/Array.lean ====
section
/-!
DEFINITION. Machine/Array.lean: the events of the flash array (14 R332, R336), and what goes on when the array is free: a
master whose read waited makes it anew (14 R335-R337).
-/

namespace Sys2Proof.Machine

/-- What waited for the array goes on: its reads pass now, or wait again. -/
def State.retry (s : State) : ArrayWait → State
  | .mgt v => if s.mgtHeld then s.waitsFor (.mgt v) else s.mgtTake v
  | .ireq i => if s.ireqHeld then s.waitsFor (.ireq i) else s.ireqTake i
  | .start n perms a => s.startCore n perms a
  | .entry n e => s.enterExc (.ctl n) e

/-- Everything that waits tries again, in the order in which it came. -/
def State.retryAll (s : State) : State :=
  s.flc.waits.foldl State.retry { s with flc := { s.flc with waits := [] } }

/-- An event of the array: its effect where it is due, and then what waits tries again; what waited for the end of E1 or
E4 alone goes on at any of them (log entry 148). -/
def arrayEvent (dt : Nat) (due : State → Bool) (s : State) (f : State → State) : Out :=
  event true (s.elapse dt) fun s => (if due s then f s else s).retryAll

/-- The running command ends, or the page of it in progress. -/
def State.flcEvent (s : State) (ok : Bool) : State :=
  match s.fget FLC_STAT_OP with
  | 1 => s.programEnds ok
  | 2 => s.eraseEnds ok
  | 3 => s.copyEnds ok
  | _ => s.otpEnds ok

/-- FLASH_CMD_DONE (14 R332). -/
def execFlashCmdDone (dt : Nat) (ok : Bool) (s : State) : Out := arrayEvent dt State.flcRuns s (·.flcEvent ok)

/-- ERASE_SUSPEND (14 R336). -/
def execEraseSuspend (dt : Nat) (s : State) : Out := arrayEvent dt State.suspendDue s State.suspended

/-- ERASE_RESUME (14 R336). -/
def execEraseResume (dt : Nat) (s : State) : Out := arrayEvent dt State.resumeDue s State.resumed

end Sys2Proof.Machine
end

