-- ==== Sys2Proof/Machine/BusRows.lean ====
section
/-!
DEFINITION. Machine/BusRows.lean: the commands that are an access to one register: each is the access, with the value
given, as any master makes it (`Machine/Bus.lean` says what the access does); and the debug access port (19 R426).
-/

namespace Sys2Proof.Machine

/-- REGISTER_WRITE (00 R6, R9): any write access. No master sends an access to memory that is not naturally aligned
(07 R194). -/
def execRegisterWrite (a : Acc) (addr : BitVec 48) (size : AccSize) (v : Word) (s : State) : Out :=
  if !inRegs addr.toNat && decide (addr.toNat % size.bytes ≠ 0) then .fault (.illFormed "REGISTER_WRITE")
  else event (s.masterUp a) s fun s => (s.anyWrite a addr.toNat size.bytes v.toNat).2

/-- LOW_WORD_READ (00 R7): a read of a register word; the answer is recorded. -/
def execLowWordRead (a : Acc) (addr : BitVec 48) (s : State) : Out := s.readRow a addr.toNat

/-- RQ_FLOOR_WRITE (02 R50): both words. -/
def execRqFloorWrite (a : Acc) (v : Word) (s : State) : Out := s.writeRow64 a SVC_RQ_FLOOR v

/-- TSC_SET (15 R349): both words. -/
def execTscSet (a : Acc) (v : Word) (s : State) : Out := s.writeRow64 a TMP_TSCSET v

/-- RNG_RAW_READ (11 R286). -/
def execRngRawRead (a : Acc) (s : State) : Out := s.readRow a RNG_RAW

/-- RNG_FW7_READ (11 R285). -/
def execRngFw7Read (a : Acc) (s : State) : Out := s.readRow a (RNG_FW 7)

/-- WICK_LOAD_READ (15 R367). -/
def execWickLoadRead (a : Acc) (s : State) : Out := s.readRow a WCK_LDDATA

/-- FASTCLS_WRITE (03 R72): a write of ADM_CTRL; the blocking terms are computed anew. -/
def execFastclsWrite (a : Acc) (v : Word32) (s : State) : Out := s.writeRow a ADM_CTRL v

/-- EPOCH_SWITCH (03 R69, 06 R184). -/
def execEpochSwitch (a : Acc) (adm : Bool) (v : Word32) (s : State) : Out :=
  s.writeRow a (if adm then ADM_EPOCH else DSP_EPOCH) v

/-- SA_LOAD (02 R39). -/
def execSaLoad (a : Acc) (v : Word32) (s : State) : Out := s.writeRow a ETH_MSEC_SA v

/-- PORTCFG_WRITE (02 R62). -/
def execPortcfgWrite (a : Acc) (v : Word32) (s : State) : Out := s.writeRow a SVC_PORTCFG v

/-- MGT_GO (02 R65). -/
def execMgtGo (a : Acc) (v : Word32) (s : State) : Out := s.writeRow a SVC_MGT_GO v

/-- PROGRAM_LOAD (06 R179). -/
def execProgramLoad (a : Acc) (v : Word32) (s : State) : Out := s.writeRow a DSP_LDR_CTRL v

/-- PSLOT_FREE (06 R185). -/
def execPslotFree (a : Acc) (v : Word32) (s : State) : Out := s.writeRow a DSP_PSLOT_STAT v

/-- IREQ_SUBMIT (06 R186). -/
def execIreqSubmit (a : Acc) (v : Word32) (s : State) : Out := s.writeRow a DSP_IREQ_GO v

/-- ACT_EPOCH_SWITCH (07 R203). -/
def execActEpochSwitch (a : Acc) (v : Word32) (s : State) : Out := s.writeRow a ACT_EPOCH v

/-- RULE_STAGING_WRITE (07 R201): word `k` of staging rule `n`. -/
def execRuleStagingWrite (a : Acc) (n : Fin 1024) (k : Fin 6) (v : Word32) (s : State) : Out :=
  s.writeRow a (0x40110000 + 32 * n.val + 4 * k.val) v

/-- DBGSTKY_CLEAR (07 R202). -/
def execDbgstkyClear (a : Acc) (v : Word32) (s : State) : Out := s.writeRow a ACT_DBGSTKY_CLR v

/-- CPH_RETIRE (08 R222). -/
def execCphRetire (a : Acc) (v : Word32) (s : State) : Out := s.writeRow a CPH_RETIRE v

/-- CPH_REINST (08 R224). -/
def execCphReinst (a : Acc) (v : Word32) (s : State) : Out := s.writeRow a CPH_REINST v

/-- MAU_RETIRE (09 R248). -/
def execMauRetire (a : Acc) (v : Word32) (s : State) : Out := s.writeRow a MAU_RETIRE v

/-- MAU_REINST (09 R250). -/
def execMauReinst (a : Acc) (v : Word32) (s : State) : Out := s.writeRow a MAU_REINST v

/-- PIN (10 R274). -/
def execPin (a : Acc) (s : State) : Out := s.writeRow a KST_CMD 0x80000001

/-- UNPIN (10 R274). -/
def execUnpin (a : Acc) (s : State) : Out := s.writeRow a KST_CMD 0x80000002

/-- PREFETCH (10 R274). -/
def execPrefetch (a : Acc) (s : State) : Out := s.writeRow a KST_CMD 0x80000003

/-- EVICT (10 R274). -/
def execEvict (a : Acc) (s : State) : Out := s.writeRow a KST_CMD 0x80000004

/-- CHECKPOINT (10 R274). -/
def execCheckpoint (a : Acc) (s : State) : Out := s.writeRow a KST_CMD 0x80000005

/-- IMPORT (10 R274). -/
def execImportBlob (a : Acc) (s : State) : Out := s.writeRow a KST_CMD 0x80000006

/-- KST_CMD_INVALID (10 R274): GO with an operation code. -/
def execKstCmdInvalid (a : Acc) (op : BitVec 4) (s : State) : Out :=
  s.writeRow a KST_CMD (0x80000000#32 ||| op.setWidth 32)

/-- RNG_ENABLE (11 R281). -/
def execRngEnable (a : Acc) (v : Word32) (s : State) : Out := s.writeRow a RNG_CTRL v

/-- RNG_DISABLE (11 R282). -/
def execRngDisable (a : Acc) (v : Word32) (s : State) : Out := s.writeRow a RNG_CTRL v

/-- RAW_EN_WRITE (11 R286). -/
def execRawEnWrite (a : Acc) (v : Word32) (s : State) : Out := s.writeRow a RNG_CTRL v

/-- RNG_FW_REQUEST (11 R285). -/
def execRngFwRequest (a : Acc) (v : Word32) (s : State) : Out := s.writeRow a RNG_FWREQ v

/-- DUO_ENABLE (12 R462). -/
def execDuoEnable (a : Acc) (v : Word32) (s : State) : Out := s.writeRow a DUO_CTRL v

/-- LANTERN_RELEASE (12 R295). -/
def execLanternRelease (a : Acc) (v : Word32) (s : State) : Out := s.writeRow a DUO_CTRL v

/-- FULL_RESYNC (12 R304). -/
def execFullResync (a : Acc) (v : Word32) (s : State) : Out := s.writeRow a DUO_RESYNC v

/-- EPOCH_CLEAR (12 R291). -/
def execEpochClear (a : Acc) (v : Word32) (s : State) : Out := s.writeRow a DUO_EPOCHCLR v

/-- DUO_LEAVE (12 R308). -/
def execDuoLeave (a : Acc) (v : Word32) (s : State) : Out := s.writeRow a DUO_CTRL v

/-- SYS_RESET (13 R326). -/
def execSysReset (a : Acc) (v : Word32) (s : State) : Out := s.writeRow a SYS_RST v

/-- MODE_REQUEST_SERVICE (13 R313). -/
def execModeRequestService (a : Acc) (v : Word32) (s : State) : Out := s.writeRow a SYS_MODEREQ v

/-- MODE_REQUEST_CUSTODY (13 R313). -/
def execModeRequestCustody (a : Acc) (v : Word32) (s : State) : Out := s.writeRow a SYS_MODEREQ v

/-- MODE_REQUEST_STANDBY (13 R313). -/
def execModeRequestStandby (a : Acc) (v : Word32) (s : State) : Out := s.writeRow a SYS_MODEREQ v

/-- MODE_REQUEST_INVALID (13 R313). -/
def execModeRequestInvalid (a : Acc) (v : Word32) (s : State) : Out := s.writeRow a SYS_MODEREQ v

/-- From `s` to `t` the work of boot step `n` ended well (13 R315). -/
def stepEnded (s t : State) (n : Nat) : Bool := t.bootRuns && !s.sys.stepsDone.getLsbD n && t.sys.stepsDone.getLsbD n

/-- BOOTSTAT_WRITE (13 R315). The row stands for Kindling's work too: the write that ends step 0x05 starts stage one, and
the write that ends step 0x0A the control firmware (log entry 57). -/
def execBootstatWrite (a : Acc) (v : Word32) (s : State) : Out :=
  event (s.masterUp a) s fun s =>
    let t := (s.anyWrite a SYS_BOOTSTAT 4 v.toNat).2
    if stepEnded s t 5 then t.stageStarts (t.on SYS_BOOTSTAT_SLOT)
    else if stepEnded s t 10 then t.firmwareStarts (t.on SYS_BOOTSTAT_FWSLOT) else t

/-- LIFECYCLE_ADVANCE (13 R320). -/
def execLifecycleAdvance (a : Acc) (v : Word32) (s : State) : Out := s.writeRow a SYS_LCADV v

/-- REPROVISION (13 R322). -/
def execReprovision (a : Acc) (v : Word32) (s : State) : Out := s.writeRow a SYS_REPROV v

/-- CORE_START (13 R323). -/
def execCoreStart (a : Acc) (n : Fin 16) (v : Word32) (s : State) : Out := s.writeRow a (SYS_CORE_CTRL n) v

/-- CORE_STOP (13 R324). -/
def execCoreStop (a : Acc) (n : Fin 16) (v : Word32) (s : State) : Out := s.writeRow a (SYS_CORE_CTRL n) v

/-- DOORBELL_SET (13 R326). -/
def execDoorbellSet (a : Acc) (n : Fin 16) (v : Word32) (s : State) : Out := s.writeRow a (SYS_DBSET n) v

/-- PROGRAM (14 R333). -/
def execProgram (a : Acc) (v : Word32) (s : State) : Out := s.writeRow a FLC_CMD v

/-- ERASE (14 R334). -/
def execErase (a : Acc) (v : Word32) (s : State) : Out := s.writeRow a FLC_CMD v

/-- COPY (14 R332). -/
def execCopy (a : Acc) (v : Word32) (s : State) : Out := s.writeRow a FLC_CMD v

/-- OTP_PROGRAM (14 R331). -/
def execOtpProgram (a : Acc) (v : Word32) (s : State) : Out := s.writeRow a FLC_CMD v

/-- TMP_STKY_CLEAR (15 R357). -/
def execTmpStkyClear (a : Acc) (v : Word32) (s : State) : Out := s.writeRow a TMP_STKY_CLR v

/-- TMP_SRCCFG_WRITE (15 R354). -/
def execTmpSrccfgWrite (a : Acc) (n : Fin 28) (v : Word32) (s : State) : Out := s.writeRow a (TMP_SRCCFG n) v

/-- TAMPER_BIST (15 R358). -/
def execTamperBist (a : Acc) (v : Word32) (s : State) : Out := s.writeRow a TMP_BIST v

/-- WCK_ACT_WAKE (15 R363). -/
def execWckActWake (a : Acc) (v : Word32) (s : State) : Out := s.writeRow a WCK_ACT v

/-- WCK_ACT_PROMOTE (15 R363). -/
def execWckActPromote (a : Acc) (v : Word32) (s : State) : Out := s.writeRow a WCK_ACT v

/-- WCK_ACT_ALARM (15 R363). -/
def execWckActAlarm (a : Acc) (v : Word32) (s : State) : Out := s.writeRow a WCK_ACT v

/-- WCK_ACT_SNUFF (15 R363). -/
def execWckActSnuff (a : Acc) (v : Word32) (s : State) : Out := s.writeRow a WCK_ACT v

/-- WICK_RUN (15 R364). -/
def execWickRun (a : Acc) (v : Word32) (s : State) : Out := s.writeRow a WCK_CTRL v

/-- WICK_HALT (15 R367). -/
def execWickHalt (a : Acc) (v : Word32) (s : State) : Out := s.writeRow a WCK_CTRL v

/-- WICK_LOAD_WRITE (15 R364). -/
def execWickLoadWrite (a : Acc) (v : Word32) (s : State) : Out := s.writeRow a WCK_LDDATA v

/-- WATCHDOG_KICK (15 R365). -/
def execWatchdogKick (a : Acc) (v : Word32) (s : State) : Out := s.writeRow a WCK_WDOG v

/-- SEVERE_CLEAR (16 R376). -/
def execSevereClear (a : Acc) (k : Fin 4) (v : Word32) (s : State) : Out := s.writeRow a (FLT_SEV k) v

/-- FAULT_STICKY_CLEAR (16 R380). -/
def execFaultStickyClear (a : Acc) (k : Fin 4) (v : Word32) (s : State) : Out := s.writeRow a (FLT_STKYCLR k) v

/-- FAULT_FORCE (16 R377). -/
def execFaultForce (a : Acc) (k : Fin 4) (v : Word32) (s : State) : Out := s.writeRow a (FLT_FORCE k) v

/-- FAULT_CONFIG_WRITE (16 R378). -/
def execFaultConfigWrite (a : Acc) (n : Fin 128) (v : Word32) (s : State) : Out := s.writeRow a (FLT_CFG n) v

/-- CARD_ACTIVATE (17 R382). -/
def execCardActivate (a : Acc) (n : Fin 2) (v : Word32) (s : State) : Out := s.writeRow a (CRD_SCTRL n) v

/-- CARD_DEACTIVATE (17 R383). -/
def execCardDeactivate (a : Acc) (n : Fin 2) (v : Word32) (s : State) : Out := s.writeRow a (CRD_SCTRL n) v

/-- CRD_DISABLE (17 R395). -/
def execCrdDisable (a : Acc) (v : Word32) (s : State) : Out := s.writeRow a CRD_CTRL v

/-- CARD_EXCHANGE (17 R386). -/
def execCardExchange (a : Acc) (n : Fin 2) (v : Word32) (s : State) : Out := s.writeRow a (CRD_SXFER n) v

/-- QUORUM_OPEN (17 R393). -/
def execQuorumOpen (a : Acc) (v : Word32) (s : State) : Out := s.writeRow a CRD_QCTRL v

/-- QUORUM_ATTEST (17 R393). -/
def execQuorumAttest (a : Acc) (v : Word32) (s : State) : Out := s.writeRow a CRD_QCTRL v

/-- QUORUM_ABORT (17 R393). -/
def execQuorumAbort (a : Acc) (v : Word32) (s : State) : Out := s.writeRow a CRD_QCTRL v

/-- ROSTER_COMMIT (17 R394). -/
def execRosterCommit (a : Acc) (v : Word32) (s : State) : Out := s.writeRow a CRD_ROSTER_CTRL v

/-- TAG_WIRED_READ (18 R405). -/
def execTagWiredRead (a : Acc) (v : Word32) (s : State) : Out := s.writeRow a TAG_WCMD v

/-- TAG_WIRED_WRITE (18 R405). -/
def execTagWiredWrite (a : Acc) (v : Word32) (s : State) : Out := s.writeRow a TAG_WCMD v

/-- TAG_WIRED_INVALID (18 R412). -/
def execTagWiredInvalid (a : Acc) (v : Word32) (s : State) : Out := s.writeRow a TAG_WCMD v

/-- TAG_GROUP_APPLY (18 R409). -/
def execTagGroupApply (a : Acc) (v : Word32) (s : State) : Out := s.writeRow a TAG_GRPCFG v

/-- CAL_APPLY (19 R417). -/
def execCalApply (a : Acc) (v : Word32) (s : State) : Out := s.writeRow a CAL_APPLY v

/-- PMC_SNAPSHOT (19 R421). -/
def execPmcSnapshot (a : Acc) (v : Word32) (s : State) : Out := s.writeRow a PMC_SNAP v

/-- OBS_SELECT (19 R424). -/
def execObsSelect (a : Acc) (k : Fin 8) (v : Word32) (s : State) : Out := s.writeRow a (OBS_SEL k) v

/-! ### The debug access port (19 R426) -/

/-- The debug capability allows an aligned 32-bit access of the kind at `addr` (19 R426, 04 R107). -/
def State.dapMay (s : State) (write : Bool) (addr : Nat) : Bool :=
  let e := (s.rd OBS_DCAP_END).toNat
  permBit ((s.rd OBS_DCAP_PERM).setWidth 16) (if write then pW else pR) && decide ((s.rd OBS_DCAP_BASE).toNat ≤ addr) &&
    decide (addr + 4 ≤ if e = 0 then 2 ^ 48 else e)

/-- The last access of the port failed, gave data, or waits for the flash array; DAP_ACCESS_DONE captures it. `entered`
says that it entered the interconnect. -/
def State.dapGives (s : State) (entered : Bool) (addr : Nat) (r : Except BusErr Nat) : State :=
  let d : DapState := { s.obs.dap with busy := true, flight := entered }
  { s with obs := { s.obs with dap := match r with
      | .ok v => { d with result := some (false, BitVec.ofNat 32 v) }
      | .error .wait => { d with waits := some addr }
      | .error .act => { d with flight := false, result := some (true, 0) }
      | .error _ => { d with result := some (true, 0) } } }

/-- One access of the port: the check of DCAP, then the access itself. -/
def State.dapAccess (s : State) (write : Bool) (addr v : Nat) : State :=
  let addr := addr / 4 * 4
  if !s.dapMay write addr then (s.raise OBS_EVT_DCAP_FAULT).dapGives false addr (.error .target)
  else if write then
    match s.anyWrite s.dapAcc addr 4 v with
    | (.ok _, s) => s.dapGives true addr (.ok 0)
    | (.error e, s) => s.dapGives true addr (.error e)
  else
    match s.anyRead s.dapAcc addr 4 with
    | (.ok v, s) => s.dapGives true addr (.ok v)
    | (.error e, s) => s.dapGives true addr (.error e)

/-- The port takes an operation: the DAP instruction is in force, and the previous access has ended. -/
def State.dapReady (s : State) : Bool := s.powered && decide (s.obs.tap = .dap) && !s.obs.dap.busy

/-- DAP_READ. -/
def execDapRead (dt : Nat) (addr : BitVec 48) (s : State) : Out :=
  timed dt State.dapReady s (fun s => s.dapAccess false addr.toNat 0)

/-- DAP_WRITE. -/
def execDapWrite (dt : Nat) (addr : BitVec 48) (v : Word32) (s : State) : Out :=
  timed dt State.dapReady s (fun s => s.dapAccess true addr.toNat v.toNat)

end Sys2Proof.Machine
end

