-- ==== Sys2Proof/Machine/WenakEng.lean ====
section
/-!
DEFINITION. Machine/WenakEng.lean: the engine instructions of service programs (04 R128-R133).
-/

namespace Sys2Proof.Machine

/-- The form of an ENG instruction, which only the service profile has (04 R138). -/
def formE (fn : BitVec 4) (f : FmtE) (ok : Bool) : Form := { word := encE fn f, ok := ok, ctl := false, wick := false }

/-- ENGINE (05 Table 5.4). -/
def excEngine : Exc := { cause := 9 }

/-- The context that the hart runs, and what an instruction does for it. -/
def withCtx (h : Hart) (s : State) (g : Fin 64 → Nat → Res) : Res :=
  match h with
  | .svc k => match s.ctxOn k with
    | some c => g k c
    | none => .stays s
  | _ => .stays s

/-- Ticket `t` of context `c`. -/
def State.ticket (s : State) (c t : Nat) : Ticket := sget .free (s.ctx c).tickets t
/-- Replace a ticket. -/
def State.setTicket (s : State) (c t : Nat) (x : Ticket) : State :=
  s.setCtx c { s.ctx c with tickets := sput .free (s.ctx c).tickets t x }

/-- EPUT. -/
def execEput (h : Hart) (f : FmtE) (s : State) : Out :=
  s.execute h (formE 0 f (decide (f.rd = 0 ∧ f.ce = 0) && decide (f.imm.toNat < 16))) fun s =>
    withCtx h s fun _ c => .seq (s.setCtx c { s.ctx c with ew := sput 0 (s.ctx c).ew (f.imm.toNat % 16) (s.gpr h f.ra) })

/-! ### EISS (04 R129, R130) -/

/-- The lowest free ticket of context `c`. -/
def State.freeTicket (s : State) (c : Nat) : Option Nat := (List.range 8).find? fun t => decide (s.ticket c t = .free)

/-- The issue descriptor of the EISS that context `c` stands at (06 Table 6.7). -/
def State.issueDesc (s : State) (c : Nat) : Option IssueDesc :=
  (s.prog (s.ctx c).prog).descs.find? fun d => decide (d.index = s.indexOf c)

/-- The command that an EISS builds: EW0 to EW[imm8[3:0]] under `ce`, with the context memory of its capability. -/
def State.commandOf (s : State) (c t : Nat) (f : FmtE) (ce : Cap) : EngCmd :=
  { ctx := c, ticket := t, pool := if f.imm.toNat / 64 = 0 then .cph else .mau
    words := (List.range (f.imm.toNat % 16 + 1)).map (sget 0 (s.ctx c).ew)
    base := ce.base.toNat, top := ce.limit, perms := ce.perms, index := s.indexOf c
    snap := s.dsp.mem.filter fun e => decide (ce.base.toNat ≤ e.1) && decide (e.1 < ce.limit) }

/-- The pool accepts the command (08 R213, 09 R231): its own checks against the descriptor, and no conflict with an
outstanding command of the context. -/
def State.poolAccepts (s : State) (c : Nat) (e : EngCmd) (d : IssueDesc) (ce : Cap) : Bool :=
  (match e.pool with
   | .cph => decide (d.pool = 0) && s.cphIssueOk c e.words d ce
   | .mau => decide (d.pool = 1) && s.mauIssueOk c e.words d ce) &&
  (s.outstanding c).all fun o => !e.conflicts o

/-- The command joins its pool's ready queue, and the ticket is outstanding. -/
def State.issue (s : State) (e : EngCmd) : State :=
  let s := s.setTicket e.ctx e.ticket .outstanding
  match e.pool with
  | .cph => { s with cphQ := s.cphQ ++ [e] }
  | .mau => { s with mauQ := s.mauQ ++ [e] }

/-- EISS: RESERVED for a reserved pool, ILLEGAL for imm8[5:4], then the capability, then ENGINE. -/
def execEiss (h : Hart) (f : FmtE) (s : State) : Out :=
  s.execute h (formE 1 f (decide (2 ≤ f.imm.toNat / 64) || decide (f.ra = 0 ∧ f.imm.toNat / 16 % 4 = 0))) fun s =>
    if 2 ≤ f.imm.toNat / 64 then .raises excReserved s
    else
      let ce := s.cap h f.ce
      match ce.checkUse [pENG] with
      | some d => .raises (excCap d) s
      | none => withCtx h s fun _ c =>
        match s.freeTicket c, s.issueDesc c with
        | some t, some d =>
          let e := s.commandOf c t f ce
          if s.poolAccepts c e d ce then .seq ((s.issue e).setGpr h f.rd (BitVec.ofNat 64 t)) else .raises excEngine s
        | _, _ => .raises excEngine s

/-! ### Tickets (04 R130, R132, R133) -/

/-- The ticket that g[ra] names. -/
def State.ticketOf (s : State) (h : Hart) (f : FmtE) : Nat := (s.gpr h f.ra).toNat % 8

/-- The form of EWAIT and EPOLL. -/
def formTicket (fn : BitVec 4) (f : FmtE) : Form := formE fn f (decide (f.ce = 0 ∧ f.imm = 0))

/-- The context parks at its EWAIT, or returns to READY where the ticket has completed; its SC stage ends (04 R132). -/
def State.park (s : State) (c t : Nat) (rd : BitVec 5) : State :=
  let s := s.scEnds c
  let done := decide (s.ticket c t ≠ .outstanding)
  s.setCtx c { s.ctx c with st := if done then .ready else .parked, await := some (t, rd), resumed := done }

/-- The EWAIT of a resumed context retires: gd takes the completion word, and the ticket is free. -/
def State.takeWord (s : State) (h : Hart) (c t : Nat) (rd : BitVec 5) (w : Word) : State :=
  let s := s.setTicket c t .free
  (s.setCtx c { s.ctx c with await := none, resumed := false }).setGpr h rd w

/-- EWAIT. -/
def execEwait (h : Hart) (f : FmtE) (s : State) : Out :=
  s.execute h (formTicket 2 f) fun s => withCtx h s fun _ c =>
    match (s.ctx c).resumed, (s.ctx c).await with
    | true, some (t, rd) => match s.ticket c t with
      | .done w => .seq (s.takeWord h c t rd w)
      | _ => .stays s
    | _, _ =>
      if s.ticket c (s.ticketOf h f) = .free then .raises excEngine s else .stays (s.park c (s.ticketOf h f) f.rd)

/-- EPOLL. -/
def execEpoll (h : Hart) (f : FmtE) (s : State) : Out :=
  s.execute h (formTicket 3 f) fun s => withCtx h s fun _ c =>
    match s.ticket c (s.ticketOf h f) with
    | .free => .raises excEngine s
    | .outstanding => .seq (s.setGpr h f.rd 0)
    | .done w => .seq ((s.setTicket c (s.ticketOf h f) .free).setGpr h f.rd w)

/-- EABORT: an outstanding command ends, and its ticket completes with STATUS 0xFFFF. -/
def execEabort (h : Hart) (f : FmtE) (s : State) : Out :=
  s.execute h (formE 4 f (decide (f.rd = 0 ∧ f.ce = 0 ∧ f.imm = 0))) fun s => withCtx h s fun _ c =>
    let t := s.ticketOf h f
    match s.ticket c t with
    | .free => .raises excEngine s
    | .outstanding => .seq ((s.abortWhere c fun e => decide (e.ticket = t)).postTicket c t (doneWord 0 0xFFFF))
    | .done _ => .seq s

end Sys2Proof.Machine
end

