-- ==== Sys2Proof/Machine/Loader.lean ====
section
/-!
DEFINITION. Machine/Loader.lean: the program loader (06 R178-R181): the checks of 06 Table 6.8 in their order, and the
stages that a program derives.
-/

namespace Sys2Proof.Machine

/-! ### The image (06 Tables 6.6, 6.7) -/

/-- An image as it was read: its header words, descriptors, code and constants. -/
structure Image where
  rand : Bool
  state : Bool
  id : Nat
  ver : Nat
  descs : List (IssueDesc × Bool)
  code : List Word32
  consts : List Byte
  deriving DecidableEq, Repr

/-- The lengths a header gives: NISSUE, NCODE, NCONST; none where it fails check 0x03. -/
def headerLens (h : List Byte) : Option (Nat × Nat × Nat) :=
  let ncode := leAt h 8 4
  let nconst := leAt h 12 4
  let nissue := leAt h 16 4
  if leAt h 0 4 = 0x31505357 ∧ leAt h 4 2 = 1 ∧ leAt h 6 2 ≤ 3 ∧ leAt h 28 4 = 0 ∧ 2 ≤ ncode ∧ ncode ≤ 4096 ∧
      nconst ≤ 16384 ∧ nconst % 16 = 0 ∧ nissue ≤ 5
  then some (nissue, ncode, nconst) else none

/-- The issue descriptor in 16 bytes, and whether its reserved fields are zero. -/
def descOf (b : List Byte) : IssueDesc × Bool :=
  ({ index := leAt b 0 2, pool := leAt b 2 1, flags := leAt b 3 1, opcode := leAt b 4 2, maxlen := leAt b 8 4 },
    decide (leAt b 6 2 = 0) && decide (leAt b 12 4 = 0))

/-- The image that a header and the bytes after it spell. -/
def imageOf (h r : List Byte) (nissue ncode nconst : Nat) : Image :=
  { rand := decide (leAt h 6 2 % 2 = 1), state := decide (leAt h 6 2 / 2 % 2 = 1), id := leAt h 20 4, ver := leAt h 24 4
    descs := (List.range nissue).map fun i => descOf (slice r (16 * i) 16)
    code := (List.range ncode).map fun i => BitVec.ofNat 32 (leAt r (16 * nissue + 4 * i) 4)
    consts := slice r (16 * nissue + 4 * ncode) nconst }

/-! ### The code (06 Table 6.8, R180) -/

/-- What the loader asks of a word: an instruction of the service profile that raises neither ILLEGAL nor RESERVED
(check 0x04; the displacements are check 0x05). -/
def serviceOk (w : Word32) : Bool :=
  match decodeWenak (.svc 0) w with
  | .add .. | .sub .. | .and .. | .or .. | .xor .. | .nor .. | .slt .. | .sltu .. | .sll .. | .srl .. | .sra .. | .movz ..
  | .movn .. | .min .. | .max .. | .minu .. | .maxu .. | .addw .. | .subw .. | .sllw .. | .srlw .. | .sraw .. | .mul ..
  | .mulh .. | .mulhu .. | .addv .. | .subv .. | .mulv .. | .addi .. | .addiw .. | .andi .. | .ori .. | .xori .. | .slti ..
  | .sltiu .. | .lb .. | .lbu .. | .lh .. | .lhu .. | .lw .. | .lwu .. | .ld .. | .sb .. | .sh .. | .sw .. | .sd ..
  | .beq .. | .bne .. | .blt .. | .bge .. | .bltu .. | .bgeu .. | .j .. => true
  | .clz _ f | .popc _ f | .bswap _ f | .bswapw _ f => decide (f.rb = 0)
  | .lui _ f => decide (f.ra = 0)
  | .slli _ f | .srli _ f | .srai _ f => decide (f.mid = 0)
  | .slliw _ f | .srliw _ f | .sraiw _ f => decide (f.mid = 0) && decide (f.sh.toNat < 32)
  | .extu _ f | .exts _ f | .ins _ f => decide (f.mid = 0) && decide (f.pos.toNat + f.len1.toNat + 1 ≤ 64)
  | .lcap _ f | .scap _ f => decide (f.rt.toNat < 16)
  | .ccopy _ f | .cvoid _ f => decide (f.z = 0 ∧ f.u = 0)
  | .cnarrow _ f => decide (f.z = 0 ∧ f.u ≠ 31)
  | .ctrim _ f => decide (f.z = 0)
  | .cpcc _ f => decide (f.y = 0 ∧ f.z = 0 ∧ f.u = 0)
  | .cinfoBase _ f | .cinfoEnd _ f | .cinfoLength _ f | .cinfoPerms _ f | .cinfoOtype _ f | .cinfoTag _ f
  | .cwithin _ f | .csame _ f => decide (f.x = 0)
  | .nop _ f | .endCtx _ f _ => decide (f.rd = 0 ∧ f.ra = 0 ∧ f.imm = 0)
  | .srd _ f => decide (f.ra = 0) && decide (f.imm.toNat ≤ 2)
  | .eput _ f => decide (f.rd = 0 ∧ f.ce = 0) && decide (f.imm.toNat < 16)
  | .eiss _ f => decide (f.ra = 0) && decide (f.imm.toNat / 64 < 2) && decide (f.imm.toNat / 16 % 4 = 0)
  | .ewait _ f | .epoll _ f => decide (f.ce = 0 ∧ f.imm = 0)
  | .eabort _ f => decide (f.rd = 0 ∧ f.ce = 0 ∧ f.imm = 0)
  | _ => false

/-- The kinds of an instruction that the loader tells apart. -/
inductive LoadKind where
  | branch (disp : Int) (always : Bool)
  | eiss (pool : Nat)
  | ewait | fin | other
  deriving DecidableEq, Repr

/-- The kind of a word. -/
def loadKind (w : Word32) : LoadKind :=
  match decodeWenak (.svc 0) w with
  | .beq _ f | .bne _ f | .blt _ f | .bge _ f | .bltu _ f | .bgeu _ f => .branch f.disp.toInt false
  | .j _ f => .branch f.disp.toInt true
  | .eiss _ f => .eiss (f.imm.toNat / 64)
  | .ewait .. => .ewait
  | .endCtx .. => .fin
  | _ => .other

/-- The place of the first entry of a list that satisfies `p`. -/
def firstPlace {α : Type} (p : Nat → α → Bool) : Nat → List α → Option Nat
  | _, [] => none
  | i, x :: t => if p i x then some i else firstPlace p (i + 1) t

/-- The kind is a branch. -/
def LoadKind.isBranch : LoadKind → Bool
  | .branch _ _ => true
  | _ => false

/-- The segment of the instruction at `i`: the EWAITs up to it (06 R180). -/
def segmentOf (ks : List LoadKind) (i : Nat) : Nat := ((ks.take (i + 1)).filter (fun k => decide (k = .ewait))).length

/-- The final segment. -/
def lastSegment (ks : List LoadKind) : Nat := (ks.filter (fun k => decide (k = .ewait))).length

/-- Check 0x05: a displacement below 2, or a target outside the code. -/
def dispBad (n i : Nat) : LoadKind → Bool
  | .branch d _ => decide (d < 2) || decide ((n : Int) ≤ i + d)
  | _ => false

/-- What may not stand in a delay slot: check 0x06. -/
def slotBad : LoadKind → Bool
  | .branch _ _ | .eiss _ | .ewait | .fin => true
  | .other => false

/-- Check 0x06: the place of a bad delay slot, or of a branch that is the last word. -/
def slotFault (ks : List LoadKind) : Nat → Option Nat
  | i => match firstPlace (fun j k => k.isBranch && (decide (j + 1 = ks.length) || slotBad (ks.getD (j + 1) .other))) 0 ks with
    | some j => some (if j + 1 = ks.length then j + i else j + 1 + i)
    | none => none

/-- Check 0x08: a target outside the branch's own segment and the final one. -/
def segBad (ks : List LoadKind) (i : Nat) : LoadKind → Bool
  | .branch d _ => decide (segmentOf ks (i + d.toNat) ≠ segmentOf ks i) && decide (segmentOf ks (i + d.toNat) ≠ lastSegment ks)
  | _ => false

/-- The words of ITEM 0x03 in force: index, place, value (19 R414). -/
def State.boundOverlay (s : State) : List (Nat × Nat × Word32) :=
  ((s.calBank (s.fget CAL_STAT_BANK)).filter fun w => decide (w.item = 3)).map fun w => (w.index, w.word, w.value)

/-- The worst-corner duration of a descriptor's operation (06 R181). The words of an overlay of the engine bound table
raise it, by at most a quarter; which word stands for which operation is left open (19 Table 19.1, log entry 63). -/
def State.engineBound (s : State) (d : IssueDesc) : Option Nat :=
  let b := if d.pool = 0 then cphBound d.opcode d.maxlen d.flags else if d.pool = 1 then mauBound d.opcode d.maxlen d.flags else none
  b.map fun b =>
    if s.boundOverlay = [] then b
    else b + Config.boundRaise s.boundOverlay d.pool d.opcode d.maxlen d.flags % (b / 4 + 1)

/-- A descriptor's own fields are bad: check 0x09. Its OPCODE and MAXLEN are in the engine bound table. -/
def State.descBad (s : State) (d : IssueDesc × Bool) : Bool :=
  !d.2 || decide (8 ≤ d.1.flags) || (decide (4 ≤ d.1.flags) && decide (d.1.opcode ≠ 0x105) && decide (d.1.opcode ≠ 0x106)) ||
    (s.engineBound d.1).isNone

/-- Check 0x09 at the EISS at `i`: exactly one descriptor, of its pool. -/
def eissBad (ds : List IssueDesc) (i : Nat) : LoadKind → Bool
  | .eiss p => match ds.filter (fun d => decide (d.index = i)) with
    | [d] => decide (d.pool ≠ p)
    | _ => true
  | _ => false

/-- The descriptor names an EISS. -/
def namesEiss (ks : List LoadKind) (d : IssueDesc) : Bool :=
  match ks.getD d.index .other with
  | .eiss _ => true
  | _ => false

/-- Check 0x0A: an EISS in the final segment. -/
def lateEiss (ks : List LoadKind) (i : Nat) : LoadKind → Bool
  | .eiss _ => decide (segmentOf ks i = lastSegment ks)
  | _ => false

/-! ### Derived stages (06 R181) -/

/-- The counts of retirements from each place on, up to the next EWAIT or END: the list begins at place `n - f` of the
code, for the last `f` instructions. -/
def runCounts (ks : List LoadKind) : Nat → List Nat
  | 0 => []
  | f + 1 =>
    let t := runCounts ks f
    let at_ (d : Nat) : Nat := t.getD (d - 1) 0
    (match ks.getD (ks.length - (f + 1)) .other with
     | .ewait => 0
     | .fin => 1
     | .branch d always => 2 + (if always then at_ d.toNat else max (at_ d.toNat) (at_ 2))
     | _ => 1 + at_ 1) :: t

/-- The largest number of retirements of the run that begins at place `i`. -/
def runLen (ks : List LoadKind) (i : Nat) : Nat :=
  let g := runCounts ks ks.length
  if ks.getD i .other = .ewait then 1 + g.getD (i + 1) 0 else g.getD i 0

/-- Where the segments begin: segment 0 at index 0, and segment k at the k-th EWAIT (06 R180). -/
def segStarts (ks : List LoadKind) : List Nat :=
  0 :: (List.range ks.length).filter fun i => decide (ks.getD i .other = .ewait)

/-- The stages of a program, in order. -/
def State.deriveStages (s : State) (im : Image) (ks : List LoadKind) : List PStage :=
  let eiss := (List.range ks.length).filter fun i => match ks.getD i .other with
    | .eiss _ => true
    | _ => false
  let engine (i : Nat) : Option PStage :=
    ((im.descs.map (·.1)).find? fun d => decide (d.index = i)).map fun d =>
      { pool := d.pool + 1, cost := (s.engineBound d).getD 0, index := i }
  let seg (k start : Nat) : List PStage :=
    { pool := 0, cost := runLen ks start, index := start } :: (eiss.filter fun i => decide (segmentOf ks i = k)).filterMap engine
  let runs := ((segStarts ks).mapIdx fun k start => seg k start).flatten
  runs ++ (if im.state then [{ pool := 5, cost := s.fget DSP_LDR_MIR_NS, index := 0 }] else [])

/-- The first check of 06 Table 6.8 from 0x04 on that an image fails, with its INDEX. For a descriptor that names no EISS,
check 0x09 reports the instruction that it names (DESIGN CHOICE, log entry 140). -/
def State.imageFault (s : State) (im : Image) : Option (Nat × Nat) :=
  let ks := im.code.map loadKind
  let ds := im.descs.map (·.1)
  let n := ks.length
  match firstPlace (fun _ w => !serviceOk w) 0 im.code with
  | some i => some (4, i)
  | none => match firstPlace (dispBad n) 0 ks with
  | some i => some (5, i)
  | none => match slotFault ks 0 with
  | some i => some (6, i)
  | none => if ks.getD (n - 1) .other ≠ .fin then some (7, 0) else match firstPlace (segBad ks) 0 ks with
  | some i => some (8, i)
  | none => match firstPlace (fun _ d => s.descBad d) 0 im.descs with
  | some i => some (9, i)
  | none => match firstPlace (eissBad ds) 0 ks with
  | some i => some (9, i)
  | none => match ds.find? (fun d => !namesEiss ks d) with
  | some d => some (9, d.index)
  | none => match firstPlace (lateEiss ks) 0 ks with
  | some i => some (10, i)
  | none => match firstPlace (fun _ (d : IssueDesc) => decide (d.flags / 2 % 2 = 1) && !im.rand) 0 ds with
  | some i => some (11, i)
  | none => if 6 < (s.deriveStages im ks).length then some (12, 0) else none

/-! ### The load (06 R179) -/

/-- The load ends with a code and an INDEX. -/
def State.loadEnds (s : State) (err index : Nat) : State :=
  let s := State.lower { s with dsp := { s.dsp with loading := none } } DSP_LDR_CTRL_BUSY |>.endStalls .loader
  let s := (s.fset DSP_LDR_RES_ERR err).fset DSP_LDR_RES_INDEX index
  s.raise (if err = 0 then DSP_EVT_LDR_DONE else DSP_EVT_LDR_ERR)

/-- The slot takes the image: code, constants, and what derives from it. -/
def State.fillSlot (s : State) (slot : Nat) (im : Image) : State :=
  let ks := im.code.map loadKind
  let ds := im.descs.map (·.1)
  let keyed := (ds.filter fun d => decide (d.flags % 2 = 1)).length
  let p : Prog :=
    { loaded := true, id := im.id, ver := im.ver, ncode := im.code.length, nconst := im.consts.length, rand := im.rand,
      state := im.state, descs := ds, stages := s.deriveStages im ks
      lpath := ds.length * s.fget DSP_LDR_CFG_ISSUE_NS + keyed * s.fget DSP_LDR_CFG_KEY_NS }
  let mem := prvWrite s.dsp.mem (0x8000 * slot) ((im.code.map fun w => leBytes 4 w.toNat).flatten)
  { s with damaged := healed s.damaged .ctx (0x8000 * slot) 0x8000, dsp := { s.dsp with
      mem := prvWrite mem (0x8000 * slot + 0x4000) im.consts
      progs := sput {} s.dsp.progs slot p } }

/-- The image at `src` is read and checked; the slot is filled or left empty. -/
def State.loadImage (s : State) (src slot : Nat) : State :=
  if !s.slotIdle slot then s.loadEnds 1 0
  else
    let a : Acc := ⟨.loader, 0⟩
    let s := s.emptySlot slot
    match s.readBlock a src 32 with
    | (.error .wait, s) => s
    | (.error _, s) => s.loadEnds 2 0
    | (.ok h, s) => match headerLens h with
      | none => s.loadEnds 3 0
      | some (nissue, ncode, nconst) =>
        match s.readBlock a (src + 32) (16 * nissue + 4 * ncode + nconst) with
        | (.error .wait, s) => s
        | (.error _, s) => s.loadEnds 2 0
        | (.ok r, s) =>
          let im := imageOf h r nissue ncode nconst
          match s.imageFault im with
          | some (e, i) => s.loadEnds e i
          | none => (s.fillSlot slot im).loadEnds 0 0

/-- PROGRAM_LOAD_DONE (06 R179). -/
def execProgramLoadDone (dt : Nat) (s : State) : Out :=
  timed dt (fun s => s.powered && s.dsp.loading.isSome) s (fun s =>
    match s.dsp.loading with
    | some (src, slot) => s.loadImage src slot
    | none => s)

end Sys2Proof.Machine
end

