-- ==== Sys2Proof/Machine/WenakCap.lean ====
section
/-!
DEFINITION. Machine/WenakCap.lean: the capability instructions (04 R119, R120, Table 4.5; 05 R143, R147).
-/

namespace Sys2Proof.Machine

/-- The form of a CAP instruction. -/
def formC (fn : BitVec 9) (f : FmtC) (ok : Bool) : Form := { word := encC 0x2A fn f, ok := ok }
/-- The form of CINFO: X is unused. -/
def formInfo (sel : BitVec 4) (f : FmtC) : Form := { word := encInfo sel f, ok := decide (f.x = 0) }

/-- cX takes a capability. -/
def State.givesCap (s : State) (h : Hart) (x : BitVec 4) (c : Cap) : Res := .seq (s.setCap h x c)

/-- CCOPY. -/
def execCcopy (h : Hart) (f : FmtC) (s : State) : Out :=
  s.execute h (formC 0x00 f (decide (f.z = 0 ∧ f.u = 0))) fun s => s.givesCap h f.x (s.cap h f.y)

/-- CNARROW succeeds (05 Table 5.3, R143): the new bounds lie in the old, in order, and do not encode to end = base = 0
but for what is inherited whole. -/
def narrowOk (c : Cap) (b e : Nat) : Bool :=
  decide (c.base.toNat ≤ b) && decide (b ≤ e) && decide (e ≤ c.limit) && !(decide (e = 0) && decide (b = 0)) &&
    decide (b < 2 ^ 48)

/-- CNARROW. -/
def execCnarrow (h : Hart) (f : FmtC) (s : State) : Out :=
  s.execute h (formC 0x01 f (decide (f.z = 0 ∧ f.u ≠ 31))) fun s =>
    let c := s.cap h f.y
    match c.checkUse [] with
    | some d => .raises (excCap d) s
    | none =>
      let b := c.base.toNat + (s.gpr h f.u).toNat
      let e := b + (s.gpr h (f.u + 1)).toNat
      if narrowOk c b e then s.givesCap h f.x { c with base := BitVec.ofNat 48 b, top := BitVec.ofNat 48 e }
      else .raises (excCap 5) s

/-- CTRIM. -/
def execCtrim (h : Hart) (f : FmtC) (s : State) : Out :=
  s.execute h (formC 0x02 f (decide (f.z = 0))) fun s =>
    let c := s.cap h f.y
    match c.checkUse [] with
    | some d => .raises (excCap d) s
    | none => s.givesCap h f.x { c with perms := c.perms &&& (s.gpr h f.u).setWidth 16 }

/-- TA(t): the type address of an object type (05 R147). -/
def typeAddr (t : Nat) : Nat := 0x3FFF0000 + t

/-- The type lies in the window of the authority. -/
def inWindow (c : Cap) (t : Nat) : Bool := decide (c.base.toNat ≤ typeAddr t) && decide (typeAddr t < c.limit)

/-- The form of CLOCK and CUNLOCK, which the service profile and Wick's core exclude (04 R138, R140). -/
def formSeal (fn : BitVec 9) (f : FmtC) (ok : Bool) : Form := { word := encC 0x2A fn f, ok := ok, svc := false, wick := false }

/-- CLOCK. -/
def execClock (h : Hart) (f : FmtC) (s : State) : Out :=
  s.execute h (formSeal 0x03 f true) fun s =>
    let c := s.cap h f.y
    let a := s.cap h f.z
    let t := (s.gpr h f.u).setWidth 16
    if !c.tag || !a.tag then .raises (excCap 1) s
    else if c.otype ≠ 0 ∨ a.otype ≠ 0 then .raises (excCap 2) s
    else if !permBit a.perms pSEAL then .raises (excCap 3) s
    else if t = 0 ∨ t = 0xFFFF ∨ !inWindow a t.toNat then .raises (excCap 5) s
    else s.givesCap h f.x { c with otype := t }

/-- CUNLOCK. -/
def execCunlock (h : Hart) (f : FmtC) (s : State) : Out :=
  s.execute h (formSeal 0x04 f (decide (f.u = 0))) fun s =>
    let c := s.cap h f.y
    let a := s.cap h f.z
    if !c.tag || !a.tag then .raises (excCap 1) s
    else if c.otype = 0 ∨ c.otype = 0xFFFF ∨ a.otype ≠ 0 then .raises (excCap 2) s
    else if !permBit a.perms pUNSEAL then .raises (excCap 3) s
    else if !inWindow a c.otype.toNat then .raises (excCap 5) s
    else s.givesCap h f.x { c with otype := 0 }

/-- CVOID. -/
def execCvoid (h : Hart) (f : FmtC) (s : State) : Out :=
  s.execute h (formC 0x05 f (decide (f.z = 0 ∧ f.u = 0))) fun s => s.givesCap h f.x { s.cap h f.y with tag := false }

/-- CPCC. -/
def execCpcc (h : Hart) (f : FmtC) (s : State) : Out :=
  s.execute h (formC 0x06 f (decide (f.y = 0 ∧ f.z = 0 ∧ f.u = 0))) fun s => s.givesCap h f.x (s.core h).pcc

/-- A read of cY into gU. -/
def capInfo (h : Hart) (f : FmtC) (g : Cap → Nat) (s : State) : Res := .seq (s.setGpr h f.u (BitVec.ofNat 64 (g (s.cap h f.y))))

/-- CINFO, base. -/
def execCinfoBase (h : Hart) (f : FmtC) (s : State) : Out := s.execute h (formInfo 0 f) (capInfo h f fun c => c.base.toNat)
/-- CINFO, end: an encoded 0 is 2^48. -/
def execCinfoEnd (h : Hart) (f : FmtC) (s : State) : Out := s.execute h (formInfo 1 f) (capInfo h f fun c => c.limit)
/-- CINFO, length: end less base, modulo 2^64. -/
def execCinfoLength (h : Hart) (f : FmtC) (s : State) : Out :=
  s.execute h (formInfo 2 f) (capInfo h f fun c => c.limit + 2 ^ 64 - c.base.toNat)
/-- CINFO, perms. -/
def execCinfoPerms (h : Hart) (f : FmtC) (s : State) : Out := s.execute h (formInfo 3 f) (capInfo h f fun c => c.perms.toNat)
/-- CINFO, otype. -/
def execCinfoOtype (h : Hart) (f : FmtC) (s : State) : Out := s.execute h (formInfo 4 f) (capInfo h f fun c => c.otype.toNat)
/-- CINFO, tag. -/
def execCinfoTag (h : Hart) (f : FmtC) (s : State) : Out :=
  s.execute h (formInfo 5 f) (capInfo h f fun c => if c.tag then 1 else 0)

/-- `a` grants no more than `c`: its bounds lie in those of `c`, and so do its permissions (04 R120). -/
def grantsNoMore (c a : Cap) : Bool :=
  c.usable && a.usable && decide (c.base.toNat ≤ a.base.toNat) && decide (a.limit ≤ c.limit) &&
    decide (a.perms &&& ~~~c.perms = 0)

/-- The form of CWITHIN and CSAME: X is unused. -/
def formTest (fn : BitVec 9) (f : FmtC) : Form := { word := encC 0x2A fn f, ok := decide (f.x = 0) }

/-- CWITHIN. -/
def execCwithin (h : Hart) (f : FmtC) (s : State) : Out :=
  s.execute h (formTest 0x08 f) fun s =>
    .seq (s.setGpr h f.u (if grantsNoMore (s.cap h f.y) (s.cap h f.z) then 1 else 0))

/-- CSAME. -/
def execCsame (h : Hart) (f : FmtC) (s : State) : Out :=
  s.execute h (formTest 0x09 f) fun s => .seq (s.setGpr h f.u (if s.cap h f.y = s.cap h f.z then 1 else 0))

end Sys2Proof.Machine
end

