-- ==== Sys2Proof/Machine/WenakCtl.lean ====
section
/-!
DEFINITION. Machine/WenakCtl.lean: branches and jumps (04 R113-R118), and the domain switch (04 R121; 05 R148-R152).
-/

namespace Sys2Proof.Machine

/-! ### Branches and jumps -/

/-- The check of a target (04 R115): a multiple of 4, and within PCC with all four bytes of its instruction (DESIGN
CHOICE, log entry 126). -/
def checkTarget (pcc : Cap) (t : Int) : Option Exc :=
  let a := BitVec.ofInt 64 t
  if t % 4 ≠ 0 then some (excMisalign a)
  else if t < pcc.base.toNat ∨ (pcc.limit : Int) < t + 4 then some (excCap 4 a)
  else none

/-- A jump to `t`, where gd takes the link address `A + 8` if there is a link register. -/
def jumpTo (h : Hart) (link : Option (BitVec 5)) (t : Int) (s : State) : Res :=
  let c := s.core h
  match checkTarget c.pcc t with
  | some x => .raises x s
  | none =>
    let s := match link with
      | some rd => s.setGpr h rd ((c.pc + 8).setWidth 64)
      | none => s
    .branch s (BitVec.ofInt 48 t)

/-- A conditional branch: taken where `p` holds of the registers (04 R113). A branch not taken checks no target. -/
def branchIf (h : Hart) (f : FmtB) (p : Word → Word → Bool) (s : State) : Res :=
  let c := s.core h
  if p (c.gpr f.ra) (c.gpr f.rb) then jumpTo h none (c.pc.toNat + 4 * f.disp.toInt) s else .branch s (c.pc + 8)

/-- The form of a branch: on a service core the displacement is 2 or more (04 R118). -/
def formB (h : Hart) (op : BitVec 6) (f : FmtB) : Form :=
  { word := encB op f, ok := !isService h || decide (2 ≤ f.disp.toInt), slot := false }

/-- BEQ. -/
def execBeq (h : Hart) (f : FmtB) (s : State) : Out := s.execute h (formB h 0x20 f) (branchIf h f fun a b => decide (a = b))
/-- BNE. -/
def execBne (h : Hart) (f : FmtB) (s : State) : Out := s.execute h (formB h 0x21 f) (branchIf h f fun a b => decide (a ≠ b))
/-- BLT. -/
def execBlt (h : Hart) (f : FmtB) (s : State) : Out := s.execute h (formB h 0x22 f) (branchIf h f fun a b => a.slt b)
/-- BGE. -/
def execBge (h : Hart) (f : FmtB) (s : State) : Out := s.execute h (formB h 0x23 f) (branchIf h f fun a b => !a.slt b)
/-- BLTU. -/
def execBltu (h : Hart) (f : FmtB) (s : State) : Out := s.execute h (formB h 0x24 f) (branchIf h f fun a b => a.ult b)
/-- BGEU. -/
def execBgeu (h : Hart) (f : FmtB) (s : State) : Out := s.execute h (formB h 0x25 f) (branchIf h f fun a b => !a.ult b)

/-- J. -/
def execJ (h : Hart) (f : FmtJ) (s : State) : Out :=
  s.execute h { word := encJ 0x26 f, ok := !isService h || decide (2 ≤ f.disp.toInt), slot := false } fun s =>
    jumpTo h none ((s.core h).pc.toNat + 4 * f.disp.toInt) s
/-- JAL: g31 takes A + 8. -/
def execJal (h : Hart) (f : FmtJ) (s : State) : Out :=
  s.execute h { word := encJ 0x27 f, svc := false, slot := false } fun s =>
    jumpTo h (some 31) ((s.core h).pc.toNat + 4 * f.disp.toInt) s
/-- JR. -/
def execJr (h : Hart) (f : FmtA) (s : State) : Out :=
  s.execute h { word := encA 0x28 0 f, ok := decide (f.rd = 0) && decide (f.rb = 0), svc := false, slot := false } fun s =>
    jumpTo h none (s.gpr h f.ra).toNat s
/-- JALR. -/
def execJalr (h : Hart) (f : FmtA) (s : State) : Out :=
  s.execute h { word := encA 0x28 1 f, ok := decide (f.rb = 0), svc := false, slot := false } fun s =>
    jumpTo h (some f.rd) (s.gpr h f.ra).toNat s

/-! ### The domain switch -/

/-- The first check that a gate capability fails (05 R148). -/
def gateFault (c : Cap) : Option Nat :=
  if !c.tag then some 1
  else if c.otype = 0 ∨ c.otype = 0xFFFF then some 2
  else if !(permBit c.perms pX && permBit c.perms pR && permBit c.perms pLC) then some 3
  else if c.base.toNat % 16 ≠ 0 ∨ c.limit < c.base.toNat + 32 then some 4
  else none

/-- The entry and the data capability of a gate record pass (05 R148). -/
def recordOk (entry data : Cap) : Bool := entry.usable && permBit entry.perms pX && (decide (data = {}) || data.usable)

/-- CJMP: the switch to the gate's entry (04 R121). -/
def switchTo (h : Hart) (entry data : Cap) (s : State) : Res :=
  let c := s.core h
  let c' := ((c.setCap 13 data).setCap 15 { c.pcc with otype := 0xFFFF }).setGpr 31 ((c.pc + 4).setWidth 64)
  .switch (s.setCore h { c' with pcc := entry }) entry.base none true

/-- CJMP reads the gate record (05 R148). -/
def enterGate (h : Hart) (g : Cap) (s : State) : Res :=
  let a := g.base.toNat
  match s.capRead h g.perms a with
  | (.error e, s) => .raises (excBus e (BitVec.ofNat 64 a)) s
  | (.ok entry, s) => match s.capRead h g.perms (a + 16) with
    | (.error e, s) => .raises (excBus e (BitVec.ofNat 64 (a + 16))) s
    | (.ok data, s) => if recordOk entry data then switchTo h entry data s else .raises (excCap 9) s

/-- The instruction retires only after every earlier store of the core has completed (05 R152); a deferred error that
this brings up comes first, but in a delay slot it waits for the boundary behind it (05 R155). -/
def settled (h : Hart) (s : State) (f : State → Res) : Res :=
  let s := s.settle h
  if (s.core h).defErr.isSome && (s.core h).slot.isNone && !s.hasWord h then .stays (s.accessesOver h) else f s

/-- CJMP. -/
def execCjmp (h : Hart) (f : FmtC) (s : State) : Out :=
  s.execute h { word := encC 0x29 0 f, ok := decide (f.x = 0 ∧ f.z = 0 ∧ f.u = 0), svc := false, wick := false, slot := false }
    fun s => match gateFault (s.cap h f.y) with
      | some d => .raises (excCap d) s
      | none => settled h s (enterGate h (s.cap h f.y))

/-- CRET (05 R149). The PC takes the low 48 bits of g31 (DESIGN CHOICE, log entry 125). -/
def execCret (h : Hart) (f : FmtC) (s : State) : Out :=
  s.execute h { word := encC 0x29 1 f, ok := decide (f.x = 0 ∧ f.y = 0 ∧ f.z = 0 ∧ f.u = 0), svc := false, wick := false,
                slot := false } fun s =>
    let r := s.cap h 15
    if r.tag && decide (r.otype = 0xFFFF) then
      settled h s fun s =>
        .switch (s.setCore h { s.core h with pcc := { r with otype := 0 } }) ((s.gpr h 31).setWidth 48) none true
    else .raises (excCap 6) s

end Sys2Proof.Machine
end

