-- ==== Sys2Proof/Machine/WenakInt.lean ====
section
/-!
DEFINITION. Machine/WenakInt.lean: the integer instructions (04 R97, R98, R101-R106), one meaning for each.
-/

namespace Sys2Proof.Machine

/-! ### Shared operations -/

/-- gd takes a value. -/
def State.gives (s : State) (h : Hart) (rd : BitVec 5) (v : Word) : Res := .seq (s.setGpr h rd v)

/-- A register operation: gd = f(g[ra], g[rb]) (04 R101). -/
def opA (h : Hart) (f : FmtA) (g : Word → Word → Word) (s : State) : Res :=
  s.gives h f.rd (g (s.gpr h f.ra) (s.gpr h f.rb))

/-- A register operation whose decoding asks nothing more: the OPA form. -/
def formA (fn : BitVec 11) (f : FmtA) : Form := { word := encA 0x01 fn f }

/-- The form of a unary operation: rb is unused (04 R101). -/
def formUnary (fn : BitVec 11) (f : FmtA) : Form := { word := encA 0x01 fn f, ok := decide (f.rb = 0) }

/-- An immediate operation (04 R104). -/
def opI (h : Hart) (f : FmtI) (g : Word → BitVec 16 → Word) (s : State) : Res :=
  s.gives h f.rd (g (s.gpr h f.ra) f.imm)

/-- 1 or 0. -/
def ofBool (b : Bool) : Word := if b then 1 else 0

/-- Suffix W: the 32-bit result, sign-extended (04 R101). -/
def sx32 (v : Word32) : Word := v.signExtend 64
/-- The low 32 bits. -/
def low32 (v : Word) : Word32 := v.setWidth 32

/-- The number of leading zeros of the low `n` bits. -/
def leadZeros (v : Word) : Nat → Nat
  | 0 => 0
  | n + 1 => if v.getLsbD n then 0 else leadZeros v n + 1

/-- The number of set bits among the low `n`. -/
def setBits (v : Word) : Nat → Nat
  | 0 => 0
  | n + 1 => setBits v n + (if v.getLsbD n then 1 else 0)

/-- The low `n` bytes in reverse order. -/
def swapBytes (n : Nat) (v : Word) : Word := BitVec.ofNat 64 (leNat (leBytes n v.toNat).reverse)

/-! ### ILL and the reserved encodings (04 R97, R98) -/

/-- ILL (04 R97): ILLEGAL on every core. -/
def execIll (h : Hart) (ones : Bool) (rest : BitVec 26) (s : State) : Out :=
  s.execute h { word := (if ones then 0x3F#6 else 0x00#6) ++ rest, ok := false } .stays

/-- RESERVED_INSTRUCTION (04 R98): RESERVED, delivered with the word. A reserved FN of a group that the core's profile
leaves out (04 R138-R140) is reserved first of all (DESIGN CHOICE, log entry 82). -/
def execReservedInstruction (h : Hart) (w : Word32) (s : State) : Out :=
  s.execute h { word := w } (.raises excReserved)

/-! ### OPA (04 Table 4.4) -/

/-- ADD. -/
def execAdd (h : Hart) (f : FmtA) (s : State) : Out := s.execute h (formA 0x000 f) (opA h f fun a b => a + b)
/-- SUB. -/
def execSub (h : Hart) (f : FmtA) (s : State) : Out := s.execute h (formA 0x001 f) (opA h f fun a b => a - b)
/-- AND. -/
def execAnd (h : Hart) (f : FmtA) (s : State) : Out := s.execute h (formA 0x002 f) (opA h f fun a b => a &&& b)
/-- OR. -/
def execOr (h : Hart) (f : FmtA) (s : State) : Out := s.execute h (formA 0x003 f) (opA h f fun a b => a ||| b)
/-- XOR. -/
def execXor (h : Hart) (f : FmtA) (s : State) : Out := s.execute h (formA 0x004 f) (opA h f fun a b => a ^^^ b)
/-- NOR. -/
def execNor (h : Hart) (f : FmtA) (s : State) : Out := s.execute h (formA 0x005 f) (opA h f fun a b => ~~~(a ||| b))
/-- SLT. -/
def execSlt (h : Hart) (f : FmtA) (s : State) : Out := s.execute h (formA 0x006 f) (opA h f fun a b => ofBool (a.slt b))
/-- SLTU. -/
def execSltu (h : Hart) (f : FmtA) (s : State) : Out := s.execute h (formA 0x007 f) (opA h f fun a b => ofBool (a.ult b))
/-- SLL: by the low six bits. -/
def execSll (h : Hart) (f : FmtA) (s : State) : Out :=
  s.execute h (formA 0x008 f) (opA h f fun a b => a <<< (b.toNat % 64))
/-- SRL. -/
def execSrl (h : Hart) (f : FmtA) (s : State) : Out :=
  s.execute h (formA 0x009 f) (opA h f fun a b => a >>> (b.toNat % 64))
/-- SRA. -/
def execSra (h : Hart) (f : FmtA) (s : State) : Out :=
  s.execute h (formA 0x00A f) (opA h f fun a b => a.sshiftRight (b.toNat % 64))

/-- A conditional move: gd takes g[ra] where the test register passes. -/
def moveIf (h : Hart) (f : FmtA) (p : Word → Bool) (s : State) : Res :=
  if p (s.gpr h f.rb) then s.gives h f.rd (s.gpr h f.ra) else .seq s
/-- MOVZ. -/
def execMovz (h : Hart) (f : FmtA) (s : State) : Out := s.execute h (formA 0x00B f) (moveIf h f fun b => decide (b = 0))
/-- MOVN. -/
def execMovn (h : Hart) (f : FmtA) (s : State) : Out := s.execute h (formA 0x00C f) (moveIf h f fun b => decide (b ≠ 0))
/-- MIN. -/
def execMin (h : Hart) (f : FmtA) (s : State) : Out :=
  s.execute h (formA 0x00D f) (opA h f fun a b => if a.slt b then a else b)
/-- MAX. -/
def execMax (h : Hart) (f : FmtA) (s : State) : Out :=
  s.execute h (formA 0x00E f) (opA h f fun a b => if a.slt b then b else a)
/-- MINU. -/
def execMinu (h : Hart) (f : FmtA) (s : State) : Out :=
  s.execute h (formA 0x00F f) (opA h f fun a b => if a.ult b then a else b)
/-- MAXU. -/
def execMaxu (h : Hart) (f : FmtA) (s : State) : Out :=
  s.execute h (formA 0x010 f) (opA h f fun a b => if a.ult b then b else a)
/-- CLZ. -/
def execClz (h : Hart) (f : FmtA) (s : State) : Out :=
  s.execute h (formUnary 0x011 f) (opA h f fun a _ => BitVec.ofNat 64 (leadZeros a 64))
/-- POPC. -/
def execPopc (h : Hart) (f : FmtA) (s : State) : Out :=
  s.execute h (formUnary 0x012 f) (opA h f fun a _ => BitVec.ofNat 64 (setBits a 64))
/-- BSWAP. -/
def execBswap (h : Hart) (f : FmtA) (s : State) : Out := s.execute h (formUnary 0x013 f) (opA h f fun a _ => swapBytes 8 a)
/-- BSWAPW. -/
def execBswapw (h : Hart) (f : FmtA) (s : State) : Out := s.execute h (formUnary 0x014 f) (opA h f fun a _ => swapBytes 4 a)
/-- ADDW. -/
def execAddw (h : Hart) (f : FmtA) (s : State) : Out :=
  s.execute h (formA 0x018 f) (opA h f fun a b => sx32 (low32 a + low32 b))
/-- SUBW. -/
def execSubw (h : Hart) (f : FmtA) (s : State) : Out :=
  s.execute h (formA 0x019 f) (opA h f fun a b => sx32 (low32 a - low32 b))
/-- SLLW: by the low five bits. -/
def execSllw (h : Hart) (f : FmtA) (s : State) : Out :=
  s.execute h (formA 0x01A f) (opA h f fun a b => sx32 (low32 a <<< (b.toNat % 32)))
/-- SRLW. -/
def execSrlw (h : Hart) (f : FmtA) (s : State) : Out :=
  s.execute h (formA 0x01B f) (opA h f fun a b => sx32 (low32 a >>> (b.toNat % 32)))
/-- SRAW. -/
def execSraw (h : Hart) (f : FmtA) (s : State) : Out :=
  s.execute h (formA 0x01C f) (opA h f fun a b => sx32 ((low32 a).sshiftRight (b.toNat % 32)))
/-- MUL. -/
def execMul (h : Hart) (f : FmtA) (s : State) : Out := s.execute h (formA 0x020 f) (opA h f fun a b => a * b)
/-- MULH. -/
def execMulh (h : Hart) (f : FmtA) (s : State) : Out :=
  s.execute h (formA 0x021 f) (opA h f fun a b => BitVec.ofInt 64 (a.toInt * b.toInt / 2 ^ 64))
/-- MULHU. -/
def execMulhu (h : Hart) (f : FmtA) (s : State) : Out :=
  s.execute h (formA 0x022 f) (opA h f fun a b => BitVec.ofNat 64 (a.toNat * b.toNat / 2 ^ 64))

/-- The form of the divisions, which the service profile and Wick's core exclude (04 R138, R140). -/
def formDiv (fn : BitVec 11) (f : FmtA) : Form := { word := encA 0x01 fn f, svc := false, wick := false }

/-- A division (04 R102): DIVZ where the divisor is zero and DZ_EN is set. -/
def divide (h : Hart) (f : FmtA) (g : Word → Word → Word) (s : State) : Res :=
  if s.gpr h f.rb = 0 ∧ (s.core h).divzOn then .raises { cause := 6 } s
  else s.gives h f.rd (g (s.gpr h f.ra) (s.gpr h f.rb))

/-- DIV: rounded towards zero; all ones where the divisor is zero (04 R102). -/
def execDiv (h : Hart) (f : FmtA) (s : State) : Out :=
  s.execute h (formDiv 0x024 f) (divide h f fun a b => if b = 0 then BitVec.allOnes 64 else BitVec.ofInt 64 (a.toInt.tdiv b.toInt))
/-- DIVU. -/
def execDivu (h : Hart) (f : FmtA) (s : State) : Out :=
  s.execute h (formDiv 0x025 f) (divide h f fun a b => if b = 0 then BitVec.allOnes 64 else BitVec.ofNat 64 (a.toNat / b.toNat))
/-- REM: the sign of g[ra]; g[ra] where the divisor is zero. -/
def execRem (h : Hart) (f : FmtA) (s : State) : Out :=
  s.execute h (formDiv 0x026 f) (divide h f fun a b => if b = 0 then a else BitVec.ofInt 64 (a.toInt.tmod b.toInt))
/-- REMU. -/
def execRemu (h : Hart) (f : FmtA) (s : State) : Out :=
  s.execute h (formDiv 0x027 f) (divide h f fun a b => if b = 0 then a else BitVec.ofNat 64 (a.toNat % b.toNat))

/-- An operation with overflow detection (04 R103): gd is unchanged where OVF is raised. -/
def checked (h : Hart) (f : FmtA) (g : Int → Int → Int) (s : State) : Res :=
  let v := g (s.gpr h f.ra).toInt (s.gpr h f.rb).toInt
  if !fits64 v && (s.core h).ovfOn h then .raises { cause := 7 } s else s.gives h f.rd (BitVec.ofInt 64 v)

/-- ADDV. -/
def execAddv (h : Hart) (f : FmtA) (s : State) : Out := s.execute h (formA 0x028 f) (checked h f fun a b => a + b)
/-- SUBV. -/
def execSubv (h : Hart) (f : FmtA) (s : State) : Out := s.execute h (formA 0x029 f) (checked h f fun a b => a - b)
/-- MULV. -/
def execMulv (h : Hart) (f : FmtA) (s : State) : Out := s.execute h (formA 0x02A f) (checked h f fun a b => a * b)

/-! ### Immediates (04 R104) -/

/-- The form of an immediate instruction. -/
def formI (op : BitVec 6) (f : FmtI) : Form := { word := encI op f }

/-- ADDI. -/
def execAddi (h : Hart) (f : FmtI) (s : State) : Out := s.execute h (formI 0x02 f) (opI h f fun a i => a + i.signExtend 64)
/-- ADDIW. -/
def execAddiw (h : Hart) (f : FmtI) (s : State) : Out :=
  s.execute h (formI 0x03 f) (opI h f fun a i => sx32 (low32 a + i.signExtend 32))
/-- ANDI. -/
def execAndi (h : Hart) (f : FmtI) (s : State) : Out := s.execute h (formI 0x04 f) (opI h f fun a i => a &&& i.setWidth 64)
/-- ORI. -/
def execOri (h : Hart) (f : FmtI) (s : State) : Out := s.execute h (formI 0x05 f) (opI h f fun a i => a ||| i.setWidth 64)
/-- XORI. -/
def execXori (h : Hart) (f : FmtI) (s : State) : Out := s.execute h (formI 0x06 f) (opI h f fun a i => a ^^^ i.setWidth 64)
/-- SLTI. -/
def execSlti (h : Hart) (f : FmtI) (s : State) : Out :=
  s.execute h (formI 0x07 f) (opI h f fun a i => ofBool (a.slt (i.signExtend 64)))
/-- SLTIU. -/
def execSltiu (h : Hart) (f : FmtI) (s : State) : Out :=
  s.execute h (formI 0x08 f) (opI h f fun a i => ofBool (a.ult (i.signExtend 64)))
/-- LUI: requires ra = 0. -/
def execLui (h : Hart) (f : FmtI) (s : State) : Out :=
  s.execute h { word := encI 0x09 f, ok := decide (f.ra = 0) } (opI h f fun _ i => i.signExtend 64 <<< 16)

/-! ### Shifts by an immediate (04 R105) -/

/-- The form of a shift: the middle bits are zero, and a W form shifts by less than 32. -/
def formShift (sel : BitVec 4) (wide : Bool) (f : FmtShift) : Form :=
  { word := encShift sel f, ok := decide (f.mid = 0) && (wide || decide (f.sh.toNat < 32)) }

/-- A shift by an immediate. -/
def opShift (h : Hart) (f : FmtShift) (g : Word → Nat → Word) (s : State) : Res :=
  s.gives h f.rd (g (s.gpr h f.ra) f.sh.toNat)

/-- SLLI. -/
def execSlli (h : Hart) (f : FmtShift) (s : State) : Out := s.execute h (formShift 0 true f) (opShift h f fun a n => a <<< n)
/-- SRLI. -/
def execSrli (h : Hart) (f : FmtShift) (s : State) : Out := s.execute h (formShift 1 true f) (opShift h f fun a n => a >>> n)
/-- SRAI. -/
def execSrai (h : Hart) (f : FmtShift) (s : State) : Out :=
  s.execute h (formShift 2 true f) (opShift h f fun a n => a.sshiftRight n)
/-- SLLIW. -/
def execSlliw (h : Hart) (f : FmtShift) (s : State) : Out :=
  s.execute h (formShift 4 false f) (opShift h f fun a n => sx32 (low32 a <<< n))
/-- SRLIW. -/
def execSrliw (h : Hart) (f : FmtShift) (s : State) : Out :=
  s.execute h (formShift 5 false f) (opShift h f fun a n => sx32 (low32 a >>> n))
/-- SRAIW. -/
def execSraiw (h : Hart) (f : FmtShift) (s : State) : Out :=
  s.execute h (formShift 6 false f) (opShift h f fun a n => sx32 ((low32 a).sshiftRight n))

/-! ### Bit fields (04 R106) -/

/-- The length of a field. -/
def FmtField.len (f : FmtField) : Nat := f.len1.toNat + 1

/-- The form of a field operation: bits 13:12 are zero, and the field lies in the register. -/
def formField (sel : BitVec 2) (f : FmtField) : Form :=
  { word := encField sel f, ok := decide (f.mid = 0) && decide (f.pos.toNat + f.len ≤ 64) }

/-- EXTU. -/
def execExtu (h : Hart) (f : FmtField) (s : State) : Out :=
  s.execute h (formField 0 f) fun s =>
    s.gives h f.rd (BitVec.ofNat 64 (bitsOf (s.gpr h f.ra) f.pos.toNat f.len))
/-- EXTS. -/
def execExts (h : Hart) (f : FmtField) (s : State) : Out :=
  s.execute h (formField 1 f) fun s =>
    s.gives h f.rd ((BitVec.ofNat f.len (bitsOf (s.gpr h f.ra) f.pos.toNat f.len)).signExtend 64)
/-- INS. -/
def execIns (h : Hart) (f : FmtField) (s : State) : Out :=
  s.execute h (formField 2 f) fun s =>
    s.gives h f.rd (withBits (s.gpr h f.rd) f.pos.toNat f.len (s.gpr h f.ra).toNat)

end Sys2Proof.Machine
end

