-- ==== Sys2Proof/Machine/WenakMem.lean ====
section
/-!
DEFINITION. Machine/WenakMem.lean: loads and stores through capabilities (04 R107-R110), atomic operations (04 R111) and
table lookup (04 R134-R137).
-/

namespace Sys2Proof.Machine

/-! ### Loads and stores -/

/-- The effective address of a load or store. -/
def State.memAddr (s : State) (h : Hart) (f : FmtM) : Nat := effAddr (s.cap h f.cb) (s.gpr h f.ra) f.imm

/-- A load of `n` bytes: `ext` extends the value (04 R108). -/
def loadOp (h : Hart) (f : FmtM) (n : Nat) (ext : Nat → Word) (s : State) : Res :=
  let cb := s.cap h f.cb
  let ea := s.memAddr h f
  match cb.checkAccess [pR] ea n with
  | some x => .raises x s
  | none => match s.dataRead h cb.perms ea n with
    | (.error e, s) => .raises (excBus e (BitVec.ofNat 64 ea)) s
    | (.ok v, s) => .seq (s.setGpr h f.rt (ext v))

/-- A store of `n` bytes. -/
def storeOp (h : Hart) (f : FmtM) (n : Nat) (s : State) : Res :=
  let cb := s.cap h f.cb
  let ea := s.memAddr h f
  match cb.checkAccess [pW] ea n with
  | some x => .raises x s
  | none => match s.dataWrite h cb.perms ea (leBytes n (s.gpr h f.rt).toNat) with
    | (.error e, s) => .raises (excBus e (BitVec.ofNat 64 ea)) s
    | (.ok _, s) => .seq s

/-- Zero extension. -/
def zext (v : Nat) : Word := BitVec.ofNat 64 v
/-- Sign extension from `n` bits. -/
def sext (n v : Nat) : Word := (BitVec.ofNat n v).signExtend 64

/-- The form of a load or store. -/
def formM (op : BitVec 6) (f : FmtM) : Form := { word := encM op f }

/-- LB. -/
def execLb (h : Hart) (f : FmtM) (s : State) : Out := s.execute h (formM 0x10 f) (loadOp h f 1 (sext 8))
/-- LBU. -/
def execLbu (h : Hart) (f : FmtM) (s : State) : Out := s.execute h (formM 0x11 f) (loadOp h f 1 zext)
/-- LH. -/
def execLh (h : Hart) (f : FmtM) (s : State) : Out := s.execute h (formM 0x12 f) (loadOp h f 2 (sext 16))
/-- LHU. -/
def execLhu (h : Hart) (f : FmtM) (s : State) : Out := s.execute h (formM 0x13 f) (loadOp h f 2 zext)
/-- LW. -/
def execLw (h : Hart) (f : FmtM) (s : State) : Out := s.execute h (formM 0x14 f) (loadOp h f 4 (sext 32))
/-- LWU. -/
def execLwu (h : Hart) (f : FmtM) (s : State) : Out := s.execute h (formM 0x15 f) (loadOp h f 4 zext)
/-- LD. -/
def execLd (h : Hart) (f : FmtM) (s : State) : Out := s.execute h (formM 0x16 f) (loadOp h f 8 zext)
/-- SB. -/
def execSb (h : Hart) (f : FmtM) (s : State) : Out := s.execute h (formM 0x18 f) (storeOp h f 1)
/-- SH. -/
def execSh (h : Hart) (f : FmtM) (s : State) : Out := s.execute h (formM 0x19 f) (storeOp h f 2)
/-- SW. -/
def execSw (h : Hart) (f : FmtM) (s : State) : Out := s.execute h (formM 0x1A f) (storeOp h f 4)
/-- SD. -/
def execSd (h : Hart) (f : FmtM) (s : State) : Out := s.execute h (formM 0x1B f) (storeOp h f 8)

/-! ### Capabilities in memory (04 R110) -/

/-- The form of LCAP and SCAP: rt is a capability register, 0 to 15. -/
def formCapM (op : BitVec 6) (f : FmtM) : Form := { word := encM op f, ok := decide (f.rt.toNat < 16) }

/-- LCAP: the bits, and the tag where the region holds tags. -/
def execLcap (h : Hart) (f : FmtM) (s : State) : Out :=
  s.execute h (formCapM 0x17 f) fun s =>
    let cb := s.cap h f.cb
    let ea := s.memAddr h f
    match cb.checkAccess [pR, pLC] ea 16 with
    | some x => .raises x s
    | none =>
      match s.capRead h cb.perms ea with
      | (.error e, s) => .raises (excBus e (BitVec.ofNat 64 ea)) s
      | (.ok c, s) => .seq (s.setCap h (f.rt.setWidth 4) c)

/-- SCAP: the bits and the tag; a tagged capability goes only where tags are held. -/
def execScap (h : Hart) (f : FmtM) (s : State) : Out :=
  s.execute h (formCapM 0x1C f) fun s =>
    let cb := s.cap h f.cb
    let ea := s.memAddr h f
    let c := s.cap h (f.rt.setWidth 4)
    match cb.checkAccess [pW, pSC] ea 16 with
    | some x => .raises x s
    | none =>
      if c.tag && !s.holdsTags h ea then .raises (excCap 8 (BitVec.ofNat 64 ea)) s
      else match s.dataWrite h cb.perms ea (capBytes c) c.tag with
        | (.error e, s) => .raises (excBus e (BitVec.ofNat 64 ea)) s
        | (.ok _, s) => .seq s

/-! ### Atomics (04 R111) -/

/-- The form of an atomic, which only a control core has (04 R138, R140). -/
def formAmo (fn : BitVec 7) (f : FmtT) : Form := { word := encT fn f, svc := false, wick := false }

/-- The read-modify-write of 8 bytes by a control core: `upd` gives the new value from the old; outside the shared SRAM
and the DDR core region it ends in a bus error. -/
def State.rmw (s : State) (h : Hart) (perms : BitVec 16) (ea : Nat) (upd : Word → Word) : Ans Word :=
  match s.enter (accOf h perms) ea .rmw with
  | (.error e, s) => (.error e, s)
  | (.ok _, s) =>
    if s.tagged ea && s.damagedAt .bus ea 8 then (.error .ecc, s.eccRead ea 8)
    else if s.tagged ea then
      let old := BitVec.ofNat 64 (leNat (s.loadBytes ea 8))
      (.ok old, s.storeBytes ea (leBytes 8 (upd old).toNat))
    else (.error .target, s)

/-- An atomic: earlier stores complete first (04 R112), and gd takes the old value. `upd` is told gd, g[rb] and the old
value. -/
def amoOp (h : Hart) (f : FmtT) (upd : Word → Word → Word → Word) (s : State) : Res :=
  let cb := s.cap h f.cb
  let ea := effAddr cb (s.gpr h f.ra) 0
  match cb.checkAccess [pR, pW] ea 8 with
  | some x => .raises x s
  | none => match (s.settle h).rmw h cb.perms ea (upd (s.gpr h f.rd) (s.gpr h f.rb)) with
    | (.error e, s) => .raises (excBus e (BitVec.ofNat 64 ea)) s
    | (.ok old, s) => .seq (s.setGpr h f.rd old)

/-- AMOSWAP. -/
def execAmoswap (h : Hart) (f : FmtT) (s : State) : Out := s.execute h (formAmo 0 f) (amoOp h f fun _ b _ => b)
/-- AMOADD. -/
def execAmoadd (h : Hart) (f : FmtT) (s : State) : Out := s.execute h (formAmo 1 f) (amoOp h f fun _ b old => old + b)
/-- AMOAND. -/
def execAmoand (h : Hart) (f : FmtT) (s : State) : Out := s.execute h (formAmo 2 f) (amoOp h f fun _ b old => old &&& b)
/-- AMOOR. -/
def execAmoor (h : Hart) (f : FmtT) (s : State) : Out := s.execute h (formAmo 3 f) (amoOp h f fun _ b old => old ||| b)
/-- AMOCAS: where the old value equals gd. -/
def execAmocas (h : Hart) (f : FmtT) (s : State) : Out :=
  s.execute h (formAmo 4 f) (amoOp h f fun d b old => if old = d then b else old)

/-! ### Table lookup (04 R134-R137) -/

/-- A signed Q16.16 word. -/
def q16 (v : Nat) : Int := (BitVec.ofNat 32 v).toInt

/-- A 32-bit load of a table through `ct` (04 R134), or the exception it raises. -/
def State.tableWord (s : State) (h : Hart) (ct : Cap) (ea : Nat) : Except Exc Nat × State :=
  match ct.checkAccess [pR] ea 4 with
  | some x => (.error x, s)
  | none => match s.dataRead h ct.perms ea 4 with
    | (.error e, s) => (.error (excBus e (BitVec.ofNat 64 ea)), s)
    | (.ok v, s) => (.ok v, s)

/-- The loads of `n` words from `ea` on. -/
def State.tableWords (s : State) (h : Hart) (ct : Cap) (ea : Nat) : Nat → Except Exc (List Nat) × State
  | 0 => (.ok [], s)
  | n + 1 => match s.tableWord h ct ea with
    | (.error x, s) => (.error x, s)
    | (.ok v, s) => match s.tableWords h ct (ea + 4) n with
      | (.error x, s) => (.error x, s)
      | (.ok t, s) => (.ok (v :: t), s)

/-- A table header is well formed (04 R135): its words. -/
def tableOk (w0 w1 w2 w3 : Nat) : Bool :=
  let n := w0 % 512
  decide (w0 / 2 ^ 24 = 1) && decide (w0 / 512 % 2 ^ 15 = 0) && decide (w3 = 0) && decide (2 ≤ n) && decide (n ≤ 256) &&
  decide (0 < q16 w2) && decide (q16 w1 + (n - 1) * q16 w2 ≤ 0x7FFFFFFF)

/-- Where the lookup falls (04 R136): the points it uses, the flags c and h, the remainder f. -/
structure TliPlace where
  first : Nat
  two : Bool
  c : Bool
  h : Bool
  rem : Int
  deriving DecidableEq, Repr

/-- The place of x in a table of `n` points from X0 with STEP (04 R136). -/
def tliPlace (x x0 step : Int) (n : Nat) : TliPlace :=
  let xl := x0 + (n - 1) * step
  if x ≤ x0 then ⟨0, false, decide (x < x0), false, 0⟩
  else if xl ≤ x then ⟨n - 1, false, decide (xl < x), decide (xl < x), 0⟩
  else
    let i := (x - x0) / step
    ⟨i.toNat, true, false, false, (x - x0) - i * step⟩

/-- The result word: y in bits 31:0, the flags above (04 R136); interpolation rounds towards plus infinity. -/
def tliResult (p : TliPlace) (step : Int) (ys : List Nat) : Word :=
  let y0 := q16 (ys.getD 0 0)
  let y := if p.two then y0 - -((q16 (ys.getD 1 0) - y0) * p.rem) / step else y0
  BitVec.ofNat 64 ((BitVec.ofInt 32 y).toNat + bitAt p.c 32 + bitAt p.h 33)

/-- TLI. -/
def execTli (h : Hart) (f : FmtM) (s : State) : Out :=
  s.execute h { word := encM 0x2D f, svc := false } fun s =>
    let ct := s.cap h f.cb
    let ta := ct.base.toNat + 4 * f.imm.toNat
    match s.tableWords h ct ta 4 with
    | (.error x, s) => .raises x s
    | (.ok ws, s) =>
      let w (i : Nat) : Nat := ws.getD i 0
      if !tableOk (w 0) (w 1) (w 2) (w 3) then .raises { cause := 0x0A, addr := BitVec.ofNat 64 ta } s
      else
        let p := tliPlace ((s.gpr h f.ra).setWidth 32).toInt (q16 (w 1)) (q16 (w 2)) (w 0 % 512)
        match s.tableWords h ct (ta + 0x10 + 4 * p.first) (if p.two then 2 else 1) with
        | (.error x, s) => .raises x s
        | (.ok ys, s) => .seq (s.setGpr h f.rt (tliResult p (q16 (w 2)) ys))

end Sys2Proof.Machine
end

