-- ==== Sys2Proof/Machine/WenakSys.lean ====
section
/-!
DEFINITION. Machine/WenakSys.lean: the system instructions (04 R122-R127; 05 R160, R167).
-/

namespace Sys2Proof.Machine

/-! ### System registers (04 Table 4.7; 05 R167) -/

/-- The numbers of the system registers of the control profile, without CTX. -/
def ctlSysRegs : List Nat := [0x000, 0x001, 0x010, 0x011, 0x012, 0x013, 0x014, 0x015, 0x020, 0x021, 0x030]
/-- Those of the service profile. -/
def svcSysRegs : List Nat := [0x000, 0x001, 0x002]
/-- Those that SWR writes. -/
def rwSysRegs : List Nat := [0x010, 0x011, 0x014, 0x015, 0x020]

/-- CORE_ID. -/
def coreId : Hart → Word
  | .ctl n => BitVec.ofNat 64 n.val
  | .svc k => BitVec.ofNat 64 (0x100 + k.val)
  | .wick => Config.wickIndex.setWidth 64

/-- TIME: the timebase, and on Wick's core the time-stamp counter in ns (15 R364). -/
def State.timeOf (s : State) (h : Hart) : Word :=
  match h with
  | .wick => BitVec.ofNat 64 ((s.rd TMP_TSC).toNat * 1000000000 / 32768)
  | _ => BitVec.ofNat 64 s.tb

/-- CTX: the number of the context that the hart runs. -/
def State.ctxNumber (s : State) (h : Hart) : Nat :=
  match h with
  | .svc k => (s.ctxOn k).getD 0
  | _ => 0

/-- The value of system register `n`. -/
def State.sysReg (s : State) (h : Hart) (n : Nat) : Word :=
  let c := s.core h
  match n with
  | 0x000 => coreId h
  | 0x001 => s.timeOf h
  | 0x002 => BitVec.ofNat 64 (s.ctxNumber h)
  | 0x010 => c.estat
  | 0x011 => c.epc
  | 0x012 => c.ebadaddr
  | 0x013 => c.einstr
  | 0x014 => c.ectrl
  | 0x015 => c.evec
  | 0x020 => c.ien
  | 0x021 => BitVec.ofNat 64 (s.ipend h)
  | 0x030 => BitVec.ofNat 64 c.holdcnt
  | _ => 0

/-- The bits of ESTAT that are no reserved ones. -/
def estatMask : Word := ~~~0x2020#64
/-- Bits 47:5. -/
def evecMask : Word := 0xFFFFFFFFFFE0

/-- A write of system register `n`: reserved fields stay zero. -/
def Core.setSysReg (c : Core) (n : Nat) (v : Word) : Core :=
  match n with
  | 0x010 => { c with estat := v &&& estatMask }
  | 0x011 => { c with epc := v &&& epcMask }
  | 0x014 => { c with ectrl := v &&& 7 }
  | 0x015 => { c with evec := v &&& evecMask }
  | 0x020 => { c with ien := v &&& 0xFFFF }
  | _ => c

/-- The permission in PCC that a system register asks (04 Table 4.7). -/
def sysNeeds (n : Nat) : List Nat := if n = 1 then [pTIME] else if n ≤ 2 ∨ n = 0x30 then [] else [pSYS]

/-- The form of a SYS instruction. -/
def formS (fn : BitVec 4) (f : FmtS) (ok : Bool) : Form := { word := encS fn f, ok := ok }
/-- rd, ra and the immediate are unused. -/
def FmtS.bare (f : FmtS) : Bool := decide (f.rd = 0 ∧ f.ra = 0 ∧ f.imm = 0)

/-- NOP. -/
def execNop (h : Hart) (f : FmtS) (s : State) : Out := s.execute h (formS 0 f f.bare) .seq

/-- SRD (04 R123). -/
def execSrd (h : Hart) (f : FmtS) (s : State) : Out :=
  s.execute h (formS 1 f (decide (f.ra = 0) && (if isService h then svcSysRegs else ctlSysRegs).contains f.imm.toNat)) fun s =>
    if (sysNeeds f.imm.toNat).all (permBit (s.core h).pcc.perms) then .seq (s.setGpr h f.rd (s.sysReg h f.imm.toNat))
    else .raises (excCap 3) s

/-- SWR (04 R123): it retires after every earlier store (05 R155). -/
def execSwr (h : Hart) (f : FmtS) (s : State) : Out :=
  s.execute h { formS 2 f (decide (f.rd = 0) && rwSysRegs.contains f.imm.toNat) with svc := false } fun s =>
    if permBit (s.core h).pcc.perms pSYS then
      settled h s fun s => .seq (s.setCore h ((s.core h).setSysReg f.imm.toNat (s.gpr h f.ra)))
    else .raises (excCap 3) s

/-- TRAP. -/
def execTrap (h : Hart) (f : FmtS) (s : State) : Out :=
  s.execute h { formS 3 f (decide (f.rd = 0 ∧ f.ra = 0)) with svc := false, slot := false } (.raises { cause := 8 })

/-! ### ERET (05 R160) -/

/-- An 8-byte word of a frame. -/
def State.frameWord (s : State) (h : Hart) (perms : BitVec 16) (a : Nat) : Ans Word :=
  match s.spaceRead h perms a 8 with
  | (.error e, s) => (.error e, s)
  | (.ok b, s) => (.ok (BitVec.ofNat 64 (leNat b.1)), s)

/-- The `n` words of a frame from `a` on, or the error of the first read that fails, with its address. -/
def State.frameWords (s : State) (h : Hart) (perms : BitVec 16) (a : Nat) : Nat → Except (BusErr × Nat) (List Word) × State
  | 0 => (.ok [], s)
  | n + 1 => match s.frameWord h perms a with
    | (.error e, s) => (.error (e, a), s)
    | (.ok v, s) => match s.frameWords h perms (a + 8) n with
      | (.error e, s) => (.error e, s)
      | (.ok t, s) => (.ok (v :: t), s)

/-- The frame is read, and the state it holds is restored. -/
def restoreFrame (h : Hart) (F : Nat) (s : State) : Res :=
  let c := s.core h
  let p := (c.cap 14).perms
  let bus (e : BusErr) (a : Nat) (s : State) : Res := .raises (excBus e (BitVec.ofNat 64 a)) s
  match s.capRead h p F with
  | (.error e, s) => bus e F s
  | (.ok pcc, s) => match s.capRead h p (F + 0x10) with
    | (.error e, s) => bus e (F + 0x10) s
    | (.ok st, s) => match s.frameWords h p (F + 0x20) 4 with
      | (.error (e, a), s) => bus e a s
      | (.ok ws, s) =>
        let w (i : Nat) : Word := ws.getD i 0
        let pc := c.epc.setWidth 48
        let tgt := (BitVec.ofNat 48 (bitsOf c.estat 18 46)) <<< 2
        let c' := { c.setCap 14 st with
          pcc := pcc
          epc := w 0 &&& epcMask
          estat := w 1 &&& estatMask
          ebadaddr := w 2
          einstr := w 3 &&& 0xFFFFFFFF }
        if c.estat.getLsbD 16 then .switch (s.setCore h c') (pc + 4) (some (pc, tgt)) false
        else .switch (s.setCore h c') pc none false

/-- The frame that c14 names is valid: `b` is the stack capability that entry used (05 R160). -/
def frameOk (st b : Cap) : Bool :=
  st.usable && b.tag && decide (st.base = b.base) && decide (st.limit + 64 = b.limit)

/-- The address of the stack capability that the frame belongs to: the reserve stack's, or the one in the frame. -/
def Core.stackAt (c : Core) : Nat := if c.estat.getLsbD 15 then c.evec.toNat + 16 else (c.cap 14).limit + 0x10

/-- That capability. -/
def State.frameStack (s : State) (h : Hart) : Ans Cap :=
  let c := s.core h
  if c.estat.getLsbD 15 then s.readVec h c.stackAt else s.capRead h (c.cap 14).perms c.stackAt

/-- ERET's own effect, earlier stores completed. -/
def eretOp (h : Hart) (s : State) : Res :=
  let st := s.cap h 14
  if !st.usable then .raises (excCap 7) s
  else match s.frameStack h with
    | (.error e, t) => .raises (excBus e (BitVec.ofNat 64 (s.core h).stackAt)) t
    | (.ok b, s) => if frameOk st b then restoreFrame h st.limit s else .raises (excCap 7) s

/-- ERET. -/
def execEret (h : Hart) (f : FmtS) (s : State) : Out :=
  s.execute h { formS 4 f f.bare with svc := false, slot := false } fun s =>
    if permBit (s.core h).pcc.perms pSYS then settled h s (eretOp h) else .raises (excCap 3) s

/-! ### Hold windows, WAIT, FENCE -/

/-- HOLD (04 R125): 1 to 512, and ILLEGAL while a window is open; it does not count itself. -/
def execHold (h : Hart) (f : FmtS) (s : State) : Out :=
  s.execute h { formS 5 f (decide (f.rd = 0 ∧ f.ra = 0) && decide (1 ≤ f.imm.toNat ∧ f.imm.toNat ≤ 512)) with
                svc := false, slot := false } fun s =>
    let c := s.core h
    if c.holdcnt ≠ 0 then .raises excIllegal s else .seq (s.setCore h { c with holdcnt := f.imm.toNat + 1 })

/-- WAIT (04 R126): it retires at once where an enabled line is pending; inside a hold window it is ILLEGAL. -/
def execWait (h : Hart) (f : FmtS) (s : State) : Out :=
  s.execute h { formS 6 f f.bare with svc := false, slot := false } fun s =>
    let c := s.core h
    if c.holdcnt ≠ 0 then .raises excIllegal s
    else if (s.enabledLine h).isSome then .seq s
    else .stays ((s.setCore h { c with waiting := true }).accessesOver h)

/-- FENCE (04 R112): every earlier store completes. -/
def execFence (h : Hart) (f : FmtS) (s : State) : Out :=
  s.execute h { formS 7 f f.bare with svc := false } fun s => settled h s .seq

/-! ### END (04 R127, 06 R174) -/

/-- END on service core `k` for context `c`. -/
def State.endOp (s : State) (c : Nat) (k : Fin 64) : State := (s.countSlot (.svc k) 0).endRun c k.val

/-- END: on a service core it ends the context; any other core raises ILLEGAL. NOP's fixed program is its END alone. -/
def execEndCtx (h : Hart) (f : FmtS) (dt : Nat) (s : State) : Out :=
  let s' := s.elapse dt
  match h with
  | .svc k => match s'.ctxOn k with
    | some c =>
      if (s'.ctx c).nop then event s'.powered s' fun s => s.endOp c k
      else s'.execute h { formS 8 f f.bare with ctl := false, wick := false, slot := false } fun s => .stays (s.endOp c k)
    | none => .next s'
  | h => s'.execute h { formS 8 f f.bare with ctl := false, wick := false, slot := false } .stays

end Sys2Proof.Machine
end

