-- ==== Sys2Proof/Machine/Dispatch.lean ====
section
/-!
DEFINITION. Machine/Dispatch.lean: the effect of each command, one arm for each row of spec/opcode_table.json.
-/

namespace Sys2Proof.Machine

/-- The effect of a command on everything but the queue. -/
def exec (i : Instr) (s : State) : Host.Outcome State Fault Refusal :=
  match i with
  | .registerWrite a addr size v => Sys2Proof.Machine.execRegisterWrite a addr size v s
  | .lowWordRead a addr => Sys2Proof.Machine.execLowWordRead a addr s
  | .timebasePhaseStep c => Sys2Proof.Machine.execTimebasePhaseStep c s
  | .frameReceive dt port f => Sys2Proof.Machine.execFrameReceive dt port f s
  | .refusalResponseDrop dt port => Sys2Proof.Machine.execRefusalResponseDrop dt port s
  | .admDecision dt c => Sys2Proof.Machine.execAdmDecision dt c s
  | .fetchComplete dt c ok => Sys2Proof.Machine.execFetchComplete dt c ok s
  | .bestEffortFetchDone dt ok => Sys2Proof.Machine.execBestEffortFetchDone dt ok s
  | .contextDispatch dt k => Sys2Proof.Machine.execContextDispatch dt k s
  | .responseGrant dt port => Sys2Proof.Machine.execResponseGrant dt port s
  | .ireqResponseWritten dt c => Sys2Proof.Machine.execIreqResponseWritten dt c s
  | .entryOverrun dt c => Sys2Proof.Machine.execEntryOverrun dt c s
  | .tempoStale dt p => Sys2Proof.Machine.execTempoStale dt p s
  | .taperReading dt sc cph mau => Sys2Proof.Machine.execTaperReading dt sc cph mau s
  | .activityWindowEnd dt sc cph mau => Sys2Proof.Machine.execActivityWindowEnd dt sc cph mau s
  | .fastclsWrite a v => Sys2Proof.Machine.execFastclsWrite a v s
  | .epochSwitch a adm v => Sys2Proof.Machine.execEpochSwitch a adm v s
  | .epochSwitchDone dt => Sys2Proof.Machine.execEpochSwitchDone dt s
  | .saLoad a v => Sys2Proof.Machine.execSaLoad a v s
  | .saLoadDone dt => Sys2Proof.Machine.execSaLoadDone dt s
  | .rqFloorWrite a v => Sys2Proof.Machine.execRqFloorWrite a v s
  | .portcfgWrite a v => Sys2Proof.Machine.execPortcfgWrite a v s
  | .mgtGo a v => Sys2Proof.Machine.execMgtGo a v s
  | .mgtTxDone dt => Sys2Proof.Machine.execMgtTxDone dt s
  | .linkStateChange dt port up => Sys2Proof.Machine.execLinkStateChange dt port up s
  | .refclkLoss dt mem => Sys2Proof.Machine.execRefclkLoss dt mem s
  | .serviceCoreHang dt k => Sys2Proof.Machine.execServiceCoreHang dt k s
  | .ill h ones rest => Sys2Proof.Machine.execIll h ones rest s
  | .reservedInstruction h w => Sys2Proof.Machine.execReservedInstruction h w s
  | .add h f => Sys2Proof.Machine.execAdd h f s
  | .sub h f => Sys2Proof.Machine.execSub h f s
  | .and h f => Sys2Proof.Machine.execAnd h f s
  | .or h f => Sys2Proof.Machine.execOr h f s
  | .xor h f => Sys2Proof.Machine.execXor h f s
  | .nor h f => Sys2Proof.Machine.execNor h f s
  | .slt h f => Sys2Proof.Machine.execSlt h f s
  | .sltu h f => Sys2Proof.Machine.execSltu h f s
  | .sll h f => Sys2Proof.Machine.execSll h f s
  | .srl h f => Sys2Proof.Machine.execSrl h f s
  | .sra h f => Sys2Proof.Machine.execSra h f s
  | .movz h f => Sys2Proof.Machine.execMovz h f s
  | .movn h f => Sys2Proof.Machine.execMovn h f s
  | .min h f => Sys2Proof.Machine.execMin h f s
  | .max h f => Sys2Proof.Machine.execMax h f s
  | .minu h f => Sys2Proof.Machine.execMinu h f s
  | .maxu h f => Sys2Proof.Machine.execMaxu h f s
  | .clz h f => Sys2Proof.Machine.execClz h f s
  | .popc h f => Sys2Proof.Machine.execPopc h f s
  | .bswap h f => Sys2Proof.Machine.execBswap h f s
  | .bswapw h f => Sys2Proof.Machine.execBswapw h f s
  | .addw h f => Sys2Proof.Machine.execAddw h f s
  | .subw h f => Sys2Proof.Machine.execSubw h f s
  | .sllw h f => Sys2Proof.Machine.execSllw h f s
  | .srlw h f => Sys2Proof.Machine.execSrlw h f s
  | .sraw h f => Sys2Proof.Machine.execSraw h f s
  | .mul h f => Sys2Proof.Machine.execMul h f s
  | .mulh h f => Sys2Proof.Machine.execMulh h f s
  | .mulhu h f => Sys2Proof.Machine.execMulhu h f s
  | .div h f => Sys2Proof.Machine.execDiv h f s
  | .divu h f => Sys2Proof.Machine.execDivu h f s
  | .rem h f => Sys2Proof.Machine.execRem h f s
  | .remu h f => Sys2Proof.Machine.execRemu h f s
  | .addv h f => Sys2Proof.Machine.execAddv h f s
  | .subv h f => Sys2Proof.Machine.execSubv h f s
  | .mulv h f => Sys2Proof.Machine.execMulv h f s
  | .addi h f => Sys2Proof.Machine.execAddi h f s
  | .addiw h f => Sys2Proof.Machine.execAddiw h f s
  | .andi h f => Sys2Proof.Machine.execAndi h f s
  | .ori h f => Sys2Proof.Machine.execOri h f s
  | .xori h f => Sys2Proof.Machine.execXori h f s
  | .slti h f => Sys2Proof.Machine.execSlti h f s
  | .sltiu h f => Sys2Proof.Machine.execSltiu h f s
  | .lui h f => Sys2Proof.Machine.execLui h f s
  | .slli h f => Sys2Proof.Machine.execSlli h f s
  | .srli h f => Sys2Proof.Machine.execSrli h f s
  | .srai h f => Sys2Proof.Machine.execSrai h f s
  | .slliw h f => Sys2Proof.Machine.execSlliw h f s
  | .srliw h f => Sys2Proof.Machine.execSrliw h f s
  | .sraiw h f => Sys2Proof.Machine.execSraiw h f s
  | .extu h f => Sys2Proof.Machine.execExtu h f s
  | .exts h f => Sys2Proof.Machine.execExts h f s
  | .ins h f => Sys2Proof.Machine.execIns h f s
  | .lb h f => Sys2Proof.Machine.execLb h f s
  | .lbu h f => Sys2Proof.Machine.execLbu h f s
  | .lh h f => Sys2Proof.Machine.execLh h f s
  | .lhu h f => Sys2Proof.Machine.execLhu h f s
  | .lw h f => Sys2Proof.Machine.execLw h f s
  | .lwu h f => Sys2Proof.Machine.execLwu h f s
  | .ld h f => Sys2Proof.Machine.execLd h f s
  | .sb h f => Sys2Proof.Machine.execSb h f s
  | .sh h f => Sys2Proof.Machine.execSh h f s
  | .sw h f => Sys2Proof.Machine.execSw h f s
  | .sd h f => Sys2Proof.Machine.execSd h f s
  | .lcap h f => Sys2Proof.Machine.execLcap h f s
  | .scap h f => Sys2Proof.Machine.execScap h f s
  | .amoswap h f => Sys2Proof.Machine.execAmoswap h f s
  | .amoadd h f => Sys2Proof.Machine.execAmoadd h f s
  | .amoand h f => Sys2Proof.Machine.execAmoand h f s
  | .amoor h f => Sys2Proof.Machine.execAmoor h f s
  | .amocas h f => Sys2Proof.Machine.execAmocas h f s
  | .beq h f => Sys2Proof.Machine.execBeq h f s
  | .bne h f => Sys2Proof.Machine.execBne h f s
  | .blt h f => Sys2Proof.Machine.execBlt h f s
  | .bge h f => Sys2Proof.Machine.execBge h f s
  | .bltu h f => Sys2Proof.Machine.execBltu h f s
  | .bgeu h f => Sys2Proof.Machine.execBgeu h f s
  | .j h f => Sys2Proof.Machine.execJ h f s
  | .jal h f => Sys2Proof.Machine.execJal h f s
  | .jr h f => Sys2Proof.Machine.execJr h f s
  | .jalr h f => Sys2Proof.Machine.execJalr h f s
  | .cjmp h f => Sys2Proof.Machine.execCjmp h f s
  | .cret h f => Sys2Proof.Machine.execCret h f s
  | .ccopy h f => Sys2Proof.Machine.execCcopy h f s
  | .cnarrow h f => Sys2Proof.Machine.execCnarrow h f s
  | .ctrim h f => Sys2Proof.Machine.execCtrim h f s
  | .clock h f => Sys2Proof.Machine.execClock h f s
  | .cunlock h f => Sys2Proof.Machine.execCunlock h f s
  | .cvoid h f => Sys2Proof.Machine.execCvoid h f s
  | .cpcc h f => Sys2Proof.Machine.execCpcc h f s
  | .cinfoBase h f => Sys2Proof.Machine.execCinfoBase h f s
  | .cinfoEnd h f => Sys2Proof.Machine.execCinfoEnd h f s
  | .cinfoLength h f => Sys2Proof.Machine.execCinfoLength h f s
  | .cinfoPerms h f => Sys2Proof.Machine.execCinfoPerms h f s
  | .cinfoOtype h f => Sys2Proof.Machine.execCinfoOtype h f s
  | .cinfoTag h f => Sys2Proof.Machine.execCinfoTag h f s
  | .cwithin h f => Sys2Proof.Machine.execCwithin h f s
  | .csame h f => Sys2Proof.Machine.execCsame h f s
  | .nop h f => Sys2Proof.Machine.execNop h f s
  | .srd h f => Sys2Proof.Machine.execSrd h f s
  | .swr h f => Sys2Proof.Machine.execSwr h f s
  | .trap h f => Sys2Proof.Machine.execTrap h f s
  | .eret h f => Sys2Proof.Machine.execEret h f s
  | .hold h f => Sys2Proof.Machine.execHold h f s
  | .wait h f => Sys2Proof.Machine.execWait h f s
  | .fence h f => Sys2Proof.Machine.execFence h f s
  | .endCtx h f dt => Sys2Proof.Machine.execEndCtx h f dt s
  | .tli h f => Sys2Proof.Machine.execTli h f s
  | .eput h f => Sys2Proof.Machine.execEput h f s
  | .eiss h f => Sys2Proof.Machine.execEiss h f s
  | .ewait h f => Sys2Proof.Machine.execEwait h f s
  | .epoll h f => Sys2Proof.Machine.execEpoll h f s
  | .eabort h f => Sys2Proof.Machine.execEabort h f s
  | .interruptEntry h => Sys2Proof.Machine.execInterruptEntry h s
  | .waitWake h => Sys2Proof.Machine.execWaitWake h s
  | .storeBufferDrain n => Sys2Proof.Machine.execStoreBufferDrain n s
  | .deferredBusError n => Sys2Proof.Machine.execDeferredBusError n s
  | .programLoad a v => Sys2Proof.Machine.execProgramLoad a v s
  | .programLoadDone dt => Sys2Proof.Machine.execProgramLoadDone dt s
  | .pslotFree a v => Sys2Proof.Machine.execPslotFree a v s
  | .ireqSubmit a v => Sys2Proof.Machine.execIreqSubmit a v s
  | .actEpochSwitch a v => Sys2Proof.Machine.execActEpochSwitch a v s
  | .actSwitchInstant dt => Sys2Proof.Machine.execActSwitchInstant dt s
  | .interconnectAccessComplete dt n => Sys2Proof.Machine.execInterconnectAccessComplete dt n s
  | .ruleStagingWrite a n k v => Sys2Proof.Machine.execRuleStagingWrite a n k v s
  | .dbgstkyClear a v => Sys2Proof.Machine.execDbgstkyClear a v s
  | .cphCommandStart dt u => Sys2Proof.Machine.execCphCommandStart dt u s
  | .cphCompletion dt u agree => Sys2Proof.Machine.execCphCompletion dt u agree s
  | .cphRetire a v => Sys2Proof.Machine.execCphRetire a v s
  | .cphSpareTakeover dt u => Sys2Proof.Machine.execCphSpareTakeover dt u s
  | .cphReinst a v => Sys2Proof.Machine.execCphReinst a v s
  | .cphBistDone dt pass => Sys2Proof.Machine.execCphBistDone dt pass s
  | .mauCommandStart dt u => Sys2Proof.Machine.execMauCommandStart dt u s
  | .mauCompletion dt u chk => Sys2Proof.Machine.execMauCompletion dt u chk s
  | .mauAbortIdle dt u => Sys2Proof.Machine.execMauAbortIdle dt u s
  | .mauRetire a v => Sys2Proof.Machine.execMauRetire a v s
  | .mauMigrationDone dt u ok => Sys2Proof.Machine.execMauMigrationDone dt u ok s
  | .mauReinst a v => Sys2Proof.Machine.execMauReinst a v s
  | .mauBistDone dt pass => Sys2Proof.Machine.execMauBistDone dt pass s
  | .mauReseedRequest dt u => Sys2Proof.Machine.execMauReseedRequest dt u s
  | .pin a => Sys2Proof.Machine.execPin a s
  | .unpin a => Sys2Proof.Machine.execUnpin a s
  | .prefetch a => Sys2Proof.Machine.execPrefetch a s
  | .evict a => Sys2Proof.Machine.execEvict a s
  | .checkpoint a => Sys2Proof.Machine.execCheckpoint a s
  | .importBlob a => Sys2Proof.Machine.execImportBlob a s
  | .kstCmdInvalid a op => Sys2Proof.Machine.execKstCmdInvalid a op s
  | .kstCmdComplete dt ok => Sys2Proof.Machine.execKstCmdComplete dt ok s
  | .checkpointTimer dt => Sys2Proof.Machine.execCheckpointTimer dt s
  | .checkpointDone dt ok => Sys2Proof.Machine.execCheckpointDone dt ok s
  | .logFrameProgrammed dt => Sys2Proof.Machine.execLogFrameProgrammed dt s
  | .logstallResume dt => Sys2Proof.Machine.execLogstallResume dt s
  | .hotRegionRefresh dt n => Sys2Proof.Machine.execHotRegionRefresh dt n s
  | .sealedStoreMount dt => Sys2Proof.Machine.execSealedStoreMount dt s
  | .mountComplete dt => Sys2Proof.Machine.execMountComplete dt s
  | .hotRegionRefill dt n => Sys2Proof.Machine.execHotRegionRefill dt n s
  | .windowSetEnd dt w => Sys2Proof.Machine.execWindowSetEnd dt w s
  | .startupTestEnd dt w => Sys2Proof.Machine.execStartupTestEnd dt w s
  | .rngEnable a v => Sys2Proof.Machine.execRngEnable a v s
  | .rngDisable a v => Sys2Proof.Machine.execRngDisable a v s
  | .rawEnWrite a v => Sys2Proof.Machine.execRawEnWrite a v s
  | .rngRawRead a => Sys2Proof.Machine.execRngRawRead a s
  | .rngFwRequest a v => Sys2Proof.Machine.execRngFwRequest a v s
  | .rngBlockGrant dt => Sys2Proof.Machine.execRngBlockGrant dt s
  | .rngFw7Read a => Sys2Proof.Machine.execRngFw7Read a s
  | .serviceDrawExpiry dt c => Sys2Proof.Machine.execServiceDrawExpiry dt c s
  | .duoEnable a v => Sys2Proof.Machine.execDuoEnable a v s
  | .leaseFrameSend dt => Sys2Proof.Machine.execLeaseFrameSend dt s
  | .leaseFrameReceive dt bits => Sys2Proof.Machine.execLeaseFrameReceive dt bits s
  | .renewSend dt => Sys2Proof.Machine.execRenewSend dt s
  | .statusSend dt => Sys2Proof.Machine.execStatusSend dt s
  | .renewReceive dt => Sys2Proof.Machine.execRenewReceive dt s
  | .statusReceive dt => Sys2Proof.Machine.execStatusReceive dt s
  | .mirrorReceive dt => Sys2Proof.Machine.execMirrorReceive dt s
  | .mackReceive dt => Sys2Proof.Machine.execMackReceive dt s
  | .jreqReceive dt => Sys2Proof.Machine.execJreqReceive dt s
  | .jdataReceive dt => Sys2Proof.Machine.execJdataReceive dt s
  | .leaseEnd dt => Sys2Proof.Machine.execLeaseEnd dt s
  | .followerLapse dt => Sys2Proof.Machine.execFollowerLapse dt s
  | .lanternClaim dt => Sys2Proof.Machine.execLanternClaim dt s
  | .peerSilence dt => Sys2Proof.Machine.execPeerSilence dt s
  | .mackWaitExpiry dt => Sys2Proof.Machine.execMackWaitExpiry dt s
  | .lanternRelease a v => Sys2Proof.Machine.execLanternRelease a v s
  | .releaseRenewSend dt => Sys2Proof.Machine.execReleaseRenewSend dt s
  | .mirrorHoldExpiry dt => Sys2Proof.Machine.execMirrorHoldExpiry dt s
  | .mirrorWaitExpiry dt c => Sys2Proof.Machine.execMirrorWaitExpiry dt c s
  | .jseqGapTimeout dt => Sys2Proof.Machine.execJseqGapTimeout dt s
  | .fullResync a v => Sys2Proof.Machine.execFullResync a v s
  | .copyEntryReceive dt => Sys2Proof.Machine.execCopyEntryReceive dt s
  | .resyncComplete dt => Sys2Proof.Machine.execResyncComplete dt s
  | .resyncLinkLoss dt => Sys2Proof.Machine.execResyncLinkLoss dt s
  | .epochClear a v => Sys2Proof.Machine.execEpochClear a v s
  | .duoLeave a v => Sys2Proof.Machine.execDuoLeave a v s
  | .scheduledSwitch dt => Sys2Proof.Machine.execScheduledSwitch dt s
  | .epochSkewTimeout dt => Sys2Proof.Machine.execEpochSkewTimeout dt s
  | .vddAonLost dt => Sys2Proof.Machine.execVddAonLost dt s
  | .vddAonGood dt => Sys2Proof.Machine.execVddAonGood dt s
  | .backupColdStart dt => Sys2Proof.Machine.execBackupColdStart dt s
  | .pwrGoodRise dt => Sys2Proof.Machine.execPwrGoodRise dt s
  | .pwrGoodFall dt => Sys2Proof.Machine.execPwrGoodFall dt s
  | .resetPin dt => Sys2Proof.Machine.execResetPin dt s
  | .sysReset a v => Sys2Proof.Machine.execSysReset a v s
  | .modeRequestService a v => Sys2Proof.Machine.execModeRequestService a v s
  | .modeRequestCustody a v => Sys2Proof.Machine.execModeRequestCustody a v s
  | .modeRequestStandby a v => Sys2Proof.Machine.execModeRequestStandby a v s
  | .modeRequestInvalid a v => Sys2Proof.Machine.execModeRequestInvalid a v s
  | .bootstatWrite a v => Sys2Proof.Machine.execBootstatWrite a v s
  | .lifecycleAdvance a v => Sys2Proof.Machine.execLifecycleAdvance a v s
  | .lifecycleAdvanceDone dt ok => Sys2Proof.Machine.execLifecycleAdvanceDone dt ok s
  | .reprovision a v => Sys2Proof.Machine.execReprovision a v s
  | .reprovisionComplete dt => Sys2Proof.Machine.execReprovisionComplete dt s
  | .coreStart a n v => Sys2Proof.Machine.execCoreStart a n v s
  | .coreStop a n v => Sys2Proof.Machine.execCoreStop a n v s
  | .coreStopped dt n => Sys2Proof.Machine.execCoreStopped dt n s
  | .timerCompare dt n => Sys2Proof.Machine.execTimerCompare dt n s
  | .doorbellSet a n v => Sys2Proof.Machine.execDoorbellSet a n v s
  | .tscSet a v => Sys2Proof.Machine.execTscSet a v s
  | .program a v => Sys2Proof.Machine.execProgram a v s
  | .erase a v => Sys2Proof.Machine.execErase a v s
  | .copy a v => Sys2Proof.Machine.execCopy a v s
  | .otpProgram a v => Sys2Proof.Machine.execOtpProgram a v s
  | .flashCmdDone dt ok => Sys2Proof.Machine.execFlashCmdDone dt ok s
  | .eraseSuspend dt => Sys2Proof.Machine.execEraseSuspend dt s
  | .eraseResume dt => Sys2Proof.Machine.execEraseResume dt s
  | .tamperAlarm dt srcs => Sys2Proof.Machine.execTamperAlarm dt srcs s
  | .tmpStkyClear a v => Sys2Proof.Machine.execTmpStkyClear a v s
  | .tmpSrccfgWrite a n v => Sys2Proof.Machine.execTmpSrccfgWrite a n v s
  | .tamperBist a v => Sys2Proof.Machine.execTamperBist a v s
  | .tamperBistDone dt pass => Sys2Proof.Machine.execTamperBistDone dt pass s
  | .wickFrame dt f => Sys2Proof.Machine.execWickFrame dt f s
  | .wckActWake a v => Sys2Proof.Machine.execWckActWake a v s
  | .wckActPromote a v => Sys2Proof.Machine.execWckActPromote a v s
  | .wckActAlarm a v => Sys2Proof.Machine.execWckActAlarm a v s
  | .wckActSnuff a v => Sys2Proof.Machine.execWckActSnuff a v s
  | .wickRun a v => Sys2Proof.Machine.execWickRun a v s
  | .wickHalt a v => Sys2Proof.Machine.execWickHalt a v s
  | .wickLoadWrite a v => Sys2Proof.Machine.execWickLoadWrite a v s
  | .wickLoadRead a => Sys2Proof.Machine.execWickLoadRead a s
  | .watchdogKick a v => Sys2Proof.Machine.execWatchdogKick a v s
  | .wickWatchdogExpiry dt => Sys2Proof.Machine.execWickWatchdogExpiry dt s
  | .faultEvent dt src e => Sys2Proof.Machine.execFaultEvent dt src e s
  | .faultWindowExpiry dt src => Sys2Proof.Machine.execFaultWindowExpiry dt src s
  | .reactionRound dt => Sys2Proof.Machine.execReactionRound dt s
  | .isolateCoreStart dt => Sys2Proof.Machine.execIsolateCoreStart dt s
  | .severeClear a k v => Sys2Proof.Machine.execSevereClear a k v s
  | .faultStickyClear a k v => Sys2Proof.Machine.execFaultStickyClear a k v s
  | .faultForce a k v => Sys2Proof.Machine.execFaultForce a k v s
  | .faultConfigWrite a n v => Sys2Proof.Machine.execFaultConfigWrite a n v s
  | .cardActivate a slot v => Sys2Proof.Machine.execCardActivate a slot v s
  | .atrReceive dt slot bytes => Sys2Proof.Machine.execAtrReceive dt slot bytes s
  | .atrTimeout dt slot => Sys2Proof.Machine.execAtrTimeout dt slot s
  | .ppsResponse dt slot bytes => Sys2Proof.Machine.execPpsResponse dt slot bytes s
  | .cardDeactivate a slot v => Sys2Proof.Machine.execCardDeactivate a slot v s
  | .cardDetectChange dt slot present => Sys2Proof.Machine.execCardDetectChange dt slot present s
  | .crdDisable a v => Sys2Proof.Machine.execCrdDisable a v s
  | .cardExchange a slot v => Sys2Proof.Machine.execCardExchange a slot v s
  | .cardBlockReceive dt slot bytes => Sys2Proof.Machine.execCardBlockReceive dt slot bytes s
  | .cardBlockTimeout dt slot => Sys2Proof.Machine.execCardBlockTimeout dt slot s
  | .cardExchangeDone dt slot => Sys2Proof.Machine.execCardExchangeDone dt slot s
  | .quorumOpen a v => Sys2Proof.Machine.execQuorumOpen a v s
  | .quorumAttest a v => Sys2Proof.Machine.execQuorumAttest a v s
  | .quorumAttestDone dt => Sys2Proof.Machine.execQuorumAttestDone dt s
  | .quorumAbort a v => Sys2Proof.Machine.execQuorumAbort a v s
  | .quorumTimeout dt => Sys2Proof.Machine.execQuorumTimeout dt s
  | .rosterCommit a v => Sys2Proof.Machine.execRosterCommit a v s
  | .tagPowerUp dt field => Sys2Proof.Machine.execTagPowerUp dt field s
  | .fieldLoss dt => Sys2Proof.Machine.execFieldLoss dt s
  | .reqa dt => Sys2Proof.Machine.execReqa dt s
  | .wupa dt => Sys2Proof.Machine.execWupa dt s
  | .anticollision dt bytes => Sys2Proof.Machine.execAnticollision dt bytes s
  | .select dt level bytes => Sys2Proof.Machine.execSelect dt level bytes s
  | .hlta dt => Sys2Proof.Machine.execHlta dt s
  | .tagFrameError dt => Sys2Proof.Machine.execTagFrameError dt s
  | .getInfo dt => Sys2Proof.Machine.execGetInfo dt s
  | .tagRead dt bytes => Sys2Proof.Machine.execTagRead dt bytes s
  | .tagWrite dt bytes => Sys2Proof.Machine.execTagWrite dt bytes s
  | .tagAuth dt bytes => Sys2Proof.Machine.execTagAuth dt bytes s
  | .tagCommitDone dt => Sys2Proof.Machine.execTagCommitDone dt s
  | .tagWiredRead a v => Sys2Proof.Machine.execTagWiredRead a v s
  | .tagWiredWrite a v => Sys2Proof.Machine.execTagWiredWrite a v s
  | .tagWiredInvalid a v => Sys2Proof.Machine.execTagWiredInvalid a v s
  | .tagWiredStart dt => Sys2Proof.Machine.execTagWiredStart dt s
  | .tagWiredDone dt => Sys2Proof.Machine.execTagWiredDone dt s
  | .tagGroupApply a v => Sys2Proof.Machine.execTagGroupApply a v s
  | .calApply a v => Sys2Proof.Machine.execCalApply a v s
  | .calibrationSwitch dt => Sys2Proof.Machine.execCalibrationSwitch dt s
  | .bandwidthWindowEnd dt => Sys2Proof.Machine.execBandwidthWindowEnd dt s
  | .pmcSnapshot a v => Sys2Proof.Machine.execPmcSnapshot a v s
  | .obsSelect a k v => Sys2Proof.Machine.execObsSelect a k v s
  | .idcode dt => Sys2Proof.Machine.execIdcode dt s
  | .samplePreload dt => Sys2Proof.Machine.execSamplePreload dt s
  | .extest dt => Sys2Proof.Machine.execExtest dt s
  | .tapClamp dt => Sys2Proof.Machine.execTapClamp dt s
  | .highz dt => Sys2Proof.Machine.execHighz dt s
  | .dap dt => Sys2Proof.Machine.execDap dt s
  | .bypass dt => Sys2Proof.Machine.execBypass dt s
  | .tapReset dt => Sys2Proof.Machine.execTapReset dt s
  | .dapRead dt addr => Sys2Proof.Machine.execDapRead dt addr s
  | .dapWrite dt addr v => Sys2Proof.Machine.execDapWrite dt addr v s
  | .dapAccessDone dt => Sys2Proof.Machine.execDapAccessDone dt s
  | .stageStart dt p => Sys2Proof.Machine.execStageStart dt p s
  | .refclkRestore dt mem => Sys2Proof.Machine.execRefclkRestore dt mem s
  | .tamperCauseFall dt src => Sys2Proof.Machine.execTamperCauseFall dt src s
  | .tamperMonitorArm dt => Sys2Proof.Machine.execTamperMonitorArm dt s
  | .engineSelfTestDone dt cph mau => Sys2Proof.Machine.execEngineSelfTestDone dt cph mau s
  | .memoryTrainingDone dt ddrGib ddrOk tgtGib ntgt => Sys2Proof.Machine.execMemoryTrainingDone dt ddrGib ddrOk tgtGib ntgt s
  | .calibrationLoad dt => Sys2Proof.Machine.execCalibrationLoad dt s
  | .patchTableApply dt => Sys2Proof.Machine.execPatchTableApply dt s
  | .bootQuench dt => Sys2Proof.Machine.execBootQuench dt s
  | .fieldArrival dt => Sys2Proof.Machine.execFieldArrival dt s
  | .pmcSnapshotDone dt => Sys2Proof.Machine.execPmcSnapshotDone dt s

end Sys2Proof.Machine
end

