-- ==== Sys2Proof/Safety.lean ====
section
/-!
DEFINITION. Safety.lean: what a safe run of the block is, and the words in which statements about it are made: what a
command leaves alone, when a Wenak core executes an instruction and what retiring one does, when a register write is
granted. The block has no exception entry of its own; what goes wrong inside it is an effect on its state.
-/

namespace Sys2Proof

open Sys2Proof.Machine

/-- The step from `s` answers a next state. -/
def Steps (s : State) : Prop := ∃ s', step s = .next s'

/-- `n` steps from `s` all answer next states. -/
def SafeFor : Nat → State → Prop
  | 0, _ => True
  | n + 1, s => ∃ s', step s = .next s' ∧ SafeFor n s'

/-- The command answers a next state of which `P` holds. -/
def Completes (i : Instr) (s : State) (P : State → Prop) : Prop := ∃ t, exec i s = .next t ∧ P t

/-! ### Invariants -/

/-- The register map and every memory have their canonical form. -/
structure Canonical (s : State) : Prop where
  regs : swf (fun _ => (0 : Word)) s.regs = true
  mem : memWf s.mem
  tags : swf (fun _ => false) s.tags = true
  dspMem : swf (fun _ => (0 : Byte)) s.dsp.mem = true
  dspTags : swf (fun _ => false) s.dsp.tags = true
  wckMem : swf (fun _ => (0 : Byte)) s.wck.mem = true
  wckTags : swf (fun _ => false) s.wck.tags = true

/-- The lifecycle state is at least `L`, and so is the target of an advance under way. -/
structure LcAtLeast (L : Nat) (s : State) : Prop where
  now : L ≤ lifecycleCode s.sys.lc
  next : ∀ t, s.sys.advancing = some t → L ≤ lifecycleCode t

/-! ### Wenak instructions -/

/-- The hart is a control core. -/
def isCtl : Hart → Bool
  | .ctl _ => true
  | _ => false

/-- Hart `h` executes the instruction at its PC now: it can begin one, and the fetch passes every check (04 R99). -/
def Executes (h : Hart) (s : State) : Prop := s.begins h = true ∧ (s.fetch h).1 = .ok ()

/-- The event that counts a retired instruction of hart `h` (19 R419); Wick's core has none. -/
def slotEvent : Hart → Option Nat
  | .ctl n => some (0x200 + 4 * n.val)
  | .svc k => some (0x100 + 4 * k.val)
  | .wick => none

/-- A read of the flash array by hart `h`, which the controller notes; one that it had stalled is stalled no more (14 R336,
R337). -/
def Machine.State.arrayRead (s : State) (h : Hart) (x : Nat × Access) : State :=
  match h with
  | .ctl n => s.flashRead.serve (.ctl n) x.1 x.2
  | _ => s

/-- `u` is `s` after reads of the flash array by hart `h`, and nothing more. -/
def Noted (h : Hart) (s u : State) : Prop := ∃ l : List (Nat × Access), u = l.foldl (fun s x => s.arrayRead h x) s

/-- What stays the same outside the registers of the harts, when one instruction retires and stores nothing: memory and
its tags, every queue, table and unit; the accesses of the instruction that the flash array stalled are over (14 R337),
and the controller may have noted a read of the array (14 R336); of the register map, only the hart's slot counter, its
overflow word and its place in a snapshot of this instant (19 R421) may change beside what the end of a stalled access
lowers (07 R205); every other hart and every other context keeps its registers. -/
structure CoreOnly (h : Hart) (s t : State) : Prop where
  rest : t = { s with regs := t.regs, cores := t.cores, dsp := { s.dsp with regs := t.dsp.regs }, flc := t.flc }
  flash : t.flc = (s.accessesOver h).flc ∨ t.flc = (s.accessesOver h).flashRead.flc
  regs : ∀ a, (∀ e, slotEvent h = some e → a ≠ PMC_CNT e ∧ a ≠ PMC_OVF (e / 32) ∧ a ≠ PMC_SNAPC e) →
    t.rd a = (s.accessesOver h).rd a
  counted : ∀ e, slotEvent h = some e → (t.rd (PMC_CNT e)).toNat = ((s.rd (PMC_CNT e)).toNat + 1) % 2 ^ 48
  others : ∀ k, isService h = true ∨ k ≠ coreKey h → sget {} t.cores k = sget {} s.cores k
  contexts : ∀ c, (∀ k, h = .svc k → s.ctxOn k ≠ some c) → sget {} t.dsp.regs c = sget {} s.dsp.regs c

/-- An instruction of hart `h` retires and leaves its registers as `c` has them; the hold window is one shorter
(05 R162). -/
structure Retires (h : Hart) (s t : State) (c : Core) : Prop extends CoreOnly h s t where
  core : t.core h = { c with holdcnt := c.holdcnt - 1 }

/-- The command is an instruction of hart `h` that completes, leaves the hart's registers as `c` has them, and changes
nothing else. -/
def Leaves (i : Instr) (h : Hart) (s : State) (c : Core) : Prop := Completes i s (Retires h s · c)

/-- The command is an instruction of hart `h` that completes, with `v` in general register `rd` (nothing, where that is
g0), and the next instruction follows. -/
def Gives (i : Instr) (h : Hart) (s : State) (rd : BitVec 5) (v : Word) : Prop :=
  Leaves i h s ((s.core h).setGpr rd v).advance

/-- The same with a capability in capability register `rd`. -/
def GivesCap (i : Instr) (h : Hart) (s : State) (rd : BitVec 4) (v : Cap) : Prop :=
  Leaves i h s ((s.core h).setCap rd v).advance

/-- The command is an instruction of hart `h` that raises exception `x`: nothing of it has taken effect when the entry
begins, but the hart's reads of the flash array. -/
def Raises (i : Instr) (h : Hart) (s : State) (w : Word32) (x : Exc) : Prop :=
  ∃ u, Noted h s u ∧ exec i s = .next (u.raiseExc h w x)

/-- What 04 R107 and R99 make of an access of `n` bytes at `ea` through `cb`: the exception of the first check that
fails. -/
def accessFault (cb : Cap) (need : List Nat) (ea n : Nat) : Option Exc :=
  let ea' := BitVec.ofNat 64 ea
  if cb.tag = false then some { cause := 4, detail := 1, addr := ea' }
  else if cb.otype ≠ 0 then some { cause := 4, detail := 2, addr := ea' }
  else if ∃ p ∈ need, permBit cb.perms p = false then some { cause := 4, detail := 3, addr := ea' }
  else if ea < cb.base.toNat ∨ (if cb.top = 0 then 2 ^ 48 else cb.top.toNat) < ea + n then
    some { cause := 4, detail := 4, addr := ea' }
  else if ea % n ≠ 0 then some { cause := 3, addr := ea' }
  else none

/-- What a store at `ea` by hart `h` may be beside memory: the commands of a service core's context take it in or not,
which is left open (08 R215). -/
def Machine.State.seenBy (s : State) (h : Hart) (ea : Nat) (bs : List Byte) : State :=
  match h with
  | .svc k => match s.ctxOn k with
    | some c => s.storeReaches c ea bs
    | none => s
  | _ => s

/-- Hart `h` reads `n` bytes at `a` as `v`, and nothing changes but what a read of the flash array does. -/
def Reads (h : Hart) (s : State) (perms : BitVec 16) (a n v : Nat) : Prop :=
  ∀ u, Noted h s u → ∃ t, Noted h s t ∧ u.dataRead h perms a n = (.ok v, t)

/-- Hart `h` reads the capability at `a` as `c`, and nothing changes but what a read of the flash array does. -/
def ReadsCap (h : Hart) (s : State) (perms : BitVec 16) (a : Nat) (c : Cap) : Prop :=
  ∀ u, Noted h s u → ∃ t, Noted h s t ∧ u.capRead h perms a = (.ok c, t)

/-- A store of bytes at `ea` by hart `h` retires: the bytes stand in memory, the granules they lie in hold the tag
`tag`, and every other byte and tag is as it was; the codewords it covers are written anew (01 R15); the hart's registers
are as `c` has them, and nothing else changes but what `seenBy` and `CoreOnly` name. `mem` and `tags` are the memory the
hart stores to. -/
structure Stores (h : Hart) (s t : State) (ea : Nat) (bs : List Byte) (tag : Bool) (c : Core) : Prop where
  bytes : ∀ a, memGet t.mem a =
    if isCtl h = true ∧ ea ≤ a ∧ a < ea + bs.length then bs.getD (a - ea) 0 else memGet s.mem a
  tags : ∀ a, tagAt t.tags a =
    if isCtl h = true ∧ ea / 16 ≤ a / 16 ∧ a / 16 ≤ (ea + bs.length - 1) / 16 then tag else tagAt s.tags a
  svcBytes : ∀ a, prvGet t.dsp.mem a =
    if isService h = true ∧ ea ≤ a ∧ a < ea + bs.length then bs.getD (a - ea) 0 else prvGet s.dsp.mem a
  svcTags : ∀ a, tagAt t.dsp.tags a = if isService h = true ∧ ea / 16 = a / 16 then tag else tagAt s.dsp.tags a
  wickBytes : ∀ a, prvGet t.wck.mem a =
    if h = .wick ∧ ea ≤ a ∧ a < ea + bs.length then bs.getD (a - ea) 0 else prvGet s.wck.mem a
  wickTags : ∀ a, tagAt t.wck.tags a = if h = .wick ∧ ea / 16 = a / 16 then tag else tagAt s.wck.tags a
  damaged : t.damaged = healed s.damaged (eccArray h) ea bs.length
  only : CoreOnly h { s.seenBy h ea bs with
    mem := t.mem
    tags := t.tags
    damaged := t.damaged
    dsp := { s.dsp with mem := t.dsp.mem, tags := t.dsp.tags }
    wck := { s.wck with mem := t.wck.mem, tags := t.wck.tags } } t
  core : t.core h = { c with holdcnt := c.holdcnt - 1 }

/-- A store by hart `h` to `ea` reaches memory at once: the address is no register, it is not buffered, nothing older
waits in the buffer, and the memory takes it (05 R155, 07 R198; 06 R168; 15 R364). -/
def Reaches (h : Hart) (s : State) (perms : BitVec 16) (ea : Nat) : Prop :=
  match h with
  | .ctl n => inRegs ea = false ∧ s.buffers h ea = false ∧ (s.core h).storeBuf = [] ∧
      s.actCheck ⟨.ctl n, perms⟩ ea .write = none ∧ s.writable ea = true
  | .svc _ => inProgStore ea = true ∨ inCtxStore ea = true
  | .wick => ea < 0x10000

/-! ### Register writes -/

/-- A control core or another master of the interconnect may write `v` to the register at `r` now: the access carries
permissions that the master's accesses carry (07 R195), the core domain has power, the access table grants the access, and
the access carries what the register asks (05 R145, 07 R198). -/
structure MayWrite (s : State) (a : Acc) (r : Nat) (v : Word32) : Prop where
  master : a.master ≠ .wick
  carries : s.carries a = true
  power : s.powered = true
  table : s.actCheck a r .write = none
  perms : a.holdsAll (writeNeeds (s.on DUO_CTRL_FORCE) r v) = true

/-- The read of a register word, likewise. -/
structure MayRead (s : State) (a : Acc) (r : Nat) : Prop where
  master : a.master ≠ .wick
  carries : s.carries a = true
  power : s.powered = true
  table : s.actCheck a r .read = none
  perms : a.holdsAll (readNeeds r) = true

end Sys2Proof
end

