-- ==== Sys2Proof/WellFormed.lean ====
section
/-!
DEFINITION. WellFormed.lean: which terms of `Instr` are a command as its row of spec/opcode_table.json describes it: a
write row writes the bit or the code that the row names, a write fits its width and is aligned (00 R6, 07 R194), a
RESERVED_INSTRUCTION carries a reserved word (04 R98), a list of samples or frame bytes has its length.
-/

namespace Sys2Proof

open Sys2Proof.Machine

/-- The command is one that its row describes. The meanings of the write rows take every value all the same. -/
def Instr.wf : Instr → Bool
  | .registerWrite _ addr size v => (decide (0x40000000 ≤ addr.toNat) && decide (addr.toNat < 0x41600000) || decide (addr.toNat % size.bytes = 0)) &&
    decide (v.toNat < 256 ^ size.bytes)
  | .lowWordRead _ addr => decide (addr.toNat % 4 = 0)
  | .timebasePhaseStep _ => true
  | .frameReceive _ _ _ => true
  | .refusalResponseDrop _ _ => true
  | .admDecision _ _ => true
  | .fetchComplete _ _ _ => true
  | .bestEffortFetchDone _ _ => true
  | .contextDispatch _ _ => true
  | .responseGrant _ _ => true
  | .ireqResponseWritten _ _ => true
  | .entryOverrun _ _ => true
  | .tempoStale _ _ => true
  | .taperReading _ _ _ _ => true
  | .activityWindowEnd _ _ _ _ => true
  | .fastclsWrite _ _ => true
  | .epochSwitch _ _ v => v.getLsbD 31
  | .epochSwitchDone _ => true
  | .saLoad _ v => v.getLsbD 31
  | .saLoadDone _ => true
  | .rqFloorWrite _ _ => true
  | .portcfgWrite _ _ => true
  | .mgtGo _ v => v.getLsbD 0
  | .mgtTxDone _ => true
  | .linkStateChange _ _ _ => true
  | .refclkLoss _ _ => true
  | .serviceCoreHang _ _ => true
  | .ill _ _ _ => true
  | .reservedInstruction h w => decide (Machine.decodeWenak h w = .reservedInstruction h w)
  | .add _ _ => true
  | .sub _ _ => true
  | .and _ _ => true
  | .or _ _ => true
  | .xor _ _ => true
  | .nor _ _ => true
  | .slt _ _ => true
  | .sltu _ _ => true
  | .sll _ _ => true
  | .srl _ _ => true
  | .sra _ _ => true
  | .movz _ _ => true
  | .movn _ _ => true
  | .min _ _ => true
  | .max _ _ => true
  | .minu _ _ => true
  | .maxu _ _ => true
  | .clz _ _ => true
  | .popc _ _ => true
  | .bswap _ _ => true
  | .bswapw _ _ => true
  | .addw _ _ => true
  | .subw _ _ => true
  | .sllw _ _ => true
  | .srlw _ _ => true
  | .sraw _ _ => true
  | .mul _ _ => true
  | .mulh _ _ => true
  | .mulhu _ _ => true
  | .div _ _ => true
  | .divu _ _ => true
  | .rem _ _ => true
  | .remu _ _ => true
  | .addv _ _ => true
  | .subv _ _ => true
  | .mulv _ _ => true
  | .addi _ _ => true
  | .addiw _ _ => true
  | .andi _ _ => true
  | .ori _ _ => true
  | .xori _ _ => true
  | .slti _ _ => true
  | .sltiu _ _ => true
  | .lui _ _ => true
  | .slli _ _ => true
  | .srli _ _ => true
  | .srai _ _ => true
  | .slliw _ _ => true
  | .srliw _ _ => true
  | .sraiw _ _ => true
  | .extu _ _ => true
  | .exts _ _ => true
  | .ins _ _ => true
  | .lb _ _ => true
  | .lbu _ _ => true
  | .lh _ _ => true
  | .lhu _ _ => true
  | .lw _ _ => true
  | .lwu _ _ => true
  | .ld _ _ => true
  | .sb _ _ => true
  | .sh _ _ => true
  | .sw _ _ => true
  | .sd _ _ => true
  | .lcap _ _ => true
  | .scap _ _ => true
  | .amoswap _ _ => true
  | .amoadd _ _ => true
  | .amoand _ _ => true
  | .amoor _ _ => true
  | .amocas _ _ => true
  | .beq _ _ => true
  | .bne _ _ => true
  | .blt _ _ => true
  | .bge _ _ => true
  | .bltu _ _ => true
  | .bgeu _ _ => true
  | .j _ _ => true
  | .jal _ _ => true
  | .jr _ _ => true
  | .jalr _ _ => true
  | .cjmp _ _ => true
  | .cret _ _ => true
  | .ccopy _ _ => true
  | .cnarrow _ _ => true
  | .ctrim _ _ => true
  | .clock _ _ => true
  | .cunlock _ _ => true
  | .cvoid _ _ => true
  | .cpcc _ _ => true
  | .cinfoBase _ _ => true
  | .cinfoEnd _ _ => true
  | .cinfoLength _ _ => true
  | .cinfoPerms _ _ => true
  | .cinfoOtype _ _ => true
  | .cinfoTag _ _ => true
  | .cwithin _ _ => true
  | .csame _ _ => true
  | .nop _ _ => true
  | .srd _ _ => true
  | .swr _ _ => true
  | .trap _ _ => true
  | .eret _ _ => true
  | .hold _ _ => true
  | .wait _ _ => true
  | .fence _ _ => true
  | .endCtx _ _ _ => true
  | .tli _ _ => true
  | .eput _ _ => true
  | .eiss _ _ => true
  | .ewait _ _ => true
  | .epoll _ _ => true
  | .eabort _ _ => true
  | .interruptEntry _ => true
  | .waitWake _ => true
  | .storeBufferDrain _ => true
  | .deferredBusError _ => true
  | .programLoad _ v => v.getLsbD 31
  | .programLoadDone _ => true
  | .pslotFree _ v => v.getLsbD 31
  | .ireqSubmit _ v => v.getLsbD 31
  | .actEpochSwitch _ v => v.getLsbD 31
  | .actSwitchInstant _ => true
  | .interconnectAccessComplete _ _ => true
  | .ruleStagingWrite _ _ _ _ => true
  | .dbgstkyClear _ v => v.getLsbD 0
  | .cphCommandStart _ _ => true
  | .cphCompletion _ _ _ => true
  | .cphRetire _ v => v.getLsbD 31
  | .cphSpareTakeover _ _ => true
  | .cphReinst _ v => v.getLsbD 31
  | .cphBistDone _ _ => true
  | .mauCommandStart _ _ => true
  | .mauCompletion _ _ _ => true
  | .mauAbortIdle _ _ => true
  | .mauRetire _ v => v.getLsbD 31
  | .mauMigrationDone _ _ _ => true
  | .mauReinst _ v => v.getLsbD 31
  | .mauBistDone _ _ => true
  | .mauReseedRequest _ _ => true
  | .pin _ => true
  | .unpin _ => true
  | .prefetch _ => true
  | .evict _ => true
  | .checkpoint _ => true
  | .importBlob _ => true
  | .kstCmdInvalid _ op => decide (op.toNat = 0 ∨ 6 < op.toNat)
  | .kstCmdComplete _ _ => true
  | .checkpointTimer _ => true
  | .checkpointDone _ _ => true
  | .logFrameProgrammed _ => true
  | .logstallResume _ => true
  | .hotRegionRefresh _ _ => true
  | .sealedStoreMount _ => true
  | .mountComplete _ => true
  | .hotRegionRefill _ _ => true
  | .windowSetEnd _ _ => true
  | .startupTestEnd _ _ => true
  | .rngEnable _ v => v.getLsbD 0
  | .rngDisable _ v => !v.getLsbD 0
  | .rawEnWrite _ _ => true
  | .rngRawRead _ => true
  | .rngFwRequest _ v => v.getLsbD 0
  | .rngBlockGrant _ => true
  | .rngFw7Read _ => true
  | .serviceDrawExpiry _ _ => true
  | .duoEnable _ v => v.getLsbD 0
  | .leaseFrameSend _ => true
  | .leaseFrameReceive _ bits => decide (bits.length = 4)
  | .renewSend _ => true
  | .statusSend _ => true
  | .renewReceive _ => true
  | .statusReceive _ => true
  | .mirrorReceive _ => true
  | .mackReceive _ => true
  | .jreqReceive _ => true
  | .jdataReceive _ => true
  | .leaseEnd _ => true
  | .followerLapse _ => true
  | .lanternClaim _ => true
  | .peerSilence _ => true
  | .mackWaitExpiry _ => true
  | .lanternRelease _ v => v.getLsbD 4
  | .releaseRenewSend _ => true
  | .mirrorHoldExpiry _ => true
  | .mirrorWaitExpiry _ _ => true
  | .jseqGapTimeout _ => true
  | .fullResync _ v => v.getLsbD 31
  | .copyEntryReceive _ => true
  | .resyncComplete _ => true
  | .resyncLinkLoss _ => true
  | .epochClear _ v => v.getLsbD 0
  | .duoLeave _ v => v.getLsbD 3
  | .scheduledSwitch _ => true
  | .epochSkewTimeout _ => true
  | .vddAonLost _ => true
  | .vddAonGood _ => true
  | .backupColdStart _ => true
  | .pwrGoodRise _ => true
  | .pwrGoodFall _ => true
  | .resetPin _ => true
  | .sysReset _ v => v.getLsbD 0 && decide (v.toNat / 2 ^ 16 = 0xD1A5)
  | .modeRequestService _ v => v.getLsbD 31 && decide (v.toNat % 8 = 3)
  | .modeRequestCustody _ v => v.getLsbD 31 && decide (v.toNat % 8 = 4)
  | .modeRequestStandby _ v => v.getLsbD 31 && decide (v.toNat % 8 = 2)
  | .modeRequestInvalid _ v => v.getLsbD 31 && !decide (v.toNat % 8 = 2 ∨ v.toNat % 8 = 3 ∨ v.toNat % 8 = 4)
  | .bootstatWrite _ v => decide (v.toNat % 2 ^ 16 = 0x0D)
  | .lifecycleAdvance _ v => v.getLsbD 31
  | .lifecycleAdvanceDone _ _ => true
  | .reprovision _ v => v.getLsbD 31
  | .reprovisionComplete _ => true
  | .coreStart _ _ v => v.getLsbD 31
  | .coreStop _ _ v => v.getLsbD 30
  | .coreStopped _ _ => true
  | .timerCompare _ _ => true
  | .doorbellSet _ _ _ => true
  | .tscSet _ _ => true
  | .program _ v => v.getLsbD 31 && decide (v.toNat / 2 ^ 24 % 16 = 1)
  | .erase _ v => v.getLsbD 31 && decide (v.toNat / 2 ^ 24 % 16 = 2)
  | .copy _ v => v.getLsbD 31 && decide (v.toNat / 2 ^ 24 % 16 = 3)
  | .otpProgram _ v => v.getLsbD 31 && decide (v.toNat / 2 ^ 24 % 16 = 4)
  | .flashCmdDone _ _ => true
  | .eraseSuspend _ => true
  | .eraseResume _ => true
  | .tamperAlarm _ srcs => !srcs.isEmpty && decide srcs.Nodup
  | .tmpStkyClear _ _ => true
  | .tmpSrccfgWrite _ _ _ => true
  | .tamperBist _ v => v.getLsbD 31
  | .tamperBistDone _ _ => true
  | .wickFrame _ _ => true
  | .wckActWake _ v => v.getLsbD 0
  | .wckActPromote _ v => v.getLsbD 1
  | .wckActAlarm _ v => v.getLsbD 2
  | .wckActSnuff _ v => v.getLsbD 3
  | .wickRun _ v => v.getLsbD 0
  | .wickHalt _ v => v.getLsbD 1
  | .wickLoadWrite _ _ => true
  | .wickLoadRead _ => true
  | .watchdogKick _ v => v.getLsbD 31
  | .wickWatchdogExpiry _ => true
  | .faultEvent _ _ _ => true
  | .faultWindowExpiry _ _ => true
  | .reactionRound _ => true
  | .isolateCoreStart _ => true
  | .severeClear _ _ _ => true
  | .faultStickyClear _ _ _ => true
  | .faultForce _ _ _ => true
  | .faultConfigWrite _ _ _ => true
  | .cardActivate _ _ v => v.getLsbD 31
  | .atrReceive _ _ _ => true
  | .atrTimeout _ _ => true
  | .ppsResponse _ _ _ => true
  | .cardDeactivate _ _ v => v.getLsbD 30
  | .cardDetectChange _ _ _ => true
  | .crdDisable _ v => !v.getLsbD 0
  | .cardExchange _ _ v => v.getLsbD 31
  | .cardBlockReceive _ _ _ => true
  | .cardBlockTimeout _ _ => true
  | .cardExchangeDone _ _ => true
  | .quorumOpen _ v => v.getLsbD 31
  | .quorumAttest _ v => v.getLsbD 29
  | .quorumAttestDone _ => true
  | .quorumAbort _ v => v.getLsbD 30
  | .quorumTimeout _ => true
  | .rosterCommit _ v => v.getLsbD 31
  | .tagPowerUp _ _ => true
  | .fieldLoss _ => true
  | .reqa _ => true
  | .wupa _ => true
  | .anticollision _ _ => true
  | .select _ _ _ => true
  | .hlta _ => true
  | .tagFrameError _ => true
  | .getInfo _ => true
  | .tagRead _ _ => true
  | .tagWrite _ _ => true
  | .tagAuth _ _ => true
  | .tagCommitDone _ => true
  | .tagWiredRead _ v => v.getLsbD 31 && decide (v.toNat / 2 ^ 24 % 4 = 1)
  | .tagWiredWrite _ v => v.getLsbD 31 && decide (v.toNat / 2 ^ 24 % 4 = 2)
  | .tagWiredInvalid _ v => v.getLsbD 31 && !decide (v.toNat / 2 ^ 24 % 4 = 1 ∨ v.toNat / 2 ^ 24 % 4 = 2)
  | .tagWiredStart _ => true
  | .tagWiredDone _ => true
  | .tagGroupApply _ v => v.getLsbD 31
  | .calApply _ v => v.getLsbD 31
  | .calibrationSwitch _ => true
  | .bandwidthWindowEnd _ => true
  | .pmcSnapshot _ v => v.getLsbD 31
  | .obsSelect _ _ _ => true
  | .idcode _ => true
  | .samplePreload _ => true
  | .extest _ => true
  | .tapClamp _ => true
  | .highz _ => true
  | .dap _ => true
  | .bypass _ => true
  | .tapReset _ => true
  | .dapRead _ _ => true
  | .dapWrite _ _ _ => true
  | .dapAccessDone _ => true
  | .stageStart _ _ => true
  | .refclkRestore _ _ => true
  | .tamperCauseFall _ _ => true
  | .tamperMonitorArm _ => true
  | .engineSelfTestDone _ _ _ => true
  | .memoryTrainingDone _ _ _ _ _ => true
  | .calibrationLoad _ => true
  | .patchTableApply _ => true
  | .bootQuench _ => true
  | .fieldArrival _ => true
  | .pmcSnapshotDone _ => true

end Sys2Proof
end

