-- ==== Sys2Proof/Certificates/Slice0/Obligations.lean ====
section
/-!
DEFINITION. Certificates/Slice0/Obligations.lean: the statements about the block that are to be proved.
-/

open Sys2Proof Sys2Proof.Machine

/-! ### Wenak: integer instructions (04 R101-R106) -/

/-- 04 R101 and Table 4.4: what each register instruction of OPA without a check of its own writes to gd. Each retires,
the next instruction follows, and nothing else changes (`Gives`).
04 R101: the unary functions ask rb = 0 and raise ILLEGAL otherwise (R95). CLZ counts the leading zeros, POPC the set
bits, BSWAP reverses the eight bytes, BSWAPW the low four; and suffix W works on the low 32 bits and sign-extends. -/
def Obligations.RegisterAndUnaryInstructionsGive : Prop :=
  (∀ (h : Hart) (f : FmtA) (s : State), Executes h s →
    Gives (.add h f) h s f.rd (s.gpr h f.ra + s.gpr h f.rb) ∧
    Gives (.sub h f) h s f.rd (s.gpr h f.ra - s.gpr h f.rb) ∧
    Gives (.and h f) h s f.rd (s.gpr h f.ra &&& s.gpr h f.rb) ∧
    Gives (.or h f) h s f.rd (s.gpr h f.ra ||| s.gpr h f.rb) ∧
    Gives (.xor h f) h s f.rd (s.gpr h f.ra ^^^ s.gpr h f.rb) ∧
    Gives (.nor h f) h s f.rd (~~~(s.gpr h f.ra ||| s.gpr h f.rb)) ∧
    Gives (.slt h f) h s f.rd (if (s.gpr h f.ra).toInt < (s.gpr h f.rb).toInt then 1 else 0) ∧
    Gives (.sltu h f) h s f.rd (if (s.gpr h f.ra).toNat < (s.gpr h f.rb).toNat then 1 else 0) ∧
    Gives (.sll h f) h s f.rd (s.gpr h f.ra <<< ((s.gpr h f.rb).toNat % 64)) ∧
    Gives (.srl h f) h s f.rd (s.gpr h f.ra >>> ((s.gpr h f.rb).toNat % 64)) ∧
    Gives (.sra h f) h s f.rd ((s.gpr h f.ra).sshiftRight ((s.gpr h f.rb).toNat % 64)) ∧
    (if s.gpr h f.rb = 0 then Gives (.movz h f) h s f.rd (s.gpr h f.ra)
      else Leaves (.movz h f) h s (s.core h).advance) ∧
    (if s.gpr h f.rb = 0 then Leaves (.movn h f) h s (s.core h).advance
      else Gives (.movn h f) h s f.rd (s.gpr h f.ra)) ∧
    Gives (.min h f) h s f.rd (BitVec.ofInt 64 (Min.min (s.gpr h f.ra).toInt (s.gpr h f.rb).toInt)) ∧
    Gives (.max h f) h s f.rd (BitVec.ofInt 64 (Max.max (s.gpr h f.ra).toInt (s.gpr h f.rb).toInt)) ∧
    Gives (.minu h f) h s f.rd (BitVec.ofNat 64 (Min.min (s.gpr h f.ra).toNat (s.gpr h f.rb).toNat)) ∧
    Gives (.maxu h f) h s f.rd (BitVec.ofNat 64 (Max.max (s.gpr h f.ra).toNat (s.gpr h f.rb).toNat)) ∧
    Gives (.mul h f) h s f.rd (s.gpr h f.ra * s.gpr h f.rb) ∧
    Gives (.mulh h f) h s f.rd
      ((BitVec.ofInt 128 ((s.gpr h f.ra).toInt * (s.gpr h f.rb).toInt)).extractLsb' 64 64) ∧
    Gives (.mulhu h f) h s f.rd
      ((BitVec.ofNat 128 ((s.gpr h f.ra).toNat * (s.gpr h f.rb).toNat)).extractLsb' 64 64)) ∧
  (∀ (h : Hart) (f : FmtA) (s : State), Executes h s →
    (f.rb = 0 →
      (∃ n ≤ 64, Gives (.clz h f) h s f.rd (BitVec.ofNat 64 n) ∧
        (∀ i < n, (s.gpr h f.ra).getLsbD (63 - i) = false) ∧ (n < 64 → (s.gpr h f.ra).getLsbD (63 - n) = true)) ∧
      Gives (.popc h f) h s f.rd (BitVec.ofNat 64 ((List.range 64).filter (s.gpr h f.ra).getLsbD).length) ∧
      (∃ v, Gives (.bswap h f) h s f.rd v ∧ ∀ i < 8, bitsOf v (8 * i) 8 = bitsOf (s.gpr h f.ra) (8 * (7 - i)) 8) ∧
      (∃ v : Word, Gives (.bswapw h f) h s f.rd v ∧ v.toNat < 2 ^ 32 ∧
        ∀ i < 4, bitsOf v (8 * i) 8 = bitsOf (s.gpr h f.ra) (8 * (3 - i)) 8)) ∧
    (f.rb ≠ 0 →
      Raises (.clz h f) h s (encA 0x01 0x011 f) excIllegal ∧
      Raises (.popc h f) h s (encA 0x01 0x012 f) excIllegal ∧
      Raises (.bswap h f) h s (encA 0x01 0x013 f) excIllegal ∧
      Raises (.bswapw h f) h s (encA 0x01 0x014 f) excIllegal) ∧
    Gives (.addw h f) h s f.rd (BitVec.ofInt 64 (BitVec.ofInt 32 ((s.gpr h f.ra).toInt + (s.gpr h f.rb).toInt)).toInt) ∧
    Gives (.subw h f) h s f.rd (BitVec.ofInt 64 (BitVec.ofInt 32 ((s.gpr h f.ra).toInt - (s.gpr h f.rb).toInt)).toInt) ∧
    Gives (.sllw h f) h s f.rd
      (((s.gpr h f.ra).setWidth 32 <<< ((s.gpr h f.rb).toNat % 32)).signExtend 64) ∧
    Gives (.srlw h f) h s f.rd
      (((s.gpr h f.ra).setWidth 32 >>> ((s.gpr h f.rb).toNat % 32)).signExtend 64) ∧
    Gives (.sraw h f) h s f.rd
      ((((s.gpr h f.ra).setWidth 32).sshiftRight ((s.gpr h f.rb).toNat % 32)).signExtend 64))

/-- 04 R102: on a control core DIV rounds towards zero, the remainder has the sign of g[ra], −2⁶³ by −1 gives −2⁶³ with
remainder 0; a zero divisor raises DIVZ where ECTRL.DZ_EN is 1 and gives all ones and g[ra] where it is 0. The other
cores exclude all four (R138, R140). -/
def Obligations.DivisionsGive : Prop :=
  ∀ (h : Hart) (f : FmtA) (s : State), Executes h s →
    (isCtl h = true → s.gpr h f.rb ≠ 0 →
      Gives (.div h f) h s f.rd (BitVec.ofInt 64 ((s.gpr h f.ra).toInt.tdiv (s.gpr h f.rb).toInt)) ∧
      Gives (.divu h f) h s f.rd (BitVec.ofNat 64 ((s.gpr h f.ra).toNat / (s.gpr h f.rb).toNat)) ∧
      Gives (.rem h f) h s f.rd (BitVec.ofInt 64 ((s.gpr h f.ra).toInt.tmod (s.gpr h f.rb).toInt)) ∧
      Gives (.remu h f) h s f.rd (BitVec.ofNat 64 ((s.gpr h f.ra).toNat % (s.gpr h f.rb).toNat))) ∧
    (isCtl h = true → s.gpr h f.ra = BitVec.intMin 64 → s.gpr h f.rb = BitVec.allOnes 64 →
      Gives (.div h f) h s f.rd (BitVec.intMin 64) ∧ Gives (.rem h f) h s f.rd 0) ∧
    (isCtl h = true → s.gpr h f.rb = 0 → (s.core h).ectrl.getLsbD 1 = false →
      Gives (.div h f) h s f.rd (BitVec.allOnes 64) ∧ Gives (.divu h f) h s f.rd (BitVec.allOnes 64) ∧
      Gives (.rem h f) h s f.rd (s.gpr h f.ra) ∧ Gives (.remu h f) h s f.rd (s.gpr h f.ra)) ∧
    (isCtl h = true → s.gpr h f.rb = 0 → (s.core h).ectrl.getLsbD 1 = true →
      Raises (.div h f) h s (encA 0x01 0x024 f) { cause := 6 } ∧
      Raises (.divu h f) h s (encA 0x01 0x025 f) { cause := 6 } ∧
      Raises (.rem h f) h s (encA 0x01 0x026 f) { cause := 6 } ∧
      Raises (.remu h f) h s (encA 0x01 0x027 f) { cause := 6 }) ∧
    (isCtl h = false →
      Raises (.div h f) h s (encA 0x01 0x024 f) excIllegal ∧
      Raises (.divu h f) h s (encA 0x01 0x025 f) excIllegal ∧
      Raises (.rem h f) h s (encA 0x01 0x026 f) excIllegal ∧
      Raises (.remu h f) h s (encA 0x01 0x027 f) excIllegal)

/-- 04 R103: ADDV, SUBV and MULV raise OVF where the signed result does not fit in 64 bits and ECTRL.OVF_EN is 1 (on a
service core always, 05 R166), and otherwise give the wrapped result. -/
def Obligations.OverflowIsDetected : Prop :=
  ∀ (h : Hart) (f : FmtA) (s : State) (op : FmtA → Instr) (fn : BitVec 11) (v : Int),
    Executes h s →
    (op = .addv h ∧ fn = 0x028 ∧ v = (s.gpr h f.ra).toInt + (s.gpr h f.rb).toInt ∨
      op = .subv h ∧ fn = 0x029 ∧ v = (s.gpr h f.ra).toInt - (s.gpr h f.rb).toInt ∨
      op = .mulv h ∧ fn = 0x02A ∧ v = (s.gpr h f.ra).toInt * (s.gpr h f.rb).toInt) →
    if (v < -(2 ^ 63) ∨ 2 ^ 63 ≤ v) ∧ ((s.core h).ectrl.getLsbD 0 = true ∨ isService h = true)
    then Raises (op f) h s (encA 0x01 fn f) { cause := 7 }
    else Gives (op f) h s f.rd (BitVec.ofInt 64 v)

/-- 04 R104: the immediate instructions; LUI asks ra = 0 and raises ILLEGAL otherwise (R95). -/
def Obligations.ImmediateInstructionsGive : Prop :=
  ∀ (h : Hart) (f : FmtI) (s : State), Executes h s →
    Gives (.addi h f) h s f.rd (s.gpr h f.ra + BitVec.ofInt 64 f.imm.toInt) ∧
    Gives (.addiw h f) h s f.rd (BitVec.ofInt 64 (BitVec.ofInt 32 ((s.gpr h f.ra).toInt + f.imm.toInt)).toInt) ∧
    Gives (.andi h f) h s f.rd (s.gpr h f.ra &&& BitVec.ofNat 64 f.imm.toNat) ∧
    Gives (.ori h f) h s f.rd (s.gpr h f.ra ||| BitVec.ofNat 64 f.imm.toNat) ∧
    Gives (.xori h f) h s f.rd (s.gpr h f.ra ^^^ BitVec.ofNat 64 f.imm.toNat) ∧
    Gives (.slti h f) h s f.rd (if (s.gpr h f.ra).toInt < f.imm.toInt then 1 else 0) ∧
    Gives (.sltiu h f) h s f.rd (if (s.gpr h f.ra).toNat < (BitVec.ofInt 64 f.imm.toInt).toNat then 1 else 0) ∧
    (if f.ra = 0 then Gives (.lui h f) h s f.rd (BitVec.ofInt 64 (f.imm.toInt * 2 ^ 16))
      else Raises (.lui h f) h s (encI 0x09 f) excIllegal)

/-- 04 R105: the shifts by an immediate, whose bits 11:6 must be zero; a W form that shifts by 32 or more raises
ILLEGAL. -/
def Obligations.ImmediateShiftsGive : Prop :=
  ∀ (h : Hart) (f : FmtShift) (s : State), Executes h s →
    (f.mid = 0 →
      Gives (.slli h f) h s f.rd (s.gpr h f.ra <<< f.sh.toNat) ∧
      Gives (.srli h f) h s f.rd (s.gpr h f.ra >>> f.sh.toNat) ∧
      Gives (.srai h f) h s f.rd ((s.gpr h f.ra).sshiftRight f.sh.toNat)) ∧
    (f.mid = 0 → f.sh.toNat < 32 →
      Gives (.slliw h f) h s f.rd (((s.gpr h f.ra).setWidth 32 <<< f.sh.toNat).signExtend 64) ∧
      Gives (.srliw h f) h s f.rd (((s.gpr h f.ra).setWidth 32 >>> f.sh.toNat).signExtend 64) ∧
      Gives (.sraiw h f) h s f.rd ((((s.gpr h f.ra).setWidth 32).sshiftRight f.sh.toNat).signExtend 64)) ∧
    (f.mid ≠ 0 →
      Raises (.slli h f) h s (encShift 0 f) excIllegal ∧ Raises (.srli h f) h s (encShift 1 f) excIllegal ∧
      Raises (.srai h f) h s (encShift 2 f) excIllegal) ∧
    (f.mid ≠ 0 ∨ 32 ≤ f.sh.toNat →
      Raises (.slliw h f) h s (encShift 4 f) excIllegal ∧ Raises (.srliw h f) h s (encShift 5 f) excIllegal ∧
      Raises (.sraiw h f) h s (encShift 6 f) excIllegal)

/-- 04 R106: EXTU, EXTS and INS on the field of `len1 + 1` bits at `pos`; bits 13:12 must be zero, and a field that does
not lie in the register raises ILLEGAL. -/
def Obligations.BitFieldInstructionsGive : Prop :=
  ∀ (h : Hart) (f : FmtField) (s : State), Executes h s →
    if f.mid = 0 ∧ f.pos.toNat + (f.len1.toNat + 1) ≤ 64 then
      (∃ v : Word, Gives (.extu h f) h s f.rd v ∧
        ∀ i < 64, v.getLsbD i = (decide (i ≤ f.len1.toNat) && (s.gpr h f.ra).getLsbD (f.pos.toNat + i))) ∧
      (∃ v : Word, Gives (.exts h f) h s f.rd v ∧
        ∀ i < 64, v.getLsbD i = (s.gpr h f.ra).getLsbD (f.pos.toNat + Min.min i f.len1.toNat)) ∧
      (∃ v : Word, Gives (.ins h f) h s f.rd v ∧
        ∀ i < 64, v.getLsbD i =
          if f.pos.toNat ≤ i ∧ i ≤ f.pos.toNat + f.len1.toNat then (s.gpr h f.ra).getLsbD (i - f.pos.toNat)
          else (s.gpr h f.rd).getLsbD i)
    else
      Raises (.extu h f) h s (encField 0 f) excIllegal ∧ Raises (.exts h f) h s (encField 1 f) excIllegal ∧
      Raises (.ins h f) h s (encField 2 f) excIllegal

/-! ### Wenak: memory (04 R107-R112, R134-R136) -/

/-- The loads of 04 R108: each with its opcode, its size in bytes and the extension of the value it loads. -/
def Sys2Proof.loadForms (h : Hart) : List ((FmtM → Instr) × BitVec 6 × Nat × (Nat → Int)) :=
  [(.lb h, 0x10, 1, fun v => (BitVec.ofNat 8 v).toInt), (.lbu h, 0x11, 1, fun v => v),
   (.lh h, 0x12, 2, fun v => (BitVec.ofNat 16 v).toInt), (.lhu h, 0x13, 2, fun v => v),
   (.lw h, 0x14, 4, fun v => (BitVec.ofNat 32 v).toInt), (.lwu h, 0x15, 4, fun v => v),
   (.ld h, 0x16, 8, fun v => v)]

/-- What memory lists at `a` in the address space of hart `h`. -/
def Sys2Proof.listed (h : Hart) (s : State) (a : Nat) : Byte :=
  match h with
  | .ctl _ => memGet s.mem a
  | .svc _ => prvGet s.dsp.mem a
  | .wick => prvGet s.wck.mem a

/-- A load of `n` bytes at `ea` by hart `h` reads plain memory: on a control core with no store buffered the shared SRAM or
the DDR core region, as the access table grants it (07 R198); on a service core the program or the context store (06 R168);
on Wick's core its SRAM (15 R364); and no word of it has a double-bit error (01 R15). -/
def Sys2Proof.PlainRead (h : Hart) (s : State) (perms : BitVec 16) (ea n : Nat) : Prop :=
  match h with
  | .ctl k => s.tagged ea = true ∧ (s.core h).storeBuf = [] ∧ s.actCheck ⟨.ctl k, perms⟩ ea .read = none ∧
      s.damagedAt .bus ea n = false
  | .svc _ => (inProgStore ea = true ∨ inCtxStore ea = true) ∧ s.damagedAt .ctx ea n = false
  | .wick => ea < 0x10000 ∧ s.damagedAt .wick ea n = false

/-- The stores of 04 R108 with opcodes and sizes. -/
def Sys2Proof.storeForms (h : Hart) : List ((FmtM → Instr) × BitVec 6 × Nat) :=
  [(.sb h, 0x18, 1), (.sh h, 0x19, 2), (.sw h, 0x1A, 4), (.sd h, 0x1B, 8)]

/-- 04 R107, R108, R110: a load that fails a check raises its exception and changes nothing; one that passes reads
through the capability and puts the extended value, or the capability with its tag, into rt, or raises BUSERR, or stays
where the flash array stalls it (14 R337). A load from memory changes nothing else; one of plain memory gives the bytes
that memory lists at its address, the first the least significant (00 R4). LCAP with rt of 16 or more raises ILLEGAL. -/
def Obligations.LoadsGive : Prop :=
  ∀ (h : Hart) (f : FmtM) (s : State), Executes h s →
    (∀ e ∈ loadForms h,
      let ea := effAddr (s.cap h f.cb) (s.gpr h f.ra) f.imm
      match accessFault (s.cap h f.cb) [pR] ea e.2.2.1 with
      | some x => Raises (e.1 f) h s (encM e.2.1 f) x
      | none =>
        (PlainRead h s (s.cap h f.cb).perms ea e.2.2.1 →
          Gives (e.1 f) h s f.rt
            (BitVec.ofInt 64 (e.2.2.2 (leNat ((List.range e.2.2.1).map fun i => listed h s (ea + i)))))) ∧
        match (s.fetch h).2.dataRead h (s.cap h f.cb).perms ea e.2.2.1 with
        | (.error b, v) => exec (e.1 f) s = .next (v.raiseExc h (encM e.2.1 f) (excBus b (BitVec.ofNat 64 ea)))
        | (.ok x, v) =>
          exec (e.1 f) s =
            .next ((v.setCore h ((v.core h).setGpr f.rt (BitVec.ofInt 64 (e.2.2.2 x))).advance).retired h) ∧
          (regsFor h ea = false → Gives (e.1 f) h s f.rt (BitVec.ofInt 64 (e.2.2.2 x)))) ∧
    (16 ≤ f.rt.toNat → Raises (.lcap h f) h s (encM 0x17 f) excIllegal) ∧
    (f.rt.toNat < 16 →
      let ea := effAddr (s.cap h f.cb) (s.gpr h f.ra) f.imm
      match accessFault (s.cap h f.cb) [pR, pLC] ea 16 with
      | some x => Raises (.lcap h f) h s (encM 0x17 f) x
      | none =>
        match (s.fetch h).2.capRead h (s.cap h f.cb).perms ea with
        | (.error b, v) => exec (.lcap h f) s = .next (v.raiseExc h (encM 0x17 f) (excBus b (BitVec.ofNat 64 ea)))
        | (.ok x, _) => GivesCap (.lcap h f) h s (f.rt.setWidth 4) x)

/-- 04 R107-R110, R112: a store that fails a check raises its exception and stores nothing; one that reaches memory puts
its bytes at the effective address, little-endian, and sets the tag of the granule (clear, or that of the capability an
SCAP stores), and leaves every other byte and tag as it was; one that is buffered joins the hart's buffer and changes no
memory; a write of a register is the access of the register map. -/
def Obligations.StoresPut : Prop :=
  ∀ (h : Hart) (f : FmtM) (s : State), Executes h s →
    (∀ e ∈ storeForms h,
      let ea := effAddr (s.cap h f.cb) (s.gpr h f.ra) f.imm
      let bs := leBytes e.2.2 (s.gpr h f.rt).toNat
      match accessFault (s.cap h f.cb) [pW] ea e.2.2 with
      | some x => Raises (e.1 f) h s (encM e.2.1 f) x
      | none =>
        (Reaches h s (s.cap h f.cb).perms ea → regsFor h ea = false →
          Completes (e.1 f) s (Stores h s · ea bs false (s.core h).advance)) ∧
        (regsFor h ea = false → s.buffers h ea = true →
          Leaves (e.1 f) h s (Core.advance { s.core h with
            storeBuf := (s.core h).storeBuf ++
              [{ addr := ea, bytes := bs, tag := false, perms := (s.cap h f.cb).perms }] })) ∧
        (match (s.fetch h).2.dataWrite h (s.cap h f.cb).perms ea bs with
          | (.error b, v) => exec (e.1 f) s = .next (v.raiseExc h (encM e.2.1 f) (excBus b (BitVec.ofNat 64 ea)))
          | (.ok _, v) => exec (e.1 f) s = .next ((v.setCore h (v.core h).advance).retired h))) ∧
    (16 ≤ f.rt.toNat → Raises (.scap h f) h s (encM 0x1C f) excIllegal) ∧
    (f.rt.toNat < 16 →
      let ea := effAddr (s.cap h f.cb) (s.gpr h f.ra) f.imm
      let c := s.cap h (f.rt.setWidth 4)
      match accessFault (s.cap h f.cb) [pW, pSC] ea 16 with
      | some x => Raises (.scap h f) h s (encM 0x1C f) x
      | none =>
        if c.tag = true ∧ s.holdsTags h ea = false then
          Raises (.scap h f) h s (encM 0x1C f) { cause := 4, detail := 8, addr := BitVec.ofNat 64 ea }
        else
          (Reaches h s (s.cap h f.cb).perms ea → regsFor h ea = false →
            Completes (.scap h f) s (Stores h s · ea (capBytes c) c.tag (s.core h).advance)) ∧
          (match (s.fetch h).2.dataWrite h (s.cap h f.cb).perms ea (capBytes c) c.tag with
            | (.error b, v) => exec (.scap h f) s = .next (v.raiseExc h (encM 0x1C f) (excBus b (BitVec.ofNat 64 ea)))
            | (.ok _, v) => exec (.scap h f) s = .next ((v.setCore h (v.core h).advance).retired h)))

/-- The atomics of 04 R111: FN and the new value, from gd, g[rb] and the old value. -/
def Sys2Proof.atomicForms (h : Hart) : List ((FmtT → Instr) × BitVec 7 × (Word → Word → Word → Word)) :=
  [(.amoswap h, 0, fun _ b _ => b), (.amoadd h, 1, fun _ b old => old + b), (.amoand h, 2, fun _ b old => old &&& b),
   (.amoor h, 3, fun _ b old => old ||| b), (.amocas h, 4, fun d b old => if old = d then b else old)]

/-- 04 R111: an atomic on a control core reads eight bytes of the shared SRAM or the DDR core region, gd takes the old
value, the new value is stored, and the granule's tag is cleared; on a word with a double-bit error (01 R15) and
elsewhere it ends in a bus error. It needs R and W and
eight-byte alignment; the other cores raise ILLEGAL (R138, R140). Stated for a core whose store buffer is empty.
04 R138, R140: a service core and Wick's core have no atomics. -/
def Obligations.AtomicsUpdate : Prop :=
  (∀ (n : Fin 16) (f : FmtT) (s : State), Executes (.ctl n) s → (s.core (.ctl n)).storeBuf = [] →
    ∀ e ∈ atomicForms (.ctl n),
      let h : Hart := .ctl n
      let ea := effAddr (s.cap h f.cb) (s.gpr h f.ra) 0
      let old := BitVec.ofNat 64 (leNat (s.loadBytes ea 8))
      match accessFault (s.cap h f.cb) [pR, pW] ea 8 with
      | some x => Raises (e.1 f) h s (encT e.2.1 f) x
      | none =>
        s.actCheck ⟨.ctl n, (s.cap h f.cb).perms⟩ ea .rmw = none →
        if s.tagged ea = true ∧ s.damagedAt .bus ea 8 = true then
          ∃ u, Noted h s u ∧
            exec (e.1 f) s = .next ((u.eccRead ea 8).raiseExc h (encT e.2.1 f) (excBus .ecc (BitVec.ofNat 64 ea)))
        else if s.tagged ea = true then
          Completes (e.1 f) s (Stores h s · ea (leBytes 8 (e.2.2 (s.gpr h f.rd) (s.gpr h f.rb) old).toNat) false
            ((s.core h).setGpr f.rd old).advance)
        else Raises (e.1 f) h s (encT e.2.1 f) (excBus .target (BitVec.ofNat 64 ea))) ∧
  (∀ (h : Hart) (f : FmtT) (s : State), Executes h s → isCtl h = false →
    ∀ e ∈ atomicForms h, Raises (e.1 f) h s (encT e.2.1 f) excIllegal)

/-- 04 R136: y and the flags c and h of a lookup of x in a table of `n` points from X0 with STEP, `y i` being Y[i]: the
spec's pseudocode, in exact arithmetic. -/
def Sys2Proof.tableValue (x x0 step : Int) (n : Nat) (y : Nat → Int) : Int × Bool × Bool :=
  let xl := x0 + (n - 1) * step
  if x ≤ x0 then (y 0, decide (x < x0), false)
  else if xl ≤ x then (y (n - 1), decide (xl < x), decide (xl < x))
  else
    let i := (x - x0) / step
    let f := (x - x0) - i * step
    (y i.toNat + ⌈(((y (i.toNat + 1) - y i.toNat) * f : Int) : ℚ) / (step : ℚ)⌉, false, false)

/-- The points that the lookup uses, in the order it loads them (04 R136, R137). -/
def Sys2Proof.tablePoints (x x0 step : Int) (n : Nat) : List Nat :=
  if x ≤ x0 then [0]
  else if x0 + (n - 1) * step ≤ x then [n - 1]
  else [((x - x0) / step).toNat, ((x - x0) / step).toNat + 1]

/-- 04 R134-R137: on a control core and on Wick's core TLI loads the four header words and then the one or two points it
uses, each as a 32-bit load; the first load that fails a check of 04 R107 raises its exception (CAPV where the word lies
outside the bounds), and one that memory does not answer raises BUSERR, or waits for the flash array. Where the loads
succeed, `w i` being word `i` of the table as the core reads it, a malformed header raises TABLE with the table's address,
and a well-formed one gives y in bits 31:0, c in bit 32 and h in bit 33.
04 R138, R139: a service core has no TLI. -/
def Obligations.TableLookupGives : Prop :=
  (∀ (h : Hart) (f : FmtM) (s : State), Executes h s → isService h = true → Raises (.tli h f) h s (encM 0x2D f) excIllegal) ∧
  ∀ (h : Hart) (f : FmtM) (s : State) (w : Nat → Nat), Executes h s → isService h = false →
    let ct := s.cap h f.cb
    let ta := ct.base.toNat + 4 * f.imm.toNat
    let q := fun v => (BitVec.ofNat 32 v).toInt
    let n := w 0 % 512
    let x := ((s.gpr h f.ra).setWidth 32).toInt
    let loads := fun i => accessFault ct [pR] (ta + 4 * i) 4 = none ∧ Reads h s ct.perms (ta + 4 * i) 4 (w i)
    let fails := fun i =>
      match accessFault ct [pR] (ta + 4 * i) 4 with
      | some e => Raises (.tli h f) h s (encM 0x2D f) e
      | none => ∀ b, (∀ u, Noted h s u → (u.dataRead h ct.perms (ta + 4 * i) 4).1 = .error b) →
          ∃ u, Noted h s u ∧ exec (.tli h f) s = .next ((u.dataRead h ct.perms (ta + 4 * i) 4).2.raiseExc h (encM 0x2D f)
            (excBus b (BitVec.ofNat 64 (ta + 4 * i))))
    (∀ i < 4, (∀ j < i, loads j) → fails i) ∧
    ((∀ i < 4, loads i) →
      if w 0 / 2 ^ 24 = 1 ∧ w 0 / 512 % 2 ^ 15 = 0 ∧ w 3 = 0 ∧ 2 ≤ n ∧ n ≤ 256 ∧ 0 < q (w 2) ∧
          q (w 1) + (n - 1) * q (w 2) ≤ 0x7FFFFFFF then
        let ps := tablePoints x (q (w 1)) (q (w 2)) n
        (∀ k < ps.length, (∀ j < k, loads (4 + ps.getD j 0)) → fails (4 + ps.getD k 0)) ∧
        ((∀ p ∈ ps, loads (4 + p)) →
          let r := tableValue x (q (w 1)) (q (w 2)) n (fun i => q (w (4 + i)))
          Gives (.tli h f) h s f.rt
            (BitVec.ofNat 64 ((BitVec.ofInt 32 r.1).toNat + (if r.2.1 then 2 ^ 32 else 0) + (if r.2.2 then 2 ^ 33 else 0))))
      else Raises (.tli h f) h s (encM 0x2D f) { cause := 0x0A, addr := BitVec.ofNat 64 ta })

/-! ### Wenak: branches, jumps and the domain switch (04 R113-R118, R121; 05 R148-R152) -/

/-- The conditional branches of 04 R113: opcode and condition. -/
def Sys2Proof.branchForms (h : Hart) : List ((FmtB → Instr) × BitVec 6 × (Word → Word → Prop)) :=
  [(.beq h, 0x20, fun a b => a = b), (.bne h, 0x21, fun a b => a ≠ b), (.blt h, 0x22, fun a b => a.toInt < b.toInt),
   (.bge h, 0x23, fun a b => b.toInt ≤ a.toInt), (.bltu h, 0x24, fun a b => a.toNat < b.toNat),
   (.bgeu h, 0x25, fun a b => b.toNat ≤ a.toNat)]

/-- The registers `c` of a hart after a branch at its PC: the delay slot comes next, then the instruction at `T`. -/
def Sys2Proof.afterBranch (c : Core) (T : Int) : Core := { c with pc := c.pc + 4, slot := some (c.pc, BitVec.ofInt 48 T) }

/-- 04 R113, R115: a jump to `T` by the instruction at PC of hart `h`, whose link register takes A + 8: MISALIGN where
`T` is no multiple of 4, CAPV where it lies outside PCC, and otherwise the delay slot follows, then `T`. -/
def Sys2Proof.JumpsTo (i : Instr) (h : Hart) (s : State) (w : Word32) (link : Option (BitVec 5)) (T : Int) : Prop :=
  let c := s.core h
  if T % 4 ≠ 0 then Raises i h s w { cause := 3, addr := BitVec.ofInt 64 T }
  else if T < c.pcc.base.toNat ∨ (c.pcc.limit : Int) < T + 4 then
    Raises i h s w { cause := 4, detail := 4, addr := BitVec.ofInt 64 T }
  else
    Leaves i h s (afterBranch (match link with
      | some r => c.setGpr r ((c.pc + 8).setWidth 64)
      | none => c) T)

/-- 04 R113-R116, R118, R139: a branch that is taken goes to A + 4 × sext(disp16) after its delay slot, one that is not
goes on after it without a check of its target; a branch or jump in a delay slot, and one of a service core whose
displacement is below 2, raises ILLEGAL; JAL, JR and JALR are none of a service core's; the link register takes A + 8. -/
def Obligations.BranchesAndJumpsGo : Prop :=
  ∀ (h : Hart) (s : State), Executes h s →
    let c := s.core h
    (∀ (f : FmtB), ∀ e ∈ branchForms h,
      (c.slot ≠ none ∨ isService h = true ∧ f.disp.toInt < 2 → Raises (e.1 f) h s (encB e.2.1 f) excIllegal) ∧
      (c.slot = none → (isService h = true → 2 ≤ f.disp.toInt) →
        (e.2.2 (s.gpr h f.ra) (s.gpr h f.rb) →
          JumpsTo (e.1 f) h s (encB e.2.1 f) none (c.pc.toNat + 4 * f.disp.toInt)) ∧
        (¬e.2.2 (s.gpr h f.ra) (s.gpr h f.rb) → Leaves (e.1 f) h s (afterBranch c (c.pc.toNat + 8))))) ∧
    (∀ f : FmtJ,
      (c.slot ≠ none ∨ isService h = true ∧ f.disp.toInt < 2 → Raises (.j h f) h s (encJ 0x26 f) excIllegal) ∧
      (c.slot = none → (isService h = true → 2 ≤ f.disp.toInt) →
        JumpsTo (.j h f) h s (encJ 0x26 f) none (c.pc.toNat + 4 * f.disp.toInt)) ∧
      (c.slot ≠ none ∨ isService h = true → Raises (.jal h f) h s (encJ 0x27 f) excIllegal) ∧
      (c.slot = none → isService h = false →
        JumpsTo (.jal h f) h s (encJ 0x27 f) (some 31) (c.pc.toNat + 4 * f.disp.toInt))) ∧
    (∀ f : FmtA,
      (c.slot ≠ none ∨ isService h = true ∨ f.rd ≠ 0 ∨ f.rb ≠ 0 → Raises (.jr h f) h s (encA 0x28 0 f) excIllegal) ∧
      (c.slot = none → isService h = false → f.rd = 0 → f.rb = 0 →
        JumpsTo (.jr h f) h s (encA 0x28 0 f) none (s.gpr h f.ra).toNat) ∧
      (c.slot ≠ none ∨ isService h = true ∨ f.rb ≠ 0 → Raises (.jalr h f) h s (encA 0x28 1 f) excIllegal) ∧
      (c.slot = none → isService h = false → f.rb = 0 →
        JumpsTo (.jalr h f) h s (encA 0x28 1 f) (some f.rd) (s.gpr h f.ra).toNat))

/-- 04 R121, 05 R148, R150: on a control core with no store buffered, CJMP through a gate capability whose record reads
as `entry` and `data` enters the domain: PCC is the entry, PC its base, c13 the data, c15 the caller's PCC sealed as a
return capability, g31 = A + 4, and the next instruction is the shadow; the checks come in the order tag, seal,
permission, bounds, then the record (GATE).
04 R121, 05 R149: on a control core with no store buffered, CRET with a return capability in c15 restores PCC from
it, unsealed, and goes to g31; otherwise it raises CAPV with DETAIL RETURN. Neither CJMP nor CRET is any other core's
(04 R138, R140). -/
def Obligations.DomainsSwitchAndReturn : Prop :=
  (∀ (n : Fin 16) (f : FmtC) (s : State) (entry data : Cap), Executes (.ctl n) s →
    let h : Hart := .ctl n
    let c := s.core h
    let g := s.cap h f.y
    let w := encC 0x29 0 f
    (c.slot ≠ none ∨ f.x ≠ 0 ∨ f.z ≠ 0 ∨ f.u ≠ 0 → Raises (.cjmp h f) h s w excIllegal) ∧
    (c.slot = none → f.x = 0 → f.z = 0 → f.u = 0 → c.storeBuf = [] → c.defErr = none →
      if g.tag = false then Raises (.cjmp h f) h s w (excCap 1)
      else if g.otype = 0 ∨ g.otype = 0xFFFF then Raises (.cjmp h f) h s w (excCap 2)
      else if permBit g.perms pX = false ∨ permBit g.perms pR = false ∨ permBit g.perms pLC = false then
        Raises (.cjmp h f) h s w (excCap 3)
      else if g.base.toNat % 16 ≠ 0 ∨ g.limit < g.base.toNat + 32 then
        Raises (.cjmp h f) h s w (excCap 4)
      else
        ReadsCap h s g.perms g.base.toNat entry → ReadsCap h s g.perms (g.base.toNat + 16) data →
        if (entry.tag = true ∧ entry.otype = 0 ∧ permBit entry.perms pX = true) ∧
            (data = {} ∨ data.tag = true ∧ data.otype = 0) then
          Leaves (.cjmp h f) h s
            { ((c.setCap 13 data).setCap 15 { c.pcc with otype := 0xFFFF }).setGpr 31 ((c.pc + 4).setWidth 64) with
              pcc := entry, pc := entry.base, slot := none, shadow := true, waiting := false }
        else Raises (.cjmp h f) h s w (excCap 9))) ∧
  (∀ (h : Hart) (f : FmtC) (s : State), Executes h s →
    let c := s.core h
    let r := s.cap h 15
    (isCtl h = false → Raises (.cjmp h f) h s (encC 0x29 0 f) excIllegal ∧ Raises (.cret h f) h s (encC 0x29 1 f) excIllegal) ∧
    (c.slot ≠ none ∨ f.x ≠ 0 ∨ f.y ≠ 0 ∨ f.z ≠ 0 ∨ f.u ≠ 0 → Raises (.cret h f) h s (encC 0x29 1 f) excIllegal) ∧
    (isCtl h = true → c.slot = none → f.x = 0 → f.y = 0 → f.z = 0 → f.u = 0 →
      if r.tag = true ∧ r.otype = 0xFFFF then
        c.storeBuf = [] → c.defErr = none → Leaves (.cret h f) h s
          { c with pcc := { r with otype := 0 }, pc := (s.gpr h 31).setWidth 48, slot := none, shadow := true, waiting := false }
      else Raises (.cret h f) h s (encC 0x29 1 f) (excCap 6)))
/-! ### Wenak: capabilities (04 R119, R120; 05 R143, R147) -/

/-- 04 R119, R120, 05 R143, R147: CCOPY, CVOID and CPCC copy; CNARROW narrows the bounds, and raises CAPV with DETAIL
DERIVE where they would not lie in the old ones in order or would be end = base = 0; CTRIM only drops permissions. The
source of CNARROW and CTRIM must be tagged and unsealed.
05 R147, Table 5.3: CLOCK seals cY with the type in gU, and CUNLOCK unseals it, under an authority cZ with SEAL or
UNSEAL whose bounds cover the type address 0x3FFF_0000 + t; the checks come in the order tag, seal, permission, type
(DERIVE). Only a control core has them (04 R138, R140).
04 R119, R120, 05 R143: CINFO reads the parts of a capability, an encoded end of 0 as 2⁴⁸; CWITHIN and CSAME compare
two capabilities and never raise a capability exception. X must be 0. -/
def Obligations.CapabilityInstructionsAct : Prop :=
  (∀ (h : Hart) (f : FmtC) (s : State), Executes h s →
    let y := s.cap h f.y
    (f.z = 0 → f.u = 0 → GivesCap (.ccopy h f) h s f.x y ∧ GivesCap (.cvoid h f) h s f.x { y with tag := false }) ∧
    (f.z ≠ 0 ∨ f.u ≠ 0 →
      Raises (.ccopy h f) h s (encC 0x2A 0 f) excIllegal ∧ Raises (.cvoid h f) h s (encC 0x2A 5 f) excIllegal) ∧
    (f.y = 0 → f.z = 0 → f.u = 0 → GivesCap (.cpcc h f) h s f.x (s.core h).pcc) ∧
    (f.y ≠ 0 ∨ f.z ≠ 0 ∨ f.u ≠ 0 → Raises (.cpcc h f) h s (encC 0x2A 6 f) excIllegal) ∧
    (f.z ≠ 0 ∨ f.u = 31 → Raises (.cnarrow h f) h s (encC 0x2A 1 f) excIllegal) ∧
    (f.z = 0 → f.u ≠ 31 →
      let b := y.base.toNat + (s.gpr h f.u).toNat
      let e := b + (s.gpr h (f.u + 1)).toNat
      if y.tag = false then Raises (.cnarrow h f) h s (encC 0x2A 1 f) (excCap 1)
      else if y.otype ≠ 0 then Raises (.cnarrow h f) h s (encC 0x2A 1 f) (excCap 2)
      else if e ≤ y.limit ∧ ¬(e = 0 ∧ b = 0) ∧ b < 2 ^ 48 then
        GivesCap (.cnarrow h f) h s f.x { y with base := BitVec.ofNat 48 b, top := BitVec.ofNat 48 e }
      else Raises (.cnarrow h f) h s (encC 0x2A 1 f) (excCap 5)) ∧
    (f.z ≠ 0 → Raises (.ctrim h f) h s (encC 0x2A 2 f) excIllegal) ∧
    (f.z = 0 →
      if y.tag = false then Raises (.ctrim h f) h s (encC 0x2A 2 f) (excCap 1)
      else if y.otype ≠ 0 then Raises (.ctrim h f) h s (encC 0x2A 2 f) (excCap 2)
      else GivesCap (.ctrim h f) h s f.x { y with perms := y.perms &&& (s.gpr h f.u).setWidth 16 })) ∧
  (∀ (h : Hart) (f : FmtC) (s : State), Executes h s →
    let y := s.cap h f.y
    let z := s.cap h f.z
    let t := (s.gpr h f.u).setWidth 16
    let covers := fun t : BitVec 16 => z.base.toNat ≤ 0x3FFF0000 + t.toNat ∧
      0x3FFF0000 + t.toNat < z.limit
    (isCtl h = false →
      Raises (.clock h f) h s (encC 0x2A 3 f) excIllegal ∧ Raises (.cunlock h f) h s (encC 0x2A 4 f) excIllegal) ∧
    (isCtl h = true →
      if y.tag = false ∨ z.tag = false then Raises (.clock h f) h s (encC 0x2A 3 f) (excCap 1)
      else if y.otype ≠ 0 ∨ z.otype ≠ 0 then Raises (.clock h f) h s (encC 0x2A 3 f) (excCap 2)
      else if permBit z.perms pSEAL = false then Raises (.clock h f) h s (encC 0x2A 3 f) (excCap 3)
      else if t ≠ 0 ∧ t ≠ 0xFFFF ∧ covers t then GivesCap (.clock h f) h s f.x { y with otype := t }
      else Raises (.clock h f) h s (encC 0x2A 3 f) (excCap 5)) ∧
    (f.u ≠ 0 → Raises (.cunlock h f) h s (encC 0x2A 4 f) excIllegal) ∧
    (isCtl h = true → f.u = 0 →
      if y.tag = false ∨ z.tag = false then Raises (.cunlock h f) h s (encC 0x2A 4 f) (excCap 1)
      else if (y.otype = 0 ∨ y.otype = 0xFFFF) ∨ z.otype ≠ 0 then Raises (.cunlock h f) h s (encC 0x2A 4 f) (excCap 2)
      else if permBit z.perms pUNSEAL = false then Raises (.cunlock h f) h s (encC 0x2A 4 f) (excCap 3)
      else if covers y.otype then GivesCap (.cunlock h f) h s f.x { y with otype := 0 }
      else Raises (.cunlock h f) h s (encC 0x2A 4 f) (excCap 5))) ∧
  (∀ (h : Hart) (f : FmtC) (s : State), Executes h s →
    let y := s.cap h f.y
    let z := s.cap h f.z
    (f.x = 0 →
      Gives (.cinfoBase h f) h s f.u (BitVec.ofNat 64 y.base.toNat) ∧
      Gives (.cinfoEnd h f) h s f.u (BitVec.ofNat 64 (if y.top = 0 then 2 ^ 48 else y.top.toNat)) ∧
      Gives (.cinfoLength h f) h s f.u (BitVec.ofInt 64 ((y.limit : Int) - y.base.toNat)) ∧
      Gives (.cinfoPerms h f) h s f.u (BitVec.ofNat 64 y.perms.toNat) ∧
      Gives (.cinfoOtype h f) h s f.u (BitVec.ofNat 64 y.otype.toNat) ∧
      Gives (.cinfoTag h f) h s f.u (if y.tag = true then 1 else 0) ∧
      Gives (.cwithin h f) h s f.u
        (if (y.tag = true ∧ y.otype = 0) ∧ (z.tag = true ∧ z.otype = 0) ∧ y.base.toNat ≤ z.base.toNat ∧ z.limit ≤ y.limit ∧
          ((List.range 16).all fun p => !permBit z.perms p || permBit y.perms p) = true then 1 else 0) ∧
      Gives (.csame h f) h s f.u (if y = z then 1 else 0)) ∧
    (f.x ≠ 0 →
      Raises (.cinfoBase h f) h s (encInfo 0 f) excIllegal ∧ Raises (.cinfoEnd h f) h s (encInfo 1 f) excIllegal ∧
      Raises (.cinfoLength h f) h s (encInfo 2 f) excIllegal ∧ Raises (.cinfoPerms h f) h s (encInfo 3 f) excIllegal ∧
      Raises (.cinfoOtype h f) h s (encInfo 4 f) excIllegal ∧ Raises (.cinfoTag h f) h s (encInfo 5 f) excIllegal ∧
      Raises (.cwithin h f) h s (encC 0x2A 8 f) excIllegal ∧ Raises (.csame h f) h s (encC 0x2A 9 f) excIllegal))
/-! ### The block as a whole -/

/-- The block takes its commands first in, first out: with a command in front, a step is the effect of that command on the
state with the rest of the queue; on an empty queue the block idles (log entry 1). -/
def Obligations.StepRunsTheFrontCommand : Prop :=
  (∀ (c : Instr) (q : List Instr) (s : State), s.pending = c :: q → step s = exec c { s with pending := q }) ∧
  (∀ s : State, s.pending = [] → step s = .next s)

/-- No command whose operands are as its row has them (`Instr.wf`) faults or is refused: each answers a next state, and
leaves the queue of waiting commands alone. -/
def Obligations.CommandsCompleteAndKeepTheQueue : Prop :=
  ∀ (c : Instr) (s : State), c.wf = true → ∃ t, exec c s = .next t ∧ t.pending = s.pending

/-- The register map, every memory and every tag array keep their canonical form over any step from any state that has
it: addresses rise strictly, and no entry equals what an unlisted address reads as. So equal contents are equal data. -/
def Obligations.StepKeepsCanonicalForm : Prop :=
  ∀ s t : State, Canonical s → step s = .next t → Canonical t

/-- 13 R320: over any step from any state, the lifecycle state never moves back, whatever the command; and an advance
under way never aims at an earlier state. -/
def Obligations.LifecycleNeverMovesBack : Prop :=
  ∀ (L : Nat) (s t : State), LcAtLeast L s → step s = .next t → LcAtLeast L t

/-- The state after reset has its register map, memories and tags in canonical form, an empty queue, and the lifecycle
state BLANK (log entry 2). -/
def Obligations.ResetIsCanonical : Prop :=
  Canonical State.reset ∧ State.reset.pending = [] ∧ State.reset.sys.lc = .blank ∧ State.reset.sys.advancing = none

/-! ### Wenak: encodings (04 R94-R98) -/

/-- The instructions of format A, with their opcodes and functions (04 Tables 4.2 to 4.8). -/
def Sys2Proof.formsA (h : Hart) : List ((FmtA → Instr) × BitVec 6 × BitVec 11) :=
  [(.add h, 0x01, 0x00), (.sub h, 0x01, 0x01), (.and h, 0x01, 0x02), (.or h, 0x01, 0x03), (.xor h, 0x01, 0x04),
   (.nor h, 0x01, 0x05), (.slt h, 0x01, 0x06), (.sltu h, 0x01, 0x07), (.sll h, 0x01, 0x08), (.srl h, 0x01, 0x09),
   (.sra h, 0x01, 0x0A), (.movz h, 0x01, 0x0B), (.movn h, 0x01, 0x0C), (.min h, 0x01, 0x0D), (.max h, 0x01, 0x0E),
   (.minu h, 0x01, 0x0F), (.maxu h, 0x01, 0x10), (.clz h, 0x01, 0x11), (.popc h, 0x01, 0x12), (.bswap h, 0x01,
   0x13), (.bswapw h, 0x01, 0x14), (.addw h, 0x01, 0x18), (.subw h, 0x01, 0x19), (.sllw h, 0x01, 0x1A), (.srlw h,
   0x01, 0x1B), (.sraw h, 0x01, 0x1C), (.mul h, 0x01, 0x20), (.mulh h, 0x01, 0x21), (.mulhu h, 0x01, 0x22), (.div h,
   0x01, 0x24), (.divu h, 0x01, 0x25), (.rem h, 0x01, 0x26), (.remu h, 0x01, 0x27), (.addv h, 0x01, 0x28), (.subv h,
   0x01, 0x29), (.mulv h, 0x01, 0x2A), (.jr h, 0x28, 0x00), (.jalr h, 0x28, 0x01)]

/-- The instructions of format I, with their opcodes and functions (04 Tables 4.2 to 4.8). -/
def Sys2Proof.formsI (h : Hart) : List ((FmtI → Instr) × BitVec 6) :=
  [(.addi h, 0x02), (.addiw h, 0x03), (.andi h, 0x04), (.ori h, 0x05), (.xori h, 0x06), (.slti h, 0x07), (.sltiu h,
   0x08), (.lui h, 0x09)]

/-- The instructions of format I of SHI, with their opcodes and functions (04 Tables 4.2 to 4.8). -/
def Sys2Proof.formsShift (h : Hart) : List ((FmtShift → Instr) × BitVec 4) :=
  [(.slli h, 0x00), (.srli h, 0x01), (.srai h, 0x02), (.slliw h, 0x04), (.srliw h, 0x05), (.sraiw h, 0x06)]

/-- The instructions of format I of BFX, with their opcodes and functions (04 Tables 4.2 to 4.8). -/
def Sys2Proof.formsField (h : Hart) : List ((FmtField → Instr) × BitVec 2) :=
  [(.extu h, 0x00), (.exts h, 0x01), (.ins h, 0x02)]

/-- The instructions of format M, with their opcodes and functions (04 Tables 4.2 to 4.8). -/
def Sys2Proof.formsM (h : Hart) : List ((FmtM → Instr) × BitVec 6) :=
  [(.lb h, 0x10), (.lbu h, 0x11), (.lh h, 0x12), (.lhu h, 0x13), (.lw h, 0x14), (.lwu h, 0x15), (.ld h, 0x16),
   (.lcap h, 0x17), (.sb h, 0x18), (.sh h, 0x19), (.sw h, 0x1A), (.sd h, 0x1B), (.scap h, 0x1C), (.tli h, 0x2D)]

/-- The instructions of format T, with their opcodes and functions (04 Tables 4.2 to 4.8). -/
def Sys2Proof.formsT (h : Hart) : List ((FmtT → Instr) × BitVec 7) :=
  [(.amoswap h, 0x00), (.amoadd h, 0x01), (.amoand h, 0x02), (.amoor h, 0x03), (.amocas h, 0x04)]

/-- The instructions of format B, with their opcodes and functions (04 Tables 4.2 to 4.8). -/
def Sys2Proof.formsB (h : Hart) : List ((FmtB → Instr) × BitVec 6) :=
  [(.beq h, 0x20), (.bne h, 0x21), (.blt h, 0x22), (.bge h, 0x23), (.bltu h, 0x24), (.bgeu h, 0x25)]

/-- The instructions of format J, with their opcodes and functions (04 Tables 4.2 to 4.8). -/
def Sys2Proof.formsJ (h : Hart) : List ((FmtJ → Instr) × BitVec 6) :=
  [(.j h, 0x26), (.jal h, 0x27)]

/-- The instructions of format C, with their opcodes and functions (04 Tables 4.2 to 4.8). -/
def Sys2Proof.formsC (h : Hart) : List ((FmtC → Instr) × BitVec 6 × BitVec 9) :=
  [(.cjmp h, 0x29, 0x00), (.cret h, 0x29, 0x01), (.ccopy h, 0x2A, 0x00), (.cnarrow h, 0x2A, 0x01), (.ctrim h, 0x2A,
   0x02), (.clock h, 0x2A, 0x03), (.cunlock h, 0x2A, 0x04), (.cvoid h, 0x2A, 0x05), (.cpcc h, 0x2A, 0x06), (.cwithin
   h, 0x2A, 0x08), (.csame h, 0x2A, 0x09)]

/-- The instructions of format C of CINFO, with their opcodes and functions (04 Tables 4.2 to 4.8). -/
def Sys2Proof.formsInfo (h : Hart) : List ((FmtC → Instr) × BitVec 4) :=
  [(.cinfoBase h, 0x00), (.cinfoEnd h, 0x01), (.cinfoLength h, 0x02), (.cinfoPerms h, 0x03), (.cinfoOtype h, 0x04),
   (.cinfoTag h, 0x05)]

/-- The instructions of format S, with their opcodes and functions (04 Tables 4.2 to 4.8). -/
def Sys2Proof.formsS (h : Hart) : List ((FmtS → Instr) × BitVec 4) :=
  [(.nop h, 0x00), (.srd h, 0x01), (.swr h, 0x02), (.trap h, 0x03), (.eret h, 0x04), (.hold h, 0x05), (.wait h,
   0x06), (.fence h, 0x07), (fun f => .endCtx h f 0, 0x08)]

/-- The instructions of format E, with their opcodes and functions (04 Tables 4.2 to 4.8). -/
def Sys2Proof.formsE (h : Hart) : List ((FmtE → Instr) × BitVec 4) :=
  [(.eput h, 0x00), (.eiss h, 0x01), (.ewait h, 0x02), (.epoll h, 0x03), (.eabort h, 0x04)]

/-- 04 R94-R98, Tables 4.2 to 4.8: every instruction of Wenak, with every operand at every value its format holds,
encodes to the word of its format, opcode and function, and that word decodes to it on every core. CINFO holds its
selector in place of Z. -/
def Obligations.InstructionsDecodeFromTheirWords : Prop :=
  ∀ h : Hart,
    (∀ e ∈ formsA h, ∀ f, decodeWenak h (encA e.2.1 e.2.2 f) = e.1 f ∧ encodeWenak (e.1 f) = some (encA e.2.1 e.2.2 f)) ∧
    (∀ e ∈ formsI h, ∀ f, decodeWenak h (encI e.2 f) = e.1 f ∧ encodeWenak (e.1 f) = some (encI e.2 f)) ∧
    (∀ e ∈ formsShift h, ∀ f, decodeWenak h (encShift e.2 f) = e.1 f ∧ encodeWenak (e.1 f) = some (encShift e.2 f)) ∧
    (∀ e ∈ formsField h, ∀ f, decodeWenak h (encField e.2 f) = e.1 f ∧ encodeWenak (e.1 f) = some (encField e.2 f)) ∧
    (∀ e ∈ formsM h, ∀ f, decodeWenak h (encM e.2 f) = e.1 f ∧ encodeWenak (e.1 f) = some (encM e.2 f)) ∧
    (∀ e ∈ formsT h, ∀ f, decodeWenak h (encT e.2 f) = e.1 f ∧ encodeWenak (e.1 f) = some (encT e.2 f)) ∧
    (∀ e ∈ formsB h, ∀ f, decodeWenak h (encB e.2 f) = e.1 f ∧ encodeWenak (e.1 f) = some (encB e.2 f)) ∧
    (∀ e ∈ formsJ h, ∀ f, decodeWenak h (encJ e.2 f) = e.1 f ∧ encodeWenak (e.1 f) = some (encJ e.2 f)) ∧
    (∀ e ∈ formsC h, ∀ f, decodeWenak h (encC e.2.1 e.2.2 f) = e.1 f ∧ encodeWenak (e.1 f) = some (encC e.2.1 e.2.2 f)) ∧
    (∀ e ∈ formsInfo h, ∀ f, f.z = 0 → decodeWenak h (encInfo e.2 f) = e.1 f ∧ encodeWenak (e.1 f) = some (encInfo e.2 f)) ∧
    (∀ e ∈ formsS h, ∀ f, decodeWenak h (encS e.2 f) = e.1 f ∧ encodeWenak (e.1 f) = some (encS e.2 f)) ∧
    (∀ e ∈ formsE h, ∀ f, decodeWenak h (encE e.2 f) = e.1 f ∧ encodeWenak (e.1 f) = some (encE e.2 f)) ∧
    (∀ r : BitVec 26, decodeWenak h (0x00#6 ++ r) = .ill h false r ∧ encodeWenak (.ill h false r) = some (0x00#6 ++ r) ∧
      decodeWenak h (0x3F#6 ++ r) = .ill h true r ∧ encodeWenak (.ill h true r) = some (0x3F#6 ++ r))

/-- 04 R94-R98: every 32-bit word decodes to exactly one instruction, reserved words among them, and that instruction
encodes to the word it was read from: no bit of an encoding is dropped. -/
def Obligations.EveryWordEncodesBack : Prop :=
  ∀ (h : Hart) (w : Word32), encodeWenak (decodeWenak h w) = some w

/-- Words written out from 04: the five of the example at R118, NOP, SRD, CCOPY, EPUT, AMOADD, JR, the shift SRAI and the
field EXTS decode to the instructions they stand for; 04 R98: a word with a reserved opcode, function or selector is
RESERVED. -/
def Obligations.WordsDecodeRight : Prop :=
  ∀ h : Hart,
    decodeWenak h 0x44802004 = .lbu h { rt := 4, ra := 0, cb := 2, imm := 4 } ∧
    decodeWenak h 0x80800003 = .beq h { ra := 4, rb := 0, disp := 3 } ∧
    decodeWenak h 0x08A00001 = .addi h { rd := 5, ra := 0, imm := 1 } ∧
    decodeWenak h 0x08A50002 = .addi h { rd := 5, ra := 5, imm := 2 } ∧
    decodeWenak h 0x6CA03000 = .sd h { rt := 5, ra := 0, cb := 3, imm := 0 } ∧
    decodeWenak h 0xB0000000 = .nop h { rd := 0, ra := 0, imm := 0 } ∧
    decodeWenak h 0b10110000101000000001000000000010 = .srd h { rd := 5, ra := 0, imm := 2 } ∧
    decodeWenak h 0b10101000010011000000000000000000 = .ccopy h { x := 1, y := 3, z := 0, u := 0 } ∧
    decodeWenak h 0b10111000000000110010000000000111 = .eput h { rd := 0, ra := 3, ce := 2, imm := 7 } ∧
    decodeWenak h 0b01110100001000100001100100000001 = .amoadd h { rd := 1, ra := 2, rb := 3, cb := 2 } ∧
    decodeWenak h 0b10100000000111110000000000000000 = .jr h { rd := 0, ra := 31, rb := 0 } ∧
    decodeWenak h 0b00101000001000100010000000000111 = .srai h { rd := 1, ra := 2, mid := 0, sh := 7 } ∧
    decodeWenak h 0b00101100001000100100000010001111 = .exts h { rd := 1, ra := 2, mid := 0, pos := 2, len1 := 15 } ∧
    (∀ w ∈ [0x30000000#32, 0x78000000, 0x04000015, 0x28003000, 0x2C00C000, 0x74000005, 0xA0000002, 0xA4000002, 0xA800000A,
        0xA8018007, 0xB0009000, 0xB8000500, 0xC0000000, 0xF8000000],
      decodeWenak h w = .reservedInstruction h w)
/-! ### Wenak: system instructions (04 R97, R98, R122-R126) -/

/-- The system registers that hart `h` has (04 Table 4.7): number, permission in PCC, value. -/
def Sys2Proof.sysValues (h : Hart) (s : State) : List (Nat × List Nat × Word) :=
  let c := s.core h
  let both := fun id time : Word => [(0x000, [], id), (0x001, [pTIME], time)]
  let control : List (Nat × List Nat × Word) :=
    [(0x010, [pSYS], c.estat), (0x011, [pSYS], c.epc), (0x012, [pSYS], c.ebadaddr), (0x013, [pSYS], c.einstr),
     (0x014, [pSYS], c.ectrl), (0x015, [pSYS], c.evec), (0x020, [pSYS], c.ien),
     (0x021, [pSYS], BitVec.ofNat 64 (s.ipend h)), (0x030, [], BitVec.ofNat 64 c.holdcnt)]
  match h with
  | .ctl n => both (BitVec.ofNat 64 n.val) (BitVec.ofNat 64 s.tb) ++ control
  | .svc k => both (BitVec.ofNat 64 (0x100 + k.val)) (BitVec.ofNat 64 s.tb) ++
      [(0x002, [], BitVec.ofNat 64 ((s.ctxOn k).getD 0))]
  | .wick => both (Config.wickIndex.setWidth 64) (BitVec.ofNat 64 ((s.rd TMP_TSC).toNat * 1000000000 / 32768)) ++ control

/-- 04 R123, Table 4.7: SRD gives the system register its number names, where PCC carries its permission, and raises CAPV
with DETAIL PERM where it does not; SWR writes ESTAT, EPC, ECTRL, EVEC and IEN, reserved bits as zero, once the core's
stores have completed; a number that the core's profile does not have, or SWR to a read-only one, raises ILLEGAL. Every
other register of the core and all else stays. -/
def Obligations.SystemRegistersReadAndWrite : Prop :=
  ∀ (h : Hart) (f : FmtS) (s : State), Executes h s →
    let c := s.core h
    let v := s.gpr h f.ra
    (∀ e ∈ sysValues h s, f.ra = 0 → f.imm.toNat = e.1 →
      if e.2.1.all (permBit c.pcc.perms) = true then Gives (.srd h f) h s f.rd e.2.2
      else Raises (.srd h f) h s (encS 1 f) (excCap 3)) ∧
    (f.ra ≠ 0 ∨ f.imm.toNat ∉ (sysValues h s).map (·.1) → Raises (.srd h f) h s (encS 1 f) excIllegal) ∧
    (∀ e ∈ ([(0x010, { c with estat := v &&& ~~~0x2020#64 }), (0x011, { c with epc := v &&& 0xFFFFFFFFFFFC#64 }),
        (0x014, { c with ectrl := v &&& 7 }), (0x015, { c with evec := v &&& 0xFFFFFFFFFFE0#64 }),
        (0x020, { c with ien := v &&& 0xFFFF })] : List (Nat × Core)),
      isService h = false → f.rd = 0 → f.imm.toNat = e.1 →
      if permBit c.pcc.perms pSYS = true then
        c.storeBuf = [] → c.defErr = none → Leaves (.swr h f) h s e.2.advance
      else Raises (.swr h f) h s (encS 2 f) (excCap 3)) ∧
    (isService h = true ∨ f.rd ≠ 0 ∨ f.imm.toNat ∉ [0x010, 0x011, 0x014, 0x015, 0x020] →
      Raises (.swr h f) h s (encS 2 f) excIllegal)

/-- 04 R97, R98, R122, R125, R126, 05 R162: NOP changes nothing but the place; ILL raises ILLEGAL, a reserved word
RESERVED, TRAP raises TRAP; HOLD n opens a window over the next n instructions that retire, and WAIT retires at once
where an enabled line is pending and halts the core otherwise; both raise ILLEGAL inside a window, in a delay slot (R116)
and on a service core; n runs from 1 to 512. -/
def Obligations.ControlInstructionsAct : Prop :=
  ∀ (h : Hart) (f : FmtS) (s : State), Executes h s →
    let c := s.core h
    let bare := f.rd = 0 ∧ f.ra = 0 ∧ f.imm = 0
    let barred := isService h = true ∨ c.slot ≠ none
    (bare → Leaves (.nop h f) h s c.advance) ∧ (¬bare → Raises (.nop h f) h s (encS 0 f) excIllegal) ∧
    (∀ r : BitVec 26, Raises (.ill h false r) h s (0x00#6 ++ r) excIllegal ∧ Raises (.ill h true r) h s (0x3F#6 ++ r) excIllegal) ∧
    (∀ w : Word32, Raises (.reservedInstruction h w) h s w excReserved) ∧
    (¬barred → f.rd = 0 → f.ra = 0 → Raises (.trap h f) h s (encS 3 f) { cause := 8 }) ∧
    (barred ∨ f.rd ≠ 0 ∨ f.ra ≠ 0 → Raises (.trap h f) h s (encS 3 f) excIllegal) ∧
    (¬barred → f.rd = 0 → f.ra = 0 → 1 ≤ f.imm.toNat → f.imm.toNat ≤ 512 → c.holdcnt = 0 →
      Leaves (.hold h f) h s { c with holdcnt := f.imm.toNat + 1 }.advance) ∧
    (barred ∨ f.rd ≠ 0 ∨ f.ra ≠ 0 ∨ f.imm.toNat = 0 ∨ 512 < f.imm.toNat ∨ c.holdcnt ≠ 0 →
      Raises (.hold h f) h s (encS 5 f) excIllegal) ∧
    (¬barred → bare → c.holdcnt = 0 →
      ((∃ l < 16, c.ien.getLsbD l = true ∧ s.pending? h l = true) → Leaves (.wait h f) h s c.advance) ∧
      ((∀ l < 16, c.ien.getLsbD l = true → s.pending? h l = false) →
        ∃ u, Noted h s u ∧
          exec (.wait h f) s = .next ((u.setCore h { c with waiting := true }).accessesOver h))) ∧
    (barred ∨ ¬bare ∨ c.holdcnt ≠ 0 → Raises (.wait h f) h s (encS 6 f) excIllegal)

/-- 04 R112: FENCE completes every earlier store of the core: a core with none goes on, one with some has an empty buffer
after it; a service core has no FENCE. 07 R204, R205: STORE_BUFFER_DRAIN lets the oldest buffered store enter the
interconnect, and INTERCONNECT_ACCESS_COMPLETE puts the oldest that has entered into memory, bytes and tag, and takes it
from the buffer. -/
def Obligations.BufferedStoresComplete : Prop :=
  (∀ (h : Hart) (f : FmtS) (s : State), Executes h s →
    (isService h = true ∨ f.rd ≠ 0 ∨ f.ra ≠ 0 ∨ f.imm ≠ 0 → Raises (.fence h f) h s (encS 7 f) excIllegal) ∧
    (isService h = false → f.rd = 0 → f.ra = 0 → f.imm = 0 →
      ((s.core h).storeBuf = [] → (s.core h).defErr = none → Leaves (.fence h f) h s (s.core h).advance) ∧
      (∀ n, h = .ctl n → Completes (.fence h f) s fun t => (t.core h).storeBuf = []))) ∧
  (∀ (n : Fin 16) (b : BufStore) (rest : List BufStore) (s : State), s.powered = true →
    (s.core (.ctl n)).storeBuf = b :: rest → b.entered = false → s.actCheck ⟨.ctl n, b.perms⟩ b.addr .write = none →
    exec (.storeBufferDrain n) s =
      .next (s.setCore (.ctl n) { s.core (.ctl n) with storeBuf := { b with entered := true } :: rest })) ∧
  (∀ (dt : Nat) (n : Fin 16) (b : BufStore) (rest : List BufStore) (s : State),
    let u := s.elapse dt
    u.powered = true → (u.core (.ctl n)).storeBuf = b :: rest → b.entered = true → b.old = false →
    (u.writable b.addr = true → b.tag = false →
      exec (.interconnectAccessComplete dt n) s =
        .next ((u.setCore (.ctl n) { u.core (.ctl n) with storeBuf := rest }).storeBytes b.addr b.bytes)) ∧
    (u.writable b.addr = false → (u.core (.ctl n)).defErr = none →
      exec (.interconnectAccessComplete dt n) s =
        .next (u.setCore (.ctl n) { u.core (.ctl n) with storeBuf := rest, defErr := some (b.addr, false) })))

/-! ### Wenak: exceptions and interrupts (05 R153-R164) -/

/-- The frame of 05 Table 5.6: the registers as they were before entry. -/
def Sys2Proof.frameBytes (c : Core) : List Byte :=
  capBytes c.pcc ++ capBytes (c.cap 14) ++ leBytes 8 c.epc.toNat ++ leBytes 8 c.estat.toNat ++ leBytes 8 c.ebadaddr.toNat ++
    leBytes 8 c.einstr.toNat

/-- `E` is ESTAT as entry writes it for `e` (05 R158, R167). -/
def Sys2Proof.estatIs (E : Word) (e : Entry) (rsv : Bool) : Prop :=
  bitsOf E 18 46 = e.tgt.toNat / 4 ∧ E.getLsbD 17 = e.sh ∧ E.getLsbD 16 = e.bd ∧ E.getLsbD 15 = rsv ∧ E.getLsbD 14 = e.imp ∧
    E.getLsbD 13 = false ∧ E.getLsbD 12 = false ∧ bitsOf E 8 4 = e.x.detail ∧ E.getLsbD 7 = e.x.fetch ∧
    E.getLsbD 6 = e.more ∧ E.getLsbD 5 = false ∧ bitsOf E 0 5 = e.x.cause

/-- 05 R157, R158, 04 R112: every earlier store of the core completes first (`settle`). Then, on a control core whose
RSV is 0, whose vector capability `v` can be read, is tagged and unsealed and has X, and whose c14 is a usable stack in
the shared SRAM that the access table lets it write: entry writes the frame at c14.end - 64, tags included, moves
c14.end down by 64, sets ESTAT, EPC, EBADADDR and EINSTR, closes the hold window, and goes to the vector capability's
base under it. Every other register, every other byte and tag of memory and everything else is as it was, but that the
core's accesses that the flash array stalled have ended (14 R337).
05 R159: an exception that arises while RSV is 1, or whose vector capability is untagged, sealed or without X, is a
double fault: the core reports it in ESTAT, EPC, EBADADDR and EINSTR with RSV = 1 and stops; its source is signalled; it
writes no frame. -/
def Obligations.ExceptionEntrySavesAndJumps : Prop :=
  (∀ (n : Fin 16) (s : State) (e : Entry) (v : Cap),
    let h : Hart := .ctl n
    let u := s.settle h
    let c := u.core h
    let st := c.cap 14
    let F := st.limit - 64
    c.estat.getLsbD 15 = false → u.readVec h c.evec.toNat = (.ok v, u) →
    v.tag = true → v.otype = 0 → permBit v.perms pX = true →
    st.tag = true → st.otype = 0 → permBit st.perms pW = true → permBit st.perms pSC = true →
    st.base.toNat + 64 ≤ st.limit → st.limit % 16 = 0 → 0x20000000 ≤ F → F + 64 ≤ 0x22000000 →
    (∀ o ∈ [0x00, 0x10, 0x20, 0x28, 0x30, 0x38], u.actCheck ⟨.ctl n, st.perms⟩ (F + o) .write = none) →
    e.x.cause < 32 → e.x.detail < 16 →
    let t := s.enterExc h e
    (∃ E, estatIs E e false ∧
      t.core h = { c.setCap 14 { st with top := BitVec.ofNat 48 F } with
        estat := E, epc := e.epc.setWidth 64 &&& 0xFFFFFFFFFFFC#64, ebadaddr := e.x.addr, einstr := e.instr, holdcnt := 0
        pcc := v, pc := v.base, slot := none, shadow := false, waiting := false }) ∧
    (∀ a, memGet t.mem a = if F ≤ a ∧ a < F + 64 then (frameBytes c).getD (a - F) 0 else memGet u.mem a) ∧
    (∀ a, tagAt t.tags a = if a / 16 = F / 16 then c.pcc.tag else if a / 16 = F / 16 + 1 then st.tag
      else if a / 16 = F / 16 + 2 ∨ a / 16 = F / 16 + 3 then false else tagAt u.tags a) ∧
    t.damaged = healed u.damaged .bus F 64 ∧
    t = { u with mem := t.mem, tags := t.tags, damaged := t.damaged, cores := t.cores
                 regs := (u.accessesOver h).regs, flc := (u.accessesOver h).flc } ∧
    (∀ m : Fin 16, m ≠ n → t.core (.ctl m) = u.core (.ctl m)) ∧ t.core .wick = u.core .wick) ∧
  (∀ (n : Fin 16) (s : State) (e : Entry) (v : Cap),
    let h : Hart := .ctl n
    let u := s.settle h
    let c := u.core h
    s.powered = true → e.x.cause < 32 → e.x.detail < 16 →
    c.estat.getLsbD 15 = true ∨ u.readVec h c.evec.toNat = (.ok v, u) ∧ (v.tag = false ∨ v.otype ≠ 0 ∨ permBit v.perms pX = false) →
    let t := s.enterExc h e
    (∃ E, estatIs E e true ∧ t.core h =
      { c with estat := E, epc := e.epc.setWidth 64 &&& 0xFFFFFFFFFFFC#64, ebadaddr := e.x.addr, einstr := e.instr, waiting := false }) ∧
    t.fget (SYS_CORE_CTRL_STATE n) = 3 ∧ t.on (stkyFld (32 + n.val)) = true ∧ t.mem = u.mem ∧ t.tags = u.tags)

/-- 05 R153, R155, R156, R163, R164: an exception of an instruction enters with EPC at it, or at the branch whose delay
slot it stands in, with BD set and TGT where the branch goes on; INTERRUPT_ENTRY on a running control core with IE set,
RSV clear, no hold window and no delay slot takes the pending enabled line of least number, a WAIT retiring first;
WAIT_WAKE ends a WAIT without entry while IE is 0; DEFERRED_BUS_ERROR enters with IMP set and the address of the store.
While the flash array stalls an access of its instruction (14 R337) a core enters nothing, and the instruction stays; the
issue slot counts as front-starved where the fetch waits and as back-starved where a data access does (19 R419, log entry
160). Stated for a core that no STOP stops and that is in no entry. -/
def Obligations.InterruptsAndDeferredErrorsEnter : Prop :=
  ∀ (n : Fin 16) (s : State),
    let h : Hart := .ctl n
    let c := s.core h
    let running := s.powered = true ∧ s.fget (SYS_CORE_CTRL_STATE n) = 1 ∧ s.stopDue h = false ∧ s.entering n = false
    let due := fun l => c.ien.getLsbD l = true ∧ s.pending? h l = true
    let first := fun l => l < 16 ∧ due l ∧ ∀ k < l, ¬due k
    (∀ w x, x.wait = true → s.raiseExc h w x = s.countSlot h (if x.fetch then 2 else 3)) ∧
    (∀ w x, x.wait = false → s.raiseExc h w x = ((s.accessesOver h).countSlot h 1).enterExc h
      { x := x, instr := if x.fetch then 0 else w.setWidth 64
        epc := (match c.slot with
          | some (a, _) => a
          | none => c.pc)
        bd := c.slot.isSome
        tgt := (match c.slot with
          | some (_, t) => t
          | none => 0)
        sh := c.shadow }) ∧
    (∀ l, running → first l → c.estat.getLsbD 12 = true → c.estat.getLsbD 15 = false → c.holdcnt = 0 → c.slot = none →
      c.defErr = none → s.midAccess h = false →
      (c.waiting = false → exec (.interruptEntry h) s =
        .next (s.enterExc h { x := { cause := 0x10, detail := l }, epc := c.pc, sh := c.shadow })) ∧
      (c.waiting = true → ∃ t, Retires h s t c.advance ∧ exec (.interruptEntry h) s =
        .next (t.enterExc h { x := { cause := 0x10, detail := l }, epc := c.pc + 4 }))) ∧
    (∀ l, running → first l → c.estat.getLsbD 12 = false → c.defErr = none → s.midAccess h = false → c.waiting = true →
      Leaves (.waitWake h) h s c.advance) ∧
    (∀ a more, running → c.defErr = some (a, more) → c.slot = none → s.midAccess h = false →
      exec (.deferredBusError n) s = .next ((s.setCore h { c with defErr := none }).enterExc h
        { x := { cause := 5, detail := 4, addr := BitVec.ofNat 64 a }, epc := c.pc, sh := c.shadow, imp := true, more := more }))

/-- 05 R160: ERET on a control core asks SYS in PCC (CAPV, PERM), a tagged and unsealed c14 and a stack capability, in the
frame, whose base is c14's and whose end is 64 above c14's (CAPV, FRAME); it then
restores PCC, c14, EPC, ESTAT, EBADADDR and EINSTR from the frame and goes to EPC, or, where BD was set, executes the
instruction at EPC + 4 as a delay slot and goes on at TGT. Stated for a core with no store buffered whose RSV is 0. A
service core has no ERET, and none may stand in a delay slot. -/
def Obligations.ExceptionReturnRestores : Prop :=
  ∀ (h : Hart) (f : FmtS) (s : State) (pcc b : Cap) (epc estat bad instr : Nat), Executes h s →
    let c := s.core h
    let st := s.cap h 14
    let F := st.limit
    (isService h = true ∨ c.slot ≠ none ∨ f.rd ≠ 0 ∨ f.ra ≠ 0 ∨ f.imm ≠ 0 → Raises (.eret h f) h s (encS 4 f) excIllegal) ∧
    (isService h = false → c.slot = none → f.rd = 0 → f.ra = 0 → f.imm = 0 →
      (permBit c.pcc.perms pSYS = false → Raises (.eret h f) h s (encS 4 f) (excCap 3)) ∧
      (permBit c.pcc.perms pSYS = true → c.storeBuf = [] → c.defErr = none →
        (st.tag = false ∨ st.otype ≠ 0 → Raises (.eret h f) h s (encS 4 f) (excCap 7)) ∧
        (st.tag = true → st.otype = 0 → c.estat.getLsbD 15 = false →
          ReadsCap h s st.perms F pcc → ReadsCap h s st.perms (F + 0x10) b →
          (∀ i < 4, regsFor h (F + 0x20 + 8 * i) = false) → Reads h s st.perms (F + 0x20) 8 epc →
          Reads h s st.perms (F + 0x28) 8 estat → Reads h s st.perms (F + 0x30) 8 bad → Reads h s st.perms (F + 0x38) 8 instr →
          if b.tag = true ∧ st.base = b.base ∧ F + 64 = b.limit then
            Leaves (.eret h f) h s { c.setCap 14 b with
              pcc := pcc
              epc := BitVec.ofNat 64 epc &&& 0xFFFFFFFFFFFC#64, estat := BitVec.ofNat 64 estat &&& ~~~0x2020#64
              ebadaddr := BitVec.ofNat 64 bad, einstr := BitVec.ofNat 64 instr &&& 0xFFFFFFFF#64
              pc := if c.estat.getLsbD 16 = true then c.epc.setWidth 48 + 4 else c.epc.setWidth 48
              slot := if c.estat.getLsbD 16 = true then some (c.epc.setWidth 48, BitVec.ofNat 48 (4 * bitsOf c.estat 18 46)) else none
              shadow := false, waiting := false }
          else Raises (.eret h f) h s (encS 4 f) (excCap 7))))

/-! ### Wenak: engine instructions and END (04 R127-R133; 06 R174) -/

/-- After an instruction of hart `h` has made the state `t`, the next instruction follows, and the one retires. -/
def Sys2Proof.follows (h : Hart) (t : State) : State := (t.setCore h (t.core h).advance).retired h

/-- 04 R128-R133 on a service core that runs context `c`: EPUT stages a word; EISS issues EW0 up to EW[imm8[3:0]] under
ce to the pool as the lowest free ticket, and raises RESERVED for a reserved pool, CAPV for ce, and ENGINE where no
ticket is free or the pool rejects the command; EWAIT ends the SC stage and parks the context, or returns it to READY
where its ticket has completed, and in the next run gives the word and frees the ticket; EPOLL gives the word or 0;
EABORT completes an outstanding ticket with STATUS 0xFFFF and leaves no command of it in a queue. A free ticket raises
ENGINE. The control cores and Wick's core have none of them (R138, R140).
04 R127, 06 R174: END on a service core that runs context `c` ends it: the context is ENDING, its tickets are gone, its
core is free, and its answer is the response that its response block describes; a block whose STATUS a program may not
answer, whose PLEN exceeds RESP_MAX, or which holds a word with a double-bit error (01 R15), sets DSP_EVT.RESP_BAD and
answers FAULT. Stated for an answer that commits nothing
(06 R175). END with operands or in a delay slot, and END on any other core, raises ILLEGAL. -/
def Obligations.EngineInstructionsAct : Prop :=
  ((∀ (h : Hart) (f : FmtE) (s : State), Executes h s → isService h = false →
    Raises (.eput h f) h s (encE 0 f) excIllegal ∧ Raises (.eiss h f) h s (encE 1 f) excIllegal ∧
    Raises (.ewait h f) h s (encE 2 f) excIllegal ∧ Raises (.epoll h f) h s (encE 3 f) excIllegal ∧
    Raises (.eabort h f) h s (encE 4 f) excIllegal) ∧
  (∀ (k : Fin 64) (c : Nat) (f : FmtE) (s : State),
    let h : Hart := .svc k
    let x := s.ctx c
    let ce := s.cap h f.ce
    let t := (s.gpr h f.ra).toNat % 8
    let pool := f.imm.toNat / 64
    Executes h s → s.ctxOn k = some c →
    (if f.rd = 0 ∧ f.ce = 0 ∧ f.imm.toNat < 16 then
      exec (.eput h f) s = .next (follows h (s.setCtx c { x with ew := sput 0 x.ew f.imm.toNat (s.gpr h f.ra) }))
     else Raises (.eput h f) h s (encE 0 f) excIllegal) ∧
    (2 ≤ pool → Raises (.eiss h f) h s (encE 1 f) excReserved) ∧
    (pool < 2 → f.ra ≠ 0 ∨ f.imm.toNat / 16 % 4 ≠ 0 → Raises (.eiss h f) h s (encE 1 f) excIllegal) ∧
    (pool < 2 → f.ra = 0 → f.imm.toNat / 16 % 4 = 0 →
      if ce.tag = false then Raises (.eiss h f) h s (encE 1 f) (excCap 1)
      else if ce.otype ≠ 0 then Raises (.eiss h f) h s (encE 1 f) (excCap 2)
      else if permBit ce.perms pENG = false then Raises (.eiss h f) h s (encE 1 f) (excCap 3)
      else
        ((∀ i < 8, s.ticket c i ≠ .free) → Raises (.eiss h f) h s (encE 1 f) { cause := 9 }) ∧
        (∀ i d, i < 8 → s.ticket c i = .free → (∀ j < i, s.ticket c j ≠ .free) → s.issueDesc c = some d →
          let e : EngCmd := {
            ctx := c, ticket := i, pool := if pool = 0 then .cph else .mau
            words := (List.range (f.imm.toNat % 16 + 1)).map (sget 0 x.ew)
            base := ce.base.toNat, top := ce.limit, perms := ce.perms, index := s.indexOf c
            snap := s.dsp.mem.filter fun b => decide (ce.base.toNat ≤ b.1) && decide (b.1 < ce.limit) }
          if s.poolAccepts c e d ce = true then
            let u := s.setCtx c { x with tickets := sput .free x.tickets i .outstanding }
            exec (.eiss h f) s = .next (follows h (State.setGpr
              { u with cphQ := if pool = 0 then u.cphQ ++ [e] else u.cphQ, mauQ := if pool = 0 then u.mauQ else u.mauQ ++ [e] }
              h f.rd (BitVec.ofNat 64 i)))
          else Raises (.eiss h f) h s (encE 1 f) { cause := 9 })) ∧
    (f.ce ≠ 0 ∨ f.imm ≠ 0 →
      Raises (.ewait h f) h s (encE 2 f) excIllegal ∧ Raises (.epoll h f) h s (encE 3 f) excIllegal) ∧
    (f.ce = 0 → f.imm = 0 → x.resumed = false →
      if s.ticket c t = .free then Raises (.ewait h f) h s (encE 2 f) { cause := 9 }
      else exec (.ewait h f) s = .next (s.setCtx c { x with
        stages := completeStage (fun l => decide (l.pool = 0) && l.started) x.stages
        core := none
        st := if s.ticket c t = .outstanding then .parked else .ready
        await := some (t, f.rd)
        resumed := !decide (s.ticket c t = .outstanding) })) ∧
    (∀ i rd w, f.ce = 0 → f.imm = 0 → x.resumed = true → x.await = some (i, rd) → s.ticket c i = .done w →
      exec (.ewait h f) s = .next (follows h ((s.setCtx c { x with
        tickets := sput .free x.tickets i .free, await := none, resumed := false }).setGpr h rd w))) ∧
    (f.ce = 0 → f.imm = 0 →
      match s.ticket c t with
      | .free => Raises (.epoll h f) h s (encE 3 f) { cause := 9 }
      | .outstanding => Gives (.epoll h f) h s f.rd 0
      | .done w => exec (.epoll h f) s =
          .next (follows h ((s.setCtx c { x with tickets := sput .free x.tickets t .free }).setGpr h f.rd w))) ∧
    (f.rd ≠ 0 ∨ f.ce ≠ 0 ∨ f.imm ≠ 0 → Raises (.eabort h f) h s (encE 4 f) excIllegal) ∧
    (f.rd = 0 → f.ce = 0 → f.imm = 0 →
      match s.ticket c t with
      | .free => Raises (.eabort h f) h s (encE 4 f) { cause := 9 }
      | .done _ => Leaves (.eabort h f) h s (s.core h).advance
      | .outstanding => Completes (.eabort h f) s fun u =>
          (∃ w, u.ticket c t = .done w ∧ w.getLsbD 63 = true ∧ bitsOf w 48 15 = 0 ∧ bitsOf w 16 16 = 0 ∧ bitsOf w 0 16 = 0xFFFF) ∧
          ∀ e ∈ u.cphQ ++ u.mauQ, ¬(e.ctx = c ∧ e.ticket = t)))) ∧
  (∀ (dt : Nat) (f : FmtS) (s : State),
    let u := s.elapse dt
    let raises := fun h : Hart => ∃ v, Noted h u v ∧
      exec (.endCtx h f dt) s = .next (v.raiseExc h (encS 8 f) excIllegal)
    (∀ h, isService h = false → Executes h u → raises h) ∧
    (∀ (k : Fin 64) (c : Nat), Executes (.svc k) u → u.ctxOn k = some c →
      (f.rd ≠ 0 ∨ f.ra ≠ 0 ∨ f.imm ≠ 0 ∨ (u.core (.svc k)).slot ≠ none → raises (.svc k)) ∧
      (f.rd = 0 → f.ra = 0 → f.imm = 0 → (u.core (.svc k)).slot = none →
        let b := u.svcRead (areaBase c + 0x2040) 16
        let status := leAt b 0 1
        let plen := leAt b 2 2
        let answers := fun (t : State) (r : Response) => (t.ctx c).st = .ending ∧ (t.ctx c).core = none ∧
          (t.ctx c).tickets = [] ∧ (t.ctx c).resp = some r ∧ (t.ctx c).respAt = u.tb ∧ (t.ctx c).grantable = true
        let right := (status ≤ 3 ∨ 0x30 ≤ status ∧ status ≤ 0x32 ∨ 0x80 ≤ status) ∧ plen ≤ (u.ctx c).respMax ∧
          u.damagedAt .ctx (areaBase c + 0x2040) 16 = false ∧ u.damagedAt .ctx (areaBase c + 0x2080) plen = false
        (right → (u.ctx c).isState = false →
          Completes (.endCtx (.svc k) f dt) s fun t => answers t
            { status := status, detail := leAt b 4 4, result := leAt b 8 8, payload := u.svcRead (areaBase c + 0x2080) plen }) ∧
        (¬right → Completes (.endCtx (.svc k) f dt) s fun t =>
          t.on DSP_EVT_RESP_BAD = true ∧ answers t { status := 0x39, detail := 0x40000 + k.val }))))
/-! ### Units: register accesses and time (00 R6-R9, 01 R13, 13 R326, 15 R349, R352) -/

/-- The write of `v` to the register at `r` is granted; then command `i` answers `t`. -/
def Sys2Proof.Sets (i : Instr) (a : Acc) (r : Nat) (v : Word32) (s t : State) : Prop := MayWrite s a r v → exec i s = .next t

/-- The timed event `i`: after `dt` its effect is `f` where its conditions `c` hold then; where they do not, only time has
passed. -/
def Sys2Proof.Happens (i : Nat → Instr) (s : State) (c : State → Prop) (f : State → State) : Prop :=
  ∀ dt, (c (s.elapse dt) → exec (i dt) s = .next (f (s.elapse dt))) ∧ (¬c (s.elapse dt) → exec (i dt) s = .next (s.elapse dt))

/-- The event registers, each with the bits that a written 1 clears. -/
def Sys2Proof.eventRegs : List (Nat × Nat) :=
  [(SVC_EVT, 0x1F), (ADM_EVT, 0x3F), (DSP_EVT, 0x3F), (DSP_IREQ_DONE, 0xFFFF), (ACT_EVT, 0x1F), (CPH_EVT, 0x3F), (MAU_EVT, 0x1FF),
   (KST_EVT, 0x1FF), (RNG_EVT, 7), (RNG_FWSTAT, 4), (DUO_EVT, 0xFFF), (SYS_EVT, 0x1F), (FLC_EVT, 0xFF), (TMP_EVT, 0xF), (WCK_EVT, 0xF),
   (WCK_WIRQ, 3), (FLT_EVT, 0xF), (CRD_EVT, 0x7FF), (TAG_EVT, 0x3F), (CAL_EVT, 7), (OBS_EVT, 7)]

/-- Registers of one word that are read and written and do nothing else, each with the bits that hold what is written. -/
def Sys2Proof.plainRegs : List (Nat × Nat) :=
  [(SVC_UDP, 0xFFFF), (SVC_DEVID, 0xFFFFFFFF), (SVC_RQ_SEL, 0x3F), (ETH_MSEC_SEL, 0xFB), (DSP_PSLOT_SEL, 0x3FF), (MAU_OMSEL, 0xFF001FFF),
   (KST_CKPT, 0xFFFF), (KST_CMD_SLOT, 0xFFFF), (RNG_CFG, 0x33F), (DUO_JKEY, 0xFFFF), (SYS_WAKECFG, 3), (FLC_CTRL, 1),
   (FLC_ECNTSEL, 0xFFF), (FLC_WEAR, 0xFFFFF), (WCK_LDADDR, 0xFFFC), (FLT_FORCE_UNIT, 0xFF), (OBS_CTRL, 1)]

/-- Registers of 64 bits of that kind. -/
def Sys2Proof.longRegs : List (Nat × Nat) :=
  [(SVC_MGQ_BASE, 0xFFFFFFFFF800), (DSP_LDR_SRC, 0xFFFFFFFFFFF0), (DSP_IREQ_BASE, 0xFFFFFFFF8000),
   (KST_CMD_HANDLE, 0xFFFFFFFFFFFFFFFF), (KST_CMD_SRC, 0xFFFFFFFFFFF0), (DUO_SWAT, 0xFFFFFFFFFFFFFFFF),
   (FLC_ADDR, 0xFFFFFFFFFFE0), (FLC_SRC, 0xFFFFFFFFFFE0)]

/-- Registers that are only read. -/
def Sys2Proof.readOnlyRegs : List Nat :=
  [SYS_ID, SYS_STAT, ADM_STAT, DSP_STAT, CPH_ACTIVE, KST_STAT, KST_SEALCFG, RNG_STAT, DUO_STAT, DUO_EPOCH, FLC_STAT, FLC_ECNT,
   TMP_CAUSE, FLT_STAT, CRD_QSTAT, TAG_STAT, CAL_STAT, CAL_OVLSTAT, PMC_BWSEQ]

/-- What a register with writable bits `m` holds after `v` is written over `old`. -/
def Sys2Proof.written (m : Nat) (old v : Word) : Word := (old &&& ~~~BitVec.ofNat 64 m) ||| (v &&& BitVec.ofNat 64 m)

/-- 00 R6-R9, 05 R145, 07 R194, R195, R198: REGISTER_WRITE and LOW_WORD_READ by any master of the interconnect. No access
carries permissions that its master does not have. A denied access changes nothing but the record of the denial; inside
the register blocks an access that is not 32 bits wide and aligned, one that no register answers and one that lacks a
permission its register asks change nothing; a written 1 clears a bit of an event register; a plain register takes the
bits it has and keeps the others, and one that is only read takes none; a 64-bit register is written when its high word
is, with the low word held for that master, and a read of its low word keeps the high word for that master's next read; a
write of memory stores its bytes. No master sends a misaligned access to memory. -/
def Obligations.RegisterAccessesAct : Prop :=
  (∀ (a : Acc) (addr : BitVec 48) (size : AccSize) (v : Word) (s : State), a.master ≠ .wick →
    let r := addr.toNat
    let i := Instr.registerWrite a addr size v
    (inRegs r = false → r % size.bytes ≠ 0 → exec i s = .fault (.illFormed "REGISTER_WRITE")) ∧
    (inRegs r = true ∨ r % size.bytes = 0 →
      (s.powered = false ∨ s.carries a = false → exec i s = .next s) ∧
      (s.powered = true → s.carries a = true →
        (∀ d, s.actCheck a r .write = some d → exec i s = .next (s.violate a r .write d)) ∧
        (s.actCheck a r .write = none →
          (inRegs r = false → exec i s = .next (if s.writable r = true then s.storeBytes r (leBytes size.bytes v.toNat) else s)) ∧
          (inRegs r = true →
            (size ≠ .b4 ∨ r % 4 ≠ 0 ∨ regRow? r = none → exec i s = .next s) ∧
            (∀ row, regRow? r = some row →
              a.holdsAll (writeNeeds (s.on DUO_CTRL_FORCE) (row.regOf r) (v.setWidth 32)) = false → exec i s = .next s)))))) ∧
  (∀ (a : Acc) (e : Nat × Nat) (v : Word32) (s : State), e ∈ eventRegs →
    Sets (.registerWrite a (BitVec.ofNat 48 e.1) .b4 (v.setWidth 64)) a e.1 v s
      (s.wr e.1 (s.rd e.1 &&& ~~~(v.setWidth 64 &&& BitVec.ofNat 64 e.2)))) ∧
  (∀ (a : Acc) (e : Nat × Nat) (v : Word32) (s : State), e ∈ plainRegs →
    Sets (.registerWrite a (BitVec.ofNat 48 e.1) .b4 (v.setWidth 64)) a e.1 v s
      (s.wr e.1 (written e.2 (s.rd e.1) (v.setWidth 64))) ∧
    (MayRead s a e.1 → exec (.lowWordRead a (BitVec.ofNat 48 e.1)) s =
      .next { s with lastRead := some (false, (s.rd e.1).setWidth 32 |>.setWidth 64) })) ∧
  (∀ (a : Acc) (r : Nat) (v : Word32) (s : State), r ∈ readOnlyRegs → MayWrite s a r v →
    Completes (.registerWrite a (BitVec.ofNat 48 r) .b4 (v.setWidth 64)) s fun t =>
      t = { s with regs := t.regs } ∧ ∀ x, t.rd x = s.rd x) ∧
  (∀ (a : Acc) (e : Nat × Nat) (v : Word32) (s : State), e ∈ longRegs →
    let k := midOf a.master * 2 ^ 48 + e.1
    Sets (.registerWrite a (BitVec.ofNat 48 e.1) .b4 (v.setWidth 64)) a e.1 v s
      { s with heldLow := sput none s.heldLow k (some v) } ∧
    (∀ low, sget none s.heldLow k = some low → s.actCheck a (e.1 + 4) .write = none →
      Sets (.registerWrite a (BitVec.ofNat 48 (e.1 + 4)) .b4 (v.setWidth 64)) a e.1 v s
        (State.wr { s with heldLow := sput none s.heldLow k none } e.1
          (written e.2 (s.rd e.1) (v.setWidth 64 <<< 32 ||| low.setWidth 64)))) ∧
    (MayRead s a e.1 → exec (.lowWordRead a (BitVec.ofNat 48 e.1)) s = .next { s with
      latchHigh := sput none s.latchHigh k (some ((s.rd e.1 >>> 32).setWidth 32))
      lastRead := some (false, (s.rd e.1).setWidth 32 |>.setWidth 64) })) ∧
  (∀ (a : Acc) (n : Fin 16) (v : Word32) (s : State),
    let r := SYS_TCMP n.val
    let k := midOf a.master * 2 ^ 48 + r
    Sets (.registerWrite a (BitVec.ofNat 48 r) .b4 (v.setWidth 64)) a r v s { s with heldLow := sput none s.heldLow k (some v) } ∧
    (∀ low, sget none s.heldLow k = some low →
      Sets (.registerWrite a (BitVec.ofNat 48 (r + 4)) .b4 (v.setWidth 64)) a (r + 4) v s
        (State.wr { s with heldLow := sput none s.heldLow k none } r (v.setWidth 64 <<< 32 ||| low.setWidth 64)))) ∧
  (∀ (a : Acc) (s : State), a.master ≠ .wick → s.powered = true → s.carries a = true →
    let k := midOf a.master * 2 ^ 48 + TMP_TSC
    let now := s.rd TMP_TSC
    (∀ d, s.actCheck a TMP_TSC .read = some d → exec (.lowWordRead a (BitVec.ofNat 48 TMP_TSC)) s =
      .next { s.violate a TMP_TSC .read d with lastRead := some (true, 0) }) ∧
    (s.actCheck a TMP_TSC .read = none → exec (.lowWordRead a (BitVec.ofNat 48 TMP_TSC)) s = .next { s with
      latchHigh := sput none s.latchHigh k (some ((now >>> 32).setWidth 32))
      lastRead := some (false, BitVec.ofNat 64 (now.toNat % 2 ^ 32)) }) ∧
    (∀ high, s.actCheck a (TMP_TSC + 4) .read = none → sget none s.latchHigh k = some high →
      exec (.lowWordRead a (BitVec.ofNat 48 (TMP_TSC + 4))) s = .next { s with
        latchHigh := sput none s.latchHigh k none, lastRead := some (false, high.setWidth 64) }))

/-- 01 R13, 13 R326, 15 R349, R352: the timebase counts the nanoseconds of REFCLK_ETH with the rate adjustment on top,
which firmware sets within 100 ppm (a rate beyond it is ignored, log entry 3); a phase step moves the timebase, in BOOT
and CUSTODY alone, and closes every open fault window (16 R371); a timer pends once the timebase has reached its compare
value; SYS_DBSETn sets doorbell bits; TMP_TSCSET sets the time-stamp counter in BOOT and CUSTODY with SYS and TIME; the
monitors of the rails arm 1 ms after PWR_GOOD rose. -/
def Obligations.TimersAndTheTimebaseAct : Prop :=
  (∀ (dt : Nat) (s : State), s.powered = true →
    (s.elapse dt).rate = s.rate ∧
    (s.sys.refclkEth = true → ∃ n frac, frac < 1000000000 ∧ s.tbRem + dt * (1000000000 + s.rate).toNat = n * 1000000000 + frac ∧
      (s.elapse dt).tb = (s.tb + n) % 2 ^ 64 ∧ (s.elapse dt).tbRem = frac) ∧
    (s.sys.refclkEth = false → (s.elapse dt).tb = s.tb ∧ (s.elapse dt).tbRem = s.tbRem)) ∧
  (∀ (c : TbCorrection) (s : State),
    let i := Instr.timebasePhaseStep c
    let r := if -100000 ≤ c.rate ∧ c.rate ≤ 100000 then c.rate else s.rate
    (s.powered = false → exec i s = .next s) ∧
    (s.powered = true → c.phase = 0 ∨ ¬(s.sys.mode = .boot ∨ s.sys.mode = .custody) → exec i s = .next { s with rate := r }) ∧
    (s.powered = true → c.phase ≠ 0 → s.sys.mode = .boot ∨ s.sys.mode = .custody →
      Completes i s fun t =>
        t = { s with tb := ((s.tb + c.phase) % (2 ^ 64 : Int)).toNat, rate := r, regs := t.regs } ∧
        (∀ n < 128, s.on (FLT_CNT_OPEN n) = true → t.fget (FLT_CNT_OPEN n) = 0 ∧ t.fget (FLT_CNT_CNT n) = 0) ∧
        (∀ r, (∀ n < 128, s.on (FLT_CNT_OPEN n) = true → r ≠ (FLT_CNT_CNT n).addr) → t.rd r = s.rd r))) ∧
  (∀ (n : Fin 16) (s : State), Happens (.timerCompare · n) s
    (fun u => u.powered = true ∧ u.on (SYS_TCTL_EN n) = true ∧ (u.rd (SYS_TCMP n)).toNat ≤ u.tb)
    (fun u => u.raise (SYS_TCTL_PEND n))) ∧
  (∀ (a : Acc) (n : Fin 16) (v : Word32) (s : State),
    Sets (.doorbellSet a n v) a (SYS_DBSET n) v s (s.wr (SYS_DBELL n) (s.rd (SYS_DBELL n) ||| v.setWidth 64))) ∧
  (∀ (a : Acc) (v : Word) (s : State), MayWrite s a TMP_TSCSET (v.setWidth 32) → s.actCheck a (TMP_TSCSET + 4) .write = none →
    let k := midOf a.master * 2 ^ 48 + TMP_TSCSET
    let t := { s with heldLow := sput none (sput none s.heldLow k (some (v.setWidth 32))) k none }
    exec (.tscSet a v) s = .next
      (if (s.sys.mode = .boot ∨ s.sys.mode = .custody) ∧ permBit a.perms pSYS = true ∧ permBit a.perms pTIME = true then
        { t.wr TMP_TSC v with tscRem := 0 }
       else t.raise TMP_EVT_CFG_REJ)) ∧
  (∀ s : State, Happens .tamperMonitorArm s
    (fun u => u.sys.pwrGood = true ∧ u.sys.mainEn = true ∧ u.sys.armed = false ∧ u.sys.pwrGoodAt + 1000000 ≤ u.clock)
    (fun u => { u with sys := { u.sys with armed := true } }))

/-! ### The service front end (02) -/

/-- A frame is dropped at step `k` of 02 Table 2.5: only the counter of the step moves (02 R45). -/
def Sys2Proof.droppedAt (u : State) (port k : Nat) : State := u.count (16 * port + 3 + k) 1

/-- A frame that passes steps 1 and 2 of 02 Table 2.5 on a port without MACsec where none is required. -/
structure Sys2Proof.PlainFrame (u : State) (port : Fin 4) (f : RxFrame) : Prop where
  power : u.powered = true ∧ u.portOn port = true ∧ u.svc.linkUp.getLsbD port = true
  sound : f.fecOk = true ∧ f.fcsOk = true ∧ vlanTagged f.bytes = false ∧ 64 ≤ f.length ∧ f.length ≤ 9216
  plain : secTagged f.bytes = false ∧ u.secy port = false ∧ u.on SVC_CTRL_MSEC_REQ = false

/-- A frame of a host port whose content is a CRP request over Ethernet, which passes steps 1 to 4. -/
structure Sys2Proof.HostFrame (u : State) (port : Fin 4) (f : RxFrame) : Prop extends PlainFrame u port f where
  crp : beAt f.bytes 12 2 = 0x88B5 ∧ u.on SVC_CTRL_ETYPE_EN = true
  host : u.peerPort port = false
  request : beAt (f.bytes.drop 14) 0 1 = 0x10 ∧ 40 ≤ (f.bytes.drop 14).length

/-- Step 7 of 02 Table 2.5 fails; `follow` says that PLEN equals the bytes that follow the header. -/
def Sys2Proof.badHeader (q : CrpReq) (follow : Prop) : Prop :=
  2 ≤ q.flags ∨ 8 ≤ q.cls ∨ q.status ≠ 0 ∨ q.seq = 0 ∨ 8192 < q.plen ∨ ¬follow

/-- Step 8 fails for a request of requester entry `e`, or of the internal ring: NOP is built in; any other service needs a
dispatch entry that permits the way the request came, and its requester, and a cost entry (02 R52, R53; 06 R183). -/
def Sys2Proof.badService (u : State) (q : CrpReq) (e : Option Nat) : Prop :=
  let w := u.dispWord u.bank q.service
  let may := match e with
    | some k => w 0 / 2 ^ 30 % 2 = 1 ∧ (w 4 + w 5 * 2 ^ 32) / 2 ^ k % 2 = 1
    | none => w 0 / 2 ^ 29 % 2 = 1
  q.service ≠ 1 ∧ (q.service < 0x10 ∨ 0xFFF < q.service ∨ w 0 / 2 ^ 31 % 2 = 0 ∨ ¬may ∨ u.costEntry u.bank q.service = none)

/-- The tightest class that the service's dispatch entry permits; any for NOP. -/
def Sys2Proof.minClass (u : State) (q : CrpReq) : Nat := if q.service = 1 then 0 else u.dispWord u.bank q.service 0 / 2 ^ 23 % 8

/-- Step 9 fails (02 R54). -/
def Sys2Proof.badClass (u : State) (q : CrpReq) : Prop :=
  q.cls < minClass u q ∨ (q.cls = 0 ∧ (256 < q.plen ∨ (q.service ≠ 1 ∧ 256 < u.dispWord u.bank q.service 2 % 2 ^ 14)))

/-- Step 10 fails (02 R53, R55; 06 R183). -/
def Sys2Proof.badPayload (u : State) (q : CrpReq) : Prop :=
  let w := u.dispWord u.bank q.service
  q.handle / 2 ^ 34 % 64 ≠ 0 ∨ (q.service = 1 ∧ (q.handle ≠ 0 ∨ q.plen ≠ 0)) ∨
    (q.service ≠ 1 ∧ (q.plen < w 1 % 2 ^ 14 ∨ w 1 / 2 ^ 16 % 2 ^ 14 < q.plen ∨ (w 0 / 2 ^ 26 % 4 = 0 ∧ q.handle ≠ 0) ∨
      (w 0 / 2 ^ 26 % 4 = 1 ∧ q.handle = 0)))

/-- 02 R43, R45, R47-R50, R52-R55: FRAME_RECEIVE. Every frame is counted with its bytes. Step 1 drops one that is damaged,
tagged or of a wrong length; step 2 one without MACsec where the port or SVC_CTRL.MSEC_REQ asks for it, and one with a
SecTAG where there is no SecY. At step 3 a frame that is no CRP goes to the management queue, or is lost where that is off
or full; step 4 drops one of a wrong VER or TYPE or too short, and a peer port's message leaves for the duo link. Step 5
drops a request outside SERVICE and CUSTODY, or while SVC_CTRL.EN is 0. A requester that no enabled entry names, or that
two name, gets BAD_REQUESTER (step 6), then BAD_HEADER, BAD_SERVICE, BAD_CLASS with the tightest class permitted, and
BAD_PAYLOAD for what fails steps 7 to 10. Step 11 answers STALE with the low half of HIGH, or REPLAYED; what passes it is
marked: the window of 8,192 numbers moves up to a new HIGH, with the numbers passed over unseen, and ADM gets the
descriptor. That stands behind those of the same instant that came over lower ports; those that came over higher ports
are none of the same requester here (R49). Where the port or its link is down no frame arrives. -/
def Obligations.FramesAreCheckedInOrder : Prop :=
  ∀ (dt : Nat) (port : Fin 4) (f : RxFrame) (s : State),
    let u := s.elapse dt
    let n := (u.count (16 * port.val) 1).count (16 * port.val + 1) f.length
    let i := Instr.frameReceive dt port f
    let m := f.bytes.drop 14
    let typ := beAt m 0 1 % 16
    let q := CrpReq.parse m
    let r : Reply := { dst := BitVec.ofNat 48 (beAt f.bytes 6 6), encap := .ether }
    let padded := f.length = 64
    let crp := beAt f.bytes 12 2 = 0x88B5 ∧ u.on SVC_CTRL_ETYPE_EN = true
    let head := u.fget SVC_MGQ_CTRL_RX_HEAD
    let refused := fun (k status detail : Nat) =>
      exec i s = .next ((n.count (16 * port.val + 3 + k) 1).refuse port r q status detail (u.tb + 380))
    let turns := fun (x : Requester) (e : Nat) => u.svc.instant.filter (fun y => decide (y.time = u.tb)) ++
      [({ time := u.tb, port := port, rq := e, req := q, reply := r, before := x } : Arrival)]
    let refusedLate := fun (x : Requester) (e status detail : Nat) => Completes i s fun t =>
      t.requester e = x ∧ t.adm.descs = u.adm.descs ∧ ∃ rq, t = (State.count
        { n with svc := { n.svc with rq := rq, instant := turns x e } } (16 * port.val + 14) 1).refuse port r q status detail
          (u.tb + 380) (some (e, q.seq))
    (¬(u.powered = true ∧ u.portOn port = true ∧ u.svc.linkUp.getLsbD port = true) → exec i s = .next u) ∧
    (u.powered = true → u.portOn port = true → u.svc.linkUp.getLsbD port = true →
      (f.fecOk = true → f.fcsOk = false ∨ f.length < 64 ∨ 9216 < f.length ∨ vlanTagged f.bytes = true →
        exec i s = .next (droppedAt n port 1)) ∧
      (f.fecOk = false → exec i s = .next (droppedAt (n.signal (100 + port.val) 0) port 1)) ∧
      (f.fecOk = true → f.fcsOk = true → vlanTagged f.bytes = false → 64 ≤ f.length → f.length ≤ 9216 →
        (u.secy port = false → u.on SVC_CTRL_MSEC_REQ = true ∨ secTagged f.bytes = true → exec i s = .next (droppedAt n port 2)) ∧
        (u.secy port = true → secTagged f.bytes = false →
          exec i s = .next (((droppedAt n port 2).count 0x05E 1).signal (88 + port.val) 0)))) ∧
    (PlainFrame u port f →
      (¬crp → beAt f.bytes 12 2 ≠ 0x86DD ∨ u.on SVC_CTRL_UDP_EN = false →
        (u.on SVC_MGQ_CTRL_EN = false ∨ 2032 < f.bytes.length → exec i s = .next n) ∧
        (u.on SVC_MGQ_CTRL_EN = true → f.bytes.length ≤ 2032 → (head + 1) % 64 = u.fget SVC_MGQ_CTRL_RX_TAIL →
          exec i s = .next (n.raise SVC_EVT_MGQ_OVF)) ∧
        (∀ t, u.on SVC_MGQ_CTRL_EN = true → f.bytes.length ≤ 2032 → (head + 1) % 64 ≠ u.fget SVC_MGQ_CTRL_RX_TAIL →
          n.writeBlock ⟨.mgq, 0⟩ ((u.rd SVC_MGQ_BASE).toNat + 2048 * head)
            (slotHeader (u.tb - rxNs f.length) f.bytes.length port 0 (if isPtpEvent f.bytes then 1 else 0) ++ f.bytes) = (.ok (), t) →
          exec i s = .next (t.fset SVC_MGQ_CTRL_RX_HEAD ((head + 1) % 64))) ∧
        (∀ e t, u.on SVC_MGQ_CTRL_EN = true → f.bytes.length ≤ 2032 → (head + 1) % 64 ≠ u.fget SVC_MGQ_CTRL_RX_TAIL →
          n.writeBlock ⟨.mgq, 0⟩ ((u.rd SVC_MGQ_BASE).toNat + 2048 * head)
            (slotHeader (u.tb - rxNs f.length) f.bytes.length port 0 (if isPtpEvent f.bytes then 1 else 0) ++ f.bytes) = (.error e, t) →
          exec i s = .next t)) ∧
      (crp → beAt m 0 1 / 16 ≠ 1 ∨ (u.peerPort port = false ∧ (typ ≠ 0 ∨ m.length < 40)) ∨
          (u.peerPort port = true ∧ (typ < 2 ∨ 7 < typ ∨ m.length < 32)) → exec i s = .next (droppedAt n port 4)) ∧
      (crp → beAt m 0 1 / 16 = 1 → u.peerPort port = true → 2 ≤ typ → typ ≤ 7 → 32 ≤ m.length → exec i s = .next
        (if u.on DUO_CTRL_EN = true ∧ (u.sys.mode = .boot ∨ u.sys.mode = .service ∨ u.sys.mode = .custody) then
          { n with duo := { u.duo with inbox := u.duo.inbox ++ [peerMsgOf port m] } } else n))) ∧
    (HostFrame u port f →
      (u.on SVC_CTRL_EN = false ∨ (u.sys.mode ≠ .service ∧ u.sys.mode ≠ .custody) → exec i s = .next (droppedAt n port 5)) ∧
      (u.on SVC_CTRL_EN = true → u.sys.mode = .service ∨ u.sys.mode = .custody →
        ((u.entriesFor q.requester).length ≠ 1 → refused 6 0x21 0) ∧
        (∀ e, u.entriesFor q.requester = [e] → (u.requester e).plain.getLsbD port = false → refused 6 0x21 0) ∧
        (∀ e, u.entriesFor q.requester = [e] → (u.requester e).plain.getLsbD port = true →
          let x := u.requester e
          let badServ := badService u q (some e)
          let badHead := badHeader q (m.length = 40 + q.plen ∨ (padded ∧ 40 + q.plen ≤ m.length))
          (badHead → refused 7 0x20 0) ∧
          (¬badHead → badServ → refused 8 0x24 0) ∧
          (¬badHead → ¬badServ → badClass u q → refused 9 0x25 (minClass u q)) ∧
          (¬badHead → ¬badServ → ¬badClass u q → badPayload u q → refused 10 0x26 0) ∧
          (¬badHead → ¬badServ → ¬badClass u q → ¬badPayload u q → x.high < 0xFFFFFFFFFFFFFFFF →
            (∀ y ∈ u.svc.instant, y.time = u.tb → y.rq = e → y.port ≤ port) →
            (q.seq + 8192 ≤ x.high → refusedLate x e 0x22 (x.high % 2 ^ 32)) ∧
            (q.seq ≤ x.high → x.high < q.seq + 8192 → x.seen.getLsbD (q.seq % 8192) = true → refusedLate x e 0x23 0) ∧
            (x.high < q.seq ∨ (x.high < q.seq + 8192 ∧ x.seen.getLsbD (q.seq % 8192) = false) → q.seq < 0xFFFFFFFFFFFFFFFF →
              (∀ d ∈ u.adm.descs, d.ingress = u.tb → d.src.rank ≤ port.val) →
              Completes i s fun t =>
                (t.requester e).high = max x.high q.seq ∧
                (∀ k, (t.requester e).high < k + 8192 → k ≤ (t.requester e).high → (t.requester e).seen.getLsbD (k % 8192) =
                  if k = q.seq then true else if x.high < k then false else x.seen.getLsbD (k % 8192)) ∧
                (∀ y, y ≠ e → t.requester y = u.requester y) ∧
                t.adm.descs = u.adm.descs ++ [{
                  src := .port port, reply := r, req := q, message := m.take (40 + q.plen), rq := e, ingress := u.tb
                  epoch := u.fget ADM_EPOCH_NUM, bank := u.bank }] ∧
                t = { u with regs := n.regs, adm := { u.adm with descs := t.adm.descs }
                             svc := { u.svc with rq := t.svc.rq, instant := t.svc.instant } } ∧
                t.svc.instant = turns x e)))))

/-- `t` is `u` with the cause bit of level source `n` at `b`; its rise is one event of the source (16 R368). -/
def Sys2Proof.causeIs (u t : State) (n : Nat) (b : Bool) : Prop :=
  t = if b = true ∧ u.on (causeFld n) = false then (u.raise (causeFld n)).signal n 0 else u.put (causeFld n) b

/-- 02 R39, R44: REFUSAL_RESPONSE_DROP, where no refusal of the port can start within its bound any more, drops the oldest
whose bound has passed, and counts it, with SVC_EVT.RESP_DROP where the port has no valid transmit SA; one that can start
is sent at the first instant at which it could (log entry 26). 02 R65: a write of SVC_MGT_GO takes the frame of its
transmit slot; MGT_TX_DONE sends the oldest whose port can transmit: it leaves the queue.
02 R39, R50, R62, R67, 16 R368: a write of ETH_MSEC_SA starts the load of the selected SA or ends its validity; the
load takes key and salt from the fixed slot of a MACSEC record, and fails on any other; SVC_RQ_FLOOR sets HIGH of a
disabled requester entry; SVC_PORTCFG changes the role of P3 only in BOOT or CUSTODY with the port disabled.
16 R368, 21 R441: a link or a reference clock that fails raises its level source, one that returns lowers it; the
Ethernet reference carries the timebase; a service core that hangs signals its source with its number. -/
def Obligations.FrontEndIsManaged : Prop :=
  ((∀ (dt : Nat) (port : Fin 4) (s : State),
    let u := s.elapse dt
    let start := fun (r : PendingRefusal) => max r.since (u.portFree port)
    let late := ∀ r ∈ u.svc.refusals, r.port = port → r.bound < start r
    (∀ r, late → u.svc.refusals.find? (fun r => decide (r.port = port) && decide (r.bound ≤ u.tb)) = some r →
      let v := if u.saMissing port = true then u.raise SVC_EVT_RESP_DROP else u
      exec (.refusalResponseDrop dt port) s =
        .next { v.count (16 * port.val + 15) 1 with svc := { u.svc with refusals := u.svc.refusals.erase r } }) ∧
    (late → (∀ r ∈ u.svc.refusals, r.port = port → u.tb < r.bound) → exec (.refusalResponseDrop dt port) s = .next u) ∧
    (∀ r, u.svc.refusals = [r] → r.port = port → start r ≤ r.bound → start r ≤ u.tb → u.canSend port = true →
      (r.turn = none ∨ r.since < u.tb ∨ u.sys.refclkEth = false) →
      (∀ e ∈ u.live, e.2.src = .port port → e.2.st = .ending → e.2.grantable = true → start r < e.2.respAt) →
      exec (.refusalResponseDrop dt port) s =
        .next ((State.sendFrame { u with svc := { u.svc with refusals := [] } } port r.content (start r)).takePort port
          (start r + wireNs (frameLen (u.secy port) r.content))))) ∧
  (∀ (a : Acc) (v : Word32) (s t : State) (bs : List Byte),
    let slot := v.toNat / 2 ^ 16 % 16
    let from_ := (s.rd SVC_MGQ_BASE).toNat + 2048 * (64 + slot)
    let held := ∃ w, ArrayWait.mgt w ∈ s.flc.waits
    let waits := fun s : State => { s with flc := { s.flc with waits := s.flc.waits ++ [.mgt v] } }
    (v.getLsbD 0 = false → Sets (.mgtGo a v) a SVC_MGT_GO v s s) ∧
    (v.getLsbD 0 = true → held → Sets (.mgtGo a v) a SVC_MGT_GO v s (waits s)) ∧
    (v.getLsbD 0 = true → ¬held → s.readBlock ⟨.mgq, 0⟩ from_ 2048 = (.ok bs, t) →
      Sets (.mgtGo a v) a SVC_MGT_GO v s (State.endStalls { t with svc := { t.svc with mgt := t.svc.mgt ++ [{
        port := Fin.ofNat 4 (v.toNat / 2 ^ 8), slot := slot, tscap := v.getLsbD 23
        content := slice bs 16 (min (leAt bs 8 2) 2032) }] } } .mgq)) ∧
    (v.getLsbD 0 = true → ¬held → s.readBlock ⟨.mgq, 0⟩ from_ 2048 = (.error .wait, t) →
      Sets (.mgtGo a v) a SVC_MGT_GO v s (waits t)) ∧
    (∀ e, v.getLsbD 0 = true → ¬held → e ≠ .wait → s.readBlock ⟨.mgq, 0⟩ from_ 2048 = (.error e, t) →
      Sets (.mgtGo a v) a SVC_MGT_GO v s (t.endStalls .mgq))) ∧
  (∀ (dt : Nat) (s : State),
    let u := s.elapse dt
    ((∀ m ∈ u.svc.mgt, u.canSendMgt m.port = false) → exec (.mgtTxDone dt) s = .next u) ∧
    (∀ m, u.svc.mgt.find? (fun m => u.canSendMgt m.port) = some m → u.secy m.port = false → m.tscap = false →
      Completes (.mgtTxDone dt) s fun t =>
        t.svc.mgt = u.svc.mgt.erase m ∧
        t.out = u.out ++ [.frame m.port u.tb (m.content ++ List.replicate (60 - m.content.length) 0)] ∧
        t.adm = u.adm ∧ t.dsp = u.dsp ∧ t.cores = u.cores ∧ t.kst = u.kst ∧ t.duo = u.duo ∧ t.sys = u.sys))) ∧
  ((∀ (a : Acc) (v : Word32) (s : State),
    let x := { s.sa s.selSa with kslot := v.toNat % 65536 }
    Sets (.saLoad a v) a ETH_MSEC_SA v s
      (s.setSa s.selSa (if v.getLsbD 31 = true then { x with busy := true, err := false } else { x with valid := false }))) ∧
  (∀ (dt : Nat) (s : State),
    let u := s.elapse dt
    (u.powered = false ∨ (∀ e ∈ u.svc.sas, e.2.busy = false) → exec (.saLoadDone dt) s = .next u) ∧
    (∀ e, u.powered = true → u.svc.sas.find? (fun e => e.2.busy) = some e →
      let key := e.2.kslot
      (∀ i r, 1 ≤ key → key ≤ 0xFFF → u.fixedKey key = some (i, r) → r.type = 0x20 → r.useBit 10 = true →
        exec (.saLoadDone dt) s = .next (u.setSa e.1 { e.2 with
          busy := false, err := false, valid := true, sak := BitVec.ofNat 256 (beAt r.key 0 32), salt := BitVec.ofNat 96 (beAt r.key 32 12) })) ∧
      (key = 0 ∨ 0xFFF < key ∨ u.fixedKey key = none ∨ (∃ i r, u.fixedKey key = some (i, r) ∧ (r.type ≠ 0x20 ∨ r.useBit 10 = false)) →
        exec (.saLoadDone dt) s = .next (u.setSa e.1 { e.2 with busy := false, err := true, valid := false })))) ∧
  (∀ (a : Acc) (v : Word) (s : State), MayWrite s a SVC_RQ_FLOOR (v.setWidth 32) → s.actCheck a (SVC_RQ_FLOOR + 4) .write = none →
    let k := midOf a.master * 2 ^ 48 + SVC_RQ_FLOOR
    let t := { s with heldLow := sput none (sput none s.heldLow k (some (v.setWidth 32))) k none }
    let n := s.fget SVC_RQ_SEL_INDEX
    let e := s.requester n
    exec (.rqFloorWrite a v) s = .next
      (if e.en = true then t.raise SVC_EVT_CFG_REJ
       else
        let w := t.setRequester n { e with high := v.toNat, seen := BitVec.allOnes 8192 }
        if v.toNat = 0xFFFFFFFFFFFFFFFF then w.raise SVC_EVT_RQ_SEQ_MAX else w)) ∧
  (∀ (a : Acc) (v : Word32) (s : State),
    Sets (.portcfgWrite a v) a SVC_PORTCFG v s
      (if v.getLsbD 8 ≠ s.on SVC_PORTCFG_P3_HOST ∧ ¬((s.sys.mode = .boot ∨ s.sys.mode = .custody) ∧ s.portOn 3 = false) then
        s.raise SVC_EVT_CFG_REJ
       else
        State.linkCauses { s.wr SVC_PORTCFG (v.setWidth 64 &&& 0x10F) with
          svc := { s.svc with linkUp := s.svc.linkUp &&& v.setWidth 4 } }))) ∧
  ((∀ (dt : Nat) (port : Fin 4) (up : Bool) (s : State),
    let u := s.elapse dt
    let m : BitVec 4 := 1#4 <<< port.val
    let v := { u with svc := { u.svc with linkUp := if up = true then u.svc.linkUp ||| m else u.svc.linkUp &&& ~~~m } }
    if u.powered = true ∧ (up = false ∨ u.portOn port = true) then
      Completes (.linkStateChange dt port up) s fun t => causeIs v t (84 + port.val) (u.portOn port && !up)
    else exec (.linkStateChange dt port up) s = .next u) ∧
  (∀ (dt : Nat) (mem : Bool) (s : State),
    let u := s.elapse dt
    let v := fun b => { u with sys := if mem = true then { u.sys with refclkMem := b } else { u.sys with refclkEth := b } }
    let n := if mem = true then 93 else 92
    Completes (.refclkLoss dt mem) s (fun t => causeIs (v false) t n true) ∧
    Completes (.refclkRestore dt mem) s (fun t => causeIs (v true) t n false)) ∧
  (∀ (k : Fin 64) (s : State), Happens (.serviceCoreHang · k) s (fun u => (u.ctxOn k).isSome = true)
    (fun u => u.signal (106 + k.val / 4) k.val)))
/-! ### Admission (03) -/

/-- What declining descriptor `q` with `status` and `detail` leaves: it is counted and answered within 680 ns of its
arrival. -/
def Sys2Proof.declined (u : State) (q : Desc) (rest : List Desc) (event status detail : Nat) : State :=
  (State.count { u with adm := { u.adm with descs := rest } } event 1).refuseTo q.src q.reply q.req status detail (q.ingress + 680)

/-- `wait(s, E, fc)` of 03 R78, rounded up to a whole ns (R76); none where it is infinite. `terms` are BS, BL and BF, and
`poolSum` adds the charges of a pool. -/
def Sys2Proof.waitOf (u : State) (cls e : Nat) (fc : Bool) (x : LStage) : Option Nat :=
  let p := x.pool
  let (bs, bl, bf) := u.terms p cls (decide (0 < u.oldLive))
  let hp := u.poolSum p e fun _ _ => true
  let hpl := u.poolSum p e fun _ x => x.long
  let fast := u.fastUnits p
  let g := u.general p
  let l := u.longCap p
  let a : ℚ := (hp + l * max bs bl + (g - l : Nat) * bs) / g
  if fc = true ∧ 0 < fast then some ⌈(u.poolSum p e (fun c _ => c.fast) : ℚ) / fast + bf⌉₊
  else if g = 0 then none
  else if x.long = true then (if l = 0 then none else some ⌈a + (hpl + l * bl) / l⌉₊)
  else if l < g then some ⌈min a ((hp - hpl : Nat) / (g - l : Nat) + bs)⌉₊
  else some ⌈a⌉₊

/-- `delta(j, stages, fc)` of 03 R78; a pool without a general unit adds nothing (log entry 138). -/
def Sys2Proof.deltaOf (u : State) (j : Ctx) (stages : List LStage) (fc : Bool) : Nat :=
  let share := fun p : Nat =>
    let mine := stages.filter fun x => decide (x.pool = p)
    let c : ℚ := (mine.map LStage.charge).sum
    let cl : ℚ := ((mine.filter LStage.long).map LStage.charge).sum
    let g := u.general p
    let l := u.longCap p
    if (j.stages.any fun x => decide (x.pool = p)) = false then 0
    else if j.fast = true ∧ 0 < u.fastUnits p then (if fc = true then c / u.fastUnits p else 0)
    else (if l < g then c / (g - l : Nat) else c / g) + (if 0 < l then cl / l else 0)
  ⌈((List.range 10).map share).sum⌉₊

/-- The service-phase end E of a request (03 R73, R78). -/
def Sys2Proof.phaseEnd (u : State) (q : Desc) : Nat := q.ingress + u.rdb q.bank (ADM_CLASS_BOUND q.req.cls) - 180

/-- W of 03 R78: when the service phase ends at the latest. -/
def Sys2Proof.latest (u : State) (q : Desc) (lpath : Nat) (fc : Bool) (stages : List LStage) : Nat :=
  max u.tb (q.ingress + 200) + scaleNs (lpath * 100) (u.factor 0 q.req.cls) +
    (stages.map fun x => (waitOf u q.req.cls (phaseEnd u q) fc x).getD 0 + x.charge).sum

/-- The request is accepted: it takes context `c` with this key and slack; `delta` is what the slack of the entry of each
context falls by. -/
def Sys2Proof.takes (u : State) (c : Nat) (q : Desc) (rest : List Desc) (key : Option Nat) (slack : Option Int) (fc : Bool)
    (stages : List LStage) (delta : Nat → Nat) (t : State) : Prop :=
  let x := t.ctx c
  x.st = (if stages.any (fun l => (decide (l.pool = 3) || decide (l.pool = 4)) && !l.done) = true then .fetch else .ready) ∧
  x.src = q.src ∧ x.reply = q.reply ∧ x.req = q.req ∧ x.rq = q.rq ∧ x.ingress = q.ingress ∧ x.key = key ∧
  x.slack = slack ∧ x.fast = fc ∧ x.order = u.adm.decided ∧ x.epoch = q.epoch ∧ x.bank = q.bank ∧ x.stages = stages ∧
  t.adm.descs = rest ∧ t.adm.decided = u.adm.decided + 1 ∧
  (∀ y, y ≠ c → t.ctx y = { u.ctx y with slack := (u.ctx y).slack.map fun v => v - (delta y : Nat) })

/-- 03 R73, R77, R78, R80, R88, R463: ADM_DECISION decides the descriptor that arrived first, once the instant of its
arrival is over (log entry 115). It is declined, in this order: while ADM is off or its service has no cost entry; in
CUSTODY where its class is not allowed there; for want of the lantern, of random numbers, of the key store; where the
ledger or its class is full; where its response could be longer than its port takes; where a long stage finds no place in
its pool (L = 0), or an engine stage no general unit. One of D0 to D6 is declined as well where W exceeds E, with
KEY_NOT_RESIDENT and a fetch of its record queued where it has a fetch stage, and where the slack of a later entry is less
than its delta. An accepted request takes the free context: its key is E, its slack E - W (D7 has neither), and each entry
with a later key loses its delta. Every other context keeps all but its slack. -/
def Obligations.AdmissionDecides : Prop :=
  ∀ (dt : Nat) (c : Fin 8192) (s : State),
    let u := s.elapse dt
    let i := Instr.admDecision dt c
    (u.adm.descs = [] → exec i s = .next u) ∧
    (∀ q rest, u.adm.descs = q :: rest → u.tb ≤ q.ingress → u.sys.refclkEth = true → exec i s = .next u) ∧
    (∀ q rest, u.adm.descs = q :: rest → q.ingress < u.tb ∨ u.sys.refclkEth = false →
      let cls := q.req.cls
      (u.costEntry q.bank q.req.service = none ∨ u.on ADM_CTRL_EN = false →
        exec i s = .next (declined u q rest 0x049 0x10 2)) ∧
      (∀ ce, u.costEntry q.bank q.req.service = some ce → u.on ADM_CTRL_EN = true →
        if u.sys.mode = .custody ∧ u.fgetb q.bank (ADM_CLASS_CFG_CUST_OK cls) = 0 then
          exec i s = .next (declined u q rest 0x04B 0x10 4)
        else if ce.state = true ∧ u.fget ADM_STAT_LANTERN = 0 then exec i s = .next (declined u q rest 0x04D 0x11 0)
        else if ce.rand = true ∧ u.on (sevFld 72) = true then exec i s = .next (declined u q rest 0x04C 0x10 5)
        else if u.on KST_CTRL_EN = false ∧ (q.req.handle ≠ 0 ∨ ce.state = true) then
          exec i s = .next (declined u q rest 0x049 0x10 2)
        else if u.live.length = 8192 ∨
            u.fgetb q.bank (ADM_CLASS_CFG_MAXENT cls) ≤ (u.live.filter fun e => decide (e.2.req.cls = cls)).length then
          exec i s = .next (declined u q rest 0x048 0x10 1)
        else if ∃ p, q.src = .port p ∧ u.fgetb q.bank (ADM_PORT_MAXRESP p.val) <
            (if q.reply.encap = .ether then 30 else 78) + 40 + (if q.req.tsreq = true then 16 else 0) + ce.respMax + 20 then
          exec i s = .next (declined u q rest 0x049 0x10 2)
        else
          let fetch := u.fetchStage q
          let service := u.serviceStages q ce
          let stages := fetch ++ service ++ u.txStage q ce
          let fc := decide (cls ≤ u.fget ADM_CTRL_FASTCLS) && !service.any LStage.long
          let e := phaseEnd u q
          let late := (∃ x ∈ stages, waitOf u cls e fc x = none) ∨ e < latest u q ce.lpath fc stages
          let after := u.live.filter fun y => y.2.key.any fun k => decide (e < k)
          let falls := fun k => ((after.filter fun y => decide (y.1 = k)).map fun y => deltaOf u y.2 stages fc).sum
          let free := (u.ctx c).st = .free
          let plain := ce.state = false ∨ u.fget ADM_STAT_LANTERN ≠ 2
          if ∃ x ∈ stages, (x.long = true ∧ u.longCap x.pool = 0) ∨ ((x.pool = 1 ∨ x.pool = 2) ∧ u.general x.pool = 0) then
            exec i s = .next (declined u q rest 0x049 0x10 2)
          else if cls = 7 then
            (¬free → exec i s = .next u) ∧
            (free → plain → Completes i s (takes u c q rest none none fc stages fun _ => 0))
          else if late then exec i s = .next
            (if fetch = [] then declined u q rest 0x049 0x10 2
             else
              let v := State.count { u with adm := { u.adm with descs := rest } } 0x04A 1
              State.refuseTo { v with adm := { v.adm with beFetch := v.adm.beFetch ++ [handleIndex q.req.handle] } }
                q.src q.reply q.req 0x10 3 (q.ingress + 680))
          else if ∃ y ∈ after, ∃ x, (u.ctx y.1).slack = some x ∧ x < (deltaOf u y.2 stages fc : Nat) then
            exec i s = .next (declined u q rest 0x049 0x10 2)
          else
            (¬free → exec i s = .next u) ∧
            (free → plain → Completes i s
              (takes u c q rest (some e) (some ((e : Int) - latest u q ce.lpath fc stages)) fc stages falls))))

/-- 03 R84: ENTRY_OVERRUN answers an uncommitted entry that has not ended 20 us after its key FAULT, with DETAIL 3 and its
context. 03 R82: ACTIVITY_WINDOW_END sets the activity of each engine pool to the window's share, or to the old value less
DECAY where that is more.
03 R72, R83: a Taper reading stands in ADM_TAPRDp; ADM_TEFFp becomes the larger of the tempo factor, 1.0 where that is
stale, and the reading raised by TMARGIN, and by XMARGIN beyond 1.0, rounded up; TAPER_UP is set where a reading calls for
more than the tempo factor. A tempo factor that is older than STALE_US (at least 12 us) is stale: ADM_STAT.STALE says so,
and ADM_EVT.STALE is set once each time. A write of ADM_CTRL computes the blocking terms of both banks and the three
effective factors anew; it does not enable ADM while the device is isolated. -/
def Obligations.StagesTempoAndTaperAct : Prop :=
  ((∀ (c : Fin 8192) (s : State), Happens (.entryOverrun · c) s
    (fun u => (u.ctx c).st ≠ .free ∧ (u.ctx c).st ≠ .ending ∧ (u.ctx c).committed = false ∧ ∃ e, (u.ctx c).key = some e ∧ e + 20000 < u.tb)
    (fun u =>
      let v := ((u.raise ADM_EVT_OVERRUN).count 0x04E 1).signal 71 0
      (v.setCtx c { v.ctx c with cancelled := true }).endWith c { status := 0x39, detail := 0x30000 + c.val })) ∧
  (∀ (dt : Nat) (sc cph mau : BitVec 17) (s : State),
    let u := s.elapse dt
    let next := fun (p : Nat) (a : BitVec 17) =>
      BitVec.ofNat 64 (max (min a.toNat 0x10000) ((u.rd (ADM_ACT p)).toNat - u.fget ADM_LGUARD_DECAY))
    (u.powered = false → exec (.activityWindowEnd dt sc cph mau) s = .next u) ∧
    (u.powered = true → Completes (.activityWindowEnd dt sc cph mau) s fun t =>
      t = { u with regs := t.regs } ∧ t.rd (ADM_ACT 0) = next 0 sc ∧ t.rd (ADM_ACT 1) = next 1 cph ∧ t.rd (ADM_ACT 2) = next 2 mau ∧
      ∀ r, r ≠ ADM_ACT 0 → r ≠ ADM_ACT 1 → r ≠ ADM_ACT 2 → t.rd r = u.rd r))) ∧
  ((∀ (dt : Nat) (sc cph mau : Word32) (s : State),
    let u := s.elapse dt
    let reading := fun p => if p = 0 then sc else if p = 1 then cph else mau
    let m := u.fget ADM_TAPER_TMARGIN
    let taper := fun p =>
      let r := (reading p).toNat
      (r * (65536 + (if 65536 < r then m + u.fget ADM_TAPER_XMARGIN else m)) + 65535) / 65536
    let old := fun p => sget 0 u.adm.tempoAt p + max (u.fget ADM_CTRL_STALE_US) 12 * 1000 < u.tb
    let tempo := fun p => if old p then 0x10000 else (u.rd (ADM_TEMPO p)).toNat
    (u.powered = false → exec (.taperReading dt sc cph mau) s = .next u) ∧
    (u.powered = true → Completes (.taperReading dt sc cph mau) s fun t =>
      t = { u with regs := t.regs, flt := t.flt, adm := { u.adm with staleSeen := t.adm.staleSeen } } ∧
      (t.on ADM_STAT_STALE = true ↔ ∃ p < 3, old p) ∧
      (∀ p < 3, (t.adm.staleSeen.getLsbD p = true ↔ old p) ∧ (old p → u.adm.staleSeen.getLsbD p = false → t.on ADM_EVT_STALE = true)) ∧
      (∀ p < 3, t.rd (ADM_TAPRD p) = (reading p).setWidth 64 ∧
        t.rd (ADM_TEFF p) = BitVec.ofNat 64 (max (tempo p) (taper p) % 2 ^ 32)) ∧
      ((∃ p < 3, (u.rd (ADM_TEMPO p)).toNat < taper p) → t.on ADM_EVT_TAPER_UP = true) ∧
      ((∃ p < 3, (u.rd (ADM_TAPRD p)).toNat ≤ 65536 ∧ 65536 < (reading p).toNat) → t.on ADM_EVT_TAPER_BEYOND = true))) ∧
  (∀ (dt : Nat) (p : Fin 3) (s : State),
    let u := s.elapse dt
    let old := fun p => sget 0 u.adm.tempoAt p + max (u.fget ADM_CTRL_STALE_US) 12 * 1000 < u.tb
    let r := (u.rd (ADM_TAPRD p)).toNat
    let m := u.fget ADM_TAPER_TMARGIN
    let taper := (r * (65536 + (if 65536 < r then m + u.fget ADM_TAPER_XMARGIN else m)) + 65535) / 65536
    (¬(u.powered = true ∧ old p) → exec (.tempoStale dt p) s = .next u) ∧
    (u.powered = true → old p → Completes (.tempoStale dt p) s fun t =>
      t.on ADM_STAT_STALE = true ∧ t.rd (ADM_TEFF p) = BitVec.ofNat 64 (max 0x10000 taper % 2 ^ 32) ∧ t.adm.staleSeen = u.adm.staleSeen ||| (1#3 <<< p.val) ∧
      (u.adm.staleSeen.getLsbD p = false → t.on ADM_EVT_STALE = true) ∧
      ((u.rd (ADM_TEMPO p)).toNat < taper → t.on ADM_EVT_TAPER_UP = true) ∧
      (∀ r, r ≠ ADM_EVT → r ≠ ADM_STAT → r ≠ ADM_TEFF p → t.rd r = u.rd r) ∧
      t = { u with regs := t.regs, adm := { u.adm with staleSeen := t.adm.staleSeen } })) ∧
  (∀ (a : Acc) (v : Word32) (s : State),
    let t := s.wr ADM_CTRL ((s.rd ADM_CTRL &&& ~~~0xFF71#64) ||| (v.setWidth 64 &&& 0xFF71))
    Sets (.fastclsWrite a v) a ADM_CTRL v s
      (if s.on FLT_STAT_ISOLATED = true ∧ v.getLsbD 0 = true then s
       else State.setTeffs { t with adm := { t.adm with terms := t.bankTerms t.bank, oldTerms := t.bankTerms (1 - t.bank) } })))
/-! ### Dispatch: programs, epochs, internal requests (06) -/

/-- 06 R179, R184, R185: a write of DSP_LDR_CTRL with GO starts a load, and is ignored while one runs; the load fails with
code 1 while its slot is in use, 2 where the image cannot be read, 3 for a bad header, and with the code of the first
check that fails; a pass fills the slot; a load whose read the flash array stalls goes on (14 R337). DSP_PSLOT_STAT
empties an idle slot. 03 R69, 06 R184: SWITCH in ADM_EPOCH or DSP_EPOCH starts the joint switch of both banks; it fails
with code 6 while entries of the old epoch live, and is ignored while a switch is under way. The switch ends at one
instant: the first dispatch entry that fails leaves both banks and says so; a pass puts the inactive bank in force in
both units under the next epoch number, 1 after 0xFFFF. -/
def Obligations.ProgramsLoadAndEpochsSwitch : Prop :=
  ((∀ (a : Acc) (v : Word32) (s : State),
    let t := s.fset DSP_LDR_CTRL_SLOT v.toNat
    Sets (.programLoad a v) a DSP_LDR_CTRL v s
      (if v.getLsbD 31 = true ∧ t.on DSP_LDR_CTRL_BUSY = false then
        { t.raise DSP_LDR_CTRL_BUSY with dsp := { s.dsp with loading := some ((t.rd DSP_LDR_SRC).toNat, v.toNat % 1024) } }
       else t)) ∧
  (∀ (dt : Nat) (s : State),
    let u := s.elapse dt
    let i := Instr.programLoadDone dt
    let fails := fun (t : State) (e k : Nat) => (State.fset (State.fset ((State.lower { t with
      dsp := { t.dsp with loading := none } } DSP_LDR_CTRL_BUSY).endStalls .loader) DSP_LDR_RES_ERR e) DSP_LDR_RES_INDEX k).raise
        DSP_EVT_LDR_ERR
    (u.powered = false ∨ u.dsp.loading = none → exec i s = .next u) ∧
    (∀ src slot, u.powered = true → u.dsp.loading = some (src, slot) →
      (u.slotIdle slot = false → exec i s = .next (fails u 1 0)) ∧
      (u.slotIdle slot = true →
        let e := u.emptySlot slot
        (∀ x t, e.readBlock ⟨.loader, 0⟩ src 32 = (.error x, t) → exec i s = .next (if x = .wait then t else fails t 2 0)) ∧
        (∀ h t, e.readBlock ⟨.loader, 0⟩ src 32 = (.ok h, t) →
          (headerLens h = none → exec i s = .next (fails t 3 0)) ∧
          (∀ nissue ncode nconst, headerLens h = some (nissue, ncode, nconst) →
            let body := t.readBlock ⟨.loader, 0⟩ (src + 32) (16 * nissue + 4 * ncode + nconst)
            (∀ x w, body = (.error x, w) → exec i s = .next (if x = .wait then w else fails w 2 0)) ∧
            (∀ r w, body = (.ok r, w) →
              let im := imageOf h r nissue ncode nconst
              (∀ code k, w.imageFault im = some (code, k) → exec i s = .next (fails w code k)) ∧
              (w.imageFault im = none → Completes i s fun f =>
                let p := f.prog slot
                p.loaded = true ∧ p.id = leAt h 20 4 ∧ p.ver = leAt h 24 4 ∧ p.ncode = ncode ∧ p.descs = im.descs.map (·.1) ∧
                f.on DSP_EVT_LDR_DONE = true ∧ f.on DSP_LDR_CTRL_BUSY = false ∧ f.fget DSP_LDR_RES_ERR = 0 ∧ f.dsp.loading = none ∧
                (∀ m, m ≠ slot → f.prog m = u.prog m) ∧ f.dsp.ctxs = u.dsp.ctxs ∧ f.mem = u.mem))))))) ∧
  (∀ (a : Acc) (v : Word32) (s : State),
    let n := s.fget DSP_PSLOT_SEL_SLOT
    Sets (.pslotFree a v) a DSP_PSLOT_STAT v s
      (if v.getLsbD 31 = false then s
       else if s.references 0 n = false ∧ s.references 1 n = false ∧ s.slotLive n = 0 then s.emptySlot n
       else s.raise DSP_EVT_EPOCH_ERR))) ∧
  ((∀ (a : Acc) (adm : Bool) (v : Word32) (s : State),
    Sets (.epochSwitch a adm v) a (if adm = true then ADM_EPOCH else DSP_EPOCH) v s
      (if v.getLsbD 31 = false ∨ s.on DSP_EPOCH_BUSY = true then s
       else if 0 < s.oldLive then (s.fset DSP_EPOCH_ERR 6).raise DSP_EVT_EPOCH_ERR
       else (s.raise DSP_EPOCH_BUSY).raise ADM_EPOCH_BUSY)) ∧
  (∀ (dt : Nat) (s : State),
    let u := s.elapse dt
    let i := Instr.epochSwitchDone dt
    let w := (u.lower DSP_EPOCH_BUSY).lower ADM_EPOCH_BUSY
    let b := 1 - w.bank
    (u.on DSP_EPOCH_BUSY = false → exec i s = .next u) ∧
    (u.on DSP_EPOCH_BUSY = true →
      (∀ svc e, w.firstFault b (w.dispatched b) = some (svc, e) →
        exec i s = .next (((w.fset DSP_EPOCH_ERR e).fset DSP_EPOCH_ESVC_ESVC svc).raise DSP_EVT_EPOCH_ERR)) ∧
      (w.firstFault b (w.dispatched b) = none →
        ((w.writeCosts b).bankValid b = false → Completes i s fun t => t.fget DSP_EPOCH_ERR = 7 ∧
          t.on DSP_EVT_EPOCH_ERR = true ∧ t.on ADM_EVT_EPOCH_ERR = true ∧ t.bank = u.bank ∧
          t.fget ADM_EPOCH_NUM = u.fget ADM_EPOCH_NUM ∧ t = { u with regs := t.regs }) ∧
        ((w.writeCosts b).bankValid b = true → Completes i s fun t =>
          let n := if u.fget ADM_EPOCH_NUM = 0xFFFF then 1 else u.fget ADM_EPOCH_NUM + 1
          t.bank = b % 2 ∧ t.fget DSP_STAT_BANK = b % 2 ∧ t.fget ADM_EPOCH_NUM = n ∧ t.fget DSP_EPOCH_NUM = n ∧
          t.fget DSP_EPOCH_ERR = 0 ∧ t.adm.oldTerms = u.adm.terms ∧
          (u.duo.peerDnum = some n → t.duo.skewSince = none) ∧
          t = { u with regs := t.regs, adm := { u.adm with terms := t.adm.terms, oldTerms := u.adm.terms }
                       duo := { u.duo with skewSince := t.duo.skewSince } })))))

/-- 06 R186: a write of DSP_IREQ_GO takes the request of a ring slot while DSP_CTRL.IREQ_EN is 1; a slot that is
outstanding or done sets IREQ_BUSY. A slot whose read the flash array holds up, or that stands behind one, waits (14
R337); one that cannot be read is outstanding no more. A request that names a requester gets BAD_REQUESTER, one that
fails steps 7 to 10 the answer of its step (02 R43; which goes first where both fail is the model's choice, log entry
137); the others are handed to ADM, behind every descriptor of the same instant. The answer of an internal request is
written into its slot, and DONE set. -/
def Obligations.InternalRequestsAct : Prop :=
  (∀ (a : Acc) (v : Word32) (s : State),
    let i : Fin 16 := Fin.ofNat 16 v.toNat
    let base := (s.rd DSP_IREQ_BASE).toNat + 0x8000 * i.val
    let row := Instr.ireqSubmit a v
    let busy := s.dsp.ringBusy.getLsbD i.val = true ∨ s.on (bitFld DSP_IREQ_DONE i.val) = true
    (v.getLsbD 31 = false ∨ s.on DSP_CTRL_IREQ_EN = false → Sets row a DSP_IREQ_GO v s s) ∧
    (v.getLsbD 31 = true → s.on DSP_CTRL_IREQ_EN = true →
      (busy → Sets row a DSP_IREQ_GO v s (s.raise DSP_EVT_IREQ_BUSY)) ∧
      (¬busy →
        let m := { s with dsp := { s.dsp with ringBusy := s.dsp.ringBusy ||| (1#16 <<< i.val) } }
        let held := ∃ k, ArrayWait.ireq k ∈ s.flc.waits
        let puts := Sets row a DSP_IREQ_GO v s
        let waits := fun t : State => puts { t with flc := { t.flc with waits := t.flc.waits ++ [.ireq i] } }
        let drops := fun t : State =>
          let y := t.endStalls .ireq
          puts { y with dsp := { y.dsp with ringBusy := y.dsp.ringBusy &&& ~~~(1#16 <<< i.val) } }
        (held → waits m) ∧
        (¬held →
          (∀ e t, m.readBlock ⟨.ireq, 0⟩ base 40 = (.error e, t) → (e = .wait → waits t) ∧ (e ≠ .wait → drops t)) ∧
          (∀ h t, m.readBlock ⟨.ireq, 0⟩ base 40 = (.ok h, t) →
            let q := CrpReq.parse h
            let whole := t.readBlock ⟨.ireq, 0⟩ base (40 + min q.plen 8192)
            (∀ e w, whole = (.error e, w) → (e = .wait → waits w) ∧ (e ≠ .wait → drops w)) ∧
            (∀ msg w, whole = (.ok msg, w) →
              let x := (w.endStalls .ireq).count 0x05A 1
              let refused := fun status detail : Nat =>
                puts (x.ringAnswer i (({ status := status, detail := detail } : Response).bytes q x.devid))
              let badHead := badHeader q True
              let badServ := badService x q none
              (q.requester ≠ 0 → refused 0x21 0) ∧
              (q.requester = 0 → badHead → refused 0x20 0) ∧
              (q.requester = 0 → ¬badHead → badServ → refused 0x24 0) ∧
              (q.requester = 0 → ¬badHead → ¬badServ → badClass x q → refused 0x25 (minClass x q)) ∧
              (q.requester = 0 → ¬badHead → ¬badServ → ¬badClass x q → badPayload x q → refused 0x26 0) ∧
              (q.requester = 0 → ¬badHead → ¬badServ → ¬badClass x q → ¬badPayload x q →
                puts { x with adm := { x.adm with descs := x.adm.descs ++ [{
                  src := .ring i, reply := {}, req := q, message := msg.take (40 + q.plen), rq := 0, ingress := x.tb
                  epoch := x.fget ADM_EPOCH_NUM, bank := x.bank }] } }))))))) ∧
  (∀ (dt : Nat) (c : Fin 8192) (s : State),
    let u := s.elapse dt
    let x := u.ctx c
    let i := Instr.ireqResponseWritten dt c
    (x.st ≠ .ending ∨ x.grantable = false → exec i s = .next u) ∧
    (∀ slot r, x.st = .ending → x.grantable = true → x.src = .ring slot → x.resp = some r → x.isState = false →
      Completes i s fun t => (t.ctx c).st = .free ∧ t.on (bitFld DSP_IREQ_DONE slot.val) = true ∧
        t.dsp.ringBusy = u.dsp.ringBusy &&& ~~~(1#16 <<< slot.val) ∧ t.freeCtr = u.freeCtr + 2 ∧ t.out = u.out ∧
        (∀ y, y ≠ c.val → t.ctx y = u.ctx y)))

/-! ### The life of a context (03, 06) -/

/-- 06 R177, 10 R262, R265, 03 R73, R80: the fetch of a context that is in FETCH ends with its record in the cache and the
context READY with its key bound: g3 is 0x30 where the handle matches no record, 0x31 where the record's policy forbids
the binding, 0x32 where the record is STUCK, and else 0, with the record's fixed or binding slot in g2 and the record
pinned. It ends in a FAULT of the key store where it does not verify, as frames that failed once and frames sealed under
another key never do (10 R266); an entry for which the Lantern fell meanwhile ends as NO_LANTERN (03 R88, log entry 14).
A free service core takes the READY context of least key that it may run (the slot counted is log entry 160), and a unit
of HOT, SEAL or MIR the ready stage of least key that it may run, and HOT and SEAL the best-effort fetches behind all of
them, which only fill the cache. -/
def Obligations.ContextsAdvance : Prop :=
  (∀ (dt : Nat) (c : Fin 8192) (ok : Bool) (s : State),
    let u := s.elapse dt
    let x := u.ctx c
    let pool := fun l : LStage => l.pool = 3 ∨ l.pool = 4
    let fetching := x.st = .fetch ∧ ∃ l ∈ x.stages, pool l ∧ l.started = true ∧ l.done = false
    let i := Instr.fetchComplete dt c ok
    let hot := x.stages.any (fun l => decide (l.pool = 3))
    let k := handleIndex x.req.handle
    let frames := u.sealedAt k
    let sound := ok = true ∧ (hot = true ∨ frames.image.type = 0 ∨ (frames.bad = false ∧ frames.key = u.kst.sealingKey))
    let r := u.recAt k
    let why := if u.handleMatches x.req.handle = false then 0x30 else if policyOk r x = false then 0x31
      else if r.stuck = true then 0x32 else 0
    (¬fetching → exec i s = .next u) ∧
    (fetching → sound → x.fell = true → Completes i s fun t =>
      (t.ctx c).st = .ending ∧ (t.ctx c).resp = some { status := 0x11 } ∧ ∀ y, y ≠ c.val → t.ctx y = u.ctx y) ∧
    (fetching → sound → x.fell = false → x.isState = false → Completes i s fun t =>
      (t.ctx c).st = .ready ∧ (t.ctx c).stages = completeStage (fun l => decide (l.pool = 3) || decide (l.pool = 4)) x.stages ∧
      (t.ctx c).key = x.key ∧ (∀ y, y ≠ c.val → t.ctx y = u.ctx y) ∧
      (u.hasRec k = true → (t.cachedAt k).isSome = true) ∧
      (x.req.handle ≠ 0 → x.nop = false → sget 0 (sget {} t.dsp.regs c).g 3 = BitVec.ofNat 64 why) ∧
      (x.req.handle ≠ 0 → why = 0 → (t.ctx c).bound = some k ∧ (t.ctx c).boundVersion = r.version ∧ (t.ctx c).useN = none ∧
        ∃ e, t.cachedAt k = some e ∧ 0 < e.binds ∧ ∃ slot, (e.fixed.orElse fun _ => e.bindSlot) = some slot ∧
          (x.nop = false → sget 0 (sget {} t.dsp.regs c).g 2 = BitVec.ofNat 64 slot))) ∧
    (fetching → ¬sound → Completes i s fun t => (t.ctx c).st = .ending ∧ t.on KST_INTLOG_VALID = true ∧
      (t.ctx c).resp = some { status := 0x39, detail := 0x70000 + (if hot = true then 1 else 2) } ∧
      ∀ y, y ≠ c.val → t.ctx y = u.ctx y)) ∧
  (∀ (dt : Nat) (k : Fin 64) (s : State),
    let u := s.elapse dt
    let able := u.live.filter fun e => u.scMayRun e.1 e.2
    (u.powered = false ∨ (u.ctxOn k).isSome = true ∨ able = [] → exec (.contextDispatch dt k) s = .next u) ∧
    (∀ c x, u.powered = true → u.ctxOn k = none → firstByKey able = some (c, x) →
      Completes (.contextDispatch dt k) s fun t =>
        (c, x) ∈ able ∧ (∀ e ∈ able, e.2.before x = false) ∧
        (∃ st, t = (u.setCtx c { x with st := .running, core := some k, stages := st }).count (0x102 + 4 * k.val) 1 ∧
          (u.scStage c = none → st = x.stages) ∧
          (∀ l, u.scStage c = some l → st = startStage (fun y => decide (y.pool = 0) && decide (y.index = l.index)) x.stages)))) ∧
  (∀ (dt : Nat) (p : Fin 3) (s : State),
    let u := s.elapse dt
    let ready := u.readyFor (3 + p.val)
    let keyed := ∃ e ∈ u.live, e.2.st = .fetch ∧ (nextStage e.2 (3 + p.val)).isSome = true
    let be := u.beStage (3 + p.val)
    let queued := u.adm.beFetch.find? fun i => decide (u.tier i = if 3 + p.val = 3 then Tier.hot else Tier.seal)
    let mir := u.live.filter fun e => mirReady e.2 && u.nextMayRun 5 e.2
    (p.val < 2 → ready = [] → keyed ∨ u.mayRun (3 + p.val) {} be = false ∨ queued = none → exec (.stageStart dt p) s = .next u) ∧
    (∀ i, p.val < 2 → ready = [] → ¬keyed → u.mayRun (3 + p.val) {} be = true → queued = some i →
      exec (.stageStart dt p) s = .next { u.count (0x051 + p.val) 1 with adm := { u.adm with
        beFetch := u.adm.beFetch.erase i, beRun := u.adm.beRun ++ [(i, be)] } }) ∧
    (∀ c x, p.val < 2 → firstByKey ready = some (c, x) → exec (.stageStart dt p) s =
      .next ((u.setCtx c { x with stages := startStage (fun l => decide (l.pool = 3 + p.val)) x.stages }).count (0x051 + p.val) 1)) ∧
    (p.val = 2 → mir = [] → exec (.stageStart dt p) s = .next u) ∧
    (∀ c x, p.val = 2 → firstByKey mir = some (c, x) →
      exec (.stageStart dt p) s =
        .next ((u.setCtx c { x with stages := startStage (fun l => decide (l.pool = 5)) x.stages }).sendCommit c))) ∧
  (∀ (dt : Nat) (ok : Bool) (s : State),
    let u := s.elapse dt
    (u.adm.beRun = [] → exec (.bestEffortFetchDone dt ok) s = .next u) ∧
    (∀ i l rest, u.adm.beRun = (i, l) :: rest → Completes (.bestEffortFetchDone dt ok) s fun t =>
      let frames := u.sealedAt i
      let sound := ok = true ∧
        (l.pool = 3 ∨ frames.image.type = 0 ∨ (frames.bad = false ∧ frames.key = u.kst.sealingKey))
      t.adm = { u.adm with beRun := rest } ∧ t.dsp = u.dsp ∧ (sound → u.hasRec i = true → (t.cachedAt i).isSome = true) ∧
      (¬sound → t.on KST_INTLOG_VALID = true ∧ t.kst.cached = u.kst.cached) ∧ (sound → t.kst.hotValid = u.kst.hotValid)))

/-- 02 R41, R42, R44, R59, 03 R75, 10 R267: the refusals that could start by now have (`flushRefusals`); then the
transmit unit of a free port takes the grantable response of least key of that port that it may run. On a port that can
send, the response leaves now, with its FLAGS and, where TSREQ asked for it, the timestamps; on another it is dropped
and RESP_DROP set; either way its context becomes FREE, and no other context changes. LATE is set where the entry's key
and 180 ns have passed, or where its commit waited for log room; TS_LOCKED is a free value. -/
def Obligations.ResponsesAreGranted : Prop :=
  ∀ (dt : Nat) (p : Fin 4) (s : State),
    let i := Instr.responseGrant dt p
    let u := (s.elapse dt).flushRefusals p
    let able := u.live.filter fun e => decide (e.2.src = .port p ∧ e.2.st = .ending) && e.2.grantable && u.txMayRun p e.2
    ((s.elapse dt).powered = false → exec i s = .next (s.elapse dt)) ∧
    ((s.elapse dt).powered = true → u.tb < u.portFree p ∨ able = [] → exec i s = .next u) ∧
    (∀ c x r, (s.elapse dt).powered = true → u.portFree p ≤ u.tb → firstByKey able = some (c, x) → x.resp = some r → x.isState = false →
      Completes i s fun t =>
        (t.ctx c).st = .free ∧ (∀ y, y ≠ c → t.ctx y = u.ctx y) ∧ t.freeCtr = u.freeCtr + 2 ∧
        (u.canSend p = false → t.on SVC_EVT_RESP_DROP = true ∧ t.out = u.out) ∧
        (u.canSend p = true → u.secy p = false → ∃ late locked : Bool,
          ((∀ e, x.key = some e → x.late = true ∨ e + 180 < u.tb → late = true) ∧
            (∀ e, x.key = some e → u.tb ≤ e → x.late = false → late = false) ∧ (x.key = none → late = x.late)) ∧
          let flags := (if x.req.tsreq = true then 1 else 0) + (if late = true then 2 else 0) +
            (if x.mirrored = true then 4 else 0) + (if locked = true then 8 else 0)
          let content := u.crpFrame p x.reply (({ r with
            flags := flags, ts := if x.req.tsreq = true then some (x.ingress, x.respAt) else none } : Response).bytes x.req u.devid)
          t.out = u.out ++ [.frame p u.tb (content ++ List.replicate (60 - content.length) 0)] ∧
          u.tb < t.portFree p))

/-! ### The access table (07) -/

/-- 07 R201-R203, R205: a write of a staging rule is refused with CFG_REJ while a switch is under way or the active rule
is locked; else it sets the rule's fields, addresses by their high word; SWITCH starts a switch. At its instant a staging
rule with EN = 1 whose START exceeds its END fails it: ERR, ERRRULE and EPOCH_ERR say so, and the active table stays.
Else every staging rule is in force under the next epoch number, and the accesses in flight are counted and marked:
stores that have entered, accesses that the flash array stalls, and the debug port's. Either way the switch is over. A
write of a control core with CUST clears DBGSTKY, and a write of no other master. -/
def Obligations.AccessTableSwitches : Prop :=
  (∀ (a : Acc) (n : Fin 1024) (v : Word32) (s : State),
    let shut := s.on ACT_EPOCH_BUSY = true ∨ s.on (ACT_ARULE_ATTR_LOCK n) = true
    let w := v.setWidth 64
    let put := fun r (m x : Word) => s.wr r ((s.rd r &&& ~~~m) ||| (x &&& m))
    let key := fun r => midOf a.master * 2 ^ 48 + r
    (shut → ∀ k : Fin 6, Sets (.ruleStagingWrite a n k v) a (0x40110000 + 32 * n.val + 4 * k.val) v s (s.raise ACT_EVT_CFG_REJ)) ∧
    (¬shut →
      Sets (.ruleStagingWrite a n 4 v) a (ACT_RULE_ATTR n) v s (put (ACT_RULE_ATTR n) 0xC0000007 w) ∧
      Sets (.ruleStagingWrite a n 5 v) a (ACT_RULE_MSET n) v s (put (ACT_RULE_MSET n) 0x7FFFFF w) ∧
      (∀ k : Fin 6, k = 0 ∨ k = 2 →
        let r := 0x40110000 + 32 * n.val + 4 * k.val
        Sets (.ruleStagingWrite a n k v) a r v s { s with heldLow := sput none s.heldLow (key r) (some v) }) ∧
      (∀ (k : Fin 6) (low : Word32), k = 1 ∨ k = 3 →
        let r := 0x40110000 + 32 * n.val + 4 * (k.val - 1)
        sget none s.heldLow (key r) = some low →
        Sets (.ruleStagingWrite a n k v) a (r + 4) v s
          { put r 0xFFFFFFFFFFE0 (w <<< 32 ||| low.setWidth 64) with heldLow := sput none s.heldLow (key r) none }))) ∧
  (∀ (a : Acc) (v : Word32) (s : State),
    Sets (.actEpochSwitch a v) a ACT_EPOCH v s
      (if v.getLsbD 31 = true ∧ s.on ACT_EPOCH_BUSY = false then s.raise ACT_EPOCH_BUSY else s) ∧
    Sets (.dbgstkyClear a v) a ACT_DBGSTKY_CLR v s
      (if v.getLsbD 0 = true ∧ ∃ n, a.master = .ctl n then s.lower ACT_DBGSTKY_HIT else s)) ∧
  (∀ (dt : Nat) (s : State),
    let u := s.elapse dt
    let i := Instr.actSwitchInstant dt
    let ready := u.powered = true ∧ u.on ACT_EPOCH_BUSY = true ∧ u.fget ACT_EPOCH_DRAIN_OLD_LIVE = 0
    let bad := fun n => u.on (ACT_RULE_ATTR_EN n) = true ∧ u.rd (ACT_RULE_END n) < u.rd (ACT_RULE_START n)
    (¬ready → exec i s = .next u) ∧
    (ready → Completes i s fun t => t.on ACT_EPOCH_BUSY = false ∧
      (t.on ACT_EVT_EPOCH_ERR = true ∨ t.on ACT_EVT_EPOCH_DONE = true) ∧ t.mem = u.mem ∧ t.dsp = u.dsp ∧ t.sys = u.sys) ∧
    (Canonical s → ready →
      (∀ n < 1024, bad n → (∀ m < n, ¬bad m) → exec i s = .next
        ((((u.raise ACT_EPOCH_ERR).fset ACT_EPOCH_ERRRULE n).raise ACT_EVT_EPOCH_ERR).lower ACT_EPOCH_BUSY)) ∧
      ((∀ n < 1024, ¬bad n) → Completes i s fun t =>
        (∀ r, 0x40110000 ≤ r → r < 0x40118000 → t.rd (r + 0x10000) = u.rd r ∧ t.rd r = u.rd r) ∧
        t.fget ACT_EPOCH_NUM = (u.fget ACT_EPOCH_NUM + 1) % 2 ^ 16 ∧ t.on ACT_EPOCH_BUSY = false ∧ t.on ACT_EPOCH_ERR = false ∧
        t.on ACT_EVT_EPOCH_DONE = true ∧ t.fget ACT_EPOCH_DRAIN_OLD_LIVE = u.inFlight % 2 ^ 13 ∧
        (∀ r, r ≠ ACT_EPOCH → r ≠ ACT_EPOCH_DRAIN → r ≠ ACT_EVT → r < 0x40120000 ∨ 0x40128000 ≤ r → t.rd r = u.rd r) ∧
        t = { u with
          regs := t.regs
          cores := u.cores.map fun e => (e.1, { e.2 with storeBuf := e.2.storeBuf.map fun b => { b with old := b.entered } })
          flc := { u.flc with stalled := u.flc.stalled.map fun x => { x with old := !x.served && decide (x.master ≠ .dap) } }
          obs := { u.obs with dap := { u.obs.dap with old := u.obs.dap.flight } } })))

/-! ### The engine pools (08, 09) -/

/-- 03 R73, 08 R216, R218: an active cipher engine that is idle takes a reissue, or the waiting command of least key
that it may run: a FAST unit only a fast-class one, a long one only under the long cap. The keys are delivered, the
stage begins, and the command leaves the queue; the checker lane holds its key and plaintext complemented (08 R210).
04 R131, 08 R211, R212, R214, R217, R219: where the lanes agree, the command ends with its STATUS: a length out of range is
LENGTH, a slot its operation may not use KEY_TYPE, and else what the operation gives on its key, its input (the content of
ISLOT where it names one), its associated data, its IV, its tag and the random blocks drawn (`CphCmd.compute`). Output is
released only with OK: to OUT_OFF, and the tag of a GCM encryption to TAG_OFF, or to OSLOT; the ticket completes with DONE,
the unit and the STATUS. A first disagreement releases nothing, is captured and signalled, and the command runs again; a
second one answers FAULT. A draw still waiting holds the unit. -/
def Obligations.CipherEnginesRunCommands : Prop :=
  (∀ (dt : Nat) (n : Fin 18) (s : State),
    let u := s.elapse dt
    let i := Instr.cphCommandStart dt n
    let ready := u.powered = true ∧ u.cphSet CPH_ACTIVE n = true ∧ (u.cphUnit n).cmd = none ∧ (u.cphUnit n).testing = false ∧
      ∀ p ∈ u.cphTake, p.1 ≠ n.val
    let may := fun e : EngCmd => (u.cphSet CPH_FASTROLE n = true → (u.ctx e.ctx).fast = true) ∧
      (u.cmdLong e = true → u.longRunning u.cph < u.longCap 1)
    (¬ready ∨ (∀ e ∈ u.cphQ, e.reissue = false ∧ ¬may e) → exec i s = .next u) ∧
    (ready → (∃ e ∈ u.cphQ, e.reissue = true ∨ may e) → Completes i s fun t => ∃ e ∈ u.cphQ,
      (e.reissue = true ∨ ((∀ x ∈ u.cphQ, x.reissue = false) ∧ may e ∧
        ∀ x ∈ u.cphQ, may x → (u.ctx x.ctx).before (u.ctx e.ctx) = false)) ∧
      t.cphQ = u.cphQ.erase e ∧
      (t.cphUnit n).cmd = some e ∧ (t.cphUnit n).startedAt = u.tb ∧
      (t.cphUnit n).key = u.slotContent (bitsOf (e.words.getD 1 0) 0 16) ∧
      (t.cphUnit n).plain = u.slotContent (bitsOf (e.words.getD 1 0) 16 16) ∧
      (let flipped := fun x : SlotContent => { x with bytes := x.bytes.map fun b => ~~~b }
       (t.cphUnit n).checkKey = (t.cphUnit n).key.map flipped ∧ (t.cphUnit n).checkPlain = (t.cphUnit n).plain.map flipped) ∧
      (∀ m, m ≠ n.val → t.cphUnit m = u.cphUnit m) ∧
      (t.ctx e.ctx).stages = startStage (fun l => decide ((l.pool = 1 ∨ l.pool = 2) ∧ l.index = e.index)) (u.ctx e.ctx).stages ∧
      (∀ y, y ≠ e.ctx → t.ctx y = u.ctx y) ∧ t.kst = u.kst ∧ t.mau = u.mau ∧ t.mauQ = u.mauQ)) ∧
  (∀ (dt : Nat) (n : Fin 18) (agree : Bool) (s : State),
    let u := s.elapse dt
    let x := u.cphUnit n
    let i := Instr.cphCompletion dt n agree
    (x.want ≠ 0 ∨ x.cmd = none → exec i s = .next u) ∧
    (∀ e, x.want = 0 → x.cmd = some e →
      let m := cphParse e.words
      (agree = true → u.ticket e.ctx e.ticket = .outstanding → Completes i s fun t => ∃ status,
        (m.lengthOk = false → status = 3) ∧ (m.lengthOk = true → m.slotsOk x.key x.plain = false → status = 2) ∧
        t.ticket e.ctx e.ticket = .done (BitVec.ofNat 64 (2 ^ 63 + n.val * 2 ^ 32 + status)) ∧
        (t.cphUnit n).cmd = none ∧ (∀ k, k ≠ n.val → t.cphUnit k = u.cphUnit k) ∧
        (status ≠ 0 → t.dsp.mem = u.dsp.mem ∧ t.kst = u.kst) ∧ (m.osel = true → m.op ≠ 0x101 → t.dsp.mem = u.dsp.mem) ∧
        (m.osel = false → t.kst = u.kst) ∧ (∀ y, y ≠ e.ctx → t.ctx y = u.ctx y) ∧
        (m.lengthOk = true → m.slotsOk x.key x.plain = true →
          let r := m.compute (keyBytes x.key) (if m.islot ≠ 0 then keyBytes x.plain else e.input m.inOff m.inLen)
            (e.input m.auxOff (if m.op = 0x101 then m.alen else m.slen))
            (e.input m.ivOff (if m.op = 0x101 then 12 else if isStream m.op = true then 16 else 0)) (e.input m.tagOff m.tag)
            (blockBytes x.got)
          let misfit := r.status = 0 ∧ m.osel = true ∧ isPre m.op = false ∧ typeLenOk m.oktype r.out.length = false
          status = (if misfit then 2 else r.status) ∧
          (status = 0 → m.osel = true → t.transient m.oslot = { type := m.outType, bytes := r.out }) ∧
          (status = 0 → m.osel = false → m.vfy = true → t.dsp.mem = u.dsp.mem) ∧
          (status = 0 → m.osel = false → m.vfy = false →
            let out := prvWrite u.dsp.mem (e.base + m.outOff) r.out
            t.dsp.mem = if m.op = 0x101 ∧ m.dec = false then prvWrite out (e.base + m.tagOff) r.tag else out)) ∧
        t.dsp.regs = u.dsp.regs ∧ t.mem = u.mem ∧ t.out = u.out) ∧
      (agree = false → Completes i s fun t =>
        t.dsp.mem = u.dsp.mem ∧ t.kst = u.kst ∧ t.on CPH_EVT_MISMATCH = true ∧ t.on CPH_MMLOG_VALID = true ∧
        (e.second = true → (t.ctx e.ctx).st = .ending ∧ (t.ctx e.ctx).resp = some { status := 0x39, detail := 0x50000 + n.val }) ∧
        (e.second = false →
          let f := { e with reissue := true, second := true, logged := !u.on CPH_MMLOG_VALID }
          f ∈ t.cphQ ∨ ∃ k, (t.cphUnit k).cmd = some f) ∧
        (∀ y, y ≠ e.ctx → t.ctx y = u.ctx y))))

/-- What an integer primitive of `n` words gives on A, B (E of MEXP) and M, or the STATUS it ends with (09 Tables 9.3,
9.4). -/
def Sys2Proof.primGives (op n a b m : Nat) (r : Except Nat Nat) : Prop :=
  match op with
  | 0x1001 => r = if a < m ∧ b < m then .ok ((a + b) % m) else .error 4
  | 0x1002 => if a < m ∧ b < m then ∃ v, r = .ok v ∧ v < m ∧ (v + b) % m = a else r = .error 4
  | 0x1003 =>
    if a < m ∧ b < m ∧ m % 2 = 1 then ∃ v, r = .ok v ∧ v < m ∧ v * 2 ^ (64 * n) % m = a * b % m else r = .error 4
  | 0x1004 =>
    if a < m ∧ m % 2 = 1 then (if Nat.gcd a m = 1 then ∃ v, r = .ok v ∧ v < m ∧ v * a % m = 1 % m else r = .error 5)
    else r = .error 4
  | 0x1005 => r = if a < m ∧ m % 2 = 1 then .ok (a ^ b % m) else .error 4
  | 0x1006 => r = .ok (a * b)
  | _ => r = if m = 0 then .error 4 else .ok (a % m)

/-- 09 R232-R234, R242-R246: an active modular unit that is idle takes a frozen command first; else, where a
secret-bearing command has no unit with entropy, that context is answered RNG_FAIL and ENTROPY set; else the waiting
command of least key it may run. A command ends with its STATUS and its ticket completes; its output is released in one
piece, and only with OK. An integer primitive whose operands lie at IN_OFF, consecutive little-endian integers of NW words
(A of MRED twice as many), writes its result at OUT_OFF (MRED by 0 is log entry 142). A failed check or a double-bit error
answers FAULT. A unit that has been cleared after an abort reports idle, and one without a seed drawn ahead asks
for one; a limit that is reached takes it between commands (`reseed`). -/
def Obligations.ModularUnitsRunCommands : Prop :=
  (∀ (dt : Nat) (n : Fin 136) (s : State),
    let u := s.elapse dt
    let i := Instr.mauCommandStart dt n
    let x := u.mauUnit n
    let ready := u.powered = true ∧ u.mauSet MAU_ACTIVE n = true ∧ u.mauIdle n = true
    (¬ready → exec i s = .next u) ∧
    (∀ b rest, ready → u.mauBuf = b :: rest → exec i s = .next (State.raise (State.setMau { u with mauBuf := rest } n
      { x with cmd := b.cmd, startedAt := u.tb, key := b.key, plain := b.plain, om := b.om }) MAU_EVT_MIGRATED)) ∧
    (∀ e, ready → u.mauBuf = [] → u.starved = some e → Completes i s fun t =>
      e ∈ u.mauQ ∧ e.secretBearing = true ∧ (∀ k < 136, u.mauSet MAU_ACTIVE k = true → (u.mauUnit k).within = false) ∧
      (t.ctx e.ctx).st = .ending ∧ (t.ctx e.ctx).resp = some { status := 0x38 } ∧ t.on MAU_EVT_ENTROPY = true ∧
      ∀ c ∈ t.mauQ, c.ctx ≠ e.ctx) ∧
    (ready → u.mauBuf = [] → u.starved = none →
      let may := fun e : EngCmd => (u.mauSet MAU_FASTROLE n = true → (u.ctx e.ctx).fast = true) ∧
        (u.cmdLong e = true → u.longRunning u.mau < u.longCap 2) ∧ (e.secretBearing = true → x.within = true)
      ((∀ e ∈ u.mauQ, ¬may e) → exec i s = .next u) ∧
      ((∃ e ∈ u.mauQ, may e) → Completes i s fun t => ∃ e ∈ u.mauQ, may e ∧
        (∀ y ∈ u.mauQ, may y → (u.ctx y.ctx).before (u.ctx e.ctx) = false) ∧ t.mauQ = u.mauQ.erase e ∧
        let y := (u.reseed n).mauUnit n
        (t.mauUnit n).cmd = some e ∧ (t.mauUnit n).startedAt = u.tb ∧ (t.mauUnit n).seeded = y.seeded ∧ (t.mauUnit n).seed = y.seed ∧
        (t.mauUnit n).secretCmds = y.secretCmds + (if e.secretBearing = true then 1 else 0) ∧
        (∀ m, m ≠ n.val → t.mauUnit m = u.mauUnit m) ∧ (∀ y, y ≠ e.ctx → t.ctx y = u.ctx y)))) ∧
  (∀ (dt : Nat) (n : Fin 136) (chk : Fin 3) (s : State),
    let u := s.elapse dt
    let x := u.mauUnit n
    let i := Instr.mauCompletion dt n chk
    (x.cmd = none ∨ x.migrating ≠ none → exec i s = .next u) ∧
    (∀ e, x.cmd = some e → x.migrating = none →
      (chk = 1 → e.checked = false → exec i s = .next u) ∧
      (chk = 2 ∨ (chk = 1 ∧ e.checked = true) → Completes i s fun t =>
        (t.ctx e.ctx).st = .ending ∧ (t.ctx e.ctx).resp = some { status := 0x39, detail := 0x60000 + n.val } ∧
        (t.mauUnit n).cmd = none ∧ t.dsp.mem = u.dsp.mem ∧ t.kst = u.kst ∧ t.on MAU_CHKLOG_VALID = true ∧
        t.on (if chk = 2 then MAU_EVT_DBE else MAU_EVT_CHKFAIL) = true) ∧
      (chk = 0 → (x.mauResult e).failed = false → u.ticket e.ctx e.ticket = .outstanding → Completes i s fun t =>
        let r := x.mauResult e
        t.ticket e.ctx e.ticket = .done (BitVec.ofNat 64 (2 ^ 63 + n.val * 2 ^ 32 + r.status)) ∧ (t.mauUnit n).cmd = none ∧
        (r.status ≠ 0 → t.dsp.mem = u.dsp.mem ∧ t.kst = u.kst) ∧ (r.secret = none → t.kst = u.kst) ∧
        (r.status = 0 → t.dsp.mem = r.out.foldl (fun m o => prvWrite m (e.base + o.1) o.2) u.dsp.mem) ∧
        (let m := mauParse e.words
         (∀ b, r.status = 0 → r.secret = some b → t.transient m.oslot = { type := m.oktype, bytes := b }) ∧
         (0x1001 ≤ m.op → m.op ≤ 0x1007 → m.lengthOk = true → m.kslot = 0 → m.islot = 0 → m.osel = false →
          let input := e.input m.inOff m.inLen
          let w := 8 * m.nw
          let aw := if m.op = 0x1007 then 2 * w else w
          let md := if m.op = 0x1004 ∨ m.op = 0x1007 then leAt input aw w else leAt input (2 * w) w
          ∃ v, primGives m.op m.nw (leAt input 0 aw) (leAt input aw w) md v ∧
            (∀ k, v = .error k → r.status = k) ∧
            (∀ k, v = .ok k → r.status = 0 ∧
              t.dsp.mem = prvWrite u.dsp.mem (e.base + m.outOff) (leBytes (if m.op = 0x1006 then 2 * w else w) k)))) ∧
        (∀ m, m ≠ n.val → t.mauUnit m = u.mauUnit m) ∧ ∀ y, y ≠ e.ctx → t.ctx y = u.ctx y))) ∧
  (∀ (n : Fin 136) (s : State),
    Happens (.mauAbortIdle · n) s (fun u => (u.mauUnit n).clearing ≠ none)
      (fun u => ((u.countBusy 0x059 (u.tb - (u.mauUnit n).startedAt)).setMau n
        { u.mauUnit n with clearing := none, held := none }).reseed n) ∧
    Happens (.mauReseedRequest · n) s
      (fun u => u.powered = true ∧ u.mauSet MAU_RETIRED n = false ∧ (u.mauUnit n).nextSeed = none)
      (fun u => u.setMau n { u.mauUnit n with reseedAsked := true }))

/-- 08 R222-R224: CPH_RETIRE names a unit; one that is active moves to CPH_RETIRED, an idle spare takes its role, and its
command runs there or goes first; where every spare runs a reissue the lowest takes the role when that ends; with no spare
NO_SPARE is set, and a FAST role goes to the lowest active unit without one (08 R221, R223); a spare that is retired
goes on with what it runs, and a unit that waited for it goes to another spare; SHRINK is set where MEFF falls (03 R71,
R86); a retired unit changes nothing. CPH_REINST tests
a retired unit in CUSTODY alone; one that passes becomes a spare.
09 R248-R250: a retired modular unit hands its role to the lowest spare; its frozen command moves there, or without a
spare into a buffer of two; a third one, and a copy that fails, answer FAULT. MAU_REINST tests a retired unit in CUSTODY
alone; one that passes becomes a spare. -/
def Obligations.EnginesRetireAndReturn : Prop :=
  ((∀ (a : Acc) (v : Word32) (s : State),
    let n := v.toNat % 32
    let i := Instr.cphRetire a v
    (v.getLsbD 31 = false → Sets i a CPH_RETIRE v s s) ∧
    (v.getLsbD 31 = true → 17 < n → Sets i a CPH_RETIRE v s (s.raise CPH_EVT_CFG_REJ)) ∧
    (v.getLsbD 31 = true → n ≤ 17 → s.cphSet CPH_RETIRED n = true ∨ (∃ p ∈ s.cphTake, p.1 = n) → Sets i a CPH_RETIRE v s s) ∧
    (v.getLsbD 31 = true → n ≤ 17 → s.cphSet CPH_RETIRED n = false → (∀ p ∈ s.cphTake, p.1 ≠ n ∧ p.2 ≠ n) →
      s.cphSet CPH_SPARE n = true → MayWrite s a CPH_RETIRE v → Completes i s fun t =>
        t.cphSet CPH_RETIRED n = true ∧ t.cphSet CPH_SPARE n = false ∧ t.on CPH_EVT_RETIRED = true ∧ t = { s with regs := t.regs } ∧
        (t.meff 1 < s.meff 1 → t.on ADM_EVT_SHRINK = true)) ∧
    (∀ r k, v.getLsbD 31 = true → n ≤ 17 → s.cphSet CPH_RETIRED n = false → s.cphSet CPH_SPARE n = true →
      s.cphTake = [(r, n)] → r ≠ n → k ≠ n → s.cphIdleSpare = some k → MayWrite s a CPH_RETIRE v → Completes i s fun t =>
        t.cphTake = [] ∧ t.cphSet CPH_RETIRED n = true ∧ t.cphSet CPH_RETIRED r = true ∧ t.cphSet CPH_ACTIVE k = true ∧
        t.cphSet CPH_SPARE k = false) ∧
    (v.getLsbD 31 = true → n ≤ 17 → s.cphSet CPH_RETIRED n = false → s.cphSet CPH_SPARE n = false → (∀ p ∈ s.cphTake, p.1 ≠ n) →
      MayWrite s a CPH_RETIRE v → Completes i s fun t =>
        let cmd := (s.cphUnit n).cmd.map fun e => { e with reissue := true }
        (t.meff 1 < s.meff 1 → t.on ADM_EVT_SHRINK = true) ∧
        (∀ k, s.cphIdleSpare = some k →
          t.cphSet CPH_RETIRED n = true ∧ t.cphSet CPH_ACTIVE n = false ∧ t.cphSet CPH_ACTIVE k = true ∧
          t.cphSet CPH_SPARE k = false ∧ t.cphSet CPH_FASTROLE k = s.cphSet CPH_FASTROLE n ∧ t.on CPH_EVT_RETIRED = true ∧
          (t.cphUnit k).cmd = (match cmd with
            | some e => some e
            | none => (s.cphUnit k).cmd)) ∧
        (∀ k, s.cphIdleSpare = none → s.cphBusySpare = some k →
          t.cphTake = s.cphTake ++ [(n, k)] ∧ t.cphQ = cmd.toList ++ s.cphQ) ∧
        (s.cphIdleSpare = none → s.cphBusySpare = none →
          t.cphSet CPH_RETIRED n = true ∧ t.cphSet CPH_ACTIVE n = false ∧ t.on CPH_EVT_NO_SPARE = true ∧
          t.cphQ = cmd.toList ++ s.cphQ ∧
          (∀ k < 18, s.cphSet CPH_FASTROLE n = true → k ≠ n → s.cphSet CPH_ACTIVE k = true → s.cphSet CPH_FASTROLE k = false →
            (∀ m < k, m ≠ n → s.cphSet CPH_ACTIVE m = true → s.cphSet CPH_FASTROLE m = true) → t.cphSet CPH_FASTROLE k = true)))) ∧
  (∀ (dt : Nat) (n : Fin 18) (s : State),
    let u := s.elapse dt
    let waits := u.cphTake.find? fun p => decide (p.2 = n.val)
    (waits = none ∨ u.cphIdle n = false → exec (.cphSpareTakeover dt n) s = .next u) ∧
    (∀ r v, waits = some (r, v) → u.cphIdle n = true → r < 18 → r ≠ n.val →
      Completes (.cphSpareTakeover dt n) s fun t => t.cphTake = u.cphTake.filter (fun p => !decide (p.2 = n.val)) ∧ t.cphSet CPH_RETIRED r = true ∧
        t.cphSet CPH_ACTIVE r = false ∧ t.cphSet CPH_ACTIVE n = true ∧ t.cphSet CPH_SPARE n = false ∧ t.on CPH_EVT_RETIRED = true)) ∧
  (∀ (a : Acc) (v : Word32) (s : State),
    let n := v.toNat % 32
    Sets (.cphReinst a v) a CPH_REINST v s
      (if v.getLsbD 31 = false then s
       else if s.sys.mode ≠ .custody ∨ 17 < n ∨ s.cphSet CPH_RETIRED n = false ∨ s.on CPH_BIST_BUSY = true then s.raise CPH_EVT_CFG_REJ
       else (s.wr CPH_BIST (BitVec.ofNat 64 (2 ^ 31 + n))).setCph n { s.cphUnit n with testing := true })) ∧
  (∀ (dt : Nat) (pass : Bool) (s : State),
    let u := s.elapse dt
    let n := u.fget CPH_BIST_UNIT
    (u.on CPH_BIST_BUSY = false → exec (.cphBistDone dt pass) s = .next u) ∧
    (u.on CPH_BIST_BUSY = true → n < 18 → Completes (.cphBistDone dt pass) s fun t =>
      t.on CPH_BIST_BUSY = false ∧ t.on CPH_BIST_PASS = pass ∧ t.on CPH_BIST_FAIL = !pass ∧ t.cphUnit n = {} ∧
      (pass = true → t.cphSet CPH_RETIRED n = false ∧ t.cphSet CPH_SPARE n = true) ∧
      (pass = false → t.on CPH_EVT_BIST_FAIL = true ∧ t.cphSet CPH_RETIRED n = u.cphSet CPH_RETIRED n)))) ∧
  ((∀ (a : Acc) (v : Word32) (s : State),
    let n := v.toNat % 256
    let x := s.mauUnit n
    let i := Instr.mauRetire a v
    (v.getLsbD 31 = false → Sets i a MAU_RETIRE v s s) ∧
    (v.getLsbD 31 = true → 135 < n → Sets i a MAU_RETIRE v s (s.raise MAU_EVT_CFG_REJ)) ∧
    (v.getLsbD 31 = true → n ≤ 135 → s.mauSet MAU_ACTIVE n = false → Sets i a MAU_RETIRE v s s) ∧
    (v.getLsbD 31 = true → n ≤ 135 → s.mauSet MAU_ACTIVE n = true → MayWrite s a MAU_RETIRE v → Completes i s fun t =>
      t.mauSet MAU_ACTIVE n = false ∧
      (∀ k, s.mauSpare = some k → k ≠ n → t.mauSet MAU_ACTIVE k = true ∧ t.mauSet MAU_SPARE k = false ∧
        (∀ e, x.cmd = some e → (t.mauUnit n).migrating = some k ∧ (t.mauUnit n).cmd = some e) ∧
        (x.cmd = none → t.mauSet MAU_RETIRED n = true ∧ t.on MAU_EVT_RETIRED = true)) ∧
      (s.mauSpare = none → t.mauSet MAU_RETIRED n = true ∧ t.on MAU_EVT_NO_SPARE = true ∧
        (∀ e, x.cmd = some e → s.mauBuf.length < 2 → t.mauBuf.length = s.mauBuf.length + 1) ∧
        (∀ e, x.cmd = some e → 2 ≤ s.mauBuf.length → (t.ctx e.ctx).st = .ending ∧ t.on MAU_EVT_MIG_FAIL = true ∧
          (t.ctx e.ctx).resp = some { status := 0x39, detail := 0x60000 + n })))) ∧
  (∀ (dt : Nat) (n : Fin 136) (ok : Bool) (s : State),
    let u := s.elapse dt
    let x := u.mauUnit n
    let i := Instr.mauMigrationDone dt n ok
    (x.migrating = none → exec i s = .next u) ∧
    (∀ k e, x.migrating = some k → x.cmd = some e → k ≠ n.val → Completes i s fun t =>
      t.mauSet MAU_RETIRED n = true ∧ (t.mauUnit n).cmd = none ∧ (t.mauUnit n).migrating = none ∧
      (ok = true → (t.mauUnit k).cmd = some e ∧ (t.mauUnit k).startedAt = u.tb ∧ t.on MAU_EVT_MIGRATED = true) ∧
      (ok = false → (t.ctx e.ctx).st = .ending ∧ t.on MAU_EVT_DBE = true ∧ t.on MAU_EVT_MIG_FAIL = true ∧
        (t.ctx e.ctx).resp = some { status := 0x39, detail := 0x60000 + n.val }))) ∧
  (∀ (a : Acc) (v : Word32) (s : State),
    let n := v.toNat % 256
    Sets (.mauReinst a v) a MAU_REINST v s
      (if v.getLsbD 31 = false ∨ s.sys.mode ≠ .custody ∨ 135 < n ∨ s.mauSet MAU_RETIRED n = false ∨ s.on MAU_BIST_BUSY = true then s.raise MAU_EVT_CFG_REJ
       else (s.wr MAU_BIST (BitVec.ofNat 64 (2 ^ 31 + n))).setMau n { s.mauUnit n with testing := true })) ∧
  (∀ (dt : Nat) (pass : Bool) (s : State),
    let u := s.elapse dt
    let n := u.fget MAU_BIST_UNIT
    (u.on MAU_BIST_BUSY = false → exec (.mauBistDone dt pass) s = .next u) ∧
    (u.on MAU_BIST_BUSY = true → n < 136 → Completes (.mauBistDone dt pass) s fun t =>
      t.on MAU_BIST_BUSY = false ∧ t.on MAU_BIST_PASS = pass ∧ t.on MAU_BIST_FAIL = !pass ∧ (t.mauUnit n).testing = false ∧
      (pass = true → t.mauSet MAU_RETIRED n = false ∧ t.mauSet MAU_SPARE n = true) ∧
      (pass = false → t.on MAU_EVT_BIST_FAIL = true ∧ t.mauSet MAU_RETIRED n = u.mauSet MAU_RETIRED n))))
/-! ### The key store (10) -/

/-- The key store's operation under way ends with the code `e`; 0 is success. -/
def Sys2Proof.kstEnded (u : State) (e : Nat) : State :=
  (State.fset { (u.lower KST_CMD_BUSY).lower KST_STAT_CMD_BUSY with kst := { u.kst with running := none } } KST_CMD_ERR e).raise
    (if e = 0 then KST_EVT_CMD_DONE else KST_EVT_CMD_ERR)

/-- What a checkpoint writes to as KST: the eight granules of the page for ROOTSEQ `n`, and TMP_ROOTSEQ. -/
def Sys2Proof.checkpointWrites (n : Nat) : List Nat :=
  (List.range 8).map (fun k => 0x10050000 + 0x10000 * (n % 2) + 32 * k) ++ [TMP_ROOTSEQ]

/-- Of these addresses, `a` is the first at which the access table denies KST a write. -/
def Sys2Proof.FirstDenied (u : State) (l : List Nat) (a : Nat) (d : Denial) : Prop :=
  ∃ pre post, l = pre ++ a :: post ∧ (∀ b ∈ pre, u.actCheck ⟨.kst, 0⟩ b .write = none) ∧ u.actCheck ⟨.kst, 0⟩ a .write = some d

/-- From `u` a checkpoint was taken, with the result `t` (10 R270, 14 R330, R344). -/
def Sys2Proof.Checkpointed (u t : State) : Prop :=
  let n := (u.rd TMP_ROOTSEQ).toNat + 1
  let tree := treeAfter u.kst.sealedRecs u.kst.tail
  let r : Root := { rootseq := n, treeRoot := rootOf tree, logPos := u.kst.lsn, jseqSnap := u.kst.durable }
  let roots := u.kst.roots ++ [r]
  let block := 0x10050000 + 0x10000 * (n % 2)
  t.kst = { u.kst with roots := roots.drop (roots.length - 2), lastCheckpoint := u.tb, checkpointing := false
                       sealedRecs := tree, tail := [], treeRoot := r.treeRoot, running := t.kst.running } ∧
  t.rd TMP_ROOTSEQ = BitVec.ofNat 64 n ∧ t.rd KST_SNAP = BitVec.ofNat 64 u.kst.durable ∧ t.on KST_EVT_CKPT_DONE = true ∧
  (∀ k < 0x10000, memGet t.mem (block + k) = if k < 256 then Config.rootByte n r.treeRoot r.logPos r.jseqSnap k else 0xFF) ∧
  (∀ a, a < block ∨ block + 0x10000 ≤ a → memGet t.mem a = memGet u.mem a) ∧
  (∀ b, sget 0 t.flc.counts b = if b = 5 + n % 2 then min 0xFFFFF (sget 0 u.flc.counts b + 1) else sget 0 u.flc.counts b) ∧
  t = { u with regs := t.regs, mem := t.mem, damaged := t.damaged, kst := t.kst
               flc := { u.flc with counts := t.flc.counts, flags := t.flc.flags } }

/-- The image of a record may be created at index `i` (10 R264): its FLAGS and the length of its type, LIMIT only where it
counts, a free span, and no counted record in the hot range. -/
def Sys2Proof.Creatable (u : State) (i : Nat) (r : KeyRec) : Prop :=
  r.flags ≤ 7 ∧ klenOk r.type r.key.length = true ∧ (r.flags % 2 = 1 ↔ r.limit ≠ 0) ∧ i + r.lines ≤ (u.rd KST_NIDX).toNat ∧
  (∀ e ∈ u.kst.records, e.2.type ≠ 0 → i + r.lines ≤ e.1 ∨ e.1 + e.2.lines ≤ i) ∧
  (r.flags % 2 = 1 → (u.rd KST_HOTLINES).toNat ≤ i)

/-- There is room for a commit of the record `r` at index `i` alone: none waits, its frames fit into the log buffer and the
dirty pins under their limit (10 R267, R268). -/
def Sys2Proof.RoomFor (u : State) (i : Nat) (r : KeyRec) : Prop :=
  u.kst.waiting = [] ∧ u.logFrames + max 1 r.frames ≤ 8192 ∧ u.dirtyLines [(i, r)] ≤ 90112

/-- From `u` the record `r` was created at index `i` by a commit of its own, with the result `t` (10 R260, R263, R274). -/
def Sys2Proof.Created (u : State) (i : Nat) (r : KeyRec) (t : State) : Prop :=
  let j := (u.rd KST_JSEQ).toNat + 1
  t.rd KST_JSEQ = BitVec.ofNat 64 j ∧ sget 0 t.kst.nexts i = r.count ∧ t.kst.log.length = u.kst.log.length + 1 ∧
  (∀ k, k ≠ i → t.recAt k = u.recAt k) ∧
  ((∀ x ∈ u.kst.raises, x.index ≠ i) →
    t.recAt i = { r with hchk := u.checkValue i j, version := (sget 0 u.kst.deadVersion i + 1) % 2 ^ 32 })

/-- 10 R274: GO with an operation of the table starts it, and is ignored while one runs; another code ends at once with
ERR 8. The operation ends: PIN fails with 1 for a handle that names no record, 2 for its slot, 3 for the limit of pinned
lines, 5 where the fetch it needs fails, and else pins the record in the slot; UNPIN frees the slot, PREFETCH brings the
record in, EVICT drops one that no pin holds and fails with 4 where one does, CHECKPOINT writes the next root record or
fails with 6; IMPORT outside CUSTODY or without the Lantern fails with 7, with 2 or 1 for its slot or a key there that may
not unwrap, with 5 where that key cannot be read, with 7 where the blob does not unwrap or a check of CREATE fails, and
else creates the record of the header and the key in one commit, which waits for room. -/
def Obligations.KeyStoreCommandsAct : Prop :=
  (∀ (a : Acc) (s : State),
    let starts := fun n : Nat =>
      if s.on KST_CMD_BUSY = true then s
      else { (((s.fset KST_CMD_OP n).raise KST_CMD_BUSY).raise KST_STAT_CMD_BUSY).fset KST_CMD_ERR 0 with
        kst := { s.kst with running := some n } }
    Sets (.pin a) a KST_CMD 0x80000001 s (starts 1) ∧ Sets (.unpin a) a KST_CMD 0x80000002 s (starts 2) ∧
    Sets (.prefetch a) a KST_CMD 0x80000003 s (starts 3) ∧ Sets (.evict a) a KST_CMD 0x80000004 s (starts 4) ∧
    Sets (.checkpoint a) a KST_CMD 0x80000005 s (starts 5) ∧ Sets (.importBlob a) a KST_CMD 0x80000006 s (starts 6) ∧
    (∀ op : BitVec 4, op = 0 ∨ 7 ≤ op.toNat → Sets (.kstCmdInvalid a op) a KST_CMD (0x80000000#32 ||| op.setWidth 32) s
      (if s.on KST_CMD_BUSY = true then s else ((s.fset KST_CMD_OP op.toNat).fset KST_CMD_ERR 8).raise KST_EVT_CMD_ERR))) ∧
  (∀ (dt : Nat) (ok : Bool) (s : State),
    let u := s.elapse dt
    let h := (u.rd KST_CMD_HANDLE).toNat
    let i := handleIndex h
    let slot := u.fget KST_CMD_SLOT_SLOT
    let run := Instr.kstCmdComplete dt ok
    let ends := fun e => exec run s = .next (kstEnded u e)
    let pinned := (u.cachedAt i).bind Cached.fixed ≠ none
    let frames := u.sealedAt i
    let sound := u.tier i = .cache ∨ (ok = true ∧
      (u.tier i = .hot ∨ frames.image.type = 0 ∨ (frames.bad = false ∧ frames.key = u.kst.sealingKey)))
    let named := 1 ≤ slot ∧ slot ≤ 0xFFF
    (u.kst.running = none → exec run s = .next u) ∧
    (u.kst.running = some 1 →
      if u.handleMatches h = false then ends 1
      else if ¬named ∨ u.fixedRec slot ≠ none ∨ pinned then ends 2
      else if u.fget KST_PINMAX_LINES < u.cacheLines (fun c => c.fixed.isSome) + (u.recAt i).lines then ends 3
      else
        (sound → Completes run s fun t => t.fget KST_CMD_ERR = 0 ∧ t.on KST_CMD_BUSY = false ∧
          t.kst.running = none ∧ (∃ c, t.cachedAt i = some c ∧ c.fixed = some slot) ∧ t.kst.records = u.kst.records) ∧
        (¬sound → Completes run s fun t => t.fget KST_CMD_ERR = 5 ∧ t.on KST_EVT_CMD_ERR = true ∧
          t.kst.running = none ∧ t.kst.cached = u.kst.cached)) ∧
    (u.kst.running = some 2 →
      if ¬named ∨ u.fixedRec slot = none then ends 2
      else ∀ j r c, u.fixedRec slot = some (j, r) → u.cachedAt j = some c →
        exec run s = .next (kstEnded ((u.setCached j (some { c with fixed := none })).slotHealed slot) 0)) ∧
    (u.kst.running = some 3 →
      if u.handleMatches h = false then ends 1
      else (sound → Completes run s fun t => t.fget KST_CMD_ERR = 0 ∧ t.kst.running = none ∧
          (∃ c, t.cachedAt i = some c) ∧ t.kst.records = u.kst.records) ∧
        (¬sound → Completes run s fun t => t.fget KST_CMD_ERR = 5 ∧ t.kst.cached = u.kst.cached)) ∧
    (u.kst.running = some 4 →
      if u.handleMatches h = false then ends 1
      else (u.cachedAt i = none → ends 0) ∧ (∀ c, u.cachedAt i = some c →
        if c.fixed ≠ none ∨ 0 < c.binds ∨ 0 < c.dirty ∨ c.refreshing ≠ [] then ends 4
        else exec run s = .next (kstEnded (u.setCached i none) 0))) ∧
    (u.kst.running = some 5 →
      (ok = false → ends 6) ∧
      (∀ a d, ok = true → FirstDenied u (checkpointWrites ((u.rd TMP_ROOTSEQ).toNat + 1)) a d →
        let v := u.violate ⟨.kst, 0⟩ a .write d
        exec run s = .next (kstEnded { v with kst := { v.kst with checkpointing := false, lastCheckpoint := u.tb } } 6)) ∧
      (ok = true → (∀ a ∈ checkpointWrites ((u.rd TMP_ROOTSEQ).toNat + 1), u.actCheck ⟨.kst, 0⟩ a .write = none) →
        Completes run s fun t => Checkpointed u t ∧ t.kst.running = none ∧ t.on KST_CMD_BUSY = false ∧
          t.on KST_EVT_CMD_DONE = true ∧ t.fget KST_CMD_ERR = 0)) ∧
    (u.kst.running = some 6 →
      if importWaits u.kst.waiting = true then exec run s = .next u
      else if u.sys.mode ≠ .custody ∨ u.holds = false then ends 7
      else if ¬named then ends 2
      else
        (u.fixedRec slot = none → ends 1) ∧
        (∀ j k, u.fixedRec slot = some (j, k) →
          if k.type ≠ 2 ∨ k.use / 8 % 2 = 0 then ends 1
          else if ok = false ∨ u.slotBad slot = true then ends 5
          else
            let len := 72 + 8 * ((Config.freeWord u.freeCtr).toNat % 161)
            let read := u.readBlock ⟨.kst, 0⟩ (u.fget KST_CMD_SRC_ADDR * 16) len
            let v := read.2.drawn 1
            (read.1 = .error .wait → exec run s = .next read.2) ∧
            (∀ e, read.1 = .error e → e ≠ .wait → exec run s = .next (kstEnded v 7)) ∧
            (∀ b, read.1 = .ok b →
              (kwpUnwrap k.key b = none → exec run s = .next (kstEnded v 7)) ∧
              (∀ img, kwpUnwrap k.key b = some img →
                let r := recOfImage img
                let right := img.length = 64 + leAt img 2 2 ∧ Creatable v i r
                let new := { r with hchk := v.checkValue i ((v.rd KST_JSEQ).toNat + 1)
                                    version := (sget 0 v.kst.deadVersion i + 1) % 2 ^ 32 }
                (¬right → exec run s = .next (kstEnded v 7)) ∧
                (right → RoomFor v i new → Completes run s fun t => Created v i r t ∧
                  t.kst.running = none ∧ t.on KST_CMD_BUSY = false ∧ t.fget KST_CMD_ERR = 0) ∧
                (right → ¬RoomFor v i new → exec run s = .next { v.raise KST_EVT_LOGSTALL with
                  kst := { v.kst with waiting := v.kst.waiting ++ [⟨none, [(1, i, new)]⟩] } }))))))

/-- 10 R265-R267, R269, R270, R272, R273: the oldest frame group of the log buffer is programmed: its frames stand in
the log under the next log sequence number and the sealing key, in the tree, and its JSEQ is durable; a waiting commit
proceeds only on the holder, in order and where there is room, and an import that waits is checked again; a checkpoint is
due after PERIOD_MS and writes the next root record to the block whose turn it is (14 R330), unless the access table denies
KST a write; a region's rewrite or refill counts its generation; the mount starts in BOOT with the memory and the NAND
found, and leaves JSEQ, the records and NEXT as the roll-forward over the frames that verify does, or fails, and with it
boot step 0x0B, where the best root copy that KST can read is older than the backup domain's. -/
def Obligations.KeyStoreWorksOn : Prop :=
  (∀ s : State, Happens .checkpointTimer s
    (fun u => u.powered = true ∧ u.on KST_STAT_MOUNTED = true ∧ u.kst.checkpointing = false ∧
      u.kst.lastCheckpoint + (if u.fget KST_CKPT_PERIOD_MS = 0 then 0x3E8 else u.fget KST_CKPT_PERIOD_MS) * 1000000 ≤ u.tb)
    (fun u => { u with kst := { u.kst with checkpointing := true } })) ∧
  (∀ (dt : Nat) (s : State),
    let u := s.elapse dt
    let n := (u.rd TMP_ROOTSEQ).toNat + 1
    let ready := u.powered = true ∧ u.kst.checkpointing = true
    (¬ready → ∀ ok, exec (.checkpointDone dt ok) s = .next u) ∧
    (ready → exec (.checkpointDone dt false) s =
      .next { u with kst := { u.kst with checkpointing := false, lastCheckpoint := u.tb } }) ∧
    (∀ a d, ready → FirstDenied u (checkpointWrites n) a d →
      let v := u.violate ⟨.kst, 0⟩ a .write d
      exec (.checkpointDone dt true) s =
        .next { v with kst := { v.kst with checkpointing := false, lastCheckpoint := u.tb } }) ∧
    (ready → (∀ a ∈ checkpointWrites n, u.actCheck ⟨.kst, 0⟩ a .write = none) →
      Completes (.checkpointDone dt true) s fun t => Checkpointed u t ∧ t.kst.running = u.kst.running)) ∧
  (∀ (dt : Nat) (s : State),
    let u := s.elapse dt
    (u.powered = false ∨ u.kst.log = [] → exec (.logFrameProgrammed dt) s = .next u) ∧
    (∀ e rest, u.powered = true → u.kst.log = e :: rest →
      u.holding = true ∨ (u.on DUO_STAT_RESYNC = false ∧ u.duo.catching = none ∧ u.duo.buffer = []) →
      Completes (.logFrameProgrammed dt) s fun t =>
      t.kst.log = rest ∧ t.kst.lsn = u.kst.lsn + 1 ∧ t.kst.sealedRecs = u.kst.sealedRecs ∧ t.kst.tail = u.kst.tail ++ [{
        lsn := u.kst.lsn + 1, jseq := e.jseq, index := e.index, image := e.image, key := u.kst.sealingKey }] ∧
      t.kst.treeRoot = rootOf (treeAfter t.kst.sealedRecs t.kst.tail) ∧ t.kst.durable = max u.kst.durable e.jseq ∧
      (∀ c, u.cachedAt e.index = some c → u.hasRec e.index = true → ∃ d, t.cachedAt e.index = some d ∧ d.dirty = c.dirty - 1) ∧
      (∀ j, j ≠ e.index → t.cachedAt j = u.cachedAt j) ∧ t.dsp = u.dsp ∧ t.duo = u.duo)) ∧
  (∀ (dt : Nat) (s : State),
    let u := s.elapse dt
    let v : State := { u with kst := { u.kst with waiting := [] } }
    (u.powered = false ∨ u.holds = false ∨ u.kst.waiting = [] → exec (.logstallResume dt) s = .next u) ∧
    (∀ i img rest, u.powered = true → u.holds = true → u.kst.waiting = ⟨none, [(0, i, img)]⟩ :: rest →
      let r := { u.recAt i with ceil := img.ceil }
      (u.logFrames ≤ 8192 → u.dirtyLines [] ≤ 90112 → (u.recAt i).type = 0 ∨ (u.recAt i).hchk ≠ img.hchk →
        exec (.logstallResume dt) s = .next { u with kst := { u.kst with waiting := rest } }) ∧
      ((u.recAt i).type ≠ 0 → (u.recAt i).hchk = img.hchk →
        (¬RoomFor v i r → exec (.logstallResume dt) s = .next u) ∧
        (RoomFor v i r → Completes (.logstallResume dt) s fun t =>
          t.kst.waiting = rest ∧ t.rd KST_JSEQ = BitVec.ofNat 64 ((u.rd KST_JSEQ).toNat + 1) ∧
          t.kst.log.length = u.kst.log.length + 1 ∧ t.recAt i = u.recAt i ∧
          t.kst.raises = u.kst.raises ++ [{ index := i, ceil := img.ceil, jseq := (u.rd KST_JSEQ).toNat + 1 }]))) ∧
    (∀ i r rest, u.powered = true → u.holds = true → u.kst.waiting = ⟨none, [(1, i, r)]⟩ :: rest →
      let new := { r with hchk := v.checkValue i ((v.rd KST_JSEQ).toNat + 1)
                          version := (sget 0 v.kst.deadVersion i + 1) % 2 ^ 32 }
      (¬Creatable u i r → exec (.logstallResume dt) s =
        .next { kstEnded v 7 with kst := { (kstEnded v 7).kst with waiting := rest } }) ∧
      (Creatable u i r → ¬RoomFor v i new → exec (.logstallResume dt) s = .next u) ∧
      (Creatable u i r → RoomFor v i new → Completes (.logstallResume dt) s fun t =>
        Created v i r t ∧ t.kst.waiting = rest ∧ t.kst.running = none ∧ t.fget KST_CMD_ERR = 0))) ∧
  (∀ (row : RegRow) (s : State), row.banked = false → ((s.regValue row KST_STAT).getLsbD 2 = true ↔ 8192 ≤ s.logFrames ∨
    (∃ w rest, s.kst.waiting = w :: rest ∧ 8192 < s.logFrames + (w.changes.map fun c => max 1 c.2.2.frames).sum) ∨
    8192 < s.logFrames + (s.nextMirror.map fun e => max 1 e.image.frames).sum)) ∧
  (∀ (n : BitVec 20) (s : State),
    Happens (.hotRegionRefresh · n) s (fun u => u.powered = true ∧ n.toNat ∈ u.kst.refresh)
      (fun u => { u with kst := { u.kst with
        refresh := u.kst.refresh.erase n.toNat
        hotGen := sput 0 u.kst.hotGen n.toNat (sget 0 u.kst.hotGen n.toNat + 1)
        cached := u.kst.cached.map fun e => (e.1, e.2.map fun c => { c with refreshing := c.refreshing.erase n.toNat }) } }) ∧
    Happens (.hotRegionRefill · n) s
      (fun u => u.powered = true ∧ u.on KST_STAT_MOUNTED = true ∧ u.rng.hkWait = false ∧
        n.toNat < ((u.rd KST_HOTLINES).toNat + 4095) / 4096 ∧ sget false u.kst.hotValid n.toNat = false)
      (fun u => { u with kst := { u.kst with
        hotValid := sput false u.kst.hotValid n.toNat true
        hotGen := sput 0 u.kst.hotGen n.toNat (sget 0 u.kst.hotGen n.toNat + 1) } })) ∧
  (∀ s : State, Happens .sealedStoreMount s
    (fun u => u.sys.mode = .boot ∧ u.on KST_CTRL_EN = true ∧ u.on KST_STAT_MOUNTED = false ∧ u.kst.mounting = false ∧
      u.fget KST_SEALCFG_TGT_GIB ≠ 0 ∧ u.fget KST_MEMCFG_DIMM_GIB ≠ 0)
    (fun u => { u with kst := { u.kst with mounting := true } })) ∧
  (∀ (dt : Nat) (s : State),
    let u := s.elapse dt
    let new := u.on SYS_BOOTTAMP_BMK_NEW
    let read := u.readRoots u.kst.roots
    let v := if new = true then u else read.2
    let ready := u.powered = true ∧ u.kst.mounting = true
    let best := (u.kst.roots.map Root.rootseq).foldl max 0
    (¬ready → exec (.mountComplete dt) s = .next u) ∧
    (u.on FLC_STAT_BUSY = false → u.stalls .kst = false →
      (∀ r ∈ u.kst.roots, ∀ k < 8, let g := 0x10050000 + 0x10000 * (r.rootseq % 2) + 32 * k
        u.actCheck ⟨.kst, 0⟩ g .read = none ∧ u.damagedAt .bus g 32 = false) →
      read.1 = .ok best ∧ read.2 = { u with flc := { u.flc with lastRead := read.2.flc.lastRead } }) ∧
    (∀ e, ready → new = false → read.1 = .error e → exec (.mountComplete dt) s = .next v) ∧
    (∀ n, ready → new = false → read.1 = .ok n → n < max (u.rd TMP_ROOTSEQ).toNat best →
      let t := { v.raise KST_EVT_SEAL_INT with kst := { v.kst with mounting := false } }
      exec (.mountComplete dt) s = .next (if t.on KST_STAT_MOUNTED = false ∧ t.bootStep 11 = true then t.bootFails 11 else t)) ∧
    (ready → new = true ∨ (∃ n, read.1 = .ok n ∧ max (u.rd TMP_ROOTSEQ).toNat best ≤ n) → u.on DUO_CTRL_EN = false →
      Completes (.mountComplete dt) s fun t =>
      t.on KST_STAT_MOUNTED = true ∧ t.on SYS_BOOTTAMP_BMK_NEW = false ∧ t.kst.mounting = false ∧
      let key := Config.sealingKey u.sys.bmk
      let tail := if new = true then [] else verified key u.kst.tail
      let tree := if new = true then [] else treeAfter u.kst.sealedRecs tail
      t.kst.records = recordsOf tree ∧ t.kst.tail = tail ∧ t.kst.treeRoot = rootOf tree ∧ t.kst.cached = [] ∧
      t.kst.sealedRecs = (if new = true then [] else u.kst.sealedRecs) ∧ t.kst.log = [] ∧ t.kst.waiting = [] ∧
      t.rd KST_JSEQ = BitVec.ofNat 64 (if new = true then 0 else (tail.map SealedRec.jseq).foldl max u.jseqSnap) ∧
      t.rd KST_SNAP = BitVec.ofNat 64 (if new = true then 0 else u.jseqSnap) ∧
      t.kst.nexts = (t.kst.records.filterMap fun e => if e.2.counted && decide (e.2.ceil ≠ 0) then some (e.1, e.2.ceil) else none) ∧
      t.kst.hotValid = [] ∧ t.kst.sealingKey = Config.sealingKey u.sys.bmk ∧ t.dsp = u.dsp ∧ t.duo = u.duo))

/-! ### The random number source (11) -/

/-- A window set begins: cut-offs that an overlay changed meanwhile are in force (19 Table 19.1, ITEM 0x05). -/
def Sys2Proof.nextWindow (u : State) : State :=
  match u.rng.nextCutoff with
  | none => u
  | some (rct, apt) =>
    { (u.fset RNG_CUTOFF_RCT_C rct).fset RNG_CUTOFF_APT_C apt with rng := { u.rng with nextCutoff := none } }

/-- The engine `n` waits for blocks of a draw that its command `x` makes. -/
def Sys2Proof.Draws (u : State) (n : Nat) (x : EngCmd) : Prop := 0 < (u.cphUnit n).want ∧ (u.cphUnit n).cmd = some x

/-- 11 R281-R286: RNG_CTRL enables the source, whose start-up test begins, and disables it: its buffer is emptied, waiting
service draws are cancelled and a firmware request is dropped; RAW_EN takes effect only in MANUFACTURE and RETURNED, and
leaving it repeats the test. RNG_FWREQ asks for a block where none is there or asked for; the read of RNG_FW7 destroys it.
While RAW_EN is in effect RNG_RAW gives the samples of the last window set, the oldest first, 32 or as many as are left,
and RNG_RAWSTAT says how many; else both say that there is none.
11 R278, R280, R281, R283-R285, Table 11.1: a window set in which a cell fails its repetition or proportion test releases
nothing, is captured with the lowest such cell and the tests it failed, and signalled; one that passes releases its sixteen
conditioned blocks, SHA3-256 of 1,024 consecutive samples each, of which the buffer keeps the newest sixty-four, unless the
source is dead or raw access in effect. The start-up test ends READY, or fails and, beyond SU_RETRY, leaves the source
dead, which fails boot step 0x06. Each block goes to one consumer, oldest first: the hot key, the BMK, a masking
generator; above the reserve the service draw whose context has the least deadline key, the duo's SALT, a quorum
challenge, control firmware. A service draw that takes longer than its command's own duration is answered RNG_FAIL. -/
def Obligations.RandomSourceActs : Prop :=
  ((∀ (a : Acc) (v : Word32) (s : State),
    let may := s.sys.lc = .manufacture ∨ s.sys.lc = .returned
    let en := s.on RNG_CTRL_EN
    let raw := s.on RNG_CTRL_RAW_EN
    let raw' := if may then v.getLsbD 1 else raw
    let p := (s.put RNG_CTRL_EN (v.getLsbD 0)).put RNG_CTRL_RAW_EN raw'
    let w := if raw' = true ∧ raw = false then { p with rng := { p.rng with rawTaken := 16384 } } else p
    let n := nextWindow w
    let test := { (n.lower RNG_STAT_READY).lower RNG_STAT_SU_DEAD with rng := { n.rng with testing := true, attempts := 0 } }
    ∀ i ∈ [Instr.rngEnable a v, .rngDisable a v, .rawEnWrite a v],
      (v.getLsbD 0 = true → en = false ∨ (raw = true ∧ raw' = false) → Sets i a RNG_CTRL v s test) ∧
      (v.getLsbD 0 = true → en = true → raw' = true → Sets i a RNG_CTRL v s (w.lower RNG_STAT_READY)) ∧
      (v.getLsbD 0 = true → en = true → raw = false → raw' = false → Sets i a RNG_CTRL v s w) ∧
      (v.getLsbD 0 = false → MayWrite s a RNG_CTRL v → Completes i s fun t =>
        t.on RNG_CTRL_EN = false ∧ t.on RNG_STAT_READY = false ∧ t.rng.buffer = [] ∧ t.fget RNG_STAT_BLOCKS = 0 ∧
        t.rng.testing = false ∧ (en = true → t.on RNG_FWSTAT_WAITING = false) ∧
        (en = true → s.on RNG_FWSTAT_WAITING = true → t.on RNG_FWSTAT_DROPPED = true) ∧
        (en = false → t.on RNG_FWSTAT_WAITING = s.on RNG_FWSTAT_WAITING) ∧
        (∀ e ∈ s.cph, 0 < e.2.want → ∀ x, e.2.cmd = some x →
          (t.ctx x.ctx).st = .ending ∧ (t.ctx x.ctx).resp = some { status := 0x38 }))) ∧
  (∀ (a : Acc) (v : Word32) (s : State),
    Sets (.rngFwRequest a v) a RNG_FWREQ v s
      (if v.getLsbD 0 = true ∧ s.on RNG_FWSTAT_VALID = false ∧ s.on RNG_FWSTAT_WAITING = false then s.raise RNG_FWSTAT_WAITING else s)) ∧
  (∀ (a : Acc) (s : State),
    (MayRead s a (RNG_FW 7) → Completes (.rngFw7Read a) s fun t =>
      t.lastRead = some (false, BitVec.ofNat 64 ((s.rd (RNG_FW 7)).toNat % 2 ^ 32)) ∧
      (s.on RNG_FWSTAT_VALID = true → t.on RNG_FWSTAT_VALID = false ∧ ∀ k < 8, t.rd (RNG_FW k) = 0) ∧
      (s.on RNG_FWSTAT_VALID = false → t = { s with lastRead := t.lastRead })) ∧
    (MayRead s a RNG_RAW →
      let on := s.on RNG_CTRL_RAW_EN = true ∧ (s.sys.lc = .manufacture ∨ s.sys.lc = .returned)
      (¬on → exec (.rngRawRead a) s = .next { (s.wr RNG_RAW 0).wr RNG_RAWSTAT 0x80000000 with lastRead := some (false, 0) }) ∧
      (on → Completes (.rngRawRead a) s fun t =>
        let n := min 32 (16384 - s.rng.rawTaken)
        (∃ w : Word, t.lastRead = some (false, w) ∧ t.rd RNG_RAW = w ∧
          ∀ k < 64, w.getLsbD k = (decide (k < n) && s.rng.raw.getLsbD (s.rng.rawTaken + k))) ∧
        t.rd RNG_RAWSTAT = BitVec.ofNat 64 ((if n < 32 then 2 ^ 31 else 0) + n) ∧
        (∀ r, r ≠ RNG_RAW → r ≠ RNG_RAWSTAT → t.rd r = s.rd r) ∧
        t = { s with regs := t.regs, rng := { s.rng with rawTaken := s.rng.rawTaken + n }, lastRead := t.lastRead })))) ∧
  ((∀ (dt : Nat) (w : RngWindow) (s : State),
    let u := s.elapse dt
    let fails := fun k => u.fget RNG_CUTOFF_RCT_C ≤ (cellRuns w k 1024).2 ∨ u.fget RNG_CUTOFF_APT_C ≤ firstCount w k
    let on := u.on RNG_CTRL_RAW_EN = true ∧ (u.sys.lc = .manufacture ∨ u.sys.lc = .returned)
    let shown := if on then { u.rng with raw := w, rawTaken := 0 } else u.rng
    let runs := u.powered = true ∧ u.on RNG_CTRL_EN = true ∧ u.rng.testing = false
    let captured := fun t : State => ∃ k < 16, fails k ∧ (∀ j < k, ¬fails j) ∧ (u.on RNG_LAST_VALID = false →
      t.rd RNG_LAST = BitVec.ofNat 64 (0x80000000 + k +
        (if u.fget RNG_CUTOFF_RCT_C ≤ (cellRuns w k 1024).2 then 0x100 else 0) +
        (if u.fget RNG_CUTOFF_APT_C ≤ firstCount w k then 0x200 else 0)))
    (¬runs → exec (.windowSetEnd dt w) s = .next u) ∧
    (runs → (∃ k < 16, fails k) → Completes (.windowSetEnd dt w) s fun t =>
      t.on RNG_EVT_HT_FAIL = true ∧ t.on RNG_LAST_VALID = true ∧ t.rng = { shown with nextCutoff := none } ∧ captured t ∧
      t.on (stkyFld 72) = true ∧ t.rd RNG_CUTOFF = (nextWindow u).rd RNG_CUTOFF ∧
      (u.on RNG_LAST_VALID = true → t.on RNG_LAST_MORE = true)) ∧
    (runs → (∀ k < 16, ¬fails k) → on ∨ u.on RNG_STAT_SU_DEAD = true →
      exec (.windowSetEnd dt w) s = .next (nextWindow { u with rng := shown })) ∧
    (runs → (∀ k < 16, ¬fails k) → ¬on → u.on RNG_STAT_SU_DEAD = false → Completes (.windowSetEnd dt w) s fun t =>
      let b := u.rng.buffer ++ (List.range 16).map (conditioned w)
      t.rng.buffer = b.drop (b.length - 64) ∧ t.fget RNG_STAT_BLOCKS = t.rng.buffer.length ∧
      t.rd RNG_CUTOFF = (nextWindow u).rd RNG_CUTOFF ∧
      t = { u with regs := t.regs, rng := { u.rng with buffer := t.rng.buffer, nextCutoff := none } }) ∧
    (u.powered = false ∨ u.rng.testing = false → exec (.startupTestEnd dt w) s = .next u) ∧
    (u.powered = true → u.rng.testing = true →
      ((∀ k < 16, ¬fails k) → u.on RNG_STAT_SU_DEAD = false → exec (.startupTestEnd dt w) s = .next
        (nextWindow { (if on then u else u.raise RNG_STAT_READY) with rng := { shown with testing := false } })) ∧
      ((∃ k < 16, fails k) → Completes (.startupTestEnd dt w) s fun t =>
        t.on RNG_EVT_SU_FAIL = true ∧ t.on RNG_LAST_VALID = true ∧ captured t ∧ t.on (stkyFld 73) = true ∧
        t.rng.attempts = u.rng.attempts + 1 ∧
        t.rng.testing = decide (u.rng.attempts + 1 ≤ u.fget RNG_CFG_SU_RETRY) ∧
        (u.fget RNG_CFG_SU_RETRY < u.rng.attempts + 1 → t.on RNG_STAT_SU_DEAD = true ∧
          (u.sys.mode = .boot → u.fget SYS_BOOTSTAT_ERR = 0 → u.fget SYS_BOOTSTAT_STEP = 6 → t.fget SYS_BOOTSTAT_ERR = 6))))) ∧
  (∀ (dt : Nat) (s : State),
    let u := s.elapse dt
    let i := Instr.rngBlockGrant dt
    let above := min (u.fget RNG_CFG_RESERVE) 0x30 < u.rng.buffer.length
    let asks := fun n => (u.mauUnit n).reseedAsked = true ∧ (u.mauUnit n).cmd = none ∧ (u.mauUnit n).clearing = none
    let open_ := u.on RNG_STAT_READY = true ∧ ¬(u.on RNG_CTRL_RAW_EN = true ∧ (u.sys.lc = .manufacture ∨ u.sys.lc = .returned))
    let draws := ∃ e ∈ u.cph, 0 < e.2.want ∧ e.2.cmd ≠ none
    let others := ¬u.rng.hkWait ∧ ¬u.sys.bmkWait ∧ ∀ n < 136, ¬asks n
    (¬open_ ∨ u.rng.buffer = [] → exec i s = .next u) ∧
    (∀ k rest, open_ → u.rng.buffer = k :: rest →
      (u.rng.hkWait = true → Completes i s fun t => t.rng.buffer = rest ∧ t.kst.hotKey = k ∧ t.rng.hkWait = false) ∧
      (u.rng.hkWait = false → u.sys.bmkWait = true → Completes i s fun t => t.rng.buffer = rest ∧ t.sys.bmk = k ∧
        t.sys.bmkWait = false ∧ t.on SYS_BOOTTAMP_BMK_VALID = true) ∧
      (∀ n < 136, u.rng.hkWait = false → u.sys.bmkWait = false → asks n → (∀ m < n, ¬asks m) → Completes i s fun t =>
        t.rng.buffer = rest ∧ t.mauUnit n = if u.reseedDue n = true
          then { u.mauUnit n with seeded := true, seed := k, nextSeed := none, secretCmds := 0, reseededAt := u.tb, reseedAsked := false }
          else { u.mauUnit n with nextSeed := some k, reseedAsked := false }) ∧
      (others → ¬above → exec i s = .next u) ∧
      (others → above → draws → (u.cph.map Prod.fst).Nodup → Completes i s fun t => t.rng.buffer = rest ∧
        ∃ n x, Draws u n x ∧
          (∀ m y b, Draws u m y → (u.ctx y.ctx).key = some b → ∃ a, (u.ctx x.ctx).key = some a ∧ a ≤ b) ∧
          t.cphUnit n = { u.cphUnit n with want := (u.cphUnit n).want - 1, got := (u.cphUnit n).got ++ [k] } ∧
          ∀ m, m ≠ n → t.cphUnit m = u.cphUnit m) ∧
      (others → above → ¬draws → u.duo.saltWait = true → Completes i s fun t => t.rng.buffer = rest ∧
        t.duo = { u.duo with salt := k.setWidth 128, saltWait := false, mirrorWait := [] } ∧
        t.kst = { u.kst with journal := u.kst.journal.map fun e => { e with salt := some (e.salt.getD (k.setWidth 128)) } }) ∧
      (others → above → ¬draws → u.duo.saltWait = false → u.crd.wantChallenge = true → Completes i s fun t =>
        t.rng.buffer = rest ∧ t.crd.challenge = k ∧ t.crd.wantChallenge = false) ∧
      (others → above → ¬draws → u.duo.saltWait = false → u.crd.wantChallenge = false → u.on RNG_FWSTAT_WAITING = true →
        Completes i s fun t => t.rng.buffer = rest ∧ t.on RNG_FWSTAT_VALID = true ∧ t.on RNG_FWSTAT_WAITING = false ∧
          ∀ n < 8, t.rd (RNG_FW n) = ((k >>> (32 * n)).setWidth 32).setWidth 64))) ∧
  (∀ (c : Fin 8192) (s : State), Happens (.serviceDrawExpiry · c) s
    (fun u => ∃ e ∈ u.cph, 0 < e.2.want ∧ ∃ x, e.2.cmd = some x ∧ x.ctx = c.val ∧
      ∃ b, cphBound (cphParse x.words).op (cphParse x.words).len 2 = some b ∧ e.2.startedAt + b ≤ u.tb)
    (fun u => (u.endWith c { status := 0x38 }).raise RNG_EVT_SVC_CANCEL)))
/-! ### The duo (12) -/

/-- `n` ns have passed since the recorded time, or none is recorded. -/
def Sys2Proof.passed (u : State) (x : Option Nat) (n : Nat) : Prop := ∀ t, x = some t → t + n ≤ u.tb

/-- The conditions of 12 Table 12.5 under which the device claims the Lantern, silence among them. -/
structure Sys2Proof.MayClaim (u : State) : Prop where
  idle : u.fget DUO_STAT_ROLE ≠ 1 ∧ u.duo.claiming = false
  enabled : u.on DUO_CTRL_EN = true ∧ u.on DUO_CTRL_LEAVE = false ∧ (u.sys.mode = .service ∨ u.sys.mode = .custody) ∧
    u.on KST_STAT_MOUNTED = true
  released : passed u u.duo.releaseSent 24000
  current : (u.on DUO_STAT_SYNCED = true ∨ u.on DUO_CTRL_FORCE = true) ∧ u.on DUO_STAT_DIVERGED = false ∧ u.on DUO_STAT_STUCK = false
  first : (u.rd SVC_DEVID).toNat < u.fget DUO_PEER_DEVID_DEVID → passed u u.duo.claimableAt 8000
  silence : (u.duo.renewHeard = true → passed u u.duo.newestAt 19000 ∨ u.duo.newestRelease = true) ∧
    (u.duo.renewHeard = false → u.duo.enRose + 24000 ≤ u.tb)

/-- The peer has been silent on every path for 8 us (12 R288). -/
def Sys2Proof.peerSilent (u : State) : Prop := passed u u.duo.heardP2 8000 ∧ passed u u.duo.heardP3 8000 ∧ passed u u.duo.heardLease 8000

/-- A commit waits for its MACK, or for room to be made at all (06 R175, 12 R292). -/
def Sys2Proof.unacked (u : State) : Prop :=
  u.duo.unacked ≠ [] ∨ (∃ e ∈ u.live, e.2.mackFor ≠ none) ∨ ∃ w ∈ u.kst.waiting, w.ctx ≠ none

/-- The one message that waits is `m`, of one segment and type `k`. -/
def Sys2Proof.oneMsg (u : State) (m : PeerMsg) (k : Nat) : Prop := u.duo.inbox = [m] ∧ m.typ = k ∧ m.nseg = 1 ∧ m.seg = 0

/-- The message `m` has been taken and heard: its path, sender, epoch, JSEQ and DNUM are noted (12 R288, R291). -/
def Sys2Proof.heard (u : State) (m : PeerMsg) : State := State.hear { u with duo := { u.duo with inbox := [] } } m

/-- A message of type `typ` goes out from `w` on P2 where that port can send, without MACsec, and P3 is a host port: the
outputs `old` become `new` (12 Table 12.4). -/
def Sys2Proof.Sent (w : State) (old new : List OutEvent) (typ rseq jseq : Nat) (release : Bool) (body : List Byte) : Prop :=
  w.canSend 2 = true → w.secy 2 = false → w.on SVC_PORTCFG_P3_HOST = true → ∃ dst : Nat,
    let flags := (if w.fget DUO_STAT_ROLE = 1 then 1 else 0) +
      (if w.on DUO_STAT_SYNCED = true ∧ w.on DUO_CTRL_LEAVE = false then 2 else 0) +
      (if typ = 3 ∧ w.claimable = true then 4 else 0) + (if release = true then 8 else 0) +
      (if w.on DUO_STAT_SOLO = true then 16 else 0)
    let c := beBytes 6 dst ++ beBytes 6 (w.rd (SVC_MAC 2)).toNat ++ [0x88, 0xB5] ++
      [BitVec.ofNat 8 (0x10 + typ), BitVec.ofNat 8 flags] ++ beBytes 2 body.length ++ beBytes 4 (w.rd SVC_DEVID).toNat ++
      beBytes 4 (w.fget DUO_EPOCH_EPOCH) ++ beBytes 4 rseq ++ beBytes 8 jseq ++ beBytes 2 (w.fget DSP_EPOCH_NUM) ++
      [BitVec.ofNat 8 (modeCode w.sys.mode), 0, 0, 0, 0, 1] ++ body
    new = old ++ [.frame 2 w.tb (c ++ List.replicate (60 - c.length) 0)]

/-- The journal entry `e` has been applied as the only one from `u`, with the result `t` (10 R262, R265, R267, R271). -/
def Sys2Proof.Applied (u : State) (e : JEntry) (t : State) : Prop :=
  (∀ i, i ≠ e.index → t.recAt i = u.recAt i) ∧
  ((∀ x ∈ u.kst.raises, x.index ≠ e.index) → t.recAt e.index = if e.image.type = 0 then {} else e.image) ∧
  (e.image.counted = true → sget 0 t.kst.nexts e.index = e.image.ceil) ∧
  t.kst.log = u.kst.log ++ [{ jseq := e.jseq, index := e.index, image := e.image, frames := max 1 e.image.frames }] ∧
  t.kst.journal = (u.kst.journal ++ [e]).drop (u.kst.journal.length + 1 - (u.rd KST_JRNCAP).toNat)

/-- SOLO is in force, the claim is confirmed, and no commit waits for a MACK any longer (12 R293). -/
def Sys2Proof.soloIn (u t : State) : Prop :=
  t.on DUO_STAT_SOLO = true ∧ t.fget DUO_STAT_ROLE = 1 ∧ t.duo.claiming = false ∧
  (u.on DUO_STAT_SOLO = false → t.on DUO_EVT_SOLO_ON = true ∧ t.duo.unacked = [] ∧
    ∀ c j, (u.ctx c).st ≠ .free → (u.ctx c).mackFor = some j → (t.ctx c).mackFor = none ∧ (t.ctx c).grantable = true)

/-- 12 R291, R294, R295, R308, R462, 16 R373: a write of DUO_CTRL sets its fields, FORCE only in CUSTODY with CUST, and
nothing where it would set EN while the device is isolated. The rise of EN asks for the session's SALT and starts the
silence; RELEASE on a holder stops new STATE entries and answers those not committed NO_LANTERN; the fall of EN ends
role, claim and SOLO, and diverges a holder, not SOLO, whose commits were not acknowledged. DUO_EPOCHCLR clears EPOCH in
CUSTODY with CUST and no role. -/
def Obligations.DuoIsControlled : Prop :=
  (∀ (a : Acc) (v : Word32) (s : State) (i : Instr), i = .duoEnable a v ∨ i = .lanternRelease a v ∨ i = .duoLeave a v →
    let force := if s.sys.mode = .custody ∧ permBit a.perms pCUST = true then v.getLsbD 5 else s.on DUO_CTRL_FORCE
    let w := ((((s.put DUO_CTRL_WAKE (v.getLsbD 6)).put DUO_CTRL_FORCE force).put DUO_CTRL_LEAVE (v.getLsbD 3)).put
      DUO_CTRL_LL_EN (v.getLsbD 1)).put DUO_CTRL_EN (v.getLsbD 0)
    let barred := s.on FLT_STAT_ISOLATED = true ∧ v.getLsbD 0 = true
    let was := s.on DUO_CTRL_EN
    (barred → Sets i a DUO_CTRL v s s) ∧
    (¬barred →
      (v.getLsbD 0 = true → was = false → v.getLsbD 4 = false → Sets i a DUO_CTRL v s { w with duo := { s.duo with
        saltWait := true, ctr := if s.duo.saltWait = true then s.duo.ctr else 0, mirrorWait := [], enRose := s.tb
        renewHeard := false, statusHeard := false } }) ∧
      (v.getLsbD 0 = was → v.getLsbD 4 = false ∨ s.fget DUO_STAT_ROLE ≠ 1 → Sets i a DUO_CTRL v s w) ∧
      (v.getLsbD 0 = was → v.getLsbD 4 = true → s.fget DUO_STAT_ROLE = 1 → MayWrite s a DUO_CTRL v → Completes i s fun t =>
        t.duo = { s.duo with releasing := true } ∧ t.fget DUO_STAT_ROLE = 1 ∧ t.fget ADM_STAT_LANTERN = 0 ∧
        (s.fget ADM_STAT_LANTERN ≠ 0 → ∀ c, let x := s.ctx c
          x.st ≠ .free → x.st ≠ .ending → x.isState = true → x.committed = false →
          (t.ctx c).st = .ending ∧ (t.ctx c).resp = some { status := 0x11 })) ∧
      (v.getLsbD 0 = false → was = true → MayWrite s a DUO_CTRL v → Completes i s fun t =>
        t.on DUO_CTRL_EN = false ∧ t.fget DUO_STAT_ROLE = 0 ∧ t.fget ADM_STAT_LANTERN = 0 ∧ t.on DUO_STAT_SOLO = false ∧
        t.duo.claiming = false ∧ t.duo.releasing = false ∧ t.duo.catching = none ∧ t.duo.inbox = [] ∧
        (s.on DUO_STAT_SOLO = true → t.on DUO_EVT_SOLO_OFF = true) ∧
        (s.fget DUO_STAT_ROLE = 1 → s.on DUO_STAT_SOLO = false → unacked s →
          t.on DUO_STAT_DIVERGED = true ∧ t.on SVC_CTRL_EN = false) ∧
        (s.on DUO_STAT_SOLO = true → t.on DUO_STAT_DIVERGED = s.on DUO_STAT_DIVERGED)))) ∧
  (∀ (a : Acc) (v : Word32) (s : State), Sets (.epochClear a v) a DUO_EPOCHCLR v s
    (if v.getLsbD 0 = true ∧ s.sys.mode = .custody ∧ permBit a.perms pCUST = true ∧ s.fget DUO_STAT_ROLE = 0 then
      { (s.fset DUO_EPOCH_EPOCH 0).lower DUO_STAT_STUCK with duo := { s.duo with epochHeard := 0 } }
     else s))

/-- 12 R288, R289, R291-R296: a holder's lease ends 16 us after the send that the peer last echoed, unless SOLO, and a
holder whose commits were not acknowledged diverges; a follower lapses 16 us after the newest RENEW. A device that may
claim takes an EPOCH above every one known, sticking at the largest, and sends RENEW; the silence of the peer, a peer that
is not SYNCED or cannot claim, or stands by, or 8 us without a MACK, sets SOLO, and a STATUS of a peer that can claim and
echoes a fresh RSEQ ends it. A released Lantern is given up with a RENEW that says so. A RENEW with a lower pair is ignored
by a holder, one with a greater pair makes it yield; a device without the Lantern follows one that is not below its own
EPOCH. A STATUS that echoes confirms the claim and extends the lease. Lease frames say the same over LEASE_OUT and
LEASE_IN; one of another length, SYNC, KIND or CRC changes nothing. -/
def Obligations.LanternIsHeldByLease : Prop :=
  (∀ (dt : Nat) (s : State),
    let u := s.elapse dt
    let holding := u.fget DUO_STAT_ROLE = 1 ∨ u.duo.claiming = true
    let runs := u.on DUO_CTRL_EN = true ∧ (u.sys.mode = .boot ∨ u.sys.mode = .service ∨ u.sys.mode = .custody)
    let lapses := u.fget DUO_STAT_ROLE = 1 ∧ u.on DUO_STAT_SOLO = false ∧ u.duo.leaseFrom + 16000 ≤ u.tb
    let unfollows := u.fget DUO_STAT_ROLE = 2 ∧ passed u u.duo.newestAt 16000
    let lost := unacked u
    let epoch := max (u.fget DUO_EPOCH_EPOCH) u.duo.epochHeard + 1
    let late := u.fget DUO_STAT_ROLE = 1 ∧ (∃ e ∈ u.duo.sent, e.1 = u.duo.peerEcho ∧ u.tb < e.2 + 8000) ∧
      ∃ e ∈ u.duo.unacked, e.2 + 8000 ≤ u.tb
    let lets := u.fget DUO_STAT_ROLE = 1 ∧ u.duo.releasing = true ∧ ¬lost
    let n := (u.duo.rseq + 1) % 2 ^ 32
    let sent := (u.duo.sent.filter fun e => decide (u.tb < e.2 + 20000)) ++ [(n, u.tb)]
    (¬lapses → exec (.leaseEnd dt) s = .next u) ∧
    (lapses → Completes (.leaseEnd dt) s fun t =>
      t.fget DUO_STAT_ROLE = 0 ∧ t.fget ADM_STAT_LANTERN = 0 ∧ t.on DUO_EVT_LAPSED = true ∧ t.duo.releasing = false ∧
      (lost → t.on DUO_STAT_DIVERGED = true ∧ t.on DUO_EVT_SPLIT = true ∧ t.on SVC_CTRL_EN = false ∧ t.on DUO_STAT_SYNCED = false) ∧
      (¬lost → t.on DUO_STAT_DIVERGED = u.on DUO_STAT_DIVERGED ∧ t.on DUO_STAT_SYNCED = u.on DUO_STAT_SYNCED) ∧ t.out = u.out) ∧
    (¬unfollows → exec (.followerLapse dt) s = .next u) ∧
    (unfollows → Completes (.followerLapse dt) s fun t =>
      t.fget DUO_STAT_ROLE = 0 ∧ t.fget ADM_STAT_LANTERN = 0 ∧ t.on DUO_EVT_LAPSED = true ∧ t.duo = u.duo ∧ t.out = u.out) ∧
    (¬MayClaim u → exec (.lanternClaim dt) s = .next u) ∧
    (MayClaim u → Completes (.lanternClaim dt) s fun t =>
      t.fget DUO_EPOCH_EPOCH = min epoch 0xFFFFFFFF ∧ t.on DUO_EVT_CLAIMED = true ∧
      (0xFFFFFFFF ≤ epoch → t.on DUO_STAT_STUCK = true ∧ t.on DUO_EVT_EPOCH_MAX = true) ∧
      (∃ mid more, t.out = mid ++ (if u.on DUO_CTRL_LL_EN = true then [.lease (leaseFrame 1 false false false n)] else []) ++ more ∧
        Sent ((u.fset DUO_EPOCH_EPOCH (min epoch 0xFFFFFFFF)).fset DUO_STAT_ROLE 0) u.out mid 2 n (u.rd KST_JSEQ).toNat false []) ∧
      t.duo.rseq = n ∧ t.duo.sent = sent ∧ t.duo.leaseFrom = u.tb ∧ (t.duo.claiming = true ∨ t.fget DUO_STAT_ROLE = 1) ∧
      (peerSilent u → soloIn u t)) ∧
    (¬(holding ∧ peerSilent u) → exec (.peerSilence dt) s = .next u) ∧
    (holding ∧ peerSilent u → Completes (.peerSilence dt) s (soloIn u)) ∧
    (¬late → exec (.mackWaitExpiry dt) s = .next u) ∧ (late → Completes (.mackWaitExpiry dt) s (soloIn u)) ∧
    (¬lets → exec (.releaseRenewSend dt) s = .next u) ∧
    (lets → Completes (.releaseRenewSend dt) s fun t =>
      t.fget DUO_STAT_ROLE = 0 ∧ t.fget ADM_STAT_LANTERN = 0 ∧ t.on DUO_STAT_SOLO = false ∧ t.duo.rseq = n ∧ t.duo.sent = sent ∧
      t.duo.releasing = false ∧ t.duo.releaseSent = some u.tb ∧
      (u.on DUO_CTRL_LL_EN = false → Sent u u.out t.out 2 n (u.rd KST_JSEQ).toNat true []) ∧
      (u.on DUO_CTRL_LL_EN = true → ∃ p, t.out = p ++ [.lease (leaseFrame 1 false false true n)])) ∧
    (¬(runs ∧ holding) → exec (.renewSend dt) s = .next u) ∧
    (runs ∧ holding → Completes (.renewSend dt) s fun t =>
      t.duo = { u.duo with rseq := n, sent := sent } ∧ t.adm = u.adm ∧ t.dsp = u.dsp ∧ t.kst = u.kst ∧ t.sys = u.sys ∧ t.mem = u.mem ∧
      Sent u u.out t.out 2 n (u.rd KST_JSEQ).toNat false []) ∧
    (¬(runs ∧ ¬holding) → exec (.statusSend dt) s = .next u) ∧
    (runs → ¬holding → Completes (.statusSend dt) s fun t =>
      t.duo = u.duo ∧ t.adm = u.adm ∧ t.dsp = u.dsp ∧ t.kst = u.kst ∧ t.sys = u.sys ∧ t.mem = u.mem ∧
      Sent u u.out t.out 3 u.duo.newest (u.rd KST_JSEQ).toNat false []) ∧
    (let put := fun (w : Bool) (f : List Byte) => { u with out := u.out ++ [.lease f], duo := { u.duo with wakeNext := w } }
      let ll := u.on DUO_CTRL_LL_EN = true
      let line := runs ∧ ll
      let wake := u.on DUO_CTRL_WAKE = true ∧ u.duo.wakeNext = true;
      (u.sys.mode = .standby → ll → exec (.leaseFrameSend dt) s = .next (put u.duo.wakeNext (leaseFrame 4 false false false 0))) ∧
      (u.sys.mode ≠ .standby ∨ ¬ll → ¬line → exec (.leaseFrameSend dt) s = .next u) ∧
      (line → wake → exec (.leaseFrameSend dt) s = .next (put false (leaseFrame 3 false false false 0))) ∧
      (line → ¬wake → holding → exec (.leaseFrameSend dt) s = .next (put true (leaseFrame 1 false false false u.duo.rseq))) ∧
      (line → ¬wake → ¬holding → exec (.leaseFrameSend dt) s = .next (put true
        (leaseFrame 2 (u.on DUO_STAT_SYNCED && !u.on DUO_CTRL_LEAVE) u.claimable false u.duo.newest)))) ∧
    (∀ bits : List Byte,
      bits.length ≠ 4 ∨ (bits.getD 0 0).toNat / 16 ≠ 0xA ∨ (bits.getD 0 0).toNat % 16 = 0 ∨ 4 < (bits.getD 0 0).toNat % 16 →
      exec (.leaseFrameReceive dt bits) s = .next u) ∧
    (∀ b1 b2 : Byte, ∀ k : Fin 4,
      let h : List Byte := [BitVec.ofNat 8 (0xA1 + k.val), b1, b2]
      let i := Instr.leaseFrameReceive dt (h ++ [crc8 h])
      let w := { u.raise WCK_WIRQ_LEASE with wck := { u.wck with leases := u.wck.leases ++ [k.val + 1] } }
      (∀ c, c ≠ crc8 h → exec (.leaseFrameReceive dt (h ++ [c])) s = .next u) ∧
      (u.on DUO_CTRL_LL_EN = false ∨ u.aon = false → exec i s = .next u) ∧
      (u.on DUO_CTRL_LL_EN = true → u.aon = true → ¬runs → exec i s = .next w) ∧
      (u.on DUO_CTRL_LL_EN = true → runs → k = 2 → exec i s = .next { w with duo := { u.duo with heardLease := some u.tb } }) ∧
      (u.on DUO_CTRL_LL_EN = true → runs → k = 0 → ¬holding → u.on DUO_STAT_DIVERGED = false → Completes i s fun t =>
        t.fget DUO_STAT_ROLE = 2 ∧ t.duo.heardLease = some u.tb ∧ t.duo.renewHeard = true ∧ t.wck = w.wck) ∧
      (u.on DUO_CTRL_LL_EN = true → runs → k = 1 → Completes i s fun t =>
        t.on DUO_STAT_PEER_SYNCED = decide (b1.toNat / 128 = 1) ∧ t.duo.peerClaimable = decide (b1.toNat / 64 % 2 = 1) ∧
        t.duo.peerEcho % 4096 = b1.toNat % 16 * 256 + b2.toNat ∧ t.duo.heardLease = some u.tb) ∧
      (u.on DUO_CTRL_LL_EN = true → runs → k = 3 → holding → Completes i s fun t =>
        t.duo.peerStby = true ∧ t.duo.heardLease = some u.tb ∧ soloIn u t)) ∧
    (((∀ m ∈ u.duo.inbox, m.typ ≠ 2) → exec (.renewReceive dt) s = .next u) ∧
      ∀ m, oneMsg u m 2 →
        let h := heard u m
        let own := u.fget DUO_EPOCH_EPOCH
        let above := own < m.epoch ∨ (own = m.epoch ∧ (u.rd SVC_DEVID).toNat < m.devid)
        (holding → ¬above → Completes (.renewReceive dt) s fun t =>
          t = { h with duo := t.duo } ∧ t.duo.renewHeard = true ∧ t.duo.newestPair = (m.epoch, m.devid) ∧
          (u.duo.newestAt = none ∨ u.duo.newestPair ≠ (m.epoch, m.devid) ∨ newer m.rseq u.duo.newest = true →
            t.duo.newest = m.rseq ∧ t.duo.newestAt = some u.tb)) ∧
        (holding → above → Completes (.renewReceive dt) s fun t =>
          t.on DUO_EVT_YIELDED = true ∧ t.fget DUO_EPOCH_EPOCH = min m.epoch 0xFFFFFFFF ∧ t.duo.claiming = false ∧
          t.duo.releasing = false ∧ t.on DUO_STAT_SOLO = false ∧
          (∀ c j, (u.ctx c).st ≠ .free → (u.ctx c).mackFor = some j → j ≤ m.jseq → (∀ w ∈ u.kst.waiting, w.ctx ≠ some c) →
            (t.ctx c).mackFor = none ∧ (t.ctx c).grantable = true) ∧
          ((u.rd KST_JSEQ).toNat ≤ m.jseq → u.on DUO_STAT_DIVERGED = false → t.fget DUO_STAT_ROLE = 2) ∧
          (m.jseq < (u.rd KST_JSEQ).toNat → t.fget DUO_STAT_ROLE = 0 ∧ t.on DUO_STAT_DIVERGED = true ∧ t.on SVC_CTRL_EN = false)) ∧
        (¬holding → m.epoch < own → exec (.renewReceive dt) s = .next h) ∧
        (¬holding → own ≤ m.epoch → u.on DUO_STAT_DIVERGED = false → Completes (.renewReceive dt) s fun t =>
          t.fget DUO_STAT_ROLE = 2 ∧ t.fget DUO_EPOCH_EPOCH = min m.epoch 0xFFFFFFFF ∧ t.duo.renewJseq = m.jseq ∧
          (own < 0xFFFFFFFF → 0xFFFFFFFF ≤ m.epoch → u.on DUO_STAT_STUCK = false →
            t.on DUO_STAT_STUCK = true ∧ t.on DUO_EVT_EPOCH_MAX = true) ∧
          t.duo.newestPair = (m.epoch, m.devid) ∧ t.duo.renewHeard = true)) ∧
    (((∀ m ∈ u.duo.inbox, m.typ ≠ 3) → exec (.statusReceive dt) s = .next u) ∧
      ∀ m, oneMsg u m 3 → Completes (.statusReceive dt) s fun t =>
        let able := m.dflags / 2 % 2 = 1 ∧ m.dflags / 4 % 2 = 1
        let fresh := ∃ e ∈ u.duo.sent, e.1 = m.rseq ∧ u.tb < e.2 + 8000
        (holding → ¬able → soloIn u t) ∧
        (holding → able → m.port = 2 ∨ m.port = 3 → t.on DUO_STAT_SOLO = (u.on DUO_STAT_SOLO && decide (¬fresh)) ∧
          (fresh → u.on DUO_STAT_SOLO = true → t.on DUO_EVT_SOLO_OFF = true)) ∧
        t.on DUO_STAT_PEER_SYNCED = decide (m.dflags / 2 % 2 = 1) ∧ t.duo.peerClaimable = decide (m.dflags / 4 % 2 = 1) ∧
        t.duo.peerEcho = m.rseq ∧ t.duo.peerEpoch = m.epoch ∧ t.duo.statusHeard = true ∧
        (m.epoch = u.fget DUO_EPOCH_EPOCH → u.duo.claiming = true → t.fget DUO_STAT_ROLE = 1 ∧ t.duo.claiming = false) ∧
        (m.epoch = u.fget DUO_EPOCH_EPOCH → holding → ∀ e, u.duo.sent.find? (fun e => decide (e.1 = m.rseq)) = some e →
          t.duo.leaseFrom = max u.duo.leaseFrom e.2)))

/-- 12 R299-R302: a MIRROR without a commit answers the context that awaits it, or is held 50 us; one that continues the
journal is applied, its record, its log frames and its journal entry sealed as it came, and acknowledged with a MACK; one
that leaves a gap ends SYNCED and asks for the journal, and one without room waits. A holder ignores MIRRORs, and one whose
tag fails is as if never received, not even heard. One whose request can come no more is not held. A MACK makes the
answers of its JSEQ and of those below grantable. A context whose MIRROR does not come in time is answered NO_LANTERN.
R304, R307: JREQ is answered with the entries of the ring from there on, or JDATA with JSEQ 0, and JSEQ 0 asks the holder
for its copy (a choice of the model, log entry 154); JDATA is applied and ends the catch-up, or asks for a full resync. A
full resync empties the store, writes its new root, applies each copy entry that is newer, and ends with the last, or with
ERR. A scheduled switch starts the joint switch; a DNUM that differs for more than 1 ms sets EPOCH_SKEW. -/
def Obligations.MirrorsAndResyncAct : Prop :=
  ∀ (dt : Nat) (s : State),
    let u := s.elapse dt
    let holding := u.fget DUO_STAT_ROLE = 1 ∨ u.duo.claiming = true
    let last := (u.rd KST_JSEQ).toNat
    (((∀ m ∈ u.duo.inbox, m.typ ≠ 4) → exec (.mirrorReceive dt) s = .next u) ∧
      ∀ m, oneMsg u m 4 →
        let h := heard u m
        let i := Instr.mirrorReceive dt
        (h.opened m m.body = none → exec i s = .next { u with duo := { u.duo with inbox := [] } }) ∧
        (∀ b, holding → h.opened m m.body = some b → exec i s = .next h) ∧
        (∀ b, ¬holding → h.opened m m.body = some b →
          let x := mirrorOf m.jseq b
          (m.jseq = 0 → x.requester ≠ 0 ∨ x.seq ≠ 0 →
            (∀ c r, u.awaiting x = some c → x.resp = some r → Completes i s fun t =>
              (t.ctx c).st = .ending ∧ (t.ctx c).resp = some r ∧ (t.ctx c).mirrored = true ∧ (t.ctx c).committed = true ∧
              (∀ y, y ≠ c → t.ctx y = u.ctx y) ∧ t.duo = h.duo) ∧
            (u.awaiting x = none → h.mayCome x = false → exec i s = .next h) ∧
            (u.awaiting x = none → h.mayCome x = true → u.duo.held.length < 1024 → Completes i s fun t => ∃ y,
              t = { h with duo := { h.duo with held := u.duo.held ++ [(y, u.tb)] } } ∧
              y.requester = x.requester ∧ y.seq = x.seq ∧ y.resp = x.resp)) ∧
          (m.jseq ≠ 0 → u.on DUO_STAT_RESYNC = false → u.duo.catching = none → u.on DUO_STAT_SYNCED = true →
            (m.jseq ≤ last → Completes i s fun t => t.kst = u.kst ∧ t.dsp = u.dsp ∧ t.rd KST_JSEQ = u.rd KST_JSEQ ∧
              t.duo = h.duo ∧ Sent t u.out t.out 5 0 last false []) ∧
            (m.jseq = last + 1 → u.duo.buffer = [] → u.remoteFits x.entries = true → Completes i s fun t =>
              t.rd KST_JSEQ = BitVec.ofNat 64 m.jseq ∧ t.duo.buffer = [] ∧ Sent t u.out t.out 5 0 (t.rd KST_JSEQ).toNat false [] ∧
              ∀ e, x.entries = [e] →
                Applied u { e with salt := some (BitVec.ofNat 128 (beAt m.body 0 16)), ctr := beAt m.body 16 8 - 1 } t) ∧
            (m.jseq = last + 1 → u.duo.buffer = [] → u.remoteFits x.entries = false → Completes i s fun t =>
              t.rd KST_JSEQ = u.rd KST_JSEQ ∧ t.kst = u.kst ∧ t.duo.buffer.map Mirror.jseq = [m.jseq] ∧
              t.on KST_EVT_LOGSTALL = true) ∧
            (last + 1 < m.jseq → (∀ y ∈ u.duo.buffer, y.jseq ≠ last + 1) → u.duo.buffer.length < 8192 → Completes i s fun t =>
              t.on DUO_STAT_SYNCED = false ∧ t.on DUO_EVT_GAP = true ∧ t.duo.catching = some (last + 1, false) ∧
              t.duo.buffer.length = u.duo.buffer.length + 1 ∧ t.kst = u.kst ∧ Sent t u.out t.out 6 0 (last + 1) false [])) ∧
          (∀ e, x.entries = [e] → m.jseq = last + 1 → u.on DUO_STAT_RESYNC = true → u.duo.buffer = [] → u.duo.copies = [] →
            u.duo.live = [] → u.remoteFits [e] = true → Completes i s fun t =>
              t.rd KST_JSEQ = BitVec.ofNat 64 m.jseq ∧ sget 0 t.duo.copied e.index = e.jseq ∧ t.duo.buffer = [] ∧
              Applied u { e with salt := some (BitVec.ofNat 128 (beAt m.body 0 16)), ctr := beAt m.body 16 8 - 1 } t))) ∧
    (((∀ m ∈ u.duo.inbox, m.typ ≠ 5) → exec (.mackReceive dt) s = .next u) ∧
      ∀ m, oneMsg u m 5 →
        (u.fget DUO_STAT_ROLE ≠ 1 → exec (.mackReceive dt) s = .next (heard u m)) ∧
        (u.fget DUO_STAT_ROLE = 1 → Completes (.mackReceive dt) s fun t =>
          (∀ e ∈ u.duo.unacked, m.jseq < e.1 → e ∈ t.duo.unacked) ∧
          ∀ c j, (u.ctx c).st ≠ .free → (u.ctx c).mackFor = some j → j ≤ m.jseq →
            (t.ctx c).mackFor = none ∧ (t.ctx c).grantable = true)) ∧
    exec (.mirrorHoldExpiry dt) s = .next { u with duo := { u.duo with held := u.duo.held.filter fun e => decide (u.tb < e.2 + 50000) } } ∧
    (∀ c : Fin 8192,
      let x := u.ctx c
      let tx := ((x.stages.filter fun l => decide (6 ≤ l.pool)).map LStage.charge).sum
      let late := x.st = .parked ∧ x.isState = true ∧ x.await = none ∧ x.mirrored = false ∧ x.committed = false ∧ x.core = none ∧
        ∃ e, x.key = some e ∧ e ≤ u.tb + tx
      (¬late → exec (.mirrorWaitExpiry dt c) s = .next u) ∧
      (late → Completes (.mirrorWaitExpiry dt c) s fun t => (t.ctx c).st = .ending ∧ (t.ctx c).resp = some { status := 0x11 } ∧
        (∀ y, y ≠ c.val → t.ctx y = u.ctx y) ∧ t.regs = u.regs ∧ t.duo = u.duo)) ∧
    (let gap := u.fget DUO_STAT_ROLE = 2 ∧ u.duo.catching = none ∧
        (u.on DUO_STAT_SYNCED = true ∨ u.duo.caught = true ∨ u.on DUO_STAT_RESYNC = true) ∧
        ∃ e ∈ u.duo.ahead, last < e.1 ∧ e.2 + 8001 ≤ u.tb;
      (¬gap → exec (.jseqGapTimeout dt) s = .next u) ∧
      (gap → Completes (.jseqGapTimeout dt) s fun t => t.on DUO_STAT_SYNCED = false ∧ t.on DUO_EVT_GAP = true ∧
        t.duo.ahead = [] ∧ t.duo.catching = some (last + 1, false) ∧ t.fget DUO_STAT_ROLE = 2 ∧
        Sent t u.out t.out 6 0 (last + 1) false [])) ∧
    (((∀ m ∈ u.duo.inbox, m.typ ≠ 6) ∨ u.duo.saltWait = true → exec (.jreqReceive dt) s = .next u) ∧
      ∀ m, oneMsg u m 6 → u.duo.saltWait = false →
        ((heard u m).journalKey = none → exec (.jreqReceive dt) s = .next (heard u m)) ∧
        (∀ k, (heard u m).journalKey = some k → Completes (.jreqReceive dt) s fun t =>
          let copy := m.jseq = 0 ∧ u.fget DUO_STAT_ROLE = 1
          let records := (u.kst.records.filter fun e => decide (e.2.type ≠ 0)).length
          let es := if ∃ e ∈ u.kst.journal, e.jseq = m.jseq then u.kst.journal.filter fun e => decide (m.jseq ≤ e.jseq) else []
          let first := if es = [] then 0 else m.jseq
          let b := sealedBody k u.duo.salt.toNat u.duo.ctr (u.rd SVC_DEVID).toNat 7 first (es.map fun e => e.stored k).flatten
          t.duo = { (heard u m).duo with ctr := u.duo.ctr + 1 + (if copy then 2 * records else 0) } ∧ t.kst = u.kst ∧
          t.dsp = u.dsp ∧ t.adm = u.adm ∧ (b.length ≤ 8192 → ¬copy → Sent t u.out t.out 7 0 first false b))) ∧
    (((∀ m ∈ u.duo.inbox, m.typ ≠ 7) ∨ (u.on DUO_STAT_RESYNC = true ∧ u.duo.catching = none) →
        exec (.jdataReceive dt) s = .next u) ∧
      ∀ m, oneMsg u m 7 → u.on DUO_STAT_RESYNC = false →
        let h := heard u m
        (h.opened m m.body = none → exec (.jdataReceive dt) s = .next { u with duo := { u.duo with inbox := [] } }) ∧
        (h.opened m m.body ≠ none → u.duo.catching = none → exec (.jdataReceive dt) s = .next h) ∧
        (∀ b k from_ compare, h.opened m m.body = some b → h.journalKey = some k → u.duo.catching = some (from_, compare) →
          (m.jseq = 0 → exec (.jdataReceive dt) s = .next { h with duo := { h.duo with needFull := true, catching := none, buffer := [] } }) ∧
          (∀ e, m.jseq ≠ 0 → compare = false → storedEntries k b.length b = [e] → last < e.jseq → u.remoteFits [e] = true →
            u.duo.buffer = [] → Completes (.jdataReceive dt) s fun t =>
              t.rd KST_JSEQ = BitVec.ofNat 64 e.jseq ∧ t.duo.catching = none ∧ t.duo.caught = true ∧ t.out = u.out ∧
              Applied u e t) ∧
          (∀ e, m.jseq ≠ 0 → compare = false → storedEntries k b.length b = [e] → last < e.jseq → u.remoteFits [e] = false →
            exec (.jdataReceive dt) s = .next { h.raise KST_EVT_LOGSTALL with duo := { h.duo with journalWait := [e] } }))) ∧
    (((∀ m ∈ u.duo.inbox, m.typ ≠ 7) ∨ u.on DUO_STAT_RESYNC = false → exec (.copyEntryReceive dt) s = .next u) ∧
      ∀ m, oneMsg u m 7 → u.on DUO_STAT_RESYNC = true → u.on DUO_RESYNC_BUSY = true →
        let h := heard u m
        (h.opened m m.body = none → exec (.copyEntryReceive dt) s = .next { u with duo := { u.duo with inbox := [] } }) ∧
        (∀ b k e, h.opened m m.body = some b → h.journalKey = some k → storedEntries k b.length b = [e] →
          ((u.rd KST_NIDX).toNat < e.index + 1 → exec (.copyEntryReceive dt) s =
            .next { ((h.lower DUO_RESYNC_BUSY).lower DUO_STAT_RESYNC).fset DUO_RESYNC_ERR 4 with
              duo := { h.duo with buffer := [], copies := [], live := [] } }) ∧
          (e.index + 1 ≤ (u.rd KST_NIDX).toNat → u.duo.buffer = [] → u.duo.copies = [] →
            let at_ := h.wr DUO_RSIDX (BitVec.ofNat 64 (e.index + 1))
            (u.remoteFits [e] = false → exec (.copyEntryReceive dt) s =
              .next { at_.raise KST_EVT_LOGSTALL with duo := { h.duo with copies := [(e, false)] } }) ∧
            (u.remoteFits [e] = true → e.jseq ≤ sget 0 u.duo.copied e.index → exec (.copyEntryReceive dt) s = .next at_) ∧
            (u.remoteFits [e] = true → sget 0 u.duo.copied e.index < e.jseq → Completes (.copyEntryReceive dt) s fun t =>
              t.rd DUO_RSIDX = BitVec.ofNat 64 (e.index + 1) ∧ sget 0 t.duo.copied e.index = e.jseq ∧ t.out = u.out ∧
              t.rd KST_JSEQ = u.rd KST_JSEQ ∧ Applied u e t)))) ∧
    (let ready := u.on DUO_RESYNC_BUSY = true ∧ u.journalKey ≠ none ∧ u.duo.renewJseq ≤ last ∧
        u.duo.live = [] ∧ u.duo.buffer = [] ∧ u.duo.copies = [];
      (¬ready → exec (.resyncComplete dt) s = .next u) ∧
      (ready → Completes (.resyncComplete dt) s fun t => t.on DUO_RESYNC_BUSY = false ∧ t.on DUO_STAT_RESYNC = false ∧
        t.fget DUO_RESYNC_ERR = 0 ∧ t.on DUO_STAT_DIVERGED = false ∧ t.on DUO_EVT_RESYNC_DONE = true ∧ t.on DUO_STAT_SYNCED = true ∧
        t.kst = u.kst ∧ t.duo = u.duo)) ∧
    (let gone := u.on DUO_RESYNC_BUSY = true ∧ passed u u.duo.heardP2 19001 ∧ passed u u.duo.heardP3 19001;
      (¬gone → exec (.resyncLinkLoss dt) s = .next u) ∧
      (gone → exec (.resyncLinkLoss dt) s = .next { ((u.lower DUO_RESYNC_BUSY).lower DUO_STAT_RESYNC).fset DUO_RESYNC_ERR 3 with
        duo := { u.duo with buffer := [], copies := [], live := [] } })) ∧
    (let due := u.powered = true ∧ u.on DUO_SWAT_ARM = true ∧ u.fget DUO_SWAT_TIME ≤ u.tb;
      let w := (u.lower DUO_SWAT_ARM).raise DUO_EVT_SWITCHED;
      (¬due → exec (.scheduledSwitch dt) s = .next u) ∧
      (due → exec (.scheduledSwitch dt) s = .next
        (if u.on DSP_EPOCH_BUSY = true then w
         else if 0 < u.oldLive then (w.fset DSP_EPOCH_ERR 6).raise DSP_EVT_EPOCH_ERR
         else (w.raise DSP_EPOCH_BUSY).raise ADM_EPOCH_BUSY))) ∧
    (let skew := u.duo.peerDnum ≠ some (u.fget DSP_EPOCH_NUM) ∧ ∃ x, u.duo.skewSince = some x ∧ x + 1000001 ≤ u.tb;
      (¬skew → exec (.epochSkewTimeout dt) s = .next u) ∧ (skew → exec (.epochSkewTimeout dt) s = .next (u.raise DUO_EVT_EPOCH_SKEW))) ∧
    (∀ (a : Acc) (v : Word32),
      let go := v.getLsbD 31 = true ∧ s.on DUO_RESYNC_BUSY = false ∧ (s.sys.mode = .boot ∨ s.sys.mode = .custody)
      let i := Instr.fullResync a v
      let bars := s.fget DUO_STAT_ROLE = 1 ∨ s.duo.claiming = true ∨ passed s s.duo.newestAt 16000
      (¬go → Sets i a DUO_RESYNC v s s) ∧
      (go → peerSilent s → Sets i a DUO_RESYNC v s (s.fset DUO_RESYNC_ERR 1)) ∧
      (go → ¬peerSilent s → bars → Sets i a DUO_RESYNC v s (s.fset DUO_RESYNC_ERR 2)) ∧
      (go → ¬peerSilent s → ¬bars → MayWrite s a DUO_RESYNC v → Completes i s fun t =>
        t.on DUO_RESYNC_BUSY = true ∧ t.on DUO_STAT_RESYNC = true ∧ t.fget DUO_RESYNC_ERR = 0 ∧ t.on DUO_STAT_SYNCED = false ∧
        t.rd DUO_RSIDX = 0 ∧ t.kst.sealedRecs = [] ∧ t.kst.tail = [] ∧ t.kst.treeRoot = rootOf [] ∧ t.kst.log = [] ∧
        t.kst.journal = [] ∧ t.kst.nexts = [] ∧
        t.rd KST_JSEQ = BitVec.ofNat 64 s.duo.renewJseq ∧ t.duo.copied = [] ∧ t.duo.catching = none ∧
        Sent t s.out t.out 6 0 0 false [] ∧
        (let n := (s.rd TMP_ROOTSEQ).toNat + 1
         (∀ a ∈ checkpointWrites n, s.actCheck ⟨.kst, 0⟩ a .write = none) → t.rd TMP_ROOTSEQ = BitVec.ofNat 64 n) ∧
        ∀ e ∈ t.kst.records, ∃ c, s.cachedAt e.1 = some c ∧ c.fixed.isSome = true))

/-! ### Modes, start-up, lifecycle (13) -/

/-- Every unit outside the always-on and the backup domain is reset; the backup registers, the sealed store, the BMK and
the operational roster stay, where no test of a tamper source ends with the reset, whose source may alarm (13 Table 13.2,
15 R346, R348, R358, 17 R392). -/
def Sys2Proof.unitsReset (u t : State) : Prop :=
  t.svc = {} ∧ t.adm = {} ∧ t.dsp = {} ∧ t.duo = {} ∧ t.cphQ = [] ∧ t.mauQ = [] ∧ t.cph = [] ∧ t.mau = [] ∧ t.tags = [] ∧
  t.kst.records = [] ∧ t.kst.cached = [] ∧ t.kst.log = [] ∧ t.crd.roster = u.crd.roster ∧
  t.kst.journal = u.kst.journal.filter (fun e => decide (e.jseq ≤ u.kst.durable)) ∧
  (u.on TMP_BIST_BUSY = false → t.kst.sealedRecs = u.kst.sealedRecs ∧ t.kst.tail = u.kst.tail ∧ t.sys.bmk = u.sys.bmk ∧
    ∀ r ∈ [TMP_TSC, TMP_STKY, SYS_BOOTTAMP, SYS_WAKECFG, SYS_SVNFLOOR, CRD_ROSTER_CTRL], t.rd r = u.rd r)

/-- No lifecycle group is partly programmed, and no advance is under way (13 R320). -/
def Sys2Proof.groupsWhole (u : State) : Prop :=
  u.sys.advancing = none ∧ ∀ x, groupBits (memGet u.mem (lcGroup x)) = 0 ∨ 6 ≤ groupBits (memGet u.mem (lcGroup x))

/-- Memory is `m` afterwards, but for the bytes of lifecycle groups that were not whole. -/
def Sys2Proof.keepsMem (u : State) (m : List Host.Cell) (t : State) : Prop :=
  (groupsWhole u → t.mem = m) ∧ ∀ x, (∀ l, x ≠ lcGroup l) → memGet t.mem x = memGet m x

/-- The reset release: BOOT on core 0 from its reset state, with the cause recorded, and the lifecycle group that was left
partly programmed completed (13 R315, R320, R326). -/
def Sys2Proof.bootsWith (u t : State) (cause : Word) : Prop :=
  t.sys.mode = .boot ∧ t.rd SYS_RSTCAUSE = cause ∧ t.core (.ctl 0) = coreAtReset ∧ t.sys.lcPartial = none ∧
  (u.sys.lcPartial = none → u.sys.advancing = none → t.sys.lc = u.sys.lc) ∧ t.rng.hkWait = true

/-- 13 R312, R313, Table 13.2, Table 13.3, R326: without VDD_AON the device is in CELL; with it in STANDBY, Wick from
reset and MAIN_EN as STBY_ON_POWER says. PWR_GOOD rising releases the reset into BOOT and loads the timebase from the
time-stamp counter; its fall resets every unit outside the always-on and backup domains. The reset pin, and SYS_RST with
its key, reset the device but leave memory. A mode request is refused with the first failing condition's code, changes
nothing where that mode holds or a boot step has failed (R316), and else changes the mode: STANDBY stops every control
core, as STOP does, and takes MAIN_EN low. -/
def Obligations.PowerAndModesAct : Prop :=
  (∀ (dt : Nat) (s : State), Canonical s →
    let u := s.elapse dt
    let flash := u.mem.filter fun e => decide (0x10000000 ≤ e.1) && decide (e.1 < 0x20000000)
    (u.sys.mode = .cell → exec (.vddAonLost dt) s = .next u) ∧
    (u.sys.mode ≠ .cell → Completes (.vddAonLost dt) s fun t =>
      t.sys.mode = .cell ∧ t.sys.mainEn = false ∧ t.sys.pwrGood = false ∧ t.sys.armed = false ∧ t.cores = [] ∧ t.wck = {} ∧ t.obs = {} ∧
      unitsReset u t ∧ (u.on FLC_STAT_BUSY = false → keepsMem u flash t)) ∧
    (u.sys.mode ≠ .cell → exec (.vddAonGood dt) s = .next u) ∧
    (u.sys.mode = .cell → Completes (.vddAonGood dt) s fun t =>
      t.sys.mode = .standby ∧ t.sys.firstPower = true ∧ t.sys.mainEn = (!u.on SYS_WAKECFG_STBY_ON_POWER) ∧ t.core .wick = {} ∧
      t.wck = {} ∧ t.mem = u.mem ∧ t.sys.bmk = u.sys.bmk) ∧
    (let rises := u.sys.mode = .standby ∧ u.sys.mainEn = true ∧ u.sys.pwrGood = false;
      (¬rises → exec (.pwrGoodRise dt) s = .next u) ∧
      (rises → Completes (.pwrGoodRise dt) s fun t =>
        bootsWith u t (if u.sys.firstPower = true then 1 else 2) ∧ t.sys.pwrGood = true ∧ t.sys.firstPower = false ∧
        t.sys.pwrGoodAt = u.clock ∧ t.tb = (u.rd TMP_TSC).toNat * 1000000000 / 32768 % 2 ^ 64 ∧ keepsMem u u.mem t)) ∧
    (¬(u.sys.mode ≠ .cell ∧ u.sys.pwrGood = true) → exec (.pwrGoodFall dt) s = .next u) ∧
    (u.sys.mode ≠ .cell → u.sys.pwrGood = true → Completes (.pwrGoodFall dt) s fun t =>
      t.sys.mode = .standby ∧ t.sys.pwrGood = false ∧ t.sys.armed = false ∧ unitsReset u t ∧ t.core .wick = u.core .wick ∧
      (u.on TMP_BIST_BUSY = false → t.wck = u.wck) ∧ (∀ n : Fin 16, t.core (.ctl n) = {}) ∧ (u.on FLC_STAT_BUSY = false → keepsMem u flash t)) ∧
    (u.powered = false → exec (.resetPin dt) s = .next u) ∧
    (u.powered = true → Completes (.resetPin dt) s fun t => bootsWith u t 4 ∧ unitsReset u t ∧ t.tb = u.tb ∧
      (u.on TMP_BIST_BUSY = false → t.wck = u.wck) ∧
      (u.on FLC_STAT_BUSY = false → keepsMem u u.mem t ∧
        ∀ r ∈ [CPH_ACTIVE, CPH_SPARE, CPH_RETIRED, FLT_FIRST, ACT_DBGSTKY], t.rd r = u.rd r))) ∧
  (∀ (a : Acc) (v : Word32) (s : State), Canonical s →
    (¬(v.toNat / 65536 = 0xD1A5 ∧ v.getLsbD 0 = true) → Sets (.sysReset a v) a SYS_RST v s s) ∧
    (v.toNat / 65536 = 0xD1A5 → v.getLsbD 0 = true → MayWrite s a SYS_RST v → Completes (.sysReset a v) s fun t =>
      bootsWith s t 8 ∧ unitsReset s t ∧ t.tb = s.tb ∧ (s.on TMP_BIST_BUSY = false → t.wck = s.wck) ∧ (s.on FLC_STAT_BUSY = false → keepsMem s s.mem t))) ∧
  (∀ (a : Acc) (v : Word32) (s : State) (i : Instr),
    i = .modeRequestService a v ∨ i = .modeRequestCustody a v ∨ i = .modeRequestStandby a v ∨ i = .modeRequestInvalid a v →
    let m := s.sys.mode
    let t := v.toNat % 8
    let same := (t = 3 ∧ m = .service) ∨ (t = 4 ∧ m = .custody)
    let why : Nat :=
      if t = 3 then
        if m ≠ .boot ∧ m ≠ .custody then 8
        else if s.sys.lc = .blank ∨ s.sys.lc = .returned then 1
        else if s.on RNG_STAT_READY = false then 2
        else if s.on KST_STAT_MOUNTED = false then 3
        else if s.fget ADM_EPOCH_NUM = 0 ∨ s.fget DSP_EPOCH_NUM = 0 then 4 else 0
      else if t = 4 then if m ≠ .boot ∧ m ≠ .service then 8 else if s.sys.lc = .blank then 1 else 0
      else if t = 2 then
        if m ≠ .boot ∧ m ≠ .service ∧ m ≠ .custody then 8
        else if s.on SVC_CTRL_EN = true ∨ s.live ≠ [] then 5
        else if s.fget DUO_STAT_ROLE ≠ 0 then 6
        else if s.on FLC_STAT_BUSY = true ∨ s.on FLC_STAT_SUSP = true then 7 else 0
      else 8
    let halted := m = .boot ∧ s.fget SYS_BOOTSTAT_ERR ≠ 0
    (v.getLsbD 31 = false ∨ same ∨ halted → Sets i a SYS_MODEREQ v s s) ∧
    (v.getLsbD 31 = true → ¬same → ¬halted → why ≠ 0 →
      Sets i a SYS_MODEREQ v s ((s.fset SYS_STAT_REJ why).raise SYS_EVT_REQ_REJ)) ∧
    (v.getLsbD 31 = true → ¬same → ¬halted → why = 0 → MayWrite s a SYS_MODEREQ v →
      (t ≠ 2 → Completes i s fun x =>
        x.sys = { s.sys with mode := if t = 3 then .service else .custody } ∧ x.on SYS_EVT_MODE_CHG = true ∧
        x.on CRD_QSTAT_OPEN = false ∧ x.on CRD_QSTAT_AUTH = false ∧ (m = .custody → x.on DUO_CTRL_FORCE = false) ∧
        x.dsp = s.dsp ∧ x.kst = s.kst ∧ x.cores = s.cores ∧ x.mem = s.mem ∧ x.adm = s.adm ∧ x.svc = s.svc ∧ x.duo = s.duo) ∧
      (t = 2 → Completes i s fun x =>
        x.sys.mode = .standby ∧ x.sys.mainEn = false ∧ x.sys.armed = false ∧ x.on SYS_EVT_MODE_CHG = true ∧
        ∀ n : Fin 16, let c := s.core (.ctl n)
          let open_ := c.slot ≠ none ∨ c.holdcnt ≠ 0 ∨ s.stalls (.ctl n) = true ∨ s.entering n = true
          (¬open_ → x.fget (SYS_CORE_CTRL_STATE n) ≠ 1) ∧
          (open_ → s.fget (SYS_CORE_CTRL_STATE n) = 1 →
            x.fget (SYS_CORE_CTRL_STATE n) = 1 ∧ x.sys.stopReq.getLsbD n.val = true))))

/-- Boot step `n` fails: ERR names it, and core 0 no longer runs (13 R316). -/
def Sys2Proof.stepFails (t : State) (n : Nat) : Prop :=
  t.fget SYS_BOOTSTAT_STEP = n ∧ t.fget SYS_BOOTSTAT_ERR = n ∧ t.fget (SYS_CORE_CTRL_STATE 0) ≠ 1

/-- QUENCH entry (13 R321, 16 R373): the safe state, every key destroyed, no context, core 0 at Kindling's entry and no
other core running. -/
def Sys2Proof.quenched (t : State) : Prop :=
  t.sys.mode = .quench ∧ t.on FLT_STAT_SAFE = true ∧ t.on SVC_CTRL_EN = false ∧ t.on ADM_CTRL_EN = false ∧ t.on DUO_CTRL_EN = false ∧
  t.fget DUO_STAT_ROLE = 0 ∧ (∀ c, (t.ctx c).st = .free) ∧ t.kst.records = [] ∧ t.kst.cached = [] ∧ t.kst.transient = [] ∧
  t.kst.hotKey = 0 ∧ t.kst.sealingKey = 0 ∧ t.rng.buffer = [] ∧ t.cph = [] ∧ t.mau = [] ∧ t.cphQ = [] ∧ t.mauQ = [] ∧
  t.on KST_STAT_MOUNTED = false ∧ t.sys.ddrTrained = false ∧ t.core (.ctl 0) = { coreAtReset with pc := Config.quenchEntry } ∧
  t.fget (SYS_CORE_CTRL_STATE 0) = 1 ∧ ∀ n : Fin 16, n ≠ 0 → t.fget (SYS_CORE_CTRL_STATE n) ≠ 1

/-- The work of boot step `n` is done (13 Table 13.4). -/
def Sys2Proof.StepDone (u : State) (n : Nat) : Prop :=
  if n ≤ 1 then True
  else if n = 2 then ¬(u.on SYS_BOOTTAMP_CELL_ALARM = true ∨ u.on SYS_BOOTTAMP_SNUFF = true ∨
    ((u.sys.lc = .provisioned ∨ u.sys.lc = .field) ∧ u.on SYS_BOOTTAMP_BMK_VALID = false))
  else if n = 3 then ∀ e ∈ u.flc.flags, e.2 = false
  else if n = 6 then u.on RNG_STAT_READY = true
  else u.sys.stepsDone.getLsbD n = true

/-- Boot step `n` may take place now: BOOT, no step failed, every step before it done and not its own (13 R315, R316). -/
def Sys2Proof.StepMay (u : State) (n : Nat) : Prop :=
  u.sys.mode = .boot ∧ u.fget SYS_BOOTSTAT_ERR = 0 ∧ u.fget SYS_BOOTSTAT_STEP ≤ n ∧ (∀ k < n, StepDone u k) ∧
  u.sys.stepsDone.getLsbD n = false

/-- The image that step 0x05 or 0x0A takes, with its slot: of `kind`, whose SVN is not below `floor`, at most `len` bytes,
signed; that of the preferred slot first (13 R317). -/
def Sys2Proof.Chooses (s : State) (at_ : Bool → Nat) (kind floor len : Nat) (r : Option (Bool × List Byte)) : Prop :=
  let pref := s.on SYS_WAKECFG_BOOTPREF
  let first := s.image (at_ pref) kind floor len
  let second := first.2.image (at_ !pref) kind floor len
  (∀ b, first.1 = some b → r = some (pref, b)) ∧
  (∀ b, first.1 = none → second.1 = some b → r = some (!pref, b)) ∧ (first.1 = none → second.1 = none → r = none) ∧
  ∀ b i, r = some (b, i) → leAt i 0 4 = 0x4B494E44 ∧ leAt i 4 1 = kind ∧ floor ≤ leAt i 6 2 ∧ leAt i 8 4 ≤ len ∧
    i.length = 0xD90 + leAt i 8 4 ∧
    s.signed (leAt i 5 1) (i.take 64 ++ i.drop 0xD90) (slice i 0x40 96) (slice i 0xA0 3309) = true

/-- 13 R315-R318, 08 R209, 09 R226, 10 R273, 19 R414, R426: SYS_BOOTSTAT takes STEP and ERR, and DONE with step 0x0D; an
ERR written in BOOT halts core 0, and after it the device stays as it is. The write that leaves step 0x01 switches in the
access rules of the lifecycle state; the one that leaves step 0x05 or 0x0A, when the steps before it are done, gives SLOT
or FWSLOT the slot that verifies, the preferred first, or fails that step, and core 0 jumps to stage one in the flash
window, or to the firmware copied to its load address (that these writes stand for the verification and the jump is the
model's choice, log entry 57). In BOOT, while no step has failed and in the order of the steps: a QUENCH condition enters
QUENCH; the patch table is not present, is applied granule by granule in the ROM, or fails step 4; the self-tests make the
lowest sixteen cipher engines and the lowest 128 modular units that pass active, and the next ones spares; calibration
gives the factory's identity and the overlay that verifies, the newer copy first; memory training sizes the partitions.
Each failing step stops core 0 with its number in ERR. -/
def Obligations.BootStepsAct : Prop :=
  (∀ (a : Acc) (v : Word32) (s : State),
    let step := v.toNat % 256
    let err := v.toNat / 256 % 256
    let old := s.fget SYS_BOOTSTAT_STEP
    let put := fun (x : State) => let w := (x.fset SYS_BOOTSTAT_STEP step).fset SYS_BOOTSTAT_ERR err
      if step = 13 ∧ err = 0 then w.raise SYS_BOOTSTAT_DONE else w
    let i := Instr.bootstatWrite a v
    let runs := s.sys.mode = .boot ∧ s.fget SYS_BOOTSTAT_ERR = 0
    let one := runs ∧ old = 1 ∧ step ≠ 1 ∧ s.sys.stepsDone.getLsbD 1 = false
    let first := err = 0 ∧ old = 5 ∧ step = 6 ∧ StepMay s 5
    let second := err = 0 ∧ old = 10 ∧ step = 11 ∧ StepMay s 10
    let stage := fun b : Bool => if b = true then 0x10600000 else 0x10100000
    let firmware := fun b : Bool => if b = true then 0x14D00000 else 0x10B00000
    (s.sys.mode = .boot → s.fget SYS_BOOTSTAT_ERR ≠ 0 → Sets i a SYS_BOOTSTAT v s s) ∧
    (s.sys.mode ≠ .boot ∨ (runs ∧ ¬one ∧ ¬first ∧ ¬second ∧ err = 0) → Sets i a SYS_BOOTSTAT v s (put s)) ∧
    (runs → err ≠ 0 → MayWrite s a SYS_BOOTSTAT v → Completes i s fun t =>
      t.fget SYS_BOOTSTAT_STEP = step ∧ t.fget SYS_BOOTSTAT_ERR = err ∧ t.fget (SYS_CORE_CTRL_STATE 0) ≠ 1) ∧
    (one → MayWrite s a SYS_BOOTSTAT v → Completes i s fun t =>
      t.fget SYS_BOOTSTAT_STEP = step ∧ t.fget SYS_BOOTSTAT_ERR = err ∧ t.sys.stepsDone.getLsbD 1 = true ∧
      t.fget ACT_EPOCH_NUM = (s.fget ACT_EPOCH_NUM + 1) % 65536 ∧
      ∀ e ∈ kindlingRules s.sys.lc, t.rd (ACT_ARULE_START e.1) = BitVec.ofNat 64 e.2.1 ∧
        t.rd (ACT_ARULE_END e.1) = BitVec.ofNat 64 e.2.2.1 ∧ t.rd (ACT_ARULE_ATTR e.1) = BitVec.ofNat 64 (2 ^ 31 + e.2.2.2)) ∧
    (first → Chooses s stage 1 (s.fget SYS_SVNFLOOR_STAGE1) 0x400000 (s.bootSlot stage 1 (s.fget SYS_SVNFLOOR_STAGE1) 0x400000).1 ∧
      (MayWrite s a SYS_BOOTSTAT v → match (s.bootSlot stage 1 (s.fget SYS_SVNFLOOR_STAGE1) 0x400000).1 with
        | none => Completes i s (stepFails · 5)
        | some (b, img) => Completes i s fun t =>
          t.on SYS_BOOTSTAT_SLOT = b ∧ t.fget SYS_BOOTSTAT_STEP = 6 ∧ t.fget SYS_BOOTSTAT_ERR = 0 ∧ t.mem = s.mem ∧
          (t.core (.ctl 0)).pc = BitVec.ofNat 48 (stage b + 0xD90 + leAt img 12 4) ∧
          (t.core (.ctl 0)).pcc = rootCap ∧ (t.core (.ctl 0)).slot = none)) ∧
    (second →
      let found := s.bootSlot firmware 2 (s.fget SYS_SVNFLOOR_FW) 0x4000000
      Chooses s firmware 2 (s.fget SYS_SVNFLOOR_FW) 0x4000000 found.1 ∧
      (MayWrite s a SYS_BOOTSTAT v → match found.1 with
        | none => Completes i s (stepFails · 10)
        | some (b, img) =>
          let load := leAt img 16 8
          let body := img.drop 0xD90
          ((∃ e, (found.2.writeBlock kindling load body).1 = .error e) → Completes i s (stepFails · 10)) ∧
          ((found.2.writeBlock kindling load body).1 = .ok () → Completes i s fun t =>
            t.on SYS_BOOTSTAT_FWSLOT = b ∧ t.fget SYS_BOOTSTAT_STEP = 11 ∧ t.fget SYS_BOOTSTAT_ERR = 0 ∧
            (Canonical s → ∀ x, memGet t.mem x =
              if load ≤ x ∧ x < load + body.length then body.getD (x - load) 0 else memGet s.mem x) ∧
            (t.core (.ctl 0)).pc = BitVec.ofNat 48 (load + leAt img 12 4) ∧
            (t.core (.ctl 0)).pcc = rootCap ∧ (t.core (.ctl 0)).slot = none)))) ∧
  (∀ (dt : Nat) (s : State),
    let u := s.elapse dt
    let runs := StepMay u
    let due := ¬StepDone u 2
    (¬(runs 2 ∧ due) → exec (.bootQuench dt) s = .next u) ∧
    (runs 2 → due → Completes (.bootQuench dt) s fun t => quenched t ∧ t.fget SYS_BOOTSTAT_STEP = 2 ∧ t.sys.bmk = u.sys.bmk) ∧
    (¬runs 4 → exec (.patchTableApply dt) s = .next u) ∧ (¬runs 8 → exec (.calibrationLoad dt) s = .next u) ∧
    (¬runs 7 → ∀ c m, exec (.engineSelfTestDone dt c m) s = .next u) ∧
    (¬runs 9 → ∀ g ok n k, exec (.memoryTrainingDone dt g ok n k) s = .next u) ∧
    (runs 4 →
      let read := ((u.stepOne).fset SYS_BOOTSTAT_STEP 4).pieceRead kindling 0x10040000 64
      let image := read.2.image 0x10040000 3 (read.2.fget SYS_SVNFLOOR_STAGE1) 4096
      let done := fun x : State => { x.sys with stepsDone := x.sys.stepsDone ||| 16#16 }
      (∀ e, read.1 = .error e → Completes (.patchTableApply dt) s (stepFails · 4)) ∧
      (∀ h, read.1 = .ok h → (∀ b ∈ h, b = 0xFF) → exec (.patchTableApply dt) s = .next { read.2 with sys := done read.2 }) ∧
      (∀ h, read.1 = .ok h → (∃ b ∈ h, b ≠ 0xFF) →
        (image.1 = none → Completes (.patchTableApply dt) s (stepFails · 4)) ∧
        (∀ b, image.1 = some b → Completes (.patchTableApply dt) s fun t =>
          t.sys.patches.length ≤ 32 ∧ t.fget SYS_BOOTSTAT_PATCHES = min 31 t.sys.patches.length ∧
          (∀ p ∈ t.sys.patches, p.1 % 64 = 0 ∧ 0x1000 ≤ p.1 ∧ p.1 < 0x10000 ∧ p.2.length = 64 ∧
            ∃ k < 32, 0xD90 + 72 * k + 72 ≤ b.length ∧ p.1 = leAt b (0xD90 + 72 * k) 8 ∧ p.2 = slice b (0xD90 + 72 * k + 8) 64) ∧
          t = { image.2 with regs := t.regs, sys := { done image.2 with patches := t.sys.patches } }))) ∧
    (∀ (c : BitVec 18) (m : BitVec 136), runs 7 →
      (c = 0 ∨ m = 0 → Completes (.engineSelfTestDone dt c m) s (stepFails · 7)) ∧
      (c ≠ 0 → m ≠ 0 → Completes (.engineSelfTestDone dt c m) s fun t =>
        t.fget SYS_BOOTSTAT_STEP = 7 ∧ t = { u with regs := t.regs, sys := { u.sys with stepsDone := u.sys.stepsDone ||| 128#16 } } ∧
        (∀ n < 18, let k := ((List.range n).filter c.getLsbD).length
          t.cphSet CPH_ACTIVE n = (c.getLsbD n && decide (k < 16)) ∧ t.cphSet CPH_SPARE n = (c.getLsbD n && decide (16 ≤ k)) ∧
          t.cphSet CPH_RETIRED n = !c.getLsbD n) ∧
        (∀ n < 136, let k := ((List.range n).filter m.getLsbD).length
          t.mauSet MAU_ACTIVE n = (m.getLsbD n && decide (k < 128)) ∧ t.mauSet MAU_SPARE n = (m.getLsbD n && decide (128 ≤ k)) ∧
          t.mauSet MAU_RETIRED n = !m.getLsbD n))) ∧
    (runs 8 →
      let check := (u.fset SYS_BOOTSTAT_STEP 8).factoryOk
      let w := { check.2 with obs := { check.2.obs with cells := u.otpCells } }
      let newer := w.overlay w.newerCopy
      let older := newer.2.overlay (1 - w.newerCopy)
      (check.1 = false → Completes (.calibrationLoad dt) s (stepFails · 8)) ∧
      (check.1 = true → Completes (.calibrationLoad dt) s fun t =>
        t.fget SYS_BOOTSTAT_STEP = 8 ∧ t.on CAL_STAT_FACT_OK = true ∧ t.sys.stepsDone.getLsbD 8 = true ∧
        t.sys.serial = Config.factorySerial u.otpCells ∧ t.rd SVC_DEVID = BitVec.ofNat 64 (t.sys.serial.toNat % 2 ^ 32) ∧
        (∀ p < 4, t.rd (SVC_MAC p) = (Config.factoryMac u.otpCells p).setWidth 64) ∧
        (∀ o, newer.1 = .ok o → t.obs.bank0 = o ∧ t.on CAL_STAT_OVL_ACTIVE = true ∧ t.fget CAL_STAT_OVL_COPY = w.newerCopy) ∧
        (∀ e o, newer.1 = .error e → older.1 = .ok o →
          t.obs.bank0 = o ∧ t.on CAL_STAT_OVL_ACTIVE = true ∧ t.fget CAL_STAT_OVL_COPY = 1 - w.newerCopy) ∧
        (∀ e f, newer.1 = .error e → older.1 = .error f → t.obs.bank0 = [] ∧ t.on CAL_EVT_OVL_SKIP = true ∧
          t.rd CAL_OVLSTAT = BitVec.ofNat 64 (e.1 * 2 ^ 28 + e.2)))) ∧
    (∀ (g : Byte) (ok : Bool) (n : Byte) (k : BitVec 6), runs 9 →
      let ddr := ok = true ∧ g.toNat ∈ [16, 32, 64, 96, 128]
      let nand := n.toNat ∈ [0x10, 0x20, 0x40] ∧ k.toNat = 32
      (¬(ddr ∧ nand) → Completes (.memoryTrainingDone dt g ok n k) s fun t => stepFails t 9 ∧
        (¬ddr → t.fget KST_MEMCFG_DIMM_GIB = 0) ∧ (¬nand → t.fget KST_SEALCFG_TGT_GIB = 0)) ∧
      (ddr → nand → Completes (.memoryTrainingDone dt g ok n k) s fun t =>
        t.fget SYS_BOOTSTAT_STEP = 9 ∧ t.fget KST_MEMCFG_DIMM_GIB = g.toNat ∧ t.fget KST_SEALCFG_TGT_GIB = n.toNat ∧
        t.fget KST_SEALCFG_NTGT = 32 ∧ t.rd KST_NIDX = BitVec.ofNat 64 (n.toNat * 2 ^ 28) ∧
        t.rd KST_HOTLINES = BitVec.ofNat 64 ((2 * g.toNat - min 16 (u.fget KST_MEMCFG_CORE_GIB)) * 2 ^ 23 % 2 ^ 32) ∧
        t.sys = { u.sys with ddrTrained := true, stepsDone := u.sys.stepsDone ||| 512#16 } ∧ t.mem = u.mem)))

/-- 13 R320, R322-R324, Table 13.7: SYS_LCADV starts an advance to the state that may follow, in the mode and with the
authority it asks for, with an authorisation for PROVISIONED and RETURNED and a running random source for MANUFACTURE
and PROVISIONED; the first failing condition gives ERR 1 to 4. The advance ends in the new state with its group
programmed, or fails with ERR 5 and stays; its group alone may then hold programmed bits. SYS_REPROV starts in QUENCH
with an authorisation, no tamper cause, and a BMK or the method that draws one; its completion clears the alarms and
resets the device into BOOT. A stopped core with no buffered store starts from its start block, and reports one that
does not let it; a core that is asked to stop stops at an instruction boundary outside a delay slot and a hold window,
its stores completed. -/
def Obligations.LifecycleAndCoresAct : Prop :=
  (∀ (a : Acc) (v : Word32) (s : State),
    let i := Instr.lifecycleAdvance a v
    let w := s.fset SYS_LCADV_TARGET v.toNat
    let fails := fun e => (w.fset SYS_LCADV_ERR e).raise SYS_EVT_LC_ERR
    let sys := permBit a.perms pSYS = true
    let cust := permBit a.perms pCUST = true
    (s.on SYS_LCADV_BUSY = true → Sets i a SYS_LCADV v s s) ∧
    (s.on SYS_LCADV_BUSY = false →
      (v.getLsbD 31 = false → Sets i a SYS_LCADV v s w) ∧
      (v.getLsbD 31 = true → 4 < v.toNat % 8 → Sets i a SYS_LCADV v s (fails 1)) ∧
      (∀ x : Lifecycle, v.getLsbD 31 = true → v.toNat % 8 = lifecycleCode x →
        let from_ := s.sys.lc
        let follows := (from_ = .blank ∧ x = .manufacture) ∨ (from_ = .manufacture ∧ x = .provisioned) ∨
          (from_ = .provisioned ∧ x = .field) ∨ ((from_ = .manufacture ∨ from_ = .provisioned ∨ from_ = .field) ∧ x = .returned)
        let may := (x = .manufacture ∧ s.sys.mode = .boot ∧ sys) ∨
          ((x = .provisioned ∨ x = .field) ∧ s.sys.mode = .custody ∧ cust) ∨ (x = .returned ∧ s.sys.mode = .quench ∧ cust)
        let auth := (x = .provisioned ∨ x = .returned) → s.on CRD_QSTAT_AUTH = true ∧ s.crd.purpose = 1
        let random := (x = .manufacture ∨ x = .provisioned) → s.on RNG_STAT_READY = true
        (¬follows → Sets i a SYS_LCADV v s (fails 1)) ∧ (follows → ¬may → Sets i a SYS_LCADV v s (fails 2)) ∧
        (follows → may → ¬auth → Sets i a SYS_LCADV v s (fails 3)) ∧
        (follows → may → auth → ¬random → Sets i a SYS_LCADV v s (fails 4)) ∧
        (follows → may → auth → random → MayWrite s a SYS_LCADV v → Completes i s fun t =>
          t.on SYS_LCADV_BUSY = true ∧ t.fget SYS_LCADV_ERR = 0 ∧ t.sys.advancing = some x ∧ t.sys.lc = from_ ∧
          (s.on CRD_QSTAT_AUTH = true → s.crd.purpose = 1 → t.on CRD_QSTAT_AUTH = false ∧ t.on CRD_QSTAT_OPEN = false) ∧
          (x = .manufacture ∨ x = .provisioned → t.sys.bmkWait = true) ∧ (x = .provisioned → t.on SVC_CTRL_MSEC_REQ = true) ∧
          t.mem = s.mem ∧ t.dsp = s.dsp ∧ t.cores = s.cores)))) ∧
  (∀ (dt : Nat) (ok : Bool) (s : State),
    let u := s.elapse dt
    let i := Instr.lifecycleAdvanceDone dt ok
    (u.powered = false ∨ u.sys.advancing = none ∨ u.sys.bmkWait = true → exec i s = .next u) ∧
    (∀ x, u.powered = true → u.sys.bmkWait = false → u.sys.advancing = some x →
      (ok = true → Completes i s fun t => t.sys = { u.sys with lc := x, advancing := none } ∧ t.on SYS_LCADV_BUSY = false ∧
        t.on SYS_EVT_LC_DONE = true ∧ (x = .provisioned → t.on SVC_CTRL_MSEC_REQ = true) ∧
        (x ≠ .manufacture → x ≠ .returned → t.on RNG_CTRL_RAW_EN = false) ∧
        (Canonical u → ∀ y, memGet t.mem y = if y = lcGroup x then 0 else memGet u.mem y) ∧
        t = { u with regs := t.regs, sys := t.sys, rng := t.rng, mem := t.mem, damaged := t.damaged }) ∧
      (ok = false → Completes i s fun t => t.sys.lc = u.sys.lc ∧ t.sys.advancing = none ∧ t.on SYS_LCADV_BUSY = false ∧
        t.fget SYS_LCADV_ERR = 5 ∧ t.on SYS_EVT_LC_ERR = true ∧ t.dsp = u.dsp ∧
        (Canonical u → ∀ y, y ≠ lcGroup x → memGet t.mem y = memGet u.mem y)))) ∧
  (∀ (a : Acc) (v : Word32) (s : State),
    let i := Instr.reprovision a v
    let w := s.fset SYS_REPROV_METHOD v.toNat
    let may := s.sys.mode = .quench ∧ s.on CRD_QSTAT_AUTH = true ∧ s.crd.purpose = 2 ∧ s.rd TMP_CAUSE = 0 ∧
      (v.getLsbD 0 = true ∨ s.on SYS_BOOTTAMP_BMK_VALID = true) ∧ s.on SYS_REPROV_BUSY = false
    (v.getLsbD 31 = false → Sets i a SYS_REPROV v s w) ∧
    (v.getLsbD 31 = true → ¬may → Sets i a SYS_REPROV v s (w.raise SYS_REPROV_ERR)) ∧
    (v.getLsbD 31 = true → may → MayWrite s a SYS_REPROV v → Completes i s fun t =>
      t.on SYS_REPROV_BUSY = true ∧ t.on SYS_REPROV_ERR = false ∧ t.on CRD_QSTAT_AUTH = false ∧ t.on CRD_QSTAT_OPEN = false ∧
      t.sys = { s.sys with reprovNew := v.getLsbD 0, bmkWait := s.sys.bmkWait || v.getLsbD 0 } ∧ t.mem = s.mem)) ∧
  (∀ (dt : Nat) (s : State), Canonical s →
    let u := s.elapse dt
    let ready := u.sys.mode = .quench ∧ u.on SYS_REPROV_BUSY = true ∧ u.sys.bmkWait = false
    (¬ready → exec (.reprovisionComplete dt) s = .next u) ∧
    (ready → Completes (.reprovisionComplete dt) s fun t => bootsWith u t 16 ∧ t.on SYS_BOOTTAMP_CELL_ALARM = false ∧
      t.on SYS_BOOTTAMP_SNUFF = false ∧ t.on TMP_STAT_BKUP_COLD = false ∧
      (u.on TMP_BIST_BUSY = false → t.rd TMP_STKY = 0 ∧ t.on TMP_FIRST_VALID = false) ∧
      t.sys.bmk = u.sys.bmk ∧ t.dsp = {} ∧ t.tags = [])) ∧
  (∀ (a : Acc) (n : Fin 16) (v : Word32) (s : State) (i : Instr), i = .coreStart a n v ∨ i = .coreStop a n v →
    let st := s.fget (SYS_CORE_CTRL_STATE n)
    let idle := st ≠ 1 ∧ s.starting n = false ∧ ¬(s.sys.mode = .boot ∧ s.fget SYS_BOOTSTAT_ERR ≠ 0)
    let from_ := (s.rd (SYS_CORE_SBLK n)).toNat
    (v.getLsbD 31 = false → v.getLsbD 30 = false → Sets i a (SYS_CORE_CTRL n) v s s) ∧
    (v.getLsbD 30 = true → st = 1 →
      Sets i a (SYS_CORE_CTRL n) v s { s with sys := { s.sys with stopReq := s.sys.stopReq ||| (1#16 <<< n.val) } }) ∧
    (v.getLsbD 31 = true → v.getLsbD 30 = false → ¬idle → Sets i a (SYS_CORE_CTRL n) v s s) ∧
    (v.getLsbD 31 = true → v.getLsbD 30 = false → idle → (s.core (.ctl n)).storeBuf = [] →
      (∀ t, s.busRead ⟨.ctl n, a.perms⟩ from_ 32 = (.error .wait, t) → Sets i a (SYS_CORE_CTRL n) v s
        { t with flc := { t.flc with waits := t.flc.waits ++ [.start n a.perms from_] } }) ∧
      (∀ e t, e ≠ .wait → s.busRead ⟨.ctl n, a.perms⟩ from_ 32 = (.error e, t) →
        Sets i a (SYS_CORE_CTRL n) v s (((t.endStalls (.ctl n)).raise (SYS_CORE_CTRL_ERR n)).raise SYS_EVT_CORE_ERR)) ∧
      (∀ bs x, s.busRead ⟨.ctl n, a.perms⟩ from_ 32 = (.ok bs, x) →
        let t := x.endStalls (.ctl n)
        let pcc := capOfBytes (t.tagged from_ && tagAt t.tags from_) (bs.take 16)
        let c1 := capOfBytes (t.tagged from_ && tagAt t.tags (from_ + 16)) (bs.drop 16)
        let fit := pcc.tag = true ∧ pcc.otype = 0 ∧ c1.tag = true ∧ c1.otype = 0 ∧ permBit pcc.perms pX = true
        (¬fit → Sets i a (SYS_CORE_CTRL n) v s ((t.raise (SYS_CORE_CTRL_ERR n)).raise SYS_EVT_CORE_ERR)) ∧
        (fit → Sets i a (SYS_CORE_CTRL n) v s (State.lower (State.fset
          { t with cores := sput {} t.cores n.val { c := [(1, c1)], pcc := pcc, pc := pcc.base }
                   sys := { t.sys with stopReq := t.sys.stopReq &&& ~~~(1#16 <<< n.val) } }
          (SYS_CORE_CTRL_STATE n) 1) (SYS_CORE_CTRL_ERR n)))))) ∧
  (∀ (dt : Nat) (n : Fin 16) (s : State),
    let u := s.elapse dt
    let c := u.core (.ctl n)
    let stops := (u.powered = true ∨ u.stopping n = true) ∧ u.fget (SYS_CORE_CTRL_STATE n) = 1 ∧
      u.sys.stopReq.getLsbD n.val = true ∧ c.slot = none ∧ c.holdcnt = 0 ∧ u.stalls (.ctl n) = false ∧ u.entering n = false
    (¬stops → exec (.coreStopped dt n) s = .next u) ∧
    (stops → (c.storeBuf = [] → u.starting n = false → exec (.coreStopped dt n) s = .next { u.fset (SYS_CORE_CTRL_STATE n) 2 with
        sys := { u.sys with stopReq := u.sys.stopReq &&& ~~~(1#16 <<< n.val) } }) ∧
      Completes (.coreStopped dt n) s fun t => t.fget (SYS_CORE_CTRL_STATE n) = 2 ∧ t.sys.stopReq.getLsbD n.val = false ∧
        (t.core (.ctl n)).storeBuf = []))

/-! ### Flash (14) -/

/-- The flash command has ended with ERR `e`: nothing runs any longer (14 R332). -/
def Sys2Proof.flashEnded (t : State) (e : Nat) : Prop :=
  t.on FLC_STAT_BUSY = false ∧ t.on FLC_STAT_SUSP = false ∧ t.fget FLC_STAT_OP = 0 ∧ t.fget FLC_CMD_ERR = e ∧
  t.flc.addr = 0 ∧ t.flc.count = 0 ∧ (if e = 0 then t.on FLC_EVT_DONE = true else t.on FLC_EVT_ERR = true)

/-- The next page of the running command is prepared: its source is read, and the page is checked to be blank; the error
is kept for the end of the page (14 R331, R333). -/
def Sys2Proof.prepared (x t : State) : Prop :=
  ∀ r, x.readBlock ⟨.flc, 0⟩ x.flc.src 256 = r →
    let y := r.2
    let blank := (∀ k < 256, memGet y.mem (y.flc.addr + k) = 0xFF) ∧ y.damagedAt .bus y.flc.addr 256 = false ∧
      sget false y.flc.otpUsed (y.flc.addr / 256) = false
    (∀ e, r.1 = .error e → t = { y with flc := { y.flc with page := [], pageErr := 7 } }) ∧
    (∀ bs, r.1 = .ok bs →
      (blank → t = { y with flc := { y.flc with page := bs, pageErr := 0 } }) ∧
      (¬blank → t = { y with flc := { y.flc with page := bs, pageErr := 3 } }))

/-- Command `i` has an effect `P`, and then all that waited for the flash array tries again (14 R335-R337). -/
def Sys2Proof.ThenRetries (i : Instr) (s : State) (P : State → Prop) : Prop := ∃ t, exec i s = .next t.retryAll ∧ P t

/-- Every access that the flash array stalled may reach it now. -/
def Sys2Proof.stallsFreed (u : State) : List Stall := u.flc.stalled.map fun x => { x with ready := true }

/-- 14 R330-R336, R341, R343, R344: a write of FLC_CMD with GO is rejected while a command runs or is suspended, ends at
once with ADDR or STATE where its operands, its partition, the mode or the lifecycle refuse it, and else starts; an
erase sets its block's flag and counts it. A program takes its pages one by one: the source is read and the page checked
to be blank as the page begins, and between two pages the reads that wait go through. A command ends with its effect:
the block all ones and its flag clear, the last page programmed, the granules copied, the OTP page programmed once; a
failure says so and leaves every other page alone. A read that waits in E2 or E3 suspends an erase after 200 us of
progress from E2, and the erase resumes 2 us after the last read or after HOLD_US. Whatever waited for the array tries
again at each of these events; how long the steps of an erase take is left open (log entry 58). -/
def Obligations.FlashCommandsAct : Prop :=
  (∀ (a : Acc) (v : Word32) (s : State) (i : Instr), i = .program a v ∨ i = .erase a v ∨ i = .copy a v ∨ i = .otpProgram a v →
    let op := v.toNat / 2 ^ 24 % 16
    let n := v.toNat % 2 ^ 24
    let w := (s.fset FLC_CMD_OP op).fset FLC_CMD_COUNT n
    let at_ := (s.rd FLC_ADDR).toNat
    let src := (s.rd FLC_SRC).toNat
    let flash := 0x10000000 ≤ at_ ∧ at_ < 0x20000000
    let b := (at_ - 0x10000000) / 0x10000
    let part := flcPart b
    let early := s.sys.lc = .blank ∨ s.sys.lc = .manufacture
    let quench := s.sys.mode = .quench
    let flagged := op = 2 ∧ StepMay s 3 ∧ sget false s.flc.flags b = true ∧ flash ∧ at_ % 0x10000 = 0
    let place :=
      if part.2.2 = .otp ∨ part.2.2 = .root then 1
      else if part.2.2 = .signed then (if quench then 2 else if s.sys.mode = .custody ∨ early then 0 else 2)
      else if quench ∧ ¬((9 ≤ b ∧ b ≤ 15) ∨ 3056 ≤ b) then 2 else 0
    let refused :=
      if op = 1 then
        if ¬flash ∨ at_ % 256 ≠ 0 ∨ src % 32 ≠ 0 ∨ n = 0 ∨ 256 < n then 1
        else if 0x10000000 + 0x10000 * (part.1 + part.2.1) < at_ + 256 * n then 1 else place
      else if op = 2 then if ¬flash ∨ at_ % 0x10000 ≠ 0 ∨ src ≠ 0 ∨ n ≠ 0 then 1 else place
      else if op = 3 then
        if ¬flash ∨ at_ % 32 ≠ 0 ∨ src % 32 ≠ 0 ∨ n = 0 ∨ 0x210000 < n ∨ 0x20000000 < at_ + 32 * n then 1
        else if quench then 2 else 0
      else if ¬flash ∨ at_ % 256 ≠ 0 ∨ src % 32 ≠ 0 ∨ n ≠ 1 ∨ 4 ≤ b ∨ at_ = 0x10000000 then 1
      else if quench ∨ ¬early then 2 else 0
    let idle := s.on FLC_STAT_BUSY = false ∧ s.on FLC_STAT_SUSP = false
    (v.getLsbD 31 = false ∨ (idle ∧ (op = 0 ∨ 4 < op)) → Sets i a FLC_CMD v s w) ∧
    (v.getLsbD 31 = true → ¬idle → Sets i a FLC_CMD v s (w.raise FLC_EVT_CMD_REJ)) ∧
    (v.getLsbD 31 = true → idle → 1 ≤ op → op ≤ 4 →
      (¬flagged → refused ≠ 0 → Sets i a FLC_CMD v s ((w.fset FLC_CMD_ERR refused).raise FLC_EVT_ERR)) ∧
      (op ≠ 2 → refused = 0 →
        let x := { ((w.raise FLC_STAT_BUSY).fset FLC_STAT_OP op).fset FLC_STAT_LEFT (if op = 1 then n else 0) with flc := { s.flc with
          addr := at_, src := src, count := n, fixing := false, calReady := false } }
        (op = 3 → Sets i a FLC_CMD v s x) ∧ (op ≠ 3 → MayWrite s a FLC_CMD v → Completes i s (prepared x))) ∧
      (op = 2 → flagged ∨ refused = 0 → MayWrite s a FLC_CMD v → Completes i s fun t =>
        let old := sget 0 s.flc.counts b
        t.on FLC_STAT_BUSY = true ∧ t.fget FLC_STAT_OP = 2 ∧ t.fget FLC_STAT_STEP = 1 ∧ t.flc.addr = at_ ∧
        sget false t.flc.flags b = true ∧ sget 0 t.flc.counts b = min 0xFFFFF (old + 1) ∧ t.flc.resumedAt = t.flc.e2At ∧
        s.tb ≤ t.flc.e2At ∧ t.flc.e2At ≤ s.tb + 25000 ∧ t.flc.progress = 0 ∧ t.flc.e3From ≤ t.flc.e4From ∧
        t.flc.e4From ≤ 1000000000 ∧ t.flc.stalled = s.flc.stalled ∧ t.flc.waits = s.flc.waits ∧
        (flagged → t.flc.fixing = true) ∧ (¬flagged → t.flc.fixing = false) ∧
        (min 0xFFFFF (old + 1) = s.fget FLC_WEAR_THRESH → old < 0xFFFFF → t.on FLC_EVT_WEAR = true ∧ t.fget FLC_WEAR_BLOCK = b % 4096) ∧
        t = { s with regs := t.regs, flc := t.flc, freeCtr := t.freeCtr }))) ∧
  (∀ (dt : Nat) (ok : Bool) (s : State),
    let u := s.elapse dt
    let c := u.flc
    let i := Instr.flashCmdDone dt ok
    let runs := u.powered = true ∧ u.on FLC_STAT_BUSY = true ∧ u.on FLC_STAT_SUSP = false
    let op := u.fget FLC_STAT_OP
    let keeps := fun (t : State) (lo n : Nat) => ∀ x, x < lo ∨ lo + n ≤ x → memGet t.mem x = memGet u.mem x
    (∀ t : State, t.flc.waits = [] → t.retryAll = t) ∧ (¬runs → exec i s = .next u.retryAll) ∧
    (runs → op = 2 →
      (ok = true → 0x10000000 ≤ c.addr → c.addr + 0x10000 ≤ 0x20000000 → ThenRetries i s fun t => flashEnded t 0 ∧
        (∀ x, c.addr ≤ x → x < c.addr + 0x10000 → memGet t.mem x = 0xFF) ∧ keeps t c.addr 0x10000 ∧
        sget false t.flc.flags ((c.addr - 0x10000000) / 0x10000) = false ∧ t.flc.counts = c.counts ∧
        (c.fixing = true → t.on FLC_EVT_FLAGFIX = true) ∧
        t = { u with regs := t.regs, mem := t.mem, damaged := t.damaged, flc := t.flc }) ∧
      (ok = false → c.fixing = false → ThenRetries i s fun t => flashEnded t 5 ∧ keeps t c.addr 0x10000 ∧
        t.flc.flags = c.flags ∧ t.on (stkyFld 79) = true) ∧
      (ok = false → c.fixing = true → ThenRetries i s fun t => flashEnded t 5 ∧ stepFails t 3)) ∧
    (∀ e, e = 3 ∨ e = 7 → runs → op = 1 ∨ op = 4 → c.pageErr = e → ThenRetries i s fun t => flashEnded t e ∧ t.mem = u.mem ∧
      t.fget FLC_STAT_LEFT = u.fget FLC_STAT_LEFT) ∧
    (runs → op = 1 ∨ op = 4 → c.pageErr = 0 → ok = false → ThenRetries i s fun t => flashEnded t 4 ∧ keeps t c.addr 256 ∧
      t.on (stkyFld 79) = true ∧ t.fget FLC_STAT_LEFT = u.fget FLC_STAT_LEFT ∧
      (op = 4 → sget false t.flc.otpUsed (c.addr / 256) = true)) ∧
    (runs → op = 1 ∨ op = 4 → c.pageErr = 0 → ok = true → op = 4 ∨ c.count ≤ 1 → ThenRetries i s fun t => flashEnded t 0 ∧
      (∀ k < c.page.length, memGet t.mem (c.addr + k) = c.page.getD k 0) ∧ keeps t c.addr c.page.length ∧
      (op = 4 → sget false t.flc.otpUsed (c.addr / 256) = true)) ∧
    (runs → op = 1 → c.pageErr = 0 → ok = true → 1 < c.count → ThenRetries i s
      (prepared (State.fset { u with
        mem := memWrite u.mem c.addr c.page
        damaged := healed u.damaged .bus c.addr c.page.length
        flc := { c with
          addr := c.addr + 256, src := c.src + 256, count := c.count - 1, stalled := stallsFreed u, calReady := true } }
        FLC_STAT_LEFT (c.count - 1)))) ∧
    (runs → op = 3 → ok = true → ∀ x, u.copyGranules c.addr c.src c.count = x →
      (x.2 = 0 ∨ x.2 = 6 ∨ x.2 = 7) ∧ ThenRetries i s fun t => flashEnded t x.2 ∧ t.mem = x.1.mem) ∧
    (runs → op = 3 → c.count = 1 → 0x10000000 ≤ c.addr → c.addr < 0x20000000 →
      (ok = false ∨ u.damagedAt .bus c.addr 32 = true → ThenRetries i s fun t => flashEnded t 6 ∧ t.on FLC_EVT_DED = true ∧ t.mem = u.mem) ∧
      (ok = true → u.damagedAt .bus c.addr 32 = false → ∀ x, u.writeBlock ⟨.flc, 0⟩ c.src (memRead u.mem c.addr 32) = x →
        (∀ e, x.1 = .error e → ThenRetries i s fun t => flashEnded t 7 ∧ t.mem = x.2.mem) ∧
        (x.1 = .ok () → ThenRetries i s fun t => flashEnded t 0 ∧ t.mem = x.2.mem)))) ∧
  (∀ (dt : Nat) (s : State),
    let u := s.elapse dt
    let far := u.flc.progress + (u.tb - u.flc.resumedAt)
    let waiting := (∃ x ∈ u.flc.stalled, x.ready = false ∧ x.served = false ∧ x.inE1 = false) ∨
      (u.on CAL_STAT_BUSY = true ∧ u.flc.calReady = false)
    let suspends := u.powered = true ∧ u.on FLC_STAT_BUSY = true ∧ u.on FLC_STAT_SUSP = false ∧ u.fget FLC_STAT_OP = 2 ∧
      (u.flc.e2At ≤ u.tb ∨ u.sys.refclkEth = false) ∧ (far < u.flc.e3From ∨ far < u.flc.e4From) ∧ waiting ∧
      (u.flc.resumedAt + 200000 ≤ u.tb ∨ u.sys.refclkEth = false)
    let resumes := u.powered = true ∧ u.on FLC_STAT_SUSP = true ∧ (u.flc.lastRead + 2000 ≤ u.tb ∨
      u.flc.suspendedAt + 1000 * u.fget FLC_ERSCFG_HOLD_US ≤ u.tb ∨ u.sys.refclkEth = false)
    (suspends → exec (.eraseSuspend dt) s = .next (State.retryAll
      { ((u.raise FLC_STAT_SUSP).raise FLC_EVT_ASUSP).count 0x05D 1 with flc := { u.flc with
        stalled := stallsFreed u, calReady := true, progress := far, suspendedAt := u.tb, lastRead := u.tb } })) ∧
    (¬suspends → exec (.eraseSuspend dt) s = .next u.retryAll) ∧
    (resumes → exec (.eraseResume dt) s = .next (State.retryAll
      { u.lower FLC_STAT_SUSP with flc := { u.flc with resumedAt := u.tb, calReady := false } })) ∧
    (¬resumes → exec (.eraseResume dt) s = .next u.retryAll))

/-! ### Tamper monitors and Wick (15) -/

/-- Source `n` is live in the present mode (15 Table 15.1): the rails while their monitors are armed. -/
def Sys2Proof.liveSource (u : State) (n : Nat) : Prop :=
  n ≠ 7 ∧ if n ≤ 5 ∨ (8 ≤ n ∧ n ≤ 13) then u.sys.armed = true else u.sys.mode ≠ .cell ∨ n = 15 ∨ 23 ≤ n

/-- Source `n` is under test (15 R358). -/
def Sys2Proof.tested (u : State) (n : Nat) : Prop := u.on TMP_BIST_BUSY = true ∧ u.fget TMP_BIST_SRC = n

/-- The cause of source `n` reads `b` in TMP_CAUSE and FLT_CAUSE. -/
def Sys2Proof.causeNow (u : State) (n : Nat) (b : Bool) : State := (u.put (bitFld TMP_CAUSE n) b).put (causeFld n) b

/-- The sampler of the pin of source `n` stands at a full run of active samples, or at one that is not active (15 R353). -/
def Sys2Proof.sampled (u : State) (n : Nat) (active : Bool) : State :=
  let bit : BitVec 4 := 1#4 <<< (n - 24)
  if n < 24 then u
  else { u with sys := { u.sys with
    pins := if u.on (TMP_SRCCFG_POL n) = active then u.sys.pins ||| bit else u.sys.pins &&& ~~~bit
    pinRun := sput 0 u.sys.pinRun n (if active = true then max 1 (u.fget (TMP_SRCCFG_DEB n)) else 0) } }

/-- The instant to which an alarm belongs: the X32K period in CELL, else the Wick frame of 1 us (15 R356). -/
def Sys2Proof.instantOf (u : State) : Nat × Nat :=
  if u.sys.mode = .cell then (0, (u.rd TMP_TSC).toNat) else (1, u.clock / 1000)

/-- The sticky bit of source `n` rises; Wick's next frame shows a rise (15 R355, R360). -/
def Sys2Proof.stuck (u : State) (n : Nat) : State :=
  if u.on (bitFld TMP_STKY n) = true then u
  else { u.raise (bitFld TMP_STKY n) with wck := { u.wck with rises := u.wck.rises ||| (1#32 <<< n) } }

/-- The BMK is gone, and with it the sealed store and its roots (15 R348). -/
def Sys2Proof.bmkGone (u : State) : State :=
  { u.lower SYS_BOOTTAMP_BMK_VALID with
    sys := { u.sys with bmk := 0 }, kst := { u.kst with sealedRecs := [], tail := [], roots := [] } }

/-- 15 R347, R348, R353-R358: a live source whose cause rises shows it, and where it is enabled it alarms: its sticky
bit and the first record are set, and in a powered mode TMP_EVT.ALARM and its fault source follow, in CELL the cell
alarm, with ERASE the loss of the BMK. Sources that alarm in one instant, in one command or in several, are
simultaneous: FIRST names the lowest of them, and MULTI is set. A source under test shows nothing. The sticky bits clear
in CUSTODY with CUST where their cause is gone; a source's configuration changes in CUSTODY with CUST, from PROVISIONED
on only tighter, and a pin is judged by its new polarity; a test starts in BOOT and CUSTODY with SYS, and at its end the
real input counts again. A cold start of the backup domain clears its registers, the BMK and the roster. -/
def Obligations.TamperMonitorsAct : Prop :=
  (∀ (dt : Nat) (n : Fin 28) (s : State),
    let u := s.elapse dt
    let i := Instr.tamperAlarm dt [n]
    let shown := u.on (bitFld TMP_CAUSE n) = true
    let c := causeNow (sampled u n true) n true
    let old := u.fget TMP_FIRST_SRC
    let f :=
      if u.on TMP_FIRST_VALID = false then State.wr (State.wr { c with sys := { c.sys with firstAt := some (instantOf u) } }
        TMP_FIRST (BitVec.ofNat 64 (2 ^ 31 + modeCode u.sys.mode * 2 ^ 27 + n.val))) TMP_FIRST_TS (u.rd TMP_TSC)
      else if u.sys.firstAt = some (instantOf u) ∧ n.val ≠ old then (c.fset TMP_FIRST_SRC (min old n)).raise TMP_FIRST_MULTI
      else c
    let k := stuck f n
    (tested u n → exec i s = .next { u with sys := { u.sys with testInput := true } }) ∧
    (¬tested u n → ¬liveSource u n ∨ shown → exec i s = .next u) ∧
    (¬tested u n → liveSource u n → ¬shown →
      (u.on (TMP_SRCCFG_EN n) = false → exec i s = .next c) ∧
      (u.on (TMP_SRCCFG_EN n) = true →
        (u.powered = true → exec i s = .next ((k.raise TMP_EVT_ALARM).fault n 0 false)) ∧
        (u.sys.mode = .standby → exec i s = .next k) ∧
        (u.sys.mode = .cell → exec i s = .next
          (if u.on (TMP_SRCCFG_ERASE n) = true then bmkGone (k.raise SYS_BOOTTAMP_CELL_ALARM) else k.raise SYS_BOOTTAMP_CELL_ALARM)))) ∧
    (¬liveSource u n → exec (.tamperCauseFall dt n) s = .next u) ∧
    (liveSource u n → tested u n → exec (.tamperCauseFall dt n) s = .next
      { sampled u n false with sys := { (sampled u n false).sys with testInput := false } }) ∧
    (liveSource u n → ¬tested u n → exec (.tamperCauseFall dt n) s = .next (causeNow (sampled u n false) n false))) ∧
  (∀ (dt : Nat) (ns : List (Fin 28)) (s : State),
    let u := s.elapse dt
    let rises := fun n : Fin 28 => n ∈ ns ∧ liveSource u n ∧ ¬tested u n
    let hits := fun n : Fin 28 => rises n ∧ u.on (bitFld TMP_CAUSE n) = false ∧ u.on (TMP_SRCCFG_EN n) = true
    let least := fun n : Fin 28 => hits n ∧ ∀ m, hits m → n ≤ m
    exec (.tamperAlarm dt ns) s = .next (u.causesRise (ns.map Fin.val)) ∧ Completes (.tamperAlarm dt ns) s fun t =>
      (∀ n : Fin 28, (t.on (bitFld TMP_CAUSE n) = true ↔ u.on (bitFld TMP_CAUSE n) = true ∨ rises n) ∧
        (t.on (bitFld TMP_STKY n) = true ↔ u.on (bitFld TMP_STKY n) = true ∨ hits n)) ∧
      (u.on TMP_FIRST_VALID = false → (t.on TMP_FIRST_VALID = true ↔ ∃ n, hits n) ∧ ∀ n, least n →
        t.fget TMP_FIRST_SRC = n.val ∧ (t.on TMP_FIRST_MULTI = true ↔ ∃ m, hits m ∧ m ≠ n) ∧
        t.fget TMP_FIRST_MODE = modeCode u.sys.mode ∧ t.rd TMP_FIRST_TS = u.rd TMP_TSC ∧ t.sys.firstAt = some (instantOf u)) ∧
      (u.on TMP_FIRST_VALID = true → t.rd TMP_FIRST_TS = u.rd TMP_FIRST_TS ∧
        (∀ n, least n → u.sys.firstAt = some (instantOf u) → (∃ m : Fin 28, hits m ∧ m.val ≠ u.fget TMP_FIRST_SRC) →
          t.fget TMP_FIRST_SRC = min (u.fget TMP_FIRST_SRC) n ∧ t.on TMP_FIRST_MULTI = true) ∧
        (u.sys.firstAt ≠ some (instantOf u) ∨ (∀ m : Fin 28, hits m → m.val = u.fget TMP_FIRST_SRC) →
          t.rd TMP_FIRST = u.rd TMP_FIRST)) ∧
      t.mem = u.mem) ∧
  (∀ (a : Acc) (v : Word32) (s : State), MayWrite s a TMP_STKY_CLR v → Completes (.tmpStkyClear a v) s fun t =>
    let may := s.sys.mode = .custody ∧ permBit a.perms pCUST = true
    let asked := fun n => v.getLsbD n = true ∧ s.on (bitFld TMP_STKY n) = true
    let free := fun n => may ∧ s.on (bitFld TMP_CAUSE n) = false
    (∀ n < 32, t.on (bitFld TMP_STKY n) = true ↔ s.on (bitFld TMP_STKY n) = true ∧ ¬(asked n ∧ free n)) ∧
    (t.on TMP_EVT_CLR_REJ = true ↔ s.on TMP_EVT_CLR_REJ = true ∨ ∃ n < 32, asked n ∧ ¬free n) ∧
    (t.rd TMP_STKY = 0 → t.on TMP_FIRST_VALID = false ∧ t.on TMP_FIRST_MULTI = false) ∧
    (t.rd TMP_STKY ≠ 0 → t.rd TMP_FIRST = s.rd TMP_FIRST) ∧
    t = { s with regs := t.regs } ∧ ∀ r, r ≠ TMP_STKY → r ≠ TMP_FIRST → r ≠ TMP_EVT → t.rd r = s.rd r) ∧
  (∀ (a : Acc) (n : Fin 28) (v : Word32) (s : State),
    let new := if n.val < 24 then v.toNat % 4 else (v &&& 0xFB).toNat
    let locked := s.sys.lc = .provisioned ∨ s.sys.lc = .field
    let loosens := (s.on (TMP_SRCCFG_EN n) = true ∧ new % 2 = 0) ∨ (s.on (TMP_SRCCFG_ERASE n) = true ∧ new / 2 % 2 = 0) ∨
      (24 ≤ n.val ∧ (max 1 (s.fget (TMP_SRCCFG_DEB n)) < max 1 (new / 16) ∨ s.fget (TMP_SRCCFG_POL n) ≠ new / 8 % 2))
    let may := s.sys.mode = .custody ∧ permBit a.perms pCUST = true ∧ ¬(locked ∧ loosens)
    let w := s.wr (TMP_SRCCFG n) (BitVec.ofNat 64 new)
    let active := s.sys.pins.getLsbD (n.val - 24) = decide (new / 8 % 2 = 1)
    let i := Instr.tmpSrccfgWrite a n v
    (¬may → Sets i a (TMP_SRCCFG n) v s (s.raise TMP_EVT_CFG_REJ)) ∧ (may → n.val < 24 → Sets i a (TMP_SRCCFG n) v s w) ∧
    (may → 24 ≤ n.val →
      (active → Sets i a (TMP_SRCCFG n) v s (w.causesRise [n])) ∧
      (¬active → s.on (bitFld TMP_CAUSE n) = false → Sets i a (TMP_SRCCFG n) v s w) ∧
      (¬active → s.on (bitFld TMP_CAUSE n) = true → tested s n →
        Sets i a (TMP_SRCCFG n) v s { sampled w n false with sys := { (sampled w n false).sys with testInput := false } }) ∧
      (¬active → s.on (bitFld TMP_CAUSE n) = true → ¬tested s n → Sets i a (TMP_SRCCFG n) v s (causeNow (sampled w n false) n false)))) ∧
  (∀ (a : Acc) (v : Word32) (s : State),
    let n := v.toNat % 32
    let may := permBit a.perms pSYS = true ∧ (s.sys.mode = .boot ∨ s.sys.mode = .custody) ∧ s.on TMP_BIST_BUSY = false ∧ n < 28 ∧ n ≠ 7
    (v.getLsbD 31 = false → Sets (.tamperBist a v) a TMP_BIST v s
      (if s.on TMP_BIST_BUSY = true then s else s.fset TMP_BIST_SRC v.toNat)) ∧
    (v.getLsbD 31 = true → ¬may → Sets (.tamperBist a v) a TMP_BIST v s (s.raise TMP_EVT_CFG_REJ)) ∧
    (v.getLsbD 31 = true → may → Sets (.tamperBist a v) a TMP_BIST v s
      { causeNow (s.wr TMP_BIST (BitVec.ofNat 64 (2 ^ 30 + n))) n false with
        sys := { s.sys with testInput := s.on (bitFld TMP_CAUSE n) } })) ∧
  (∀ (dt : Nat) (pass : Bool) (s : State),
    let u := s.elapse dt
    let n := u.fget TMP_BIST_SRC
    let i := Instr.tamperBistDone dt pass
    let w := (((u.put TMP_BIST_PASS pass).put TMP_BIST_FAIL !pass).raise TMP_EVT_BIST_DONE).lower TMP_BIST_BUSY
    (u.on TMP_BIST_BUSY = false → exec i s = .next u) ∧
    (u.on TMP_BIST_BUSY = true →
      (u.sys.testInput = false → exec i s = .next w) ∧
      (u.sys.testInput = true → Completes i s fun t => t = { w with sys := { w.sys with testInput := false } }.causesRise [n] ∧
        t.sys.testInput = false ∧ t.on TMP_BIST_BUSY = false ∧
        t.on TMP_BIST_PASS = pass ∧ t.on TMP_EVT_BIST_DONE = true ∧
        (n < 28 → liveSource u n → u.on (bitFld TMP_CAUSE n) = false → t.on (bitFld TMP_CAUSE n) = true ∧
          (u.on (TMP_SRCCFG_EN n) = true → t.on (bitFld TMP_STKY n) = true))))) ∧
  (∀ (dt : Nat) (s : State),
    let u := s.elapse dt
    (u.sys.mode ≠ .cell → exec (.backupColdStart dt) s = .next u) ∧
    (u.sys.mode = .cell → Completes (.backupColdStart dt) s fun t => t.on TMP_STAT_BKUP_COLD = true ∧
      (∀ r ∈ [TMP_TSC, TMP_STKY, TMP_CAUSE, TMP_FIRST, FLT_CAUSE 0, SYS_BOOTTAMP, SYS_WAKECFG, SYS_SVNFLOOR], t.rd r = 0) ∧
      t.tscRem = 0 ∧ t.sys.pinRun = [] ∧ t.sys.firstAt = none ∧
      t.sys.bmk = 0 ∧ t.kst.sealedRecs = [] ∧ t.kst.tail = [] ∧ t.kst.roots = [] ∧ t.crd.roster = [] ∧ t.crd.rosterM = 0 ∧ t.mem = u.mem))

/-- A write by Wick's core, which asks no permission, leads to `t`. -/
def Sys2Proof.WickSets (i : Instr) (a : Acc) (s t : State) : Prop := a.master = .wick → s.aon = true → exec i s = .next t

/-- The condition of rule `n` holds in the frame that brings `f`, with `silence` since the last lease frame (15 Table
15.5). -/
def Sys2Proof.ruleSees (u : State) (f : SensorFrame) (silence n : Nat) : Prop :=
  let i := u.fget (WCK_RULE_A_INPUT n)
  let t := u.fget (WCK_RULE_A_THRESH n)
  let compares := fun v t : Int =>
    (u.fget (WCK_RULE_A_CMP n) = 0 ∧ t ≤ v) ∨ (u.fget (WCK_RULE_A_CMP n) = 1 ∧ v ≤ t)
  (i = 0 ∧ u.wck.rises.getLsbD (u.fget (WCK_RULE_A_BIT n)) = true) ∨
  (i = 1 ∧ ∃ k < 28, u.wck.rises.getLsbD k = true ∧ u.on (TMP_SRCCFG_ERASE k) = true) ∨ (i = 2 ∧ u.wck.rises ≠ 0) ∨
  (i = 3 ∧ compares f.hot.toInt (BitVec.ofNat 16 t).toInt) ∨ (i = 4 ∧ compares f.cold.toInt (BitVec.ofNat 16 t).toInt) ∨
  (i = 5 ∧ compares f.vbat.toNat t) ∨ (i = 6 ∧ compares f.vaon.toNat t) ∨ (i = 7 ∧ t % 16 ∈ u.wck.leases) ∨
  (i = 8 ∧ compares silence t)

/-- 15 R360-R365, R367: an action of Wick's core or of a rule is recorded; in STANDBY it wakes or snuffs, in the other
modes ALARM and SNUFF signal their sources; no other master acts through WCK_ACT. WCK_CTRL starts, halts and locks by a
control core alone; the load window writes and reads Wick's memory while it does not run; only Wick's core kicks the
watchdog, which stops it when its period has passed; a word of that memory with a double-bit error gives no data and is
whole again once it is written. A sample frame sets the frame registers, takes the sticky rises and the lease frames
since the last one, and runs every rule: one that is disabled rests; one whose condition fails is armed; one whose
condition holds counts the frame, and fires when it is armed and has N such frames within W_US; its actions are taken,
and nothing else is. -/
def Obligations.WickActs : Prop :=
  (∀ (a : Acc) (v : Word32) (s : State) (i : Instr),
    i = .wckActWake a v ∨ i = .wckActPromote a v ∨ i = .wckActAlarm a v ∨ i = .wckActSnuff a v →
    let wake := v.getLsbD 0
    let promote := v.getLsbD 1
    let alarm := v.getLsbD 2
    let snuff := v.getLsbD 3
    let none_ := wake = false ∧ promote = false ∧ alarm = false ∧ snuff = false
    let w := s.raise WCK_EVT_ACTION
    let x := if alarm = true then w.signal 49 0 else w
    Sets i a WCK_ACT v s s ∧ (none_ → WickSets i a s s) ∧
    (¬none_ → s.sys.mode ≠ .standby → WickSets i a s (if snuff = true then x.signal 50 0 else x)) ∧
    (¬none_ → s.sys.mode = .standby → a.master = .wick → Completes i s fun t =>
      t.on WCK_EVT_ACTION = true ∧ t.on WCK_ALM_VALID = true ∧
      (s.on WCK_ALM_VALID = false → t.on WCK_ALM_CORE = true ∧ t.fget WCK_ALM_RULE = 0) ∧
      t.on WCK_ALM_WAKE = (s.on WCK_ALM_WAKE || wake) ∧ t.on WCK_ALM_PROMOTE = (s.on WCK_ALM_PROMOTE || promote) ∧
      t.on WCK_ALM_ALARM = (s.on WCK_ALM_ALARM || alarm) ∧ t.on WCK_ALM_SNUFF = (s.on WCK_ALM_SNUFF || snuff) ∧
      t.sys.mainEn = (s.sys.mainEn || wake || promote || snuff) ∧
      (snuff = true → t.on SYS_BOOTTAMP_SNUFF = true ∧ t.sys.bmk = 0 ∧ t.kst.sealedRecs = []) ∧
      (snuff = false → t.sys.bmk = s.sys.bmk ∧ t.kst = s.kst) ∧ t.mem = s.mem ∧ t.flt = s.flt)) ∧
  (∀ (a : Acc) (v : Word32) (s : State) (i : Instr), i = .wickRun a v ∨ i = .wickHalt a v →
    let w := if v.getLsbD 2 = true then s.raise WCK_CTRL_RLOCK else s
    let starts := v.getLsbD 0 = true ∧ s.fget WCK_STAT_STATE ≠ 1
    let run := State.fset { w with cores := sput {} w.cores 16 {
      c := [(1, { tag := true, perms := 0x1B, base := 0, top := 0x10000 }), (2, { tag := true, perms := 3, base := 0x40B00000, top := 0x40D00000 })]
      pcc := { tag := true, perms := 0x2085, base := 0, top := 0x10000 } } } WCK_STAT_STATE 1
    WickSets i a s s ∧
    (¬starts → Sets i a WCK_CTRL v s (if v.getLsbD 1 = true then w.fset WCK_STAT_STATE 0 else w)) ∧
    (starts → v.getLsbD 1 = false → Sets i a WCK_CTRL v s { run with wck := { s.wck with kicked := s.clock } })) ∧
  (∀ (a : Acc) (v : Word32) (s : State),
    let at_ := 4 * s.fget WCK_LDADDR_WORD
    let next := fun x : State => x.fset WCK_LDADDR_WORD (s.fget WCK_LDADDR_WORD + 1)
    WickSets (.wickLoadWrite a v) a s s ∧
    Sets (.wickLoadWrite a v) a WCK_LDDATA v s
      (if s.fget WCK_STAT_STATE = 1 then s.raise WCK_EVT_LOAD_REJ
       else next { s with
         wck := { s.wck with mem := prvWrite s.wck.mem at_ (leBytes 4 v.toNat), tags := tagPut s.wck.tags at_ false }
         damaged := healed s.damaged .wick at_ 4 }) ∧
    (MayRead s a WCK_LDDATA → s.damagedAt .wick at_ 4 = false → exec (.wickLoadRead a) s =
      .next { next s with lastRead := some (false, BitVec.ofNat 64 (leNat (prvRead s.wck.mem at_ 4))) }) ∧
    (MayRead s a WCK_LDDATA → s.damagedAt .wick at_ 4 = true → exec (.wickLoadRead a) s =
      .next { (next s).signal 60 0 with lastRead := some (true, 0) }) ∧
    WickSets (.watchdogKick a v) a s (if v.getLsbD 31 = true then { s with wck := { s.wck with kicked := s.clock } } else s) ∧
    Sets (.watchdogKick a v) a WCK_WDOG v s
      (if s.on WCK_CTRL_RLOCK = true then s
       else { s.fset WCK_WDOG_PERIOD_US v.toNat with wck := { s.wck with kicked := s.clock } })) ∧
  (∀ s : State, Happens .wickWatchdogExpiry s
    (fun u => u.sys.mode ≠ .cell ∧ u.fget WCK_STAT_STATE = 1 ∧ u.fget WCK_WDOG_PERIOD_US ≠ 0 ∧
      u.wck.kicked + 1000 * u.fget WCK_WDOG_PERIOD_US ≤ u.clock)
    (fun u =>
      let w := (u.fset WCK_STAT_STATE 3).raise WCK_EVT_WDOG
      if u.sys.mode = .standby then w else w.signal 48 0)) ∧
  (∀ (dt : Nat) (f : SensorFrame) (s : State),
    let u := s.elapse dt
    let silence := if u.wck.leases = [] then min (u.fget ⟨WCK_FRAME 3, 0, 20⟩ + 1) 0xFFFFF else 0
    let old := fun n => sget {} u.wck.rules n
    let runs := fun n => n < 32 ∧ u.on (WCK_RULE_A_EN n) = true
    let now := u.wck.frameNo + 1
    let within := fun n (l : List Nat) => l.filter fun k => decide (now < k + u.fget (WCK_RULE_B_W_US n))
    let need := fun n => u.fget (WCK_RULE_B_N n)
    let fires := fun n => runs n ∧ ruleSees u f silence n ∧ (old n).armed = true ∧ need n ≠ 0 ∧
      need n ≤ (within n (now :: (old n).hits)).length
    (u.sys.mode = .cell → exec (.wickFrame dt f) s = .next u) ∧
    (u.sys.mode ≠ .cell → Completes (.wickFrame dt f) s fun t =>
      t.wck.frameNo = u.wck.frameNo + 1 ∧ t.wck.leases = [] ∧ t.wck.rises = 0 ∧ t.on WCK_WIRQ_FRAME = true ∧
      t.rd (WCK_FRAME 0) = ((u.rd TMP_CAUSE).setWidth 32).setWidth 64 ∧
      t.rd (WCK_FRAME 1) = BitVec.ofNat 64 (f.hot.toNat * 2 ^ 16 + f.cold.toNat) ∧
      t.rd (WCK_FRAME 2) = BitVec.ofNat 64 (f.vaon.toNat * 2 ^ 16 + f.vbat.toNat) ∧
      t.fget ⟨WCK_FRAME 3, 0, 20⟩ = silence ∧
      (∀ n < 32,
        (¬runs n → sget {} t.wck.rules n = {}) ∧ (fires n → sget {} t.wck.rules n = { hits := [], armed := false }) ∧
        (runs n → ruleSees u f silence n → ¬fires n →
          sget {} t.wck.rules n = { old n with hits := within n (now :: (old n).hits) }) ∧
        (runs n → ¬ruleSees u f silence n → sget {} t.wck.rules n = { hits := within n (old n).hits, armed := true }) ∧
        (t.on (bitFld WCK_WRULE n) = true ↔ u.on (bitFld WCK_WRULE n) = true ∨ (fires n ∧ u.on (WCK_RULE_B_IRQ n) = true))) ∧
      (∀ acts : List (Nat → Fld), acts = [WCK_RULE_B_WAKE, WCK_RULE_B_PROMOTE, WCK_RULE_B_ALARM, WCK_RULE_B_SNUFF] →
        (t.on WCK_EVT_ACTION = true ↔ u.on WCK_EVT_ACTION = true ∨ ∃ n, fires n ∧ ∃ b ∈ acts, u.on (b n) = true) ∧
        (u.sys.mode = .standby →
          (t.sys.mainEn = true ↔ u.sys.mainEn = true ∨ ∃ n, fires n ∧ (u.on (WCK_RULE_B_WAKE n) = true ∨
            u.on (WCK_RULE_B_PROMOTE n) = true ∨ u.on (WCK_RULE_B_SNUFF n) = true)) ∧
          (∀ p ∈ [(WCK_ALM_WAKE, WCK_RULE_B_WAKE), (WCK_ALM_PROMOTE, WCK_RULE_B_PROMOTE), (WCK_ALM_ALARM, WCK_RULE_B_ALARM),
              (WCK_ALM_SNUFF, WCK_RULE_B_SNUFF)],
            (t.on p.1 = true ↔ u.on p.1 = true ∨ ∃ n, fires n ∧ u.on (p.2 n) = true)) ∧
          (∀ n, fires n → u.on (WCK_RULE_B_SNUFF n) = true → t.sys.bmk = 0 ∧ t.on SYS_BOOTTAMP_SNUFF = true ∧ t.kst.sealedRecs = []) ∧
          ((∀ n, fires n → u.on (WCK_RULE_B_SNUFF n) = false) → t.sys.bmk = u.sys.bmk ∧ t.kst = u.kst) ∧ t.flt = u.flt) ∧
        (u.sys.mode ≠ .standby →
          (t.on (stkyFld 49) = true ↔ u.on (stkyFld 49) = true ∨ ∃ n, fires n ∧ u.on (WCK_RULE_B_ALARM n) = true) ∧
          (t.on (stkyFld 50) = true ↔ u.on (stkyFld 50) = true ∨ ∃ n, fires n ∧ u.on (WCK_RULE_B_SNUFF n) = true) ∧
          t.sys.mainEn = u.sys.mainEn ∧ t.sys.bmk = u.sys.bmk ∧ t.kst = u.kst)) ∧
      t.wck.mem = u.wck.mem ∧ t.mem = u.mem ∧ t.dsp = u.dsp ∧ t.cores = u.cores))

/-! ### The fault collector (16) -/

/-- The window of source `n` in ns; 0 never closes (16 R370). -/
def Sys2Proof.windowNs (u : State) (n : Nat) : Nat := u.fget (FLT_CFG_W n) * (if u.on (FLT_CFG_WUNIT n) = true then 1000000 else 1000)

/-- The safe state holds: silence, no service, no role, no context, and no control core runs (16 R373). -/
def Sys2Proof.safeNow (t : State) : Prop :=
  t.on FLT_STAT_SAFE = true ∧ t.on SVC_CTRL_EN = false ∧ t.on ADM_CTRL_EN = false ∧ t.on DUO_CTRL_EN = false ∧
  t.fget DUO_STAT_ROLE = 0 ∧ t.fget ADM_STAT_LANTERN = 0 ∧ (∀ c, (t.ctx c).st = .free) ∧ t.adm.descs = [] ∧ t.svc.refusals = [] ∧
  ∀ n : Fin 16, t.fget (SYS_CORE_CTRL_STATE n) ≠ 1

/-- 16 R370-R380, 01 R15: an event of a listed source sets its sticky bit, and one of a double-bit error leaves the word
so; a severe source reacts again only by RETIRE; another opens its window and counts, anew where the window has run out
and never past its threshold, at which it becomes severe and joins or begins a round. A window closes with its count at
0. A round of one source, 50 ns after it began, runs the source's reaction, records the first one, isolates, or snuffs
into QUENCH. Core 0 then starts from FLT_ISOSBLK. A written 1 makes a source no longer severe unless its cause stands or
it snuffed; the isolation ends with the last severe ISOLATE source. The sticky bits clear in CUSTODY with CUST.
FLT_FORCE is an event of the source, of ISOLATE and SNUFF sources only in CUSTODY with CUST. A configuration changes no
fixed bit and no severe source, and from PROVISIONED on never loosens. -/
def Obligations.FaultsAreCollected : Prop :=
  (∀ (dt : Nat) (n : Fin 128) (e : FaultAt) (s : State),
    let u := s.elapse dt
    let i := Instr.faultEvent dt n e
    let who := if fltUnitSource n = true then e.unit.toNat else 0
    let x : RoundSrc := { src := n, unit := who, forced := false, time := u.tb }
    let at_ := e.addr.toNat
    let flash := 0x10000000 + at_ % 0x10000000
    let hit : Option Nat := if n = 52 then some (damKey .bus (0x20000000 + at_ % 0x2000000)) else if n = 54 then some (slotKey (at_ % 65536))
      else if n = 56 then some (damKey .ctx at_)
      else if n = 58 then some (tagKey (if at_ < 0x10000 then .wick else if inCtxStore at_ then .ctx else .bus) at_) else if n = 60 then some (damKey .wick at_) else if n = 78 then some (damKey .bus flash)
      else if n = 94 ∨ n = 95 then some (damKey .bus (0x100000000 + at_)) else none
    let d : State := { u with damaged := match hit with | some k => sput false u.damaged k true | none => u.damaged }
    let ranOut := u.on (FLT_CNT_OPEN n) = true ∧ windowNs u n ≠ 0 ∧ sget 0 u.flt.tOpen n.val + windowNs u n ≤ u.tb
    let c0 := if ranOut then 0 else u.fget (FLT_CNT_CNT n)
    let c := c0 + 1
    let need := max 1 (u.fget (FLT_CFG_N n))
    (u.powered = false ∨ fltListed n = false → exec i s = .next u) ∧
    (u.powered = true → fltListed n = true → n = 74 ∨ n = 77 ∨ n = 78 → Completes i s fun t =>
      t.on (stkyFld n) = true ∧ t.damaged = d.damaged ∧ (n = 74 → t.on KST_EVT_ECC = true) ∧
      (n = 77 → t.on FLC_EVT_SEC = true) ∧ (n = 78 → t.on FLC_EVT_DED = true) ∧
      (n ≠ 74 → u.on FLC_ECCLOG_VALID = false →
        t.rd FLC_ECCLOG = BitVec.ofNat 64 (2 ^ 63 + (if n = 78 then 2 ^ 48 else 0) + flash / 4 * 4)) ∧
      t = { u with regs := t.regs, flt := t.flt, damaged := t.damaged }) ∧
    (u.powered = true → fltListed n = true → n ≠ 74 → n ≠ 77 → n ≠ 78 →
      (u.on (sevFld n) = true → exec i s = .next (if u.fget (FLT_CFG_REACT n) = 1 ∧ fltUnitSource n = true then
        { d.raise (stkyFld n) with flt := { u.flt with again := u.flt.again ++ [(n.val, who)] } } else d.raise (stkyFld n))) ∧
      (u.on (sevFld n) = false → c < need → Completes i s fun t =>
        t.on (stkyFld n) = true ∧ t.on (sevFld n) = false ∧ t.fget (FLT_CNT_CNT n) = c ∧ t.flt.round = u.flt.round ∧
        (c0 = 0 → t.on (FLT_CNT_OPEN n) = true ∧ sget 0 t.flt.tOpen n.val = u.tb) ∧
        t = { d with regs := t.regs, flt := t.flt }) ∧
      (u.on (sevFld n) = false → need ≤ c → Completes i s fun t =>
        t.on (stkyFld n) = true ∧ t.on (sevFld n) = true ∧ t.on (FLT_CNT_OPEN n) = false ∧ t.fget (FLT_CNT_CNT n) = need ∧
        (u.flt.round = none → t.flt.round = some { start := u.tb, srcs := [x] }) ∧
        (∀ r, u.flt.round = some r → t.flt.round = some { r with srcs := r.srcs ++ [x] }) ∧ t = { d with regs := t.regs, flt := t.flt }))) ∧
  (∀ (n : Fin 128) (s : State), Happens (.faultWindowExpiry · n) s
    (fun u => u.powered = true ∧ u.on (FLT_CNT_OPEN n) = true ∧ windowNs u n ≠ 0 ∧ sget 0 u.flt.tOpen n.val + windowNs u n ≤ u.tb)
    (fun u => (u.lower (FLT_CNT_OPEN n)).fset (FLT_CNT_CNT n) 0)) ∧
  (∀ (dt : Nat) (s : State),
    let u := s.elapse dt
    let i := Instr.reactionRound dt
    (u.powered = false ∨ (u.flt.round = none ∧ u.flt.again = []) ∨ (∃ r, u.flt.round = some r ∧ u.passed r.start 50 = false) →
      exec i s = .next u) ∧
    (∀ r x, u.powered = true → u.flt.again = [] → u.flt.round = some r → u.passed r.start 50 = true → r.srcs = [x] →
      x.time ≤ r.start + 50 →
      let k := u.fget (FLT_CFG_REACT x.src)
      Completes i s fun t =>
        t.on FLT_EVT_ROUND = true ∧
        (u.on FLT_FIRST_VALID = false → t.rd FLT_FIRST_TS = BitVec.ofNat 64 x.time ∧ t.rd FLT_FIRST =
          BitVec.ofNat 64 (2 ^ 31 + (if x.forced = true then 2 ^ 29 else 0) + k * 2 ^ 24 + x.unit % 256 * 2 ^ 16 + x.src)) ∧
        (u.on FLT_FIRST_VALID = true → t.rd FLT_FIRST = u.rd FLT_FIRST ∧ t.rd FLT_FIRST_TS = u.rd FLT_FIRST_TS) ∧
        (k = 0 → t = { u with regs := t.regs, flt := { u.flt with round := none } }) ∧
        (k = 1 → 66 ≤ x.src → x.src ≤ 68 → x.unit < 136 → t.mauSet MAU_ACTIVE x.unit = false) ∧
        (k = 2 → u.on FLT_STAT_ISOLATED = false → u.sys.mode ≠ .quench →
          safeNow t ∧ t.on FLT_STAT_ISOLATED = true ∧ t.flt.startCore0 = true) ∧
        (k = 3 → u.sys.mode ≠ .quench → quenched t ∧ t.on FLT_STAT_SNUFFED = true ∧ t.sys.bmk = 0 ∧ t.on SYS_BOOTTAMP_SNUFF = true ∧
          t.kst.sealedRecs = [] ∧ t.kst.tail = [] ∧ t.flt.startCore0 = false))) ∧
  (∀ (dt : Nat) (s : State),
    let u := s.elapse dt
    let i := Instr.isolateCoreStart dt
    let v := { u with flt := { u.flt with startCore0 := false } }
    let from_ := (u.rd FLT_ISOSBLK).toNat
    let halted := u.sys.mode = .boot ∧ u.fget SYS_BOOTSTAT_ERR ≠ 0
    (u.powered = false ∨ u.flt.startCore0 = false ∨ halted → exec i s = .next u) ∧
    (u.powered = true → u.flt.startCore0 = true → ¬halted →
      (from_ = 0 → exec i s = .next v) ∧
      (from_ ≠ 0 →
        (∀ t, v.busRead ⟨.ctl 0, 0⟩ from_ 32 = (.error .wait, t) → exec i s = .next { t with flt := { t.flt with startCore0 := true } }) ∧
        (∀ e t, e ≠ .wait → v.busRead ⟨.ctl 0, 0⟩ from_ 32 = (.error e, t) → exec i s = .next (t.endStalls (.ctl 0))) ∧
        (∀ bs x, v.busRead ⟨.ctl 0, 0⟩ from_ 32 = (.ok bs, x) →
          let t := x.endStalls (.ctl 0)
          let pcc := capOfBytes (t.tagged from_ && tagAt t.tags from_) (bs.take 16)
          let c1 := capOfBytes (t.tagged from_ && tagAt t.tags (from_ + 16)) (bs.drop 16)
          let fit := pcc.tag = true ∧ pcc.otype = 0 ∧ c1.tag = true ∧ c1.otype = 0 ∧ permBit pcc.perms pX = true
          (¬fit → exec i s = .next t) ∧
          (fit → exec i s = .next (State.fset
            { t with cores := sput {} t.cores 0 { c := [(1, c1)], pcc := pcc, pc := pcc.base }
                     sys := { t.sys with stopReq := t.sys.stopReq &&& ~~~(1#16) } } (SYS_CORE_CTRL_STATE 0) 1)))))) ∧
  (∀ (a : Acc) (k : Fin 4) (v : Word32) (s : State), MayWrite s a (FLT_SEV k) v → Completes (.severeClear a k v) s fun t =>
    let held := fun n => s.on (causeFld n) = true ∨ s.flt.bySnuff.getLsbD n = true
    let asked := fun n => n / 32 = k.val ∧ v.getLsbD (n % 32) = true
    (∀ n < 128, t.on (sevFld n) = true ↔ s.on (sevFld n) = true ∧ ¬(asked n ∧ ¬held n)) ∧
    (∀ n < 128, asked n → ¬held n → t.on (FLT_CNT_OPEN n) = false ∧ t.fget (FLT_CNT_CNT n) = 0) ∧
    (t.on FLT_EVT_CLR_REJ = true ↔ s.on FLT_EVT_CLR_REJ = true ∨ ∃ n < 128, asked n ∧ held n) ∧
    (s.on FLT_STAT_ISOLATED = true → (∀ n < 128, t.on (sevFld n) = true → s.fget (FLT_CFG_REACT n) ≠ 2) →
      t.on FLT_STAT_ISOLATED = false ∧ (s.sys.mode ≠ .quench → t.on FLT_STAT_SAFE = false)) ∧
    ((∃ n < 128, t.on (sevFld n) = true ∧ s.fget (FLT_CFG_REACT n) = 2) → t.rd FLT_STAT = s.rd FLT_STAT) ∧
    t = { s with regs := t.regs }) ∧
  (∀ (a : Acc) (k : Fin 4) (v : Word32) (s : State),
    let may := s.sys.mode = .custody ∧ permBit a.perms pCUST = true
    let i := Instr.faultStickyClear a k v
    (v = 0 → Sets i a (FLT_STKYCLR k) v s s) ∧ (v ≠ 0 → ¬may → Sets i a (FLT_STKYCLR k) v s (s.raise FLT_EVT_CLR_REJ)) ∧
    (v ≠ 0 → may → MayWrite s a (FLT_STKYCLR k) v → Completes i s fun t =>
      (∀ n < 128, t.on (stkyFld n) = (s.on (stkyFld n) && !(decide (n / 32 = k.val) && v.getLsbD (n % 32)))) ∧
      t = { s with regs := t.regs } ∧ ∀ r, r ≠ FLT_STKY k → t.rd r = s.rd r)) ∧
  (∀ (a : Acc) (k : Fin 4) (b : Fin 32) (s : State),
    let n := 32 * k.val + b.val
    let v : Word32 := 1#32 <<< b.val
    let may := s.sys.mode = .custody ∧ permBit a.perms pCUST = true
    let i := Instr.faultForce a k v
    Sets (.faultForce a k 0) a (FLT_FORCE k) 0 s s ∧
    (fltListed n = false → Sets i a (FLT_FORCE k) v s s) ∧
    (fltListed n = true → 2 ≤ s.fget (FLT_CFG_REACT n) → ¬may → Sets i a (FLT_FORCE k) v s (s.raise FLT_EVT_FORCE_REJ)) ∧
    (fltListed n = true → s.fget (FLT_CFG_REACT n) < 2 ∨ may → Sets i a (FLT_FORCE k) v s
      (s.fault n (if fltUnitSource n = true then s.fget FLT_FORCE_UNIT_UNIT else 0) true))) ∧
  (∀ (a : Acc) (n : Fin 128) (v : Word32) (s : State),
    let old := (s.rd (FLT_CFG n)).toNat
    let new := v.toNat &&& 0x3FFFFFF
    let t := s.wr (FLT_CFG n) (BitVec.ofNat 64 (old &&& 0x80000000 ||| new))
    let fixed := if 32 ≤ n.val ∧ n.val ≤ 47 then 0xFF0000 else if n = 50 then 0x3FFFFFF else if n = 83 then 0x3000000 else 0
    let looser := t.fget (FLT_CFG_REACT n) < s.fget (FLT_CFG_REACT n) ∨ max 1 (s.fget (FLT_CFG_N n)) < max 1 (t.fget (FLT_CFG_N n)) ∨
      (windowNs t n ≠ 0 ∧ (windowNs s n = 0 ∨ windowNs t n < windowNs s n))
    Sets (.faultConfigWrite a n v) a (FLT_CFG n) v s
      (if fltListed n = false then s
       else if old &&& fixed ≠ new &&& fixed ∨ s.on (sevFld n) = true ∨ ((s.sys.lc = .provisioned ∨ s.sys.lc = .field) ∧ looser) then
         s.raise FLT_EVT_CFG_REJ
       else t.fset (FLT_CNT_CNT n) (min (max 1 (t.fget (FLT_CFG_N n))) (t.fget (FLT_CNT_CNT n)))))

/-! ### Cards and the quorum (17) -/

/-- Slot `n` beside its registers. -/
def Sys2Proof.slotOf (u : State) (n : Nat) : CardSlot := sget {} u.crd.slots n

/-- Slot `n` with `x` in place of what it held. -/
def Sys2Proof.withSlot (u : State) (n : Nat) (x : CardSlot) : State := { u with crd := { u.crd with slots := sput {} u.crd.slots n x } }

/-- The slot holds an activated card: activating, in PPS or ready (17 R383). -/
def Sys2Proof.activeCard (u : State) (n : Nat) : Prop := 1 ≤ u.fget (CRD_SSTAT_STATE n) ∧ u.fget (CRD_SSTAT_STATE n) ≤ 3

/-- The card of slot `n` is off: STATE `st`, ERR `err`, nothing under way (17 R383). -/
def Sys2Proof.cardOff (t : State) (n st err : Nat) : Prop :=
  t.fget (CRD_SSTAT_STATE n) = st ∧ t.fget (CRD_SSTAT_ERR n) = err ∧ t.on (CRD_SSTAT_CLASS n) = false ∧ t.rd (CRD_SPARAM n) = 0 ∧
  t.on (CRD_SXFER_BUSY n) = false ∧ (∃ o, slotOf t n = { offAt := o } ∧ t.tb ≤ o ∧ o ≤ t.tb + 50000) ∧ ∀ k < 128, t.rd (if n = 0 then CRD_SBUF0 k else CRD_SBUF1 k) = 0

/-- Slot `n` is being activated at class A or B, with ERR `err`: its supply is switched on, RST rises 250 us after it is,
and a retry is used up or not (17 R381, R382). -/
def Sys2Proof.cardStarts (t : State) (n : Nat) (classA : Bool) (err : Nat) (retried : Bool) : Prop :=
  t.fget (CRD_SSTAT_STATE n) = 1 ∧ t.fget (CRD_SSTAT_ERR n) = err ∧ t.on (CRD_SSTAT_CLASS n) = classA ∧
  (slotOf t n).ven = true ∧ (slotOf t n).vsel = classA ∧ (slotOf t n).rstAt = max (slotOf t n).offAt t.tb + 250000 ∧
  (slotOf t n).retried = retried

/-- Slot `n` is deactivated, which takes at most 50 us, and then activated again (17 R382, R383, R385). -/
def Sys2Proof.cardRestarts (t : State) (n : Nat) (classA : Bool) (err : Nat) (retried : Bool) : Prop :=
  cardStarts t n classA err retried ∧ t.tb ≤ (slotOf t n).offAt ∧ (slotOf t n).offAt ≤ t.tb + 50000

/-- A block of T=1 with its LRC (17 R386). -/
def Sys2Proof.block (pcb : Nat) (inf : List Byte) : List Byte :=
  let b := (0 : Byte) :: BitVec.ofNat 8 pcb :: BitVec.ofNat 8 inf.length :: inf
  b ++ [b.foldl (· ^^^ ·) 0]

/-- The block layer of slot `n` awaits a block of the card. -/
def Sys2Proof.awaitsBlock (u : State) (n : Nat) : Prop :=
  u.powered = true ∧ u.fget (CRD_SSTAT_STATE n) = 3 ∧ (slotOf u n).ended = none ∧
  (u.on (CRD_SXFER_BUSY n) = true ∨ (slotOf u n).ifs = true ∨ (slotOf u n).resynch = true)

/-- The quorum session is closed (17 R393). -/
def Sys2Proof.sessionShut (u : State) : State :=
  { ((u.lower CRD_QSTAT_AUTH).lower CRD_QSTAT_OPEN).lower CRD_QSTAT_BUSY with crd := { u.crd with
    challenge := 0, wantChallenge := false, counted := [], attSlot := none, answer := none } }

/-- 17 R382-R386, R390, R395: ACT starts an activation at the lowest class enabled, with none it fails; DEACT, the fall
of CRD_CTRL.EN and the loss of the card deactivate the slot. Without an ATR in time the activation is tried once more at
class A or fails; an ATR that is refused fails it, an accepted one leads to PPS or to READY with S(IFS); an exact echo
ends PPS, any other reactivates without it. An exchange sends its command in blocks of at most IFSC bytes; a wrong block
and a missing one are asked for again three times, then S(RESYNCH) is sent, whose answer starts the command anew and
whose failure ends it with PROTOCOL; a correct last one ends the exchange, whose response then stands in the slot or
with the quorum; an exchange that fails deactivates the card. -/
def Obligations.CardsAct : Prop :=
  (∀ (a : Acc) (n : Fin 2) (v : Word32) (s : State) (i : Instr), i = .cardActivate a n v ∨ i = .cardDeactivate a n v →
    let w := s.wr (CRD_SCTRL n) (BitVec.ofNat 64 (v.toNat % 8))
    let act := v.getLsbD 31
    let deact := v.getLsbD 30
    let cls := v.toNat % 4
    let may := s.on CRD_CTRL_EN = true ∧ s.on (CRD_SSTAT_DET n) = true ∧ ¬activeCard s n
    (act = false → deact = false ∨ ¬activeCard s n → Sets i a (CRD_SCTRL n) v s w) ∧
    (act = false → deact = true → activeCard s n → MayWrite s a (CRD_SCTRL n) v → Completes i s (cardOff · n 0 0)) ∧
    (act = true → deact = false ∨ ¬activeCard s n → ¬may → Sets i a (CRD_SCTRL n) v s w) ∧
    (act = true → may → cls = 0 → Sets i a (CRD_SCTRL n) v s
      (((w.fset (CRD_SSTAT_STATE n) 4).fset (CRD_SSTAT_ERR n) 2).raise (bitFld CRD_EVT (2 + n.val)))) ∧
    (act = true → may → cls ≠ 0 → MayWrite s a (CRD_SCTRL n) v → Completes i s fun t =>
      cardStarts t n (decide (cls = 2)) 0 false ∧ (slotOf t n).offAt = (slotOf s n).offAt ∧ (slotOf t n).noPps = false ∧
      t.out = s.out ∧ t.mem = s.mem) ∧
    (act = true → deact = true → activeCard s n → MayWrite s a (CRD_SCTRL n) v →
      (s.on CRD_CTRL_EN = false ∨ s.on (CRD_SSTAT_DET n) = false → Completes i s (cardOff · n 0 0)) ∧
      (s.on CRD_CTRL_EN = true → s.on (CRD_SSTAT_DET n) = true →
        (cls = 0 → Completes i s fun t => cardOff t n 4 2 ∧ t.on (bitFld CRD_EVT (2 + n.val)) = true) ∧
        (cls ≠ 0 → Completes i s fun t => cardRestarts t n (decide (cls = 2)) 0 false ∧ (slotOf t n).noPps = false)))) ∧
  (∀ (a : Acc) (v : Word32) (s : State),
    (v.getLsbD 0 = true → Sets (.crdDisable a v) a CRD_CTRL v s (s.wr CRD_CTRL (v.setWidth 64 &&& 0x3F01))) ∧
    (v.getLsbD 0 = false → MayWrite s a CRD_CTRL v → Completes (.crdDisable a v) s fun t =>
      t.on CRD_CTRL_EN = false ∧ ∀ n < 2, activeCard s n → cardOff t n 0 0)) ∧
  (∀ (dt : Nat) (n : Fin 2) (present : Bool) (s : State),
    let u := s.elapse dt
    let i := Instr.cardDetectChange dt n present
    let w := u.put (CRD_SSTAT_DET n) present
    let x := if u.powered = true then w.raise (bitFld CRD_EVT n.val) else w
    (u.on (CRD_SSTAT_DET n) = present → exec i s = .next u) ∧
    (u.on (CRD_SSTAT_DET n) ≠ present → present = true ∨ ¬activeCard u n → exec i s = .next x) ∧
    (u.on (CRD_SSTAT_DET n) = true → present = false → activeCard u n → Completes i s fun t => cardOff t n 0 5 ∧
      t.on (CRD_SSTAT_DET n) = false ∧
      (u.on (CRD_SXFER_BUSY n) = true → t.fget (CRD_SXFER_ERR n) = 1 ∧ t.on (bitFld CRD_EVT (6 + n.val)) = true))) ∧
  (∀ (dt : Nat) (n : Fin 2) (bytes : List Byte) (s : State),
    let u := s.elapse dt
    let x := slotOf u n
    let done := fun (t : State) (e : Nat) => cardOff t n 4 e ∧ t.on (bitFld CRD_EVT (2 + n.val)) = true
    let again := (u.rd (CRD_SCTRL n)).getLsbD 1 = true ∧ x.retried = false
    let waits := u.powered = true ∧ u.fget (CRD_SSTAT_STATE n) = 1
    let ready := fun t : State => t.fget (CRD_SSTAT_STATE n) = 3 ∧ t.on (bitFld CRD_EVT (2 + n.val)) = true ∧
      (slotOf t n).ifs = true ∧ t.out = u.out ++ [.card n [0, 0xC1, 1, 0xFE, 0x3E]]
    (¬(waits ∧ x.rstAt + 10240000 ≤ u.tb) → exec (.atrTimeout dt n) s = .next u) ∧
    (waits → x.rstAt + 10240000 ≤ u.tb →
      (again → Completes (.atrTimeout dt n) s fun t => cardRestarts t n true 0 true ∧ (slotOf t n).noPps = x.noPps) ∧
      (¬again → Completes (.atrTimeout dt n) s fun t => done t 1)) ∧
    (¬(waits ∧ x.rstAt ≤ u.tb) → exec (.atrReceive dt n bytes) s = .next u) ∧
    (waits → x.rstAt ≤ u.tb →
      (parseAtr bytes = none → Completes (.atrReceive dt n bytes) s fun t => done t 3) ∧
      (∀ r, parseAtr bytes = some r →
        let ta := r.ta1.getD 0x11
        let out := r.cls ≠ none ∧ classExcluded r (u.on (CRD_SSTAT_CLASS n)) = true
        let pps := r.ta2 = none ∧ u.on (CRD_SCTRL_PPS_EN n) = true ∧ ta ≠ 0x11 ∧ x.noPps = false
        let req : List Byte := [0xFF, 0x11, BitVec.ofNat 8 ta, 0xEE ^^^ BitVec.ofNat 8 ta]
        (out → again → Completes (.atrReceive dt n bytes) s fun t => cardRestarts t n true 0 true ∧ (slotOf t n).noPps = x.noPps) ∧
        (out → ¬again → Completes (.atrReceive dt n bytes) s fun t => done t 2) ∧
        (¬out → ¬pps → Completes (.atrReceive dt n bytes) s ready) ∧
        (¬out → pps → Completes (.atrReceive dt n bytes) s fun t => t.fget (CRD_SSTAT_STATE n) = 2 ∧
          (slotOf t n).pps = some req ∧ t.out = u.out ++ [.card n req]))) ∧
    (let echoes := u.powered = true ∧ u.fget (CRD_SSTAT_STATE n) = 2;
      (¬echoes ∨ x.pps = none → exec (.ppsResponse dt n bytes) s = .next u) ∧
      (∀ req, echoes → x.pps = some req →
        (bytes = req → Completes (.ppsResponse dt n bytes) s ready) ∧
        (bytes ≠ req → Completes (.ppsResponse dt n bytes) s fun t =>
          cardRestarts t n (u.on (CRD_SSTAT_CLASS n)) 4 x.retried ∧ (slotOf t n).noPps = true)))) ∧
  (∀ (a : Acc) (n : Fin 2) (v : Word32) (s : State),
    let i := Instr.cardExchange a n v
    let len := v.toNat % 512
    let w := s.fset (CRD_SXFER_LEN n) len
    let x := slotOf s n
    let cmd := ((List.range 128).flatMap fun k => leBytes 4 (s.rd (if n = 0 then CRD_SBUF0 k else CRD_SBUF1 k)).toNat).take len
    let inf := cmd.take (max 1 (s.fget (CRD_SPARAM_IFSC n)))
    let goes := v.getLsbD 31 = true ∧ s.fget (CRD_SSTAT_STATE n) = 3 ∧ s.on (CRD_SXFER_BUSY n) = false
    (¬goes → Sets i a (CRD_SXFER n) v s w) ∧
    (goes → len < 4 ∨ 261 < len → Sets i a (CRD_SXFER n) v s ((w.fset (CRD_SXFER_ERR n) 5).raise (bitFld CRD_EVT (6 + n.val)))) ∧
    (goes → 4 ≤ len → len ≤ 261 → MayWrite s a (CRD_SXFER n) v → Completes i s fun t =>
      t.on (CRD_SXFER_BUSY n) = true ∧ t.fget (CRD_SXFER_ERR n) = 0 ∧ (slotOf t n).toSend = cmd ∧ (slotOf t n).cmd = cmd ∧
      (slotOf t n).attest = false ∧ (x.ifs = true → t.out = s.out ∧ t.fget (CRD_SXFER_PHASE n) = 1) ∧
      (x.ifs = false → t.fget (CRD_SXFER_PHASE n) = (if inf.length < len then 1 else 2) ∧ t.out = s.out ++ [.card n
        (block ((if x.ns = true then 0x40 else 0) + (if inf.length < len then 0x20 else 0)) inf)]))) ∧
  (∀ (dt : Nat) (n : Fin 2) (s : State),
    let u := s.elapse dt
    let x := slotOf u n
    let etu := 11 * ((fiOf (u.fget (CRD_SPARAM_FI n))).map (·.1)).getD 372 / (diOf (u.fget (CRD_SPARAM_DI n))).getD 1
    let bwt := (etu + 2 ^ u.fget (CRD_SPARAM_BWI n) * 357120) * 64 * x.clkdiv / 10
    let plain := x.ifs = false ∧ x.resynch = false
    let asks := fun (t : State) (e : Nat) => (slotOf t n).retries = x.retries + 1 ∧ (slotOf t n).last = x.last ∧
      t.out = u.out ++ [.card n (block (0x80 + (if x.nr = true then 0x10 else 0) + e) [])]
    let resyncs := fun t : State => (slotOf t n).resynch = true ∧ (slotOf t n).ifs = false ∧ (slotOf t n).retries = 0 ∧
      (slotOf t n).cmd = x.cmd ∧ t.out = u.out ++ [.card n (block 0xC0 [])]
    let inf0 := x.cmd.take (max 1 (u.fget (CRD_SPARAM_IFSC n)))
    (¬awaitsBlock u n → ∀ bs, exec (.cardBlockReceive dt n bs) s = .next u) ∧
    (∀ bs, awaitsBlock u n → plain → x.retries < 3 → bs.length < 3 ∨ bs.foldl (· ^^^ ·) 0 ≠ 0 →
      Completes (.cardBlockReceive dt n bs) s (asks · 1)) ∧
    (∀ bs, awaitsBlock u n → x.resynch = false → 3 ≤ x.retries → bs.length < 3 ∨ bs.foldl (· ^^^ ·) 0 ≠ 0 →
      Completes (.cardBlockReceive dt n bs) s resyncs) ∧
    (awaitsBlock u n → x.resynch = true → u.on (CRD_SXFER_BUSY n) = true →
      Completes (.cardBlockReceive dt n (block 0xE0 [])) s fun t =>
        (slotOf t n).resynch = false ∧ (slotOf t n).toSend = x.cmd ∧ (slotOf t n).resp = [] ∧ (slotOf t n).ns = false ∧
        (slotOf t n).nr = false ∧ t.out = u.out ++ [.card n (block (if inf0.length < x.cmd.length then 0x20 else 0) inf0)]) ∧
    (awaitsBlock u n → x.ifs = true → u.on (CRD_SXFER_BUSY n) = false →
      exec (.cardBlockReceive dt n (block 0xE1 [0xFE])) s = .next (withSlot u n { x with ifs := false, retries := 0 })) ∧
    (∀ inf : List Byte, inf.length ≤ 254 → awaitsBlock u n → plain → x.toSend = [] → x.resp.length + inf.length ≤ 511 →
      Completes (.cardBlockReceive dt n (block (if x.nr = true then 0x40 else 0) inf)) s fun t =>
        (slotOf t n).ended = some (if x.resp.length + inf.length < 2 then 3 else 0) ∧ (slotOf t n).resp = x.resp ++ inf ∧
        t.fget (CRD_SXFER_PHASE n) = 4 ∧ t.out = u.out) ∧
    (¬(awaitsBlock u n ∧ x.waitFrom + x.wtx * bwt ≤ u.tb) → exec (.cardBlockTimeout dt n) s = .next u) ∧
    (awaitsBlock u n → x.waitFrom + x.wtx * bwt ≤ u.tb →
      (plain → x.retries < 3 → Completes (.cardBlockTimeout dt n) s (asks · 2)) ∧
      (x.resynch = false → 3 ≤ x.retries → Completes (.cardBlockTimeout dt n) s resyncs) ∧
      (x.resynch = true → 3 ≤ x.retries → exec (.cardBlockTimeout dt n) s = .next (withSlot u n { x with ended := some 3 }))) ∧
    (u.powered = false ∨ x.ended = none → exec (.cardExchangeDone dt n) s = .next u) ∧
    (u.powered = true →
      (x.ended = some 0 → Completes (.cardExchangeDone dt n) s fun t =>
        t.on (CRD_SXFER_BUSY n) = false ∧ t.fget (CRD_SXFER_PHASE n) = 5 ∧ t.on (bitFld CRD_EVT (4 + n.val)) = true ∧
        (slotOf t n).ended = none ∧ (slotOf t n).resp = [] ∧
        (x.attest = true → t.crd.answer = if u.crd.attSlot = some n.val then some x.resp else u.crd.answer) ∧
        (x.attest = false → x.resp.length < 512 → t.fget (CRD_SXFER_RLEN n) = x.resp.length ∧ t.crd.answer = u.crd.answer)) ∧
      (∀ e, x.ended = some e → e ≠ 0 → Completes (.cardExchangeDone dt n) s fun t => cardOff t n 0 0 ∧
        (u.on (CRD_SXFER_BUSY n) = true → t.fget (CRD_SXFER_ERR n) = e % 8 ∧ t.on (bitFld CRD_EVT (6 + n.val)) = true))))

/-- 17 R392-R394: GO opens a session in CUSTODY or QUENCH for a purpose from 1 to 3 where none is open, and asks for a
challenge; ATTEST sends challenge, DEVID and purpose to the card in SLOT; ABORT and the timeout close the session. An
answer is judged in order: its form, its card in the roster, not yet counted, its signature; with M counted the session
has AUTH. COMMIT writes the staged roster with the authority of a roster session and closes it. -/
def Obligations.QuorumAuthorises : Prop :=
  (∀ (a : Acc) (v : Word32) (s : State) (i : Instr), i = .quorumOpen a v ∨ i = .quorumAttest a v ∨ i = .quorumAbort a v →
    let w := s.wr CRD_QCTRL (v.setWidth 64 &&& 0x1FFFF)
    let go := v.getLsbD 31
    let abort := v.getLsbD 30
    let attest := v.getLsbD 29
    let p := v.toNat / 2 ^ 12 % 16
    let opens := (s.sys.mode = .custody ∨ s.sys.mode = .quench) ∧ s.on CRD_QSTAT_OPEN = false ∧ 1 ≤ p ∧ p ≤ 3
    let n : Fin 2 := if v.getLsbD 16 = true then 1 else 0
    let sends := s.on CRD_QSTAT_OPEN = true ∧ s.on CRD_QSTAT_BUSY = false ∧ s.crd.wantChallenge = false ∧
      s.fget (CRD_SSTAT_STATE n) = 3 ∧ s.on (CRD_SXFER_BUSY n) = false
    (go = false → abort = false → attest = false → Sets i a CRD_QCTRL v s w) ∧
    (go = false → abort = true → attest = false → Sets i a CRD_QCTRL v s (sessionShut w)) ∧
    (go = true → abort = false → attest = false → ¬opens → Sets i a CRD_QCTRL v s (w.raise CRD_EVT_CFG_REJ)) ∧
    (go = true → abort = false → attest = false → opens → MayWrite s a CRD_QCTRL v → Completes i s fun t =>
      t.on CRD_QSTAT_OPEN = true ∧ t.on CRD_QSTAT_AUTH = false ∧ t.fget CRD_QSTAT_COUNT = 0 ∧
      t.on CRD_QSTAT_RECOVERY = !s.on CRD_ROSTER_CTRL_VALID ∧ t.fget CRD_QSTAT_M = s.rosterInUse.2 % 16 ∧
      t.crd = { s.crd with wantChallenge := true, purpose := p, counted := [], openedAt := s.tb, attSlot := none, answer := none } ∧
      t = { s with regs := t.regs, crd := t.crd }) ∧
    (go = false → abort = false → attest = true → ¬sends → Sets i a CRD_QCTRL v s (w.raise CRD_EVT_CFG_REJ)) ∧
    (go = false → abort = false → attest = true → sends → MayWrite s a CRD_QCTRL v → Completes i s fun t =>
      t.on CRD_QSTAT_BUSY = true ∧ t.fget CRD_QSTAT_ERR = 0 ∧ t.on (CRD_SXFER_BUSY n) = true ∧ t.crd.attSlot = some n.val ∧
      t.crd.answer = none ∧ (slotOf t n).attest = true ∧ (slotOf t n).toSend = [0xB0, 0x50, 0, 0, 0x28] ++
        beBytes 32 s.crd.challenge.toNat ++ beBytes 4 (s.rd SVC_DEVID).toNat ++ beBytes 4 s.crd.purpose ++ [0x80])) ∧
  (∀ (dt : Nat) (s : State),
    let u := s.elapse dt
    let i := Instr.quorumAttestDone dt
    let fails := fun (e : Nat) => { ((u.fset CRD_QSTAT_ERR e).lower CRD_QSTAT_BUSY).raise CRD_EVT_QFAIL with crd := { u.crd with answer := none } }
    (u.powered = false ∨ u.on CRD_QSTAT_BUSY = false ∨ u.crd.answer = none → exec i s = .next u) ∧
    (∀ r, u.powered = true → u.on CRD_QSTAT_BUSY = true → u.crd.answer = some r →
      let q := r.take 64
      let digest : BitVec 256 := BitVec.ofNat 256 (leNat (sha2Digest 32 q))
      let told := beBytes 32 u.crd.challenge.toNat ++ beBytes 4 (u.rd SVC_DEVID).toNat ++ beBytes 4 u.crd.purpose
      let formed := r.length = 130 ∧ r.drop 128 = [0x90, 0x00]
      (¬formed → exec i s = .next (fails 4)) ∧
      (formed → digest ∉ u.rosterInUse.1 → exec i s = .next (fails 1)) ∧
      (∀ k, formed → u.rosterInUse.1.findIdx? (fun d => decide (d = digest)) = some k →
        (k ∈ u.crd.counted → exec i s = .next (fails 2)) ∧
        (k ∉ u.crd.counted → ecdsaVerifies q told (slice r 64 64) = false → exec i s = .next (fails 3)) ∧
        (k ∉ u.crd.counted → ecdsaVerifies q told (slice r 64 64) = true → Completes i s fun t =>
          t.on CRD_QSTAT_BUSY = false ∧ t.fget CRD_QSTAT_COUNT = (u.crd.counted.length + 1) % 16 ∧
          t.crd = { u.crd with counted := k :: u.crd.counted, answer := none } ∧
          (u.rosterInUse.2 ≤ u.crd.counted.length + 1 → t.on CRD_QSTAT_AUTH = true ∧ t.on CRD_EVT_QAUTH = true) ∧
          (u.crd.counted.length + 1 < u.rosterInUse.2 → t.on CRD_QSTAT_AUTH = u.on CRD_QSTAT_AUTH))))) ∧
  (∀ s : State, Happens .quorumTimeout s
    (fun u => u.powered = true ∧ u.on CRD_QSTAT_OPEN = true ∧
      u.crd.openedAt + (if 1 ≤ u.fget CRD_QCTRL_TMO_S ∧ u.fget CRD_QCTRL_TMO_S ≤ 600 then u.fget CRD_QCTRL_TMO_S else 120) * 1000000000 ≤ u.tb)
    sessionShut) ∧
  (∀ (a : Acc) (v : Word32) (s : State),
    let m := v.toNat % 16
    let n := v.toNat / 16 % 16
    let w := (s.fset CRD_ROSTER_CTRL_M m).fset CRD_ROSTER_CTRL_N n
    let may := s.on CRD_QSTAT_AUTH = true ∧ s.crd.purpose = 3 ∧ 1 ≤ m ∧ m ≤ n ∧ n ≤ 8
    (v.getLsbD 31 = false → Sets (.rosterCommit a v) a CRD_ROSTER_CTRL v s w) ∧
    (v.getLsbD 31 = true → ¬may → Sets (.rosterCommit a v) a CRD_ROSTER_CTRL v s (w.raise CRD_EVT_CFG_REJ)) ∧
    (v.getLsbD 31 = true → may → MayWrite s a CRD_ROSTER_CTRL v → Completes (.rosterCommit a v) s fun t =>
      t.on CRD_ROSTER_CTRL_VALID = true ∧ t.crd.rosterM = m ∧ t.crd.roster.length = n ∧
      (∀ e < n, t.crd.roster[e]? = some (BitVec.ofNat 256 (leNat ((List.range 8).flatMap fun k =>
        leBytes 4 (s.rd (CRD_ROSTER_BUF (8 * e + k))).toNat)))) ∧
      t.on CRD_QSTAT_AUTH = false ∧ t.on CRD_QSTAT_OPEN = false ∧ t.on CRD_QSTAT_RECOVERY = false ∧ t.fget CRD_QSTAT_M = m ∧
      t.crd.challenge = 0 ∧ t.crd.counted = [] ∧ t.crd.attSlot = none))

/-! ### The tag (18) -/

/-- A frame of the reader reaches the tag: a field, and no command still running. -/
def Sys2Proof.tagHears (u : State) : Prop := u.tag.powered = true ∧ u.tag.field = true ∧ u.on TAG_STAT_FTXN = false

/-- What a frame leaves that the present state does not expect (18 Table 18.1). -/
def Sys2Proof.unexpected (u : State) : State :=
  if u.fget TAG_STAT_FSTATE = 1 ∨ u.fget TAG_STAT_FSTATE = 2 then
    { u.fset TAG_STAT_FSTATE (if u.tag.woken = true then 3 else 0) with tag := { u.tag with authed := [], level1 := false } }
  else u

/-- The tag answers with `bs` in a standard frame, which CRC_A ends (log entry 150). -/
def Sys2Proof.tells (u : State) (bs : List Byte) : State := { u with out := u.out ++ [.tag 0 (bs ++ crcA bs)] }

/-- Command `i` has an effect `P`, and then Kindling's next write of the last fault record begins where one is due (18
R400). -/
def Sys2Proof.ThenRecords (i : Instr) (s : State) (P : State → Prop) : Prop := ∃ t, exec i s = .next t.faultWrites ∧ P t

/-- The read-back of the `k`-th commit from now fails, which is left open (18 Table 18.6, C3; log entry 112). -/
def Sys2Proof.readsBackWrong (u : State) (k : Nat) : Prop := Config.freeBit (u.freeCtr + k) = true

/-- Policy, attempts and password of group `g`, from its configuration (18 R408, R409). -/
def Sys2Proof.groupPolicy (u : State) (g : Nat) : Nat := ((u.tagRead (512 + g)).getD 0 0).toNat % 16
def Sys2Proof.groupAttempts (u : State) (g : Nat) : Nat := ((u.tagRead (512 + g)).getD 9 0).toNat
def Sys2Proof.groupPassword (u : State) (g : Nat) : List Byte := slice (u.tagRead (512 + g)) 1 8

/-- A copy after the scrub (18 R411). -/
def Sys2Proof.scrubbed (c : TagCopy) : TagCopy :=
  if c.marker = 0 ∨ 8 ≤ c.marker then c else if c.crcOk = true then { c with marker := 8 } else {}

/-- 18 R397, R398, R405, R407, R411, Table 18.1: powering up the tag scrubs its memory and leaves it IDLE; with VDD_AON
the loss of the field leaves it IDLE and powered. REQA answers in IDLE, WUPA in IDLE and HALT; anticollision answers
with the bits of the level's UID that follow those the reader knows, SELECT of the right ones leads to the second level
and to ACTIVE, HLTA from ACTIVE to HALT. The loss of the field lets a commit complete unanswered. Any other frame
returns READY and ACTIVE to IDLE, or to HALT where the tag was woken from it. -/
def Obligations.TagAnswersTheReader : Prop :=
  ∀ (dt : Nat) (s : State),
    let u := s.elapse dt
    let st := u.fget TAG_STAT_FSTATE
    let ready := fun w : Bool => { u.fset TAG_STAT_FSTATE 1 with
      out := u.out ++ [.tag 0 [0x42, 0x00]], tag := { u.tag with authed := [], woken := w, level1 := false } }
    let uid : Nat → Byte := fun i => Config.tagUid (Config.factorySerial u.otpCells) i
    let first : List Byte := [0x88, uid 0, uid 1, uid 2, 0x88 ^^^ uid 0 ^^^ uid 1 ^^^ uid 2]
    let second : List Byte := [uid 3, uid 4, uid 5, uid 6, uid 3 ^^^ uid 4 ^^^ uid 5 ^^^ uid 6]
    let level := if u.tag.level1 = true then second else first
    let bits := fun nvb : Byte => 8 * (nvb.toNat / 16 - 2) + nvb.toNat % 16
    let fits := fun (sel nvb : Byte) (known : List Byte) => st = 1 ∧ sel = (if u.tag.level1 = true then 0x95 else 0x93) ∧
      0x20 ≤ nvb.toNat ∧ nvb.toNat < 0x70 ∧ nvb.toNat % 16 < 8 ∧ known.length = (bits nvb + 7) / 8 ∧
      ∀ i < bits nvb, (known.getD (i / 8) 0).getLsbD (i % 8) = (level.getD (i / 8) 0).getLsbD (i % 8)
    (∀ field : Bool,
      let rises := u.tag.powered = false ∧ (field = true ∨ u.sys.mode ≠ .cell)
      (¬rises → exec (.tagPowerUp dt field) s = .next u) ∧
      (rises → (u.tag.lines.map Prod.fst).Nodup → Completes (.tagPowerUp dt field) s fun t =>
        t.tag.powered = true ∧ t.tag.field = field ∧ t.on TAG_STAT_FIELD = field ∧ t.fget TAG_STAT_FSTATE = st ∧
        (∀ k, t.tagLine k = { a := scrubbed (u.tagLine k).a, b := scrubbed (u.tagLine k).b }) ∧
        t = { u with regs := t.regs, tag := { u.tag with lines := t.tag.lines, powered := true, field := field } })) ∧
    (let comes := u.tag.powered = true ∧ u.sys.mode ≠ .cell ∧ u.tag.field = false;
      (¬comes → exec (.fieldArrival dt) s = .next u) ∧
      (comes → exec (.fieldArrival dt) s = .next { u.raise TAG_STAT_FIELD with tag := { u.tag with field := true } })) ∧
    (let goes := u.tag.powered = true ∧ u.tag.field = true;
      (¬goes → exec (.fieldLoss dt) s = .next u) ∧
      (goes → u.sys.mode ≠ .cell → exec (.fieldLoss dt) s = .next
        { ((u.lower TAG_STAT_FIELD).fset TAG_STAT_FSTATE 0).lower TAG_STAT_FTXN with
          tag := { u.tag with field := false, woken := false, level1 := false, authed := []
                              commit := u.tag.commit.map fun c => { c with answers := false }
                              tuning := u.tag.nextTuning.getD u.tag.tuning, nextTuning := none } }) ∧
      (goes → u.sys.mode = .cell → Completes (.fieldLoss dt) s fun t => t.tag.powered = false ∧ t.tag.field = false ∧
        t.rd TAG_STAT = 0 ∧ t.tag.commit = none ∧ t.tag.apply = none ∧ t.tag.reading = none ∧ t.tag.waiting = none ∧
        t.tag.record = [] ∧ t.tag.tuning = u.tag.tuning)) ∧
    (¬tagHears u → exec (.reqa dt) s = .next u ∧ exec (.wupa dt) s = .next u ∧ exec (.hlta dt) s = .next u ∧
      exec (.tagFrameError dt) s = .next u ∧ ∀ bs, exec (.anticollision dt bs) s = .next u ∧ ∀ l, exec (.select dt l bs) s = .next u) ∧
    (tagHears u →
      exec (.reqa dt) s = .next (if st = 0 then ready false else unexpected u) ∧
      exec (.wupa dt) s = .next (if st = 0 then ready false else if st = 3 then ready true else unexpected u) ∧
      exec (.hlta dt) s = .next (if st = 2 then { u.fset TAG_STAT_FSTATE 3 with tag := { u.tag with authed := [] } } else unexpected u) ∧
      exec (.tagFrameError dt) s = .next (unexpected u) ∧
      (st = 1 → u.tag.level1 = false → exec (.anticollision dt [0x93, 0x20]) s = .next { u with out := u.out ++ [.tag 0 first] }) ∧
      (∀ sel nvb known, fits sel nvb known → exec (.anticollision dt (sel :: nvb :: known)) s = .next { u with
        out := u.out ++ [.tag (bits nvb % 8) ((level.getD (bits nvb / 8) 0 >>> (bits nvb % 8)) :: level.drop (bits nvb / 8 + 1))] }) ∧
      (∀ sel nvb known, ¬fits sel nvb known → exec (.anticollision dt (sel :: nvb :: known)) s = .next (unexpected u)) ∧
      (∀ bs : List Byte, bs.length < 2 → exec (.anticollision dt bs) s = .next (unexpected u)) ∧
      (∀ bs, exec (.select dt 0 bs) s = .next
        (if st = 1 ∧ u.tag.level1 = false ∧ bs = first then { tells u [0x04] with tag := { u.tag with level1 := true } } else unexpected u)) ∧
      (∀ bs, exec (.select dt 1 bs) s = .next
        (if st = 1 ∧ u.tag.level1 = true ∧ bs = second then
          { (tells u [0x00]).fset TAG_STAT_FSTATE 2 with tag := { u.tag with authed := [] } }
         else unexpected u)))

/-- 18 R399-R407, R408-R410, R412, Table 18.5: a command of the field first ends what works on the memory: a wired read
completes, a wired write completes or is abandoned, a commit of a lost field completes. GET_INFO then answers in ACTIVE;
READ and WRITE are refused by line, policy, lock and password in this order, and else answer the line, or begin a commit
where the supply allows, which VDD_AON always does; AUTH counts its attempt first, and answers. A commit ends with its
line in force and the field's response where the field has held; one whose read-back fails ends in silence, on the wire
with VERIFY, and leaves every other line; the commit of an APPLY ends with the configuration in force. A wired operation
is refused by its code or its line, waits while the memory is busy, and else starts; it ends with its data and result. -/
def Obligations.TagMemoryActs : Prop :=
  (∀ (dt : Nat) (bs : List Byte) (s : State),
    let u := s.elapse dt
    let st := u.fget TAG_STAT_FSTATE
    let v := u.fieldBegins
    let locked := fun g => 8 ≤ groupAttempts v g
    let l := beNat (bs.take 2)
    let g := l / 64
    let p := groupPolicy v g
    let low := v.sys.mode = .cell ∧ Config.freeBit v.freeCtr = true
    let answers := fun (i : Instr) (l : List Byte) => exec i s = .next (tells v l).faultWrites
    (∀ t : State, t.tag.record = [] → t.faultWrites = t) ∧
    (u.tag.reading = none → u.tag.commit = none → u.tag.apply = none → v = u) ∧
    (∀ c, u.tag.reading = none → u.tag.apply = none → u.tag.commit = some c → c.field = false → u.powered = true → u.tag.record = [] →
      v.tag.commit = none ∧ v.on TAG_STAT_WBUSY = false ∧ (∀ k, k ≠ c.line → v.tagLine k = u.tagLine k) ∧
      ((v.tagRead c.line = c.data ∧ v.on TAG_EVT_WDONE = true ∧ v.fget TAG_WCMD_ERR = 0) ∨
        (v.on TAG_EVT_WERR = true ∧ v.on TAG_EVT_PREEMPT = true ∧ v.fget TAG_WCMD_ERR = 2))) ∧
    (∀ k, u.tag.reading = some k → u.tag.commit = none → u.tag.apply = none → u.powered = true → u.tag.record = [] →
      v.tag.reading = none ∧ v.on TAG_STAT_WBUSY = false ∧ v.tag.lines = u.tag.lines ∧
      ∀ w < 4, v.rd (TAG_WDATA w) = BitVec.ofNat 64 (leAt (u.tagRead k) (4 * w) 4)) ∧
    (¬tagHears u → exec (.getInfo dt) s = .next u ∧ exec (.tagRead dt bs) s = .next u ∧ exec (.tagWrite dt bs) s = .next u ∧
      exec (.tagAuth dt bs) s = .next u) ∧
    (tagHears u →
      (st ≠ 2 → exec (.getInfo dt) s = .next (unexpected u)) ∧
      (st ≠ 2 ∨ bs.length ≠ 2 → exec (.tagRead dt bs) s = .next (unexpected u)) ∧
      (st ≠ 2 ∨ bs.length ≠ 18 → exec (.tagWrite dt bs) s = .next (unexpected u)) ∧
      (st ≠ 2 ∨ bs.length ≠ 9 → exec (.tagAuth dt bs) s = .next (unexpected u)) ∧
      (st = 2 →
        answers (.getInfo dt) ([0x00, 0x01, 0x02, 0x00] ++ ((List.range 8).map fun g =>
          BitVec.ofNat 8 (groupPolicy v g + (if locked g then 16 else 0) + (if g ∈ v.tag.authed then 32 else 0) +
            (if (groupPassword v g).any (fun b => decide (b ≠ 0)) = true then 64 else 0))) ++ [0, 0, 0, 0, 0]) ∧
        (bs.length = 2 →
          (511 < l → answers (.tagRead dt bs) [5]) ∧ (l ≤ 511 → p % 2 = 0 → answers (.tagRead dt bs) [2]) ∧
          (l ≤ 511 → p % 2 = 1 → locked g → answers (.tagRead dt bs) [3]) ∧
          (l ≤ 511 → p % 2 = 1 → ¬locked g → p / 4 % 2 = 1 → g ∉ v.tag.authed → answers (.tagRead dt bs) [1]) ∧
          (l ≤ 511 → p % 2 = 1 → ¬locked g → p / 4 % 2 = 0 ∨ g ∈ v.tag.authed → answers (.tagRead dt bs) (0 :: v.tagRead l))) ∧
        (bs.length = 18 →
          (511 < l → answers (.tagWrite dt bs) [5]) ∧ (l ≤ 511 → p / 2 % 2 = 0 → answers (.tagWrite dt bs) [2]) ∧
          (l ≤ 511 → p / 2 % 2 = 1 → locked g → answers (.tagWrite dt bs) [3]) ∧
          (l ≤ 511 → p / 2 % 2 = 1 → ¬locked g → p / 8 % 2 = 1 → g ∉ v.tag.authed → answers (.tagWrite dt bs) [1]) ∧
          (l ≤ 511 → p / 2 % 2 = 1 → ¬locked g → p / 8 % 2 = 0 ∨ g ∈ v.tag.authed →
            let w := { v with freeCtr := v.freeCtr + 1 }
            (low → exec (.tagWrite dt bs) s = .next (tells w [6]).faultWrites) ∧
            (¬low → exec (.tagWrite dt bs) s = .next (State.faultWrites { w.raise TAG_STAT_FTXN with
              tag := { v.tag with commit := some { line := l, data := bs.drop 2, field := true } } })))) ∧
        (bs.length = 9 →
          let i := Instr.tagAuth dt bs
          let g := (bs.headD 0).toNat
          let n := groupAttempts v g + 1
          let set := (groupPassword v g).any (fun b => decide (b ≠ 0)) = true
          let counts := (v.tagRead (512 + g)).length = 10 ∧ ¬low ∧ ¬readsBackWrong v 1
          let right := bs.drop 1 = groupPassword v g
          (7 < g → answers i [5]) ∧ (g ≤ 7 → locked g → answers i [3]) ∧ (g ≤ 7 → ¬locked g → ¬set → answers i [2]) ∧
          (g ≤ 7 → ¬locked g → set →
            (low → exec i s = .next (tells { v with freeCtr := v.freeCtr + 1 } [6]).faultWrites) ∧
            (¬low → readsBackWrong v 1 → ThenRecords i s fun t => t.tag.authed = v.tag.authed ∧ t.out = v.out ∧ t.regs = v.regs) ∧
            (counts → right → readsBackWrong v 2 → ThenRecords i s fun t => t.tag.authed = v.tag.authed ∧ groupAttempts t g = n ∧
              t.out = v.out ∧ t.regs = v.regs) ∧
            (counts → right → ¬readsBackWrong v 2 → ThenRecords i s fun t =>
              t.tag.authed = g :: v.tag.authed ∧ groupAttempts t g = 0 ∧ t.out = v.out ++ [.tag 0 ([0] ++ crcA [0])] ∧ t.regs = v.regs) ∧
            (counts → ¬right → ThenRecords i s fun t => t.tag.authed = v.tag.authed ∧ groupAttempts t g = n ∧
              (∀ a : List Byte, a = [4, BitVec.ofNat 8 (8 - n)] → t.out = v.out ++ [.tag 0 (a ++ crcA a)]) ∧
              (v.powered = true → t.on TAG_EVT_AUTH_FAIL = true ∧
                (n = 8 → t.on TAG_EVT_LOCKOUT = true ∧ t.on TAG_FINFO_LVALID = true ∧ t.fget TAG_FINFO_LGRP = g)))))))) ∧
  (∀ (dt : Nat) (s : State),
    let u := s.elapse dt
    (u.tag.powered = false ∨ (u.tag.commit = none ∧ u.tag.apply = none) → exec (.tagCommitDone dt) s = .next u) ∧
    (∀ c, u.tag.powered = true → u.tag.commit = some c →
      let held := fun t : State => t.tag.commit = none ∧ ∀ k, k ≠ c.line → t.tagLine k = u.tagLine k
      (¬readsBackWrong u 0 →
        (c.field = true → ThenRecords (.tagCommitDone dt) s fun t => held t ∧ t.tagRead c.line = c.data ∧ t.on TAG_STAT_FTXN = false ∧
          t.out = u.out ++ (if c.answers = true then [.tag 0 ([0] ++ crcA [0])] else []) ∧
          (u.powered = true → t.on TAG_EVT_FWRITE = true ∧ t.on TAG_FINFO_FVALID = true ∧ t.fget TAG_FINFO_FLINE = c.line % 512)) ∧
        (c.field = false → Completes (.tagCommitDone dt) s fun t => held t ∧ t.tagRead c.line = c.data ∧ t.out = u.out ∧ t.regs = u.regs)) ∧
      (readsBackWrong u 0 → ThenRecords (.tagCommitDone dt) s fun t => held t ∧ t.out = u.out ∧
        (c.field = true → t.on TAG_STAT_FTXN = false ∧ t.regs = (u.lower TAG_STAT_FTXN).regs) ∧
        (c.field = false → t.on TAG_STAT_WBUSY = false ∧ (u.powered = true → t.on TAG_EVT_WERR = true ∧ t.fget TAG_WCMD_ERR = 3)))) ∧
    (∀ k d, u.tag.powered = true → u.tag.commit = none → u.tag.apply = some (k, d) → Completes (.tagCommitDone dt) s fun t =>
      (¬readsBackWrong u 0 → t.tagRead k = d) ∧ (∀ j, j ≠ k → t.tagLine j = u.tagLine j) ∧ t.tag.apply = none ∧
      t.on TAG_GRPCFG_BUSY = false ∧ t.out = u.out) ∧
    (let ends := u.tag.powered = true ∧ u.on TAG_STAT_WBUSY = true ∧ u.tag.commit = none;
      (¬ends → exec (.tagWiredDone dt) s = .next u) ∧
      (ends → u.tag.reading = none → ThenRecords (.tagWiredDone dt) s fun t => t.on TAG_STAT_WBUSY = false ∧
        (u.powered = true → t.on TAG_EVT_WDONE = true ∧ t.fget TAG_WCMD_ERR = 0) ∧ t = { u with regs := t.regs }) ∧
      (∀ k, ends → u.tag.reading = some k → ThenRecords (.tagWiredDone dt) s fun t => t.on TAG_STAT_WBUSY = false ∧ t.tag.reading = none ∧
        (u.powered = true →
          (∀ w < 4, t.rd (TAG_WDATA w) = BitVec.ofNat 64 (leAt (u.tagRead k) (4 * w) 4)) ∧
          ((u.tagLine k).current = none → t.on TAG_EVT_WERR = true ∧ t.fget TAG_WCMD_ERR = 3) ∧
          ((u.tagLine k).current ≠ none → t.on TAG_EVT_WDONE = true ∧ t.fget TAG_WCMD_ERR = 0)))) ∧
    (let free := u.tag.powered = true ∧ u.on TAG_STAT_FTXN = false ∧ u.tag.commit = none;
      (¬free ∨ u.tag.waiting = none → exec (.tagWiredStart dt) s = .next u) ∧
      (∀ write k d, free → u.tag.waiting = some (write, k, d) → exec (.tagWiredStart dt) s = .next
        (if write = true then { (u.raise TAG_STAT_WBUSY).lower TAG_STAT_WWAIT with tag := { u.tag with
          waiting := none, commit := some { line := k, data := d, field := false } } }
         else { (u.raise TAG_STAT_WBUSY).lower TAG_STAT_WWAIT with tag := { u.tag with waiting := none, reading := some k } })))) ∧
  (∀ (a : Acc) (v : Word32) (s : State) (i : Instr), i = .tagWiredRead a v ∨ i = .tagWiredWrite a v ∨ i = .tagWiredInvalid a v →
    let op := v.toNat / 2 ^ 24 % 4
    let l := v.toNat % 512
    let go := v.getLsbD 31
    let w := (s.fset TAG_WCMD_OP op).fset TAG_WCMD_LINE l
    let d := (List.range 4).flatMap fun k => leBytes 4 (s.rd (TAG_WDATA k)).toNat
    let early := s.sys.lc = .blank ∨ s.sys.lc = .manufacture
    let idle := s.on TAG_STAT_WBUSY = false ∧ s.on TAG_STAT_WWAIT = false
    let busy := s.on TAG_STAT_FTXN = true ∨ s.tag.commit ≠ none
    let refused := fun e => (w.fset TAG_WCMD_ERR e).raise TAG_EVT_WERR
    (go = true → ¬idle → Sets i a TAG_WCMD v s s) ∧ (go = false → Sets i a TAG_WCMD v s w) ∧
    (go = true → idle →
      (op ≠ 1 → op ≠ 2 → Sets i a TAG_WCMD v s (refused 4)) ∧
      (op = 2 → l < 64 → ¬early → Sets i a TAG_WCMD v s (refused 1)) ∧
      (op = 1 ∨ (op = 2 ∧ (64 ≤ l ∨ early)) → busy → Sets i a TAG_WCMD v s
        { w.raise TAG_STAT_WWAIT with tag := { s.tag with waiting := some (decide (op = 2), l, d) } }) ∧
      (op = 1 → ¬busy → Sets i a TAG_WCMD v s
        { (w.raise TAG_STAT_WBUSY).lower TAG_STAT_WWAIT with tag := { s.tag with waiting := none, reading := some l } }) ∧
      (op = 2 → 64 ≤ l ∨ early → ¬busy → Sets i a TAG_WCMD v s
        { (w.raise TAG_STAT_WBUSY).lower TAG_STAT_WWAIT with tag := { s.tag with
          waiting := none, commit := some { line := l, data := d, field := false } } }))) ∧
  (∀ (a : Acc) (v : Word32) (s : State),
    let g := s.fget TAG_GRPSEL_GROUP
    let p := v.toNat % 16
    let staged := { s with tag := { s.tag with policy := some p } }
    let early := s.sys.lc = .blank ∨ s.sys.lc = .manufacture
    let pw := match s.tag.password with
      | some w => beBytes 8 w.toNat
      | none => groupPassword s g
    let may := (s.sys.mode = .custody ∨ early) ∧ g ≠ 0 ∧ (p < 4 ∨ ∃ b ∈ pw, b ≠ 0) ∧ s.on TAG_GRPCFG_BUSY = false
    (v.getLsbD 31 = false → Sets (.tagGroupApply a v) a TAG_GRPCFG v s staged) ∧
    (v.getLsbD 31 = true → ¬may → Sets (.tagGroupApply a v) a TAG_GRPCFG v s (staged.raise TAG_GRPCFG_ERR)) ∧
    (v.getLsbD 31 = true → may → Sets (.tagGroupApply a v) a TAG_GRPCFG v s
      { (s.lower TAG_GRPCFG_ERR).raise TAG_GRPCFG_BUSY with tag := { s.tag with
        policy := none, password := none, apply := some (512 + g, BitVec.ofNat 8 p :: padTo 8 pw ++ [0]) } }))

/-! ### Calibration, counters, observation, the TAP (19) -/

/-- The instruction hands the pins to the tester. -/
def Sys2Proof.holdsPins (i : TapInstr) : Prop := i = .extest ∨ i = .clamp ∨ i = .highz

/-- The value of IDCODE (19 R425). -/
def Sys2Proof.idValue (u : State) : Nat := u.fget SYS_ID_STEP_MAJ * 2 ^ 28 + 0x7408 * 2 ^ 12 + Config.jedecId.toNat * 2 + 1

/-- The debug port waits for its capture with an answer: an error, or data (19 R426). `entered` says that the access
entered the interconnect. -/
def Sys2Proof.dapAnswers (u : State) (entered err : Bool) (d : Word32) : State :=
  { u with obs := { u.obs with dap := { u.obs.dap with busy := true, flight := entered, result := some (err, d) } } }

/-- The debug access has ended, and the host has its answer (19 R426). -/
def Sys2Proof.dapTold (u t : State) (err : Bool) (d : Word32) : Prop :=
  t.obs = { u.obs with dap := { err := err, done := true, data := d } } ∧
  t.out = u.out ++ [.tap (d.toNat + (if err = true then 2 ^ 82 else 0) + 2 ^ 83)]

/-- The debug capability covers an aligned word at `addr` and allows the access (19 R426). -/
def Sys2Proof.dcapCovers (u : State) (write : Bool) (addr : Nat) : Prop :=
  permBit ((u.rd OBS_DCAP_PERM).setWidth 16) (if write = true then pW else pR) = true ∧ (u.rd OBS_DCAP_BASE).toNat ≤ addr ∧
    addr + 4 ≤ if (u.rd OBS_DCAP_END).toNat = 0 then 2 ^ 48 else (u.rd OBS_DCAP_END).toNat

/-- 19 R417, R420, R421, R424-R426: CAL_APPLY with GO is accepted in SERVICE, in CUSTODY and in BOOT after step 8 while
no apply runs, and any other write is refused with ERR 5; the switch takes the copy into the other bank with its
registers, or refuses it and changes nothing else; a test of a tamper source delays it. A bandwidth window ends at
multiples of its length and takes the bytes since the last; a snapshot copies every counter in one instant; a GO while
it is still being taken is ignored. A signal that the lifecycle state does not permit is stored and denied. A TAP
instruction that is not permitted loads BYPASS; one that replaces an instruction that held the pins, and the reset of
the TAP, reset the device. A debug access is checked against DCAP and then by the access table, and its answer is
captured when it has ended; none starts before that. The flash array delays the switch as it does any read; the cut-offs
of an overlay take effect with the next window set, and its tuning when no field transaction runs. -/
def Obligations.CalibrationCountersAndTapAct : Prop :=
  (∀ (a : Acc) (v : Word32) (s : State),
    let may := v.getLsbD 31 = true ∧ s.on CAL_STAT_BUSY = false ∧
      (s.sys.mode = .service ∨ s.sys.mode = .custody ∨ (s.sys.mode = .boot ∧ s.sys.stepsDone.getLsbD 8 = true))
    (may → Sets (.calApply a v) a CAL_APPLY v s { s.raise CAL_STAT_BUSY with
      obs := { s.obs with applying := v.toNat % 2 }, flc := { s.flc with calReady := false } }) ∧
    (¬may → Sets (.calApply a v) a CAL_APPLY v s ((s.raise CAL_EVT_APPLY_ERR).wr CAL_OVLSTAT 0x50000000))) ∧
  (∀ (dt : Nat) (s : State),
    let u := s.elapse dt
    let c := u.obs.applying
    let busy := u.on FLC_STAT_BUSY = true ∧ u.on FLC_STAT_SUSP = false ∧ u.fget FLC_STAT_OP ≠ 3
    let due := u.powered = true ∧ u.on CAL_STAT_BUSY = true ∧ u.on TMP_BIST_BUSY = false ∧
      (¬busy ∨ u.flc.calReady = true ∨ u.erasing (0x10070000 + 0x10000 * c) = true)
    let read := (u.lower CAL_STAT_BUSY).overlay c
    let w := read.2
    let b := w.fget CAL_STAT_BANK
    (¬due → exec (.calibrationSwitch dt) s = .next u) ∧
    (∀ o, due → read.1 = .ok o → Completes (.calibrationSwitch dt) s fun t =>
      let item := fun i k => effective w.obs.cells o i k 0
      t.on CAL_STAT_BUSY = false ∧ t.on CAL_STAT_OVL_ACTIVE = true ∧ t.fget CAL_STAT_OVL_COPY = c % 2 ∧ t.fget CAL_STAT_BANK = 1 - b ∧
      t.obs = (if b = 0 then { w.obs with bank1 := o } else { w.obs with bank0 := o }) ∧
      t.rd CAL_OVLSEQ = BitVec.ofNat 64 (w.ovlSeq c) ∧ t.rd CAL_OVLSTAT = 0 ∧ t.on CAL_EVT_APPLIED = true ∧
      (∀ e ∈ [(1, ADM_FETCH_HOT), (2, ADM_FETCH_SEAL), (3, DSP_LDR_CFG), (4, DSP_LDR_MIR)], t.rd e.2 = (item 6 e.1).setWidth 64) ∧
      t.rng = { w.rng with nextCutoff := some ((item 5 0).toNat, (effective w.obs.cells o 5 0 1).toNat) } ∧
      t.tag = (if w.on TAG_STAT_FTXN = true then { w.tag with nextTuning := some ((item 7 0).setWidth 5) }
        else { w.tag with tuning := (item 7 0).setWidth 5, nextTuning := none }) ∧
      t = { w with regs := t.regs, obs := t.obs, rng := t.rng, tag := t.tag }) ∧
    (∀ e n, due → read.1 = .error (e, n) → exec (.calibrationSwitch dt) s = .next
      ((w.raise CAL_EVT_APPLY_ERR).wr CAL_OVLSTAT (BitVec.ofNat 64 (e * 2 ^ 28 + n))))) ∧
  (∀ (dt : Nat) (s : State),
    let u := s.elapse dt
    let ends := u.powered = true ∧ u.tb % (1000 * u.obs.bwWindow) = 0 ∧ u.obs.bwAt ≠ some u.tb
    let cnt := fun e => (u.rd (PMC_CNT e)).toNat
    let took := fun e k => BitVec.ofNat 64 ((cnt e + 2 ^ 48 - sget 0 u.obs.bwBase k) % 2 ^ 48)
    (¬ends → exec (.bandwidthWindowEnd dt) s = .next u) ∧
    (ends → Completes (.bandwidthWindowEnd dt) s fun t =>
      (∀ p < 4, t.rd (PMC_BW_RX p) = took (16 * p + 1) (2 * p) ∧ t.rd (PMC_BW_TX p) = took (16 * p + 3) (2 * p + 1) ∧
        sget 0 t.obs.bwBase (2 * p) = cnt (16 * p + 1) ∧ sget 0 t.obs.bwBase (2 * p + 1) = cnt (16 * p + 3)) ∧
      t.fget PMC_BWSEQ_SEQ = (u.fget PMC_BWSEQ_SEQ + 1) % 2 ^ 32 ∧
      t.obs = { u.obs with bwBase := t.obs.bwBase, bwWindow := u.fget PMC_BWCFG_WINDOW_US, bwAt := some u.tb } ∧
      t = { u with regs := t.regs, obs := t.obs } ∧
      ∀ r, r ≠ PMC_BWSEQ → (∀ p < 4, r ≠ PMC_BW_RX p ∧ r ≠ PMC_BW_TX p) → t.rd r = u.rd r)) ∧
  (∀ (a : Acc) (v : Word32) (s : State),
    let takes := v.getLsbD 31 = true ∧ s.on PMC_SNAP_BUSY = false
    (¬takes → Sets (.pmcSnapshot a v) a PMC_SNAP v s s) ∧
    (takes → Canonical s → MayWrite s a PMC_SNAP v → Completes (.pmcSnapshot a v) s fun t =>
      (∀ e < 0x240, t.rd (PMC_SNAPC e) = if e = 0x057 ∨ e = 0x059 then s.busyShown e else s.rd (PMC_CNT e)) ∧
      t.on PMC_SNAP_BUSY = true ∧ t.rd PMC_SNAPTIME = BitVec.ofNat 64 s.tb ∧
      t = { s with regs := t.regs, obs := { s.obs with snapAt := some s.tb } } ∧
      ∀ r, r ≠ PMC_SNAP → r ≠ PMC_SNAPTIME → r < PMC_SNAPC 0 ∨ PMC_SNAPC 0x240 ≤ r → t.rd r = s.rd r)) ∧
  (∀ s : State, Happens .pmcSnapshotDone s (fun u => u.powered = true ∧ u.on PMC_SNAP_BUSY = true) (fun u => u.lower PMC_SNAP_BUSY)) ∧
  (∀ (a : Acc) (k : Fin 8) (v : Word32) (s : State),
    let w := s.fset (OBS_SEL_SIG k) v.toNat
    let sig := v.toNat % 2 ^ 12
    let open_ := s.sys.lc = .blank ∨ s.sys.lc = .manufacture ∨ s.sys.lc = .returned
    Sets (.obsSelect a k v) a (OBS_SEL k) v s
      (if sig < 0x100 ∨ (sig < 0x400 ∧ s.sys.lc ≠ .field) ∨ open_ then w.lower (OBS_SEL_DENIED k)
       else (w.raise (OBS_SEL_DENIED k)).raise OBS_EVT_SEL_DENY)) ∧
  (∀ code : Byte, (code, tapOf code) ∈ [(0x01, TapInstr.idcode), (0x02, .samplePreload), (0x03, .extest), (0x04, .clamp),
    (0x05, .highz), (0x10, .dap)] ∨ (code ∉ [0x01, 0x02, 0x03, 0x04, 0x05, 0x10] ∧ tapOf code = .bypass)) ∧
  (∀ (dt : Nat) (s : State) (e : (Nat → Instr) × TapInstr),
    e ∈ [(Instr.idcode, .idcode), (Instr.samplePreload, .samplePreload), (Instr.extest, .extest), (Instr.tapClamp, .clamp),
      (Instr.highz, .highz), (Instr.dap, .dap), (Instr.bypass, TapInstr.bypass)] →
    let u := s.elapse dt
    let may := ¬holdsPins e.2 ∨ u.sys.lc = .blank ∨ u.sys.lc = .manufacture ∨ u.sys.lc = .returned ∨ u.fget SYS_BOOTSTAT_STEP < 10 ∨
      u.fget SYS_BOOTSTAT_ERR ≠ 0
    (u.powered = false → exec (e.1 dt) s = .next u) ∧
    (∀ new, u.powered = true → (may ∧ new = e.2) ∨ (¬may ∧ new = .bypass) →
      (¬(holdsPins u.obs.tap ∧ u.obs.tap ≠ new) → Completes (e.1 dt) s fun t =>
        t.obs = { u.obs with tap := new } ∧ t.out = u.out ++ (if e.2 = .idcode then [.tap (idValue u)] else []) ∧
        (may → t.regs = u.regs) ∧ (¬may → t.regs = (u.raise OBS_EVT_TAP_DENY).regs) ∧
        t = { u with regs := t.regs, out := t.out, obs := t.obs }) ∧
      (holdsPins u.obs.tap ∧ u.obs.tap ≠ new → Canonical s → Completes (e.1 dt) s fun t =>
        bootsWith u t 4 ∧ unitsReset u t ∧ t.obs.tap = new ∧ (¬may → t.on OBS_EVT_TAP_DENY = true) ∧
        (e.2 = .idcode → t.out.getLast? = some (.tap (idValue t)))))) ∧
  (∀ (dt : Nat) (s : State), Canonical s →
    let u := s.elapse dt
    (u.powered = false → exec (.tapReset dt) s = .next u) ∧
    (u.powered = true → Completes (.tapReset dt) s fun t => bootsWith u t 4 ∧ unitsReset u t ∧ t.obs.tap = .idcode)) ∧
  (∀ (dt : Nat) (s : State),
    let u := s.elapse dt
    let due := u.powered = true ∧ u.obs.dap.busy = true
    (¬due ∨ (u.obs.dap.waits = none ∧ u.obs.dap.result = none) → exec (.dapAccessDone dt) s = .next u) ∧
    (∀ err d, due → u.obs.dap.waits = none → u.obs.dap.result = some (err, d) → Completes (.dapAccessDone dt) s fun t =>
      dapTold u t err (if err = true then 0 else d) ∧
      (u.stalls .dap = false →
        t = { u with regs := t.regs, out := t.out, obs := t.obs } ∧ (u.obs.dap.old = false → t.regs = u.regs) ∧
        (u.obs.dap.old = true → t.fget ACT_EPOCH_DRAIN_OLD_LIVE = u.fget ACT_EPOCH_DRAIN_OLD_LIVE - 1))) ∧
    (∀ addr x, due → u.obs.dap.waits = some addr → u.busRead ⟨.dap, (u.rd OBS_DCAP_PERM).setWidth 16⟩ addr 4 = x →
      (x.1 = .error .wait → exec (.dapAccessDone dt) s = .next x.2) ∧
      (∀ e, e ≠ .wait → x.1 = .error e → Completes (.dapAccessDone dt) s (dapTold x.2 · true 0)) ∧
      (∀ bs, x.1 = .ok bs → Completes (.dapAccessDone dt) s (dapTold x.2 · false (BitVec.ofNat 32 (leNat bs)))))) ∧
  (∀ (dt : Nat) (addr : BitVec 48) (v : Word32) (s : State),
    let u := s.elapse dt
    let r := addr.toNat / 4 * 4
    let a : Acc := ⟨.dap, (u.rd OBS_DCAP_PERM).setWidth 16⟩
    let ready := u.powered = true ∧ u.obs.tap = .dap ∧ u.obs.dap.busy = false
    (¬ready → exec (.dapRead dt addr) s = .next u ∧ exec (.dapWrite dt addr v) s = .next u) ∧
    (ready → ¬dcapCovers u false r → exec (.dapRead dt addr) s = .next (dapAnswers (u.raise OBS_EVT_DCAP_FAULT) false true 0)) ∧
    (ready → ¬dcapCovers u true r → exec (.dapWrite dt addr v) s = .next (dapAnswers (u.raise OBS_EVT_DCAP_FAULT) false true 0)) ∧
    (ready → dcapCovers u false r →
      let waited := u.stallOf .dap r .read ≠ none
      (∀ d, u.actCheck a r .read = some d → inRegs r = true ∨ ¬waited →
        exec (.dapRead dt addr) s = .next (dapAnswers (u.violate a r .read d) false true 0)) ∧
      (u.actCheck a r .read = none ∨ waited → inRegs r = false →
        let waits := inFlash r = true ∧ u.mustWait .dap r .read = true
        (u.readable r = false ∨ u.erasing r = true → exec (.dapRead dt addr) s = .next (dapAnswers u true true 0)) ∧
        (u.readable r = true → u.erasing r = false → waits → exec (.dapRead dt addr) s = .next
          { u.stall .dap r .read with obs := { u.obs with dap := { u.obs.dap with busy := true, flight := true, waits := some r } } }) ∧
        (u.readable r = true → u.erasing r = false → ¬waits →
          (u.damagedAt .bus r 4 = false → exec (.dapRead dt addr) s = .next (dapAnswers
            (if inFlash r = true then u.flashRead.serve .dap r .read else u) true false (BitVec.ofNat 32 (leNat (u.loadBytes r 4))))) ∧
          (u.damagedAt .bus r 4 = true → Completes (.dapRead dt addr) s fun t =>
            t.obs = { u.obs with dap := { u.obs.dap with busy := true, flight := true, result := some (true, 0) } }))) ∧
      (∀ k : Fin 8, u.actCheck a r .read = none → r = OBS_SEL k →
        exec (.dapRead dt addr) s = .next (dapAnswers u true false ((u.rd r).setWidth 32)))) ∧
    (ready → dcapCovers u true r →
      (∀ d, u.actCheck a r .write = some d → exec (.dapWrite dt addr v) s = .next (dapAnswers (u.violate a r .write d) false true 0)) ∧
      (u.actCheck a r .write = none → inRegs r = false →
        (u.writable r = false → exec (.dapWrite dt addr v) s = .next (dapAnswers u true true 0)) ∧
        (u.writable r = true → exec (.dapWrite dt addr v) s = .next (dapAnswers (u.storeBytes r (leBytes 4 v.toNat)) true false 0)))))
end

