-- ==== Sys2Proof/Laws/Sparse.lean ====
section
/-!
SUPPORT. Laws/Sparse.lean: reading after writing in a sparse map, and that every operation keeps its canonical form.
-/

namespace Sys2Proof.Machine

variable {α : Type}

/-! ### Reading -/

theorem sget_serase_self (d : α) (m : Sparse α) (k : Nat) : sget d (serase k m) k = d := by
  induction m with
  | nil => rfl
  | cons e t ih =>
    obtain ⟨k', v'⟩ := e
    by_cases h : k' = k <;> simp [serase, sget, h, ih]

theorem sget_serase_ne (d : α) (m : Sparse α) {k j : Nat} (h : j ≠ k) : sget d (serase k m) j = sget d m j := by
  induction m with
  | nil => rfl
  | cons e t ih =>
    obtain ⟨k', v'⟩ := e
    by_cases hk : k' = k
    · subst hk
      simp [serase, sget, ih, h.symm]
    · simp [serase, sget, hk, ih]

theorem sget_sinsert_self (d : α) (m : Sparse α) (k : Nat) (v : α) (h : ∀ e ∈ m, e.1 ≠ k) :
    sget d (sinsert k v m) k = v := by
  induction m with
  | nil => simp [sinsert, sget]
  | cons e t ih =>
    obtain ⟨k', v'⟩ := e
    have hk : k' ≠ k := h (k', v') List.mem_cons_self
    by_cases hlt : k < k'
    · simp [sinsert, sget, hlt]
    · simp [sinsert, sget, hlt, hk, ih fun e he => h e (List.mem_cons_of_mem _ he)]

theorem sget_sinsert_ne (d : α) (m : Sparse α) {k j : Nat} (v : α) (h : j ≠ k) :
    sget d (sinsert k v m) j = sget d m j := by
  induction m with
  | nil => simp [sinsert, sget, h.symm]
  | cons e t ih =>
    obtain ⟨k', v'⟩ := e
    by_cases hlt : k < k'
    · simp [sinsert, sget, hlt, h.symm]
    · simp [sinsert, sget, hlt, ih]

theorem ne_of_mem_serase {m : Sparse α} {k : Nat} : ∀ e ∈ serase k m, e.1 ≠ k := by
  induction m with
  | nil => simp [serase]
  | cons e t ih =>
    obtain ⟨k', v'⟩ := e
    by_cases h : k' = k
    · simpa [serase, h] using ih
    · intro e he
      simp only [serase, h, if_false, List.mem_cons] at he
      rcases he with rfl | he
      · exact h
      · exact ih e he

/-- A read after a write to the same key gives the value written. -/
@[simp] theorem sget_sput_self [DecidableEq α] (d : α) (m : Sparse α) (k : Nat) (v : α) :
    sget d (sput d m k v) k = v := by
  unfold sput
  split
  · next h => rw [h, sget_serase_self]
  · exact sget_sinsert_self _ _ _ _ ne_of_mem_serase

/-- A write leaves every other key alone. -/
theorem sget_sput_ne [DecidableEq α] (d d' : α) (m : Sparse α) {k j : Nat} (v : α) (h : j ≠ k) :
    sget d (sput d' m k v) j = sget d m j := by
  unfold sput
  split
  · exact sget_serase_ne _ _ h
  · rw [sget_sinsert_ne _ _ _ h, sget_serase_ne _ _ h]

/-- Reading after a write, in one equation. -/
theorem sget_sput [DecidableEq α] (d : α) (m : Sparse α) (k j : Nat) (v : α) :
    sget d (sput d m k v) j = if j = k then v else sget d m j := by
  split
  · next h => rw [h, sget_sput_self]
  · next h => exact sget_sput_ne _ _ _ _ h

/-! ### The canonical form -/

/-- Strictly rising keys, as a statement about pairs. -/
theorem keysRise_iff (m : Sparse α) : keysRise m = true ↔ m.Pairwise (fun a b => a.1 < b.1) := by
  induction m with
  | nil => simp [keysRise]
  | cons a t ih =>
    cases t with
    | nil => simp [keysRise]
    | cons b t =>
      obtain ⟨k, v⟩ := a
      obtain ⟨k', v'⟩ := b
      rw [List.pairwise_cons, ← ih]
      simp only [keysRise, Bool.and_eq_true, decide_eq_true_eq, List.mem_cons, forall_eq_or_imp]
      constructor
      · rintro ⟨h, ht⟩
        refine ⟨⟨h, fun e he => ?_⟩, ht⟩
        rw [ih, List.pairwise_cons] at ht
        exact Nat.lt_trans h (ht.1 e he)
      · rintro ⟨⟨h, _⟩, ht⟩
        exact ⟨h, ht⟩

theorem swf_iff [DecidableEq α] (d : Nat → α) (m : Sparse α) :
    swf d m = true ↔ m.Pairwise (fun a b => a.1 < b.1) ∧ ∀ e ∈ m, e.2 ≠ d e.1 := by
  simp [swf, keysRise_iff, List.all_eq_true]

theorem serase_eq_filter (m : Sparse α) (k : Nat) : serase k m = m.filter fun e => decide (e.1 ≠ k) := by
  induction m with
  | nil => rfl
  | cons e t ih =>
    obtain ⟨k', v'⟩ := e
    by_cases h : k' = k <;> simp [serase, h, ih]

theorem mem_sinsert {m : Sparse α} {k : Nat} {v : α} {e : Nat × α} : e ∈ sinsert k v m → e = (k, v) ∨ e ∈ m := by
  induction m with
  | nil => simp [sinsert]
  | cons a t ih =>
    obtain ⟨k', v'⟩ := a
    by_cases h : k < k'
    · simp [sinsert, h]
    · simp only [sinsert, h, if_false, List.mem_cons]
      rintro (rfl | he)
      · exact Or.inr (Or.inl rfl)
      · rcases ih he with rfl | he
        · exact Or.inl rfl
        · exact Or.inr (Or.inr he)

theorem sinsert_rises {m : Sparse α} {k : Nat} {v : α} (hm : m.Pairwise (fun a b => a.1 < b.1))
    (hk : ∀ e ∈ m, e.1 ≠ k) : (sinsert k v m).Pairwise (fun a b => a.1 < b.1) := by
  induction m with
  | nil => simp [sinsert]
  | cons a t ih =>
    obtain ⟨k', v'⟩ := a
    rw [List.pairwise_cons] at hm
    by_cases h : k < k'
    · simp only [sinsert, h, if_true]
      refine List.pairwise_cons.2 ⟨fun e he => ?_, List.pairwise_cons.2 hm⟩
      rcases List.mem_cons.1 he with rfl | he
      · exact h
      · exact Nat.lt_trans h (hm.1 e he)
    · simp only [sinsert, h, if_false]
      refine List.pairwise_cons.2 ⟨fun e he => ?_, ih hm.2 fun e he => hk e (List.mem_cons_of_mem _ he)⟩
      rcases mem_sinsert he with rfl | he
      · have := hk (k', v') List.mem_cons_self
        simp at this h ⊢
        omega
      · exact hm.1 e he

/-- Dropping entries keeps the canonical form. -/
theorem swf_filter [DecidableEq α] {d : Nat → α} {m : Sparse α} (p : Nat × α → Bool) (h : swf d m = true) :
    swf d (m.filter p) = true := by
  rw [swf_iff] at *
  exact ⟨h.1.filter p, fun e he => h.2 e (List.mem_of_mem_filter he)⟩

/-- A write keeps the canonical form. -/
theorem swf_sput [DecidableEq α] {d : Nat → α} {m : Sparse α} (k : Nat) (v : α) (h : swf d m = true) :
    swf d (sput (d k) m k v) = true := by
  have he : swf d (serase k m) = true := by rw [serase_eq_filter]; exact swf_filter _ h
  unfold sput
  split
  · exact he
  · next hv =>
    rw [swf_iff] at *
    refine ⟨sinsert_rises he.1 ne_of_mem_serase, fun e hm => ?_⟩
    rcases mem_sinsert hm with rfl | hm
    · exact hv
    · exact he.2 e hm

/-- The empty map has the canonical form. -/
@[simp] theorem swf_nil [DecidableEq α] (d : Nat → α) : swf d ([] : Sparse α) = true := rfl

/-- Writes one after the other keep the canonical form. -/
theorem swf_foldl_sput [DecidableEq α] {d : Nat → α} {β : Type} (l : List β) (k : β → Nat) (v : β → α) {m : Sparse α}
    (h : swf d m = true) : swf d (l.foldl (fun m e => sput (d (k e)) m (k e) (v e)) m) = true := by
  induction l generalizing m with
  | nil => exact h
  | cons e t ih => exact ih (swf_sput _ _ h)

/-- Two maps in canonical form that read alike are equal. -/
theorem swf_ext [DecidableEq α] {d : Nat → α} {m n : Sparse α} (hm : swf d m = true) (hn : swf d n = true)
    (h : ∀ k, sget (d k) m k = sget (d k) n k) : m = n := by
  induction m generalizing n with
  | nil =>
    cases n with
    | nil => rfl
    | cons b t =>
      have := h b.1
      rw [swf_iff] at hn
      simp only [sget, if_true] at this
      exact absurd this.symm (hn.2 b List.mem_cons_self)
  | cons a t ih =>
    rw [swf_iff] at hm
    obtain ⟨hmr, hmd⟩ := hm
    rw [List.pairwise_cons] at hmr
    have below : ∀ (l : Sparse α) (j : Nat), (∀ e ∈ l, j < e.1) → sget (d j) l j = d j := by
      intro l j hl
      induction l with
      | nil => rfl
      | cons e l ihl =>
        have h1 : j < e.1 := hl e List.mem_cons_self
        simp only [sget, if_neg (Nat.ne_of_gt h1)]
        exact ihl fun e he => hl e (List.mem_cons_of_mem _ he)
    cases n with
    | nil =>
      have := h a.1
      simp only [sget, if_true] at this
      exact absurd this (hmd a List.mem_cons_self)
    | cons b u =>
      have hn' := hn
      rw [swf_iff] at hn
      obtain ⟨hnr, hnd⟩ := hn
      rw [List.pairwise_cons] at hnr
      have hkey : a.1 = b.1 := by
        rcases Nat.lt_trichotomy a.1 b.1 with hlt | heq | hgt
        · have h1 := h a.1
          rw [below (b :: u) a.1 fun e he => by
            rcases List.mem_cons.1 he with rfl | he
            · exact hlt
            · exact Nat.lt_trans hlt (hnr.1 e he)] at h1
          simp only [sget, if_true] at h1
          exact absurd h1 (hmd a List.mem_cons_self)
        · exact heq
        · have h1 := h b.1
          rw [below (a :: t) b.1 fun e he => by
            rcases List.mem_cons.1 he with rfl | he
            · exact hgt
            · exact Nat.lt_trans hgt (hmr.1 e he)] at h1
          simp only [sget, if_true] at h1
          exact absurd h1.symm (hnd b List.mem_cons_self)
      have hval : a.2 = b.2 := by
        have h1 := h a.1
        simpa [sget, hkey] using h1
      have hab : a = b := Prod.ext hkey hval
      subst hab
      congr 1
      refine ih ((swf_iff _ _).2 ⟨hmr.2, fun e he => hmd e (List.mem_cons_of_mem _ he)⟩)
        ((swf_iff _ _).2 ⟨hnr.2, fun e he => hnd e (List.mem_cons_of_mem _ he)⟩) fun k => ?_
      by_cases hk : a.1 = k
      · rw [← hk, below t a.1 hmr.1, below u a.1 hnr.1]
      · simpa [sget, hk] using h k

end Sys2Proof.Machine
end

