-- ==== Sys2Proof/Laws/State.lean ====
section
/-!
SUPPORT. Laws/State.lean: for each update of the state that the meanings are built from, what it leaves in each field of
`State`. The proofs read `by rfl` so that simp rewrites with them step by step; a chain of updates closed by one `rfl`
makes the kernel compare whole states.
-/

namespace Sys2Proof.Machine

/-! ### wr -/

@[simp] theorem State.wr_regs (s : State) (a : Nat) (v : Word) : (s.wr a v).regs = sput 0 s.regs a v := by rfl
@[simp] theorem State.wr_heldLow (s : State) (a : Nat) (v : Word) : (s.wr a v).heldLow = s.heldLow := by rfl
@[simp] theorem State.wr_latchHigh (s : State) (a : Nat) (v : Word) : (s.wr a v).latchHigh = s.latchHigh := by rfl
@[simp] theorem State.wr_mem (s : State) (a : Nat) (v : Word) : (s.wr a v).mem = s.mem := by rfl
@[simp] theorem State.wr_tags (s : State) (a : Nat) (v : Word) : (s.wr a v).tags = s.tags := by rfl
@[simp] theorem State.wr_damaged (s : State) (a : Nat) (v : Word) : (s.wr a v).damaged = s.damaged := by rfl
@[simp] theorem State.wr_tb (s : State) (a : Nat) (v : Word) : (s.wr a v).tb = s.tb := by rfl
@[simp] theorem State.wr_tbRem (s : State) (a : Nat) (v : Word) : (s.wr a v).tbRem = s.tbRem := by rfl
@[simp] theorem State.wr_rate (s : State) (a : Nat) (v : Word) : (s.wr a v).rate = s.rate := by rfl
@[simp] theorem State.wr_clock (s : State) (a : Nat) (v : Word) : (s.wr a v).clock = s.clock := by rfl
@[simp] theorem State.wr_cores (s : State) (a : Nat) (v : Word) : (s.wr a v).cores = s.cores := by rfl
@[simp] theorem State.wr_svc (s : State) (a : Nat) (v : Word) : (s.wr a v).svc = s.svc := by rfl
@[simp] theorem State.wr_adm (s : State) (a : Nat) (v : Word) : (s.wr a v).adm = s.adm := by rfl
@[simp] theorem State.wr_dsp (s : State) (a : Nat) (v : Word) : (s.wr a v).dsp = s.dsp := by rfl
@[simp] theorem State.wr_kst (s : State) (a : Nat) (v : Word) : (s.wr a v).kst = s.kst := by rfl
@[simp] theorem State.wr_duo (s : State) (a : Nat) (v : Word) : (s.wr a v).duo = s.duo := by rfl
@[simp] theorem State.wr_sys (s : State) (a : Nat) (v : Word) : (s.wr a v).sys = s.sys := by rfl
@[simp] theorem State.wr_flc (s : State) (a : Nat) (v : Word) : (s.wr a v).flc = s.flc := by rfl
@[simp] theorem State.wr_flt (s : State) (a : Nat) (v : Word) : (s.wr a v).flt = s.flt := by rfl
@[simp] theorem State.wr_wck (s : State) (a : Nat) (v : Word) : (s.wr a v).wck = s.wck := by rfl
@[simp] theorem State.wr_crd (s : State) (a : Nat) (v : Word) : (s.wr a v).crd = s.crd := by rfl
@[simp] theorem State.wr_tag (s : State) (a : Nat) (v : Word) : (s.wr a v).tag = s.tag := by rfl
@[simp] theorem State.wr_obs (s : State) (a : Nat) (v : Word) : (s.wr a v).obs = s.obs := by rfl
@[simp] theorem State.wr_cphQ (s : State) (a : Nat) (v : Word) : (s.wr a v).cphQ = s.cphQ := by rfl
@[simp] theorem State.wr_mauQ (s : State) (a : Nat) (v : Word) : (s.wr a v).mauQ = s.mauQ := by rfl
@[simp] theorem State.wr_cph (s : State) (a : Nat) (v : Word) : (s.wr a v).cph = s.cph := by rfl
@[simp] theorem State.wr_mau (s : State) (a : Nat) (v : Word) : (s.wr a v).mau = s.mau := by rfl
@[simp] theorem State.wr_cphTake (s : State) (a : Nat) (v : Word) : (s.wr a v).cphTake = s.cphTake := by rfl
@[simp] theorem State.wr_mauBuf (s : State) (a : Nat) (v : Word) : (s.wr a v).mauBuf = s.mauBuf := by rfl
@[simp] theorem State.wr_rng (s : State) (a : Nat) (v : Word) : (s.wr a v).rng = s.rng := by rfl
@[simp] theorem State.wr_tscRem (s : State) (a : Nat) (v : Word) : (s.wr a v).tscRem = s.tscRem := by rfl
@[simp] theorem State.wr_freeCtr (s : State) (a : Nat) (v : Word) : (s.wr a v).freeCtr = s.freeCtr := by rfl
@[simp] theorem State.wr_out (s : State) (a : Nat) (v : Word) : (s.wr a v).out = s.out := by rfl
@[simp] theorem State.wr_lastRead (s : State) (a : Nat) (v : Word) : (s.wr a v).lastRead = s.lastRead := by rfl
@[simp] theorem State.wr_pending (s : State) (a : Nat) (v : Word) : (s.wr a v).pending = s.pending := by rfl

/-! ### fset -/

@[simp] theorem State.fset_heldLow (s : State) (f : Fld) (v : Nat) : (s.fset f v).heldLow = s.heldLow := by rfl
@[simp] theorem State.fset_latchHigh (s : State) (f : Fld) (v : Nat) : (s.fset f v).latchHigh = s.latchHigh := by rfl
@[simp] theorem State.fset_mem (s : State) (f : Fld) (v : Nat) : (s.fset f v).mem = s.mem := by rfl
@[simp] theorem State.fset_tags (s : State) (f : Fld) (v : Nat) : (s.fset f v).tags = s.tags := by rfl
@[simp] theorem State.fset_damaged (s : State) (f : Fld) (v : Nat) : (s.fset f v).damaged = s.damaged := by rfl
@[simp] theorem State.fset_tb (s : State) (f : Fld) (v : Nat) : (s.fset f v).tb = s.tb := by rfl
@[simp] theorem State.fset_tbRem (s : State) (f : Fld) (v : Nat) : (s.fset f v).tbRem = s.tbRem := by rfl
@[simp] theorem State.fset_rate (s : State) (f : Fld) (v : Nat) : (s.fset f v).rate = s.rate := by rfl
@[simp] theorem State.fset_clock (s : State) (f : Fld) (v : Nat) : (s.fset f v).clock = s.clock := by rfl
@[simp] theorem State.fset_cores (s : State) (f : Fld) (v : Nat) : (s.fset f v).cores = s.cores := by rfl
@[simp] theorem State.fset_svc (s : State) (f : Fld) (v : Nat) : (s.fset f v).svc = s.svc := by rfl
@[simp] theorem State.fset_adm (s : State) (f : Fld) (v : Nat) : (s.fset f v).adm = s.adm := by rfl
@[simp] theorem State.fset_dsp (s : State) (f : Fld) (v : Nat) : (s.fset f v).dsp = s.dsp := by rfl
@[simp] theorem State.fset_kst (s : State) (f : Fld) (v : Nat) : (s.fset f v).kst = s.kst := by rfl
@[simp] theorem State.fset_duo (s : State) (f : Fld) (v : Nat) : (s.fset f v).duo = s.duo := by rfl
@[simp] theorem State.fset_sys (s : State) (f : Fld) (v : Nat) : (s.fset f v).sys = s.sys := by rfl
@[simp] theorem State.fset_flc (s : State) (f : Fld) (v : Nat) : (s.fset f v).flc = s.flc := by rfl
@[simp] theorem State.fset_flt (s : State) (f : Fld) (v : Nat) : (s.fset f v).flt = s.flt := by rfl
@[simp] theorem State.fset_wck (s : State) (f : Fld) (v : Nat) : (s.fset f v).wck = s.wck := by rfl
@[simp] theorem State.fset_crd (s : State) (f : Fld) (v : Nat) : (s.fset f v).crd = s.crd := by rfl
@[simp] theorem State.fset_tag (s : State) (f : Fld) (v : Nat) : (s.fset f v).tag = s.tag := by rfl
@[simp] theorem State.fset_obs (s : State) (f : Fld) (v : Nat) : (s.fset f v).obs = s.obs := by rfl
@[simp] theorem State.fset_cphQ (s : State) (f : Fld) (v : Nat) : (s.fset f v).cphQ = s.cphQ := by rfl
@[simp] theorem State.fset_mauQ (s : State) (f : Fld) (v : Nat) : (s.fset f v).mauQ = s.mauQ := by rfl
@[simp] theorem State.fset_cph (s : State) (f : Fld) (v : Nat) : (s.fset f v).cph = s.cph := by rfl
@[simp] theorem State.fset_mau (s : State) (f : Fld) (v : Nat) : (s.fset f v).mau = s.mau := by rfl
@[simp] theorem State.fset_cphTake (s : State) (f : Fld) (v : Nat) : (s.fset f v).cphTake = s.cphTake := by rfl
@[simp] theorem State.fset_mauBuf (s : State) (f : Fld) (v : Nat) : (s.fset f v).mauBuf = s.mauBuf := by rfl
@[simp] theorem State.fset_rng (s : State) (f : Fld) (v : Nat) : (s.fset f v).rng = s.rng := by rfl
@[simp] theorem State.fset_tscRem (s : State) (f : Fld) (v : Nat) : (s.fset f v).tscRem = s.tscRem := by rfl
@[simp] theorem State.fset_freeCtr (s : State) (f : Fld) (v : Nat) : (s.fset f v).freeCtr = s.freeCtr := by rfl
@[simp] theorem State.fset_out (s : State) (f : Fld) (v : Nat) : (s.fset f v).out = s.out := by rfl
@[simp] theorem State.fset_lastRead (s : State) (f : Fld) (v : Nat) : (s.fset f v).lastRead = s.lastRead := by rfl
@[simp] theorem State.fset_pending (s : State) (f : Fld) (v : Nat) : (s.fset f v).pending = s.pending := by rfl

/-! ### raise -/

@[simp] theorem State.raise_heldLow (s : State) (f : Fld) : (s.raise f).heldLow = s.heldLow := by rfl
@[simp] theorem State.raise_latchHigh (s : State) (f : Fld) : (s.raise f).latchHigh = s.latchHigh := by rfl
@[simp] theorem State.raise_mem (s : State) (f : Fld) : (s.raise f).mem = s.mem := by rfl
@[simp] theorem State.raise_tags (s : State) (f : Fld) : (s.raise f).tags = s.tags := by rfl
@[simp] theorem State.raise_damaged (s : State) (f : Fld) : (s.raise f).damaged = s.damaged := by rfl
@[simp] theorem State.raise_tb (s : State) (f : Fld) : (s.raise f).tb = s.tb := by rfl
@[simp] theorem State.raise_tbRem (s : State) (f : Fld) : (s.raise f).tbRem = s.tbRem := by rfl
@[simp] theorem State.raise_rate (s : State) (f : Fld) : (s.raise f).rate = s.rate := by rfl
@[simp] theorem State.raise_clock (s : State) (f : Fld) : (s.raise f).clock = s.clock := by rfl
@[simp] theorem State.raise_cores (s : State) (f : Fld) : (s.raise f).cores = s.cores := by rfl
@[simp] theorem State.raise_svc (s : State) (f : Fld) : (s.raise f).svc = s.svc := by rfl
@[simp] theorem State.raise_adm (s : State) (f : Fld) : (s.raise f).adm = s.adm := by rfl
@[simp] theorem State.raise_dsp (s : State) (f : Fld) : (s.raise f).dsp = s.dsp := by rfl
@[simp] theorem State.raise_kst (s : State) (f : Fld) : (s.raise f).kst = s.kst := by rfl
@[simp] theorem State.raise_duo (s : State) (f : Fld) : (s.raise f).duo = s.duo := by rfl
@[simp] theorem State.raise_sys (s : State) (f : Fld) : (s.raise f).sys = s.sys := by rfl
@[simp] theorem State.raise_flc (s : State) (f : Fld) : (s.raise f).flc = s.flc := by rfl
@[simp] theorem State.raise_flt (s : State) (f : Fld) : (s.raise f).flt = s.flt := by rfl
@[simp] theorem State.raise_wck (s : State) (f : Fld) : (s.raise f).wck = s.wck := by rfl
@[simp] theorem State.raise_crd (s : State) (f : Fld) : (s.raise f).crd = s.crd := by rfl
@[simp] theorem State.raise_tag (s : State) (f : Fld) : (s.raise f).tag = s.tag := by rfl
@[simp] theorem State.raise_obs (s : State) (f : Fld) : (s.raise f).obs = s.obs := by rfl
@[simp] theorem State.raise_cphQ (s : State) (f : Fld) : (s.raise f).cphQ = s.cphQ := by rfl
@[simp] theorem State.raise_mauQ (s : State) (f : Fld) : (s.raise f).mauQ = s.mauQ := by rfl
@[simp] theorem State.raise_cph (s : State) (f : Fld) : (s.raise f).cph = s.cph := by rfl
@[simp] theorem State.raise_mau (s : State) (f : Fld) : (s.raise f).mau = s.mau := by rfl
@[simp] theorem State.raise_cphTake (s : State) (f : Fld) : (s.raise f).cphTake = s.cphTake := by rfl
@[simp] theorem State.raise_mauBuf (s : State) (f : Fld) : (s.raise f).mauBuf = s.mauBuf := by rfl
@[simp] theorem State.raise_rng (s : State) (f : Fld) : (s.raise f).rng = s.rng := by rfl
@[simp] theorem State.raise_tscRem (s : State) (f : Fld) : (s.raise f).tscRem = s.tscRem := by rfl
@[simp] theorem State.raise_freeCtr (s : State) (f : Fld) : (s.raise f).freeCtr = s.freeCtr := by rfl
@[simp] theorem State.raise_out (s : State) (f : Fld) : (s.raise f).out = s.out := by rfl
@[simp] theorem State.raise_lastRead (s : State) (f : Fld) : (s.raise f).lastRead = s.lastRead := by rfl
@[simp] theorem State.raise_pending (s : State) (f : Fld) : (s.raise f).pending = s.pending := by rfl

/-! ### lower -/

@[simp] theorem State.lower_heldLow (s : State) (f : Fld) : (s.lower f).heldLow = s.heldLow := by rfl
@[simp] theorem State.lower_latchHigh (s : State) (f : Fld) : (s.lower f).latchHigh = s.latchHigh := by rfl
@[simp] theorem State.lower_mem (s : State) (f : Fld) : (s.lower f).mem = s.mem := by rfl
@[simp] theorem State.lower_tags (s : State) (f : Fld) : (s.lower f).tags = s.tags := by rfl
@[simp] theorem State.lower_damaged (s : State) (f : Fld) : (s.lower f).damaged = s.damaged := by rfl
@[simp] theorem State.lower_tb (s : State) (f : Fld) : (s.lower f).tb = s.tb := by rfl
@[simp] theorem State.lower_tbRem (s : State) (f : Fld) : (s.lower f).tbRem = s.tbRem := by rfl
@[simp] theorem State.lower_rate (s : State) (f : Fld) : (s.lower f).rate = s.rate := by rfl
@[simp] theorem State.lower_clock (s : State) (f : Fld) : (s.lower f).clock = s.clock := by rfl
@[simp] theorem State.lower_cores (s : State) (f : Fld) : (s.lower f).cores = s.cores := by rfl
@[simp] theorem State.lower_svc (s : State) (f : Fld) : (s.lower f).svc = s.svc := by rfl
@[simp] theorem State.lower_adm (s : State) (f : Fld) : (s.lower f).adm = s.adm := by rfl
@[simp] theorem State.lower_dsp (s : State) (f : Fld) : (s.lower f).dsp = s.dsp := by rfl
@[simp] theorem State.lower_kst (s : State) (f : Fld) : (s.lower f).kst = s.kst := by rfl
@[simp] theorem State.lower_duo (s : State) (f : Fld) : (s.lower f).duo = s.duo := by rfl
@[simp] theorem State.lower_sys (s : State) (f : Fld) : (s.lower f).sys = s.sys := by rfl
@[simp] theorem State.lower_flc (s : State) (f : Fld) : (s.lower f).flc = s.flc := by rfl
@[simp] theorem State.lower_flt (s : State) (f : Fld) : (s.lower f).flt = s.flt := by rfl
@[simp] theorem State.lower_wck (s : State) (f : Fld) : (s.lower f).wck = s.wck := by rfl
@[simp] theorem State.lower_crd (s : State) (f : Fld) : (s.lower f).crd = s.crd := by rfl
@[simp] theorem State.lower_tag (s : State) (f : Fld) : (s.lower f).tag = s.tag := by rfl
@[simp] theorem State.lower_obs (s : State) (f : Fld) : (s.lower f).obs = s.obs := by rfl
@[simp] theorem State.lower_cphQ (s : State) (f : Fld) : (s.lower f).cphQ = s.cphQ := by rfl
@[simp] theorem State.lower_mauQ (s : State) (f : Fld) : (s.lower f).mauQ = s.mauQ := by rfl
@[simp] theorem State.lower_cph (s : State) (f : Fld) : (s.lower f).cph = s.cph := by rfl
@[simp] theorem State.lower_mau (s : State) (f : Fld) : (s.lower f).mau = s.mau := by rfl
@[simp] theorem State.lower_cphTake (s : State) (f : Fld) : (s.lower f).cphTake = s.cphTake := by rfl
@[simp] theorem State.lower_mauBuf (s : State) (f : Fld) : (s.lower f).mauBuf = s.mauBuf := by rfl
@[simp] theorem State.lower_rng (s : State) (f : Fld) : (s.lower f).rng = s.rng := by rfl
@[simp] theorem State.lower_tscRem (s : State) (f : Fld) : (s.lower f).tscRem = s.tscRem := by rfl
@[simp] theorem State.lower_freeCtr (s : State) (f : Fld) : (s.lower f).freeCtr = s.freeCtr := by rfl
@[simp] theorem State.lower_out (s : State) (f : Fld) : (s.lower f).out = s.out := by rfl
@[simp] theorem State.lower_lastRead (s : State) (f : Fld) : (s.lower f).lastRead = s.lastRead := by rfl
@[simp] theorem State.lower_pending (s : State) (f : Fld) : (s.lower f).pending = s.pending := by rfl

/-! ### put -/

@[simp] theorem State.put_heldLow (s : State) (f : Fld) (b : Bool) : (s.put f b).heldLow = s.heldLow := by rfl
@[simp] theorem State.put_latchHigh (s : State) (f : Fld) (b : Bool) : (s.put f b).latchHigh = s.latchHigh := by rfl
@[simp] theorem State.put_mem (s : State) (f : Fld) (b : Bool) : (s.put f b).mem = s.mem := by rfl
@[simp] theorem State.put_tags (s : State) (f : Fld) (b : Bool) : (s.put f b).tags = s.tags := by rfl
@[simp] theorem State.put_damaged (s : State) (f : Fld) (b : Bool) : (s.put f b).damaged = s.damaged := by rfl
@[simp] theorem State.put_tb (s : State) (f : Fld) (b : Bool) : (s.put f b).tb = s.tb := by rfl
@[simp] theorem State.put_tbRem (s : State) (f : Fld) (b : Bool) : (s.put f b).tbRem = s.tbRem := by rfl
@[simp] theorem State.put_rate (s : State) (f : Fld) (b : Bool) : (s.put f b).rate = s.rate := by rfl
@[simp] theorem State.put_clock (s : State) (f : Fld) (b : Bool) : (s.put f b).clock = s.clock := by rfl
@[simp] theorem State.put_cores (s : State) (f : Fld) (b : Bool) : (s.put f b).cores = s.cores := by rfl
@[simp] theorem State.put_svc (s : State) (f : Fld) (b : Bool) : (s.put f b).svc = s.svc := by rfl
@[simp] theorem State.put_adm (s : State) (f : Fld) (b : Bool) : (s.put f b).adm = s.adm := by rfl
@[simp] theorem State.put_dsp (s : State) (f : Fld) (b : Bool) : (s.put f b).dsp = s.dsp := by rfl
@[simp] theorem State.put_kst (s : State) (f : Fld) (b : Bool) : (s.put f b).kst = s.kst := by rfl
@[simp] theorem State.put_duo (s : State) (f : Fld) (b : Bool) : (s.put f b).duo = s.duo := by rfl
@[simp] theorem State.put_sys (s : State) (f : Fld) (b : Bool) : (s.put f b).sys = s.sys := by rfl
@[simp] theorem State.put_flc (s : State) (f : Fld) (b : Bool) : (s.put f b).flc = s.flc := by rfl
@[simp] theorem State.put_flt (s : State) (f : Fld) (b : Bool) : (s.put f b).flt = s.flt := by rfl
@[simp] theorem State.put_wck (s : State) (f : Fld) (b : Bool) : (s.put f b).wck = s.wck := by rfl
@[simp] theorem State.put_crd (s : State) (f : Fld) (b : Bool) : (s.put f b).crd = s.crd := by rfl
@[simp] theorem State.put_tag (s : State) (f : Fld) (b : Bool) : (s.put f b).tag = s.tag := by rfl
@[simp] theorem State.put_obs (s : State) (f : Fld) (b : Bool) : (s.put f b).obs = s.obs := by rfl
@[simp] theorem State.put_cphQ (s : State) (f : Fld) (b : Bool) : (s.put f b).cphQ = s.cphQ := by rfl
@[simp] theorem State.put_mauQ (s : State) (f : Fld) (b : Bool) : (s.put f b).mauQ = s.mauQ := by rfl
@[simp] theorem State.put_cph (s : State) (f : Fld) (b : Bool) : (s.put f b).cph = s.cph := by rfl
@[simp] theorem State.put_mau (s : State) (f : Fld) (b : Bool) : (s.put f b).mau = s.mau := by rfl
@[simp] theorem State.put_cphTake (s : State) (f : Fld) (b : Bool) : (s.put f b).cphTake = s.cphTake := by rfl
@[simp] theorem State.put_mauBuf (s : State) (f : Fld) (b : Bool) : (s.put f b).mauBuf = s.mauBuf := by rfl
@[simp] theorem State.put_rng (s : State) (f : Fld) (b : Bool) : (s.put f b).rng = s.rng := by rfl
@[simp] theorem State.put_tscRem (s : State) (f : Fld) (b : Bool) : (s.put f b).tscRem = s.tscRem := by rfl
@[simp] theorem State.put_freeCtr (s : State) (f : Fld) (b : Bool) : (s.put f b).freeCtr = s.freeCtr := by rfl
@[simp] theorem State.put_out (s : State) (f : Fld) (b : Bool) : (s.put f b).out = s.out := by rfl
@[simp] theorem State.put_lastRead (s : State) (f : Fld) (b : Bool) : (s.put f b).lastRead = s.lastRead := by rfl
@[simp] theorem State.put_pending (s : State) (f : Fld) (b : Bool) : (s.put f b).pending = s.pending := by rfl

/-! ### drawn -/

@[simp] theorem State.drawn_regs (s : State) (n : Nat) : (s.drawn n).regs = s.regs := by rfl
@[simp] theorem State.drawn_heldLow (s : State) (n : Nat) : (s.drawn n).heldLow = s.heldLow := by rfl
@[simp] theorem State.drawn_latchHigh (s : State) (n : Nat) : (s.drawn n).latchHigh = s.latchHigh := by rfl
@[simp] theorem State.drawn_mem (s : State) (n : Nat) : (s.drawn n).mem = s.mem := by rfl
@[simp] theorem State.drawn_tags (s : State) (n : Nat) : (s.drawn n).tags = s.tags := by rfl
@[simp] theorem State.drawn_damaged (s : State) (n : Nat) : (s.drawn n).damaged = s.damaged := by rfl
@[simp] theorem State.drawn_tb (s : State) (n : Nat) : (s.drawn n).tb = s.tb := by rfl
@[simp] theorem State.drawn_tbRem (s : State) (n : Nat) : (s.drawn n).tbRem = s.tbRem := by rfl
@[simp] theorem State.drawn_rate (s : State) (n : Nat) : (s.drawn n).rate = s.rate := by rfl
@[simp] theorem State.drawn_clock (s : State) (n : Nat) : (s.drawn n).clock = s.clock := by rfl
@[simp] theorem State.drawn_cores (s : State) (n : Nat) : (s.drawn n).cores = s.cores := by rfl
@[simp] theorem State.drawn_svc (s : State) (n : Nat) : (s.drawn n).svc = s.svc := by rfl
@[simp] theorem State.drawn_adm (s : State) (n : Nat) : (s.drawn n).adm = s.adm := by rfl
@[simp] theorem State.drawn_dsp (s : State) (n : Nat) : (s.drawn n).dsp = s.dsp := by rfl
@[simp] theorem State.drawn_kst (s : State) (n : Nat) : (s.drawn n).kst = s.kst := by rfl
@[simp] theorem State.drawn_duo (s : State) (n : Nat) : (s.drawn n).duo = s.duo := by rfl
@[simp] theorem State.drawn_sys (s : State) (n : Nat) : (s.drawn n).sys = s.sys := by rfl
@[simp] theorem State.drawn_flc (s : State) (n : Nat) : (s.drawn n).flc = s.flc := by rfl
@[simp] theorem State.drawn_flt (s : State) (n : Nat) : (s.drawn n).flt = s.flt := by rfl
@[simp] theorem State.drawn_wck (s : State) (n : Nat) : (s.drawn n).wck = s.wck := by rfl
@[simp] theorem State.drawn_crd (s : State) (n : Nat) : (s.drawn n).crd = s.crd := by rfl
@[simp] theorem State.drawn_tag (s : State) (n : Nat) : (s.drawn n).tag = s.tag := by rfl
@[simp] theorem State.drawn_obs (s : State) (n : Nat) : (s.drawn n).obs = s.obs := by rfl
@[simp] theorem State.drawn_cphQ (s : State) (n : Nat) : (s.drawn n).cphQ = s.cphQ := by rfl
@[simp] theorem State.drawn_mauQ (s : State) (n : Nat) : (s.drawn n).mauQ = s.mauQ := by rfl
@[simp] theorem State.drawn_cph (s : State) (n : Nat) : (s.drawn n).cph = s.cph := by rfl
@[simp] theorem State.drawn_mau (s : State) (n : Nat) : (s.drawn n).mau = s.mau := by rfl
@[simp] theorem State.drawn_cphTake (s : State) (n : Nat) : (s.drawn n).cphTake = s.cphTake := by rfl
@[simp] theorem State.drawn_mauBuf (s : State) (n : Nat) : (s.drawn n).mauBuf = s.mauBuf := by rfl
@[simp] theorem State.drawn_rng (s : State) (n : Nat) : (s.drawn n).rng = s.rng := by rfl
@[simp] theorem State.drawn_tscRem (s : State) (n : Nat) : (s.drawn n).tscRem = s.tscRem := by rfl
@[simp] theorem State.drawn_freeCtr (s : State) (n : Nat) : (s.drawn n).freeCtr = s.freeCtr + n := by rfl
@[simp] theorem State.drawn_out (s : State) (n : Nat) : (s.drawn n).out = s.out := by rfl
@[simp] theorem State.drawn_lastRead (s : State) (n : Nat) : (s.drawn n).lastRead = s.lastRead := by rfl
@[simp] theorem State.drawn_pending (s : State) (n : Nat) : (s.drawn n).pending = s.pending := by rfl

/-! ### emit -/

@[simp] theorem State.emit_regs (s : State) (e : OutEvent) : (s.emit e).regs = s.regs := by rfl
@[simp] theorem State.emit_heldLow (s : State) (e : OutEvent) : (s.emit e).heldLow = s.heldLow := by rfl
@[simp] theorem State.emit_latchHigh (s : State) (e : OutEvent) : (s.emit e).latchHigh = s.latchHigh := by rfl
@[simp] theorem State.emit_mem (s : State) (e : OutEvent) : (s.emit e).mem = s.mem := by rfl
@[simp] theorem State.emit_tags (s : State) (e : OutEvent) : (s.emit e).tags = s.tags := by rfl
@[simp] theorem State.emit_damaged (s : State) (e : OutEvent) : (s.emit e).damaged = s.damaged := by rfl
@[simp] theorem State.emit_tb (s : State) (e : OutEvent) : (s.emit e).tb = s.tb := by rfl
@[simp] theorem State.emit_tbRem (s : State) (e : OutEvent) : (s.emit e).tbRem = s.tbRem := by rfl
@[simp] theorem State.emit_rate (s : State) (e : OutEvent) : (s.emit e).rate = s.rate := by rfl
@[simp] theorem State.emit_clock (s : State) (e : OutEvent) : (s.emit e).clock = s.clock := by rfl
@[simp] theorem State.emit_cores (s : State) (e : OutEvent) : (s.emit e).cores = s.cores := by rfl
@[simp] theorem State.emit_svc (s : State) (e : OutEvent) : (s.emit e).svc = s.svc := by rfl
@[simp] theorem State.emit_adm (s : State) (e : OutEvent) : (s.emit e).adm = s.adm := by rfl
@[simp] theorem State.emit_dsp (s : State) (e : OutEvent) : (s.emit e).dsp = s.dsp := by rfl
@[simp] theorem State.emit_kst (s : State) (e : OutEvent) : (s.emit e).kst = s.kst := by rfl
@[simp] theorem State.emit_duo (s : State) (e : OutEvent) : (s.emit e).duo = s.duo := by rfl
@[simp] theorem State.emit_sys (s : State) (e : OutEvent) : (s.emit e).sys = s.sys := by rfl
@[simp] theorem State.emit_flc (s : State) (e : OutEvent) : (s.emit e).flc = s.flc := by rfl
@[simp] theorem State.emit_flt (s : State) (e : OutEvent) : (s.emit e).flt = s.flt := by rfl
@[simp] theorem State.emit_wck (s : State) (e : OutEvent) : (s.emit e).wck = s.wck := by rfl
@[simp] theorem State.emit_crd (s : State) (e : OutEvent) : (s.emit e).crd = s.crd := by rfl
@[simp] theorem State.emit_tag (s : State) (e : OutEvent) : (s.emit e).tag = s.tag := by rfl
@[simp] theorem State.emit_obs (s : State) (e : OutEvent) : (s.emit e).obs = s.obs := by rfl
@[simp] theorem State.emit_cphQ (s : State) (e : OutEvent) : (s.emit e).cphQ = s.cphQ := by rfl
@[simp] theorem State.emit_mauQ (s : State) (e : OutEvent) : (s.emit e).mauQ = s.mauQ := by rfl
@[simp] theorem State.emit_cph (s : State) (e : OutEvent) : (s.emit e).cph = s.cph := by rfl
@[simp] theorem State.emit_mau (s : State) (e : OutEvent) : (s.emit e).mau = s.mau := by rfl
@[simp] theorem State.emit_cphTake (s : State) (e : OutEvent) : (s.emit e).cphTake = s.cphTake := by rfl
@[simp] theorem State.emit_mauBuf (s : State) (e : OutEvent) : (s.emit e).mauBuf = s.mauBuf := by rfl
@[simp] theorem State.emit_rng (s : State) (e : OutEvent) : (s.emit e).rng = s.rng := by rfl
@[simp] theorem State.emit_tscRem (s : State) (e : OutEvent) : (s.emit e).tscRem = s.tscRem := by rfl
@[simp] theorem State.emit_freeCtr (s : State) (e : OutEvent) : (s.emit e).freeCtr = s.freeCtr := by rfl
@[simp] theorem State.emit_out (s : State) (e : OutEvent) : (s.emit e).out = s.out ++ [e] := by rfl
@[simp] theorem State.emit_lastRead (s : State) (e : OutEvent) : (s.emit e).lastRead = s.lastRead := by rfl
@[simp] theorem State.emit_pending (s : State) (e : OutEvent) : (s.emit e).pending = s.pending := by rfl

/-! ### setCtx -/

@[simp] theorem State.setCtx_regs (s : State) (c : Nat) (x : Ctx) : (s.setCtx c x).regs = s.regs := by rfl
@[simp] theorem State.setCtx_heldLow (s : State) (c : Nat) (x : Ctx) : (s.setCtx c x).heldLow = s.heldLow := by rfl
@[simp] theorem State.setCtx_latchHigh (s : State) (c : Nat) (x : Ctx) : (s.setCtx c x).latchHigh = s.latchHigh := by rfl
@[simp] theorem State.setCtx_mem (s : State) (c : Nat) (x : Ctx) : (s.setCtx c x).mem = s.mem := by rfl
@[simp] theorem State.setCtx_tags (s : State) (c : Nat) (x : Ctx) : (s.setCtx c x).tags = s.tags := by rfl
@[simp] theorem State.setCtx_damaged (s : State) (c : Nat) (x : Ctx) : (s.setCtx c x).damaged = s.damaged := by rfl
@[simp] theorem State.setCtx_tb (s : State) (c : Nat) (x : Ctx) : (s.setCtx c x).tb = s.tb := by rfl
@[simp] theorem State.setCtx_tbRem (s : State) (c : Nat) (x : Ctx) : (s.setCtx c x).tbRem = s.tbRem := by rfl
@[simp] theorem State.setCtx_rate (s : State) (c : Nat) (x : Ctx) : (s.setCtx c x).rate = s.rate := by rfl
@[simp] theorem State.setCtx_clock (s : State) (c : Nat) (x : Ctx) : (s.setCtx c x).clock = s.clock := by rfl
@[simp] theorem State.setCtx_cores (s : State) (c : Nat) (x : Ctx) : (s.setCtx c x).cores = s.cores := by rfl
@[simp] theorem State.setCtx_svc (s : State) (c : Nat) (x : Ctx) : (s.setCtx c x).svc = s.svc := by rfl
@[simp] theorem State.setCtx_adm (s : State) (c : Nat) (x : Ctx) : (s.setCtx c x).adm = s.adm := by rfl
@[simp] theorem State.setCtx_dsp (s : State) (c : Nat) (x : Ctx) : (s.setCtx c x).dsp = { s.dsp with ctxs := sput {} s.dsp.ctxs c x } := by rfl
@[simp] theorem State.setCtx_kst (s : State) (c : Nat) (x : Ctx) : (s.setCtx c x).kst = s.kst := by rfl
@[simp] theorem State.setCtx_duo (s : State) (c : Nat) (x : Ctx) : (s.setCtx c x).duo = s.duo := by rfl
@[simp] theorem State.setCtx_sys (s : State) (c : Nat) (x : Ctx) : (s.setCtx c x).sys = s.sys := by rfl
@[simp] theorem State.setCtx_flc (s : State) (c : Nat) (x : Ctx) : (s.setCtx c x).flc = s.flc := by rfl
@[simp] theorem State.setCtx_flt (s : State) (c : Nat) (x : Ctx) : (s.setCtx c x).flt = s.flt := by rfl
@[simp] theorem State.setCtx_wck (s : State) (c : Nat) (x : Ctx) : (s.setCtx c x).wck = s.wck := by rfl
@[simp] theorem State.setCtx_crd (s : State) (c : Nat) (x : Ctx) : (s.setCtx c x).crd = s.crd := by rfl
@[simp] theorem State.setCtx_tag (s : State) (c : Nat) (x : Ctx) : (s.setCtx c x).tag = s.tag := by rfl
@[simp] theorem State.setCtx_obs (s : State) (c : Nat) (x : Ctx) : (s.setCtx c x).obs = s.obs := by rfl
@[simp] theorem State.setCtx_cphQ (s : State) (c : Nat) (x : Ctx) : (s.setCtx c x).cphQ = s.cphQ := by rfl
@[simp] theorem State.setCtx_mauQ (s : State) (c : Nat) (x : Ctx) : (s.setCtx c x).mauQ = s.mauQ := by rfl
@[simp] theorem State.setCtx_cph (s : State) (c : Nat) (x : Ctx) : (s.setCtx c x).cph = s.cph := by rfl
@[simp] theorem State.setCtx_mau (s : State) (c : Nat) (x : Ctx) : (s.setCtx c x).mau = s.mau := by rfl
@[simp] theorem State.setCtx_cphTake (s : State) (c : Nat) (x : Ctx) : (s.setCtx c x).cphTake = s.cphTake := by rfl
@[simp] theorem State.setCtx_mauBuf (s : State) (c : Nat) (x : Ctx) : (s.setCtx c x).mauBuf = s.mauBuf := by rfl
@[simp] theorem State.setCtx_rng (s : State) (c : Nat) (x : Ctx) : (s.setCtx c x).rng = s.rng := by rfl
@[simp] theorem State.setCtx_tscRem (s : State) (c : Nat) (x : Ctx) : (s.setCtx c x).tscRem = s.tscRem := by rfl
@[simp] theorem State.setCtx_freeCtr (s : State) (c : Nat) (x : Ctx) : (s.setCtx c x).freeCtr = s.freeCtr := by rfl
@[simp] theorem State.setCtx_out (s : State) (c : Nat) (x : Ctx) : (s.setCtx c x).out = s.out := by rfl
@[simp] theorem State.setCtx_lastRead (s : State) (c : Nat) (x : Ctx) : (s.setCtx c x).lastRead = s.lastRead := by rfl
@[simp] theorem State.setCtx_pending (s : State) (c : Nat) (x : Ctx) : (s.setCtx c x).pending = s.pending := by rfl

/-! ### storeBytes -/

@[simp] theorem State.storeBytes_regs (s : State) (a : Nat) (bs : List Byte) : (s.storeBytes a bs).regs = s.regs := by rfl
@[simp] theorem State.storeBytes_heldLow (s : State) (a : Nat) (bs : List Byte) : (s.storeBytes a bs).heldLow = s.heldLow := by rfl
@[simp] theorem State.storeBytes_latchHigh (s : State) (a : Nat) (bs : List Byte) : (s.storeBytes a bs).latchHigh = s.latchHigh := by rfl
@[simp] theorem State.storeBytes_mem (s : State) (a : Nat) (bs : List Byte) : (s.storeBytes a bs).mem = memWrite s.mem a bs := by rfl
@[simp] theorem State.storeBytes_tb (s : State) (a : Nat) (bs : List Byte) : (s.storeBytes a bs).tb = s.tb := by rfl
@[simp] theorem State.storeBytes_tbRem (s : State) (a : Nat) (bs : List Byte) : (s.storeBytes a bs).tbRem = s.tbRem := by rfl
@[simp] theorem State.storeBytes_rate (s : State) (a : Nat) (bs : List Byte) : (s.storeBytes a bs).rate = s.rate := by rfl
@[simp] theorem State.storeBytes_clock (s : State) (a : Nat) (bs : List Byte) : (s.storeBytes a bs).clock = s.clock := by rfl
@[simp] theorem State.storeBytes_cores (s : State) (a : Nat) (bs : List Byte) : (s.storeBytes a bs).cores = s.cores := by rfl
@[simp] theorem State.storeBytes_svc (s : State) (a : Nat) (bs : List Byte) : (s.storeBytes a bs).svc = s.svc := by rfl
@[simp] theorem State.storeBytes_adm (s : State) (a : Nat) (bs : List Byte) : (s.storeBytes a bs).adm = s.adm := by rfl
@[simp] theorem State.storeBytes_dsp (s : State) (a : Nat) (bs : List Byte) : (s.storeBytes a bs).dsp = s.dsp := by rfl
@[simp] theorem State.storeBytes_kst (s : State) (a : Nat) (bs : List Byte) : (s.storeBytes a bs).kst = s.kst := by rfl
@[simp] theorem State.storeBytes_duo (s : State) (a : Nat) (bs : List Byte) : (s.storeBytes a bs).duo = s.duo := by rfl
@[simp] theorem State.storeBytes_sys (s : State) (a : Nat) (bs : List Byte) : (s.storeBytes a bs).sys = s.sys := by rfl
@[simp] theorem State.storeBytes_flc (s : State) (a : Nat) (bs : List Byte) : (s.storeBytes a bs).flc = s.flc := by rfl
@[simp] theorem State.storeBytes_flt (s : State) (a : Nat) (bs : List Byte) : (s.storeBytes a bs).flt = s.flt := by rfl
@[simp] theorem State.storeBytes_wck (s : State) (a : Nat) (bs : List Byte) : (s.storeBytes a bs).wck = s.wck := by rfl
@[simp] theorem State.storeBytes_crd (s : State) (a : Nat) (bs : List Byte) : (s.storeBytes a bs).crd = s.crd := by rfl
@[simp] theorem State.storeBytes_tag (s : State) (a : Nat) (bs : List Byte) : (s.storeBytes a bs).tag = s.tag := by rfl
@[simp] theorem State.storeBytes_obs (s : State) (a : Nat) (bs : List Byte) : (s.storeBytes a bs).obs = s.obs := by rfl
@[simp] theorem State.storeBytes_cphQ (s : State) (a : Nat) (bs : List Byte) : (s.storeBytes a bs).cphQ = s.cphQ := by rfl
@[simp] theorem State.storeBytes_mauQ (s : State) (a : Nat) (bs : List Byte) : (s.storeBytes a bs).mauQ = s.mauQ := by rfl
@[simp] theorem State.storeBytes_cph (s : State) (a : Nat) (bs : List Byte) : (s.storeBytes a bs).cph = s.cph := by rfl
@[simp] theorem State.storeBytes_mau (s : State) (a : Nat) (bs : List Byte) : (s.storeBytes a bs).mau = s.mau := by rfl
@[simp] theorem State.storeBytes_cphTake (s : State) (a : Nat) (bs : List Byte) : (s.storeBytes a bs).cphTake = s.cphTake := by rfl
@[simp] theorem State.storeBytes_mauBuf (s : State) (a : Nat) (bs : List Byte) : (s.storeBytes a bs).mauBuf = s.mauBuf := by rfl
@[simp] theorem State.storeBytes_rng (s : State) (a : Nat) (bs : List Byte) : (s.storeBytes a bs).rng = s.rng := by rfl
@[simp] theorem State.storeBytes_tscRem (s : State) (a : Nat) (bs : List Byte) : (s.storeBytes a bs).tscRem = s.tscRem := by rfl
@[simp] theorem State.storeBytes_freeCtr (s : State) (a : Nat) (bs : List Byte) : (s.storeBytes a bs).freeCtr = s.freeCtr := by rfl
@[simp] theorem State.storeBytes_out (s : State) (a : Nat) (bs : List Byte) : (s.storeBytes a bs).out = s.out := by rfl
@[simp] theorem State.storeBytes_lastRead (s : State) (a : Nat) (bs : List Byte) : (s.storeBytes a bs).lastRead = s.lastRead := by rfl
@[simp] theorem State.storeBytes_pending (s : State) (a : Nat) (bs : List Byte) : (s.storeBytes a bs).pending = s.pending := by rfl

/-! ### setCore -/

@[simp] theorem State.setCore_regs (s : State) (h : Hart) (x : Core) : (s.setCore h x).regs = s.regs := by
  cases h
  case svc k => simp only [State.setCore]; split <;> rfl
  all_goals rfl
@[simp] theorem State.setCore_heldLow (s : State) (h : Hart) (x : Core) : (s.setCore h x).heldLow = s.heldLow := by
  cases h
  case svc k => simp only [State.setCore]; split <;> rfl
  all_goals rfl
@[simp] theorem State.setCore_latchHigh (s : State) (h : Hart) (x : Core) : (s.setCore h x).latchHigh = s.latchHigh := by
  cases h
  case svc k => simp only [State.setCore]; split <;> rfl
  all_goals rfl
@[simp] theorem State.setCore_mem (s : State) (h : Hart) (x : Core) : (s.setCore h x).mem = s.mem := by
  cases h
  case svc k => simp only [State.setCore]; split <;> rfl
  all_goals rfl
@[simp] theorem State.setCore_tags (s : State) (h : Hart) (x : Core) : (s.setCore h x).tags = s.tags := by
  cases h
  case svc k => simp only [State.setCore]; split <;> rfl
  all_goals rfl
@[simp] theorem State.setCore_damaged (s : State) (h : Hart) (x : Core) : (s.setCore h x).damaged = s.damaged := by
  cases h
  case svc k => simp only [State.setCore]; split <;> rfl
  all_goals rfl
@[simp] theorem State.setCore_tb (s : State) (h : Hart) (x : Core) : (s.setCore h x).tb = s.tb := by
  cases h
  case svc k => simp only [State.setCore]; split <;> rfl
  all_goals rfl
@[simp] theorem State.setCore_tbRem (s : State) (h : Hart) (x : Core) : (s.setCore h x).tbRem = s.tbRem := by
  cases h
  case svc k => simp only [State.setCore]; split <;> rfl
  all_goals rfl
@[simp] theorem State.setCore_rate (s : State) (h : Hart) (x : Core) : (s.setCore h x).rate = s.rate := by
  cases h
  case svc k => simp only [State.setCore]; split <;> rfl
  all_goals rfl
@[simp] theorem State.setCore_clock (s : State) (h : Hart) (x : Core) : (s.setCore h x).clock = s.clock := by
  cases h
  case svc k => simp only [State.setCore]; split <;> rfl
  all_goals rfl
@[simp] theorem State.setCore_svc (s : State) (h : Hart) (x : Core) : (s.setCore h x).svc = s.svc := by
  cases h
  case svc k => simp only [State.setCore]; split <;> rfl
  all_goals rfl
@[simp] theorem State.setCore_adm (s : State) (h : Hart) (x : Core) : (s.setCore h x).adm = s.adm := by
  cases h
  case svc k => simp only [State.setCore]; split <;> rfl
  all_goals rfl
@[simp] theorem State.setCore_kst (s : State) (h : Hart) (x : Core) : (s.setCore h x).kst = s.kst := by
  cases h
  case svc k => simp only [State.setCore]; split <;> rfl
  all_goals rfl
@[simp] theorem State.setCore_duo (s : State) (h : Hart) (x : Core) : (s.setCore h x).duo = s.duo := by
  cases h
  case svc k => simp only [State.setCore]; split <;> rfl
  all_goals rfl
@[simp] theorem State.setCore_sys (s : State) (h : Hart) (x : Core) : (s.setCore h x).sys = s.sys := by
  cases h
  case svc k => simp only [State.setCore]; split <;> rfl
  all_goals rfl
@[simp] theorem State.setCore_flc (s : State) (h : Hart) (x : Core) : (s.setCore h x).flc = s.flc := by
  cases h
  case svc k => simp only [State.setCore]; split <;> rfl
  all_goals rfl
@[simp] theorem State.setCore_flt (s : State) (h : Hart) (x : Core) : (s.setCore h x).flt = s.flt := by
  cases h
  case svc k => simp only [State.setCore]; split <;> rfl
  all_goals rfl
@[simp] theorem State.setCore_wck (s : State) (h : Hart) (x : Core) : (s.setCore h x).wck = s.wck := by
  cases h
  case svc k => simp only [State.setCore]; split <;> rfl
  all_goals rfl
@[simp] theorem State.setCore_crd (s : State) (h : Hart) (x : Core) : (s.setCore h x).crd = s.crd := by
  cases h
  case svc k => simp only [State.setCore]; split <;> rfl
  all_goals rfl
@[simp] theorem State.setCore_tag (s : State) (h : Hart) (x : Core) : (s.setCore h x).tag = s.tag := by
  cases h
  case svc k => simp only [State.setCore]; split <;> rfl
  all_goals rfl
@[simp] theorem State.setCore_obs (s : State) (h : Hart) (x : Core) : (s.setCore h x).obs = s.obs := by
  cases h
  case svc k => simp only [State.setCore]; split <;> rfl
  all_goals rfl
@[simp] theorem State.setCore_cphQ (s : State) (h : Hart) (x : Core) : (s.setCore h x).cphQ = s.cphQ := by
  cases h
  case svc k => simp only [State.setCore]; split <;> rfl
  all_goals rfl
@[simp] theorem State.setCore_mauQ (s : State) (h : Hart) (x : Core) : (s.setCore h x).mauQ = s.mauQ := by
  cases h
  case svc k => simp only [State.setCore]; split <;> rfl
  all_goals rfl
@[simp] theorem State.setCore_cph (s : State) (h : Hart) (x : Core) : (s.setCore h x).cph = s.cph := by
  cases h
  case svc k => simp only [State.setCore]; split <;> rfl
  all_goals rfl
@[simp] theorem State.setCore_mau (s : State) (h : Hart) (x : Core) : (s.setCore h x).mau = s.mau := by
  cases h
  case svc k => simp only [State.setCore]; split <;> rfl
  all_goals rfl
@[simp] theorem State.setCore_cphTake (s : State) (h : Hart) (x : Core) : (s.setCore h x).cphTake = s.cphTake := by
  cases h
  case svc k => simp only [State.setCore]; split <;> rfl
  all_goals rfl
@[simp] theorem State.setCore_mauBuf (s : State) (h : Hart) (x : Core) : (s.setCore h x).mauBuf = s.mauBuf := by
  cases h
  case svc k => simp only [State.setCore]; split <;> rfl
  all_goals rfl
@[simp] theorem State.setCore_rng (s : State) (h : Hart) (x : Core) : (s.setCore h x).rng = s.rng := by
  cases h
  case svc k => simp only [State.setCore]; split <;> rfl
  all_goals rfl
@[simp] theorem State.setCore_tscRem (s : State) (h : Hart) (x : Core) : (s.setCore h x).tscRem = s.tscRem := by
  cases h
  case svc k => simp only [State.setCore]; split <;> rfl
  all_goals rfl
@[simp] theorem State.setCore_freeCtr (s : State) (h : Hart) (x : Core) : (s.setCore h x).freeCtr = s.freeCtr := by
  cases h
  case svc k => simp only [State.setCore]; split <;> rfl
  all_goals rfl
@[simp] theorem State.setCore_out (s : State) (h : Hart) (x : Core) : (s.setCore h x).out = s.out := by
  cases h
  case svc k => simp only [State.setCore]; split <;> rfl
  all_goals rfl
@[simp] theorem State.setCore_lastRead (s : State) (h : Hart) (x : Core) : (s.setCore h x).lastRead = s.lastRead := by
  cases h
  case svc k => simp only [State.setCore]; split <;> rfl
  all_goals rfl
@[simp] theorem State.setCore_pending (s : State) (h : Hart) (x : Core) : (s.setCore h x).pending = s.pending := by
  cases h
  case svc k => simp only [State.setCore]; split <;> rfl
  all_goals rfl

/-! ### tscTick -/

@[simp] theorem State.tscTick_heldLow (s : State) (dt : Nat) : (s.tscTick dt).heldLow = s.heldLow := by
  unfold State.tscTick; split <;> rfl
@[simp] theorem State.tscTick_latchHigh (s : State) (dt : Nat) : (s.tscTick dt).latchHigh = s.latchHigh := by
  unfold State.tscTick; split <;> rfl
@[simp] theorem State.tscTick_mem (s : State) (dt : Nat) : (s.tscTick dt).mem = s.mem := by
  unfold State.tscTick; split <;> rfl
@[simp] theorem State.tscTick_tags (s : State) (dt : Nat) : (s.tscTick dt).tags = s.tags := by
  unfold State.tscTick; split <;> rfl
@[simp] theorem State.tscTick_damaged (s : State) (dt : Nat) : (s.tscTick dt).damaged = s.damaged := by
  unfold State.tscTick; split <;> rfl
@[simp] theorem State.tscTick_tb (s : State) (dt : Nat) : (s.tscTick dt).tb = s.tb := by
  unfold State.tscTick; split <;> rfl
@[simp] theorem State.tscTick_tbRem (s : State) (dt : Nat) : (s.tscTick dt).tbRem = s.tbRem := by
  unfold State.tscTick; split <;> rfl
@[simp] theorem State.tscTick_rate (s : State) (dt : Nat) : (s.tscTick dt).rate = s.rate := by
  unfold State.tscTick; split <;> rfl
@[simp] theorem State.tscTick_clock (s : State) (dt : Nat) : (s.tscTick dt).clock = s.clock := by
  unfold State.tscTick; split <;> rfl
@[simp] theorem State.tscTick_cores (s : State) (dt : Nat) : (s.tscTick dt).cores = s.cores := by
  unfold State.tscTick; split <;> rfl
@[simp] theorem State.tscTick_svc (s : State) (dt : Nat) : (s.tscTick dt).svc = s.svc := by
  unfold State.tscTick; split <;> rfl
@[simp] theorem State.tscTick_adm (s : State) (dt : Nat) : (s.tscTick dt).adm = s.adm := by
  unfold State.tscTick; split <;> rfl
@[simp] theorem State.tscTick_dsp (s : State) (dt : Nat) : (s.tscTick dt).dsp = s.dsp := by
  unfold State.tscTick; split <;> rfl
@[simp] theorem State.tscTick_kst (s : State) (dt : Nat) : (s.tscTick dt).kst = s.kst := by
  unfold State.tscTick; split <;> rfl
@[simp] theorem State.tscTick_duo (s : State) (dt : Nat) : (s.tscTick dt).duo = s.duo := by
  unfold State.tscTick; split <;> rfl
@[simp] theorem State.tscTick_sys (s : State) (dt : Nat) : (s.tscTick dt).sys = s.sys := by
  unfold State.tscTick; split <;> rfl
@[simp] theorem State.tscTick_flc (s : State) (dt : Nat) : (s.tscTick dt).flc = s.flc := by
  unfold State.tscTick; split <;> rfl
@[simp] theorem State.tscTick_flt (s : State) (dt : Nat) : (s.tscTick dt).flt = s.flt := by
  unfold State.tscTick; split <;> rfl
@[simp] theorem State.tscTick_wck (s : State) (dt : Nat) : (s.tscTick dt).wck = s.wck := by
  unfold State.tscTick; split <;> rfl
@[simp] theorem State.tscTick_crd (s : State) (dt : Nat) : (s.tscTick dt).crd = s.crd := by
  unfold State.tscTick; split <;> rfl
@[simp] theorem State.tscTick_tag (s : State) (dt : Nat) : (s.tscTick dt).tag = s.tag := by
  unfold State.tscTick; split <;> rfl
@[simp] theorem State.tscTick_obs (s : State) (dt : Nat) : (s.tscTick dt).obs = s.obs := by
  unfold State.tscTick; split <;> rfl
@[simp] theorem State.tscTick_cphQ (s : State) (dt : Nat) : (s.tscTick dt).cphQ = s.cphQ := by
  unfold State.tscTick; split <;> rfl
@[simp] theorem State.tscTick_mauQ (s : State) (dt : Nat) : (s.tscTick dt).mauQ = s.mauQ := by
  unfold State.tscTick; split <;> rfl
@[simp] theorem State.tscTick_cph (s : State) (dt : Nat) : (s.tscTick dt).cph = s.cph := by
  unfold State.tscTick; split <;> rfl
@[simp] theorem State.tscTick_mau (s : State) (dt : Nat) : (s.tscTick dt).mau = s.mau := by
  unfold State.tscTick; split <;> rfl
@[simp] theorem State.tscTick_cphTake (s : State) (dt : Nat) : (s.tscTick dt).cphTake = s.cphTake := by
  unfold State.tscTick; split <;> rfl
@[simp] theorem State.tscTick_mauBuf (s : State) (dt : Nat) : (s.tscTick dt).mauBuf = s.mauBuf := by
  unfold State.tscTick; split <;> rfl
@[simp] theorem State.tscTick_rng (s : State) (dt : Nat) : (s.tscTick dt).rng = s.rng := by
  unfold State.tscTick; split <;> rfl
@[simp] theorem State.tscTick_freeCtr (s : State) (dt : Nat) : (s.tscTick dt).freeCtr = s.freeCtr := by
  unfold State.tscTick; split <;> rfl
@[simp] theorem State.tscTick_out (s : State) (dt : Nat) : (s.tscTick dt).out = s.out := by
  unfold State.tscTick; split <;> rfl
@[simp] theorem State.tscTick_lastRead (s : State) (dt : Nat) : (s.tscTick dt).lastRead = s.lastRead := by
  unfold State.tscTick; split <;> rfl
@[simp] theorem State.tscTick_pending (s : State) (dt : Nat) : (s.tscTick dt).pending = s.pending := by
  unfold State.tscTick; split <;> rfl

/-! ### tbTick -/

@[simp] theorem State.tbTick_regs (s : State) (dt : Nat) : (s.tbTick dt).regs = s.regs := by rfl
@[simp] theorem State.tbTick_heldLow (s : State) (dt : Nat) : (s.tbTick dt).heldLow = s.heldLow := by rfl
@[simp] theorem State.tbTick_latchHigh (s : State) (dt : Nat) : (s.tbTick dt).latchHigh = s.latchHigh := by rfl
@[simp] theorem State.tbTick_mem (s : State) (dt : Nat) : (s.tbTick dt).mem = s.mem := by rfl
@[simp] theorem State.tbTick_tags (s : State) (dt : Nat) : (s.tbTick dt).tags = s.tags := by rfl
@[simp] theorem State.tbTick_damaged (s : State) (dt : Nat) : (s.tbTick dt).damaged = s.damaged := by rfl
@[simp] theorem State.tbTick_rate (s : State) (dt : Nat) : (s.tbTick dt).rate = s.rate := by rfl
@[simp] theorem State.tbTick_clock (s : State) (dt : Nat) : (s.tbTick dt).clock = s.clock := by rfl
@[simp] theorem State.tbTick_cores (s : State) (dt : Nat) : (s.tbTick dt).cores = s.cores := by rfl
@[simp] theorem State.tbTick_svc (s : State) (dt : Nat) : (s.tbTick dt).svc = s.svc := by rfl
@[simp] theorem State.tbTick_adm (s : State) (dt : Nat) : (s.tbTick dt).adm = s.adm := by rfl
@[simp] theorem State.tbTick_dsp (s : State) (dt : Nat) : (s.tbTick dt).dsp = s.dsp := by rfl
@[simp] theorem State.tbTick_kst (s : State) (dt : Nat) : (s.tbTick dt).kst = s.kst := by rfl
@[simp] theorem State.tbTick_duo (s : State) (dt : Nat) : (s.tbTick dt).duo = s.duo := by rfl
@[simp] theorem State.tbTick_sys (s : State) (dt : Nat) : (s.tbTick dt).sys = s.sys := by rfl
@[simp] theorem State.tbTick_flc (s : State) (dt : Nat) : (s.tbTick dt).flc = s.flc := by rfl
@[simp] theorem State.tbTick_flt (s : State) (dt : Nat) : (s.tbTick dt).flt = s.flt := by rfl
@[simp] theorem State.tbTick_wck (s : State) (dt : Nat) : (s.tbTick dt).wck = s.wck := by rfl
@[simp] theorem State.tbTick_crd (s : State) (dt : Nat) : (s.tbTick dt).crd = s.crd := by rfl
@[simp] theorem State.tbTick_tag (s : State) (dt : Nat) : (s.tbTick dt).tag = s.tag := by rfl
@[simp] theorem State.tbTick_obs (s : State) (dt : Nat) : (s.tbTick dt).obs = s.obs := by rfl
@[simp] theorem State.tbTick_cphQ (s : State) (dt : Nat) : (s.tbTick dt).cphQ = s.cphQ := by rfl
@[simp] theorem State.tbTick_mauQ (s : State) (dt : Nat) : (s.tbTick dt).mauQ = s.mauQ := by rfl
@[simp] theorem State.tbTick_cph (s : State) (dt : Nat) : (s.tbTick dt).cph = s.cph := by rfl
@[simp] theorem State.tbTick_mau (s : State) (dt : Nat) : (s.tbTick dt).mau = s.mau := by rfl
@[simp] theorem State.tbTick_cphTake (s : State) (dt : Nat) : (s.tbTick dt).cphTake = s.cphTake := by rfl
@[simp] theorem State.tbTick_mauBuf (s : State) (dt : Nat) : (s.tbTick dt).mauBuf = s.mauBuf := by rfl
@[simp] theorem State.tbTick_rng (s : State) (dt : Nat) : (s.tbTick dt).rng = s.rng := by rfl
@[simp] theorem State.tbTick_tscRem (s : State) (dt : Nat) : (s.tbTick dt).tscRem = s.tscRem := by rfl
@[simp] theorem State.tbTick_freeCtr (s : State) (dt : Nat) : (s.tbTick dt).freeCtr = s.freeCtr := by rfl
@[simp] theorem State.tbTick_out (s : State) (dt : Nat) : (s.tbTick dt).out = s.out := by rfl
@[simp] theorem State.tbTick_lastRead (s : State) (dt : Nat) : (s.tbTick dt).lastRead = s.lastRead := by rfl
@[simp] theorem State.tbTick_pending (s : State) (dt : Nat) : (s.tbTick dt).pending = s.pending := by rfl

/-! ### elapse -/

@[simp] theorem State.elapse_heldLow (s : State) (dt : Nat) : (s.elapse dt).heldLow = s.heldLow := by
  simp only [State.elapse]; split <;> simp
@[simp] theorem State.elapse_latchHigh (s : State) (dt : Nat) : (s.elapse dt).latchHigh = s.latchHigh := by
  simp only [State.elapse]; split <;> simp
@[simp] theorem State.elapse_mem (s : State) (dt : Nat) : (s.elapse dt).mem = s.mem := by
  simp only [State.elapse]; split <;> simp
@[simp] theorem State.elapse_tags (s : State) (dt : Nat) : (s.elapse dt).tags = s.tags := by
  simp only [State.elapse]; split <;> simp
@[simp] theorem State.elapse_damaged (s : State) (dt : Nat) : (s.elapse dt).damaged = s.damaged := by
  simp only [State.elapse]; split <;> simp
@[simp] theorem State.elapse_rate (s : State) (dt : Nat) : (s.elapse dt).rate = s.rate := by
  simp only [State.elapse]; split <;> simp
@[simp] theorem State.elapse_cores (s : State) (dt : Nat) : (s.elapse dt).cores = s.cores := by
  simp only [State.elapse]; split <;> simp
@[simp] theorem State.elapse_svc (s : State) (dt : Nat) : (s.elapse dt).svc = s.svc := by
  simp only [State.elapse]; split <;> simp
@[simp] theorem State.elapse_adm (s : State) (dt : Nat) : (s.elapse dt).adm = s.adm := by
  simp only [State.elapse]; split <;> simp
@[simp] theorem State.elapse_dsp (s : State) (dt : Nat) : (s.elapse dt).dsp = s.dsp := by
  simp only [State.elapse]; split <;> simp
@[simp] theorem State.elapse_kst (s : State) (dt : Nat) : (s.elapse dt).kst = s.kst := by
  simp only [State.elapse]; split <;> simp
@[simp] theorem State.elapse_duo (s : State) (dt : Nat) : (s.elapse dt).duo = s.duo := by
  simp only [State.elapse]; split <;> simp
@[simp] theorem State.elapse_sys (s : State) (dt : Nat) : (s.elapse dt).sys = s.sys := by
  simp only [State.elapse]; split <;> simp
@[simp] theorem State.elapse_flc (s : State) (dt : Nat) : (s.elapse dt).flc = s.flc := by
  simp only [State.elapse]; split <;> simp
@[simp] theorem State.elapse_flt (s : State) (dt : Nat) : (s.elapse dt).flt = s.flt := by
  simp only [State.elapse]; split <;> simp
@[simp] theorem State.elapse_wck (s : State) (dt : Nat) : (s.elapse dt).wck = s.wck := by
  simp only [State.elapse]; split <;> simp
@[simp] theorem State.elapse_crd (s : State) (dt : Nat) : (s.elapse dt).crd = s.crd := by
  simp only [State.elapse]; split <;> simp
@[simp] theorem State.elapse_tag (s : State) (dt : Nat) : (s.elapse dt).tag = s.tag := by
  simp only [State.elapse]; split <;> simp
@[simp] theorem State.elapse_obs (s : State) (dt : Nat) : (s.elapse dt).obs = s.obs := by
  simp only [State.elapse]; split <;> simp
@[simp] theorem State.elapse_cphQ (s : State) (dt : Nat) : (s.elapse dt).cphQ = s.cphQ := by
  simp only [State.elapse]; split <;> simp
@[simp] theorem State.elapse_mauQ (s : State) (dt : Nat) : (s.elapse dt).mauQ = s.mauQ := by
  simp only [State.elapse]; split <;> simp
@[simp] theorem State.elapse_cph (s : State) (dt : Nat) : (s.elapse dt).cph = s.cph := by
  simp only [State.elapse]; split <;> simp
@[simp] theorem State.elapse_mau (s : State) (dt : Nat) : (s.elapse dt).mau = s.mau := by
  simp only [State.elapse]; split <;> simp
@[simp] theorem State.elapse_cphTake (s : State) (dt : Nat) : (s.elapse dt).cphTake = s.cphTake := by
  simp only [State.elapse]; split <;> simp
@[simp] theorem State.elapse_mauBuf (s : State) (dt : Nat) : (s.elapse dt).mauBuf = s.mauBuf := by
  simp only [State.elapse]; split <;> simp
@[simp] theorem State.elapse_rng (s : State) (dt : Nat) : (s.elapse dt).rng = s.rng := by
  simp only [State.elapse]; split <;> simp
@[simp] theorem State.elapse_freeCtr (s : State) (dt : Nat) : (s.elapse dt).freeCtr = s.freeCtr := by
  simp only [State.elapse]; split <;> simp
@[simp] theorem State.elapse_out (s : State) (dt : Nat) : (s.elapse dt).out = s.out := by
  simp only [State.elapse]; split <;> simp
@[simp] theorem State.elapse_lastRead (s : State) (dt : Nat) : (s.elapse dt).lastRead = s.lastRead := by
  simp only [State.elapse]; split <;> simp
@[simp] theorem State.elapse_pending (s : State) (dt : Nat) : (s.elapse dt).pending = s.pending := by
  simp only [State.elapse]; split <;> simp

/-! ### count -/

@[simp] theorem State.count_heldLow (s : State) (e : Nat) (n : Nat) : (s.count e n).heldLow = s.heldLow := by
  simp only [State.count]; split
  · split <;> split <;> simp
  · rfl
@[simp] theorem State.count_latchHigh (s : State) (e : Nat) (n : Nat) : (s.count e n).latchHigh = s.latchHigh := by
  simp only [State.count]; split
  · split <;> split <;> simp
  · rfl
@[simp] theorem State.count_mem (s : State) (e : Nat) (n : Nat) : (s.count e n).mem = s.mem := by
  simp only [State.count]; split
  · split <;> split <;> simp
  · rfl
@[simp] theorem State.count_tags (s : State) (e : Nat) (n : Nat) : (s.count e n).tags = s.tags := by
  simp only [State.count]; split
  · split <;> split <;> simp
  · rfl
@[simp] theorem State.count_damaged (s : State) (e : Nat) (n : Nat) : (s.count e n).damaged = s.damaged := by
  simp only [State.count]; split
  · split <;> split <;> simp
  · rfl
@[simp] theorem State.count_tb (s : State) (e : Nat) (n : Nat) : (s.count e n).tb = s.tb := by
  simp only [State.count]; split
  · split <;> split <;> simp
  · rfl
@[simp] theorem State.count_tbRem (s : State) (e : Nat) (n : Nat) : (s.count e n).tbRem = s.tbRem := by
  simp only [State.count]; split
  · split <;> split <;> simp
  · rfl
@[simp] theorem State.count_rate (s : State) (e : Nat) (n : Nat) : (s.count e n).rate = s.rate := by
  simp only [State.count]; split
  · split <;> split <;> simp
  · rfl
@[simp] theorem State.count_clock (s : State) (e : Nat) (n : Nat) : (s.count e n).clock = s.clock := by
  simp only [State.count]; split
  · split <;> split <;> simp
  · rfl
@[simp] theorem State.count_cores (s : State) (e : Nat) (n : Nat) : (s.count e n).cores = s.cores := by
  simp only [State.count]; split
  · split <;> split <;> simp
  · rfl
@[simp] theorem State.count_svc (s : State) (e : Nat) (n : Nat) : (s.count e n).svc = s.svc := by
  simp only [State.count]; split
  · split <;> split <;> simp
  · rfl
@[simp] theorem State.count_adm (s : State) (e : Nat) (n : Nat) : (s.count e n).adm = s.adm := by
  simp only [State.count]; split
  · split <;> split <;> simp
  · rfl
@[simp] theorem State.count_dsp (s : State) (e : Nat) (n : Nat) : (s.count e n).dsp = s.dsp := by
  simp only [State.count]; split
  · split <;> split <;> simp
  · rfl
@[simp] theorem State.count_kst (s : State) (e : Nat) (n : Nat) : (s.count e n).kst = s.kst := by
  simp only [State.count]; split
  · split <;> split <;> simp
  · rfl
@[simp] theorem State.count_duo (s : State) (e : Nat) (n : Nat) : (s.count e n).duo = s.duo := by
  simp only [State.count]; split
  · split <;> split <;> simp
  · rfl
@[simp] theorem State.count_sys (s : State) (e : Nat) (n : Nat) : (s.count e n).sys = s.sys := by
  simp only [State.count]; split
  · split <;> split <;> simp
  · rfl
@[simp] theorem State.count_flc (s : State) (e : Nat) (n : Nat) : (s.count e n).flc = s.flc := by
  simp only [State.count]; split
  · split <;> split <;> simp
  · rfl
@[simp] theorem State.count_flt (s : State) (e : Nat) (n : Nat) : (s.count e n).flt = s.flt := by
  simp only [State.count]; split
  · split <;> split <;> simp
  · rfl
@[simp] theorem State.count_wck (s : State) (e : Nat) (n : Nat) : (s.count e n).wck = s.wck := by
  simp only [State.count]; split
  · split <;> split <;> simp
  · rfl
@[simp] theorem State.count_crd (s : State) (e : Nat) (n : Nat) : (s.count e n).crd = s.crd := by
  simp only [State.count]; split
  · split <;> split <;> simp
  · rfl
@[simp] theorem State.count_tag (s : State) (e : Nat) (n : Nat) : (s.count e n).tag = s.tag := by
  simp only [State.count]; split
  · split <;> split <;> simp
  · rfl
@[simp] theorem State.count_obs (s : State) (e : Nat) (n : Nat) : (s.count e n).obs = s.obs := by
  simp only [State.count]; split
  · split <;> split <;> simp
  · rfl
@[simp] theorem State.count_cphQ (s : State) (e : Nat) (n : Nat) : (s.count e n).cphQ = s.cphQ := by
  simp only [State.count]; split
  · split <;> split <;> simp
  · rfl
@[simp] theorem State.count_mauQ (s : State) (e : Nat) (n : Nat) : (s.count e n).mauQ = s.mauQ := by
  simp only [State.count]; split
  · split <;> split <;> simp
  · rfl
@[simp] theorem State.count_cph (s : State) (e : Nat) (n : Nat) : (s.count e n).cph = s.cph := by
  simp only [State.count]; split
  · split <;> split <;> simp
  · rfl
@[simp] theorem State.count_mau (s : State) (e : Nat) (n : Nat) : (s.count e n).mau = s.mau := by
  simp only [State.count]; split
  · split <;> split <;> simp
  · rfl
@[simp] theorem State.count_cphTake (s : State) (e : Nat) (n : Nat) : (s.count e n).cphTake = s.cphTake := by
  simp only [State.count]; split
  · split <;> split <;> simp
  · rfl
@[simp] theorem State.count_mauBuf (s : State) (e : Nat) (n : Nat) : (s.count e n).mauBuf = s.mauBuf := by
  simp only [State.count]; split
  · split <;> split <;> simp
  · rfl
@[simp] theorem State.count_rng (s : State) (e : Nat) (n : Nat) : (s.count e n).rng = s.rng := by
  simp only [State.count]; split
  · split <;> split <;> simp
  · rfl
@[simp] theorem State.count_tscRem (s : State) (e : Nat) (n : Nat) : (s.count e n).tscRem = s.tscRem := by
  simp only [State.count]; split
  · split <;> split <;> simp
  · rfl
@[simp] theorem State.count_freeCtr (s : State) (e : Nat) (n : Nat) : (s.count e n).freeCtr = s.freeCtr := by
  simp only [State.count]; split
  · split <;> split <;> simp
  · rfl
@[simp] theorem State.count_out (s : State) (e : Nat) (n : Nat) : (s.count e n).out = s.out := by
  simp only [State.count]; split
  · split <;> split <;> simp
  · rfl
@[simp] theorem State.count_lastRead (s : State) (e : Nat) (n : Nat) : (s.count e n).lastRead = s.lastRead := by
  simp only [State.count]; split
  · split <;> split <;> simp
  · rfl
@[simp] theorem State.count_pending (s : State) (e : Nat) (n : Nat) : (s.count e n).pending = s.pending := by
  simp only [State.count]; split
  · split <;> split <;> simp
  · rfl

/-! ### countBusy -/

@[simp] theorem State.countBusy_heldLow (s : State) (e : Nat) (n : Nat) : (s.countBusy e n).heldLow = s.heldLow := by
  simp only [State.countBusy]; split
  · rfl
  · split <;> simp
@[simp] theorem State.countBusy_latchHigh (s : State) (e : Nat) (n : Nat) : (s.countBusy e n).latchHigh = s.latchHigh := by
  simp only [State.countBusy]; split
  · rfl
  · split <;> simp
@[simp] theorem State.countBusy_mem (s : State) (e : Nat) (n : Nat) : (s.countBusy e n).mem = s.mem := by
  simp only [State.countBusy]; split
  · rfl
  · split <;> simp
@[simp] theorem State.countBusy_tags (s : State) (e : Nat) (n : Nat) : (s.countBusy e n).tags = s.tags := by
  simp only [State.countBusy]; split
  · rfl
  · split <;> simp
@[simp] theorem State.countBusy_damaged (s : State) (e : Nat) (n : Nat) : (s.countBusy e n).damaged = s.damaged := by
  simp only [State.countBusy]; split
  · rfl
  · split <;> simp
@[simp] theorem State.countBusy_tb (s : State) (e : Nat) (n : Nat) : (s.countBusy e n).tb = s.tb := by
  simp only [State.countBusy]; split
  · rfl
  · split <;> simp
@[simp] theorem State.countBusy_tbRem (s : State) (e : Nat) (n : Nat) : (s.countBusy e n).tbRem = s.tbRem := by
  simp only [State.countBusy]; split
  · rfl
  · split <;> simp
@[simp] theorem State.countBusy_rate (s : State) (e : Nat) (n : Nat) : (s.countBusy e n).rate = s.rate := by
  simp only [State.countBusy]; split
  · rfl
  · split <;> simp
@[simp] theorem State.countBusy_clock (s : State) (e : Nat) (n : Nat) : (s.countBusy e n).clock = s.clock := by
  simp only [State.countBusy]; split
  · rfl
  · split <;> simp
@[simp] theorem State.countBusy_cores (s : State) (e : Nat) (n : Nat) : (s.countBusy e n).cores = s.cores := by
  simp only [State.countBusy]; split
  · rfl
  · split <;> simp
@[simp] theorem State.countBusy_svc (s : State) (e : Nat) (n : Nat) : (s.countBusy e n).svc = s.svc := by
  simp only [State.countBusy]; split
  · rfl
  · split <;> simp
@[simp] theorem State.countBusy_adm (s : State) (e : Nat) (n : Nat) : (s.countBusy e n).adm = s.adm := by
  simp only [State.countBusy]; split
  · rfl
  · split <;> simp
@[simp] theorem State.countBusy_dsp (s : State) (e : Nat) (n : Nat) : (s.countBusy e n).dsp = s.dsp := by
  simp only [State.countBusy]; split
  · rfl
  · split <;> simp
@[simp] theorem State.countBusy_kst (s : State) (e : Nat) (n : Nat) : (s.countBusy e n).kst = s.kst := by
  simp only [State.countBusy]; split
  · rfl
  · split <;> simp
@[simp] theorem State.countBusy_duo (s : State) (e : Nat) (n : Nat) : (s.countBusy e n).duo = s.duo := by
  simp only [State.countBusy]; split
  · rfl
  · split <;> simp
@[simp] theorem State.countBusy_sys (s : State) (e : Nat) (n : Nat) : (s.countBusy e n).sys = s.sys := by
  simp only [State.countBusy]; split
  · rfl
  · split <;> simp
@[simp] theorem State.countBusy_flc (s : State) (e : Nat) (n : Nat) : (s.countBusy e n).flc = s.flc := by
  simp only [State.countBusy]; split
  · rfl
  · split <;> simp
@[simp] theorem State.countBusy_flt (s : State) (e : Nat) (n : Nat) : (s.countBusy e n).flt = s.flt := by
  simp only [State.countBusy]; split
  · rfl
  · split <;> simp
@[simp] theorem State.countBusy_wck (s : State) (e : Nat) (n : Nat) : (s.countBusy e n).wck = s.wck := by
  simp only [State.countBusy]; split
  · rfl
  · split <;> simp
@[simp] theorem State.countBusy_crd (s : State) (e : Nat) (n : Nat) : (s.countBusy e n).crd = s.crd := by
  simp only [State.countBusy]; split
  · rfl
  · split <;> simp
@[simp] theorem State.countBusy_tag (s : State) (e : Nat) (n : Nat) : (s.countBusy e n).tag = s.tag := by
  simp only [State.countBusy]; split
  · rfl
  · split <;> simp
@[simp] theorem State.countBusy_obs (s : State) (e : Nat) (n : Nat) : (s.countBusy e n).obs = s.obs := by
  simp only [State.countBusy]; split
  · rfl
  · split <;> simp
@[simp] theorem State.countBusy_cphQ (s : State) (e : Nat) (n : Nat) : (s.countBusy e n).cphQ = s.cphQ := by
  simp only [State.countBusy]; split
  · rfl
  · split <;> simp
@[simp] theorem State.countBusy_mauQ (s : State) (e : Nat) (n : Nat) : (s.countBusy e n).mauQ = s.mauQ := by
  simp only [State.countBusy]; split
  · rfl
  · split <;> simp
@[simp] theorem State.countBusy_cph (s : State) (e : Nat) (n : Nat) : (s.countBusy e n).cph = s.cph := by
  simp only [State.countBusy]; split
  · rfl
  · split <;> simp
@[simp] theorem State.countBusy_mau (s : State) (e : Nat) (n : Nat) : (s.countBusy e n).mau = s.mau := by
  simp only [State.countBusy]; split
  · rfl
  · split <;> simp
@[simp] theorem State.countBusy_cphTake (s : State) (e : Nat) (n : Nat) : (s.countBusy e n).cphTake = s.cphTake := by
  simp only [State.countBusy]; split
  · rfl
  · split <;> simp
@[simp] theorem State.countBusy_mauBuf (s : State) (e : Nat) (n : Nat) : (s.countBusy e n).mauBuf = s.mauBuf := by
  simp only [State.countBusy]; split
  · rfl
  · split <;> simp
@[simp] theorem State.countBusy_rng (s : State) (e : Nat) (n : Nat) : (s.countBusy e n).rng = s.rng := by
  simp only [State.countBusy]; split
  · rfl
  · split <;> simp
@[simp] theorem State.countBusy_tscRem (s : State) (e : Nat) (n : Nat) : (s.countBusy e n).tscRem = s.tscRem := by
  simp only [State.countBusy]; split
  · rfl
  · split <;> simp
@[simp] theorem State.countBusy_freeCtr (s : State) (e : Nat) (n : Nat) : (s.countBusy e n).freeCtr = s.freeCtr := by
  simp only [State.countBusy]; split
  · rfl
  · split <;> simp
@[simp] theorem State.countBusy_out (s : State) (e : Nat) (n : Nat) : (s.countBusy e n).out = s.out := by
  simp only [State.countBusy]; split
  · rfl
  · split <;> simp
@[simp] theorem State.countBusy_lastRead (s : State) (e : Nat) (n : Nat) : (s.countBusy e n).lastRead = s.lastRead := by
  simp only [State.countBusy]; split
  · rfl
  · split <;> simp
@[simp] theorem State.countBusy_pending (s : State) (e : Nat) (n : Nat) : (s.countBusy e n).pending = s.pending := by
  simp only [State.countBusy]; split
  · rfl
  · split <;> simp

/-! ### react -/

@[simp] theorem State.react_regs (s : State) (n : Nat) (unit : Nat) (forced : Bool) : (s.react n unit forced).regs = s.regs := by
  simp only [State.react]; split <;> rfl
@[simp] theorem State.react_heldLow (s : State) (n : Nat) (unit : Nat) (forced : Bool) : (s.react n unit forced).heldLow = s.heldLow := by
  simp only [State.react]; split <;> rfl
@[simp] theorem State.react_latchHigh (s : State) (n : Nat) (unit : Nat) (forced : Bool) : (s.react n unit forced).latchHigh = s.latchHigh := by
  simp only [State.react]; split <;> rfl
@[simp] theorem State.react_mem (s : State) (n : Nat) (unit : Nat) (forced : Bool) : (s.react n unit forced).mem = s.mem := by
  simp only [State.react]; split <;> rfl
@[simp] theorem State.react_tags (s : State) (n : Nat) (unit : Nat) (forced : Bool) : (s.react n unit forced).tags = s.tags := by
  simp only [State.react]; split <;> rfl
@[simp] theorem State.react_damaged (s : State) (n : Nat) (unit : Nat) (forced : Bool) : (s.react n unit forced).damaged = s.damaged := by
  simp only [State.react]; split <;> rfl
@[simp] theorem State.react_tb (s : State) (n : Nat) (unit : Nat) (forced : Bool) : (s.react n unit forced).tb = s.tb := by
  simp only [State.react]; split <;> rfl
@[simp] theorem State.react_tbRem (s : State) (n : Nat) (unit : Nat) (forced : Bool) : (s.react n unit forced).tbRem = s.tbRem := by
  simp only [State.react]; split <;> rfl
@[simp] theorem State.react_rate (s : State) (n : Nat) (unit : Nat) (forced : Bool) : (s.react n unit forced).rate = s.rate := by
  simp only [State.react]; split <;> rfl
@[simp] theorem State.react_clock (s : State) (n : Nat) (unit : Nat) (forced : Bool) : (s.react n unit forced).clock = s.clock := by
  simp only [State.react]; split <;> rfl
@[simp] theorem State.react_cores (s : State) (n : Nat) (unit : Nat) (forced : Bool) : (s.react n unit forced).cores = s.cores := by
  simp only [State.react]; split <;> rfl
@[simp] theorem State.react_svc (s : State) (n : Nat) (unit : Nat) (forced : Bool) : (s.react n unit forced).svc = s.svc := by
  simp only [State.react]; split <;> rfl
@[simp] theorem State.react_adm (s : State) (n : Nat) (unit : Nat) (forced : Bool) : (s.react n unit forced).adm = s.adm := by
  simp only [State.react]; split <;> rfl
@[simp] theorem State.react_dsp (s : State) (n : Nat) (unit : Nat) (forced : Bool) : (s.react n unit forced).dsp = s.dsp := by
  simp only [State.react]; split <;> rfl
@[simp] theorem State.react_kst (s : State) (n : Nat) (unit : Nat) (forced : Bool) : (s.react n unit forced).kst = s.kst := by
  simp only [State.react]; split <;> rfl
@[simp] theorem State.react_duo (s : State) (n : Nat) (unit : Nat) (forced : Bool) : (s.react n unit forced).duo = s.duo := by
  simp only [State.react]; split <;> rfl
@[simp] theorem State.react_sys (s : State) (n : Nat) (unit : Nat) (forced : Bool) : (s.react n unit forced).sys = s.sys := by
  simp only [State.react]; split <;> rfl
@[simp] theorem State.react_flc (s : State) (n : Nat) (unit : Nat) (forced : Bool) : (s.react n unit forced).flc = s.flc := by
  simp only [State.react]; split <;> rfl
@[simp] theorem State.react_wck (s : State) (n : Nat) (unit : Nat) (forced : Bool) : (s.react n unit forced).wck = s.wck := by
  simp only [State.react]; split <;> rfl
@[simp] theorem State.react_crd (s : State) (n : Nat) (unit : Nat) (forced : Bool) : (s.react n unit forced).crd = s.crd := by
  simp only [State.react]; split <;> rfl
@[simp] theorem State.react_tag (s : State) (n : Nat) (unit : Nat) (forced : Bool) : (s.react n unit forced).tag = s.tag := by
  simp only [State.react]; split <;> rfl
@[simp] theorem State.react_obs (s : State) (n : Nat) (unit : Nat) (forced : Bool) : (s.react n unit forced).obs = s.obs := by
  simp only [State.react]; split <;> rfl
@[simp] theorem State.react_cphQ (s : State) (n : Nat) (unit : Nat) (forced : Bool) : (s.react n unit forced).cphQ = s.cphQ := by
  simp only [State.react]; split <;> rfl
@[simp] theorem State.react_mauQ (s : State) (n : Nat) (unit : Nat) (forced : Bool) : (s.react n unit forced).mauQ = s.mauQ := by
  simp only [State.react]; split <;> rfl
@[simp] theorem State.react_cph (s : State) (n : Nat) (unit : Nat) (forced : Bool) : (s.react n unit forced).cph = s.cph := by
  simp only [State.react]; split <;> rfl
@[simp] theorem State.react_mau (s : State) (n : Nat) (unit : Nat) (forced : Bool) : (s.react n unit forced).mau = s.mau := by
  simp only [State.react]; split <;> rfl
@[simp] theorem State.react_cphTake (s : State) (n : Nat) (unit : Nat) (forced : Bool) : (s.react n unit forced).cphTake = s.cphTake := by
  simp only [State.react]; split <;> rfl
@[simp] theorem State.react_mauBuf (s : State) (n : Nat) (unit : Nat) (forced : Bool) : (s.react n unit forced).mauBuf = s.mauBuf := by
  simp only [State.react]; split <;> rfl
@[simp] theorem State.react_rng (s : State) (n : Nat) (unit : Nat) (forced : Bool) : (s.react n unit forced).rng = s.rng := by
  simp only [State.react]; split <;> rfl
@[simp] theorem State.react_tscRem (s : State) (n : Nat) (unit : Nat) (forced : Bool) : (s.react n unit forced).tscRem = s.tscRem := by
  simp only [State.react]; split <;> rfl
@[simp] theorem State.react_freeCtr (s : State) (n : Nat) (unit : Nat) (forced : Bool) : (s.react n unit forced).freeCtr = s.freeCtr := by
  simp only [State.react]; split <;> rfl
@[simp] theorem State.react_out (s : State) (n : Nat) (unit : Nat) (forced : Bool) : (s.react n unit forced).out = s.out := by
  simp only [State.react]; split <;> rfl
@[simp] theorem State.react_lastRead (s : State) (n : Nat) (unit : Nat) (forced : Bool) : (s.react n unit forced).lastRead = s.lastRead := by
  simp only [State.react]; split <;> rfl
@[simp] theorem State.react_pending (s : State) (n : Nat) (unit : Nat) (forced : Bool) : (s.react n unit forced).pending = s.pending := by
  simp only [State.react]; split <;> rfl

/-! ### reactAgain -/

@[simp] theorem State.reactAgain_regs (s : State) (n : Nat) (unit : Nat) : (s.reactAgain n unit).regs = s.regs := by
  unfold State.reactAgain; split <;> rfl
@[simp] theorem State.reactAgain_heldLow (s : State) (n : Nat) (unit : Nat) : (s.reactAgain n unit).heldLow = s.heldLow := by
  unfold State.reactAgain; split <;> rfl
@[simp] theorem State.reactAgain_latchHigh (s : State) (n : Nat) (unit : Nat) : (s.reactAgain n unit).latchHigh = s.latchHigh := by
  unfold State.reactAgain; split <;> rfl
@[simp] theorem State.reactAgain_mem (s : State) (n : Nat) (unit : Nat) : (s.reactAgain n unit).mem = s.mem := by
  unfold State.reactAgain; split <;> rfl
@[simp] theorem State.reactAgain_tags (s : State) (n : Nat) (unit : Nat) : (s.reactAgain n unit).tags = s.tags := by
  unfold State.reactAgain; split <;> rfl
@[simp] theorem State.reactAgain_damaged (s : State) (n : Nat) (unit : Nat) : (s.reactAgain n unit).damaged = s.damaged := by
  unfold State.reactAgain; split <;> rfl
@[simp] theorem State.reactAgain_tb (s : State) (n : Nat) (unit : Nat) : (s.reactAgain n unit).tb = s.tb := by
  unfold State.reactAgain; split <;> rfl
@[simp] theorem State.reactAgain_tbRem (s : State) (n : Nat) (unit : Nat) : (s.reactAgain n unit).tbRem = s.tbRem := by
  unfold State.reactAgain; split <;> rfl
@[simp] theorem State.reactAgain_rate (s : State) (n : Nat) (unit : Nat) : (s.reactAgain n unit).rate = s.rate := by
  unfold State.reactAgain; split <;> rfl
@[simp] theorem State.reactAgain_clock (s : State) (n : Nat) (unit : Nat) : (s.reactAgain n unit).clock = s.clock := by
  unfold State.reactAgain; split <;> rfl
@[simp] theorem State.reactAgain_cores (s : State) (n : Nat) (unit : Nat) : (s.reactAgain n unit).cores = s.cores := by
  unfold State.reactAgain; split <;> rfl
@[simp] theorem State.reactAgain_svc (s : State) (n : Nat) (unit : Nat) : (s.reactAgain n unit).svc = s.svc := by
  unfold State.reactAgain; split <;> rfl
@[simp] theorem State.reactAgain_adm (s : State) (n : Nat) (unit : Nat) : (s.reactAgain n unit).adm = s.adm := by
  unfold State.reactAgain; split <;> rfl
@[simp] theorem State.reactAgain_dsp (s : State) (n : Nat) (unit : Nat) : (s.reactAgain n unit).dsp = s.dsp := by
  unfold State.reactAgain; split <;> rfl
@[simp] theorem State.reactAgain_kst (s : State) (n : Nat) (unit : Nat) : (s.reactAgain n unit).kst = s.kst := by
  unfold State.reactAgain; split <;> rfl
@[simp] theorem State.reactAgain_duo (s : State) (n : Nat) (unit : Nat) : (s.reactAgain n unit).duo = s.duo := by
  unfold State.reactAgain; split <;> rfl
@[simp] theorem State.reactAgain_sys (s : State) (n : Nat) (unit : Nat) : (s.reactAgain n unit).sys = s.sys := by
  unfold State.reactAgain; split <;> rfl
@[simp] theorem State.reactAgain_flc (s : State) (n : Nat) (unit : Nat) : (s.reactAgain n unit).flc = s.flc := by
  unfold State.reactAgain; split <;> rfl
@[simp] theorem State.reactAgain_wck (s : State) (n : Nat) (unit : Nat) : (s.reactAgain n unit).wck = s.wck := by
  unfold State.reactAgain; split <;> rfl
@[simp] theorem State.reactAgain_crd (s : State) (n : Nat) (unit : Nat) : (s.reactAgain n unit).crd = s.crd := by
  unfold State.reactAgain; split <;> rfl
@[simp] theorem State.reactAgain_tag (s : State) (n : Nat) (unit : Nat) : (s.reactAgain n unit).tag = s.tag := by
  unfold State.reactAgain; split <;> rfl
@[simp] theorem State.reactAgain_obs (s : State) (n : Nat) (unit : Nat) : (s.reactAgain n unit).obs = s.obs := by
  unfold State.reactAgain; split <;> rfl
@[simp] theorem State.reactAgain_cphQ (s : State) (n : Nat) (unit : Nat) : (s.reactAgain n unit).cphQ = s.cphQ := by
  unfold State.reactAgain; split <;> rfl
@[simp] theorem State.reactAgain_mauQ (s : State) (n : Nat) (unit : Nat) : (s.reactAgain n unit).mauQ = s.mauQ := by
  unfold State.reactAgain; split <;> rfl
@[simp] theorem State.reactAgain_cph (s : State) (n : Nat) (unit : Nat) : (s.reactAgain n unit).cph = s.cph := by
  unfold State.reactAgain; split <;> rfl
@[simp] theorem State.reactAgain_mau (s : State) (n : Nat) (unit : Nat) : (s.reactAgain n unit).mau = s.mau := by
  unfold State.reactAgain; split <;> rfl
@[simp] theorem State.reactAgain_cphTake (s : State) (n : Nat) (unit : Nat) : (s.reactAgain n unit).cphTake = s.cphTake := by
  unfold State.reactAgain; split <;> rfl
@[simp] theorem State.reactAgain_mauBuf (s : State) (n : Nat) (unit : Nat) : (s.reactAgain n unit).mauBuf = s.mauBuf := by
  unfold State.reactAgain; split <;> rfl
@[simp] theorem State.reactAgain_rng (s : State) (n : Nat) (unit : Nat) : (s.reactAgain n unit).rng = s.rng := by
  unfold State.reactAgain; split <;> rfl
@[simp] theorem State.reactAgain_tscRem (s : State) (n : Nat) (unit : Nat) : (s.reactAgain n unit).tscRem = s.tscRem := by
  unfold State.reactAgain; split <;> rfl
@[simp] theorem State.reactAgain_freeCtr (s : State) (n : Nat) (unit : Nat) : (s.reactAgain n unit).freeCtr = s.freeCtr := by
  unfold State.reactAgain; split <;> rfl
@[simp] theorem State.reactAgain_out (s : State) (n : Nat) (unit : Nat) : (s.reactAgain n unit).out = s.out := by
  unfold State.reactAgain; split <;> rfl
@[simp] theorem State.reactAgain_lastRead (s : State) (n : Nat) (unit : Nat) : (s.reactAgain n unit).lastRead = s.lastRead := by
  unfold State.reactAgain; split <;> rfl
@[simp] theorem State.reactAgain_pending (s : State) (n : Nat) (unit : Nat) : (s.reactAgain n unit).pending = s.pending := by
  unfold State.reactAgain; split <;> rfl

/-! ### Fault events change the registers and the collector alone (16 R370) -/

/-- `t` is `s` but for its registers and its collector. -/
def RegsFlt (s t : State) : Prop := ∃ r f, t = { s with regs := r, flt := f }

theorem RegsFlt.refl (s : State) : RegsFlt s s := ⟨_, _, rfl⟩
theorem RegsFlt.wr {s t : State} (h : RegsFlt s t) (a : Nat) (v : Word) : RegsFlt s (t.wr a v) := by
  obtain ⟨r, f, rfl⟩ := h; exact ⟨_, _, rfl⟩
theorem RegsFlt.flt {s t : State} (h : RegsFlt s t) (x : FltState) : RegsFlt s { t with flt := x } := by
  obtain ⟨r, f, rfl⟩ := h; exact ⟨_, _, rfl⟩
theorem RegsFlt.ite {s t u : State} (c : Prop) [Decidable c] (ht : RegsFlt s t) (hu : RegsFlt s u) :
    RegsFlt s (if c then t else u) := by split <;> assumption
theorem RegsFlt.fset {s t : State} (h : RegsFlt s t) (x : Fld) (v : Nat) : RegsFlt s (t.fset x v) := h.wr _ _
theorem RegsFlt.raise {s t : State} (h : RegsFlt s t) (x : Fld) : RegsFlt s (t.raise x) := h.wr _ _
theorem RegsFlt.lower {s t : State} (h : RegsFlt s t) (x : Fld) : RegsFlt s (t.lower x) := h.wr _ _
theorem RegsFlt.react {s t : State} (h : RegsFlt s t) (n unit : Nat) (forced : Bool) :
    RegsFlt s (t.react n unit forced) := by
  simp only [State.react]; split <;> exact h.flt _
theorem RegsFlt.reactAgain {s t : State} (h : RegsFlt s t) (n unit : Nat) : RegsFlt s (t.reactAgain n unit) := by
  unfold State.reactAgain; split
  · exact h.flt _
  · exact h
theorem RegsFlt.closeIfOver {s t : State} (h : RegsFlt s t) (n : Nat) : RegsFlt s (t.closeIfOver n) :=
  .ite _ ((h.fset _ _).lower _) h
theorem RegsFlt.fault {s t : State} (h : RegsFlt s t) (n unit : Nat) (forced : Bool) :
    RegsFlt s (t.fault n unit forced) :=
  .ite _ ((h.raise _).reactAgain _ _)
    (.ite _
      (((((RegsFlt.ite _ ((((h.raise _).closeIfOver _).raise _).flt _) ((h.raise _).closeIfOver _)).fset _ _).raise
        _).lower _).react _ _ _)
      ((RegsFlt.ite _ ((((h.raise _).closeIfOver _).raise _).flt _) ((h.raise _).closeIfOver _)).fset _ _))
theorem RegsFlt.signal {s t : State} (h : RegsFlt s t) (n unit : Nat) : RegsFlt s (t.signal n unit) := .ite _ (h.fault _ _ _) h

/-! ### fault -/

@[simp] theorem State.fault_heldLow (s : State) (n : Nat) (unit : Nat) (forced : Bool) : (s.fault n unit forced).heldLow = s.heldLow := by
  obtain ⟨r, f, h⟩ := (RegsFlt.refl s).fault n unit forced; rw [h]
@[simp] theorem State.fault_latchHigh (s : State) (n : Nat) (unit : Nat) (forced : Bool) : (s.fault n unit forced).latchHigh = s.latchHigh := by
  obtain ⟨r, f, h⟩ := (RegsFlt.refl s).fault n unit forced; rw [h]
@[simp] theorem State.fault_mem (s : State) (n : Nat) (unit : Nat) (forced : Bool) : (s.fault n unit forced).mem = s.mem := by
  obtain ⟨r, f, h⟩ := (RegsFlt.refl s).fault n unit forced; rw [h]
@[simp] theorem State.fault_tags (s : State) (n : Nat) (unit : Nat) (forced : Bool) : (s.fault n unit forced).tags = s.tags := by
  obtain ⟨r, f, h⟩ := (RegsFlt.refl s).fault n unit forced; rw [h]
@[simp] theorem State.fault_damaged (s : State) (n : Nat) (unit : Nat) (forced : Bool) : (s.fault n unit forced).damaged = s.damaged := by
  obtain ⟨r, f, h⟩ := (RegsFlt.refl s).fault n unit forced; rw [h]
@[simp] theorem State.fault_tb (s : State) (n : Nat) (unit : Nat) (forced : Bool) : (s.fault n unit forced).tb = s.tb := by
  obtain ⟨r, f, h⟩ := (RegsFlt.refl s).fault n unit forced; rw [h]
@[simp] theorem State.fault_tbRem (s : State) (n : Nat) (unit : Nat) (forced : Bool) : (s.fault n unit forced).tbRem = s.tbRem := by
  obtain ⟨r, f, h⟩ := (RegsFlt.refl s).fault n unit forced; rw [h]
@[simp] theorem State.fault_rate (s : State) (n : Nat) (unit : Nat) (forced : Bool) : (s.fault n unit forced).rate = s.rate := by
  obtain ⟨r, f, h⟩ := (RegsFlt.refl s).fault n unit forced; rw [h]
@[simp] theorem State.fault_clock (s : State) (n : Nat) (unit : Nat) (forced : Bool) : (s.fault n unit forced).clock = s.clock := by
  obtain ⟨r, f, h⟩ := (RegsFlt.refl s).fault n unit forced; rw [h]
@[simp] theorem State.fault_cores (s : State) (n : Nat) (unit : Nat) (forced : Bool) : (s.fault n unit forced).cores = s.cores := by
  obtain ⟨r, f, h⟩ := (RegsFlt.refl s).fault n unit forced; rw [h]
@[simp] theorem State.fault_svc (s : State) (n : Nat) (unit : Nat) (forced : Bool) : (s.fault n unit forced).svc = s.svc := by
  obtain ⟨r, f, h⟩ := (RegsFlt.refl s).fault n unit forced; rw [h]
@[simp] theorem State.fault_adm (s : State) (n : Nat) (unit : Nat) (forced : Bool) : (s.fault n unit forced).adm = s.adm := by
  obtain ⟨r, f, h⟩ := (RegsFlt.refl s).fault n unit forced; rw [h]
@[simp] theorem State.fault_dsp (s : State) (n : Nat) (unit : Nat) (forced : Bool) : (s.fault n unit forced).dsp = s.dsp := by
  obtain ⟨r, f, h⟩ := (RegsFlt.refl s).fault n unit forced; rw [h]
@[simp] theorem State.fault_kst (s : State) (n : Nat) (unit : Nat) (forced : Bool) : (s.fault n unit forced).kst = s.kst := by
  obtain ⟨r, f, h⟩ := (RegsFlt.refl s).fault n unit forced; rw [h]
@[simp] theorem State.fault_duo (s : State) (n : Nat) (unit : Nat) (forced : Bool) : (s.fault n unit forced).duo = s.duo := by
  obtain ⟨r, f, h⟩ := (RegsFlt.refl s).fault n unit forced; rw [h]
@[simp] theorem State.fault_sys (s : State) (n : Nat) (unit : Nat) (forced : Bool) : (s.fault n unit forced).sys = s.sys := by
  obtain ⟨r, f, h⟩ := (RegsFlt.refl s).fault n unit forced; rw [h]
@[simp] theorem State.fault_flc (s : State) (n : Nat) (unit : Nat) (forced : Bool) : (s.fault n unit forced).flc = s.flc := by
  obtain ⟨r, f, h⟩ := (RegsFlt.refl s).fault n unit forced; rw [h]
@[simp] theorem State.fault_wck (s : State) (n : Nat) (unit : Nat) (forced : Bool) : (s.fault n unit forced).wck = s.wck := by
  obtain ⟨r, f, h⟩ := (RegsFlt.refl s).fault n unit forced; rw [h]
@[simp] theorem State.fault_crd (s : State) (n : Nat) (unit : Nat) (forced : Bool) : (s.fault n unit forced).crd = s.crd := by
  obtain ⟨r, f, h⟩ := (RegsFlt.refl s).fault n unit forced; rw [h]
@[simp] theorem State.fault_tag (s : State) (n : Nat) (unit : Nat) (forced : Bool) : (s.fault n unit forced).tag = s.tag := by
  obtain ⟨r, f, h⟩ := (RegsFlt.refl s).fault n unit forced; rw [h]
@[simp] theorem State.fault_obs (s : State) (n : Nat) (unit : Nat) (forced : Bool) : (s.fault n unit forced).obs = s.obs := by
  obtain ⟨r, f, h⟩ := (RegsFlt.refl s).fault n unit forced; rw [h]
@[simp] theorem State.fault_cphQ (s : State) (n : Nat) (unit : Nat) (forced : Bool) : (s.fault n unit forced).cphQ = s.cphQ := by
  obtain ⟨r, f, h⟩ := (RegsFlt.refl s).fault n unit forced; rw [h]
@[simp] theorem State.fault_mauQ (s : State) (n : Nat) (unit : Nat) (forced : Bool) : (s.fault n unit forced).mauQ = s.mauQ := by
  obtain ⟨r, f, h⟩ := (RegsFlt.refl s).fault n unit forced; rw [h]
@[simp] theorem State.fault_cph (s : State) (n : Nat) (unit : Nat) (forced : Bool) : (s.fault n unit forced).cph = s.cph := by
  obtain ⟨r, f, h⟩ := (RegsFlt.refl s).fault n unit forced; rw [h]
@[simp] theorem State.fault_mau (s : State) (n : Nat) (unit : Nat) (forced : Bool) : (s.fault n unit forced).mau = s.mau := by
  obtain ⟨r, f, h⟩ := (RegsFlt.refl s).fault n unit forced; rw [h]
@[simp] theorem State.fault_cphTake (s : State) (n : Nat) (unit : Nat) (forced : Bool) : (s.fault n unit forced).cphTake = s.cphTake := by
  obtain ⟨r, f, h⟩ := (RegsFlt.refl s).fault n unit forced; rw [h]
@[simp] theorem State.fault_mauBuf (s : State) (n : Nat) (unit : Nat) (forced : Bool) : (s.fault n unit forced).mauBuf = s.mauBuf := by
  obtain ⟨r, f, h⟩ := (RegsFlt.refl s).fault n unit forced; rw [h]
@[simp] theorem State.fault_rng (s : State) (n : Nat) (unit : Nat) (forced : Bool) : (s.fault n unit forced).rng = s.rng := by
  obtain ⟨r, f, h⟩ := (RegsFlt.refl s).fault n unit forced; rw [h]
@[simp] theorem State.fault_tscRem (s : State) (n : Nat) (unit : Nat) (forced : Bool) : (s.fault n unit forced).tscRem = s.tscRem := by
  obtain ⟨r, f, h⟩ := (RegsFlt.refl s).fault n unit forced; rw [h]
@[simp] theorem State.fault_freeCtr (s : State) (n : Nat) (unit : Nat) (forced : Bool) : (s.fault n unit forced).freeCtr = s.freeCtr := by
  obtain ⟨r, f, h⟩ := (RegsFlt.refl s).fault n unit forced; rw [h]
@[simp] theorem State.fault_out (s : State) (n : Nat) (unit : Nat) (forced : Bool) : (s.fault n unit forced).out = s.out := by
  obtain ⟨r, f, h⟩ := (RegsFlt.refl s).fault n unit forced; rw [h]
@[simp] theorem State.fault_lastRead (s : State) (n : Nat) (unit : Nat) (forced : Bool) : (s.fault n unit forced).lastRead = s.lastRead := by
  obtain ⟨r, f, h⟩ := (RegsFlt.refl s).fault n unit forced; rw [h]
@[simp] theorem State.fault_pending (s : State) (n : Nat) (unit : Nat) (forced : Bool) : (s.fault n unit forced).pending = s.pending := by
  obtain ⟨r, f, h⟩ := (RegsFlt.refl s).fault n unit forced; rw [h]

/-! ### signal -/

@[simp] theorem State.signal_heldLow (s : State) (n : Nat) (unit : Nat) : (s.signal n unit).heldLow = s.heldLow := by
  obtain ⟨r, f, h⟩ := (RegsFlt.refl s).signal n unit; rw [h]
@[simp] theorem State.signal_latchHigh (s : State) (n : Nat) (unit : Nat) : (s.signal n unit).latchHigh = s.latchHigh := by
  obtain ⟨r, f, h⟩ := (RegsFlt.refl s).signal n unit; rw [h]
@[simp] theorem State.signal_mem (s : State) (n : Nat) (unit : Nat) : (s.signal n unit).mem = s.mem := by
  obtain ⟨r, f, h⟩ := (RegsFlt.refl s).signal n unit; rw [h]
@[simp] theorem State.signal_tags (s : State) (n : Nat) (unit : Nat) : (s.signal n unit).tags = s.tags := by
  obtain ⟨r, f, h⟩ := (RegsFlt.refl s).signal n unit; rw [h]
@[simp] theorem State.signal_damaged (s : State) (n : Nat) (unit : Nat) : (s.signal n unit).damaged = s.damaged := by
  obtain ⟨r, f, h⟩ := (RegsFlt.refl s).signal n unit; rw [h]
@[simp] theorem State.signal_tb (s : State) (n : Nat) (unit : Nat) : (s.signal n unit).tb = s.tb := by
  obtain ⟨r, f, h⟩ := (RegsFlt.refl s).signal n unit; rw [h]
@[simp] theorem State.signal_tbRem (s : State) (n : Nat) (unit : Nat) : (s.signal n unit).tbRem = s.tbRem := by
  obtain ⟨r, f, h⟩ := (RegsFlt.refl s).signal n unit; rw [h]
@[simp] theorem State.signal_rate (s : State) (n : Nat) (unit : Nat) : (s.signal n unit).rate = s.rate := by
  obtain ⟨r, f, h⟩ := (RegsFlt.refl s).signal n unit; rw [h]
@[simp] theorem State.signal_clock (s : State) (n : Nat) (unit : Nat) : (s.signal n unit).clock = s.clock := by
  obtain ⟨r, f, h⟩ := (RegsFlt.refl s).signal n unit; rw [h]
@[simp] theorem State.signal_cores (s : State) (n : Nat) (unit : Nat) : (s.signal n unit).cores = s.cores := by
  obtain ⟨r, f, h⟩ := (RegsFlt.refl s).signal n unit; rw [h]
@[simp] theorem State.signal_svc (s : State) (n : Nat) (unit : Nat) : (s.signal n unit).svc = s.svc := by
  obtain ⟨r, f, h⟩ := (RegsFlt.refl s).signal n unit; rw [h]
@[simp] theorem State.signal_adm (s : State) (n : Nat) (unit : Nat) : (s.signal n unit).adm = s.adm := by
  obtain ⟨r, f, h⟩ := (RegsFlt.refl s).signal n unit; rw [h]
@[simp] theorem State.signal_dsp (s : State) (n : Nat) (unit : Nat) : (s.signal n unit).dsp = s.dsp := by
  obtain ⟨r, f, h⟩ := (RegsFlt.refl s).signal n unit; rw [h]
@[simp] theorem State.signal_kst (s : State) (n : Nat) (unit : Nat) : (s.signal n unit).kst = s.kst := by
  obtain ⟨r, f, h⟩ := (RegsFlt.refl s).signal n unit; rw [h]
@[simp] theorem State.signal_duo (s : State) (n : Nat) (unit : Nat) : (s.signal n unit).duo = s.duo := by
  obtain ⟨r, f, h⟩ := (RegsFlt.refl s).signal n unit; rw [h]
@[simp] theorem State.signal_sys (s : State) (n : Nat) (unit : Nat) : (s.signal n unit).sys = s.sys := by
  obtain ⟨r, f, h⟩ := (RegsFlt.refl s).signal n unit; rw [h]
@[simp] theorem State.signal_flc (s : State) (n : Nat) (unit : Nat) : (s.signal n unit).flc = s.flc := by
  obtain ⟨r, f, h⟩ := (RegsFlt.refl s).signal n unit; rw [h]
@[simp] theorem State.signal_wck (s : State) (n : Nat) (unit : Nat) : (s.signal n unit).wck = s.wck := by
  obtain ⟨r, f, h⟩ := (RegsFlt.refl s).signal n unit; rw [h]
@[simp] theorem State.signal_crd (s : State) (n : Nat) (unit : Nat) : (s.signal n unit).crd = s.crd := by
  obtain ⟨r, f, h⟩ := (RegsFlt.refl s).signal n unit; rw [h]
@[simp] theorem State.signal_tag (s : State) (n : Nat) (unit : Nat) : (s.signal n unit).tag = s.tag := by
  obtain ⟨r, f, h⟩ := (RegsFlt.refl s).signal n unit; rw [h]
@[simp] theorem State.signal_obs (s : State) (n : Nat) (unit : Nat) : (s.signal n unit).obs = s.obs := by
  obtain ⟨r, f, h⟩ := (RegsFlt.refl s).signal n unit; rw [h]
@[simp] theorem State.signal_cphQ (s : State) (n : Nat) (unit : Nat) : (s.signal n unit).cphQ = s.cphQ := by
  obtain ⟨r, f, h⟩ := (RegsFlt.refl s).signal n unit; rw [h]
@[simp] theorem State.signal_mauQ (s : State) (n : Nat) (unit : Nat) : (s.signal n unit).mauQ = s.mauQ := by
  obtain ⟨r, f, h⟩ := (RegsFlt.refl s).signal n unit; rw [h]
@[simp] theorem State.signal_cph (s : State) (n : Nat) (unit : Nat) : (s.signal n unit).cph = s.cph := by
  obtain ⟨r, f, h⟩ := (RegsFlt.refl s).signal n unit; rw [h]
@[simp] theorem State.signal_mau (s : State) (n : Nat) (unit : Nat) : (s.signal n unit).mau = s.mau := by
  obtain ⟨r, f, h⟩ := (RegsFlt.refl s).signal n unit; rw [h]
@[simp] theorem State.signal_cphTake (s : State) (n : Nat) (unit : Nat) : (s.signal n unit).cphTake = s.cphTake := by
  obtain ⟨r, f, h⟩ := (RegsFlt.refl s).signal n unit; rw [h]
@[simp] theorem State.signal_mauBuf (s : State) (n : Nat) (unit : Nat) : (s.signal n unit).mauBuf = s.mauBuf := by
  obtain ⟨r, f, h⟩ := (RegsFlt.refl s).signal n unit; rw [h]
@[simp] theorem State.signal_rng (s : State) (n : Nat) (unit : Nat) : (s.signal n unit).rng = s.rng := by
  obtain ⟨r, f, h⟩ := (RegsFlt.refl s).signal n unit; rw [h]
@[simp] theorem State.signal_tscRem (s : State) (n : Nat) (unit : Nat) : (s.signal n unit).tscRem = s.tscRem := by
  obtain ⟨r, f, h⟩ := (RegsFlt.refl s).signal n unit; rw [h]
@[simp] theorem State.signal_freeCtr (s : State) (n : Nat) (unit : Nat) : (s.signal n unit).freeCtr = s.freeCtr := by
  obtain ⟨r, f, h⟩ := (RegsFlt.refl s).signal n unit; rw [h]
@[simp] theorem State.signal_out (s : State) (n : Nat) (unit : Nat) : (s.signal n unit).out = s.out := by
  obtain ⟨r, f, h⟩ := (RegsFlt.refl s).signal n unit; rw [h]
@[simp] theorem State.signal_lastRead (s : State) (n : Nat) (unit : Nat) : (s.signal n unit).lastRead = s.lastRead := by
  obtain ⟨r, f, h⟩ := (RegsFlt.refl s).signal n unit; rw [h]
@[simp] theorem State.signal_pending (s : State) (n : Nat) (unit : Nat) : (s.signal n unit).pending = s.pending := by
  obtain ⟨r, f, h⟩ := (RegsFlt.refl s).signal n unit; rw [h]

@[simp] theorem State.elapse_clock (s : State) (dt : Nat) : (s.elapse dt).clock = s.clock + dt := by
  simp only [State.elapse]; split <;> simp

end Sys2Proof.Machine
end

