-- ==== Sys2Proof/Laws/Memory.lean ====
section
/-!
SUPPORT. Laws/Memory.lean: reading memory after a write, the canonical form of every memory operation, and the tags of
the granules a store touches (04 R109).
-/

namespace Sys2Proof.Machine

/-! ### One byte -/

@[simp] theorem memGet_memPut_self (m : List Host.Cell) (a : Nat) (v : Byte) : memGet (memPut m a v) a = v :=
  sget_sput_self _ _ _ _

theorem memGet_memPut_ne (m : List Host.Cell) {a b : Nat} (v : Byte) (h : b ≠ a) :
    memGet (memPut m a v) b = memGet m b := sget_sput_ne _ _ _ _ h

/-! ### Bytes in a row -/

/-- A write leaves every byte outside it alone. -/
theorem memGet_memWrite_out (bs : List Byte) : ∀ (m : List Host.Cell) (a b : Nat), (b < a ∨ a + bs.length ≤ b) →
    memGet (memWrite m a bs) b = memGet m b := by
  induction bs with
  | nil => intros; rfl
  | cons x t ih =>
    intro m a b h
    simp only [List.length_cons] at h
    rw [memWrite, ih _ _ _ (by omega), memGet_memPut_ne _ _ (by omega)]

/-- Byte `i` of a write reads as it was written. -/
theorem memGet_memWrite_in (bs : List Byte) : ∀ (m : List Host.Cell) (a i : Nat) (h : i < bs.length),
    memGet (memWrite m a bs) (a + i) = bs[i] := by
  induction bs with
  | nil => intro m a i h; simp at h
  | cons x t ih =>
    intro m a i h
    cases i with
    | zero => rw [memWrite, Nat.add_zero, memGet_memWrite_out _ _ _ _ (by omega)]; simp
    | succ i =>
      have := ih (memPut m a x) (a + 1) i (by simpa using h)
      rw [memWrite, show a + (i + 1) = a + 1 + i by omega, this]
      simp

@[simp] theorem memRead_length (m : List Host.Cell) (n : Nat) : ∀ a, (memRead m a n).length = n := by
  induction n with
  | zero => intro a; rfl
  | succ n ih => intro a; simp [memRead, ih]

/-- What was written is read back. -/
theorem memRead_memWrite (m : List Host.Cell) (a : Nat) (bs : List Byte) : memRead (memWrite m a bs) a bs.length = bs := by
  suffices h : ∀ (k : Nat) (j : Nat), j + k = bs.length → memRead (memWrite m a bs) (a + j) k = bs.drop j by
    simpa using h bs.length 0 (by omega)
  intro k
  induction k with
  | zero => intro j hj; simp [memRead, show j = bs.length by omega]
  | succ k ih =>
    intro j hj
    have hlt : j < bs.length := by omega
    rw [memRead, memGet_memWrite_in bs m a j hlt, Nat.add_assoc, ih (j + 1) (by omega), List.drop_eq_getElem_cons hlt]

/-! ### The canonical form -/

theorem memPut_wf {m : List Host.Cell} (h : memWf m) (a : Nat) (v : Byte) : memWf (memPut m a v) := swf_sput a v h

theorem memWrite_wf (bs : List Byte) : ∀ {m : List Host.Cell} (_ : memWf m) (a : Nat), memWf (memWrite m a bs) := by
  induction bs with
  | nil => intro m h _; exact h
  | cons x t ih => intro m h a; exact ih (memPut_wf h a x) (a + 1)

theorem tagClear_wf {t : Sparse Bool} (h : swf (fun _ => false) t = true) : ∀ (n g : Nat),
    swf (fun _ => false) (tagClear t g n) = true := by
  intro n
  induction n generalizing t with
  | zero => intro g; exact h
  | succ n ih => intro g; exact ih (swf_sput g false h) (g + 1)

theorem tagPut_wf {t : Sparse Bool} (h : swf (fun _ => false) t = true) (a : Nat) (b : Bool) :
    swf (fun _ => false) (tagPut t a b) = true := swf_sput (a / 16) b h

/-- A store keeps the canonical form of memory and of the tags. -/
theorem State.storeBytes_wf {s : State} (hm : memWf s.mem) (ht : swf (fun _ => false) s.tags = true) (a : Nat)
    (bs : List Byte) : memWf (s.storeBytes a bs).mem ∧ swf (fun _ => false) (s.storeBytes a bs).tags = true :=
  ⟨memWrite_wf bs hm a, tagClear_wf ht _ _⟩

/-! ### Private memories -/

theorem prvGet_prvWrite_out (bs : List Byte) : ∀ (m : List Host.Cell) (a b : Nat), (b < a ∨ a + bs.length ≤ b) →
    prvGet (prvWrite m a bs) b = prvGet m b := by
  induction bs with
  | nil => intros; rfl
  | cons x t ih =>
    intro m a b h
    simp only [List.length_cons] at h
    rw [prvWrite, ih _ _ _ (by omega)]
    exact sget_sput_ne _ _ _ _ (by omega)

theorem prvWrite_wf (bs : List Byte) : ∀ {m : List Host.Cell} (_ : swf (fun _ => 0) m = true) (a : Nat),
    swf (fun _ => 0) (prvWrite m a bs) = true := by
  induction bs with
  | nil => intro m h _; exact h
  | cons x t ih => intro m h a; exact ih (swf_sput a x h) (a + 1)

/-! ### Tags -/

theorem tagAt_tagClear (t : Sparse Bool) : ∀ (n g a : Nat),
    tagAt (tagClear t g n) a = if g ≤ a / 16 ∧ a / 16 < g + n then false else tagAt t a := by
  intro n
  induction n generalizing t with
  | zero =>
    intro g a
    rw [if_neg (by omega)]; rfl
  | succ n ih =>
    intro g a
    rw [tagClear, ih]
    by_cases h : a / 16 = g
    · rw [if_neg (by omega), if_pos (by omega), tagAt, h, sget_sput_self]
    · rw [show tagAt (sput false t g false) a = tagAt t a from sget_sput_ne _ _ _ _ h]
      by_cases h2 : g + 1 ≤ a / 16 ∧ a / 16 < g + 1 + n
      · rw [if_pos h2, if_pos (by omega)]
      · rw [if_neg h2, if_neg (by omega)]

/-- A data store clears the tag of every granule it touches (04 R109). -/
theorem State.storeBytes_clears_tag (s : State) (a : Nat) (bs : List Byte) (b : Nat) (h1 : a ≤ b) (h2 : b < a + bs.length) :
    tagAt (s.storeBytes a bs).tags b = false := by
  have hne : bs.isEmpty = false := by
    cases bs with
    | nil => simp at h2; omega
    | cons _ _ => rfl
  simp only [State.storeBytes, hne, tagAt_tagClear]
  rw [if_pos]
  have := Nat.div_le_div_right (c := 16) h1
  have h3 : b / 16 ≤ (a + bs.length - 1) / 16 := Nat.div_le_div_right (by omega)
  simp
  omega

/-! ### Whole memories -/

/-- Every byte of memory after a write. -/
theorem memGet_memWrite (m : List Host.Cell) (ea : Nat) (bs : List Byte) (a : Nat) :
    memGet (memWrite m ea bs) a = if ea ≤ a ∧ a < ea + bs.length then bs.getD (a - ea) 0 else memGet m a := by
  split
  · next h =>
    obtain ⟨i, rfl⟩ := Nat.exists_eq_add_of_le h.1
    have hi : i < bs.length := by omega
    rw [memGet_memWrite_in bs m ea i hi]
    simp [hi]
  · next h => exact memGet_memWrite_out _ _ _ _ (by omega)

/-- Byte `i` of a write of a private memory reads as it was written. -/
theorem prvGet_prvWrite_in (bs : List Byte) : ∀ (m : List Host.Cell) (a i : Nat) (h : i < bs.length),
    prvGet (prvWrite m a bs) (a + i) = bs[i] := by
  induction bs with
  | nil => intro m a i h; simp at h
  | cons x t ih =>
    intro m a i h
    cases i with
    | zero =>
      rw [prvWrite, Nat.add_zero, prvGet_prvWrite_out _ _ _ _ (by omega)]
      exact sget_sput_self _ _ _ _
    | succ i =>
      have := ih (sput 0 m a x) (a + 1) i (by simpa using h)
      rw [prvWrite, show a + (i + 1) = a + 1 + i by omega, this]
      simp

/-- Every byte of a private memory after a write. -/
theorem prvGet_prvWrite (m : List Host.Cell) (ea : Nat) (bs : List Byte) (a : Nat) :
    prvGet (prvWrite m ea bs) a = if ea ≤ a ∧ a < ea + bs.length then bs.getD (a - ea) 0 else prvGet m a := by
  split
  · next h =>
    obtain ⟨i, rfl⟩ := Nat.exists_eq_add_of_le h.1
    have hi : i < bs.length := by omega
    rw [prvGet_prvWrite_in bs m ea i hi]
    simp [hi]
  · next h => exact prvGet_prvWrite_out _ _ _ _ (by omega)

/-- Every tag after a write of one. -/
theorem tagAt_tagPut (t : Sparse Bool) (a : Nat) (b : Bool) (x : Nat) :
    tagAt (tagPut t a b) x = if a / 16 = x / 16 then b else tagAt t x := by
  unfold tagAt tagPut
  rw [sget_sput]
  split <;> split <;> first | rfl | omega

/-- Every tag after a data store (04 R109). -/
theorem State.tagAt_storeBytes (s : State) (ea : Nat) {bs : List Byte} (hne : bs ≠ []) (a : Nat) :
    tagAt (s.storeBytes ea bs).tags a =
      if ea / 16 ≤ a / 16 ∧ a / 16 ≤ (ea + bs.length - 1) / 16 then false else tagAt s.tags a := by
  have he : bs.isEmpty = false := by cases bs <;> simp at hne ⊢
  simp only [State.storeBytes, he, tagAt_tagClear, Bool.false_eq_true, if_false]
  have hl : 0 < bs.length := List.length_pos_iff.2 hne
  have h1 : ea / 16 ≤ (ea + bs.length - 1) / 16 := Nat.div_le_div_right (by omega)
  generalize (ea + bs.length - 1) / 16 = e at h1 ⊢
  split <;> split <;> first | rfl | (exfalso; omega)

end Sys2Proof.Machine
end

