-- ==== Sys2Proof/Laws/Regs.lean ====
section
/-!
SUPPORT. Laws/Regs.lean: registers and their fields: what a read gives after a write (00 R5, R9).
-/

namespace Sys2Proof.Machine

/-! ### Registers -/

@[simp] theorem State.rd_wr_self (s : State) (a : Nat) (v : Word) : (s.wr a v).rd a = v := sget_sput_self _ _ _ _

theorem State.rd_wr_ne (s : State) {a b : Nat} (v : Word) (h : b ≠ a) : (s.wr a v).rd b = s.rd b :=
  sget_sput_ne _ _ _ _ h

theorem State.rd_wr (s : State) (a b : Nat) (v : Word) : (s.wr a v).rd b = if b = a then v else s.rd b :=
  sget_sput _ _ _ _ _

/-- Two states with the same registers read alike. -/
theorem State.rd_congr {s t : State} (h : s.regs = t.regs) (a : Nat) : s.rd a = t.rd a := by
  simp [State.rd, h]
theorem State.fget_congr {s t : State} (h : s.regs = t.regs) (f : Fld) : s.fget f = t.fget f := by
  simp [State.fget, State.rd, h]
theorem State.on_congr {s t : State} (h : s.regs = t.regs) (f : Fld) : s.on f = t.on f := by
  simp [State.on, State.fget_congr h]

/-! ### Fields of a word -/

theorem bitsOf_lt (w : Word) (lo wd : Nat) : bitsOf w lo wd < 2 ^ wd := Nat.mod_lt _ (Nat.two_pow_pos _)

theorem bitsOf_testBit (w : Word) (lo wd i : Nat) :
    (bitsOf w lo wd).testBit i = (decide (i < wd) && w.toNat.testBit (lo + i)) := by
  simp [bitsOf, Nat.testBit_mod_two_pow, Nat.testBit_div_two_pow, Nat.add_comm]

theorem withBits_toNat (w : Word) {lo wd : Nat} (v : Nat) (h : lo + wd ≤ 64) (i : Nat) :
    (withBits w lo wd v).toNat.testBit i =
      if i < lo then w.toNat.testBit i else if i < lo + wd then v.testBit (i - lo) else w.toNat.testBit i := by
  have key : w.toNat % 2 ^ lo + v % 2 ^ wd * 2 ^ lo + w.toNat / 2 ^ (lo + wd) * 2 ^ (lo + wd) =
      (w.toNat / 2 ^ (lo + wd)) * 2 ^ (lo + wd) + ((v % 2 ^ wd) * 2 ^ lo + w.toNat % 2 ^ lo) := by omega
  have h1 : w.toNat % 2 ^ lo < 2 ^ lo := Nat.mod_lt _ (Nat.two_pow_pos _)
  have h2 : v % 2 ^ wd < 2 ^ wd := Nat.mod_lt _ (Nat.two_pow_pos _)
  have h3 : (v % 2 ^ wd) * 2 ^ lo + w.toNat % 2 ^ lo < 2 ^ (lo + wd) := by
    rw [Nat.pow_add, Nat.mul_comm (2 ^ lo)]
    calc (v % 2 ^ wd) * 2 ^ lo + w.toNat % 2 ^ lo < (v % 2 ^ wd) * 2 ^ lo + 2 ^ lo := by omega
      _ = (v % 2 ^ wd + 1) * 2 ^ lo := by rw [Nat.succ_mul]
      _ ≤ 2 ^ wd * 2 ^ lo := Nat.mul_le_mul_right _ h2
  have hw : w.toNat < 2 ^ 64 := w.isLt
  unfold withBits
  rw [key, BitVec.toNat_ofNat, Nat.testBit_mod_two_pow, Nat.mul_comm _ (2 ^ (lo + wd)),
    Nat.testBit_two_pow_mul_add _ h3, Nat.mul_comm (v % 2 ^ wd), Nat.testBit_two_pow_mul_add _ h1,
    Nat.testBit_mod_two_pow, Nat.testBit_mod_two_pow, Nat.testBit_div_two_pow]
  by_cases hi : i < lo
  · have : i < 64 := by omega
    have h' : i < lo + wd := by omega
    simp [hi, this, h']
  · by_cases hj : i < lo + wd
    · have : i < 64 := by omega
      have h' : i - lo < wd := by omega
      simp [hi, hj, this, h']
    · by_cases hk : i < 64
      · have e : i - (lo + wd) + (lo + wd) = i := by omega
        simp [hi, hj, hk, e]
      · have : w.toNat.testBit i = false := Nat.testBit_lt_two_pow (Nat.lt_of_lt_of_le hw (Nat.pow_le_pow_right (by decide) (by omega)))
        simp [hi, hj, hk, this]

/-- A field reads as it was written. -/
theorem bitsOf_withBits_self (w : Word) (lo wd v : Nat) (h : lo + wd ≤ 64) : bitsOf (withBits w lo wd v) lo wd = v % 2 ^ wd := by
  refine Nat.eq_of_testBit_eq fun i => ?_
  rw [bitsOf_testBit, withBits_toNat w v h, Nat.testBit_mod_two_pow]
  by_cases hi : i < wd
  · simp [hi]
  · simp [hi]

/-- A write of a field leaves the bits outside it alone. -/
theorem bitsOf_withBits_apart (w : Word) {lo wd lo' wd' v : Nat} (h : lo + wd ≤ 64) (ha : lo + wd ≤ lo' ∨ lo' + wd' ≤ lo) :
    bitsOf (withBits w lo wd v) lo' wd' = bitsOf w lo' wd' := by
  refine Nat.eq_of_testBit_eq fun i => ?_
  rw [bitsOf_testBit, bitsOf_testBit, withBits_toNat w v h]
  by_cases hi : i < wd'
  · rcases ha with ha | ha
    · have h1 : ¬ lo' + i < lo := by omega
      have h2 : ¬ lo' + i < lo + wd := by omega
      simp [h1, h2]
    · have h1 : lo' + i < lo := by omega
      simp [h1]
  · simp [hi]

/-! ### Fields of registers -/

/-- A field fits a 64-bit word. -/
def Fld.fits (f : Fld) : Prop := f.lo + f.width ≤ 64

/-- Two fields share no bit. -/
def Fld.apart (f g : Fld) : Prop := f.addr ≠ g.addr ∨ f.lo + f.width ≤ g.lo ∨ g.lo + g.width ≤ f.lo

theorem State.fget_fset_self (s : State) (f : Fld) (v : Nat) (h : f.fits) : (s.fset f v).fget f = v % 2 ^ f.width := by
  simp [State.fget, State.fset, bitsOf_withBits_self _ _ _ _ h]

theorem State.fget_fset_apart (s : State) (f g : Fld) (v : Nat) (hf : f.fits) (h : f.apart g) :
    (s.fset f v).fget g = s.fget g := by
  unfold State.fget State.fset
  rw [State.rd_wr]
  split
  · next e =>
    rw [e]
    exact bitsOf_withBits_apart _ hf (h.resolve_left fun hne => hne e.symm)
  · rfl

theorem State.rd_fset_ne (s : State) (f : Fld) (v : Nat) {b : Nat} (h : b ≠ f.addr) : (s.fset f v).rd b = s.rd b :=
  State.rd_wr_ne _ _ h

theorem State.on_raise_self (s : State) (f : Fld) (h : f.fits) (hw : 1 ≤ f.width) : (s.raise f).on f = true := by
  have h2 : 2 ^ 1 ≤ 2 ^ f.width := Nat.pow_le_pow_right (by decide) hw
  simp only [State.on, State.raise, State.fget_fset_self s f 1 h, decide_eq_true_eq]
  exact Nat.mod_eq_of_lt (by omega)

theorem State.on_lower_self (s : State) (f : Fld) (h : f.fits) : (s.lower f).on f = false := by
  simp [State.on, State.lower, State.fget_fset_self s f 0 h]

theorem State.on_fset_apart (s : State) (f g : Fld) (v : Nat) (hf : f.fits) (h : f.apart g) :
    (s.fset f v).on g = s.on g := by
  simp [State.on, State.fget_fset_apart s f g v hf h]

theorem State.on_raise_apart (s : State) (f g : Fld) (hf : f.fits) (h : f.apart g) : (s.raise f).on g = s.on g :=
  State.on_fset_apart s f g 1 hf h

theorem State.on_lower_apart (s : State) (f g : Fld) (hf : f.fits) (h : f.apart g) : (s.lower f).on g = s.on g :=
  State.on_fset_apart s f g 0 hf h

theorem State.on_put_self (s : State) (f : Fld) (b : Bool) (h : f.fits) (hw : 1 ≤ f.width) : (s.put f b).on f = b := by
  cases b
  · exact State.on_lower_self s f h
  · exact State.on_raise_self s f h hw

theorem State.on_put_apart (s : State) (f g : Fld) (b : Bool) (hf : f.fits) (h : f.apart g) : (s.put f b).on g = s.on g :=
  State.on_fset_apart s f g _ hf h

end Sys2Proof.Machine
end

