-- ==== Sys2Proof/Laws/Ops.lean ====
section
/-!
SUPPORT. Laws/Ops.lean: what the shared operations of Machine/Ops.lean do: commands with conditions, the passing of time
(01 R13), event counters (19 R418) and fault events (16 R370).
-/

namespace Sys2Proof.Machine

/-! ### Commands with conditions (00 R10) -/

theorem event_of (c : Bool) (s : State) (f : State → State) (h : c = true) : event c s f = .next (f s) := by simp [event, h]
theorem event_not (c : Bool) (s : State) (f : State → State) (h : c = false) : event c s f = .next s := by simp [event, h]
theorem event_next (c : Bool) (s : State) (f : State → State) : ∃ t, event c s f = .next t := ⟨_, rfl⟩

theorem timed_of (dt : Nat) (c : State → Bool) (s : State) (f : State → State) (h : c (s.elapse dt) = true) :
    timed dt c s f = .next (f (s.elapse dt)) := event_of _ _ _ h
theorem timed_not (dt : Nat) (c : State → Bool) (s : State) (f : State → State) (h : c (s.elapse dt) = false) :
    timed dt c s f = .next (s.elapse dt) := event_not _ _ _ h

/-! ### Time (01 R13, 15 R349) -/

theorem State.rd_tscTick (s : State) (dt : Nat) {a : Nat} (h : a ≠ TMP_TSC) : (s.tscTick dt).rd a = s.rd a := by
  unfold State.tscTick
  split
  · rfl
  · exact State.rd_wr_ne _ _ h

/-- The passing of time changes no register but the time-stamp counter. -/
theorem State.rd_elapse (s : State) (dt : Nat) {a : Nat} (h : a ≠ TMP_TSC) : (s.elapse dt).rd a = s.rd a := by
  have : (s.elapse dt).regs = (s.tscTick dt).regs := by
    simp only [State.elapse]; split <;> rfl
  rw [State.rd_congr this, State.rd_tscTick s dt h]

theorem State.fget_elapse (s : State) (dt : Nat) (f : Fld) (h : f.addr ≠ TMP_TSC) : (s.elapse dt).fget f = s.fget f := by
  simp [State.fget, State.rd_elapse s dt h]

theorem State.on_elapse (s : State) (dt : Nat) (f : Fld) (h : f.addr ≠ TMP_TSC) : (s.elapse dt).on f = s.on f := by
  simp [State.on, State.fget_elapse s dt f h]

/-- The timebase runs while the Ethernet island has power and its clock, at the rate that its adjustment gives it (01
R13). -/
theorem State.tb_elapse (s : State) (dt : Nat) :
    (s.elapse dt).tb = if s.powered && s.sys.refclkEth then
      (s.tb + (s.tbRem + dt * (1000000000 + s.rate).toNat) / 1000000000) % 2 ^ 64 else s.tb := by
  have hp : (s.tscTick dt).powered = s.powered := by simp [State.powered]
  have hr : (s.tscTick dt).sys.refclkEth = s.sys.refclkEth := by simp
  have : ∀ t : State, ({ t with clock := t.clock + dt } : State).powered = t.powered := fun _ => rfl
  simp only [State.elapse, this, hp, hr]
  split <;> simp [State.tbTick]

/-! ### Event counters (19 R418) -/

/-- Counting touches the counter and its overflow word alone. -/
theorem State.rd_count (s : State) (e n : Nat) {a : Nat} (h1 : a ≠ PMC_CNT e) (h2 : a ≠ PMC_OVF (e / 32))
    (h3 : a ≠ PMC_SNAPC e) : (s.count e n).rd a = s.rd a := by
  have hw : ∀ v, (s.wr (PMC_CNT e) v).rd a = s.rd a := fun v => State.rd_wr_ne _ _ h1
  simp only [State.count]
  repeat' split
  · rw [State.raise, State.rd_fset_ne _ _ _ h2, State.rd_wr_ne _ _ h3, hw]
  · rw [State.raise, State.rd_fset_ne _ _ _ h2, hw]
  · rw [State.rd_wr_ne _ _ h3, hw]
  · exact hw _
  · rfl

/-! ### Fault events (16 R370) -/

theorem State.rd_react (s : State) (n unit : Nat) (forced : Bool) (a : Nat) : (s.react n unit forced).rd a = s.rd a := by
  simp only [State.react]; split <;> rfl

theorem State.rd_reactAgain (s : State) (n unit : Nat) (a : Nat) : (s.reactAgain n unit).rd a = s.rd a := by
  unfold State.reactAgain; split <;> rfl

/-- What every write of the source's own fields and every change of the collector keeps, a fault event keeps. -/
theorem State.fault_keeps {P : State → Prop} (n unit : Nat) (forced : Bool) (hs : ∀ t, P t → P (t.raise (stkyFld n)))
    (hv : ∀ t, P t → P (t.raise (sevFld n))) (ho : ∀ t, P t → P (t.raise (FLT_CNT_OPEN n)))
    (hl : ∀ t, P t → P (t.lower (FLT_CNT_OPEN n))) (hc : ∀ t v, P t → P (t.fset (FLT_CNT_CNT n) v))
    (hf : ∀ (t : State) x, P t → P { t with flt := x }) (s : State) (h : P s) : P (s.fault n unit forced) := by
  have hi : ∀ {t u : State} (c : Prop) [Decidable c], P t → P u → P (if c then t else u) := by
    intro t u c _ ht hu; split <;> assumption
  have ha : ∀ t : State, P t → P (t.reactAgain n unit) := fun t ht => hi _ (hf _ _ ht) ht
  have hr : ∀ t : State, P t → P (t.react n unit forced) := by
    intro t ht; simp only [State.react]; split <;> exact hf _ _ ht
  have hw : ∀ t : State, P t → P (t.closeIfOver n) := fun t ht => hi _ (hc _ _ (hl _ ht)) ht
  exact hi _ (ha _ (hs _ h))
    (hi _ (hr _ (hl _ (hv _ (hc _ _ (hi _ (hf _ _ (ho _ (hw _ (hs _ h)))) (hw _ (hs _ h)))))))
      (hc _ _ (hi _ (hf _ _ (ho _ (hw _ (hs _ h)))) (hw _ (hs _ h)))))

/-- A fault event touches the sticky bit, the SEV bit and the count of its source alone. -/
theorem State.rd_fault (s : State) (n unit : Nat) (forced : Bool) {a : Nat} (h1 : a ≠ FLT_STKY (n / 32))
    (h2 : a ≠ FLT_SEV (n / 32)) (h3 : a ≠ FLT_CNT n) : (s.fault n unit forced).rd a = s.rd a := by
  generalize hv : s.rd a = v
  exact State.fault_keeps (P := fun t => t.rd a = v) n unit forced
    (fun t h => (State.rd_fset_ne t _ _ h1).trans h) (fun t h => (State.rd_fset_ne t _ _ h2).trans h)
    (fun t h => (State.rd_fset_ne t _ _ h3).trans h) (fun t h => (State.rd_fset_ne t _ _ h3).trans h)
    (fun t _ h => (State.rd_fset_ne t _ _ h3).trans h) (fun _ _ h => h) s hv

theorem State.rd_signal (s : State) (n unit : Nat) {a : Nat} (h1 : a ≠ FLT_STKY (n / 32))
    (h2 : a ≠ FLT_SEV (n / 32)) (h3 : a ≠ FLT_CNT n) : (s.signal n unit).rd a = s.rd a := by
  unfold State.signal
  split
  · exact State.rd_fault _ _ _ _ h1 h2 h3
  · rfl

end Sys2Proof.Machine
end

