-- ==== Sys2Proof/Laws/Kept.lean ====
section
/-!
SUPPORT. Laws/Kept.lean: what every operation of the model keeps: the queue of waiting commands, the canonical form of
the register map and of every memory, and that the lifecycle state never moves back (13 R320). `Kept s t` says that it
holds between `s` and `t`; the files Kept*.lean say it of each operation.
-/

namespace Sys2Proof.Machine

/-- What lies between a state and a later one. -/
structure Kept (s t : State) : Prop where
  pending : t.pending = s.pending
  canonical : Canonical s → Canonical t
  lifecycle : ∀ L, LcAtLeast L s → LcAtLeast L t

theorem Kept.refl (s : State) : Kept s s := ⟨rfl, id, fun _ => id⟩

theorem Kept.trans {s t u : State} (h : Kept s t) (k : Kept t u) : Kept s u :=
  ⟨k.pending.trans h.pending, k.canonical ∘ h.canonical, fun L => k.lifecycle L ∘ h.lifecycle L⟩

/-- An update of what `Kept` says nothing about. -/
theorem Kept.drop {s t : State} {regs heldLow latchHigh mem tags damaged tb tbRem rate clock cores svc adm dsp kst duo sys flc flt wck crd tag obs cphQ mauQ cph mau cphTake mauBuf rng tscRem freeCtr out lastRead pending} (h : Kept s t) (hp : pending = t.pending) (hr : regs = t.regs)
    (hm : mem = t.mem) (ht : tags = t.tags) (hdm : DspState.mem dsp = t.dsp.mem) (hdt : DspState.tags dsp = t.dsp.tags)
    (hwm : WckState.mem wck = t.wck.mem) (hwt : WckState.tags wck = t.wck.tags) (hl : SysState.lc sys = t.sys.lc)
    (ha : SysState.advancing sys = t.sys.advancing) :
    Kept s (State.mk regs heldLow latchHigh mem tags damaged tb tbRem rate clock cores svc adm dsp kst duo sys flc flt wck crd tag obs cphQ mauQ cph mau cphTake mauBuf rng tscRem freeCtr out lastRead pending) where
  pending := hp.trans h.pending
  canonical c := by
    obtain ⟨a, b, c, d, e, f, g⟩ := h.canonical c
    exact ⟨hr ▸ a, hm ▸ b, ht ▸ c, hdm ▸ d, hdt ▸ e, hwm ▸ f, hwt ▸ g⟩
  lifecycle L c := by
    obtain ⟨a, b⟩ := h.lifecycle L c
    exact ⟨hl ▸ a, ha ▸ b⟩

/-- An update that keeps the canonical form of what it writes. -/
theorem Kept.maps {s t : State} {regs heldLow latchHigh mem tags damaged tb tbRem rate clock cores svc adm dsp kst duo sys flc flt wck crd tag obs cphQ mauQ cph mau cphTake mauBuf rng tscRem freeCtr out lastRead pending} (h : Kept s t) (hp : pending = t.pending)
    (hr : swf (fun _ => (0 : Word)) t.regs = true → swf (fun _ => (0 : Word)) regs = true) (hm : memWf t.mem → memWf mem)
    (ht : swf (fun _ => false) t.tags = true → swf (fun _ => false) tags = true)
    (hdm : swf (fun _ => (0 : Byte)) t.dsp.mem = true → swf (fun _ => (0 : Byte)) (DspState.mem dsp) = true)
    (hdt : swf (fun _ => false) t.dsp.tags = true → swf (fun _ => false) (DspState.tags dsp) = true)
    (hwm : swf (fun _ => (0 : Byte)) t.wck.mem = true → swf (fun _ => (0 : Byte)) (WckState.mem wck) = true)
    (hwt : swf (fun _ => false) t.wck.tags = true → swf (fun _ => false) (WckState.tags wck) = true)
    (hl : SysState.lc sys = t.sys.lc) (ha : SysState.advancing sys = t.sys.advancing) :
    Kept s (State.mk regs heldLow latchHigh mem tags damaged tb tbRem rate clock cores svc adm dsp kst duo sys flc flt wck crd tag obs cphQ mauQ cph mau cphTake mauBuf rng tscRem freeCtr out lastRead pending) where
  pending := hp.trans h.pending
  canonical c := by
    obtain ⟨a, b, c, d, e, f, g⟩ := h.canonical c
    exact ⟨hr a, hm b, ht c, hdm d, hdt e, hwm f, hwt g⟩
  lifecycle L c := by
    obtain ⟨a, b⟩ := h.lifecycle L c
    exact ⟨hl ▸ a, ha ▸ b⟩

theorem Kept.ite {s t u : State} {c : Prop} {d : Decidable c} (ht : Kept s t) (hu : Kept s u) : Kept s (@ite State c d t u) := by
  split <;> assumption

theorem Kept.foldl {α : Type} {s t : State} {f : State → α → State} {l : List α}
    (hf : ∀ t a, Kept s t → Kept s (f t a)) (h : Kept s t) : Kept s (l.foldl f t) := by
  induction l generalizing t with
  | nil => exact h
  | cons a l ih => exact ih (hf t a h)

theorem Kept.fst {α : Type} {s t : State} {p : State × α} {a : α} (e : p = (t, a)) (h : Kept s p.1) : Kept s t := by
  subst e; exact h

theorem Kept.snd {α : Type} {s t : State} {p : α × State} {a : α} (e : p = (a, t)) (h : Kept s p.2) : Kept s t := by
  subst e; exact h

/-! ### What an instruction does -/

/-- The state in what an instruction does. -/
def Res.state : Res → State
  | .seq t => t
  | .branch t _ => t
  | .switch t _ _ _ => t
  | .raises _ t => t
  | .stays t => t

/-- `Kept` of the state in what an instruction does. -/
def KeptR (s : State) (r : Res) : Prop := Kept s r.state

theorem KeptR.seq {s t : State} (h : Kept s t) : KeptR s (.seq t) := h
theorem KeptR.branch {s t : State} {c : BitVec 48} (h : Kept s t) : KeptR s (.branch t c) := h
theorem KeptR.switch {s t : State} {p : BitVec 48} {l : Option (BitVec 48 × BitVec 48)} {b : Bool} (h : Kept s t) :
    KeptR s (.switch t p l b) := h
theorem KeptR.raises {s t : State} {x : Exc} (h : Kept s t) : KeptR s (.raises x t) := h
theorem KeptR.stays {s t : State} (h : Kept s t) : KeptR s (.stays t) := h
theorem KeptR.ite {s : State} {t u : Res} {c : Prop} {d : Decidable c} (ht : KeptR s t) (hu : KeptR s u) :
    KeptR s (@ite Res c d t u) := by split <;> assumption

/-! ### The updates everything is built from -/

theorem Kept.wr {s t : State} (h : Kept s t) (a : Nat) (v : Word) : Kept s (t.wr a v) :=
  h.trans ⟨rfl, fun c => { c with regs := swf_sput (d := fun _ => 0) a v c.regs }, fun _ k => ⟨k.now, k.next⟩⟩

theorem Kept.storeBytes {s t : State} (h : Kept s t) (a : Nat) (bs : List Byte) : Kept s (t.storeBytes a bs) :=
  h.trans ⟨rfl, fun c => { c with
    mem := memWrite_wf bs c.mem a
    tags := tagClear_wf c.tags _ _ }, fun _ k => ⟨k.now, k.next⟩⟩

/-- Words written one after the other keep the canonical form. -/
theorem swf_puts (l : Sparse Word) : ∀ {m : Sparse Word}, swf (fun _ => (0 : Word)) m = true →
    swf (fun _ => (0 : Word)) (l.foldl (fun m (e : Nat × Word) => sput 0 m e.1 e.2) m) = true := by
  induction l with
  | nil => intro m h; exact h
  | cons e t ih => intro m h; exact ih (swf_sput (d := fun _ => (0 : Word)) e.1 e.2 h)

/-- Words written one after the other keep the canonical form, also where each goes `k` above its key. -/
theorem swf_putsAt (k : Nat) (l : Sparse Word) : ∀ {m : Sparse Word}, swf (fun _ => (0 : Word)) m = true →
    swf (fun _ => (0 : Word)) (l.foldl (fun m (e : Nat × Word) => sput 0 m (e.1 + k) e.2) m) = true := by
  induction l with
  | nil => intro m h; exact h
  | cons e t ih => intro m h; exact ih (swf_sput (d := fun _ => (0 : Word)) (e.1 + k) e.2 h)

/-! ### Commands with conditions -/

theorem event_kept {s0 : State} {c : Bool} {s : State} {f : State → State} (hs : Kept s0 s)
    (hf : ∀ t, Kept s0 t → Kept s0 (f t)) : ∀ u, event c s f = .next u → Kept s0 u := by
  intro u hu
  cases hu
  split
  · exact hf s hs
  · exact hs

end Sys2Proof.Machine
end

