-- ==== Sys2Proof/Laws/KeptCore.lean ====
section
/-! SUPPORT. Laws/KeptCore.lean: what `Kept` says of the core operations, the access table, the ports, records, the
ledger, the duo link and commits. -/

namespace Sys2Proof.Machine

/-! ### Machine/Ops.lean -/

theorem State.wr_kept {s0 : State} (s : State) (a : Nat) (v : Word) (hs : Kept s0 s) : Kept s0 (s.wr a v) := hs.wr a v

theorem State.fset_kept {s0 : State} (s : State) (f : Fld) (v : Nat) (hs : Kept s0 s) :
    Kept s0 (State.fset s f v) := by
  unfold State.fset
  try dsimp only
  repeat' with_reducible first
    | assumption
    | apply State.wr_kept

theorem State.raise_kept {s0 : State} (s : State) (f : Fld) (hs : Kept s0 s) :
    Kept s0 (State.raise s f) := by
  unfold State.raise
  try dsimp only
  repeat' with_reducible first
    | assumption
    | apply State.fset_kept

theorem State.lower_kept {s0 : State} (s : State) (f : Fld) (hs : Kept s0 s) :
    Kept s0 (State.lower s f) := by
  unfold State.lower
  try dsimp only
  repeat' with_reducible first
    | assumption
    | apply State.fset_kept

theorem State.put_kept {s0 : State} (s : State) (f : Fld) (b : Bool) (hs : Kept s0 s) :
    Kept s0 (State.put s f b) := by
  unfold State.put
  try dsimp only
  repeat' with_reducible first
    | assumption
    | apply State.fset_kept

theorem State.drawn_kept {s0 : State} (s : State) (n : Nat) (hs : Kept s0 s) :
    Kept s0 (State.drawn s n) := by
  unfold State.drawn
  try dsimp only
  repeat' with_reducible first
    | assumption
    | refine Kept.drop ?_ rfl rfl rfl rfl rfl rfl rfl rfl rfl rfl

theorem State.emit_kept {s0 : State} (s : State) (e : OutEvent) (hs : Kept s0 s) :
    Kept s0 (State.emit s e) := by
  unfold State.emit
  try dsimp only
  repeat' with_reducible first
    | assumption
    | refine Kept.drop ?_ rfl rfl rfl rfl rfl rfl rfl rfl rfl rfl

theorem State.tscTick_kept {s0 : State} (s : State) (dt : Nat) (hs : Kept s0 s) :
    Kept s0 (State.tscTick s dt) := by
  unfold State.tscTick
  try dsimp only
  repeat' with_reducible first
    | assumption
    | apply State.wr_kept
    | apply Kept.ite
    | split
    | refine Kept.drop ?_ rfl rfl rfl rfl rfl rfl rfl rfl rfl rfl

theorem State.tbTick_kept {s0 : State} (s : State) (dt : Nat) (hs : Kept s0 s) :
    Kept s0 (State.tbTick s dt) := by
  unfold State.tbTick
  try dsimp only
  repeat' with_reducible first
    | assumption
    | split
    | refine Kept.drop ?_ rfl rfl rfl rfl rfl rfl rfl rfl rfl rfl

theorem State.elapse_kept {s0 : State} (s : State) (dt : Nat) (hs : Kept s0 s) :
    Kept s0 (State.elapse s dt) := by
  unfold State.elapse
  try dsimp only
  repeat' with_reducible first
    | assumption
    | apply State.tscTick_kept
    | apply State.tbTick_kept
    | apply Kept.ite
    | split
    | refine Kept.drop ?_ rfl rfl rfl rfl rfl rfl rfl rfl rfl rfl

theorem State.slotHealed_kept {s0 : State} (s : State) (slot : Nat) (hs : Kept s0 s) :
    Kept s0 (State.slotHealed s slot) := by
  unfold State.slotHealed
  try dsimp only
  repeat' with_reducible first
    | assumption
    | split
    | refine Kept.drop ?_ rfl rfl rfl rfl rfl rfl rfl rfl rfl rfl

theorem State.storeBytes_kept {s0 : State} (s : State) (a : Nat) (bs : List Byte) (hs : Kept s0 s) :
    Kept s0 (s.storeBytes a bs) := hs.storeBytes a bs

theorem State.programBytes_kept {s0 : State} (s : State) (a : Nat) (bs : List Byte) (hs : Kept s0 s) :
    Kept s0 (State.programBytes s a bs) := by
  refine Kept.maps ?_ rfl id (fun c => memWrite_wf bs c a) id id id id id rfl rfl
  exact hs

theorem State.count_kept {s0 : State} (s : State) (e : Nat) (n : Nat) (hs : Kept s0 s) :
    Kept s0 (State.count s e n) := by
  unfold State.count
  try dsimp only
  repeat' with_reducible first
    | assumption
    | apply State.wr_kept
    | apply State.raise_kept
    | apply Kept.ite
    | split

theorem State.countBusy_kept {s0 : State} (s : State) (e : Nat) (n : Nat) (hs : Kept s0 s) :
    Kept s0 (State.countBusy s e n) := by
  unfold State.countBusy
  try dsimp only
  repeat' with_reducible first
    | assumption
    | apply State.wr_kept
    | apply State.raise_kept
    | apply Kept.ite
    | split

theorem State.react_kept {s0 : State} (s : State) (n : Nat) (unit : Nat) (forced : Bool) (hs : Kept s0 s) :
    Kept s0 (State.react s n unit forced) := by
  unfold State.react
  try dsimp only
  repeat' with_reducible first
    | assumption
    | split
    | refine Kept.drop ?_ rfl rfl rfl rfl rfl rfl rfl rfl rfl rfl

theorem State.reactAgain_kept {s0 : State} (s : State) (n : Nat) (unit : Nat) (hs : Kept s0 s) :
    Kept s0 (State.reactAgain s n unit) := by
  unfold State.reactAgain
  try dsimp only
  repeat' with_reducible first
    | assumption
    | apply Kept.ite
    | refine Kept.drop ?_ rfl rfl rfl rfl rfl rfl rfl rfl rfl rfl

theorem State.closeWindow_kept {s0 : State} (s : State) (n : Nat) (hs : Kept s0 s) :
    Kept s0 (State.closeWindow s n) := by
  unfold State.closeWindow
  try dsimp only
  repeat' with_reducible first
    | assumption
    | apply State.fset_kept
    | apply State.lower_kept

theorem State.closeIfOver_kept {s0 : State} (s : State) (n : Nat) (hs : Kept s0 s) :
    Kept s0 (State.closeIfOver s n) := by
  unfold State.closeIfOver
  try dsimp only
  repeat' with_reducible first
    | assumption
    | apply State.closeWindow_kept
    | apply Kept.ite
    | split

theorem State.fault_kept {s0 : State} (s : State) (n : Nat) (unit : Nat) (forced : Bool) (hs : Kept s0 s) :
    Kept s0 (State.fault s n unit forced) := by
  unfold State.fault
  try dsimp only
  repeat' with_reducible first
    | assumption
    | apply State.raise_kept
    | apply State.reactAgain_kept
    | apply State.closeIfOver_kept
    | apply State.fset_kept
    | apply State.lower_kept
    | apply State.react_kept
    | apply Kept.ite
    | split
    | refine Kept.drop ?_ rfl rfl rfl rfl rfl rfl rfl rfl rfl rfl

theorem State.signal_kept {s0 : State} (s : State) (n : Nat) (unit : Nat) (hs : Kept s0 s) :
    Kept s0 (State.signal s n unit) := by
  unfold State.signal
  try dsimp only
  repeat' with_reducible first
    | assumption
    | apply State.fault_kept
    | apply Kept.ite

theorem State.setCtx_kept {s0 : State} (s : State) (c : Nat) (x : Ctx) (hs : Kept s0 s) :
    Kept s0 (State.setCtx s c x) := by
  unfold State.setCtx
  try dsimp only
  repeat' with_reducible first
    | assumption
    | refine Kept.drop ?_ rfl rfl rfl rfl rfl rfl rfl rfl rfl rfl

theorem State.setCore_kept {s0 : State} (s : State) (h : Hart) (x : Core) (hs : Kept s0 s) :
    Kept s0 (State.setCore s h x) := by
  unfold State.setCore
  try dsimp only
  repeat' with_reducible first
    | assumption
    | split
    | refine Kept.drop ?_ rfl rfl rfl rfl rfl rfl rfl rfl rfl rfl

theorem State.stopAsked_kept {s0 : State} (s : State) (n : Fin 16) (b : Bool) (hs : Kept s0 s) :
    Kept s0 (State.stopAsked s n b) := by
  unfold State.stopAsked
  try dsimp only
  repeat' with_reducible first
    | assumption
    | apply Kept.ite
    | split
    | refine Kept.drop ?_ rfl rfl rfl rfl rfl rfl rfl rfl rfl rfl

theorem State.dropWaits_kept {s0 : State} (s : State) (n : Fin 16) (hs : Kept s0 s) :
    Kept s0 (State.dropWaits s n) := by
  unfold State.dropWaits
  try dsimp only
  repeat' with_reducible first
    | assumption
    | split
    | refine Kept.drop ?_ rfl rfl rfl rfl rfl rfl rfl rfl rfl rfl

/-! ### Machine/Act.lean -/

theorem State.violate_kept {s0 : State} (s : State) (a : Acc) (addr : Nat) (ty : Access) (d : Denial) (hs : Kept s0 s) :
    Kept s0 (State.violate s a addr ty d) := by
  unfold State.violate
  try dsimp only
  repeat' with_reducible first
    | assumption
    | apply State.raise_kept
    | apply State.count_kept
    | apply State.wr_kept
    | apply State.signal_kept
    | apply Kept.ite

theorem State.enter_kept {s0 : State} (s : State) (a : Acc) (addr : Nat) (ty : Access) (hs : Kept s0 s) :
    Kept s0 (State.enter s a addr ty).2 := by
  unfold State.enter
  try dsimp only
  repeat' with_reducible first
    | assumption
    | apply State.violate_kept
    | apply Kept.ite
    | split

theorem State.flcEcc_kept {s0 : State} (s : State) (double : Bool) (a : Nat) (hs : Kept s0 s) :
    Kept s0 (State.flcEcc s double a) := by
  unfold State.flcEcc
  try dsimp only
  repeat' with_reducible first
    | assumption
    | apply State.raise_kept
    | apply State.count_kept
    | apply State.wr_kept
    | apply Kept.ite
    | split

theorem State.eccRead_kept {s0 : State} (s : State) (a : Nat) (n : Nat) (hs : Kept s0 s) :
    Kept s0 (State.eccRead s a n) := by
  unfold State.eccRead
  try dsimp only
  repeat' with_reducible first
    | assumption
    | apply State.flcEcc_kept
    | apply State.signal_kept
    | apply State.drawn_kept
    | apply Kept.ite
    | split

theorem State.eraseE1_kept {s0 : State} (s : State) (b : Nat) (hs : Kept s0 s) :
    Kept s0 (State.eraseE1 s b) := by
  unfold State.eraseE1
  try dsimp only
  repeat' with_reducible first
    | assumption
    | apply State.fset_kept
    | apply State.raise_kept
    | apply Kept.ite
    | refine Kept.drop ?_ rfl rfl rfl rfl rfl rfl rfl rfl rfl rfl

theorem State.blockBlank_kept {s0 : State} (s : State) (a : Nat) (hs : Kept s0 s) :
    Kept s0 (State.blockBlank s a) := by
  unfold State.blockBlank
  exact Kept.maps hs rfl id (fun c => swf_filter _ c) id id id id id rfl rfl

theorem State.eraseE4_kept {s0 : State} (s : State) (b : Nat) (hs : Kept s0 s) :
    Kept s0 (State.eraseE4 s b) := by
  unfold State.eraseE4
  try dsimp only
  repeat' with_reducible first
    | assumption
    | split
    | refine Kept.drop ?_ rfl rfl rfl rfl rfl rfl rfl rfl rfl rfl

theorem State.drainOld_kept {s0 : State} (s : State) (hs : Kept s0 s) :
    Kept s0 (State.drainOld s) := by
  unfold State.drainOld
  try dsimp only
  repeat' with_reducible first
    | assumption
    | apply State.fset_kept
    | apply State.raise_kept
    | apply Kept.ite

theorem State.stall_kept {s0 : State} (s : State) (m : Master) (addr : Nat) (ty : Access) (hs : Kept s0 s) :
    Kept s0 (State.stall s m addr ty) := by
  unfold State.stall
  try dsimp only
  repeat' with_reducible first
    | assumption
    | apply Kept.ite
    | split
    | refine Kept.drop ?_ rfl rfl rfl rfl rfl rfl rfl rfl rfl rfl

theorem State.freeStalls_kept {s0 : State} (s : State) (hs : Kept s0 s) :
    Kept s0 (State.freeStalls s) := by
  unfold State.freeStalls
  try dsimp only
  repeat' with_reducible first
    | assumption
    | split
    | refine Kept.drop ?_ rfl rfl rfl rfl rfl rfl rfl rfl rfl rfl

theorem State.drainStalls_kept {s0 : State} (s : State) (l : List Stall) (hs : Kept s0 s) :
    Kept s0 (s.drainStalls l) :=
  Kept.foldl (fun t _ h => State.drainOld_kept t h) hs

theorem State.serve_kept {s0 : State} (s : State) (m : Master) (addr : Nat) (ty : Access) (hs : Kept s0 s) :
    Kept s0 (s.serve m addr ty) :=
  State.drainStalls_kept _ _ (Kept.drop hs rfl rfl rfl rfl rfl rfl rfl rfl rfl rfl)

theorem State.endStalls_kept {s0 : State} (s : State) (m : Master) (hs : Kept s0 s) :
    Kept s0 (s.endStalls m) :=
  State.drainStalls_kept _ _ (Kept.drop hs rfl rfl rfl rfl rfl rfl rfl rfl rfl rfl)

theorem State.flashRead_kept {s0 : State} (s : State) (hs : Kept s0 s) :
    Kept s0 (State.flashRead s) := by
  unfold State.flashRead
  try dsimp only
  repeat' with_reducible first
    | assumption
    | apply Kept.ite
    | refine Kept.drop ?_ rfl rfl rfl rfl rfl rfl rfl rfl rfl rfl

theorem State.passes_kept {s0 : State} (s : State) (a : Acc) (addr : Nat) (ty : Access) (hs : Kept s0 s) :
    Kept s0 (State.passes s a addr ty).2 := by
  unfold State.passes
  try dsimp only
  repeat' with_reducible first
    | assumption
    | apply State.enter_kept
    | apply Kept.ite
    | split
    | (dsimp only)

theorem State.readNow_kept {s0 : State} (s : State) (addr : Nat) (n : Nat) (hs : Kept s0 s) :
    Kept s0 (State.readNow s addr n).2 := by
  unfold State.readNow
  try dsimp only
  repeat' with_reducible first
    | assumption
    | apply State.eccRead_kept
    | apply Kept.ite
    | split
    | (dsimp only)

theorem State.busRead_kept {s0 : State} (s : State) (a : Acc) (addr : Nat) (n : Nat) (ty : optParam Access .read) (hs : Kept s0 s) :
    Kept s0 (State.busRead s a addr n ty).2 := by
  unfold State.busRead
  try dsimp only
  repeat' with_reducible first
    | assumption
    | apply State.passes_kept
    | apply State.stall_kept
    | apply State.flashRead_kept
    | apply State.serve_kept
    | apply State.readNow_kept
    | apply State.eccRead_kept
    | apply Kept.ite
    | split
    | (refine Kept.snd (by assumption) ?_)
    | (dsimp only)

theorem State.busWrite_kept {s0 : State} (s : State) (a : Acc) (addr : Nat) (bs : List Byte) (tag : optParam Bool false) (hs : Kept s0 s) :
    Kept s0 (State.busWrite s a addr bs tag).2 := by
  unfold State.busWrite
  try dsimp only
  split
  · refine Kept.snd (by assumption) ?_
    exact State.enter_kept _ _ _ _ hs
  · next _ t he =>
    have h : Kept s0 t := Kept.snd he (State.enter_kept _ _ _ _ hs)
    split
    · split
      · refine Kept.maps ?_ rfl id id (fun c => tagPut_wf c _ _) id id id id rfl rfl
        exact h.storeBytes addr bs
      · exact h.storeBytes addr bs
    · exact h

theorem State.burstRead_kept {s0 : State} (s : State) (a : Acc) (addr : Nat) (x4 : Nat) (hs : Kept s0 s) :
    Kept s0 (State.burstRead s a addr x4).2 := by
  induction x4 generalizing s a addr with
  | zero =>
    unfold State.burstRead
    try dsimp only
    repeat' with_reducible first
      | assumption
  | succ k ih =>
    unfold State.burstRead
    try dsimp only
    repeat' with_reducible first
      | assumption
      | apply ih
      | apply State.busRead_kept
      | apply Kept.ite
      | refine Kept.foldl (fun _ _ _ => ?_) ?_
      | split
      | (refine Kept.snd (by assumption) ?_)

theorem State.readBlock_kept {s0 : State} (s : State) (a : Acc) (addr : Nat) (len : Nat) (hs : Kept s0 s) :
    Kept s0 (State.readBlock s a addr len).2 := by
  unfold State.readBlock
  try dsimp only
  repeat' with_reducible first
    | assumption
    | apply State.burstRead_kept
    | apply Kept.ite
    | split
    | (refine Kept.snd (by assumption) ?_)

theorem State.burstWrite_kept {s0 : State} (s : State) (a : Acc) (addr : Nat) (bs : List Byte) (x5 : Nat) (hs : Kept s0 s) :
    Kept s0 (State.burstWrite s a addr bs x5).2 := by
  induction x5 generalizing s a addr bs with
  | zero =>
    unfold State.burstWrite
    try dsimp only
    repeat' with_reducible first
      | assumption
  | succ k ih =>
    unfold State.burstWrite
    try dsimp only
    repeat' with_reducible first
      | assumption
      | apply ih
      | apply State.busWrite_kept
      | apply Kept.ite
      | refine Kept.foldl (fun _ _ _ => ?_) ?_
      | split
      | (refine Kept.snd (by assumption) ?_)

theorem State.granuleRead_kept {s0 : State} (s : State) (a : Acc) (addr : Nat) (hs : Kept s0 s) :
    Kept s0 (State.granuleRead s a addr).2 := by
  unfold State.granuleRead
  try dsimp only
  repeat' with_reducible first
    | assumption
    | apply State.enter_kept
    | apply State.readNow_kept
    | apply Kept.ite
    | split
    | (refine Kept.snd (by assumption) ?_)
    | (dsimp only)

theorem State.granulesRead_kept {s0 : State} (s : State) (a : Acc) (addr : Nat) (x4 : Nat) (hs : Kept s0 s) :
    Kept s0 (State.granulesRead s a addr x4).2 := by
  induction x4 generalizing s a addr with
  | zero =>
    unfold State.granulesRead
    try dsimp only
    repeat' with_reducible first
      | assumption
  | succ k ih =>
    unfold State.granulesRead
    try dsimp only
    repeat' with_reducible first
      | assumption
      | apply ih
      | apply State.granuleRead_kept
      | split
      | (refine Kept.snd (by assumption) ?_)
      | (dsimp only)

theorem State.pieceRead_kept {s0 : State} (s : State) (a : Acc) (addr : Nat) (len : Nat) (hs : Kept s0 s) :
    Kept s0 (State.pieceRead s a addr len).2 := by
  unfold State.pieceRead
  try dsimp only
  repeat' with_reducible first
    | assumption
    | apply State.granulesRead_kept
    | split
    | (refine Kept.snd (by assumption) ?_)
    | (dsimp only)

theorem State.writeBlock_kept {s0 : State} (s : State) (a : Acc) (addr : Nat) (bs : List Byte) (hs : Kept s0 s) :
    Kept s0 (State.writeBlock s a addr bs).2 := by
  unfold State.writeBlock
  try dsimp only
  repeat' with_reducible first
    | assumption
    | apply State.burstWrite_kept

theorem State.rulesInForce_kept {s0 : State} (s : State) (hs : Kept s0 s) : Kept s0 s.rulesInForce := by
  unfold State.rulesInForce
  exact Kept.maps hs rfl (fun c => swf_putsAt _ _ (swf_filter _ c)) id id id id id id rfl rfl

theorem State.markFlight_kept {s0 : State} (s : State) (hs : Kept s0 s) :
    Kept s0 (State.markFlight s) := by
  unfold State.markFlight
  try dsimp only
  repeat' with_reducible first
    | assumption
    | split
    | refine Kept.drop ?_ rfl rfl rfl rfl rfl rfl rfl rfl rfl rfl

theorem State.actSwitched_kept {s0 : State} (s : State) (hs : Kept s0 s) :
    Kept s0 (State.actSwitched s) := by
  unfold State.actSwitched
  try dsimp only
  repeat' with_reducible first
    | assumption
    | apply State.rulesInForce_kept
    | apply State.fset_kept
    | apply State.lower_kept
    | apply State.raise_kept
    | apply State.markFlight_kept
    | split

theorem State.spaceRead_kept {s0 : State} (s : State) (h : Hart) (perms : BitVec 16) (addr : Nat) (n : Nat) (ty : optParam Access .read) (hs : Kept s0 s) :
    Kept s0 (State.spaceRead s h perms addr n ty).2 := by
  unfold State.spaceRead
  try dsimp only
  repeat' with_reducible first
    | assumption
    | apply State.busRead_kept
    | apply State.signal_kept
    | apply Kept.ite
    | refine Kept.foldl (fun _ _ _ => ?_) ?_
    | split
    | (refine Kept.snd (by assumption) ?_)
    | refine Kept.drop ?_ rfl rfl rfl rfl rfl rfl rfl rfl rfl rfl

theorem State.storeReaches_kept {s0 : State} (s : State) (c : Nat) (addr : Nat) (bs : List Byte) (hs : Kept s0 s) :
    Kept s0 (State.storeReaches s c addr bs) := by
  unfold State.storeReaches
  try dsimp only
  repeat' with_reducible first
    | assumption
    | apply State.drawn_kept
    | split
    | refine Kept.drop ?_ rfl rfl rfl rfl rfl rfl rfl rfl rfl rfl

theorem State.spaceWrite_kept {s0 : State} (s : State) (h : Hart) (perms : BitVec 16) (addr : Nat) (bs : List Byte) (tag : optParam Bool false) (hs : Kept s0 s) :
    Kept s0 (State.spaceWrite s h perms addr bs tag).2 := by
  unfold State.spaceWrite
  split
  · exact State.busWrite_kept _ _ _ _ _ hs
  · split
    · dsimp only
      have ht : Kept s0 { s with
          dsp := { s.dsp with mem := prvWrite s.dsp.mem addr bs, tags := tagPut s.dsp.tags addr tag }
          damaged := healed s.damaged .ctx addr bs.length } := by
        refine Kept.maps ?_ rfl id id id (fun c => prvWrite_wf _ c _) (fun c => tagPut_wf c _ _) id id rfl rfl
        exact hs
      split
      · exact State.storeReaches_kept _ _ _ _ ht
      · exact ht
    · exact hs
  · split
    · refine Kept.maps ?_ rfl id id id id id (fun c => prvWrite_wf _ c _) (fun c => tagPut_wf c _ _) rfl rfl
      exact hs
    · exact hs

theorem State.capRead_kept {s0 : State} (s : State) (h : Hart) (perms : BitVec 16) (addr : Nat) (hs : Kept s0 s) :
    Kept s0 (State.capRead s h perms addr).2 := by
  unfold State.capRead
  try dsimp only
  repeat' with_reducible first
    | assumption
    | apply State.spaceRead_kept
    | apply State.signal_kept
    | apply Kept.ite
    | split
    | (refine Kept.snd (by assumption) ?_)
    | (refine Kept.fst (by assumption) ?_)
    | (dsimp only)

/-! ### Machine/Alarm.lean -/

theorem State.eraseBmk_kept {s0 : State} (s : State) (hs : Kept s0 s) :
    Kept s0 (State.eraseBmk s) := by
  unfold State.eraseBmk
  try dsimp only
  repeat' with_reducible first
    | assumption
    | apply State.lower_kept
    | split
    | refine Kept.drop ?_ rfl rfl rfl rfl rfl rfl rfl rfl rfl rfl

theorem State.tmpCause_kept {s0 : State} (s : State) (n : Nat) (b : Bool) (hs : Kept s0 s) :
    Kept s0 (State.tmpCause s n b) := by
  unfold State.tmpCause
  try dsimp only
  repeat' with_reducible first
    | assumption
    | apply State.put_kept

theorem State.deadCauses_kept {s0 : State} (s : State) (hs : Kept s0 s) :
    Kept s0 (State.deadCauses s) := by
  unfold State.deadCauses
  try dsimp only
  repeat' with_reducible first
    | assumption
    | apply State.tmpCause_kept
    | refine Kept.foldl (fun _ _ _ => ?_) ?_
    | split

theorem State.pinSampled_kept {s0 : State} (s : State) (n : Nat) (active : Bool) (hs : Kept s0 s) :
    Kept s0 (State.pinSampled s n active) := by
  unfold State.pinSampled
  try dsimp only
  repeat' with_reducible first
    | assumption
    | apply Kept.ite
    | split
    | refine Kept.drop ?_ rfl rfl rfl rfl rfl rfl rfl rfl rfl rfl

theorem State.stickyRise_kept {s0 : State} (s : State) (n : Nat) (hs : Kept s0 s) :
    Kept s0 (State.stickyRise s n) := by
  unfold State.stickyRise
  try dsimp only
  repeat' with_reducible first
    | assumption
    | apply State.raise_kept
    | apply Kept.ite
    | split
    | refine Kept.drop ?_ rfl rfl rfl rfl rfl rfl rfl rfl rfl rfl

theorem State.cellAlarm_kept {s0 : State} (s : State) (n : Nat) (hs : Kept s0 s) :
    Kept s0 (State.cellAlarm s n) := by
  unfold State.cellAlarm
  try dsimp only
  repeat' with_reducible first
    | assumption
    | apply State.raise_kept
    | apply State.eraseBmk_kept
    | apply Kept.ite

theorem State.alarm_kept {s0 : State} (s : State) (n : Nat) (hs : Kept s0 s) :
    Kept s0 (State.alarm s n) := by
  unfold State.alarm
  try dsimp only
  repeat' with_reducible first
    | assumption
    | apply State.stickyRise_kept
    | apply State.cellAlarm_kept
    | apply State.raise_kept
    | apply State.fault_kept
    | apply Kept.ite
    | split

theorem State.firstAlarm_kept {s0 : State} (s : State) (ns : List Nat) (hs : Kept s0 s) :
    Kept s0 (State.firstAlarm s ns) := by
  unfold State.firstAlarm
  try dsimp only
  repeat' with_reducible first
    | assumption
    | apply State.fset_kept
    | apply State.raise_kept
    | apply State.wr_kept
    | apply Kept.ite
    | split
    | refine Kept.drop ?_ rfl rfl rfl rfl rfl rfl rfl rfl rfl rfl

theorem State.causesRise_kept {s0 : State} (s : State) (ns : List Nat) (hs : Kept s0 s) :
    Kept s0 (State.causesRise s ns) := by
  unfold State.causesRise
  try dsimp only
  repeat' with_reducible first
    | assumption
    | apply State.pinSampled_kept
    | apply State.tmpCause_kept
    | apply State.alarm_kept
    | apply State.firstAlarm_kept
    | apply Kept.ite
    | refine Kept.foldl (fun _ _ _ => ?_) ?_
    | split
    | refine Kept.drop ?_ rfl rfl rfl rfl rfl rfl rfl rfl rfl rfl

theorem State.causeFalls_kept {s0 : State} (s : State) (n : Nat) (hs : Kept s0 s) :
    Kept s0 (State.causeFalls s n) := by
  unfold State.causeFalls
  try dsimp only
  repeat' with_reducible first
    | assumption
    | apply State.pinSampled_kept
    | apply State.tmpCause_kept
    | apply Kept.ite
    | split
    | refine Kept.drop ?_ rfl rfl rfl rfl rfl rfl rfl rfl rfl rfl

theorem State.testEnds_kept {s0 : State} (s : State) (hs : Kept s0 s) :
    Kept s0 (State.testEnds s) := by
  unfold State.testEnds
  try dsimp only
  repeat' with_reducible first
    | assumption
    | apply State.lower_kept
    | apply State.causesRise_kept
    | apply Kept.ite
    | split
    | refine Kept.drop ?_ rfl rfl rfl rfl rfl rfl rfl rfl rfl rfl

/-! ### Machine/Ports.lean -/

theorem State.setSa_kept {s0 : State} (s : State) (k : Nat) (x : Sa) (hs : Kept s0 s) :
    Kept s0 (State.setSa s k x) := by
  unfold State.setSa
  try dsimp only
  repeat' with_reducible first
    | assumption
    | refine Kept.drop ?_ rfl rfl rfl rfl rfl rfl rfl rfl rfl rfl

theorem State.setSc_kept {s0 : State} (s : State) (k : Nat) (x : Sc) (hs : Kept s0 s) :
    Kept s0 (State.setSc s k x) := by
  unfold State.setSc
  try dsimp only
  repeat' with_reducible first
    | assumption
    | refine Kept.drop ?_ rfl rfl rfl rfl rfl rfl rfl rfl rfl rfl

theorem State.usePn_kept {s0 : State} (s : State) (k : Nat) (hs : Kept s0 s) :
    Kept s0 (State.usePn s k) := by
  unfold State.usePn
  try dsimp only
  repeat' with_reducible first
    | assumption
    | apply State.raise_kept
    | apply State.setSa_kept
    | apply Kept.ite
    | split

theorem State.sendFrame_kept {s0 : State} (s : State) (port : Fin 4) (content : List Byte) (start : Nat) (hs : Kept s0 s) :
    Kept s0 (State.sendFrame s port content start) := by
  unfold State.sendFrame
  try dsimp only
  repeat' with_reducible first
    | assumption
    | apply State.count_kept
    | apply State.emit_kept
    | apply State.usePn_kept
    | apply State.raise_kept
    | apply State.setSa_kept
    | apply Kept.ite
    | split

theorem State.transmit_kept {s0 : State} (s : State) (port : Fin 4) (content : List Byte) (hs : Kept s0 s) :
    Kept s0 (State.transmit s port content) := by
  unfold State.transmit
  try dsimp only
  repeat' with_reducible first
    | assumption
    | apply State.sendFrame_kept
    | apply Kept.ite

/-! ### Machine/Records.lean -/

theorem State.setRec_kept {s0 : State} (s : State) (i : Nat) (r : KeyRec) (hs : Kept s0 s) :
    Kept s0 (State.setRec s i r) := by
  unfold State.setRec
  try dsimp only
  repeat' with_reducible first
    | assumption
    | refine Kept.drop ?_ rfl rfl rfl rfl rfl rfl rfl rfl rfl rfl

theorem State.spoilFrames_kept {s0 : State} (s : State) (i : Nat) (hs : Kept s0 s) :
    Kept s0 (State.spoilFrames s i) := by
  unfold State.spoilFrames
  try dsimp only
  repeat' with_reducible first
    | assumption
    | apply Kept.ite
    | split
    | refine Kept.drop ?_ rfl rfl rfl rfl rfl rfl rfl rfl rfl rfl

theorem State.setCached_kept {s0 : State} (s : State) (i : Nat) (c : Option Cached) (hs : Kept s0 s) :
    Kept s0 (State.setCached s i c) := by
  unfold State.setCached
  try dsimp only
  repeat' with_reducible first
    | assumption
    | refine Kept.drop ?_ rfl rfl rfl rfl rfl rfl rfl rfl rfl rfl

theorem State.makeRoom_kept {s0 : State} (s : State) (need : Nat) (x3 : Nat) (hs : Kept s0 s) :
    Kept s0 (State.makeRoom s need x3) := by
  induction x3 generalizing s need with
  | zero =>
    unfold State.makeRoom
    try dsimp only
    repeat' with_reducible first
      | assumption
  | succ k ih =>
    unfold State.makeRoom
    try dsimp only
    repeat' with_reducible first
      | assumption
      | apply ih
      | apply State.setCached_kept
      | apply Kept.ite
      | refine Kept.foldl (fun _ _ _ => ?_) ?_
      | split

theorem State.install_kept {s0 : State} (s : State) (i : Nat) (hs : Kept s0 s) :
    Kept s0 (State.install s i) := by
  unfold State.install
  try dsimp only
  repeat' with_reducible first
    | assumption
    | apply State.setCached_kept
    | apply State.makeRoom_kept
    | split
    | refine Kept.drop ?_ rfl rfl rfl rfl rfl rfl rfl rfl rfl rfl

theorem State.setTransient_kept {s0 : State} (s : State) (slot : Nat) (t : Transient) (hs : Kept s0 s) :
    Kept s0 (State.setTransient s slot t) := by
  unfold State.setTransient
  try dsimp only
  repeat' with_reducible first
    | assumption
    | split
    | refine Kept.drop ?_ rfl rfl rfl rfl rfl rfl rfl rfl rfl rfl

theorem State.countFetch_kept {s0 : State} (s : State) (i : Nat) (hs : Kept s0 s) :
    Kept s0 (State.countFetch s i) := by
  unfold State.countFetch
  try dsimp only
  repeat' with_reducible first
    | assumption
    | apply State.count_kept
    | split

/-! ### Machine/Ledger.lean -/

theorem State.assignFast_kept {s0 : State} (s : State) (hs : Kept s0 s) :
    Kept s0 (State.assignFast s) := by
  unfold State.assignFast
  try dsimp only
  repeat' with_reducible first
    | assumption
    | apply State.wr_kept
    | refine Kept.foldl (fun _ _ _ => ?_) ?_

theorem State.svcWrite_kept {s0 : State} (s : State) (a : Nat) (bs : List Byte) (hs : Kept s0 s) :
    Kept s0 (State.svcWrite s a bs) := by
  unfold State.svcWrite
  refine Kept.maps ?_ rfl id id id (fun c => prvWrite_wf _ c _) (fun c => tagClear_wf c _ _) id id rfl rfl
  exact hs

theorem State.clearArea_kept {s0 : State} (s : State) (c : Nat) (hs : Kept s0 s) :
    Kept s0 (State.clearArea s c) := by
  unfold State.clearArea
  refine Kept.maps ?_ rfl id id id (fun c => swf_filter _ c) (fun c => swf_filter _ c) id id rfl rfl
  exact hs

theorem State.abortWhere_kept {s0 : State} (s : State) (c : Nat) (p : EngCmd → Bool) (hs : Kept s0 s) :
    Kept s0 (State.abortWhere s c p) := by
  unfold State.abortWhere
  try dsimp only
  repeat' with_reducible first
    | assumption
    | apply State.countBusy_kept
    | apply State.setCtx_kept
    | apply Kept.ite
    | split
    | refine Kept.drop ?_ rfl rfl rfl rfl rfl rfl rfl rfl rfl rfl

theorem State.abortAll_kept {s0 : State} (s : State) (c : Nat) (hs : Kept s0 s) :
    Kept s0 (State.abortAll s c) := by
  unfold State.abortAll
  try dsimp only
  repeat' with_reducible first
    | assumption
    | apply State.abortWhere_kept

theorem State.unbind_kept {s0 : State} (s : State) (i : Nat) (hs : Kept s0 s) :
    Kept s0 (State.unbind s i) := by
  unfold State.unbind
  try dsimp only
  repeat' with_reducible first
    | assumption
    | apply State.slotHealed_kept
    | apply State.setCached_kept
    | apply Kept.ite
    | split

theorem State.wasted_kept {s0 : State} (s : State) (c : Nat) (hs : Kept s0 s) :
    Kept s0 (State.wasted s c) := by
  unfold State.wasted
  try dsimp only
  repeat' with_reducible first
    | assumption
    | apply State.count_kept
    | split

theorem State.freeCtx_kept {s0 : State} (s : State) (c : Nat) (hs : Kept s0 s) :
    Kept s0 (State.freeCtx s c) := by
  unfold State.freeCtx
  try dsimp only
  repeat' with_reducible first
    | assumption
    | apply State.wasted_kept
    | apply State.abortAll_kept
    | apply State.unbind_kept
    | apply State.clearArea_kept
    | apply State.setTransient_kept
    | apply State.setCtx_kept
    | split
    | refine Kept.drop ?_ rfl rfl rfl rfl rfl rfl rfl rfl rfl rfl

theorem State.endWith_kept {s0 : State} (s : State) (c : Nat) (r : Response) (grant : optParam Bool true) (hs : Kept s0 s) :
    Kept s0 (State.endWith s c r grant) := by
  unfold State.endWith
  try dsimp only
  repeat' with_reducible first
    | assumption
    | apply State.wasted_kept
    | apply State.abortAll_kept
    | apply State.setCtx_kept
    | apply State.grantable_kept
    | apply State.grant_kept
    | split

theorem State.endUnlit_kept {s0 : State} (s : State) (c : Nat) (hs : Kept s0 s) :
    Kept s0 (State.endUnlit s c) := by
  unfold State.endUnlit
  try dsimp only
  repeat' with_reducible first
    | assumption
    | apply State.fetch_kept
    | apply State.setCtx_kept
    | apply State.endWith_kept
    | apply Kept.ite
    | split
    | refine Kept.drop ?_ rfl rfl rfl rfl rfl rfl rfl rfl rfl rfl

theorem State.lanternFell_kept {s0 : State} (s : State) (hs : Kept s0 s) :
    Kept s0 (State.lanternFell s) := by
  unfold State.lanternFell
  try dsimp only
  repeat' with_reducible first
    | assumption
    | apply State.endUnlit_kept
    | refine Kept.foldl (fun _ _ _ => ?_) ?_
    | split

theorem State.setLantern_kept {s0 : State} (s : State) (v : Nat) (hs : Kept s0 s) :
    Kept s0 (State.setLantern s v) := by
  unfold State.setLantern
  try dsimp only
  repeat' with_reducible first
    | assumption
    | apply State.fset_kept
    | apply State.lanternFell_kept
    | apply Kept.ite

theorem State.grantable_kept {s0 : State} (s : State) (c : Nat) (hs : Kept s0 s) :
    Kept s0 (State.grantable s c) := by
  unfold State.grantable
  try dsimp only
  repeat' with_reducible first
    | assumption
    | apply State.setCtx_kept

theorem State.postTicket_kept {s0 : State} (s : State) (c : Nat) (t : Nat) (w : Word) (hs : Kept s0 s) :
    Kept s0 (State.postTicket s c t w) := by
  unfold State.postTicket
  try dsimp only
  repeat' with_reducible first
    | assumption
    | apply State.setCtx_kept
    | apply Kept.ite

/-! ### Machine/DuoLink.lean -/

theorem State.judgeSkew_kept {s0 : State} (s : State) (hs : Kept s0 s) :
    Kept s0 (State.judgeSkew s) := by
  unfold State.judgeSkew
  try dsimp only
  repeat' with_reducible first
    | assumption
    | apply Kept.ite
    | split
    | refine Kept.drop ?_ rfl rfl rfl rfl rfl rfl rfl rfl rfl rfl

theorem State.sendPeerFrame_kept {s0 : State} (s : State) (port : Fin 4) (head : List Byte) (body : List Byte) (hs : Kept s0 s) :
    Kept s0 (State.sendPeerFrame s port head body) := by
  unfold State.sendPeerFrame
  try dsimp only
  repeat' with_reducible first
    | assumption
    | apply State.drawn_kept
    | apply State.transmit_kept

theorem State.sendSegments_kept {s0 : State} (s : State) (port : Fin 4) (typ : Nat) (jseq : Nat) (nseg : Nat) (body : List Byte) (k : Nat) (x8 : Nat) (hs : Kept s0 s) :
    Kept s0 (State.sendSegments s port typ jseq nseg body k x8) := by
  induction x8 generalizing s port typ jseq nseg body k with
  | zero =>
    unfold State.sendSegments
    try dsimp only
    repeat' with_reducible first
      | assumption
  | succ k ih =>
    unfold State.sendSegments
    try dsimp only
    repeat' with_reducible first
      | assumption
      | apply ih
      | apply State.sendPeerFrame_kept

theorem State.sendEveryPort_kept {s0 : State} (s : State) (typ : Nat) (rseq : Nat) (jseq : Nat) (release : Bool) (hs : Kept s0 s) :
    Kept s0 (State.sendEveryPort s typ rseq jseq release) := by
  unfold State.sendEveryPort
  try dsimp only
  repeat' with_reducible first
    | assumption
    | apply State.sendPeerFrame_kept
    | apply Kept.ite

theorem State.sendBody_kept {s0 : State} (s : State) (typ : Nat) (jseq : Nat) (body : List Byte) (hs : Kept s0 s) :
    Kept s0 (State.sendBody s typ jseq body) := by
  unfold State.sendBody
  try dsimp only
  repeat' with_reducible first
    | assumption
    | apply State.sendSegments_kept

theorem State.sealMirror_kept {s0 : State} (s : State) (jseq : Nat) (ctr : Nat) (body : List Byte) (hs : Kept s0 s) :
    Kept s0 (State.sealMirror s jseq ctr body) := by
  unfold State.sealMirror
  try dsimp only
  repeat' with_reducible first
    | assumption
    | apply State.sendBody_kept
    | split
    | refine Kept.drop ?_ rfl rfl rfl rfl rfl rfl rfl rfl rfl rfl

theorem State.sendMirror_kept {s0 : State} (s : State) (jseq : Nat) (es : List JEntry) (body : List Byte) (hs : Kept s0 s) :
    Kept s0 (State.sendMirror s jseq es body) := by
  unfold State.sendMirror
  try dsimp only
  repeat' with_reducible first
    | assumption
    | apply State.sealMirror_kept
    | apply Kept.ite
    | split
    | (refine Kept.fst (by assumption) ?_)
    | refine Kept.drop ?_ rfl rfl rfl rfl rfl rfl rfl rfl rfl rfl

theorem State.sendWaiting_kept {s0 : State} (s : State) (l : List (Nat × Nat × List Byte)) (hs : Kept s0 s) :
    Kept s0 (s.sendWaiting l) := by
  induction l generalizing s with
  | nil => exact Kept.drop hs rfl rfl rfl rfl rfl rfl rfl rfl rfl rfl
  | cons m t ih => exact ih _ (State.sealMirror_kept _ _ _ _ hs)

theorem State.saltDrawn_kept {s0 : State} (s : State) (salt : BitVec 128) (hs : Kept s0 s) :
    Kept s0 (s.saltDrawn salt) := by
  unfold State.saltDrawn
  exact State.sendWaiting_kept _ _ (Kept.drop hs rfl rfl rfl rfl rfl rfl rfl rfl rfl rfl)

/-! ### Machine/Commit.lean -/

theorem State.dirty_kept {s0 : State} (s : State) (i : Nat) (hs : Kept s0 s) :
    Kept s0 (State.dirty s i) := by
  unfold State.dirty
  try dsimp only
  repeat' with_reducible first
    | assumption
    | apply State.install_kept
    | apply State.setCached_kept
    | apply State.slotHealed_kept
    | split

theorem State.journalPut_kept {s0 : State} (s : State) (e : JEntry) (hs : Kept s0 s) :
    Kept s0 (State.journalPut s e) := by
  unfold State.journalPut
  try dsimp only
  repeat' with_reducible first
    | assumption
    | refine Kept.drop ?_ rfl rfl rfl rfl rfl rfl rfl rfl rfl rfl

theorem State.askRefresh_kept {s0 : State} (s : State) (i : Nat) (lines : Nat) (hs : Kept s0 s) :
    Kept s0 (State.askRefresh s i lines) := by
  unfold State.askRefresh
  try dsimp only
  repeat' with_reducible first
    | assumption
    | apply State.setCached_kept
    | split
    | refine Kept.drop ?_ rfl rfl rfl rfl rfl rfl rfl rfl rfl rfl

theorem State.destroyRec_kept {s0 : State} (s : State) (i : Nat) (hs : Kept s0 s) :
    Kept s0 (State.destroyRec s i) := by
  unfold State.destroyRec
  try dsimp only
  repeat' with_reducible first
    | assumption
    | apply State.setRec_kept
    | split
    | refine Kept.drop ?_ rfl rfl rfl rfl rfl rfl rfl rfl rfl rfl

theorem State.dropRaises_kept {s0 : State} (s : State) (cs : List (Nat × Nat × KeyRec)) (hs : Kept s0 s) :
    Kept s0 (State.dropRaises s cs) := by
  unfold State.dropRaises
  try dsimp only
  repeat' with_reducible first
    | assumption
    | split
    | refine Kept.drop ?_ rfl rfl rfl rfl rfl rfl rfl rfl rfl rfl

theorem State.applyEntry_kept {s0 : State} (s : State) (e : JEntry) (seen : optParam Bool true) (hs : Kept s0 s) :
    Kept s0 (State.applyEntry s e seen) := by
  unfold State.applyEntry
  try dsimp only
  repeat' with_reducible first
    | assumption
    | apply State.destroyRec_kept
    | apply State.setRec_kept
    | apply State.dirty_kept
    | apply State.askRefresh_kept
    | apply State.journalPut_kept
    | apply Kept.ite
    | split
    | refine Kept.drop ?_ rfl rfl rfl rfl rfl rfl rfl rfl rfl rfl

theorem State.commit_kept {s0 : State} (s : State) (cs : List (Nat × Nat × KeyRec)) (seen : optParam Bool true) (hs : Kept s0 s) :
    Kept s0 (State.commit s cs seen).1 := by
  unfold State.commit
  try dsimp only
  repeat' with_reducible first
    | assumption
    | apply State.dropRaises_kept
    | apply State.image_kept
    | apply State.wr_kept
    | apply State.count_kept
    | apply State.applyEntry_kept
    | apply Kept.ite
    | refine Kept.foldl (fun _ _ _ => ?_) ?_
    | split
    | refine Kept.drop ?_ rfl rfl rfl rfl rfl rfl rfl rfl rfl rfl
    | (dsimp only)

theorem State.sendCommit_kept {s0 : State} (s : State) (c : Nat) (hs : Kept s0 s) :
    Kept s0 (State.sendCommit s c) := by
  unfold State.sendCommit
  try dsimp only
  repeat' with_reducible first
    | assumption
    | apply State.sendMirror_kept
    | split

theorem State.mirStart_kept {s0 : State} (s : State) (hs : Kept s0 s) :
    Kept s0 (State.mirStart s) := by
  unfold State.mirStart
  try dsimp only
  repeat' with_reducible first
    | assumption
    | apply State.sendCommit_kept
    | apply State.setCtx_kept
    | apply Kept.ite
    | split

theorem State.mirDone_kept {s0 : State} (s : State) (c : Nat) (hs : Kept s0 s) :
    Kept s0 (State.mirDone s c) := by
  unfold State.mirDone
  try dsimp only
  repeat' with_reducible first
    | assumption
    | apply State.setCtx_kept

theorem State.afterCommit_kept {s0 : State} (s : State) (c : Nat) (es : List JEntry) (j : Nat) (hs : Kept s0 s) :
    Kept s0 (State.afterCommit s c es j) := by
  unfold State.afterCommit
  try dsimp only
  repeat' with_reducible first
    | assumption
    | apply State.setCtx_kept
    | apply State.mirDone_kept
    | apply State.sendCommit_kept
    | apply State.mirStart_kept
    | apply Kept.ite

theorem State.raisesTakeEffect_kept {s0 : State} (s : State) (hs : Kept s0 s) :
    Kept s0 (State.raisesTakeEffect s) := by
  unfold State.raisesTakeEffect
  try dsimp only
  repeat' with_reducible first
    | assumption
    | apply State.setRec_kept
    | apply Kept.ite
    | refine Kept.foldl (fun _ _ _ => ?_) ?_
    | refine Kept.drop ?_ rfl rfl rfl rfl rfl rfl rfl rfl rfl rfl

theorem State.stallCommit_kept {s0 : State} (s : State) (w : WaitingCommit) (hs : Kept s0 s) :
    Kept s0 (State.stallCommit s w) := by
  unfold State.stallCommit
  try dsimp only
  repeat' with_reducible first
    | assumption
    | apply State.raise_kept
    | split
    | refine Kept.drop ?_ rfl rfl rfl rfl rfl rfl rfl rfl rfl rfl

theorem State.raiseCeil_kept {s0 : State} (s : State) (i : Nat) (hs : Kept s0 s) :
    Kept s0 (State.raiseCeil s i) := by
  unfold State.raiseCeil
  try dsimp only
  repeat' with_reducible first
    | assumption
    | apply State.commit_kept
    | apply State.sendMirror_kept
    | apply State.stallCommit_kept
    | apply Kept.ite
    | split
    | (refine Kept.snd (by assumption) ?_)
    | (refine Kept.fst (by assumption) ?_)
    | refine Kept.drop ?_ rfl rfl rfl rfl rfl rfl rfl rfl rfl rfl

theorem State.pinBound_kept {s0 : State} (s : State) (i : Nat) (hs : Kept s0 s) :
    Kept s0 (State.pinBound s i).1 := by
  unfold State.pinBound
  try dsimp only
  repeat' with_reducible first
    | assumption
    | apply State.install_kept
    | apply State.setCached_kept
    | apply State.drawn_kept
    | split

theorem State.bindKey_kept {s0 : State} (s : State) (c : Nat) (hs : Kept s0 s) :
    Kept s0 (State.bindKey s c).1 := by
  unfold State.bindKey
  try dsimp only
  repeat' with_reducible first
    | assumption
    | apply State.raise_kept
    | apply State.pinBound_kept
    | apply State.setCtx_kept
    | apply State.svcWrite_kept
    | apply State.raiseCeil_kept
    | apply Kept.ite
    | split
    | (refine Kept.fst (by assumption) ?_)
    | refine Kept.drop ?_ rfl rfl rfl rfl rfl rfl rfl rfl rfl rfl

theorem State.preview_kept {s0 : State} (s : State) (c : Nat × Nat × KeyRec) (hs : Kept s0 s) :
    Kept s0 (State.preview s c) := by
  unfold State.preview
  try dsimp only
  repeat' with_reducible first
    | assumption
    | apply State.destroyRec_kept
    | apply State.setRec_kept
    | apply State.drawn_kept
    | apply Kept.ite
    | split

theorem State.logCommitFailure_kept {s0 : State} (s : State) (c : Nat) (k : Nat) (hs : Kept s0 s) :
    Kept s0 (State.logCommitFailure s c k) := by
  unfold State.logCommitFailure
  try dsimp only
  repeat' with_reducible first
    | assumption
    | apply State.raise_kept
    | apply State.fset_kept
    | apply Kept.ite

theorem State.commitEvents_kept {s0 : State} (s : State) (cs : List (Nat × Nat × KeyRec)) (hs : Kept s0 s) :
    Kept s0 (State.commitEvents s cs) := by
  unfold State.commitEvents
  try dsimp only
  repeat' with_reducible first
    | assumption
    | apply State.raise_kept
    | apply Kept.ite

theorem State.resetNexts_kept {s0 : State} (s : State) (cs : List (Nat × Nat × KeyRec)) (hs : Kept s0 s) :
    Kept s0 (State.resetNexts s cs) := by
  unfold State.resetNexts
  try dsimp only
  repeat' with_reducible first
    | assumption
    | apply State.count_kept
    | apply Kept.ite
    | refine Kept.foldl (fun _ _ _ => ?_) ?_
    | split
    | refine Kept.drop ?_ rfl rfl rfl rfl rfl rfl rfl rfl rfl rfl

theorem State.endCommit_kept {s0 : State} (s : State) (c : Nat) (r : Response) (hs : Kept s0 s) :
    Kept s0 (State.endCommit s c r) := by
  unfold State.endCommit
  try dsimp only
  repeat' with_reducible first
    | assumption
    | apply State.signal_kept
    | apply State.logCommitFailure_kept
    | apply State.endWith_kept
    | apply State.grant_kept
    | apply State.setCtx_kept
    | apply State.commitEvents_kept
    | apply State.resetNexts_kept
    | apply State.drawn_kept
    | apply State.commit_kept
    | apply State.afterCommit_kept
    | apply State.stallCommit_kept
    | apply Kept.ite
    | split
    | (refine Kept.snd (by assumption) ?_)
    | (refine Kept.fst (by assumption) ?_)
    | refine Kept.drop ?_ rfl rfl rfl rfl rfl rfl rfl rfl rfl rfl

end Sys2Proof.Machine
end

