-- ==== Sys2Proof/Laws/KeptReq.lean ====
section
/-!
SUPPORT. Laws/KeptReq.lean: what `Kept` says of admission, dispatch and the service front end.
-/

namespace Sys2Proof.Machine

/-! ### Machine/Adm.lean -/

theorem State.takePort_kept {s0 : State} (s : State) (port : Nat) (t : Nat) (hs : Kept s0 s) :
    Kept s0 (State.takePort s port t) := by
  unfold State.takePort
  try dsimp only
  repeat' with_reducible first
    | assumption
    | refine Kept.drop ?_ rfl rfl rfl rfl rfl rfl rfl rfl rfl rfl

theorem State.startRefusals_kept {s0 : State} (s : State) (port : Fin 4) (x3 : Nat) (hs : Kept s0 s) :
    Kept s0 (State.startRefusals s port x3) := by
  induction x3 generalizing s port with
  | zero =>
    unfold State.startRefusals
    try dsimp only
    repeat' with_reducible first
      | assumption
      | apply State.sendFrame_kept
      | apply State.takePort_kept
      | apply Kept.ite
      | split
      | refine Kept.drop ?_ rfl rfl rfl rfl rfl rfl rfl rfl rfl rfl
  | succ k ih =>
    unfold State.startRefusals
    try dsimp only
    repeat' with_reducible first
      | assumption
      | apply ih
      | apply State.sendFrame_kept
      | apply State.takePort_kept
      | apply Kept.ite
      | split
      | refine Kept.drop ?_ rfl rfl rfl rfl rfl rfl rfl rfl rfl rfl

theorem State.flushRefusals_kept {s0 : State} (s : State) (port : Fin 4) (hs : Kept s0 s) :
    Kept s0 (State.flushRefusals s port) := by
  unfold State.flushRefusals
  try dsimp only
  repeat' with_reducible first
    | assumption
    | apply State.startRefusals_kept
    | split

theorem State.refuse_kept {s0 : State} (s : State) (port : Fin 4) (r : Reply) (q : CrpReq) (status : Nat) (detail : Nat) (bound : Nat) (turn : optParam (Option (Nat × Nat)) none) (hs : Kept s0 s) :
    Kept s0 (State.refuse s port r q status detail bound turn) := by
  unfold State.refuse
  try dsimp only
  repeat' with_reducible first
    | assumption
    | apply State.count_kept
    | apply State.raise_kept
    | apply State.flushRefusals_kept
    | apply Kept.ite
    | split
    | refine Kept.drop ?_ rfl rfl rfl rfl rfl rfl rfl rfl rfl rfl

theorem State.dropOldest_kept {s0 : State} (s : State) (port : Fin 4) (hs : Kept s0 s) :
    Kept s0 (State.dropOldest s port) := by
  unfold State.dropOldest
  try dsimp only
  repeat' with_reducible first
    | assumption
    | apply State.raise_kept
    | apply State.count_kept
    | apply Kept.ite
    | split
    | refine Kept.drop ?_ rfl rfl rfl rfl rfl rfl rfl rfl rfl rfl

theorem State.dropRefusal_kept {s0 : State} (s : State) (port : Fin 4) (hs : Kept s0 s) :
    Kept s0 (State.dropRefusal s port) := by
  unfold State.dropRefusal
  try dsimp only
  repeat' with_reducible first
    | assumption
    | apply State.flushRefusals_kept
    | apply State.dropOldest_kept
    | split

theorem State.ringAnswer_kept {s0 : State} (s : State) (slot : Fin 16) (bytes : List Byte) (hs : Kept s0 s) :
    Kept s0 (State.ringAnswer s slot bytes) := by
  unfold State.ringAnswer
  try dsimp only
  repeat' with_reducible first
    | assumption
    | apply State.writeBlock_kept
    | apply State.raise_kept
    | refine Kept.drop ?_ rfl rfl rfl rfl rfl rfl rfl rfl rfl rfl

theorem State.refuseTo_kept {s0 : State} (s : State) (src : Source) (r : Reply) (q : CrpReq) (status : Nat) (detail : Nat) (bound : Nat) (hs : Kept s0 s) :
    Kept s0 (State.refuseTo s src r q status detail bound) := by
  unfold State.refuseTo
  try dsimp only
  repeat' with_reducible first
    | assumption
    | apply State.refuse_kept
    | apply State.ringAnswer_kept
    | split

theorem State.makeReady_kept {s0 : State} (s : State) (c : Nat) (hs : Kept s0 s) :
    Kept s0 (State.makeReady s c) := by
  unfold State.makeReady
  try dsimp only
  repeat' with_reducible first
    | assumption
    | apply State.bindKey_kept
    | apply State.setCtx_kept
    | apply Kept.ite
    | split
    | (refine Kept.fst (by assumption) ?_)
    | refine Kept.drop ?_ rfl rfl rfl rfl rfl rfl rfl rfl rfl rfl

theorem State.answerFrom_kept {s0 : State} (s : State) (c : Nat) (r : Response) (hs : Kept s0 s) :
    Kept s0 (State.answerFrom s c r) := by
  unfold State.answerFrom
  try dsimp only
  repeat' with_reducible first
    | assumption
    | apply State.setCtx_kept
    | apply State.endWith_kept

theorem State.accept_kept {s0 : State} (s : State) (c : Nat) (q : Desc) (key : Option Nat) (slack : Option ℤ) (fast : Bool) (stages : List LStage) (isState : Bool) (isRand : Bool) (hs : Kept s0 s) :
    Kept s0 (State.accept s c q key slack fast stages isState isRand) := by
  unfold State.accept
  try dsimp only
  repeat' with_reducible first
    | assumption
    | apply State.svcWrite_kept
    | apply State.setCtx_kept
    | apply State.count_kept
    | apply State.bindKey_kept
    | apply State.answerFrom_kept
    | apply State.makeReady_kept
    | apply Kept.ite
    | split
    | (refine Kept.fst (by assumption) ?_)
    | refine Kept.drop ?_ rfl rfl rfl rfl rfl rfl rfl rfl rfl rfl

theorem State.admDecide_kept {s0 : State} (s : State) (c : Nat) (q : Desc) (hs : Kept s0 s) :
    Kept s0 (State.admDecide s c q) := by
  unfold State.admDecide
  try dsimp only
  repeat' with_reducible first
    | assumption
    | apply State.count_kept
    | apply State.refuseTo_kept
    | apply State.setCtx_kept
    | apply State.accept_kept
    | apply Kept.ite
    | refine Kept.foldl (fun _ _ _ => ?_) ?_
    | split
    | refine Kept.drop ?_ rfl rfl rfl rfl rfl rfl rfl rfl rfl rfl

theorem State.admNext_kept {s0 : State} (s : State) (c : Nat) (hs : Kept s0 s) :
    Kept s0 (State.admNext s c) := by
  unfold State.admNext
  try dsimp only
  repeat' with_reducible first
    | assumption
    | apply State.accept_kept
    | apply State.admDecide_kept
    | apply Kept.ite
    | split
    | refine Kept.drop ?_ rfl rfl rfl rfl rfl rfl rfl rfl rfl rfl

theorem State.reportOverrun_kept {s0 : State} (s : State) (hs : Kept s0 s) :
    Kept s0 (State.reportOverrun s) := by
  unfold State.reportOverrun
  try dsimp only
  repeat' with_reducible first
    | assumption
    | apply State.raise_kept
    | apply State.count_kept
    | apply State.signal_kept
    | split

theorem State.cancel_kept {s0 : State} (s : State) (c : Nat) (hs : Kept s0 s) :
    Kept s0 (State.cancel s c) := by
  unfold State.cancel
  try dsimp only
  repeat' with_reducible first
    | assumption
    | apply State.reportOverrun_kept
    | apply State.setCtx_kept
    | apply State.endWith_kept
    | split

theorem State.setStale_kept {s0 : State} (s : State) (hs : Kept s0 s) :
    Kept s0 (State.setStale s) := by
  unfold State.setStale
  try dsimp only
  repeat' with_reducible first
    | assumption
    | apply State.put_kept

theorem State.reportStale_kept {s0 : State} (s : State) (p : Nat) (hs : Kept s0 s) :
    Kept s0 (State.reportStale s p) := by
  unfold State.reportStale
  try dsimp only
  repeat' with_reducible first
    | assumption
    | apply State.raise_kept
    | apply Kept.ite
    | split
    | refine Kept.drop ?_ rfl rfl rfl rfl rfl rfl rfl rfl rfl rfl

theorem State.setTeff_kept {s0 : State} (s : State) (p : Nat) (hs : Kept s0 s) :
    Kept s0 (State.setTeff s p) := by
  unfold State.setTeff
  try dsimp only
  repeat' with_reducible first
    | assumption
    | apply State.reportStale_kept
    | apply State.setStale_kept
    | apply State.raise_kept
    | apply State.wr_kept
    | apply Kept.ite
    | split

theorem State.setTeffs_kept {s0 : State} (s : State) (hs : Kept s0 s) :
    Kept s0 (State.setTeffs s) := by
  unfold State.setTeffs
  try dsimp only
  repeat' with_reducible first
    | assumption
    | apply State.setTeff_kept
    | split

theorem State.taper_kept {s0 : State} (s : State) (p : Nat) (r : Word32) (hs : Kept s0 s) :
    Kept s0 (State.taper s p r) := by
  unfold State.taper
  try dsimp only
  repeat' with_reducible first
    | assumption
    | apply State.wr_kept
    | apply State.raise_kept
    | apply State.signal_kept
    | apply State.setTeff_kept
    | apply Kept.ite

theorem State.activity_kept {s0 : State} (s : State) (p : Nat) (a : BitVec 17) (hs : Kept s0 s) :
    Kept s0 (State.activity s p a) := by
  unfold State.activity
  try dsimp only
  repeat' with_reducible first
    | assumption
    | apply State.wr_kept

theorem State.recompute_kept {s0 : State} (s : State) (hs : Kept s0 s) :
    Kept s0 (State.recompute s) := by
  unfold State.recompute
  try dsimp only
  repeat' with_reducible first
    | assumption
    | refine Kept.drop ?_ rfl rfl rfl rfl rfl rfl rfl rfl rfl rfl

/-! ### Machine/Dsp.lean -/

theorem State.logIntegrity_kept {s0 : State} (s : State) (tier : Nat) (i : Nat) (hs : Kept s0 s) :
    Kept s0 (State.logIntegrity s tier i) := by
  unfold State.logIntegrity
  try dsimp only
  repeat' with_reducible first
    | assumption
    | apply State.raise_kept
    | apply State.fset_kept
    | apply Kept.ite
    | split

theorem State.hotFailure_kept {s0 : State} (s : State) (i : Nat) (hs : Kept s0 s) :
    Kept s0 (State.hotFailure s i) := by
  unfold State.hotFailure
  try dsimp only
  repeat' with_reducible first
    | assumption
    | apply State.drawn_kept
    | apply State.logIntegrity_kept
    | apply State.raise_kept
    | apply State.signal_kept
    | split
    | refine Kept.drop ?_ rfl rfl rfl rfl rfl rfl rfl rfl rfl rfl

theorem State.sealFailure_kept {s0 : State} (s : State) (i : Nat) (hs : Kept s0 s) :
    Kept s0 (State.sealFailure s i) := by
  unfold State.sealFailure
  try dsimp only
  repeat' with_reducible first
    | assumption
    | apply State.spoilFrames_kept
    | apply State.logIntegrity_kept
    | apply State.raise_kept
    | apply State.signal_kept
    | split

theorem State.integrityFailure_kept {s0 : State} (s : State) (hot : Bool) (i : Nat) (hs : Kept s0 s) :
    Kept s0 (State.integrityFailure s hot i) := by
  unfold State.integrityFailure
  try dsimp only
  repeat' with_reducible first
    | assumption
    | apply State.hotFailure_kept
    | apply State.sealFailure_kept
    | apply Kept.ite
    | split

theorem State.fetched_kept {s0 : State} (s : State) (i : Nat) (hs : Kept s0 s) :
    Kept s0 (State.fetched s i) := by
  unfold State.fetched
  try dsimp only
  repeat' with_reducible first
    | assumption
    | apply State.install_kept
    | apply Kept.ite

theorem State.fetchEnds_kept {s0 : State} (s : State) (c : Nat) (ok : Bool) (hs : Kept s0 s) :
    Kept s0 (State.fetchEnds s c ok) := by
  unfold State.fetchEnds
  try dsimp only
  repeat' with_reducible first
    | assumption
    | apply State.setCtx_kept
    | apply State.makeReady_kept
    | apply State.fetched_kept
    | apply State.endWith_kept
    | apply State.integrityFailure_kept
    | apply Kept.ite

theorem State.bestEffortEnds_kept {s0 : State} (s : State) (ok : Bool) (hs : Kept s0 s) :
    Kept s0 (State.bestEffortEnds s ok) := by
  unfold State.bestEffortEnds
  try dsimp only
  repeat' with_reducible first
    | assumption
    | apply State.countFetch_kept
    | apply State.fetched_kept
    | apply State.integrityFailure_kept
    | apply Kept.ite
    | split
    | refine Kept.drop ?_ rfl rfl rfl rfl rfl rfl rfl rfl rfl rfl

theorem State.beStart_kept {s0 : State} (s : State) (pool : Nat) (hs : Kept s0 s) :
    Kept s0 (State.beStart s pool) := by
  unfold State.beStart
  try dsimp only
  repeat' with_reducible first
    | assumption
    | apply State.fetch_kept
    | apply State.count_kept
    | apply Kept.ite
    | split
    | refine Kept.drop ?_ rfl rfl rfl rfl rfl rfl rfl rfl rfl rfl

theorem State.fetchStart_kept {s0 : State} (s : State) (pool : Nat) (hs : Kept s0 s) :
    Kept s0 (State.fetchStart s pool) := by
  unfold State.fetchStart
  try dsimp only
  repeat' with_reducible first
    | assumption
    | apply State.beStart_kept
    | apply State.setCtx_kept
    | apply State.count_kept
    | split

theorem State.dispatch_kept {s0 : State} (s : State) (k : Fin 64) (hs : Kept s0 s) :
    Kept s0 (State.dispatch s k) := by
  unfold State.dispatch
  try dsimp only
  repeat' with_reducible first
    | assumption
    | apply State.setCtx_kept
    | apply State.count_kept
    | split

theorem State.scEnds_kept {s0 : State} (s : State) (c : Nat) (hs : Kept s0 s) :
    Kept s0 (State.scEnds s c) := by
  unfold State.scEnds
  try dsimp only
  repeat' with_reducible first
    | assumption
    | apply State.setCtx_kept

theorem State.endRun_kept {s0 : State} (s : State) (c : Nat) (k : Nat) (hs : Kept s0 s) :
    Kept s0 (State.endRun s c k) := by
  unfold State.endRun
  try dsimp only
  repeat' with_reducible first
    | assumption
    | apply State.scEnds_kept
    | apply State.setCtx_kept
    | apply State.signal_kept
    | apply State.raise_kept
    | apply State.endWith_kept
    | apply State.endCommit_kept
    | apply Kept.ite
    | split
    | refine Kept.drop ?_ rfl rfl rfl rfl rfl rfl rfl rfl rfl rfl

theorem State.svcException_kept {s0 : State} (s : State) (c : Nat) (k : Nat) (cause : Nat) (detail : Nat) (hs : Kept s0 s) :
    Kept s0 (State.svcException s c k cause detail) := by
  unfold State.svcException
  try dsimp only
  repeat' with_reducible first
    | assumption
    | apply State.wr_kept
    | apply State.signal_kept
    | apply State.count_kept
    | apply State.raise_kept
    | apply State.endWith_kept
    | apply State.scEnds_kept

theorem State.countLate_kept {s0 : State} (s : State) (x : Ctx) (late : Bool) (hs : Kept s0 s) :
    Kept s0 (State.countLate s x late) := by
  unfold State.countLate
  try dsimp only
  repeat' with_reducible first
    | assumption
    | apply State.count_kept
    | apply State.reportOverrun_kept
    | apply Kept.ite
    | split

theorem State.mirrorEnding_kept {s0 : State} (s : State) (x : Ctx) (r : Response) (hs : Kept s0 s) :
    Kept s0 (State.mirrorEnding s x r) := by
  unfold State.mirrorEnding
  try dsimp only
  repeat' with_reducible first
    | assumption
    | apply State.sendMirror_kept
    | apply Kept.ite
    | split

theorem State.grantTo_kept {s0 : State} (s : State) (p : Fin 4) (c : Nat) (x : Ctx) (r : Response) (hs : Kept s0 s) :
    Kept s0 (State.grantTo s p c x r) := by
  unfold State.grantTo
  try dsimp only
  repeat' with_reducible first
    | assumption
    | apply State.drawn_kept
    | apply State.countLate_kept
    | apply State.takePort_kept
    | apply State.sendFrame_kept
    | apply State.raise_kept
    | apply State.freeCtx_kept
    | apply State.mirrorEnding_kept
    | apply Kept.ite

theorem State.grant_kept {s0 : State} (s : State) (p : Fin 4) (hs : Kept s0 s) :
    Kept s0 (State.grant s p) := by
  unfold State.grant
  try dsimp only
  repeat' with_reducible first
    | assumption
    | apply State.grantTo_kept
    | split

theorem State.writeRing_kept {s0 : State} (s : State) (c : Nat) (hs : Kept s0 s) :
    Kept s0 (State.writeRing s c) := by
  unfold State.writeRing
  try dsimp only
  repeat' with_reducible first
    | assumption
    | apply State.countLate_kept
    | apply State.ringAnswer_kept
    | apply State.drawn_kept
    | apply State.freeCtx_kept
    | apply State.mirrorEnding_kept
    | split

theorem State.emptySlot_kept {s0 : State} (s : State) (slot : Nat) (hs : Kept s0 s) :
    Kept s0 (State.emptySlot s slot) := by
  unfold State.emptySlot
  refine Kept.maps ?_ rfl id id id (fun c => swf_filter _ c) id id id rfl rfl
  exact hs

theorem State.pslotFree_kept {s0 : State} (s : State) (v : Word32) (hs : Kept s0 s) :
    Kept s0 (State.pslotFree s v) := by
  unfold State.pslotFree
  try dsimp only
  repeat' with_reducible first
    | assumption
    | apply State.emptySlot_kept
    | apply State.raise_kept
    | apply Kept.ite

theorem State.epochSwitch_kept {s0 : State} (s : State) (v : Word32) (hs : Kept s0 s) :
    Kept s0 (State.epochSwitch s v) := by
  unfold State.epochSwitch
  try dsimp only
  repeat' with_reducible first
    | assumption
    | apply State.raise_kept
    | apply State.fset_kept
    | apply Kept.ite

theorem State.writeCost_kept {s0 : State} (s : State) (b : Nat) (v : Nat) (hs : Kept s0 s) :
    Kept s0 (State.writeCost s b v) := by
  unfold State.writeCost
  try dsimp only
  repeat' with_reducible first
    | assumption
    | apply State.put_kept
    | apply State.wr_kept
    | apply Kept.ite
    | refine Kept.foldl (fun _ _ _ => ?_) ?_
    | split

theorem State.writeCosts_kept {s0 : State} (s : State) (b : Nat) (hs : Kept s0 s) :
    Kept s0 (State.writeCosts s b) := by
  unfold State.writeCosts
  refine Kept.foldl (fun _ _ h => State.writeCost_kept _ _ _ h) ?_
  refine Kept.maps ?_ rfl (fun c => swf_filter _ c) id id id id id id rfl rfl
  exact hs

theorem State.useBank_kept {s0 : State} (s : State) (b : Nat) (hs : Kept s0 s) :
    Kept s0 (State.useBank s b) := by
  unfold State.useBank
  try dsimp only
  repeat' with_reducible first
    | assumption
    | apply State.fset_kept
    | refine Kept.drop ?_ rfl rfl rfl rfl rfl rfl rfl rfl rfl rfl

theorem State.bankSwitches_kept {s0 : State} (s : State) (b : Nat) (hs : Kept s0 s) :
    Kept s0 (State.bankSwitches s b) := by
  unfold State.bankSwitches
  try dsimp only
  repeat' with_reducible first
    | assumption
    | apply State.fset_kept
    | apply State.judgeSkew_kept
    | apply State.useBank_kept
    | apply State.assignFast_kept
    | split

theorem State.switchFails_kept {s0 : State} (s : State) (e : Nat) (v : Nat) (hs : Kept s0 s) :
    Kept s0 (State.switchFails s e v) := by
  unfold State.switchFails
  try dsimp only
  repeat' with_reducible first
    | assumption
    | apply State.raise_kept
    | apply State.fset_kept

theorem State.switchTo_kept {s0 : State} (s : State) (b : Nat) (hs : Kept s0 s) :
    Kept s0 (State.switchTo s b) := by
  unfold State.switchTo
  try dsimp only
  repeat' with_reducible first
    | assumption
    | apply State.switchFails_kept
    | apply State.writeCosts_kept
    | apply State.bankSwitches_kept
    | apply State.raise_kept
    | apply Kept.ite
    | split

theorem State.switchEnds_kept {s0 : State} (s : State) (hs : Kept s0 s) :
    Kept s0 (State.switchEnds s) := by
  unfold State.switchEnds
  try dsimp only
  repeat' with_reducible first
    | assumption
    | apply State.switchTo_kept
    | apply State.lower_kept

/-! ### Machine/Svc.lean -/

theorem State.setCause_kept {s0 : State} (s : State) (n : Nat) (b : Bool) (hs : Kept s0 s) :
    Kept s0 (State.setCause s n b) := by
  unfold State.setCause
  try dsimp only
  repeat' with_reducible first
    | assumption
    | apply State.signal_kept
    | apply State.raise_kept
    | apply State.put_kept
    | apply Kept.ite

theorem State.linkCause_kept {s0 : State} (s : State) (n : Nat) (hs : Kept s0 s) :
    Kept s0 (State.linkCause s n) := by
  unfold State.linkCause
  try dsimp only
  repeat' with_reducible first
    | assumption
    | apply State.setCause_kept

theorem State.linkCauses_kept {s0 : State} (s : State) (hs : Kept s0 s) :
    Kept s0 (State.linkCauses s) := by
  unfold State.linkCauses
  try dsimp only
  repeat' with_reducible first
    | assumption
    | apply State.linkCause_kept

theorem State.setLink_kept {s0 : State} (s : State) (port : Nat) (up : Bool) (hs : Kept s0 s) :
    Kept s0 (State.setLink s port up) := by
  unfold State.setLink
  try dsimp only
  repeat' with_reducible first
    | assumption
    | apply Kept.ite
    | refine Kept.drop ?_ rfl rfl rfl rfl rfl rfl rfl rfl rfl rfl

theorem State.setRefclk_kept {s0 : State} (s : State) (mem : Bool) (present : Bool) (hs : Kept s0 s) :
    Kept s0 (State.setRefclk s mem present) := by
  unfold State.setRefclk
  try dsimp only
  repeat' with_reducible first
    | assumption
    | apply State.setCause_kept
    | apply Kept.ite
    | split
    | refine Kept.drop ?_ rfl rfl rfl rfl rfl rfl rfl rfl rfl rfl

theorem State.rxAdvance_kept {s0 : State} (s : State) (port : Nat) (k : Nat) (an : Nat) (pn : Nat) (hs : Kept s0 s) :
    Kept s0 (State.rxAdvance s port k an pn) := by
  unfold State.rxAdvance
  try dsimp only
  repeat' with_reducible first
    | assumption
    | apply State.setSa_kept
    | split

theorem State.toManagement_kept {s0 : State} (s : State) (port : Nat) (sc : Nat) (len : Nat) (c : List Byte) (hs : Kept s0 s) :
    Kept s0 (State.toManagement s port sc len c) := by
  unfold State.toManagement
  try dsimp only
  repeat' with_reducible first
    | assumption
    | apply State.raise_kept
    | apply State.writeBlock_kept
    | apply State.fset_kept
    | apply Kept.ite
    | split
    | (refine Kept.snd (by assumption) ?_)

theorem State.waitsFor_kept {s0 : State} (s : State) (w : ArrayWait) (hs : Kept s0 s) :
    Kept s0 (State.waitsFor s w) := by
  unfold State.waitsFor
  try dsimp only
  repeat' with_reducible first
    | assumption
    | split
    | refine Kept.drop ?_ rfl rfl rfl rfl rfl rfl rfl rfl rfl rfl

theorem State.mgtTake_kept {s0 : State} (s : State) (v : Word32) (hs : Kept s0 s) :
    Kept s0 (State.mgtTake s v) := by
  unfold State.mgtTake
  try dsimp only
  repeat' with_reducible first
    | assumption
    | apply State.readBlock_kept
    | apply State.endStalls_kept
    | apply State.waitsFor_kept
    | split
    | (refine Kept.snd (by assumption) ?_)
    | refine Kept.drop ?_ rfl rfl rfl rfl rfl rfl rfl rfl rfl rfl

theorem State.mgtGo_kept {s0 : State} (s : State) (v : Word32) (hs : Kept s0 s) :
    Kept s0 (State.mgtGo s v) := by
  unfold State.mgtGo
  try dsimp only
  repeat' with_reducible first
    | assumption
    | apply State.waitsFor_kept
    | apply State.mgtTake_kept
    | apply State.readBlock_kept
    | apply Kept.ite
    | split
    | (refine Kept.snd (by assumption) ?_)
    | refine Kept.drop ?_ rfl rfl rfl rfl rfl rfl rfl rfl rfl rfl

theorem State.mgtDone_kept {s0 : State} (s : State) (hs : Kept s0 s) :
    Kept s0 (State.mgtDone s) := by
  unfold State.mgtDone
  try dsimp only
  repeat' with_reducible first
    | assumption
    | apply State.sendFrame_kept
    | apply State.writeBlock_kept
    | apply State.readBlock_kept
    | apply State.endStalls_kept
    | apply Kept.ite
    | split
    | (refine Kept.snd (by assumption) ?_)
    | refine Kept.drop ?_ rfl rfl rfl rfl rfl rfl rfl rfl rfl rfl

theorem State.setRequester_kept {s0 : State} (s : State) (n : Nat) (r : Requester) (hs : Kept s0 s) :
    Kept s0 (State.setRequester s n r) := by
  unfold State.setRequester
  try dsimp only
  repeat' with_reducible first
    | assumption
    | refine Kept.drop ?_ rfl rfl rfl rfl rfl rfl rfl rfl rfl rfl

theorem State.stepEleven_kept {s0 : State} (s : State) (n : Nat) (seq : Nat) (hs : Kept s0 s) :
    Kept s0 (State.stepEleven s n seq).2 := by
  unfold State.stepEleven
  try dsimp only
  repeat' with_reducible first
    | assumption
    | apply State.setRequester_kept
    | apply State.raise_kept
    | apply Kept.ite
    | split

theorem State.rqFloor_kept {s0 : State} (s : State) (v : Word) (hs : Kept s0 s) :
    Kept s0 (State.rqFloor s v) := by
  unfold State.rqFloor
  try dsimp only
  repeat' with_reducible first
    | assumption
    | apply State.raise_kept
    | apply State.setRequester_kept
    | apply Kept.ite
    | split
    | refine Kept.drop ?_ rfl rfl rfl rfl rfl rfl rfl rfl rfl rfl

theorem State.handOver_kept {s0 : State} (s : State) (d : Desc) (hs : Kept s0 s) :
    Kept s0 (State.handOver s d) := by
  unfold State.handOver
  try dsimp only
  repeat' with_reducible first
    | assumption
    | refine Kept.drop ?_ rfl rfl rfl rfl rfl rfl rfl rfl rfl rfl

theorem State.toDuo_kept {s0 : State} (s : State) (m : PeerMsg) (hs : Kept s0 s) :
    Kept s0 (State.toDuo s m) := by
  unfold State.toDuo
  try dsimp only
  repeat' with_reducible first
    | assumption
    | apply Kept.ite
    | refine Kept.drop ?_ rfl rfl rfl rfl rfl rfl rfl rfl rfl rfl

theorem State.dropAt_kept {s0 : State} (s : State) (port : Nat) (k : Nat) (hs : Kept s0 s) :
    Kept s0 (State.dropAt s port k) := by
  unfold State.dropAt
  try dsimp only
  repeat' with_reducible first
    | assumption
    | apply State.count_kept

theorem State.refuseAt_kept {s0 : State} (s : State) (port : Fin 4) (r : Reply) (q : CrpReq) (x : FrontRefusal) (turn : optParam (Option (Nat × Nat)) none) (hs : Kept s0 s) :
    Kept s0 (State.refuseAt s port r q x turn) := by
  unfold State.refuseAt
  try dsimp only
  repeat' with_reducible first
    | assumption
    | apply State.count_kept
    | apply State.refuse_kept
    | split

theorem State.refuseEleven_kept {s0 : State} (s : State) (x : Arrival) (r : MarkResult) (hs : Kept s0 s) :
    Kept s0 (State.refuseEleven s x r) := by
  unfold State.refuseEleven
  try dsimp only
  repeat' with_reducible first
    | assumption
    | apply State.refuseAt_kept
    | split

theorem State.withdraw_kept {s0 : State} (s : State) (x : Arrival) (r : MarkResult) (hs : Kept s0 s) :
    Kept s0 (State.withdraw s x r) := by
  unfold State.withdraw
  try dsimp only
  repeat' with_reducible first
    | assumption
    | apply State.refuseEleven_kept
    | apply State.refuseAt_kept
    | apply Kept.ite
    | split
    | refine Kept.drop ?_ rfl rfl rfl rfl rfl rfl rfl rfl rfl rfl

theorem State.stepElevenOf_kept {s0 : State} (s : State) (x : Arrival) (hs : Kept s0 s) :
    Kept s0 (State.stepElevenOf s x).2 := by
  unfold State.stepElevenOf
  try dsimp only
  repeat' with_reducible first
    | assumption
    | apply State.stepEleven_kept
    | split
    | (refine Kept.snd (by assumption) ?_)
    | refine Kept.drop ?_ rfl rfl rfl rfl rfl rfl rfl rfl rfl rfl
    | (dsimp only)

theorem State.stepElevenAgain_kept {s0 : State} (s : State) (x : Arrival) (hs : Kept s0 s) :
    Kept s0 (State.stepElevenAgain s x) := by
  unfold State.stepElevenAgain
  try dsimp only
  repeat' with_reducible first
    | assumption
    | apply State.stepElevenOf_kept
    | apply State.withdraw_kept
    | split
    | (refine Kept.snd (by assumption) ?_)
    | (refine Kept.fst (by assumption) ?_)
    | refine Kept.drop ?_ rfl rfl rfl rfl rfl rfl rfl rfl rfl rfl

theorem State.rewind_kept {s0 : State} (s : State) (n : Nat) (e : Requester) (hs : Kept s0 s) :
    Kept s0 (State.rewind s n e) := by
  unfold State.rewind
  try dsimp only
  repeat' with_reducible first
    | assumption
    | apply State.setRequester_kept
    | split

theorem State.stepElevenTurn_kept {s0 : State} (s : State) (x : Arrival) (hs : Kept s0 s) :
    Kept s0 (State.stepElevenTurn s x).2 := by
  unfold State.stepElevenTurn
  try dsimp only
  repeat' with_reducible first
    | assumption
    | apply State.rewind_kept
    | apply State.stepElevenOf_kept
    | apply State.stepElevenAgain_kept
    | apply State.setRequester_kept
    | refine Kept.foldl (fun _ _ _ => ?_) ?_
    | split
    | (refine Kept.snd (by assumption) ?_)
    | refine Kept.drop ?_ rfl rfl rfl rfl rfl rfl rfl rfl rfl rfl
    | (dsimp only)

theorem State.hostRequest_kept {s0 : State} (s : State) (port : Fin 4) (sc : Option Nat) (r : Reply) (msg : List Byte) (padded : Bool) (hs : Kept s0 s) :
    Kept s0 (State.hostRequest s port sc r msg padded) := by
  unfold State.hostRequest
  try dsimp only
  repeat' with_reducible first
    | assumption
    | apply State.dropAt_kept
    | apply State.refuseAt_kept
    | apply State.stepElevenTurn_kept
    | apply State.refuseEleven_kept
    | apply State.handOver_kept
    | apply Kept.ite
    | split
    | (refine Kept.snd (by assumption) ?_)
    | (refine Kept.fst (by assumption) ?_)

theorem State.frameOn_kept {s0 : State} (s : State) (port : Fin 4) (sc : Option Nat) (len : Nat) (c : List Byte) (hs : Kept s0 s) :
    Kept s0 (State.frameOn s port sc len c) := by
  unfold State.frameOn
  try dsimp only
  repeat' with_reducible first
    | assumption
    | apply State.toManagement_kept
    | apply State.dropAt_kept
    | apply State.toDuo_kept
    | apply State.hostRequest_kept
    | apply Kept.ite
    | split

theorem State.dropTwo_kept {s0 : State} (s : State) (port : Nat) (hs : Kept s0 s) :
    Kept s0 (State.dropTwo s port) := by
  unfold State.dropTwo
  try dsimp only
  repeat' with_reducible first
    | assumption
    | apply State.signal_kept
    | apply State.count_kept
    | apply State.dropAt_kept
    | apply Kept.ite

theorem State.receive_kept {s0 : State} (s : State) (port : Fin 4) (f : RxFrame) (hs : Kept s0 s) :
    Kept s0 (State.receive s port f) := by
  unfold State.receive
  try dsimp only
  repeat' with_reducible first
    | assumption
    | apply State.count_kept
    | apply State.signal_kept
    | apply State.dropAt_kept
    | apply State.dropTwo_kept
    | apply State.rxAdvance_kept
    | apply State.frameOn_kept
    | apply Kept.ite
    | split

theorem State.ringMarked_kept {s0 : State} (s : State) (i : Fin 16) (b : Bool) (hs : Kept s0 s) :
    Kept s0 (State.ringMarked s i b) := by
  unfold State.ringMarked
  try dsimp only
  repeat' with_reducible first
    | assumption
    | apply Kept.ite
    | split
    | refine Kept.drop ?_ rfl rfl rfl rfl rfl rfl rfl rfl rfl rfl

theorem State.ireqJudge_kept {s0 : State} (s : State) (i : Fin 16) (q : CrpReq) (msg : List Byte) (hs : Kept s0 s) :
    Kept s0 (State.ireqJudge s i q msg) := by
  unfold State.ireqJudge
  try dsimp only
  repeat' with_reducible first
    | assumption
    | apply State.count_kept
    | apply State.refuse_kept
    | apply State.ringAnswer_kept
    | apply State.handOver_kept
    | apply Kept.ite
    | split

theorem State.ireqTake_kept {s0 : State} (s : State) (i : Fin 16) (hs : Kept s0 s) :
    Kept s0 (State.ireqTake s i) := by
  unfold State.ireqTake
  try dsimp only
  repeat' with_reducible first
    | assumption
    | apply State.readBlock_kept
    | apply State.waitsFor_kept
    | apply State.endStalls_kept
    | apply State.ringMarked_kept
    | apply State.ireqJudge_kept
    | split
    | (refine Kept.snd (by assumption) ?_)

theorem State.ireqSubmit_kept {s0 : State} (s : State) (v : Word32) (hs : Kept s0 s) :
    Kept s0 (State.ireqSubmit s v) := by
  unfold State.ireqSubmit
  try dsimp only
  repeat' with_reducible first
    | assumption
    | apply State.raise_kept
    | apply State.ringMarked_kept
    | apply State.waitsFor_kept
    | apply State.ireqTake_kept
    | apply State.readBlock_kept
    | apply State.count_kept
    | apply State.ringAnswer_kept
    | apply State.handOver_kept
    | apply Kept.ite
    | split
    | (refine Kept.snd (by assumption) ?_)
    | refine Kept.drop ?_ rfl rfl rfl rfl rfl rfl rfl rfl rfl rfl

theorem State.portcfg_kept {s0 : State} (s : State) (v : Word32) (hs : Kept s0 s) :
    Kept s0 (State.portcfg s v) := by
  unfold State.portcfg
  try dsimp only
  repeat' with_reducible first
    | assumption
    | apply State.raise_kept
    | apply State.wr_kept
    | apply State.linkCauses_kept
    | apply Kept.ite
    | refine Kept.drop ?_ rfl rfl rfl rfl rfl rfl rfl rfl rfl rfl

theorem State.saLoad_kept {s0 : State} (s : State) (v : Word32) (hs : Kept s0 s) :
    Kept s0 (State.saLoad s v) := by
  unfold State.saLoad
  try dsimp only
  repeat' with_reducible first
    | assumption
    | apply State.setSa_kept

theorem State.saLoaded_kept {s0 : State} (s : State) (hs : Kept s0 s) :
    Kept s0 (State.saLoaded s) := by
  unfold State.saLoaded
  try dsimp only
  repeat' with_reducible first
    | assumption
    | apply State.setSa_kept
    | apply Kept.ite
    | split

end Sys2Proof.Machine
end

