-- ==== Sys2Proof/Laws/KeptEng.lean ====
section
/-!
SUPPORT. Laws/KeptEng.lean: what `Kept` says of the engines, the random source and the key store.
-/

namespace Sys2Proof.Machine

/-! ### Machine/Cph.lean -/

theorem State.putUnit_kept {s0 : State} (s : State) (a : Nat) (u : Nat) (b : Bool) (hs : Kept s0 s) :
    Kept s0 (State.putUnit s a u b) := by
  unfold State.putUnit
  try dsimp only
  repeat' with_reducible first
    | assumption
    | apply State.put_kept

theorem State.release_kept {s0 : State} (s : State) (e : EngCmd) (r : CphResult) (hs : Kept s0 s) :
    Kept s0 (State.release s e r) := by
  unfold State.release
  try dsimp only
  repeat' with_reducible first
    | assumption
    | apply State.setTransient_kept
    | apply State.svcWrite_kept
    | apply Kept.ite

theorem State.cmdStage_kept {s0 : State} (s : State) (e : EngCmd) (begins : Bool) (hs : Kept s0 s) :
    Kept s0 (State.cmdStage s e begins) := by
  unfold State.cmdStage
  try dsimp only
  repeat' with_reducible first
    | assumption
    | apply State.setCtx_kept

theorem State.completeCmd_kept {s0 : State} (s : State) (e : EngCmd) (unit : Nat) (status : Nat) (hs : Kept s0 s) :
    Kept s0 (State.completeCmd s e unit status) := by
  unfold State.completeCmd
  try dsimp only
  repeat' with_reducible first
    | assumption
    | apply State.postTicket_kept
    | apply State.cmdStage_kept

theorem State.setCph_kept {s0 : State} (s : State) (u : Nat) (x : EngUnit) (hs : Kept s0 s) :
    Kept s0 (State.setCph s u x) := by
  unfold State.setCph
  try dsimp only
  repeat' with_reducible first
    | assumption
    | refine Kept.drop ?_ rfl rfl rfl rfl rfl rfl rfl rfl rfl rfl

theorem State.cphTakes_kept {s0 : State} (s : State) (u : Nat) (e : EngCmd) (hs : Kept s0 s) :
    Kept s0 (State.cphTakes s u e) := by
  unfold State.cphTakes
  try dsimp only
  repeat' with_reducible first
    | assumption
    | apply State.setCph_kept
    | apply State.cmdStage_kept
    | apply State.raise_kept
    | apply State.fset_kept
    | apply Kept.ite
    | split

theorem State.cphStart_kept {s0 : State} (s : State) (u : Nat) (hs : Kept s0 s) :
    Kept s0 (State.cphStart s u) := by
  unfold State.cphStart
  try dsimp only
  repeat' with_reducible first
    | assumption
    | apply State.cphTakes_kept
    | split
    | refine Kept.drop ?_ rfl rfl rfl rfl rfl rfl rfl rfl rfl rfl

theorem State.cphLog_kept {s0 : State} (s : State) (u : Nat) (e : EngCmd) (hs : Kept s0 s) :
    Kept s0 (State.cphLog s u e) := by
  unfold State.cphLog
  try dsimp only
  repeat' with_reducible first
    | assumption
    | apply State.wr_kept
    | split
    | refine Kept.drop ?_ rfl rfl rfl rfl rfl rfl rfl rfl rfl rfl

theorem State.cphMismatch_kept {s0 : State} (s : State) (u : Nat) (e : EngCmd) (hs : Kept s0 s) :
    Kept s0 (State.cphMismatch s u e) := by
  unfold State.cphMismatch
  try dsimp only
  repeat' with_reducible first
    | assumption
    | apply State.countBusy_kept
    | apply State.setCph_kept
    | apply State.raise_kept
    | apply State.cphLog_kept
    | apply State.signal_kept
    | apply State.cmdStage_kept
    | apply State.endWith_kept
    | apply State.cphTakes_kept
    | apply Kept.ite
    | split
    | refine Kept.drop ?_ rfl rfl rfl rfl rfl rfl rfl rfl rfl rfl

theorem State.cphDone_kept {s0 : State} (s : State) (u : Nat) (x : EngUnit) (e : EngCmd) (hs : Kept s0 s) :
    Kept s0 (State.cphDone s u x e) := by
  unfold State.cphDone
  try dsimp only
  repeat' with_reducible first
    | assumption
    | apply State.setCph_kept
    | apply State.count_kept
    | apply State.countBusy_kept
    | apply State.release_kept
    | apply State.completeCmd_kept
    | apply State.drawn_kept
    | split

theorem State.rngCancel_kept {s0 : State} (s : State) (c : Nat) (hs : Kept s0 s) :
    Kept s0 (State.rngCancel s c) := by
  unfold State.rngCancel
  try dsimp only
  repeat' with_reducible first
    | assumption
    | apply State.endWith_kept

theorem State.shrinkFrom_kept {s0 : State} (s : State) (p : Nat) (old : Nat) (hs : Kept s0 s) :
    Kept s0 (State.shrinkFrom s p old) := by
  unfold State.shrinkFrom
  try dsimp only
  repeat' with_reducible first
    | assumption
    | apply State.raise_kept
    | apply Kept.ite

theorem State.cphToRetired_kept {s0 : State} (s : State) (u : Nat) (hs : Kept s0 s) :
    Kept s0 (State.cphToRetired s u) := by
  unfold State.cphToRetired
  try dsimp only
  repeat' with_reducible first
    | assumption
    | apply State.putUnit_kept

theorem State.cphRole_kept {s0 : State} (s : State) (u : Nat) (v : Nat) (hs : Kept s0 s) :
    Kept s0 (State.cphRole s u v) := by
  unfold State.cphRole
  try dsimp only
  repeat' with_reducible first
    | assumption
    | apply State.putUnit_kept
    | apply State.raise_kept
    | apply State.cphToRetired_kept

theorem State.cphHead_kept {s0 : State} (s : State) (cmd : Option EngCmd) (hs : Kept s0 s) :
    Kept s0 (State.cphHead s cmd) := by
  unfold State.cphHead
  try dsimp only
  repeat' with_reducible first
    | assumption
    | split
    | refine Kept.drop ?_ rfl rfl rfl rfl rfl rfl rfl rfl rfl rfl

theorem State.cphFastOn_kept {s0 : State} (s : State) (fast : Bool) (hs : Kept s0 s) :
    Kept s0 (State.cphFastOn s fast) := by
  unfold State.cphFastOn
  try dsimp only
  repeat' with_reducible first
    | assumption
    | apply State.putUnit_kept
    | apply Kept.ite
    | split
    | refine Kept.drop ?_ rfl rfl rfl rfl rfl rfl rfl rfl rfl rfl

theorem State.cphNoSpare_kept {s0 : State} (s : State) (u : Nat) (hs : Kept s0 s) :
    Kept s0 (State.cphNoSpare s u) := by
  unfold State.cphNoSpare
  try dsimp only
  repeat' with_reducible first
    | assumption
    | apply State.cphToRetired_kept
    | apply State.cphFastOn_kept
    | apply State.raise_kept
    | split

theorem State.cphRehome_kept {s0 : State} (s : State) (u : Nat) (hs : Kept s0 s) :
    Kept s0 (State.cphRehome s u) := by
  unfold State.cphRehome
  try dsimp only
  repeat' with_reducible first
    | assumption
    | apply State.cphRole_kept
    | apply State.cphNoSpare_kept
    | split
    | refine Kept.drop ?_ rfl rfl rfl rfl rfl rfl rfl rfl rfl rfl

theorem State.cphRetireSpare_kept {s0 : State} (s : State) (u : Nat) (hs : Kept s0 s) :
    Kept s0 (State.cphRetireSpare s u) := by
  unfold State.cphRetireSpare
  try dsimp only
  repeat' with_reducible first
    | assumption
    | apply State.cphToRetired_kept
    | apply State.raise_kept
    | apply State.cphRehome_kept
    | apply State.cphNoSpare_kept
    | refine Kept.foldl (fun _ _ _ => ?_) ?_
    | split
    | refine Kept.drop ?_ rfl rfl rfl rfl rfl rfl rfl rfl rfl rfl

theorem State.cphRetireActive_kept {s0 : State} (s : State) (u : Nat) (hs : Kept s0 s) :
    Kept s0 (State.cphRetireActive s u) := by
  unfold State.cphRetireActive
  try dsimp only
  repeat' with_reducible first
    | assumption
    | apply State.countBusy_kept
    | apply State.setCph_kept
    | apply State.cphRehome_kept
    | apply State.cphTakes_kept
    | apply State.cphHead_kept
    | apply State.cphRole_kept
    | apply State.cphNoSpare_kept
    | apply Kept.ite
    | split
    | refine Kept.drop ?_ rfl rfl rfl rfl rfl rfl rfl rfl rfl rfl

theorem State.cphRetireUnit_kept {s0 : State} (s : State) (u : Nat) (hs : Kept s0 s) :
    Kept s0 (State.cphRetireUnit s u) := by
  unfold State.cphRetireUnit
  try dsimp only
  repeat' with_reducible first
    | assumption
    | apply State.cphRetireSpare_kept
    | apply State.cphRetireActive_kept
    | apply State.shrinkFrom_kept
    | apply Kept.ite
    | split

theorem State.cphRetire_kept {s0 : State} (s : State) (v : Word32) (hs : Kept s0 s) :
    Kept s0 (State.cphRetire s v) := by
  unfold State.cphRetire
  try dsimp only
  repeat' with_reducible first
    | assumption
    | apply State.raise_kept
    | apply State.cphRetireUnit_kept
    | apply Kept.ite

theorem State.cphReinst_kept {s0 : State} (s : State) (v : Word32) (hs : Kept s0 s) :
    Kept s0 (State.cphReinst s v) := by
  unfold State.cphReinst
  try dsimp only
  repeat' with_reducible first
    | assumption
    | apply State.raise_kept
    | apply State.setCph_kept
    | apply State.wr_kept
    | apply Kept.ite

/-! ### Machine/Mau.lean -/

theorem State.setMau_kept {s0 : State} (s : State) (u : Nat) (x : EngUnit) (hs : Kept s0 s) :
    Kept s0 (State.setMau s u x) := by
  unfold State.setMau
  try dsimp only
  repeat' with_reducible first
    | assumption
    | refine Kept.drop ?_ rfl rfl rfl rfl rfl rfl rfl rfl rfl rfl

theorem State.putMau_kept {s0 : State} (s : State) (a : Nat → Nat) (u : Nat) (b : Bool) (hs : Kept s0 s) :
    Kept s0 (State.putMau s a u b) := by
  unfold State.putMau
  try dsimp only
  repeat' with_reducible first
    | assumption
    | apply State.put_kept

theorem State.reseed_kept {s0 : State} (s : State) (u : Nat) (hs : Kept s0 s) :
    Kept s0 (State.reseed s u) := by
  unfold State.reseed
  try dsimp only
  repeat' with_reducible first
    | assumption
    | apply State.setMau_kept
    | apply Kept.ite
    | split

theorem State.starve_kept {s0 : State} (s : State) (e : EngCmd) (hs : Kept s0 s) :
    Kept s0 (State.starve s e) := by
  unfold State.starve
  try dsimp only
  repeat' with_reducible first
    | assumption
    | apply State.signal_kept
    | apply State.raise_kept
    | apply State.rngCancel_kept
    | apply Kept.ite

theorem State.mauTakes_kept {s0 : State} (s : State) (u : Nat) (e : EngCmd) (hs : Kept s0 s) :
    Kept s0 (State.mauTakes s u e) := by
  unfold State.mauTakes
  try dsimp only
  repeat' with_reducible first
    | assumption
    | apply State.reseed_kept
    | apply State.drawn_kept
    | apply State.setMau_kept
    | apply State.cmdStage_kept
    | apply Kept.ite
    | split

theorem State.mauStart_kept {s0 : State} (s : State) (u : Nat) (hs : Kept s0 s) :
    Kept s0 (State.mauStart s u) := by
  unfold State.mauStart
  try dsimp only
  repeat' with_reducible first
    | assumption
    | apply State.setMau_kept
    | apply State.raise_kept
    | apply State.starve_kept
    | apply State.mauTakes_kept
    | split
    | refine Kept.drop ?_ rfl rfl rfl rfl rfl rfl rfl rfl rfl rfl

theorem State.mauFree_kept {s0 : State} (s : State) (u : Nat) (hs : Kept s0 s) :
    Kept s0 (State.mauFree s u) := by
  unfold State.mauFree
  try dsimp only
  repeat' with_reducible first
    | assumption
    | apply State.countBusy_kept
    | apply State.setMau_kept
    | apply State.reseed_kept
    | apply Kept.ite
    | split

theorem State.mauLog_kept {s0 : State} (s : State) (u : Nat) (e : EngCmd) (kind : Nat) (hs : Kept s0 s) :
    Kept s0 (State.mauLog s u e kind) := by
  unfold State.mauLog
  try dsimp only
  repeat' with_reducible first
    | assumption
    | apply State.raise_kept
    | apply State.wr_kept
    | apply Kept.ite

theorem State.mauFault_kept {s0 : State} (s : State) (u : Nat) (e : EngCmd) (kind : Nat) (hs : Kept s0 s) :
    Kept s0 (State.mauFault s u e kind) := by
  unfold State.mauFault
  try dsimp only
  repeat' with_reducible first
    | assumption
    | apply State.raise_kept
    | apply State.mauFree_kept
    | apply State.signal_kept
    | apply State.mauLog_kept
    | apply State.endWith_kept
    | apply State.cmdStage_kept

theorem State.mauRelease_kept {s0 : State} (s : State) (e : EngCmd) (r : MauResult) (hs : Kept s0 s) :
    Kept s0 (State.mauRelease s e r) := by
  unfold State.mauRelease
  try dsimp only
  repeat' with_reducible first
    | assumption
    | apply State.svcWrite_kept
    | apply State.setTransient_kept
    | apply Kept.ite
    | refine Kept.foldl (fun _ _ _ => ?_) ?_
    | split

theorem State.mauDone_kept {s0 : State} (s : State) (u : Nat) (e : EngCmd) (chk : Nat) (hs : Kept s0 s) :
    Kept s0 (State.mauDone s u e chk) := by
  unfold State.mauDone
  try dsimp only
  repeat' with_reducible first
    | assumption
    | apply State.mauFault_kept
    | apply State.mauRelease_kept
    | apply State.mauFree_kept
    | apply State.count_kept
    | apply State.completeCmd_kept
    | apply State.drawn_kept
    | apply Kept.ite
    | split

theorem State.mauFastOn_kept {s0 : State} (s : State) (fast : Bool) (hs : Kept s0 s) :
    Kept s0 (State.mauFastOn s fast) := by
  unfold State.mauFastOn
  try dsimp only
  repeat' with_reducible first
    | assumption
    | apply State.putMau_kept
    | apply Kept.ite
    | split

theorem State.mauToRetired_kept {s0 : State} (s : State) (u : Nat) (hs : Kept s0 s) :
    Kept s0 (State.mauToRetired s u) := by
  unfold State.mauToRetired
  try dsimp only
  repeat' with_reducible first
    | assumption
    | apply State.putMau_kept

theorem State.mauRole_kept {s0 : State} (s : State) (u : Nat) (v : Nat) (hs : Kept s0 s) :
    Kept s0 (State.mauRole s u v) := by
  unfold State.mauRole
  try dsimp only
  repeat' with_reducible first
    | assumption
    | apply State.putMau_kept

theorem State.mauRetireNow_kept {s0 : State} (s : State) (u : Nat) (hs : Kept s0 s) :
    Kept s0 (State.mauRetireNow s u) := by
  unfold State.mauRetireNow
  try dsimp only
  repeat' with_reducible first
    | assumption
    | apply State.raise_kept
    | apply State.mauFree_kept
    | apply State.mauToRetired_kept

theorem State.mauNoSpare_kept {s0 : State} (s : State) (u : Nat) (hs : Kept s0 s) :
    Kept s0 (State.mauNoSpare s u) := by
  unfold State.mauNoSpare
  try dsimp only
  repeat' with_reducible first
    | assumption
    | apply State.mauRetireNow_kept
    | apply State.mauFastOn_kept
    | apply State.raise_kept
    | split

theorem State.mauRetireUnit_kept {s0 : State} (s : State) (u : Nat) (hs : Kept s0 s) :
    Kept s0 (State.mauRetireUnit s u) := by
  unfold State.mauRetireUnit
  try dsimp only
  repeat' with_reducible first
    | assumption
    | apply State.mauRole_kept
    | apply State.setMau_kept
    | apply State.shrinkFrom_kept
    | apply State.mauRetireNow_kept
    | apply State.mauNoSpare_kept
    | apply State.raise_kept
    | apply State.mauLog_kept
    | apply State.cmdStage_kept
    | apply State.endWith_kept
    | apply Kept.ite
    | split
    | refine Kept.drop ?_ rfl rfl rfl rfl rfl rfl rfl rfl rfl rfl

theorem State.mauRetire_kept {s0 : State} (s : State) (v : Word32) (hs : Kept s0 s) :
    Kept s0 (State.mauRetire s v) := by
  unfold State.mauRetire
  try dsimp only
  repeat' with_reducible first
    | assumption
    | apply State.raise_kept
    | apply State.mauRetireUnit_kept
    | apply Kept.ite

theorem State.migrated_kept {s0 : State} (s : State) (u : Nat) (v : Nat) (ok : Bool) (hs : Kept s0 s) :
    Kept s0 (State.migrated s u v ok) := by
  unfold State.migrated
  try dsimp only
  repeat' with_reducible first
    | assumption
    | apply State.mauRetireNow_kept
    | apply State.setMau_kept
    | apply State.raise_kept
    | apply State.mauLog_kept
    | apply State.signal_kept
    | apply State.cmdStage_kept
    | apply State.endWith_kept
    | apply Kept.ite
    | split

theorem State.mauReinst_kept {s0 : State} (s : State) (v : Word32) (hs : Kept s0 s) :
    Kept s0 (State.mauReinst s v) := by
  unfold State.mauReinst
  try dsimp only
  repeat' with_reducible first
    | assumption
    | apply State.raise_kept
    | apply State.setMau_kept
    | apply State.wr_kept
    | apply Kept.ite

theorem State.omRead_kept {s0 : State} (s : State) (hs : Kept s0 s) :
    Kept s0 (State.omRead s) := by
  unfold State.omRead
  try dsimp only
  repeat' with_reducible first
    | assumption
    | apply State.drawn_kept
    | apply State.setMau_kept
    | apply Kept.ite
    | split

/-! ### Machine/Rng.lean -/

theorem State.setBuffer_kept {s0 : State} (s : State) (b : List (BitVec 256)) (hs : Kept s0 s) :
    Kept s0 (State.setBuffer s b) := by
  unfold State.setBuffer
  try dsimp only
  repeat' with_reducible first
    | assumption
    | apply State.fset_kept
    | split
    | refine Kept.drop ?_ rfl rfl rfl rfl rfl rfl rfl rfl rfl rfl

theorem State.captureCell_kept {s0 : State} (s : State) (w : RngWindow) (k : Nat) (hs : Kept s0 s) :
    Kept s0 (State.captureCell s w k) := by
  unfold State.captureCell
  try dsimp only
  repeat' with_reducible first
    | assumption
    | apply State.raise_kept
    | apply State.wr_kept
    | apply Kept.ite

theorem State.releaseBlocks_kept {s0 : State} (s : State) (w : RngWindow) (hs : Kept s0 s) :
    Kept s0 (State.releaseBlocks s w) := by
  unfold State.releaseBlocks
  try dsimp only
  repeat' with_reducible first
    | assumption
    | apply State.setBuffer_kept
    | apply State.count_kept
    | split

theorem State.showRaw_kept {s0 : State} (s : State) (w : RngWindow) (hs : Kept s0 s) :
    Kept s0 (State.showRaw s w) := by
  unfold State.showRaw
  try dsimp only
  repeat' with_reducible first
    | assumption
    | apply Kept.ite
    | split
    | refine Kept.drop ?_ rfl rfl rfl rfl rfl rfl rfl rfl rfl rfl

theorem State.windowBegins_kept {s0 : State} (s : State) (hs : Kept s0 s) :
    Kept s0 (State.windowBegins s) := by
  unfold State.windowBegins
  try dsimp only
  repeat' with_reducible first
    | assumption
    | apply State.fset_kept
    | split
    | refine Kept.drop ?_ rfl rfl rfl rfl rfl rfl rfl rfl rfl rfl

theorem State.startTest_kept {s0 : State} (s : State) (hs : Kept s0 s) :
    Kept s0 (State.startTest s) := by
  unfold State.startTest
  try dsimp only
  repeat' with_reducible first
    | assumption
    | apply State.windowBegins_kept
    | apply State.lower_kept
    | split
    | refine Kept.drop ?_ rfl rfl rfl rfl rfl rfl rfl rfl rfl rfl

theorem State.startupWindow_kept {s0 : State} (s : State) (w : RngWindow) (hs : Kept s0 s) :
    Kept s0 (State.startupWindow s w) := by
  unfold State.startupWindow
  try dsimp only
  repeat' with_reducible first
    | assumption
    | apply State.showRaw_kept
    | apply State.windowBegins_kept
    | apply State.raise_kept
    | apply State.captureCell_kept
    | apply State.signal_kept
    | apply Kept.ite
    | split
    | refine Kept.drop ?_ rfl rfl rfl rfl rfl rfl rfl rfl rfl rfl

theorem State.cancelDraw_kept {s0 : State} (s : State) (c : Nat) (hs : Kept s0 s) :
    Kept s0 (State.cancelDraw s c) := by
  unfold State.cancelDraw
  try dsimp only
  repeat' with_reducible first
    | assumption
    | apply State.raise_kept
    | apply State.rngCancel_kept

theorem State.rngOff_kept {s0 : State} (s : State) (hs : Kept s0 s) :
    Kept s0 (State.rngOff s) := by
  unfold State.rngOff
  try dsimp only
  repeat' with_reducible first
    | assumption
    | apply State.lower_kept
    | apply State.setBuffer_kept
    | apply State.cancelDraw_kept
    | refine Kept.foldl (fun _ _ _ => ?_) ?_
    | split
    | refine Kept.drop ?_ rfl rfl rfl rfl rfl rfl rfl rfl rfl rfl

theorem State.dropFwReq_kept {s0 : State} (s : State) (hs : Kept s0 s) :
    Kept s0 (State.dropFwReq s) := by
  unfold State.dropFwReq
  try dsimp only
  repeat' with_reducible first
    | assumption
    | apply State.lower_kept
    | apply State.raise_kept
    | apply Kept.ite
    | split

theorem State.rngCtrl_kept {s0 : State} (s : State) (v : Word32) (hs : Kept s0 s) :
    Kept s0 (State.rngCtrl s v) := by
  unfold State.rngCtrl
  try dsimp only
  repeat' with_reducible first
    | assumption
    | apply State.put_kept
    | apply State.rngOff_kept
    | apply State.dropFwReq_kept
    | apply State.startTest_kept
    | apply State.lower_kept
    | apply Kept.ite
    | split
    | refine Kept.drop ?_ rfl rfl rfl rfl rfl rfl rfl rfl rfl rfl

theorem State.rawEnds_kept {s0 : State} (s : State) (hs : Kept s0 s) :
    Kept s0 (State.rawEnds s) := by
  unfold State.rawEnds
  try dsimp only
  repeat' with_reducible first
    | assumption
    | apply State.startTest_kept
    | apply State.lower_kept
    | apply Kept.ite
    | split

theorem State.rngCutoff_kept {s0 : State} (s : State) (v : Word32) (hs : Kept s0 s) :
    Kept s0 (State.rngCutoff s v) := by
  unfold State.rngCutoff
  try dsimp only
  repeat' with_reducible first
    | assumption
    | apply State.fset_kept
    | apply Kept.ite

theorem State.rngFwReq_kept {s0 : State} (s : State) (v : Word32) (hs : Kept s0 s) :
    Kept s0 (State.rngFwReq s v) := by
  unfold State.rngFwReq
  try dsimp only
  repeat' with_reducible first
    | assumption
    | apply State.raise_kept
    | apply Kept.ite

theorem State.fwWords_kept {s0 : State} (s : State) (b : BitVec 256) (x3 : Nat) (hs : Kept s0 s) :
    Kept s0 (State.fwWords s b x3) := by
  induction x3 generalizing s b with
  | zero =>
    unfold State.fwWords
    try dsimp only
    repeat' with_reducible first
      | assumption
  | succ k ih =>
    unfold State.fwWords
    try dsimp only
    repeat' with_reducible first
      | assumption
      | apply ih
      | apply State.wr_kept

theorem State.rngFwTaken_kept {s0 : State} (s : State) (hs : Kept s0 s) :
    Kept s0 (State.rngFwTaken s) := by
  unfold State.rngFwTaken
  try dsimp only
  repeat' with_reducible first
    | assumption
    | apply State.lower_kept
    | apply State.fwWords_kept
    | apply Kept.ite

theorem State.rngRawTaken_kept {s0 : State} (s : State) (hs : Kept s0 s) :
    Kept s0 (State.rngRawTaken s) := by
  unfold State.rngRawTaken
  try dsimp only
  repeat' with_reducible first
    | assumption
    | apply State.wr_kept
    | apply Kept.ite
    | split
    | refine Kept.drop ?_ rfl rfl rfl rfl rfl rfl rfl rfl rfl rfl

theorem State.giveBlock_kept {s0 : State} (s : State) (b : BitVec 256) (x3 : Consumer) (hs : Kept s0 s) :
    Kept s0 (State.giveBlock s b x3) := by
  unfold State.giveBlock
  try dsimp only
  repeat' with_reducible first
    | assumption
    | apply State.raise_kept
    | apply State.setMau_kept
    | apply State.reseed_kept
    | apply State.setCph_kept
    | apply State.saltDrawn_kept
    | apply State.fwWords_kept
    | apply State.lower_kept
    | apply State.sendWaiting_kept
    | split
    | refine Kept.drop ?_ rfl rfl rfl rfl rfl rfl rfl rfl rfl rfl

/-! ### Machine/Kst.lean -/

theorem State.kstCmd_kept {s0 : State} (s : State) (v : Word32) (hs : Kept s0 s) :
    Kept s0 (State.kstCmd s v) := by
  unfold State.kstCmd
  try dsimp only
  repeat' with_reducible first
    | assumption
    | apply State.fset_kept
    | apply State.raise_kept
    | apply Kept.ite
    | refine Kept.drop ?_ rfl rfl rfl rfl rfl rfl rfl rfl rfl rfl

theorem State.cmdEnds_kept {s0 : State} (s : State) (err : Nat) (hs : Kept s0 s) :
    Kept s0 (State.cmdEnds s err) := by
  unfold State.cmdEnds
  try dsimp only
  repeat' with_reducible first
    | assumption
    | apply State.lower_kept
    | apply State.raise_kept
    | apply State.fset_kept
    | apply Kept.ite
    | refine Kept.drop ?_ rfl rfl rfl rfl rfl rfl rfl rfl rfl rfl

theorem State.bringIn_kept {s0 : State} (s : State) (i : Nat) (ok : Bool) (hs : Kept s0 s) : Kept s0 (s.bringIn i ok).2 := by
  unfold State.bringIn
  dsimp only
  split
  · exact hs
  · have h := State.countFetch_kept s i hs
    split
    · exact h
    · exact State.integrityFailure_kept _ _ _ h

theorem State.bringIn_ok_kept {s0 s t u : State} {i : Nat} {ok : Bool} (e : s.bringIn i ok = (.ok t, u)) (hs : Kept s0 s) :
    Kept s0 t := by
  unfold State.bringIn at e
  dsimp only at e
  split at e
  · cases e
    exact State.install_kept _ _ hs
  · split at e
    · cases e
      exact State.install_kept _ _ (State.countFetch_kept s i hs)
    · cases e

theorem State.cmdPin_kept {s0 : State} (s : State) (ok : Bool) (hs : Kept s0 s) :
    Kept s0 (State.cmdPin s ok) := by
  unfold State.cmdPin
  try dsimp only
  repeat' with_reducible first
    | assumption
    | apply State.cmdEnds_kept
    | apply State.bringIn_kept
    | apply State.setCached_kept
    | (refine State.bringIn_ok_kept (by assumption) ?_)
    | apply Kept.ite
    | split
    | (refine Kept.snd (by assumption) ?_)

theorem State.cmdUnpin_kept {s0 : State} (s : State) (hs : Kept s0 s) :
    Kept s0 (State.cmdUnpin s) := by
  unfold State.cmdUnpin
  try dsimp only
  repeat' with_reducible first
    | assumption
    | apply State.cmdEnds_kept
    | apply State.setCached_kept
    | apply State.slotHealed_kept
    | apply Kept.ite
    | split

theorem State.cmdPrefetch_kept {s0 : State} (s : State) (ok : Bool) (hs : Kept s0 s) :
    Kept s0 (State.cmdPrefetch s ok) := by
  unfold State.cmdPrefetch
  try dsimp only
  repeat' with_reducible first
    | assumption
    | apply State.cmdEnds_kept
    | apply State.bringIn_kept
    | (refine State.bringIn_ok_kept (by assumption) ?_)
    | apply Kept.ite
    | split
    | (refine Kept.snd (by assumption) ?_)

theorem State.cmdEvict_kept {s0 : State} (s : State) (hs : Kept s0 s) :
    Kept s0 (State.cmdEvict s) := by
  unfold State.cmdEvict
  try dsimp only
  repeat' with_reducible first
    | assumption
    | apply State.cmdEnds_kept
    | apply State.setCached_kept
    | apply Kept.ite
    | split

theorem State.writeRoot_kept {s0 : State} (s : State) (r : Root) (hs : Kept s0 s) :
    Kept s0 (s.writeRoot r) := by
  unfold State.writeRoot
  exact State.programBytes_kept _ _ _ (State.eraseE4_kept _ _ (State.blockBlank_kept _ _ (State.eraseE1_kept _ _ hs)))

theorem State.kstEnters_kept {s0 : State} (s : State) (x2 : List Nat) (hs : Kept s0 s) :
    Kept s0 (State.kstEnters s x2).2 := by
  induction x2 generalizing s with
  | nil =>
    unfold State.kstEnters
    try dsimp only
    repeat' with_reducible first
      | assumption
  | cons a t ih =>
    unfold State.kstEnters
    try dsimp only
    repeat' with_reducible first
      | assumption
      | apply ih
      | apply State.enter_kept
      | split
      | (refine Kept.snd (by assumption) ?_)
      | (dsimp only)

theorem State.takeCheckpoint_kept {s0 : State} (s : State) (hs : Kept s0 s) :
    Kept s0 (State.takeCheckpoint s).2 := by
  unfold State.takeCheckpoint
  try dsimp only
  repeat' with_reducible first
    | assumption
    | apply State.kstEnters_kept
    | apply State.writeRoot_kept
    | apply State.wr_kept
    | apply State.raise_kept
    | split
    | (refine Kept.snd (by assumption) ?_)
    | (refine Kept.fst (by assumption) ?_)
    | refine Kept.drop ?_ rfl rfl rfl rfl rfl rfl rfl rfl rfl rfl
    | (dsimp only)

theorem State.unwrapBlob_kept {s0 : State} (s : State) (kek : List Byte) (hs : Kept s0 s) :
    Kept s0 (State.unwrapBlob s kek).2 := by
  unfold State.unwrapBlob
  try dsimp only
  repeat' with_reducible first
    | assumption
    | apply State.readBlock_kept
    | apply State.drawn_kept
    | split
    | (refine Kept.snd (by assumption) ?_)
    | (dsimp only)

theorem State.commitAlone_kept {s0 : State} (s : State) (cs : List (Nat × Nat × KeyRec)) (hs : Kept s0 s) :
    Kept s0 (State.commitAlone s cs) := by
  unfold State.commitAlone
  try dsimp only
  repeat' with_reducible first
    | assumption
    | apply State.resetNexts_kept
    | apply State.commit_kept
    | apply State.sendMirror_kept
    | apply State.stallCommit_kept
    | apply Kept.ite
    | split
    | (refine Kept.snd (by assumption) ?_)
    | (refine Kept.fst (by assumption) ?_)

theorem State.cmdImport_kept {s0 : State} (s : State) (ok : Bool) (hs : Kept s0 s) :
    Kept s0 (State.cmdImport s ok) := by
  unfold State.cmdImport
  try dsimp only
  repeat' with_reducible first
    | assumption
    | apply State.cmdEnds_kept
    | apply State.unwrapBlob_kept
    | apply State.commitAlone_kept
    | apply State.stallCommit_kept
    | apply State.drawn_kept
    | apply Kept.ite
    | split
    | (refine Kept.snd (by assumption) ?_)

theorem State.logProgrammed_kept {s0 : State} (s : State) (hs : Kept s0 s) :
    Kept s0 (State.logProgrammed s) := by
  unfold State.logProgrammed
  try dsimp only
  repeat' with_reducible first
    | assumption
    | apply State.image_kept
    | apply State.dirty_kept
    | apply State.setCached_kept
    | apply State.raisesTakeEffect_kept
    | apply Kept.ite
    | split
    | refine Kept.drop ?_ rfl rfl rfl rfl rfl rfl rfl rfl rfl rfl

theorem State.resumeCtx_kept {s0 : State} (s : State) (c : Nat) (cs : List (Nat × Nat × KeyRec)) (hs : Kept s0 s) :
    Kept s0 (State.resumeCtx s c cs) := by
  unfold State.resumeCtx
  try dsimp only
  repeat' with_reducible first
    | assumption
    | apply State.setCtx_kept
    | apply State.resetNexts_kept
    | apply State.commitEvents_kept
    | apply State.commit_kept
    | apply State.drawn_kept
    | apply State.afterCommit_kept
    | split

theorem State.resumeAlone_kept {s0 : State} (s : State) (cs : List (Nat × Nat × KeyRec)) (hs : Kept s0 s) :
    Kept s0 (State.resumeAlone s cs) := by
  unfold State.resumeAlone
  try dsimp only
  repeat' with_reducible first
    | assumption
    | apply State.resetNexts_kept
    | apply State.commit_kept
    | apply State.sendMirror_kept
    | apply State.cmdEnds_kept
    | apply Kept.ite
    | split
    | (refine Kept.snd (by assumption) ?_)
    | (refine Kept.fst (by assumption) ?_)
    | refine Kept.drop ?_ rfl rfl rfl rfl rfl rfl rfl rfl rfl rfl

theorem State.resumeCommit_kept {s0 : State} (s : State) (hs : Kept s0 s) :
    Kept s0 (State.resumeCommit s) := by
  unfold State.resumeCommit
  try dsimp only
  repeat' with_reducible first
    | assumption
    | apply State.logCommitFailure_kept
    | apply State.setCtx_kept
    | apply State.endWith_kept
    | apply State.cmdEnds_kept
    | apply State.resumeCtx_kept
    | apply State.resumeAlone_kept
    | apply State.put_kept
    | apply Kept.ite
    | split
    | refine Kept.drop ?_ rfl rfl rfl rfl rfl rfl rfl rfl rfl rfl

theorem State.regionRefreshed_kept {s0 : State} (s : State) (n : Nat) (hs : Kept s0 s) :
    Kept s0 (State.regionRefreshed s n) := by
  unfold State.regionRefreshed
  try dsimp only
  repeat' with_reducible first
    | assumption
    | apply Kept.ite
    | refine Kept.drop ?_ rfl rfl rfl rfl rfl rfl rfl rfl rfl rfl

theorem State.rollForward_kept {s0 : State} (s : State) (hs : Kept s0 s) :
    Kept s0 (State.rollForward s) := by
  unfold State.rollForward
  try dsimp only
  repeat' with_reducible first
    | assumption
    | apply State.wr_kept
    | apply State.raise_kept
    | apply State.lower_kept
    | apply Kept.ite
    | refine Kept.foldl (fun _ _ _ => ?_) ?_
    | split
    | refine Kept.drop ?_ rfl rfl rfl rfl rfl rfl rfl rfl rfl rfl

theorem State.askJournal_kept {s0 : State} (s : State) (j : Nat) (compare : Bool) (hs : Kept s0 s) :
    Kept s0 (State.askJournal s j compare) := by
  unfold State.askJournal
  try dsimp only
  repeat' with_reducible first
    | assumption
    | apply State.sendSegments_kept
    | split
    | refine Kept.drop ?_ rfl rfl rfl rfl rfl rfl rfl rfl rfl rfl

theorem State.readRoots_kept {s0 : State} (s : State) (x2 : List Root) (hs : Kept s0 s) :
    Kept s0 (State.readRoots s x2).2 := by
  induction x2 generalizing s with
  | nil =>
    unfold State.readRoots
    try dsimp only
    repeat' with_reducible first
      | assumption
  | cons a t ih =>
    unfold State.readRoots
    try dsimp only
    repeat' with_reducible first
      | assumption
      | apply ih
      | apply State.readBlock_kept
      | split
      | (refine Kept.snd (by assumption) ?_)
      | (dsimp only)

theorem State.mounted_kept {s0 : State} (s : State) (hs : Kept s0 s) :
    Kept s0 (State.mounted s) := by
  unfold State.mounted
  try dsimp only
  repeat' with_reducible first
    | assumption
    | apply State.rollForward_kept
    | apply State.askJournal_kept
    | apply Kept.ite
    | split

theorem State.mountEnds_kept {s0 : State} (s : State) (hs : Kept s0 s) :
    Kept s0 (State.mountEnds s) := by
  unfold State.mountEnds
  try dsimp only
  repeat' with_reducible first
    | assumption
    | apply State.mounted_kept
    | apply State.readRoots_kept
    | apply State.raise_kept
    | apply State.rollForward_kept
    | apply State.askJournal_kept
    | apply Kept.ite
    | split
    | (refine Kept.snd (by assumption) ?_)
    | refine Kept.drop ?_ rfl rfl rfl rfl rfl rfl rfl rfl rfl rfl

end Sys2Proof.Machine
end

