-- ==== Sys2Proof/Laws/KeptDuo.lean ====
section
/-!
SUPPORT. Laws/KeptDuo.lean: what `Kept` says of the duo link.
-/

namespace Sys2Proof.Machine

/-! ### Machine/Duo.lean -/

theorem State.relantern_kept {s0 : State} (s : State) (hs : Kept s0 s) :
    Kept s0 (State.relantern s) := by
  unfold State.relantern
  try dsimp only
  repeat' with_reducible first
    | assumption
    | apply State.setLantern_kept

theorem State.dropWaiting_kept {s0 : State} (s : State) (hs : Kept s0 s) :
    Kept s0 (State.dropWaiting s) := by
  unfold State.dropWaiting
  try dsimp only
  repeat' with_reducible first
    | assumption
    | apply State.freeCtx_kept
    | apply State.cmdEnds_kept
    | apply Kept.ite
    | refine Kept.foldl (fun _ _ _ => ?_) ?_
    | split
    | refine Kept.drop ?_ rfl rfl rfl rfl rfl rfl rfl rfl rfl rfl

theorem State.dropLantern_kept {s0 : State} (s : State) (hs : Kept s0 s) :
    Kept s0 (State.dropLantern s) := by
  unfold State.dropLantern
  try dsimp only
  repeat' with_reducible first
    | assumption
    | apply State.dropWaiting_kept
    | split
    | refine Kept.drop ?_ rfl rfl rfl rfl rfl rfl rfl rfl rfl rfl

theorem State.setRole_kept {s0 : State} (s : State) (r : Nat) (hs : Kept s0 s) :
    Kept s0 (State.setRole s r) := by
  unfold State.setRole
  try dsimp only
  repeat' with_reducible first
    | assumption
    | apply State.dropLantern_kept
    | apply State.fset_kept
    | apply State.relantern_kept
    | apply Kept.ite
    | split

theorem State.setSynced_kept {s0 : State} (s : State) (b : Bool) (hs : Kept s0 s) :
    Kept s0 (State.setSynced s b) := by
  unfold State.setSynced
  try dsimp only
  repeat' with_reducible first
    | assumption
    | apply State.relantern_kept
    | apply State.put_kept

theorem State.setDuoEpoch_kept {s0 : State} (s : State) (e : Nat) (hs : Kept s0 s) :
    Kept s0 (State.setDuoEpoch s e) := by
  unfold State.setDuoEpoch
  try dsimp only
  repeat' with_reducible first
    | assumption
    | apply State.fset_kept
    | apply State.raise_kept
    | apply Kept.ite

theorem State.diverge_kept {s0 : State} (s : State) (hs : Kept s0 s) :
    Kept s0 (State.diverge s) := by
  unfold State.diverge
  try dsimp only
  repeat' with_reducible first
    | assumption
    | apply State.signal_kept
    | apply State.setSynced_kept
    | apply State.lower_kept
    | apply State.raise_kept

theorem State.confirm_kept {s0 : State} (s : State) (hs : Kept s0 s) :
    Kept s0 (State.confirm s) := by
  unfold State.confirm
  try dsimp only
  repeat' with_reducible first
    | assumption
    | apply State.setRole_kept
    | apply Kept.ite
    | refine Kept.drop ?_ rfl rfl rfl rfl rfl rfl rfl rfl rfl rfl

theorem State.answeredAlone_kept {s0 : State} (s : State) (c : Nat) (hs : Kept s0 s) :
    Kept s0 (State.answeredAlone s c) := by
  unfold State.answeredAlone
  try dsimp only
  repeat' with_reducible first
    | assumption
    | apply State.sendCommit_kept
    | apply State.mirDone_kept
    | apply Kept.ite
    | split

theorem State.soloOn_kept {s0 : State} (s : State) (hs : Kept s0 s) :
    Kept s0 (State.soloOn s) := by
  unfold State.soloOn
  try dsimp only
  repeat' with_reducible first
    | assumption
    | apply State.confirm_kept
    | apply State.raise_kept
    | apply State.answeredAlone_kept
    | apply State.raisesTakeEffect_kept
    | apply State.mirDone_kept
    | apply Kept.ite
    | refine Kept.foldl (fun _ _ _ => ?_) ?_
    | split
    | refine Kept.drop ?_ rfl rfl rfl rfl rfl rfl rfl rfl rfl rfl

theorem State.soloOff_kept {s0 : State} (s : State) (hs : Kept s0 s) :
    Kept s0 (State.soloOff s) := by
  unfold State.soloOff
  try dsimp only
  repeat' with_reducible first
    | assumption
    | apply State.raise_kept
    | apply State.lower_kept
    | apply Kept.ite

theorem State.dropUnacked_kept {s0 : State} (s : State) (j : Nat) (hs : Kept s0 s) :
    Kept s0 (State.dropUnacked s j) := by
  unfold State.dropUnacked
  try dsimp only
  repeat' with_reducible first
    | assumption
    | apply State.freeCtx_kept
    | refine Kept.foldl (fun _ _ _ => ?_) ?_
    | refine Kept.drop ?_ rfl rfl rfl rfl rfl rfl rfl rfl rfl rfl

theorem State.hear_kept {s0 : State} (s : State) (m : PeerMsg) (hs : Kept s0 s) :
    Kept s0 (State.hear s m) := by
  unfold State.hear
  try dsimp only
  repeat' with_reducible first
    | assumption
    | apply State.judgeSkew_kept
    | apply State.fset_kept
    | apply State.wr_kept
    | apply Kept.ite
    | split
    | refine Kept.drop ?_ rfl rfl rfl rfl rfl rfl rfl rfl rfl rfl

theorem State.takeMsg_kept {s0 : State} (s : State) (typ : Nat) (hs : Kept s0 s) :
    Kept s0 (State.takeMsg s typ).2 := by
  unfold State.takeMsg
  try dsimp only
  repeat' with_reducible first
    | assumption
    | apply State.hear_kept
    | split
    | refine Kept.drop ?_ rfl rfl rfl rfl rfl rfl rfl rfl rfl rfl

theorem State.takeSealed_kept {s0 : State} (s : State) (typ : Nat) (hs : Kept s0 s) :
    Kept s0 (State.takeSealed s typ).2 := by
  unfold State.takeSealed
  try dsimp only
  repeat' with_reducible first
    | assumption
    | apply State.takeMsg_kept
    | apply State.hear_kept
    | split
    | (refine Kept.snd (by assumption) ?_)
    | (dsimp only)

theorem State.renew_kept {s0 : State} (s : State) (release : Bool) (line : Bool) (hs : Kept s0 s) :
    Kept s0 (State.renew s release line) := by
  unfold State.renew
  try dsimp only
  repeat' with_reducible first
    | assumption
    | apply State.sendEveryPort_kept
    | apply State.emit_kept
    | apply Kept.ite
    | refine Kept.drop ?_ rfl rfl rfl rfl rfl rfl rfl rfl rfl rfl

theorem State.leaseNow_kept {s0 : State} (s : State) (hs : Kept s0 s) :
    Kept s0 (State.leaseNow s) := by
  unfold State.leaseNow
  try dsimp only
  repeat' with_reducible first
    | assumption
    | apply State.emit_kept
    | apply Kept.ite
    | refine Kept.drop ?_ rfl rfl rfl rfl rfl rfl rfl rfl rfl rfl

theorem State.renewalHeard_kept {s0 : State} (s : State) (pair : Option (Nat × Nat)) (rseq : Nat) (release : Bool) (hs : Kept s0 s) :
    Kept s0 (State.renewalHeard s pair rseq release) := by
  unfold State.renewalHeard
  try dsimp only
  repeat' with_reducible first
    | assumption
    | apply Kept.ite
    | split
    | refine Kept.drop ?_ rfl rfl rfl rfl rfl rfl rfl rfl rfl rfl

theorem State.trySync_kept {s0 : State} (s : State) (hs : Kept s0 s) :
    Kept s0 (State.trySync s) := by
  unfold State.trySync
  try dsimp only
  repeat' with_reducible first
    | assumption
    | apply State.setSynced_kept
    | apply Kept.ite
    | split
    | refine Kept.drop ?_ rfl rfl rfl rfl rfl rfl rfl rfl rfl rfl

theorem State.follow_kept {s0 : State} (s : State) (m : PeerMsg) (hs : Kept s0 s) :
    Kept s0 (State.follow s m) := by
  unfold State.follow
  try dsimp only
  repeat' with_reducible first
    | assumption
    | apply State.renewalHeard_kept
    | apply State.setDuoEpoch_kept
    | apply State.setRole_kept
    | apply State.trySync_kept
    | apply State.askJournal_kept
    | apply Kept.ite
    | refine Kept.drop ?_ rfl rfl rfl rfl rfl rfl rfl rfl rfl rfl

theorem State.acked_kept {s0 : State} (s : State) (j : Nat) (hs : Kept s0 s) :
    Kept s0 (State.acked s j) := by
  unfold State.acked
  try dsimp only
  repeat' with_reducible first
    | assumption
    | apply State.mirDone_kept
    | apply State.mirStart_kept
    | refine Kept.foldl (fun _ _ _ => ?_) ?_
    | split
    | refine Kept.drop ?_ rfl rfl rfl rfl rfl rfl rfl rfl rfl rfl

theorem State.yieldTo_kept {s0 : State} (s : State) (m : PeerMsg) (hs : Kept s0 s) :
    Kept s0 (State.yieldTo s m) := by
  unfold State.yieldTo
  try dsimp only
  repeat' with_reducible first
    | assumption
    | apply State.soloOff_kept
    | apply State.setRole_kept
    | apply State.raise_kept
    | apply State.acked_kept
    | apply State.follow_kept
    | apply State.dropUnacked_kept
    | apply State.diverge_kept
    | apply Kept.ite
    | split
    | refine Kept.drop ?_ rfl rfl rfl rfl rfl rfl rfl rfl rfl rfl

theorem State.onRenew_kept {s0 : State} (s : State) (m : PeerMsg) (hs : Kept s0 s) :
    Kept s0 (State.onRenew s m) := by
  unfold State.onRenew
  try dsimp only
  repeat' with_reducible first
    | assumption
    | apply State.renewalHeard_kept
    | apply State.yieldTo_kept
    | apply State.follow_kept
    | apply Kept.ite
    | split

theorem State.judgeSolo_kept {s0 : State} (s : State) (hs : Kept s0 s) :
    Kept s0 (State.judgeSolo s) := by
  unfold State.judgeSolo
  try dsimp only
  repeat' with_reducible first
    | assumption
    | apply State.soloOn_kept
    | apply State.soloOff_kept
    | apply Kept.ite

theorem State.statusHeardNow_kept {s0 : State} (s : State) (synced : Bool) (claimable : Bool) (echo : Nat) (extends_ : Bool) (hs : Kept s0 s) :
    Kept s0 (State.statusHeardNow s synced claimable echo extends_) := by
  unfold State.statusHeardNow
  try dsimp only
  repeat' with_reducible first
    | assumption
    | apply State.put_kept
    | apply Kept.ite
    | split
    | refine Kept.drop ?_ rfl rfl rfl rfl rfl rfl rfl rfl rfl rfl

theorem State.onStatus_kept {s0 : State} (s : State) (m : PeerMsg) (hs : Kept s0 s) :
    Kept s0 (State.onStatus s m) := by
  unfold State.onStatus
  try dsimp only
  repeat' with_reducible first
    | assumption
    | apply State.statusHeardNow_kept
    | apply State.confirm_kept
    | apply State.judgeSolo_kept
    | apply Kept.ite
    | refine Kept.drop ?_ rfl rfl rfl rfl rfl rfl rfl rfl rfl rfl

theorem State.onLease_kept {s0 : State} (s : State) (kind : Nat) (synced : Bool) (claimable : Bool) (release : Bool) (r : Nat) (hs : Kept s0 s) :
    Kept s0 (State.onLease s kind synced claimable release r) := by
  unfold State.onLease
  try dsimp only
  repeat' with_reducible first
    | assumption
    | apply State.renewalHeard_kept
    | apply State.setRole_kept
    | apply State.judgeSolo_kept
    | apply State.statusHeardNow_kept
    | apply Kept.ite
    | split
    | refine Kept.drop ?_ rfl rfl rfl rfl rfl rfl rfl rfl rfl rfl

theorem State.applyRemote_kept {s0 : State} (s : State) (e : JEntry) (hs : Kept s0 s) :
    Kept s0 (State.applyRemote s e) := by
  unfold State.applyRemote
  try dsimp only
  repeat' with_reducible first
    | assumption
    | apply State.applyEntry_kept
    | apply Kept.ite
    | refine Kept.drop ?_ rfl rfl rfl rfl rfl rfl rfl rfl rfl rfl

theorem State.answerMirror_kept {s0 : State} (s : State) (m : Mirror) (hs : Kept s0 s) :
    Kept s0 (State.answerMirror s m) := by
  unfold State.answerMirror
  try dsimp only
  repeat' with_reducible first
    | assumption
    | apply State.answerFrom_kept
    | apply State.raise_kept
    | apply Kept.ite
    | split
    | refine Kept.drop ?_ rfl rfl rfl rfl rfl rfl rfl rfl rfl rfl

theorem State.applyMirror_kept {s0 : State} (s : State) (m : Mirror) (hs : Kept s0 s) :
    Kept s0 (State.applyMirror s m) := by
  unfold State.applyMirror
  try dsimp only
  repeat' with_reducible first
    | assumption
    | apply State.applyRemote_kept
    | apply State.answerMirror_kept
    | apply State.wr_kept
    | refine Kept.foldl (fun _ _ _ => ?_) ?_

theorem State.drain_kept {s0 : State} (s : State) (n : Nat) (hs : Kept s0 s) :
    Kept s0 (s.drain n) := by
  induction n generalizing s with
  | zero => exact hs
  | succ n ih =>
    unfold State.drain
    dsimp only
    repeat' with_reducible first
      | assumption
      | apply ih
      | apply State.applyMirror_kept
      | apply State.raise_kept
      | split
      | refine Kept.drop ?_ rfl rfl rfl rfl rfl rfl rfl rfl rfl rfl

theorem State.sendMack_kept {s0 : State} (s : State) (hs : Kept s0 s) :
    Kept s0 (State.sendMack s) := by
  unfold State.sendMack
  try dsimp only
  repeat' with_reducible first
    | assumption
    | apply State.sendSegments_kept
    | apply Kept.ite

theorem State.gap_kept {s0 : State} (s : State) (hs : Kept s0 s) :
    Kept s0 (State.gap s) := by
  unfold State.gap
  try dsimp only
  repeat' with_reducible first
    | assumption
    | apply State.raise_kept
    | apply State.setSynced_kept
    | apply State.askJournal_kept
    | refine Kept.drop ?_ rfl rfl rfl rfl rfl rfl rfl rfl rfl rfl

theorem State.bufferMirror_kept {s0 : State} (s : State) (m : Mirror) (hs : Kept s0 s) :
    Kept s0 (State.bufferMirror s m) := by
  unfold State.bufferMirror
  try dsimp only
  repeat' with_reducible first
    | assumption
    | apply State.askJournal_kept
    | apply Kept.ite
    | refine Kept.drop ?_ rfl rfl rfl rfl rfl rfl rfl rfl rfl rfl

theorem State.applyNoted_kept {s0 : State} (s : State) (e : JEntry) (hs : Kept s0 s) :
    Kept s0 (State.applyNoted s e) := by
  unfold State.applyNoted
  try dsimp only
  repeat' with_reducible first
    | assumption
    | apply State.applyRemote_kept
    | split
    | refine Kept.drop ?_ rfl rfl rfl rfl rfl rfl rfl rfl rfl rfl

theorem State.closeUp_kept {s0 : State} (s : State) (x2 : Nat) (hs : Kept s0 s) :
    Kept s0 (State.closeUp s x2) := by
  induction x2 generalizing s with
  | zero =>
    unfold State.closeUp
    try dsimp only
    repeat' with_reducible first
      | assumption
  | succ k ih =>
    unfold State.closeUp
    try dsimp only
    repeat' with_reducible first
      | assumption
      | apply ih
      | apply State.wr_kept
      | apply Kept.ite
      | split
      | refine Kept.drop ?_ rfl rfl rfl rfl rfl rfl rfl rfl rfl rfl

theorem State.liveApplied_kept {s0 : State} (s : State) (j : Nat) (hs : Kept s0 s) :
    Kept s0 (State.liveApplied s j) := by
  unfold State.liveApplied
  try dsimp only
  repeat' with_reducible first
    | assumption
    | apply State.closeUp_kept
    | split
    | refine Kept.drop ?_ rfl rfl rfl rfl rfl rfl rfl rfl rfl rfl

theorem State.copyApplied_kept {s0 : State} (s : State) (e : JEntry) (ofJournal : Bool) (hs : Kept s0 s) :
    Kept s0 (State.copyApplied s e ofJournal) := by
  unfold State.copyApplied
  try dsimp only
  repeat' with_reducible first
    | assumption
    | apply State.applyNoted_kept
    | apply State.liveApplied_kept
    | apply Kept.ite
    | split

theorem State.resyncDrain_kept {s0 : State} (s : State) (x2 : Nat) (hs : Kept s0 s) :
    Kept s0 (State.resyncDrain s x2) := by
  induction x2 generalizing s with
  | zero =>
    unfold State.resyncDrain
    try dsimp only
    repeat' with_reducible first
      | assumption
  | succ k ih =>
    unfold State.resyncDrain
    try dsimp only
    repeat' with_reducible first
      | assumption
      | apply ih
      | apply State.applyNoted_kept
      | apply State.liveApplied_kept
      | apply State.raise_kept
      | apply State.copyApplied_kept
      | apply Kept.ite
      | refine Kept.foldl (fun _ _ _ => ?_) ?_
      | split
      | refine Kept.drop ?_ rfl rfl rfl rfl rfl rfl rfl rfl rfl rfl

theorem State.resyncApply_kept {s0 : State} (s : State) (hs : Kept s0 s) :
    Kept s0 (State.resyncApply s) := by
  unfold State.resyncApply
  try dsimp only
  repeat' with_reducible first
    | assumption
    | apply State.resyncDrain_kept
    | split

theorem State.liveMirror_kept {s0 : State} (s : State) (m : Mirror) (hs : Kept s0 s) :
    Kept s0 (State.liveMirror s m) := by
  unfold State.liveMirror
  try dsimp only
  repeat' with_reducible first
    | assumption
    | apply State.bufferMirror_kept
    | apply State.resyncApply_kept
    | apply State.gap_kept
    | apply State.applyRemote_kept
    | apply State.wr_kept
    | apply Kept.ite
    | split
    | refine Kept.foldl (fun _ _ _ => ?_) ?_
    | refine Kept.drop ?_ rfl rfl rfl rfl rfl rfl rfl rfl rfl rfl

theorem State.commitMirror_kept {s0 : State} (s : State) (m : Mirror) (hs : Kept s0 s) :
    Kept s0 (State.commitMirror s m) := by
  unfold State.commitMirror
  try dsimp only
  repeat' with_reducible first
    | assumption
    | apply State.liveMirror_kept
    | apply State.bufferMirror_kept
    | apply State.sendMack_kept
    | apply State.trySync_kept
    | apply State.drain_kept
    | apply State.gap_kept
    | apply Kept.ite

theorem State.onMirror_kept {s0 : State} (s : State) (m : PeerMsg) (b : List Byte) (body : List Byte) (hs : Kept s0 s) :
    Kept s0 (State.onMirror s m b body) := by
  unfold State.onMirror
  try dsimp only
  repeat' with_reducible first
    | assumption
    | apply State.answerMirror_kept
    | apply State.commitMirror_kept
    | apply Kept.ite
    | split

theorem State.onMack_kept {s0 : State} (s : State) (j : Nat) (hs : Kept s0 s) :
    Kept s0 (State.onMack s j) := by
  unfold State.onMack
  try dsimp only
  repeat' with_reducible first
    | assumption
    | apply State.acked_kept
    | apply State.raisesTakeEffect_kept
    | apply Kept.ite
    | split
    | refine Kept.drop ?_ rfl rfl rfl rfl rfl rfl rfl rfl rfl rfl

theorem State.claim_kept {s0 : State} (s : State) (hs : Kept s0 s) :
    Kept s0 (State.claim s) := by
  unfold State.claim
  try dsimp only
  repeat' with_reducible first
    | assumption
    | apply State.setDuoEpoch_kept
    | apply State.renew_kept
    | apply State.raise_kept
    | apply State.setRole_kept
    | apply State.judgeSolo_kept
    | refine Kept.drop ?_ rfl rfl rfl rfl rfl rfl rfl rfl rfl rfl

theorem State.release__kept {s0 : State} (s : State) (hs : Kept s0 s) :
    Kept s0 (State.release_ s) := by
  unfold State.release_
  try dsimp only
  repeat' with_reducible first
    | assumption
    | apply State.relantern_kept
    | apply Kept.ite
    | refine Kept.drop ?_ rfl rfl rfl rfl rfl rfl rfl rfl rfl rfl

theorem State.sendCopy_kept {s0 : State} (k : List Byte) (s : State) (e : Nat × KeyRec) (hs : Kept s0 s) :
    Kept s0 (State.sendCopy k s e) := by
  unfold State.sendCopy
  try dsimp only
  repeat' with_reducible first
    | assumption
    | apply State.image_kept
    | apply State.sendBody_kept
    | apply State.drawn_kept
    | split
    | refine Kept.drop ?_ rfl rfl rfl rfl rfl rfl rfl rfl rfl rfl

theorem State.copyStream_kept {s0 : State} (s : State) (k : List Byte) (hs : Kept s0 s) :
    Kept s0 (State.copyStream s k) := by
  unfold State.copyStream
  try dsimp only
  repeat' with_reducible first
    | assumption
    | apply State.sendCopy_kept
    | refine Kept.foldl (fun _ _ _ => ?_) ?_
    | split

theorem State.onJreq_kept {s0 : State} (s : State) (j : Nat) (hs : Kept s0 s) :
    Kept s0 (State.onJreq s j) := by
  unfold State.onJreq
  try dsimp only
  repeat' with_reducible first
    | assumption
    | apply State.sendBody_kept
    | apply State.copyStream_kept
    | apply Kept.ite
    | split
    | refine Kept.drop ?_ rfl rfl rfl rfl rfl rfl rfl rfl rfl rfl

theorem State.applyJournal_kept {s0 : State} (s : State) (es : List JEntry) (n : Nat) (hs : Kept s0 s) :
    Kept s0 (s.applyJournal es n) := by
  induction n generalizing s es with
  | zero => exact Kept.drop hs rfl rfl rfl rfl rfl rfl rfl rfl rfl rfl
  | succ n ih =>
    unfold State.applyJournal
    dsimp only
    split
    · exact Kept.drop hs rfl rfl rfl rfl rfl rfl rfl rfl rfl rfl
    · split
      · exact ih _ _ hs
      · split
        · exact ih _ _ (State.wr_kept _ _ _ (Kept.foldl (fun t e h => State.applyRemote_kept t e h) hs))
        · exact Kept.drop (State.raise_kept _ _ hs) rfl rfl rfl rfl rfl rfl rfl rfl rfl rfl

theorem State.wantFull_kept {s0 : State} (s : State) (hs : Kept s0 s) :
    Kept s0 (State.wantFull s) := by
  unfold State.wantFull
  try dsimp only
  repeat' with_reducible first
    | assumption
    | refine Kept.drop ?_ rfl rfl rfl rfl rfl rfl rfl rfl rfl rfl

theorem State.journalDone_kept {s0 : State} (s : State) (hs : Kept s0 s) :
    Kept s0 (State.journalDone s) := by
  unfold State.journalDone
  try dsimp only
  repeat' with_reducible first
    | assumption
    | apply State.drain_kept
    | apply State.askJournal_kept
    | apply Kept.ite
    | split
    | refine Kept.drop ?_ rfl rfl rfl rfl rfl rfl rfl rfl rfl rfl

theorem State.onJdata_kept {s0 : State} (s : State) (m : PeerMsg) (body : List Byte) (k : List Byte) (hs : Kept s0 s) :
    Kept s0 (s.onJdata m body k) := by
  unfold State.onJdata
  dsimp only
  repeat' split
  · exact hs
  · exact State.resyncApply_kept _ (Kept.drop hs rfl rfl rfl rfl rfl rfl rfl rfl rfl rfl)
  · exact State.wantFull_kept _ hs
  · exact State.journalDone_kept _ (State.applyJournal_kept _ _ _ hs)

theorem State.resyncEnds_kept {s0 : State} (s : State) (err : Nat) (hs : Kept s0 s) :
    Kept s0 (State.resyncEnds s err) := by
  unfold State.resyncEnds
  try dsimp only
  repeat' with_reducible first
    | assumption
    | apply State.lower_kept
    | apply State.fset_kept
    | split
    | refine Kept.drop ?_ rfl rfl rfl rfl rfl rfl rfl rfl rfl rfl

theorem State.emptyStore_kept {s0 : State} (s : State) (hs : Kept s0 s) :
    Kept s0 (State.emptyStore s) := by
  unfold State.emptyStore
  try dsimp only
  repeat' with_reducible first
    | assumption
    | apply State.takeCheckpoint_kept
    | apply State.wr_kept
    | apply State.writeRoot_kept
    | split
    | refine Kept.drop ?_ rfl rfl rfl rfl rfl rfl rfl rfl rfl rfl

theorem State.duoResync_kept {s0 : State} (s : State) (v : Word32) (hs : Kept s0 s) :
    Kept s0 (State.duoResync s v) := by
  unfold State.duoResync
  try dsimp only
  repeat' with_reducible first
    | assumption
    | apply State.fset_kept
    | apply State.raise_kept
    | apply State.emptyStore_kept
    | apply State.wr_kept
    | apply State.setSynced_kept
    | apply State.sendSegments_kept
    | apply Kept.ite
    | split
    | refine Kept.drop ?_ rfl rfl rfl rfl rfl rfl rfl rfl rfl rfl

theorem State.copyEntry_kept {s0 : State} (s : State) (e : JEntry) (hs : Kept s0 s) :
    Kept s0 (State.copyEntry s e) := by
  unfold State.copyEntry
  try dsimp only
  repeat' with_reducible first
    | assumption
    | apply State.resyncEnds_kept
    | apply State.wr_kept
    | apply State.resyncApply_kept
    | apply State.applyRemote_kept
    | apply Kept.ite
    | split
    | refine Kept.drop ?_ rfl rfl rfl rfl rfl rfl rfl rfl rfl rfl

theorem State.duoOff_kept {s0 : State} (s : State) (hs : Kept s0 s) :
    Kept s0 (State.duoOff s) := by
  unfold State.duoOff
  try dsimp only
  repeat' with_reducible first
    | assumption
    | apply State.soloOff_kept
    | apply State.setRole_kept
    | apply State.dropUnacked_kept
    | apply State.diverge_kept
    | apply Kept.ite
    | split
    | refine Kept.drop ?_ rfl rfl rfl rfl rfl rfl rfl rfl rfl rfl

theorem State.duoCtrl_kept {s0 : State} (s : State) (cust : Bool) (v : Word32) (hs : Kept s0 s) :
    Kept s0 (State.duoCtrl s cust v) := by
  unfold State.duoCtrl
  try dsimp only
  repeat' with_reducible first
    | assumption
    | apply State.put_kept
    | apply State.duoOff_kept
    | apply State.release__kept
    | apply Kept.ite
    | split
    | refine Kept.drop ?_ rfl rfl rfl rfl rfl rfl rfl rfl rfl rfl

theorem State.epochClear_kept {s0 : State} (s : State) (cust : Bool) (v : Word32) (hs : Kept s0 s) :
    Kept s0 (State.epochClear s cust v) := by
  unfold State.epochClear
  try dsimp only
  repeat' with_reducible first
    | assumption
    | apply State.lower_kept
    | apply State.fset_kept
    | apply Kept.ite
    | refine Kept.drop ?_ rfl rfl rfl rfl rfl rfl rfl rfl rfl rfl

end Sys2Proof.Machine
end

