-- ==== Sys2Proof/Laws/KeptPower.lean ====
section
/-! SUPPORT. Laws/KeptPower.lean: what `Kept` says of store buffers, the tag memory, modes, tamper, Wick, faults,
lifecycle and flash. -/

namespace Sys2Proof.Machine

/-! ### Machine/StoreBuf.lean -/

theorem State.deferError_kept {s0 : State} (s : State) (n : Fin 16) (addr : Nat) (hs : Kept s0 s) :
    Kept s0 (State.deferError s n addr) := by
  unfold State.deferError
  try dsimp only
  repeat' with_reducible first
    | assumption
    | apply State.setCore_kept

theorem State.setBuf_kept {s0 : State} (s : State) (n : Fin 16) (b : List BufStore) (hs : Kept s0 s) :
    Kept s0 (State.setBuf s n b) := by
  unfold State.setBuf
  try dsimp only
  repeat' with_reducible first
    | assumption
    | apply State.setCore_kept

theorem State.storeEnters_kept {s0 : State} (s : State) (n : Fin 16) (hs : Kept s0 s) :
    Kept s0 (State.storeEnters s n) := by
  unfold State.storeEnters
  try dsimp only
  repeat' with_reducible first
    | assumption
    | apply State.enter_kept
    | apply State.setBuf_kept
    | apply State.deferError_kept
    | split
    | (refine Kept.snd (by assumption) ?_)

theorem State.storeLands_kept {s0 : State} (s : State) (n : Fin 16) (b : BufStore) (hs : Kept s0 s) :
    Kept s0 (State.storeLands s n b) := by
  unfold State.storeLands
  split
  · split
    · refine Kept.maps ?_ rfl id id (fun c => tagPut_wf c _ _) id id id id rfl rfl
      exact hs.storeBytes _ _
    · exact hs.storeBytes _ _
  · exact State.deferError_kept _ _ _ hs

theorem State.storeCompletes_kept {s0 : State} (s : State) (n : Fin 16) (hs : Kept s0 s) :
    Kept s0 (State.storeCompletes s n) := by
  unfold State.storeCompletes
  try dsimp only
  repeat' with_reducible first
    | assumption
    | apply State.storeLands_kept
    | apply State.setBuf_kept
    | apply State.drainOld_kept
    | apply Kept.ite
    | split

theorem State.drainSteps_kept {s0 : State} (s : State) (n : Fin 16) (x3 : Nat) (hs : Kept s0 s) :
    Kept s0 (State.drainSteps s n x3) := by
  induction x3 generalizing s n with
  | zero =>
    unfold State.drainSteps
    try dsimp only
    repeat' with_reducible first
      | assumption
  | succ k ih =>
    unfold State.drainSteps
    try dsimp only
    repeat' with_reducible first
      | assumption
      | apply ih
      | apply State.storeEnters_kept
      | apply State.storeCompletes_kept

theorem State.drainBuf_kept {s0 : State} (s : State) (n : Fin 16) (hs : Kept s0 s) :
    Kept s0 (State.drainBuf s n) := by
  unfold State.drainBuf
  try dsimp only
  repeat' with_reducible first
    | assumption
    | apply State.drainSteps_kept

theorem State.stopCore_kept {s0 : State} (s : State) (n : Fin 16) (hs : Kept s0 s) :
    Kept s0 (State.stopCore s n) := by
  unfold State.stopCore
  try dsimp only
  repeat' with_reducible first
    | assumption
    | apply State.drainBuf_kept
    | apply State.endStalls_kept
    | apply State.dropWaits_kept
    | apply State.fset_kept
    | apply State.stopAsked_kept
    | apply Kept.ite
    | split
    | refine Kept.drop ?_ rfl rfl rfl rfl rfl rfl rfl rfl rfl rfl

theorem State.stopCores_kept {s0 : State} (s : State) (hs : Kept s0 s) :
    Kept s0 (State.stopCores s) := by
  unfold State.stopCores
  try dsimp only
  repeat' with_reducible first
    | assumption
    | apply State.stopCore_kept
    | refine Kept.foldl (fun _ _ _ => ?_) ?_

/-! ### Machine/TagMem.lean -/

theorem State.setTagLine_kept {s0 : State} (s : State) (k : Nat) (l : TagLine) (hs : Kept s0 s) :
    Kept s0 (State.setTagLine s k l) := by
  unfold State.setTagLine
  try dsimp only
  repeat' with_reducible first
    | assumption
    | refine Kept.drop ?_ rfl rfl rfl rfl rfl rfl rfl rfl rfl rfl

theorem State.tagCommit_kept {s0 : State} (s : State) (k : Nat) (data : List Byte) (hs : Kept s0 s) :
    Kept s0 (State.tagCommit s k data) := by
  unfold State.tagCommit
  try dsimp only
  repeat' with_reducible first
    | assumption
    | apply State.setTagLine_kept

theorem State.tagCut_kept {s0 : State} (s : State) (k : Nat) (hs : Kept s0 s) :
    Kept s0 (State.tagCut s k) := by
  unfold State.tagCut
  try dsimp only
  repeat' with_reducible first
    | assumption
    | apply State.setTagLine_kept

theorem State.tagTorn_kept {s0 : State} (s : State) (k : Nat) (data : List Byte) (hs : Kept s0 s) :
    Kept s0 (State.tagTorn s k data) := by
  unfold State.tagTorn
  try dsimp only
  repeat' with_reducible first
    | assumption
    | apply State.setTagLine_kept
    | apply State.drawn_kept
    | apply State.tagCut_kept
    | apply Kept.ite

theorem State.tagScrub_kept {s0 : State} (s : State) (hs : Kept s0 s) :
    Kept s0 (State.tagScrub s) := by
  unfold State.tagScrub
  try dsimp only
  repeat' with_reducible first
    | assumption
    | apply State.setTagLine_kept
    | refine Kept.foldl (fun _ _ _ => ?_) ?_

theorem State.wiredWrite_kept {s0 : State} (s : State) (l : Nat) (d : List Byte) (hs : Kept s0 s) :
    Kept s0 (State.wiredWrite s l d) := by
  unfold State.wiredWrite
  try dsimp only
  repeat' with_reducible first
    | assumption
    | apply State.raise_kept
    | apply State.lower_kept
    | apply State.commit_kept
    | split
    | refine Kept.drop ?_ rfl rfl rfl rfl rfl rfl rfl rfl rfl rfl

theorem State.wiredAsked_kept {s0 : State} (s : State) (l : Nat) (d : List Byte) (hs : Kept s0 s) :
    Kept s0 (State.wiredAsked s l d) := by
  unfold State.wiredAsked
  try dsimp only
  repeat' with_reducible first
    | assumption
    | apply State.raise_kept
    | apply State.wiredWrite_kept
    | apply Kept.ite
    | split
    | refine Kept.drop ?_ rfl rfl rfl rfl rfl rfl rfl rfl rfl rfl

theorem State.faultWrites_kept {s0 : State} (s : State) (hs : Kept s0 s) :
    Kept s0 (State.faultWrites s) := by
  unfold State.faultWrites
  try dsimp only
  repeat' with_reducible first
    | assumption
    | apply State.wr_kept
    | apply State.fset_kept
    | apply State.wiredAsked_kept
    | apply Kept.ite
    | refine Kept.foldl (fun _ _ _ => ?_) ?_
    | split
    | refine Kept.drop ?_ rfl rfl rfl rfl rfl rfl rfl rfl rfl rfl

theorem State.lastFault_kept {s0 : State} (s : State) (hs : Kept s0 s) :
    Kept s0 (State.lastFault s) := by
  unfold State.lastFault
  try dsimp only
  repeat' with_reducible first
    | assumption
    | apply State.faultWrites_kept
    | apply State.tagCommit_kept
    | split
    | refine Kept.drop ?_ rfl rfl rfl rfl rfl rfl rfl rfl rfl rfl

theorem State.tagState_kept {s0 : State} (s : State) (n : Nat) (hs : Kept s0 s) :
    Kept s0 (State.tagState s n) := by
  unfold State.tagState
  try dsimp only
  repeat' with_reducible first
    | assumption
    | apply State.fset_kept
    | apply Kept.ite
    | refine Kept.drop ?_ rfl rfl rfl rfl rfl rfl rfl rfl rfl rfl

theorem State.tagTuned_kept {s0 : State} (s : State) (hs : Kept s0 s) :
    Kept s0 (State.tagTuned s) := by
  unfold State.tagTuned
  try dsimp only
  repeat' with_reducible first
    | assumption
    | apply Kept.ite
    | split
    | refine Kept.drop ?_ rfl rfl rfl rfl rfl rfl rfl rfl rfl rfl

theorem State.tagTxnEnds_kept {s0 : State} (s : State) (hs : Kept s0 s) :
    Kept s0 (State.tagTxnEnds s) := by
  unfold State.tagTxnEnds
  try dsimp only
  repeat' with_reducible first
    | assumption
    | apply State.lower_kept
    | apply State.tagTuned_kept
    | split

theorem State.tagPowerDown_kept {s0 : State} (s : State) (hs : Kept s0 s) :
    Kept s0 (State.tagPowerDown s) := by
  unfold State.tagPowerDown
  try dsimp only
  repeat' with_reducible first
    | assumption
    | apply State.commit_kept
    | apply State.tagTorn_kept
    | apply State.wr_kept
    | apply State.lower_kept
    | split
    | refine Kept.drop ?_ rfl rfl rfl rfl rfl rfl rfl rfl rfl rfl

/-! ### Machine/Power.lean -/

theorem State.askBmk_kept {s0 : State} (s : State) (hs : Kept s0 s) :
    Kept s0 (State.askBmk s) := by
  unfold State.askBmk
  try dsimp only
  repeat' with_reducible first
    | assumption
    | refine Kept.drop ?_ rfl rfl rfl rfl rfl rfl rfl rfl rfl rfl

theorem State.setSlot_kept {s0 : State} (s : State) (n : Nat) (x : CardSlot) (hs : Kept s0 s) :
    Kept s0 (State.setSlot s n x) := by
  unfold State.setSlot
  try dsimp only
  repeat' with_reducible first
    | assumption
    | refine Kept.drop ?_ rfl rfl rfl rfl rfl rfl rfl rfl rfl rfl

theorem State.clearBuf_kept {s0 : State} (s : State) (n : Nat) (hs : Kept s0 s) :
    Kept s0 (State.clearBuf s n) := by
  unfold State.clearBuf
  refine Kept.maps ?_ rfl (fun c => swf_filter _ c) id id id id id id rfl rfl
  exact hs

theorem State.attestFails_kept {s0 : State} (s : State) (err : Nat) (hs : Kept s0 s) :
    Kept s0 (State.attestFails s err) := by
  unfold State.attestFails
  try dsimp only
  repeat' with_reducible first
    | assumption
    | apply State.raise_kept
    | apply State.lower_kept
    | apply State.fset_kept
    | refine Kept.drop ?_ rfl rfl rfl rfl rfl rfl rfl rfl rfl rfl

theorem State.xferFails_kept {s0 : State} (s : State) (n : Nat) (err : Nat) (hs : Kept s0 s) :
    Kept s0 (State.xferFails s n err) := by
  unfold State.xferFails
  try dsimp only
  repeat' with_reducible first
    | assumption
    | apply State.lower_kept
    | apply State.fset_kept
    | apply State.raise_kept
    | apply State.attestFails_kept
    | apply Kept.ite
    | split

theorem State.deactivate_kept {s0 : State} (s : State) (n : Nat) (err : Nat) (serr : Nat) (st : Nat) (hs : Kept s0 s) :
    Kept s0 (State.deactivate s n err serr st) := by
  unfold State.deactivate
  try dsimp only
  repeat' with_reducible first
    | assumption
    | apply State.xferFails_kept
    | apply State.clearBuf_kept
    | apply State.fset_kept
    | apply State.lower_kept
    | apply State.drawn_kept
    | apply State.wr_kept
    | apply State.setSlot_kept
    | split

theorem State.cardsOff_kept {s0 : State} (s : State) (hs : Kept s0 s) :
    Kept s0 (State.cardsOff s) := by
  unfold State.cardsOff
  try dsimp only
  repeat' with_reducible first
    | assumption
    | apply State.deactivate_kept
    | apply Kept.ite
    | refine Kept.foldl (fun _ _ _ => ?_) ?_

theorem State.quorumClose_kept {s0 : State} (s : State) (hs : Kept s0 s) :
    Kept s0 (State.quorumClose s) := by
  unfold State.quorumClose
  try dsimp only
  repeat' with_reducible first
    | assumption
    | apply State.lower_kept
    | split
    | refine Kept.drop ?_ rfl rfl rfl rfl rfl rfl rfl rfl rfl rfl

theorem State.leavesFor_kept {s0 : State} (s : State) (m : Mode) (hs : Kept s0 s) :
    Kept s0 (State.leavesFor s m) := by
  unfold State.leavesFor
  try dsimp only
  repeat' with_reducible first
    | assumption
    | apply State.quorumClose_kept
    | apply State.lower_kept
    | apply State.cardsOff_kept
    | apply Kept.ite

theorem State.inMode_kept {s0 : State} (s : State) (m : Mode) (hs : Kept s0 s) :
    Kept s0 (State.inMode s m) := by
  unfold State.inMode
  try dsimp only
  repeat' with_reducible first
    | assumption
    | apply State.raise_kept
    | apply Kept.ite
    | split
    | refine Kept.drop ?_ rfl rfl rfl rfl rfl rfl rfl rfl rfl rfl

theorem State.setMode_kept {s0 : State} (s : State) (m : Mode) (hs : Kept s0 s) :
    Kept s0 (State.setMode s m) := by
  unfold State.setMode
  try dsimp only
  repeat' with_reducible first
    | assumption
    | apply State.inMode_kept
    | apply State.leavesFor_kept
    | apply Kept.ite

theorem State.spoil_kept {s0 : State} (s : State) (a : Nat) (n : Nat) (hs : Kept s0 s) :
    Kept s0 (State.spoil s a n) := by
  unfold State.spoil
  refine Kept.maps ?_ rfl id (fun c => memWrite_wf _ c _) id id id id id rfl rfl
  exact State.drawn_kept _ _ hs

theorem State.preparePage_kept {s0 : State} (s : State) (hs : Kept s0 s) :
    Kept s0 (State.preparePage s) := by
  unfold State.preparePage
  try dsimp only
  repeat' with_reducible first
    | assumption
    | apply State.readBlock_kept
    | apply Kept.ite
    | split
    | (refine Kept.snd (by assumption) ?_)
    | refine Kept.drop ?_ rfl rfl rfl rfl rfl rfl rfl rfl rfl rfl

theorem State.copyGranules_kept {s0 : State} (s : State) (a : Nat) (dst : Nat) (x4 : Nat) (hs : Kept s0 s) :
    Kept s0 (State.copyGranules s a dst x4).1 := by
  induction x4 generalizing s a dst with
  | zero =>
    unfold State.copyGranules
    try dsimp only
    repeat' with_reducible first
      | assumption
  | succ k ih =>
    unfold State.copyGranules
    try dsimp only
    repeat' with_reducible first
      | assumption
      | apply ih
      | apply State.eccRead_kept
      | apply State.writeBlock_kept
      | apply Kept.ite
      | split
      | (refine Kept.snd (by assumption) ?_)
      | (refine Kept.fst (by assumption) ?_)
      | (dsimp only)

theorem State.pageStopped_kept {s0 : State} (s : State) (otp : Bool) (hs : Kept s0 s) :
    Kept s0 (State.pageStopped s otp) := by
  unfold State.pageStopped
  try dsimp only
  repeat' with_reducible first
    | assumption
    | apply State.drawn_kept
    | apply State.spoil_kept
    | apply Kept.ite
    | split
    | refine Kept.drop ?_ rfl rfl rfl rfl rfl rfl rfl rfl rfl rfl

theorem State.eraseStopped_kept {s0 : State} (s : State) (hs : Kept s0 s) :
    Kept s0 (State.eraseStopped s) := by
  unfold State.eraseStopped
  try dsimp only
  repeat' with_reducible first
    | assumption
    | apply State.drawn_kept
    | apply State.blockBlank_kept
    | apply State.spoil_kept
    | apply Kept.ite
    | split
    | refine Kept.drop ?_ rfl rfl rfl rfl rfl rfl rfl rfl rfl rfl

theorem State.flcIdle_kept {s0 : State} (s : State) (hs : Kept s0 s) :
    Kept s0 (State.flcIdle s) := by
  unfold State.flcIdle
  try dsimp only
  repeat' with_reducible first
    | assumption
    | apply State.freeStalls_kept
    | apply State.count_kept
    | split
    | refine Kept.drop ?_ rfl rfl rfl rfl rfl rfl rfl rfl rfl rfl

theorem State.flcStopped_kept {s0 : State} (s : State) (hs : Kept s0 s) :
    Kept s0 (State.flcStopped s) := by
  unfold State.flcStopped
  try dsimp only
  repeat' with_reducible first
    | assumption
    | apply State.pageStopped_kept
    | apply State.eraseStopped_kept
    | apply State.drawn_kept
    | apply State.copyGranules_kept
    | apply State.count_kept
    | apply State.flcIdle_kept
    | apply Kept.ite
    | split

theorem State.setGroup_kept {s0 : State} (s : State) (t : Lifecycle) (b : Byte) (hs : Kept s0 s) :
    Kept s0 (State.setGroup s t b) := by
  unfold State.setGroup
  try dsimp only
  repeat' with_reducible first
    | assumption
    | apply State.programBytes_kept
    | split

theorem State.advanceCut_kept {s0 : State} (s : State) (hs : Kept s0 s) : Kept s0 s.advanceCut := by
  have done : ∀ t : State, Kept s0 t → ∀ x : SysState, x.lc = t.sys.lc → x.advancing = none → Kept s0 { t with sys := x } :=
    fun t h x hl ha => h.trans ⟨rfl, fun ⟨a, b, c, d, e, f, g⟩ => ⟨a, b, c, d, e, f, g⟩,
      fun L k => ⟨hl ▸ k.now, fun u hu => nomatch ha ▸ hu⟩⟩
  unfold State.advanceCut
  split
  · split
    · exact done _ hs _ rfl rfl
    · exact done _ (State.setGroup_kept _ _ _ (State.drawn_kept s 1 hs)) _ rfl rfl
  · exact hs

theorem resetMap_wf (k : ResetKind) (m : Sparse Word) : swf (fun _ => (0 : Word)) (resetMap k m) = true := by
  unfold resetMap
  suffices h : ∀ (old base : Sparse Word), swf (fun _ => (0 : Word)) base = true →
      swf (fun _ => (0 : Word)) (old.foldl (fun m (e : Nat × Word) =>
        if keptOf k e.1 e.2 = 0 then m else sput 0 m e.1 (sget 0 m e.1 ||| keptOf k e.1 e.2)) base) = true by
    refine h m _ ?_
    cases k <;> decide +kernel
  intro old
  induction old with
  | nil => intro base h; exact h
  | cons e t ih =>
    intro base h
    refine ih _ ?_
    dsimp only
    split
    · exact h
    · exact swf_sput _ _ h

theorem State.cleared_kept {s0 : State} (s : State) (k : ResetKind) (hs : Kept s0 s) : Kept s0 (s.cleared k) := by
  unfold State.cleared
  refine Kept.maps hs rfl (fun _ => resetMap_wf _ _) ?_ (fun _ => rfl) (fun _ => rfl) (fun _ => rfl) id id rfl rfl
  intro c
  split
  · exact c
  · exact swf_filter _ c

theorem State.resetCore_kept {s0 : State} (s : State) (k : ResetKind) (hs : Kept s0 s) :
    Kept s0 (State.resetCore s k) := by
  unfold State.resetCore
  try dsimp only
  repeat' with_reducible first
    | assumption
    | apply State.flcStopped_kept
    | apply State.advanceCut_kept
    | apply State.testEnds_kept
    | apply State.cleared_kept
    | split

theorem State.loadDcap_kept {s0 : State} (s : State) (hs : Kept s0 s) :
    Kept s0 (State.loadDcap s) := by
  unfold State.loadDcap
  try dsimp only
  repeat' with_reducible first
    | assumption
    | apply State.wr_kept

theorem State.startupEvents_kept {s0 : State} (s : State) (hs : Kept s0 s) :
    Kept s0 (State.startupEvents s) := by
  unfold State.startupEvents
  try dsimp only
  repeat' with_reducible first
    | assumption
    | apply State.fault_kept
    | refine Kept.foldl (fun _ _ _ => ?_) ?_

theorem State.resetCause_kept {s0 : State} (s : State) (c : ResetCause) (hs : Kept s0 s) :
    Kept s0 (State.resetCause s c) := by
  unfold State.resetCause
  try dsimp only
  repeat' with_reducible first
    | assumption
    | apply State.wr_kept
    | apply Kept.ite
    | refine Kept.drop ?_ rfl rfl rfl rfl rfl rfl rfl rfl rfl rfl

theorem State.groupsCompleted_kept {s0 : State} (s : State) (hs : Kept s0 s) :
    Kept s0 (State.groupsCompleted s) := by
  unfold State.groupsCompleted
  try dsimp only
  repeat' with_reducible first
    | assumption
    | apply State.setGroup_kept
    | apply Kept.ite
    | refine Kept.foldl (fun _ _ _ => ?_) ?_
    | split

theorem le_laterState_left (a b : Lifecycle) : lifecycleCode a ≤ lifecycleCode (laterState a b) := by
  cases a <;> cases b <;> decide

theorem State.released_kept {s0 : State} (s : State) (hs : Kept s0 s) : Kept s0 s.released := by
  have hc : Kept s0 s.groupsCompleted := State.groupsCompleted_kept s hs
  have hp : ∀ u a bs, (State.programBytes u a bs).sys = u.sys := fun _ _ _ => rfl
  have hg : s.groupsCompleted.sys = s.sys := by
    unfold State.groupsCompleted
    simp only [List.foldl]
    repeat' split
    all_goals simp only [State.setGroup, hp]
  refine hc.trans ⟨rfl, fun ⟨a, b, c, d, e, f, g⟩ => ⟨a, b, c, d, e, f, g⟩, fun L k => ⟨?_, fun t h => k.next t (hg ▸ h)⟩⟩
  show L ≤ lifecycleCode ((s.sys.lcPartial.map (laterState s.sys.lc)).getD s.sys.lc)
  have kn : L ≤ lifecycleCode s.sys.lc := hg ▸ k.now
  cases s.sys.lcPartial with
  | none => exact kn
  | some p => exact Nat.le_trans kn (le_laterState_left _ _)

theorem State.enterBoot_kept {s0 : State} (s : State) (c : ResetCause) (hs : Kept s0 s) :
    Kept s0 (State.enterBoot s c) := by
  unfold State.enterBoot
  try dsimp only
  repeat' with_reducible first
    | assumption
    | apply State.startupEvents_kept
    | apply State.loadDcap_kept
    | apply State.released_kept
    | apply State.resetCause_kept

theorem State.resetDevice_kept {s0 : State} (s : State) (c : ResetCause) (hs : Kept s0 s) :
    Kept s0 (State.resetDevice s c) := by
  unfold State.resetDevice
  try dsimp only
  repeat' with_reducible first
    | assumption
    | apply State.enterBoot_kept
    | apply State.resetCore_kept

theorem State.startFrom_kept {s0 : State} (s : State) (n : Fin 16) (perms : BitVec 16) (a : Nat) (hs : Kept s0 s) :
    Kept s0 (s.startFrom n perms a).2 := by
  have hr := State.busRead_kept s ⟨.ctl n, perms⟩ a 32 .read hs
  unfold State.startFrom
  dsimp only
  split
  · exact Kept.snd (by assumption) hr
  · exact State.endStalls_kept _ _ (Kept.snd (by assumption) hr)
  · have h := State.endStalls_kept _ (.ctl n) (Kept.snd (by assumption) hr)
    split
    · exact State.stopAsked_kept _ _ _ (State.fset_kept _ _ _ (State.setCore_kept _ _ _ h))
    · exact h

theorem State.safeState_kept {s0 : State} (s : State) (hs : Kept s0 s) :
    Kept s0 (State.safeState s) := by
  unfold State.safeState
  try dsimp only
  repeat' with_reducible first
    | assumption
    | apply State.raise_kept
    | apply State.lower_kept
    | apply State.duoOff_kept
    | apply State.freeCtx_kept
    | apply State.stopCores_kept
    | apply State.setLantern_kept
    | refine Kept.foldl (fun _ _ _ => ?_) ?_
    | refine Kept.drop ?_ rfl rfl rfl rfl rfl rfl rfl rfl rfl rfl

theorem State.destroyKeys_kept {s0 : State} (s : State) (hs : Kept s0 s) :
    Kept s0 (State.destroyKeys s) := by
  unfold State.destroyKeys
  try dsimp only
  repeat' with_reducible first
    | assumption
    | apply State.lower_kept
    | apply State.setBuffer_kept
    | split
    | refine Kept.drop ?_ rfl rfl rfl rfl rfl rfl rfl rfl rfl rfl

theorem State.quenchEntry_kept {s0 : State} (s : State) (snuff : Bool) (hs : Kept s0 s) :
    Kept s0 (State.quenchEntry s snuff) := by
  unfold State.quenchEntry
  try dsimp only
  repeat' with_reducible first
    | assumption
    | apply State.destroyKeys_kept
    | apply State.safeState_kept
    | apply State.raise_kept
    | apply State.eraseBmk_kept
    | apply State.lower_kept
    | apply State.setMode_kept
    | apply State.fset_kept
    | apply State.setCore_kept
    | apply State.lastFault_kept
    | apply Kept.ite
    | refine Kept.drop ?_ rfl rfl rfl rfl rfl rfl rfl rfl rfl rfl

theorem State.bootHalt_kept {s0 : State} (s : State) (hs : Kept s0 s) :
    Kept s0 (State.bootHalt s) := by
  unfold State.bootHalt
  try dsimp only
  repeat' with_reducible first
    | assumption
    | apply State.setCore_kept
    | apply State.stopCore_kept
    | apply State.lastFault_kept
    | split
    | refine Kept.drop ?_ rfl rfl rfl rfl rfl rfl rfl rfl rfl rfl

theorem State.bootFails_kept {s0 : State} (s : State) (step : Nat) (hs : Kept s0 s) :
    Kept s0 (State.bootFails s step) := by
  unfold State.bootFails
  try dsimp only
  repeat' with_reducible first
    | assumption
    | apply State.fset_kept
    | apply State.bootHalt_kept
    | split

theorem State.stepEnds_kept {s0 : State} (s : State) (n : Nat) (hs : Kept s0 s) :
    Kept s0 (State.stepEnds s n) := by
  unfold State.stepEnds
  try dsimp only
  repeat' with_reducible first
    | assumption
    | split
    | refine Kept.drop ?_ rfl rfl rfl rfl rfl rfl rfl rfl rfl rfl

/-! ### Machine/Tmp.lean -/

theorem State.disarm_kept {s0 : State} (s : State) (hs : Kept s0 s) :
    Kept s0 (State.disarm s) := by
  unfold State.disarm
  try dsimp only
  repeat' with_reducible first
    | assumption
    | apply State.tmpCause_kept
    | refine Kept.foldl (fun _ _ _ => ?_) ?_
    | refine Kept.drop ?_ rfl rfl rfl rfl rfl rfl rfl rfl rfl rfl

theorem State.stkyClear_kept {s0 : State} (s : State) (cust : Bool) (v : Word32) (hs : Kept s0 s) :
    Kept s0 (State.stkyClear s cust v) := by
  unfold State.stkyClear
  try dsimp only
  repeat' with_reducible first
    | assumption
    | apply State.lower_kept
    | apply State.raise_kept
    | apply Kept.ite
    | refine Kept.foldl (fun _ _ _ => ?_) ?_

theorem State.pinJudged_kept {s0 : State} (s : State) (n : Nat) (hs : Kept s0 s) :
    Kept s0 (State.pinJudged s n) := by
  unfold State.pinJudged
  try dsimp only
  repeat' with_reducible first
    | assumption
    | apply State.causesRise_kept
    | apply State.causeFalls_kept
    | apply Kept.ite
    | split

theorem State.srccfg_kept {s0 : State} (s : State) (cust : Bool) (n : Nat) (v : Word32) (hs : Kept s0 s) :
    Kept s0 (State.srccfg s cust n v) := by
  unfold State.srccfg
  try dsimp only
  repeat' with_reducible first
    | assumption
    | apply State.wr_kept
    | apply State.pinJudged_kept
    | apply State.raise_kept
    | apply Kept.ite
    | split

theorem State.tscSet_kept {s0 : State} (s : State) (may : Bool) (v : Word) (hs : Kept s0 s) :
    Kept s0 (State.tscSet s may v) := by
  unfold State.tscSet
  try dsimp only
  repeat' with_reducible first
    | assumption
    | apply State.wr_kept
    | apply State.raise_kept
    | apply Kept.ite
    | refine Kept.drop ?_ rfl rfl rfl rfl rfl rfl rfl rfl rfl rfl

theorem State.bist_kept {s0 : State} (s : State) (may : Bool) (v : Word32) (hs : Kept s0 s) :
    Kept s0 (State.bist s may v) := by
  unfold State.bist
  try dsimp only
  repeat' with_reducible first
    | assumption
    | apply State.tmpCause_kept
    | apply State.wr_kept
    | apply State.raise_kept
    | apply State.fset_kept
    | apply Kept.ite
    | refine Kept.drop ?_ rfl rfl rfl rfl rfl rfl rfl rfl rfl rfl

theorem State.backupCold_kept {s0 : State} (s : State) (hs : Kept s0 s) : Kept s0 s.backupCold := by
  unfold State.backupCold
  exact Kept.maps hs rfl (fun c => swf_puts _ (swf_filter _ c)) id id id id id id rfl rfl

/-! ### Machine/Wck.lean -/

theorem State.wckAlm_kept {s0 : State} (s : State) (core : Bool) (rule : Nat) (x : WckActions) (hs : Kept s0 s) :
    Kept s0 (State.wckAlm s core rule x) := by
  unfold State.wckAlm
  try dsimp only
  repeat' with_reducible first
    | assumption
    | apply State.fset_kept
    | apply State.put_kept
    | apply State.raise_kept
    | apply Kept.ite

theorem State.wckTake_kept {s0 : State} (s : State) (core : Bool) (rule : Nat) (x : WckActions) (hs : Kept s0 s) :
    Kept s0 (State.wckTake s core rule x) := by
  unfold State.wckTake
  try dsimp only
  repeat' with_reducible first
    | assumption
    | apply State.raise_kept
    | apply State.wckAlm_kept
    | apply State.eraseBmk_kept
    | apply State.signal_kept
    | apply Kept.ite
    | refine Kept.drop ?_ rfl rfl rfl rfl rfl rfl rfl rfl rfl rfl

theorem State.wckAct_kept {s0 : State} (s : State) (wick : Bool) (v : Word32) (hs : Kept s0 s) :
    Kept s0 (State.wckAct s wick v) := by
  unfold State.wckAct
  try dsimp only
  repeat' with_reducible first
    | assumption
    | apply State.wckTake_kept
    | apply Kept.ite

theorem State.setWckRule_kept {s0 : State} (s : State) (n : Nat) (r : RuleState) (hs : Kept s0 s) :
    Kept s0 (State.setWckRule s n r) := by
  unfold State.setWckRule
  try dsimp only
  repeat' with_reducible first
    | assumption
    | refine Kept.drop ?_ rfl rfl rfl rfl rfl rfl rfl rfl rfl rfl

theorem State.wckRuleStep_kept {s0 : State} (s : State) (x : WckSample) (n : Nat) (hs : Kept s0 s) :
    Kept s0 (State.wckRuleStep s x n) := by
  unfold State.wckRuleStep
  try dsimp only
  repeat' with_reducible first
    | assumption
    | apply State.setWckRule_kept
    | apply State.raise_kept
    | apply State.wckTake_kept
    | apply Kept.ite

theorem State.wickFrame_kept {s0 : State} (s : State) (f : SensorFrame) (hs : Kept s0 s) :
    Kept s0 (State.wickFrame s f) := by
  unfold State.wickFrame
  try dsimp only
  repeat' with_reducible first
    | assumption
    | apply State.wr_kept
    | apply State.raise_kept
    | apply State.wckRuleStep_kept
    | apply Kept.ite
    | refine Kept.foldl (fun _ _ _ => ?_) ?_
    | split
    | refine Kept.drop ?_ rfl rfl rfl rfl rfl rfl rfl rfl rfl rfl

theorem State.wickStart_kept {s0 : State} (s : State) (hs : Kept s0 s) :
    Kept s0 (State.wickStart s) := by
  unfold State.wickStart
  try dsimp only
  repeat' with_reducible first
    | assumption
    | apply State.setCore_kept
    | apply State.fset_kept
    | refine Kept.drop ?_ rfl rfl rfl rfl rfl rfl rfl rfl rfl rfl

theorem State.wckCtrl_kept {s0 : State} (s : State) (v : Word32) (hs : Kept s0 s) :
    Kept s0 (State.wckCtrl s v) := by
  unfold State.wckCtrl
  try dsimp only
  repeat' with_reducible first
    | assumption
    | apply State.raise_kept
    | apply State.wickStart_kept
    | apply State.fset_kept
    | apply Kept.ite

theorem State.ldNext_kept {s0 : State} (s : State) (hs : Kept s0 s) :
    Kept s0 (State.ldNext s) := by
  unfold State.ldNext
  try dsimp only
  repeat' with_reducible first
    | assumption
    | apply State.fset_kept

theorem State.ldWrite_kept {s0 : State} (s : State) (v : Word32) (hs : Kept s0 s) :
    Kept s0 (State.ldWrite s v) := by
  unfold State.ldWrite
  split
  · exact State.raise_kept _ _ hs
  · refine State.ldNext_kept _ ?_
    dsimp only
    refine Kept.maps (t := s) hs rfl id id id id id (fun c => ?_) (fun c => ?_) rfl rfl
    · exact prvWrite_wf _ c _
    · show swf (fun _ => false) (tagPut s.wck.tags _ false) = true
      exact tagPut_wf c _ _

theorem State.ldRead_kept {s0 : State} (s : State) (hs : Kept s0 s) :
    Kept s0 (State.ldRead s).2 := by
  unfold State.ldRead
  try dsimp only
  repeat' with_reducible first
    | assumption
    | apply State.ldNext_kept
    | apply State.signal_kept
    | apply Kept.ite
    | split
    | (dsimp only)

theorem State.wckWdog_kept {s0 : State} (s : State) (wick : Bool) (v : Word32) (hs : Kept s0 s) :
    Kept s0 (State.wckWdog s wick v) := by
  unfold State.wckWdog
  try dsimp only
  repeat' with_reducible first
    | assumption
    | apply State.fset_kept
    | apply Kept.ite
    | refine Kept.drop ?_ rfl rfl rfl rfl rfl rfl rfl rfl rfl rfl

theorem State.wckRuleWrite_kept {s0 : State} (s : State) (n : Nat) (b : Bool) (v : Word32) (hs : Kept s0 s) :
    Kept s0 (State.wckRuleWrite s n b v) := by
  unfold State.wckRuleWrite
  try dsimp only
  repeat' with_reducible first
    | assumption
    | apply State.put_kept
    | apply State.wr_kept
    | apply Kept.ite

theorem State.wickStops_kept {s0 : State} (s : State) (state : Nat) (evt : Fld) (hs : Kept s0 s) :
    Kept s0 (State.wickStops s state evt) := by
  unfold State.wickStops
  try dsimp only
  repeat' with_reducible first
    | assumption
    | apply State.raise_kept
    | apply State.fset_kept
    | apply State.signal_kept
    | apply Kept.ite

theorem State.wickReset_kept {s0 : State} (s : State) (hs : Kept s0 s) : Kept s0 s.wickReset := by
  unfold State.wickReset
  exact Kept.maps hs rfl (fun c => swf_puts _ (swf_filter _ c)) id id id id (fun _ => rfl) (fun _ => rfl) rfl rfl

/-! ### Machine/Flt.lean -/

theorem State.damage_kept {s0 : State} (s : State) (k : Nat) (hs : Kept s0 s) :
    Kept s0 (State.damage s k) := by
  unfold State.damage
  try dsimp only
  repeat' with_reducible first
    | assumption
    | split
    | refine Kept.drop ?_ rfl rfl rfl rfl rfl rfl rfl rfl rfl rfl

theorem State.ownRecord_kept {s0 : State} (s : State) (n : Nat) (a : Nat) (hs : Kept s0 s) :
    Kept s0 (State.ownRecord s n a) := by
  unfold State.ownRecord
  try dsimp only
  repeat' with_reducible first
    | assumption
    | apply State.damage_kept
    | apply State.raise_kept
    | apply State.flcEcc_kept
    | apply Kept.ite
    | split

theorem State.retireUnit_kept {s0 : State} (s : State) (n : Nat) (unit : Nat) (hs : Kept s0 s) :
    Kept s0 (State.retireUnit s n unit) := by
  unfold State.retireUnit
  try dsimp only
  repeat' with_reducible first
    | assumption
    | apply State.cphRetireUnit_kept
    | apply State.mauRetireUnit_kept
    | apply Kept.ite

theorem State.recordFirst_kept {s0 : State} (s : State) (xs : List RoundSrc) (r : Nat) (hs : Kept s0 s) :
    Kept s0 (State.recordFirst s xs r) := by
  unfold State.recordFirst
  try dsimp only
  repeat' with_reducible first
    | assumption
    | apply State.wr_kept
    | apply Kept.ite
    | split

theorem State.isolate_kept {s0 : State} (s : State) (hs : Kept s0 s) :
    Kept s0 (State.isolate s) := by
  unfold State.isolate
  try dsimp only
  repeat' with_reducible first
    | assumption
    | apply State.raise_kept
    | apply State.safeState_kept
    | apply Kept.ite
    | refine Kept.drop ?_ rfl rfl rfl rfl rfl rfl rfl rfl rfl rfl

theorem State.snuff_kept {s0 : State} (s : State) (hs : Kept s0 s) :
    Kept s0 (State.snuff s) := by
  unfold State.snuff
  try dsimp only
  repeat' with_reducible first
    | assumption
    | apply State.raise_kept
    | apply State.quenchEntry_kept
    | apply Kept.ite
    | refine Kept.drop ?_ rfl rfl rfl rfl rfl rfl rfl rfl rfl rfl

theorem State.runRound_kept {s0 : State} (s : State) (xs : List RoundSrc) (hs : Kept s0 s) :
    Kept s0 (State.runRound s xs) := by
  unfold State.runRound
  try dsimp only
  repeat' with_reducible first
    | assumption
    | apply State.recordFirst_kept
    | apply State.raise_kept
    | apply State.snuff_kept
    | apply State.isolate_kept
    | apply State.retireUnit_kept
    | apply Kept.ite
    | refine Kept.foldl (fun _ _ _ => ?_) ?_
    | refine Kept.drop ?_ rfl rfl rfl rfl rfl rfl rfl rfl rfl rfl

theorem State.lateSources_kept {s0 : State} (s : State) (r : Nat) (late : List RoundSrc) (hs : Kept s0 s) :
    Kept s0 (State.lateSources s r late) := by
  unfold State.lateSources
  try dsimp only
  repeat' with_reducible first
    | assumption
    | apply State.retireUnit_kept
    | apply Kept.ite
    | refine Kept.foldl (fun _ _ _ => ?_) ?_
    | split
    | refine Kept.drop ?_ rfl rfl rfl rfl rfl rfl rfl rfl rfl rfl

theorem State.reactionRound_kept {s0 : State} (s : State) (hs : Kept s0 s) :
    Kept s0 (State.reactionRound s) := by
  unfold State.reactionRound
  try dsimp only
  repeat' with_reducible first
    | assumption
    | apply State.retireUnit_kept
    | apply State.lateSources_kept
    | apply State.runRound_kept
    | refine Kept.foldl (fun _ _ _ => ?_) ?_
    | split
    | refine Kept.drop ?_ rfl rfl rfl rfl rfl rfl rfl rfl rfl rfl

theorem State.isolationEnds_kept {s0 : State} (s : State) (hs : Kept s0 s) :
    Kept s0 (State.isolationEnds s) := by
  unfold State.isolationEnds
  try dsimp only
  repeat' with_reducible first
    | assumption
    | apply State.lower_kept
    | apply Kept.ite

theorem State.severeClear_kept {s0 : State} (s : State) (k : Nat) (v : Word32) (hs : Kept s0 s) :
    Kept s0 (State.severeClear s k v) := by
  unfold State.severeClear
  try dsimp only
  repeat' with_reducible first
    | assumption
    | apply State.isolationEnds_kept
    | apply State.raise_kept
    | apply State.closeWindow_kept
    | apply State.lower_kept
    | apply Kept.ite
    | refine Kept.foldl (fun _ _ _ => ?_) ?_

theorem State.stickyClear_kept {s0 : State} (s : State) (cust : Bool) (k : Nat) (v : Word32) (hs : Kept s0 s) :
    Kept s0 (State.stickyClear s cust k v) := by
  unfold State.stickyClear
  try dsimp only
  repeat' with_reducible first
    | assumption
    | apply State.lower_kept
    | apply State.raise_kept
    | apply Kept.ite
    | refine Kept.foldl (fun _ _ _ => ?_) ?_

theorem State.faultForce_kept {s0 : State} (s : State) (cust : Bool) (k : Nat) (v : Word32) (hs : Kept s0 s) :
    Kept s0 (State.faultForce s cust k v) := by
  unfold State.faultForce
  try dsimp only
  repeat' with_reducible first
    | assumption
    | apply State.raise_kept
    | apply State.fault_kept
    | apply Kept.ite
    | refine Kept.foldl (fun _ _ _ => ?_) ?_

theorem State.capCount_kept {s0 : State} (s : State) (n : Nat) (hs : Kept s0 s) :
    Kept s0 (State.capCount s n) := by
  unfold State.capCount
  try dsimp only
  repeat' with_reducible first
    | assumption
    | apply State.fset_kept
    | split

theorem State.faultConfig_kept {s0 : State} (s : State) (n : Nat) (v : Word32) (hs : Kept s0 s) :
    Kept s0 (State.faultConfig s n v) := by
  unfold State.faultConfig
  try dsimp only
  repeat' with_reducible first
    | assumption
    | apply State.wr_kept
    | apply State.raise_kept
    | apply State.capCount_kept
    | apply Kept.ite
    | split

/-! ### Machine/Sys.lean -/

theorem State.aonGone_kept {s0 : State} (s : State) (hs : Kept s0 s) :
    Kept s0 (State.aonGone s) := by
  unfold State.aonGone
  exact Kept.maps hs rfl id id id id id (fun _ => rfl) (fun _ => rfl) rfl rfl

theorem State.aonLost_kept {s0 : State} (s : State) (hs : Kept s0 s) :
    Kept s0 (State.aonLost s) := by
  unfold State.aonLost
  try dsimp only
  repeat' with_reducible first
    | assumption
    | apply State.setMode_kept
    | apply State.disarm_kept
    | apply State.deadCauses_kept
    | apply State.resetCore_kept
    | apply State.aonGone_kept
    | apply State.tagPowerDown_kept
    | apply Kept.ite
    | split

theorem State.aonGood_kept {s0 : State} (s : State) (hs : Kept s0 s) :
    Kept s0 (State.aonGood s) := by
  unfold State.aonGood
  try dsimp only
  repeat' with_reducible first
    | assumption
    | apply State.wickReset_kept
    | apply State.setMode_kept
    | refine Kept.drop ?_ rfl rfl rfl rfl rfl rfl rfl rfl rfl rfl

theorem State.sysRst_kept {s0 : State} (s : State) (v : Word32) (hs : Kept s0 s) :
    Kept s0 (State.sysRst s v) := by
  unfold State.sysRst
  try dsimp only
  repeat' with_reducible first
    | assumption
    | apply State.resetDevice_kept
    | apply Kept.ite

theorem State.askStop_kept {s0 : State} (s : State) (n : Fin 16) (hs : Kept s0 s) :
    Kept s0 (State.askStop s n) := by
  unfold State.askStop
  try dsimp only
  repeat' with_reducible first
    | assumption
    | apply State.stopAsked_kept
    | apply Kept.ite
    | split
    | refine Kept.drop ?_ rfl rfl rfl rfl rfl rfl rfl rfl rfl rfl

theorem State.stopAll_kept {s0 : State} (s : State) (hs : Kept s0 s) :
    Kept s0 (State.stopAll s) := by
  unfold State.stopAll
  try dsimp only
  repeat' with_reducible first
    | assumption
    | apply State.stopCore_kept
    | apply State.askStop_kept
    | apply Kept.ite
    | refine Kept.foldl (fun _ _ _ => ?_) ?_
    | split

theorem State.toStandby_kept {s0 : State} (s : State) (hs : Kept s0 s) :
    Kept s0 (State.toStandby s) := by
  unfold State.toStandby
  try dsimp only
  repeat' with_reducible first
    | assumption
    | apply State.stopAll_kept
    | apply State.disarm_kept
    | apply State.setMode_kept
    | split
    | refine Kept.drop ?_ rfl rfl rfl rfl rfl rfl rfl rfl rfl rfl

theorem State.modeRequest_kept {s0 : State} (s : State) (t : Nat) (hs : Kept s0 s) :
    Kept s0 (State.modeRequest s t) := by
  unfold State.modeRequest
  try dsimp only
  repeat' with_reducible first
    | assumption
    | apply State.raise_kept
    | apply State.fset_kept
    | apply State.toStandby_kept
    | apply State.setMode_kept
    | apply Kept.ite
    | split

theorem State.modeReq_kept {s0 : State} (s : State) (v : Word32) (hs : Kept s0 s) :
    Kept s0 (State.modeReq s v) := by
  unfold State.modeReq
  try dsimp only
  repeat' with_reducible first
    | assumption
    | apply State.modeRequest_kept
    | apply Kept.ite
    | split

theorem State.atStep_kept {s0 : State} (s : State) (n : Nat) (hs : Kept s0 s) :
    Kept s0 (State.atStep s n) := by
  unfold State.atStep
  try dsimp only
  repeat' with_reducible first
    | assumption
    | apply State.fset_kept

theorem State.image_kept {s0 : State} (s : State) (a : Nat) (kind : Nat) (floor : Nat) (maxLen : Nat) (hs : Kept s0 s) :
    Kept s0 (State.image s a kind floor maxLen).2 := by
  unfold State.image
  try dsimp only
  repeat' with_reducible first
    | assumption
    | apply State.pieceRead_kept
    | apply Kept.ite
    | split
    | (refine Kept.snd (by assumption) ?_)
    | (dsimp only)

theorem State.bootSlot_kept {s0 : State} (s : State) (at_ : Bool → Nat) (kind : Nat) (floor : Nat) (maxLen : Nat) (hs : Kept s0 s) :
    Kept s0 (State.bootSlot s at_ kind floor maxLen).2 := by
  unfold State.bootSlot
  try dsimp only
  repeat' with_reducible first
    | assumption
    | apply State.image_kept
    | split
    | (refine Kept.snd (by assumption) ?_)
    | (dsimp only)

theorem State.putStep_kept {s0 : State} (s : State) (step : Nat) (err : Nat) (hs : Kept s0 s) :
    Kept s0 (State.putStep s step err) := by
  unfold State.putStep
  try dsimp only
  repeat' with_reducible first
    | assumption
    | apply State.fset_kept
    | apply State.bootHalt_kept
    | apply State.raise_kept
    | apply Kept.ite
    | split

theorem State.putRule_kept {s0 : State} (s : State) (n : Nat) (lo : Nat) (hi : Nat) (rights : Nat) (hs : Kept s0 s) :
    Kept s0 (State.putRule s n lo hi rights) := by
  unfold State.putRule
  try dsimp only
  repeat' with_reducible first
    | assumption
    | apply State.wr_kept
    | split

theorem State.stepOne_kept {s0 : State} (s : State) (hs : Kept s0 s) :
    Kept s0 (State.stepOne s) := by
  unfold State.stepOne
  try dsimp only
  repeat' with_reducible first
    | assumption
    | apply State.putRule_kept
    | apply State.actSwitched_kept
    | apply State.stepEnds_kept
    | apply Kept.ite
    | refine Kept.foldl (fun _ _ _ => ?_) ?_
    | split

theorem State.stageEnds_kept {s0 : State} (s : State) (step : Nat) (hs : Kept s0 s) :
    Kept s0 (State.stageEnds s step) := by
  unfold State.stageEnds
  try dsimp only
  repeat' with_reducible first
    | assumption
    | apply State.bootSlot_kept
    | apply State.put_kept
    | apply State.stepEnds_kept
    | apply State.putStep_kept
    | apply State.bootFails_kept
    | split
    | (refine Kept.snd (by assumption) ?_)

theorem State.firmwareEnds_kept {s0 : State} (s : State) (step : Nat) (hs : Kept s0 s) :
    Kept s0 (State.firmwareEnds s step) := by
  unfold State.firmwareEnds
  try dsimp only
  repeat' with_reducible first
    | assumption
    | apply State.bootSlot_kept
    | apply State.writeBlock_kept
    | apply State.put_kept
    | apply State.stepEnds_kept
    | apply State.putStep_kept
    | apply State.bootFails_kept
    | split
    | (refine Kept.snd (by assumption) ?_)

theorem State.bootstat_kept {s0 : State} (s : State) (v : Word32) (hs : Kept s0 s) :
    Kept s0 (State.bootstat s v) := by
  unfold State.bootstat
  try dsimp only
  repeat' with_reducible first
    | assumption
    | apply State.stepOne_kept
    | apply State.stageEnds_kept
    | apply State.firmwareEnds_kept
    | apply State.putStep_kept
    | apply State.put_kept
    | apply State.bootFails_kept
    | apply Kept.ite
    | split

theorem State.bootJump_kept {s0 : State} (s : State) (a : Nat) (hs : Kept s0 s) :
    Kept s0 (State.bootJump s a) := by
  unfold State.bootJump
  try dsimp only
  repeat' with_reducible first
    | assumption
    | apply State.setCore_kept
    | split

theorem State.stageStarts_kept {s0 : State} (s : State) (b : Bool) (hs : Kept s0 s) :
    Kept s0 (State.stageStarts s b) := by
  unfold State.stageStarts
  try dsimp only
  repeat' with_reducible first
    | assumption
    | apply State.bootJump_kept
    | split

theorem State.firmwareStarts_kept {s0 : State} (s : State) (b : Bool) (hs : Kept s0 s) :
    Kept s0 (State.firmwareStarts s b) := by
  unfold State.firmwareStarts
  try dsimp only
  repeat' with_reducible first
    | assumption
    | apply State.bootJump_kept
    | apply State.storeBytes_kept
    | apply State.setCore_kept
    | split
    | refine Kept.drop ?_ rfl rfl rfl rfl rfl rfl rfl rfl rfl rfl

theorem State.patched_kept {s0 : State} (s : State) (ps : List (Nat × List Byte)) (hs : Kept s0 s) :
    Kept s0 (State.patched s ps) := by
  unfold State.patched
  try dsimp only
  repeat' with_reducible first
    | assumption
    | apply State.fset_kept
    | split
    | refine Kept.drop ?_ rfl rfl rfl rfl rfl rfl rfl rfl rfl rfl

theorem State.patchTable_kept {s0 : State} (s : State) (hs : Kept s0 s) :
    Kept s0 (State.patchTable s) := by
  unfold State.patchTable
  try dsimp only
  repeat' with_reducible first
    | assumption
    | apply State.pieceRead_kept
    | apply State.bootFails_kept
    | apply State.stepEnds_kept
    | apply State.image_kept
    | apply State.patched_kept
    | apply Kept.ite
    | split
    | (refine Kept.snd (by assumption) ?_)

theorem State.assignRoles_kept {s0 : State} (s : State) (cph : BitVec 18) (mau : BitVec 136) (hs : Kept s0 s) :
    Kept s0 (State.assignRoles s cph mau) := by
  unfold State.assignRoles
  try dsimp only
  repeat' with_reducible first
    | assumption
    | apply State.wr_kept
    | apply State.assignFast_kept
    | refine Kept.foldl (fun _ _ _ => ?_) ?_

theorem State.setHotLines_kept {s0 : State} (s : State) (hs : Kept s0 s) :
    Kept s0 (State.setHotLines s) := by
  unfold State.setHotLines
  try dsimp only
  repeat' with_reducible first
    | assumption
    | apply State.wr_kept

theorem State.lcFails_kept {s0 : State} (s : State) (e : Nat) (hs : Kept s0 s) :
    Kept s0 (State.lcFails s e) := by
  unfold State.lcFails
  try dsimp only
  repeat' with_reducible first
    | assumption
    | apply State.raise_kept
    | apply State.fset_kept

theorem State.lcPrepares_kept {s0 : State} (s : State) (t : Lifecycle) (hs : Kept s0 s) :
    Kept s0 (State.lcPrepares s t) := by
  unfold State.lcPrepares
  try dsimp only
  repeat' with_reducible first
    | assumption
    | apply State.fset_kept
    | apply State.raise_kept
    | apply State.quorumClose_kept
    | apply State.askBmk_kept
    | apply Kept.ite
    | split

theorem State.advancingTo_kept {s0 : State} (s : State) (t : Lifecycle) (ht : lifecycleCode s.sys.lc ≤ lifecycleCode t)
    (hs : Kept s0 s) : Kept s0 (s.advancingTo t) :=
  hs.trans ⟨rfl, fun ⟨a, b, c, d, e, f, g⟩ => ⟨a, b, c, d, e, f, g⟩,
    fun L k => ⟨k.now, fun u hu => by cases hu; exact Nat.le_trans k.now ht⟩⟩

theorem State.lcPrepares_keeps {P : State → Prop} (hf : ∀ u f v, P u → P (u.fset f v)) (hq : ∀ u, P u → P u.quorumClose)
    (ha : ∀ u, P u → P u.askBmk) (s : State) (t : Lifecycle) (h : P s) : P (s.lcPrepares t) := by
  have hi : ∀ {u v : State} (c : Prop) [Decidable c], P u → P v → P (if c then u else v) := by
    intro u v c _ hu hv; split <;> assumption
  have h1 : P ((s.fset SYS_LCADV_ERR 0).raise SYS_LCADV_BUSY) := hf _ _ _ (hf _ _ _ h)
  have h2 := hi (((s.fset SYS_LCADV_ERR 0).raise SYS_LCADV_BUSY).hasAuth 1 = true) (hq _ h1) h1
  have h3 := hi (t = .manufacture ∨ t = .provisioned) (ha _ h2) h2
  exact hi (t = .provisioned) (hf _ _ _ h3) h3

theorem State.lcPrepares_lc (s : State) (t : Lifecycle) : (s.lcPrepares t).sys.lc = s.sys.lc :=
  State.lcPrepares_keeps (P := fun u => u.sys.lc = s.sys.lc) (fun u f v h => (congrArg SysState.lc (State.fset_sys u f v)).trans h)
    (fun u h => (congrArg SysState.lc (by simp only [State.quorumClose, State.lower_sys])).trans h) (fun u h => by unfold State.askBmk; exact h) s t rfl

theorem State.lcStarts_kept {s0 : State} (s : State) (t : Lifecycle) (ht : lcFrom s.sys.lc t = true) (hs : Kept s0 s) :
    Kept s0 (s.lcStarts t) := by
  refine State.advancingTo_kept _ _ ?_ (State.lcPrepares_kept _ _ hs)
  rw [State.lcPrepares_lc]
  revert ht
  generalize s.sys.lc = a
  cases a <;> cases t <;> decide

theorem State.lcadv_kept {s0 : State} (s : State) (sys cust : Bool) (v : Word32) (hs : Kept s0 s) :
    Kept s0 (s.lcadv sys cust v) := by
  unfold State.lcadv
  have h := State.fset_kept s SYS_LCADV_TARGET v.toNat hs
  split
  · exact hs
  · dsimp only
    split
    · split
      · exact State.lcFails_kept _ _ h
      · next t _ =>
        split
        · exact State.lcFails_kept _ _ h
        · next he =>
          refine State.lcStarts_kept _ _ ?_ h
          unfold State.lcRefused at he
          split at he
          · cases he
          · next hc => simpa using hc
    · exact h

theorem State.obsJudge_kept {s0 : State} (s : State) (k : Nat) (hs : Kept s0 s) :
    Kept s0 (State.obsJudge s k) := by
  unfold State.obsJudge
  try dsimp only
  repeat' with_reducible first
    | assumption
    | apply State.lower_kept
    | apply State.raise_kept
    | apply Kept.ite

theorem State.nowIn_kept {s0 : State} (s : State) (t : Lifecycle) (ht : s.sys.advancing = some t) (hs : Kept s0 s) :
    Kept s0 (s.nowIn t) :=
  hs.trans ⟨rfl, fun ⟨a, b, c, d, e, f, g⟩ => ⟨a, b, c, d, e, f, g⟩, fun L k => ⟨k.next t ht, fun u hu => nomatch hu⟩⟩

theorem State.lcReached_kept {s0 : State} (s : State) (t : Lifecycle) (ht : s.sys.advancing = some t) (hs : Kept s0 s) :
    Kept s0 (s.lcReached t) := by
  have hn := State.raise_kept _ SYS_EVT_LC_DONE (State.lower_kept _ SYS_LCADV_BUSY
    (State.nowIn_kept (s.setGroup t 0) t ht (State.setGroup_kept s t 0 hs)))
  refine Kept.foldl (fun _ _ h => State.obsJudge_kept _ _ h) (State.rawEnds_kept _ ?_)
  exact Kept.ite (State.raise_kept _ _ hn) hn

theorem State.reprov_kept {s0 : State} (s : State) (v : Word32) (hs : Kept s0 s) :
    Kept s0 (State.reprov s v) := by
  unfold State.reprov
  try dsimp only
  repeat' with_reducible first
    | assumption
    | apply State.fset_kept
    | apply State.quorumClose_kept
    | apply State.raise_kept
    | apply State.lower_kept
    | apply State.askBmk_kept
    | apply Kept.ite
    | refine Kept.drop ?_ rfl rfl rfl rfl rfl rfl rfl rfl rfl rfl

theorem State.startCore_kept {s0 : State} (s : State) (n : Fin 16) (perms : BitVec 16) (a : Nat) (hs : Kept s0 s) :
    Kept s0 (State.startCore s n perms a) := by
  unfold State.startCore
  try dsimp only
  repeat' with_reducible first
    | assumption
    | apply State.startFrom_kept
    | apply State.lower_kept
    | apply State.raise_kept
    | split
    | (refine Kept.snd (by assumption) ?_)
    | refine Kept.drop ?_ rfl rfl rfl rfl rfl rfl rfl rfl rfl rfl

theorem State.coreStarts_kept {s0 : State} (s : State) (perms : BitVec 16) (n : Fin 16) (hs : Kept s0 s) :
    Kept s0 (State.coreStarts s perms n) := by
  unfold State.coreStarts
  try dsimp only
  repeat' with_reducible first
    | assumption
    | apply State.drainBuf_kept
    | apply State.startCore_kept
    | apply State.startFrom_kept
    | apply State.lower_kept
    | apply State.raise_kept
    | apply Kept.ite
    | split
    | (refine State.startFrom_some_kept (by assumption) ?_)
    | (refine Kept.snd (by assumption) ?_)

theorem State.coreCtrl_kept {s0 : State} (s : State) (perms : BitVec 16) (n : Fin 16) (v : Word32) (hs : Kept s0 s) :
    Kept s0 (State.coreCtrl s perms n v) := by
  unfold State.coreCtrl
  try dsimp only
  repeat' with_reducible first
    | assumption
    | apply State.coreStarts_kept
    | apply State.askStop_kept
    | apply Kept.ite
    | split

theorem State.doorbell_kept {s0 : State} (s : State) (n : Nat) (v : Word32) (hs : Kept s0 s) :
    Kept s0 (State.doorbell s n v) := by
  unfold State.doorbell
  try dsimp only
  repeat' with_reducible first
    | assumption
    | apply State.wr_kept

theorem State.svnFloor_kept {s0 : State} (s : State) (v : Word32) (hs : Kept s0 s) :
    Kept s0 (State.svnFloor s v) := by
  unfold State.svnFloor
  try dsimp only
  repeat' with_reducible first
    | assumption
    | apply State.fset_kept
    | apply Kept.ite

theorem State.tbStep_kept {s0 : State} (s : State) (delta : Int) (hs : Kept s0 s) :
    Kept s0 (State.tbStep s delta) := by
  unfold State.tbStep
  try dsimp only
  repeat' with_reducible first
    | assumption
    | apply State.closeWindow_kept
    | apply Kept.ite
    | refine Kept.foldl (fun _ _ _ => ?_) ?_
    | split
    | refine Kept.drop ?_ rfl rfl rfl rfl rfl rfl rfl rfl rfl rfl

/-! ### Machine/Flc.lean -/

theorem State.flcFails_kept {s0 : State} (s : State) (e : Nat) (hs : Kept s0 s) :
    Kept s0 (State.flcFails s e) := by
  unfold State.flcFails
  try dsimp only
  repeat' with_reducible first
    | assumption
    | apply State.raise_kept
    | apply State.fset_kept

theorem State.flcEnds_kept {s0 : State} (s : State) (hs : Kept s0 s) :
    Kept s0 (State.flcEnds s) := by
  unfold State.flcEnds
  try dsimp only
  repeat' with_reducible first
    | assumption
    | apply State.lower_kept
    | apply State.fset_kept
    | apply State.flcIdle_kept
    | split

theorem State.eraseStarts_kept {s0 : State} (s : State) (a : Nat) (hs : Kept s0 s) :
    Kept s0 (State.eraseStarts s a) := by
  unfold State.eraseStarts
  try dsimp only
  repeat' with_reducible first
    | assumption
    | apply State.drawn_kept
    | apply State.eraseE1_kept
    | apply State.fset_kept
    | split
    | refine Kept.drop ?_ rfl rfl rfl rfl rfl rfl rfl rfl rfl rfl

theorem State.flcStarts_kept {s0 : State} (s : State) (op : Nat) (a : Nat) (src : Nat) (n : Nat) (fixing : Bool) (hs : Kept s0 s) :
    Kept s0 (State.flcStarts s op a src n fixing) := by
  unfold State.flcStarts
  try dsimp only
  repeat' with_reducible first
    | assumption
    | apply State.raise_kept
    | apply State.fset_kept
    | apply State.count_kept
    | apply State.eraseStarts_kept
    | apply State.preparePage_kept
    | apply Kept.ite
    | split
    | refine Kept.drop ?_ rfl rfl rfl rfl rfl rfl rfl rfl rfl rfl

theorem State.flcCmd_kept {s0 : State} (s : State) (v : Word32) (hs : Kept s0 s) :
    Kept s0 (State.flcCmd s v) := by
  unfold State.flcCmd
  try dsimp only
  repeat' with_reducible first
    | assumption
    | apply State.fset_kept
    | apply State.raise_kept
    | apply State.flcStarts_kept
    | apply State.flcFails_kept
    | apply Kept.ite
    | split

theorem State.flcDone_kept {s0 : State} (s : State) (hs : Kept s0 s) :
    Kept s0 (State.flcDone s) := by
  unfold State.flcDone
  try dsimp only
  repeat' with_reducible first
    | assumption
    | apply State.raise_kept
    | apply State.fset_kept
    | apply State.flcEnds_kept

theorem State.pageFails_kept {s0 : State} (s : State) (otp : Bool) (hs : Kept s0 s) :
    Kept s0 (State.pageFails s otp) := by
  unfold State.pageFails
  try dsimp only
  repeat' with_reducible first
    | assumption
    | apply State.flcEnds_kept
    | apply State.flcFails_kept
    | apply State.spoil_kept
    | apply State.signal_kept
    | apply Kept.ite
    | split
    | refine Kept.drop ?_ rfl rfl rfl rfl rfl rfl rfl rfl rfl rfl

theorem State.nextPage_kept {s0 : State} (s : State) (hs : Kept s0 s) :
    Kept s0 (State.nextPage s) := by
  unfold State.nextPage
  try dsimp only
  repeat' with_reducible first
    | assumption
    | apply State.programBytes_kept
    | apply State.freeStalls_kept
    | apply State.count_kept
    | apply State.fset_kept
    | split
    | refine Kept.drop ?_ rfl rfl rfl rfl rfl rfl rfl rfl rfl rfl

theorem State.programEnds_kept {s0 : State} (s : State) (ok : Bool) (hs : Kept s0 s) :
    Kept s0 (State.programEnds s ok) := by
  unfold State.programEnds
  try dsimp only
  repeat' with_reducible first
    | assumption
    | apply State.pageFails_kept
    | apply State.count_kept
    | apply State.nextPage_kept
    | apply State.flcDone_kept
    | apply State.preparePage_kept
    | apply Kept.ite
    | split

theorem State.eraseEnds_kept {s0 : State} (s : State) (ok : Bool) (hs : Kept s0 s) :
    Kept s0 (State.eraseEnds s ok) := by
  unfold State.eraseEnds
  try dsimp only
  repeat' with_reducible first
    | assumption
    | apply State.blockBlank_kept
    | apply State.eraseE4_kept
    | apply State.flcDone_kept
    | apply State.raise_kept
    | apply State.spoil_kept
    | apply State.flcEnds_kept
    | apply State.flcFails_kept
    | apply State.signal_kept
    | apply State.bootFails_kept
    | apply Kept.ite
    | split

theorem State.copyDamaged_kept {s0 : State} (s : State) (hs : Kept s0 s) :
    Kept s0 (State.copyDamaged s) := by
  unfold State.copyDamaged
  try dsimp only
  repeat' with_reducible first
    | assumption
    | apply State.count_kept
    | apply State.drawn_kept
    | split
    | refine Kept.drop ?_ rfl rfl rfl rfl rfl rfl rfl rfl rfl rfl

theorem State.copyEnds_kept {s0 : State} (s : State) (ok : Bool) (hs : Kept s0 s) :
    Kept s0 (State.copyEnds s ok) := by
  unfold State.copyEnds
  try dsimp only
  repeat' with_reducible first
    | assumption
    | apply State.copyDamaged_kept
    | apply State.copyGranules_kept
    | apply State.count_kept
    | apply State.flcDone_kept
    | apply State.flcEnds_kept
    | apply State.flcFails_kept
    | apply Kept.ite
    | split
    | (refine Kept.fst (by assumption) ?_)

theorem State.otpEnds_kept {s0 : State} (s : State) (ok : Bool) (hs : Kept s0 s) :
    Kept s0 (State.otpEnds s ok) := by
  unfold State.otpEnds
  try dsimp only
  repeat' with_reducible first
    | assumption
    | apply State.pageFails_kept
    | apply State.programBytes_kept
    | apply State.flcDone_kept
    | apply Kept.ite
    | split
    | refine Kept.drop ?_ rfl rfl rfl rfl rfl rfl rfl rfl rfl rfl

theorem State.suspended_kept {s0 : State} (s : State) (hs : Kept s0 s) :
    Kept s0 (State.suspended s) := by
  unfold State.suspended
  try dsimp only
  repeat' with_reducible first
    | assumption
    | apply State.raise_kept
    | apply State.count_kept
    | apply State.freeStalls_kept
    | split
    | refine Kept.drop ?_ rfl rfl rfl rfl rfl rfl rfl rfl rfl rfl

theorem State.resumed_kept {s0 : State} (s : State) (hs : Kept s0 s) :
    Kept s0 (State.resumed s) := by
  unfold State.resumed
  try dsimp only
  repeat' with_reducible first
    | assumption
    | apply State.lower_kept
    | split
    | refine Kept.drop ?_ rfl rfl rfl rfl rfl rfl rfl rfl rfl rfl

theorem State.flcErscfg_kept {s0 : State} (s : State) (v : Word32) (hs : Kept s0 s) :
    Kept s0 (State.flcErscfg s v) := by
  unfold State.flcErscfg
  try dsimp only
  repeat' with_reducible first
    | assumption
    | apply State.fset_kept
    | apply Kept.ite

end Sys2Proof.Machine
end

