-- ==== Sys2Proof/Laws/KeptIo.lean ====
section
/-!
SUPPORT. Laws/KeptIo.lean: what `Kept` says of cards, the tag, observation.
-/

namespace Sys2Proof.Machine

/-! ### Machine/Crd.lean -/

theorem State.slotSettles_kept {s0 : State} (s : State) (n : Fin 2) (hs : Kept s0 s) :
    Kept s0 (State.slotSettles s n) := by
  unfold State.slotSettles
  try dsimp only
  repeat' with_reducible first
    | assumption
    | apply State.raise_kept

theorem State.slotFails_kept {s0 : State} (s : State) (n : Fin 2) (err : Nat) (hs : Kept s0 s) :
    Kept s0 (State.slotFails s n err) := by
  unfold State.slotFails
  try dsimp only
  repeat' with_reducible first
    | assumption
    | apply State.slotSettles_kept
    | apply State.deactivate_kept

theorem State.powerCard_kept {s0 : State} (s : State) (n : Fin 2) (a : Bool) (x : CardSlot) (err : Nat) (hs : Kept s0 s) :
    Kept s0 (State.powerCard s n a x err) := by
  unfold State.powerCard
  try dsimp only
  repeat' with_reducible first
    | assumption
    | apply State.fset_kept
    | apply State.put_kept
    | apply State.setSlot_kept
    | split

theorem State.repower_kept {s0 : State} (s : State) (n : Fin 2) (a : Bool) (x : CardSlot) (err : Nat) (hs : Kept s0 s) :
    Kept s0 (State.repower s n a x err) := by
  unfold State.repower
  try dsimp only
  repeat' with_reducible first
    | assumption
    | apply State.deactivate_kept
    | apply State.powerCard_kept
    | split

theorem State.retryOr_kept {s0 : State} (s : State) (n : Fin 2) (err : Nat) (hs : Kept s0 s) :
    Kept s0 (State.retryOr s n err) := by
  unfold State.retryOr
  try dsimp only
  repeat' with_reducible first
    | assumption
    | apply State.repower_kept
    | apply State.slotFails_kept
    | apply Kept.ite
    | split

theorem State.cardAct_kept {s0 : State} (s : State) (n : Fin 2) (hs : Kept s0 s) :
    Kept s0 (State.cardAct s n) := by
  unfold State.cardAct
  try dsimp only
  repeat' with_reducible first
    | assumption
    | apply State.fset_kept
    | apply State.slotSettles_kept
    | apply State.powerCard_kept
    | apply Kept.ite
    | split

theorem State.cardCtrl_kept {s0 : State} (s : State) (n : Fin 2) (v : Word32) (hs : Kept s0 s) :
    Kept s0 (State.cardCtrl s n v) := by
  unfold State.cardCtrl
  try dsimp only
  repeat' with_reducible first
    | assumption
    | apply State.wr_kept
    | apply State.deactivate_kept
    | apply State.cardAct_kept
    | apply Kept.ite

theorem State.crdCtrl_kept {s0 : State} (s : State) (v : Word32) (hs : Kept s0 s) :
    Kept s0 (State.crdCtrl s v) := by
  unfold State.crdCtrl
  try dsimp only
  repeat' with_reducible first
    | assumption
    | apply State.wr_kept
    | apply State.cardsOff_kept
    | apply Kept.ite

theorem State.fillBuf_kept {s0 : State} (s : State) (n : Nat) (k : Nat) (bs : List Byte) (x5 : Nat) (hs : Kept s0 s) :
    Kept s0 (State.fillBuf s n k bs x5) := by
  induction x5 generalizing s n k bs with
  | zero =>
    unfold State.fillBuf
    try dsimp only
    repeat' with_reducible first
      | assumption
  | succ k ih =>
    unfold State.fillBuf
    try dsimp only
    repeat' with_reducible first
      | assumption
      | apply ih
      | apply State.wr_kept
      | apply Kept.ite

theorem State.sendBlock_kept {s0 : State} (s : State) (n : Fin 2) (pcb : Nat) (inf : List Byte) (hs : Kept s0 s) :
    Kept s0 (State.sendBlock s n pcb inf) := by
  unfold State.sendBlock
  try dsimp only
  repeat' with_reducible first
    | assumption
    | apply State.emit_kept
    | apply State.setSlot_kept

theorem State.sendCommand_kept {s0 : State} (s : State) (n : Fin 2) (hs : Kept s0 s) :
    Kept s0 (State.sendCommand s n) := by
  unfold State.sendCommand
  try dsimp only
  repeat' with_reducible first
    | assumption
    | apply State.setSlot_kept
    | apply State.fset_kept
    | apply State.sendBlock_kept

theorem State.slotReady_kept {s0 : State} (s : State) (n : Fin 2) (hs : Kept s0 s) :
    Kept s0 (State.slotReady s n) := by
  unfold State.slotReady
  try dsimp only
  repeat' with_reducible first
    | assumption
    | apply State.slotSettles_kept
    | apply State.fset_kept
    | apply State.setSlot_kept
    | apply State.sendBlock_kept

theorem State.adoptPair_kept {s0 : State} (s : State) (n : Fin 2) (ta : Nat) (speed : Bool) (hs : Kept s0 s) :
    Kept s0 (State.adoptPair s n ta speed) := by
  unfold State.adoptPair
  try dsimp only
  repeat' with_reducible first
    | assumption
    | apply State.fset_kept
    | apply State.setSlot_kept
    | split

theorem State.atrOk_kept {s0 : State} (s : State) (n : Fin 2) (r : Atr) (bs : List Byte) (hs : Kept s0 s) :
    Kept s0 (State.atrOk s n r bs) := by
  unfold State.atrOk
  try dsimp only
  repeat' with_reducible first
    | assumption
    | apply State.fillBuf_kept
    | apply State.fset_kept
    | apply State.wr_kept
    | apply State.adoptPair_kept
    | apply State.slotReady_kept
    | apply State.emit_kept
    | apply State.setSlot_kept
    | apply Kept.ite
    | split

theorem State.exchangeEnds_kept {s0 : State} (s : State) (n : Fin 2) (err : Nat) (hs : Kept s0 s) :
    Kept s0 (State.exchangeEnds s n err) := by
  unfold State.exchangeEnds
  try dsimp only
  repeat' with_reducible first
    | assumption
    | apply State.setSlot_kept

theorem State.startExchange_kept {s0 : State} (s : State) (n : Fin 2) (cmd : List Byte) (attest : Bool) (hs : Kept s0 s) :
    Kept s0 (State.startExchange s n cmd attest) := by
  unfold State.startExchange
  try dsimp only
  repeat' with_reducible first
    | assumption
    | apply State.raise_kept
    | apply State.fset_kept
    | apply State.setSlot_kept
    | apply State.sendCommand_kept
    | apply Kept.ite
    | split

theorem State.cardXfer_kept {s0 : State} (s : State) (n : Fin 2) (v : Word32) (hs : Kept s0 s) :
    Kept s0 (State.cardXfer s n v) := by
  unfold State.cardXfer
  try dsimp only
  repeat' with_reducible first
    | assumption
    | apply State.fset_kept
    | apply State.raise_kept
    | apply State.startExchange_kept
    | apply Kept.ite

theorem State.blockFails_kept {s0 : State} (s : State) (n : Fin 2) (kind : Nat) (hs : Kept s0 s) :
    Kept s0 (State.blockFails s n kind) := by
  unfold State.blockFails
  try dsimp only
  repeat' with_reducible first
    | assumption
    | apply State.setSlot_kept
    | apply State.sendBlock_kept
    | apply State.exchangeEnds_kept
    | apply Kept.ite
    | split

theorem State.sendAgain_kept {s0 : State} (s : State) (n : Fin 2) (hs : Kept s0 s) :
    Kept s0 (State.sendAgain s n) := by
  unfold State.sendAgain
  try dsimp only
  repeat' with_reducible first
    | assumption
    | apply State.setSlot_kept
    | apply State.emit_kept
    | apply State.blockFails_kept
    | apply Kept.ite
    | split

theorem State.iBlock_kept {s0 : State} (s : State) (n : Fin 2) (more : Bool) (inf : List Byte) (hs : Kept s0 s) :
    Kept s0 (State.iBlock s n more inf) := by
  unfold State.iBlock
  try dsimp only
  repeat' with_reducible first
    | assumption
    | apply State.fset_kept
    | apply State.setSlot_kept
    | apply State.exchangeEnds_kept
    | apply State.sendBlock_kept
    | apply Kept.ite

theorem State.goodBlock_kept {s0 : State} (s : State) (n : Fin 2) (pcb : Nat) (inf : List Byte) (hs : Kept s0 s) :
    Kept s0 (State.goodBlock s n pcb inf) := by
  unfold State.goodBlock
  try dsimp only
  repeat' with_reducible first
    | assumption
    | apply State.setSlot_kept
    | apply State.sendCommand_kept
    | apply State.blockFails_kept
    | apply State.fset_kept
    | apply State.sendBlock_kept
    | apply State.sendAgain_kept
    | apply State.iBlock_kept
    | apply Kept.ite
    | split

theorem State.exchangeDone_kept {s0 : State} (s : State) (n : Fin 2) (hs : Kept s0 s) :
    Kept s0 (State.exchangeDone s n) := by
  unfold State.exchangeDone
  try dsimp only
  repeat' with_reducible first
    | assumption
    | apply State.lower_kept
    | apply State.fset_kept
    | apply State.raise_kept
    | apply State.setSlot_kept
    | apply State.fillBuf_kept
    | apply State.deactivate_kept
    | apply Kept.ite
    | split
    | refine Kept.drop ?_ rfl rfl rfl rfl rfl rfl rfl rfl rfl rfl

theorem State.crdRefuses_kept {s0 : State} (s : State) (hs : Kept s0 s) :
    Kept s0 (State.crdRefuses s) := by
  unfold State.crdRefuses
  try dsimp only
  repeat' with_reducible first
    | assumption
    | apply State.raise_kept

theorem State.showRoster_kept {s0 : State} (s : State) (hs : Kept s0 s) :
    Kept s0 (State.showRoster s) := by
  unfold State.showRoster
  try dsimp only
  repeat' with_reducible first
    | assumption
    | apply State.put_kept
    | apply State.fset_kept
    | split

theorem State.quorumGo_kept {s0 : State} (s : State) (hs : Kept s0 s) :
    Kept s0 (State.quorumGo s) := by
  unfold State.quorumGo
  try dsimp only
  repeat' with_reducible first
    | assumption
    | apply State.wr_kept
    | apply State.raise_kept
    | apply State.showRoster_kept
    | apply State.crdRefuses_kept
    | apply Kept.ite
    | split
    | refine Kept.drop ?_ rfl rfl rfl rfl rfl rfl rfl rfl rfl rfl

theorem State.quorumAttest_kept {s0 : State} (s : State) (hs : Kept s0 s) :
    Kept s0 (State.quorumAttest s) := by
  unfold State.quorumAttest
  try dsimp only
  repeat' with_reducible first
    | assumption
    | apply State.raise_kept
    | apply State.fset_kept
    | apply State.startExchange_kept
    | apply State.crdRefuses_kept
    | apply Kept.ite
    | split
    | refine Kept.drop ?_ rfl rfl rfl rfl rfl rfl rfl rfl rfl rfl

theorem State.qctrl_kept {s0 : State} (s : State) (v : Word32) (hs : Kept s0 s) :
    Kept s0 (State.qctrl s v) := by
  unfold State.qctrl
  try dsimp only
  repeat' with_reducible first
    | assumption
    | apply State.wr_kept
    | apply State.quorumClose_kept
    | apply State.quorumGo_kept
    | apply State.quorumAttest_kept
    | apply Kept.ite

theorem State.attestJudge_kept {s0 : State} (s : State) (r : List Byte) (hs : Kept s0 s) :
    Kept s0 (State.attestJudge s r) := by
  unfold State.attestJudge
  try dsimp only
  repeat' with_reducible first
    | assumption
    | apply State.attestFails_kept
    | apply State.fset_kept
    | apply State.lower_kept
    | apply State.raise_kept
    | apply Kept.ite
    | split
    | refine Kept.drop ?_ rfl rfl rfl rfl rfl rfl rfl rfl rfl rfl

theorem State.rosterCtrl_kept {s0 : State} (s : State) (v : Word32) (hs : Kept s0 s) :
    Kept s0 (State.rosterCtrl s v) := by
  unfold State.rosterCtrl
  try dsimp only
  repeat' with_reducible first
    | assumption
    | apply State.fset_kept
    | apply State.showRoster_kept
    | apply State.quorumClose_kept
    | apply State.raise_kept
    | apply State.crdRefuses_kept
    | apply Kept.ite
    | split
    | refine Kept.drop ?_ rfl rfl rfl rfl rfl rfl rfl rfl rfl rfl

/-! ### Machine/Tag.lean -/

theorem State.tagEvt_kept {s0 : State} (s : State) (f : Fld) (hs : Kept s0 s) :
    Kept s0 (State.tagEvt s f) := by
  unfold State.tagEvt
  try dsimp only
  repeat' with_reducible first
    | assumption
    | apply State.raise_kept
    | apply Kept.ite

theorem State.tagOther_kept {s0 : State} (s : State) (hs : Kept s0 s) :
    Kept s0 (State.tagOther s) := by
  unfold State.tagOther
  try dsimp only
  repeat' with_reducible first
    | assumption
    | apply State.tagState_kept
    | apply Kept.ite
    | refine Kept.drop ?_ rfl rfl rfl rfl rfl rfl rfl rfl rfl rfl

theorem State.tagSends_kept {s0 : State} (s : State) (bs : List Byte) (hs : Kept s0 s) :
    Kept s0 (State.tagSends s bs) := by
  unfold State.tagSends
  try dsimp only
  repeat' with_reducible first
    | assumption
    | apply State.emit_kept
    | split

theorem State.tagReady_kept {s0 : State} (s : State) (woken : Bool) (hs : Kept s0 s) :
    Kept s0 (State.tagReady s woken) := by
  unfold State.tagReady
  try dsimp only
  repeat' with_reducible first
    | assumption
    | apply State.tagState_kept
    | apply State.emit_kept
    | split
    | refine Kept.drop ?_ rfl rfl rfl rfl rfl rfl rfl rfl rfl rfl

theorem State.commitTried_kept {s0 : State} (s : State) (k : Nat) (data : List Byte) (hs : Kept s0 s) :
    Kept s0 (State.commitTried s k data).2 := by
  unfold State.commitTried
  try dsimp only
  repeat' with_reducible first
    | assumption
    | apply State.drawn_kept
    | apply State.tagCut_kept
    | apply State.tagCommit_kept
    | apply Kept.ite
    | split
    | (refine Kept.fst (by assumption) ?_)
    | (dsimp only)

theorem State.setAttempts_kept {s0 : State} (s : State) (g : Nat) (n : Nat) (hs : Kept s0 s) :
    Kept s0 (State.setAttempts s g n).2 := by
  unfold State.setAttempts
  try dsimp only
  repeat' with_reducible first
    | assumption
    | apply State.commitTried_kept
    | apply State.tagCommit_kept
    | split
    | (dsimp only)

theorem State.wiredEnds_kept {s0 : State} (s : State) (err : Nat) (hs : Kept s0 s) :
    Kept s0 (State.wiredEnds s err) := by
  unfold State.wiredEnds
  try dsimp only
  repeat' with_reducible first
    | assumption
    | apply State.lower_kept
    | apply State.tagEvt_kept
    | apply State.faultWrites_kept
    | apply State.fset_kept
    | apply Kept.ite
    | split
    | refine Kept.drop ?_ rfl rfl rfl rfl rfl rfl rfl rfl rfl rfl

theorem State.wiredRead_kept {s0 : State} (s : State) (l : Nat) (hs : Kept s0 s) :
    Kept s0 (State.wiredRead s l) := by
  unfold State.wiredRead
  try dsimp only
  repeat' with_reducible first
    | assumption
    | apply State.wr_kept
    | apply State.wiredEnds_kept
    | apply Kept.ite
    | refine Kept.foldl (fun _ _ _ => ?_) ?_

theorem State.applyEnds_kept {s0 : State} (s : State) (hs : Kept s0 s) :
    Kept s0 (State.applyEnds s) := by
  unfold State.applyEnds
  try dsimp only
  repeat' with_reducible first
    | assumption
    | apply State.commitTried_kept
    | apply State.lower_kept
    | apply State.tagCommit_kept
    | split
    | refine Kept.drop ?_ rfl rfl rfl rfl rfl rfl rfl rfl rfl rfl

theorem State.preempted_kept {s0 : State} (s : State) (c : TagCommit) (hs : Kept s0 s) :
    Kept s0 (State.preempted s c) := by
  unfold State.preempted
  try dsimp only
  repeat' with_reducible first
    | assumption
    | apply State.tagCut_kept
    | apply State.lower_kept
    | apply State.tagEvt_kept
    | apply State.fset_kept
    | apply Kept.ite
    | split
    | refine Kept.drop ?_ rfl rfl rfl rfl rfl rfl rfl rfl rfl rfl

theorem State.lateCommit_kept {s0 : State} (s : State) (c : TagCommit) (hs : Kept s0 s) :
    Kept s0 (State.lateCommit s c) := by
  unfold State.lateCommit
  try dsimp only
  repeat' with_reducible first
    | assumption
    | apply State.commitTried_kept
    | apply State.raise_kept
    | apply State.fset_kept
    | apply Kept.ite
    | split

theorem State.fieldBegins_kept {s0 : State} (s : State) (hs : Kept s0 s) :
    Kept s0 (State.fieldBegins s) := by
  unfold State.fieldBegins
  try dsimp only
  repeat' with_reducible first
    | assumption
    | apply State.applyEnds_kept
    | apply State.wiredRead_kept
    | apply State.commit_kept
    | apply State.lateCommit_kept
    | apply State.drawn_kept
    | apply State.tagCommit_kept
    | apply State.wiredEnds_kept
    | apply State.preempted_kept
    | apply State.tagEvt_kept
    | apply State.tagCut_kept
    | apply Kept.ite
    | split
    | refine Kept.drop ?_ rfl rfl rfl rfl rfl rfl rfl rfl rfl rfl

theorem State.tagAnswer_kept {s0 : State} (s : State) (status : Byte) (d : List Byte) (hs : Kept s0 s) :
    Kept s0 (State.tagAnswer s status d) := by
  unfold State.tagAnswer
  try dsimp only
  repeat' with_reducible first
    | assumption
    | apply State.tagSends_kept
    | apply State.emit_kept
    | split

theorem State.lockout_kept {s0 : State} (s : State) (g : Nat) (hs : Kept s0 s) :
    Kept s0 (State.lockout s g) := by
  unfold State.lockout
  try dsimp only
  repeat' with_reducible first
    | assumption
    | apply State.fset_kept
    | apply State.raise_kept
    | apply Kept.ite

theorem State.authCompare_kept {s0 : State} (s : State) (g : Nat) (n : Nat) (pw : List Byte) (hs : Kept s0 s) :
    Kept s0 (State.authCompare s g n pw) := by
  unfold State.authCompare
  try dsimp only
  repeat' with_reducible first
    | assumption
    | apply State.setAttempts_kept
    | apply State.tagAnswer_kept
    | apply State.tagEvt_kept
    | apply State.lockout_kept
    | apply Kept.ite
    | split
    | (refine Kept.snd (by assumption) ?_)
    | (refine Kept.fst (by assumption) ?_)
    | refine Kept.drop ?_ rfl rfl rfl rfl rfl rfl rfl rfl rfl rfl

theorem State.fieldCommitEnds_kept {s0 : State} (s : State) (c : TagCommit) (hs : Kept s0 s) :
    Kept s0 (State.fieldCommitEnds s c) := by
  unfold State.fieldCommitEnds
  try dsimp only
  repeat' with_reducible first
    | assumption
    | apply State.commitTried_kept
    | apply State.tagTxnEnds_kept
    | apply State.raise_kept
    | apply State.fset_kept
    | apply State.tagAnswer_kept
    | apply State.lower_kept
    | apply State.tagCommit_kept
    | apply Kept.ite
    | split
    | (refine Kept.snd (by assumption) ?_)
    | (refine Kept.fst (by assumption) ?_)

theorem State.wiredCommitEnds_kept {s0 : State} (s : State) (c : TagCommit) (hs : Kept s0 s) :
    Kept s0 (State.wiredCommitEnds s c) := by
  unfold State.wiredCommitEnds
  try dsimp only
  repeat' with_reducible first
    | assumption
    | apply State.commitTried_kept
    | apply State.wiredEnds_kept
    | split
    | (refine Kept.snd (by assumption) ?_)
    | (refine Kept.fst (by assumption) ?_)

theorem State.wiredStarts_kept {s0 : State} (s : State) (write : Bool) (l : Nat) (d : List Byte) (hs : Kept s0 s) :
    Kept s0 (State.wiredStarts s write l d) := by
  unfold State.wiredStarts
  try dsimp only
  repeat' with_reducible first
    | assumption
    | apply State.wiredWrite_kept
    | apply State.raise_kept
    | apply State.lower_kept
    | apply Kept.ite
    | split
    | refine Kept.drop ?_ rfl rfl rfl rfl rfl rfl rfl rfl rfl rfl

theorem State.wiredRefused_kept {s0 : State} (s : State) (err : Nat) (hs : Kept s0 s) :
    Kept s0 (State.wiredRefused s err) := by
  unfold State.wiredRefused
  try dsimp only
  repeat' with_reducible first
    | assumption
    | apply State.raise_kept
    | apply State.fset_kept

theorem State.tagWcmd_kept {s0 : State} (s : State) (v : Word32) (hs : Kept s0 s) :
    Kept s0 (State.tagWcmd s v) := by
  unfold State.tagWcmd
  try dsimp only
  repeat' with_reducible first
    | assumption
    | apply State.fset_kept
    | apply State.wiredRefused_kept
    | apply State.raise_kept
    | apply State.wiredStarts_kept
    | apply Kept.ite
    | refine Kept.drop ?_ rfl rfl rfl rfl rfl rfl rfl rfl rfl rfl

theorem State.grpSelect_kept {s0 : State} (s : State) (v : Word32) (hs : Kept s0 s) :
    Kept s0 (State.grpSelect s v) := by
  unfold State.grpSelect
  try dsimp only
  repeat' with_reducible first
    | assumption
    | apply State.fset_kept
    | apply Kept.ite
    | refine Kept.drop ?_ rfl rfl rfl rfl rfl rfl rfl rfl rfl rfl

theorem State.grpPw_kept {s0 : State} (s : State) (v : Word) (hs : Kept s0 s) :
    Kept s0 (State.grpPw s v) := by
  unfold State.grpPw
  try dsimp only
  repeat' with_reducible first
    | assumption
    | refine Kept.drop ?_ rfl rfl rfl rfl rfl rfl rfl rfl rfl rfl

theorem State.grpApply_kept {s0 : State} (s : State) (v : Word32) (hs : Kept s0 s) :
    Kept s0 (State.grpApply s v) := by
  unfold State.grpApply
  try dsimp only
  repeat' with_reducible first
    | assumption
    | apply State.raise_kept
    | apply State.lower_kept
    | apply Kept.ite
    | split
    | refine Kept.drop ?_ rfl rfl rfl rfl rfl rfl rfl rfl rfl rfl

/-! ### Machine/Obs.lean -/

theorem State.calGranule_kept {s0 : State} (s : State) (addr : Nat) (hs : Kept s0 s) :
    Kept s0 (State.calGranule s addr).2 := by
  unfold State.calGranule
  try dsimp only
  repeat' with_reducible first
    | assumption
    | apply State.flashRead_kept
    | apply State.readNow_kept
    | apply Kept.ite
    | split
    | (dsimp only)

theorem State.calGranules_kept {s0 : State} (s : State) (addr : Nat) (x3 : Nat) (hs : Kept s0 s) :
    Kept s0 (State.calGranules s addr x3).2 := by
  induction x3 generalizing s addr with
  | zero =>
    unfold State.calGranules
    try dsimp only
    repeat' with_reducible first
      | assumption
  | succ k ih =>
    unfold State.calGranules
    try dsimp only
    repeat' with_reducible first
      | assumption
      | apply ih
      | apply State.calGranule_kept
      | split
      | (refine Kept.snd (by assumption) ?_)
      | (dsimp only)

theorem State.ovlBytes_kept {s0 : State} (s : State) (copy : Nat) (hs : Kept s0 s) :
    Kept s0 (State.ovlBytes s copy).2 := by
  unfold State.ovlBytes
  try dsimp only
  repeat' with_reducible first
    | assumption
    | apply State.calGranules_kept
    | split
    | (refine Kept.snd (by assumption) ?_)
    | (dsimp only)

theorem State.overlay_kept {s0 : State} (s : State) (copy : Nat) (hs : Kept s0 s) :
    Kept s0 (State.overlay s copy).2 := by
  unfold State.overlay
  try dsimp only
  repeat' with_reducible first
    | assumption
    | apply State.ovlBytes_kept
    | split
    | (refine Kept.snd (by assumption) ?_)
    | (dsimp only)

theorem State.loadCalRegs_kept {s0 : State} (s : State) (o : List CalWord) (hs : Kept s0 s) :
    Kept s0 (State.loadCalRegs s o) := by
  unfold State.loadCalRegs
  try dsimp only
  repeat' with_reducible first
    | assumption
    | apply State.fset_kept
    | apply State.wr_kept
    | split

theorem State.tuneTag_kept {s0 : State} (s : State) (o : List CalWord) (hs : Kept s0 s) :
    Kept s0 (State.tuneTag s o) := by
  unfold State.tuneTag
  try dsimp only
  repeat' with_reducible first
    | assumption
    | apply State.tagTuned_kept
    | split
    | refine Kept.drop ?_ rfl rfl rfl rfl rfl rfl rfl rfl rfl rfl

theorem State.loadCal_kept {s0 : State} (s : State) (o : List CalWord) (hs : Kept s0 s) :
    Kept s0 (State.loadCal s o) := by
  unfold State.loadCal
  try dsimp only
  repeat' with_reducible first
    | assumption
    | apply State.loadCalRegs_kept
    | apply State.tuneTag_kept
    | apply State.fset_kept
    | split

theorem State.applyCal_kept {s0 : State} (s : State) (o : List CalWord) (hs : Kept s0 s) :
    Kept s0 (State.applyCal s o) := by
  unfold State.applyCal
  try dsimp only
  repeat' with_reducible first
    | assumption
    | apply State.loadCalRegs_kept
    | apply State.tuneTag_kept
    | split
    | refine Kept.drop ?_ rfl rfl rfl rfl rfl rfl rfl rfl rfl rfl

theorem State.ovlInForce_kept {s0 : State} (s : State) (copy : Nat) (o : List CalWord) (b : Nat) (hs : Kept s0 s) :
    Kept s0 (State.ovlInForce s copy o b) := by
  unfold State.ovlInForce
  try dsimp only
  repeat' with_reducible first
    | assumption
    | apply State.raise_kept
    | apply State.fset_kept
    | apply State.wr_kept
    | apply Kept.ite
    | refine Kept.drop ?_ rfl rfl rfl rfl rfl rfl rfl rfl rfl rfl

theorem State.chooseOverlay_kept {s0 : State} (s : State) (hs : Kept s0 s) :
    Kept s0 (State.chooseOverlay s) := by
  unfold State.chooseOverlay
  try dsimp only
  repeat' with_reducible first
    | assumption
    | apply State.overlay_kept
    | apply State.ovlInForce_kept
    | apply State.loadCal_kept
    | apply State.raise_kept
    | apply State.wr_kept
    | apply State.loadCalRegs_kept
    | split
    | (refine Kept.snd (by assumption) ?_)
    | refine Kept.drop ?_ rfl rfl rfl rfl rfl rfl rfl rfl rfl rfl

theorem State.factoryOk_kept {s0 : State} (s : State) (hs : Kept s0 s) :
    Kept s0 (State.factoryOk s).2 := by
  unfold State.factoryOk
  try dsimp only
  repeat' with_reducible first
    | assumption
    | apply State.pieceRead_kept
    | split
    | (refine Kept.snd (by assumption) ?_)
    | (refine Kept.fst (by assumption) ?_)
    | (dsimp only)

theorem State.calibrated_kept {s0 : State} (s : State) (hs : Kept s0 s) :
    Kept s0 (State.calibrated s) := by
  unfold State.calibrated
  try dsimp only
  repeat' with_reducible first
    | assumption
    | apply State.chooseOverlay_kept
    | apply State.wr_kept
    | apply State.raise_kept
    | apply State.stepEnds_kept
    | refine Kept.foldl (fun _ _ _ => ?_) ?_
    | split
    | refine Kept.drop ?_ rfl rfl rfl rfl rfl rfl rfl rfl rfl rfl

theorem State.calApply_kept {s0 : State} (s : State) (v : Word32) (hs : Kept s0 s) :
    Kept s0 (State.calApply s v) := by
  unfold State.calApply
  try dsimp only
  repeat' with_reducible first
    | assumption
    | apply State.raise_kept
    | apply State.wr_kept
    | apply Kept.ite
    | split
    | refine Kept.drop ?_ rfl rfl rfl rfl rfl rfl rfl rfl rfl rfl

theorem State.calSwitch_kept {s0 : State} (s : State) (hs : Kept s0 s) :
    Kept s0 (State.calSwitch s) := by
  unfold State.calSwitch
  try dsimp only
  repeat' with_reducible first
    | assumption
    | apply State.lower_kept
    | apply State.overlay_kept
    | apply State.ovlInForce_kept
    | apply State.applyCal_kept
    | apply State.raise_kept
    | apply State.wr_kept
    | apply State.loadCalRegs_kept
    | split
    | (refine Kept.snd (by assumption) ?_)

theorem State.bwTake_kept {s0 : State} (s : State) (key : Nat) (e : Nat) (reg : Nat) (hs : Kept s0 s) :
    Kept s0 (State.bwTake s key e reg) := by
  unfold State.bwTake
  try dsimp only
  repeat' with_reducible first
    | assumption
    | apply State.wr_kept
    | refine Kept.drop ?_ rfl rfl rfl rfl rfl rfl rfl rfl rfl rfl

theorem State.bwTaken_kept {s0 : State} (s : State) (hs : Kept s0 s) :
    Kept s0 (State.bwTaken s) := by
  unfold State.bwTaken
  try dsimp only
  repeat' with_reducible first
    | assumption
    | apply State.bwTake_kept
    | refine Kept.foldl (fun _ _ _ => ?_) ?_

theorem State.bwNext_kept {s0 : State} (s : State) (hs : Kept s0 s) :
    Kept s0 (State.bwNext s) := by
  unfold State.bwNext
  try dsimp only
  repeat' with_reducible first
    | assumption
    | apply State.fset_kept
    | refine Kept.drop ?_ rfl rfl rfl rfl rfl rfl rfl rfl rfl rfl

theorem State.snapshot_kept {s0 : State} (s : State) (hs : Kept s0 s) : Kept s0 s.snapshot := by
  unfold State.snapshot
  refine State.wr_kept _ _ _ (State.wr_kept _ _ _ ?_)
  exact Kept.maps hs rfl (fun c => swf_putsAt _ _ (swf_filter _ c)) id id id id id id rfl rfl

theorem State.pmcSnap_kept {s0 : State} (s : State) (v : Word32) (hs : Kept s0 s) :
    Kept s0 (State.pmcSnap s v) := by
  unfold State.pmcSnap
  try dsimp only
  repeat' with_reducible first
    | assumption
    | apply State.wr_kept
    | apply State.snapshot_kept
    | apply State.raise_kept
    | apply Kept.ite
    | split
    | refine Kept.drop ?_ rfl rfl rfl rfl rfl rfl rfl rfl rfl rfl

theorem State.pmcBwcfg_kept {s0 : State} (s : State) (v : Word32) (hs : Kept s0 s) :
    Kept s0 (State.pmcBwcfg s v) := by
  unfold State.pmcBwcfg
  try dsimp only
  repeat' with_reducible first
    | assumption
    | apply State.fset_kept
    | apply Kept.ite

theorem State.obsSel_kept {s0 : State} (s : State) (k : Nat) (v : Word32) (hs : Kept s0 s) :
    Kept s0 (State.obsSel s k v) := by
  unfold State.obsSel
  try dsimp only
  repeat' with_reducible first
    | assumption
    | apply State.obsJudge_kept
    | apply State.fset_kept

theorem State.tapLoad_kept {s0 : State} (s : State) (code : Byte) (hs : Kept s0 s) :
    Kept s0 (State.tapLoad s code) := by
  unfold State.tapLoad
  try dsimp only
  repeat' with_reducible first
    | assumption
    | apply State.resetDevice_kept
    | apply State.raise_kept
    | apply Kept.ite
    | split
    | refine Kept.drop ?_ rfl rfl rfl rfl rfl rfl rfl rfl rfl rfl

theorem State.dapEnds_kept {s0 : State} (s : State) (err : Bool) (d : Word32) (hs : Kept s0 s) :
    Kept s0 (State.dapEnds s err d) := by
  unfold State.dapEnds
  try dsimp only
  repeat' with_reducible first
    | assumption
    | apply State.drainOld_kept
    | apply State.endStalls_kept
    | apply State.emit_kept
    | apply Kept.ite
    | split
    | refine Kept.drop ?_ rfl rfl rfl rfl rfl rfl rfl rfl rfl rfl

end Sys2Proof.Machine
end

