-- ==== Sys2Proof/Laws/KeptBus.lean ====
section
/-!
SUPPORT. Laws/KeptBus.lean: what `Kept` says of register accesses.
-/

namespace Sys2Proof.Machine

/-! ### Machine/Bus.lean -/

theorem State.actSwitch_kept {s0 : State} (s : State) (v : Word32) (hs : Kept s0 s) :
    Kept s0 (State.actSwitch s v) := by
  unfold State.actSwitch
  try dsimp only
  repeat' with_reducible first
    | assumption
    | apply State.raise_kept
    | apply Kept.ite

theorem State.actCtrl_kept {s0 : State} (s : State) (v : Word32) (hs : Kept s0 s) :
    Kept s0 (State.actCtrl s v) := by
  unfold State.actCtrl
  try dsimp only
  repeat' with_reducible first
    | assumption
    | apply State.wr_kept
    | apply Kept.ite

theorem State.loaderGo_kept {s0 : State} (s : State) (v : Word32) (hs : Kept s0 s) :
    Kept s0 (State.loaderGo s v) := by
  unfold State.loaderGo
  try dsimp only
  repeat' with_reducible first
    | assumption
    | apply State.fset_kept
    | apply State.raise_kept
    | apply Kept.ite
    | refine Kept.drop ?_ rfl rfl rfl rfl rfl rfl rfl rfl rfl rfl

theorem State.plainWrite_kept {s0 : State} (s : State) (row : RegRow) (k : Nat) (v : Word) (hs : Kept s0 s) :
    Kept s0 (State.plainWrite s row k v) := by
  unfold State.plainWrite
  try dsimp only
  repeat' with_reducible first
    | assumption
    | apply State.wr_kept

theorem State.clearLog_kept {s0 : State} (s : State) (r : Nat) (i : Nat) (v : Word) (hs : Kept s0 s) :
    Kept s0 (State.clearLog s r i v) := by
  unfold State.clearLog
  try dsimp only
  repeat' with_reducible first
    | assumption
    | apply State.lower_kept
    | apply Kept.ite

theorem State.writeSys_kept {s0 : State} (s : State) (a : Acc) (row : RegRow) (r : Nat) (v : Word) (hs : Kept s0 s) :
    Kept s0 (State.writeSys s a row r v) := by
  unfold State.writeSys
  try dsimp only
  repeat' with_reducible first
    | assumption
    | apply State.modeReq_kept
    | apply State.bootstat_kept
    | apply State.lcadv_kept
    | apply State.svnFloor_kept
    | apply State.sysRst_kept
    | apply State.reprov_kept
    | apply State.coreCtrl_kept
    | apply State.doorbell_kept
    | apply State.plainWrite_kept
    | apply Kept.ite

theorem State.writeAct_kept {s0 : State} (s : State) (a : Acc) (row : RegRow) (r : Nat) (v : Word) (hs : Kept s0 s) :
    Kept s0 (State.writeAct s a row r v) := by
  unfold State.writeAct
  try dsimp only
  repeat' with_reducible first
    | assumption
    | apply State.actCtrl_kept
    | apply State.actSwitch_kept
    | apply State.clearLog_kept
    | apply State.lower_kept
    | apply State.plainWrite_kept
    | apply Kept.ite
    | split

theorem State.writeSvc_kept {s0 : State} (s : State) (row : RegRow) (r : Nat) (v : Word) (hs : Kept s0 s) :
    Kept s0 (State.writeSvc s row r v) := by
  unfold State.writeSvc
  try dsimp only
  repeat' with_reducible first
    | assumption
    | apply State.wr_kept
    | apply State.portcfg_kept
    | apply State.mgtGo_kept
    | apply State.setRequester_kept
    | apply State.rqFloor_kept
    | apply State.saLoad_kept
    | apply State.setSc_kept
    | apply State.raise_kept
    | apply State.setSa_kept
    | apply State.plainWrite_kept
    | apply Kept.ite
    | split

theorem State.writeAdm_kept {s0 : State} (s : State) (row : RegRow) (r : Nat) (v : Word) (hs : Kept s0 s) :
    Kept s0 (State.writeAdm s row r v) := by
  unfold State.writeAdm
  try dsimp only
  repeat' with_reducible first
    | assumption
    | apply State.raise_kept
    | apply State.plainWrite_kept
    | apply State.recompute_kept
    | apply State.setTeffs_kept
    | apply State.epochSwitch_kept
    | apply State.wr_kept
    | apply State.put_kept
    | apply State.setTeff_kept
    | apply Kept.ite
    | split
    | refine Kept.drop ?_ rfl rfl rfl rfl rfl rfl rfl rfl rfl rfl

theorem State.writeDsp_kept {s0 : State} (s : State) (row : RegRow) (r : Nat) (v : Word) (hs : Kept s0 s) :
    Kept s0 (State.writeDsp s row r v) := by
  unfold State.writeDsp
  try dsimp only
  repeat' with_reducible first
    | assumption
    | apply State.raise_kept
    | apply State.plainWrite_kept
    | apply State.epochSwitch_kept
    | apply State.wr_kept
    | apply State.loaderGo_kept
    | apply State.pslotFree_kept
    | apply State.ireqSubmit_kept
    | apply Kept.ite

theorem State.writeEng_kept {s0 : State} (s : State) (row : RegRow) (r : Nat) (v : Word) (hs : Kept s0 s) :
    Kept s0 (State.writeEng s row r v) := by
  unfold State.writeEng
  try dsimp only
  repeat' with_reducible first
    | assumption
    | apply State.cphRetire_kept
    | apply State.cphReinst_kept
    | apply State.clearLog_kept
    | apply State.mauRetire_kept
    | apply State.mauReinst_kept
    | apply State.wr_kept
    | apply State.plainWrite_kept
    | apply Kept.ite

theorem State.writeKst_kept {s0 : State} (s : State) (row : RegRow) (r : Nat) (v : Word) (hs : Kept s0 s) :
    Kept s0 (State.writeKst s row r v) := by
  unfold State.writeKst
  try dsimp only
  repeat' with_reducible first
    | assumption
    | apply State.kstCmd_kept
    | apply State.fset_kept
    | apply State.setHotLines_kept
    | apply State.wr_kept
    | apply State.plainWrite_kept
    | apply State.clearLog_kept
    | apply Kept.ite

theorem State.writeRng_kept {s0 : State} (s : State) (row : RegRow) (r : Nat) (v : Word) (hs : Kept s0 s) :
    Kept s0 (State.writeRng s row r v) := by
  unfold State.writeRng
  try dsimp only
  repeat' with_reducible first
    | assumption
    | apply State.rngCtrl_kept
    | apply State.rngCutoff_kept
    | apply State.rngFwReq_kept
    | apply State.clearLog_kept
    | apply State.plainWrite_kept
    | apply Kept.ite

theorem State.writeDuo_kept {s0 : State} (s : State) (a : Acc) (row : RegRow) (r : Nat) (v : Word) (hs : Kept s0 s) :
    Kept s0 (State.writeDuo s a row r v) := by
  unfold State.writeDuo
  try dsimp only
  repeat' with_reducible first
    | assumption
    | apply State.duoCtrl_kept
    | apply State.epochClear_kept
    | apply State.duoResync_kept
    | apply State.plainWrite_kept
    | apply Kept.ite

theorem State.writeFlc_kept {s0 : State} (s : State) (row : RegRow) (r : Nat) (v : Word) (hs : Kept s0 s) :
    Kept s0 (State.writeFlc s row r v) := by
  unfold State.writeFlc
  try dsimp only
  repeat' with_reducible first
    | assumption
    | apply State.flcCmd_kept
    | apply State.flcErscfg_kept
    | apply State.clearLog_kept
    | apply State.plainWrite_kept
    | apply Kept.ite

theorem State.writeTmp_kept {s0 : State} (s : State) (a : Acc) (row : RegRow) (r : Nat) (v : Word) (hs : Kept s0 s) :
    Kept s0 (State.writeTmp s a row r v) := by
  unfold State.writeTmp
  try dsimp only
  repeat' with_reducible first
    | assumption
    | apply State.stkyClear_kept
    | apply State.tscSet_kept
    | apply State.bist_kept
    | apply State.srccfg_kept
    | apply State.plainWrite_kept
    | apply Kept.ite

theorem State.writeWck_kept {s0 : State} (s : State) (wick : Bool) (row : RegRow) (r : Nat) (v : Word) (hs : Kept s0 s) :
    Kept s0 (State.writeWck s wick row r v) := by
  unfold State.writeWck
  try dsimp only
  repeat' with_reducible first
    | assumption
    | apply State.wckAct_kept
    | apply State.wckWdog_kept
    | apply State.wr_kept
    | apply State.plainWrite_kept
    | apply State.wckCtrl_kept
    | apply State.ldWrite_kept
    | apply State.wckRuleWrite_kept
    | apply Kept.ite

theorem State.writeFlt_kept {s0 : State} (s : State) (a : Acc) (row : RegRow) (r : Nat) (v : Word) (hs : Kept s0 s) :
    Kept s0 (State.writeFlt s a row r v) := by
  unfold State.writeFlt
  try dsimp only
  repeat' with_reducible first
    | assumption
    | apply State.wr_kept
    | apply State.plainWrite_kept
    | apply State.severeClear_kept
    | apply State.stickyClear_kept
    | apply State.faultForce_kept
    | apply State.faultConfig_kept
    | apply Kept.ite

theorem State.writeCrd_kept {s0 : State} (s : State) (row : RegRow) (r : Nat) (v : Word) (hs : Kept s0 s) :
    Kept s0 (State.writeCrd s row r v) := by
  unfold State.writeCrd
  try dsimp only
  repeat' with_reducible first
    | assumption
    | apply State.crdCtrl_kept
    | apply State.qctrl_kept
    | apply State.rosterCtrl_kept
    | apply State.cardCtrl_kept
    | apply State.cardXfer_kept
    | apply State.plainWrite_kept
    | apply Kept.ite

theorem State.writeTag_kept {s0 : State} (s : State) (row : RegRow) (r : Nat) (v : Word) (hs : Kept s0 s) :
    Kept s0 (State.writeTag s row r v) := by
  unfold State.writeTag
  try dsimp only
  repeat' with_reducible first
    | assumption
    | apply State.tagWcmd_kept
    | apply State.grpSelect_kept
    | apply State.grpApply_kept
    | apply State.grpPw_kept
    | apply State.plainWrite_kept
    | apply Kept.ite

theorem State.writeObs_kept {s0 : State} (s : State) (row : RegRow) (r : Nat) (v : Word) (hs : Kept s0 s) :
    Kept s0 (State.writeObs s row r v) := by
  unfold State.writeObs
  try dsimp only
  repeat' with_reducible first
    | assumption
    | apply State.calApply_kept
    | apply State.pmcSnap_kept
    | apply State.pmcBwcfg_kept
    | apply State.obsSel_kept
    | apply State.plainWrite_kept
    | apply Kept.ite

theorem State.regEffect_kept {s0 : State} (s : State) (a : Acc) (row : RegRow) (r : Nat) (v : Word) (hs : Kept s0 s) :
    Kept s0 (State.regEffect s a row r v) := by
  unfold State.regEffect
  try dsimp only
  repeat' with_reducible first
    | assumption
    | apply State.writeSys_kept
    | apply State.writeAct_kept
    | apply State.writeSvc_kept
    | apply State.writeAdm_kept
    | apply State.writeDsp_kept
    | apply State.writeEng_kept
    | apply State.writeKst_kept
    | apply State.writeRng_kept
    | apply State.writeDuo_kept
    | apply State.writeFlc_kept
    | apply State.writeTmp_kept
    | apply State.writeWck_kept
    | apply State.writeFlt_kept
    | apply State.writeCrd_kept
    | apply State.writeTag_kept
    | apply State.writeObs_kept
    | split

theorem State.wordWrite_kept {s0 : State} (s : State) (a : Acc) (row : RegRow) (addr : Nat) (v : Word32) (hs : Kept s0 s) :
    Kept s0 (State.wordWrite s a row addr v) := by
  unfold State.wordWrite
  try dsimp only
  repeat' with_reducible first
    | assumption
    | apply State.raise_kept
    | apply State.regEffect_kept
    | apply Kept.ite
    | refine Kept.drop ?_ rfl rfl rfl rfl rfl rfl rfl rfl rfl rfl

theorem State.regWrite_kept {s0 : State} (s : State) (a : Acc) (addr : Nat) (v : Word32) (hs : Kept s0 s) :
    Kept s0 (State.regWrite s a addr v).2 := by
  unfold State.regWrite
  try dsimp only
  repeat' with_reducible first
    | assumption
    | apply State.wordWrite_kept
    | apply Kept.ite
    | split

theorem State.readEffect_kept {s0 : State} (s : State) (r : Nat) (hs : Kept s0 s) :
    Kept s0 (State.readEffect s r) := by
  unfold State.readEffect
  try dsimp only
  repeat' with_reducible first
    | assumption
    | apply State.rngFwTaken_kept
    | apply State.omRead_kept
    | apply State.ldNext_kept
    | apply Kept.ite
    | split

theorem State.wordRead_kept {s0 : State} (s : State) (a : Acc) (row : RegRow) (addr : Nat) (hs : Kept s0 s) :
    Kept s0 (State.wordRead s a row addr).2 := by
  unfold State.wordRead
  try dsimp only
  repeat' with_reducible first
    | assumption
    | apply State.rngRawTaken_kept
    | apply State.readEffect_kept
    | apply State.ldRead_kept
    | apply Kept.ite
    | split
    | refine Kept.drop ?_ rfl rfl rfl rfl rfl rfl rfl rfl rfl rfl
    | (dsimp only)

theorem State.regRead_kept {s0 : State} (s : State) (a : Acc) (addr : Nat) (hs : Kept s0 s) :
    Kept s0 (State.regRead s a addr).2 := by
  unfold State.regRead
  try dsimp only
  repeat' with_reducible first
    | assumption
    | apply State.wordRead_kept
    | apply State.ldRead_kept
    | apply Kept.ite
    | split
    | (refine Kept.snd (by assumption) ?_)
    | (dsimp only)

theorem State.anyWrite_kept {s0 : State} (s : State) (a : Acc) (addr : Nat) (n : Nat) (v : Nat) (hs : Kept s0 s) :
    Kept s0 (State.anyWrite s a addr n v).2 := by
  unfold State.anyWrite
  try dsimp only
  repeat' with_reducible first
    | assumption
    | apply State.regWrite_kept
    | apply State.spaceWrite_kept
    | apply State.enter_kept
    | apply State.busWrite_kept
    | apply Kept.ite
    | split
    | (refine Kept.snd (by assumption) ?_)

theorem State.anyRead_kept {s0 : State} (s : State) (a : Acc) (addr : Nat) (n : Nat) (hs : Kept s0 s) :
    Kept s0 (State.anyRead s a addr n).2 := by
  unfold State.anyRead
  try dsimp only
  repeat' with_reducible first
    | assumption
    | apply State.regRead_kept
    | apply State.spaceRead_kept
    | apply State.enter_kept
    | apply State.busRead_kept
    | apply Kept.ite
    | split
    | (refine Kept.snd (by assumption) ?_)

theorem recordRead_kept {s0 : State} (a : Ans Nat) (h : Kept s0 a.2) : Kept s0 (recordRead a) := by
  obtain ⟨r, t⟩ := a
  unfold recordRead
  cases r <;> exact Kept.drop h rfl rfl rfl rfl rfl rfl rfl rfl rfl rfl

/-! ### Machine/BusRows.lean -/

theorem State.dapGives_kept {s0 : State} (s : State) (entered : Bool) (addr : Nat) (r : Except BusErr Nat) (hs : Kept s0 s) :
    Kept s0 (State.dapGives s entered addr r) := by
  unfold State.dapGives
  try dsimp only
  repeat' with_reducible first
    | assumption
    | split
    | (refine Kept.fst (by assumption) ?_)
    | refine Kept.drop ?_ rfl rfl rfl rfl rfl rfl rfl rfl rfl rfl

theorem State.dapAccess_kept {s0 : State} (s : State) (write : Bool) (addr : Nat) (v : Nat) (hs : Kept s0 s) :
    Kept s0 (State.dapAccess s write addr v) := by
  unfold State.dapAccess
  try dsimp only
  repeat' with_reducible first
    | assumption
    | apply State.raise_kept
    | apply State.dapGives_kept
    | apply State.anyWrite_kept
    | apply State.anyRead_kept
    | apply Kept.ite
    | split
    | (refine Kept.snd (by assumption) ?_)

/-! ### Machine/Operands.lean -/

theorem State.setGpr_kept {s0 : State} (s : State) (h : Hart) (i : BitVec 5) (v : Word) (hs : Kept s0 s) :
    Kept s0 (State.setGpr s h i v) := by
  unfold State.setGpr
  try dsimp only
  repeat' with_reducible first
    | assumption
    | apply State.setCore_kept

theorem State.setCap_kept {s0 : State} (s : State) (h : Hart) (i : BitVec 4) (v : Cap) (hs : Kept s0 s) :
    Kept s0 (State.setCap s h i v) := by
  unfold State.setCap
  try dsimp only
  repeat' with_reducible first
    | assumption
    | apply State.setCore_kept

theorem State.dataRead_kept {s0 : State} (s : State) (h : Hart) (perms : BitVec 16) (addr : Nat) (n : Nat) (hs : Kept s0 s) :
    Kept s0 (State.dataRead s h perms addr n).2 := by
  unfold State.dataRead
  try dsimp only
  repeat' with_reducible first
    | assumption
    | apply State.anyRead_kept
    | apply State.spaceRead_kept
    | apply Kept.ite
    | split
    | (refine Kept.snd (by assumption) ?_)

theorem State.settle_kept {s0 : State} (s : State) (h : Hart) (hs : Kept s0 s) :
    Kept s0 (State.settle s h) := by
  unfold State.settle
  try dsimp only
  repeat' with_reducible first
    | assumption
    | apply State.drainBuf_kept
    | split

theorem State.dataWrite_kept {s0 : State} (s : State) (h : Hart) (perms : BitVec 16) (addr : Nat) (bs : List Byte) (tag : optParam Bool false) (hs : Kept s0 s) :
    Kept s0 (State.dataWrite s h perms addr bs tag).2 := by
  unfold State.dataWrite
  try dsimp only
  repeat' with_reducible first
    | assumption
    | apply State.anyWrite_kept
    | apply State.setCore_kept
    | apply State.spaceWrite_kept
    | apply State.settle_kept
    | apply Kept.ite
    | split

end Sys2Proof.Machine
end

