-- ==== Sys2Proof/Laws/KeptWenak.lean ====
section
/-!
SUPPORT. Laws/KeptWenak.lean: what `Kept` says of Wenak instructions.
-/

namespace Sys2Proof.Machine

/-! ### Machine/Exceptions.lean -/

theorem State.accessesOver_kept {s0 : State} (s : State) (h : Hart) (hs : Kept s0 s) :
    Kept s0 (State.accessesOver s h) := by
  unfold State.accessesOver
  try dsimp only
  repeat' with_reducible first
    | assumption
    | apply State.endStalls_kept
    | split

theorem State.readVec_kept {s0 : State} (s : State) (h : Hart) (addr : Nat) (hs : Kept s0 s) :
    Kept s0 (State.readVec s h addr).2 := by
  unfold State.readVec
  try dsimp only
  repeat' with_reducible first
    | assumption
    | apply State.capRead_kept
    | apply State.accessesOver_kept
    | split
    | (dsimp only)
    | (refine Kept.snd (by assumption) ?_)

theorem State.writeFrame_kept {s0 : State} (s : State) (h : Hart) (perms : BitVec 16) (F : Nat) (x5 : List (Nat × List Byte × Bool)) (hs : Kept s0 s) :
    Kept s0 (State.writeFrame s h perms F x5).2 := by
  induction x5 generalizing s h perms F with
  | nil =>
    unfold State.writeFrame
    try dsimp only
    repeat' with_reducible first
      | assumption
  | cons e l ih =>
    unfold State.writeFrame
    try dsimp only
    repeat' with_reducible first
      | assumption
      | apply ih
      | apply State.spaceWrite_kept
      | apply Kept.ite
      | refine Kept.foldl (fun _ _ _ => ?_) ?_
      | split
      | (refine Kept.snd (by assumption) ?_)

theorem State.pushFrame_kept {s0 : State} (s : State) (h : Hart) (c : Core) (st : Cap) (hs : Kept s0 s) :
    Kept s0 (State.pushFrame s h c st).2 := by
  unfold State.pushFrame
  try dsimp only
  repeat' with_reducible first
    | assumption
    | apply State.writeFrame_kept
    | apply Kept.ite
    | split

theorem State.doubleFault_kept {s0 : State} (s : State) (h : Hart) (e : Entry) (hs : Kept s0 s) :
    Kept s0 (State.doubleFault s h e) := by
  unfold State.doubleFault
  try dsimp only
  repeat' with_reducible first
    | assumption
    | apply State.setCore_kept
    | apply State.accessesOver_kept
    | apply State.stopAsked_kept
    | apply State.fset_kept
    | apply State.signal_kept
    | apply State.wickStops_kept
    | split

theorem State.takeFrame_kept {s0 : State} (s : State) (h : Hart) (c : Core) (hs : Kept s0 s) :
    Kept s0 (State.takeFrame s h c).2 := by
  unfold State.takeFrame
  try dsimp only
  repeat' with_reducible first
    | assumption
    | apply State.pushFrame_kept
    | apply State.readVec_kept
    | split
    | (refine Kept.snd (by assumption) ?_)
    | (refine Kept.fst (by assumption) ?_)
    | (dsimp only)

theorem State.entryWaits_kept {s0 : State} (s : State) (h : Hart) (e : Entry) (addr : Nat) (hs : Kept s0 s) :
    Kept s0 (State.entryWaits s h e addr) := by
  unfold State.entryWaits
  try dsimp only
  repeat' with_reducible first
    | assumption
    | apply State.stall_kept
    | split
    | refine Kept.drop ?_ rfl rfl rfl rfl rfl rfl rfl rfl rfl rfl

theorem State.enterAt_kept {s0 : State} (s : State) (h : Hart) (e : Entry) (c : Core) (v : Cap) (hs : Kept s0 s) :
    Kept s0 (State.enterAt s h e c v) := by
  unfold State.enterAt
  try dsimp only
  repeat' with_reducible first
    | assumption
    | apply State.doubleFault_kept
    | apply State.takeFrame_kept
    | apply State.entryWaits_kept
    | apply State.setCore_kept
    | apply State.accessesOver_kept
    | apply Kept.ite
    | split
    | (refine Kept.snd (by assumption) ?_)
    | (refine Kept.fst (by assumption) ?_)

theorem State.enterExc_kept {s0 : State} (s : State) (h : Hart) (e : Entry) (hs : Kept s0 s) :
    Kept s0 (State.enterExc s h e) := by
  unfold State.enterExc
  try dsimp only
  repeat' with_reducible first
    | assumption
    | apply State.settle_kept
    | apply State.doubleFault_kept
    | apply State.readVec_kept
    | apply State.entryWaits_kept
    | apply State.enterAt_kept
    | apply State.takeFrame_kept
    | apply State.setCore_kept
    | apply Kept.ite
    | split
    | (refine Kept.snd (by assumption) ?_)
    | (refine Kept.fst (by assumption) ?_)

theorem State.countSlot_kept {s0 : State} (s : State) (h : Hart) (k : Nat) (hs : Kept s0 s) :
    Kept s0 (State.countSlot s h k) := by
  unfold State.countSlot
  try dsimp only
  repeat' with_reducible first
    | assumption
    | apply State.count_kept
    | split

theorem State.takeExc_kept {s0 : State} (s : State) (h : Hart) (w : Word32) (x : Exc) (hs : Kept s0 s) :
    Kept s0 (State.takeExc s h w x) := by
  unfold State.takeExc
  try dsimp only
  repeat' with_reducible first
    | assumption
    | apply State.countSlot_kept
    | apply State.setCore_kept
    | apply State.svcException_kept
    | apply State.enterExc_kept
    | apply State.fetch_kept
    | apply Kept.ite
    | split
    | refine Kept.drop ?_ rfl rfl rfl rfl rfl rfl rfl rfl rfl rfl

theorem State.raiseExc_kept {s0 : State} (s : State) (h : Hart) (w : Word32) (x : Exc) (hs : Kept s0 s) :
    Kept s0 (State.raiseExc s h w x) := by
  unfold State.raiseExc
  try dsimp only
  repeat' with_reducible first
    | assumption
    | apply State.countSlot_kept
    | apply State.fetch_kept
    | apply State.accessesOver_kept
    | apply State.takeExc_kept
    | apply Kept.ite
    | split

theorem State.fetch_kept {s0 : State} (s : State) (h : Hart) (hs : Kept s0 s) :
    Kept s0 (State.fetch s h).2 := by
  unfold State.fetch
  try dsimp only
  repeat' with_reducible first
    | assumption
    | apply State.spaceRead_kept
    | split
    | (refine Kept.snd (by assumption) ?_)

theorem State.retired_kept {s0 : State} (s : State) (h : Hart) (hs : Kept s0 s) :
    Kept s0 (State.retired s h) := by
  unfold State.retired
  try dsimp only
  repeat' with_reducible first
    | assumption
    | apply State.setCore_kept
    | apply State.accessesOver_kept
    | apply State.countSlot_kept
    | split

theorem Res.finish_kept {s0 : State} (h : Hart) (w : Word32) (r : Res) (hr : KeptR s0 r) : Kept s0 (r.finish h w) := by
  cases r <;> unfold Res.finish <;> dsimp only
  · exact State.retired_kept _ _ (State.setCore_kept _ _ _ hr)
  · exact State.retired_kept _ _ (State.setCore_kept _ _ _ hr)
  · exact State.retired_kept _ _ (State.setCore_kept _ _ _ hr)
  · exact State.raiseExc_kept _ _ _ _ hr
  · exact hr

/-! ### Machine/Array.lean -/

theorem State.retry_kept {s0 : State} (s : State) (x2 : ArrayWait) (hs : Kept s0 s) :
    Kept s0 (State.retry s x2) := by
  unfold State.retry
  try dsimp only
  repeat' with_reducible first
    | assumption
    | apply State.waitsFor_kept
    | apply State.mgtTake_kept
    | apply State.ireqTake_kept
    | apply State.startCore_kept
    | apply State.enterExc_kept
    | apply Kept.ite
    | split

theorem State.retryAll_kept {s0 : State} (s : State) (hs : Kept s0 s) :
    Kept s0 (State.retryAll s) := by
  unfold State.retryAll
  try dsimp only
  repeat' with_reducible first
    | assumption
    | apply State.retry_kept
    | refine Kept.foldl (fun _ _ _ => ?_) ?_
    | split
    | refine Kept.drop ?_ rfl rfl rfl rfl rfl rfl rfl rfl rfl rfl

theorem State.flcEvent_kept {s0 : State} (s : State) (ok : Bool) (hs : Kept s0 s) :
    Kept s0 (State.flcEvent s ok) := by
  unfold State.flcEvent
  try dsimp only
  repeat' with_reducible first
    | assumption
    | apply State.programEnds_kept
    | apply State.eraseEnds_kept
    | apply State.copyEnds_kept
    | apply State.otpEnds_kept
    | split

/-! ### Machine/WenakEng.lean -/

theorem withCtx_kept {s0 : State} (h : Hart) (s : State) (g : Fin 64 → Nat → Res) (hs : Kept s0 s) (hg : ∀ k c, KeptR s0 (g k c)) :
    KeptR s0 (withCtx h s g) := by
  unfold withCtx
  try dsimp only
  repeat' with_reducible first
    | assumption
    | apply hg
    | refine KeptR.stays ?_
    | split

theorem State.setTicket_kept {s0 : State} (s : State) (c : Nat) (t : Nat) (x : Ticket) (hs : Kept s0 s) :
    Kept s0 (State.setTicket s c t x) := by
  unfold State.setTicket
  try dsimp only
  repeat' with_reducible first
    | assumption
    | apply State.setCtx_kept

theorem State.issue_kept {s0 : State} (s : State) (e : EngCmd) (hs : Kept s0 s) :
    Kept s0 (State.issue s e) := by
  unfold State.issue
  try dsimp only
  repeat' with_reducible first
    | assumption
    | apply State.setTicket_kept
    | split
    | refine Kept.drop ?_ rfl rfl rfl rfl rfl rfl rfl rfl rfl rfl

theorem State.park_kept {s0 : State} (s : State) (c : Nat) (t : Nat) (rd : BitVec 5) (hs : Kept s0 s) :
    Kept s0 (State.park s c t rd) := by
  unfold State.park
  try dsimp only
  repeat' with_reducible first
    | assumption
    | apply State.scEnds_kept
    | apply State.setCtx_kept

theorem State.takeWord_kept {s0 : State} (s : State) (h : Hart) (c : Nat) (t : Nat) (rd : BitVec 5) (w : Word) (hs : Kept s0 s) :
    Kept s0 (State.takeWord s h c t rd w) := by
  unfold State.takeWord
  try dsimp only
  repeat' with_reducible first
    | assumption
    | apply State.setTicket_kept
    | apply State.setGpr_kept
    | apply State.setCtx_kept

/-! ### Machine/Loader.lean -/

theorem State.loadEnds_kept {s0 : State} (s : State) (err : Nat) (index : Nat) (hs : Kept s0 s) :
    Kept s0 (State.loadEnds s err index) := by
  unfold State.loadEnds
  try dsimp only
  repeat' with_reducible first
    | assumption
    | apply State.lower_kept
    | apply State.endStalls_kept
    | apply State.fset_kept
    | apply State.raise_kept
    | apply Kept.ite
    | split
    | refine Kept.drop ?_ rfl rfl rfl rfl rfl rfl rfl rfl rfl rfl

theorem State.fillSlot_kept {s0 : State} (s : State) (slot : Nat) (im : Image) (hs : Kept s0 s) :
    Kept s0 (State.fillSlot s slot im) := by
  unfold State.fillSlot
  dsimp only
  refine Kept.maps (t := s) hs rfl id id id (fun c => ?_) ?_ id id rfl rfl
  · exact prvWrite_wf _ (prvWrite_wf _ c _) _
  · exact id

theorem State.loadImage_kept {s0 : State} (s : State) (src : Nat) (slot : Nat) (hs : Kept s0 s) :
    Kept s0 (State.loadImage s src slot) := by
  unfold State.loadImage
  try dsimp only
  repeat' with_reducible first
    | assumption
    | apply State.loadEnds_kept
    | apply State.emptySlot_kept
    | apply State.readBlock_kept
    | apply State.fillSlot_kept
    | apply State.drawn_kept
    | apply Kept.ite
    | split
    | (refine Kept.snd (by assumption) ?_)
    | (refine Kept.fst (by assumption) ?_)

/-! ### Machine/WenakCap.lean -/

theorem State.givesCap_kept {s0 : State} (s : State) (h : Hart) (x : BitVec 4) (c : Cap) (hs : Kept s0 s) :
    KeptR s0 (State.givesCap s h x c) := by
  unfold State.givesCap
  try dsimp only
  repeat' with_reducible first
    | assumption
    | apply State.setCap_kept
    | refine KeptR.seq ?_

theorem capInfo_kept {s0 : State} (h : Hart) (f : FmtC) (g : Cap → Nat) (s : State) (hs : Kept s0 s) :
    KeptR s0 (capInfo h f g s) := by
  unfold capInfo
  try dsimp only
  repeat' with_reducible first
    | assumption
    | apply State.setGpr_kept
    | refine KeptR.seq ?_

/-! ### Machine/WenakCtl.lean -/

theorem jumpTo_kept {s0 : State} (h : Hart) (link : Option (BitVec 5)) (t : ℤ) (s : State) (hs : Kept s0 s) :
    KeptR s0 (jumpTo h link t s) := by
  unfold jumpTo
  try dsimp only
  repeat' with_reducible first
    | assumption
    | apply State.setGpr_kept
    | refine KeptR.branch ?_
    | refine KeptR.raises ?_
    | split

theorem branchIf_kept {s0 : State} (h : Hart) (f : FmtB) (p : Word → Word → Bool) (s : State) (hs : Kept s0 s) :
    KeptR s0 (branchIf h f p s) := by
  unfold branchIf
  try dsimp only
  repeat' with_reducible first
    | assumption
    | apply jumpTo_kept
    | apply KeptR.ite
    | refine KeptR.branch ?_

theorem switchTo_kept {s0 : State} (h : Hart) (entry : Cap) (data : Cap) (s : State) (hs : Kept s0 s) :
    KeptR s0 (switchTo h entry data s) := by
  unfold switchTo
  try dsimp only
  repeat' with_reducible first
    | assumption
    | apply State.setCore_kept
    | refine KeptR.switch ?_

theorem enterGate_kept {s0 : State} (h : Hart) (g : Cap) (s : State) (hs : Kept s0 s) :
    KeptR s0 (enterGate h g s) := by
  unfold enterGate
  try dsimp only
  repeat' with_reducible first
    | assumption
    | apply State.capRead_kept
    | apply switchTo_kept
    | apply KeptR.ite
    | refine KeptR.raises ?_
    | apply Kept.ite
    | split
    | (refine Kept.snd (by assumption) ?_)

theorem settled_kept {s0 : State} (h : Hart) (s : State) (f : State → Res) (hs : Kept s0 s) (hf : ∀ t, Kept s0 t → KeptR s0 (f t)) :
    KeptR s0 (settled h s f) := by
  unfold settled
  try dsimp only
  repeat' with_reducible first
    | assumption
    | apply State.settle_kept
    | apply State.accessesOver_kept
    | apply hf
    | apply KeptR.ite
    | refine KeptR.stays ?_

/-! ### Machine/WenakInt.lean -/

theorem State.gives_kept {s0 : State} (s : State) (h : Hart) (rd : BitVec 5) (v : Word) (hs : Kept s0 s) :
    KeptR s0 (State.gives s h rd v) := by
  unfold State.gives
  try dsimp only
  repeat' with_reducible first
    | assumption
    | apply State.setGpr_kept
    | refine KeptR.seq ?_

theorem opA_kept {s0 : State} (h : Hart) (f : FmtA) (g : Word → Word → Word) (s : State) (hs : Kept s0 s) :
    KeptR s0 (opA h f g s) := by
  unfold opA
  try dsimp only
  repeat' with_reducible first
    | assumption
    | apply State.gives_kept

theorem opI_kept {s0 : State} (h : Hart) (f : FmtI) (g : Word → BitVec 16 → Word) (s : State) (hs : Kept s0 s) :
    KeptR s0 (opI h f g s) := by
  unfold opI
  try dsimp only
  repeat' with_reducible first
    | assumption
    | apply State.gives_kept

theorem moveIf_kept {s0 : State} (h : Hart) (f : FmtA) (p : Word → Bool) (s : State) (hs : Kept s0 s) :
    KeptR s0 (moveIf h f p s) := by
  unfold moveIf
  try dsimp only
  repeat' with_reducible first
    | assumption
    | apply State.gives_kept
    | apply KeptR.ite
    | refine KeptR.seq ?_

theorem divide_kept {s0 : State} (h : Hart) (f : FmtA) (g : Word → Word → Word) (s : State) (hs : Kept s0 s) :
    KeptR s0 (divide h f g s) := by
  unfold divide
  try dsimp only
  repeat' with_reducible first
    | assumption
    | apply State.gives_kept
    | apply KeptR.ite
    | refine KeptR.raises ?_

theorem checked_kept {s0 : State} (h : Hart) (f : FmtA) (g : ℤ → ℤ → ℤ) (s : State) (hs : Kept s0 s) :
    KeptR s0 (checked h f g s) := by
  unfold checked
  try dsimp only
  repeat' with_reducible first
    | assumption
    | apply State.gives_kept
    | apply KeptR.ite
    | refine KeptR.raises ?_

theorem opShift_kept {s0 : State} (h : Hart) (f : FmtShift) (g : Word → Nat → Word) (s : State) (hs : Kept s0 s) :
    KeptR s0 (opShift h f g s) := by
  unfold opShift
  try dsimp only
  repeat' with_reducible first
    | assumption
    | apply State.gives_kept

/-! ### Machine/WenakMem.lean -/

theorem loadOp_kept {s0 : State} (h : Hart) (f : FmtM) (n : Nat) (ext : Nat → Word) (s : State) (hs : Kept s0 s) :
    KeptR s0 (loadOp h f n ext s) := by
  unfold loadOp
  try dsimp only
  repeat' with_reducible first
    | assumption
    | apply State.dataRead_kept
    | apply State.setGpr_kept
    | refine KeptR.seq ?_
    | refine KeptR.raises ?_
    | split
    | (refine Kept.snd (by assumption) ?_)

theorem storeOp_kept {s0 : State} (h : Hart) (f : FmtM) (n : Nat) (s : State) (hs : Kept s0 s) :
    KeptR s0 (storeOp h f n s) := by
  unfold storeOp
  try dsimp only
  repeat' with_reducible first
    | assumption
    | apply State.dataWrite_kept
    | refine KeptR.seq ?_
    | refine KeptR.raises ?_
    | split
    | (refine Kept.snd (by assumption) ?_)

theorem State.rmw_kept {s0 : State} (s : State) (h : Hart) (perms : BitVec 16) (ea : Nat) (upd : Word → Word) (hs : Kept s0 s) :
    Kept s0 (State.rmw s h perms ea upd).2 := by
  unfold State.rmw
  try dsimp only
  repeat' with_reducible first
    | assumption
    | apply State.enter_kept
    | apply State.eccRead_kept
    | apply State.storeBytes_kept
    | apply Kept.ite
    | split
    | (refine Kept.snd (by assumption) ?_)
    | (dsimp only)

theorem amoOp_kept {s0 : State} (h : Hart) (f : FmtT) (upd : Word → Word → Word → Word) (s : State) (hs : Kept s0 s) :
    KeptR s0 (amoOp h f upd s) := by
  unfold amoOp
  try dsimp only
  repeat' with_reducible first
    | assumption
    | apply State.rmw_kept
    | apply State.settle_kept
    | apply State.setGpr_kept
    | refine KeptR.seq ?_
    | refine KeptR.raises ?_
    | split
    | (refine Kept.snd (by assumption) ?_)

theorem State.tableWord_kept {s0 : State} (s : State) (h : Hart) (ct : Cap) (ea : Nat) (hs : Kept s0 s) :
    Kept s0 (State.tableWord s h ct ea).2 := by
  unfold State.tableWord
  try dsimp only
  repeat' with_reducible first
    | assumption
    | apply State.dataRead_kept
    | split
    | (refine Kept.snd (by assumption) ?_)

theorem State.tableWords_kept {s0 : State} (s : State) (h : Hart) (ct : Cap) (ea : Nat) (x5 : Nat) (hs : Kept s0 s) :
    Kept s0 (State.tableWords s h ct ea x5).2 := by
  induction x5 generalizing s h ct ea with
  | zero =>
    unfold State.tableWords
    try dsimp only
    repeat' with_reducible first
      | assumption
  | succ k ih =>
    unfold State.tableWords
    try dsimp only
    repeat' with_reducible first
      | assumption
      | apply ih
      | apply State.tableWord_kept
      | apply Kept.ite
      | refine Kept.foldl (fun _ _ _ => ?_) ?_
      | split
      | (refine Kept.snd (by assumption) ?_)

/-! ### Machine/WenakSys.lean -/

theorem State.frameWord_kept {s0 : State} (s : State) (h : Hart) (perms : BitVec 16) (a : Nat) (hs : Kept s0 s) :
    Kept s0 (State.frameWord s h perms a).2 := by
  unfold State.frameWord
  try dsimp only
  repeat' with_reducible first
    | assumption
    | apply State.spaceRead_kept
    | split
    | (refine Kept.snd (by assumption) ?_)

theorem State.frameWords_kept {s0 : State} (s : State) (h : Hart) (perms : BitVec 16) (a : Nat) (x5 : Nat) (hs : Kept s0 s) :
    Kept s0 (State.frameWords s h perms a x5).2 := by
  induction x5 generalizing s h perms a with
  | zero =>
    unfold State.frameWords
    try dsimp only
    repeat' with_reducible first
      | assumption
  | succ k ih =>
    unfold State.frameWords
    try dsimp only
    repeat' with_reducible first
      | assumption
      | apply ih
      | apply State.frameWord_kept
      | apply Kept.ite
      | refine Kept.foldl (fun _ _ _ => ?_) ?_
      | split
      | (refine Kept.snd (by assumption) ?_)

theorem restoreFrame_kept {s0 : State} (h : Hart) (F : Nat) (s : State) (hs : Kept s0 s) :
    KeptR s0 (restoreFrame h F s) := by
  unfold restoreFrame
  try dsimp only
  repeat' with_reducible first
    | assumption
    | apply State.capRead_kept
    | apply State.frameWords_kept
    | apply State.setCore_kept
    | apply KeptR.ite
    | refine KeptR.switch ?_
    | refine KeptR.raises ?_
    | apply Kept.ite
    | split
    | (refine Kept.snd (by assumption) ?_)

theorem State.frameStack_kept {s0 : State} (s : State) (h : Hart) (hs : Kept s0 s) :
    Kept s0 (State.frameStack s h).2 := by
  unfold State.frameStack
  try dsimp only
  repeat' with_reducible first
    | assumption
    | apply State.readVec_kept
    | apply State.capRead_kept
    | apply Kept.ite
    | split

theorem eretOp_kept {s0 : State} (h : Hart) (s : State) (hs : Kept s0 s) :
    KeptR s0 (eretOp h s) := by
  unfold eretOp
  try dsimp only
  repeat' with_reducible first
    | assumption
    | apply State.frameStack_kept
    | apply restoreFrame_kept
    | apply KeptR.ite
    | refine KeptR.raises ?_
    | apply Kept.ite
    | split
    | (refine Kept.snd (by assumption) ?_)

theorem State.endOp_kept {s0 : State} (s : State) (c : Nat) (k : Fin 64) (hs : Kept s0 s) :
    Kept s0 (State.endOp s c k) := by
  unfold State.endOp
  try dsimp only
  repeat' with_reducible first
    | assumption
    | apply State.endRun_kept
    | apply State.countSlot_kept

end Sys2Proof.Machine
end

