-- ==== Sys2Proof/Laws/KeptExec.lean ====
section
/-!
SUPPORT. Laws/KeptExec.lean: what each command keeps (Laws/Kept.lean): one lemma for each meaning.
-/

namespace Sys2Proof.Machine

theorem timed_kept {s0 : State} {dt : Nat} {c : State → Bool} {s : State} {f : State → State} (hs : Kept s0 s)
    (hf : ∀ t, Kept s0 t → Kept s0 (f t)) : ∀ u, timed dt c s f = .next u → Kept s0 u :=
  event_kept (State.elapse_kept s dt hs) hf

theorem execRefusalResponseDrop_kept {s0 : State} (dt : Nat) (port : Fin 4) (s : State) (hs : Kept s0 s) :
    ∀ wz, execRefusalResponseDrop dt port s = .next wz → Kept s0 wz := by
  intro wz hu
  cases hu
  try dsimp only
  repeat' with_reducible first
    | assumption
    | apply State.dropRefusal_kept
    | apply State.elapse_kept

theorem execAdmDecision_kept {s0 : State} (dt : Nat) (c : Fin 8192) (s : State) (hs : Kept s0 s) :
    ∀ wz, execAdmDecision dt c s = .next wz → Kept s0 wz := by
  intro wz hu
  cases hu
  try dsimp only
  repeat' with_reducible first
    | assumption
    | apply State.admNext_kept
    | apply State.elapse_kept

theorem execEntryOverrun_kept {s0 : State} (dt : Nat) (c : Fin 8192) (s : State) (hs : Kept s0 s) :
    ∀ wz, execEntryOverrun dt c s = .next wz → Kept s0 wz := by
  unfold execEntryOverrun
  refine timed_kept ?_ (fun _ _ => ?_)
  all_goals try dsimp only
  repeat' with_reducible first
    | assumption
    | apply State.cancel_kept

theorem execTempoStale_kept {s0 : State} (dt : Nat) (p : Fin 3) (s : State) (hs : Kept s0 s) :
    ∀ wz, execTempoStale dt p s = .next wz → Kept s0 wz := by
  unfold execTempoStale
  refine timed_kept ?_ (fun _ _ => ?_)
  all_goals try dsimp only
  repeat' with_reducible first
    | assumption
    | apply State.setTeff_kept
    | apply State.setStale_kept
    | apply State.reportStale_kept

theorem execTaperReading_kept {s0 : State} (dt : Nat) (sc : Word32) (cph : Word32) (mau : Word32) (s : State) (hs : Kept s0 s) :
    ∀ wz, execTaperReading dt sc cph mau s = .next wz → Kept s0 wz := by
  unfold execTaperReading
  refine timed_kept ?_ (fun _ _ => ?_)
  all_goals try dsimp only
  repeat' with_reducible first
    | assumption
    | apply State.taper_kept

theorem execActivityWindowEnd_kept {s0 : State} (dt : Nat) (sc : BitVec 17) (cph : BitVec 17) (mau : BitVec 17) (s : State) (hs : Kept s0 s) :
    ∀ wz, execActivityWindowEnd dt sc cph mau s = .next wz → Kept s0 wz := by
  unfold execActivityWindowEnd
  refine timed_kept ?_ (fun _ _ => ?_)
  all_goals try dsimp only
  repeat' with_reducible first
    | assumption
    | apply State.activity_kept

theorem execFetchComplete_kept {s0 : State} (dt : Nat) (c : Fin 8192) (ok : Bool) (s : State) (hs : Kept s0 s) :
    ∀ wz, execFetchComplete dt c ok s = .next wz → Kept s0 wz := by
  unfold execFetchComplete
  refine timed_kept ?_ (fun _ _ => ?_)
  all_goals try dsimp only
  repeat' with_reducible first
    | assumption
    | apply State.fetchEnds_kept

theorem execBestEffortFetchDone_kept {s0 : State} (dt : Nat) (ok : Bool) (s : State) (hs : Kept s0 s) :
    ∀ wz, execBestEffortFetchDone dt ok s = .next wz → Kept s0 wz := by
  intro wz hu
  cases hu
  try dsimp only
  repeat' with_reducible first
    | assumption
    | apply State.bestEffortEnds_kept
    | apply State.elapse_kept

theorem execStageStart_kept {s0 : State} (dt : Nat) (p : Fin 3) (s : State) (hs : Kept s0 s) :
    ∀ wz, execStageStart dt p s = .next wz → Kept s0 wz := by
  intro wz hu
  cases hu
  try dsimp only
  repeat' with_reducible first
    | assumption
    | apply State.elapse_kept
    | apply State.mirStart_kept
    | apply State.fetchStart_kept
    | apply Kept.ite

theorem execContextDispatch_kept {s0 : State} (dt : Nat) (k : Fin 64) (s : State) (hs : Kept s0 s) :
    ∀ wz, execContextDispatch dt k s = .next wz → Kept s0 wz := by
  unfold execContextDispatch
  refine timed_kept ?_ (fun _ _ => ?_)
  all_goals try dsimp only
  repeat' with_reducible first
    | assumption
    | apply State.dispatch_kept

theorem execResponseGrant_kept {s0 : State} (dt : Nat) (port : Fin 4) (s : State) (hs : Kept s0 s) :
    ∀ wz, execResponseGrant dt port s = .next wz → Kept s0 wz := by
  unfold execResponseGrant
  refine timed_kept ?_ (fun _ _ => ?_)
  all_goals try dsimp only
  repeat' with_reducible first
    | assumption
    | apply State.flushRefusals_kept
    | apply State.grant_kept
    | apply Kept.ite
    | split

theorem execIreqResponseWritten_kept {s0 : State} (dt : Nat) (c : Fin 8192) (s : State) (hs : Kept s0 s) :
    ∀ wz, execIreqResponseWritten dt c s = .next wz → Kept s0 wz := by
  unfold execIreqResponseWritten
  refine timed_kept ?_ (fun _ _ => ?_)
  all_goals try dsimp only
  repeat' with_reducible first
    | assumption
    | apply State.writeRing_kept

theorem execEpochSwitchDone_kept {s0 : State} (dt : Nat) (s : State) (hs : Kept s0 s) :
    ∀ wz, execEpochSwitchDone dt s = .next wz → Kept s0 wz := by
  unfold execEpochSwitchDone
  refine timed_kept ?_ (fun _ _ => ?_)
  all_goals try dsimp only
  repeat' with_reducible first
    | assumption
    | apply State.switchEnds_kept

theorem execLinkStateChange_kept {s0 : State} (dt : Nat) (port : Fin 4) (up : Bool) (s : State) (hs : Kept s0 s) :
    ∀ wz, execLinkStateChange dt port up s = .next wz → Kept s0 wz := by
  unfold execLinkStateChange
  refine timed_kept ?_ (fun _ _ => ?_)
  all_goals try dsimp only
  repeat' with_reducible first
    | assumption
    | apply State.linkCause_kept
    | apply State.setLink_kept

theorem execRefclkLoss_kept {s0 : State} (dt : Nat) (mem : Bool) (s : State) (hs : Kept s0 s) :
    ∀ wz, execRefclkLoss dt mem s = .next wz → Kept s0 wz := by
  intro wz hu
  cases hu
  exact State.setRefclk_kept _ _ _ (State.elapse_kept _ _ hs)

theorem execRefclkRestore_kept {s0 : State} (dt : Nat) (mem : Bool) (s : State) (hs : Kept s0 s) :
    ∀ wz, execRefclkRestore dt mem s = .next wz → Kept s0 wz := by
  intro wz hu
  cases hu
  exact State.setRefclk_kept _ _ _ (State.elapse_kept _ _ hs)

theorem execServiceCoreHang_kept {s0 : State} (dt : Nat) (k : Fin 64) (s : State) (hs : Kept s0 s) :
    ∀ wz, execServiceCoreHang dt k s = .next wz → Kept s0 wz := by
  unfold execServiceCoreHang
  refine timed_kept ?_ (fun _ _ => ?_)
  all_goals try dsimp only
  repeat' with_reducible first
    | assumption
    | apply State.signal_kept

theorem execMgtTxDone_kept {s0 : State} (dt : Nat) (s : State) (hs : Kept s0 s) :
    ∀ wz, execMgtTxDone dt s = .next wz → Kept s0 wz := by
  intro wz hu
  cases hu
  try dsimp only
  repeat' with_reducible first
    | assumption
    | apply State.mgtDone_kept
    | apply State.elapse_kept

theorem execFrameReceive_kept {s0 : State} (dt : Nat) (port : Fin 4) (f : RxFrame) (s : State) (hs : Kept s0 s) :
    ∀ wz, execFrameReceive dt port f s = .next wz → Kept s0 wz := by
  unfold execFrameReceive
  refine timed_kept ?_ (fun _ _ => ?_)
  all_goals try dsimp only
  repeat' with_reducible first
    | assumption
    | apply State.receive_kept

theorem execSaLoadDone_kept {s0 : State} (dt : Nat) (s : State) (hs : Kept s0 s) :
    ∀ wz, execSaLoadDone dt s = .next wz → Kept s0 wz := by
  unfold execSaLoadDone
  refine timed_kept ?_ (fun _ _ => ?_)
  all_goals try dsimp only
  repeat' with_reducible first
    | assumption
    | apply State.saLoaded_kept

theorem execCphCommandStart_kept {s0 : State} (dt : Nat) (u : Fin 18) (s : State) (hs : Kept s0 s) :
    ∀ wz, execCphCommandStart dt u s = .next wz → Kept s0 wz := by
  unfold execCphCommandStart
  refine timed_kept ?_ (fun _ _ => ?_)
  all_goals try dsimp only
  repeat' with_reducible first
    | assumption
    | apply State.cphStart_kept

theorem execCphCompletion_kept {s0 : State} (dt : Nat) (u : Fin 18) (agree : Bool) (s : State) (hs : Kept s0 s) :
    ∀ wz, execCphCompletion dt u agree s = .next wz → Kept s0 wz := by
  unfold execCphCompletion
  refine timed_kept ?_ (fun _ _ => ?_)
  all_goals try dsimp only
  repeat' with_reducible first
    | assumption
    | apply State.cphDone_kept
    | apply State.cphMismatch_kept
    | apply Kept.ite
    | split

theorem execCphSpareTakeover_kept {s0 : State} (dt : Nat) (u : Fin 18) (s : State) (hs : Kept s0 s) :
    ∀ wz, execCphSpareTakeover dt u s = .next wz → Kept s0 wz := by
  unfold execCphSpareTakeover
  refine timed_kept ?_ (fun _ _ => ?_)
  all_goals try dsimp only
  repeat' with_reducible first
    | assumption
    | apply State.shrinkFrom_kept
    | apply State.cphRole_kept
    | split
    | refine Kept.drop ?_ rfl rfl rfl rfl rfl rfl rfl rfl rfl rfl

theorem execCphBistDone_kept {s0 : State} (dt : Nat) (pass : Bool) (s : State) (hs : Kept s0 s) :
    ∀ wz, execCphBistDone dt pass s = .next wz → Kept s0 wz := by
  unfold execCphBistDone
  refine timed_kept ?_ (fun _ _ => ?_)
  all_goals try dsimp only
  repeat' with_reducible first
    | assumption
    | apply State.setCph_kept
    | apply State.put_kept
    | apply State.lower_kept
    | apply State.putUnit_kept
    | apply State.raise_kept
    | apply Kept.ite

theorem execMauReseedRequest_kept {s0 : State} (dt : Nat) (u : Fin 136) (s : State) (hs : Kept s0 s) :
    ∀ wz, execMauReseedRequest dt u s = .next wz → Kept s0 wz := by
  unfold execMauReseedRequest
  refine timed_kept ?_ (fun _ _ => ?_)
  all_goals try dsimp only
  repeat' with_reducible first
    | assumption
    | apply State.setMau_kept

theorem execMauCommandStart_kept {s0 : State} (dt : Nat) (u : Fin 136) (s : State) (hs : Kept s0 s) :
    ∀ wz, execMauCommandStart dt u s = .next wz → Kept s0 wz := by
  unfold execMauCommandStart
  refine timed_kept ?_ (fun _ _ => ?_)
  all_goals try dsimp only
  repeat' with_reducible first
    | assumption
    | apply State.mauStart_kept

theorem execMauCompletion_kept {s0 : State} (dt : Nat) (u : Fin 136) (chk : Fin 3) (s : State) (hs : Kept s0 s) :
    ∀ wz, execMauCompletion dt u chk s = .next wz → Kept s0 wz := by
  intro wz hu
  cases hu
  try dsimp only
  repeat' with_reducible first
    | assumption
    | apply State.elapse_kept
    | apply State.mauDone_kept
    | apply Kept.ite
    | split

theorem execMauAbortIdle_kept {s0 : State} (dt : Nat) (u : Fin 136) (s : State) (hs : Kept s0 s) :
    ∀ wz, execMauAbortIdle dt u s = .next wz → Kept s0 wz := by
  unfold execMauAbortIdle
  refine timed_kept ?_ (fun _ _ => ?_)
  all_goals try dsimp only
  repeat' with_reducible first
    | assumption
    | apply State.countBusy_kept
    | apply State.setMau_kept
    | apply State.reseed_kept
    | split

theorem execMauMigrationDone_kept {s0 : State} (dt : Nat) (u : Fin 136) (ok : Bool) (s : State) (hs : Kept s0 s) :
    ∀ wz, execMauMigrationDone dt u ok s = .next wz → Kept s0 wz := by
  intro wz hu
  cases hu
  try dsimp only
  repeat' with_reducible first
    | assumption
    | apply State.elapse_kept
    | apply State.migrated_kept
    | split

theorem execMauBistDone_kept {s0 : State} (dt : Nat) (pass : Bool) (s : State) (hs : Kept s0 s) :
    ∀ wz, execMauBistDone dt pass s = .next wz → Kept s0 wz := by
  unfold execMauBistDone
  refine timed_kept ?_ (fun _ _ => ?_)
  all_goals try dsimp only
  repeat' with_reducible first
    | assumption
    | apply State.setMau_kept
    | apply State.put_kept
    | apply State.lower_kept
    | apply State.putMau_kept
    | apply State.raise_kept
    | apply Kept.ite

theorem execWindowSetEnd_kept {s0 : State} (dt : Nat) (w : RngWindow) (s : State) (hs : Kept s0 s) :
    ∀ wz, execWindowSetEnd dt w s = .next wz → Kept s0 wz := by
  unfold execWindowSetEnd
  refine timed_kept ?_ (fun _ _ => ?_)
  all_goals try dsimp only
  repeat' with_reducible first
    | assumption
    | apply State.showRaw_kept
    | apply State.windowBegins_kept
    | apply State.raise_kept
    | apply State.captureCell_kept
    | apply State.signal_kept
    | apply State.count_kept
    | apply State.releaseBlocks_kept
    | apply Kept.ite
    | split

theorem execStartupTestEnd_kept {s0 : State} (dt : Nat) (w : RngWindow) (s : State) (hs : Kept s0 s) :
    ∀ wz, execStartupTestEnd dt w s = .next wz → Kept s0 wz := by
  unfold execStartupTestEnd
  refine timed_kept ?_ (fun _ _ => ?_)
  all_goals try dsimp only
  repeat' with_reducible first
    | assumption
    | apply State.startupWindow_kept
    | apply State.bootFails_kept
    | apply Kept.ite
    | split

theorem execRngBlockGrant_kept {s0 : State} (dt : Nat) (s : State) (hs : Kept s0 s) :
    ∀ wz, execRngBlockGrant dt s = .next wz → Kept s0 wz := by
  intro wz hu
  cases hu
  try dsimp only
  repeat' with_reducible first
    | assumption
    | apply State.elapse_kept
    | apply State.giveBlock_kept
    | apply State.setBuffer_kept
    | apply Kept.ite
    | split

theorem execServiceDrawExpiry_kept {s0 : State} (dt : Nat) (c : Fin 8192) (s : State) (hs : Kept s0 s) :
    ∀ wz, execServiceDrawExpiry dt c s = .next wz → Kept s0 wz := by
  unfold execServiceDrawExpiry
  refine timed_kept ?_ (fun _ _ => ?_)
  all_goals try dsimp only
  repeat' with_reducible first
    | assumption
    | apply State.cancelDraw_kept

theorem execKstCmdComplete_kept {s0 : State} (dt : Nat) (ok : Bool) (s : State) (hs : Kept s0 s) :
    ∀ wz, execKstCmdComplete dt ok s = .next wz → Kept s0 wz := by
  intro wz hu
  cases hu
  try dsimp only
  repeat' with_reducible first
    | assumption
    | apply State.elapse_kept
    | apply State.cmdPin_kept
    | apply State.cmdUnpin_kept
    | apply State.cmdPrefetch_kept
    | apply State.cmdEvict_kept
    | apply State.takeCheckpoint_kept
    | apply State.cmdEnds_kept
    | apply State.cmdImport_kept
    | apply Kept.ite
    | split
    | (refine Kept.snd (by assumption) ?_)

theorem execCheckpointTimer_kept {s0 : State} (dt : Nat) (s : State) (hs : Kept s0 s) :
    ∀ wz, execCheckpointTimer dt s = .next wz → Kept s0 wz := by
  unfold execCheckpointTimer
  refine timed_kept ?_ (fun _ _ => ?_)
  all_goals try dsimp only
  repeat' with_reducible first
    | assumption
    | apply Kept.ite
    | split
    | refine Kept.drop ?_ rfl rfl rfl rfl rfl rfl rfl rfl rfl rfl

theorem execCheckpointDone_kept {s0 : State} (dt : Nat) (ok : Bool) (s : State) (hs : Kept s0 s) :
    ∀ wz, execCheckpointDone dt ok s = .next wz → Kept s0 wz := by
  unfold execCheckpointDone
  refine timed_kept ?_ (fun _ _ => ?_)
  all_goals try dsimp only
  repeat' with_reducible first
    | assumption
    | apply State.takeCheckpoint_kept
    | apply Kept.ite
    | split
    | refine Kept.drop ?_ rfl rfl rfl rfl rfl rfl rfl rfl rfl rfl

theorem execLogFrameProgrammed_kept {s0 : State} (dt : Nat) (s : State) (hs : Kept s0 s) :
    ∀ wz, execLogFrameProgrammed dt s = .next wz → Kept s0 wz := by
  unfold execLogFrameProgrammed
  refine timed_kept ?_ (fun _ _ => ?_)
  all_goals try dsimp only
  repeat' with_reducible first
    | assumption
    | apply State.logProgrammed_kept
    | apply State.resyncApply_kept
    | apply State.applyJournal_kept
    | apply State.journalDone_kept
    | apply State.drain_kept
    | apply State.trySync_kept
    | apply State.sendMack_kept
    | apply Kept.ite
    | split

theorem execLogstallResume_kept {s0 : State} (dt : Nat) (s : State) (hs : Kept s0 s) :
    ∀ wz, execLogstallResume dt s = .next wz → Kept s0 wz := by
  unfold execLogstallResume
  refine timed_kept ?_ (fun _ _ => ?_)
  all_goals try dsimp only
  repeat' with_reducible first
    | assumption
    | apply State.resumeCommit_kept
    | split

theorem execHotRegionRefresh_kept {s0 : State} (dt : Nat) (n : BitVec 20) (s : State) (hs : Kept s0 s) :
    ∀ wz, execHotRegionRefresh dt n s = .next wz → Kept s0 wz := by
  unfold execHotRegionRefresh
  refine timed_kept ?_ (fun _ _ => ?_)
  all_goals try dsimp only
  repeat' with_reducible first
    | assumption
    | apply State.regionRefreshed_kept

theorem execHotRegionRefill_kept {s0 : State} (dt : Nat) (n : BitVec 20) (s : State) (hs : Kept s0 s) :
    ∀ wz, execHotRegionRefill dt n s = .next wz → Kept s0 wz := by
  unfold execHotRegionRefill
  refine timed_kept ?_ (fun _ _ => ?_)
  all_goals try dsimp only
  repeat' with_reducible first
    | assumption
    | refine Kept.drop ?_ rfl rfl rfl rfl rfl rfl rfl rfl rfl rfl

theorem execSealedStoreMount_kept {s0 : State} (dt : Nat) (s : State) (hs : Kept s0 s) :
    ∀ wz, execSealedStoreMount dt s = .next wz → Kept s0 wz := by
  unfold execSealedStoreMount
  refine timed_kept ?_ (fun _ _ => ?_)
  all_goals try dsimp only
  repeat' with_reducible first
    | assumption
    | refine Kept.drop ?_ rfl rfl rfl rfl rfl rfl rfl rfl rfl rfl

theorem execMountComplete_kept {s0 : State} (dt : Nat) (s : State) (hs : Kept s0 s) :
    ∀ wz, execMountComplete dt s = .next wz → Kept s0 wz := by
  unfold execMountComplete
  refine timed_kept ?_ (fun _ _ => ?_)
  all_goals try dsimp only
  repeat' with_reducible first
    | assumption
    | apply State.mountEnds_kept
    | apply State.bootFails_kept
    | apply Kept.ite
    | split

theorem execRenewSend_kept {s0 : State} (dt : Nat) (s : State) (hs : Kept s0 s) :
    ∀ wz, execRenewSend dt s = .next wz → Kept s0 wz := by
  unfold execRenewSend
  refine timed_kept ?_ (fun _ _ => ?_)
  all_goals try dsimp only
  repeat' with_reducible first
    | assumption
    | apply State.renew_kept

theorem execStatusSend_kept {s0 : State} (dt : Nat) (s : State) (hs : Kept s0 s) :
    ∀ wz, execStatusSend dt s = .next wz → Kept s0 wz := by
  unfold execStatusSend
  refine timed_kept ?_ (fun _ _ => ?_)
  all_goals try dsimp only
  repeat' with_reducible first
    | assumption
    | apply State.sendEveryPort_kept

theorem execLeaseFrameSend_kept {s0 : State} (dt : Nat) (s : State) (hs : Kept s0 s) :
    ∀ wz, execLeaseFrameSend dt s = .next wz → Kept s0 wz := by
  unfold execLeaseFrameSend
  refine timed_kept ?_ (fun _ _ => ?_)
  all_goals try dsimp only
  repeat' with_reducible first
    | assumption
    | apply State.leaseNow_kept

theorem execRenewReceive_kept {s0 : State} (dt : Nat) (s : State) (hs : Kept s0 s) :
    ∀ wz, execRenewReceive dt s = .next wz → Kept s0 wz := by
  intro wz hu
  cases hu
  try dsimp only
  repeat' with_reducible first
    | assumption
    | apply State.takeMsg_kept
    | apply State.elapse_kept
    | apply State.onRenew_kept
    | split
    | (refine Kept.snd (by assumption) ?_)

theorem execStatusReceive_kept {s0 : State} (dt : Nat) (s : State) (hs : Kept s0 s) :
    ∀ wz, execStatusReceive dt s = .next wz → Kept s0 wz := by
  intro wz hu
  cases hu
  try dsimp only
  repeat' with_reducible first
    | assumption
    | apply State.takeMsg_kept
    | apply State.elapse_kept
    | apply State.onStatus_kept
    | split
    | (refine Kept.snd (by assumption) ?_)

theorem execLeaseFrameReceive_kept {s0 : State} (dt : Nat) (bits : List Byte) (s : State) (hs : Kept s0 s) :
    ∀ wz, execLeaseFrameReceive dt bits s = .next wz → Kept s0 wz := by
  intro wz hu
  cases hu
  try dsimp only
  repeat' with_reducible first
    | assumption
    | apply State.elapse_kept
    | apply State.raise_kept
    | apply State.onLease_kept
    | apply Kept.ite
    | split
    | refine Kept.drop ?_ rfl rfl rfl rfl rfl rfl rfl rfl rfl rfl

theorem execMirrorReceive_kept {s0 : State} (dt : Nat) (s : State) (hs : Kept s0 s) :
    ∀ wz, execMirrorReceive dt s = .next wz → Kept s0 wz := by
  intro wz hu
  cases hu
  try dsimp only
  repeat' with_reducible first
    | assumption
    | apply State.elapse_kept
    | apply State.takeSealed_kept
    | apply State.onMirror_kept
    | split
    | (refine Kept.snd (by assumption) ?_)

theorem execMackReceive_kept {s0 : State} (dt : Nat) (s : State) (hs : Kept s0 s) :
    ∀ wz, execMackReceive dt s = .next wz → Kept s0 wz := by
  intro wz hu
  cases hu
  try dsimp only
  repeat' with_reducible first
    | assumption
    | apply State.takeMsg_kept
    | apply State.elapse_kept
    | apply State.onMack_kept
    | split
    | (refine Kept.snd (by assumption) ?_)

theorem execMirrorHoldExpiry_kept {s0 : State} (dt : Nat) (s : State) (hs : Kept s0 s) :
    ∀ wz, execMirrorHoldExpiry dt s = .next wz → Kept s0 wz := by
  intro wz hu
  cases hu
  try dsimp only
  repeat' with_reducible first
    | assumption
    | apply State.elapse_kept
    | refine Kept.drop ?_ rfl rfl rfl rfl rfl rfl rfl rfl rfl rfl

theorem execMirrorWaitExpiry_kept {s0 : State} (dt : Nat) (c : Fin 8192) (s : State) (hs : Kept s0 s) :
    ∀ wz, execMirrorWaitExpiry dt c s = .next wz → Kept s0 wz := by
  unfold execMirrorWaitExpiry
  refine timed_kept ?_ (fun _ _ => ?_)
  all_goals try dsimp only
  repeat' with_reducible first
    | assumption
    | apply State.endWith_kept

theorem execLeaseEnd_kept {s0 : State} (dt : Nat) (s : State) (hs : Kept s0 s) :
    ∀ wz, execLeaseEnd dt s = .next wz → Kept s0 wz := by
  unfold execLeaseEnd
  refine timed_kept ?_ (fun _ _ => ?_)
  all_goals try dsimp only
  repeat' with_reducible first
    | assumption
    | apply State.dropUnacked_kept
    | apply State.raise_kept
    | apply State.setRole_kept
    | apply State.diverge_kept
    | apply Kept.ite
    | split
    | refine Kept.drop ?_ rfl rfl rfl rfl rfl rfl rfl rfl rfl rfl

theorem execFollowerLapse_kept {s0 : State} (dt : Nat) (s : State) (hs : Kept s0 s) :
    ∀ wz, execFollowerLapse dt s = .next wz → Kept s0 wz := by
  unfold execFollowerLapse
  refine timed_kept ?_ (fun _ _ => ?_)
  all_goals try dsimp only
  repeat' with_reducible first
    | assumption
    | apply State.raise_kept
    | apply State.setRole_kept

theorem execLanternClaim_kept {s0 : State} (dt : Nat) (s : State) (hs : Kept s0 s) :
    ∀ wz, execLanternClaim dt s = .next wz → Kept s0 wz := by
  unfold execLanternClaim
  refine timed_kept ?_ (fun _ _ => ?_)
  all_goals try dsimp only
  repeat' with_reducible first
    | assumption
    | apply State.claim_kept

theorem execPeerSilence_kept {s0 : State} (dt : Nat) (s : State) (hs : Kept s0 s) :
    ∀ wz, execPeerSilence dt s = .next wz → Kept s0 wz := by
  unfold execPeerSilence
  refine timed_kept ?_ (fun _ _ => ?_)
  all_goals try dsimp only
  repeat' with_reducible first
    | assumption
    | apply State.soloOn_kept

theorem execMackWaitExpiry_kept {s0 : State} (dt : Nat) (s : State) (hs : Kept s0 s) :
    ∀ wz, execMackWaitExpiry dt s = .next wz → Kept s0 wz := by
  unfold execMackWaitExpiry
  refine timed_kept ?_ (fun _ _ => ?_)
  all_goals try dsimp only
  repeat' with_reducible first
    | assumption
    | apply State.soloOn_kept

theorem execReleaseRenewSend_kept {s0 : State} (dt : Nat) (s : State) (hs : Kept s0 s) :
    ∀ wz, execReleaseRenewSend dt s = .next wz → Kept s0 wz := by
  unfold execReleaseRenewSend
  refine timed_kept ?_ (fun _ _ => ?_)
  all_goals try dsimp only
  repeat' with_reducible first
    | assumption
    | apply State.renew_kept
    | apply State.soloOff_kept
    | apply State.setRole_kept
    | refine Kept.drop ?_ rfl rfl rfl rfl rfl rfl rfl rfl rfl rfl

theorem execJreqReceive_kept {s0 : State} (dt : Nat) (s : State) (hs : Kept s0 s) :
    ∀ wz, execJreqReceive dt s = .next wz → Kept s0 wz := by
  intro wz hu
  cases hu
  try dsimp only
  repeat' with_reducible first
    | assumption
    | apply State.elapse_kept
    | apply State.takeMsg_kept
    | apply State.onJreq_kept
    | apply Kept.ite
    | split
    | (refine Kept.snd (by assumption) ?_)

theorem execJdataReceive_kept {s0 : State} (dt : Nat) (s : State) (hs : Kept s0 s) :
    ∀ wz, execJdataReceive dt s = .next wz → Kept s0 wz := by
  intro wz hu
  cases hu
  try dsimp only
  repeat' with_reducible first
    | assumption
    | apply State.elapse_kept
    | apply State.takeSealed_kept
    | apply State.onJdata_kept
    | apply Kept.ite
    | split
    | (refine Kept.snd (by assumption) ?_)

theorem execJseqGapTimeout_kept {s0 : State} (dt : Nat) (s : State) (hs : Kept s0 s) :
    ∀ wz, execJseqGapTimeout dt s = .next wz → Kept s0 wz := by
  unfold execJseqGapTimeout
  refine timed_kept ?_ (fun _ _ => ?_)
  all_goals try dsimp only
  repeat' with_reducible first
    | assumption
    | apply State.gap_kept
    | split

theorem execCopyEntryReceive_kept {s0 : State} (dt : Nat) (s : State) (hs : Kept s0 s) :
    ∀ wz, execCopyEntryReceive dt s = .next wz → Kept s0 wz := by
  intro wz hu
  cases hu
  try dsimp only
  repeat' with_reducible first
    | assumption
    | apply State.elapse_kept
    | apply State.takeSealed_kept
    | apply State.copyEntry_kept
    | apply Kept.ite
    | refine Kept.foldl (fun _ _ _ => ?_) ?_
    | split
    | (refine Kept.snd (by assumption) ?_)

theorem execResyncComplete_kept {s0 : State} (dt : Nat) (s : State) (hs : Kept s0 s) :
    ∀ wz, execResyncComplete dt s = .next wz → Kept s0 wz := by
  unfold execResyncComplete
  refine timed_kept ?_ (fun _ _ => ?_)
  all_goals try dsimp only
  repeat' with_reducible first
    | assumption
    | apply State.resyncEnds_kept
    | apply State.lower_kept
    | apply State.raise_kept
    | apply State.setSynced_kept
    | split

theorem execResyncLinkLoss_kept {s0 : State} (dt : Nat) (s : State) (hs : Kept s0 s) :
    ∀ wz, execResyncLinkLoss dt s = .next wz → Kept s0 wz := by
  unfold execResyncLinkLoss
  refine timed_kept ?_ (fun _ _ => ?_)
  all_goals try dsimp only
  repeat' with_reducible first
    | assumption
    | apply State.resyncEnds_kept

theorem execScheduledSwitch_kept {s0 : State} (dt : Nat) (s : State) (hs : Kept s0 s) :
    ∀ wz, execScheduledSwitch dt s = .next wz → Kept s0 wz := by
  unfold execScheduledSwitch
  refine timed_kept ?_ (fun _ _ => ?_)
  all_goals try dsimp only
  repeat' with_reducible first
    | assumption
    | apply State.epochSwitch_kept
    | apply State.raise_kept
    | apply State.lower_kept

theorem execEpochSkewTimeout_kept {s0 : State} (dt : Nat) (s : State) (hs : Kept s0 s) :
    ∀ wz, execEpochSkewTimeout dt s = .next wz → Kept s0 wz := by
  unfold execEpochSkewTimeout
  refine timed_kept ?_ (fun _ _ => ?_)
  all_goals try dsimp only
  repeat' with_reducible first
    | assumption
    | apply State.raise_kept

theorem execTamperAlarm_kept {s0 : State} (dt : Nat) (srcs : List (Fin 28)) (s : State) (hs : Kept s0 s) :
    ∀ wz, execTamperAlarm dt srcs s = .next wz → Kept s0 wz := by
  unfold execTamperAlarm
  refine timed_kept ?_ (fun _ _ => ?_)
  all_goals try dsimp only
  repeat' with_reducible first
    | assumption
    | apply State.causesRise_kept

theorem execTamperCauseFall_kept {s0 : State} (dt : Nat) (src : Fin 28) (s : State) (hs : Kept s0 s) :
    ∀ wz, execTamperCauseFall dt src s = .next wz → Kept s0 wz := by
  unfold execTamperCauseFall
  refine timed_kept ?_ (fun _ _ => ?_)
  all_goals try dsimp only
  repeat' with_reducible first
    | assumption
    | apply State.causeFalls_kept
    | split

theorem execTamperMonitorArm_kept {s0 : State} (dt : Nat) (s : State) (hs : Kept s0 s) :
    ∀ wz, execTamperMonitorArm dt s = .next wz → Kept s0 wz := by
  unfold execTamperMonitorArm
  refine timed_kept ?_ (fun _ _ => ?_)
  all_goals try dsimp only
  repeat' with_reducible first
    | assumption
    | refine Kept.drop ?_ rfl rfl rfl rfl rfl rfl rfl rfl rfl rfl

theorem execTamperBistDone_kept {s0 : State} (dt : Nat) (pass : Bool) (s : State) (hs : Kept s0 s) :
    ∀ wz, execTamperBistDone dt pass s = .next wz → Kept s0 wz := by
  unfold execTamperBistDone
  refine timed_kept ?_ (fun _ _ => ?_)
  all_goals try dsimp only
  repeat' with_reducible first
    | assumption
    | apply State.put_kept
    | apply State.raise_kept
    | apply State.testEnds_kept
    | split

theorem execBackupColdStart_kept {s0 : State} (dt : Nat) (s : State) (hs : Kept s0 s) :
    ∀ wz, execBackupColdStart dt s = .next wz → Kept s0 wz := by
  unfold execBackupColdStart
  refine timed_kept ?_ (fun _ _ => ?_)
  all_goals try dsimp only
  repeat' with_reducible first
    | assumption
    | apply State.raise_kept
    | apply State.backupCold_kept
    | apply State.eraseBmk_kept

theorem execWickFrame_kept {s0 : State} (dt : Nat) (f : SensorFrame) (s : State) (hs : Kept s0 s) :
    ∀ wz, execWickFrame dt f s = .next wz → Kept s0 wz := by
  unfold execWickFrame
  refine timed_kept ?_ (fun _ _ => ?_)
  all_goals try dsimp only
  repeat' with_reducible first
    | assumption
    | apply State.wickFrame_kept

theorem execWickWatchdogExpiry_kept {s0 : State} (dt : Nat) (s : State) (hs : Kept s0 s) :
    ∀ wz, execWickWatchdogExpiry dt s = .next wz → Kept s0 wz := by
  unfold execWickWatchdogExpiry
  refine timed_kept ?_ (fun _ _ => ?_)
  all_goals try dsimp only
  repeat' with_reducible first
    | assumption
    | apply State.wickStops_kept

theorem execFaultEvent_kept {s0 : State} (dt : Nat) (src : Fin 128) (e : FaultAt) (s : State) (hs : Kept s0 s) :
    ∀ wz, execFaultEvent dt src e s = .next wz → Kept s0 wz := by
  unfold execFaultEvent
  refine timed_kept ?_ (fun _ _ => ?_)
  all_goals try dsimp only
  repeat' with_reducible first
    | assumption
    | apply State.ownRecord_kept
    | apply State.fault_kept
    | apply Kept.ite
    | split

theorem execFaultWindowExpiry_kept {s0 : State} (dt : Nat) (src : Fin 128) (s : State) (hs : Kept s0 s) :
    ∀ wz, execFaultWindowExpiry dt src s = .next wz → Kept s0 wz := by
  unfold execFaultWindowExpiry
  refine timed_kept ?_ (fun _ _ => ?_)
  all_goals try dsimp only
  repeat' with_reducible first
    | assumption
    | apply State.closeWindow_kept
    | split

theorem execReactionRound_kept {s0 : State} (dt : Nat) (s : State) (hs : Kept s0 s) :
    ∀ wz, execReactionRound dt s = .next wz → Kept s0 wz := by
  unfold execReactionRound
  refine timed_kept ?_ (fun _ _ => ?_)
  all_goals try dsimp only
  repeat' with_reducible first
    | assumption
    | apply State.reactionRound_kept

theorem execIsolateCoreStart_kept {s0 : State} (dt : Nat) (s : State) (hs : Kept s0 s) :
    ∀ wz, execIsolateCoreStart dt s = .next wz → Kept s0 wz := by
  unfold execIsolateCoreStart
  refine timed_kept ?_ (fun _ _ => ?_)
  all_goals try dsimp only
  repeat' with_reducible first
    | assumption
    | apply State.startFrom_kept
    | apply Kept.ite
    | split
    | (refine Kept.snd (by assumption) ?_)
    | refine Kept.drop ?_ rfl rfl rfl rfl rfl rfl rfl rfl rfl rfl

theorem execVddAonLost_kept {s0 : State} (dt : Nat) (s : State) (hs : Kept s0 s) :
    ∀ wz, execVddAonLost dt s = .next wz → Kept s0 wz := by
  unfold execVddAonLost
  refine timed_kept ?_ (fun _ _ => ?_)
  all_goals try dsimp only
  repeat' with_reducible first
    | assumption
    | apply State.aonLost_kept

theorem execVddAonGood_kept {s0 : State} (dt : Nat) (s : State) (hs : Kept s0 s) :
    ∀ wz, execVddAonGood dt s = .next wz → Kept s0 wz := by
  unfold execVddAonGood
  refine timed_kept ?_ (fun _ _ => ?_)
  all_goals try dsimp only
  repeat' with_reducible first
    | assumption
    | apply State.aonGood_kept

theorem execPwrGoodRise_kept {s0 : State} (dt : Nat) (s : State) (hs : Kept s0 s) :
    ∀ wz, execPwrGoodRise dt s = .next wz → Kept s0 wz := by
  unfold execPwrGoodRise
  refine timed_kept ?_ (fun _ _ => ?_)
  all_goals try dsimp only
  repeat' with_reducible first
    | assumption
    | apply State.enterBoot_kept
    | apply Kept.ite
    | split
    | refine Kept.drop ?_ rfl rfl rfl rfl rfl rfl rfl rfl rfl rfl

theorem execPwrGoodFall_kept {s0 : State} (dt : Nat) (s : State) (hs : Kept s0 s) :
    ∀ wz, execPwrGoodFall dt s = .next wz → Kept s0 wz := by
  unfold execPwrGoodFall
  refine timed_kept ?_ (fun _ _ => ?_)
  all_goals try dsimp only
  repeat' with_reducible first
    | assumption
    | apply State.resetCore_kept
    | apply State.disarm_kept
    | apply State.setMode_kept
    | refine Kept.drop ?_ rfl rfl rfl rfl rfl rfl rfl rfl rfl rfl

theorem execResetPin_kept {s0 : State} (dt : Nat) (s : State) (hs : Kept s0 s) :
    ∀ wz, execResetPin dt s = .next wz → Kept s0 wz := by
  unfold execResetPin
  refine timed_kept ?_ (fun _ _ => ?_)
  all_goals try dsimp only
  repeat' with_reducible first
    | assumption
    | apply State.resetDevice_kept

theorem execBootQuench_kept {s0 : State} (dt : Nat) (s : State) (hs : Kept s0 s) :
    ∀ wz, execBootQuench dt s = .next wz → Kept s0 wz := by
  unfold execBootQuench
  refine timed_kept ?_ (fun _ _ => ?_)
  all_goals try dsimp only
  repeat' with_reducible first
    | assumption
    | apply State.stepOne_kept
    | apply State.atStep_kept
    | apply State.quenchEntry_kept
    | split

theorem execPatchTableApply_kept {s0 : State} (dt : Nat) (s : State) (hs : Kept s0 s) :
    ∀ wz, execPatchTableApply dt s = .next wz → Kept s0 wz := by
  unfold execPatchTableApply
  refine timed_kept ?_ (fun _ _ => ?_)
  all_goals try dsimp only
  repeat' with_reducible first
    | assumption
    | apply State.stepOne_kept
    | apply State.atStep_kept
    | apply State.patchTable_kept
    | split

theorem execEngineSelfTestDone_kept {s0 : State} (dt : Nat) (cph : BitVec 18) (mau : BitVec 136) (s : State) (hs : Kept s0 s) :
    ∀ wz, execEngineSelfTestDone dt cph mau s = .next wz → Kept s0 wz := by
  unfold execEngineSelfTestDone
  refine timed_kept ?_ (fun _ _ => ?_)
  all_goals try dsimp only
  repeat' with_reducible first
    | assumption
    | apply State.atStep_kept
    | apply State.assignRoles_kept
    | apply State.bootFails_kept
    | apply State.stepEnds_kept
    | apply Kept.ite
    | split

theorem execMemoryTrainingDone_kept {s0 : State} (dt : Nat) (ddrGib : Byte) (ddrOk : Bool) (tgtGib : Byte) (ntgt : BitVec 6) (s : State) (hs : Kept s0 s) :
    ∀ wz, execMemoryTrainingDone dt ddrGib ddrOk tgtGib ntgt s = .next wz → Kept s0 wz := by
  unfold execMemoryTrainingDone
  refine timed_kept ?_ (fun _ _ => ?_)
  all_goals try dsimp only
  repeat' with_reducible first
    | assumption
    | apply State.atStep_kept
    | apply State.fset_kept
    | apply State.wr_kept
    | apply State.setHotLines_kept
    | apply State.drawn_kept
    | apply State.stepEnds_kept
    | apply State.bootFails_kept
    | apply Kept.ite
    | split
    | refine Kept.drop ?_ rfl rfl rfl rfl rfl rfl rfl rfl rfl rfl

theorem execLifecycleAdvanceDone_kept {s0 : State} (dt : Nat) (ok : Bool) (s : State) (hs : Kept s0 s) :
    ∀ wz, execLifecycleAdvanceDone dt ok s = .next wz → Kept s0 wz := by
  unfold execLifecycleAdvanceDone
  refine timed_kept ?_ (fun _ _ => ?_)
  all_goals try dsimp only
  repeat' with_reducible first
    | assumption
    | apply State.lcReached_kept
    | apply State.lcFails_kept
    | apply State.lower_kept
    | apply State.advanceCut_kept
    | apply Kept.ite
    | split

theorem execReprovisionComplete_kept {s0 : State} (dt : Nat) (s : State) (hs : Kept s0 s) :
    ∀ wz, execReprovisionComplete dt s = .next wz → Kept s0 wz := by
  unfold execReprovisionComplete
  refine timed_kept ?_ (fun _ _ => ?_)
  all_goals try dsimp only
  repeat' with_reducible first
    | assumption
    | apply State.lower_kept
    | apply State.wr_kept
    | apply State.resetDevice_kept

theorem execCoreStopped_kept {s0 : State} (dt : Nat) (n : Fin 16) (s : State) (hs : Kept s0 s) :
    ∀ wz, execCoreStopped dt n s = .next wz → Kept s0 wz := by
  unfold execCoreStopped
  refine timed_kept ?_ (fun _ _ => ?_)
  all_goals try dsimp only
  repeat' with_reducible first
    | assumption
    | apply State.stopCore_kept

theorem execTimerCompare_kept {s0 : State} (dt : Nat) (n : Fin 16) (s : State) (hs : Kept s0 s) :
    ∀ wz, execTimerCompare dt n s = .next wz → Kept s0 wz := by
  unfold execTimerCompare
  refine timed_kept ?_ (fun _ _ => ?_)
  all_goals try dsimp only
  repeat' with_reducible first
    | assumption
    | apply State.raise_kept

theorem execTimebasePhaseStep_kept {s0 : State} (c : TbCorrection) (s : State) (hs : Kept s0 s) :
    ∀ wz, execTimebasePhaseStep c s = .next wz → Kept s0 wz := by
  unfold execTimebasePhaseStep
  refine event_kept ?_ (fun _ _ => ?_)
  all_goals try dsimp only
  repeat' with_reducible first
    | assumption
    | apply State.tbStep_kept
    | apply Kept.ite
    | split
    | refine Kept.drop ?_ rfl rfl rfl rfl rfl rfl rfl rfl rfl rfl

theorem arrayEvent_kept {s0 : State} {dt : Nat} {c : State → Bool} {s : State} {f : State → State} (hs : Kept s0 s)
    (hf : ∀ t, Kept s0 t → Kept s0 (f t)) : ∀ u, arrayEvent dt c s f = .next u → Kept s0 u := by
  refine event_kept (State.elapse_kept s dt hs) fun t ht => State.retryAll_kept _ ?_
  split
  · exact hf t ht
  · exact ht

theorem execFlashCmdDone_kept {s0 : State} (dt : Nat) (ok : Bool) (s : State) (hs : Kept s0 s) :
    ∀ wz, execFlashCmdDone dt ok s = .next wz → Kept s0 wz :=
  arrayEvent_kept hs fun t ht => State.flcEvent_kept t ok ht

theorem execEraseSuspend_kept {s0 : State} (dt : Nat) (s : State) (hs : Kept s0 s) :
    ∀ wz, execEraseSuspend dt s = .next wz → Kept s0 wz :=
  arrayEvent_kept hs fun t ht => State.suspended_kept t ht

theorem execEraseResume_kept {s0 : State} (dt : Nat) (s : State) (hs : Kept s0 s) :
    ∀ wz, execEraseResume dt s = .next wz → Kept s0 wz :=
  arrayEvent_kept hs fun t ht => State.resumed_kept t ht

theorem execCardDetectChange_kept {s0 : State} (dt : Nat) (n : Fin 2) (present : Bool) (s : State) (hs : Kept s0 s) :
    ∀ wz, execCardDetectChange dt n present s = .next wz → Kept s0 wz := by
  unfold execCardDetectChange
  refine timed_kept ?_ (fun _ _ => ?_)
  all_goals try dsimp only
  repeat' with_reducible first
    | assumption
    | apply State.put_kept
    | apply State.raise_kept
    | apply State.deactivate_kept
    | apply Kept.ite

theorem execAtrTimeout_kept {s0 : State} (dt : Nat) (n : Fin 2) (s : State) (hs : Kept s0 s) :
    ∀ wz, execAtrTimeout dt n s = .next wz → Kept s0 wz := by
  unfold execAtrTimeout
  refine timed_kept ?_ (fun _ _ => ?_)
  all_goals try dsimp only
  repeat' with_reducible first
    | assumption
    | apply State.retryOr_kept

theorem execAtrReceive_kept {s0 : State} (dt : Nat) (n : Fin 2) (bytes : List Byte) (s : State) (hs : Kept s0 s) :
    ∀ wz, execAtrReceive dt n bytes s = .next wz → Kept s0 wz := by
  unfold execAtrReceive
  refine timed_kept ?_ (fun _ _ => ?_)
  all_goals try dsimp only
  repeat' with_reducible first
    | assumption
    | apply State.slotFails_kept
    | apply State.retryOr_kept
    | apply State.atrOk_kept
    | apply Kept.ite
    | split

theorem execPpsResponse_kept {s0 : State} (dt : Nat) (n : Fin 2) (bytes : List Byte) (s : State) (hs : Kept s0 s) :
    ∀ wz, execPpsResponse dt n bytes s = .next wz → Kept s0 wz := by
  unfold execPpsResponse
  refine timed_kept ?_ (fun _ _ => ?_)
  all_goals try dsimp only
  repeat' with_reducible first
    | assumption
    | apply State.adoptPair_kept
    | apply State.slotReady_kept
    | apply State.repower_kept
    | apply Kept.ite
    | split

theorem execCardBlockReceive_kept {s0 : State} (dt : Nat) (n : Fin 2) (bytes : List Byte) (s : State) (hs : Kept s0 s) :
    ∀ wz, execCardBlockReceive dt n bytes s = .next wz → Kept s0 wz := by
  unfold execCardBlockReceive
  refine timed_kept ?_ (fun _ _ => ?_)
  all_goals try dsimp only
  repeat' with_reducible first
    | assumption
    | apply State.goodBlock_kept
    | apply State.blockFails_kept
    | apply Kept.ite
    | split

theorem execCardBlockTimeout_kept {s0 : State} (dt : Nat) (n : Fin 2) (s : State) (hs : Kept s0 s) :
    ∀ wz, execCardBlockTimeout dt n s = .next wz → Kept s0 wz := by
  unfold execCardBlockTimeout
  refine timed_kept ?_ (fun _ _ => ?_)
  all_goals try dsimp only
  repeat' with_reducible first
    | assumption
    | apply State.blockFails_kept

theorem execCardExchangeDone_kept {s0 : State} (dt : Nat) (n : Fin 2) (s : State) (hs : Kept s0 s) :
    ∀ wz, execCardExchangeDone dt n s = .next wz → Kept s0 wz := by
  unfold execCardExchangeDone
  refine timed_kept ?_ (fun _ _ => ?_)
  all_goals try dsimp only
  repeat' with_reducible first
    | assumption
    | apply State.exchangeDone_kept

theorem execQuorumAttestDone_kept {s0 : State} (dt : Nat) (s : State) (hs : Kept s0 s) :
    ∀ wz, execQuorumAttestDone dt s = .next wz → Kept s0 wz := by
  unfold execQuorumAttestDone
  refine timed_kept ?_ (fun _ _ => ?_)
  all_goals try dsimp only
  repeat' with_reducible first
    | assumption
    | apply State.attestJudge_kept
    | split

theorem execQuorumTimeout_kept {s0 : State} (dt : Nat) (s : State) (hs : Kept s0 s) :
    ∀ wz, execQuorumTimeout dt s = .next wz → Kept s0 wz := by
  unfold execQuorumTimeout
  refine timed_kept ?_ (fun _ _ => ?_)
  all_goals try dsimp only
  repeat' with_reducible first
    | assumption
    | apply State.quorumClose_kept

theorem execTagPowerUp_kept {s0 : State} (dt : Nat) (field : Bool) (s : State) (hs : Kept s0 s) :
    ∀ wz, execTagPowerUp dt field s = .next wz → Kept s0 wz := by
  unfold execTagPowerUp
  refine timed_kept ?_ (fun _ _ => ?_)
  all_goals try dsimp only
  repeat' with_reducible first
    | assumption
    | apply State.put_kept
    | apply State.tagScrub_kept
    | refine Kept.drop ?_ rfl rfl rfl rfl rfl rfl rfl rfl rfl rfl

theorem execFieldArrival_kept {s0 : State} (dt : Nat) (s : State) (hs : Kept s0 s) :
    ∀ wz, execFieldArrival dt s = .next wz → Kept s0 wz := by
  unfold execFieldArrival
  refine timed_kept ?_ (fun _ _ => ?_)
  all_goals try dsimp only
  repeat' with_reducible first
    | assumption
    | apply State.raise_kept
    | refine Kept.drop ?_ rfl rfl rfl rfl rfl rfl rfl rfl rfl rfl

theorem execFieldLoss_kept {s0 : State} (dt : Nat) (s : State) (hs : Kept s0 s) :
    ∀ wz, execFieldLoss dt s = .next wz → Kept s0 wz := by
  unfold execFieldLoss
  refine timed_kept ?_ (fun _ _ => ?_)
  all_goals try dsimp only
  repeat' with_reducible first
    | assumption
    | apply State.tagTxnEnds_kept
    | apply State.lower_kept
    | apply State.tagState_kept
    | apply State.commit_kept
    | apply State.tagPowerDown_kept
    | apply Kept.ite
    | split
    | refine Kept.drop ?_ rfl rfl rfl rfl rfl rfl rfl rfl rfl rfl

theorem execReqa_kept {s0 : State} (dt : Nat) (s : State) (hs : Kept s0 s) :
    ∀ wz, execReqa dt s = .next wz → Kept s0 wz := by
  unfold execReqa
  refine timed_kept ?_ (fun _ _ => ?_)
  all_goals try dsimp only
  repeat' with_reducible first
    | assumption
    | apply State.tagReady_kept
    | apply State.tagOther_kept
    | apply Kept.ite

theorem execWupa_kept {s0 : State} (dt : Nat) (s : State) (hs : Kept s0 s) :
    ∀ wz, execWupa dt s = .next wz → Kept s0 wz := by
  unfold execWupa
  refine timed_kept ?_ (fun _ _ => ?_)
  all_goals try dsimp only
  repeat' with_reducible first
    | assumption
    | apply State.tagReady_kept
    | apply State.tagOther_kept
    | apply Kept.ite

theorem execAnticollision_kept {s0 : State} (dt : Nat) (bytes : List Byte) (s : State) (hs : Kept s0 s) :
    ∀ wz, execAnticollision dt bytes s = .next wz → Kept s0 wz := by
  unfold execAnticollision
  refine timed_kept ?_ (fun _ _ => ?_)
  all_goals try dsimp only
  repeat' with_reducible first
    | assumption
    | apply State.emit_kept
    | apply State.tagOther_kept
    | apply Kept.ite
    | split

theorem execSelect_kept {s0 : State} (dt : Nat) (level : Fin 2) (bytes : List Byte) (s : State) (hs : Kept s0 s) :
    ∀ wz, execSelect dt level bytes s = .next wz → Kept s0 wz := by
  unfold execSelect
  refine timed_kept ?_ (fun _ _ => ?_)
  all_goals try dsimp only
  repeat' with_reducible first
    | assumption
    | apply State.tagState_kept
    | apply State.tagSends_kept
    | apply State.tagOther_kept
    | apply Kept.ite
    | split
    | refine Kept.drop ?_ rfl rfl rfl rfl rfl rfl rfl rfl rfl rfl

theorem execHlta_kept {s0 : State} (dt : Nat) (s : State) (hs : Kept s0 s) :
    ∀ wz, execHlta dt s = .next wz → Kept s0 wz := by
  unfold execHlta
  refine timed_kept ?_ (fun _ _ => ?_)
  all_goals try dsimp only
  repeat' with_reducible first
    | assumption
    | apply State.tagState_kept
    | apply State.tagOther_kept
    | apply Kept.ite
    | split
    | refine Kept.drop ?_ rfl rfl rfl rfl rfl rfl rfl rfl rfl rfl

theorem execTagFrameError_kept {s0 : State} (dt : Nat) (s : State) (hs : Kept s0 s) :
    ∀ wz, execTagFrameError dt s = .next wz → Kept s0 wz := by
  unfold execTagFrameError
  refine timed_kept ?_ (fun _ _ => ?_)
  all_goals try dsimp only
  repeat' with_reducible first
    | assumption
    | apply State.tagOther_kept

theorem tagCommand_kept {s0 : State} (dt : Nat) (okLen : Bool) (s : State) (f : State → State) (hs : Kept s0 s)
    (hf : ∀ t, Kept s0 t → Kept s0 (f t)) : ∀ wz, tagCommand dt okLen s f = .next wz → Kept s0 wz := by
  unfold tagCommand
  refine timed_kept hs (fun t ht => ?_)
  split
  · exact State.faultWrites_kept _ (hf _ (State.fieldBegins_kept _ ht))
  · exact State.tagOther_kept _ ht

theorem execGetInfo_kept {s0 : State} (dt : Nat) (s : State) (hs : Kept s0 s) :
    ∀ wz, execGetInfo dt s = .next wz → Kept s0 wz := by
  unfold execGetInfo
  refine tagCommand_kept _ _ _ _ ?_ (fun _ _ => ?_)
  all_goals try dsimp only
  repeat' with_reducible first
    | assumption
    | apply State.tagAnswer_kept

theorem execTagRead_kept {s0 : State} (dt : Nat) (bytes : List Byte) (s : State) (hs : Kept s0 s) :
    ∀ wz, execTagRead dt bytes s = .next wz → Kept s0 wz := by
  unfold execTagRead
  refine tagCommand_kept _ _ _ _ ?_ (fun _ _ => ?_)
  all_goals try dsimp only
  repeat' with_reducible first
    | assumption
    | apply State.tagAnswer_kept
    | split

theorem execTagWrite_kept {s0 : State} (dt : Nat) (bytes : List Byte) (s : State) (hs : Kept s0 s) :
    ∀ wz, execTagWrite dt bytes s = .next wz → Kept s0 wz := by
  unfold execTagWrite
  refine tagCommand_kept _ _ _ _ ?_ (fun _ _ => ?_)
  all_goals try dsimp only
  repeat' with_reducible first
    | assumption
    | apply State.tagAnswer_kept
    | apply State.drawn_kept
    | apply State.raise_kept
    | apply State.commit_kept
    | apply Kept.ite
    | split
    | refine Kept.drop ?_ rfl rfl rfl rfl rfl rfl rfl rfl rfl rfl

theorem execTagAuth_kept {s0 : State} (dt : Nat) (bytes : List Byte) (s : State) (hs : Kept s0 s) :
    ∀ wz, execTagAuth dt bytes s = .next wz → Kept s0 wz := by
  unfold execTagAuth
  refine tagCommand_kept _ _ _ _ ?_ (fun _ _ => ?_)
  all_goals try dsimp only
  repeat' with_reducible first
    | assumption
    | apply State.tagAnswer_kept
    | apply State.drawn_kept
    | apply State.setAttempts_kept
    | apply State.authCompare_kept
    | apply Kept.ite
    | split
    | (refine Kept.snd (by assumption) ?_)

theorem execTagCommitDone_kept {s0 : State} (dt : Nat) (s : State) (hs : Kept s0 s) :
    ∀ wz, execTagCommitDone dt s = .next wz → Kept s0 wz := by
  unfold execTagCommitDone
  refine timed_kept ?_ (fun _ _ => ?_)
  all_goals try dsimp only
  repeat' with_reducible first
    | assumption
    | apply State.commit_kept
    | apply State.fieldCommitEnds_kept
    | apply State.faultWrites_kept
    | apply State.wiredCommitEnds_kept
    | apply State.applyEnds_kept
    | apply Kept.ite
    | split
    | refine Kept.drop ?_ rfl rfl rfl rfl rfl rfl rfl rfl rfl rfl

theorem execTagWiredStart_kept {s0 : State} (dt : Nat) (s : State) (hs : Kept s0 s) :
    ∀ wz, execTagWiredStart dt s = .next wz → Kept s0 wz := by
  unfold execTagWiredStart
  refine timed_kept ?_ (fun _ _ => ?_)
  all_goals try dsimp only
  repeat' with_reducible first
    | assumption
    | apply State.wiredStarts_kept
    | split

theorem execTagWiredDone_kept {s0 : State} (dt : Nat) (s : State) (hs : Kept s0 s) :
    ∀ wz, execTagWiredDone dt s = .next wz → Kept s0 wz := by
  unfold execTagWiredDone
  refine timed_kept ?_ (fun _ _ => ?_)
  all_goals try dsimp only
  repeat' with_reducible first
    | assumption
    | apply State.wiredRead_kept
    | apply State.wiredEnds_kept
    | split

theorem execCalibrationLoad_kept {s0 : State} (dt : Nat) (s : State) (hs : Kept s0 s) :
    ∀ wz, execCalibrationLoad dt s = .next wz → Kept s0 wz := by
  unfold execCalibrationLoad
  refine timed_kept ?_ (fun _ _ => ?_)
  all_goals try dsimp only
  repeat' with_reducible first
    | assumption
    | apply State.atStep_kept
    | apply State.factoryOk_kept
    | apply State.calibrated_kept
    | apply State.bootFails_kept
    | split
    | (refine Kept.snd (by assumption) ?_)

theorem execCalibrationSwitch_kept {s0 : State} (dt : Nat) (s : State) (hs : Kept s0 s) :
    ∀ wz, execCalibrationSwitch dt s = .next wz → Kept s0 wz := by
  unfold execCalibrationSwitch
  refine timed_kept ?_ (fun _ _ => ?_)
  all_goals try dsimp only
  repeat' with_reducible first
    | assumption
    | apply State.calSwitch_kept
    | split

theorem execBandwidthWindowEnd_kept {s0 : State} (dt : Nat) (s : State) (hs : Kept s0 s) :
    ∀ wz, execBandwidthWindowEnd dt s = .next wz → Kept s0 wz := by
  unfold execBandwidthWindowEnd
  refine timed_kept ?_ (fun _ _ => ?_)
  all_goals try dsimp only
  repeat' with_reducible first
    | assumption
    | apply State.bwNext_kept
    | apply State.bwTaken_kept

theorem execPmcSnapshotDone_kept {s0 : State} (dt : Nat) (s : State) (hs : Kept s0 s) :
    ∀ wz, execPmcSnapshotDone dt s = .next wz → Kept s0 wz := by
  unfold execPmcSnapshotDone
  refine timed_kept ?_ (fun _ _ => ?_)
  all_goals try dsimp only
  repeat' with_reducible first
    | assumption
    | apply State.lower_kept

theorem execIdcode_kept {s0 : State} (dt : Nat) (s : State) (hs : Kept s0 s) :
    ∀ wz, execIdcode dt s = .next wz → Kept s0 wz := by
  unfold execIdcode
  refine timed_kept ?_ (fun _ _ => ?_)
  all_goals try dsimp only
  repeat' with_reducible first
    | assumption
    | apply State.tapLoad_kept
    | apply State.emit_kept
    | split

theorem execSamplePreload_kept {s0 : State} (dt : Nat) (s : State) (hs : Kept s0 s) :
    ∀ wz, execSamplePreload dt s = .next wz → Kept s0 wz := by
  unfold execSamplePreload
  refine timed_kept ?_ (fun _ _ => ?_)
  all_goals try dsimp only
  repeat' with_reducible first
    | assumption
    | apply State.tapLoad_kept
    | split

theorem execExtest_kept {s0 : State} (dt : Nat) (s : State) (hs : Kept s0 s) :
    ∀ wz, execExtest dt s = .next wz → Kept s0 wz := by
  unfold execExtest
  refine timed_kept ?_ (fun _ _ => ?_)
  all_goals try dsimp only
  repeat' with_reducible first
    | assumption
    | apply State.tapLoad_kept
    | split

theorem execTapClamp_kept {s0 : State} (dt : Nat) (s : State) (hs : Kept s0 s) :
    ∀ wz, execTapClamp dt s = .next wz → Kept s0 wz := by
  unfold execTapClamp
  refine timed_kept ?_ (fun _ _ => ?_)
  all_goals try dsimp only
  repeat' with_reducible first
    | assumption
    | apply State.tapLoad_kept
    | split

theorem execHighz_kept {s0 : State} (dt : Nat) (s : State) (hs : Kept s0 s) :
    ∀ wz, execHighz dt s = .next wz → Kept s0 wz := by
  unfold execHighz
  refine timed_kept ?_ (fun _ _ => ?_)
  all_goals try dsimp only
  repeat' with_reducible first
    | assumption
    | apply State.tapLoad_kept
    | split

theorem execDap_kept {s0 : State} (dt : Nat) (s : State) (hs : Kept s0 s) :
    ∀ wz, execDap dt s = .next wz → Kept s0 wz := by
  unfold execDap
  refine timed_kept ?_ (fun _ _ => ?_)
  all_goals try dsimp only
  repeat' with_reducible first
    | assumption
    | apply State.tapLoad_kept
    | split

theorem execBypass_kept {s0 : State} (dt : Nat) (s : State) (hs : Kept s0 s) :
    ∀ wz, execBypass dt s = .next wz → Kept s0 wz := by
  unfold execBypass
  refine timed_kept ?_ (fun _ _ => ?_)
  all_goals try dsimp only
  repeat' with_reducible first
    | assumption
    | apply State.tapLoad_kept
    | split

theorem execTapReset_kept {s0 : State} (dt : Nat) (s : State) (hs : Kept s0 s) :
    ∀ wz, execTapReset dt s = .next wz → Kept s0 wz := by
  unfold execTapReset
  refine timed_kept ?_ (fun _ _ => ?_)
  all_goals try dsimp only
  repeat' with_reducible first
    | assumption
    | apply State.resetDevice_kept
    | refine Kept.drop ?_ rfl rfl rfl rfl rfl rfl rfl rfl rfl rfl

theorem execDapAccessDone_kept {s0 : State} (dt : Nat) (s : State) (hs : Kept s0 s) :
    ∀ wz, execDapAccessDone dt s = .next wz → Kept s0 wz := by
  unfold execDapAccessDone
  refine timed_kept ?_ (fun _ _ => ?_)
  all_goals try dsimp only
  repeat' with_reducible first
    | assumption
    | apply State.busRead_kept
    | apply State.dapEnds_kept
    | apply Kept.ite
    | split
    | (refine Kept.snd (by assumption) ?_)

theorem State.writeRow_kept {s0 : State} (s : State) (a : Acc) (addr : Nat) (v : Word32) (hs : Kept s0 s) :
    ∀ wz, State.writeRow s a addr v = .next wz → Kept s0 wz := by
  unfold State.writeRow
  refine event_kept ?_ (fun _ _ => ?_)
  all_goals try dsimp only
  repeat' with_reducible first
    | assumption
    | apply State.anyWrite_kept

theorem State.writeRow64_kept {s0 : State} (s : State) (a : Acc) (addr : Nat) (v : Word) (hs : Kept s0 s) :
    ∀ wz, State.writeRow64 s a addr v = .next wz → Kept s0 wz := by
  unfold State.writeRow64
  refine event_kept ?_ (fun _ _ => ?_)
  all_goals try dsimp only
  repeat' with_reducible first
    | assumption
    | apply State.anyWrite_kept

theorem State.readRow_kept {s0 : State} (s : State) (a : Acc) (addr : Nat) (hs : Kept s0 s) :
    ∀ wz, State.readRow s a addr = .next wz → Kept s0 wz := by
  unfold State.readRow
  refine event_kept ?_ (fun _ _ => ?_)
  all_goals try dsimp only
  repeat' with_reducible first
    | assumption
    | apply recordRead_kept
    | apply State.anyRead_kept

theorem execActSwitchInstant_kept {s0 : State} (dt : Nat) (s : State) (hs : Kept s0 s) :
    ∀ wz, execActSwitchInstant dt s = .next wz → Kept s0 wz := by
  unfold execActSwitchInstant
  refine timed_kept ?_ (fun _ _ => ?_)
  all_goals try dsimp only
  repeat' with_reducible first
    | assumption
    | apply State.lower_kept
    | apply State.raise_kept
    | apply State.fset_kept
    | apply State.actSwitched_kept
    | split

theorem execStoreBufferDrain_kept {s0 : State} (n : Fin 16) (s : State) (hs : Kept s0 s) :
    ∀ wz, execStoreBufferDrain n s = .next wz → Kept s0 wz := by
  unfold execStoreBufferDrain
  refine event_kept ?_ (fun _ _ => ?_)
  all_goals try dsimp only
  repeat' with_reducible first
    | assumption
    | apply State.storeEnters_kept

theorem execInterconnectAccessComplete_kept {s0 : State} (dt : Nat) (n : Fin 16) (s : State) (hs : Kept s0 s) :
    ∀ wz, execInterconnectAccessComplete dt n s = .next wz → Kept s0 wz := by
  unfold execInterconnectAccessComplete
  refine timed_kept ?_ (fun _ _ => ?_)
  all_goals try dsimp only
  repeat' with_reducible first
    | assumption
    | apply State.storeCompletes_kept

theorem execRegisterWrite_kept {s0 : State} (a : Acc) (addr : BitVec 48) (size : AccSize) (v : Word) (s : State)
    (hs : Kept s0 s) : ∀ u, execRegisterWrite a addr size v s = .next u → Kept s0 u := by
  intro u hu
  unfold execRegisterWrite at hu
  split at hu
  · cases hu
  · exact event_kept hs (fun t ht => State.anyWrite_kept _ _ _ _ _ ht) u hu

theorem execLowWordRead_kept {s0 : State} (a : Acc) (addr : BitVec 48) (s : State) (hs : Kept s0 s) :
    ∀ wz, execLowWordRead a addr s = .next wz → Kept s0 wz := by
  unfold execLowWordRead
  apply State.readRow_kept
  all_goals try dsimp only
  repeat' with_reducible first
    | assumption

theorem execRqFloorWrite_kept {s0 : State} (a : Acc) (v : Word) (s : State) (hs : Kept s0 s) :
    ∀ wz, execRqFloorWrite a v s = .next wz → Kept s0 wz := by
  unfold execRqFloorWrite
  apply State.writeRow64_kept
  all_goals try dsimp only
  repeat' with_reducible first
    | assumption

theorem execTscSet_kept {s0 : State} (a : Acc) (v : Word) (s : State) (hs : Kept s0 s) :
    ∀ wz, execTscSet a v s = .next wz → Kept s0 wz := by
  unfold execTscSet
  apply State.writeRow64_kept
  all_goals try dsimp only
  repeat' with_reducible first
    | assumption

theorem execRngRawRead_kept {s0 : State} (a : Acc) (s : State) (hs : Kept s0 s) :
    ∀ wz, execRngRawRead a s = .next wz → Kept s0 wz := by
  unfold execRngRawRead
  apply State.readRow_kept
  all_goals try dsimp only
  repeat' with_reducible first
    | assumption

theorem execRngFw7Read_kept {s0 : State} (a : Acc) (s : State) (hs : Kept s0 s) :
    ∀ wz, execRngFw7Read a s = .next wz → Kept s0 wz := by
  unfold execRngFw7Read
  apply State.readRow_kept
  all_goals try dsimp only
  repeat' with_reducible first
    | assumption

theorem execWickLoadRead_kept {s0 : State} (a : Acc) (s : State) (hs : Kept s0 s) :
    ∀ wz, execWickLoadRead a s = .next wz → Kept s0 wz := by
  unfold execWickLoadRead
  apply State.readRow_kept
  all_goals try dsimp only
  repeat' with_reducible first
    | assumption

theorem execFastclsWrite_kept {s0 : State} (a : Acc) (v : Word32) (s : State) (hs : Kept s0 s) :
    ∀ wz, execFastclsWrite a v s = .next wz → Kept s0 wz := by
  unfold execFastclsWrite
  apply State.writeRow_kept
  all_goals try dsimp only
  repeat' with_reducible first
    | assumption

theorem execEpochSwitch_kept {s0 : State} (a : Acc) (adm : Bool) (v : Word32) (s : State) (hs : Kept s0 s) :
    ∀ wz, execEpochSwitch a adm v s = .next wz → Kept s0 wz := by
  unfold execEpochSwitch
  apply State.writeRow_kept
  all_goals try dsimp only
  repeat' with_reducible first
    | assumption

theorem execSaLoad_kept {s0 : State} (a : Acc) (v : Word32) (s : State) (hs : Kept s0 s) :
    ∀ wz, execSaLoad a v s = .next wz → Kept s0 wz := by
  unfold execSaLoad
  apply State.writeRow_kept
  all_goals try dsimp only
  repeat' with_reducible first
    | assumption

theorem execPortcfgWrite_kept {s0 : State} (a : Acc) (v : Word32) (s : State) (hs : Kept s0 s) :
    ∀ wz, execPortcfgWrite a v s = .next wz → Kept s0 wz := by
  unfold execPortcfgWrite
  apply State.writeRow_kept
  all_goals try dsimp only
  repeat' with_reducible first
    | assumption

theorem execMgtGo_kept {s0 : State} (a : Acc) (v : Word32) (s : State) (hs : Kept s0 s) :
    ∀ wz, execMgtGo a v s = .next wz → Kept s0 wz := by
  unfold execMgtGo
  apply State.writeRow_kept
  all_goals try dsimp only
  repeat' with_reducible first
    | assumption

theorem execProgramLoad_kept {s0 : State} (a : Acc) (v : Word32) (s : State) (hs : Kept s0 s) :
    ∀ wz, execProgramLoad a v s = .next wz → Kept s0 wz := by
  unfold execProgramLoad
  apply State.writeRow_kept
  all_goals try dsimp only
  repeat' with_reducible first
    | assumption

theorem execPslotFree_kept {s0 : State} (a : Acc) (v : Word32) (s : State) (hs : Kept s0 s) :
    ∀ wz, execPslotFree a v s = .next wz → Kept s0 wz := by
  unfold execPslotFree
  apply State.writeRow_kept
  all_goals try dsimp only
  repeat' with_reducible first
    | assumption

theorem execIreqSubmit_kept {s0 : State} (a : Acc) (v : Word32) (s : State) (hs : Kept s0 s) :
    ∀ wz, execIreqSubmit a v s = .next wz → Kept s0 wz := by
  unfold execIreqSubmit
  apply State.writeRow_kept
  all_goals try dsimp only
  repeat' with_reducible first
    | assumption

theorem execActEpochSwitch_kept {s0 : State} (a : Acc) (v : Word32) (s : State) (hs : Kept s0 s) :
    ∀ wz, execActEpochSwitch a v s = .next wz → Kept s0 wz := by
  unfold execActEpochSwitch
  apply State.writeRow_kept
  all_goals try dsimp only
  repeat' with_reducible first
    | assumption

theorem execRuleStagingWrite_kept {s0 : State} (a : Acc) (n : Fin 1024) (k : Fin 6) (v : Word32) (s : State) (hs : Kept s0 s) :
    ∀ wz, execRuleStagingWrite a n k v s = .next wz → Kept s0 wz := by
  unfold execRuleStagingWrite
  apply State.writeRow_kept
  all_goals try dsimp only
  repeat' with_reducible first
    | assumption

theorem execDbgstkyClear_kept {s0 : State} (a : Acc) (v : Word32) (s : State) (hs : Kept s0 s) :
    ∀ wz, execDbgstkyClear a v s = .next wz → Kept s0 wz := by
  unfold execDbgstkyClear
  apply State.writeRow_kept
  all_goals try dsimp only
  repeat' with_reducible first
    | assumption

theorem execCphRetire_kept {s0 : State} (a : Acc) (v : Word32) (s : State) (hs : Kept s0 s) :
    ∀ wz, execCphRetire a v s = .next wz → Kept s0 wz := by
  unfold execCphRetire
  apply State.writeRow_kept
  all_goals try dsimp only
  repeat' with_reducible first
    | assumption

theorem execCphReinst_kept {s0 : State} (a : Acc) (v : Word32) (s : State) (hs : Kept s0 s) :
    ∀ wz, execCphReinst a v s = .next wz → Kept s0 wz := by
  unfold execCphReinst
  apply State.writeRow_kept
  all_goals try dsimp only
  repeat' with_reducible first
    | assumption

theorem execMauRetire_kept {s0 : State} (a : Acc) (v : Word32) (s : State) (hs : Kept s0 s) :
    ∀ wz, execMauRetire a v s = .next wz → Kept s0 wz := by
  unfold execMauRetire
  apply State.writeRow_kept
  all_goals try dsimp only
  repeat' with_reducible first
    | assumption

theorem execMauReinst_kept {s0 : State} (a : Acc) (v : Word32) (s : State) (hs : Kept s0 s) :
    ∀ wz, execMauReinst a v s = .next wz → Kept s0 wz := by
  unfold execMauReinst
  apply State.writeRow_kept
  all_goals try dsimp only
  repeat' with_reducible first
    | assumption

theorem execPin_kept {s0 : State} (a : Acc) (s : State) (hs : Kept s0 s) :
    ∀ wz, execPin a s = .next wz → Kept s0 wz := by
  unfold execPin
  apply State.writeRow_kept
  all_goals try dsimp only
  repeat' with_reducible first
    | assumption

theorem execUnpin_kept {s0 : State} (a : Acc) (s : State) (hs : Kept s0 s) :
    ∀ wz, execUnpin a s = .next wz → Kept s0 wz := by
  unfold execUnpin
  apply State.writeRow_kept
  all_goals try dsimp only
  repeat' with_reducible first
    | assumption

theorem execPrefetch_kept {s0 : State} (a : Acc) (s : State) (hs : Kept s0 s) :
    ∀ wz, execPrefetch a s = .next wz → Kept s0 wz := by
  unfold execPrefetch
  apply State.writeRow_kept
  all_goals try dsimp only
  repeat' with_reducible first
    | assumption

theorem execEvict_kept {s0 : State} (a : Acc) (s : State) (hs : Kept s0 s) :
    ∀ wz, execEvict a s = .next wz → Kept s0 wz := by
  unfold execEvict
  apply State.writeRow_kept
  all_goals try dsimp only
  repeat' with_reducible first
    | assumption

theorem execCheckpoint_kept {s0 : State} (a : Acc) (s : State) (hs : Kept s0 s) :
    ∀ wz, execCheckpoint a s = .next wz → Kept s0 wz := by
  unfold execCheckpoint
  apply State.writeRow_kept
  all_goals try dsimp only
  repeat' with_reducible first
    | assumption

theorem execImportBlob_kept {s0 : State} (a : Acc) (s : State) (hs : Kept s0 s) :
    ∀ wz, execImportBlob a s = .next wz → Kept s0 wz := by
  unfold execImportBlob
  apply State.writeRow_kept
  all_goals try dsimp only
  repeat' with_reducible first
    | assumption

theorem execKstCmdInvalid_kept {s0 : State} (a : Acc) (op : BitVec 4) (s : State) (hs : Kept s0 s) :
    ∀ wz, execKstCmdInvalid a op s = .next wz → Kept s0 wz := by
  unfold execKstCmdInvalid
  apply State.writeRow_kept
  all_goals try dsimp only
  repeat' with_reducible first
    | assumption

theorem execRngEnable_kept {s0 : State} (a : Acc) (v : Word32) (s : State) (hs : Kept s0 s) :
    ∀ wz, execRngEnable a v s = .next wz → Kept s0 wz := by
  unfold execRngEnable
  apply State.writeRow_kept
  all_goals try dsimp only
  repeat' with_reducible first
    | assumption

theorem execRngDisable_kept {s0 : State} (a : Acc) (v : Word32) (s : State) (hs : Kept s0 s) :
    ∀ wz, execRngDisable a v s = .next wz → Kept s0 wz := by
  unfold execRngDisable
  apply State.writeRow_kept
  all_goals try dsimp only
  repeat' with_reducible first
    | assumption

theorem execRawEnWrite_kept {s0 : State} (a : Acc) (v : Word32) (s : State) (hs : Kept s0 s) :
    ∀ wz, execRawEnWrite a v s = .next wz → Kept s0 wz := by
  unfold execRawEnWrite
  apply State.writeRow_kept
  all_goals try dsimp only
  repeat' with_reducible first
    | assumption

theorem execRngFwRequest_kept {s0 : State} (a : Acc) (v : Word32) (s : State) (hs : Kept s0 s) :
    ∀ wz, execRngFwRequest a v s = .next wz → Kept s0 wz := by
  unfold execRngFwRequest
  apply State.writeRow_kept
  all_goals try dsimp only
  repeat' with_reducible first
    | assumption

theorem execDuoEnable_kept {s0 : State} (a : Acc) (v : Word32) (s : State) (hs : Kept s0 s) :
    ∀ wz, execDuoEnable a v s = .next wz → Kept s0 wz := by
  unfold execDuoEnable
  apply State.writeRow_kept
  all_goals try dsimp only
  repeat' with_reducible first
    | assumption

theorem execLanternRelease_kept {s0 : State} (a : Acc) (v : Word32) (s : State) (hs : Kept s0 s) :
    ∀ wz, execLanternRelease a v s = .next wz → Kept s0 wz := by
  unfold execLanternRelease
  apply State.writeRow_kept
  all_goals try dsimp only
  repeat' with_reducible first
    | assumption

theorem execFullResync_kept {s0 : State} (a : Acc) (v : Word32) (s : State) (hs : Kept s0 s) :
    ∀ wz, execFullResync a v s = .next wz → Kept s0 wz := by
  unfold execFullResync
  apply State.writeRow_kept
  all_goals try dsimp only
  repeat' with_reducible first
    | assumption

theorem execEpochClear_kept {s0 : State} (a : Acc) (v : Word32) (s : State) (hs : Kept s0 s) :
    ∀ wz, execEpochClear a v s = .next wz → Kept s0 wz := by
  unfold execEpochClear
  apply State.writeRow_kept
  all_goals try dsimp only
  repeat' with_reducible first
    | assumption

theorem execDuoLeave_kept {s0 : State} (a : Acc) (v : Word32) (s : State) (hs : Kept s0 s) :
    ∀ wz, execDuoLeave a v s = .next wz → Kept s0 wz := by
  unfold execDuoLeave
  apply State.writeRow_kept
  all_goals try dsimp only
  repeat' with_reducible first
    | assumption

theorem execSysReset_kept {s0 : State} (a : Acc) (v : Word32) (s : State) (hs : Kept s0 s) :
    ∀ wz, execSysReset a v s = .next wz → Kept s0 wz := by
  unfold execSysReset
  apply State.writeRow_kept
  all_goals try dsimp only
  repeat' with_reducible first
    | assumption

theorem execModeRequestService_kept {s0 : State} (a : Acc) (v : Word32) (s : State) (hs : Kept s0 s) :
    ∀ wz, execModeRequestService a v s = .next wz → Kept s0 wz := by
  unfold execModeRequestService
  apply State.writeRow_kept
  all_goals try dsimp only
  repeat' with_reducible first
    | assumption

theorem execModeRequestCustody_kept {s0 : State} (a : Acc) (v : Word32) (s : State) (hs : Kept s0 s) :
    ∀ wz, execModeRequestCustody a v s = .next wz → Kept s0 wz := by
  unfold execModeRequestCustody
  apply State.writeRow_kept
  all_goals try dsimp only
  repeat' with_reducible first
    | assumption

theorem execModeRequestStandby_kept {s0 : State} (a : Acc) (v : Word32) (s : State) (hs : Kept s0 s) :
    ∀ wz, execModeRequestStandby a v s = .next wz → Kept s0 wz := by
  unfold execModeRequestStandby
  apply State.writeRow_kept
  all_goals try dsimp only
  repeat' with_reducible first
    | assumption

theorem execModeRequestInvalid_kept {s0 : State} (a : Acc) (v : Word32) (s : State) (hs : Kept s0 s) :
    ∀ wz, execModeRequestInvalid a v s = .next wz → Kept s0 wz := by
  unfold execModeRequestInvalid
  apply State.writeRow_kept
  all_goals try dsimp only
  repeat' with_reducible first
    | assumption

theorem execBootstatWrite_kept {s0 : State} (a : Acc) (v : Word32) (s : State) (hs : Kept s0 s) :
    ∀ wz, execBootstatWrite a v s = .next wz → Kept s0 wz := by
  unfold execBootstatWrite
  refine event_kept ?_ (fun _ _ => ?_)
  all_goals try dsimp only
  repeat' with_reducible first
    | assumption
    | apply State.anyWrite_kept
    | apply State.stageStarts_kept
    | apply State.firmwareStarts_kept
    | apply Kept.ite
    | split

theorem execLifecycleAdvance_kept {s0 : State} (a : Acc) (v : Word32) (s : State) (hs : Kept s0 s) :
    ∀ wz, execLifecycleAdvance a v s = .next wz → Kept s0 wz := by
  unfold execLifecycleAdvance
  apply State.writeRow_kept
  all_goals try dsimp only
  repeat' with_reducible first
    | assumption

theorem execReprovision_kept {s0 : State} (a : Acc) (v : Word32) (s : State) (hs : Kept s0 s) :
    ∀ wz, execReprovision a v s = .next wz → Kept s0 wz := by
  unfold execReprovision
  apply State.writeRow_kept
  all_goals try dsimp only
  repeat' with_reducible first
    | assumption

theorem execCoreStart_kept {s0 : State} (a : Acc) (n : Fin 16) (v : Word32) (s : State) (hs : Kept s0 s) :
    ∀ wz, execCoreStart a n v s = .next wz → Kept s0 wz := by
  unfold execCoreStart
  apply State.writeRow_kept
  all_goals try dsimp only
  repeat' with_reducible first
    | assumption

theorem execCoreStop_kept {s0 : State} (a : Acc) (n : Fin 16) (v : Word32) (s : State) (hs : Kept s0 s) :
    ∀ wz, execCoreStop a n v s = .next wz → Kept s0 wz := by
  unfold execCoreStop
  apply State.writeRow_kept
  all_goals try dsimp only
  repeat' with_reducible first
    | assumption

theorem execDoorbellSet_kept {s0 : State} (a : Acc) (n : Fin 16) (v : Word32) (s : State) (hs : Kept s0 s) :
    ∀ wz, execDoorbellSet a n v s = .next wz → Kept s0 wz := by
  unfold execDoorbellSet
  apply State.writeRow_kept
  all_goals try dsimp only
  repeat' with_reducible first
    | assumption

theorem execProgram_kept {s0 : State} (a : Acc) (v : Word32) (s : State) (hs : Kept s0 s) :
    ∀ wz, execProgram a v s = .next wz → Kept s0 wz := by
  unfold execProgram
  apply State.writeRow_kept
  all_goals try dsimp only
  repeat' with_reducible first
    | assumption

theorem execErase_kept {s0 : State} (a : Acc) (v : Word32) (s : State) (hs : Kept s0 s) :
    ∀ wz, execErase a v s = .next wz → Kept s0 wz := by
  unfold execErase
  apply State.writeRow_kept
  all_goals try dsimp only
  repeat' with_reducible first
    | assumption

theorem execCopy_kept {s0 : State} (a : Acc) (v : Word32) (s : State) (hs : Kept s0 s) :
    ∀ wz, execCopy a v s = .next wz → Kept s0 wz := by
  unfold execCopy
  apply State.writeRow_kept
  all_goals try dsimp only
  repeat' with_reducible first
    | assumption

theorem execOtpProgram_kept {s0 : State} (a : Acc) (v : Word32) (s : State) (hs : Kept s0 s) :
    ∀ wz, execOtpProgram a v s = .next wz → Kept s0 wz := by
  unfold execOtpProgram
  apply State.writeRow_kept
  all_goals try dsimp only
  repeat' with_reducible first
    | assumption

theorem execTmpStkyClear_kept {s0 : State} (a : Acc) (v : Word32) (s : State) (hs : Kept s0 s) :
    ∀ wz, execTmpStkyClear a v s = .next wz → Kept s0 wz := by
  unfold execTmpStkyClear
  apply State.writeRow_kept
  all_goals try dsimp only
  repeat' with_reducible first
    | assumption

theorem execTmpSrccfgWrite_kept {s0 : State} (a : Acc) (n : Fin 28) (v : Word32) (s : State) (hs : Kept s0 s) :
    ∀ wz, execTmpSrccfgWrite a n v s = .next wz → Kept s0 wz := by
  unfold execTmpSrccfgWrite
  apply State.writeRow_kept
  all_goals try dsimp only
  repeat' with_reducible first
    | assumption

theorem execTamperBist_kept {s0 : State} (a : Acc) (v : Word32) (s : State) (hs : Kept s0 s) :
    ∀ wz, execTamperBist a v s = .next wz → Kept s0 wz := by
  unfold execTamperBist
  apply State.writeRow_kept
  all_goals try dsimp only
  repeat' with_reducible first
    | assumption

theorem execWckActWake_kept {s0 : State} (a : Acc) (v : Word32) (s : State) (hs : Kept s0 s) :
    ∀ wz, execWckActWake a v s = .next wz → Kept s0 wz := by
  unfold execWckActWake
  apply State.writeRow_kept
  all_goals try dsimp only
  repeat' with_reducible first
    | assumption

theorem execWckActPromote_kept {s0 : State} (a : Acc) (v : Word32) (s : State) (hs : Kept s0 s) :
    ∀ wz, execWckActPromote a v s = .next wz → Kept s0 wz := by
  unfold execWckActPromote
  apply State.writeRow_kept
  all_goals try dsimp only
  repeat' with_reducible first
    | assumption

theorem execWckActAlarm_kept {s0 : State} (a : Acc) (v : Word32) (s : State) (hs : Kept s0 s) :
    ∀ wz, execWckActAlarm a v s = .next wz → Kept s0 wz := by
  unfold execWckActAlarm
  apply State.writeRow_kept
  all_goals try dsimp only
  repeat' with_reducible first
    | assumption

theorem execWckActSnuff_kept {s0 : State} (a : Acc) (v : Word32) (s : State) (hs : Kept s0 s) :
    ∀ wz, execWckActSnuff a v s = .next wz → Kept s0 wz := by
  unfold execWckActSnuff
  apply State.writeRow_kept
  all_goals try dsimp only
  repeat' with_reducible first
    | assumption

theorem execWickRun_kept {s0 : State} (a : Acc) (v : Word32) (s : State) (hs : Kept s0 s) :
    ∀ wz, execWickRun a v s = .next wz → Kept s0 wz := by
  unfold execWickRun
  apply State.writeRow_kept
  all_goals try dsimp only
  repeat' with_reducible first
    | assumption

theorem execWickHalt_kept {s0 : State} (a : Acc) (v : Word32) (s : State) (hs : Kept s0 s) :
    ∀ wz, execWickHalt a v s = .next wz → Kept s0 wz := by
  unfold execWickHalt
  apply State.writeRow_kept
  all_goals try dsimp only
  repeat' with_reducible first
    | assumption

theorem execWickLoadWrite_kept {s0 : State} (a : Acc) (v : Word32) (s : State) (hs : Kept s0 s) :
    ∀ wz, execWickLoadWrite a v s = .next wz → Kept s0 wz := by
  unfold execWickLoadWrite
  apply State.writeRow_kept
  all_goals try dsimp only
  repeat' with_reducible first
    | assumption

theorem execWatchdogKick_kept {s0 : State} (a : Acc) (v : Word32) (s : State) (hs : Kept s0 s) :
    ∀ wz, execWatchdogKick a v s = .next wz → Kept s0 wz := by
  unfold execWatchdogKick
  apply State.writeRow_kept
  all_goals try dsimp only
  repeat' with_reducible first
    | assumption

theorem execSevereClear_kept {s0 : State} (a : Acc) (k : Fin 4) (v : Word32) (s : State) (hs : Kept s0 s) :
    ∀ wz, execSevereClear a k v s = .next wz → Kept s0 wz := by
  unfold execSevereClear
  apply State.writeRow_kept
  all_goals try dsimp only
  repeat' with_reducible first
    | assumption

theorem execFaultStickyClear_kept {s0 : State} (a : Acc) (k : Fin 4) (v : Word32) (s : State) (hs : Kept s0 s) :
    ∀ wz, execFaultStickyClear a k v s = .next wz → Kept s0 wz := by
  unfold execFaultStickyClear
  apply State.writeRow_kept
  all_goals try dsimp only
  repeat' with_reducible first
    | assumption

theorem execFaultForce_kept {s0 : State} (a : Acc) (k : Fin 4) (v : Word32) (s : State) (hs : Kept s0 s) :
    ∀ wz, execFaultForce a k v s = .next wz → Kept s0 wz := by
  unfold execFaultForce
  apply State.writeRow_kept
  all_goals try dsimp only
  repeat' with_reducible first
    | assumption

theorem execFaultConfigWrite_kept {s0 : State} (a : Acc) (n : Fin 128) (v : Word32) (s : State) (hs : Kept s0 s) :
    ∀ wz, execFaultConfigWrite a n v s = .next wz → Kept s0 wz := by
  unfold execFaultConfigWrite
  apply State.writeRow_kept
  all_goals try dsimp only
  repeat' with_reducible first
    | assumption

theorem execCardActivate_kept {s0 : State} (a : Acc) (n : Fin 2) (v : Word32) (s : State) (hs : Kept s0 s) :
    ∀ wz, execCardActivate a n v s = .next wz → Kept s0 wz := by
  unfold execCardActivate
  apply State.writeRow_kept
  all_goals try dsimp only
  repeat' with_reducible first
    | assumption

theorem execCardDeactivate_kept {s0 : State} (a : Acc) (n : Fin 2) (v : Word32) (s : State) (hs : Kept s0 s) :
    ∀ wz, execCardDeactivate a n v s = .next wz → Kept s0 wz := by
  unfold execCardDeactivate
  apply State.writeRow_kept
  all_goals try dsimp only
  repeat' with_reducible first
    | assumption

theorem execCrdDisable_kept {s0 : State} (a : Acc) (v : Word32) (s : State) (hs : Kept s0 s) :
    ∀ wz, execCrdDisable a v s = .next wz → Kept s0 wz := by
  unfold execCrdDisable
  apply State.writeRow_kept
  all_goals try dsimp only
  repeat' with_reducible first
    | assumption

theorem execCardExchange_kept {s0 : State} (a : Acc) (n : Fin 2) (v : Word32) (s : State) (hs : Kept s0 s) :
    ∀ wz, execCardExchange a n v s = .next wz → Kept s0 wz := by
  unfold execCardExchange
  apply State.writeRow_kept
  all_goals try dsimp only
  repeat' with_reducible first
    | assumption

theorem execQuorumOpen_kept {s0 : State} (a : Acc) (v : Word32) (s : State) (hs : Kept s0 s) :
    ∀ wz, execQuorumOpen a v s = .next wz → Kept s0 wz := by
  unfold execQuorumOpen
  apply State.writeRow_kept
  all_goals try dsimp only
  repeat' with_reducible first
    | assumption

theorem execQuorumAttest_kept {s0 : State} (a : Acc) (v : Word32) (s : State) (hs : Kept s0 s) :
    ∀ wz, execQuorumAttest a v s = .next wz → Kept s0 wz := by
  unfold execQuorumAttest
  apply State.writeRow_kept
  all_goals try dsimp only
  repeat' with_reducible first
    | assumption

theorem execQuorumAbort_kept {s0 : State} (a : Acc) (v : Word32) (s : State) (hs : Kept s0 s) :
    ∀ wz, execQuorumAbort a v s = .next wz → Kept s0 wz := by
  unfold execQuorumAbort
  apply State.writeRow_kept
  all_goals try dsimp only
  repeat' with_reducible first
    | assumption

theorem execRosterCommit_kept {s0 : State} (a : Acc) (v : Word32) (s : State) (hs : Kept s0 s) :
    ∀ wz, execRosterCommit a v s = .next wz → Kept s0 wz := by
  unfold execRosterCommit
  apply State.writeRow_kept
  all_goals try dsimp only
  repeat' with_reducible first
    | assumption

theorem execTagWiredRead_kept {s0 : State} (a : Acc) (v : Word32) (s : State) (hs : Kept s0 s) :
    ∀ wz, execTagWiredRead a v s = .next wz → Kept s0 wz := by
  unfold execTagWiredRead
  apply State.writeRow_kept
  all_goals try dsimp only
  repeat' with_reducible first
    | assumption

theorem execTagWiredWrite_kept {s0 : State} (a : Acc) (v : Word32) (s : State) (hs : Kept s0 s) :
    ∀ wz, execTagWiredWrite a v s = .next wz → Kept s0 wz := by
  unfold execTagWiredWrite
  apply State.writeRow_kept
  all_goals try dsimp only
  repeat' with_reducible first
    | assumption

theorem execTagWiredInvalid_kept {s0 : State} (a : Acc) (v : Word32) (s : State) (hs : Kept s0 s) :
    ∀ wz, execTagWiredInvalid a v s = .next wz → Kept s0 wz := by
  unfold execTagWiredInvalid
  apply State.writeRow_kept
  all_goals try dsimp only
  repeat' with_reducible first
    | assumption

theorem execTagGroupApply_kept {s0 : State} (a : Acc) (v : Word32) (s : State) (hs : Kept s0 s) :
    ∀ wz, execTagGroupApply a v s = .next wz → Kept s0 wz := by
  unfold execTagGroupApply
  apply State.writeRow_kept
  all_goals try dsimp only
  repeat' with_reducible first
    | assumption

theorem execCalApply_kept {s0 : State} (a : Acc) (v : Word32) (s : State) (hs : Kept s0 s) :
    ∀ wz, execCalApply a v s = .next wz → Kept s0 wz := by
  unfold execCalApply
  apply State.writeRow_kept
  all_goals try dsimp only
  repeat' with_reducible first
    | assumption

theorem execPmcSnapshot_kept {s0 : State} (a : Acc) (v : Word32) (s : State) (hs : Kept s0 s) :
    ∀ wz, execPmcSnapshot a v s = .next wz → Kept s0 wz := by
  unfold execPmcSnapshot
  apply State.writeRow_kept
  all_goals try dsimp only
  repeat' with_reducible first
    | assumption

theorem execObsSelect_kept {s0 : State} (a : Acc) (k : Fin 8) (v : Word32) (s : State) (hs : Kept s0 s) :
    ∀ wz, execObsSelect a k v s = .next wz → Kept s0 wz := by
  unfold execObsSelect
  apply State.writeRow_kept
  all_goals try dsimp only
  repeat' with_reducible first
    | assumption

theorem execDapRead_kept {s0 : State} (dt : Nat) (addr : BitVec 48) (s : State) (hs : Kept s0 s) :
    ∀ wz, execDapRead dt addr s = .next wz → Kept s0 wz := by
  unfold execDapRead
  refine timed_kept ?_ (fun _ _ => ?_)
  all_goals try dsimp only
  repeat' with_reducible first
    | assumption
    | apply State.dapAccess_kept

theorem execDapWrite_kept {s0 : State} (dt : Nat) (addr : BitVec 48) (v : Word32) (s : State) (hs : Kept s0 s) :
    ∀ wz, execDapWrite dt addr v s = .next wz → Kept s0 wz := by
  unfold execDapWrite
  refine timed_kept ?_ (fun _ _ => ?_)
  all_goals try dsimp only
  repeat' with_reducible first
    | assumption
    | apply State.dapAccess_kept

theorem State.execute_kept {s0 : State} (s : State) (h : Hart) (f : Form) (body : State → Res) (hs : Kept s0 s) (hbody : ∀ t, Kept s0 t → KeptR s0 (body t)) :
    ∀ wz, State.execute s h f body = .next wz → Kept s0 wz := by
  unfold State.execute
  refine event_kept ?_ (fun _ _ => ?_)
  all_goals try dsimp only
  repeat' with_reducible first
    | assumption
    | apply State.fetch_kept
    | apply State.raiseExc_kept
    | apply Res.finish_kept
    | apply hbody
    | apply KeptR.ite
    | apply Kept.ite
    | split
    | (refine Kept.snd (by assumption) ?_)

theorem execInterruptEntry_kept {s0 : State} (h : Hart) (s : State) (hs : Kept s0 s) :
    ∀ wz, execInterruptEntry h s = .next wz → Kept s0 wz := by
  unfold execInterruptEntry
  refine event_kept ?_ (fun _ _ => ?_)
  all_goals try dsimp only
  repeat' with_reducible first
    | assumption
    | apply State.setCore_kept
    | apply State.retired_kept
    | apply State.enterExc_kept
    | apply Kept.ite
    | split

theorem execWaitWake_kept {s0 : State} (h : Hart) (s : State) (hs : Kept s0 s) :
    ∀ wz, execWaitWake h s = .next wz → Kept s0 wz := by
  unfold execWaitWake
  refine event_kept ?_ (fun _ _ => ?_)
  all_goals try dsimp only
  repeat' with_reducible first
    | assumption
    | apply State.setCore_kept
    | apply State.retired_kept
    | split

theorem execDeferredBusError_kept {s0 : State} (n : Fin 16) (s : State) (hs : Kept s0 s) :
    ∀ wz, execDeferredBusError n s = .next wz → Kept s0 wz := by
  unfold execDeferredBusError
  refine event_kept ?_ (fun _ _ => ?_)
  all_goals try dsimp only
  repeat' with_reducible first
    | assumption
    | apply State.setCore_kept
    | apply State.enterExc_kept
    | split

theorem execEput_kept {s0 : State} (h : Hart) (f : FmtE) (s : State) (hs : Kept s0 s) :
    ∀ wz, execEput h f s = .next wz → Kept s0 wz := by
  unfold execEput
  refine State.execute_kept _ _ _ _ ?_ (fun _ _ => ?_)
  all_goals try dsimp only
  repeat' with_reducible first
    | assumption
    | refine withCtx_kept _ _ _ ?_ (fun _ _ => ?_)
    | apply State.setCtx_kept
    | refine KeptR.seq ?_

theorem execEiss_kept {s0 : State} (h : Hart) (f : FmtE) (s : State) (hs : Kept s0 s) :
    ∀ wz, execEiss h f s = .next wz → Kept s0 wz := by
  unfold execEiss
  refine State.execute_kept _ _ _ _ ?_ (fun _ _ => ?_)
  all_goals try dsimp only
  repeat' with_reducible first
    | assumption
    | refine withCtx_kept _ _ _ ?_ (fun _ _ => ?_)
    | apply State.setGpr_kept
    | apply State.issue_kept
    | apply KeptR.ite
    | refine KeptR.seq ?_
    | refine KeptR.raises ?_
    | apply Kept.ite
    | split

theorem execEwait_kept {s0 : State} (h : Hart) (f : FmtE) (s : State) (hs : Kept s0 s) :
    ∀ wz, execEwait h f s = .next wz → Kept s0 wz := by
  unfold execEwait
  refine State.execute_kept _ _ _ _ ?_ (fun _ _ => ?_)
  all_goals try dsimp only
  repeat' with_reducible first
    | assumption
    | refine withCtx_kept _ _ _ ?_ (fun _ _ => ?_)
    | apply State.takeWord_kept
    | apply State.park_kept
    | apply KeptR.ite
    | refine KeptR.seq ?_
    | refine KeptR.raises ?_
    | refine KeptR.stays ?_
    | apply Kept.ite
    | split

theorem execEpoll_kept {s0 : State} (h : Hart) (f : FmtE) (s : State) (hs : Kept s0 s) :
    ∀ wz, execEpoll h f s = .next wz → Kept s0 wz := by
  unfold execEpoll
  refine State.execute_kept _ _ _ _ ?_ (fun _ _ => ?_)
  all_goals try dsimp only
  repeat' with_reducible first
    | assumption
    | refine withCtx_kept _ _ _ ?_ (fun _ _ => ?_)
    | apply State.setGpr_kept
    | apply State.setTicket_kept
    | refine KeptR.seq ?_
    | refine KeptR.raises ?_
    | split

theorem execEabort_kept {s0 : State} (h : Hart) (f : FmtE) (s : State) (hs : Kept s0 s) :
    ∀ wz, execEabort h f s = .next wz → Kept s0 wz := by
  unfold execEabort
  refine State.execute_kept _ _ _ _ ?_ (fun _ _ => ?_)
  all_goals try dsimp only
  repeat' with_reducible first
    | assumption
    | refine withCtx_kept _ _ _ ?_ (fun _ _ => ?_)
    | apply State.postTicket_kept
    | apply State.abortWhere_kept
    | refine KeptR.seq ?_
    | refine KeptR.raises ?_
    | split

theorem execProgramLoadDone_kept {s0 : State} (dt : Nat) (s : State) (hs : Kept s0 s) :
    ∀ wz, execProgramLoadDone dt s = .next wz → Kept s0 wz := by
  unfold execProgramLoadDone
  refine timed_kept ?_ (fun _ _ => ?_)
  all_goals try dsimp only
  repeat' with_reducible first
    | assumption
    | apply State.loadImage_kept
    | split

theorem execCcopy_kept {s0 : State} (h : Hart) (f : FmtC) (s : State) (hs : Kept s0 s) :
    ∀ wz, execCcopy h f s = .next wz → Kept s0 wz := by
  unfold execCcopy
  refine State.execute_kept _ _ _ _ ?_ (fun _ _ => ?_)
  all_goals try dsimp only
  repeat' with_reducible first
    | assumption
    | apply State.givesCap_kept

theorem execCnarrow_kept {s0 : State} (h : Hart) (f : FmtC) (s : State) (hs : Kept s0 s) :
    ∀ wz, execCnarrow h f s = .next wz → Kept s0 wz := by
  unfold execCnarrow
  refine State.execute_kept _ _ _ _ ?_ (fun _ _ => ?_)
  all_goals try dsimp only
  repeat' with_reducible first
    | assumption
    | apply State.givesCap_kept
    | apply KeptR.ite
    | refine KeptR.raises ?_
    | apply Kept.ite
    | split

theorem execCtrim_kept {s0 : State} (h : Hart) (f : FmtC) (s : State) (hs : Kept s0 s) :
    ∀ wz, execCtrim h f s = .next wz → Kept s0 wz := by
  unfold execCtrim
  refine State.execute_kept _ _ _ _ ?_ (fun _ _ => ?_)
  all_goals try dsimp only
  repeat' with_reducible first
    | assumption
    | apply State.givesCap_kept
    | refine KeptR.raises ?_
    | split

theorem execClock_kept {s0 : State} (h : Hart) (f : FmtC) (s : State) (hs : Kept s0 s) :
    ∀ wz, execClock h f s = .next wz → Kept s0 wz := by
  unfold execClock
  refine State.execute_kept _ _ _ _ ?_ (fun _ _ => ?_)
  all_goals try dsimp only
  repeat' with_reducible first
    | assumption
    | apply State.givesCap_kept
    | apply KeptR.ite
    | refine KeptR.raises ?_

theorem execCunlock_kept {s0 : State} (h : Hart) (f : FmtC) (s : State) (hs : Kept s0 s) :
    ∀ wz, execCunlock h f s = .next wz → Kept s0 wz := by
  unfold execCunlock
  refine State.execute_kept _ _ _ _ ?_ (fun _ _ => ?_)
  all_goals try dsimp only
  repeat' with_reducible first
    | assumption
    | apply State.givesCap_kept
    | apply KeptR.ite
    | refine KeptR.raises ?_

theorem execCvoid_kept {s0 : State} (h : Hart) (f : FmtC) (s : State) (hs : Kept s0 s) :
    ∀ wz, execCvoid h f s = .next wz → Kept s0 wz := by
  unfold execCvoid
  refine State.execute_kept _ _ _ _ ?_ (fun _ _ => ?_)
  all_goals try dsimp only
  repeat' with_reducible first
    | assumption
    | apply State.givesCap_kept

theorem execCpcc_kept {s0 : State} (h : Hart) (f : FmtC) (s : State) (hs : Kept s0 s) :
    ∀ wz, execCpcc h f s = .next wz → Kept s0 wz := by
  unfold execCpcc
  refine State.execute_kept _ _ _ _ ?_ (fun _ _ => ?_)
  all_goals try dsimp only
  repeat' with_reducible first
    | assumption
    | apply State.givesCap_kept

theorem execCinfoBase_kept {s0 : State} (h : Hart) (f : FmtC) (s : State) (hs : Kept s0 s) :
    ∀ wz, execCinfoBase h f s = .next wz → Kept s0 wz := by
  unfold execCinfoBase
  refine State.execute_kept _ _ _ _ ?_ (fun _ _ => ?_)
  all_goals try dsimp only
  repeat' with_reducible first
    | assumption
    | apply capInfo_kept

theorem execCinfoEnd_kept {s0 : State} (h : Hart) (f : FmtC) (s : State) (hs : Kept s0 s) :
    ∀ wz, execCinfoEnd h f s = .next wz → Kept s0 wz := by
  unfold execCinfoEnd
  refine State.execute_kept _ _ _ _ ?_ (fun _ _ => ?_)
  all_goals try dsimp only
  repeat' with_reducible first
    | assumption
    | apply capInfo_kept

theorem execCinfoLength_kept {s0 : State} (h : Hart) (f : FmtC) (s : State) (hs : Kept s0 s) :
    ∀ wz, execCinfoLength h f s = .next wz → Kept s0 wz := by
  unfold execCinfoLength
  refine State.execute_kept _ _ _ _ ?_ (fun _ _ => ?_)
  all_goals try dsimp only
  repeat' with_reducible first
    | assumption
    | apply capInfo_kept

theorem execCinfoPerms_kept {s0 : State} (h : Hart) (f : FmtC) (s : State) (hs : Kept s0 s) :
    ∀ wz, execCinfoPerms h f s = .next wz → Kept s0 wz := by
  unfold execCinfoPerms
  refine State.execute_kept _ _ _ _ ?_ (fun _ _ => ?_)
  all_goals try dsimp only
  repeat' with_reducible first
    | assumption
    | apply capInfo_kept

theorem execCinfoOtype_kept {s0 : State} (h : Hart) (f : FmtC) (s : State) (hs : Kept s0 s) :
    ∀ wz, execCinfoOtype h f s = .next wz → Kept s0 wz := by
  unfold execCinfoOtype
  refine State.execute_kept _ _ _ _ ?_ (fun _ _ => ?_)
  all_goals try dsimp only
  repeat' with_reducible first
    | assumption
    | apply capInfo_kept

theorem execCinfoTag_kept {s0 : State} (h : Hart) (f : FmtC) (s : State) (hs : Kept s0 s) :
    ∀ wz, execCinfoTag h f s = .next wz → Kept s0 wz := by
  unfold execCinfoTag
  refine State.execute_kept _ _ _ _ ?_ (fun _ _ => ?_)
  all_goals try dsimp only
  repeat' with_reducible first
    | assumption
    | apply capInfo_kept

theorem execCwithin_kept {s0 : State} (h : Hart) (f : FmtC) (s : State) (hs : Kept s0 s) :
    ∀ wz, execCwithin h f s = .next wz → Kept s0 wz := by
  unfold execCwithin
  refine State.execute_kept _ _ _ _ ?_ (fun _ _ => ?_)
  all_goals try dsimp only
  repeat' with_reducible first
    | assumption
    | apply State.setGpr_kept
    | apply KeptR.ite
    | refine KeptR.seq ?_

theorem execCsame_kept {s0 : State} (h : Hart) (f : FmtC) (s : State) (hs : Kept s0 s) :
    ∀ wz, execCsame h f s = .next wz → Kept s0 wz := by
  unfold execCsame
  refine State.execute_kept _ _ _ _ ?_ (fun _ _ => ?_)
  all_goals try dsimp only
  repeat' with_reducible first
    | assumption
    | apply State.setGpr_kept
    | apply KeptR.ite
    | refine KeptR.seq ?_

theorem execBeq_kept {s0 : State} (h : Hart) (f : FmtB) (s : State) (hs : Kept s0 s) :
    ∀ wz, execBeq h f s = .next wz → Kept s0 wz := by
  unfold execBeq
  refine State.execute_kept _ _ _ _ ?_ (fun _ _ => ?_)
  all_goals try dsimp only
  repeat' with_reducible first
    | assumption
    | apply branchIf_kept

theorem execBne_kept {s0 : State} (h : Hart) (f : FmtB) (s : State) (hs : Kept s0 s) :
    ∀ wz, execBne h f s = .next wz → Kept s0 wz := by
  unfold execBne
  refine State.execute_kept _ _ _ _ ?_ (fun _ _ => ?_)
  all_goals try dsimp only
  repeat' with_reducible first
    | assumption
    | apply branchIf_kept

theorem execBlt_kept {s0 : State} (h : Hart) (f : FmtB) (s : State) (hs : Kept s0 s) :
    ∀ wz, execBlt h f s = .next wz → Kept s0 wz := by
  unfold execBlt
  refine State.execute_kept _ _ _ _ ?_ (fun _ _ => ?_)
  all_goals try dsimp only
  repeat' with_reducible first
    | assumption
    | apply branchIf_kept

theorem execBge_kept {s0 : State} (h : Hart) (f : FmtB) (s : State) (hs : Kept s0 s) :
    ∀ wz, execBge h f s = .next wz → Kept s0 wz := by
  unfold execBge
  refine State.execute_kept _ _ _ _ ?_ (fun _ _ => ?_)
  all_goals try dsimp only
  repeat' with_reducible first
    | assumption
    | apply branchIf_kept

theorem execBltu_kept {s0 : State} (h : Hart) (f : FmtB) (s : State) (hs : Kept s0 s) :
    ∀ wz, execBltu h f s = .next wz → Kept s0 wz := by
  unfold execBltu
  refine State.execute_kept _ _ _ _ ?_ (fun _ _ => ?_)
  all_goals try dsimp only
  repeat' with_reducible first
    | assumption
    | apply branchIf_kept

theorem execBgeu_kept {s0 : State} (h : Hart) (f : FmtB) (s : State) (hs : Kept s0 s) :
    ∀ wz, execBgeu h f s = .next wz → Kept s0 wz := by
  unfold execBgeu
  refine State.execute_kept _ _ _ _ ?_ (fun _ _ => ?_)
  all_goals try dsimp only
  repeat' with_reducible first
    | assumption
    | apply branchIf_kept

theorem execJ_kept {s0 : State} (h : Hart) (f : FmtJ) (s : State) (hs : Kept s0 s) :
    ∀ wz, execJ h f s = .next wz → Kept s0 wz := by
  unfold execJ
  refine State.execute_kept _ _ _ _ ?_ (fun _ _ => ?_)
  all_goals try dsimp only
  repeat' with_reducible first
    | assumption
    | apply jumpTo_kept

theorem execJal_kept {s0 : State} (h : Hart) (f : FmtJ) (s : State) (hs : Kept s0 s) :
    ∀ wz, execJal h f s = .next wz → Kept s0 wz := by
  unfold execJal
  refine State.execute_kept _ _ _ _ ?_ (fun _ _ => ?_)
  all_goals try dsimp only
  repeat' with_reducible first
    | assumption
    | apply jumpTo_kept

theorem execJr_kept {s0 : State} (h : Hart) (f : FmtA) (s : State) (hs : Kept s0 s) :
    ∀ wz, execJr h f s = .next wz → Kept s0 wz := by
  unfold execJr
  refine State.execute_kept _ _ _ _ ?_ (fun _ _ => ?_)
  all_goals try dsimp only
  repeat' with_reducible first
    | assumption
    | apply jumpTo_kept

theorem execJalr_kept {s0 : State} (h : Hart) (f : FmtA) (s : State) (hs : Kept s0 s) :
    ∀ wz, execJalr h f s = .next wz → Kept s0 wz := by
  unfold execJalr
  refine State.execute_kept _ _ _ _ ?_ (fun _ _ => ?_)
  all_goals try dsimp only
  repeat' with_reducible first
    | assumption
    | apply jumpTo_kept

theorem execCjmp_kept {s0 : State} (h : Hart) (f : FmtC) (s : State) (hs : Kept s0 s) :
    ∀ wz, execCjmp h f s = .next wz → Kept s0 wz := by
  unfold execCjmp
  refine State.execute_kept _ _ _ _ ?_ (fun _ _ => ?_)
  all_goals try dsimp only
  repeat' with_reducible first
    | assumption
    | refine settled_kept _ _ _ ?_ (fun _ _ => ?_)
    | apply enterGate_kept
    | refine KeptR.raises ?_
    | split

theorem execCret_kept {s0 : State} (h : Hart) (f : FmtC) (s : State) (hs : Kept s0 s) :
    ∀ wz, execCret h f s = .next wz → Kept s0 wz := by
  unfold execCret
  refine State.execute_kept _ _ _ _ ?_ (fun _ _ => ?_)
  all_goals try dsimp only
  repeat' with_reducible first
    | assumption
    | refine settled_kept _ _ _ ?_ (fun _ _ => ?_)
    | apply State.setCore_kept
    | apply KeptR.ite
    | refine KeptR.switch ?_
    | refine KeptR.raises ?_

theorem execIll_kept {s0 : State} (h : Hart) (ones : Bool) (rest : BitVec 26) (s : State) (hs : Kept s0 s) :
    ∀ wz, execIll h ones rest s = .next wz → Kept s0 wz := by
  unfold execIll
  refine State.execute_kept _ _ _ _ ?_ (fun _ _ => ?_)
  all_goals try dsimp only
  repeat' with_reducible first
    | assumption
    | apply KeptR.ite
    | refine KeptR.stays ?_

theorem execReservedInstruction_kept {s0 : State} (h : Hart) (w : Word32) (s : State) (hs : Kept s0 s) :
    ∀ wz, execReservedInstruction h w s = .next wz → Kept s0 wz := by
  unfold execReservedInstruction
  refine State.execute_kept _ _ _ _ ?_ (fun _ _ => ?_)
  all_goals try dsimp only
  repeat' with_reducible first
    | assumption
    | refine KeptR.raises ?_

theorem execAdd_kept {s0 : State} (h : Hart) (f : FmtA) (s : State) (hs : Kept s0 s) :
    ∀ wz, execAdd h f s = .next wz → Kept s0 wz := by
  unfold execAdd
  refine State.execute_kept _ _ _ _ ?_ (fun _ _ => ?_)
  all_goals try dsimp only
  repeat' with_reducible first
    | assumption
    | apply opA_kept

theorem execSub_kept {s0 : State} (h : Hart) (f : FmtA) (s : State) (hs : Kept s0 s) :
    ∀ wz, execSub h f s = .next wz → Kept s0 wz := by
  unfold execSub
  refine State.execute_kept _ _ _ _ ?_ (fun _ _ => ?_)
  all_goals try dsimp only
  repeat' with_reducible first
    | assumption
    | apply opA_kept

theorem execAnd_kept {s0 : State} (h : Hart) (f : FmtA) (s : State) (hs : Kept s0 s) :
    ∀ wz, execAnd h f s = .next wz → Kept s0 wz := by
  unfold execAnd
  refine State.execute_kept _ _ _ _ ?_ (fun _ _ => ?_)
  all_goals try dsimp only
  repeat' with_reducible first
    | assumption
    | apply opA_kept

theorem execOr_kept {s0 : State} (h : Hart) (f : FmtA) (s : State) (hs : Kept s0 s) :
    ∀ wz, execOr h f s = .next wz → Kept s0 wz := by
  unfold execOr
  refine State.execute_kept _ _ _ _ ?_ (fun _ _ => ?_)
  all_goals try dsimp only
  repeat' with_reducible first
    | assumption
    | apply opA_kept

theorem execXor_kept {s0 : State} (h : Hart) (f : FmtA) (s : State) (hs : Kept s0 s) :
    ∀ wz, execXor h f s = .next wz → Kept s0 wz := by
  unfold execXor
  refine State.execute_kept _ _ _ _ ?_ (fun _ _ => ?_)
  all_goals try dsimp only
  repeat' with_reducible first
    | assumption
    | apply opA_kept

theorem execNor_kept {s0 : State} (h : Hart) (f : FmtA) (s : State) (hs : Kept s0 s) :
    ∀ wz, execNor h f s = .next wz → Kept s0 wz := by
  unfold execNor
  refine State.execute_kept _ _ _ _ ?_ (fun _ _ => ?_)
  all_goals try dsimp only
  repeat' with_reducible first
    | assumption
    | apply opA_kept

theorem execSlt_kept {s0 : State} (h : Hart) (f : FmtA) (s : State) (hs : Kept s0 s) :
    ∀ wz, execSlt h f s = .next wz → Kept s0 wz := by
  unfold execSlt
  refine State.execute_kept _ _ _ _ ?_ (fun _ _ => ?_)
  all_goals try dsimp only
  repeat' with_reducible first
    | assumption
    | apply opA_kept

theorem execSltu_kept {s0 : State} (h : Hart) (f : FmtA) (s : State) (hs : Kept s0 s) :
    ∀ wz, execSltu h f s = .next wz → Kept s0 wz := by
  unfold execSltu
  refine State.execute_kept _ _ _ _ ?_ (fun _ _ => ?_)
  all_goals try dsimp only
  repeat' with_reducible first
    | assumption
    | apply opA_kept

theorem execSll_kept {s0 : State} (h : Hart) (f : FmtA) (s : State) (hs : Kept s0 s) :
    ∀ wz, execSll h f s = .next wz → Kept s0 wz := by
  unfold execSll
  refine State.execute_kept _ _ _ _ ?_ (fun _ _ => ?_)
  all_goals try dsimp only
  repeat' with_reducible first
    | assumption
    | apply opA_kept

theorem execSrl_kept {s0 : State} (h : Hart) (f : FmtA) (s : State) (hs : Kept s0 s) :
    ∀ wz, execSrl h f s = .next wz → Kept s0 wz := by
  unfold execSrl
  refine State.execute_kept _ _ _ _ ?_ (fun _ _ => ?_)
  all_goals try dsimp only
  repeat' with_reducible first
    | assumption
    | apply opA_kept

theorem execSra_kept {s0 : State} (h : Hart) (f : FmtA) (s : State) (hs : Kept s0 s) :
    ∀ wz, execSra h f s = .next wz → Kept s0 wz := by
  unfold execSra
  refine State.execute_kept _ _ _ _ ?_ (fun _ _ => ?_)
  all_goals try dsimp only
  repeat' with_reducible first
    | assumption
    | apply opA_kept

theorem execMovz_kept {s0 : State} (h : Hart) (f : FmtA) (s : State) (hs : Kept s0 s) :
    ∀ wz, execMovz h f s = .next wz → Kept s0 wz := by
  unfold execMovz
  refine State.execute_kept _ _ _ _ ?_ (fun _ _ => ?_)
  all_goals try dsimp only
  repeat' with_reducible first
    | assumption
    | apply moveIf_kept

theorem execMovn_kept {s0 : State} (h : Hart) (f : FmtA) (s : State) (hs : Kept s0 s) :
    ∀ wz, execMovn h f s = .next wz → Kept s0 wz := by
  unfold execMovn
  refine State.execute_kept _ _ _ _ ?_ (fun _ _ => ?_)
  all_goals try dsimp only
  repeat' with_reducible first
    | assumption
    | apply moveIf_kept

theorem execMin_kept {s0 : State} (h : Hart) (f : FmtA) (s : State) (hs : Kept s0 s) :
    ∀ wz, execMin h f s = .next wz → Kept s0 wz := by
  unfold execMin
  refine State.execute_kept _ _ _ _ ?_ (fun _ _ => ?_)
  all_goals try dsimp only
  repeat' with_reducible first
    | assumption
    | apply opA_kept

theorem execMax_kept {s0 : State} (h : Hart) (f : FmtA) (s : State) (hs : Kept s0 s) :
    ∀ wz, execMax h f s = .next wz → Kept s0 wz := by
  unfold execMax
  refine State.execute_kept _ _ _ _ ?_ (fun _ _ => ?_)
  all_goals try dsimp only
  repeat' with_reducible first
    | assumption
    | apply opA_kept

theorem execMinu_kept {s0 : State} (h : Hart) (f : FmtA) (s : State) (hs : Kept s0 s) :
    ∀ wz, execMinu h f s = .next wz → Kept s0 wz := by
  unfold execMinu
  refine State.execute_kept _ _ _ _ ?_ (fun _ _ => ?_)
  all_goals try dsimp only
  repeat' with_reducible first
    | assumption
    | apply opA_kept

theorem execMaxu_kept {s0 : State} (h : Hart) (f : FmtA) (s : State) (hs : Kept s0 s) :
    ∀ wz, execMaxu h f s = .next wz → Kept s0 wz := by
  unfold execMaxu
  refine State.execute_kept _ _ _ _ ?_ (fun _ _ => ?_)
  all_goals try dsimp only
  repeat' with_reducible first
    | assumption
    | apply opA_kept

theorem execClz_kept {s0 : State} (h : Hart) (f : FmtA) (s : State) (hs : Kept s0 s) :
    ∀ wz, execClz h f s = .next wz → Kept s0 wz := by
  unfold execClz
  refine State.execute_kept _ _ _ _ ?_ (fun _ _ => ?_)
  all_goals try dsimp only
  repeat' with_reducible first
    | assumption
    | apply opA_kept

theorem execPopc_kept {s0 : State} (h : Hart) (f : FmtA) (s : State) (hs : Kept s0 s) :
    ∀ wz, execPopc h f s = .next wz → Kept s0 wz := by
  unfold execPopc
  refine State.execute_kept _ _ _ _ ?_ (fun _ _ => ?_)
  all_goals try dsimp only
  repeat' with_reducible first
    | assumption
    | apply opA_kept

theorem execBswap_kept {s0 : State} (h : Hart) (f : FmtA) (s : State) (hs : Kept s0 s) :
    ∀ wz, execBswap h f s = .next wz → Kept s0 wz := by
  unfold execBswap
  refine State.execute_kept _ _ _ _ ?_ (fun _ _ => ?_)
  all_goals try dsimp only
  repeat' with_reducible first
    | assumption
    | apply opA_kept

theorem execBswapw_kept {s0 : State} (h : Hart) (f : FmtA) (s : State) (hs : Kept s0 s) :
    ∀ wz, execBswapw h f s = .next wz → Kept s0 wz := by
  unfold execBswapw
  refine State.execute_kept _ _ _ _ ?_ (fun _ _ => ?_)
  all_goals try dsimp only
  repeat' with_reducible first
    | assumption
    | apply opA_kept

theorem execAddw_kept {s0 : State} (h : Hart) (f : FmtA) (s : State) (hs : Kept s0 s) :
    ∀ wz, execAddw h f s = .next wz → Kept s0 wz := by
  unfold execAddw
  refine State.execute_kept _ _ _ _ ?_ (fun _ _ => ?_)
  all_goals try dsimp only
  repeat' with_reducible first
    | assumption
    | apply opA_kept

theorem execSubw_kept {s0 : State} (h : Hart) (f : FmtA) (s : State) (hs : Kept s0 s) :
    ∀ wz, execSubw h f s = .next wz → Kept s0 wz := by
  unfold execSubw
  refine State.execute_kept _ _ _ _ ?_ (fun _ _ => ?_)
  all_goals try dsimp only
  repeat' with_reducible first
    | assumption
    | apply opA_kept

theorem execSllw_kept {s0 : State} (h : Hart) (f : FmtA) (s : State) (hs : Kept s0 s) :
    ∀ wz, execSllw h f s = .next wz → Kept s0 wz := by
  unfold execSllw
  refine State.execute_kept _ _ _ _ ?_ (fun _ _ => ?_)
  all_goals try dsimp only
  repeat' with_reducible first
    | assumption
    | apply opA_kept

theorem execSrlw_kept {s0 : State} (h : Hart) (f : FmtA) (s : State) (hs : Kept s0 s) :
    ∀ wz, execSrlw h f s = .next wz → Kept s0 wz := by
  unfold execSrlw
  refine State.execute_kept _ _ _ _ ?_ (fun _ _ => ?_)
  all_goals try dsimp only
  repeat' with_reducible first
    | assumption
    | apply opA_kept

theorem execSraw_kept {s0 : State} (h : Hart) (f : FmtA) (s : State) (hs : Kept s0 s) :
    ∀ wz, execSraw h f s = .next wz → Kept s0 wz := by
  unfold execSraw
  refine State.execute_kept _ _ _ _ ?_ (fun _ _ => ?_)
  all_goals try dsimp only
  repeat' with_reducible first
    | assumption
    | apply opA_kept

theorem execMul_kept {s0 : State} (h : Hart) (f : FmtA) (s : State) (hs : Kept s0 s) :
    ∀ wz, execMul h f s = .next wz → Kept s0 wz := by
  unfold execMul
  refine State.execute_kept _ _ _ _ ?_ (fun _ _ => ?_)
  all_goals try dsimp only
  repeat' with_reducible first
    | assumption
    | apply opA_kept

theorem execMulh_kept {s0 : State} (h : Hart) (f : FmtA) (s : State) (hs : Kept s0 s) :
    ∀ wz, execMulh h f s = .next wz → Kept s0 wz := by
  unfold execMulh
  refine State.execute_kept _ _ _ _ ?_ (fun _ _ => ?_)
  all_goals try dsimp only
  repeat' with_reducible first
    | assumption
    | apply opA_kept

theorem execMulhu_kept {s0 : State} (h : Hart) (f : FmtA) (s : State) (hs : Kept s0 s) :
    ∀ wz, execMulhu h f s = .next wz → Kept s0 wz := by
  unfold execMulhu
  refine State.execute_kept _ _ _ _ ?_ (fun _ _ => ?_)
  all_goals try dsimp only
  repeat' with_reducible first
    | assumption
    | apply opA_kept

theorem execDiv_kept {s0 : State} (h : Hart) (f : FmtA) (s : State) (hs : Kept s0 s) :
    ∀ wz, execDiv h f s = .next wz → Kept s0 wz := by
  unfold execDiv
  refine State.execute_kept _ _ _ _ ?_ (fun _ _ => ?_)
  all_goals try dsimp only
  repeat' with_reducible first
    | assumption
    | apply divide_kept

theorem execDivu_kept {s0 : State} (h : Hart) (f : FmtA) (s : State) (hs : Kept s0 s) :
    ∀ wz, execDivu h f s = .next wz → Kept s0 wz := by
  unfold execDivu
  refine State.execute_kept _ _ _ _ ?_ (fun _ _ => ?_)
  all_goals try dsimp only
  repeat' with_reducible first
    | assumption
    | apply divide_kept

theorem execRem_kept {s0 : State} (h : Hart) (f : FmtA) (s : State) (hs : Kept s0 s) :
    ∀ wz, execRem h f s = .next wz → Kept s0 wz := by
  unfold execRem
  refine State.execute_kept _ _ _ _ ?_ (fun _ _ => ?_)
  all_goals try dsimp only
  repeat' with_reducible first
    | assumption
    | apply divide_kept

theorem execRemu_kept {s0 : State} (h : Hart) (f : FmtA) (s : State) (hs : Kept s0 s) :
    ∀ wz, execRemu h f s = .next wz → Kept s0 wz := by
  unfold execRemu
  refine State.execute_kept _ _ _ _ ?_ (fun _ _ => ?_)
  all_goals try dsimp only
  repeat' with_reducible first
    | assumption
    | apply divide_kept

theorem execAddv_kept {s0 : State} (h : Hart) (f : FmtA) (s : State) (hs : Kept s0 s) :
    ∀ wz, execAddv h f s = .next wz → Kept s0 wz := by
  unfold execAddv
  refine State.execute_kept _ _ _ _ ?_ (fun _ _ => ?_)
  all_goals try dsimp only
  repeat' with_reducible first
    | assumption
    | apply checked_kept

theorem execSubv_kept {s0 : State} (h : Hart) (f : FmtA) (s : State) (hs : Kept s0 s) :
    ∀ wz, execSubv h f s = .next wz → Kept s0 wz := by
  unfold execSubv
  refine State.execute_kept _ _ _ _ ?_ (fun _ _ => ?_)
  all_goals try dsimp only
  repeat' with_reducible first
    | assumption
    | apply checked_kept

theorem execMulv_kept {s0 : State} (h : Hart) (f : FmtA) (s : State) (hs : Kept s0 s) :
    ∀ wz, execMulv h f s = .next wz → Kept s0 wz := by
  unfold execMulv
  refine State.execute_kept _ _ _ _ ?_ (fun _ _ => ?_)
  all_goals try dsimp only
  repeat' with_reducible first
    | assumption
    | apply checked_kept

theorem execAddi_kept {s0 : State} (h : Hart) (f : FmtI) (s : State) (hs : Kept s0 s) :
    ∀ wz, execAddi h f s = .next wz → Kept s0 wz := by
  unfold execAddi
  refine State.execute_kept _ _ _ _ ?_ (fun _ _ => ?_)
  all_goals try dsimp only
  repeat' with_reducible first
    | assumption
    | apply opI_kept

theorem execAddiw_kept {s0 : State} (h : Hart) (f : FmtI) (s : State) (hs : Kept s0 s) :
    ∀ wz, execAddiw h f s = .next wz → Kept s0 wz := by
  unfold execAddiw
  refine State.execute_kept _ _ _ _ ?_ (fun _ _ => ?_)
  all_goals try dsimp only
  repeat' with_reducible first
    | assumption
    | apply opI_kept

theorem execAndi_kept {s0 : State} (h : Hart) (f : FmtI) (s : State) (hs : Kept s0 s) :
    ∀ wz, execAndi h f s = .next wz → Kept s0 wz := by
  unfold execAndi
  refine State.execute_kept _ _ _ _ ?_ (fun _ _ => ?_)
  all_goals try dsimp only
  repeat' with_reducible first
    | assumption
    | apply opI_kept

theorem execOri_kept {s0 : State} (h : Hart) (f : FmtI) (s : State) (hs : Kept s0 s) :
    ∀ wz, execOri h f s = .next wz → Kept s0 wz := by
  unfold execOri
  refine State.execute_kept _ _ _ _ ?_ (fun _ _ => ?_)
  all_goals try dsimp only
  repeat' with_reducible first
    | assumption
    | apply opI_kept

theorem execXori_kept {s0 : State} (h : Hart) (f : FmtI) (s : State) (hs : Kept s0 s) :
    ∀ wz, execXori h f s = .next wz → Kept s0 wz := by
  unfold execXori
  refine State.execute_kept _ _ _ _ ?_ (fun _ _ => ?_)
  all_goals try dsimp only
  repeat' with_reducible first
    | assumption
    | apply opI_kept

theorem execSlti_kept {s0 : State} (h : Hart) (f : FmtI) (s : State) (hs : Kept s0 s) :
    ∀ wz, execSlti h f s = .next wz → Kept s0 wz := by
  unfold execSlti
  refine State.execute_kept _ _ _ _ ?_ (fun _ _ => ?_)
  all_goals try dsimp only
  repeat' with_reducible first
    | assumption
    | apply opI_kept

theorem execSltiu_kept {s0 : State} (h : Hart) (f : FmtI) (s : State) (hs : Kept s0 s) :
    ∀ wz, execSltiu h f s = .next wz → Kept s0 wz := by
  unfold execSltiu
  refine State.execute_kept _ _ _ _ ?_ (fun _ _ => ?_)
  all_goals try dsimp only
  repeat' with_reducible first
    | assumption
    | apply opI_kept

theorem execLui_kept {s0 : State} (h : Hart) (f : FmtI) (s : State) (hs : Kept s0 s) :
    ∀ wz, execLui h f s = .next wz → Kept s0 wz := by
  unfold execLui
  refine State.execute_kept _ _ _ _ ?_ (fun _ _ => ?_)
  all_goals try dsimp only
  repeat' with_reducible first
    | assumption
    | apply opI_kept

theorem execSlli_kept {s0 : State} (h : Hart) (f : FmtShift) (s : State) (hs : Kept s0 s) :
    ∀ wz, execSlli h f s = .next wz → Kept s0 wz := by
  unfold execSlli
  refine State.execute_kept _ _ _ _ ?_ (fun _ _ => ?_)
  all_goals try dsimp only
  repeat' with_reducible first
    | assumption
    | apply opShift_kept

theorem execSrli_kept {s0 : State} (h : Hart) (f : FmtShift) (s : State) (hs : Kept s0 s) :
    ∀ wz, execSrli h f s = .next wz → Kept s0 wz := by
  unfold execSrli
  refine State.execute_kept _ _ _ _ ?_ (fun _ _ => ?_)
  all_goals try dsimp only
  repeat' with_reducible first
    | assumption
    | apply opShift_kept

theorem execSrai_kept {s0 : State} (h : Hart) (f : FmtShift) (s : State) (hs : Kept s0 s) :
    ∀ wz, execSrai h f s = .next wz → Kept s0 wz := by
  unfold execSrai
  refine State.execute_kept _ _ _ _ ?_ (fun _ _ => ?_)
  all_goals try dsimp only
  repeat' with_reducible first
    | assumption
    | apply opShift_kept

theorem execSlliw_kept {s0 : State} (h : Hart) (f : FmtShift) (s : State) (hs : Kept s0 s) :
    ∀ wz, execSlliw h f s = .next wz → Kept s0 wz := by
  unfold execSlliw
  refine State.execute_kept _ _ _ _ ?_ (fun _ _ => ?_)
  all_goals try dsimp only
  repeat' with_reducible first
    | assumption
    | apply opShift_kept

theorem execSrliw_kept {s0 : State} (h : Hart) (f : FmtShift) (s : State) (hs : Kept s0 s) :
    ∀ wz, execSrliw h f s = .next wz → Kept s0 wz := by
  unfold execSrliw
  refine State.execute_kept _ _ _ _ ?_ (fun _ _ => ?_)
  all_goals try dsimp only
  repeat' with_reducible first
    | assumption
    | apply opShift_kept

theorem execSraiw_kept {s0 : State} (h : Hart) (f : FmtShift) (s : State) (hs : Kept s0 s) :
    ∀ wz, execSraiw h f s = .next wz → Kept s0 wz := by
  unfold execSraiw
  refine State.execute_kept _ _ _ _ ?_ (fun _ _ => ?_)
  all_goals try dsimp only
  repeat' with_reducible first
    | assumption
    | apply opShift_kept

theorem execExtu_kept {s0 : State} (h : Hart) (f : FmtField) (s : State) (hs : Kept s0 s) :
    ∀ wz, execExtu h f s = .next wz → Kept s0 wz := by
  unfold execExtu
  refine State.execute_kept _ _ _ _ ?_ (fun _ _ => ?_)
  all_goals try dsimp only
  repeat' with_reducible first
    | assumption
    | apply State.gives_kept

theorem execExts_kept {s0 : State} (h : Hart) (f : FmtField) (s : State) (hs : Kept s0 s) :
    ∀ wz, execExts h f s = .next wz → Kept s0 wz := by
  unfold execExts
  refine State.execute_kept _ _ _ _ ?_ (fun _ _ => ?_)
  all_goals try dsimp only
  repeat' with_reducible first
    | assumption
    | apply State.gives_kept

theorem execIns_kept {s0 : State} (h : Hart) (f : FmtField) (s : State) (hs : Kept s0 s) :
    ∀ wz, execIns h f s = .next wz → Kept s0 wz := by
  unfold execIns
  refine State.execute_kept _ _ _ _ ?_ (fun _ _ => ?_)
  all_goals try dsimp only
  repeat' with_reducible first
    | assumption
    | apply State.gives_kept

theorem execLb_kept {s0 : State} (h : Hart) (f : FmtM) (s : State) (hs : Kept s0 s) :
    ∀ wz, execLb h f s = .next wz → Kept s0 wz := by
  unfold execLb
  refine State.execute_kept _ _ _ _ ?_ (fun _ _ => ?_)
  all_goals try dsimp only
  repeat' with_reducible first
    | assumption
    | apply loadOp_kept

theorem execLbu_kept {s0 : State} (h : Hart) (f : FmtM) (s : State) (hs : Kept s0 s) :
    ∀ wz, execLbu h f s = .next wz → Kept s0 wz := by
  unfold execLbu
  refine State.execute_kept _ _ _ _ ?_ (fun _ _ => ?_)
  all_goals try dsimp only
  repeat' with_reducible first
    | assumption
    | apply loadOp_kept

theorem execLh_kept {s0 : State} (h : Hart) (f : FmtM) (s : State) (hs : Kept s0 s) :
    ∀ wz, execLh h f s = .next wz → Kept s0 wz := by
  unfold execLh
  refine State.execute_kept _ _ _ _ ?_ (fun _ _ => ?_)
  all_goals try dsimp only
  repeat' with_reducible first
    | assumption
    | apply loadOp_kept

theorem execLhu_kept {s0 : State} (h : Hart) (f : FmtM) (s : State) (hs : Kept s0 s) :
    ∀ wz, execLhu h f s = .next wz → Kept s0 wz := by
  unfold execLhu
  refine State.execute_kept _ _ _ _ ?_ (fun _ _ => ?_)
  all_goals try dsimp only
  repeat' with_reducible first
    | assumption
    | apply loadOp_kept

theorem execLw_kept {s0 : State} (h : Hart) (f : FmtM) (s : State) (hs : Kept s0 s) :
    ∀ wz, execLw h f s = .next wz → Kept s0 wz := by
  unfold execLw
  refine State.execute_kept _ _ _ _ ?_ (fun _ _ => ?_)
  all_goals try dsimp only
  repeat' with_reducible first
    | assumption
    | apply loadOp_kept

theorem execLwu_kept {s0 : State} (h : Hart) (f : FmtM) (s : State) (hs : Kept s0 s) :
    ∀ wz, execLwu h f s = .next wz → Kept s0 wz := by
  unfold execLwu
  refine State.execute_kept _ _ _ _ ?_ (fun _ _ => ?_)
  all_goals try dsimp only
  repeat' with_reducible first
    | assumption
    | apply loadOp_kept

theorem execLd_kept {s0 : State} (h : Hart) (f : FmtM) (s : State) (hs : Kept s0 s) :
    ∀ wz, execLd h f s = .next wz → Kept s0 wz := by
  unfold execLd
  refine State.execute_kept _ _ _ _ ?_ (fun _ _ => ?_)
  all_goals try dsimp only
  repeat' with_reducible first
    | assumption
    | apply loadOp_kept

theorem execSb_kept {s0 : State} (h : Hart) (f : FmtM) (s : State) (hs : Kept s0 s) :
    ∀ wz, execSb h f s = .next wz → Kept s0 wz := by
  unfold execSb
  refine State.execute_kept _ _ _ _ ?_ (fun _ _ => ?_)
  all_goals try dsimp only
  repeat' with_reducible first
    | assumption
    | apply storeOp_kept

theorem execSh_kept {s0 : State} (h : Hart) (f : FmtM) (s : State) (hs : Kept s0 s) :
    ∀ wz, execSh h f s = .next wz → Kept s0 wz := by
  unfold execSh
  refine State.execute_kept _ _ _ _ ?_ (fun _ _ => ?_)
  all_goals try dsimp only
  repeat' with_reducible first
    | assumption
    | apply storeOp_kept

theorem execSw_kept {s0 : State} (h : Hart) (f : FmtM) (s : State) (hs : Kept s0 s) :
    ∀ wz, execSw h f s = .next wz → Kept s0 wz := by
  unfold execSw
  refine State.execute_kept _ _ _ _ ?_ (fun _ _ => ?_)
  all_goals try dsimp only
  repeat' with_reducible first
    | assumption
    | apply storeOp_kept

theorem execSd_kept {s0 : State} (h : Hart) (f : FmtM) (s : State) (hs : Kept s0 s) :
    ∀ wz, execSd h f s = .next wz → Kept s0 wz := by
  unfold execSd
  refine State.execute_kept _ _ _ _ ?_ (fun _ _ => ?_)
  all_goals try dsimp only
  repeat' with_reducible first
    | assumption
    | apply storeOp_kept

theorem execLcap_kept {s0 : State} (h : Hart) (f : FmtM) (s : State) (hs : Kept s0 s) :
    ∀ wz, execLcap h f s = .next wz → Kept s0 wz := by
  unfold execLcap
  refine State.execute_kept _ _ _ _ ?_ (fun _ _ => ?_)
  all_goals try dsimp only
  repeat' with_reducible first
    | assumption
    | apply State.capRead_kept
    | apply State.setCap_kept
    | refine KeptR.seq ?_
    | refine KeptR.raises ?_
    | split
    | (refine Kept.snd (by assumption) ?_)

theorem execScap_kept {s0 : State} (h : Hart) (f : FmtM) (s : State) (hs : Kept s0 s) :
    ∀ wz, execScap h f s = .next wz → Kept s0 wz := by
  unfold execScap
  refine State.execute_kept _ _ _ _ ?_ (fun _ _ => ?_)
  all_goals try dsimp only
  repeat' with_reducible first
    | assumption
    | apply State.dataWrite_kept
    | apply KeptR.ite
    | refine KeptR.seq ?_
    | refine KeptR.raises ?_
    | apply Kept.ite
    | split
    | (refine Kept.snd (by assumption) ?_)

theorem execAmoswap_kept {s0 : State} (h : Hart) (f : FmtT) (s : State) (hs : Kept s0 s) :
    ∀ wz, execAmoswap h f s = .next wz → Kept s0 wz := by
  unfold execAmoswap
  refine State.execute_kept _ _ _ _ ?_ (fun _ _ => ?_)
  all_goals try dsimp only
  repeat' with_reducible first
    | assumption
    | apply amoOp_kept

theorem execAmoadd_kept {s0 : State} (h : Hart) (f : FmtT) (s : State) (hs : Kept s0 s) :
    ∀ wz, execAmoadd h f s = .next wz → Kept s0 wz := by
  unfold execAmoadd
  refine State.execute_kept _ _ _ _ ?_ (fun _ _ => ?_)
  all_goals try dsimp only
  repeat' with_reducible first
    | assumption
    | apply amoOp_kept

theorem execAmoand_kept {s0 : State} (h : Hart) (f : FmtT) (s : State) (hs : Kept s0 s) :
    ∀ wz, execAmoand h f s = .next wz → Kept s0 wz := by
  unfold execAmoand
  refine State.execute_kept _ _ _ _ ?_ (fun _ _ => ?_)
  all_goals try dsimp only
  repeat' with_reducible first
    | assumption
    | apply amoOp_kept

theorem execAmoor_kept {s0 : State} (h : Hart) (f : FmtT) (s : State) (hs : Kept s0 s) :
    ∀ wz, execAmoor h f s = .next wz → Kept s0 wz := by
  unfold execAmoor
  refine State.execute_kept _ _ _ _ ?_ (fun _ _ => ?_)
  all_goals try dsimp only
  repeat' with_reducible first
    | assumption
    | apply amoOp_kept

theorem execAmocas_kept {s0 : State} (h : Hart) (f : FmtT) (s : State) (hs : Kept s0 s) :
    ∀ wz, execAmocas h f s = .next wz → Kept s0 wz := by
  unfold execAmocas
  refine State.execute_kept _ _ _ _ ?_ (fun _ _ => ?_)
  all_goals try dsimp only
  repeat' with_reducible first
    | assumption
    | apply amoOp_kept

theorem execTli_kept {s0 : State} (h : Hart) (f : FmtM) (s : State) (hs : Kept s0 s) :
    ∀ wz, execTli h f s = .next wz → Kept s0 wz := by
  unfold execTli
  refine State.execute_kept _ _ _ _ ?_ (fun _ _ => ?_)
  all_goals try dsimp only
  repeat' with_reducible first
    | assumption
    | apply State.tableWords_kept
    | apply State.setGpr_kept
    | apply KeptR.ite
    | refine KeptR.seq ?_
    | refine KeptR.raises ?_
    | apply Kept.ite
    | split
    | (refine Kept.snd (by assumption) ?_)

theorem execNop_kept {s0 : State} (h : Hart) (f : FmtS) (s : State) (hs : Kept s0 s) :
    ∀ wz, execNop h f s = .next wz → Kept s0 wz := by
  unfold execNop
  refine State.execute_kept _ _ _ _ ?_ (fun _ _ => ?_)
  all_goals try dsimp only
  repeat' with_reducible first
    | assumption
    | refine KeptR.seq ?_

theorem execSrd_kept {s0 : State} (h : Hart) (f : FmtS) (s : State) (hs : Kept s0 s) :
    ∀ wz, execSrd h f s = .next wz → Kept s0 wz := by
  unfold execSrd
  refine State.execute_kept _ _ _ _ ?_ (fun _ _ => ?_)
  all_goals try dsimp only
  repeat' with_reducible first
    | assumption
    | apply State.setGpr_kept
    | apply KeptR.ite
    | refine KeptR.seq ?_
    | refine KeptR.raises ?_

theorem execSwr_kept {s0 : State} (h : Hart) (f : FmtS) (s : State) (hs : Kept s0 s) :
    ∀ wz, execSwr h f s = .next wz → Kept s0 wz := by
  unfold execSwr
  refine State.execute_kept _ _ _ _ ?_ (fun _ _ => ?_)
  all_goals try dsimp only
  repeat' with_reducible first
    | assumption
    | refine settled_kept _ _ _ ?_ (fun _ _ => ?_)
    | apply State.setCore_kept
    | apply KeptR.ite
    | refine KeptR.seq ?_
    | refine KeptR.raises ?_

theorem execTrap_kept {s0 : State} (h : Hart) (f : FmtS) (s : State) (hs : Kept s0 s) :
    ∀ wz, execTrap h f s = .next wz → Kept s0 wz := by
  unfold execTrap
  refine State.execute_kept _ _ _ _ ?_ (fun _ _ => ?_)
  all_goals try dsimp only
  repeat' with_reducible first
    | assumption
    | refine KeptR.raises ?_

theorem execEret_kept {s0 : State} (h : Hart) (f : FmtS) (s : State) (hs : Kept s0 s) :
    ∀ wz, execEret h f s = .next wz → Kept s0 wz := by
  unfold execEret
  refine State.execute_kept _ _ _ _ ?_ (fun _ _ => ?_)
  all_goals try dsimp only
  repeat' with_reducible first
    | assumption
    | refine settled_kept _ _ _ ?_ (fun _ _ => ?_)
    | apply eretOp_kept
    | apply KeptR.ite
    | refine KeptR.raises ?_

theorem execHold_kept {s0 : State} (h : Hart) (f : FmtS) (s : State) (hs : Kept s0 s) :
    ∀ wz, execHold h f s = .next wz → Kept s0 wz := by
  unfold execHold
  refine State.execute_kept _ _ _ _ ?_ (fun _ _ => ?_)
  all_goals try dsimp only
  repeat' with_reducible first
    | assumption
    | apply State.setCore_kept
    | apply KeptR.ite
    | refine KeptR.seq ?_
    | refine KeptR.raises ?_

theorem execWait_kept {s0 : State} (h : Hart) (f : FmtS) (s : State) (hs : Kept s0 s) :
    ∀ wz, execWait h f s = .next wz → Kept s0 wz := by
  unfold execWait
  refine State.execute_kept _ _ _ _ ?_ (fun _ _ => ?_)
  all_goals try dsimp only
  repeat' with_reducible first
    | assumption
    | apply State.accessesOver_kept
    | apply State.setCore_kept
    | apply KeptR.ite
    | refine KeptR.seq ?_
    | refine KeptR.raises ?_
    | refine KeptR.stays ?_

theorem execFence_kept {s0 : State} (h : Hart) (f : FmtS) (s : State) (hs : Kept s0 s) :
    ∀ wz, execFence h f s = .next wz → Kept s0 wz := by
  unfold execFence
  refine State.execute_kept _ _ _ _ ?_ (fun _ _ => ?_)
  all_goals try dsimp only
  repeat' with_reducible first
    | assumption
    | refine settled_kept _ _ _ ?_ (fun _ _ => ?_)
    | refine KeptR.seq ?_

theorem execEndCtx_kept {s0 : State} (h : Hart) (f : FmtS) (dt : Nat) (s : State) (hs : Kept s0 s) :
    ∀ u, execEndCtx h f dt s = .next u → Kept s0 u := by
  have he := State.elapse_kept s dt hs
  unfold execEndCtx
  dsimp only
  split
  · split
    · split
      · exact event_kept he (fun t ht => State.endOp_kept _ _ _ ht)
      · exact State.execute_kept _ _ _ _ he (fun t ht => State.endOp_kept _ _ _ ht)
    · intro u hu
      cases hu
      exact he
  · exact State.execute_kept _ _ _ _ he (fun t ht => ht)

end Sys2Proof.Machine
end

