-- ==== Sys2Proof/Laws/PerInstr.lean ====
section
/-!
SUPPORT. Laws/PerInstr.lean: one lemma for each command, for the statements made of commands as syntax.
-/

namespace Sys2Proof.Laws

open Sys2Proof Sys2Proof.Machine

/-- A command that has a Wenak word, and is no reserved word, is well formed with every operand its format holds: no
form of an instruction is shut out (04 R94-R98). -/
def Family.Statement (i : Instr) : Prop :=
  (encodeWenak i).isSome = true → (∀ h w, i ≠ .reservedInstruction h w) → i.wf = true

theorem Family.registerWrite (a : Acc) (addr : BitVec 48) (size : AccSize) (v : Word) : Family.Statement (.registerWrite a addr size v) := fun k => by cases k
theorem Family.lowWordRead (a : Acc) (addr : BitVec 48) : Family.Statement (.lowWordRead a addr) := fun k => by cases k
theorem Family.timebasePhaseStep (c : TbCorrection) : Family.Statement (.timebasePhaseStep c) := fun k => by cases k
theorem Family.frameReceive (dt : Nat) (port : Fin 4) (f : RxFrame) : Family.Statement (.frameReceive dt port f) := fun k => by cases k
theorem Family.refusalResponseDrop (dt : Nat) (port : Fin 4) : Family.Statement (.refusalResponseDrop dt port) := fun k => by cases k
theorem Family.admDecision (dt : Nat) (c : Fin 8192) : Family.Statement (.admDecision dt c) := fun k => by cases k
theorem Family.fetchComplete (dt : Nat) (c : Fin 8192) (ok : Bool) : Family.Statement (.fetchComplete dt c ok) := fun k => by cases k
theorem Family.bestEffortFetchDone (dt : Nat) (ok : Bool) : Family.Statement (.bestEffortFetchDone dt ok) := fun k => by cases k
theorem Family.contextDispatch (dt : Nat) (k : Fin 64) : Family.Statement (.contextDispatch dt k) := fun k => by cases k
theorem Family.responseGrant (dt : Nat) (port : Fin 4) : Family.Statement (.responseGrant dt port) := fun k => by cases k
theorem Family.ireqResponseWritten (dt : Nat) (c : Fin 8192) : Family.Statement (.ireqResponseWritten dt c) := fun k => by cases k
theorem Family.entryOverrun (dt : Nat) (c : Fin 8192) : Family.Statement (.entryOverrun dt c) := fun k => by cases k
theorem Family.tempoStale (dt : Nat) (p : Fin 3) : Family.Statement (.tempoStale dt p) := fun k => by cases k
theorem Family.taperReading (dt : Nat) (sc : Word32) (cph : Word32) (mau : Word32) : Family.Statement (.taperReading dt sc cph mau) := fun k => by cases k
theorem Family.activityWindowEnd (dt : Nat) (sc : BitVec 17) (cph : BitVec 17) (mau : BitVec 17) : Family.Statement (.activityWindowEnd dt sc cph mau) := fun k => by cases k
theorem Family.fastclsWrite (a : Acc) (v : Word32) : Family.Statement (.fastclsWrite a v) := fun k => by cases k
theorem Family.epochSwitch (a : Acc) (adm : Bool) (v : Word32) : Family.Statement (.epochSwitch a adm v) := fun k => by cases k
theorem Family.epochSwitchDone (dt : Nat) : Family.Statement (.epochSwitchDone dt) := fun k => by cases k
theorem Family.saLoad (a : Acc) (v : Word32) : Family.Statement (.saLoad a v) := fun k => by cases k
theorem Family.saLoadDone (dt : Nat) : Family.Statement (.saLoadDone dt) := fun k => by cases k
theorem Family.rqFloorWrite (a : Acc) (v : Word) : Family.Statement (.rqFloorWrite a v) := fun k => by cases k
theorem Family.portcfgWrite (a : Acc) (v : Word32) : Family.Statement (.portcfgWrite a v) := fun k => by cases k
theorem Family.mgtGo (a : Acc) (v : Word32) : Family.Statement (.mgtGo a v) := fun k => by cases k
theorem Family.mgtTxDone (dt : Nat) : Family.Statement (.mgtTxDone dt) := fun k => by cases k
theorem Family.linkStateChange (dt : Nat) (port : Fin 4) (up : Bool) : Family.Statement (.linkStateChange dt port up) := fun k => by cases k
theorem Family.refclkLoss (dt : Nat) (mem : Bool) : Family.Statement (.refclkLoss dt mem) := fun k => by cases k
theorem Family.serviceCoreHang (dt : Nat) (k : Fin 64) : Family.Statement (.serviceCoreHang dt k) := fun k => by cases k
theorem Family.ill (h : Hart) (ones : Bool) (rest : BitVec 26) : Family.Statement (.ill h ones rest) := fun _ _ => rfl
theorem Family.reservedInstruction (h : Hart) (w : Word32) : Family.Statement (.reservedInstruction h w) := fun _ k => (k h w rfl).elim
theorem Family.add (h : Hart) (f : FmtA) : Family.Statement (.add h f) := fun _ _ => rfl
theorem Family.sub (h : Hart) (f : FmtA) : Family.Statement (.sub h f) := fun _ _ => rfl
theorem Family.and (h : Hart) (f : FmtA) : Family.Statement (.and h f) := fun _ _ => rfl
theorem Family.or (h : Hart) (f : FmtA) : Family.Statement (.or h f) := fun _ _ => rfl
theorem Family.xor (h : Hart) (f : FmtA) : Family.Statement (.xor h f) := fun _ _ => rfl
theorem Family.nor (h : Hart) (f : FmtA) : Family.Statement (.nor h f) := fun _ _ => rfl
theorem Family.slt (h : Hart) (f : FmtA) : Family.Statement (.slt h f) := fun _ _ => rfl
theorem Family.sltu (h : Hart) (f : FmtA) : Family.Statement (.sltu h f) := fun _ _ => rfl
theorem Family.sll (h : Hart) (f : FmtA) : Family.Statement (.sll h f) := fun _ _ => rfl
theorem Family.srl (h : Hart) (f : FmtA) : Family.Statement (.srl h f) := fun _ _ => rfl
theorem Family.sra (h : Hart) (f : FmtA) : Family.Statement (.sra h f) := fun _ _ => rfl
theorem Family.movz (h : Hart) (f : FmtA) : Family.Statement (.movz h f) := fun _ _ => rfl
theorem Family.movn (h : Hart) (f : FmtA) : Family.Statement (.movn h f) := fun _ _ => rfl
theorem Family.min (h : Hart) (f : FmtA) : Family.Statement (.min h f) := fun _ _ => rfl
theorem Family.max (h : Hart) (f : FmtA) : Family.Statement (.max h f) := fun _ _ => rfl
theorem Family.minu (h : Hart) (f : FmtA) : Family.Statement (.minu h f) := fun _ _ => rfl
theorem Family.maxu (h : Hart) (f : FmtA) : Family.Statement (.maxu h f) := fun _ _ => rfl
theorem Family.clz (h : Hart) (f : FmtA) : Family.Statement (.clz h f) := fun _ _ => rfl
theorem Family.popc (h : Hart) (f : FmtA) : Family.Statement (.popc h f) := fun _ _ => rfl
theorem Family.bswap (h : Hart) (f : FmtA) : Family.Statement (.bswap h f) := fun _ _ => rfl
theorem Family.bswapw (h : Hart) (f : FmtA) : Family.Statement (.bswapw h f) := fun _ _ => rfl
theorem Family.addw (h : Hart) (f : FmtA) : Family.Statement (.addw h f) := fun _ _ => rfl
theorem Family.subw (h : Hart) (f : FmtA) : Family.Statement (.subw h f) := fun _ _ => rfl
theorem Family.sllw (h : Hart) (f : FmtA) : Family.Statement (.sllw h f) := fun _ _ => rfl
theorem Family.srlw (h : Hart) (f : FmtA) : Family.Statement (.srlw h f) := fun _ _ => rfl
theorem Family.sraw (h : Hart) (f : FmtA) : Family.Statement (.sraw h f) := fun _ _ => rfl
theorem Family.mul (h : Hart) (f : FmtA) : Family.Statement (.mul h f) := fun _ _ => rfl
theorem Family.mulh (h : Hart) (f : FmtA) : Family.Statement (.mulh h f) := fun _ _ => rfl
theorem Family.mulhu (h : Hart) (f : FmtA) : Family.Statement (.mulhu h f) := fun _ _ => rfl
theorem Family.div (h : Hart) (f : FmtA) : Family.Statement (.div h f) := fun _ _ => rfl
theorem Family.divu (h : Hart) (f : FmtA) : Family.Statement (.divu h f) := fun _ _ => rfl
theorem Family.rem (h : Hart) (f : FmtA) : Family.Statement (.rem h f) := fun _ _ => rfl
theorem Family.remu (h : Hart) (f : FmtA) : Family.Statement (.remu h f) := fun _ _ => rfl
theorem Family.addv (h : Hart) (f : FmtA) : Family.Statement (.addv h f) := fun _ _ => rfl
theorem Family.subv (h : Hart) (f : FmtA) : Family.Statement (.subv h f) := fun _ _ => rfl
theorem Family.mulv (h : Hart) (f : FmtA) : Family.Statement (.mulv h f) := fun _ _ => rfl
theorem Family.addi (h : Hart) (f : FmtI) : Family.Statement (.addi h f) := fun _ _ => rfl
theorem Family.addiw (h : Hart) (f : FmtI) : Family.Statement (.addiw h f) := fun _ _ => rfl
theorem Family.andi (h : Hart) (f : FmtI) : Family.Statement (.andi h f) := fun _ _ => rfl
theorem Family.ori (h : Hart) (f : FmtI) : Family.Statement (.ori h f) := fun _ _ => rfl
theorem Family.xori (h : Hart) (f : FmtI) : Family.Statement (.xori h f) := fun _ _ => rfl
theorem Family.slti (h : Hart) (f : FmtI) : Family.Statement (.slti h f) := fun _ _ => rfl
theorem Family.sltiu (h : Hart) (f : FmtI) : Family.Statement (.sltiu h f) := fun _ _ => rfl
theorem Family.lui (h : Hart) (f : FmtI) : Family.Statement (.lui h f) := fun _ _ => rfl
theorem Family.slli (h : Hart) (f : FmtShift) : Family.Statement (.slli h f) := fun _ _ => rfl
theorem Family.srli (h : Hart) (f : FmtShift) : Family.Statement (.srli h f) := fun _ _ => rfl
theorem Family.srai (h : Hart) (f : FmtShift) : Family.Statement (.srai h f) := fun _ _ => rfl
theorem Family.slliw (h : Hart) (f : FmtShift) : Family.Statement (.slliw h f) := fun _ _ => rfl
theorem Family.srliw (h : Hart) (f : FmtShift) : Family.Statement (.srliw h f) := fun _ _ => rfl
theorem Family.sraiw (h : Hart) (f : FmtShift) : Family.Statement (.sraiw h f) := fun _ _ => rfl
theorem Family.extu (h : Hart) (f : FmtField) : Family.Statement (.extu h f) := fun _ _ => rfl
theorem Family.exts (h : Hart) (f : FmtField) : Family.Statement (.exts h f) := fun _ _ => rfl
theorem Family.ins (h : Hart) (f : FmtField) : Family.Statement (.ins h f) := fun _ _ => rfl
theorem Family.lb (h : Hart) (f : FmtM) : Family.Statement (.lb h f) := fun _ _ => rfl
theorem Family.lbu (h : Hart) (f : FmtM) : Family.Statement (.lbu h f) := fun _ _ => rfl
theorem Family.lh (h : Hart) (f : FmtM) : Family.Statement (.lh h f) := fun _ _ => rfl
theorem Family.lhu (h : Hart) (f : FmtM) : Family.Statement (.lhu h f) := fun _ _ => rfl
theorem Family.lw (h : Hart) (f : FmtM) : Family.Statement (.lw h f) := fun _ _ => rfl
theorem Family.lwu (h : Hart) (f : FmtM) : Family.Statement (.lwu h f) := fun _ _ => rfl
theorem Family.ld (h : Hart) (f : FmtM) : Family.Statement (.ld h f) := fun _ _ => rfl
theorem Family.sb (h : Hart) (f : FmtM) : Family.Statement (.sb h f) := fun _ _ => rfl
theorem Family.sh (h : Hart) (f : FmtM) : Family.Statement (.sh h f) := fun _ _ => rfl
theorem Family.sw (h : Hart) (f : FmtM) : Family.Statement (.sw h f) := fun _ _ => rfl
theorem Family.sd (h : Hart) (f : FmtM) : Family.Statement (.sd h f) := fun _ _ => rfl
theorem Family.lcap (h : Hart) (f : FmtM) : Family.Statement (.lcap h f) := fun _ _ => rfl
theorem Family.scap (h : Hart) (f : FmtM) : Family.Statement (.scap h f) := fun _ _ => rfl
theorem Family.amoswap (h : Hart) (f : FmtT) : Family.Statement (.amoswap h f) := fun _ _ => rfl
theorem Family.amoadd (h : Hart) (f : FmtT) : Family.Statement (.amoadd h f) := fun _ _ => rfl
theorem Family.amoand (h : Hart) (f : FmtT) : Family.Statement (.amoand h f) := fun _ _ => rfl
theorem Family.amoor (h : Hart) (f : FmtT) : Family.Statement (.amoor h f) := fun _ _ => rfl
theorem Family.amocas (h : Hart) (f : FmtT) : Family.Statement (.amocas h f) := fun _ _ => rfl
theorem Family.beq (h : Hart) (f : FmtB) : Family.Statement (.beq h f) := fun _ _ => rfl
theorem Family.bne (h : Hart) (f : FmtB) : Family.Statement (.bne h f) := fun _ _ => rfl
theorem Family.blt (h : Hart) (f : FmtB) : Family.Statement (.blt h f) := fun _ _ => rfl
theorem Family.bge (h : Hart) (f : FmtB) : Family.Statement (.bge h f) := fun _ _ => rfl
theorem Family.bltu (h : Hart) (f : FmtB) : Family.Statement (.bltu h f) := fun _ _ => rfl
theorem Family.bgeu (h : Hart) (f : FmtB) : Family.Statement (.bgeu h f) := fun _ _ => rfl
theorem Family.j (h : Hart) (f : FmtJ) : Family.Statement (.j h f) := fun _ _ => rfl
theorem Family.jal (h : Hart) (f : FmtJ) : Family.Statement (.jal h f) := fun _ _ => rfl
theorem Family.jr (h : Hart) (f : FmtA) : Family.Statement (.jr h f) := fun _ _ => rfl
theorem Family.jalr (h : Hart) (f : FmtA) : Family.Statement (.jalr h f) := fun _ _ => rfl
theorem Family.cjmp (h : Hart) (f : FmtC) : Family.Statement (.cjmp h f) := fun _ _ => rfl
theorem Family.cret (h : Hart) (f : FmtC) : Family.Statement (.cret h f) := fun _ _ => rfl
theorem Family.ccopy (h : Hart) (f : FmtC) : Family.Statement (.ccopy h f) := fun _ _ => rfl
theorem Family.cnarrow (h : Hart) (f : FmtC) : Family.Statement (.cnarrow h f) := fun _ _ => rfl
theorem Family.ctrim (h : Hart) (f : FmtC) : Family.Statement (.ctrim h f) := fun _ _ => rfl
theorem Family.clock (h : Hart) (f : FmtC) : Family.Statement (.clock h f) := fun _ _ => rfl
theorem Family.cunlock (h : Hart) (f : FmtC) : Family.Statement (.cunlock h f) := fun _ _ => rfl
theorem Family.cvoid (h : Hart) (f : FmtC) : Family.Statement (.cvoid h f) := fun _ _ => rfl
theorem Family.cpcc (h : Hart) (f : FmtC) : Family.Statement (.cpcc h f) := fun _ _ => rfl
theorem Family.cinfoBase (h : Hart) (f : FmtC) : Family.Statement (.cinfoBase h f) := fun _ _ => rfl
theorem Family.cinfoEnd (h : Hart) (f : FmtC) : Family.Statement (.cinfoEnd h f) := fun _ _ => rfl
theorem Family.cinfoLength (h : Hart) (f : FmtC) : Family.Statement (.cinfoLength h f) := fun _ _ => rfl
theorem Family.cinfoPerms (h : Hart) (f : FmtC) : Family.Statement (.cinfoPerms h f) := fun _ _ => rfl
theorem Family.cinfoOtype (h : Hart) (f : FmtC) : Family.Statement (.cinfoOtype h f) := fun _ _ => rfl
theorem Family.cinfoTag (h : Hart) (f : FmtC) : Family.Statement (.cinfoTag h f) := fun _ _ => rfl
theorem Family.cwithin (h : Hart) (f : FmtC) : Family.Statement (.cwithin h f) := fun _ _ => rfl
theorem Family.csame (h : Hart) (f : FmtC) : Family.Statement (.csame h f) := fun _ _ => rfl
theorem Family.nop (h : Hart) (f : FmtS) : Family.Statement (.nop h f) := fun _ _ => rfl
theorem Family.srd (h : Hart) (f : FmtS) : Family.Statement (.srd h f) := fun _ _ => rfl
theorem Family.swr (h : Hart) (f : FmtS) : Family.Statement (.swr h f) := fun _ _ => rfl
theorem Family.trap (h : Hart) (f : FmtS) : Family.Statement (.trap h f) := fun _ _ => rfl
theorem Family.eret (h : Hart) (f : FmtS) : Family.Statement (.eret h f) := fun _ _ => rfl
theorem Family.hold (h : Hart) (f : FmtS) : Family.Statement (.hold h f) := fun _ _ => rfl
theorem Family.wait (h : Hart) (f : FmtS) : Family.Statement (.wait h f) := fun _ _ => rfl
theorem Family.fence (h : Hart) (f : FmtS) : Family.Statement (.fence h f) := fun _ _ => rfl
theorem Family.endCtx (h : Hart) (f : FmtS) (dt : Nat) : Family.Statement (.endCtx h f dt) := fun _ _ => rfl
theorem Family.tli (h : Hart) (f : FmtM) : Family.Statement (.tli h f) := fun _ _ => rfl
theorem Family.eput (h : Hart) (f : FmtE) : Family.Statement (.eput h f) := fun _ _ => rfl
theorem Family.eiss (h : Hart) (f : FmtE) : Family.Statement (.eiss h f) := fun _ _ => rfl
theorem Family.ewait (h : Hart) (f : FmtE) : Family.Statement (.ewait h f) := fun _ _ => rfl
theorem Family.epoll (h : Hart) (f : FmtE) : Family.Statement (.epoll h f) := fun _ _ => rfl
theorem Family.eabort (h : Hart) (f : FmtE) : Family.Statement (.eabort h f) := fun _ _ => rfl
theorem Family.interruptEntry (h : Hart) : Family.Statement (.interruptEntry h) := fun k => by cases k
theorem Family.waitWake (h : Hart) : Family.Statement (.waitWake h) := fun k => by cases k
theorem Family.storeBufferDrain (n : Fin 16) : Family.Statement (.storeBufferDrain n) := fun k => by cases k
theorem Family.deferredBusError (n : Fin 16) : Family.Statement (.deferredBusError n) := fun k => by cases k
theorem Family.programLoad (a : Acc) (v : Word32) : Family.Statement (.programLoad a v) := fun k => by cases k
theorem Family.programLoadDone (dt : Nat) : Family.Statement (.programLoadDone dt) := fun k => by cases k
theorem Family.pslotFree (a : Acc) (v : Word32) : Family.Statement (.pslotFree a v) := fun k => by cases k
theorem Family.ireqSubmit (a : Acc) (v : Word32) : Family.Statement (.ireqSubmit a v) := fun k => by cases k
theorem Family.actEpochSwitch (a : Acc) (v : Word32) : Family.Statement (.actEpochSwitch a v) := fun k => by cases k
theorem Family.actSwitchInstant (dt : Nat) : Family.Statement (.actSwitchInstant dt) := fun k => by cases k
theorem Family.interconnectAccessComplete (dt : Nat) (n : Fin 16) : Family.Statement (.interconnectAccessComplete dt n) := fun k => by cases k
theorem Family.ruleStagingWrite (a : Acc) (n : Fin 1024) (k : Fin 6) (v : Word32) : Family.Statement (.ruleStagingWrite a n k v) := fun k => by cases k
theorem Family.dbgstkyClear (a : Acc) (v : Word32) : Family.Statement (.dbgstkyClear a v) := fun k => by cases k
theorem Family.cphCommandStart (dt : Nat) (u : Fin 18) : Family.Statement (.cphCommandStart dt u) := fun k => by cases k
theorem Family.cphCompletion (dt : Nat) (u : Fin 18) (agree : Bool) : Family.Statement (.cphCompletion dt u agree) := fun k => by cases k
theorem Family.cphRetire (a : Acc) (v : Word32) : Family.Statement (.cphRetire a v) := fun k => by cases k
theorem Family.cphSpareTakeover (dt : Nat) (u : Fin 18) : Family.Statement (.cphSpareTakeover dt u) := fun k => by cases k
theorem Family.cphReinst (a : Acc) (v : Word32) : Family.Statement (.cphReinst a v) := fun k => by cases k
theorem Family.cphBistDone (dt : Nat) (pass : Bool) : Family.Statement (.cphBistDone dt pass) := fun k => by cases k
theorem Family.mauCommandStart (dt : Nat) (u : Fin 136) : Family.Statement (.mauCommandStart dt u) := fun k => by cases k
theorem Family.mauCompletion (dt : Nat) (u : Fin 136) (chk : Fin 3) : Family.Statement (.mauCompletion dt u chk) := fun k => by cases k
theorem Family.mauAbortIdle (dt : Nat) (u : Fin 136) : Family.Statement (.mauAbortIdle dt u) := fun k => by cases k
theorem Family.mauRetire (a : Acc) (v : Word32) : Family.Statement (.mauRetire a v) := fun k => by cases k
theorem Family.mauMigrationDone (dt : Nat) (u : Fin 136) (ok : Bool) : Family.Statement (.mauMigrationDone dt u ok) := fun k => by cases k
theorem Family.mauReinst (a : Acc) (v : Word32) : Family.Statement (.mauReinst a v) := fun k => by cases k
theorem Family.mauBistDone (dt : Nat) (pass : Bool) : Family.Statement (.mauBistDone dt pass) := fun k => by cases k
theorem Family.mauReseedRequest (dt : Nat) (u : Fin 136) : Family.Statement (.mauReseedRequest dt u) := fun k => by cases k
theorem Family.pin (a : Acc) : Family.Statement (.pin a) := fun k => by cases k
theorem Family.unpin (a : Acc) : Family.Statement (.unpin a) := fun k => by cases k
theorem Family.prefetch (a : Acc) : Family.Statement (.prefetch a) := fun k => by cases k
theorem Family.evict (a : Acc) : Family.Statement (.evict a) := fun k => by cases k
theorem Family.checkpoint (a : Acc) : Family.Statement (.checkpoint a) := fun k => by cases k
theorem Family.importBlob (a : Acc) : Family.Statement (.importBlob a) := fun k => by cases k
theorem Family.kstCmdInvalid (a : Acc) (op : BitVec 4) : Family.Statement (.kstCmdInvalid a op) := fun k => by cases k
theorem Family.kstCmdComplete (dt : Nat) (ok : Bool) : Family.Statement (.kstCmdComplete dt ok) := fun k => by cases k
theorem Family.checkpointTimer (dt : Nat) : Family.Statement (.checkpointTimer dt) := fun k => by cases k
theorem Family.checkpointDone (dt : Nat) (ok : Bool) : Family.Statement (.checkpointDone dt ok) := fun k => by cases k
theorem Family.logFrameProgrammed (dt : Nat) : Family.Statement (.logFrameProgrammed dt) := fun k => by cases k
theorem Family.logstallResume (dt : Nat) : Family.Statement (.logstallResume dt) := fun k => by cases k
theorem Family.hotRegionRefresh (dt : Nat) (n : BitVec 20) : Family.Statement (.hotRegionRefresh dt n) := fun k => by cases k
theorem Family.sealedStoreMount (dt : Nat) : Family.Statement (.sealedStoreMount dt) := fun k => by cases k
theorem Family.mountComplete (dt : Nat) : Family.Statement (.mountComplete dt) := fun k => by cases k
theorem Family.hotRegionRefill (dt : Nat) (n : BitVec 20) : Family.Statement (.hotRegionRefill dt n) := fun k => by cases k
theorem Family.windowSetEnd (dt : Nat) (w : RngWindow) : Family.Statement (.windowSetEnd dt w) := fun k => by cases k
theorem Family.startupTestEnd (dt : Nat) (w : RngWindow) : Family.Statement (.startupTestEnd dt w) := fun k => by cases k
theorem Family.rngEnable (a : Acc) (v : Word32) : Family.Statement (.rngEnable a v) := fun k => by cases k
theorem Family.rngDisable (a : Acc) (v : Word32) : Family.Statement (.rngDisable a v) := fun k => by cases k
theorem Family.rawEnWrite (a : Acc) (v : Word32) : Family.Statement (.rawEnWrite a v) := fun k => by cases k
theorem Family.rngRawRead (a : Acc) : Family.Statement (.rngRawRead a) := fun k => by cases k
theorem Family.rngFwRequest (a : Acc) (v : Word32) : Family.Statement (.rngFwRequest a v) := fun k => by cases k
theorem Family.rngBlockGrant (dt : Nat) : Family.Statement (.rngBlockGrant dt) := fun k => by cases k
theorem Family.rngFw7Read (a : Acc) : Family.Statement (.rngFw7Read a) := fun k => by cases k
theorem Family.serviceDrawExpiry (dt : Nat) (c : Fin 8192) : Family.Statement (.serviceDrawExpiry dt c) := fun k => by cases k
theorem Family.duoEnable (a : Acc) (v : Word32) : Family.Statement (.duoEnable a v) := fun k => by cases k
theorem Family.leaseFrameSend (dt : Nat) : Family.Statement (.leaseFrameSend dt) := fun k => by cases k
theorem Family.leaseFrameReceive (dt : Nat) (bits : List Byte) : Family.Statement (.leaseFrameReceive dt bits) := fun k => by cases k
theorem Family.renewSend (dt : Nat) : Family.Statement (.renewSend dt) := fun k => by cases k
theorem Family.statusSend (dt : Nat) : Family.Statement (.statusSend dt) := fun k => by cases k
theorem Family.renewReceive (dt : Nat) : Family.Statement (.renewReceive dt) := fun k => by cases k
theorem Family.statusReceive (dt : Nat) : Family.Statement (.statusReceive dt) := fun k => by cases k
theorem Family.mirrorReceive (dt : Nat) : Family.Statement (.mirrorReceive dt) := fun k => by cases k
theorem Family.mackReceive (dt : Nat) : Family.Statement (.mackReceive dt) := fun k => by cases k
theorem Family.jreqReceive (dt : Nat) : Family.Statement (.jreqReceive dt) := fun k => by cases k
theorem Family.jdataReceive (dt : Nat) : Family.Statement (.jdataReceive dt) := fun k => by cases k
theorem Family.leaseEnd (dt : Nat) : Family.Statement (.leaseEnd dt) := fun k => by cases k
theorem Family.followerLapse (dt : Nat) : Family.Statement (.followerLapse dt) := fun k => by cases k
theorem Family.lanternClaim (dt : Nat) : Family.Statement (.lanternClaim dt) := fun k => by cases k
theorem Family.peerSilence (dt : Nat) : Family.Statement (.peerSilence dt) := fun k => by cases k
theorem Family.mackWaitExpiry (dt : Nat) : Family.Statement (.mackWaitExpiry dt) := fun k => by cases k
theorem Family.lanternRelease (a : Acc) (v : Word32) : Family.Statement (.lanternRelease a v) := fun k => by cases k
theorem Family.releaseRenewSend (dt : Nat) : Family.Statement (.releaseRenewSend dt) := fun k => by cases k
theorem Family.mirrorHoldExpiry (dt : Nat) : Family.Statement (.mirrorHoldExpiry dt) := fun k => by cases k
theorem Family.mirrorWaitExpiry (dt : Nat) (c : Fin 8192) : Family.Statement (.mirrorWaitExpiry dt c) := fun k => by cases k
theorem Family.jseqGapTimeout (dt : Nat) : Family.Statement (.jseqGapTimeout dt) := fun k => by cases k
theorem Family.fullResync (a : Acc) (v : Word32) : Family.Statement (.fullResync a v) := fun k => by cases k
theorem Family.copyEntryReceive (dt : Nat) : Family.Statement (.copyEntryReceive dt) := fun k => by cases k
theorem Family.resyncComplete (dt : Nat) : Family.Statement (.resyncComplete dt) := fun k => by cases k
theorem Family.resyncLinkLoss (dt : Nat) : Family.Statement (.resyncLinkLoss dt) := fun k => by cases k
theorem Family.epochClear (a : Acc) (v : Word32) : Family.Statement (.epochClear a v) := fun k => by cases k
theorem Family.duoLeave (a : Acc) (v : Word32) : Family.Statement (.duoLeave a v) := fun k => by cases k
theorem Family.scheduledSwitch (dt : Nat) : Family.Statement (.scheduledSwitch dt) := fun k => by cases k
theorem Family.epochSkewTimeout (dt : Nat) : Family.Statement (.epochSkewTimeout dt) := fun k => by cases k
theorem Family.vddAonLost (dt : Nat) : Family.Statement (.vddAonLost dt) := fun k => by cases k
theorem Family.vddAonGood (dt : Nat) : Family.Statement (.vddAonGood dt) := fun k => by cases k
theorem Family.backupColdStart (dt : Nat) : Family.Statement (.backupColdStart dt) := fun k => by cases k
theorem Family.pwrGoodRise (dt : Nat) : Family.Statement (.pwrGoodRise dt) := fun k => by cases k
theorem Family.pwrGoodFall (dt : Nat) : Family.Statement (.pwrGoodFall dt) := fun k => by cases k
theorem Family.resetPin (dt : Nat) : Family.Statement (.resetPin dt) := fun k => by cases k
theorem Family.sysReset (a : Acc) (v : Word32) : Family.Statement (.sysReset a v) := fun k => by cases k
theorem Family.modeRequestService (a : Acc) (v : Word32) : Family.Statement (.modeRequestService a v) := fun k => by cases k
theorem Family.modeRequestCustody (a : Acc) (v : Word32) : Family.Statement (.modeRequestCustody a v) := fun k => by cases k
theorem Family.modeRequestStandby (a : Acc) (v : Word32) : Family.Statement (.modeRequestStandby a v) := fun k => by cases k
theorem Family.modeRequestInvalid (a : Acc) (v : Word32) : Family.Statement (.modeRequestInvalid a v) := fun k => by cases k
theorem Family.bootstatWrite (a : Acc) (v : Word32) : Family.Statement (.bootstatWrite a v) := fun k => by cases k
theorem Family.lifecycleAdvance (a : Acc) (v : Word32) : Family.Statement (.lifecycleAdvance a v) := fun k => by cases k
theorem Family.lifecycleAdvanceDone (dt : Nat) (ok : Bool) : Family.Statement (.lifecycleAdvanceDone dt ok) := fun k => by cases k
theorem Family.reprovision (a : Acc) (v : Word32) : Family.Statement (.reprovision a v) := fun k => by cases k
theorem Family.reprovisionComplete (dt : Nat) : Family.Statement (.reprovisionComplete dt) := fun k => by cases k
theorem Family.coreStart (a : Acc) (n : Fin 16) (v : Word32) : Family.Statement (.coreStart a n v) := fun k => by cases k
theorem Family.coreStop (a : Acc) (n : Fin 16) (v : Word32) : Family.Statement (.coreStop a n v) := fun k => by cases k
theorem Family.coreStopped (dt : Nat) (n : Fin 16) : Family.Statement (.coreStopped dt n) := fun k => by cases k
theorem Family.timerCompare (dt : Nat) (n : Fin 16) : Family.Statement (.timerCompare dt n) := fun k => by cases k
theorem Family.doorbellSet (a : Acc) (n : Fin 16) (v : Word32) : Family.Statement (.doorbellSet a n v) := fun k => by cases k
theorem Family.tscSet (a : Acc) (v : Word) : Family.Statement (.tscSet a v) := fun k => by cases k
theorem Family.program (a : Acc) (v : Word32) : Family.Statement (.program a v) := fun k => by cases k
theorem Family.erase (a : Acc) (v : Word32) : Family.Statement (.erase a v) := fun k => by cases k
theorem Family.copy (a : Acc) (v : Word32) : Family.Statement (.copy a v) := fun k => by cases k
theorem Family.otpProgram (a : Acc) (v : Word32) : Family.Statement (.otpProgram a v) := fun k => by cases k
theorem Family.flashCmdDone (dt : Nat) (ok : Bool) : Family.Statement (.flashCmdDone dt ok) := fun k => by cases k
theorem Family.eraseSuspend (dt : Nat) : Family.Statement (.eraseSuspend dt) := fun k => by cases k
theorem Family.eraseResume (dt : Nat) : Family.Statement (.eraseResume dt) := fun k => by cases k
theorem Family.tamperAlarm (dt : Nat) (srcs : List (Fin 28)) : Family.Statement (.tamperAlarm dt srcs) := fun k => by cases k
theorem Family.tmpStkyClear (a : Acc) (v : Word32) : Family.Statement (.tmpStkyClear a v) := fun k => by cases k
theorem Family.tmpSrccfgWrite (a : Acc) (n : Fin 28) (v : Word32) : Family.Statement (.tmpSrccfgWrite a n v) := fun k => by cases k
theorem Family.tamperBist (a : Acc) (v : Word32) : Family.Statement (.tamperBist a v) := fun k => by cases k
theorem Family.tamperBistDone (dt : Nat) (pass : Bool) : Family.Statement (.tamperBistDone dt pass) := fun k => by cases k
theorem Family.wickFrame (dt : Nat) (f : SensorFrame) : Family.Statement (.wickFrame dt f) := fun k => by cases k
theorem Family.wckActWake (a : Acc) (v : Word32) : Family.Statement (.wckActWake a v) := fun k => by cases k
theorem Family.wckActPromote (a : Acc) (v : Word32) : Family.Statement (.wckActPromote a v) := fun k => by cases k
theorem Family.wckActAlarm (a : Acc) (v : Word32) : Family.Statement (.wckActAlarm a v) := fun k => by cases k
theorem Family.wckActSnuff (a : Acc) (v : Word32) : Family.Statement (.wckActSnuff a v) := fun k => by cases k
theorem Family.wickRun (a : Acc) (v : Word32) : Family.Statement (.wickRun a v) := fun k => by cases k
theorem Family.wickHalt (a : Acc) (v : Word32) : Family.Statement (.wickHalt a v) := fun k => by cases k
theorem Family.wickLoadWrite (a : Acc) (v : Word32) : Family.Statement (.wickLoadWrite a v) := fun k => by cases k
theorem Family.wickLoadRead (a : Acc) : Family.Statement (.wickLoadRead a) := fun k => by cases k
theorem Family.watchdogKick (a : Acc) (v : Word32) : Family.Statement (.watchdogKick a v) := fun k => by cases k
theorem Family.wickWatchdogExpiry (dt : Nat) : Family.Statement (.wickWatchdogExpiry dt) := fun k => by cases k
theorem Family.faultEvent (dt : Nat) (src : Fin 128) (e : FaultAt) : Family.Statement (.faultEvent dt src e) := fun k => by cases k
theorem Family.faultWindowExpiry (dt : Nat) (src : Fin 128) : Family.Statement (.faultWindowExpiry dt src) := fun k => by cases k
theorem Family.reactionRound (dt : Nat) : Family.Statement (.reactionRound dt) := fun k => by cases k
theorem Family.isolateCoreStart (dt : Nat) : Family.Statement (.isolateCoreStart dt) := fun k => by cases k
theorem Family.severeClear (a : Acc) (k : Fin 4) (v : Word32) : Family.Statement (.severeClear a k v) := fun k => by cases k
theorem Family.faultStickyClear (a : Acc) (k : Fin 4) (v : Word32) : Family.Statement (.faultStickyClear a k v) := fun k => by cases k
theorem Family.faultForce (a : Acc) (k : Fin 4) (v : Word32) : Family.Statement (.faultForce a k v) := fun k => by cases k
theorem Family.faultConfigWrite (a : Acc) (n : Fin 128) (v : Word32) : Family.Statement (.faultConfigWrite a n v) := fun k => by cases k
theorem Family.cardActivate (a : Acc) (s : Fin 2) (v : Word32) : Family.Statement (.cardActivate a s v) := fun k => by cases k
theorem Family.atrReceive (dt : Nat) (s : Fin 2) (bytes : List Byte) : Family.Statement (.atrReceive dt s bytes) := fun k => by cases k
theorem Family.atrTimeout (dt : Nat) (s : Fin 2) : Family.Statement (.atrTimeout dt s) := fun k => by cases k
theorem Family.ppsResponse (dt : Nat) (s : Fin 2) (bytes : List Byte) : Family.Statement (.ppsResponse dt s bytes) := fun k => by cases k
theorem Family.cardDeactivate (a : Acc) (s : Fin 2) (v : Word32) : Family.Statement (.cardDeactivate a s v) := fun k => by cases k
theorem Family.cardDetectChange (dt : Nat) (s : Fin 2) (present : Bool) : Family.Statement (.cardDetectChange dt s present) := fun k => by cases k
theorem Family.crdDisable (a : Acc) (v : Word32) : Family.Statement (.crdDisable a v) := fun k => by cases k
theorem Family.cardExchange (a : Acc) (s : Fin 2) (v : Word32) : Family.Statement (.cardExchange a s v) := fun k => by cases k
theorem Family.cardBlockReceive (dt : Nat) (s : Fin 2) (bytes : List Byte) : Family.Statement (.cardBlockReceive dt s bytes) := fun k => by cases k
theorem Family.cardBlockTimeout (dt : Nat) (s : Fin 2) : Family.Statement (.cardBlockTimeout dt s) := fun k => by cases k
theorem Family.cardExchangeDone (dt : Nat) (s : Fin 2) : Family.Statement (.cardExchangeDone dt s) := fun k => by cases k
theorem Family.quorumOpen (a : Acc) (v : Word32) : Family.Statement (.quorumOpen a v) := fun k => by cases k
theorem Family.quorumAttest (a : Acc) (v : Word32) : Family.Statement (.quorumAttest a v) := fun k => by cases k
theorem Family.quorumAttestDone (dt : Nat) : Family.Statement (.quorumAttestDone dt) := fun k => by cases k
theorem Family.quorumAbort (a : Acc) (v : Word32) : Family.Statement (.quorumAbort a v) := fun k => by cases k
theorem Family.quorumTimeout (dt : Nat) : Family.Statement (.quorumTimeout dt) := fun k => by cases k
theorem Family.rosterCommit (a : Acc) (v : Word32) : Family.Statement (.rosterCommit a v) := fun k => by cases k
theorem Family.tagPowerUp (dt : Nat) (field : Bool) : Family.Statement (.tagPowerUp dt field) := fun k => by cases k
theorem Family.fieldLoss (dt : Nat) : Family.Statement (.fieldLoss dt) := fun k => by cases k
theorem Family.reqa (dt : Nat) : Family.Statement (.reqa dt) := fun k => by cases k
theorem Family.wupa (dt : Nat) : Family.Statement (.wupa dt) := fun k => by cases k
theorem Family.anticollision (dt : Nat) (bytes : List Byte) : Family.Statement (.anticollision dt bytes) := fun k => by cases k
theorem Family.select (dt : Nat) (level : Fin 2) (bytes : List Byte) : Family.Statement (.select dt level bytes) := fun k => by cases k
theorem Family.hlta (dt : Nat) : Family.Statement (.hlta dt) := fun k => by cases k
theorem Family.tagFrameError (dt : Nat) : Family.Statement (.tagFrameError dt) := fun k => by cases k
theorem Family.getInfo (dt : Nat) : Family.Statement (.getInfo dt) := fun k => by cases k
theorem Family.tagRead (dt : Nat) (bytes : List Byte) : Family.Statement (.tagRead dt bytes) := fun k => by cases k
theorem Family.tagWrite (dt : Nat) (bytes : List Byte) : Family.Statement (.tagWrite dt bytes) := fun k => by cases k
theorem Family.tagAuth (dt : Nat) (bytes : List Byte) : Family.Statement (.tagAuth dt bytes) := fun k => by cases k
theorem Family.tagCommitDone (dt : Nat) : Family.Statement (.tagCommitDone dt) := fun k => by cases k
theorem Family.tagWiredRead (a : Acc) (v : Word32) : Family.Statement (.tagWiredRead a v) := fun k => by cases k
theorem Family.tagWiredWrite (a : Acc) (v : Word32) : Family.Statement (.tagWiredWrite a v) := fun k => by cases k
theorem Family.tagWiredInvalid (a : Acc) (v : Word32) : Family.Statement (.tagWiredInvalid a v) := fun k => by cases k
theorem Family.tagWiredStart (dt : Nat) : Family.Statement (.tagWiredStart dt) := fun k => by cases k
theorem Family.tagWiredDone (dt : Nat) : Family.Statement (.tagWiredDone dt) := fun k => by cases k
theorem Family.tagGroupApply (a : Acc) (v : Word32) : Family.Statement (.tagGroupApply a v) := fun k => by cases k
theorem Family.calApply (a : Acc) (v : Word32) : Family.Statement (.calApply a v) := fun k => by cases k
theorem Family.calibrationSwitch (dt : Nat) : Family.Statement (.calibrationSwitch dt) := fun k => by cases k
theorem Family.bandwidthWindowEnd (dt : Nat) : Family.Statement (.bandwidthWindowEnd dt) := fun k => by cases k
theorem Family.pmcSnapshot (a : Acc) (v : Word32) : Family.Statement (.pmcSnapshot a v) := fun k => by cases k
theorem Family.obsSelect (a : Acc) (k : Fin 8) (v : Word32) : Family.Statement (.obsSelect a k v) := fun k => by cases k
theorem Family.idcode (dt : Nat) : Family.Statement (.idcode dt) := fun k => by cases k
theorem Family.samplePreload (dt : Nat) : Family.Statement (.samplePreload dt) := fun k => by cases k
theorem Family.extest (dt : Nat) : Family.Statement (.extest dt) := fun k => by cases k
theorem Family.tapClamp (dt : Nat) : Family.Statement (.tapClamp dt) := fun k => by cases k
theorem Family.highz (dt : Nat) : Family.Statement (.highz dt) := fun k => by cases k
theorem Family.dap (dt : Nat) : Family.Statement (.dap dt) := fun k => by cases k
theorem Family.bypass (dt : Nat) : Family.Statement (.bypass dt) := fun k => by cases k
theorem Family.tapReset (dt : Nat) : Family.Statement (.tapReset dt) := fun k => by cases k
theorem Family.dapRead (dt : Nat) (addr : BitVec 48) : Family.Statement (.dapRead dt addr) := fun k => by cases k
theorem Family.dapWrite (dt : Nat) (addr : BitVec 48) (v : Word32) : Family.Statement (.dapWrite dt addr v) := fun k => by cases k
theorem Family.dapAccessDone (dt : Nat) : Family.Statement (.dapAccessDone dt) := fun k => by cases k
theorem Family.stageStart (dt : Nat) (p : Fin 3) : Family.Statement (.stageStart dt p) := fun k => by cases k
theorem Family.refclkRestore (dt : Nat) (mem : Bool) : Family.Statement (.refclkRestore dt mem) := fun k => by cases k
theorem Family.tamperCauseFall (dt : Nat) (src : Fin 28) : Family.Statement (.tamperCauseFall dt src) := fun k => by cases k
theorem Family.tamperMonitorArm (dt : Nat) : Family.Statement (.tamperMonitorArm dt) := fun k => by cases k
theorem Family.engineSelfTestDone (dt : Nat) (cph : BitVec 18) (mau : BitVec 136) : Family.Statement (.engineSelfTestDone dt cph mau) := fun k => by cases k
theorem Family.memoryTrainingDone (dt : Nat) (ddrGib : Byte) (ddrOk : Bool) (tgtGib : Byte) (ntgt : BitVec 6) : Family.Statement (.memoryTrainingDone dt ddrGib ddrOk tgtGib ntgt) := fun k => by cases k
theorem Family.calibrationLoad (dt : Nat) : Family.Statement (.calibrationLoad dt) := fun k => by cases k
theorem Family.patchTableApply (dt : Nat) : Family.Statement (.patchTableApply dt) := fun k => by cases k
theorem Family.bootQuench (dt : Nat) : Family.Statement (.bootQuench dt) := fun k => by cases k
theorem Family.fieldArrival (dt : Nat) : Family.Statement (.fieldArrival dt) := fun k => by cases k
theorem Family.pmcSnapshotDone (dt : Nat) : Family.Statement (.pmcSnapshotDone dt) := fun k => by cases k

end Sys2Proof.Laws
end

