-- ==== Sys2Proof/Laws/Rows.lean ====
section
/-!
SUPPORT. Laws/Rows.lean: a command that is one register write, granted as `MayWrite` says, is the register's own effect;
and a timed event is its effect after the time has passed.
-/

namespace Sys2Proof.Machine

/-- The word at `r` is a 32-bit register of the map, described by `row`, and no staging rule. -/
def isReg (r : Nat) (row : RegRow) : Bool :=
  decide (regRow? r = some row) && decide (row.regOf r = r) && !row.dbl && inRegs r && decide (r % 4 = 0) && !isStaging r

theorem masterUp_of {s : State} {a : Acc} {r : Nat} {v : Word32} (h : MayWrite s a r v) : s.masterUp a = true := by
  unfold State.masterUp; rw [if_neg h.master, h.carries, h.power]; rfl

theorem masterUp_of_read {s : State} {a : Acc} {r : Nat} (h : MayRead s a r) : s.masterUp a = true := by
  unfold State.masterUp; rw [if_neg h.master, h.carries, h.power]; rfl

theorem enter_granted {s : State} {a : Acc} {r : Nat} {t : Access} (hm : a.master ≠ .wick) (h : s.actCheck a r t = none) :
    s.enter a r t = (.ok (), s) := by
  unfold State.enter; rw [if_neg hm, h]

theorem anyWrite_reg {s : State} {a : Acc} {r : Nat} {v : Word32} (h : MayWrite s a r v) (hin : inRegs r = true)
    (hal : r % 4 = 0) : s.anyWrite a r 4 v.toNat = s.regWrite a r v := by
  unfold State.anyWrite
  rw [if_neg h.master, if_pos hin, enter_granted h.master h.table]
  simp only [BitVec.ofNat_toNat, BitVec.setWidth_eq]
  exact if_pos ⟨trivial, hal⟩

/-- A write row of a 32-bit register is the register's effect. -/
theorem writeRow_eq {s : State} {a : Acc} {r : Nat} {v : Word32} {row : RegRow} (h : MayWrite s a r v)
    (hr : isReg r row = true) : s.writeRow a r v = .next (s.regEffect a row r (v.setWidth 64)) := by
  simp only [isReg, Bool.and_eq_true, decide_eq_true_eq, Bool.not_eq_true'] at hr
  obtain ⟨⟨⟨⟨⟨h1, h2⟩, h3⟩, h4⟩, h5⟩, h6⟩ := hr
  unfold State.writeRow event
  rw [if_pos (masterUp_of h)]
  show Host.Outcome.next (s.anyWrite a r 4 v.toNat).2 = _
  rw [anyWrite_reg h h4 h5]
  unfold State.regWrite State.wordWrite
  rw [h1]
  simp only [h2, if_neg h.master, h.perms, h6, h3, Bool.false_and, Bool.not_false, if_true, Bool.false_eq_true, if_false]

/-- A read row of a 32-bit register answers its value; that of the load data register reads Wick's memory first. -/
theorem readRow_eq {s : State} {a : Acc} {r : Nat} {row : RegRow} (h : MayRead s a r) (hr : isReg r row = true)
    (hl : r ≠ WCK_LDDATA) :
    s.readRow a r = .next { (s.wordRead a row r).2 with lastRead := some (false, BitVec.ofNat 64 (s.wordRead a row r).1.toNat) } := by
  simp only [isReg, Bool.and_eq_true, decide_eq_true_eq, Bool.not_eq_true'] at hr
  obtain ⟨⟨⟨⟨⟨h1, h2⟩, h3⟩, h4⟩, h5⟩, h6⟩ := hr
  unfold State.readRow event
  rw [if_pos (masterUp_of_read h)]
  show Host.Outcome.next (recordRead (s.anyRead a r 4)) = _
  unfold State.anyRead
  rw [if_neg h.master, if_pos h4, enter_granted h.master h.table]
  unfold State.regRead
  rw [h1]
  simp only [h2, if_neg h.master, h.perms, h5, and_self, if_true, if_neg hl, recordRead]

theorem timed_pos {dt : Nat} {c : State → Bool} {s : State} {f : State → State} (h : c (s.elapse dt) = true) :
    timed dt c s f = .next (f (s.elapse dt)) := by
  unfold timed event; rw [if_pos h]

theorem timed_neg {dt : Nat} {c : State → Bool} {s : State} {f : State → State} (h : c (s.elapse dt) = false) :
    timed dt c s f = .next (s.elapse dt) := by
  unfold timed event; rw [if_neg (by simp [h])]

end Sys2Proof.Machine
end

