-- ==== Sys2Proof/Laws/Wenak.lean ====
section
/-!
SUPPORT. Laws/Wenak.lean: the frame of every Wenak instruction: the fetch, the registers of a hart after a write, what
retiring an instruction changes, and from these what an instruction does that completes in one of the usual ways.
-/

namespace Sys2Proof.Machine

/-! ### The registers of the harts -/

/-- The registers of hart `h` are somewhere: a service core runs a context. -/
def State.hasCore (s : State) (h : Hart) : Prop := ∀ k, h = .svc k → (s.ctxOn k).isSome = true

theorem State.begins_hasCore {s : State} {h : Hart} (hb : s.begins h = true) : s.hasCore h := by
  rintro k rfl
  simp [State.begins, State.runs] at hb
  simp [hb]

theorem State.core_setCore {s : State} {h : Hart} (hc : s.hasCore h) (c : Core) : (s.setCore h c).core h = c := by
  cases h with
  | ctl n => exact sget_sput_self _ _ _ _
  | wick => exact sget_sput_self _ _ _ _
  | svc k =>
    obtain ⟨n, hn⟩ := Option.isSome_iff_exists.1 (hc k rfl)
    have : (s.setCore (.svc k) c).ctxOn k = some n := by
      rw [← hn]; simp only [State.setCore, State.ctxOn]; split <;> rfl
    simp only [State.core, this]
    simp only [State.setCore, hn, sget_sput_self]

theorem State.ctxOn_setCore (s : State) (h : Hart) (c : Core) (k : Fin 64) : (s.setCore h c).ctxOn k = s.ctxOn k := by
  cases h with
  | ctl n => rfl
  | wick => rfl
  | svc j => simp only [State.setCore]; cases s.ctxOn j <;> rfl

theorem State.hasCore_setCore {s : State} {h : Hart} (hc : s.hasCore h) (h' : Hart) (c : Core) :
    (s.setCore h' c).hasCore h := by
  intro k hk; rw [State.ctxOn_setCore]; exact hc k hk

/-! ### The fetch -/

theorem State.enter_ok {s u : State} {a : Acc} {addr : Nat} {ty : Access} (h : s.enter a addr ty = (.ok (), u)) : u = s := by
  unfold State.enter at h
  split at h
  · exact (Prod.mk.inj h).2.symm
  · split at h
    · exact (Prod.mk.inj h).2.symm
    · simp at h

theorem State.passes_ok {s u : State} {a : Acc} {addr : Nat} {ty : Access} (h : s.passes a addr ty = (.ok (), u)) : u = s := by
  unfold State.passes at h
  split at h
  · exact (Prod.mk.inj h).2.symm
  · exact State.enter_ok h

theorem State.flashRead_eq (s : State) : s.flashRead = { s with flc := s.flashRead.flc } := rfl

/-- A read that memory answers leaves the state alone, or is a read of the flash array. -/
theorem State.busRead_ok {s u : State} {n : Fin 16} {p : BitVec 16} {addr k : Nat} {ty : Access} {bs : List Byte}
    (h : s.busRead ⟨.ctl n, p⟩ addr k ty = (.ok bs, u)) : u = s ∨ u = s.arrayRead (.ctl n) (addr, ty) := by
  unfold State.busRead at h
  split at h
  · simp at h
  · next v he =>
    obtain rfl := State.passes_ok he
    split at h
    · simp at h
    · split at h
      · simp at h
      · have key : ∀ t : State, t.readNow addr k = (.ok bs, u) → u = t := fun t ht => by
          unfold State.readNow at ht
          split at ht
          · simp at ht
          · exact (Prod.mk.inj ht).2.symm
        split at h
        · exact .inr (key _ h)
        · exact .inl (key _ h)

theorem State.spaceRead_ok {s u : State} {h : Hart} {p : BitVec 16} {addr n : Nat} {ty : Access} {b : List Byte × Bool}
    (he : s.spaceRead h p addr n ty = (.ok b, u)) : u = s ∨ u = s.arrayRead h (addr, ty) := by
  unfold State.spaceRead at he
  cases h with
  | ctl k =>
    simp only at he
    split at he
    · simp at he
    · next hb => exact (Prod.mk.inj he).2 ▸ State.busRead_ok hb
  | svc k =>
    simp only at he
    split at he
    · split at he
      · simp at he
      · exact .inl (Prod.mk.inj he).2.symm
    · simp at he
  | wick =>
    simp only at he
    split at he
    · split at he
      · simp at he
      · exact .inl (Prod.mk.inj he).2.symm
    · simp at he

end Sys2Proof.Machine

namespace Sys2Proof

open Sys2Proof.Machine

theorem Noted.refl (h : Hart) (s : State) : Noted h s s := ⟨[], rfl⟩

theorem Noted.read (h : Hart) (s : State) (x : Nat × Access) : Noted h s (s.arrayRead h x) := ⟨[x], rfl⟩

theorem Noted.trans {h : Hart} {s t u : State} (a : Noted h s t) (b : Noted h t u) : Noted h s u := by
  obtain ⟨l, rfl⟩ := a
  obtain ⟨m, rfl⟩ := b
  exact ⟨l ++ m, List.foldl_append.symm⟩

theorem Noted.of {h : Hart} {s u : State} {x : Nat × Access} (hu : u = s ∨ u = s.arrayRead h x) : Noted h s u := by
  rcases hu with rfl | rfl
  · exact .refl _ _
  · exact .read _ _ _

end Sys2Proof

namespace Sys2Proof.Machine

/-- A fetch that passes changes nothing but what a read of the flash array does. -/
theorem State.fetch_ok {s : State} {h : Hart} (hf : (s.fetch h).1 = .ok ()) : Noted h s (s.fetch h).2 := by
  simp only [State.fetch] at hf ⊢
  cases hc : (s.core h).pcc.checkAccess [pX] (s.core h).pc.toNat 4 with
  | some x => simp [hc] at hf
  | none =>
    simp only [hc] at hf ⊢
    split
    · exact .refl _ _
    · next hw =>
      rw [if_neg hw] at hf
      cases he : s.spaceRead h (s.core h).pcc.perms (s.core h).pc.toNat 4 .fetch with
      | mk r u =>
        cases r with
        | error e => simp [he] at hf
        | ok b => exact .of (State.spaceRead_ok he)

/-! ### Retiring -/

theorem State.runs_counts {s : State} {h : Hart} (hb : s.begins h = true) : ∀ e, slotEvent h = some e → s.counting = true := by
  intro e he
  cases h with
  | wick => simp [slotEvent] at he
  | ctl n =>
    simp [State.begins, State.runs, State.stopping] at hb
    rcases hb.1.1.1.1.1 with h1 | h1
    · simp [State.counting, h1]
    · simp [State.counting, h1.1.1, h1.1.2]
  | svc n => simp [State.begins, State.runs] at hb; simp [State.counting, hb.1.1.1.1]

theorem State.count_eq (s : State) (e n : Nat) : s.count e n = { s with regs := (s.count e n).regs } := by
  simp only [State.count]
  repeat' split
  all_goals rfl

theorem State.countSlot_eq (s : State) (h : Hart) (k : Nat) : s.countSlot h k = { s with regs := (s.countSlot h k).regs } := by
  cases h with
  | wick => rfl
  | ctl n => exact State.count_eq _ _ _
  | svc n => exact State.count_eq _ _ _

theorem State.countSlot_zero (s : State) (h : Hart) :
    s.countSlot h 0 = match slotEvent h with | some e => s.count e 1 | none => s := by cases h <;> rfl

@[simp] theorem State.countSlot_core (s : State) (h h' : Hart) (k : Nat) : (s.countSlot h k).core h' = s.core h' := by
  rw [State.countSlot_eq]; cases h' <;> rfl

theorem sinsert_serase_serase {α : Type} (k : Nat) (m : Sparse α) : serase k (serase k m) = serase k m := by
  simp [serase_eq_filter]

theorem serase_sinsert {α : Type} (k : Nat) (v : α) : ∀ m : Sparse α, serase k (sinsert k v (serase k m)) = serase k m := by
  intro m
  have key : ∀ l : Sparse α, (∀ e ∈ l, e.1 ≠ k) → serase k (sinsert k v l) = l := by
    intro l
    induction l with
    | nil => intro; simp [sinsert, serase]
    | cons e l ih =>
      intro hl
      have he : e.1 ≠ k := hl e (by simp)
      have hl' : serase k l = l := by
        rw [serase_eq_filter, List.filter_eq_self]
        intro x hx; simpa using hl x (by simp [hx])
      simp only [sinsert]
      split
      · simp [serase, he, hl']
      · simp [serase, he, ih fun x hx => hl x (by simp [hx])]
  exact key _ fun e he => ne_of_mem_serase e he

/-- The later of two writes of one key stays. -/
theorem sput_sput {α : Type} [DecidableEq α] (d : α) (m : Sparse α) (k : Nat) (a b : α) :
    sput d (sput d m k a) k b = sput d m k b := by
  have : serase k (sput d m k a) = serase k m := by
    unfold sput
    split
    · exact sinsert_serase_serase k m
    · exact serase_sinsert k a m
  unfold sput at this ⊢
  rw [this]

theorem State.setCore_setCore (s : State) (h : Hart) (a b : Core) : (s.setCore h a).setCore h b = s.setCore h b := by
  cases h with
  | ctl n => simp only [State.setCore, sput_sput]
  | wick => simp only [State.setCore, sput_sput]
  | svc k =>
    have := State.ctxOn_setCore s (.svc k) a k
    simp only [State.setCore] at this ⊢
    rw [this]
    cases s.ctxOn k with
    | none => rfl
    | some c => simp only [sput_sput]

theorem State.rd_setCore (s : State) (h : Hart) (c : Core) (a : Nat) : (s.setCore h c).rd a = s.rd a := by
  cases h with
  | ctl n => rfl
  | wick => rfl
  | svc k => simp only [State.setCore]; cases s.ctxOn k <;> rfl

theorem State.counting_setCore (s : State) (h : Hart) (c : Core) : (s.setCore h c).counting = s.counting := by
  cases h with
  | ctl n => rfl
  | wick => rfl
  | svc k => simp only [State.setCore]; cases s.ctxOn k <;> rfl

/-- An event counter after one event (19 R418). -/
theorem State.count_one (s : State) (e : Nat) (hp : s.counting = true) :
    ((s.count e 1).rd (PMC_CNT e)).toNat = ((s.rd (PMC_CNT e)).toNat + 1) % 2 ^ 48 := by
  have hne : PMC_CNT e ≠ PMC_OVF (e / 32) := by simp only [PMC_CNT, PMC_OVF]; omega
  have hsn : PMC_CNT e ≠ PMC_SNAPC e := by simp only [PMC_CNT, PMC_SNAPC]; omega
  simp only [State.count, hp, if_true]
  repeat' split
  · rw [State.raise, State.rd_fset_ne _ _ _ (by exact hne), State.rd_wr_ne _ _ hsn, State.rd_wr_self]; simp; omega
  · rw [State.raise, State.rd_fset_ne _ _ _ (by exact hne), State.rd_wr_self]; simp; omega
  · rw [State.rd_wr_ne _ _ hsn, State.rd_wr_self]; simp; omega
  · rw [State.rd_wr_self]; simp; omega

/-! ### The end of stalled accesses -/

/-- What the end of one access that was in flight does to the register map depends on that alone. -/
theorem State.drainOld_eq (s : State) : s.drainOld = { s with regs := s.drainOld.regs } := by
  unfold State.drainOld; simp only; split
  · rfl
  · split <;> rfl

theorem State.drainOld_congr {s u : State} (hr : u.regs = s.regs) : u.drainOld.regs = s.drainOld.regs := by
  have hk : u.fget ACT_EPOCH_DRAIN_OLD_LIVE = s.fget ACT_EPOCH_DRAIN_OLD_LIVE := by simp only [State.fget, State.rd, hr]
  unfold State.drainOld
  simp only [hk]
  split
  · exact hr
  · split <;> simp only [State.raise, State.fset, State.wr, State.rd, hr]

theorem State.drainAll_eq {α : Type} (l : List α) (s : State) :
    l.foldl (fun s _ => s.drainOld) s = { s with regs := (l.foldl (fun s _ => s.drainOld) s).regs } := by
  induction l generalizing s with
  | nil => rfl
  | cons x l ih =>
    rw [List.foldl_cons, ih, State.drainOld_eq]

theorem State.drainAll_congr {α : Type} (l : List α) {s u : State} (hr : u.regs = s.regs) :
    (l.foldl (fun s _ => s.drainOld) u).regs = (l.foldl (fun s _ => s.drainOld) s).regs := by
  induction l generalizing s u with
  | nil => exact hr
  | cons x l ih => exact ih (State.drainOld_congr hr)

theorem State.drainStalls_eq (s : State) (l : List Stall) : s.drainStalls l = { s with regs := (s.drainStalls l).regs } :=
  State.drainAll_eq _ _

theorem State.drainStalls_congr {s u : State} (hr : u.regs = s.regs) (l : List Stall) :
    (u.drainStalls l).regs = (s.drainStalls l).regs := State.drainAll_congr _ hr

/-- How far the drain goes depends on how many of the accesses are old. -/
theorem State.drainAll_length {α β : Type} (l : List α) : ∀ (m : List β), l.length = m.length → ∀ s : State,
    l.foldl (fun s _ => s.drainOld) s = m.foldl (fun s _ => s.drainOld) s := by
  induction l with
  | nil => intro m hm s; rw [List.length_nil] at hm; rw [List.eq_nil_of_length_eq_zero hm.symm]; rfl
  | cons x l ih =>
    intro m hm s
    cases m with
    | nil => simp at hm
    | cons y m => exact ih m (by simpa using hm) _

theorem State.endStalls_flc (s : State) (m : Master) :
    (s.endStalls m).flc = { s.flc with stalled := s.flc.stalled.filter fun x => !decide (x.master = m) } := by
  unfold State.endStalls; rw [State.drainStalls_eq]

theorem State.endStalls_regs (s : State) (m : Master) :
    (s.endStalls m).regs = (s.drainStalls (s.flc.stalled.filter fun x => decide (x.master = m))).regs :=
  State.drainStalls_congr (s := s) (u := { s with flc := { s.flc with
    stalled := s.flc.stalled.filter fun x => !decide (x.master = m) } }) rfl _

/-- The end of an instruction's stalled accesses touches the register map and the flash controller alone. -/
theorem State.accessesOver_eq (s : State) (h : Hart) :
    s.accessesOver h = { s with regs := (s.accessesOver h).regs, flc := (s.accessesOver h).flc } := by
  cases h with
  | ctl n =>
    simp only [State.accessesOver, State.endStalls_flc]
    unfold State.endStalls; rw [State.drainStalls_eq]
  | svc k => rfl
  | wick => rfl

/-- It depends on these alone. -/
theorem State.accessesOver_congr {s u : State} (hr : u.regs = s.regs) (hf : u.flc = s.flc) (h : Hart) :
    (u.accessesOver h).regs = (s.accessesOver h).regs ∧ (u.accessesOver h).flc = (s.accessesOver h).flc := by
  cases h with
  | ctl n =>
    simp only [State.accessesOver, State.endStalls_flc, State.endStalls_regs, hf, and_true]
    exact State.drainStalls_congr hr _
  | svc k => exact ⟨hr, hf⟩
  | wick => exact ⟨hr, hf⟩

/-- A read of the array touches the register map and the flash controller alone. -/
theorem State.arrayRead_eq (s : State) (h : Hart) (x : Nat × Access) :
    s.arrayRead h x = { s with regs := (s.arrayRead h x).regs, flc := (s.arrayRead h x).flc } := by
  cases h with
  | ctl n =>
    simp only [State.arrayRead, State.serve]
    rw [State.drainStalls_eq]; rfl
  | svc k => rfl
  | wick => rfl

/-- What was stalled and is served drains then and not at the end of the instruction. -/
theorem drained_once {hit mine : Stall → Bool} {f : Stall → Stall} (hm : ∀ x, hit x = true → mine x = true)
    (hf : ∀ x, f x = if hit x then { x with served := true, old := false } else x)
    (hk : ∀ x, mine (f x) = mine x) (l : List Stall) :
    ((l.filter hit).filter (·.old)).length + (((l.map f).filter mine).filter (·.old)).length =
      ((l.filter mine).filter (·.old)).length ∧ (l.map f).filter (fun x => !mine x) = l.filter fun x => !mine x := by
  have len : ∀ (b : Bool) (x : Stall) (l : List Stall), ((if b then x :: l else l).filter (·.old)).length =
      (if b && x.old then 1 else 0) + (l.filter (·.old)).length := by
    intro b x l; cases b <;> cases h : x.old <;> simp [List.filter_cons, h, Nat.add_comm]
  induction l with
  | nil => exact ⟨rfl, rfl⟩
  | cons x l ih =>
    obtain ⟨ih1, ih2⟩ := ih
    have hmx := hm x
    have ho : (f x).old = (!hit x && x.old) := by rw [hf]; cases hit x <;> rfl
    have hid : mine x = false → f x = x := by
      intro h; rw [hf]; cases h1 : hit x
      · rfl
      · exact absurd (hmx h1) (by simp [h])
    rw [List.map_cons, List.filter_cons, List.filter_cons, List.filter_cons, len, len, len, hk, ho]
    constructor
    · generalize ((l.filter hit).filter (·.old)).length = a at ih1 ⊢
      generalize (((l.map f).filter mine).filter (·.old)).length = b at ih1 ⊢
      generalize ((l.filter mine).filter (·.old)).length = c at ih1 ⊢
      cases h1 : hit x <;> cases h2 : mine x <;> cases h3 : x.old <;> simp [h1, h2] at hmx ⊢ <;> omega
    · rw [List.filter_cons, List.filter_cons, hk, ih2]
      cases h2 : mine x
      · rw [hid h2]
      · rfl

/-- `u` differs from `s` in the register map and the flash controller alone, and once the instruction of `h` has ended, in
the controller's note of a read. -/
structure SameAfter (h : Hart) (s u : State) : Prop where
  eq : u = { s with regs := u.regs, flc := u.flc }
  regs : (u.accessesOver h).regs = (s.accessesOver h).regs
  flc : (u.accessesOver h).flc = (s.accessesOver h).flc ∨ (u.accessesOver h).flc = (s.accessesOver h).flashRead.flc

theorem SameAfter.refl (h : Hart) (s : State) : SameAfter h s s := ⟨rfl, rfl, .inl rfl⟩

theorem State.tb_accessesOver (s : State) (h : Hart) : (s.accessesOver h).tb = s.tb := by rw [State.accessesOver_eq]

theorem SameAfter.trans {h : Hart} {s t u : State} (a : SameAfter h s t) (b : SameAfter h t u) : SameAfter h s u := by
  have htb : t.tb = s.tb := by rw [a.eq]
  refine ⟨by rw [b.eq, a.eq], b.regs.trans a.regs, ?_⟩
  have hn : (t.accessesOver h).flashRead.flc = (s.accessesOver h).flashRead.flc := by
    simp only [State.flashRead, State.tb_accessesOver, htb]
    rcases a.flc with e | e <;> rw [e]
    simp only [State.flashRead]
  rcases b.flc with e | e
  · rw [e]; exact a.flc
  · exact .inr (e.trans hn)

/-- What depends on the register map and the flash controller alone lies between states that differ alike. -/
theorem SameAfter.lift {h : Hart} {s u x : State} (a : SameAfter h s u) (hr : x.regs = s.regs) (hf : x.flc = s.flc)
    (ht : x.tb = s.tb) : SameAfter h x { x with regs := u.regs, flc := u.flc } := by
  obtain ⟨h1, h2⟩ := State.accessesOver_congr (s := u) (u := { x with regs := u.regs, flc := u.flc }) rfl rfl h
  obtain ⟨h3, h4⟩ := State.accessesOver_congr hr hf h
  refine ⟨rfl, by rw [h1, a.regs, h3], ?_⟩
  rw [h2, h4]
  refine a.flc.imp id fun e => e.trans ?_
  simp only [State.flashRead, State.tb_accessesOver, h4, ht]

/-- Once the instruction has ended, a read of the array shows in the controller's note alone. -/
theorem State.arrayRead_same (s : State) (h : Hart) (x : Nat × Access) : SameAfter h s (s.arrayRead h x) := by
  refine ⟨State.arrayRead_eq s h x, ?_, ?_⟩
  all_goals cases h with
  | svc k => first | rfl | exact .inl rfl
  | wick => first | rfl | exact .inl rfl
  | ctl n => ?_
  all_goals
    obtain ⟨h1, h2⟩ := drained_once (hit := fun y : Stall => decide (y.master = .ctl n ∧ y.granule = x.1 / 32 ∧ y.ty = x.2))
      (mine := fun y => decide (y.master = .ctl n)) (f := fun y : Stall =>
        if decide (y.master = .ctl n ∧ y.granule = x.1 / 32 ∧ y.ty = x.2) then { y with served := true, old := false } else y)
      (fun y hy => by simp at hy ⊢; exact hy.1) (fun _ => rfl) (fun y => by split <;> rfl) s.flc.stalled
    have hflc : (s.arrayRead (.ctl n) x).flc = { s.flc with
        lastRead := s.tb
        stalled := s.flc.stalled.map fun y : Stall =>
          if decide (y.master = .ctl n ∧ y.granule = x.1 / 32 ∧ y.ty = x.2) then { y with served := true, old := false } else y } := by
      simp only [State.arrayRead, State.serve]; rw [State.drainStalls_eq]; rfl
  · simp only [State.accessesOver, State.endStalls_regs, hflc]
    have : (s.arrayRead (.ctl n) x).regs = (s.drainStalls (s.flc.stalled.filter fun y : Stall =>
        decide (y.master = .ctl n ∧ y.granule = x.1 / 32 ∧ y.ty = x.2))).regs := by
      simp only [State.arrayRead, State.serve]
      refine State.drainStalls_congr (s := s) ?_ _
      rfl
    rw [State.drainStalls_congr this]
    unfold State.drainStalls
    rw [← List.foldl_append]
    exact congrArg State.regs (State.drainAll_length _ _ (by rw [List.length_append]; exact h1) s)
  · right
    have ht : (s.endStalls (.ctl n)).tb = s.tb := State.tb_accessesOver s (.ctl n)
    simp only [State.accessesOver, State.flashRead, State.endStalls_flc, hflc, h2, ht]

theorem noted_same {h : Hart} {s u : State} (hu : Noted h s u) : SameAfter h s u := by
  obtain ⟨l, rfl⟩ := hu
  induction l generalizing s with
  | nil => exact .refl _ _
  | cons x l ih => exact (State.arrayRead_same s h x).trans ih

/-- Of the register map it touches what shows the drain of the access table's old epoch (07 R205). -/
theorem State.rd_drainOld (s : State) {a : Nat} (h1 : a ≠ ACT_EPOCH_DRAIN_OLD_LIVE.1) (h2 : a ≠ ACT_EVT_EPOCH_DONE.1) :
    s.drainOld.rd a = s.rd a := by
  unfold State.drainOld; simp only; split
  · rfl
  · split
    · rw [State.raise, State.rd_fset_ne _ _ _ h2, State.rd_fset_ne _ _ _ h1]
    · rw [State.rd_fset_ne _ _ _ h1]

theorem State.rd_drainStalls (s : State) (l : List Stall) {a : Nat} (h1 : a ≠ ACT_EPOCH_DRAIN_OLD_LIVE.1)
    (h2 : a ≠ ACT_EVT_EPOCH_DONE.1) : (s.drainStalls l).rd a = s.rd a := by
  unfold State.drainStalls
  generalize l.filter (·.old) = l
  induction l generalizing s with
  | nil => rfl
  | cons x l ih => rw [List.foldl_cons, ih, State.rd_drainOld s h1 h2]

theorem State.rd_accessesOver (s : State) (h : Hart) {a : Nat} (h1 : a ≠ ACT_EPOCH_DRAIN_OLD_LIVE.1) (h2 : a ≠ ACT_EVT_EPOCH_DONE.1) :
    (s.accessesOver h).rd a = s.rd a := by
  cases h with
  | ctl n => exact State.rd_drainStalls _ _ h1 h2
  | svc k => rfl
  | wick => rfl

/-- What holds of a state and passes from one read of the array to the next holds after the reads. -/
theorem noted_keeps {P : State → Prop} {h : Hart} (hp : ∀ t x, P t → P (t.arrayRead h x)) {s u : State} (hu : Noted h s u)
    (hs : P s) : P u := by
  obtain ⟨l, rfl⟩ := hu
  induction l generalizing s with
  | nil => exact hs
  | cons x l ih => exact ih (hp _ _ hs)

/-- What the end of accesses in flight keeps, a read of the array keeps. -/
theorem noted_of_drainOld {P : State → Prop} {h : Hart} (hd : ∀ t, P t → P t.drainOld)
    (hf : ∀ (t : State) x, P t → P { t with flc := x }) {s u : State} (hu : Noted h s u) (hs : P s) : P u := by
  refine noted_keeps (fun t x ht => ?_) hu hs
  have hl : ∀ (l : List Stall) (t : State), P t → P (t.drainStalls l) := by
    intro l
    unfold State.drainStalls
    induction l.filter (·.old) with
    | nil => exact fun _ => id
    | cons x l ih => exact fun t ht => ih _ (hd t ht)
  cases h with
  | ctl n => exact hl _ _ (hf _ _ (hf _ _ ht))
  | svc k => exact ht
  | wick => exact ht

/-- The register map after reads of the array shows the drain of the access table's old epoch alone. -/
theorem rd_noted {h : Hart} {s u : State} (hu : Noted h s u) {a : Nat} (h1 : a ≠ ACT_EPOCH_DRAIN_OLD_LIVE.1)
    (h2 : a ≠ ACT_EVT_EPOCH_DONE.1) : u.rd a = s.rd a :=
  noted_of_drainOld (P := fun t => t.rd a = s.rd a) (fun t ht => (State.rd_drainOld t h1 h2).trans ht) (fun _ _ => id) hu rfl

/-- A write of a register that is no attribute word leaves the active rules. -/
theorem activeRules_fset (s : State) (f : Fld) (v : Nat) (hf : f.addr < 0x40120000) : (s.fset f v).activeRules = s.activeRules := by
  have key : ∀ (g : Nat × Word → Option Nat) (k : Nat) (w : Word) (m : Sparse Word), (∀ x, g (k, x) = none) →
      (sput 0 m k w).filterMap g = m.filterMap g := by
    intro g k w m hg
    have he : ∀ m : Sparse Word, (serase k m).filterMap g = m.filterMap g := by
      intro m
      induction m with
      | nil => rfl
      | cons e m ih =>
        simp only [serase]
        split
        · next h => subst h; rw [ih, List.filterMap_cons_none (hg _)]
        · rw [List.filterMap_cons, List.filterMap_cons, ih]
    have hi : ∀ m : Sparse Word, (sinsert k w m).filterMap g = m.filterMap g := by
      intro m
      induction m with
      | nil => simp [sinsert, hg]
      | cons e m ih =>
        simp only [sinsert]
        split
        · rw [List.filterMap_cons_none (hg _)]
        · rw [List.filterMap_cons, List.filterMap_cons, ih]
    unfold sput
    split
    · exact he m
    · rw [hi, he]
  exact key _ _ _ _ fun x => if_neg (by omega)

theorem activeRules_noted {h : Hart} {s u : State} (hu : Noted h s u) : u.activeRules = s.activeRules := by
  refine noted_of_drainOld (P := fun t => t.activeRules = s.activeRules) (fun t ht => ?_) (fun _ _ => id) hu rfl
  refine Eq.trans ?_ ht
  unfold State.drainOld
  simp only
  split
  · rfl
  · split
    · rw [State.raise, activeRules_fset _ _ _ (by decide), activeRules_fset _ _ _ (by decide)]
    · rw [activeRules_fset _ _ _ (by decide)]

/-- One instruction retires whose effect is on its hart's registers alone. -/
theorem State.retired_frame_of {s u : State} {h : Hart} (hc : s.hasCore h) (hp : ∀ e, slotEvent h = some e → s.counting = true)
    (hu : SameAfter h s u) (c : Core) : Retires h s ((u.setCore h c).retired h) c := by
  have he := hu.eq
  have huc : u.hasCore h := by rw [he]; exact hc
  generalize hc' : ({ c with holdcnt := c.holdcnt - 1 } : Core) = c'
  have hr : (u.setCore h c).retired h = ((u.setCore h c').accessesOver h).countSlot h 0 := by
    simp only [State.retired, State.core_setCore huc, State.setCore_setCore, hc']
  generalize hw : u.setCore h c' = w at hr
  have hs : w = { s with regs := u.regs, cores := w.cores, dsp := { s.dsp with regs := w.dsp.regs }, flc := u.flc } := by
    rw [← hw]
    have hd : u.dsp = s.dsp := by rw [he]
    cases h with
    | ctl n => rw [he]; rfl
    | wick => rw [he]; rfl
    | svc k =>
      simp only [State.setCore]
      cases u.ctxOn k with
      | none => rw [he]
      | some c => rw [he]
  have hwr : w.regs = u.regs := by rw [hs]
  have hwf : w.flc = u.flc := by rw [hs]
  have ho := State.accessesOver_congr hwr hwf h
  have ht : (u.setCore h c).retired h = { w with
      regs := ((u.setCore h c).retired h).regs
      flc := (w.accessesOver h).flc } := by
    rw [hr, State.countSlot_eq, State.accessesOver_eq w]
  rw [hr] at ht ⊢
  refine { rest := ?_, flash := ?_, regs := ?_, counted := ?_, others := ?_, contexts := ?_, core := ?_ }
  · rw [ht, hs]
  · rw [ht]; simp only; rw [ho.2]; exact hu.flc
  · intro a ha
    have hq : (w.accessesOver h).rd a = (s.accessesOver h).rd a := by simp only [State.rd, ho.1, hu.regs]
    rw [State.countSlot_zero]
    cases hse : slotEvent h with
    | none => exact hq
    | some e =>
      obtain ⟨h1, h2, h3⟩ := ha e hse
      exact (State.rd_count _ _ _ h1 h2 h3).trans hq
  · intro e hse
    have hp := hp e hse
    rw [State.countSlot_zero, hse]
    have hp' : (w.accessesOver h).counting = true := by
      rw [State.accessesOver_eq, hs]; exact hp
    have hne : PMC_CNT e ≠ ACT_EPOCH_DRAIN_OLD_LIVE.1 ∧ PMC_CNT e ≠ ACT_EVT_EPOCH_DONE.1 := by
      constructor <;> simp only [PMC_CNT, ACT_EPOCH_DRAIN_OLD_LIVE, ACT_EVT_EPOCH_DONE, ACT_EPOCH_DRAIN, ACT_EVT] <;> omega
    have hq : (w.accessesOver h).rd (PMC_CNT e) = (s.accessesOver h).rd (PMC_CNT e) := by simp only [State.rd, ho.1, hu.regs]
    rw [State.count_one _ _ hp', hq, State.rd_accessesOver _ _ hne.1 hne.2]
  · intro k hk
    rw [ht, ← hw]
    have hcu : u.cores = s.cores := by rw [he]
    cases h with
    | svc j =>
      have : (u.setCore (.svc j) c').cores = u.cores := by simp only [State.setCore]; cases u.ctxOn j <;> rfl
      simp only; rw [this, hcu]
    | ctl n =>
      have hk := hk.resolve_left (by simp [isService])
      exact (sget_sput_ne _ _ _ _ hk).trans (by rw [hcu])
    | wick =>
      have hk := hk.resolve_left (by simp [isService])
      exact (sget_sput_ne _ _ _ _ hk).trans (by rw [hcu])
  · intro n hn
    rw [ht, ← hw]
    have hk : ∀ k, u.ctxOn k = s.ctxOn k := by intro k; rw [he]; rfl
    have hd : u.dsp = s.dsp := by rw [he]
    cases h with
    | ctl n => exact congrArg (fun d : DspState => sget {} d.regs _) hd
    | wick => exact congrArg (fun d : DspState => sget {} d.regs _) hd
    | svc j =>
      simp only [State.setCore]
      cases hj : u.ctxOn j with
      | none => exact congrArg (fun d : DspState => sget {} d.regs _) hd
      | some m =>
        have hne : n ≠ m := by
          rintro rfl
          exact hn j rfl (by rw [← hk j]; exact hj)
        exact (sget_sput_ne _ _ _ _ hne).trans (by rw [hd])
  · rw [State.countSlot_core, State.accessesOver_eq]
    have : w.core h = c' := by rw [← hw]; exact State.core_setCore huc _
    exact this.trans hc'.symm

/-- The same of a hart that can begin an instruction. -/
theorem State.retired_frame {s u : State} {h : Hart} (hb : s.begins h = true) (hu : Noted h s u) (c : Core) :
    Retires h s ((u.setCore h c).retired h) c :=
  State.retired_frame_of (State.begins_hasCore hb) (State.runs_counts hb) (noted_same hu) c

/-- What reads the registers of a hart reads them alike after the fetch. -/
theorem State.core_of_fetched {s u : State} {h : Hart} (hu : Noted h s u) (k : Hart := h) : u.core k = s.core k := by
  rw [(noted_same hu).eq]; cases k <;> rfl

theorem State.hasCore_of_fetched {s u : State} {h : Hart} (hu : Noted h s u) (hc : s.hasCore h) : u.hasCore h := by
  rw [(noted_same hu).eq]; exact hc

/-! ### What an instruction of the usual kinds does -/

/-- An instruction whose form is legal where it stands executes its own effect. -/
theorem State.execute_fetched {s : State} {h : Hart} {f : Form} {body : State → Res} (hx : Executes h s)
    (hl : f.legal h (s.core h) = true) : s.execute h f body = .next ((body (s.fetch h).2).finish h f.word) := by
  obtain ⟨hb, hf⟩ := hx
  have hc : ((s.fetch h).2).core h = s.core h := State.core_of_fetched (State.fetch_ok hf)
  rw [State.execute, event_of _ _ _ hb]
  cases he : s.fetch h with
  | mk r u =>
    rw [he] at hf hc
    obtain rfl : r = .ok () := hf
    simp only at hc ⊢
    rw [hc, hl]; rfl

/-- The same, the state after the fetch not named. -/
theorem State.execute_of {s : State} {h : Hart} {f : Form} {body : State → Res} (hx : Executes h s)
    (hl : f.legal h (s.core h) = true) :
    ∃ u, Noted h s u ∧ s.execute h f body = .next ((body u).finish h f.word) :=
  ⟨_, State.fetch_ok hx.2, State.execute_fetched hx hl⟩

theorem legal_of {f : Form} {h : Hart} {c : Core} (ho : f.ok = true) (hp : f.inProfile h = true)
    (hs : f.slot = true ∨ c.slot = none) : f.legal h c = true := by
  rcases hs with hs | hs <;> simp [Form.legal, ho, hp, hs]

theorem State.gpr_of_fetched {s u : State} {h : Hart} (hu : Noted h s u) (i : BitVec 5) : u.gpr h i = s.gpr h i := by
  unfold State.gpr; rw [State.core_of_fetched hu]

theorem State.cap_of_fetched {s u : State} {h : Hart} (hu : Noted h s u) (i : BitVec 4) : u.cap h i = s.cap h i := by
  unfold State.cap; rw [State.core_of_fetched hu]

/-- A body that writes a hart's registers and lets the next instruction follow. -/
theorem leaves_seq {i : Instr} {s : State} {h : Hart} {f : Form} {body : State → Res} {c : Core} (hi : exec i s = s.execute h f body)
    (hx : Executes h s) (hl : f.legal h (s.core h) = true)
    (hb : ∀ u, Noted h s u → body u = .seq (u.setCore h c)) : Leaves i h s c.advance := by
  obtain ⟨u, hu, he⟩ := State.execute_of (body := body) hx hl
  refine ⟨_, hi.trans he, ?_⟩
  have hc : u.hasCore h := State.hasCore_of_fetched hu (State.begins_hasCore hx.1)
  rw [hb u hu, Res.finish, State.core_setCore hc, State.setCore_setCore]
  exact State.retired_frame hx.1 hu _

/-- A body that leaves everything alone. -/
theorem leaves_same {i : Instr} {s : State} {h : Hart} {f : Form} {body : State → Res} (hi : exec i s = s.execute h f body)
    (hx : Executes h s) (hl : f.legal h (s.core h) = true)
    (hb : ∀ u, Noted h s u → body u = .seq u) : Leaves i h s (s.core h).advance := by
  obtain ⟨u, hu, he⟩ := State.execute_of (body := body) hx hl
  refine ⟨_, hi.trans he, ?_⟩
  rw [hb u hu, Res.finish, State.core_of_fetched hu]
  exact State.retired_frame hx.1 hu _

/-- A body that writes a general register. -/
theorem gives_of {i : Instr} {s : State} {h : Hart} {f : Form} {body : State → Res} {rd : BitVec 5} {v : Word}
    (hi : exec i s = s.execute h f body) (hx : Executes h s) (hl : f.legal h (s.core h) = true)
    (hb : ∀ u, Noted h s u → body u = .seq (u.setGpr h rd v)) : Gives i h s rd v :=
  leaves_seq hi hx hl fun u hu => by rw [hb u hu, State.setGpr, State.core_of_fetched hu]

/-- A body that writes a capability register. -/
theorem givesCap_of {i : Instr} {s : State} {h : Hart} {f : Form} {body : State → Res} {rd : BitVec 4} {v : Cap}
    (hi : exec i s = s.execute h f body) (hx : Executes h s) (hl : f.legal h (s.core h) = true)
    (hb : ∀ u, Noted h s u → body u = .seq (u.setCap h rd v)) : GivesCap i h s rd v :=
  leaves_seq hi hx hl fun u hu => by rw [hb u hu, State.setCap, State.core_of_fetched hu]

/-- A body that writes a general register after reads of memory. -/
theorem gives_after {i : Instr} {s : State} {h : Hart} {f : Form} {body : State → Res} {rd : BitVec 5} {v : Word}
    (hi : exec i s = s.execute h f body) (hx : Executes h s) (hl : f.legal h (s.core h) = true)
    (hb : ∀ u, Noted h s u → ∃ t, Noted h s t ∧ body u = .seq (t.setGpr h rd v)) :
    Gives i h s rd v := by
  obtain ⟨u, hu, he⟩ := State.execute_of (body := body) hx hl
  obtain ⟨t, ht, hbt⟩ := hb u hu
  refine ⟨_, hi.trans he, ?_⟩
  have hc : t.hasCore h := State.hasCore_of_fetched ht (State.begins_hasCore hx.1)
  rw [hbt, Res.finish, State.setGpr, State.core_setCore hc, State.setCore_setCore, State.core_of_fetched ht]
  exact State.retired_frame hx.1 ht _

/-- A body that raises an exception after reads of memory. -/
theorem raises_after {i : Instr} {s : State} {h : Hart} {f : Form} {body : State → Res} {x : Exc} {w : Word32}
    (hi : exec i s = s.execute h f body) (hx : Executes h s) (hl : f.legal h (s.core h) = true) (hw : f.word = w)
    (hb : ∀ u, Noted h s u → ∃ t, Noted h s t ∧ body u = .raises x t) : Raises i h s w x := by
  subst hw
  obtain ⟨u, hu, he⟩ := State.execute_of (body := body) hx hl
  obtain ⟨t, ht, hbt⟩ := hb u hu
  exact ⟨t, ht, (hi.trans he).trans (by rw [hbt, Res.finish])⟩

/-- A body that branches, with the hart's registers as it leaves them. -/
theorem leaves_branch {i : Instr} {s : State} {h : Hart} {f : Form} {body : State → Res} {c : Core} {t : BitVec 48}
    (hi : exec i s = s.execute h f body) (hx : Executes h s) (hl : f.legal h (s.core h) = true)
    (hb : ∀ u, Noted h s u → body u = .branch (u.setCore h c) t) : Leaves i h s (c.branchTo t) := by
  obtain ⟨u, hu, he⟩ := State.execute_of (body := body) hx hl
  refine ⟨_, hi.trans he, ?_⟩
  have hc : u.hasCore h := State.hasCore_of_fetched hu (State.begins_hasCore hx.1)
  rw [hb u hu, Res.finish, State.core_setCore hc, State.setCore_setCore]
  exact State.retired_frame hx.1 hu _

/-- A body that branches and leaves the hart's registers alone. -/
theorem leaves_jump {i : Instr} {s : State} {h : Hart} {f : Form} {body : State → Res} {t : BitVec 48}
    (hi : exec i s = s.execute h f body) (hx : Executes h s) (hl : f.legal h (s.core h) = true)
    (hb : ∀ u, Noted h s u → body u = .branch u t) : Leaves i h s ((s.core h).branchTo t) := by
  obtain ⟨u, hu, he⟩ := State.execute_of (body := body) hx hl
  refine ⟨_, hi.trans he, ?_⟩
  rw [hb u hu, Res.finish, State.core_of_fetched hu]
  exact State.retired_frame hx.1 hu _

/-- A body that switches to another place, with the hart's registers as it leaves them. -/
theorem leaves_switch {i : Instr} {s : State} {h : Hart} {f : Form} {body : State → Res} {c : Core} {pc : BitVec 48}
    {slot : Option (BitVec 48 × BitVec 48)} {shadow : Bool}
    (hi : exec i s = s.execute h f body) (hx : Executes h s) (hl : f.legal h (s.core h) = true)
    (hb : ∀ u, Noted h s u → ∃ t, Noted h s t ∧ body u = .switch (t.setCore h c) pc slot shadow) :
    Leaves i h s { c with pc := pc, slot := slot, shadow := shadow, waiting := false } := by
  obtain ⟨u, hu, he⟩ := State.execute_of (body := body) hx hl
  obtain ⟨t, ht, hbt⟩ := hb u hu
  refine ⟨_, hi.trans he, ?_⟩
  have hc : t.hasCore h := State.hasCore_of_fetched ht (State.begins_hasCore hx.1)
  rw [hbt, Res.finish, State.core_setCore hc, State.setCore_setCore]
  exact State.retired_frame hx.1 ht _

/-- The instruction at PC is fetched from a multiple of 4. -/
theorem fetched_aligned {h : Hart} {s : State} (hx : Executes h s) : (s.core h).pc.toNat % 4 = 0 := by
  have hf := hx.2
  by_contra hn
  have : ∃ x, (s.core h).pcc.checkAccess [pX] (s.core h).pc.toNat 4 = some x := by
    unfold Cap.checkAccess
    split
    · exact ⟨_, rfl⟩
    · split
      · exact ⟨_, rfl⟩
      · first | exact ⟨_, rfl⟩ | exact ⟨_, if_pos hn⟩
  obtain ⟨x, hx⟩ := this
  simp [State.fetch, hx] at hf

/-- A body that raises an exception. -/
theorem raises_of {i : Instr} {s : State} {h : Hart} {f : Form} {body : State → Res} {x : Exc} {w : Word32}
    (hi : exec i s = s.execute h f body) (hx : Executes h s) (hl : f.legal h (s.core h) = true) (hw : f.word = w)
    (hb : ∀ u, Noted h s u → body u = .raises x u) : Raises i h s w x := by
  subst hw
  obtain ⟨u, hu, he⟩ := State.execute_of (body := body) hx hl
  exact ⟨u, hu, (hi.trans he).trans (by rw [hb u hu, Res.finish])⟩

/-- An instruction whose form is not legal where it stands raises ILLEGAL (04 R95). -/
theorem raises_illegal {i : Instr} {s : State} {h : Hart} {f : Form} {body : State → Res} {w : Word32}
    (hi : exec i s = s.execute h f body) (hx : Executes h s) (hw : f.word = w) (hl : f.legal h (s.core h) = false) :
    Raises i h s w excIllegal := by
  subst hw
  obtain ⟨hb, hf⟩ := hx
  refine ⟨(s.fetch h).2, State.fetch_ok hf, ?_⟩
  have hc : ((s.fetch h).2).core h = s.core h := State.core_of_fetched (State.fetch_ok hf)
  rw [hi, State.execute, event_of _ _ _ hb]
  cases he : s.fetch h with
  | mk r u =>
    rw [he] at hf hc
    obtain rfl : r = .ok () := hf
    simp only at hc ⊢
    rw [hc, hl]; rfl

end Sys2Proof.Machine
end

