-- ==== Sys2Proof/Laws/Wire.lean ====
section
/-!
SUPPORT. Laws/Wire.lean: bytes and numbers (00 R4): the byte of a number, the number of bytes, and that each gives the
other back.
-/

namespace Sys2Proof.Machine

@[simp] theorem leBytes_length (k : Nat) : ∀ n, (leBytes k n).length = k := by
  induction k with
  | zero => intro n; rfl
  | succ k ih => intro n; simp [leBytes, ih]

/-- Byte `i` of a number. -/
theorem leBytes_getD (k : Nat) : ∀ (n i : Nat), i < k → ((leBytes k n).getD i 0).toNat = n / 256 ^ i % 256 := by
  induction k with
  | zero => intro n i h; omega
  | succ k ih =>
    intro n i h
    cases i with
    | zero => simp [leBytes]
    | succ i =>
      have := ih (n / 256) i (by omega)
      simp only [leBytes, List.getD_cons_succ, this, Nat.div_div_eq_div_mul, Nat.pow_succ']

/-- Byte `i` of the number that bytes spell. -/
theorem leNat_byte : ∀ (l : List Byte) (i : Nat), leNat l / 256 ^ i % 256 = (l.getD i 0).toNat := by
  intro l
  induction l with
  | nil => intro i; simp [leNat]
  | cons b t ih =>
    intro i
    have hb := b.isLt
    cases i with
    | zero => simp [leNat]; omega
    | succ i =>
      have : (b.toNat + 256 * leNat t) / 256 ^ (i + 1) = leNat t / 256 ^ i := by
        rw [Nat.pow_succ', ← Nat.div_div_eq_div_mul]; congr 1; omega
      simp only [leNat, this, ih, List.getD_cons_succ]

theorem leNat_lt : ∀ l : List Byte, leNat l < 256 ^ l.length := by
  intro l
  induction l with
  | nil => simp [leNat]
  | cons b t ih =>
    have hb := b.isLt
    simp only [leNat, List.length_cons, Nat.pow_succ']; omega

/-- The number that the bytes of a number spell. -/
theorem leNat_leBytes (k : Nat) : ∀ n, leNat (leBytes k n) = n % 256 ^ k := by
  induction k with
  | zero => intro n; simp [leBytes, leNat, Nat.mod_one]
  | succ k ih =>
    intro n
    have : (BitVec.ofNat 8 n).toNat = n % 256 := BitVec.toNat_ofNat n 8
    rw [leBytes, leNat, ih, this, Nat.pow_succ', Nat.mod_mul]

/-- The bytes of the number that bytes spell. -/
theorem leBytes_leNat : ∀ l : List Byte, leBytes l.length (leNat l) = l := by
  intro l
  induction l with
  | nil => rfl
  | cons b t ih =>
    have hb := b.isLt
    have h1 : (b.toNat + 256 * leNat t) / 256 = leNat t := by omega
    have h2 : BitVec.ofNat 8 (b.toNat + 256 * leNat t) = b := by
      apply BitVec.eq_of_toNat_eq; simp; omega
    simp only [List.length_cons, leNat, leBytes, h1, h2, ih]

end Sys2Proof.Machine
end

