-- ==== Sys2Proof/Laws/WenakInt.lean ====
section
/-!
SUPPORT. Laws/WenakInt.lean: the shared operations of the integer instructions (04 R101-R106): when their forms are legal,
what they put into gd, and the arithmetic of their results.
-/

namespace Sys2Proof

open Sys2Proof.Machine

/-- A register operation puts its result into gd. -/
theorem opA_gives {i : Instr} {h : Hart} {f : FmtA} {s : State} {g : Word → Word → Word} {fm : Form} {v : Word}
    (hi : exec i s = s.execute h fm (opA h f g)) (hx : Executes h s) (hl : fm.legal h (s.core h) = true)
    (hv : g (s.gpr h f.ra) (s.gpr h f.rb) = v) : Gives i h s f.rd v :=
  gives_of hi hx hl fun u hu => by simp only [opA, State.gives, State.gpr_of_fetched hu, hv]

/-- The form of OPA is legal everywhere. -/
theorem legalA (fn : BitVec 11) (f : FmtA) (h : Hart) (c : Core) : (formA fn f).legal h c = true := by
  cases h <;> rfl

/-- SLT as a comparison of numbers. -/
theorem slt_iff (a b : Word) : ofBool (a.slt b) = if a.toInt < b.toInt then 1 else 0 := by
  simp [ofBool, BitVec.slt]

/-- SLTU as a comparison of numbers. -/
theorem sltu_iff (a b : Word) : ofBool (a.ult b) = if a.toNat < b.toNat then 1 else 0 := by
  simp [ofBool, BitVec.ult]

/-- A unary form whose rb is 0 is legal. -/
theorem legalU {fn : BitVec 11} {f : FmtA} (h : Hart) (c : Core) (hz : f.rb = 0) : (formUnary fn f).legal h c = true := by
  cases h <;> simp [Form.legal, formUnary, Form.inProfile, hz]

/-- A unary form whose rb is not 0 is not. -/
theorem illegalU {fn : BitVec 11} {f : FmtA} (h : Hart) (c : Core) (hz : f.rb ≠ 0) : (formUnary fn f).legal h c = false := by
  have : decide (f.rb = 0) = false := decide_eq_false hz
  cases h <;> simp only [Form.legal, formUnary, Form.inProfile, this] <;> rfl

/-- What the count of leading zeros is. -/
theorem leadZeros_spec (v : Word) (n : Nat) : leadZeros v n ≤ n ∧ (∀ i < leadZeros v n, v.getLsbD (n - 1 - i) = false) ∧
    (leadZeros v n < n → v.getLsbD (n - 1 - leadZeros v n) = true) := by
  induction n with
  | zero => simp [leadZeros]
  | succ n ih =>
    simp only [leadZeros]
    split
    · next hb => simp [hb]
    · next hb =>
      obtain ⟨h1, h2, h3⟩ := ih
      refine ⟨by omega, ?_, ?_⟩
      · intro i hi
        rcases Nat.eq_zero_or_pos i with rfl | hp
        · simpa using hb
        · have := h2 (i - 1) (by omega)
          rwa [show n + 1 - 1 - i = n - 1 - (i - 1) by omega]
      · intro hl
        have := h3 (by omega)
        rwa [show n + 1 - 1 - (leadZeros v n + 1) = n - 1 - leadZeros v n by omega]

/-- The set bits, counted. -/
theorem setBits_eq (v : Word) (n : Nat) : setBits v n = ((List.range n).filter v.getLsbD).length := by
  induction n with
  | zero => rfl
  | succ n ih => simp [setBits, List.range_succ, List.filter_append, ih]; split <;> simp_all

/-- Sign extension keeps the number. -/
theorem sx' (v : BitVec 32) : v.signExtend 64 = BitVec.ofInt 64 v.toInt := by
  apply BitVec.eq_of_toInt_eq
  rw [BitVec.toInt_signExtend_of_le (by decide), BitVec.toInt_ofInt_eq_self (by decide)]
  · have := v.le_toInt; omega
  · have := v.toInt_lt; omega

/-- Sign extension of a 32-bit result. -/
theorem sx (x : Int) : (BitVec.ofInt 32 x).signExtend 64 = BitVec.ofInt 64 (BitVec.ofInt 32 x).toInt := sx' _

/-- The low words of a sum. -/
theorem low_add (a b : Word) : a.setWidth 32 + b.setWidth 32 = BitVec.ofInt 32 (a.toInt + b.toInt) := by
  apply BitVec.eq_of_toNat_eq
  simp [BitVec.toInt_eq_toNat_cond]; split <;> split <;> omega

/-- The low words of a difference. -/
theorem low_sub (a b : Word) : a.setWidth 32 - b.setWidth 32 = BitVec.ofInt 32 (a.toInt - b.toInt) := by
  apply BitVec.eq_of_toNat_eq
  simp [BitVec.toInt_eq_toNat_cond, BitVec.toNat_sub]; split <;> split <;> omega

/-- A byte of the bytes in reverse order. -/
theorem swap_byte (a : Word) (n : Nat) (hn : n ≤ 8) (i : Nat) (hi : i < n) :
    bitsOf (swapBytes n a) (8 * i) 8 = bitsOf a (8 * (n - 1 - i)) 8 := by
  have h1 : ∀ k, 2 ^ (8 * k) = 256 ^ k := fun k => by rw [Nat.pow_mul]
  have hl := leNat_lt (leBytes n a.toNat).reverse
  simp only [List.length_reverse, leBytes_length] at hl
  have hlt : leNat (leBytes n a.toNat).reverse < 2 ^ 64 :=
    Nat.lt_of_lt_of_le hl (by rw [show (2:Nat) ^ 64 = 256 ^ 8 by decide]; exact Nat.pow_le_pow_right (by decide) hn)
  simp only [swapBytes, bitsOf, BitVec.toNat_ofNat, Nat.mod_eq_of_lt hlt, h1]
  rw [show 2 ^ 8 = 256 from rfl, leNat_byte, ← leBytes_getD n _ _ (by omega : n - 1 - i < n)]
  congr 1
  simp only [List.getD_eq_getElem?_getD]
  rw [List.getElem?_reverse (by simpa using hi)]
  simp

/-- A result that does not fit. -/
theorem fits64_iff (v : Int) : fits64 v = false ↔ (v < -(2 ^ 63) ∨ 2 ^ 63 ≤ v) := by
  simp [fits64]; omega

/-- An immediate operation puts its result into gd. -/
theorem opI_gives {i : Instr} {h : Hart} {f : FmtI} {s : State} {g : Word → BitVec 16 → Word} {fm : Form} {v : Word}
    (hi : exec i s = s.execute h fm (opI h f g)) (hx : Executes h s) (hl : fm.legal h (s.core h) = true)
    (hv : g (s.gpr h f.ra) f.imm = v) : Gives i h s f.rd v :=
  gives_of hi hx hl fun u hu => by simp only [opI, State.gives, State.gpr_of_fetched hu, hv]

/-- The form of an immediate instruction is legal everywhere. -/
theorem legalI (op : BitVec 6) (f : FmtI) (h : Hart) (c : Core) : (formI op f).legal h c = true := by
  cases h <;> rfl

/-- A sign-extended immediate. -/
theorem sx16 (i : BitVec 16) : i.signExtend 64 = BitVec.ofInt 64 i.toInt := by
  apply BitVec.eq_of_toInt_eq
  rw [BitVec.toInt_signExtend_of_le (by decide), BitVec.toInt_ofInt_eq_self (by decide)]
  · have := i.le_toInt; omega
  · have := i.toInt_lt; omega

/-- A sign-extended immediate, 32 bits. -/
theorem sx16' (i : BitVec 16) : i.signExtend 32 = BitVec.ofInt 32 i.toInt := by
  apply BitVec.eq_of_toInt_eq
  rw [BitVec.toInt_signExtend_of_le (by decide), BitVec.toInt_ofInt_eq_self (by decide)]
  · have := i.le_toInt; omega
  · have := i.toInt_lt; omega

/-- A zero-extended immediate. -/
theorem zx16 (i : BitVec 16) : i.setWidth 64 = BitVec.ofNat 64 i.toNat := by
  apply BitVec.eq_of_toNat_eq; simp

end Sys2Proof
end

