-- ==== Sys2Proof/Laws/WenakMem.lean ====
section
/-!
SUPPORT. Laws/WenakMem.lean: loads and stores (04 R107-R112): the order of the checks, what a load gives, and what a store
that reaches memory changes.
-/

namespace Sys2Proof

open Sys2Proof.Machine

/-- The checks of an access, in order. -/
theorem checkAccess_eq (cb : Cap) (need : List Nat) (ea n : Nat) : cb.checkAccess need ea n = accessFault cb need ea n := by
  have hp : (need.all (permBit cb.perms) = true) ↔ ¬ ∃ p ∈ need, permBit cb.perms p = false := by
    rw [List.all_eq_true]; push Not; simp
  unfold Cap.checkAccess Cap.checkUse accessFault Cap.limit
  by_cases h1 : cb.tag = false
  · simp [h1, excCap]
  · simp only [Bool.not_eq_false] at h1
    by_cases h2 : cb.otype ≠ 0
    · have h2' : ¬ cb.otype = 0 := h2
      simp only [h1, h2', ne_eq, not_false_eq_true, if_true]; simp [excCap]
    · by_cases h3 : ∃ p ∈ need, permBit cb.perms p = false
      · have : need.all (permBit cb.perms) = false := by simpa [hp] using h3
        simp only [h1, h2, h3, this]; simp [excCap]
      · have : need.all (permBit cb.perms) = true := hp.2 h3
        simp only [h1, h2, h3, this]; simp [excCap, excMisalign]

/-- A data read of memory changes nothing but what a read of the flash array does. -/
theorem dataRead_ok {u v : State} {h : Hart} {p : BitVec 16} {a n x : Nat} (hr : regsFor h a = false)
    (he : u.dataRead h p a n = (.ok x, v)) : Noted h u v := by
  unfold State.dataRead at he
  rw [hr] at he
  simp only [Bool.false_eq_true, if_false] at he
  split at he
  · simp at he
  · next hs => exact (Prod.mk.inj he).2 ▸ .of (State.spaceRead_ok hs)

/-- The form of a load or store is legal everywhere. -/
theorem legalM (op : BitVec 6) (f : FmtM) (h : Hart) (c : Core) : (formM op f).legal h c = true := by
  cases h <;> rfl

/-- Sign extension keeps the number. -/
theorem sxn {n : Nat} (v : BitVec n) (hn : n ≤ 64) : v.signExtend 64 = BitVec.ofInt 64 v.toInt := by
  apply BitVec.eq_of_toInt_eq
  rw [BitVec.toInt_signExtend_of_le hn, BitVec.toInt_ofInt_eq_self (by decide)]
  · have := v.le_toInt
    have h2 : (2 : Int) ^ (n - 1) ≤ 2 ^ 63 := by exact_mod_cast Nat.pow_le_pow_right (by decide) (by omega)
    simp at *; omega
  · have := v.toInt_lt
    have h2 : (2 : Int) ^ (n - 1) ≤ 2 ^ 63 := by exact_mod_cast Nat.pow_le_pow_right (by decide) (by omega)
    simp at *; omega

/-- What a load does. -/
theorem load_ok {i : Instr} {h : Hart} {f : FmtM} {s : State} {op : BitVec 6} {n : Nat} {ext : Nat → Word} {g : Nat → Int}
    (hi : exec i s = s.execute h (formM op f) (loadOp h f n ext)) (hx : Executes h s) (hg : ∀ v, ext v = BitVec.ofInt 64 (g v)) :
      let ea := effAddr (s.cap h f.cb) (s.gpr h f.ra) f.imm
      match accessFault (s.cap h f.cb) [pR] ea n with
      | some x => Raises i h s (encM op f) x
      | none =>
        match (s.fetch h).2.dataRead h (s.cap h f.cb).perms ea n with
        | (.error b, v) => exec i s = .next (v.raiseExc h (encM op f) (excBus b (BitVec.ofNat 64 ea)))
        | (.ok x, v) =>
          exec i s =
            .next ((v.setCore h ((v.core h).setGpr f.rt (BitVec.ofInt 64 (g x))).advance).retired h) ∧
          (regsFor h ea = false → Gives i h s f.rt (BitVec.ofInt 64 (g x))) := by
  intro ea
  rw [← checkAccess_eq]
  have hu := State.fetch_ok hx.2
  split
  · next x hc =>
    refine raises_of hi hx (legalM _ _ _ _) rfl fun u hu => ?_
    simp only [loadOp, State.memAddr, State.cap_of_fetched hu, State.gpr_of_fetched hu]
    rw [hc]
  · next hc =>
    have key := hi.trans (State.execute_fetched hx (legalM op f h _))
    simp only [loadOp, State.memAddr, State.cap_of_fetched hu, State.gpr_of_fetched hu] at key
    rw [hc] at key
    simp only at key
    split
    · next he => rw [he] at key; exact key
    · next x v he =>
      rw [he] at key
      simp only [Res.finish, hg] at key
      constructor
      · have hc : v.hasCore h := by
          cases hr : regsFor h (effAddr (s.cap h f.cb) (s.gpr h f.ra) f.imm) with
          | true => intro k hk; rw [hk] at hr; simp [regsFor] at hr
          | false => exact State.hasCore_of_fetched (hu.trans (dataRead_ok hr he)) (State.begins_hasCore hx.1)
        rw [key, State.setGpr, State.core_setCore hc, State.setCore_setCore]
      · intro hr
        have hv := hu.trans (dataRead_ok hr he)
        refine ⟨_, key, ?_⟩
        have hc : v.hasCore h := State.hasCore_of_fetched hv (State.begins_hasCore hx.1)
        rw [State.setGpr, State.core_setCore hc, State.setCore_setCore, State.core_of_fetched hv]
        exact State.retired_frame hx.1 hv _

/-- What a store that reaches memory leaves: the bytes, their tags and their codewords in the hart's memory, and what
`seenBy` says. -/
def stored (s : State) (h : Hart) (ea : Nat) (bs : List Byte) (tag : Bool) : State :=
  let x := s.seenBy h ea bs
  match h with
  | .ctl _ =>
    let y := { x with mem := memWrite s.mem ea bs, tags := (s.storeBytes ea bs).tags, damaged := healed s.damaged .bus ea bs.length }
    if tag then { y with tags := tagPut (s.storeBytes ea bs).tags ea true } else y
  | .svc _ => { x with
      dsp := { s.dsp with mem := prvWrite s.dsp.mem ea bs, tags := tagPut s.dsp.tags ea tag }
      damaged := healed s.damaged .ctx ea bs.length }
  | .wick => { x with
      wck := { s.wck with mem := prvWrite s.wck.mem ea bs, tags := tagPut s.wck.tags ea tag }
      damaged := healed s.damaged .wick ea bs.length }

theorem coreBytes_noted {h : Hart} {s u : State} (hu : Noted h s u) : u.coreBytes = s.coreBytes := by
  simp only [State.coreBytes, State.fget]
  rw [rd_noted hu (by decide) (by decide)]

/-- What the access table says does not depend on what a read of the flash array changes. -/
theorem actCheck_noted {h : Hart} {s u : State} (hu : Noted h s u) (a : Acc) (addr : Nat) (ty : Access) :
    u.actCheck a addr ty = s.actCheck a addr ty := by
  have hr : ∀ r, 0x40110000 ≤ r → u.rd r = s.rd r := fun r h => rd_noted hu (by
    simp only [ACT_EPOCH_DRAIN_OLD_LIVE, ACT_EPOCH_DRAIN]; omega) (by simp only [ACT_EVT_EPOCH_DONE, ACT_EVT]; omega)
  have hn : u.rd ACT_CTRL = s.rd ACT_CTRL := rd_noted hu (by decide) (by decide)
  have hs : u.sys = s.sys := by rw [(noted_same hu).eq]
  have h1 : u.activeRules = s.activeRules := activeRules_noted hu
  have h2 : ∀ g, u.ruleCovers g = s.ruleCovers g := fun g => funext fun n => by
    simp only [State.ruleCovers]; rw [hr _ (by simp only [ACT_ARULE_START]; omega), hr _ (by simp only [ACT_ARULE_END]; omega)]
  have h3 : ∀ n, u.rd (ACT_ARULE_ATTR n) = s.rd (ACT_ARULE_ATTR n) := fun n => hr _ (by simp only [ACT_ARULE_ATTR]; omega)
  have h4 : ∀ m n, u.ruleAdmits m n = s.ruleAdmits m n := fun m n => by
    simp only [State.ruleAdmits]; rw [hr _ (by simp only [ACT_ARULE_MSET]; omega)]
  have h5 : ∀ g t, u.defaultMap g t = s.defaultMap g t := fun g t => by
    simp only [State.defaultMap, State.inCore, coreBytes_noted hu, hs]
    rfl
  simp only [State.actCheck, h1, h2, h4, h5, hs, hn, State.ruleGrants, State.on, State.fget, ACT_ARULE_ATTR_R, ACT_ARULE_ATTR_W,
    ACT_ARULE_ATTR_X, ACT_ARULE_ATTR_LOCK, ACT_CTRL_NOMATCH, h3]
  rfl

/-- A store that reaches memory leaves that, and what the reads of the flash array before it left. -/
theorem dataWrite_stored {s u : State} {h : Hart} {p : BitVec 16} {ea : Nat} {bs : List Byte} {tag : Bool}
    (hu : Noted h s u) (hr : Reaches h s p ea) (hreg : regsFor h ea = false) :
    u.dataWrite h p ea bs tag = (.ok (), { stored s h ea bs tag with regs := u.regs, flc := u.flc }) := by
  have he := (noted_same hu).eq
  cases h with
  | ctl n =>
    obtain ⟨h1, h2, h3, h4, h5⟩ := hr
    have hck : u.actCheck ⟨.ctl n, p⟩ ea .write = none := (actCheck_noted hu _ _ _).trans h4
    have hb : u.buffers (.ctl n) ea = false := by
      have hs : u.sys = s.sys := by rw [he]
      rw [← h2]; simp only [State.buffers, State.core_of_fetched hu, hs]
    have hsb : (u.core (.ctl n)).storeBuf = [] := by rw [State.core_of_fetched hu]; exact h3
    have hw : u.writable ea = true := by
      have hs : u.sys = s.sys := by rw [he]
      rw [← h5]; simp only [State.writable, State.inDdr, State.inCore, coreBytes_noted hu, hs]
    have hst : u.settle (.ctl n) = u := by simp only [State.settle, State.drainBuf, hsb]; rfl
    have hent : u.enter ⟨.ctl n, p⟩ ea .write = (.ok (), u) := by simp [State.enter, hck]
    simp only [State.dataWrite, regsFor, h1, hb, hst, State.spaceWrite, Bool.false_eq_true, if_false]
    simp only [State.busWrite, hent, hw, if_true]
    rw [he]
    cases tag <;> rfl
  | svc k =>
    have hw : (inProgStore ea || inCtxStore ea) = true := by simpa [Reaches] using hr
    simp only [State.dataWrite, regsFor, State.buffers, State.settle, State.spaceWrite, hw, Bool.false_eq_true, if_false, if_true]
    rw [he]
    simp only [stored, State.seenBy]
    show (Except.ok (), _) = _
    congr 1
    cases hk : s.ctxOn k with
    | none =>
      have : ∀ x, x = s.ctxOn k → (match x with
        | some c => ({ s with regs := u.regs, flc := u.flc, dsp := { s.dsp with mem := prvWrite s.dsp.mem ea bs, tags := tagPut s.dsp.tags ea tag }, damaged := healed s.damaged .ctx ea bs.length } : State).storeReaches c ea bs
        | none => { s with regs := u.regs, flc := u.flc, dsp := { s.dsp with mem := prvWrite s.dsp.mem ea bs, tags := tagPut s.dsp.tags ea tag }, damaged := healed s.damaged .ctx ea bs.length }) = { s with regs := u.regs, flc := u.flc, dsp := { s.dsp with mem := prvWrite s.dsp.mem ea bs, tags := tagPut s.dsp.tags ea tag }, damaged := healed s.damaged .ctx ea bs.length } := by
        rintro x rfl; rw [hk]
      exact this _ rfl
    | some c =>
      have : ∀ x, x = s.ctxOn k → (match x with
        | some c => ({ s with regs := u.regs, flc := u.flc, dsp := { s.dsp with mem := prvWrite s.dsp.mem ea bs, tags := tagPut s.dsp.tags ea tag }, damaged := healed s.damaged .ctx ea bs.length } : State).storeReaches c ea bs
        | none => { s with regs := u.regs, flc := u.flc, dsp := { s.dsp with mem := prvWrite s.dsp.mem ea bs, tags := tagPut s.dsp.tags ea tag }, damaged := healed s.damaged .ctx ea bs.length }) = ({ s with regs := u.regs, flc := u.flc, dsp := { s.dsp with mem := prvWrite s.dsp.mem ea bs, tags := tagPut s.dsp.tags ea tag }, damaged := healed s.damaged .ctx ea bs.length } : State).storeReaches c ea bs := by
        rintro x rfl; rw [hk]
      exact (this _ rfl).trans rfl
  | wick =>
    have hw : ea < 0x10000 := hr
    simp only [State.dataWrite, hreg, State.buffers, State.settle, State.spaceWrite, hw, Bool.false_eq_true, if_false, if_true]
    rw [he]; rfl

/-- A store that reaches memory puts its bytes there and changes nothing else. -/
theorem stores_of {i : Instr} {s u v : State} {h : Hart} {ea : Nat} {bs : List Byte} {tag : Bool}
    {p : BitVec 16} (hi : exec i s = .next ((v.setCore h (v.core h).advance).retired h)) (hx : Executes h s) (hu : Noted h s u)
    (hr : Reaches h s p ea) (hne : bs ≠ []) (ht : tag = true → ea % 16 = 0 ∧ bs.length = 16)
    (hd : u.dataWrite h p ea bs tag = (.ok (), v)) (hreg : regsFor h ea = false) :
    Completes i s (Stores h s · ea bs tag (s.core h).advance) := by
  obtain rfl := (Prod.mk.inj ((dataWrite_stored (tag := tag) (bs := bs) hu hr hreg).symm.trans hd)).2
  refine ⟨_, hi, ?_⟩
  have hcore : (stored s h ea bs tag).core h = s.core h := by
    cases h with
    | ctl n => cases tag <;> rfl
    | svc k => simp only [stored, State.seenBy]; cases hk : s.ctxOn k <;> rfl
    | wick => rfl
  have hst : (stored s h ea bs tag).regs = s.regs ∧ (stored s h ea bs tag).flc = s.flc ∧ (stored s h ea bs tag).tb = s.tb := by
    cases h with
    | ctl n => cases tag <;> exact ⟨rfl, rfl, rfl⟩
    | svc k => simp only [stored, State.seenBy]; cases s.ctxOn k <;> exact ⟨rfl, rfl, rfl⟩
    | wick => exact ⟨rfl, rfl, rfl⟩
  have hs := (noted_same hu).lift hst.1 hst.2.1 hst.2.2
  generalize ({ stored s h ea bs tag with regs := u.regs, flc := u.flc } : State) = v' at hs hi
  have hvc : v'.core h = s.core h := by rw [hs.eq]; exact (by cases h <;> rfl : _ = (stored s h ea bs tag).core h).trans hcore
  have hcx : (stored s h ea bs tag).hasCore h := by
    have := State.begins_hasCore hx.1
    intro k hk
    subst hk
    have h' := this k rfl
    simp only [stored, State.seenBy]
    cases hk : s.ctxOn k with
    | none => rw [hk] at h'; cases h'
    | some c => exact (congrArg Option.isSome hk).trans rfl
  have hp : ∀ e, slotEvent h = some e → (stored s h ea bs tag).counting = true := by
    intro e he
    have := State.runs_counts hx.1 e he
    cases h with
    | ctl n => cases tag <;> exact this
    | svc k => simp only [stored, State.seenBy]; cases hk : s.ctxOn k <;> exact this
    | wick => exact this
  have fr := State.retired_frame_of hcx hp hs (s.core h).advance
  rw [hvc]
  generalize hT : (v'.setCore h (s.core h).advance).retired h = t at fr ⊢
  have e1 : t.mem = (stored s h ea bs tag).mem := by rw [fr.rest]
  have e2 : t.tags = (stored s h ea bs tag).tags := by rw [fr.rest]
  have e3 : t.dsp.mem = (stored s h ea bs tag).dsp.mem := by rw [fr.rest]
  have e4 : t.dsp.tags = (stored s h ea bs tag).dsp.tags := by rw [fr.rest]
  have e5 : t.wck.mem = (stored s h ea bs tag).wck.mem := by rw [fr.rest]
  have e6 : t.wck.tags = (stored s h ea bs tag).wck.tags := by rw [fr.rest]
  have e7 : t.damaged = (stored s h ea bs tag).damaged := by rw [fr.rest]
  have htags := fun a => State.tagAt_storeBytes s ea hne a
  have only : CoreOnly h { s.seenBy h ea bs with
      mem := t.mem
      tags := t.tags
      damaged := t.damaged
      dsp := { s.dsp with mem := t.dsp.mem, tags := t.dsp.tags }
      wck := { s.wck with mem := t.wck.mem, tags := t.wck.tags } } t := by
    rw [e1, e2, e3, e4, e5, e6, e7]
    convert fr.toCoreOnly using 1
    cases h with
    | ctl n => cases tag <;> rfl
    | svc k => simp only [stored, State.seenBy]; cases hk : s.ctxOn k <;> rfl
    | wick => rfl
  cases h with
  | ctl n =>
    refine { bytes := ?_, tags := ?_, svcBytes := ?_, svcTags := ?_, wickBytes := ?_, wickTags := ?_, damaged := ?_, only := only,
             core := fr.core }
    · intro a; rw [e1]
      have : (stored s (.ctl n) ea bs tag).mem = memWrite s.mem ea bs := by cases tag <;> rfl
      rw [this, memGet_memWrite]; simp [isCtl]
    · intro a; rw [e2]
      cases tag with
      | false => simp only [stored, State.seenBy, Bool.false_eq_true, if_false, htags]; simp [isCtl]
      | true =>
        obtain ⟨h16, hl⟩ := ht rfl
        simp only [stored, State.seenBy, if_true, tagAt_tagPut, htags, hl, isCtl, true_and]
        split <;> split <;> first | rfl | (exfalso; omega)
    · intro a; rw [e3]
      have : (stored s (.ctl n) ea bs tag).dsp = s.dsp := by cases tag <;> rfl
      rw [this]; simp [isService]
    · intro a; rw [e4]
      have : (stored s (.ctl n) ea bs tag).dsp = s.dsp := by cases tag <;> rfl
      rw [this]; simp [isService]
    · intro a; rw [e5]
      have : (stored s (.ctl n) ea bs tag).wck = s.wck := by cases tag <;> rfl
      rw [this]; simp
    · intro a; rw [e6]
      have : (stored s (.ctl n) ea bs tag).wck = s.wck := by cases tag <;> rfl
      rw [this]; simp
    · rw [e7]; cases tag <;> rfl
  | svc k =>
    have hm : (s.seenBy (.svc k) ea bs).mem = s.mem ∧ (s.seenBy (.svc k) ea bs).tags = s.tags ∧ (s.seenBy (.svc k) ea bs).wck = s.wck := by
      simp only [State.seenBy]; cases s.ctxOn k <;> exact ⟨rfl, rfl, rfl⟩
    refine { bytes := ?_, tags := ?_, svcBytes := ?_, svcTags := ?_, wickBytes := ?_, wickTags := ?_, damaged := e7, only := only,
             core := fr.core }
    · intro a; rw [e1]; simp [stored, hm.1, isCtl]
    · intro a; rw [e2]; simp [stored, hm.2.1, isCtl]
    · intro a; rw [e3]; simp only [stored, prvGet_prvWrite]; simp [isService]
    · intro a; rw [e4]; simp only [stored, tagAt_tagPut]; simp [isService]
    · intro a; rw [e5]; simp [stored, hm.2.2]
    · intro a; rw [e6]; simp [stored, hm.2.2]
  | wick =>
    refine { bytes := ?_, tags := ?_, svcBytes := ?_, svcTags := ?_, wickBytes := ?_, wickTags := ?_, damaged := e7, only := only,
             core := fr.core }
    · intro a; rw [e1]; simp [stored, State.seenBy, isCtl]
    · intro a; rw [e2]; simp [stored, State.seenBy, isCtl]
    · intro a; rw [e3]; simp [stored, State.seenBy, isService]
    · intro a; rw [e4]; simp [stored, State.seenBy, isService]
    · intro a; rw [e5]; simp only [stored, prvGet_prvWrite]; simp
    · intro a; rw [e6]; simp only [stored, tagAt_tagPut]; simp

end Sys2Proof
end

