-- ==== Sys2Proof/Tests/Slice0.lean ====
section
/-!
SUPPORT. Tests/Slice0.lean: the well-formedness checks refuse an ill-formed term each; words of the spec's encodings
decode; each statement that has hypotheses has a state and operands that meet them.
-/

namespace Sys2Proof.Tests

open Sys2Proof Sys2Proof.Machine

set_option Elab.async false

/-! ### Well-formedness -/

/-- Any access of control core 0. -/
def acc0 : Acc := { master := .ctl 0, perms := 0x7FFF }

theorem test_wf_alignment : Instr.wf (.registerWrite acc0 0x20000001 .b4 0) = false := by decide
theorem test_wf_width : Instr.wf (.registerWrite acc0 0x20000000 .b1 256) = false := by decide
theorem test_wf_write : Instr.wf (.registerWrite acc0 0x40000020 .b4 1) = true := by decide
theorem test_wf_low_word : Instr.wf (.lowWordRead acc0 0x40000002) = false := by decide
theorem test_wf_reserved : Instr.wf (.reservedInstruction (.ctl 0) 0) = false := by decide
theorem test_wf_go_bit : Instr.wf (.saLoad acc0 0) = false := by decide
theorem test_wf_lease_bits : Instr.wf (.leaseFrameReceive 0 [0]) = false := by decide
theorem test_wf_mode : Instr.wf (.modeRequestService acc0 0x80000004) = false := by decide
theorem test_wf_flash_op : Instr.wf (.program acc0 0x82000000) = false := by decide
theorem test_wf_alarm : Instr.wf (.tamperAlarm 0 [3, 3]) = false := by decide
theorem test_wf_kst_op : Instr.wf (.kstCmdInvalid acc0 3) = false := by decide

theorem test_wf_writes1 : ∀ i ∈ ([
    .epochSwitch acc0 false 0, .saLoad acc0 0, .mgtGo acc0 0, .programLoad acc0 0, .pslotFree acc0 0,
    .ireqSubmit acc0 0, .actEpochSwitch acc0 0, .dbgstkyClear acc0 0, .cphRetire acc0 0, .cphReinst acc0 0,
    .mauRetire acc0 0, .mauReinst acc0 0, .rngEnable acc0 0, .rngDisable acc0 1, .rngFwRequest acc0 0,
    .duoEnable acc0 0, .lanternRelease acc0 0, .fullResync acc0 0, .epochClear acc0 0, .duoLeave acc0 0,
    .sysReset acc0 0, .modeRequestService acc0 0, .modeRequestCustody acc0 0, .modeRequestStandby acc0 0] : List Instr), Instr.wf i = false := by decide
theorem test_wf_writes2 : ∀ i ∈ ([
    .modeRequestInvalid acc0 0, .bootstatWrite acc0 0, .lifecycleAdvance acc0 0, .reprovision acc0 0, .coreStart
    acc0 0 0, .coreStop acc0 0 0, .program acc0 0, .erase acc0 0, .copy acc0 0, .otpProgram acc0 0, .tamperBist
    acc0 0, .wckActWake acc0 0, .wckActPromote acc0 0, .wckActAlarm acc0 0, .wckActSnuff acc0 0, .wickRun acc0
    0, .wickHalt acc0 0, .watchdogKick acc0 0, .cardActivate acc0 0 0, .cardDeactivate acc0 0 0, .crdDisable
    acc0 1, .cardExchange acc0 0 0, .quorumOpen acc0 0, .quorumAttest acc0 0] : List Instr), Instr.wf i = false := by decide
theorem test_wf_writes3 : ∀ i ∈ ([
    .quorumAbort acc0 0, .rosterCommit acc0 0, .tagWiredRead acc0 0, .tagWiredWrite acc0 0, .tagWiredInvalid
    acc0 0, .tagGroupApply acc0 0, .calApply acc0 0, .pmcSnapshot acc0 0] : List Instr), Instr.wf i = false := by decide

/-! ### States for the witnesses -/

/-- Control core 0 right after reset in a domain with every permission, with its registers changed by `f`. -/
def ctl0 (f : Core → Core) : State :=
  let c := State.reset.core (.ctl 0)
  State.reset.setCore (.ctl 0) (f { c with pcc := { c.pcc with perms := 0x7FFF } })

/-- Service core 0 at the start of a program, in context 0. -/
def svc0 (f : Core → Core) : State :=
  { State.reset with dsp :=
    { ctxs := [(0, { st := .running, core := some 0 })]
      regs := [(0, f { pcc := { tag := true, perms := 5, base := 0x8000, top := 0xC000 }, pc := 0x8000 })] } }

/-- Wick's core, running its firmware. -/
def wick0 (f : Core → Core) : State :=
  { State.reset.fset WCK_STAT_STATE 1 with
    cores := [(16, f { pcc := { tag := true, perms := 5, top := 0x10000 }, c := [(1, rootCap)] })] }

/-- The hart executes the instruction at its PC, as a Bool. -/
def hartOk (h : Hart) (s : State) : Bool := s.begins h && match (s.fetch h).1 with
  | .ok _ => true
  | .error _ => false

theorem executes_of {h : Hart} {s : State} (k : hartOk h s = true) : Executes h s := by
  unfold hartOk at k
  rw [Bool.and_eq_true] at k
  refine ⟨k.1, ?_⟩
  generalize (s.fetch h).1 = r at k
  cases r with
  | ok u => rfl
  | error e => cases k.2

theorem ctl0_executes : Executes (.ctl 0) (ctl0 id) := executes_of (by decide +kernel)
theorem svc0_executes : Executes (.svc 0) (svc0 id) := executes_of (by decide +kernel)
theorem wick0_executes : Executes .wick (wick0 id) := executes_of (by decide +kernel)

/-! ### Witnesses: Wenak -/

theorem witness_RegisterAndUnaryInstructionsGive : ∃ h s, Executes h s ∧ ∃ f g : FmtA, f.rb = 0 ∧ g.rb ≠ 0 :=
  ⟨_, _, wick0_executes, ⟨1, 2, 0⟩, ⟨1, 2, 31⟩, by decide⟩

/-- Core 0 with `a` in g1 and `b` in g2. -/
def ctlAB (a b : Word) : State := ctl0 fun c => (c.setGpr 1 a).setGpr 2 b

theorem witness_DivisionsGive : isCtl (.ctl 0) = true ∧ Executes (.ctl 0) (ctlAB 7 2) ∧ (ctlAB 7 2).gpr (.ctl 0) 2 ≠ 0 ∧
    isCtl (.svc 0) = false ∧ Executes (.svc 0) (svc0 id) :=
  ⟨rfl, executes_of (by decide +kernel), by decide +kernel, rfl, svc0_executes⟩
theorem witness_DivisionsGive_corner : Executes (.ctl 0) (ctlAB (BitVec.intMin 64) (BitVec.allOnes 64)) ∧
    (ctlAB (BitVec.intMin 64) (BitVec.allOnes 64)).gpr (.ctl 0) 1 = BitVec.intMin 64 ∧
    (ctlAB (BitVec.intMin 64) (BitVec.allOnes 64)).gpr (.ctl 0) 2 = BitVec.allOnes 64 :=
  ⟨executes_of (by decide +kernel), by decide +kernel, by decide +kernel⟩
theorem witness_DivisionsGive_zero : ∀ e : Bool, let s := ctl0 fun c => { c with ectrl := if e then 6 else 4 }
    hartOk (.ctl 0) s = true ∧ s.gpr (.ctl 0) 2 = 0 ∧ (s.core (.ctl 0)).ectrl.getLsbD 1 = e := by decide +kernel

/-- A sum that fits, and one that does not with OVF_EN set. -/
theorem witness_OverflowIsDetected : hartOk (.ctl 0) (ctlAB 5 1) = true ∧
    (let s := ctl0 fun c => { (c.setGpr 1 0x7FFFFFFFFFFFFFFF).setGpr 2 1 with ectrl := 5 }
     hartOk (.ctl 0) s = true ∧ 2 ^ 63 ≤ (s.gpr (.ctl 0) 1).toInt + (s.gpr (.ctl 0) 2).toInt ∧
     (s.core (.ctl 0)).ectrl.getLsbD 0 = true) := by decide +kernel
theorem witness_ImmediateInstructionsGive : ∃ h s, Executes h s ∧ ∃ f g : FmtI, f.ra = 0 ∧ g.ra ≠ 0 :=
  ⟨_, _, ctl0_executes, ⟨1, 0, 0xFFFF⟩, ⟨1, 31, 0⟩, by decide⟩
theorem witness_ImmediateShiftsGive : ∃ h s, Executes h s ∧ ∃ f g k : FmtShift, f.mid = 0 ∧ f.sh.toNat < 32 ∧ g.mid ≠ 0 ∧
    k.mid = 0 ∧ 32 ≤ k.sh.toNat :=
  ⟨_, _, ctl0_executes, ⟨1, 2, 0, 31⟩, ⟨1, 2, 1, 0⟩, ⟨1, 2, 0, 32⟩, by decide⟩
theorem witness_BitFieldInstructionsGive : ∃ h s, Executes h s ∧ ∃ f g : FmtField,
    (f.mid = 0 ∧ f.pos.toNat + (f.len1.toNat + 1) ≤ 64) ∧ ¬(g.mid = 0 ∧ g.pos.toNat + (g.len1.toNat + 1) ≤ 64) :=
  ⟨_, _, svc0_executes, ⟨1, 2, 0, 32, 31⟩, ⟨1, 2, 0, 32, 32⟩, by decide⟩

/-- Core 0 with a capability for the shared SRAM in c2; in g1 an offset. -/
def ctlMem (off : Word) : State :=
  ctl0 fun c => { (c.setGpr 1 off).setCap 2 { tag := true, perms := 0x7FFF, base := 0x20000000, top := 0x22000000 } with ectrl := 4 }

/-- A load whose checks all pass, and one past the end of its capability. -/
theorem witness_LoadsGive : hartOk (.ctl 0) (ctlMem 0) = true ∧
    accessFault ((ctlMem 0).cap (.ctl 0) 2) [pR] (effAddr ((ctlMem 0).cap (.ctl 0) 2) ((ctlMem 0).gpr (.ctl 0) 1) 0) 8 = none ∧
    accessFault ((ctlMem 0x2000000).cap (.ctl 0) 2) [pR, pLC]
      (effAddr ((ctlMem 0x2000000).cap (.ctl 0) 2) ((ctlMem 0x2000000).gpr (.ctl 0) 1) 0) 16 ≠ none ∧
    (15#5).toNat < 16 ∧ 16 ≤ (16#5).toNat := by decide +kernel

/-- A store that reaches memory: PRECISE is 1, and the default map lets a privileged access through. -/
theorem witness_StoresPut :
    let s := ctlMem 0
    let ea := effAddr (s.cap (.ctl 0) 2) (s.gpr (.ctl 0) 1) 0
    hartOk (.ctl 0) s = true ∧ accessFault (s.cap (.ctl 0) 2) [pW] ea 8 = none ∧ regsFor (.ctl 0) ea = false ∧
      inRegs ea = false ∧ s.buffers (.ctl 0) ea = false ∧ (s.core (.ctl 0)).storeBuf = [] ∧
      s.actCheck ⟨.ctl 0, (s.cap (.ctl 0) 2).perms⟩ ea .write = none ∧ s.writable ea = true := by decide +kernel
theorem witness_StoresPut_buffered :
    let s := ctl0 fun c => { c.setCap 2 { tag := true, perms := 0x7FFF, base := 0x20000000, top := 0x22000000 } with ectrl := 0 }
    hartOk (.ctl 0) s = true ∧ s.buffers (.ctl 0) 0x20000000 = true := by decide +kernel
theorem witness_AtomicsUpdate :
    let s := ctlMem 0
    let ea := effAddr (s.cap (.ctl 0) 2) (s.gpr (.ctl 0) 1) 0
    hartOk (.ctl 0) s = true ∧ (s.core (.ctl 0)).storeBuf = [] ∧ accessFault (s.cap (.ctl 0) 2) [pR, pW] ea 8 = none ∧
      s.actCheck ⟨.ctl 0, (s.cap (.ctl 0) 2).perms⟩ ea .rmw = none ∧ s.tagged ea = true := by decide +kernel
theorem witness_AtomicsUpdate_others : Executes .wick (wick0 id) ∧ isCtl .wick = false := ⟨wick0_executes, rfl⟩

/-- Wick's core with a TLI table at 0x100: 2 points from 0 with STEP 1.0, Y 0 and 2.0, in the format version `ver`. -/
def tableState (ver : Byte) : State :=
  { wick0 (fun c => c.setCap 2 { tag := true, perms := 0x7FFF, base := 0x100, top := 0x118 }) with
    wck := { mem := [(0x100, 2), (0x103, ver), (0x10A, 1), (0x116, 2)] } }

/-- The words of that table. -/
def tableWord (i : Nat) : Nat := [0x01000002, 0, 0x10000, 0, 0, 0x20000].getD i 0

/-- Wick's core reads its SRAM without regard to the flash array. -/
theorem reads_of {s : State} {perms : BitVec 16} {a n v : Nat} (r : regsFor .wick a = false)
    (k : s.dataRead .wick perms a n = (.ok v, s)) : Reads .wick s perms a n v := by
  rintro u ⟨l, rfl⟩
  refine ⟨_, ⟨l, rfl⟩, ?_⟩
  have h : ∀ (l : List (Nat × Access)) (s : State), s.dataRead .wick perms a n = (.ok v, s) →
      (l.foldl (fun s x => s.arrayRead .wick x) s).dataRead .wick perms a n = (.ok v, l.foldl (fun s x => s.arrayRead .wick x) s) := by
    intro l
    induction l with
    | nil => exact fun _ k => k
    | cons x l ih =>
      refine fun s k => ih _ ?_
      show (s.arrayRead .wick x).dataRead .wick perms a n = (.ok v, s.arrayRead .wick x)
      rw [State.arrayRead_eq]
      simp only [State.dataRead, r, State.spaceRead, State.damagedAt] at k ⊢
      by_cases h1 : a < 0x10000
      · by_cases h2 : (s.damaged.any fun e => e.2 && decide (damKey .wick a ≤ e.1) &&
          decide (e.1 < EccArray.wick.code * 281474976710656 + a + n)) = true
        · simp [h1, h2] at k
        · simp [h1, h2] at k ⊢
          exact k
      · simp [h1] at k
  exact h l s k

/-- Each word of the table reads; a table of another version is malformed; the range ends after 6 words; a service core. -/
theorem witness_TableLookupGives : hartOk .wick (tableState 1) = true ∧ hartOk .wick (tableState 2) = true ∧
    (∀ i < 6, accessFault ((tableState 1).cap .wick 2) [pR] (0x100 + 4 * i) 4 = none) ∧
    accessFault ((tableState 1).cap .wick 2) [pR] (0x100 + 4 * 6) 4 ≠ none ∧
    (∀ i < 6, Reads .wick (tableState 1) ((tableState 1).cap .wick 2).perms (0x100 + 4 * i) 4 (tableWord i)) ∧
    Reads .wick (tableState 2) ((tableState 2).cap .wick 2).perms 0x100 4 0x02000002 ∧
    isService (.svc 0) = true ∧ hartOk (.svc 0) (svc0 id) = true := by
  refine ⟨by decide +kernel, by decide +kernel, by decide +kernel, by decide +kernel, ?_, reads_of (by decide) (by decide +kernel), rfl,
    by decide +kernel⟩
  have h : ∀ i < 6, regsFor .wick (0x100 + 4 * i) = false := by decide
  have k : ∀ i < 6, (tableState 1).dataRead .wick ((tableState 1).cap .wick 2).perms (0x100 + 4 * i) 4 =
      (.ok (tableWord i), tableState 1) := by decide +kernel
  exact fun i hi => reads_of (h i hi) (k i hi)

/-- A taken and an untaken branch outside and inside a delay slot. -/
theorem witness_BranchesAndJumpsGo : hartOk (.ctl 0) (ctlAB 1 2) = true ∧ ((ctlAB 1 2).core (.ctl 0)).slot = none ∧
    hartOk (.svc 0) (svc0 id) = true ∧ ((svc0 id).core (.svc 0)).slot = none ∧ 2 ≤ (2#16).toInt ∧ (1#16).toInt < 2 := by
  decide +kernel

/-- A gate in the shared SRAM whose entry is executable and whose data is void; c15 a sealed return capability. -/
def gateState : State :=
  let e : Cap := { tag := true, perms := 0x7FFF, base := 0x20001000, top := 0x20002000 }
  let s := ctl0 fun c => { (c.setCap 2 { tag := true, otype := 5, perms := 0x7FFF, base := 0x20000000, top := 0x20000020 }).setCap 15
    { tag := true, otype := 0xFFFF, perms := 0x7FFF, base := 0, top := 0x10000 } with ectrl := 4 }
  { s.storeBytes 0x20000000 (capBytes e) with tags := tagPut [] 0x20000000 true }

theorem witness_DomainsSwitchAndReturn :
    let e : Cap := { tag := true, perms := 0x7FFF, base := 0x20001000, top := 0x20002000 }
    let g := gateState.cap (.ctl 0) 2
    hartOk (.ctl 0) gateState = true ∧ (gateState.core (.ctl 0)).slot = none ∧ (gateState.core (.ctl 0)).storeBuf = [] ∧
    (g.tag = true ∧ g.otype ≠ 0 ∧ g.otype ≠ 0xFFFF ∧ permBit g.perms pX = true ∧ permBit g.perms pR = true ∧
      permBit g.perms pLC = true ∧ g.base.toNat % 16 = 0 ∧ g.base.toNat + 32 ≤ g.limit) ∧
    gateState.capRead (.ctl 0) g.perms g.base.toNat = (.ok e, gateState) ∧
    gateState.capRead (.ctl 0) g.perms (g.base.toNat + 16) = (.ok {}, gateState) ∧
    (gateState.cap (.ctl 0) 15).otype = 0xFFFF := by decide +kernel

/-- A capability and an authority over sealing; a range that fits. -/
theorem witness_CapabilityInstructionsAct :
    let s := ctl0 fun c => ((((c.setCap 2 { tag := true, perms := 0x7FFF, base := 0x20000000, top := 0x22000000 }).setCap 3
      { tag := true, perms := 0x7FFF, base := 0x3FFF0000, top := 0x40000000 }).setGpr 4 16).setGpr 5 32)
    let y := s.cap (.ctl 0) 2
    let z := s.cap (.ctl 0) 3
    hartOk (.ctl 0) s = true ∧ y.tag = true ∧ y.otype = 0 ∧ y.base.toNat + (s.gpr (.ctl 0) 4).toNat + (s.gpr (.ctl 0) 5).toNat ≤ y.limit ∧
      z.tag = true ∧ z.otype = 0 ∧ permBit z.perms pSEAL = true ∧ permBit z.perms pUNSEAL = true ∧
      z.base.toNat ≤ 0x3FFF0000 + (s.gpr (.ctl 0) 4).toNat ∧ 0x3FFF0000 + (s.gpr (.ctl 0) 4).toNat < z.limit := by decide +kernel

/-! ### Witnesses: the block as a whole -/

theorem witness_StepRunsTheFrontCommand : ∃ c q s, State.pending s = c :: q ∧ ∃ t, State.pending t = [] :=
  ⟨.reqa 0, [.wupa 0], { State.reset with pending := [.reqa 0, .wupa 0] }, rfl, State.reset, rfl⟩
theorem witness_CommandsCompleteAndKeepTheQueue : Instr.wf (.registerWrite acc0 0x20000000 .b4 7) = true := by decide
/-- A reset state with a byte of memory and a command in front. -/
theorem witness_StepKeepsCanonicalForm : Canonical State.reset :=
  ⟨by decide +kernel, by decide +kernel, by decide +kernel, by decide +kernel, by decide +kernel, by decide +kernel, by decide +kernel⟩
theorem witness_LifecycleNeverMovesBack : LcAtLeast 1 { State.reset with sys := { lc := .manufacture, advancing := some .provisioned } } :=
  ⟨by decide, fun t h => by cases h; decide⟩
theorem witness_InstructionsDecodeFromTheirWords : ∃ f : FmtC, f.z = 0 ∧ f.x ≠ 0 := ⟨⟨1, 2, 0, 3⟩, by decide⟩

/-! ### Witnesses: Wenak, system instructions and exceptions -/

/-- Core 0 in a domain with every permission. -/
def sysCore : State := ctl0 fun c => { c with pcc := { c.pcc with perms := 0x7FFF } }

/-- A hart in a privileged domain, and one without SYS, both outside a delay slot, with empty store buffers. -/
theorem witness_SystemRegistersReadAndWrite :
    (hartOk (.ctl 0) sysCore = true ∧ permBit (sysCore.core (.ctl 0)).pcc.perms pSYS = true ∧
      (sysCore.core (.ctl 0)).storeBuf = [] ∧ (sysCore.core (.ctl 0)).defErr = none) ∧
    hartOk .wick (wick0 id) = true ∧ permBit ((wick0 id).core .wick).pcc.perms pSYS = false ∧ isService (.svc 0) = true ∧
      hartOk (.svc 0) (svc0 id) = true := by decide +kernel
theorem witness_ControlInstructionsAct :
    let c := (ctl0 id).core (.ctl 0)
    hartOk (.ctl 0) (ctl0 id) = true ∧ c.slot = none ∧ c.holdcnt = 0 ∧ (∀ l < 16, c.ien.getLsbD l = false) ∧
      (let s := ctl0 fun c => { c with holdcnt := 5 }; hartOk (.ctl 0) s = true ∧ (s.core (.ctl 0)).holdcnt ≠ 0) := by decide +kernel

/-- Core 0 with a store in its buffer: before the interconnect, inside it, and inside it for an address that no memory
has. -/
def bufState (entered : Bool) (addr : Nat) : State :=
  ctl0 fun c => { c with storeBuf := [{ addr := addr, bytes := [1, 2, 3, 4], tag := false, perms := 0x7FFF, entered := entered }] }

theorem witness_BufferedStoresComplete :
    ((bufState false 0x20000000).powered = true ∧ (bufState false 0x20000000).actCheck ⟨.ctl 0, 0x7FFF⟩ 0x20000000 .write = none) ∧
    (let u := (bufState true 0x20000000).elapse 0
     u.powered = true ∧ u.writable 0x20000000 = true ∧ (u.core (.ctl 0)).storeBuf ≠ []) ∧
    (let u := (bufState true 0x100000000).elapse 0
     u.powered = true ∧ u.writable 0x100000000 = false ∧ (u.core (.ctl 0)).defErr = none) := by decide +kernel

/-- Core 0 with EVEC at a vector in the shared SRAM and a stack capability in c14. -/
def excState (estat : Word) (v : Cap) : State :=
  let s := ctl0 fun c => { c.setCap 14 { tag := true, perms := 0x7FFF, base := 0x20001000, top := 0x20002000 } with
    evec := 0x20000000, estat := estat }
  { s.storeBytes 0x20000000 (capBytes v) with tags := tagPut [] 0x20000000 v.tag }

theorem witness_ExceptionEntrySavesAndJumps :
    let v : Cap := { tag := true, perms := 0x7FFF, base := 0x10000, top := 0x20000 }
    let s := excState 0 v
    let st := (s.core (.ctl 0)).cap 14
    (s.readVec (.ctl 0) 0x20000000 = (.ok v, s) ∧ (s.core (.ctl 0)).estat.getLsbD 15 = false ∧ permBit v.perms pX = true ∧
      st.tag = true ∧ st.otype = 0 ∧ permBit st.perms pW = true ∧ permBit st.perms pSC = true ∧ st.base.toNat + 64 ≤ st.limit ∧
      st.limit % 16 = 0 ∧ 0x20000000 ≤ st.limit - 64 ∧ st.limit ≤ 0x22000000 ∧
      ∀ o ∈ [0x00, 0x10, 0x20, 0x28, 0x30, 0x38], s.actCheck ⟨.ctl 0, st.perms⟩ (st.limit - 64 + o) .write = none) ∧
    (((excState 0x8000 v).core (.ctl 0)).estat.getLsbD 15 = true) ∧
    (let w : Cap := { tag := true, perms := 0x7FFB, base := 0x10000, top := 0x20000 }
     (excState 0 w).readVec (.ctl 0) 0x20000000 = (.ok w, excState 0 w) ∧ permBit w.perms pX = false) := by decide +kernel

/-- Core 0 with doorbell interrupts due on line `l`, waiting or not; and with a deferred error. -/
def irqState (waiting : Bool) (estat : Word) : State :=
  (ctl0 fun c => { c with ien := 0xFFFF, estat := estat, waiting := waiting }).wr (SYS_DBELL 0) 1

theorem witness_InterruptsAndDeferredErrorsEnter :
    (∃ l < 16, (irqState false 0x1000).pending? (.ctl 0) l = true) ∧ (irqState false 0x1000).powered = true ∧
    (irqState false 0x1000).fget (SYS_CORE_CTRL_STATE 0) = 1 ∧
    (∃ l < 16, (irqState true 0).pending? (.ctl 0) l = true) ∧ (((irqState true 0).core (.ctl 0)).waiting = true) ∧
    (let s := ctl0 fun c => { c with defErr := some (0x20000000, false) }
     (s.core (.ctl 0)).slot = none ∧ s.powered = true) := by decide +kernel

/-- Core 0 with a frame in the stack that c14 bounds from below: the saved PCC, stack capability and registers. -/
def retState : State :=
  let b : Cap := { tag := true, perms := 0x7FFF, base := 0x20001000, top := 0x20002000 }
  let s := ctl0 fun c => { c.setCap 14 { b with top := 0x20001FC0 } with epc := 0x40, pcc := { c.pcc with perms := 0x7FFF } }
  { (s.storeBytes 0x20001FC0 (capBytes { tag := true, perms := 0x7FFF, base := 0, top := 0x10000 })).storeBytes 0x20001FD0 (capBytes b) with
    tags := tagPut (tagPut [] 0x20001FC0 true) 0x20001FD0 true }

theorem witness_ExceptionReturnRestores :
    let h : Hart := .ctl 0
    let st := retState.cap h 14
    let b : Cap := { tag := true, perms := 0x7FFF, base := 0x20001000, top := 0x20002000 }
    hartOk h retState = true ∧ (retState.core h).slot = none ∧ permBit (retState.core h).pcc.perms pSYS = true ∧
    (retState.core h).storeBuf = [] ∧ (retState.core h).defErr = none ∧ st.tag = true ∧ st.otype = 0 ∧
    retState.capRead h st.perms st.limit = (.ok { tag := true, perms := 0x7FFF, base := 0, top := 0x10000 }, retState) ∧
    retState.capRead h st.perms (st.limit + 0x10) = (.ok b, retState) ∧
    (∀ i < 4, regsFor h (st.limit + 0x20 + 8 * i) = false ∧
      retState.dataRead h st.perms (st.limit + 0x20 + 8 * i) 8 = (.ok 0, retState)) ∧
    st.base = b.base ∧ st.limit + 64 = b.limit := by decide +kernel

/-- A service core in a context with a free, an outstanding and a completed ticket. -/
def engState : State := (svc0 id).setCtx 0 { (svc0 id).ctx 0 with tickets := [(1, .outstanding), (2, .done 5)] }

theorem witness_EngineInstructionsAct :
    hartOk (.svc 0) engState = true ∧ engState.ctxOn 0 = some 0 ∧ engState.ticket 0 0 = .free ∧ engState.ticket 0 1 = .outstanding ∧
    engState.ticket 0 2 = .done 5 ∧ (engState.ctx 0).resumed = false ∧ isService .wick = false ∧ hartOk .wick (wick0 id) = true ∧
    hartOk (.svc 0) (engState.elapse 0) = true ∧ ((engState.elapse 0).core (.svc 0)).slot = none ∧ (engState.ctx 0).isState = false := by
  decide +kernel

/-! ### Witnesses: units -/

/-- Core 0, with every permission, may write `v` to the register at `r`. -/
def grants (s : State) (r : Nat) (v : Word32) : Bool :=
  s.powered && s.carries acc0 && decide (s.actCheck acc0 r .write = none) && acc0.holdsAll (writeNeeds (s.on DUO_CTRL_FORCE) r v)

theorem mayWrite_of {s : State} {r : Nat} {v : Word32} (k : grants s r v = true) : MayWrite s acc0 r v := by
  simp only [grants, Bool.and_eq_true, decide_eq_true_eq] at k
  exact ⟨by decide, k.1.1.2, k.1.1.1, k.1.2, k.2⟩

/-- The block after reset with these bits set. -/
def up (l : List Fld) : State := l.foldl State.raise State.reset

/-- The same in another mode. -/
def inMode (m : Mode) (l : List Fld) : State := { up l with sys := { State.reset.sys with mode := m } }

theorem witness_RegisterAccessesAct :
    MayWrite State.reset acc0 SVC_EVT 1 ∧ inRegs 0x20000000 = false ∧ (0x20000001 % 4 ≠ 0) ∧ State.reset.powered = true ∧
    State.reset.actCheck acc0 0x20000000 .write = none ∧ State.reset.actCheck { acc0 with perms := 0 } 0x40000000 .write ≠ none ∧
    (regRow? SVC_EVT).isSome = true ∧ State.reset.actCheck acc0 TMP_TSC .read = none :=
  ⟨mayWrite_of (by decide +kernel), by decide +kernel, by decide, by decide +kernel, by decide +kernel, by decide +kernel, by decide +kernel,
    by decide +kernel⟩
theorem witness_TimersAndTheTimebaseAct :
    (let u := (up [SYS_TCTL_EN 0]).elapse 0; u.powered = true ∧ u.on (SYS_TCTL_EN 0) = true ∧ (u.rd (SYS_TCMP 0)).toNat ≤ u.tb) ∧
    grants State.reset (SYS_DBSET 0) 1 = true ∧ grants State.reset TMP_TSCSET 5 = true ∧
    State.reset.actCheck acc0 (TMP_TSCSET + 4) .write = none ∧ (up [FLT_CNT_OPEN 3]).on (FLT_CNT_OPEN 3) = true ∧
    (let u := State.elapse { State.reset with clock := 2000000 } 0
     u.sys.pwrGood = true ∧ u.sys.mainEn = true ∧ u.sys.armed = false ∧ u.sys.pwrGoodAt + 1000000 ≤ u.clock) := by decide +kernel

/-- A NOP from requester 7, in a minimum frame. -/
def nopFrame : RxFrame :=
  { fecOk := true, fcsOk := true
    bytes := List.replicate 12 0 ++ [0x88, 0xB5, 0x10, 0, 0, 1] ++ List.replicate 4 0 ++ beBytes 4 7 ++ List.replicate 4 0 ++ beBytes 8 1 ++
      List.replicate 22 0 }

/-- SERVICE with the front end and every port enabled, and an entry for requester 7. -/
def svcState : State :=
  { ((inMode .service [SVC_CTRL_EN, SVC_CTRL_ETYPE_EN]).wr SVC_PORTCFG 0x10F).lower SVC_CTRL_MSEC_REQ with
    svc := { rq := [(3, { id := 7, en := true, plain := 0xF })], linkUp := 0xF } }

theorem witness_FramesAreCheckedInOrder :
    let u := svcState.elapse 0
    let q := CrpReq.parse (nopFrame.bytes.drop 14)
    HostFrame u 0 nopFrame ∧ (u.on SVC_CTRL_EN = true ∧ u.sys.mode = .service ∧ u.entriesFor q.requester = [3] ∧
      (u.requester 3).plain.getLsbD 0 = true ∧ q.flags < 2 ∧ q.cls < 8 ∧ q.status = 0 ∧ q.service = 1 ∧ q.plen = 0 ∧ q.handle = 0 ∧
      nopFrame.length = 64 ∧ (u.requester 3).high < q.seq) ∧
    HostFrame ((inMode .boot [SVC_CTRL_ETYPE_EN]).wr SVC_PORTCFG 1 |>.lower SVC_CTRL_MSEC_REQ |> fun s => { s with svc := { linkUp := 1 } }) 0 nopFrame :=
  ⟨⟨⟨by decide +kernel, by decide +kernel, by decide +kernel⟩, by decide +kernel, by decide +kernel, by decide +kernel⟩, by decide +kernel,
    ⟨⟨by decide +kernel, by decide +kernel, by decide +kernel⟩, by decide +kernel, by decide +kernel, by decide +kernel⟩⟩

/-- A refusal and a management frame that wait, an SA being loaded from fixed slot 4 with a MACSEC record in it. -/
def frontState : State :=
  { svcState with
    tb := 1000
    svc := { svcState.svc with
      refusals := [{ port := 1, since := 600, bound := 500, content := [1] }], mgt := [{ port := 0, slot := 2, tscap := false, content := [1, 2] }]
      sas := [(0, { busy := true, kslot := 4 })] }
    kst := { cached := [(9, some { fixed := some 4 })], records := [(9, { type := 0x20, use := 0x400 })] } }

theorem witness_FrontEndIsManaged :
    let u := frontState.elapse 0
    (u.svc.refusals.find? fun r => decide (r.port = 1) && decide (r.bound ≤ u.tb)).isSome = true ∧
    (∀ r ∈ u.svc.refusals, r.port = 1 → r.bound < max r.since (u.portFree 1)) ∧
    (let v := State.elapse { svcState with tb := 1000, svc := { svcState.svc with refusals := [{ port := 1, since := 400, bound := 500, content := [1] }] } } 0
     max 400 (v.portFree 1) ≤ 500 ∧ v.canSend 1 = true ∧ v.live = []) ∧
    (u.svc.mgt.find? fun m => u.canSendMgt m.port).isSome = true ∧ u.secy 0 = false ∧
    (u.svc.sas.find? fun e => e.2.busy).isSome = true ∧
    (∃ r ∈ (u.fixedRec 4).toList, r.2.type = 0x20 ∧ r.2.useBit 10 = true) ∧ u.fixedRec 5 = none ∧
    grants State.reset SVC_MGT_GO 1 = true ∧ grants State.reset ETH_MSEC_SA 0x80000004 = true ∧ grants State.reset SVC_PORTCFG 1 = true ∧
    grants State.reset SVC_RQ_FLOOR 7 = true ∧ State.reset.actCheck acc0 (SVC_RQ_FLOOR + 4) .write = none ∧ u.portOn 2 = true ∧
    ((svc0 id).ctxOn 0).isSome = true := by decide +kernel

/-- The descriptor of that NOP, in class 7. -/
def nopDesc : Desc :=
  { src := .port 0, reply := {}, req := { verType := 0x10, service := 1, cls := 7, requester := 7, seq := 1 }, message := [], rq := 3
    ingress := 0, epoch := 0, bank := 0 }

/-- ADM enabled in SERVICE, with units in every pool, room in every class and a descriptor in front. -/
def admState (q : Desc) : State :=
  let s := (List.range 8).foldl (fun s c => s.fset (ADM_CLASS_CFG_MAXENT c) 8) (svcState.raise ADM_CTRL_EN)
  { s with adm := { descs := [q], terms := s.bankTerms s.bank, oldTerms := [] } }

theorem witness_AdmissionDecides :
    let u := (admState nopDesc).elapse 0
    u.adm.descs = [nopDesc] ∧ u.costEntry 0 1 = some nopCost ∧ u.on ADM_CTRL_EN = true ∧
    u.live.length ≠ 8192 ∧ u.on (sevFld 72) = false ∧ (u.ctx 5).st = .free ∧ u.costEntry 0 2 = none := by decide +kernel

/-- A context past its bound by more than 20 us. -/
theorem witness_StagesTempoAndTaperAct :
    (let u := State.elapse { State.reset with tb := 100000000, dsp := { ctxs := [(4, { st := .parked, key := some 5 })] } } 0
     (u.ctx 4).st ≠ .free ∧ (u.ctx 4).committed = false ∧ (u.ctx 4).key = some 5 ∧ 5 + 20000 < u.tb ∧ u.powered = true ∧
       sget 0 u.adm.tempoAt 1 + max (u.fget ADM_CTRL_STALE_US) 12 * 1000 < u.tb) ∧
    grants State.reset ADM_CTRL 0x100 = true := by decide +kernel

/-- A load under way from an address that no memory has. -/
theorem witness_ProgramsLoadAndEpochsSwitch :
    grants State.reset DSP_LDR_CTRL 0x80000001 = true ∧ grants State.reset DSP_PSLOT_STAT 0x80000000 = true ∧
    grants State.reset DSP_EPOCH 0x80000000 = true ∧ grants State.reset ADM_EPOCH 0x80000000 = true ∧
    (let u := State.elapse { State.reset with dsp := { loading := some (0x20000000, 3) } } 0
     u.powered = true ∧ u.dsp.loading = some (0x20000000, 3) ∧ u.slotIdle 3 = true) ∧
    (let u := (up [DSP_EPOCH_BUSY, ADM_EPOCH_BUSY]).elapse 0
     let w := (u.lower DSP_EPOCH_BUSY).lower ADM_EPOCH_BUSY
     u.on DSP_EPOCH_BUSY = true ∧ w.firstFault (1 - w.bank) (w.dispatched (1 - w.bank)) = none) := by decide +kernel

theorem witness_InternalRequestsAct :
    (let s := (up [DSP_CTRL_IREQ_EN]).wr DSP_IREQ_BASE 0x20000000
     grants s DSP_IREQ_GO 0x80000002 = true ∧ s.on DSP_CTRL_IREQ_EN = true ∧ s.dsp.ringBusy.getLsbD 2 = false ∧
       s.on (bitFld DSP_IREQ_DONE 2) = false) ∧
    (let u := State.elapse { State.reset with dsp := { ctxs := [(6, { st := .ending, grantable := true, src := .ring 2, resp := some {} })] } } 0
     (u.ctx 6).st = .ending ∧ (u.ctx 6).grantable = true ∧ (u.ctx 6).src = .ring 2 ∧ (u.ctx 6).resp = some {} ∧
       (u.ctx 6).isState = false) := by decide +kernel

/-- The key store mounted in CUSTODY, with record 9, its handle in KST_CMD_HANDLE, slot 4 named, and command `n` running. -/
def kstState (n : Option Nat) (c : Sparse (Option Cached)) : State :=
  { (((inMode .custody [KST_STAT_MOUNTED, KST_CTRL_EN]).wr KST_CMD_HANDLE 9).fset KST_CMD_SLOT_SLOT 4).fset KST_PINMAX_LINES 100 |>.wr KST_NIDX 0x100000000 with
    kst := { running := n, cached := c, records := [(9, { type := 0x20 })] } }

/-- Contexts in a fetch, ready for a core, and ending with a MIRROR to send; a best-effort fetch under way. -/
def ctxState : State :=
  { State.reset with
    adm := { beFetch := [12], beRun := [(5, { pool := 4, charge := 5, long := false, started := true })] }
    dsp := { ctxs := [(1, { st := .fetch, stages := [{ pool := 3, charge := 5, long := false, started := true }] }), (2, { st := .ready }),
      (3, { st := .ending, src := .port 1, grantable := true, resp := some {} })] } }

theorem witness_ContextsAdvance :
    let u := ctxState.elapse 0
    (u.ctx 1).st = .fetch ∧ (u.ctx 1).isState = false ∧ u.powered = true ∧ u.ctxOn 0 = none ∧
    (firstByKey (u.live.filter fun e => u.scMayRun e.1 e.2)).isSome = true ∧ u.adm.beRun ≠ [] ∧
    (let v := State.elapse (kstState none [] |> fun s => { s with adm := { beFetch := [9] } }) 0
     v.readyFor 4 = [] ∧ v.live = [] ∧ v.mayRun 4 {} (v.beStage 4) = true ∧ v.adm.beFetch.find? (fun i => decide (v.tier i = Tier.seal)) = some 9) := by
  decide +kernel
theorem witness_ResponsesAreGranted :
    let u := ctxState.elapse 0
    u.powered = true ∧ u.portFree 1 ≤ u.tb ∧ (u.ctx 3).resp = some {} ∧ (u.ctx 3).isState = false ∧
    (firstByKey (u.live.filter fun e => decide (e.2.src = .port 1 ∧ e.2.st = .ending) && e.2.grantable)).isSome = true ∧
    u.canSend 1 = false ∧ (svcState.elapse 0).canSend 1 = true ∧ (svcState.elapse 0).secy 1 = false := by decide +kernel
theorem witness_AccessTableSwitches :
    grants State.reset (ACT_RULE_ATTR 7) 0 = true ∧ State.reset.on ACT_EPOCH_BUSY = false ∧
    State.reset.on (ACT_ARULE_ATTR_LOCK 7) = false ∧ (up [ACT_ARULE_ATTR_LOCK 7]).on (ACT_ARULE_ATTR_LOCK 7) = true ∧
    (let u := (up [ACT_EPOCH_BUSY]).elapse 0
     u.powered = true ∧ u.on ACT_EPOCH_BUSY = true ∧ u.fget ACT_EPOCH_DRAIN_OLD_LIVE = 0) ∧
    grants State.reset ACT_DBGSTKY_CLR 1 = true := by decide +kernel

/-- A command of context 0. -/
def engCmd (pool : EnginePool) : EngCmd :=
  { ctx := 0, ticket := 1, pool := pool, words := [], base := 0xC000, top := 0xD000, perms := 0x7FFF, index := 0 }

/-- Engines 0 of each pool active, a command waiting for each, one running on units 1, and a spare. -/
def poolState : State :=
  { ((((State.reset.wr CPH_ACTIVE 3).wr CPH_SPARE 4).wr (MAU_ACTIVE 0) 3).wr (MAU_SPARE 0) 4) with
    cphQ := [engCmd .cph], mauQ := [engCmd .mau], cph := [(1, { cmd := some (engCmd .cph) })], mau := [(1, { cmd := some (engCmd .mau) })]
    dsp := { ctxs := [(0, { st := .parked, tickets := [(1, .outstanding)] })] } }

theorem witness_CipherEnginesRunCommands :
    let u := poolState.elapse 0
    u.powered = true ∧ u.cphSet CPH_ACTIVE 0 = true ∧ (u.cphUnit 0).cmd = none ∧ (u.cphUnit 0).testing = false ∧ (∀ p ∈ u.cphTake, p.1 ≠ 0) ∧
    u.cphSet CPH_FASTROLE 0 = false ∧ u.cmdLong (engCmd .cph) = false ∧ (u.cphUnit 1).want = 0 ∧
    (u.cphUnit 1).cmd = some (engCmd .cph) ∧ u.ticket 0 1 = .outstanding := by decide +kernel
/-- With a seeded generator in unit 0; without one, the waiting command is starved. -/
def seededState : State := { poolState with mau := [(0, { seeded := true }), (1, { cmd := some (engCmd .mau) })] }

theorem witness_ModularUnitsRunCommands :
    let u := seededState.elapse 0
    (u.powered = true ∧ u.mauSet MAU_ACTIVE 0 = true ∧ u.mauIdle 0 = true ∧ u.mauBuf = [] ∧ u.starved = none ∧
      u.mauSet MAU_FASTROLE 0 = false ∧ u.cmdLong (engCmd .mau) = false ∧ (u.mauUnit 0).within = true ∧
      (u.mauUnit 1).cmd = some (engCmd .mau) ∧ (u.mauUnit 1).migrating = none ∧ u.mauSet MAU_RETIRED 1 = false ∧
      (u.mauUnit 1).seeded = false) ∧ (poolState.elapse 0).starved = some (engCmd .mau) := by decide +kernel
theorem witness_EnginesRetireAndReturn :
    grants poolState CPH_RETIRE 0x80000000 = true ∧ grants poolState MAU_RETIRE 0x80000001 = true ∧
    poolState.cphSet CPH_RETIRED 0 = false ∧ poolState.cphSet CPH_SPARE 0 = false ∧ (State.setCph poolState 0 {}).cphIdleSpare = some 2 ∧
    poolState.mauSet MAU_ACTIVE 1 = true ∧ poolState.mauSpare = some 2 ∧ (poolState.mauUnit 1).cmd ≠ none ∧
    grants State.reset CPH_REINST 0x80000000 = true ∧ grants State.reset MAU_REINST 0x80000000 = true ∧
    poolState.cphSet CPH_SPARE 2 = true ∧ poolState.cphTake = [] ∧
    (let u := State.elapse { poolState with cphTake := [(1, 2)] } 0
     u.cphTake.find? (fun p => decide (p.2 = 2)) = some (1, 2) ∧ u.cphIdle 2 = true) ∧
    ((up [CPH_BIST_BUSY, MAU_BIST_BUSY]).elapse 0).on CPH_BIST_BUSY = true ∧
    ((up [CPH_BIST_BUSY, MAU_BIST_BUSY]).elapse 0).on MAU_BIST_BUSY = true := by decide +kernel

theorem witness_KeyStoreCommandsAct :
    grants State.reset KST_CMD 0x80000001 = true ∧
    (let u := (kstState (some 1) []).elapse 0
     u.kst.running = some 1 ∧ u.handleMatches 9 = true ∧ u.fget KST_CMD_SLOT_SLOT = 4 ∧ u.fixedRec 4 = none ∧ u.cachedAt 9 = none ∧
       u.cacheLines (fun c => c.fixed.isSome) + (u.recAt 9).lines ≤ u.fget KST_PINMAX_LINES) ∧
    (let u := (kstState (some 2) [(9, some { fixed := some 4 })]).elapse 0
     (u.fixedRec 4).isSome = true ∧ u.cachedAt 9 = some { fixed := some 4 }) ∧
    (let u := (kstState (some 4) [(9, some {})]).elapse 0
     u.kst.running = some 4 ∧ u.handleMatches 9 = true ∧ u.cachedAt 9 = some {}) ∧
    (kstState (some 5) []).kst.running = some 5 ∧
    (let u := (kstState (some 6) []).elapse 0; u.kst.running = some 6 ∧ u.sys.mode = .custody) := by decide +kernel

theorem witness_KeyStoreWorksOn :
    (let u := State.elapse { kstState none [] with tb := 10 ^ 12 } 0
     u.powered = true ∧ u.on KST_STAT_MOUNTED = true ∧ u.kst.checkpointing = false ∧ u.kst.lastCheckpoint +
       (if u.fget KST_CKPT_PERIOD_MS = 0 then 0x3E8 else u.fget KST_CKPT_PERIOD_MS) * 1000000 ≤ u.tb) ∧
    (let e : LogEntry := { jseq := 1, index := 9, image := {}, frames := 1 }
     let k : KstState := { checkpointing := true, mounting := true, refresh := [3], log := [e], waiting := [{ ctx := none, changes := [] }] }
     let u := State.elapse { State.reset with kst := k } 0
     u.powered = true ∧ u.kst.checkpointing = true ∧ u.kst.mounting = true ∧ 3 ∈ u.kst.refresh ∧ u.kst.log ≠ [] ∧ u.kst.waiting ≠ [] ∧
       (u.rd TMP_ROOTSEQ).toNat = 0 ∧ u.on DUO_CTRL_EN = false) ∧
    (let u := (((up [KST_CTRL_EN]).fset KST_SEALCFG_TGT_GIB 16).fset KST_MEMCFG_DIMM_GIB 16).elapse 0
     u.sys.mode = .boot ∧ u.on KST_CTRL_EN = true ∧ u.on KST_STAT_MOUNTED = false ∧ u.kst.mounting = false ∧
       u.fget KST_SEALCFG_TGT_GIB ≠ 0 ∧ u.fget KST_MEMCFG_DIMM_GIB ≠ 0) := by decide +kernel

/-- The source running, with blocks in its buffer. -/
def rngState (r : RngState) : State := { up [RNG_CTRL_EN, RNG_STAT_READY, RNG_FWSTAT_WAITING] with rng := r }

theorem witness_RandomSourceActs :
    grants (rngState {}) RNG_CTRL 0 = true ∧ (rngState {}).on RNG_CTRL_EN = true ∧ grants State.reset RNG_FWREQ 1 = true ∧
    State.reset.actCheck acc0 (RNG_FW 7) .read = none ∧ State.reset.actCheck acc0 RNG_RAW .read = none ∧
    (let u := (rngState {}).elapse 0
     u.powered = true ∧ u.on RNG_CTRL_EN = true ∧ u.rng.testing = false ∧ u.on RNG_STAT_SU_DEAD = false ∧ 0 < u.fget RNG_CUTOFF_RCT_C ∧
       0 < u.fget RNG_CUTOFF_APT_C) ∧ ((rngState { testing := true }).elapse 0).rng.testing = true ∧
    (let u := (rngState { buffer := List.replicate 60 0, hkWait := true }).elapse 0
     u.on RNG_STAT_READY = true ∧ u.on RNG_CTRL_RAW_EN = false ∧ u.rng.hkWait = true ∧ u.rng.buffer ≠ []) ∧
    (let u := (rngState { buffer := List.replicate 60 0 }).elapse 0
     min (u.fget RNG_CFG_RESERVE) 0x30 < u.rng.buffer.length ∧ u.sys.bmkWait = false ∧ u.cph = [] ∧ u.duo.saltWait = false ∧
       u.on RNG_FWSTAT_WAITING = true) := by decide +kernel

/-- A holder of the Lantern with a commit that waits for its MACK, long after its last send. -/
def duoState (d : DuoState) : State :=
  { (inMode .service [DUO_CTRL_EN, DUO_CTRL_LL_EN, DUO_STAT_SYNCED, KST_STAT_MOUNTED]).fset DUO_STAT_ROLE 1 with duo := d, tb := 100000 }

/-- A message of type `t` from the peer. -/
def peerMsg (t : Nat) : PeerMsg :=
  { port := 2, typ := t, dflags := 0, devid := 0, epoch := 5, rseq := 1, jseq := 0, dnum := 0, mode := 3, seg := 0, nseg := 1, body := [] }

theorem witness_DuoIsControlled :
    grants (duoState {}) DUO_CTRL 1 = true ∧ (duoState {}).on FLT_STAT_ISOLATED = false ∧ (duoState {}).on DUO_CTRL_EN = true ∧
    (duoState {}).fget DUO_STAT_ROLE = 1 ∧ grants State.reset DUO_CTRL 1 = true ∧ State.reset.on DUO_CTRL_EN = false ∧
    grants State.reset DUO_EPOCHCLR 1 = true := by decide +kernel

theorem silent_of {u : State} (a : u.duo.heardP2 = none) (b : u.duo.heardP3 = none) (c : u.duo.heardLease = none) : peerSilent u :=
  ⟨fun _ h => absurd (a.symm.trans h) nofun, fun _ h => absurd (b.symm.trans h) nofun, fun _ h => absurd (c.symm.trans h) nofun⟩

/-- A device that may claim: in SERVICE, synced, alone for longer than 24 us. -/
def claimState : State :=
  { inMode .service [DUO_CTRL_EN, DUO_STAT_SYNCED, KST_STAT_MOUNTED] with tb := 100000 }

theorem witness_LanternIsHeldByLease :
    (let u := (duoState { sent := [(7, 95000)], peerEcho := 7, unacked := [(1, 90000)] }).elapse 0
     u.fget DUO_STAT_ROLE = 1 ∧ u.on DUO_STAT_SOLO = false ∧ u.duo.leaseFrom + 16000 ≤ u.tb ∧ u.on DUO_CTRL_EN = true ∧
       u.sys.mode = .service ∧ (∃ e ∈ u.duo.sent, e.1 = u.duo.peerEcho ∧ u.tb < e.2 + 8000) ∧ ∃ e ∈ u.duo.unacked, e.2 + 8000 ≤ u.tb) ∧
    peerSilent ((duoState {}).elapse 0) ∧ oneMsg ((duoState { inbox := [peerMsg 2] }).elapse 0) (peerMsg 2) 2 ∧
    oneMsg ((duoState { inbox := [peerMsg 3] }).elapse 0) (peerMsg 3) 3 ∧ MayClaim (claimState.elapse 0) ∧
    ((duoState { releasing := true }).elapse 0).duo.unacked = [] :=
  ⟨by decide +kernel, silent_of (by decide +kernel) (by decide +kernel) (by decide +kernel), ⟨by decide +kernel, by decide, by decide, by decide⟩,
    ⟨by decide +kernel, by decide, by decide, by decide⟩,
    { idle := by decide +kernel
      enabled := by decide +kernel
      released := fun t h => by
        have k : (claimState.elapse 0).duo.releaseSent = none := by decide +kernel
        exact absurd (k.symm.trans h) nofun
      current := by decide +kernel
      first := fun _ t h => by
        have k : (claimState.elapse 0).duo.claimableAt = none := by decide +kernel
        exact absurd (k.symm.trans h) nofun
      silence := by
        have k : (claimState.elapse 0).duo.renewHeard = false := by decide +kernel
        have l : (claimState.elapse 0).duo.enRose + 24000 ≤ (claimState.elapse 0).tb := by decide +kernel
        exact ⟨fun h => absurd (k.symm.trans h) nofun, fun _ => l⟩ }, by decide +kernel⟩

theorem witness_MirrorsAndResyncAct :
    (∀ t ∈ [4, 5, 6, 7], ((duoState { inbox := [peerMsg t] }).elapse 0).duo.inbox = [peerMsg t]) ∧
    (let u := (duoState {}).elapse 0; u.fget DUO_STAT_ROLE = 1) ∧
    (let u := ((duoState { ahead := [(5, 0)] }).fset DUO_STAT_ROLE 2).elapse 0
     u.fget DUO_STAT_ROLE = 2 ∧ u.on DUO_STAT_SYNCED = true ∧ ∃ e ∈ u.duo.ahead, (u.rd KST_JSEQ).toNat < e.1 ∧ e.2 + 8001 ≤ u.tb) ∧
    (let u := State.elapse { up [DUO_SWAT_ARM, DUO_RESYNC_BUSY, DUO_STAT_RESYNC] with tb := 9000000, duo := { skewSince := some 0, peerDnum := some 7 } } 0
     u.powered = true ∧ u.on DUO_SWAT_ARM = true ∧ u.fget DUO_SWAT_TIME ≤ u.tb ∧ u.on DUO_RESYNC_BUSY = true ∧ u.duo.renewJseq = 0 ∧
       u.duo.heardP2 = none ∧ u.duo.skewSince = some 0 ∧ u.duo.peerDnum ≠ some (u.fget DSP_EPOCH_NUM)) ∧
    grants State.reset DUO_RESYNC 0x80000000 = true ∧ State.reset.on DUO_RESYNC_BUSY = false := by decide +kernel

/-! ### Witnesses: system, flash, tamper, faults -/

theorem witness_PowerAndModesAct : Canonical State.reset ∧ (State.reset.elapse 0).powered = true ∧
    ({ State.reset with sys := { State.reset.sys with mode := .cell } }.elapse 0).sys.mode = .cell ∧
    (let u := State.elapse { State.reset with sys := { State.reset.sys with mode := .standby, pwrGood := false } } 0
     u.sys.mode = .standby ∧ u.sys.mainEn = true ∧ u.sys.pwrGood = false) ∧
    grants State.reset SYS_RST 0xD1A50001 = true ∧ grants (inMode .service []) SYS_MODEREQ 0x80000004 = true ∧
    (let s := { inMode .service [] with sys := { mode := .service, lc := .field } }
     s.sys.lc ≠ .blank ∧ grants s SYS_MODEREQ 0x80000002 = true ∧ s.on SVC_CTRL_EN = false ∧ s.live = [] ∧ s.fget DUO_STAT_ROLE = 0 ∧
       s.on FLC_STAT_BUSY = false ∧ s.on FLC_STAT_SUSP = false) :=
  ⟨witness_StepKeepsCanonicalForm, by decide +kernel, by decide +kernel, by decide +kernel, by decide +kernel, by decide +kernel,
    by decide +kernel⟩
theorem witness_BootStepsAct :
    grants State.reset SYS_BOOTSTAT 5 = true ∧ (State.reset.elapse 0).sys.mode = .boot ∧
    (State.reset.elapse 0).fget SYS_BOOTSTAT_ERR = 0 ∧ ((up [SYS_BOOTTAMP_SNUFF]).elapse 0).on SYS_BOOTTAMP_SNUFF = true ∧
    (∀ e ∈ [(5, 6), (10, 11)], let s := State.reset.fset SYS_BOOTSTAT_STEP e.1
      s.sys.mode = .boot ∧ s.fget SYS_BOOTSTAT_ERR = 0 ∧ s.fget SYS_BOOTSTAT_STEP = e.1 ∧ grants s SYS_BOOTSTAT (BitVec.ofNat 32 e.2) = true) ∧
    (∀ b ∈ memRead (State.reset.elapse 0).mem 0x10040000 64, b = 0xFF) ∧
    (∃ b ∈ memRead (State.elapse { State.reset with mem := [(0x10040000, 1)] } 0).mem 0x10040000 64, b ≠ 0xFF) := by decide +kernel
theorem witness_LifecycleAndCoresAct :
    (let s := up [RNG_STAT_READY]
     grants s SYS_LCADV 0x80000001 = true ∧ s.on SYS_LCADV_BUSY = false ∧ s.sys.lc = .blank ∧ s.sys.mode = .boot ∧
       permBit acc0.perms pSYS = true ∧ s.on RNG_STAT_READY = true) ∧
    (let u := State.elapse { State.reset with sys := { advancing := some .manufacture } } 0
     u.powered = true ∧ u.sys.bmkWait = false ∧ u.sys.advancing = some .manufacture) ∧
    (let s := { inMode .quench [CRD_QSTAT_AUTH] with crd := { purpose := 2 } }
     grants s SYS_REPROV 0x80000001 = true ∧ s.rd TMP_CAUSE = 0 ∧ s.on SYS_REPROV_BUSY = false ∧ s.on CRD_QSTAT_AUTH = true) ∧
    (let u := (inMode .quench [SYS_REPROV_BUSY]).elapse 0; u.on SYS_REPROV_BUSY = true ∧ u.sys.bmkWait = false) ∧
    grants State.reset (SYS_CORE_CTRL 3) 0x80000000 = true ∧ State.reset.fget (SYS_CORE_CTRL_STATE 3) ≠ 1 ∧
    (State.reset.core (.ctl 3)).storeBuf = [] ∧
    (let u := State.elapse { State.reset with sys := { stopReq := 1 } } 0
     u.powered = true ∧ u.fget (SYS_CORE_CTRL_STATE 0) = 1 ∧ u.sys.stopReq.getLsbD 0 = true ∧ (u.core (.ctl 0)).slot = none ∧
       (u.core (.ctl 0)).holdcnt = 0) := by decide +kernel

/-- A flash command of kind `op` running at the block of the address. -/
def flashState (op addr : Nat) : State :=
  { (up [FLC_STAT_BUSY]).fset FLC_STAT_OP op with
    flc :=
      { addr := addr, src := 0x20000000, count := 1, page := List.replicate 256 0
        stalled := [{ master := .ctl 0, granule := 0x15000000, ty := .read, inE1 := false }] }
    tb := 1000000 }

theorem witness_FlashCommandsAct :
    (let s := State.reset.wr FLC_ADDR 0x14000000
     grants s FLC_CMD 0x82000000 = true ∧ s.on FLC_STAT_BUSY = false ∧ s.on FLC_STAT_SUSP = false ∧ (s.rd FLC_SRC).toNat = 0 ∧
       (flcPart 1024).2.2 ≠ .otp ∧ (flcPart 1024).2.2 ≠ .root ∧ s.sys.lc = .blank) ∧
    (∀ op ∈ [1, 2, 3, 4], let u := (flashState op 0x14000000).elapse 0
      u.powered = true ∧ u.on FLC_STAT_BUSY = true ∧ u.on FLC_STAT_SUSP = false ∧ u.fget FLC_STAT_OP = op ∧ u.flc.count = 1 ∧ u.flc.pageErr = 0 ∧ u.flc.fixing = false ∧
        0x10000000 ≤ u.flc.addr ∧ u.flc.addr + 0x10000 ≤ 0x20000000 ∧ u.damagedAt .bus u.flc.addr 32 = false) ∧
    (∀ e ∈ [3, 7], let u := State.elapse { flashState 1 0x14000000 with flc := { addr := 0x14000000, count := 2, pageErr := e, fixing := true } } 0
      u.flc.pageErr = e ∧ 1 < u.flc.count ∧ u.flc.fixing = true) ∧
    (let u := (flashState 2 0x14000000).elapse 0
     (∃ x ∈ u.flc.stalled, x.ready = false ∧ x.inE1 = false) ∧ u.flc.resumedAt + 200000 ≤ u.tb) ∧
    (let u := State.elapse { up [FLC_STAT_SUSP] with tb := 1000000 } 0
     u.powered = true ∧ u.on FLC_STAT_SUSP = true ∧ u.flc.lastRead + 2000 ≤ u.tb) := by decide +kernel
theorem witness_TamperMonitorsAct :
    (let u := State.elapse { up [TMP_SRCCFG_EN 15] with sys := { armed := true } } 0
     u.on (bitFld TMP_CAUSE 15) = false ∧ u.on (TMP_SRCCFG_EN 15) = true ∧ u.powered = true ∧ u.on TMP_BIST_BUSY = false ∧
       u.sys.armed = true ∧ u.sys.mode ≠ .cell) ∧
    grants State.reset TMP_STKY_CLR 1 = true ∧ grants State.reset (TMP_SRCCFG 3) 1 = true ∧ grants State.reset TMP_BIST 0x80000003 = true ∧
    permBit acc0.perms pSYS = true ∧ permBit acc0.perms pCUST = true ∧
    (let u := State.elapse { up [TMP_BIST_BUSY] with sys := { testInput := true } } 0
     u.on TMP_BIST_BUSY = true ∧ u.sys.testInput = true) := by decide +kernel
theorem witness_WickActs :
    grants State.reset WCK_ACT 1 = true ∧ grants State.reset WCK_CTRL 1 = true ∧ State.reset.fget WCK_STAT_STATE ≠ 1 ∧
    grants State.reset WCK_LDDATA 1 = true ∧ State.reset.actCheck acc0 WCK_LDDATA .read = none ∧ grants State.reset WCK_WDOG 1 = true ∧
    ({ master := .wick, perms := 0 } : Acc).master = .wick ∧ State.reset.aon = true ∧ (inMode .standby []).aon = true ∧
    (let u := State.elapse { ((State.reset.fset WCK_STAT_STATE 1).fset WCK_WDOG_PERIOD_US 5) with clock := 10000 } 0
     u.sys.mode ≠ .cell ∧ u.fget WCK_STAT_STATE = 1 ∧ u.fget WCK_WDOG_PERIOD_US = 5 ∧ u.wck.kicked + 5000 ≤ u.clock) := by decide +kernel

/-- A round of source 32, 50 ns after it began. -/
def roundState : State :=
  { State.reset with tb := 100, flt := { round := some { start := 10, srcs := [{ src := 32, unit := 0, forced := false, time := 10 }] } } }

theorem witness_FaultsAreCollected :
    fltListed 32 = true ∧ fltListed 127 = false ∧ (State.reset.elapse 0).on (sevFld 32) = false ∧
    (let u := State.elapse { up [FLT_CNT_OPEN 80] with tb := 10 ^ 12 } 0
     u.powered = true ∧ u.on (FLT_CNT_OPEN 80) = true ∧ sget 0 u.flt.tOpen 80 + windowNs u 80 ≤ u.tb) ∧
    (let u := roundState.elapse 0; u.powered = true ∧ u.flt.again = [] ∧ u.flt.round = roundState.flt.round ∧ u.passed 10 50 = true) ∧
    (let u := State.elapse { State.reset with flt := { startCore0 := true } } 0; u.powered = true ∧ u.flt.startCore0 = true) ∧
    grants State.reset (FLT_SEV 2) 1 = true ∧ grants State.reset (FLT_STKYCLR 2) 1 = true ∧ grants State.reset (FLT_FORCE 2) 1 = true ∧
    grants State.reset (FLT_CFG 80) 1 = true := by decide +kernel

/-! ### Witnesses: cards, tag, observation -/

/-- Slot 0 with a card in state `st`. -/
def cardState (st : Nat) (x : CardSlot) : State :=
  { (up [CRD_CTRL_EN, CRD_SSTAT_DET 0, CRD_SXFER_BUSY 0]).fset (CRD_SSTAT_STATE 0) st with crd := { slots := [(0, x)] }, tb := 10 ^ 8 }

theorem witness_CardsAct :
    (let s := up [CRD_CTRL_EN, CRD_SSTAT_DET 0]
     grants s (CRD_SCTRL 0) 0x80000001 = true ∧ s.on CRD_CTRL_EN = true ∧ s.on (CRD_SSTAT_DET 0) = true ∧
       s.fget (CRD_SSTAT_STATE 0) = 0) ∧ grants (cardState 3 {}) CRD_CTRL 0 = true ∧
    (let u := (cardState 1 {}).elapse 0; u.powered = true ∧ u.fget (CRD_SSTAT_STATE 0) = 1 ∧ (slotOf u 0).rstAt + 10240000 ≤ u.tb) ∧
    (let u := (cardState 2 { pps := some [1] }).elapse 0; u.fget (CRD_SSTAT_STATE 0) = 2 ∧ (slotOf u 0).pps = some [1]) ∧
    (let s := (up [CRD_CTRL_EN]).fset (CRD_SSTAT_STATE 0) 3
     grants s (CRD_SXFER 0) 0x80000005 = true ∧ s.fget (CRD_SSTAT_STATE 0) = 3 ∧ s.on (CRD_SXFER_BUSY 0) = false) ∧
    ((slotOf ((cardState 3 { ended := some 0 }).elapse 0) 0).ended = some 0) ∧ parseAtr [] = none := by decide +kernel
theorem witness_CardsAct_block : awaitsBlock ((cardState 3 {}).elapse 0) 0 := by unfold awaitsBlock; decide +kernel
theorem witness_QuorumAuthorises :
    (let s := inMode .custody []
     grants s CRD_QCTRL 0x80001000 = true ∧ s.on CRD_QSTAT_OPEN = false) ∧
    (let u := State.elapse { up [CRD_QSTAT_OPEN, CRD_QSTAT_BUSY] with crd := { answer := some [0] }, tb := 10 ^ 12 } 0
     u.powered = true ∧ u.on CRD_QSTAT_BUSY = true ∧ u.crd.answer = some [0] ∧ u.on CRD_QSTAT_OPEN = true ∧
       u.crd.openedAt + 600 * 1000000000 ≤ u.tb) ∧
    (let s := { up [CRD_QSTAT_AUTH] with crd := { purpose := 3 } }
     grants s CRD_ROSTER_CTRL 0x80000021 = true ∧ s.on CRD_QSTAT_AUTH = true) := by decide +kernel

/-- The tag in a field, in state `st`. -/
def tagState (st : Nat) : State := { (up [TAG_STAT_FIELD]).fset TAG_STAT_FSTATE st with tag := { field := true } }

theorem witness_TagAnswersTheReader :
    (let u := State.elapse { State.reset with tag := { powered := false } } 0; u.tag.powered = false ∧ u.sys.mode ≠ .cell ∧ u.tag.lines = []) ∧
    (let u := State.reset.elapse 0; u.tag.powered = true ∧ u.tag.field = false) ∧
    (∀ st < 4, let u := (tagState st).elapse 0
      u.tag.powered = true ∧ u.tag.field = true ∧ u.on TAG_STAT_FTXN = false ∧ u.fget TAG_STAT_FSTATE = st) := by decide +kernel
theorem witness_TagMemoryActs :
    (let u := (tagState 2).elapse 0
     u.tag.reading = none ∧ u.tag.commit = none ∧ u.tag.apply = none ∧ groupPolicy u 1 % 2 = 1 ∧ groupPolicy u 1 / 2 % 2 = 1 ∧
       groupAttempts u 1 = 0 ∧ (u.tagRead 513).length = 10 ∧ groupPolicy u 7 = 0) ∧
    (let u := State.elapse { up [TAG_STAT_WBUSY] with tag := { reading := some 5, waiting := some (false, 5, []) } } 0
     u.tag.powered = true ∧ u.on TAG_STAT_WBUSY = true ∧ u.tag.commit = none ∧ u.tag.reading = some 5 ∧
       u.tag.waiting = some (false, 5, []) ∧ u.on TAG_STAT_FTXN = false) ∧
    grants State.reset TAG_WCMD 0x81000005 = true ∧ State.reset.on TAG_STAT_WBUSY = false ∧ State.reset.on TAG_STAT_WWAIT = false ∧
    grants State.reset TAG_GRPCFG 0x80000003 = true ∧ State.reset.sys.lc = .blank := by decide +kernel
theorem witness_CalibrationCountersAndTapAct :
    (let s := inMode .service []; grants s CAL_APPLY 0x80000001 = true ∧ s.on CAL_STAT_BUSY = false) ∧
    (let u := (up [CAL_STAT_BUSY]).elapse 0; u.powered = true ∧ u.on CAL_STAT_BUSY = true ∧ u.on TMP_BIST_BUSY = false) ∧
    (let u := State.elapse { State.reset with tb := 1000000 } 0
     u.powered = true ∧ u.tb % (1000 * u.obs.bwWindow) = 0 ∧ u.obs.bwAt ≠ some u.tb) ∧
    grants State.reset PMC_SNAP 0x80000000 = true ∧ State.reset.on PMC_SNAP_BUSY = false ∧ grants State.reset (OBS_SEL 3) 0x123 = true ∧
    (let u := State.elapse { State.reset with obs := { tap := .extest, dap := { busy := true, result := some (false, 7) } } } 0
     u.powered = true ∧ u.obs.tap = .extest ∧ u.obs.dap.busy = true ∧ u.obs.dap.result = some (false, 7)) ∧
    (let u := State.elapse { State.reset.wr OBS_DCAP_PERM 3 with obs := { tap := .dap } } 0
     u.powered = true ∧ u.obs.tap = .dap ∧ u.obs.dap.busy = false ∧ permBit ((u.rd OBS_DCAP_PERM).setWidth 16) pR = true ∧
       (u.rd OBS_DCAP_BASE).toNat ≤ 0x20000000) := by decide +kernel

/-! ### Witnesses: further clauses -/

/-- Loads of plain memory: core 0 from the shared SRAM, a service core from its program, Wick's core from its SRAM. -/
theorem witness_LoadsGive_plain : PlainRead (.ctl 0) (ctlMem 0) ((ctlMem 0).cap (.ctl 0) 2).perms 0x20000000 8 ∧
    PlainRead (.svc 0) (svc0 id) 5 0x8000 8 ∧ PlainRead .wick (wick0 id) 5 0xFFF8 8 := by
  simp only [PlainRead]; decide +kernel

/-- Sequence number 1 of a requester whose window has passed it, and of one that has seen it. -/
theorem witness_FramesAreCheckedInOrder_late :
    let x := fun (r : Requester) => { svcState with svc := { svcState.svc with rq := [(3, { id := 7, en := true, plain := 0xF, high := r.high, seen := r.seen })] } }
    let q := CrpReq.parse (nopFrame.bytes.drop 14)
    q.seq + 8192 ≤ ((((x { high := 8193 })).elapse 0).requester 3).high ∧
    ((((x { high := 1, seen := 2 })).elapse 0).requester 3).seen.getLsbD (q.seq % 8192) = true ∧
    (∀ y ∈ (svcState.elapse 0).svc.instant, y.rq ≠ 3) := by decide +kernel
/-- A frame that is no CRP, with the management queue on and room in it. -/
theorem witness_FramesAreCheckedInOrder_management :
    let u := State.elapse (svcState.raise SVC_MGQ_CTRL_EN) 0
    u.on SVC_MGQ_CTRL_EN = true ∧ (u.fget SVC_MGQ_CTRL_RX_HEAD + 1) % 64 ≠ u.fget SVC_MGQ_CTRL_RX_TAIL ∧
    PlainFrame u 0 { nopFrame with bytes := List.replicate 64 0 } ∧ beAt (List.replicate 64 0) 12 2 ≠ 0x88B5 :=
  ⟨by decide +kernel, by decide +kernel, ⟨by decide +kernel, by decide +kernel, by decide +kernel⟩, by decide⟩

/-- That NOP in class 3. -/
def nop3 : Desc := { nopDesc with req := { nopDesc.req with cls := 3 } }
/-- ADM once the instant of its arrival is over, with `b` as the bound of the class. -/
def boundState (b : Word) : State := State.elapse ((admState nop3).wr (ADM_CLASS_BOUND 3) b) 300
/-- Its stages: the NOP on its port's transmit path. -/
def nopStages : List LStage := [{ pool := 0, charge := 15, long := false }, { pool := 6, charge := 9, long := false }]

theorem nopStages_eq : (boundState 1000000).fetchStage nop3 ++ (boundState 1000000).serviceStages nop3 nopCost ++
    (boundState 1000000).txStage nop3 nopCost = nopStages := by decide +kernel
/-- Within a bound of 1 ms the NOP is in time, within none it is late; nothing else declines it. -/
theorem witness_AdmissionDecides_bounds :
    latest (boundState 1000000) nop3 nopCost.lpath true nopStages ≤ phaseEnd (boundState 1000000) nop3 ∧
    phaseEnd (boundState 0) nop3 < latest (boundState 1000000) nop3 nopCost.lpath true nopStages ∧
    (∀ x ∈ nopStages, (waitOf (boundState 1000000) 3 (phaseEnd (boundState 1000000) nop3) true x).isSome = true ∧
      x.long = false ∧ x.pool ≠ 1 ∧ x.pool ≠ 2) :=
  ⟨by decide +kernel, by decide +kernel, by decide +kernel⟩
theorem witness_AdmissionDecides_accepted : let u := boundState 1000000
    u.costEntry 0 1 = some nopCost ∧ nop3.ingress < u.tb ∧ u.fgetb 0 (ADM_CLASS_CFG_MAXENT 3) = 8 ∧ u.live = [] ∧
    u.on KST_CTRL_EN = false ∧ u.sys.mode = .service ∧ nopCost.state = false ∧ nopCost.rand = false ∧
    u.fgetb 0 (ADM_PORT_MAXRESP 0) = 9216 ∧ nopCost.respMax = 0 := by decide +kernel

/-- A staging rule whose START exceeds its END, and none. -/
theorem witness_AccessTableSwitches_rules :
    (let u := State.elapse ((up [ACT_EPOCH_BUSY, ACT_RULE_ATTR_EN 0]).wr (ACT_RULE_START 0) 0x20) 0
     u.on (ACT_RULE_ATTR_EN 0) = true ∧ u.rd (ACT_RULE_END 0) < u.rd (ACT_RULE_START 0)) ∧
    (let u := (up [ACT_EPOCH_BUSY]).elapse 0
     ∀ n < 1024, ¬(u.on (ACT_RULE_ATTR_EN n) = true ∧ u.rd (ACT_RULE_END n) < u.rd (ACT_RULE_START n))) := by decide +kernel

/-- An active rule over all memory and every register for every master. -/
def openTable (s : State) : State :=
  (((s.wr (ACT_ARULE_START 0) 0).wr (ACT_ARULE_END 0) 0xFFFFFFFFFFE0).wr (ACT_ARULE_ATTR 0) 0x80000007).wr (ACT_ARULE_MSET 0) 0x7FFFFF

/-- A ring slot whose request can be read, and one that cannot. -/
theorem witness_InternalRequestsAct_read :
    (let s := openTable ((up [DSP_CTRL_IREQ_EN]).wr DSP_IREQ_BASE 0x20000000)
     ∃ b, (s.readBlock ⟨.ireq, 0⟩ 0x20010000 40).1 = .ok b ∧ b.length = 40) ∧
    ∃ e, ((up [DSP_CTRL_IREQ_EN]).readBlock ⟨.ireq, 0⟩ 0x20010000 40).1 = .error e ∧ e ≠ .wait :=
  ⟨⟨List.replicate 40 0, by decide +kernel, by decide⟩, .act, by decide +kernel, by decide⟩

/-- A context in the fetch of a record that its request names and that its policy binds. -/
def fetchState : State :=
  { kstState none [] with
    kst := { (kstState none []).kst with records := [(9, { type := 0x20, version := 1, hchk := 3, svchi := 0xFFFF, rqmask := 2 ^ 64 - 1 })] }
    dsp := { ctxs := [(1, { st := .fetch, src := .port 1, req := { handle := 9 + 2 ^ 48 * 3 + 2 ^ 40, service := 0x10 }
                            stages := [{ pool := 3, charge := 5, long := false, started := true }] })] } }
theorem witness_ContextsAdvance_bind :
    let u := fetchState.elapse 0
    let x := u.ctx 1
    x.st = .fetch ∧ x.fell = false ∧ x.isState = false ∧ x.nop = false ∧ handleIndex x.req.handle = 9 ∧ u.hasRec 9 = true ∧
    u.handleMatches x.req.handle = true ∧ policyOk (u.recAt 9) x = true ∧ (u.recAt 9).stuck = false := by decide +kernel

/-- A digest of cipher unit 1, and a modular addition of unit 1. -/
def runState : State :=
  { poolState with
    cph := [(1, { cmd := some { engCmd .cph with words := [0x0202000000000000] } })]
    mau := [(1, { cmd := some { engCmd .mau with words := [0x1001000000010000] } })] }
theorem witness_CipherEnginesRunCommands_digest : let x := (runState.elapse 0).cphUnit 1
    ∃ e, x.want = 0 ∧ x.cmd = some e ∧ (runState.elapse 0).ticket e.ctx e.ticket = .outstanding ∧
      (cphParse e.words).lengthOk = true ∧ (cphParse e.words).slotsOk x.key x.plain = true :=
  ⟨{ engCmd .cph with words := [0x0202000000000000] }, by decide +kernel, by decide +kernel, by decide +kernel, by decide +kernel, by decide +kernel⟩
theorem witness_ModularUnitsRunCommands_sum : let x := (runState.elapse 0).mauUnit 1
    ∃ e, x.cmd = some e ∧ x.migrating = none ∧ (runState.elapse 0).ticket e.ctx e.ticket = .outstanding ∧ (mauParse e.words).op = 0x1001 ∧
      (mauParse e.words).lengthOk = true ∧ (mauParse e.words).kslot = 0 ∧ (mauParse e.words).islot = 0 ∧ (mauParse e.words).osel = false :=
  ⟨{ engCmd .mau with words := [0x1001000000010000] }, by decide +kernel, by decide +kernel, by decide +kernel, by decide +kernel,
    by decide +kernel, by decide +kernel, by decide +kernel, by decide +kernel⟩

/-- A spare that is retired while a retired unit waits for it, and another one idle. -/
theorem witness_EnginesRetireAndReturn_spare :
    let s := { poolState.wr CPH_SPARE 0xC with cphTake := [(1, 2)], cph := [(2, { cmd := some (engCmd .cph) })] }
    grants s CPH_RETIRE 0x80000002 = true ∧ s.cphSet CPH_RETIRED 2 = false ∧ s.cphSet CPH_SPARE 2 = true ∧ s.cphTake = [(1, 2)] ∧
      s.cphIdleSpare = some 3 := by decide +kernel

/-- A record of type AES that may be created, and room for it; every write of a checkpoint granted. -/
theorem witness_KeyStoreCommandsAct_create :
    let s := openTable { (inMode .custody [KST_STAT_MOUNTED, KST_CTRL_EN]).wr KST_NIDX 0x1000 with kst := { running := some 6 } }
    let r : KeyRec := { type := 2, key := List.replicate 32 0 }
    Creatable s 9 r ∧ RoomFor s 9 r ∧ (∀ a ∈ checkpointWrites 1, s.actCheck ⟨.kst, 0⟩ a .write = none) ∧
    (∃ d, (State.reset).actCheck ⟨.kst, 0⟩ 0x10060000 .write = some d) ∧ s.kst.running = some 6 := by
  refine ⟨?_, ?_, by decide +kernel, ⟨⟨1, 0⟩, by decide +kernel⟩, by decide +kernel⟩
  · unfold Creatable; decide +kernel
  · unfold RoomFor; decide +kernel
/-- A slot of an import with a key that may unwrap, on the holder in CUSTODY. -/
theorem witness_KeyStoreCommandsAct_import :
    let s := { (((((inMode .custody [KST_STAT_MOUNTED, KST_CTRL_EN]).fset KST_CMD_SLOT_SLOT 4).fset DUO_STAT_ROLE 1)).raise DUO_CTRL_EN) with
      kst := { running := some 6, cached := [(9, some { fixed := some 4 })], records := [(9, { type := 2, use := 8 })] } }
    let u := s.elapse 0
    u.kst.running = some 6 ∧ u.sys.mode = .custody ∧ u.holds = true ∧ importWaits u.kst.waiting = false ∧ u.slotBad 4 = false ∧
    ∃ j k, u.fixedRec 4 = some (j, k) ∧ k.type = 2 ∧ k.use / 8 % 2 = 1 :=
  ⟨by decide +kernel, by decide +kernel, by decide +kernel, by decide +kernel, by decide +kernel, 9, { type := 2, use := 8 },
    by decide +kernel, by decide, by decide⟩
/-- A mount with a new BMK, and one that finds no root. -/
theorem witness_KeyStoreWorksOn_mount :
    (let u := State.elapse { up [SYS_BOOTTAMP_BMK_NEW] with kst := { mounting := true } } 0
     u.powered = true ∧ u.kst.mounting = true ∧ u.on SYS_BOOTTAMP_BMK_NEW = true ∧ u.on DUO_CTRL_EN = false) ∧
    (let u := State.elapse { State.reset with kst := { mounting := true } } 0
     ∃ n, (u.readRoots u.kst.roots).1 = .ok n ∧ max (u.rd TMP_ROOTSEQ).toNat 0 ≤ n) :=
  ⟨by decide +kernel, 0, by decide +kernel, by decide +kernel⟩
/-- A window set in which every cell gives zeros fails at the cut-offs of reset; one in which every cell alternates
passes. -/
theorem witness_RandomSourceActs_windows :
    let u := (rngState {}).elapse 0
    u.fget RNG_CUTOFF_RCT_C ≤ (cellRuns 0 0 1024).2 ∧
    ∀ k < 16, ¬(u.fget RNG_CUTOFF_RCT_C ≤ (cellRuns (BitVec.ofNat 16384 (0xFFFF * ((2 ^ 16384 - 1) / (2 ^ 32 - 1)))) k 1024).2 ∨
      u.fget RNG_CUTOFF_APT_C ≤ firstCount (BitVec.ofNat 16384 (0xFFFF * ((2 ^ 16384 - 1) / (2 ^ 32 - 1)))) k) := by decide +kernel
/-- An erase in E2 with 200 us of progress, and a read that waits for it. -/
theorem witness_FlashCommandsAct_suspend :
    let s := flashState 2 0x14000000
    let u := State.elapse { s with flc := { s.flc with e4From := 10 ^ 9 } } 0
    u.powered = true ∧ u.on FLC_STAT_BUSY = true ∧ u.fget FLC_STAT_OP = 2 ∧ u.flc.e2At ≤ u.tb ∧
    u.flc.progress + (u.tb - u.flc.resumedAt) < u.flc.e4From ∧ (∃ x ∈ u.flc.stalled, x.ready = false ∧ x.served = false ∧ x.inE1 = false) ∧
    u.flc.resumedAt + 200000 ≤ u.tb := by decide +kernel
/-- Two sources in one command, and one in the instant of the first record. -/
theorem witness_TamperMonitorsAct_simultaneous :
    (let u := State.elapse { up [TMP_SRCCFG_EN 15, TMP_SRCCFG_EN 16] with sys := { armed := true } } 0
     ∀ n ∈ [15, 16], liveSource u n ∧ ¬tested u n ∧ u.on (bitFld TMP_CAUSE n) = false ∧ u.on (TMP_SRCCFG_EN n) = true) ∧
    (let u := State.elapse { (up [TMP_SRCCFG_EN 15, TMP_FIRST_VALID]).fset TMP_FIRST_SRC 16 with sys := { firstAt := some (1, 0) } } 0
     u.sys.firstAt = some (instantOf u) ∧ u.fget TMP_FIRST_SRC = 16 ∧ u.on (bitFld TMP_CAUSE 15) = false) ∧
    (let s := inMode .custody []
     permBit acc0.perms pCUST = true ∧ s.sys.lc = .blank ∧ grants s (TMP_SRCCFG 24) 9 = true ∧ s.sys.pins.getLsbD 0 = true) := by
  refine ⟨?_, by unfold instantOf; decide +kernel, by decide +kernel⟩
  unfold liveSource tested
  decide +kernel
/-- A rule that fires at the frame of a rise, and one whose condition fails. -/
theorem witness_WickActs_rules :
    let s := ((((up [WCK_RULE_A_EN 0, WCK_RULE_A_EN 1]).fset (WCK_RULE_A_INPUT 0) 2).fset (WCK_RULE_B_N 0) 1).fset (WCK_RULE_B_W_US 0) 5).fset
      (WCK_RULE_A_INPUT 1) 7
    let u := State.elapse { s with wck := { rises := 1 } } 0
    (sget {} u.wck.rules 0).armed = true ∧ u.on (WCK_RULE_A_EN 0) = true ∧ u.fget (WCK_RULE_B_N 0) = 1 ∧
    ruleSees u ⟨0, 0, 0, 0⟩ 0 0 ∧ u.on (WCK_RULE_A_EN 1) = true ∧ ¬ruleSees u ⟨0, 0, 0, 0⟩ 0 1 := by
  refine ⟨by decide +kernel, by decide +kernel, by decide +kernel, ?_, by decide +kernel, ?_⟩ <;> unfold ruleSees <;> decide +kernel
/-- An event after its window has run out, one that reaches the threshold, and one that does not. -/
theorem witness_FaultsAreCollected_windows :
    (let u := State.elapse { ((up [FLT_CNT_OPEN 80]).fset (FLT_CFG_W 80) 1) with tb := 10 ^ 12 } 0
     windowNs u 80 ≠ 0 ∧ sget 0 u.flt.tOpen 80 + windowNs u 80 ≤ u.tb ∧ fltListed 80 = true ∧ u.on (sevFld 80) = false) ∧
    (let u := ((State.reset.fset (FLT_CFG_N 80) 3).fset (FLT_CNT_CNT 80) 1).elapse 0
     u.fget (FLT_CNT_CNT 80) + 1 < max 1 (u.fget (FLT_CFG_N 80))) ∧
    (let u := ((State.reset.fset (FLT_CFG_N 80) 2).fset (FLT_CNT_CNT 80) 1).elapse 0
     max 1 (u.fget (FLT_CFG_N 80)) ≤ u.fget (FLT_CNT_CNT 80) + 1) := by decide +kernel
/-- A slot deactivated and activated again at once, and a card whose first class gave no ATR. -/
theorem witness_CardsAct_restart :
    (let s := cardState 3 {}
     grants s (CRD_SCTRL 0) 0xC0000002 = true ∧ activeCard s 0 ∧ s.on CRD_CTRL_EN = true ∧ s.on (CRD_SSTAT_DET 0) = true) ∧
    (let u := State.elapse ((cardState 1 {}).wr (CRD_SCTRL 0) 3) 0
     u.fget (CRD_SSTAT_STATE 0) = 1 ∧ (u.rd (CRD_SCTRL 0)).getLsbD 1 = true ∧ (slotOf u 0).retried = false ∧
       (slotOf u 0).rstAt + 10240000 ≤ u.tb) := by unfold activeCard; decide +kernel
/-- A new session may open, and the slot named by one that is open can be asked. -/
theorem witness_QuorumAuthorises_attest :
    let s := { ((inMode .custody [CRD_QSTAT_OPEN]).fset (CRD_SSTAT_STATE 0) 3) with crd := { purpose := 1 } }
    grants s CRD_QCTRL 0x20001000 = true ∧ s.on CRD_QSTAT_OPEN = true ∧ s.on CRD_QSTAT_BUSY = false ∧ s.crd.wantChallenge = false ∧
      s.fget (CRD_SSTAT_STATE 0) = 3 ∧ s.on (CRD_SXFER_BUSY 0) = false := by decide +kernel
/-- Commits of the field and of the wire under way, and one whose field has gone. -/
theorem witness_TagMemoryActs_commits :
    ∀ f a : Bool, let u := State.elapse { tagState 2 with tag := { (tagState 2).tag with commit := some { line := 70, data := [1], field := f, answers := a } } } 0
      u.tag.powered = true ∧ u.tag.reading = none ∧ u.tag.apply = none ∧ u.tag.record = [] ∧
      u.tag.commit = some { line := 70, data := [1], field := f, answers := a } := by decide +kernel
/-- The overlay copy that an apply names reads and switches, or is refused, while the flash array is free. -/
theorem witness_CalibrationCountersAndTapAct_switch :
    let u := (up [CAL_STAT_BUSY]).elapse 0
    u.on FLC_STAT_BUSY = false ∧ ∃ e, ((u.lower CAL_STAT_BUSY).overlay u.obs.applying).1 = .error e :=
  ⟨by decide +kernel, (1, 0), by decide +kernel⟩

end Sys2Proof.Tests
end

section
/-!
SUPPORT. Proofs/RegisterAccesses.lean: one register access of a master of the interconnect (00 R6-R9, 05 R145, 07 R198):
what a denied or malformed access leaves, what a granted word write or read does, and which registers do no more than
their access types say. O29 is settled from these.
-/

namespace Sys2Proof.Machine

/-! ### A write or a read as an access -/

@[simp] theorem State.rd_wr_rd (s : State) (r x : Nat) : (s.wr r (s.rd r)).rd x = s.rd x := by
  rw [State.rd_wr]
  split
  · next h => rw [h]
  · rfl

theorem masterUp_eq {s : State} {a : Acc} (hm : a.master ≠ .wick) : s.masterUp a = (s.carries a && s.powered) := by
  unfold State.masterUp; rw [if_neg hm]

theorem enter_denied {s : State} {a : Acc} {addr : Nat} {ty : Access} {d : Denial} (hm : a.master ≠ .wick)
    (h : s.actCheck a addr ty = some d) : s.enter a addr ty = (.error .act, s.violate a addr ty d) := by
  unfold State.enter; rw [if_neg hm, h]

theorem addr_of_inRegs {r : Nat} (h : inRegs r = true) : (BitVec.ofNat 48 r).toNat = r := by
  simp only [inRegs, Bool.and_eq_true, decide_eq_true_eq] at h
  simp only [BitVec.toNat_ofNat]
  omega

/-- No master sends a misaligned access to memory (07 R194). -/
theorem registerWrite_illFormed {a : Acc} {addr : BitVec 48} {size : AccSize} (v : Word) (s : State)
    (hin : inRegs addr.toNat = false) (hal : addr.toNat % size.bytes ≠ 0) :
    exec (.registerWrite a addr size v) s = .fault (.illFormed "REGISTER_WRITE") := by
  show execRegisterWrite a addr size v s = _
  simp [execRegisterWrite, hin, hal]

/-- A write access that the master cannot issue now does nothing (00 R10). -/
theorem registerWrite_masterDown {s : State} {a : Acc} {addr : BitVec 48} {size : AccSize} (v : Word)
    (hok : inRegs addr.toNat = true ∨ addr.toNat % size.bytes = 0) (hup : s.masterUp a = false) :
    exec (.registerWrite a addr size v) s = .next s := by
  show execRegisterWrite a addr size v s = _
  unfold execRegisterWrite
  rw [if_neg (by rcases hok with h | h <;> simp [h]), event_not _ _ _ hup]

/-- A write access that the master can issue is the access. -/
theorem registerWrite_eq {s : State} {a : Acc} {addr : BitVec 48} {size : AccSize} (v : Word)
    (hok : inRegs addr.toNat = true ∨ addr.toNat % size.bytes = 0) (hup : s.masterUp a = true) :
    exec (.registerWrite a addr size v) s = .next (s.anyWrite a addr.toNat size.bytes v.toNat).2 := by
  show execRegisterWrite a addr size v s = _
  unfold execRegisterWrite
  rw [if_neg (by rcases hok with h | h <;> simp [h]), event_of _ _ _ hup]

/-- REGISTER_WRITE of an aligned word of a register block is the write of that word. -/
theorem registerWrite_word (s : State) (a : Acc) {r : Nat} (v : Word32) (hr : inRegs r = true) :
    exec (.registerWrite a (BitVec.ofNat 48 r) .b4 (v.setWidth 64)) s = s.writeRow a r v := by
  have hv : (v.setWidth 64).toNat = v.toNat := BitVec.toNat_setWidth_of_le (by decide)
  show execRegisterWrite a (BitVec.ofNat 48 r) .b4 (v.setWidth 64) s = _
  simp [execRegisterWrite, State.writeRow, addr_of_inRegs hr, hr, hv, AccSize.bytes]

theorem lowWordRead_word (s : State) (a : Acc) {r : Nat} (hr : inRegs r = true) :
    exec (.lowWordRead a (BitVec.ofNat 48 r)) s = s.readRow a r :=
  congrArg (s.readRow a) (addr_of_inRegs hr)

/-- A denied write records the denial alone (07 R206), in the register blocks and in memory. -/
theorem anyWrite_denied {s : State} {a : Acc} {addr : Nat} {d : Denial} (n v : Nat) (hm : a.master ≠ .wick)
    (h : s.actCheck a addr .write = some d) : (s.anyWrite a addr n v).2 = s.violate a addr .write d := by
  unfold State.anyWrite
  rw [if_neg hm]
  split
  · rw [enter_denied hm h]
  · unfold State.busWrite; rw [enter_denied hm h]

/-- A denied read records the denial alone and answers an error. -/
theorem anyRead_denied {s : State} {a : Acc} {addr : Nat} {d : Denial} (n : Nat) (hm : a.master ≠ .wick)
    (hin : inRegs addr = true) (h : s.actCheck a addr .read = some d) :
    s.anyRead a addr n = (.error .act, s.violate a addr .read d) := by
  unfold State.anyRead
  rw [if_neg hm, if_pos hin, enter_denied hm h]

/-- A granted write of memory stores its bytes where the memory can be written. -/
theorem anyWrite_memory {s : State} {a : Acc} {addr : Nat} (n v : Nat) (hm : a.master ≠ .wick)
    (hin : inRegs addr = false) (h : s.actCheck a addr .write = none) :
    (s.anyWrite a addr n v).2 = if s.writable addr = true then s.storeBytes addr (leBytes n v) else s := by
  unfold State.anyWrite State.busWrite
  rw [if_neg hm, hin, enter_granted hm h]
  cases hw : s.writable addr <;> simp [hw]

/-- A granted access of a register block reaches the registers where it is an aligned word, and nothing otherwise (00
R6). -/
theorem anyWrite_regs {s : State} {a : Acc} {addr : Nat} (n v : Nat) (hm : a.master ≠ .wick)
    (hin : inRegs addr = true) (h : s.actCheck a addr .write = none) :
    (s.anyWrite a addr n v).2 = if n = 4 ∧ addr % 4 = 0 then (s.regWrite a addr (BitVec.ofNat 32 v)).2 else s := by
  unfold State.anyWrite
  rw [if_neg hm, if_pos hin, enter_granted hm h]
  by_cases hw : n = 4 ∧ addr % 4 = 0 <;> simp [hw]

theorem regWrite_undefined {s : State} {a : Acc} {addr : Nat} (v : Word32) (h : regRow? addr = none) :
    (s.regWrite a addr v).2 = s := by
  unfold State.regWrite; rw [h]

theorem regWrite_unpermitted {s : State} {a : Acc} {addr : Nat} {v : Word32} {row : RegRow} (hm : a.master ≠ .wick)
    (hrow : regRow? addr = some row)
    (hp : a.holdsAll (writeNeeds (s.on DUO_CTRL_FORCE) (row.regOf addr) v) = false) : (s.regWrite a addr v).2 = s := by
  unfold State.regWrite; simp [hrow, hm, hp]

theorem AccSize.bytes_eq_four {z : AccSize} : z.bytes = 4 ↔ z = .b4 := by cases z <;> decide

/-- An access of a register block that is not 32 bits wide and aligned, or that no register answers, writes nothing. -/
theorem anyWrite_malformed {s : State} {a : Acc} {addr : Nat} {size : AccSize} (v : Nat) (hm : a.master ≠ .wick)
    (hin : inRegs addr = true) (ht : s.actCheck a addr .write = none)
    (h : size ≠ .b4 ∨ addr % 4 ≠ 0 ∨ regRow? addr = none) : (s.anyWrite a addr size.bytes v).2 = s := by
  rw [anyWrite_regs _ _ hm hin ht]
  split
  · next hw =>
    have hnone : regRow? addr = none :=
      (h.resolve_left (not_not.mpr (AccSize.bytes_eq_four.mp hw.1))).resolve_left (not_not.mpr hw.2)
    rw [regWrite_undefined _ hnone]
  · rfl

/-- An access of a register block that lacks a permission its register asks writes nothing (05 R145). -/
theorem anyWrite_unpermitted {s : State} {a : Acc} {addr : Nat} {row : RegRow} (n : Nat) (v : Word) (hm : a.master ≠ .wick)
    (hin : inRegs addr = true) (ht : s.actCheck a addr .write = none) (hrow : regRow? addr = some row)
    (hp : a.holdsAll (writeNeeds (s.on DUO_CTRL_FORCE) (row.regOf addr) (v.setWidth 32)) = false) :
    (s.anyWrite a addr n v.toNat).2 = s := by
  rw [anyWrite_regs _ _ hm hin ht, BitVec.ofNat_toNat, regWrite_unpermitted hm hrow hp, ite_self]

/-! ### A granted word access -/

/-- The word at `addr` is an aligned word of the register at `r`, which `row` describes, and no staging rule. -/
structure IsWord (addr r : Nat) (row : RegRow) : Prop where
  found : regRow? addr = some row
  of : row.regOf addr = r
  inside : inRegs addr = true
  aligned : addr % 4 = 0
  free : isStaging r = false

/-- A granted word write that carries what the register asks is the register's own word write. -/
theorem writeRow_word {s : State} {a : Acc} {addr r : Nat} {v : Word32} {row : RegRow} (hw : IsWord addr r row)
    (hm : a.master ≠ .wick) (hup : s.masterUp a = true) (ht : s.actCheck a addr .write = none)
    (hp : a.holdsAll (writeNeeds (s.on DUO_CTRL_FORCE) r v) = true) :
    s.writeRow a addr v = .next (s.wordWrite a row addr v) := by
  unfold State.writeRow
  rw [event_of _ _ _ hup, anyWrite_regs _ _ hm hw.inside ht, if_pos ⟨rfl, hw.aligned⟩]
  unfold State.regWrite
  simp [hw.found, hw.of, hm, hp]

/-- A granted word read that carries what the register asks answers the register's word. -/
theorem readRow_word {s : State} {a : Acc} {addr r : Nat} {row : RegRow} (hw : IsWord addr r row)
    (hm : a.master ≠ .wick) (hup : s.masterUp a = true) (ht : s.actCheck a addr .read = none)
    (hp : a.holdsAll (readNeeds r) = true) (hl : r ≠ WCK_LDDATA) :
    s.readRow a addr = .next { (s.wordRead a row addr).2 with
      lastRead := some (false, (s.wordRead a row addr).1.setWidth 64) } := by
  unfold State.readRow State.anyRead
  rw [event_of _ _ _ hup, if_neg hm, if_pos hw.inside, enter_granted hm ht]
  unfold State.regRead
  simp only [hw.found, hw.of, hw.aligned, if_neg hm, hp, hl, and_self, if_true, if_false, recordRead,
    BitVec.ofNat_toNat]

theorem wordWrite_single {s : State} {a : Acc} {r : Nat} {row : RegRow} (v : Word32) (hw : IsWord r r row)
    (hd : row.dbl = false) : s.wordWrite a row r v = s.regEffect a row r (v.setWidth 64) := by
  simp [State.wordWrite, hw.of, hw.free, hd]

/-- The low word of a 64-bit register is held for its master (00 R7). -/
theorem wordWrite_low {s : State} {a : Acc} {r : Nat} {row : RegRow} (v : Word32) (hw : IsWord r r row)
    (hd : row.dbl = true) :
    s.wordWrite a row r v = { s with heldLow := sput none s.heldLow (halfKey a r) (some v) } := by
  simp [State.wordWrite, hw.of, hw.free, hd]

/-- The high word takes effect with the low word that is held (00 R7). -/
theorem wordWrite_high {s : State} {a : Acc} {r : Nat} {row : RegRow} (v : Word32) {low : Word32}
    (hw : IsWord (r + 4) r row) (hd : row.dbl = true) (hl : sget none s.heldLow (halfKey a r) = some low) :
    s.wordWrite a row (r + 4) v =
      State.regEffect { s with heldLow := sput none s.heldLow (halfKey a r) none } a row r
        (v.setWidth 64 <<< 32 ||| low.setWidth 64) := by
  simp [State.wordWrite, hw.of, hw.free, hd, hl]

/-! ### Registers that do no more than their access types say (00 R9) -/

/-- The registers of which a write does more, or less, than to set RW bits and clear W1C bits, banked ones aside. -/
def actsOnWrite (r : Nat) : Bool :=
  decide (r ∈ [SYS_MODEREQ, SYS_BOOTSTAT, SYS_LCADV, SYS_SVNFLOOR, SYS_RST, SYS_REPROV, ACT_CTRL, ACT_EPOCH, ACT_VIOL_INFO,
    ACT_DBGSTKY_CLR, SVC_CTRL, SVC_PORTCFG, SVC_MGT_GO, SVC_RQ_ID, SVC_RQ_CFG, SVC_RQ_FLOOR, ETH_MSEC_SA, ETH_MSEC_SSCI,
    ETH_MSEC_SCI, ETH_MSEC_PN, ADM_CTRL, ADM_EPOCH, ADM_LGUARD, ADM_TAPER, ADM_REFRESH, ADM_FETCH_HOT, ADM_FETCH_SEAL,
    DSP_EPOCH, DSP_LDR_CFG, DSP_LDR_MIR, DSP_LDR_CTRL, DSP_PSLOT_STAT, DSP_IREQ_GO, CPH_RETIRE, CPH_REINST, CPH_MMLOG,
    MAU_CHKLOG, MAU_RETIRE, MAU_REINST, MAU_GEN, KST_CMD, KST_MEMCFG, KST_PINMAX, KST_CNTCFG, KST_CLOG, KST_INTLOG, RNG_CTRL,
    RNG_CUTOFF, RNG_FWREQ, RNG_LAST, DUO_CTRL, DUO_EPOCHCLR, DUO_RESYNC, FLC_CMD, FLC_ERSCFG, FLC_ECCLOG, TMP_STKY_CLR,
    TMP_TSCSET, TMP_BIST, WCK_ACT, WCK_WDOG, WCK_ALM, WCK_CTRL, WCK_LDDATA, FLT_FIRST, FLT_ISOSBLK, CRD_CTRL, CRD_QCTRL,
    CRD_ROSTER_CTRL, CRD_SCTRL 0, CRD_SCTRL 1, CRD_SXFER 0, CRD_SXFER 1, TAG_WCMD, TAG_GRPSEL, TAG_GRPCFG, TAG_GRPPW,
    CAL_APPLY, PMC_SNAP, PMC_BWCFG]) ||
  decide (0x40000100 ≤ r ∧ r < 0x40000200 ∧ r % 16 = 0) || decide (0x40000600 ≤ r ∧ r < 0x40000680 ∧ r % 8 = 4) ||
  decide (ADM_TEMPO 0 ≤ r ∧ r ≤ ADM_TEMPO 2) || decide (0x40B00100 ≤ r ∧ r < 0x40B00170) ||
  decide (0x40C00100 ≤ r ∧ r < 0x40C00200) || decide (0x40D00040 ≤ r ∧ r < 0x40D00050) ||
  decide (0x40D00070 ≤ r ∧ r < 0x40D00080) || decide (0x40D00080 ≤ r ∧ r < 0x40D00090) ||
  decide (0x40D00400 ≤ r ∧ r < 0x40D00600) || decide (OBS_SEL 0 ≤ r ∧ r ≤ OBS_SEL 7)

theorem regEffect_eq_plainWrite {s : State} {a : Acc} {row : RegRow} {r : Nat} (v : Word) (hm : a.master ≠ .wick)
    (hb : row.banked = false) (h : actsOnWrite r = false) : s.regEffect a row r v = s.plainWrite row r v := by
  simp only [actsOnWrite, Bool.or_eq_false_iff, decide_eq_false_iff_not, List.mem_cons, not_or, List.not_mem_nil] at h
  unfold State.regEffect
  split <;>
    simp only [State.writeSys, State.writeAct, State.writeSvc, State.writeAdm, State.writeDsp, State.writeEng,
      State.writeKst, State.writeRng, State.writeDuo, State.writeFlc, State.writeTmp, State.writeWck, State.writeFlt,
      State.writeCrd, State.writeTag, State.writeObs, h, hb, hm, decide_false, or_self, ite_self,
      Bool.false_eq_true, if_false]

/-- The registers whose value is read from state beside the register map, banked ones aside. -/
def showsState (r : Nat) : Bool :=
  decide (r ∈ [SYS_STAT, SVC_RQ_ID, SVC_RQ_CFG, SVC_RQ_HIGH, ETH_MSEC_SA, ETH_MSEC_SSCI, ETH_MSEC_SCI, ETH_MSEC_PN, ADM_STAT,
    ADM_EPOCH_DRAIN, DSP_EPOCH_DRAIN, DSP_STAT, DSP_PSLOT_STAT, DSP_PSLOT_ID, MAU_GENSTAT, MAU_OMDATA, KST_STAT, KST_HOTFILL,
    KST_PINUSE, DUO_STAT, FLC_STAT, FLC_ECNT, TMP_STAT, TAG_GRPCFG, CRD_SSTAT 0, CRD_SSTAT 1, WCK_LDDATA, PMC_CNT 0x057,
    PMC_CNT 0x059]) ||
  decide (ADM_POOL_STAT 0 ≤ r ∧ r < ADM_POOL_STAT 10 ∧ r % 32 = 8) ||
  decide (ADM_POOL_BS 0 ≤ r ∧ r < ADM_POOL_BS 10 ∧ r % 32 = 12) ||
  decide (ADM_POOL_BL 0 ≤ r ∧ r < ADM_POOL_BL 10 ∧ r % 32 = 16) ||
  decide (ADM_POOL_BF 0 ≤ r ∧ r < ADM_POOL_BF 10 ∧ r % 32 = 20)

theorem regValue_eq_rd {s : State} {row : RegRow} {r : Nat} (hb : row.banked = false) (h : showsState r = false) :
    s.regValue row r = s.rd r := by
  simp only [showsState, Bool.or_eq_false_iff, decide_eq_false_iff_not, List.mem_cons, not_or, List.not_mem_nil] at h
  simp only [State.regValue, h, hb, or_self, Bool.false_eq_true, if_false]

/-- A read of the register answers what the register map holds, and changes nothing beside the latch. -/
def readsPlainly (r : Nat) : Bool := !showsState r && decide (r ∉ [RNG_RAW, RNG_FW 7])

theorem showsState_of_readsPlainly {r : Nat} (h : readsPlainly r = true) : showsState r = false := by
  simp only [readsPlainly, Bool.and_eq_true, Bool.not_eq_true'] at h
  exact h.1

theorem readsPlainly_ne {r q : Nat} (h : readsPlainly r = true) (hq : readsPlainly q = false) : r ≠ q := by
  rintro rfl; simp [h] at hq

theorem readEffect_eq_self {s : State} {r : Nat} (h : readsPlainly r = true) : s.readEffect r = s := by
  simp only [State.readEffect, readsPlainly_ne h (q := RNG_FW 7) (by decide),
    readsPlainly_ne h (q := MAU_OMDATA) (by decide), if_false]

/-- The register at `r`, described by `row`, is held once, and a write of it does what its access types say. -/
structure PlainReg (r : Nat) (row : RegRow) : Prop where
  word : IsWord r r row
  high : row.dbl = true → IsWord (r + 4) r row
  unbanked : row.banked = false
  quiet : actsOnWrite r = false

/-- The map holds such a register at `r`, of this width, with these RW bits and these W1C bits. -/
def isPlain (dbl : Bool) (rw w1c r : Nat) : Bool :=
  (regRow? r).any fun row => decide (
    (row.dbl = dbl ∧ row.rw = rw ∧ row.w1c = w1c ∧ row.banked = false ∧ actsOnWrite r = false) ∧
    (row.regOf r = r ∧ inRegs r = true ∧ r % 4 = 0 ∧ isStaging r = false) ∧
    (dbl = true → regRow? (r + 4) = some row ∧ row.regOf (r + 4) = r ∧ inRegs (r + 4) = true))

theorem exists_plainReg {dbl : Bool} {rw w1c r : Nat} (h : isPlain dbl rw w1c r = true) :
    ∃ row, PlainReg r row ∧ row.dbl = dbl ∧ row.rw = rw ∧ row.w1c = w1c := by
  simp only [isPlain, Option.any_eq_true, decide_eq_true_eq] at h
  obtain ⟨row, hf, ⟨hd, hrw, hw1c, hb, hq⟩, ⟨hof, hin, hal, hst⟩, hhigh⟩ := h
  refine ⟨row, ⟨⟨hf, hof, hin, hal, hst⟩, fun k => ?_, hb, hq⟩, hd, hrw, hw1c⟩
  obtain ⟨hf', hof', hin'⟩ := hhigh (hd ▸ k)
  exact ⟨hf', hof', hin', by omega, hst⟩

theorem and_allBits (x : Word) : x &&& 18446744073709551615#64 = x := BitVec.and_allOnes

theorem plainWrite_rw {s : State} {row : RegRow} {m : Nat} (r : Nat) (v : Word) (h : row.rw = m) (h0 : row.w1c = 0) :
    s.plainWrite row r v = s.wr r (written m (s.rd r) v) := by
  simp [State.plainWrite, written, h, h0, and_allBits]

theorem plainWrite_w1c {s : State} {row : RegRow} {m : Nat} (r : Nat) (v : Word) (h : row.rw = 0) (h1 : row.w1c = m) :
    s.plainWrite row r v = s.wr r (s.rd r &&& ~~~(v &&& BitVec.ofNat 64 m)) := by
  simp [State.plainWrite, h, h1, and_allBits]

theorem written_zero (old v : Word) : written 0 old v = old := by simp [written, and_allBits]

theorem written_allOnes (old v : Word) : written 0xFFFFFFFFFFFFFFFF old v = v := by
  simp [written, and_allBits]

/-! ### What granted accesses of plain registers do -/

section
variable {s : State} {a : Acc} {r : Nat} {row : RegRow}

/-- A granted write of a 32-bit register acts as the access types say. -/
theorem sets_single (v : Word32) (hr : PlainReg r row) (hd : row.dbl = false) :
    Sets (.registerWrite a (BitVec.ofNat 48 r) .b4 (v.setWidth 64)) a r v s (s.plainWrite row r (v.setWidth 64)) := by
  intro h
  rw [registerWrite_word s a v hr.word.inside,
    writeRow_word hr.word h.master (masterUp_of h) h.table h.perms, wordWrite_single v hr.word hd,
    regEffect_eq_plainWrite _ h.master hr.unbanked hr.quiet]

/-- A granted write of the low word of a 64-bit register is held. -/
theorem sets_low (v : Word32) (hr : PlainReg r row) (hd : row.dbl = true) :
    Sets (.registerWrite a (BitVec.ofNat 48 r) .b4 (v.setWidth 64)) a r v s
      { s with heldLow := sput none s.heldLow (halfKey a r) (some v) } := by
  intro h
  rw [registerWrite_word s a v hr.word.inside,
    writeRow_word hr.word h.master (masterUp_of h) h.table h.perms, wordWrite_low v hr.word hd]

/-- A granted write of the high word of a 64-bit register, with the low word that is held, acts as the access types say. -/
theorem registerWrite_high (v : Word32) {low : Word32} (hr : PlainReg r row) (hd : row.dbl = true) (hm : a.master ≠ .wick)
    (hup : s.masterUp a = true) (ht : s.actCheck a (r + 4) .write = none)
    (hp : a.holdsAll (writeNeeds (s.on DUO_CTRL_FORCE) r v) = true) (hl : sget none s.heldLow (halfKey a r) = some low) :
    exec (.registerWrite a (BitVec.ofNat 48 (r + 4)) .b4 (v.setWidth 64)) s = .next
      (State.plainWrite { s with heldLow := sput none s.heldLow (halfKey a r) none } row r
        (v.setWidth 64 <<< 32 ||| low.setWidth 64)) := by
  have hw := hr.high hd
  rw [registerWrite_word s a v hw.inside, writeRow_word hw hm hup ht hp, wordWrite_high v hw hd hl,
    regEffect_eq_plainWrite _ hm hr.unbanked hr.quiet]

theorem wordRead_single (s : State) (a : Acc) (hr : PlainReg r row) (hd : row.dbl = false) (hp : readsPlainly r = true) :
    s.wordRead a row r = ((s.rd r).setWidth 32, s) := by
  simp [State.wordRead, hr.word.of, hd, regValue_eq_rd hr.unbanked (showsState_of_readsPlainly hp),
    readsPlainly_ne hp (q := RNG_RAW) (by decide), readEffect_eq_self hp]

/-- A read of the low word latches the high word for its master (00 R7). -/
theorem wordRead_low (s : State) (a : Acc) (hr : PlainReg r row) (hd : row.dbl = true) (hp : readsPlainly r = true) :
    s.wordRead a row r = ((s.rd r).setWidth 32,
      { s with latchHigh := sput none s.latchHigh (halfKey a r) (some ((s.rd r >>> 32).setWidth 32)) }) := by
  simp [State.wordRead, hr.word.of, hd, regValue_eq_rd hr.unbanked (showsState_of_readsPlainly hp),
    readsPlainly_ne hp (q := RNG_RAW) (by decide), readEffect_eq_self hp]

/-- A read of the high word takes the latched one (00 R7). -/
theorem wordRead_high {high : Word32} (hr : PlainReg r row) (hd : row.dbl = true) (hp : readsPlainly r = true)
    (hl : sget none s.latchHigh (halfKey a r) = some high) :
    s.wordRead a row (r + 4) = (high, { s with latchHigh := sput none s.latchHigh (halfKey a r) none }) := by
  simp [State.wordRead, (hr.high hd).of, hd, hl, readsPlainly_ne hp (q := RNG_RAW) (by decide)]

/-- A granted read of a plain register is the read of its word, and the answer is recorded. -/
theorem lowWordRead_plain {addr : Nat} (hw : IsWord addr r row) (hm : a.master ≠ .wick) (hup : s.masterUp a = true)
    (ht : s.actCheck a addr .read = none) (hn : a.holdsAll (readNeeds r) = true) (hp : readsPlainly r = true) :
    exec (.lowWordRead a (BitVec.ofNat 48 addr)) s = .next { (s.wordRead a row addr).2 with
      lastRead := some (false, (s.wordRead a row addr).1.setWidth 64) } := by
  rw [lowWordRead_word s a hw.inside, readRow_word hw hm hup ht hn (readsPlainly_ne hp (by decide))]

end

/-! ### The registers the statement names -/

theorem eventRegs_plain : ∀ e ∈ eventRegs, isPlain false 0 e.2 e.1 = true := by decide +kernel

theorem plainRegs_plain : ∀ e ∈ plainRegs, isPlain false e.2 0 e.1 = true ∧ readsPlainly e.1 = true := by decide +kernel

theorem readOnlyRegs_plain : ∀ r ∈ readOnlyRegs, isPlain false 0 0 r = true := by decide +kernel

theorem longRegs_plain : ∀ e ∈ longRegs, isPlain true e.2 0 e.1 = true ∧ readsPlainly e.1 = true := by decide +kernel

theorem sysTcmp_plain : ∀ n : Fin 16, isPlain true 0xFFFFFFFFFFFFFFFF 0 (SYS_TCMP n.val) = true := by decide +kernel

theorem tmpTsc_plain : isPlain true 0 0 TMP_TSC = true ∧ readsPlainly TMP_TSC = true := by decide +kernel

/-- No register of SYS above the core controls asks a permission of its writer. -/
theorem writeNeeds_sys {r : Nat} (force : Bool) (v : Word32) (hlo : 0x40000200 ≤ r) (hhi : r < 0x40100000) :
    writeNeeds force r v = [] := by
  have hne : ∀ q < 0x40000200, r ≠ q := by omega
  have hcore : ¬(0x40000100 ≤ r ∧ r < 0x40000200 ∧ r % 16 = 0) := by omega
  simp only [writeNeeds, hhi, hcore, hne SYS_MODEREQ (by decide), hne SYS_WAKECFG (by decide), hne SYS_RST (by decide),
    hne SYS_SVNFLOOR (by decide), hne SYS_REPROV (by decide), or_self, if_true, if_false]

theorem setWidth_eq_ofNat_mod (w : Word) : (w.setWidth 32).setWidth 64 = BitVec.ofNat 64 (w.toNat % 2 ^ 32) := by
  apply BitVec.eq_of_toNat_eq
  simp

end Sys2Proof.Machine

namespace Sys2Proof

open Sys2Proof.Machine

/-- Settles O29: each granted access is the word access of its register (`writeRow_word`, `readRow_word`), the registers
named do no more than their access types say, and the other accesses stop at the access table or at the block's edge. -/
theorem registerAccessesAct : Obligations.RegisterAccessesAct := by
  unfold Obligations.RegisterAccessesAct
  refine ⟨fun a addr size v s hm => ?_, fun a e v s he => ?_, fun a e v s he => ?_,
    fun a r v s hr hw => ?_, fun a e v s he => ?_, fun a n v s => ?_, fun a s hm hpow hcar => ?_⟩
  · refine ⟨registerWrite_illFormed v s, fun hok => ⟨fun hdown => registerWrite_masterDown v hok ?_, fun hpow hcar => ?_⟩⟩
    · rcases hdown with h | h <;> simp [masterUp_eq hm, h]
    rw [registerWrite_eq v hok (by simp [masterUp_eq hm, hcar, hpow])]
    refine ⟨fun d hd => ?_, fun ht => ⟨fun hin => ?_, fun hin => ⟨fun hbad => ?_, fun row hrow hp => ?_⟩⟩⟩
    · rw [anyWrite_denied _ _ hm hd]
    · rw [anyWrite_memory _ _ hm hin ht]
    · rw [anyWrite_malformed _ hm hin ht hbad]
    · rw [anyWrite_unpermitted _ _ hm hin ht hrow hp]
  · obtain ⟨row, hreg, hd, hrw, hw1c⟩ := exists_plainReg (eventRegs_plain e he)
    rw [← plainWrite_w1c _ _ hrw hw1c]
    exact sets_single v hreg hd
  · obtain ⟨hplain, hread⟩ := plainRegs_plain e he
    obtain ⟨row, hreg, hd, hrw, hw1c⟩ := exists_plainReg hplain
    refine ⟨?_, fun h => ?_⟩
    · rw [← plainWrite_rw _ _ hrw hw1c]
      exact sets_single v hreg hd
    · rw [lowWordRead_plain hreg.word h.master (masterUp_of_read h) h.table h.perms hread,
        wordRead_single s a hreg hd hread]
  · obtain ⟨row, hreg, hd, hrw, hw1c⟩ := exists_plainReg (readOnlyRegs_plain r hr)
    refine ⟨_, sets_single v hreg hd hw, ?_⟩
    rw [plainWrite_rw _ _ hrw hw1c, written_zero]
    exact ⟨rfl, State.rd_wr_rd s r⟩
  · obtain ⟨hplain, hread⟩ := longRegs_plain e he
    obtain ⟨row, hreg, hd, hrw, hw1c⟩ := exists_plainReg hplain
    refine ⟨sets_low v hreg hd, fun low hlow ht hw => ?_, fun h => ?_⟩
    · rw [registerWrite_high v hreg hd hw.master (masterUp_of hw) ht hw.perms hlow, plainWrite_rw _ _ hrw hw1c]
      rfl
    · rw [lowWordRead_plain hreg.word h.master (masterUp_of_read h) h.table h.perms hread, wordRead_low s a hreg hd hread]
      rfl
  · obtain ⟨row, hreg, hd, hrw, hw1c⟩ := exists_plainReg (sysTcmp_plain n)
    refine ⟨sets_low v hreg hd, fun low hlow hw => ?_⟩
    have hneeds := writeNeeds_sys (r := SYS_TCMP n.val) (s.on DUO_CTRL_FORCE) v (by simp only [SYS_TCMP]; omega)
      (by simp only [SYS_TCMP]; omega)
    rw [registerWrite_high v hreg hd hw.master (masterUp_of hw) hw.table (by rw [hneeds]; rfl) hlow,
      plainWrite_rw _ _ hrw hw1c, written_allOnes]
    rfl
  · obtain ⟨hplain, hread⟩ := tmpTsc_plain
    obtain ⟨row, hreg, hd, -, -⟩ := exists_plainReg hplain
    have hup : s.masterUp a = true := by simp [masterUp_eq hm, hcar, hpow]
    refine ⟨fun d ht => ?_, fun ht => ?_, fun high ht hlatch => ?_⟩
    · rw [lowWordRead_word s a hreg.word.inside, State.readRow, event_of _ _ _ hup,
        anyRead_denied 4 hm hreg.word.inside ht]
      rfl
    · rw [lowWordRead_plain hreg.word hm hup ht rfl hread, wordRead_low s a hreg hd hread, setWidth_eq_ofNat_mod]
      rfl
    · rw [lowWordRead_plain (hreg.high hd) hm hup ht rfl hread, wordRead_high hreg hd hread hlatch]
      rfl

end Sys2Proof
end

section
/-!
SUPPORT. Proofs/FaultWindows.lean: what several units' statements rest on: a change of registers alone, a granted write of
a 32-bit register as the effect of its block, and the windows of the fault collector as they close (16 R370, R371).
-/

namespace Sys2Proof.Machine

/-! ### Changes of registers alone -/

/-- `t` is `s` but for its registers. -/
def RegsOnly (s t : State) : Prop := ∃ r, t = { s with regs := r }

theorem RegsOnly.eq {s t : State} (h : RegsOnly s t) : t = { s with regs := t.regs } := by
  obtain ⟨r, rfl⟩ := h; rfl

theorem RegsOnly.refl (s : State) : RegsOnly s s := ⟨_, rfl⟩

theorem RegsOnly.trans {s t u : State} (h : RegsOnly s t) (k : RegsOnly t u) : RegsOnly s u := by
  obtain ⟨r, rfl⟩ := h
  obtain ⟨r', rfl⟩ := k
  exact ⟨r', rfl⟩

theorem RegsOnly.wr {s t : State} (h : RegsOnly s t) (a : Nat) (v : Word) : RegsOnly s (t.wr a v) := h.trans ⟨_, rfl⟩

theorem RegsOnly.fset {s t : State} (h : RegsOnly s t) (f : Fld) (v : Nat) : RegsOnly s (t.fset f v) := h.wr _ _

theorem RegsOnly.raise {s t : State} (h : RegsOnly s t) (f : Fld) : RegsOnly s (t.raise f) := h.wr _ _

theorem RegsOnly.lower {s t : State} (h : RegsOnly s t) (f : Fld) : RegsOnly s (t.lower f) := h.wr _ _

theorem RegsOnly.closeWindow {s t : State} (h : RegsOnly s t) (n : Nat) : RegsOnly s (t.closeWindow n) :=
  (h.lower _).fset _ _

theorem RegsOnly.ite {s t u : State} (c : Prop) [Decidable c] (ht : RegsOnly s t) (hu : RegsOnly s u) :
    RegsOnly s (if c then t else u) := by split <;> assumption

theorem RegsOnly.foldl {α : Type} {f : State → α → State} (hf : ∀ s a, RegsOnly s (f s a)) (l : List α) :
    ∀ s, RegsOnly s (l.foldl f s) := by
  induction l with
  | nil => exact RegsOnly.refl
  | cons a l ih => exact fun s => (hf s a).trans (ih _)

/-! ### Timed events -/

/-- A timed event happens as its condition says. -/
theorem timed_happens {i : Nat → Instr} {s : State} {c : State → Prop} {b : State → Bool} {f : State → State}
    (hi : ∀ dt s, exec (i dt) s = timed dt b s f) (hb : ∀ u, b u = true ↔ c u) : Happens i s c f := fun dt =>
  ⟨fun h => (hi dt s).trans (timed_pos ((hb _).2 h)),
    fun h => (hi dt s).trans (timed_neg (Bool.eq_false_iff.2 fun k => h ((hb _).1 k)))⟩

/-! ### Fields of registers that are alike -/

theorem State.fget_of_rd {s t : State} {f : Fld} (h : t.rd f.addr = s.rd f.addr) : t.fget f = s.fget f := by
  unfold State.fget; rw [h]

theorem State.on_of_rd {s t : State} {f : Fld} (h : t.rd f.addr = s.rd f.addr) : t.on f = s.on f := by
  unfold State.on; rw [State.fget_of_rd h]

/-! ### A granted write as its block's effect -/

/-- A granted write of a 32-bit register is the register's own effect. -/
theorem exists_writeRow {s : State} {a : Acc} {r : Nat} {v : Word32} (h : MayWrite s a r v)
    (hr : (regRow? r).any (isReg r) = true) :
    ∃ row, s.writeRow a r v = .next (s.regEffect a row r (v.setWidth 64)) := by
  obtain ⟨row, -, hrow⟩ := Option.any_eq_true .. |>.mp hr
  exact ⟨row, writeRow_eq h hrow⟩

theorem regEffect_sys {s : State} {a : Acc} {row : RegRow} {r : Nat} {v : Word} (h : r / 0x100000 = 0x400) :
    s.regEffect a row r v = s.writeSys a row r v := by
  simp only [State.regEffect, h]

theorem regEffect_tmp {s : State} {a : Acc} {row : RegRow} {r : Nat} {v : Word} (h : r / 0x100000 = 0x40B) :
    s.regEffect a row r v = s.writeTmp a row r v := by
  simp only [State.regEffect, h]

theorem regEffect_flt {s : State} {a : Acc} {row : RegRow} {r : Nat} {v : Word} (h : r / 0x100000 = 0x40D) :
    s.regEffect a row r v = s.writeFlt a row r v := by
  simp only [State.regEffect, h]

@[simp] theorem setWidth_up_down (v : Word32) : (v.setWidth 64).setWidth 32 = v := by
  apply BitVec.eq_of_toNat_eq
  simp

/-! ### Fault windows -/

theorem State.rd_closeWindow_ne (s : State) (n : Nat) {r : Nat} (h : r ≠ FLT_CNT n) : (s.closeWindow n).rd r = s.rd r := by
  rw [State.closeWindow, State.rd_fset_ne _ _ _ h, State.lower, State.rd_fset_ne _ _ _ h]

/-- A window that closes is open no more. -/
theorem State.on_open_closeWindow (s : State) (n : Nat) : (s.closeWindow n).on (FLT_CNT_OPEN n) = false := by
  rw [State.closeWindow, State.on_fset_apart _ _ _ _ (by simp [Fld.fits]) (.inr (.inl (by simp)))]
  exact State.on_lower_self _ _ (by simp [Fld.fits])

theorem State.fget_open_closeWindow (s : State) (n : Nat) : (s.closeWindow n).fget (FLT_CNT_OPEN n) = 0 := by
  rw [State.closeWindow, State.fget_fset_apart _ _ _ _ (by simp [Fld.fits]) (.inr (.inl (by simp))), State.lower,
    State.fget_fset_self _ _ _ (by simp [Fld.fits]), Nat.zero_mod]

/-- The count of a window that closes is 0. -/
theorem State.fget_cnt_closeWindow (s : State) (n : Nat) : (s.closeWindow n).fget (FLT_CNT_CNT n) = 0 :=
  (State.fget_fset_self _ _ _ (by simp [Fld.fits])).trans (Nat.zero_mod _)

/-- The window of source `n` closes where it is open. -/
def closeOpen (s : State) (n : Nat) : State := if s.on (FLT_CNT_OPEN n) then s.closeWindow n else s

theorem rd_closeOpen_ne (s : State) (n : Nat) {r : Nat} (h : s.on (FLT_CNT_OPEN n) = true → r ≠ FLT_CNT n) :
    (closeOpen s n).rd r = s.rd r := by
  unfold closeOpen
  split
  · next hn => exact State.rd_closeWindow_ne s n (h hn)
  · rfl

theorem on_open_closeOpen_self (s : State) (n : Nat) : (closeOpen s n).on (FLT_CNT_OPEN n) = false := by
  unfold closeOpen
  split
  · exact State.on_open_closeWindow s n
  · next h => simpa using h

/-- Closing windows opens none. -/
theorem on_open_of_closeOpen {s : State} {n m : Nat} (h : (closeOpen s n).on (FLT_CNT_OPEN m) = true) :
    m ≠ n ∧ s.on (FLT_CNT_OPEN m) = true := by
  have hne : m ≠ n := by
    rintro rfl
    rw [on_open_closeOpen_self] at h
    exact Bool.false_ne_true h
  refine ⟨hne, ?_⟩
  rwa [State.on_of_rd (rd_closeOpen_ne s n fun _ => by simp only [FLT_CNT]; omega)] at h

/-- Closing every open window of a list touches the counts of those sources alone. -/
theorem rd_foldl_closeOpen_ne (l : List Nat) : ∀ (s : State) {r : Nat},
    (∀ n ∈ l, s.on (FLT_CNT_OPEN n) = true → r ≠ FLT_CNT n) → (l.foldl closeOpen s).rd r = s.rd r := by
  induction l with
  | nil => exact fun _ _ _ => rfl
  | cons n l ih =>
    intro s r h
    rw [List.foldl_cons, ih _ fun m hm hon => h m (List.mem_cons_of_mem _ hm) (on_open_of_closeOpen hon).2,
      rd_closeOpen_ne s n (h n List.mem_cons_self)]

/-- Each open window of the list is closed, as by itself. -/
theorem rd_foldl_closeOpen_cnt (l : List Nat) : ∀ {s : State} {n : Nat}, n ∈ l → s.on (FLT_CNT_OPEN n) = true →
    (l.foldl closeOpen s).rd (FLT_CNT n) = (s.closeWindow n).rd (FLT_CNT n) := by
  induction l with
  | nil => exact fun h => absurd h List.not_mem_nil
  | cons m l ih =>
    intro s n hn hon
    rw [List.foldl_cons]
    by_cases hnm : n = m
    · subst hnm
      rw [rd_foldl_closeOpen_ne l _ fun k _ hk => by
        have := (on_open_of_closeOpen hk).1
        simp only [FLT_CNT]; omega, closeOpen, if_pos hon]
    · have hother : (closeOpen s m).rd (FLT_CNT n) = s.rd (FLT_CNT n) :=
        rd_closeOpen_ne s m fun _ => by simp only [FLT_CNT]; omega
      rw [ih ((List.mem_cons.1 hn).resolve_left hnm) (by rwa [State.on_of_rd hother])]
      simp only [State.closeWindow, State.lower, State.fset, State.rd_wr_self, hother]

end Sys2Proof.Machine
end

section
/-!
SUPPORT. Proofs/Timers.lean: the timebase, its correction, the timers and the doorbells (01 R13, 13 R326, 15 R349, R352).
O30 is settled from these.
-/

namespace Sys2Proof.Machine

/-! ### The timebase (01 R13) -/

theorem State.tbRem_elapse (s : State) (dt : Nat) :
    (s.elapse dt).tbRem = if s.powered && s.sys.refclkEth then
      (s.tbRem + dt * (1000000000 + s.rate).toNat) % 1000000000 else s.tbRem := by
  have hp : ({ s.tscTick dt with clock := (s.tscTick dt).clock + dt } : State).powered = s.powered := by
    simp [State.powered]
  have hr : (s.tscTick dt).sys.refclkEth = s.sys.refclkEth := by simp
  simp only [State.elapse, hp, hr]
  split <;> simp [State.tbTick]

/-- A correction's rate is taken within 100 ppm (log entry 3). -/
def takenRate (c : TbCorrection) (s : State) : Int := if -100000 ≤ c.rate ∧ c.rate ≤ 100000 then c.rate else s.rate

theorem timebasePhaseStep_unpowered (c : TbCorrection) {s : State} (h : s.powered = false) :
    exec (.timebasePhaseStep c) s = .next s := by
  show execTimebasePhaseStep c s = _
  exact event_not _ _ _ h

/-- A correction is the rate it asks within the limit and, in BOOT and CUSTODY, its phase step. -/
theorem timebasePhaseStep_eq (c : TbCorrection) {s : State} (h : s.powered = true) :
    exec (.timebasePhaseStep c) s = .next
      (if c.phase ≠ 0 ∧ (s.sys.mode = .boot ∨ s.sys.mode = .custody) then
        State.tbStep { s with rate := takenRate c s } c.phase
       else { s with rate := takenRate c s }) := by
  show execTimebasePhaseStep c s = _
  unfold execTimebasePhaseStep takenRate
  rw [event_of _ _ _ h]
  split <;> rfl

theorem tbStep_regsOnly (s : State) (d : Int) :
    RegsOnly { s with tb := ((s.tb + d) % (2 ^ 64 : Int)).toNat } (s.tbStep d) :=
  RegsOnly.foldl (fun t n => RegsOnly.ite _ ((RegsOnly.refl t).closeWindow n) (RegsOnly.refl t)) _ _

theorem fget_tbStep_of_open {s : State} {n : Nat} (d : Int) (hn : n < 128) (hon : s.on (FLT_CNT_OPEN n) = true) :
    (s.tbStep d).fget (FLT_CNT_OPEN n) = 0 ∧ (s.tbStep d).fget (FLT_CNT_CNT n) = 0 := by
  have hcnt : (s.tbStep d).rd (FLT_CNT n) = (s.closeWindow n).rd (FLT_CNT n) :=
    rd_foldl_closeOpen_cnt (List.range 128) (List.mem_range.2 hn) hon
  exact ⟨by rw [State.fget, hcnt]; exact State.fget_open_closeWindow s n,
    by rw [State.fget, hcnt]; exact State.fget_cnt_closeWindow s n⟩

theorem rd_tbStep_ne {s : State} {r : Nat} (d : Int)
    (h : ∀ n < 128, s.on (FLT_CNT_OPEN n) = true → r ≠ FLT_CNT n) : (s.tbStep d).rd r = s.rd r :=
  rd_foldl_closeOpen_ne (List.range 128) _ fun n hn hon => h n (List.mem_range.1 hn) hon

/-! ### Timers and monitors (13 R326, 15 R352) -/

theorem timerCompare_happens (n : Fin 16) (s : State) : Happens (.timerCompare · n) s
    (fun u => u.powered = true ∧ u.on (SYS_TCTL_EN n) = true ∧ (u.rd (SYS_TCMP n)).toNat ≤ u.tb)
    (fun u => u.raise (SYS_TCTL_PEND n)) := by
  refine timed_happens (b := fun u => u.powered && u.on (SYS_TCTL_EN n) && decide ((u.rd (SYS_TCMP n)).toNat ≤ u.tb))
    (fun _ _ => rfl) fun u => ?_
  simp only [Bool.and_eq_true, decide_eq_true_eq, and_assoc]

theorem tamperMonitorArm_happens (s : State) : Happens .tamperMonitorArm s
    (fun u => u.sys.pwrGood = true ∧ u.sys.mainEn = true ∧ u.sys.armed = false ∧ u.sys.pwrGoodAt + 1000000 ≤ u.clock)
    (fun u => { u with sys := { u.sys with armed := true } }) := by
  refine timed_happens
    (b := fun u => u.sys.pwrGood && u.sys.mainEn && !u.sys.armed && decide (u.sys.pwrGoodAt + 1000000 ≤ u.clock))
    (fun _ _ => rfl) fun u => ?_
  simp only [Bool.and_eq_true, Bool.not_eq_true', decide_eq_true_eq, and_assoc]

/-! ### Doorbells and the time-stamp counter (13 R326, 15 R349) -/

theorem sysDbset_isReg : ∀ n : Fin 16, (regRow? (SYS_DBSET n)).any (isReg (SYS_DBSET n)) = true := by decide +kernel

/-- A granted write of SYS_DBSETn sets bits of SYS_DBELLn. -/
theorem doorbellSet_sets (a : Acc) (n : Fin 16) (v : Word32) (s : State) :
    Sets (.doorbellSet a n v) a (SYS_DBSET n) v s (s.doorbell n v) := by
  intro h
  obtain ⟨row, hw⟩ := exists_writeRow h (sysDbset_isReg n)
  have hn := n.isLt
  have hne : ∀ q < 0x40000600, SYS_DBSET n ≠ q := fun q hq => by simp only [SYS_DBSET]; omega
  refine hw.trans (congrArg _ ?_)
  rw [regEffect_sys (by simp only [SYS_DBSET]; omega), State.writeSys]
  simp only [hne SYS_MODEREQ (by decide), hne SYS_BOOTSTAT (by decide), hne SYS_LCADV (by decide),
    hne SYS_SVNFLOOR (by decide), hne SYS_RST (by decide), hne SYS_REPROV (by decide), if_false, setWidth_up_down]
  rw [if_neg (by simp only [SYS_DBSET]; omega), if_pos (by simp only [SYS_DBSET]; omega),
    show (SYS_DBSET n - 0x40000600) / 8 = n by simp only [SYS_DBSET]; omega]

/-- The map holds a 64-bit register at `r`. -/
def isDouble (r : Nat) : Bool :=
  (regRow? r).any fun row => decide ((row.dbl = true ∧ row.regOf r = r ∧ inRegs r = true ∧ r % 4 = 0 ∧ isStaging r = false) ∧
    regRow? (r + 4) = some row ∧ row.regOf (r + 4) = r ∧ inRegs (r + 4) = true)

theorem exists_isWord_of_isDouble {r : Nat} (h : isDouble r = true) :
    ∃ row, row.dbl = true ∧ IsWord r r row ∧ IsWord (r + 4) r row := by
  simp only [isDouble, Option.any_eq_true, decide_eq_true_eq] at h
  obtain ⟨row, hf, ⟨hd, hof, hin, hal, hst⟩, hf', hof', hin'⟩ := h
  exact ⟨row, hd, ⟨hf, hof, hin, hal, hst⟩, ⟨hf', hof', hin', by omega, hst⟩⟩

/-- One granted word write of a master is what `anyWrite` leaves. -/
theorem anyWrite_word {s : State} {a : Acc} {addr r : Nat} {v : Word32} {row : RegRow} (hw : IsWord addr r row)
    (hm : a.master ≠ .wick) (ht : s.actCheck a addr .write = none)
    (hp : a.holdsAll (writeNeeds (s.on DUO_CTRL_FORCE) r v) = true) :
    (s.anyWrite a addr 4 v.toNat).2 = s.wordWrite a row addr v := by
  rw [anyWrite_regs _ _ hm hw.inside ht, if_pos ⟨rfl, hw.aligned⟩]
  unfold State.regWrite
  simp [hw.found, hw.of, hm, hp]

theorem setWidth_halves (v : Word) :
    ((BitVec.ofNat 32 (v.toNat / 2 ^ 32)).setWidth 64 <<< 32 ||| (v.setWidth 32).setWidth 64) = v := by
  apply BitVec.eq_of_getLsbD_eq
  intro i hi
  simp only [BitVec.getLsbD_or, BitVec.getLsbD_shiftLeft, BitVec.getLsbD_setWidth, BitVec.getLsbD_ofNat,
    Nat.testBit_div_two_pow, BitVec.testBit_toNat, hi, decide_true, Bool.true_and]
  by_cases h : i < 32
  · simp [h]
  · have hlow : i - 32 < 32 := by omega
    have hback : i - 32 + 32 = i := by omega
    simp [h, hlow, hback, show i - 32 < 64 by omega]

/-- Both words of a granted 64-bit write: the register's effect with the whole value, and nothing held any more (00 R7). -/
theorem writeRow64_eq {s : State} {a : Acc} {r : Nat} {v : Word} (h : MayWrite s a r (v.setWidth 32))
    (hd : isDouble r = true) (ht : s.actCheck a (r + 4) .write = none)
    (hp : ∀ w, a.holdsAll (writeNeeds (s.on DUO_CTRL_FORCE) r w) = true) :
    ∃ row, s.writeRow64 a r v = .next (State.regEffect
      { s with heldLow := sput none (sput none s.heldLow (halfKey a r) (some (v.setWidth 32))) (halfKey a r) none }
      a row r v) := by
  obtain ⟨row, hdbl, hlow, hhigh⟩ := exists_isWord_of_isDouble hd
  refine ⟨row, ?_⟩
  have h1 : v.toNat % 2 ^ 32 = (v.setWidth 32).toNat := (BitVec.toNat_setWidth ..).symm
  have h2 : v.toNat / 2 ^ 32 = (BitVec.ofNat 32 (v.toNat / 2 ^ 32)).toNat := by
    have := v.isLt
    rw [BitVec.toNat_ofNat, Nat.mod_eq_of_lt (by omega)]
  unfold State.writeRow64
  rw [event_of _ _ _ (masterUp_of h)]
  conv_lhs => rw [h1, h2]
  rw [anyWrite_word hlow h.master h.table h.perms, wordWrite_low _ hlow hdbl,
    anyWrite_word hhigh h.master (by exact ht) (by exact hp _),
    wordWrite_high (low := v.setWidth 32) _ hhigh hdbl (sget_sput_self none s.heldLow (halfKey a r) (some (v.setWidth 32))),
    setWidth_halves]

theorem writeTmp_tscset (s : State) (a : Acc) (row : RegRow) (v : Word) :
    s.writeTmp a row TMP_TSCSET v = s.tscSet (permBit a.perms pSYS && permBit a.perms pTIME) v := by
  rw [State.writeTmp, if_neg (by decide), if_pos rfl]

theorem tmpTscset_isDouble : isDouble TMP_TSCSET = true := by decide +kernel

end Sys2Proof.Machine

namespace Sys2Proof

open Sys2Proof.Machine

/-- Settles O30: the timebase is `tb_elapse` with its fraction, a correction is its rate and the closing of windows
(`rd_foldl_closeOpen_cnt`), and the writes are their registers' effects. -/
theorem timersAndTheTimebaseAct : Obligations.TimersAndTheTimebaseAct := by
  unfold Obligations.TimersAndTheTimebaseAct
  refine ⟨fun dt s hp => ⟨State.elapse_rate s dt, fun hr => ?_, fun hr => ?_⟩, fun c s => ⟨fun hp => ?_, fun hp h => ?_,
    fun hp hne hm => ?_⟩, timerCompare_happens, doorbellSet_sets, fun a v s h ht => ?_, tamperMonitorArm_happens⟩
  · have hrun : (s.powered && s.sys.refclkEth) = true := by simp [hp, hr]
    refine ⟨_, _, Nat.mod_lt _ (by decide), (Nat.div_add_mod' _ 1000000000).symm, ?_, ?_⟩
    · rw [State.tb_elapse, if_pos hrun]
    · rw [State.tbRem_elapse, if_pos hrun]
  · have hstop : ¬(s.powered && s.sys.refclkEth) = true := by simp [hr]
    exact ⟨by rw [State.tb_elapse, if_neg hstop], by rw [State.tbRem_elapse, if_neg hstop]⟩
  · exact timebasePhaseStep_unpowered c hp
  · rw [timebasePhaseStep_eq c hp, if_neg fun k => h.elim k.1 fun hm => hm k.2]; rfl
  · refine ⟨_, by rw [timebasePhaseStep_eq c hp, if_pos ⟨hne, hm⟩], ?_, fun n hn hon => ?_, fun r hr => ?_⟩
    · exact (tbStep_regsOnly { s with rate := takenRate c s } c.phase).eq
    · exact fget_tbStep_of_open c.phase hn hon
    · exact rd_tbStep_ne c.phase hr
  · obtain ⟨row, hw⟩ := writeRow64_eq h tmpTscset_isDouble ht fun w => rfl
    refine hw.trans (congrArg _ ?_)
    rw [regEffect_tmp (by decide), writeTmp_tscset, State.tscSet]
    simp only [Bool.and_eq_true]
    rfl

end Sys2Proof
end

section
/-!
SUPPORT. Proofs/ContextFrames.lean: what the operations on contexts leave alone: the registers below the counters, and
the other contexts (03 R79, 06 Table 6.5, 04 R133).
-/

namespace Sys2Proof.Machine

/-! ### Counting leaves the registers below the counters alone (19 R418) -/

theorem State.rd_count_low (s : State) (e n : Nat) {a : Nat} (h : a < 0x41100000) : (s.count e n).rd a = s.rd a :=
  State.rd_count s e n (by simp only [PMC_CNT]; omega) (by simp only [PMC_OVF]; omega) (by simp only [PMC_SNAPC]; omega)

theorem State.rd_countBusy_low (s : State) (e n : Nat) {a : Nat} (h : a < 0x41100000) :
    (s.countBusy e n).rd a = s.rd a := by
  have hw : ∀ v, (s.wr (PMC_CNT e) v).rd a = s.rd a := fun v => State.rd_wr_ne _ _ (by simp only [PMC_CNT]; omega)
  simp only [State.countBusy]
  split
  · rfl
  · split
    · rw [State.raise, State.rd_fset_ne _ _ _ (by simp only [bitFld, PMC_OVF]; omega), hw]
    · exact hw _

/-! ### Contexts -/

@[simp] theorem State.ctx_setCtx_self (s : State) (c : Nat) (x : Ctx) : (s.setCtx c x).ctx c = x := sget_sput_self _ _ _ _

theorem State.ctx_setCtx_ne (s : State) {c y : Nat} (x : Ctx) (h : y ≠ c) : (s.setCtx c x).ctx y = s.ctx y :=
  sget_sput_ne _ _ _ _ h

theorem State.ctx_congr {s t : State} (h : t.dsp.ctxs = s.dsp.ctxs) (c : Nat) : t.ctx c = s.ctx c := by
  unfold State.ctx; rw [h]

@[simp] theorem State.wasted_dsp (s : State) (c : Nat) : (s.wasted c).dsp = s.dsp := by
  unfold State.wasted; split <;> simp

theorem State.rd_wasted (s : State) (c : Nat) {a : Nat} (h : a < 0x41100000) : (s.wasted c).rd a = s.rd a := by
  unfold State.wasted
  split
  · exact State.rd_count_low _ _ _ h
  · rfl

theorem State.rd_abortWhere (s : State) (c : Nat) (p : EngCmd → Bool) {a : Nat} (h : a < 0x41100000) :
    (s.abortWhere c p).rd a = s.rd a := by
  unfold State.abortWhere
  exact State.rd_countBusy_low _ _ _ h

/-- Aborting the commands of a context changes the stages of that context alone. -/
theorem State.exists_ctxs_abortWhere (s : State) (c : Nat) (p : EngCmd → Bool) :
    ∃ l, (s.abortWhere c p).dsp = { s.dsp with ctxs := sput {} s.dsp.ctxs c { s.ctx c with stages := l } } := by
  unfold State.abortWhere
  exact ⟨_, by rw [State.setCtx_dsp, State.countBusy_dsp]⟩

theorem State.ctx_abortAll_ne (s : State) {c y : Nat} (h : y ≠ c) : (s.abortAll c).ctx y = s.ctx y := by
  obtain ⟨l, hl⟩ := s.exists_ctxs_abortWhere c fun _ => true
  unfold State.abortAll State.ctx
  rw [hl]
  exact sget_sput_ne _ _ _ _ h

/-- The end of a context leaves the other contexts alone. -/
theorem State.ctx_endWith_ne (s : State) {c y : Nat} (r : Response) (g : Bool) (h : y ≠ c) :
    (s.endWith c r g).ctx y = s.ctx y := by
  unfold State.endWith
  rw [State.ctx_setCtx_ne _ _ h, State.ctx_abortAll_ne _ h]
  exact State.ctx_congr (congrArg DspState.ctxs (s.wasted_dsp c)) y

@[simp] theorem State.st_endWith (s : State) (c : Nat) (r : Response) (g : Bool) : ((s.endWith c r g).ctx c).st = .ending := by
  unfold State.endWith; rw [State.ctx_setCtx_self]

@[simp] theorem State.resp_endWith (s : State) (c : Nat) (r : Response) (g : Bool) :
    ((s.endWith c r g).ctx c).resp = some r := by
  unfold State.endWith; rw [State.ctx_setCtx_self]

theorem State.rd_endWith (s : State) (c : Nat) (r : Response) (g : Bool) {a : Nat} (h : a < 0x41100000) :
    (s.endWith c r g).rd a = s.rd a := by
  have hset : (s.endWith c r g).rd a = ((s.wasted c).abortAll c).rd a := rfl
  rw [hset, State.abortAll, State.rd_abortWhere _ _ _ h, State.rd_wasted _ _ h]

/-- A projection that every step of a fold keeps, the fold keeps. -/
theorem foldl_keeps {α β : Type} {f : State → α → State} (g : State → β) (hf : ∀ s a, g (f s a) = g s) (l : List α) :
    ∀ s, g (l.foldl f s) = g s := by
  induction l with
  | nil => exact fun _ => rfl
  | cons a l ih => exact fun s => (ih _).trans (hf s a)

end Sys2Proof.Machine
end

section
/-!
SUPPORT. Proofs/Binding.lean: the binding of a key (06 R172, 10 R262): what the cache holds after it, and that it leaves
the contexts alone but for the one that binds.
-/

namespace Sys2Proof.Machine

/-! ### The key cache (10 R268) -/

@[simp] theorem State.setCached_dsp (s : State) (i : Nat) (x : Option Cached) : (s.setCached i x).dsp = s.dsp := by rfl
@[simp] theorem State.cachedAt_setCached (s : State) (i : Nat) (x : Option Cached) : (s.setCached i x).cachedAt i = x :=
  sget_sput_self _ _ _ _

/-- What `makeRoom` keeps is what every dropping of a record keeps. -/
theorem State.makeRoom_keeps {β : Type} (g : State → β) (hg : ∀ s i x, g (s.setCached i x) = g s) (need n : Nat) :
    ∀ s : State, g (s.makeRoom need n) = g s := by
  induction n with
  | zero => exact fun _ => rfl
  | succ n ih =>
    intro s
    unfold State.makeRoom
    split
    · rfl
    · split
      · rfl
      · exact (ih _).trans (hg _ _ _)

/-- What `install` keeps is what every change of the cache and of its clock keeps. -/
theorem State.install_keeps {β : Type} (g : State → β) (hg : ∀ s i x, g (s.setCached i x) = g s)
    (hc : ∀ (s : State) n, g { s with kst := { s.kst with useClock := n } } = g s) (s : State) (i : Nat) :
    g (s.install i) = g s := by
  simp only [State.install]
  split
  · exact (hg _ _ _).trans (hc _ _)
  · exact (hg _ _ _).trans ((State.makeRoom_keeps g hg _ _ _).trans (hc _ _))

@[simp] theorem State.install_dsp (s : State) (i : Nat) : (s.install i).dsp = s.dsp :=
  State.install_keeps State.dsp (fun _ _ _ => rfl) (fun _ _ => rfl) s i

@[simp] theorem State.install_adm (s : State) (i : Nat) : (s.install i).adm = s.adm :=
  State.install_keeps State.adm (fun _ _ _ => rfl) (fun _ _ => rfl) s i

@[simp] theorem State.recAt_install (s : State) (i k : Nat) : (s.install i).recAt k = s.recAt k :=
  State.install_keeps (fun s => s.recAt k) (fun _ _ _ => rfl) (fun _ _ => rfl) s i

@[simp] theorem State.hotValid_install (s : State) (i : Nat) : (s.install i).kst.hotValid = s.kst.hotValid :=
  State.install_keeps (fun s => s.kst.hotValid) (fun _ _ _ => rfl) (fun _ _ => rfl) s i

/-- What is installed is in the cache. -/
theorem State.isSome_cachedAt_install (s : State) (i : Nat) : ((s.install i).cachedAt i).isSome = true := by
  simp only [State.install]
  split <;> simp

/-! ### Pins (10 R262) -/

/-- What `pinBound` keeps is what changes of the cache and the draw of a free value keep. -/
theorem State.pinBound_keeps {β : Type} (g : State → β) (hg : ∀ s i x, g (s.setCached i x) = g s)
    (hc : ∀ (s : State) n, g { s with kst := { s.kst with useClock := n } } = g s) (hd : ∀ s n, g (s.drawn n) = g s)
    (s : State) (i : Nat) : g (s.pinBound i).1 = g s := by
  have hi := State.install_keeps g hg hc s i
  simp only [State.pinBound]
  split
  · exact hi
  · split
    · exact (hg _ _ _).trans hi
    · exact (hg _ _ _).trans hi
    · exact (hd _ _).trans ((hg _ _ _).trans hi)

@[simp] theorem State.pinBound_dsp (s : State) (i : Nat) : (s.pinBound i).1.dsp = s.dsp :=
  State.pinBound_keeps State.dsp (fun _ _ _ => rfl) (fun _ _ => rfl) (fun _ _ => rfl) s i

/-- The record is pinned once more, in the slot that g2 names: its fixed slot, or else its binding slot. -/
theorem State.exists_cachedAt_pinBound (s : State) (i : Nat) :
    ∃ e, (s.pinBound i).1.cachedAt i = some e ∧ 0 < e.binds ∧
      (e.fixed.orElse fun _ => e.bindSlot) = some (s.pinBound i).2 := by
  have hin := s.isSome_cachedAt_install i
  simp only [State.pinBound]
  split
  · next hn => rw [hn] at hin; exact absurd hin Bool.false_ne_true
  · next e _ =>
    split
    · next f _ hf => exact ⟨_, State.cachedAt_setCached .., Nat.succ_pos _, by simp_all⟩
    · next b hf hb => exact ⟨_, State.cachedAt_setCached .., Nat.succ_pos _, by simp_all⟩
    · next hf hb =>
      refine ⟨{ e with binds := e.binds + 1, bindSlot := some (s.install i).pickSlot }, State.cachedAt_setCached .., Nat.succ_pos _, ?_⟩
      simp_all

/-! ### Commits and MIRRORs leave the contexts alone (10 R267, 12 R299) -/

@[simp] theorem State.setRec_dsp (s : State) (i : Nat) (r : KeyRec) : (s.setRec i r).dsp = s.dsp := by rfl
@[simp] theorem State.slotHealed_dsp (s : State) (i : Nat) : (s.slotHealed i).dsp = s.dsp := by rfl
@[simp] theorem State.destroyRec_dsp (s : State) (i : Nat) : (s.destroyRec i).dsp = s.dsp := by rfl
@[simp] theorem State.journalPut_dsp (s : State) (e : JEntry) : (s.journalPut e).dsp = s.dsp := by rfl
@[simp] theorem State.dropRaises_dsp (s : State) (cs : List (Nat × Nat × KeyRec)) : (s.dropRaises cs).dsp = s.dsp := by rfl
@[simp] theorem State.stallCommit_dsp (s : State) (w : WaitingCommit) : (s.stallCommit w).dsp = s.dsp := by rfl

@[simp] theorem State.dirty_dsp (s : State) (i : Nat) : (s.dirty i).dsp = s.dsp := by
  simp only [State.dirty]; split <;> simp

@[simp] theorem State.askRefresh_dsp (s : State) (i n : Nat) : (s.askRefresh i n).dsp = s.dsp := by
  simp only [State.askRefresh]; split <;> rfl

@[simp] theorem State.applyEntry_dsp (s : State) (e : JEntry) (b : Bool) : (s.applyEntry e b).dsp = s.dsp := by
  simp only [State.applyEntry, State.journalPut_dsp, apply_ite State.dsp, State.askRefresh_dsp, State.dirty_dsp,
    State.destroyRec_dsp, State.setRec_dsp, ite_self]

@[simp] theorem State.commit_dsp (s : State) (cs : List (Nat × Nat × KeyRec)) (b : Bool) : (s.commit cs b).1.dsp = s.dsp := by
  simp only [State.commit]
  rw [foldl_keeps State.dsp fun _ _ => State.applyEntry_dsp _ _ _]
  simp

@[simp] theorem State.usePn_dsp (s : State) (k : Nat) : (s.usePn k).dsp = s.dsp := by
  simp only [State.usePn]; split <;> split <;> rfl

@[simp] theorem State.sendFrame_dsp (s : State) (p : Fin 4) (b : List Byte) (t : Nat) : (s.sendFrame p b t).dsp = s.dsp := by
  simp only [State.sendFrame]; split <;> simp

@[simp] theorem State.sendPeerFrame_dsp (s : State) (p : Fin 4) (h b : List Byte) : (s.sendPeerFrame p h b).dsp = s.dsp := by
  simp only [State.sendPeerFrame, State.transmit]; split <;> simp

@[simp] theorem State.sendSegments_dsp (p : Fin 4) (typ jseq nseg : Nat) (b : List Byte) (n : Nat) :
    ∀ (k : Nat) (s : State), (s.sendSegments p typ jseq nseg b k n).dsp = s.dsp := by
  induction n with
  | zero => exact fun _ _ => rfl
  | succ n ih =>
    intro k s
    simp only [State.sendSegments]
    rw [ih, State.sendPeerFrame_dsp]

@[simp] theorem State.sealMirror_dsp (s : State) (j ctr : Nat) (b : List Byte) : (s.sealMirror j ctr b).dsp = s.dsp := by
  simp only [State.sealMirror, State.sendBody]; split <;> simp

@[simp] theorem State.sendMirror_dsp (s : State) (j : Nat) (es : List JEntry) (b : List Byte) :
    (s.sendMirror j es b).dsp = s.dsp := by
  simp only [State.sendMirror, apply_ite State.dsp, State.sealMirror_dsp, ite_self]

@[simp] theorem State.raiseCeil_dsp (s : State) (i : Nat) : (s.raiseCeil i).dsp = s.dsp := by
  simp only [State.raiseCeil, apply_ite State.dsp, State.sendMirror_dsp, State.commit_dsp, State.stallCommit_dsp, ite_self]

/-! ### The binding (10 R262) -/

/-- Why a binding fails: g3 (10 R262), for a context that changes no state. -/
def State.bindFault (s : State) (c : Nat) : Nat :=
  let i := handleIndex (s.ctx c).req.handle
  if s.handleMatches (s.ctx c).req.handle = false then 0x30
  else if policyOk (s.recAt i) (s.ctx c) = false then 0x31
  else if (s.recAt i).stuck = true then 0x32
  else 0

/-- What a binding leaves of the contexts: the others as they are, and its own but for what it bound. -/
def BindsAt (s t : State) (c : Nat) : Prop :=
  (∀ y, y ≠ c → t.ctx y = s.ctx y) ∧ ∃ b v u, t.ctx c = { s.ctx c with bound := b, boundVersion := v, useN := u }

theorem BindsAt.of_ctxs {s t : State} {c : Nat} (h : t.dsp.ctxs = s.dsp.ctxs) : BindsAt s t c :=
  ⟨fun y _ => State.ctx_congr h y, _, _, _, State.ctx_congr h c⟩

theorem BindsAt.trans_ctxs {s t u : State} {c : Nat} (h : BindsAt s t c) (k : u.dsp.ctxs = t.dsp.ctxs) : BindsAt s u c := by
  obtain ⟨ho, b, v, n, hc⟩ := h
  exact ⟨fun y hy => (State.ctx_congr k y).trans (ho y hy), b, v, n, (State.ctx_congr k c).trans hc⟩

theorem BindsAt.setCtx {s t : State} {c : Nat} (h : t.dsp.ctxs = s.dsp.ctxs) (b : Option Nat) (v : Nat) (u : Option Nat) :
    BindsAt s (t.setCtx c { t.ctx c with bound := b, boundVersion := v, useN := u }) c :=
  ⟨fun y hy => (State.ctx_setCtx_ne _ _ hy).trans (State.ctx_congr h y), b, v, u, by
    rw [State.ctx_setCtx_self, State.ctx_congr h c]⟩

theorem State.bindKey_bindsAt (s : State) (c : Nat) : BindsAt s (s.bindKey c).1 c := by
  have hpin := s.pinBound_dsp (handleIndex (s.ctx c).req.handle)
  simp only [State.bindKey]
  split
  · exact .of_ctxs rfl
  split
  · exact .of_ctxs rfl
  split
  · exact .of_ctxs rfl
  split
  · exact .of_ctxs rfl
  split
  · refine .of_ctxs (congrArg DspState.ctxs ?_)
    split
    · rw [State.raiseCeil_dsp]; rfl
    · rfl
  split
  · refine (BindsAt.setCtx (congrArg DspState.ctxs hpin) (some (handleIndex (s.ctx c).req.handle))
      (s.recAt (handleIndex (s.ctx c).req.handle)).version
      (some (sget 0 s.kst.nexts (handleIndex (s.ctx c).req.handle)))).trans_ctxs ?_
    split
    · rw [State.raiseCeil_dsp]; rfl
    · rfl
  · exact BindsAt.setCtx (congrArg DspState.ctxs hpin) _ _ _

theorem policyOk_counted {r : KeyRec} {x : Ctx} (h : policyOk r x = true) (hx : x.isState = false) : r.counted = false := by
  simp only [policyOk, Bool.and_eq_true, Bool.or_eq_true, Bool.not_eq_true', hx, Bool.false_eq_true, or_false] at h
  exact h.2

theorem State.bindKey_none {s : State} {c : Nat} (h : (s.ctx c).req.handle = 0) : s.bindKey c = (s, 0, 0) := by
  simp only [State.bindKey, if_pos h]

/-- A context that changes no state: a binding that fails leaves everything as it is. -/
theorem State.bindKey_fails {s : State} {c : Nat} (h : (s.ctx c).req.handle ≠ 0)
    (hf : s.bindFault c ≠ 0) : s.bindKey c = (s, 0, s.bindFault c) := by
  unfold State.bindKey
  unfold State.bindFault at hf ⊢
  simp only [if_neg h]
  by_cases hm : s.handleMatches (s.ctx c).req.handle = false
  · simp [hm]
  by_cases hp : policyOk (s.recAt (handleIndex (s.ctx c).req.handle)) (s.ctx c) = false
  · simp [hm, hp]
  by_cases hk : (s.recAt (handleIndex (s.ctx c).req.handle)).stuck = true
  · simp [hm, hp, hk]
  · exact absurd (by simp [hm, hp, hk]) hf

/-- A context that changes no state: a binding that is permitted pins the record. -/
theorem State.bindKey_binds {s : State} {c : Nat} (h : (s.ctx c).req.handle ≠ 0) (hs : (s.ctx c).isState = false)
    (hf : s.bindFault c = 0) :
    s.bindKey c = ((s.pinBound (handleIndex (s.ctx c).req.handle)).1.setCtx c
      { (s.pinBound (handleIndex (s.ctx c).req.handle)).1.ctx c with
        bound := some (handleIndex (s.ctx c).req.handle)
        boundVersion := (s.recAt (handleIndex (s.ctx c).req.handle)).version, useN := none },
      (s.pinBound (handleIndex (s.ctx c).req.handle)).2, 0) := by
  unfold State.bindFault at hf
  by_cases hm : s.handleMatches (s.ctx c).req.handle = false
  · simp [hm] at hf
  by_cases hp : policyOk (s.recAt (handleIndex (s.ctx c).req.handle)) (s.ctx c) = false
  · simp [hm, hp] at hf
  by_cases hk : (s.recAt (handleIndex (s.ctx c).req.handle)).stuck = true
  · simp [hm, hp, hk] at hf
  have hcnt := policyOk_counted (Bool.not_eq_false _ ▸ hp) hs
  simp only [State.bindKey, if_neg h, hm, hp, hk, hcnt, Bool.false_and, Bool.false_or, Bool.not_true,
    Bool.false_eq_true, if_false]

end Sys2Proof.Machine
end

section
/-!
SUPPORT. Proofs/FetchEnds.lean: how the fetch of a context ends (06 R177, 10 R262, R265, R266), and which entry a unit
takes (03 R73).
-/

namespace Sys2Proof.Machine

/-! ### The context becomes READY (06 R177) -/

/-- The registers of a context are no part of its ledger entry. -/
theorem State.ctx_withRegs (s : State) (r : Sparse Core) (c : Nat) :
    ({ s with dsp := { s.dsp with regs := r } } : State).ctx c = s.ctx c := by rfl

theorem State.ctx_makeReady_self (s : State) (c : Nat) :
    (s.makeReady c).ctx c = { (s.bindKey c).1.ctx c with st := .ready } := by
  simp only [State.makeReady]
  split
  · exact State.ctx_setCtx_self _ _ _
  · rw [State.ctx_withRegs, State.ctx_setCtx_self]

theorem State.ctx_makeReady_ne (s : State) {c y : Nat} (h : y ≠ c) : (s.makeReady c).ctx y = (s.bindKey c).1.ctx y := by
  simp only [State.makeReady]
  split
  · exact State.ctx_setCtx_ne _ _ h
  · rw [State.ctx_withRegs, State.ctx_setCtx_ne _ _ h]

theorem State.cachedAt_makeReady (s : State) (c i : Nat) : (s.makeReady c).cachedAt i = (s.bindKey c).1.cachedAt i := by
  simp only [State.makeReady]
  split <;> rfl

theorem sget_firstRegs_g2 (s : State) (c g2 g3 : Nat) : sget 0 (s.firstRegs c g2 g3).g 2 = BitVec.ofNat 64 g2 := by
  simp [State.firstRegs, sget_sput]

theorem sget_firstRegs_g3 (s : State) (c g2 g3 : Nat) : sget 0 (s.firstRegs c g2 g3).g 3 = BitVec.ofNat 64 g3 := by
  simp [State.firstRegs, sget_sput]

/-- A context that is not NOP's starts with what its binding gave in g2 and g3 (06 Table 6.4). -/
theorem State.regs_makeReady {s : State} {c : Nat} (h : ((s.bindKey c).1.ctx c).nop = false) :
    sget 0 (sget {} (s.makeReady c).dsp.regs c).g 2 = BitVec.ofNat 64 (s.bindKey c).2.1 ∧
    sget 0 (sget {} (s.makeReady c).dsp.regs c).g 3 = BitVec.ofNat 64 (s.bindKey c).2.2 := by
  simp only [State.makeReady, State.ctx_setCtx_self, h, Bool.false_eq_true, if_false, sget_sput_self, sget_firstRegs_g2,
    sget_firstRegs_g3, and_self]

/-! ### Fetches that verify (10 R265, R266) -/

theorem fetching_iff (x : Ctx) : fetching x = true ↔
    x.st = .fetch ∧ ∃ l ∈ x.stages, (l.pool = 3 ∨ l.pool = 4) ∧ l.started = true ∧ l.done = false := by
  simp [fetching, and_assoc]

theorem State.fetchVerifies_iff (s : State) (hot : Bool) (i : Nat) (ok : Bool) : s.fetchVerifies hot i ok = true ↔
    ok = true ∧ (hot = true ∨ (s.sealedAt i).image.type = 0 ∨
      ((s.sealedAt i).bad = false ∧ (s.sealedAt i).key = s.kst.sealingKey)) := by
  simp [State.fetchVerifies, or_assoc]

@[simp] theorem State.fetched_dsp (s : State) (i : Nat) : (s.fetched i).dsp = s.dsp := by
  unfold State.fetched; split <;> simp

@[simp] theorem State.fetched_adm (s : State) (i : Nat) : (s.fetched i).adm = s.adm := by
  unfold State.fetched; split <;> simp

@[simp] theorem State.recAt_fetched (s : State) (i k : Nat) : (s.fetched i).recAt k = s.recAt k := by
  unfold State.fetched; split <;> simp

@[simp] theorem State.hotValid_fetched (s : State) (i : Nat) : (s.fetched i).kst.hotValid = s.kst.hotValid := by
  unfold State.fetched; split <;> simp

theorem State.isSome_cachedAt_fetched {s : State} {i : Nat} (h : s.hasRec i = true) :
    ((s.fetched i).cachedAt i).isSome = true := by
  rw [State.fetched, if_pos h]
  exact s.isSome_cachedAt_install i

/-- Which handles match is a matter of the records alone. -/
theorem State.handleMatches_congr {s t : State} (h : ∀ k, t.recAt k = s.recAt k) (n : Nat) :
    t.handleMatches n = s.handleMatches n := by
  simp only [State.handleMatches, h]

/-! ### Fetches that fail (10 R265, R266) -/

theorem State.on_valid_logIntegrity (s : State) (tier i : Nat) : (s.logIntegrity tier i).on KST_INTLOG_VALID = true := by
  unfold State.logIntegrity
  split
  · next h => rwa [State.on_raise_apart _ _ _ (by simp [Fld.fits]) (by simp [Fld.apart])]
  · exact State.on_raise_self _ _ (by simp [Fld.fits]) (by simp)

@[simp] theorem State.logIntegrity_dsp (s : State) (tier i : Nat) : (s.logIntegrity tier i).dsp = s.dsp := by
  unfold State.logIntegrity; split <;> simp

@[simp] theorem State.logIntegrity_adm (s : State) (tier i : Nat) : (s.logIntegrity tier i).adm = s.adm := by
  unfold State.logIntegrity; split <;> simp

@[simp] theorem State.logIntegrity_kst (s : State) (tier i : Nat) : (s.logIntegrity tier i).kst = s.kst := by
  unfold State.logIntegrity; split <;> simp

@[simp] theorem State.spoilFrames_dsp (s : State) (i : Nat) : (s.spoilFrames i).dsp = s.dsp := by
  unfold State.spoilFrames; split; · rfl
  split <;> rfl

@[simp] theorem State.spoilFrames_adm (s : State) (i : Nat) : (s.spoilFrames i).adm = s.adm := by
  unfold State.spoilFrames; split; · rfl
  split <;> rfl

@[simp] theorem State.cached_spoilFrames (s : State) (i : Nat) : (s.spoilFrames i).kst.cached = s.kst.cached := by
  unfold State.spoilFrames; split; · rfl
  split <;> rfl

/-- An integrity failure leaves the contexts, the admission unit and the cache alone, and the log captures it. -/
theorem State.integrityFailure_frame (s : State) (hot : Bool) (i : Nat) :
    (s.integrityFailure hot i).dsp = s.dsp ∧ (s.integrityFailure hot i).adm = s.adm ∧
    (s.integrityFailure hot i).kst.cached = s.kst.cached ∧ (s.integrityFailure hot i).on KST_INTLOG_VALID = true := by
  have hlog : ∀ (t : State) (f : Fld) (n : Nat), f.fits → f.apart KST_INTLOG_VALID → n < 128 →
      ((t.raise f).signal n 0).on KST_INTLOG_VALID = t.on KST_INTLOG_VALID := by
    intro t f n hf ha hn
    rw [State.on_of_rd (State.rd_signal _ _ _ (by simp only [KST_INTLOG, FLT_STKY]; omega)
      (by simp only [KST_INTLOG, FLT_SEV]; omega) (by simp only [KST_INTLOG, FLT_CNT]; omega))]
    exact State.on_raise_apart _ _ _ hf ha
  cases hot with
  | true =>
    refine ⟨by simp [State.integrityFailure, State.hotFailure], by simp [State.integrityFailure, State.hotFailure], by
      simp [State.integrityFailure, State.hotFailure], ?_⟩
    simp only [State.integrityFailure, State.hotFailure, if_true]
    rw [hlog _ _ _ (by simp [Fld.fits]) (by simp [Fld.apart]) (by omega)]
    exact State.on_valid_logIntegrity _ _ _
  | false =>
    refine ⟨by simp [State.integrityFailure, State.sealFailure], by simp [State.integrityFailure, State.sealFailure], by
      simp [State.integrityFailure, State.sealFailure], ?_⟩
    simp only [State.integrityFailure, State.sealFailure, Bool.false_eq_true, if_false]
    rw [hlog _ _ _ (by simp [Fld.fits]) (by simp [Fld.apart]) (by omega)]
    exact State.on_valid_logIntegrity _ _ _

/-! ### The entry of least key (03 R73) -/

theorem Ctx.before_irrefl (a : Ctx) : a.before a = false := by
  unfold Ctx.before; split <;> simp_all

/-- Ranking is transitive through its complement: what does not rank before the least does not rank before one it beats. -/
theorem Ctx.not_before_trans {a b c : Ctx} (h : a.before b = false) (k : b.before c = false) : a.before c = false := by
  unfold Ctx.before at *
  rcases ha : a.key with _ | x <;> rcases hb : b.key with _ | y <;> rcases hc : c.key with _ | z <;>
    simp only [ha, hb, hc, decide_eq_false_iff_not, Bool.or_eq_false_iff, Bool.and_eq_false_iff, reduceCtorEq] at h k ⊢ <;>
    omega

theorem Ctx.before_asymm {a b : Ctx} (h : a.before b = true) : b.before a = false := by
  unfold Ctx.before at *
  rcases ha : a.key with _ | x <;> rcases hb : b.key with _ | y <;>
    simp only [ha, hb, decide_eq_false_iff_not, decide_eq_true_eq, Bool.or_eq_true, Bool.and_eq_true, Bool.or_eq_false_iff,
      Bool.and_eq_false_iff, reduceCtorEq] at h ⊢ <;>
    omega

theorem firstByKey_eq_none {l : List (Nat × Ctx)} : firstByKey l = none ↔ l = [] := by
  cases l with
  | nil => simp [firstByKey]
  | cons e l =>
    simp only [firstByKey, reduceCtorEq, iff_false]
    split
    · exact Option.some_ne_none _
    · split <;> exact Option.some_ne_none _

/-- The entry of least key is one of the list, and none of the list ranks before it. -/
theorem firstByKey_least : ∀ {l : List (Nat × Ctx)} {m : Nat × Ctx}, firstByKey l = some m →
    m ∈ l ∧ ∀ e ∈ l, e.2.before m.2 = false
  | [], _, h => by simp [firstByKey] at h
  | e :: l, m, h => by
    unfold firstByKey at h
    split at h
    · next hn =>
      obtain rfl := Option.some.inj h
      obtain rfl := firstByKey_eq_none.mp hn
      exact ⟨List.mem_singleton_self _, fun d hd => List.mem_singleton.mp hd ▸ Ctx.before_irrefl _⟩
    · next k hk =>
      obtain ⟨hmem, hleast⟩ := firstByKey_least hk
      split at h
      · next hb =>
        obtain rfl := Option.some.inj h
        exact ⟨List.mem_cons_of_mem _ hmem, List.forall_mem_cons.mpr ⟨Ctx.before_asymm hb, hleast⟩⟩
      · next hb =>
        obtain rfl := Option.some.inj h
        exact ⟨List.mem_cons_self, List.forall_mem_cons.mpr ⟨Ctx.before_irrefl _, fun d hd =>
          Ctx.not_before_trans (hleast d hd) (Bool.eq_false_iff.mpr hb)⟩⟩

end Sys2Proof.Machine
end

section
/-!
SUPPORT. Proofs/ContextAdvance.lean: fetches, dispatches and stage starts, and O37.
-/

namespace Sys2Proof.Machine

/-! ### The fetch of a context ends (06 R177) -/

/-- Context `c` with its fetch stage completed. -/
def State.fetchDone (s : State) (c : Nat) : State :=
  s.setCtx c { s.ctx c with
    stages := completeStage (fun l => decide (l.pool = 3) || decide (l.pool = 4)) (s.ctx c).stages }

/-- The context's fetch verified: its record is in the cache, and its key is bound. -/
def State.boundAfterFetch (s : State) (c : Nat) : State × Nat × Nat :=
  ((s.fetchDone c).fetched (handleIndex (s.ctx c).req.handle)).bindKey c

theorem State.fetchEnds_of_verifies {s : State} {c : Nat} {ok : Bool}
    (h : s.fetchVerifies ((s.ctx c).stages.any fun l => decide (l.pool = 3)) (handleIndex (s.ctx c).req.handle) ok = true) :
    s.fetchEnds c ok =
      let t := ((s.fetchDone c).fetched (handleIndex (s.ctx c).req.handle)).makeReady c
      if (s.ctx c).fell then t.endWith c noLanternResp else t :=
  if_pos (c := State.fetchVerifies (s.fetchDone c) _ _ ok = true) h

theorem State.fetchEnds_of_fails {s : State} {c : Nat} {ok : Bool}
    (h : s.fetchVerifies ((s.ctx c).stages.any fun l => decide (l.pool = 3)) (handleIndex (s.ctx c).req.handle) ok ≠ true) :
    s.fetchEnds c ok =
      let hot := (s.ctx c).stages.any fun l => decide (l.pool = 3)
      ((s.fetchDone c).integrityFailure hot (handleIndex (s.ctx c).req.handle)).endWith c (faultResp 7 (if hot then 1 else 2)) :=
  if_neg (c := State.fetchVerifies (s.fetchDone c) _ _ ok = true) h

/-- The state in which the key is bound has the fetched context with its stage completed, and the others as they were. -/
theorem State.ctx_fetched_fetchDone (s : State) (c i : Nat) :
    ((s.fetchDone c).fetched i).ctx c = { s.ctx c with
      stages := completeStage (fun l => decide (l.pool = 3) || decide (l.pool = 4)) (s.ctx c).stages } ∧
    ∀ y, y ≠ c → ((s.fetchDone c).fetched i).ctx y = s.ctx y :=
  have hc := fun y => State.ctx_congr (congrArg DspState.ctxs (State.fetched_dsp (s.fetchDone c) i)) y
  ⟨(hc c).trans (State.ctx_setCtx_self _ _ _), fun y hy => (hc y).trans (State.ctx_setCtx_ne _ _ hy)⟩

theorem State.ctx_boundAfterFetch_ne (s : State) {c y : Nat} (h : y ≠ c) : (s.boundAfterFetch c).1.ctx y = s.ctx y :=
  ((State.bindKey_bindsAt _ c).1 y h).trans ((s.ctx_fetched_fetchDone c _).2 y h)

/-- The binding of a fetched context changes what it bound, and completes its stage. -/
theorem State.exists_ctx_boundAfterFetch (s : State) (c : Nat) : ∃ b v u, (s.boundAfterFetch c).1.ctx c = { s.ctx c with
    stages := completeStage (fun l => decide (l.pool = 3) || decide (l.pool = 4)) (s.ctx c).stages
    bound := b, boundVersion := v, useN := u } := by
  obtain ⟨-, b, v, u, h⟩ := State.bindKey_bindsAt ((s.fetchDone c).fetched (handleIndex (s.ctx c).req.handle)) c
  rw [(s.ctx_fetched_fetchDone c _).1] at h
  exact ⟨b, v, u, h⟩

theorem policyOk_stages (r : KeyRec) (x : Ctx) (l : List LStage) : policyOk r { x with stages := l } = policyOk r x := by rfl

/-- The fetch does not change why a binding fails. -/
theorem State.bindFault_fetched (s : State) (c : Nat) :
    ((s.fetchDone c).fetched (handleIndex (s.ctx c).req.handle)).bindFault c = s.bindFault c := by
  have hrec : ∀ k, ((s.fetchDone c).fetched (handleIndex (s.ctx c).req.handle)).recAt k = s.recAt k :=
    fun k => State.recAt_fetched _ _ k
  simp only [State.bindFault, (s.ctx_fetched_fetchDone c _).1, hrec, State.handleMatches_congr hrec, policyOk_stages]

/-- The record a context named is in the cache when its fetch has verified and its key is bound. -/
theorem State.isSome_cachedAt_boundAfterFetch {s : State} {c : Nat} (hs : (s.ctx c).isState = false)
    (h : s.hasRec (handleIndex (s.ctx c).req.handle) = true) :
    ((s.boundAfterFetch c).1.cachedAt (handleIndex (s.ctx c).req.handle)).isSome = true := by
  have hx := (s.ctx_fetched_fetchDone c (handleIndex (s.ctx c).req.handle)).1
  have hin := State.isSome_cachedAt_fetched (s := s.fetchDone c) h
  unfold State.boundAfterFetch
  by_cases hz : (s.ctx c).req.handle = 0
  · rw [State.bindKey_none (by rw [hx]; exact hz)]
    exact hin
  by_cases hf : s.bindFault c = 0
  · rw [State.bindKey_binds (by rw [hx]; exact hz) (by rw [hx]; exact hs) (by rw [State.bindFault_fetched, hf])]
    obtain ⟨e, he, -⟩ := State.exists_cachedAt_pinBound ((s.fetchDone c).fetched (handleIndex (s.ctx c).req.handle))
      (handleIndex (s.ctx c).req.handle)
    rw [hx]
    exact Option.isSome_of_eq_some he
  · rw [State.bindKey_fails (by rw [hx]; exact hz) (by rw [State.bindFault_fetched]; exact hf)]
    exact hin

/-- g3 of a context that names a key and changes no state. -/
theorem State.g3_boundAfterFetch {s : State} {c : Nat} (hs : (s.ctx c).isState = false) (hz : (s.ctx c).req.handle ≠ 0) :
    (s.boundAfterFetch c).2.2 = s.bindFault c := by
  have hx := (s.ctx_fetched_fetchDone c (handleIndex (s.ctx c).req.handle)).1
  unfold State.boundAfterFetch
  by_cases hf : s.bindFault c = 0
  · rw [State.bindKey_binds (by rw [hx]; exact hz) (by rw [hx]; exact hs) (by rw [State.bindFault_fetched, hf]), hf]
  · rw [State.bindKey_fails (by rw [hx]; exact hz) (by rw [State.bindFault_fetched]; exact hf), State.bindFault_fetched]

/-- A binding that is permitted pins the record, in the slot of g2. -/
theorem State.pins_boundAfterFetch {s : State} {c : Nat} (hs : (s.ctx c).isState = false) (hz : (s.ctx c).req.handle ≠ 0)
    (hf : s.bindFault c = 0) :
    let k := handleIndex (s.ctx c).req.handle
    let t := (s.boundAfterFetch c).1
    (t.ctx c).bound = some k ∧ (t.ctx c).boundVersion = (s.recAt k).version ∧ (t.ctx c).useN = none ∧
      ∃ e, t.cachedAt k = some e ∧ 0 < e.binds ∧ (e.fixed.orElse fun _ => e.bindSlot) = some (s.boundAfterFetch c).2.1 := by
  have hx := (s.ctx_fetched_fetchDone c (handleIndex (s.ctx c).req.handle)).1
  unfold State.boundAfterFetch
  rw [State.bindKey_binds (by rw [hx]; exact hz) (by rw [hx]; exact hs) (by rw [State.bindFault_fetched, hf])]
  simp only [State.ctx_setCtx_self, State.recAt_fetched, hx, true_and]
  exact ⟨rfl, State.exists_cachedAt_pinBound _ _⟩

/-- FETCH_COMPLETE on a context that is not in its fetch does nothing. -/
theorem fetchComplete_idle {dt : Nat} {c : Fin 8192} {ok : Bool} {s : State} (h : fetching ((s.elapse dt).ctx c) = false) :
    exec (.fetchComplete dt c ok) s = .next (s.elapse dt) :=
  timed_neg (c := fun s => fetching (s.ctx c.val)) (f := fun s => s.fetchEnds c.val ok) h

theorem fetchComplete_ends {dt : Nat} {c : Fin 8192} {ok : Bool} {s : State} (h : fetching ((s.elapse dt).ctx c) = true) :
    exec (.fetchComplete dt c ok) s = .next ((s.elapse dt).fetchEnds c ok) :=
  timed_pos (c := fun s => fetching (s.ctx c.val)) (f := fun s => s.fetchEnds c.val ok) h

/-- The end of a fetch that verifies, of an entry for which the Lantern fell (03 R88). -/
theorem State.fetchEnds_fell {s : State} {c : Nat} {ok : Bool}
    (h : s.fetchVerifies ((s.ctx c).stages.any fun l => decide (l.pool = 3)) (handleIndex (s.ctx c).req.handle) ok = true)
    (hf : (s.ctx c).fell = true) :
    ((s.fetchEnds c ok).ctx c).st = .ending ∧ ((s.fetchEnds c ok).ctx c).resp = some noLanternResp ∧
      ∀ y, y ≠ c → (s.fetchEnds c ok).ctx y = s.ctx y := by
  rw [State.fetchEnds_of_verifies h]
  simp only [hf, if_true]
  exact ⟨State.st_endWith _ _ _ _, State.resp_endWith _ _ _ _, fun y hy => by
    rw [State.ctx_endWith_ne _ _ _ hy, State.ctx_makeReady_ne _ hy]
    exact s.ctx_boundAfterFetch_ne hy⟩

/-- The end of a fetch that does not verify (10 R265, R266). -/
theorem State.fetchEnds_failed {s : State} {c : Nat} {ok : Bool}
    (h : s.fetchVerifies ((s.ctx c).stages.any fun l => decide (l.pool = 3)) (handleIndex (s.ctx c).req.handle) ok ≠ true) :
    ((s.fetchEnds c ok).ctx c).st = .ending ∧ (s.fetchEnds c ok).on KST_INTLOG_VALID = true ∧
      ((s.fetchEnds c ok).ctx c).resp =
        some (faultResp 7 (if ((s.ctx c).stages.any fun l => decide (l.pool = 3)) = true then 1 else 2)) ∧
      ∀ y, y ≠ c → (s.fetchEnds c ok).ctx y = s.ctx y := by
  rw [State.fetchEnds_of_fails h]
  obtain ⟨hdsp, -, -, hlog⟩ := State.integrityFailure_frame (s.fetchDone c)
    ((s.ctx c).stages.any fun l => decide (l.pool = 3)) (handleIndex (s.ctx c).req.handle)
  refine ⟨State.st_endWith _ _ _ _, ?_, State.resp_endWith _ _ _ _, fun y hy => ?_⟩
  · rw [State.on_of_rd (State.rd_endWith _ _ _ _ (by decide))]
    exact hlog
  · rw [State.ctx_endWith_ne _ _ _ hy, State.ctx_congr (congrArg DspState.ctxs hdsp)]
    exact State.ctx_setCtx_ne _ _ hy

/-- The end of a fetch that verifies, of a context that changes no state. -/
theorem State.fetchEnds_ready {s : State} {c : Nat} {ok : Bool}
    (h : s.fetchVerifies ((s.ctx c).stages.any fun l => decide (l.pool = 3)) (handleIndex (s.ctx c).req.handle) ok = true)
    (hf : (s.ctx c).fell = false) (hs : (s.ctx c).isState = false) :
    let x := s.ctx c
    let k := handleIndex x.req.handle
    let t := s.fetchEnds c ok
    (t.ctx c).st = .ready ∧ (t.ctx c).stages = completeStage (fun l => decide (l.pool = 3) || decide (l.pool = 4)) x.stages ∧
      (t.ctx c).key = x.key ∧ (∀ y, y ≠ c → t.ctx y = s.ctx y) ∧ (s.hasRec k = true → (t.cachedAt k).isSome = true) ∧
      (x.req.handle ≠ 0 → x.nop = false → sget 0 (sget {} t.dsp.regs c).g 3 = BitVec.ofNat 64 (s.bindFault c)) ∧
      (x.req.handle ≠ 0 → s.bindFault c = 0 → (t.ctx c).bound = some k ∧ (t.ctx c).boundVersion = (s.recAt k).version ∧
        (t.ctx c).useN = none ∧ ∃ e, t.cachedAt k = some e ∧ 0 < e.binds ∧
          ∃ slot, (e.fixed.orElse fun _ => e.bindSlot) = some slot ∧
            (x.nop = false → sget 0 (sget {} t.dsp.regs c).g 2 = BitVec.ofNat 64 slot)) := by
  intro x k t
  let b := (s.fetchDone c).fetched k
  have ht : t = b.makeReady c := by
    simp only [t, State.fetchEnds_of_verifies h, hf, Bool.false_eq_true, if_false]
    rfl
  obtain ⟨bd, v, u, hctx⟩ := s.exists_ctx_boundAfterFetch c
  have hself : t.ctx c = { (s.boundAfterFetch c).1.ctx c with st := .ready } := by
    rw [ht]; exact b.ctx_makeReady_self c
  have hcached : t.cachedAt k = (s.boundAfterFetch c).1.cachedAt k := by
    rw [ht]; exact b.cachedAt_makeReady c k
  have hregs : x.nop = false → sget 0 (sget {} t.dsp.regs c).g 2 = BitVec.ofNat 64 (s.boundAfterFetch c).2.1 ∧
      sget 0 (sget {} t.dsp.regs c).g 3 = BitVec.ofNat 64 (s.boundAfterFetch c).2.2 := by
    intro hn
    rw [ht]
    exact State.regs_makeReady ((congrArg Ctx.nop hctx).trans hn)
  refine ⟨by rw [hself], by rw [hself, hctx], by rw [hself, hctx], fun y hy => ?_, fun hr => ?_, fun hz hn => ?_,
    fun hz hw => ?_⟩
  · rw [ht, State.ctx_makeReady_ne _ hy]
    exact s.ctx_boundAfterFetch_ne hy
  · rw [hcached]
    exact State.isSome_cachedAt_boundAfterFetch hs hr
  · rw [(hregs hn).2, State.g3_boundAfterFetch hs hz]
  · obtain ⟨h1, h2, h3, e, he, hb, hslot⟩ := State.pins_boundAfterFetch hs hz hw
    exact ⟨by rw [hself]; exact h1, by rw [hself]; exact h2, by rw [hself]; exact h3, e, hcached.trans he, hb, _, hslot,
      fun hn => (hregs hn).1⟩

/-! ### Dispatch (06 R177) -/

/-- CONTEXT_DISPATCH on a core that is not free does nothing. -/
theorem contextDispatch_idle {dt : Nat} {k : Fin 64} {s : State}
    (h : ((s.elapse dt).powered && ((s.elapse dt).ctxOn k).isNone) = false) :
    exec (.contextDispatch dt k) s = .next (s.elapse dt) :=
  timed_neg (c := fun s => s.powered && (s.ctxOn k).isNone) (f := fun s => s.dispatch k) h

theorem contextDispatch_takes {dt : Nat} {k : Fin 64} {s : State}
    (h : ((s.elapse dt).powered && ((s.elapse dt).ctxOn k).isNone) = true) :
    exec (.contextDispatch dt k) s = .next ((s.elapse dt).dispatch k) :=
  timed_pos (c := fun s => s.powered && (s.ctxOn k).isNone) (f := fun s => s.dispatch k) h

theorem State.dispatch_none {s : State} {k : Fin 64} (h : (s.live.filter fun e => s.scMayRun e.1 e.2) = []) :
    s.dispatch k = s := by
  simp only [State.dispatch, h, firstByKey]

/-- The stages of a context that a service core takes. -/
def State.scTaken (s : State) (c : Nat) (x : Ctx) : List LStage :=
  match s.scStage c with
  | some l => startStage (fun y => decide (y.pool = 0) && decide (y.index = l.index)) x.stages
  | none => x.stages

theorem State.dispatch_some {s : State} {k : Fin 64} {c : Nat} {x : Ctx}
    (h : firstByKey (s.live.filter fun e => s.scMayRun e.1 e.2) = some (c, x)) :
    s.dispatch k = (s.setCtx c { x with st := .running, core := some k, stages := s.scTaken c x }).count (0x102 + 4 * k.val) 1 := by
  simp only [State.dispatch, h]
  rfl

/-! ### Stage starts (03 R73, R80) -/

theorem State.fetchStart_behind {s : State} {pool : Nat} (h : s.readyFor pool = []) : s.fetchStart pool = s.beStart pool := by
  simp only [State.fetchStart, h, firstByKey]

theorem State.fetchStart_some {s : State} {pool c : Nat} {x : Ctx} (h : firstByKey (s.readyFor pool) = some (c, x)) :
    s.fetchStart pool =
      (s.setCtx c { x with stages := startStage (fun l => decide (l.pool = pool)) x.stages }).count (0x04E + pool) 1 := by
  simp only [State.fetchStart, h]

/-- An entry in FETCH waits for the pool. -/
def State.keyedFor (s : State) (pool : Nat) : Bool :=
  s.live.any fun e => decide (e.2.st = .fetch) && (nextStage e.2 pool).isSome

theorem State.keyedFor_iff (s : State) (pool : Nat) :
    s.keyedFor pool = true ↔ ∃ e ∈ s.live, e.2.st = .fetch ∧ (nextStage e.2 pool).isSome = true := by
  simp [State.keyedFor]

theorem State.beStart_none {s : State} {pool : Nat} (h : s.keyedFor pool = true ∨ s.mayRun pool {} (s.beStage pool) = false ∨
    (s.adm.beFetch.find? fun i => decide (s.tier i = if pool = 3 then Tier.hot else Tier.seal)) = none) :
    s.beStart pool = s := by
  unfold State.beStart
  split
  · rfl
  · next hn =>
    rw [Bool.or_eq_true, not_or, Bool.not_eq_true'] at hn
    rcases h with h | h | h
    · exact absurd h hn.1
    · exact absurd h hn.2
    · rw [h]

theorem State.beStart_some {s : State} {pool i : Nat} (hk : s.keyedFor pool = false)
    (hm : s.mayRun pool {} (s.beStage pool) = true)
    (hq : (s.adm.beFetch.find? fun i => decide (s.tier i = if pool = 3 then Tier.hot else Tier.seal)) = some i) :
    s.beStart pool = { s.count (0x04E + pool) 1 with adm := { s.adm with
      beFetch := s.adm.beFetch.erase i, beRun := s.adm.beRun ++ [(i, s.beStage pool)] } } := by
  unfold State.beStart
  rw [← State.keyedFor, if_neg (by rw [hk, hm]; decide), hq]

theorem State.mirStart_none {s : State} (h : (s.live.filter fun e => mirReady e.2 && s.nextMayRun 5 e.2) = []) :
    s.mirStart = s := by
  simp only [State.mirStart, h, firstByKey]

theorem State.mirStart_some {s : State} {c : Nat} {x : Ctx}
    (h : firstByKey (s.live.filter fun e => mirReady e.2 && s.nextMayRun 5 e.2) = some (c, x)) :
    s.mirStart = (s.setCtx c { x with stages := startStage (fun l => decide (l.pool = 5)) x.stages }).sendCommit c := by
  simp only [State.mirStart, h]

theorem stageStart_fetch {dt : Nat} {p : Fin 3} {s : State} (h : p.val < 2) :
    exec (.stageStart dt p) s = .next ((s.elapse dt).fetchStart (3 + p.val)) :=
  congrArg Host.Outcome.next (if_neg (Nat.ne_of_lt h))

theorem stageStart_mir {dt : Nat} {p : Fin 3} {s : State} (h : p.val = 2) :
    exec (.stageStart dt p) s = .next (s.elapse dt).mirStart :=
  congrArg Host.Outcome.next (if_pos h)

/-! ### Best-effort fetches (03 R80) -/

/-- What the end of the best-effort fetch of index `i` leaves. -/
theorem State.bestEffortEnds_cons {s : State} {ok : Bool} {i : Nat} {l : LStage} {rest : List (Nat × LStage)}
    (h : s.adm.beRun = (i, l) :: rest) :
    s.bestEffortEnds ok =
      let t := { s with adm := { s.adm with beRun := rest } }
      if s.fetchVerifies (decide (l.pool = 3)) i ok = true then t.fetched i else t.integrityFailure (decide (l.pool = 3)) i := by
  simp only [State.bestEffortEnds, h]
  rfl

theorem bestEffortFetchDone_eq (dt : Nat) (ok : Bool) (s : State) :
    exec (.bestEffortFetchDone dt ok) s = .next ((s.elapse dt).bestEffortEnds ok) := by rfl

end Sys2Proof.Machine

namespace Sys2Proof
open Sys2Proof.Machine

/-- Settles O37: each event is one function of the state, and each clause is what that function does in its case. -/
theorem contextsAdvance : Obligations.ContextsAdvance := by
  unfold Obligations.ContextsAdvance
  refine ⟨fun dt c ok s => ?_, fun dt k s => ?_, fun dt p s => ?_, fun dt ok s => ?_⟩
  · intro u x pool fetchingNow i hot k frames sound r why
    have hsound : u.fetchVerifies hot k ok = true ↔ sound := u.fetchVerifies_iff hot k ok
    have hfetch : fetching x = true ↔ fetchingNow := fetching_iff x
    refine ⟨fun hn => fetchComplete_idle (Bool.eq_false_iff.2 fun hk => hn (hfetch.1 hk)), fun hn hv hl => ?_,
      fun hn hv hl hs => ?_, fun hn hv => ?_⟩
    · exact ⟨_, fetchComplete_ends (hfetch.2 hn), State.fetchEnds_fell (hsound.2 hv) hl⟩
    · exact ⟨_, fetchComplete_ends (hfetch.2 hn), State.fetchEnds_ready (hsound.2 hv) hl hs⟩
    · exact ⟨_, fetchComplete_ends (hfetch.2 hn), State.fetchEnds_failed fun hk => hv (hsound.1 hk)⟩
  · intro u able
    refine ⟨fun h => ?_, fun c x hp hc hf => ?_⟩
    · by_cases hb : (u.powered && (u.ctxOn k).isNone) = true
      · refine (contextDispatch_takes hb).trans (congrArg Host.Outcome.next (State.dispatch_none ?_))
        rcases h with h | h | h
        · simp [h] at hb
        · simp [Option.isSome_iff_ne_none.mp h] at hb
        · exact h
      · exact contextDispatch_idle (Bool.eq_false_iff.2 hb)
    · obtain ⟨hmem, hleast⟩ := firstByKey_least hf
      refine ⟨_, (contextDispatch_takes (by rw [hp, hc]; rfl)).trans (congrArg Host.Outcome.next (State.dispatch_some hf)), hmem, hleast,
        u.scTaken c x, rfl, fun h => by simp only [State.scTaken, h], fun l h => by simp only [State.scTaken, h]⟩
  · intro u ready keyed be queued mir
    have hkeyed : u.keyedFor (3 + p.val) = true ↔ keyed := u.keyedFor_iff (3 + p.val)
    have hcount : 0x04E + (3 + p.val) = 0x051 + p.val := by omega
    refine ⟨fun hp hr h => ?_, fun i hp hr hk hm hq => ?_, fun c x hp hf => ?_, fun hp hm => ?_, fun c x hp hm => ?_⟩
    · rw [stageStart_fetch hp, State.fetchStart_behind hr, State.beStart_none (h.imp_left hkeyed.2)]
    · rw [stageStart_fetch hp, State.fetchStart_behind hr,
        State.beStart_some (Bool.eq_false_iff.2 fun h => hk (hkeyed.1 h)) hm hq, hcount]
    · rw [stageStart_fetch hp, State.fetchStart_some hf, hcount]
    · rw [stageStart_mir hp, State.mirStart_none hm]
    · rw [stageStart_mir hp, State.mirStart_some hm]
  · intro u
    refine ⟨fun h => ?_, fun i l rest h => ⟨_, bestEffortFetchDone_eq dt ok s, ?_⟩⟩
    · rw [bestEffortFetchDone_eq]
      simp only [State.bestEffortEnds, u, h]
    · dsimp only
      have hsound : u.fetchVerifies (decide (l.pool = 3)) i ok = true ↔ ok = true ∧ (l.pool = 3 ∨ (u.sealedAt i).image.type = 0 ∨
          ((u.sealedAt i).bad = false ∧ (u.sealedAt i).key = u.kst.sealingKey)) := by
        rw [State.fetchVerifies_iff, decide_eq_true_iff]
      rw [State.bestEffortEnds_cons h]
      by_cases hv : u.fetchVerifies (decide (l.pool = 3)) i ok = true
      · simp only [if_pos hv, ← hsound]
        exact ⟨State.fetched_adm _ _, State.fetched_dsp _ _, fun _ hr => State.isSome_cachedAt_fetched hr,
          fun hn => absurd hv hn, fun _ => State.hotValid_fetched _ _⟩
      · simp only [if_neg hv, ← hsound]
        obtain ⟨hdsp, hadm, hcached, hlog⟩ := State.integrityFailure_frame
          { u with adm := { u.adm with beRun := rest } } (decide (l.pool = 3)) i
        exact ⟨hadm, hdsp, fun h => absurd h hv, fun _ => ⟨hlog, hcached⟩, fun h => absurd h hv⟩

end Sys2Proof
end

section
/-!
SUPPORT. Proofs/FaultEvents.lean: an event of a fault source (16 R370, R372): what its unit records, how it counts in its
window, and when it becomes severe.
-/

namespace Sys2Proof.Machine

/-! ### What the unit of a source records (01 R15, 05 R146) -/

/-- The word or tag in which an event of source `n` about offset `a` leaves a double-bit error. -/
def ownWord (n a : Nat) : Option Nat :=
  if n = 52 then some (damKey .bus (0x20000000 + a % 0x2000000)) else if n = 54 then some (slotKey (a % 65536))
  else if n = 56 then some (damKey .ctx a)
  else if n = 58 then some (tagKey (if a < 0x10000 then .wick else if inCtxStore a then .ctx else .bus) a)
  else if n = 60 then some (damKey .wick a) else if n = 78 then some (damKey .bus (0x10000000 + a % 0x10000000))
  else if n = 94 ∨ n = 95 then some (damKey .bus (0x100000000 + a)) else none

/-- The state with that word marked. -/
def State.withOwnWord (s : State) (n a : Nat) : State :=
  { s with damaged := match ownWord n a with | some k => sput false s.damaged k true | none => s.damaged }

/-- What the flash controller and the key store log of their own source. -/
def State.ownLog (s : State) (n a : Nat) : State :=
  if n = 74 then s.raise KST_EVT_ECC
  else if n = 77 then s.flcEcc false (0x10000000 + a % 0x10000000)
  else if n = 78 then s.flcEcc true (0x10000000 + a % 0x10000000)
  else s

/-- The record of an event is the word it marks and the log of its unit. -/
theorem State.ownRecord_eq (s : State) (n a : Nat) : s.ownRecord n a = (s.withOwnWord n a).ownLog n a := by
  by_cases hn : n = 52 ∨ n = 54 ∨ n = 56 ∨ n = 58 ∨ n = 60 ∨ n = 74 ∨ n = 77 ∨ n = 78 ∨ n = 94 ∨ n = 95
  · rcases hn with rfl | rfl | rfl | rfl | rfl | rfl | rfl | rfl | rfl | rfl <;> rfl
  · simp only [not_or] at hn
    simp [State.ownRecord, State.ownLog, State.withOwnWord, ownWord, hn]

theorem State.ownLog_none (s : State) {n : Nat} (a : Nat) (h1 : n ≠ 74) (h2 : n ≠ 77) (h3 : n ≠ 78) : s.ownLog n a = s := by
  simp only [State.ownLog, h1, h2, h3, if_false]

theorem flcEcc_regsOnly (s : State) (d : Bool) (a : Nat) : RegsOnly s (s.flcEcc d a) := by
  have h : RegsOnly s (s.raise (if d then FLC_EVT_DED else FLC_EVT_SEC)) := (RegsOnly.refl s).raise _
  have hc := RegsOnly.ite (d = true) h (h.trans ⟨_, State.count_eq _ 0x05C 1⟩)
  exact RegsOnly.ite _ (hc.raise _) (hc.wr _ _)

theorem ownLog_regsOnly (s : State) (n a : Nat) : RegsOnly s (s.ownLog n a) :=
  .ite _ ((RegsOnly.refl s).raise _) (.ite _ (flcEcc_regsOnly s _ _) (.ite _ (flcEcc_regsOnly s _ _) (.refl s)))

/-- The state of the flash controller's capture before it looks at the log. -/
def State.flcCounted (s : State) (double : Bool) : State :=
  if double then s.raise FLC_EVT_DED else (s.raise FLC_EVT_SEC).count 0x05C 1

theorem State.flcEcc_eq (s : State) (double : Bool) (a : Nat) : s.flcEcc double a =
    if (s.flcCounted double).on FLC_ECCLOG_VALID then (s.flcCounted double).raise FLC_ECCLOG_MORE
    else (s.flcCounted double).wr FLC_ECCLOG
      (BitVec.ofNat 64 (2 ^ 63 + (if double then 2 ^ 48 else 0) + a / 4 * 4)) := by
  cases double <;> rfl

theorem State.rd_flcCounted (s : State) (double : Bool) {a : Nat} (h : a ≠ FLC_EVT) (hl : a < 0x41100000) :
    (s.flcCounted double).rd a = s.rd a := by
  cases double with
  | false => exact (State.rd_count_low _ _ _ hl).trans (State.rd_fset_ne _ _ _ h)
  | true => exact State.rd_fset_ne _ _ _ h

theorem State.on_flcCounted (s : State) (double : Bool) :
    (s.flcCounted double).on (if double then FLC_EVT_DED else FLC_EVT_SEC) = true := by
  cases double with
  | false =>
    exact (State.on_of_rd (State.rd_count_low _ _ _ (by decide))).trans
      (State.on_raise_self s FLC_EVT_SEC (by simp [Fld.fits]) (by simp))
  | true => exact State.on_raise_self s FLC_EVT_DED (by simp [Fld.fits]) (by simp)

/-- The event bit of the capture is set. -/
theorem State.on_flcEcc (s : State) (double : Bool) (a : Nat) :
    (s.flcEcc double a).on (if double then FLC_EVT_DED else FLC_EVT_SEC) = true := by
  have haddr : (if double then FLC_EVT_DED else FLC_EVT_SEC).addr ≠ FLC_ECCLOG := by cases double <;> decide
  rw [State.flcEcc_eq]
  split
  · exact (State.on_of_rd (State.rd_fset_ne _ FLC_ECCLOG_MORE _ haddr)).trans (State.on_flcCounted s double)
  · exact (State.on_of_rd (State.rd_wr_ne _ _ haddr)).trans (State.on_flcCounted s double)

/-- An empty log captures the word. -/
theorem State.rd_flcEcc_log {s : State} (double : Bool) (a : Nat) (h : s.on FLC_ECCLOG_VALID = false) :
    (s.flcEcc double a).rd FLC_ECCLOG = BitVec.ofNat 64 (2 ^ 63 + (if double then 2 ^ 48 else 0) + a / 4 * 4) := by
  have hv : (s.flcCounted double).on FLC_ECCLOG_VALID = false :=
    (State.on_of_rd (State.rd_flcCounted _ _ (by decide) (by decide))).trans h
  rw [State.flcEcc_eq, hv]
  exact State.rd_wr_self _ _ _

/-! ### Fault events (16 R370) -/

theorem stkyFld_fits (n : Nat) : (stkyFld n).fits := by simp only [stkyFld, bitFld, Fld.fits]; omega
theorem sevFld_fits (n : Nat) : (sevFld n).fits := by simp only [sevFld, bitFld, Fld.fits]; omega

/-- The window of source `n` opens (16 R370). -/
def State.opensWindow (s : State) (n : Nat) : State :=
  { s.raise (FLT_CNT_OPEN n) with flt := { s.flt with tOpen := sput 0 s.flt.tOpen n s.tb } }

theorem State.regs_opensWindow (s : State) (n : Nat) : (s.opensWindow n).regs = (s.raise (FLT_CNT_OPEN n)).regs := by rfl

theorem State.rd_opensWindow (s : State) {n a : Nat} (h : a ≠ FLT_CNT n) : (s.opensWindow n).rd a = s.rd a :=
  (State.rd_congr (s.regs_opensWindow n) _).trans (State.rd_fset_ne _ (FLT_CNT_OPEN n) _ h)

theorem State.on_open_opensWindow (s : State) (n : Nat) : (s.opensWindow n).on (FLT_CNT_OPEN n) = true :=
  (State.on_of_rd (State.rd_congr (s.regs_opensWindow n) _)).trans
    (State.on_raise_self _ (FLT_CNT_OPEN n) (by simp [Fld.fits]) (by simp))

theorem State.fget_cnt_opensWindow (s : State) (n : Nat) : (s.opensWindow n).fget (FLT_CNT_CNT n) = s.fget (FLT_CNT_CNT n) :=
  (State.fget_of_rd (State.rd_congr (s.regs_opensWindow n) _)).trans
    (State.fget_fset_apart _ (FLT_CNT_OPEN n) (FLT_CNT_CNT n) 1 (by simp [Fld.fits]) (.inr (.inr (by simp))))

/-- What an event of source `n` has done before it can be severe: its sticky bit, its window, its count. -/
def State.windowed (s : State) (n : Nat) : State :=
  let s := (s.raise (stkyFld n)).closeIfOver n
  if s.fget (FLT_CNT_CNT n) = 0 then s.opensWindow n else s

/-- The event counted. -/
def State.countedIn (s : State) (n : Nat) : State :=
  (s.windowed n).fset (FLT_CNT_CNT n) (min ((s.windowed n).fltN n) ((s.windowed n).fget (FLT_CNT_CNT n) + 1))

theorem State.fault_eq (s : State) (n unit : Nat) (forced : Bool) : s.fault n unit forced =
    if (s.raise (stkyFld n)).on (sevFld n) then (s.raise (stkyFld n)).reactAgain n unit
    else if (s.countedIn n).fltN n ≤ (s.countedIn n).fget (FLT_CNT_CNT n) then
      (((s.countedIn n).raise (sevFld n)).lower (FLT_CNT_OPEN n)).react n unit forced
    else s.countedIn n := by rfl

/-- The count of source `n` that an event meets: 0 where the window has run out. -/
def State.metCount (s : State) (n : Nat) : Nat := if s.windowOver n then 0 else s.fget (FLT_CNT_CNT n)

theorem State.fltN_congr {s t : State} {n : Nat} (h : t.rd (FLT_CFG n) = s.rd (FLT_CFG n)) : t.fltN n = s.fltN n := by
  unfold State.fltN; rw [State.fget_of_rd h]

theorem State.fltN_lt (s : State) (n : Nat) : s.fltN n < 256 := by
  have h : s.fget (FLT_CFG_N n) < 2 ^ 8 := Nat.mod_lt _ (Nat.two_pow_pos 8)
  unfold State.fltN; omega

theorem State.windowOver_congr {s t : State} {n : Nat} (hcnt : t.rd (FLT_CNT n) = s.rd (FLT_CNT n))
    (hcfg : t.rd (FLT_CFG n) = s.rd (FLT_CFG n)) (hflt : t.flt = s.flt) (htb : t.tb = s.tb) :
    t.windowOver n = s.windowOver n := by
  unfold State.windowOver State.fltWindow
  rw [State.on_of_rd (f := FLT_CNT_OPEN n) hcnt, State.on_of_rd (f := FLT_CFG_WUNIT n) hcfg,
    State.fget_of_rd (f := FLT_CFG_W n) hcfg, hflt, htb]

@[simp] theorem State.closeIfOver_flt (s : State) (n : Nat) : (s.closeIfOver n).flt = s.flt := by
  unfold State.closeIfOver; split <;> simp [State.closeWindow]

@[simp] theorem State.closeIfOver_tb (s : State) (n : Nat) : (s.closeIfOver n).tb = s.tb := by
  unfold State.closeIfOver; split <;> simp [State.closeWindow]

theorem State.rd_closeIfOver (s : State) {n a : Nat} (h : a ≠ FLT_CNT n) : (s.closeIfOver n).rd a = s.rd a := by
  unfold State.closeIfOver
  split
  · exact State.rd_closeWindow_ne s n h
  · rfl

theorem State.rd_windowed (s : State) {n a : Nat} (h1 : a ≠ FLT_STKY (n / 32)) (h2 : a ≠ FLT_CNT n) :
    (s.windowed n).rd a = s.rd a := by
  have hw : ((s.raise (stkyFld n)).closeIfOver n).rd a = s.rd a :=
    (State.rd_closeIfOver _ h2).trans (State.rd_fset_ne _ _ _ h1)
  simp only [State.windowed]
  split
  · exact (State.rd_opensWindow _ h2).trans hw
  · exact hw

theorem State.rd_countedIn (s : State) {n a : Nat} (h1 : a ≠ FLT_STKY (n / 32)) (h2 : a ≠ FLT_CNT n) :
    (s.countedIn n).rd a = s.rd a :=
  (State.rd_fset_ne _ _ _ h2).trans (s.rd_windowed h1 h2)

theorem cnt_ne_stky (n m : Nat) (h : m < 4) : FLT_CNT n ≠ FLT_STKY m := by simp only [FLT_CNT, FLT_STKY]; omega
theorem cnt_ne_sev (n m : Nat) (h : m < 4) : FLT_CNT n ≠ FLT_SEV m := by simp only [FLT_CNT, FLT_SEV]; omega
theorem sev_ne_stky (n m : Nat) (h : n < 4) : FLT_SEV n ≠ FLT_STKY m := by simp only [FLT_SEV, FLT_STKY]; omega
theorem cfg_ne_stky (n m : Nat) (h : m < 4) : FLT_CFG n ≠ FLT_STKY m := by simp only [FLT_CFG, FLT_STKY]; omega
theorem cfg_ne_cnt (n m : Nat) (h : n < 128) : FLT_CFG n ≠ FLT_CNT m := by simp only [FLT_CFG, FLT_CNT]; omega

section
variable {n : Nat} (hn : n < 128) (s : State)
include hn

theorem State.fget_closeIfOver : ((s.raise (stkyFld n)).closeIfOver n).fget (FLT_CNT_CNT n) = s.metCount n := by
  have hcnt : (s.raise (stkyFld n)).rd (FLT_CNT n) = s.rd (FLT_CNT n) :=
    State.rd_fset_ne _ _ _ (cnt_ne_stky _ _ (by omega))
  have hcfg : (s.raise (stkyFld n)).rd (FLT_CFG n) = s.rd (FLT_CFG n) :=
    State.rd_fset_ne _ _ _ (cfg_ne_stky _ _ (by omega))
  unfold State.closeIfOver State.metCount
  rw [State.windowOver_congr hcnt hcfg (State.raise_flt _ _) (State.raise_tb _ _)]
  split
  · exact State.fget_cnt_closeWindow _ _
  · exact State.fget_of_rd hcnt

/-- The window is open where the event is the first of it, and then it begins now. -/
theorem State.windowed_flt : (s.windowed n).flt =
    { s.flt with tOpen := if s.metCount n = 0 then sput 0 s.flt.tOpen n s.tb else s.flt.tOpen } := by
  simp only [State.windowed, State.fget_closeIfOver hn]
  split <;> simp [State.opensWindow]

theorem State.on_open_windowed (h : s.metCount n = 0) : (s.windowed n).on (FLT_CNT_OPEN n) = true := by
  simp only [State.windowed, State.fget_closeIfOver hn, h, if_true]
  exact State.on_open_opensWindow _ n

theorem State.fget_windowed : (s.windowed n).fget (FLT_CNT_CNT n) = s.metCount n := by
  have hw := State.fget_closeIfOver hn s
  simp only [State.windowed]
  split
  · exact (State.fget_cnt_opensWindow _ n).trans hw
  · exact hw

theorem State.on_sticky_windowed : (s.windowed n).on (stkyFld n) = true := by
  have hr : ((s.raise (stkyFld n)).closeIfOver n).on (stkyFld n) = true :=
    (State.on_of_rd (State.rd_closeIfOver _ (cnt_ne_stky _ _ (by omega)).symm)).trans
      (State.on_raise_self _ _ (stkyFld_fits n) (by simp [stkyFld, bitFld]))
  simp only [State.windowed]
  split
  · exact (State.on_of_rd (State.rd_opensWindow _ (cnt_ne_stky _ _ (by omega)).symm)).trans hr
  · exact hr

theorem State.fltN_windowed : (s.windowed n).fltN n = s.fltN n :=
  State.fltN_congr (s.rd_windowed (cfg_ne_stky _ _ (by omega)) (cfg_ne_cnt _ _ hn))

theorem State.fltN_countedIn : (s.countedIn n).fltN n = s.fltN n :=
  State.fltN_congr (s.rd_countedIn (cfg_ne_stky _ _ (by omega)) (cfg_ne_cnt _ _ hn))

/-- The count after an event: one more, but never past the threshold. -/
theorem State.fget_countedIn : (s.countedIn n).fget (FLT_CNT_CNT n) = min (s.fltN n) (s.metCount n + 1) := by
  have hlt := s.fltN_lt n
  unfold State.countedIn
  rw [State.fget_fset_self _ _ _ (by simp [Fld.fits]), State.fltN_windowed hn, State.fget_windowed hn]
  exact Nat.mod_eq_of_lt (show min (s.fltN n) (s.metCount n + 1) < 2 ^ 8 by omega)

theorem State.on_sticky_countedIn : (s.countedIn n).on (stkyFld n) = true :=
  (State.on_of_rd (State.rd_fset_ne _ _ _ (cnt_ne_stky _ _ (by omega)).symm)).trans (State.on_sticky_windowed hn s)

theorem State.on_sev_countedIn : (s.countedIn n).on (sevFld n) = s.on (sevFld n) :=
  State.on_of_rd (s.rd_countedIn (sev_ne_stky _ _ (by omega)) (cnt_ne_sev _ _ (by omega)).symm)

theorem State.on_open_countedIn (h : s.metCount n = 0) : (s.countedIn n).on (FLT_CNT_OPEN n) = true :=
  (State.on_fset_apart _ (FLT_CNT_CNT n) (FLT_CNT_OPEN n) _ (by simp [Fld.fits]) (.inr (.inl (by simp)))).trans
    (State.on_open_windowed hn s h)

theorem State.on_sev_raiseSticky : (s.raise (stkyFld n)).on (sevFld n) = s.on (sevFld n) :=
  State.on_of_rd (State.rd_fset_ne _ _ _ (sev_ne_stky _ _ (by omega)))

/-- A further event of a severe source (16 R372). -/
theorem State.fault_of_severe (unit : Nat) (forced : Bool) (h : s.on (sevFld n) = true) :
    s.fault n unit forced = (s.raise (stkyFld n)).reactAgain n unit := by
  rw [State.fault_eq, if_pos ((State.on_sev_raiseSticky hn s).trans h)]

/-- An event below the threshold only counts. -/
theorem State.fault_of_below (unit : Nat) (forced : Bool) (h : s.on (sevFld n) = false) (hc : s.metCount n + 1 < s.fltN n) :
    s.fault n unit forced = s.countedIn n := by
  rw [State.fault_eq, State.on_sev_raiseSticky hn, h, State.fltN_countedIn hn, State.fget_countedIn hn,
    if_neg Bool.false_ne_true, if_neg (by omega)]

/-- An event at the threshold makes its source severe. -/
theorem State.fault_of_reached (unit : Nat) (forced : Bool) (h : s.on (sevFld n) = false)
    (hc : s.fltN n ≤ s.metCount n + 1) :
    s.fault n unit forced = (((s.countedIn n).raise (sevFld n)).lower (FLT_CNT_OPEN n)).react n unit forced := by
  rw [State.fault_eq, State.on_sev_raiseSticky hn, h, State.fltN_countedIn hn, State.fget_countedIn hn,
    if_neg Bool.false_ne_true, if_pos (by omega)]

/-- Every event of a source sets its sticky bit. -/
theorem State.on_sticky_fault (unit : Nat) (forced : Bool) : (s.fault n unit forced).on (stkyFld n) = true := by
  rw [State.fault_eq]
  split
  · rw [State.on_of_rd (State.rd_reactAgain _ _ _ _)]
    exact State.on_raise_self _ _ (stkyFld_fits n) (by simp [stkyFld, bitFld])
  split
  · rw [State.on_of_rd (State.rd_react _ _ _ _ _), State.on_lower_apart _ _ _ (by simp [Fld.fits])
      (.inl (cnt_ne_stky _ _ (by omega))), State.on_raise_apart _ (sevFld n) (stkyFld n) (sevFld_fits n) (.inl (sev_ne_stky _ _ (by omega)))]
    exact State.on_sticky_countedIn hn s
  · exact State.on_sticky_countedIn hn s

end

theorem countedIn_regsFlt (s : State) (n : Nat) : RegsFlt s (s.countedIn n) := by
  have hw := ((RegsFlt.refl s).raise (stkyFld n)).closeIfOver n
  exact RegsFlt.fset (.ite _ ((hw.raise _).flt _) hw) _ _

/-- A source that reacts while no round is under way begins one now (16 R374). -/
theorem State.round_react_none {s : State} (n unit : Nat) (forced : Bool) (h : s.flt.round = none) :
    (s.react n unit forced).flt.round =
      some { start := s.tb, srcs := [{ src := n, unit := unit, forced := forced, time := s.tb }] } := by
  simp only [State.react, h]

/-- A source that reacts joins the round under way (16 R374). -/
theorem State.round_react_some {s : State} {r : Round} (n unit : Nat) (forced : Bool) (h : s.flt.round = some r) :
    (s.react n unit forced).flt.round =
      some { r with srcs := r.srcs ++ [{ src := n, unit := unit, forced := forced, time := s.tb }] } := by
  simp only [State.react, h]

theorem State.windowOver_iff (s : State) (n : Nat) : s.windowOver n = true ↔
    s.on (FLT_CNT_OPEN n) = true ∧ windowNs s n ≠ 0 ∧ sget 0 s.flt.tOpen n + windowNs s n ≤ s.tb := by
  have hw : windowNs s n = s.fltWindow n := by rfl
  rw [State.windowOver, hw, Bool.and_eq_true, Bool.and_eq_true, decide_eq_true_iff, decide_eq_true_iff, and_assoc]

/-- The window of a source lets it meet the count 0 once it has run out. -/
theorem State.metCount_congr {s t : State} {n : Nat} (hr : t.regs = s.regs) (hflt : t.flt = s.flt) (htb : t.tb = s.tb) :
    t.metCount n = s.metCount n := by
  have hrd := fun a => State.rd_congr hr a
  unfold State.metCount
  rw [State.windowOver_congr (hrd _) (hrd _) hflt htb, State.fget_of_rd (hrd _)]

section
variable {n : Nat} (hn : n < 128) (s : State) (unit : Nat)
include hn

/-- A severe source marks the event, and a RETIRE source keeps its unit (16 R372). -/
theorem State.fault_severe_eq (forced : Bool) (h : s.on (sevFld n) = true) : s.fault n unit forced =
    if s.fget (FLT_CFG_REACT n) = 1 ∧ fltUnitSource n = true then
      { s.raise (stkyFld n) with flt := { s.flt with again := s.flt.again ++ [(n, unit)] } }
    else s.raise (stkyFld n) := by
  have hreact : (s.raise (stkyFld n)).fget (FLT_CFG_REACT n) = s.fget (FLT_CFG_REACT n) :=
    State.fget_of_rd (State.rd_fset_ne _ _ _ (cfg_ne_stky _ _ (by omega)))
  rw [State.fault_of_severe hn s unit forced h, State.reactAgain, hreact]
  rfl

/-- The event that a source below its threshold counts. -/
theorem State.fault_below_spec (forced : Bool) (h : s.on (sevFld n) = false) (hc : s.metCount n + 1 < s.fltN n) :
    let t := s.fault n unit forced
    t.on (stkyFld n) = true ∧ t.on (sevFld n) = false ∧ t.fget (FLT_CNT_CNT n) = s.metCount n + 1 ∧
      t.flt.round = s.flt.round ∧
      (s.metCount n = 0 → t.on (FLT_CNT_OPEN n) = true ∧ sget 0 t.flt.tOpen n = s.tb) ∧
      t = { s with regs := t.regs, flt := t.flt } := by
  have hflt : (s.countedIn n).flt = (s.windowed n).flt := State.fset_flt _ _ _
  rw [State.fault_of_below hn s unit forced h hc]
  refine ⟨State.on_sticky_countedIn hn s, (State.on_sev_countedIn hn s).trans h, ?_, ?_, fun h0 => ⟨?_, ?_⟩, ?_⟩
  · rw [State.fget_countedIn hn]
    exact Nat.min_eq_right (Nat.le_of_lt hc)
  · rw [hflt, State.windowed_flt hn]
  · exact State.on_open_countedIn hn s h0
  · rw [hflt, State.windowed_flt hn, if_pos h0]
    exact sget_sput_self _ _ _ _
  · obtain ⟨r, f, hrf⟩ := countedIn_regsFlt s n
    rw [hrf]

/-- The event with which a source reaches its threshold. -/
theorem State.fault_reached_spec (forced : Bool) (h : s.on (sevFld n) = false) (hc : s.fltN n ≤ s.metCount n + 1) :
    let t := s.fault n unit forced
    let x : RoundSrc := { src := n, unit := unit, forced := forced, time := s.tb }
    t.on (stkyFld n) = true ∧ t.on (sevFld n) = true ∧ t.on (FLT_CNT_OPEN n) = false ∧ t.fget (FLT_CNT_CNT n) = s.fltN n ∧
      (s.flt.round = none → t.flt.round = some { start := s.tb, srcs := [x] }) ∧
      (∀ r, s.flt.round = some r → t.flt.round = some { r with srcs := r.srcs ++ [x] }) ∧
      t = { s with regs := t.regs, flt := t.flt } := by
  have htb : (((s.countedIn n).raise (sevFld n)).lower (FLT_CNT_OPEN n)).tb = s.tb := by
    obtain ⟨r, f, hrf⟩ := countedIn_regsFlt s n
    rw [State.lower_tb, State.raise_tb, hrf]
  have hround : (((s.countedIn n).raise (sevFld n)).lower (FLT_CNT_OPEN n)).flt.round = s.flt.round := by
    rw [State.lower_flt, State.raise_flt, State.countedIn, State.fset_flt, State.windowed_flt hn]
  have hrd := fun a => State.rd_react (((s.countedIn n).raise (sevFld n)).lower (FLT_CNT_OPEN n)) n unit forced a
  refine ⟨State.on_sticky_fault hn s unit forced, ?_, ?_, ?_, fun hr => ?_, fun r hr => ?_, ?_⟩
  · rw [State.fault_of_reached hn s unit forced h hc, State.on_of_rd (hrd _),
      State.on_lower_apart _ (FLT_CNT_OPEN n) (sevFld n) (by simp [Fld.fits]) (.inl (cnt_ne_sev _ _ (by omega)))]
    exact State.on_raise_self _ _ (sevFld_fits n) (by simp [sevFld, bitFld])
  · rw [State.fault_of_reached hn s unit forced h hc, State.on_of_rd (hrd _)]
    exact State.on_lower_self _ _ (by simp [Fld.fits])
  · rw [State.fault_of_reached hn s unit forced h hc, State.fget_of_rd (hrd _), State.lower,
      State.fget_fset_apart _ (FLT_CNT_OPEN n) (FLT_CNT_CNT n) _ (by simp [Fld.fits]) (.inr (.inr (by simp))), State.raise,
      State.fget_fset_apart _ (sevFld n) (FLT_CNT_CNT n) _ (sevFld_fits n) (.inl (cnt_ne_sev _ _ (by omega)).symm),
      State.fget_countedIn hn]
    exact Nat.min_eq_left hc
  · rw [State.fault_of_reached hn s unit forced h hc, State.round_react_none n unit forced (hround.trans hr), htb]
  · rw [State.fault_of_reached hn s unit forced h hc, State.round_react_some n unit forced (hround.trans hr), htb]
  · obtain ⟨r, f, hrf⟩ := (RegsFlt.refl s).fault n unit forced
    rw [hrf]

end

/-! ### FAULT_EVENT (16 R370, 01 R15) -/

theorem faultEvent_idle {dt : Nat} {n : Fin 128} {e : FaultAt} {s : State}
    (h : ((s.elapse dt).powered && fltListed n) = false) : exec (.faultEvent dt n e) s = .next (s.elapse dt) :=
  timed_neg (c := fun s => s.powered && fltListed n) (f := fun s =>
    (s.ownRecord n e.addr.toNat).fault n (if fltUnitSource n then e.unit.toNat else 0) false) h

/-- An event of a listed source is recorded by its unit and collected. -/
theorem faultEvent_collected {dt : Nat} {n : Fin 128} {e : FaultAt} {s : State} (hp : (s.elapse dt).powered = true)
    (hl : fltListed n = true) : exec (.faultEvent dt n e) s = .next
      ((((s.elapse dt).withOwnWord n e.addr.toNat).ownLog n e.addr.toNat).fault n
        (if fltUnitSource n then e.unit.toNat else 0) false) := by
  rw [← State.ownRecord_eq]
  exact timed_pos (c := fun s => s.powered && fltListed n) (f := fun s =>
    (s.ownRecord n e.addr.toNat).fault n (if fltUnitSource n then e.unit.toNat else 0) false) (by rw [hp, hl]; rfl)

/-- The registers of the key store and of the flash controller are none of the collector's. -/
theorem State.rd_fault_low (s : State) (n unit : Nat) (forced : Bool) {a : Nat} (h : a < 0x40D00000) :
    (s.fault n unit forced).rd a = s.rd a :=
  State.rd_fault _ _ _ _ (by simp only [FLT_STKY]; omega) (by simp only [FLT_SEV]; omega) (by simp only [FLT_CNT]; omega)

/-- A unit's log of its event stands when the collector has taken the event. -/
theorem State.fault_ownLog_spec {n : Nat} (hn : n < 128) (s : State) (a unit : Nat) :
    let flash := 0x10000000 + a % 0x10000000
    let t := ((s.withOwnWord n a).ownLog n a).fault n unit false
    t.on (stkyFld n) = true ∧ t.damaged = (s.withOwnWord n a).damaged ∧ (n = 74 → t.on KST_EVT_ECC = true) ∧
      (n = 77 → t.on FLC_EVT_SEC = true) ∧ (n = 78 → t.on FLC_EVT_DED = true) ∧
      (n = 77 ∨ n = 78 → s.on FLC_ECCLOG_VALID = false →
        t.rd FLC_ECCLOG = BitVec.ofNat 64 (2 ^ 63 + (if n = 78 then 2 ^ 48 else 0) + flash / 4 * 4)) ∧
      t = { s with regs := t.regs, flt := t.flt, damaged := t.damaged } := by
  have hlow : ∀ (w : State) {r : Nat}, r < 0x40D00000 → (w.fault n unit false).rd r = w.rd r :=
    fun w _ => State.rd_fault_low w n unit false
  obtain ⟨r, hr⟩ := ownLog_regsOnly (s.withOwnWord n a) n a
  obtain ⟨r', f, hf⟩ := (RegsFlt.refl ((s.withOwnWord n a).ownLog n a)).fault n unit false
  refine ⟨State.on_sticky_fault hn _ _ _, by rw [hf, hr], ?_, ?_, ?_, ?_, by rw [hf, hr]; rfl⟩
  · rintro rfl
    exact (State.on_of_rd (hlow _ (by decide))).trans (State.on_raise_self _ KST_EVT_ECC (by simp [Fld.fits]) (by simp))
  · rintro rfl
    exact (State.on_of_rd (hlow _ (by decide))).trans (State.on_flcEcc _ false _)
  · rintro rfl
    exact (State.on_of_rd (hlow _ (by decide))).trans (State.on_flcEcc _ true _)
  · rintro (rfl | rfl) hv
    · exact (hlow _ (by decide)).trans (State.rd_flcEcc_log false _ hv)
    · exact (hlow _ (by decide)).trans (State.rd_flcEcc_log true _ hv)

end Sys2Proof.Machine
end

section
/-!
SUPPORT. Proofs/FaultWrites.lean: writes of the fault collector's registers: leaving the fault state (16 R376), the sticky
bits (16 R380), injection (16 R377) and configuration (16 R378).
-/

namespace Sys2Proof.Machine

/-! ### A granted write of a collector's register -/

theorem fltSev_isReg : ∀ k : Fin 4, (regRow? (FLT_SEV k)).any (isReg (FLT_SEV k)) = true := by decide +kernel
theorem fltStkyclr_isReg : ∀ k : Fin 4, (regRow? (FLT_STKYCLR k)).any (isReg (FLT_STKYCLR k)) = true := by decide +kernel
theorem fltForce_isReg : ∀ k : Fin 4, (regRow? (FLT_FORCE k)).any (isReg (FLT_FORCE k)) = true := by decide +kernel
theorem fltCfg_isReg : ∀ n : Fin 128, (regRow? (FLT_CFG n)).any (isReg (FLT_CFG n)) = true := by decide +kernel

theorem severeClear_eq {s : State} {a : Acc} {k : Fin 4} {v : Word32} (h : MayWrite s a (FLT_SEV k) v) :
    exec (.severeClear a k v) s = .next (s.severeClear k v) := by
  obtain ⟨row, hw⟩ := exists_writeRow h (fltSev_isReg k)
  have hk := k.isLt
  refine hw.trans (congrArg _ ?_)
  rw [regEffect_flt (by simp only [FLT_SEV]; omega), State.writeFlt]
  simp only [setWidth_up_down]
  rw [if_neg (by simp only [FLT_SEV, FLT_FIRST]; omega), if_neg (by simp only [FLT_SEV, FLT_ISOSBLK]; omega),
    if_pos (by simp only [FLT_SEV]; omega), show (FLT_SEV k - 0x40D00040) / 4 = k by simp only [FLT_SEV]; omega]

theorem faultStickyClear_sets (a : Acc) (k : Fin 4) (v : Word32) (s : State) :
    Sets (.faultStickyClear a k v) a (FLT_STKYCLR k) v s (s.stickyClear (permBit a.perms pCUST) k v) := by
  intro h
  obtain ⟨row, hw⟩ := exists_writeRow h (fltStkyclr_isReg k)
  have hk := k.isLt
  refine hw.trans (congrArg _ ?_)
  rw [regEffect_flt (by simp only [FLT_STKYCLR]; omega), State.writeFlt]
  simp only [setWidth_up_down]
  rw [if_neg (by simp only [FLT_STKYCLR, FLT_FIRST]; omega), if_neg (by simp only [FLT_STKYCLR, FLT_ISOSBLK]; omega),
    if_neg (by simp only [FLT_STKYCLR]; omega), if_pos (by simp only [FLT_STKYCLR]; omega),
    show (FLT_STKYCLR k - 0x40D00070) / 4 = k by simp only [FLT_STKYCLR]; omega]

theorem faultForce_sets (a : Acc) (k : Fin 4) (v : Word32) (s : State) :
    Sets (.faultForce a k v) a (FLT_FORCE k) v s (s.faultForce (permBit a.perms pCUST) k v) := by
  intro h
  obtain ⟨row, hw⟩ := exists_writeRow h (fltForce_isReg k)
  have hk := k.isLt
  refine hw.trans (congrArg _ ?_)
  rw [regEffect_flt (by simp only [FLT_FORCE]; omega), State.writeFlt]
  simp only [setWidth_up_down]
  rw [if_neg (by simp only [FLT_FORCE, FLT_FIRST]; omega), if_neg (by simp only [FLT_FORCE, FLT_ISOSBLK]; omega),
    if_neg (by simp only [FLT_FORCE]; omega), if_neg (by simp only [FLT_FORCE]; omega),
    if_pos (by simp only [FLT_FORCE]; omega), show (FLT_FORCE k - 0x40D00080) / 4 = k by simp only [FLT_FORCE]; omega]

theorem faultConfigWrite_sets (a : Acc) (n : Fin 128) (v : Word32) (s : State) :
    Sets (.faultConfigWrite a n v) a (FLT_CFG n) v s (s.faultConfig n v) := by
  intro h
  obtain ⟨row, hw⟩ := exists_writeRow h (fltCfg_isReg n)
  have hn := n.isLt
  refine hw.trans (congrArg _ ?_)
  rw [regEffect_flt (by simp only [FLT_CFG]; omega), State.writeFlt]
  simp only [setWidth_up_down]
  rw [if_neg (by simp only [FLT_CFG, FLT_FIRST]; omega), if_neg (by simp only [FLT_CFG, FLT_ISOSBLK]; omega),
    if_neg (by simp only [FLT_CFG]; omega), if_neg (by simp only [FLT_CFG]; omega), if_neg (by simp only [FLT_CFG]; omega),
    if_pos (by simp only [FLT_CFG]; omega), show (FLT_CFG n - 0x40D00400) / 4 = n by simp only [FLT_CFG]; omega]

/-! ### The sources that a written word names -/

theorem mem_fltBits {k n : Nat} {v : Word32} : n ∈ fltBits k v ↔ n / 32 = k ∧ v.getLsbD (n % 32) = true := by
  simp only [fltBits, List.mem_map, List.mem_filter, List.mem_range]
  constructor
  · rintro ⟨i, ⟨hi, hv⟩, rfl⟩
    exact ⟨by omega, by rwa [show (32 * k + i) % 32 = i by omega]⟩
  · rintro ⟨rfl, hv⟩
    exact ⟨n % 32, ⟨Nat.mod_lt _ (by decide), hv⟩, Nat.div_add_mod n 32⟩

theorem fltBits_zero (k : Nat) : fltBits k 0 = [] :=
  List.eq_nil_iff_forall_not_mem.mpr fun n hn => by simpa using (mem_fltBits.mp hn).2

/-- A word of one bit names one source. -/
theorem fltBits_single (k : Nat) (b : Fin 32) : fltBits k (1#32 <<< b.val) = [32 * k + b.val] := by
  have h : (List.range 32).filter (1#32 <<< b.val).getLsbD = [b.val] := by
    revert b; decide
  rw [fltBits, h]
  rfl

/-! ### Leaving the fault state (16 R376) -/

/-- The cause of source `n` stands, or it snuffed: a written 1 does not make it less severe. -/
def State.heldSevere (s : State) (n : Nat) : Bool := s.on (causeFld n) || s.flt.bySnuff.getLsbD n

/-- A written 1 of source `n`. -/
def State.clearSevere (s : State) (n : Nat) : State :=
  if s.heldSevere n then s.raise FLT_EVT_CLR_REJ else (s.lower (sevFld n)).closeWindow n

theorem State.severeClear_eq (s : State) (k : Nat) (v : Word32) :
    s.severeClear k v = ((fltBits k v).foldl State.clearSevere s).isolationEnds := by rfl

theorem clearSevere_regsOnly (s : State) (n : Nat) : RegsOnly s (s.clearSevere n) :=
  .ite _ ((RegsOnly.refl s).raise _) (((RegsOnly.refl s).lower _).closeWindow n)

theorem State.rd_clearSevere (s : State) {n a : Nat} (h1 : a ≠ FLT_EVT) (h2 : a ≠ FLT_SEV (n / 32)) (h3 : a ≠ FLT_CNT n) :
    (s.clearSevere n).rd a = s.rd a := by
  unfold State.clearSevere
  split
  · exact State.rd_fset_ne _ FLT_EVT_CLR_REJ _ h1
  · exact (State.rd_closeWindow_ne _ n h3).trans (State.rd_fset_ne _ (sevFld n) _ h2)

theorem State.heldSevere_clearSevere (s : State) {n m : Nat} (hn : n < 128) (hm : m < 128) :
    (s.clearSevere n).heldSevere m = s.heldSevere m := by
  obtain ⟨r, hr⟩ := clearSevere_regsOnly s n
  have hc : (s.clearSevere n).on (causeFld m) = s.on (causeFld m) := State.on_of_rd
    (s.rd_clearSevere (by simp only [causeFld, bitFld, FLT_CAUSE, FLT_EVT]; omega)
      (by simp only [causeFld, bitFld, FLT_CAUSE, FLT_SEV]; omega) (by simp only [causeFld, bitFld, FLT_CAUSE, FLT_CNT]; omega))
  unfold State.heldSevere
  rw [hc, hr]

theorem sevFld_apart {n m : Nat} (h : m ≠ n) : (sevFld n).apart (sevFld m) := by
  simp only [Fld.apart, sevFld, bitFld, FLT_SEV]; omega

theorem State.on_sev_clearSevere (s : State) {n m : Nat} (hm : m < 128) :
    (s.clearSevere n).on (sevFld m) = true ↔ s.on (sevFld m) = true ∧ ¬(m = n ∧ s.heldSevere n = false) := by
  unfold State.clearSevere
  split
  · next h =>
    rw [State.on_raise_apart s FLT_EVT_CLR_REJ (sevFld m) (by simp [Fld.fits])
      (.inl (by simp only [sevFld, bitFld, FLT_SEV, FLT_EVT]; omega))]
    simp [h]
  · next h =>
    rw [State.on_of_rd (State.rd_closeWindow_ne _ n (by simp only [sevFld, bitFld, FLT_SEV, FLT_CNT]; omega))]
    by_cases hmn : m = n
    · subst hmn
      simp [State.on_lower_self _ _ (sevFld_fits m), h]
    · rw [State.on_lower_apart _ _ _ (sevFld_fits n) (sevFld_apart hmn)]
      simp [hmn]

theorem State.on_clrRej_clearSevere (s : State) {n : Nat} (hn : n < 128) :
    (s.clearSevere n).on FLT_EVT_CLR_REJ = true ↔ s.on FLT_EVT_CLR_REJ = true ∨ s.heldSevere n = true := by
  unfold State.clearSevere
  split
  · next h => simp [h, State.on_raise_self s FLT_EVT_CLR_REJ (by simp [Fld.fits]) (by simp)]
  · next h =>
    rw [State.on_of_rd (State.rd_closeWindow_ne _ n (by simp only [FLT_EVT, FLT_CNT]; omega)),
      State.on_lower_apart _ (sevFld n) _ (sevFld_fits n) (.inl (by simp only [sevFld, bitFld, FLT_SEV, FLT_EVT]; omega))]
    simp [h]

/-- The window of source `n` is closed and its count 0. -/
def State.windowShut (s : State) (n : Nat) : Prop := s.on (FLT_CNT_OPEN n) = false ∧ s.fget (FLT_CNT_CNT n) = 0

theorem State.windowShut_clearSevere {s : State} {n m : Nat} (hn : n < 128)
    (h : s.windowShut m ∨ (m = n ∧ s.heldSevere n = false)) :
    (s.clearSevere n).windowShut m := by
  by_cases hc : m = n ∧ s.heldSevere n = false
  · obtain ⟨rfl, hh⟩ := hc
    unfold State.clearSevere State.windowShut
    rw [hh, if_neg Bool.false_ne_true]
    exact ⟨State.on_open_closeWindow _ m, State.fget_cnt_closeWindow _ m⟩
  · obtain ⟨ho, hcnt⟩ := h.resolve_right hc
    have hrd : (s.clearSevere n).rd (FLT_CNT m) = s.rd (FLT_CNT m) := by
      by_cases hmn : m = n
      · subst hmn
        rw [State.clearSevere, if_pos (by simpa using hc)]
        exact State.rd_fset_ne _ FLT_EVT_CLR_REJ _ (by simp only [FLT_EVT, FLT_CNT]; omega)
      · exact s.rd_clearSevere (by simp only [FLT_EVT, FLT_CNT]; omega) (cnt_ne_sev _ _ (by omega))
          (by simp only [FLT_CNT]; omega)
    exact ⟨(State.on_of_rd hrd).trans ho, (State.fget_of_rd hrd).trans hcnt⟩

/-- Written ones make the sources less severe that nothing holds, close their windows, and are rejected for the others. -/
theorem clearSevere_fold : ∀ (l : List Nat) (s : State), (∀ n ∈ l, n < 128) →
    let t := l.foldl State.clearSevere s
    (∀ m < 128, t.on (sevFld m) = true ↔ s.on (sevFld m) = true ∧ ¬(m ∈ l ∧ s.heldSevere m = false)) ∧
    (∀ m < 128, s.windowShut m ∨ (m ∈ l ∧ s.heldSevere m = false) → t.windowShut m) ∧
    (t.on FLT_EVT_CLR_REJ = true ↔ s.on FLT_EVT_CLR_REJ = true ∨ ∃ m ∈ l, s.heldSevere m = true) ∧
    t.rd FLT_STAT = s.rd FLT_STAT ∧ (∀ m < 128, t.rd (FLT_CFG m) = s.rd (FLT_CFG m)) ∧ RegsOnly s t
  | [], s, _ => by simpa using RegsOnly.refl s
  | n :: l, s, hl => by
    obtain ⟨hn, hl⟩ := List.forall_mem_cons.mp hl
    obtain ⟨hsev, hshut, hrej, hstat, hcfg, hregs⟩ := clearSevere_fold l (s.clearSevere n) hl
    have hheld : ∀ m < 128, (s.clearSevere n).heldSevere m = s.heldSevere m := fun m hm => s.heldSevere_clearSevere hn hm
    refine ⟨fun m hm => ?_, fun m hm h => hshut m hm ?_, ?_, ?_, fun m hm => (hcfg m hm).trans ?_,
      (clearSevere_regsOnly s n).trans hregs⟩
    · rw [List.foldl_cons, hsev m hm, s.on_sev_clearSevere hm, hheld m hm, List.mem_cons]
      by_cases h : m = n
      · subst h; simp only [true_and, true_or]; tauto
      · simp only [h, false_and, not_false_eq_true, and_true, false_or]
    · rw [hheld m hm]
      rcases h with h | ⟨h, hh⟩
      · exact .inl (State.windowShut_clearSevere hn (.inl h))
      · rcases List.mem_cons.mp h with rfl | h
        · exact .inl (State.windowShut_clearSevere hn (.inr ⟨rfl, hh⟩))
        · exact .inr ⟨h, hh⟩
    · rw [List.foldl_cons, hrej, s.on_clrRej_clearSevere hn, or_assoc, List.exists_mem_cons_iff]
      exact or_congr_right (or_congr_right (exists_congr fun m => and_congr_right fun hm => by rw [hheld m (hl m hm)]))
    · rw [List.foldl_cons, hstat]
      exact s.rd_clearSevere (by decide) (by simp only [FLT_STAT, FLT_SEV]; omega) (by simp only [FLT_STAT, FLT_CNT]; omega)
    · exact s.rd_clearSevere (by simp only [FLT_CFG, FLT_EVT]; omega) (by simp only [FLT_CFG, FLT_SEV]; omega)
        (cfg_ne_cnt _ _ hm)

theorem State.isolateHeld_iff (s : State) : s.isolateHeld = true ↔
    ∃ n < 128, s.on (sevFld n) = true ∧ s.fget (FLT_CFG_REACT n) = 2 := by
  simp only [State.isolateHeld, State.reactOf, List.any_eq_true, List.mem_range, Bool.and_eq_true]
  exact exists_congr fun n => and_congr_right fun _ => and_congr_right fun _ => decide_eq_true_iff

theorem isolationEnds_regsOnly (s : State) : RegsOnly s s.isolationEnds :=
  .ite _ (.ite _ ((RegsOnly.refl s).lower _) (((RegsOnly.refl s).lower _).lower _)) (.refl s)

theorem State.rd_isolationEnds (s : State) {a : Nat} (h : a ≠ FLT_STAT) : s.isolationEnds.rd a = s.rd a := by
  have h1 : (s.lower FLT_STAT_ISOLATED).rd a = s.rd a := State.rd_fset_ne _ FLT_STAT_ISOLATED _ h
  simp only [State.isolationEnds]
  split
  · split
    · exact h1
    · exact (State.rd_fset_ne _ FLT_STAT_SAFE _ h).trans h1
  · rfl

theorem State.isolationEnds_of_held {s : State} (h : s.isolateHeld = true) : s.isolationEnds = s := by
  simp [State.isolationEnds, h]

/-- The isolation ends where no severe source holds it, and the safe state with it, but not in QUENCH (16 R376). -/
theorem State.isolationEnds_of_not_held {s : State} (hi : s.on FLT_STAT_ISOLATED = true) (h : s.isolateHeld = false) :
    s.isolationEnds.on FLT_STAT_ISOLATED = false ∧ (s.sys.mode ≠ .quench → s.isolationEnds.on FLT_STAT_SAFE = false) := by
  have hl : (s.lower FLT_STAT_ISOLATED).on FLT_STAT_ISOLATED = false := State.on_lower_self _ _ (by simp [Fld.fits])
  simp only [State.isolationEnds, hi, h, Bool.not_false, and_self, if_true]
  split
  · next hm => exact ⟨hl, fun hq => absurd hm hq⟩
  · refine ⟨?_, fun _ => State.on_lower_self _ _ (by simp [Fld.fits])⟩
    rw [State.on_lower_apart _ FLT_STAT_SAFE FLT_STAT_ISOLATED (by simp [Fld.fits]) (.inr (.inl (by simp)))]
    exact hl

/-! ### The sticky bits (16 R380) -/

theorem stkyFld_apart {n m : Nat} (h : m ≠ n) : (stkyFld n).apart (stkyFld m) := by
  simp only [Fld.apart, stkyFld, bitFld, FLT_STKY]; omega

theorem on_sticky_foldl_lower (l : List Nat) : ∀ (s : State) (m : Nat),
    (l.foldl (fun s n => s.lower (stkyFld n)) s).on (stkyFld m) = (s.on (stkyFld m) && !decide (m ∈ l)) := by
  induction l with
  | nil => simp
  | cons n l ih =>
    intro s m
    rw [List.foldl_cons, ih]
    by_cases h : m = n
    · subst h
      simp [State.on_lower_self _ _ (stkyFld_fits m)]
    · rw [State.on_lower_apart _ _ _ (stkyFld_fits n) (stkyFld_apart h)]
      simp [h]

theorem rd_foldl_lower_stky (k : Nat) {r : Nat} (hr : r ≠ FLT_STKY k) : ∀ (l : List Nat) (s : State), (∀ n ∈ l, n / 32 = k) →
    (l.foldl (fun s n => s.lower (stkyFld n)) s).rd r = s.rd r
  | [], _, _ => rfl
  | n :: l, s, hl => by
    obtain ⟨hn, hl⟩ := List.forall_mem_cons.mp hl
    rw [List.foldl_cons, rd_foldl_lower_stky k hr l _ hl]
    exact State.rd_fset_ne _ (stkyFld n) _ (by rw [stkyFld, hn]; exact hr)

/-! ### Configuration (16 R378) -/

theorem shorterWindow_iff (new old : Nat) : shorterWindow new old = true ↔ new ≠ 0 ∧ (old = 0 ∨ new < old) := by
  simp [shorterWindow]

/-- The registers of source `n` in `t` are looser than in `s`: a weaker reaction, a higher threshold, a shorter window. -/
def State.looserIn (s t : State) (n : Nat) : Bool :=
  decide (t.reactOf n < s.reactOf n) || decide (s.fltN n < t.fltN n) || shorterWindow (t.fltWindow n) (s.fltWindow n)

theorem State.looserIn_iff (s t : State) (n : Nat) : s.looserIn t n = true ↔
    t.fget (FLT_CFG_REACT n) < s.fget (FLT_CFG_REACT n) ∨
      max 1 (s.fget (FLT_CFG_N n)) < max 1 (t.fget (FLT_CFG_N n)) ∨
      (windowNs t n ≠ 0 ∧ (windowNs s n = 0 ∨ windowNs t n < windowNs s n)) := by
  have hw : ∀ u : State, windowNs u n = u.fltWindow n := fun _ => rfl
  rw [State.looserIn, Bool.or_eq_true, Bool.or_eq_true, decide_eq_true_iff, decide_eq_true_iff, shorterWindow_iff, or_assoc,
    hw, hw]
  rfl

/-- A configuration is taken unless it changes a fixed bit or a severe source, or loosens from PROVISIONED on. -/
theorem State.faultConfig_eq (s : State) (n : Nat) (v : Word32) :
    let old := (s.rd (FLT_CFG n)).toNat
    let new := v.toNat &&& 0x3FFFFFF
    let t := s.wr (FLT_CFG n) (BitVec.ofNat 64 (old &&& 0x80000000 ||| new))
    s.faultConfig n v = if fltListed n = false then s
      else if old &&& fltFixed n ≠ new &&& fltFixed n ∨ s.on (sevFld n) = true ∨
          ((s.sys.lc = .provisioned ∨ s.sys.lc = .field) ∧ s.looserIn t n = true) then s.raise FLT_EVT_CFG_REJ
      else t.capCount n := by
  intro old new t
  have hl : (!fltListed n) = true ↔ fltListed n = false := by rw [Bool.not_eq_true']
  have hc : ((decide (s.sys.lc = .provisioned) || decide (s.sys.lc = .field)) && s.looserIn t n) = true ↔
      (s.sys.lc = .provisioned ∨ s.sys.lc = .field) ∧ s.looserIn t n = true := by
    rw [Bool.and_eq_true, Bool.or_eq_true, decide_eq_true_iff, decide_eq_true_iff]
  unfold State.faultConfig
  exact if_congr hl rfl (if_congr (or_congr_right (or_congr_right hc)) rfl rfl)

/-! ### Injection (16 R377) -/

/-- A word of one bit forces one source: an ISOLATE or SNUFF source only in CUSTODY, with CUST. -/
theorem State.faultForce_single (s : State) (cust : Bool) (k : Nat) (b : Fin 32) :
    let n := 32 * k + b.val
    s.faultForce cust k (1#32 <<< b.val) = if fltListed n = false then s
      else if 2 ≤ s.fget (FLT_CFG_REACT n) ∧ ¬(s.sys.mode = .custody ∧ cust = true) then s.raise FLT_EVT_FORCE_REJ
      else s.fault n (if fltUnitSource n then s.fget FLT_FORCE_UNIT_UNIT else 0) true := by
  intro n
  have hl : (!fltListed n) = true ↔ fltListed n = false := by rw [Bool.not_eq_true']
  have hm : (!(decide (s.sys.mode = .custody) && cust)) = true ↔ ¬(s.sys.mode = .custody ∧ cust = true) := by
    rw [Bool.not_eq_true', ← Bool.not_eq_true, Bool.and_eq_true, decide_eq_true_iff]
  rw [State.faultForce, fltBits_single]
  exact if_congr hl rfl (if_congr (and_congr_right fun _ => hm) rfl rfl)

end Sys2Proof.Machine
end

section
/-!
SUPPORT. Proofs/SafeStart.lean: the start of core 0 in the safe state (16 R373).
-/

namespace Sys2Proof.Machine

/-- Core 0 is to start, and no boot step has failed. -/
theorem State.startsIsolated_iff (s : State) : (s.powered && s.flt.startCore0 && !s.bootFailed) = true ↔
    s.powered = true ∧ s.flt.startCore0 = true ∧ ¬(s.sys.mode = .boot ∧ s.fget SYS_BOOTSTAT_ERR ≠ 0) := by
  rw [Bool.and_eq_true, Bool.and_eq_true, Bool.not_eq_true', ← Bool.not_eq_true, State.bootFailed, Bool.and_eq_true,
    decide_eq_true_iff, decide_eq_true_iff, and_assoc]

theorem isolateCoreStart_idle {dt : Nat} {s : State}
    (h : ((s.elapse dt).powered && (s.elapse dt).flt.startCore0 && !(s.elapse dt).bootFailed) = false) :
    exec (.isolateCoreStart dt) s = .next (s.elapse dt) := by
  unfold exec execIsolateCoreStart
  exact timed_neg h

/-- Core 0 starts from the block at `a`, read under its own identity (13 R323). -/
def State.startIsolated (s : State) : State :=
  let t := { s with flt := { s.flt with startCore0 := false } }
  let a := (s.rd FLT_ISOSBLK).toNat
  if a = 0 then t
  else match t.startFrom 0 0 a with
    | (.error .wait, u) => { u with flt := { u.flt with startCore0 := true } }
    | (_, u) => u

theorem isolateCoreStart_starts {dt : Nat} {s : State}
    (h : ((s.elapse dt).powered && (s.elapse dt).flt.startCore0 && !(s.elapse dt).bootFailed) = true) :
    exec (.isolateCoreStart dt) s = .next (s.elapse dt).startIsolated := by
  unfold exec execIsolateCoreStart
  exact timed_pos h

theorem State.startFrom_waits {s t : State} {n : Fin 16} {perms : BitVec 16} {a : Nat}
    (h : s.busRead ⟨.ctl n, perms⟩ a 32 = (.error .wait, t)) : s.startFrom n perms a = (.error .wait, t) := by
  simp only [State.startFrom, h]

theorem State.startFrom_fails {s t : State} {n : Fin 16} {perms : BitVec 16} {a : Nat} {e : BusErr} (he : e ≠ .wait)
    (h : s.busRead ⟨.ctl n, perms⟩ a 32 = (.error e, t)) : s.startFrom n perms a = (.error e, t.endStalls (.ctl n)) := by
  simp only [State.startFrom, h]

/-- The two capabilities of a start block that starts a core (13 R323). -/
def startsWith (pcc c1 : Cap) : Prop :=
  pcc.tag = true ∧ pcc.otype = 0 ∧ c1.tag = true ∧ c1.otype = 0 ∧ permBit pcc.perms pX = true

theorem startsWith_iff (pcc c1 : Cap) : (pcc.usable && c1.usable && permBit pcc.perms pX) = true ↔ startsWith pcc c1 := by
  simp only [Cap.usable, startsWith, Bool.and_eq_true, decide_eq_true_eq, and_assoc]

theorem sput_single {c : Cap} (h : c.tag = true) : sput ({} : Cap) [] 1 c = [(1, c)] := by
  unfold sput
  rw [if_neg fun hc => by rw [hc] at h; exact Bool.false_ne_true h]
  rfl

/-- A core at its start from a block (13 R323). -/
def coreFromBlock (pcc c1 : Cap) : Core := { c := [(1, c1)], pcc := pcc, pc := pcc.base }

/-- The block at `a` is read: core 0 starts where its capabilities let it. -/
theorem State.startFrom_zero {s x : State} {perms : BitVec 16} {a : Nat} {bs : List Byte}
    (h : s.busRead ⟨.ctl 0, perms⟩ a 32 = (.ok bs, x)) :
    let t := x.endStalls (.ctl 0)
    let pcc := capOfBytes (t.tagged a && tagAt t.tags a) (bs.take 16)
    let c1 := capOfBytes (t.tagged a && tagAt t.tags (a + 16)) (bs.drop 16)
    (¬startsWith pcc c1 → s.startFrom 0 perms a = (.ok false, t)) ∧
    (startsWith pcc c1 → s.startFrom 0 perms a = (.ok true, State.fset
      { t with cores := sput {} t.cores 0 (coreFromBlock pcc c1)
               sys := { t.sys with stopReq := t.sys.stopReq &&& ~~~(1#16) } } (SYS_CORE_CTRL_STATE 0) 1)) := by
  intro t pcc c1
  have hrun : s.startFrom 0 perms a = if (pcc.usable && c1.usable && permBit pcc.perms pX) = true then
      (.ok true, ((t.setCore (.ctl 0) { c := sput {} [] 1 c1, pcc := pcc, pc := pcc.base }).fset
        (SYS_CORE_CTRL_STATE (0 : Fin 16)) 1).stopAsked 0 false)
    else (.ok false, t) := by
    simp only [State.startFrom, h]
    rfl
  rw [hrun]
  refine ⟨fun hn => if_neg fun hu => hn ((startsWith_iff _ _).1 hu), fun hw => ?_⟩
  rw [if_pos ((startsWith_iff _ _).2 hw), sput_single hw.2.2.1]
  rfl

theorem State.startIsolated_none {s : State} (h : (s.rd FLT_ISOSBLK).toNat = 0) :
    s.startIsolated = { s with flt := { s.flt with startCore0 := false } } := if_pos h

theorem State.startIsolated_waits {s t : State} (h : (s.rd FLT_ISOSBLK).toNat ≠ 0)
    (hr : State.startFrom { s with flt := { s.flt with startCore0 := false } } 0 0 (s.rd FLT_ISOSBLK).toNat = (.error .wait, t)) :
    s.startIsolated = { t with flt := { t.flt with startCore0 := true } } := by
  simp only [State.startIsolated, if_neg h, hr]

theorem State.startIsolated_ends {s t : State} {r : Except BusErr Bool} (h : (s.rd FLT_ISOSBLK).toNat ≠ 0)
    (hw : r ≠ .error .wait)
    (hr : State.startFrom { s with flt := { s.flt with startCore0 := false } } 0 0 (s.rd FLT_ISOSBLK).toNat = (r, t)) :
    s.startIsolated = t := by
  simp only [State.startIsolated, if_neg h, hr]

end Sys2Proof.Machine
end

section
/-!
SUPPORT. Proofs/UnitRetirement.lean: the retirement of a cipher engine or modular unit (08 R222, 09 R248) leaves the fault
collector's registers alone, and the unit is active no more.
-/

namespace Sys2Proof.Machine

/-! ### A freed unit -/

theorem State.rd_reseed (s : State) (u a : Nat) : (s.reseed u).rd a = s.rd a := by
  simp only [State.reseed]
  split
  · split <;> rfl
  · rfl

/-- Freeing a unit counts its busy time, and touches no other register. -/
theorem State.rd_mauFree (s : State) (u : Nat) {a : Nat} (h : a < 0x41100000) : (s.mauFree u).rd a = s.rd a := by
  simp only [State.mauFree, State.rd_reseed]
  exact State.rd_countBusy_low s 0x059 _ h

/-! ### What leaves the collector's registers alone -/

/-- The registers of the fault collector read in `t` as in `s`. -/
def KeepsFlt (s t : State) : Prop := ∀ a, a / 0x100000 = 0x40D → t.rd a = s.rd a

namespace KeepsFlt

theorem refl (s : State) : KeepsFlt s s := fun _ _ => rfl

theorem trans {s t u : State} (h : KeepsFlt s t) (k : KeepsFlt t u) : KeepsFlt s u := fun a ha => (k a ha).trans (h a ha)

theorem of_regs {s t u : State} (h : KeepsFlt s t) (k : u.regs = t.regs) : KeepsFlt s u :=
  fun a ha => (State.rd_congr k a).trans (h a ha)

theorem wr {s t : State} (h : KeepsFlt s t) {r : Nat} (v : Word) (hr : r / 0x100000 ≠ 0x40D) : KeepsFlt s (t.wr r v) :=
  fun a ha => (State.rd_wr_ne t v fun e : a = r => hr (e ▸ ha)).trans (h a ha)

theorem fset {s t : State} (h : KeepsFlt s t) {f : Fld} (v : Nat) (hr : f.addr / 0x100000 ≠ 0x40D) : KeepsFlt s (t.fset f v) :=
  h.wr _ hr

theorem raise {s t : State} (h : KeepsFlt s t) {f : Fld} (hr : f.addr / 0x100000 ≠ 0x40D) : KeepsFlt s (t.raise f) := h.wr _ hr

theorem putUnit {s t : State} (h : KeepsFlt s t) {r : Nat} (u : Nat) (b : Bool) (hr : r / 0x100000 ≠ 0x40D) :
    KeepsFlt s (t.putUnit r u b) := h.wr _ hr

theorem countBusy {s t : State} (h : KeepsFlt s t) (e n : Nat) : KeepsFlt s (t.countBusy e n) :=
  fun a ha => (State.rd_countBusy_low t e n (by omega)).trans (h a ha)

theorem endWith {s t : State} (h : KeepsFlt s t) (c : Nat) (r : Response) (g : Bool) : KeepsFlt s (t.endWith c r g) :=
  fun a ha => (State.rd_endWith t c r g (by omega)).trans (h a ha)

theorem ite {s t u : State} (c : Prop) [Decidable c] (ht : KeepsFlt s t) (hu : KeepsFlt s u) :
    KeepsFlt s (if c then t else u) := by split <;> assumption

theorem foldl {α : Type} {f : State → α → State} (hf : ∀ s a, KeepsFlt s (f s a)) (l : List α) :
    ∀ s, KeepsFlt s (l.foldl f s) := by
  induction l with
  | nil => exact refl
  | cons a l ih => exact fun s => (hf s a).trans (ih _)

theorem shrinkFrom {s t : State} (h : KeepsFlt s t) (p old : Nat) : KeepsFlt s (t.shrinkFrom p old) :=
  .ite _ (h.raise (by decide)) h

theorem cmdStage {s t : State} (h : KeepsFlt s t) (e : EngCmd) (b : Bool) : KeepsFlt s (t.cmdStage e b) := h.of_regs rfl

theorem setCph {s t : State} (h : KeepsFlt s t) (u : Nat) (x : EngUnit) : KeepsFlt s (t.setCph u x) := h.of_regs rfl

theorem setMau {s t : State} (h : KeepsFlt s t) (u : Nat) (x : EngUnit) : KeepsFlt s (t.setMau u x) := h.of_regs rfl

theorem cphTake {s t : State} (h : KeepsFlt s t) (l : List (Nat × Nat)) : KeepsFlt s { t with cphTake := l } := h.of_regs rfl

theorem mauBuf {s t : State} (h : KeepsFlt s t) (l : List EngUnit) : KeepsFlt s { t with mauBuf := l } := h.of_regs rfl

/-! ### Cipher engines (08 R222, R223) -/

theorem cphToRetired {s t : State} (h : KeepsFlt s t) (u : Nat) : KeepsFlt s (t.cphToRetired u) :=
  (((h.putUnit _ _ (by decide)).putUnit _ _ (by decide)).putUnit _ _ (by decide)).putUnit _ _ (by decide)

theorem cphRole {s t : State} (h : KeepsFlt s t) (u v : Nat) : KeepsFlt s (t.cphRole u v) :=
  ((((h.putUnit _ _ (by decide)).putUnit _ _ (by decide)).putUnit _ _ (by decide)).cphToRetired u).raise (by decide)

theorem cphFastOn {s t : State} (h : KeepsFlt s t) (b : Bool) : KeepsFlt s (t.cphFastOn b) := by
  unfold State.cphFastOn
  split
  · exact .ite _ (h.putUnit _ _ (by decide)) h
  · exact h

theorem cphNoSpare {s t : State} (h : KeepsFlt s t) (u : Nat) : KeepsFlt s (t.cphNoSpare u) :=
  (((h.cphToRetired u).cphFastOn _).raise (by decide)).raise (by decide)

theorem cphRehome (s : State) (u : Nat) : KeepsFlt s (s.cphRehome u) := by
  unfold State.cphRehome
  split
  · exact (refl s).cphRole _ _
  · exact (refl s).cphTake _
  · exact (refl s).cphNoSpare u

theorem cphHead {s t : State} (h : KeepsFlt s t) (c : Option EngCmd) : KeepsFlt s (t.cphHead c) := by
  unfold State.cphHead
  split
  · exact h.of_regs rfl
  · exact h

theorem cphTakes {s t : State} (h : KeepsFlt s t) (u : Nat) (e : EngCmd) : KeepsFlt s (t.cphTakes u e) := by
  have hc : ∀ x, KeepsFlt s ((t.setCph u x).cmdStage e true) := fun x => (h.setCph u x).cmdStage e true
  have hr : ∀ x, KeepsFlt s (((t.setCph u x).cmdStage e true).raise CPH_EVT_REISSUE) := fun x =>
    (hc x).raise (by decide)
  simp only [State.cphTakes]
  split
  · split
    · exact (hr _).fset (f := CPH_MMLOG_REUNIT) _ (by decide)
    · exact hr _
  · split
    · exact (hc _).fset (f := CPH_MMLOG_REUNIT) _ (by decide)
    · exact hc _

theorem rehomeAll (l : List (Nat × Nat)) (s : State) : KeepsFlt s (l.foldl (fun t e => t.cphRehome e.1) s) := by
  have h : ∀ (t : State) (e : Nat × Nat), KeepsFlt t (t.cphRehome e.1) := fun t e => cphRehome t e.1
  exact foldl h l s

theorem cphRetireSpare (s : State) (u : Nat) : KeepsFlt s (s.cphRetireSpare u) := by
  have h : KeepsFlt s ((s.cphToRetired u).raise CPH_EVT_RETIRED) := ((refl s).cphToRetired u).raise (by decide)
  exact (h.cphTake _).trans (rehomeAll _ _)

theorem cphRetireActive (s : State) (u : Nat) : KeepsFlt s (s.cphRetireActive u) := by
  have h : ∀ n, KeepsFlt s (((s.countBusy 0x057 n).setCph u {}).cphRehome u) := fun n =>
    (((refl s).countBusy 0x057 n).setCph u {}).trans (cphRehome _ u)
  simp only [State.cphRetireActive]
  split
  · exact (h _).cphTakes _ _
  · exact (h _).cphHead _

theorem cphRetireUnit (s : State) (u : Nat) : KeepsFlt s (s.cphRetireUnit u) := by
  unfold State.cphRetireUnit
  split
  · exact refl s
  · refine shrinkFrom ?_ _ _
    exact .ite _ (cphRetireSpare s u) (cphRetireActive s u)

/-! ### Modular units (09 R248, R249) -/

theorem putMau {s t : State} (h : KeepsFlt s t) {f : Nat → Nat} (u : Nat) (b : Bool) (hr : f (u / 32) / 0x100000 ≠ 0x40D) :
    KeepsFlt s (t.putMau f u b) := h.wr _ hr

theorem mauFastOn {s t : State} (h : KeepsFlt s t) (b : Bool) : KeepsFlt s (t.mauFastOn b) := by
  unfold State.mauFastOn
  split
  · next v hv =>
    have hlt : v < 136 := List.mem_range.mp (List.mem_of_find?_eq_some hv)
    exact .ite _ (h.putMau v true (by simp only [MAU_FASTROLE]; omega)) h
  · exact h

theorem mauFree {s t : State} (h : KeepsFlt s t) (u : Nat) : KeepsFlt s (t.mauFree u) :=
  fun a ha => (State.rd_mauFree t u (by omega)).trans (h a ha)

theorem mauLog {s t : State} (h : KeepsFlt s t) (u : Nat) (e : EngCmd) (k : Nat) : KeepsFlt s (t.mauLog u e k) :=
  .ite _ (h.raise (by decide)) (h.wr _ (by decide))

section
variable {s t : State} {u : Nat} (hu : u < 136)
include hu

theorem mauToRetired (h : KeepsFlt s t) : KeepsFlt s (t.mauToRetired u) :=
  ((h.putMau u false (by simp only [MAU_ACTIVE]; omega)).putMau u false (by simp only [MAU_FASTROLE]; omega)).putMau u true
    (by simp only [MAU_RETIRED]; omega)

theorem mauRole (h : KeepsFlt s t) {v : Nat} (hv : v < 136) : KeepsFlt s (t.mauRole u v) :=
  (((h.putMau v false (by simp only [MAU_SPARE]; omega)).putMau v true (by simp only [MAU_ACTIVE]; omega)).putMau v _
    (by simp only [MAU_FASTROLE]; omega)).putMau u false (by simp only [MAU_ACTIVE]; omega)

theorem mauRetireNow (h : KeepsFlt s t) : KeepsFlt s (t.mauRetireNow u) :=
  ((h.mauToRetired hu).mauFree u).raise (by decide)

theorem mauNoSpare (h : KeepsFlt s t) : KeepsFlt s (t.mauNoSpare u) :=
  ((h.mauRetireNow hu).mauFastOn _).raise (by decide)

theorem mauRetireUnit (s : State) : KeepsFlt s (s.mauRetireUnit u) := by
  simp only [State.mauRetireUnit]
  split
  · exact refl s
  split
  · next v _ hv _ =>
    have hlt : v < 136 := List.mem_range.mp (List.mem_of_find?_eq_some hv)
    exact (((refl s).mauRole hu hlt).setMau _ _).shrinkFrom _ _
  · next v hv _ =>
    have hlt : v < 136 := List.mem_range.mp (List.mem_of_find?_eq_some hv)
    exact (((refl s).mauRole hu hlt).mauRetireNow hu).shrinkFrom _ _
  · exact ((refl s).mauNoSpare hu).shrinkFrom _ _
  · have h := ((refl s).mauNoSpare hu).shrinkFrom 2 (s.meff 2)
    split
    · exact h.mauBuf _
    · exact (((h.raise (f := MAU_EVT_MIG_FAIL) (by decide)).mauLog u _ _).cmdStage _ _).endWith _ _ _

end

/-- The retirement of the unit of a source leaves the collector's registers alone. -/
theorem retireUnit (s : State) (n u : Nat) : KeepsFlt s (s.retireUnit n u) := by
  unfold State.retireUnit
  split
  · exact .ite _ (cphRetireUnit s u) (refl s)
  split
  · split
    · next h => exact mauRetireUnit h s
    · exact refl s
  · exact refl s

end KeepsFlt

/-! ### A retired unit is not active (09 R248) -/

theorem State.on_bitFld (s : State) (a i : Nat) : s.on (bitFld a i) = (s.rd a).getLsbD i := by
  simp only [State.on, State.fget, bitFld, bitsOf, BitVec.getLsbD, Nat.testBit_eq_decide_div_mod_eq, pow_one]

/-- Unit `u` is active where its bit of MAU_ACTIVE is set. -/
theorem State.mauSet_eq_on (s : State) (a : Nat → Nat) (u : Nat) : s.mauSet a u = s.on (bitFld (a (u / 32)) (u % 32)) :=
  (s.on_bitFld _ _).symm

theorem State.mauSet_putMau_self (s : State) (a : Nat → Nat) (u : Nat) (b : Bool) : (s.putMau a u b).mauSet a u = b := by
  rw [State.mauSet_eq_on]
  exact State.on_put_self _ _ _ (by simp only [Fld.fits, bitFld]; omega) (by simp [bitFld])

theorem State.mauSet_congr {s t : State} {a : Nat → Nat} {u : Nat} (h : t.rd (a (u / 32)) = s.rd (a (u / 32))) :
    t.mauSet a u = s.mauSet a u := by
  unfold State.mauSet; rw [h]

theorem State.mauSet_setMau (s : State) (v : Nat) (x : EngUnit) (a : Nat → Nat) (u : Nat) :
    (s.setMau v x).mauSet a u = s.mauSet a u := by rfl

theorem State.mauSet_mauBuf (s : State) (l : List EngUnit) (a : Nat → Nat) (u : Nat) :
    ({ s with mauBuf := l } : State).mauSet a u = s.mauSet a u := by rfl

theorem State.rd_cmdStage (s : State) (e : EngCmd) (b : Bool) (a : Nat) : (s.cmdStage e b).rd a = s.rd a := by rfl

theorem State.rd_putMau (s : State) (f : Nat → Nat) (u : Nat) (b : Bool) {r : Nat} (h : r ≠ f (u / 32)) :
    (s.putMau f u b).rd r = s.rd r := State.rd_fset_ne _ _ _ h

theorem State.mauSet_active_mauRole (s : State) (u v : Nat) : (s.mauRole u v).mauSet MAU_ACTIVE u = false :=
  State.mauSet_putMau_self _ MAU_ACTIVE u false

theorem State.rd_active_shrinkFrom (s : State) (u p old : Nat) :
    (s.shrinkFrom p old).rd (MAU_ACTIVE (u / 32)) = s.rd (MAU_ACTIVE (u / 32)) := by
  unfold State.shrinkFrom
  split
  · exact State.rd_fset_ne _ ADM_EVT_SHRINK _ (by simp only [MAU_ACTIVE, ADM_EVT]; omega)
  · rfl

theorem State.mauSet_shrinkFrom (s : State) (u p old : Nat) : (s.shrinkFrom p old).mauSet MAU_ACTIVE u = s.mauSet MAU_ACTIVE u :=
  State.mauSet_congr (State.rd_active_shrinkFrom s u p old)

section
variable {u : Nat} (hu : u < 136) (s : State)
include hu

theorem State.rd_active_raiseMau {f : Fld} (hf : f.addr = MAU_EVT) :
    (s.raise f).rd (MAU_ACTIVE (u / 32)) = s.rd (MAU_ACTIVE (u / 32)) :=
  State.rd_fset_ne _ _ _ (by rw [hf]; simp only [MAU_ACTIVE, MAU_EVT]; omega)

theorem State.rd_active_mauFastOn (b : Bool) :
    (s.mauFastOn b).rd (MAU_ACTIVE (u / 32)) = s.rd (MAU_ACTIVE (u / 32)) := by
  unfold State.mauFastOn
  split
  · split
    · exact State.rd_putMau _ _ _ _ (by simp only [MAU_ACTIVE, MAU_FASTROLE]; omega)
    · rfl
  · rfl

theorem State.rd_active_mauLog (e : EngCmd) (k : Nat) :
    (s.mauLog u e k).rd (MAU_ACTIVE (u / 32)) = s.rd (MAU_ACTIVE (u / 32)) := by
  have hne : MAU_ACTIVE (u / 32) ≠ MAU_CHKLOG := by simp only [MAU_ACTIVE, MAU_CHKLOG]; omega
  unfold State.mauLog
  split
  · exact State.rd_fset_ne _ MAU_CHKLOG_MORE _ hne
  · exact State.rd_wr_ne _ _ hne

theorem State.mauSet_active_mauRetireNow : (s.mauRetireNow u).mauSet MAU_ACTIVE u = false := by
  have hr : (s.mauToRetired u).mauSet MAU_ACTIVE u = false := by
    refine (State.mauSet_congr ?_).trans (State.mauSet_putMau_self s MAU_ACTIVE u false)
    exact (State.rd_putMau _ _ _ _ (by simp only [MAU_ACTIVE, MAU_RETIRED]; omega)).trans
      (State.rd_putMau _ _ _ _ (by simp only [MAU_ACTIVE, MAU_FASTROLE]; omega))
  exact (State.mauSet_congr ((State.rd_active_raiseMau hu _ rfl).trans (State.rd_mauFree _ u (by simp only [MAU_ACTIVE]; omega)))).trans hr

theorem State.mauSet_active_mauNoSpare : (s.mauNoSpare u).mauSet MAU_ACTIVE u = false :=
  (State.mauSet_congr ((State.rd_active_raiseMau hu _ rfl).trans (State.rd_active_mauFastOn hu _ _))).trans
    (State.mauSet_active_mauRetireNow hu s)

/-- The unit is active no more, wherever its command goes (09 R248, R249). -/
theorem State.mauSet_active_mauRetireUnit : (s.mauRetireUnit u).mauSet MAU_ACTIVE u = false := by
  simp only [State.mauRetireUnit]
  split
  · next h => simpa using h
  split
  · rw [State.mauSet_shrinkFrom]
    exact (State.mauSet_setMau _ _ _ _ _).trans (State.mauSet_active_mauRole s u _)
  · rw [State.mauSet_shrinkFrom]
    exact State.mauSet_active_mauRetireNow hu _
  · rw [State.mauSet_shrinkFrom]
    exact State.mauSet_active_mauNoSpare hu s
  · have h : ((s.mauNoSpare u).shrinkFrom 2 (s.meff 2)).mauSet MAU_ACTIVE u = false :=
      (State.mauSet_shrinkFrom _ _ _ _).trans (State.mauSet_active_mauNoSpare hu s)
    split
    · exact (State.mauSet_mauBuf _ _ _ _).trans h
    · refine (State.mauSet_congr ?_).trans h
      rw [State.rd_endWith _ _ _ _ (by simp only [MAU_ACTIVE]; omega), State.rd_cmdStage, State.rd_active_mauLog hu]
      exact State.rd_active_raiseMau hu _ rfl

end

end Sys2Proof.Machine
end

section
/-!
SUPPORT. Proofs/SafeState.lean: the safe state (16 R373): which registers its steps leave alone, that no context and no
role remain, and that every control core has stopped.
-/

namespace Sys2Proof.Machine

/-! ### Registers that no fault event and no counter is (16 R381, 19 R429) -/

/-- `a` is a register below the counters, and none that a fault event writes. -/
def NoEvent (a : Nat) : Prop :=
  a < 0x41100000 ∧ ¬(0x40D00040 ≤ a ∧ a < 0x40D00070) ∧ ¬(0x40D00600 ≤ a ∧ a < 0x40D00800)

theorem State.rd_signal_noEvent (s : State) {n : Nat} (hn : n < 128) (unit : Nat) {a : Nat} (h : NoEvent a) :
    (s.signal n unit).rd a = s.rd a := by
  obtain ⟨-, h1, h2⟩ := h
  exact State.rd_signal s n unit (by simp only [FLT_STKY]; omega) (by simp only [FLT_SEV]; omega) (by simp only [FLT_CNT]; omega)

/-! ### Contexts that become FREE (06 Table 6.5) -/

theorem State.rd_unbind (s : State) (i a : Nat) : (s.unbind i).rd a = s.rd a := by
  simp only [State.unbind]
  split
  · rfl
  · split <;> rfl

/-- The commands of context `c` are aborted and its key is unbound. -/
def State.unbound (s : State) (c : Nat) : State :=
  match (s.ctx c).bound with
  | some i => ((s.wasted c).abortAll c).unbind i
  | none => (s.wasted c).abortAll c

/-- The area, the registers and the staging words of context `c` are cleared, and it is FREE. -/
def State.areaFreed (s : State) (c : Nat) : State :=
  let s := ((s.clearArea c).setTransient (tsSlot c 0) {}).setTransient (tsSlot c 1) {}
  State.setCtx { s with dsp := { s.dsp with regs := sput {} s.dsp.regs c {} } } c {}

theorem State.freeCtx_eq (s : State) (c : Nat) : s.freeCtx c = (s.unbound c).areaFreed c := by rfl

theorem State.rd_areaFreed (s : State) (c a : Nat) : (s.areaFreed c).rd a = s.rd a := by rfl

theorem State.ctxs_areaFreed (s : State) (c : Nat) : (s.areaFreed c).dsp.ctxs = sput {} s.dsp.ctxs c {} := by rfl

theorem State.rd_unbound (s : State) (c : Nat) {a : Nat} (h : a < 0x41100000) : (s.unbound c).rd a = s.rd a := by
  have h0 : ((s.wasted c).abortAll c).rd a = s.rd a := (State.rd_abortWhere _ _ _ h).trans (State.rd_wasted _ _ h)
  unfold State.unbound
  split
  · exact (State.rd_unbind _ _ _).trans h0
  · exact h0

theorem State.rd_freeCtx (s : State) (c : Nat) {a : Nat} (h : a < 0x41100000) : (s.freeCtx c).rd a = s.rd a := by
  rw [State.freeCtx_eq, State.rd_areaFreed, State.rd_unbound _ _ h]

/-- Freeing several contexts touches the counters alone. -/
theorem State.rd_foldl_freeCtx {α : Type} (g : α → Nat) {a : Nat} (h : a < 0x41100000) (l : List α) (s : State) :
    (l.foldl (fun s e => s.freeCtx (g e)) s).rd a = s.rd a :=
  foldl_keeps (fun s => s.rd a) (fun s e => s.rd_freeCtx (g e) h) l s

theorem State.unbind_dsp (s : State) (i : Nat) : (s.unbind i).dsp = s.dsp := by
  simp only [State.unbind]
  split
  · rfl
  · split <;> rfl

/-- A context that becomes FREE leaves the map of contexts; the others stand as they were. -/
theorem State.exists_ctxs_freeCtx (s : State) (c : Nat) :
    ∃ x, (s.freeCtx c).dsp.ctxs = sput {} (sput {} s.dsp.ctxs c x) c {} := by
  obtain ⟨l, hl⟩ := (s.wasted c).exists_ctxs_abortWhere c fun _ => true
  have hu : (s.unbound c).dsp = ((s.wasted c).abortAll c).dsp := by
    unfold State.unbound
    split
    · exact State.unbind_dsp _ _
    · rfl
  refine ⟨{ (s.wasted c).ctx c with stages := l }, ?_⟩
  rw [State.freeCtx_eq, State.ctxs_areaFreed, hu, State.abortAll, hl, State.wasted_dsp]

theorem sput_default {α : Type} [DecidableEq α] (d : α) (m : Sparse α) (k : Nat) : sput d m k d = serase k m := by
  rw [sput, if_pos rfl]

theorem mem_of_mem_serase {α : Type} {m : Sparse α} {k : Nat} {e : Nat × α} (h : e ∈ serase k m) : e ∈ m ∧ e.1 ≠ k := by
  rw [serase_eq_filter] at h
  simpa using List.mem_filter.mp h

theorem mem_sput {α : Type} [DecidableEq α] {d : α} {m : Sparse α} {k : Nat} {v : α} {e : Nat × α} (h : e ∈ sput d m k v) :
    e.1 = k ∨ e ∈ m := by
  unfold sput at h
  split at h
  · exact .inr (mem_of_mem_serase h).1
  · rcases mem_sinsert h with rfl | h
    · exact .inl rfl
    · exact .inr (mem_of_mem_serase h).1

/-- The entries that remain when a context has become FREE. -/
theorem State.mem_ctxs_freeCtx {s : State} {c : Nat} {e : Nat × Ctx} (h : e ∈ (s.freeCtx c).dsp.ctxs) :
    e ∈ s.dsp.ctxs ∧ e.1 ≠ c := by
  obtain ⟨x, hx⟩ := s.exists_ctxs_freeCtx c
  rw [hx, sput_default] at h
  obtain ⟨hm, hne⟩ := mem_of_mem_serase h
  exact ⟨(mem_sput hm).resolve_left hne, hne⟩

theorem State.mem_ctxs_foldl_freeCtx : ∀ {l : List (Nat × Ctx)} {s : State} {e : Nat × Ctx},
    e ∈ (l.foldl (fun s e => s.freeCtx e.1) s).dsp.ctxs → e ∈ s.dsp.ctxs ∧ ∀ x ∈ l, e.1 ≠ x.1
  | [], _, _, h => ⟨h, fun _ hx => absurd hx List.not_mem_nil⟩
  | c :: l, s, e, h => by
    obtain ⟨hm, hl⟩ := State.mem_ctxs_foldl_freeCtx (l := l) (s := s.freeCtx c.1) h
    obtain ⟨hs, hc⟩ := State.mem_ctxs_freeCtx hm
    exact ⟨hs, List.forall_mem_cons.mpr ⟨hc, hl⟩⟩

/-- When every live context has become FREE, none is live. -/
theorem State.live_foldl_freeCtx (s : State) : (s.live.foldl (fun s e => s.freeCtx e.1) s).live = [] := by
  refine List.filter_eq_nil_iff.mpr fun e he hl => ?_
  obtain ⟨hm, hne⟩ := State.mem_ctxs_foldl_freeCtx he
  exact hne e (List.mem_filter.mpr ⟨hm, hl⟩) rfl

/-- Without live contexts every context is FREE. -/
theorem State.st_of_live_nil {s : State} (h : s.live = []) (c : Nat) : (s.ctx c).st = .free := by
  have hall : ∀ e ∈ s.dsp.ctxs, e.2.st = .free := fun e he => by
    simpa using List.filter_eq_nil_iff.mp h e he
  unfold State.ctx
  generalize s.dsp.ctxs = m at hall
  induction m with
  | nil => rfl
  | cons e m ih =>
    obtain ⟨he, hm⟩ := List.forall_mem_cons.mp hall
    unfold sget
    split
    · exact he
    · exact ih hm

/-! ### The Lantern (03 R88) -/

theorem State.rd_endUnlit (s : State) (c : Nat) {a : Nat} (h : a < 0x41100000) : (s.endUnlit c).rd a = s.rd a := by
  unfold State.endUnlit
  split
  · rfl
  · exact State.rd_endWith _ _ _ _ h

theorem State.rd_lanternFell (s : State) {a : Nat} (h : a < 0x41100000) : s.lanternFell.rd a = s.rd a :=
  foldl_keeps (fun s => s.rd a) (fun s (e : Nat × Ctx) => s.rd_endUnlit e.1 h) _ s

theorem State.setLantern_eq (s : State) (v : Nat) : s.setLantern v =
    if v = 0 ∧ s.fget ADM_STAT_LANTERN ≠ 0 then (s.fset ADM_STAT_LANTERN v).lanternFell else s.fset ADM_STAT_LANTERN v := by rfl

theorem State.rd_setLantern (s : State) (v : Nat) {a : Nat} (h : a < 0x41100000) (ha : a ≠ ADM_STAT) :
    (s.setLantern v).rd a = s.rd a := by
  have hf : (s.fset ADM_STAT_LANTERN v).rd a = s.rd a := State.rd_fset_ne _ ADM_STAT_LANTERN _ ha
  rw [State.setLantern_eq]
  split
  · exact (State.rd_lanternFell _ h).trans hf
  · exact hf

theorem State.rd_relantern (s : State) {a : Nat} (h : a < 0x41100000) (ha : a ≠ ADM_STAT) : s.relantern.rd a = s.rd a :=
  State.rd_setLantern _ _ h ha

theorem State.lanternFell_of_live_nil {s : State} (h : s.live = []) : s.lanternFell = s := by
  rw [State.lanternFell, h]
  rfl

theorem State.live_congr {s t : State} (h : t.dsp = s.dsp) : t.live = s.live := by
  unfold State.live; rw [h]

/-- With no live context, a fall of the Lantern has no entry to end. -/
theorem State.setLantern_of_live_nil {s : State} (h : s.live = []) (v : Nat) : s.setLantern v = s.fset ADM_STAT_LANTERN v := by
  rw [State.setLantern_eq, State.lanternFell_of_live_nil ((State.live_congr (State.fset_dsp _ _ _)).trans h), ite_self]

/-! ### The protocol is switched off (12 R294) -/

theorem State.rd_withKst (s : State) (k : KstState) (a : Nat) : ({ s with kst := k } : State).rd a = s.rd a := by rfl

theorem State.rd_cmdEnds (s : State) (e : Nat) {a : Nat} (h : a / 0x100000 ≠ 0x407) : (s.cmdEnds e).rd a = s.rd a := by
  have hevt : (if e = 0 then KST_EVT_CMD_DONE else KST_EVT_CMD_ERR).addr = KST_EVT := by split <;> rfl
  calc (s.cmdEnds e).rd a
    _ = _ := State.rd_fset_ne _ _ _ (by rw [hevt]; simp only [KST_EVT]; omega)
    _ = _ := State.rd_fset_ne _ KST_CMD_ERR _ (by simp only [KST_CMD]; omega)
    _ = _ := State.rd_withKst _ _ _
    _ = _ := State.rd_fset_ne _ KST_STAT_CMD_BUSY _ (by simp only [KST_STAT]; omega)
    _ = s.rd a := State.rd_fset_ne _ KST_CMD_BUSY _ (by simp only [KST_CMD]; omega)

theorem State.rd_dropWaiting (s : State) {a : Nat} (hl : a < 0x41100000) (h : a / 0x100000 ≠ 0x407) :
    s.dropWaiting.rd a = s.rd a := by
  have hfold : ∀ (l : List Nat) (t : State), (l.foldl State.freeCtx t).rd a = t.rd a := State.rd_foldl_freeCtx id hl
  simp only [State.dropWaiting]
  rw [hfold]
  split
  · exact State.rd_cmdEnds _ _ h
  · rfl

theorem State.rd_dropLantern (s : State) {a : Nat} (hl : a < 0x41100000) (h : a / 0x100000 ≠ 0x407) :
    s.dropLantern.rd a = s.rd a := s.rd_dropWaiting hl h

/-- The state in which the role is set. -/
def State.roleLess (s : State) (r : Nat) : State := if s.holds && decide (r ≠ 1) then s.dropLantern else s

theorem State.rd_roleLess (s : State) (r : Nat) {a : Nat} (hl : a < 0x41100000) (h : a / 0x100000 ≠ 0x407) :
    (s.roleLess r).rd a = s.rd a := by
  unfold State.roleLess
  split
  · exact s.rd_dropLantern hl h
  · rfl

theorem State.setRole_eq (s : State) (r : Nat) : s.setRole r = ((s.roleLess r).fset DUO_STAT_ROLE r).relantern := by rfl

theorem State.rd_setRole (s : State) (r : Nat) {a : Nat} (hl : a < 0x41100000) (h : a / 0x100000 ≠ 0x407)
    (h1 : a ≠ ADM_STAT) (h2 : a ≠ DUO_STAT) : (s.setRole r).rd a = s.rd a := by
  rw [State.setRole_eq, State.rd_relantern _ hl h1, State.rd_fset_ne _ DUO_STAT_ROLE _ h2, State.rd_roleLess _ _ hl h]

theorem State.fget_role_setRole (s : State) : (s.setRole 0).fget DUO_STAT_ROLE = 0 := by
  rw [State.setRole_eq, State.fget_of_rd (State.rd_relantern _ (by decide) (by decide)),
    State.fget_fset_self _ _ _ (by simp [Fld.fits])]
  rfl

theorem State.rd_soloOff (s : State) {a : Nat} (h1 : a ≠ DUO_STAT) (h2 : a ≠ DUO_EVT) : s.soloOff.rd a = s.rd a := by
  unfold State.soloOff
  split
  · exact (State.rd_fset_ne _ DUO_EVT_SOLO_OFF _ h2).trans (State.rd_fset_ne _ DUO_STAT_SOLO _ h1)
  · rfl

theorem State.rd_dropUnacked (s : State) (j : Nat) {a : Nat} (h : a < 0x41100000) : (s.dropUnacked j).rd a = s.rd a :=
  State.rd_foldl_freeCtx Prod.fst h _ s

/-- The device as it is declared diverged, before the Lantern and the collector hear of it (12 R297). -/
def State.split (s : State) : State := ((s.raise DUO_STAT_DIVERGED).raise DUO_EVT_SPLIT).lower SVC_CTRL_EN

theorem State.diverge_eq (s : State) :
    s.diverge = State.signal ((s.split.put DUO_STAT_SYNCED false).relantern) 82 0 := by rfl

theorem State.rd_diverge (s : State) {a : Nat} (h : NoEvent a) (h1 : a ≠ ADM_STAT) (h2 : a ≠ DUO_STAT) :
    s.diverge.rd a = s.split.rd a := by
  rw [State.diverge_eq, State.rd_signal_noEvent _ (by decide) _ h, State.rd_relantern _ h.1 h1]
  exact State.rd_fset_ne _ DUO_STAT_SYNCED _ h2

theorem State.rd_split (s : State) {a : Nat} (h1 : a ≠ DUO_STAT) (h2 : a ≠ DUO_EVT) (h3 : a ≠ SVC_CTRL) :
    s.split.rd a = s.rd a :=
  (State.rd_fset_ne _ SVC_CTRL_EN _ h3).trans ((State.rd_fset_ne _ DUO_EVT_SPLIT _ h2).trans
    (State.rd_fset_ne _ DUO_STAT_DIVERGED _ h1))

theorem State.fget_role_diverge (s : State) : s.diverge.fget DUO_STAT_ROLE = s.fget DUO_STAT_ROLE := by
  have h1 : s.split.fget DUO_STAT_ROLE = s.fget DUO_STAT_ROLE := by
    refine (State.fget_of_rd (State.rd_fset_ne _ SVC_CTRL_EN _ (by decide))).trans ?_
    refine (State.fget_of_rd (State.rd_fset_ne _ DUO_EVT_SPLIT _ (by decide))).trans ?_
    exact State.fget_fset_apart _ DUO_STAT_DIVERGED DUO_STAT_ROLE _ (by simp [Fld.fits]) (by simp [Fld.apart])
  rw [State.diverge_eq, State.fget_of_rd (State.rd_signal_noEvent _ (by decide) _ (by unfold NoEvent; decide)),
    State.fget_of_rd (State.rd_relantern _ (by decide) (by decide)), ← h1]
  exact State.fget_fset_apart _ DUO_STAT_SYNCED DUO_STAT_ROLE _ (by simp [Fld.fits]) (by simp [Fld.apart])

/-- The state in which the protocol is off, before a lost commit is declared. -/
def State.roleOff (s : State) : State :=
  let s := { s with duo := { s.duo with claiming := false, releasing := false, catching := none, caught := false, target := none, inbox := [] } }
  (s.soloOff.setRole 0).dropUnacked 0

theorem State.duoOff_eq (s : State) : s.duoOff =
    if s.holds && !s.on DUO_STAT_SOLO && s.anyUnacked then s.roleOff.diverge else s.roleOff := by rfl

theorem State.rd_roleOff (s : State) {a : Nat} (hl : a < 0x41100000) (h : a / 0x100000 ≠ 0x407)
    (h1 : a ≠ ADM_STAT) (h2 : a ≠ DUO_STAT) (h3 : a ≠ DUO_EVT) : s.roleOff.rd a = s.rd a := by
  rw [State.roleOff, State.rd_dropUnacked _ _ hl, State.rd_setRole _ _ hl h h1 h2, State.rd_soloOff _ h2 h3]
  rfl

theorem State.fget_role_roleOff (s : State) : s.roleOff.fget DUO_STAT_ROLE = 0 :=
  (State.fget_of_rd (State.rd_dropUnacked _ _ (by decide))).trans (State.fget_role_setRole _)

theorem State.fget_role_duoOff (s : State) : s.duoOff.fget DUO_STAT_ROLE = 0 := by
  rw [State.duoOff_eq]
  split
  · exact (State.fget_role_diverge _).trans (State.fget_role_roleOff s)
  · exact State.fget_role_roleOff s

/-- The registers that switching the protocol off leaves alone. -/
def Apart (a : Nat) : Prop :=
  NoEvent a ∧ a / 0x100000 ≠ 0x401 ∧ a / 0x100000 ≠ 0x407 ∧ a ≠ ADM_STAT ∧ a ≠ DUO_STAT ∧ a ≠ DUO_EVT ∧ a ≠ SVC_CTRL

theorem State.rd_duoOff (s : State) {a : Nat} (h : Apart a) : s.duoOff.rd a = s.rd a := by
  obtain ⟨he, -, hk, h1, h2, h3, h4⟩ := h
  have hr := s.rd_roleOff he.1 hk h1 h2 h3
  rw [State.duoOff_eq]
  split
  · exact (State.rd_diverge _ he h1 h2).trans ((State.rd_split _ h2 h3 h4).trans hr)
  · exact hr

/-- A device that serves nobody serves nobody when the protocol is off. -/
theorem State.on_svcEn_duoOff {s : State} (h : s.on SVC_CTRL_EN = false) : s.duoOff.on SVC_CTRL_EN = false := by
  have hr : s.roleOff.on SVC_CTRL_EN = false :=
    (State.on_of_rd (s.rd_roleOff (by decide) (by decide) (by decide) (by decide) (by decide))).trans h
  rw [State.duoOff_eq]
  split
  · rw [State.on_of_rd (State.rd_diverge _ (by unfold NoEvent; decide) (by decide) (by decide))]
    exact State.on_lower_self _ _ (by simp [Fld.fits])
  · exact hr

/-! ### A control core stops (13 R324) -/

/-- What the stores of a core that stops leave alone: every register but those of the access table, of events and of
counters, and the contexts, the ledger and the refusals. -/
structure Drains (s t : State) : Prop where
  regs : ∀ a, NoEvent a → a / 0x100000 ≠ 0x401 → t.rd a = s.rd a
  dsp : t.dsp = s.dsp
  adm : t.adm = s.adm
  svc : t.svc = s.svc

namespace Drains

theorem refl (s : State) : Drains s s := ⟨fun _ _ _ => rfl, rfl, rfl, rfl⟩

theorem trans {s t u : State} (h : Drains s t) (k : Drains t u) : Drains s u :=
  ⟨fun a ha hb => (k.regs a ha hb).trans (h.regs a ha hb), k.dsp.trans h.dsp, k.adm.trans h.adm, k.svc.trans h.svc⟩

theorem ite {s t u : State} (c : Prop) [Decidable c] (ht : Drains s t) (hu : Drains s u) :
    Drains s (if c then t else u) := by split <;> assumption

theorem foldl {α : Type} {f : State → α → State} (hf : ∀ s a, Drains s (f s a)) (l : List α) :
    ∀ s, Drains s (l.foldl f s) := by
  induction l with
  | nil => exact refl
  | cons a l ih => exact fun s => (hf s a).trans (ih _)

theorem wr (s : State) {r : Nat} (v : Word) (hr : r / 0x100000 = 0x401) : Drains s (s.wr r v) :=
  ⟨fun _ _ hb => State.rd_wr_ne _ _ fun e => hb (e ▸ hr), rfl, rfl, rfl⟩

theorem fset (s : State) (f : Fld) (v : Nat) (hr : f.addr / 0x100000 = 0x401) : Drains s (s.fset f v) := wr s _ hr

theorem raise (s : State) (f : Fld) (hr : f.addr / 0x100000 = 0x401) : Drains s (s.raise f) := wr s _ hr

theorem count (s : State) (e n : Nat) : Drains s (s.count e n) :=
  ⟨fun _ ha _ => State.rd_count_low _ _ _ ha.1, State.count_dsp _ _ _, State.count_adm _ _ _, State.count_svc _ _ _⟩

theorem signal (s : State) {n : Nat} (hn : n < 128) (unit : Nat) : Drains s (s.signal n unit) :=
  ⟨fun _ ha _ => State.rd_signal_noEvent s hn unit ha, State.signal_dsp _ _ _, State.signal_adm _ _ _,
    State.signal_svc _ _ _⟩

theorem setCtl (s : State) (n : Fin 16) (c : Core) : Drains s (s.setCore (.ctl n) c) := ⟨fun _ _ _ => rfl, rfl, rfl, rfl⟩

theorem tags (s : State) (m : Sparse Bool) : Drains s { s with tags := m } := ⟨fun _ _ _ => rfl, rfl, rfl, rfl⟩

theorem stalled (s : State) (f : FlcState) : Drains s { s with flc := f } := ⟨fun _ _ _ => rfl, rfl, rfl, rfl⟩

theorem storeBytes (s : State) (a : Nat) (b : List Byte) : Drains s (s.storeBytes a b) := ⟨fun _ _ _ => rfl, rfl, rfl, rfl⟩

theorem stopAsked (s : State) (n : Fin 16) (b : Bool) : Drains s (s.stopAsked n b) := ⟨fun _ _ _ => rfl, rfl, rfl, rfl⟩

theorem dropWaits (s : State) (n : Fin 16) : Drains s (s.dropWaits n) := ⟨fun _ _ _ => rfl, rfl, rfl, rfl⟩

theorem deferError (s : State) (n : Fin 16) (a : Nat) : Drains s (s.deferError n a) := setCtl s n _

theorem setBuf (s : State) (n : Fin 16) (b : List BufStore) : Drains s (s.setBuf n b) := setCtl s n _

/-- A denial is recorded in the registers of the access table (07 R206). -/
theorem violate (s : State) (a : Acc) (addr : Nat) (ty : Access) (d : Denial) : Drains s (s.violate a addr ty d) := by
  have h0 : Drains s ((s.raise ACT_EVT_VIOL).count 0x05B 1) := (raise s ACT_EVT_VIOL (by decide)).trans (count _ _ _)
  have h1 : ∀ t v w, Drains t ((t.wr ACT_VIOL_ADDR v).wr ACT_VIOL_INFO w) := fun t v w =>
    (wr t v (by decide)).trans (wr _ w (by decide))
  have h2 : ∀ t, Drains t (((t.raise ACT_EVT_DBG_LOCK).raise ACT_DBGSTKY_HIT).signal 81 0) := fun t =>
    ((raise t ACT_EVT_DBG_LOCK (by decide)).trans (raise _ ACT_DBGSTKY_HIT (by decide))).trans (signal _ (by decide) 0)
  simp only [State.violate]
  split
  · refine trans ?_ (h2 _)
    split
    · exact h0.trans (raise _ ACT_VIOL_INFO_MORE (by decide))
    · exact h0.trans (h1 _ _ _)
  · refine trans ?_ (signal _ (by decide) 0)
    split
    · exact h0.trans (raise _ ACT_VIOL_INFO_MORE (by decide))
    · exact h0.trans (h1 _ _ _)

theorem enter (s : State) (a : Acc) (addr : Nat) (ty : Access) : Drains s (s.enter a addr ty).2 := by
  unfold State.enter
  split
  · exact refl s
  · split
    · exact refl s
    · exact violate s a addr ty _

theorem storeEnters (s : State) (n : Fin 16) : Drains s (s.storeEnters n) := by
  simp only [State.storeEnters]
  split
  · exact refl s
  · next b _ =>
    have he := enter s ⟨.ctl n, b.perms⟩ b.addr .write
    split
    · next h => rw [h] at he; exact he.trans (setBuf _ _ _)
    · next h => rw [h] at he; exact (he.trans (setBuf _ _ _)).trans (deferError _ _ _)

theorem drainOld (s : State) : Drains s s.drainOld := by
  simp only [State.drainOld]
  split
  · exact refl s
  · have h := fset s ACT_EPOCH_DRAIN_OLD_LIVE (s.fget ACT_EPOCH_DRAIN_OLD_LIVE - 1) (by decide)
    split
    · exact h.trans (raise _ ACT_EVT_EPOCH_DONE (by decide))
    · exact h

theorem storeLands (s : State) (n : Fin 16) (b : BufStore) : Drains s (s.storeLands n b) := by
  unfold State.storeLands
  split
  · split
    · exact (storeBytes s _ _).trans (tags _ _)
    · exact storeBytes s _ _
  · exact deferError s n _

theorem storeCompletes (s : State) (n : Fin 16) : Drains s (s.storeCompletes n) := by
  unfold State.storeCompletes
  split
  · next b rest _ =>
    have h := (setBuf s n rest).trans (storeLands _ n b)
    split
    · exact .ite _ (h.trans (drainOld _)) h
    · exact refl s
  · exact refl s

theorem drainSteps (n : Fin 16) (k : Nat) : ∀ s : State, Drains s (s.drainSteps n k) := by
  induction k with
  | zero => exact refl
  | succ k ih => exact fun s => ((storeEnters s n).trans (storeCompletes _ n)).trans (ih _)

theorem endStalls (s : State) (m : Master) : Drains s (s.endStalls m) :=
  (stalled s _).trans (foldl (fun s _ => drainOld s) _ _)

end Drains

/-- Control core `n` has stopped, but for its STATE. -/
def State.drained (s : State) (n : Fin 16) : State := ((s.drainBuf n).endStalls (.ctl n)).dropWaits n

theorem Drains.drained (s : State) (n : Fin 16) : Drains s (s.drained n) :=
  ((Drains.drainSteps n _ s).trans (.endStalls _ _)).trans (.dropWaits _ n)

theorem State.stopCore_eq (s : State) (n : Fin 16) : s.stopCore n =
    if s.fget (SYS_CORE_CTRL_STATE n) = 1 then ((s.drained n).fset (SYS_CORE_CTRL_STATE n) 2).stopAsked n false else s := by rfl

theorem State.rd_stopCore (s : State) (n : Fin 16) {a : Nat} (h : NoEvent a) (ha : a / 0x100000 ≠ 0x401)
    (hn : a ≠ SYS_CORE_CTRL n) : (s.stopCore n).rd a = s.rd a := by
  rw [State.stopCore_eq]
  split
  · calc _ = ((s.drained n).fset (SYS_CORE_CTRL_STATE n) 2).rd a := (Drains.stopAsked _ n false).regs a h ha
      _ = (s.drained n).rd a := State.rd_fset_ne _ (SYS_CORE_CTRL_STATE n) _ hn
      _ = s.rd a := (Drains.drained s n).regs a h ha
  · rfl

/-- A core that stops leaves the contexts, the ledger and the refusals alone. -/
theorem State.stopCore_frame (s : State) (n : Fin 16) :
    (s.stopCore n).dsp = s.dsp ∧ (s.stopCore n).adm = s.adm ∧ (s.stopCore n).svc = s.svc := by
  have h := Drains.drained s n
  have ha := Drains.stopAsked ((s.drained n).fset (SYS_CORE_CTRL_STATE n) 2) n false
  rw [State.stopCore_eq]
  split
  · exact ⟨ha.dsp.trans ((State.fset_dsp _ _ _).trans h.dsp), ha.adm.trans ((State.fset_adm _ _ _).trans h.adm),
      ha.svc.trans ((State.fset_svc _ _ _).trans h.svc)⟩
  · exact ⟨rfl, rfl, rfl⟩

/-- A control core that has stopped runs no more, and no other core runs for it. -/
theorem State.fget_state_stopCore (s : State) (n m : Fin 16) :
    (m = n ∨ s.fget (SYS_CORE_CTRL_STATE m) ≠ 1) → (s.stopCore n).fget (SYS_CORE_CTRL_STATE m) ≠ 1 := by
  intro h
  have hm := m.isLt
  by_cases hmn : m = n
  · subst hmn
    rw [State.stopCore_eq]
    split
    · rw [State.fget_of_rd ((Drains.stopAsked _ m false).regs _ (by simp only [NoEvent, SYS_CORE_CTRL]; omega)
        (by simp only [SYS_CORE_CTRL]; omega)), State.fget_fset_self _ _ _ (by simp [Fld.fits])]
      simp
    · assumption
  · have hne : m.val ≠ n.val := Fin.val_ne_of_ne hmn
    rw [State.fget_of_rd (s.rd_stopCore n (by simp only [NoEvent, SYS_CORE_CTRL]; omega)
      (by simp only [SYS_CORE_CTRL]; omega) (by simp only [SYS_CORE_CTRL]; omega))]
    exact h.resolve_left hmn

theorem fget_state_foldl_stopCore (m : Fin 16) : ∀ (l : List (Fin 16)) (s : State),
    m ∈ l ∨ s.fget (SYS_CORE_CTRL_STATE m) ≠ 1 → (l.foldl State.stopCore s).fget (SYS_CORE_CTRL_STATE m) ≠ 1
  | [], _, h => h.resolve_left List.not_mem_nil
  | n :: l, s, h => by
    refine fget_state_foldl_stopCore m l _ ?_
    rcases h with h | h
    · exact (List.mem_cons.mp h).elim (fun e => .inr (s.fget_state_stopCore n m (.inl e))) .inl
    · exact .inr (s.fget_state_stopCore n m (.inr h))

/-- No control core runs when all have stopped. -/
theorem State.fget_state_stopCores (s : State) (n : Fin 16) : s.stopCores.fget (SYS_CORE_CTRL_STATE n) ≠ 1 :=
  fget_state_foldl_stopCore n _ s (.inl (List.mem_finRange n))

/-- The registers that the stopping of the cores leaves alone. -/
def NoCore (a : Nat) : Prop := NoEvent a ∧ a / 0x100000 ≠ 0x401 ∧ ¬(0x40000100 ≤ a ∧ a < 0x40000200)

theorem State.rd_stopCores (s : State) {a : Nat} (h : NoCore a) : s.stopCores.rd a = s.rd a :=
  foldl_keeps (fun s => s.rd a) (fun s n => s.rd_stopCore n h.1 h.2.1 (by
    have := n.isLt
    have := h.2.2
    simp only [SYS_CORE_CTRL]; omega)) _ s

theorem State.stopCores_frame (s : State) : s.stopCores.dsp = s.dsp ∧ s.stopCores.adm = s.adm ∧ s.stopCores.svc = s.svc :=
  ⟨foldl_keeps State.dsp (fun s n => (s.stopCore_frame n).1) _ s,
    foldl_keeps State.adm (fun s n => (s.stopCore_frame n).2.1) _ s,
    foldl_keeps State.svc (fun s n => (s.stopCore_frame n).2.2) _ s⟩

/-! ### The safe state (16 R373) -/

/-- Silence: the safe state is shown, and the ports, the admission and the protocol are switched off. -/
def State.silenced (s : State) : State :=
  (((s.raise FLT_STAT_SAFE).lower SVC_CTRL_EN).lower ADM_CTRL_EN).lower DUO_CTRL_EN

/-- No context, no descriptor and no refusal remains. -/
def State.emptied (s : State) : State :=
  let s := s.live.foldl (fun s e => s.freeCtx e.1) s
  { s with
    adm := { s.adm with descs := [] }
    svc := { s.svc with refusals := [] }
    mau := s.mau.map fun (e : Nat × EngUnit) => (e.1, { e.2 with held := none }) }

theorem State.safeState_eq (s : State) : s.safeState = (s.silenced.duoOff.emptied.setLantern 0).stopCores := by rfl

theorem State.rd_emptied (s : State) {a : Nat} (h : a < 0x41100000) : s.emptied.rd a = s.rd a :=
  State.rd_foldl_freeCtx Prod.fst h s.live s

theorem State.live_emptied (s : State) : s.emptied.live = [] := s.live_foldl_freeCtx

theorem State.rd_raise_ne (s : State) (f : Fld) {a : Nat} (h : a ≠ f.addr) : (s.raise f).rd a = s.rd a := State.rd_fset_ne _ _ _ h
theorem State.rd_lower_ne (s : State) (f : Fld) {a : Nat} (h : a ≠ f.addr) : (s.lower f).rd a = s.rd a := State.rd_fset_ne _ _ _ h

theorem State.rd_silenced (s : State) {a : Nat} (h1 : a ≠ SVC_CTRL) (h2 : a ≠ ADM_CTRL) (h3 : a ≠ DUO_CTRL) :
    s.silenced.rd a = (s.raise FLT_STAT_SAFE).rd a := by
  rw [State.silenced, State.rd_lower_ne _ DUO_CTRL_EN h3, State.rd_lower_ne _ ADM_CTRL_EN h2,
    State.rd_lower_ne _ SVC_CTRL_EN h1]

theorem State.on_en_silenced (s : State) :
    s.silenced.on SVC_CTRL_EN = false ∧ s.silenced.on ADM_CTRL_EN = false ∧ s.silenced.on DUO_CTRL_EN = false := by
  refine ⟨?_, ?_, State.on_lower_self _ _ (by simp [Fld.fits])⟩
  · rw [State.silenced, State.on_of_rd (State.rd_lower_ne _ DUO_CTRL_EN (by decide)),
      State.on_of_rd (State.rd_lower_ne _ ADM_CTRL_EN (by decide))]
    exact State.on_lower_self _ _ (by simp [Fld.fits])
  · rw [State.silenced, State.on_of_rd (State.rd_lower_ne _ DUO_CTRL_EN (by decide))]
    exact State.on_lower_self _ _ (by simp [Fld.fits])

/-- The state before the cores stop: no service, no role, no context. -/
theorem State.setLantern_emptied (s : State) : s.emptied.setLantern 0 = s.emptied.fset ADM_STAT_LANTERN 0 :=
  State.setLantern_of_live_nil s.live_emptied 0

theorem State.rd_safeState_late (s : State) {a : Nat} (h : NoCore a) (ha : a ≠ ADM_STAT) :
    s.safeState.rd a = s.silenced.duoOff.rd a := by
  rw [State.safeState_eq, State.rd_stopCores _ h, State.setLantern_emptied, State.rd_fset_ne _ ADM_STAT_LANTERN _ ha,
    State.rd_emptied _ h.1.1]

/-- The registers that the safe state leaves as silence does. -/
theorem State.rd_safeState (s : State) {a : Nat} (h : NoCore a) (ha : Apart a) : s.safeState.rd a = s.silenced.rd a :=
  (s.rd_safeState_late h ha.2.2.2.1).trans (State.rd_duoOff _ ha)

theorem State.safeState_frame (s : State) : s.safeState.dsp = s.silenced.duoOff.emptied.dsp ∧
    s.safeState.adm.descs = [] ∧ s.safeState.svc.refusals = [] := by
  obtain ⟨hd, ha, hs⟩ := State.stopCores_frame (s.silenced.duoOff.emptied.setLantern 0)
  rw [← State.safeState_eq] at hd ha hs
  rw [State.setLantern_emptied] at hd ha hs
  rw [hd, ha, hs, State.fset_dsp, State.fset_adm, State.fset_svc]
  exact ⟨rfl, rfl, rfl⟩

/-- What the safe state is (16 R373): but for its cores, whose STATE says so. -/
theorem State.safeNow_safeState (s : State) : safeNow s.safeState := by
  have hn : ∀ {a : Nat}, a = FLT_STAT ∨ a = SVC_CTRL ∨ a = ADM_CTRL ∨ a = DUO_CTRL ∨ a = DUO_STAT → NoCore a := by
    rintro a (rfl | rfl | rfl | rfl | rfl) <;> (unfold NoCore NoEvent; decide)
  have hrd : ∀ {a : Nat}, a = FLT_STAT ∨ a = ADM_CTRL ∨ a = DUO_CTRL → s.safeState.rd a = s.silenced.rd a := by
    rintro a (rfl | rfl | rfl) <;> exact s.rd_safeState (hn (by simp)) (by unfold Apart NoEvent; decide)
  obtain ⟨hsvc, hadm, hduo⟩ := s.on_en_silenced
  obtain ⟨hdsp, hdescs, hrefs⟩ := s.safeState_frame
  refine ⟨?_, ?_, ?_, ?_, ?_, ?_, ?_, hdescs, hrefs, fun n => ?_⟩
  · rw [State.on_of_rd ((hrd (.inl rfl)).trans (s.rd_silenced (by decide) (by decide) (by decide)))]
    exact State.on_raise_self _ _ (by simp [Fld.fits]) (by simp)
  · rw [State.on_of_rd (s.rd_safeState_late (hn (by simp)) (by decide))]
    exact State.on_svcEn_duoOff hsvc
  · rw [State.on_of_rd (hrd (by simp)), hadm]
  · rw [State.on_of_rd (hrd (by simp)), hduo]
  · rw [State.fget_of_rd (s.rd_safeState_late (hn (by simp)) (by decide))]
    exact State.fget_role_duoOff _
  · rw [State.safeState_eq, State.fget_of_rd (State.rd_stopCores _ (by unfold NoCore NoEvent; decide)),
      State.setLantern_emptied, State.fget_fset_self _ _ _ (by simp [Fld.fits])]
    decide
  · refine State.st_of_live_nil ?_
    rw [State.live_congr hdsp]
    exact State.live_emptied _
  · rw [State.safeState_eq]
    exact State.fget_state_stopCores _ n

end Sys2Proof.Machine
end

section
/-!
SUPPORT. Proofs/QuenchEntry.lean: the entry into QUENCH (13 R321) after a SNUFF (16 R373): what is destroyed, and what the
end of the entry leaves alone.
-/

namespace Sys2Proof.Machine

/-! ### The last fault record (18 R400) -/

/-- `t` is `s` but for the tag memory's registers and state. -/
def TagOnly (s t : State) : Prop :=
  (∃ r x, t = { s with regs := r, tag := x }) ∧ ∀ a, a / 0x100000 ≠ 0x40F → t.rd a = s.rd a

namespace TagOnly

theorem refl (s : State) : TagOnly s s := ⟨⟨_, _, rfl⟩, fun _ _ => rfl⟩

theorem trans {s t u : State} (h : TagOnly s t) (k : TagOnly t u) : TagOnly s u := by
  obtain ⟨⟨r, x, rfl⟩, hr⟩ := h
  obtain ⟨⟨r', x', rfl⟩, hr'⟩ := k
  exact ⟨⟨r', x', rfl⟩, fun a ha => (hr' a ha).trans (hr a ha)⟩

theorem wr (s : State) {r : Nat} (v : Word) (hr : r / 0x100000 = 0x40F) : TagOnly s (s.wr r v) :=
  ⟨⟨_, _, rfl⟩, fun _ ha => State.rd_wr_ne _ _ fun e => ha (e ▸ hr)⟩

theorem fset (s : State) (f : Fld) (v : Nat) (hr : f.addr / 0x100000 = 0x40F) : TagOnly s (s.fset f v) := wr s _ hr

theorem withTag (s : State) (x : TagState) : TagOnly s { s with tag := x } := ⟨⟨_, _, rfl⟩, fun _ _ => rfl⟩

theorem wiredAsked (s : State) (l : Nat) (d : List Byte) : TagOnly s (s.wiredAsked l d) := by
  unfold State.wiredAsked
  split
  · exact (fset s TAG_STAT_WWAIT 1 (by decide)).trans (withTag _ _)
  · exact ((fset s TAG_STAT_WBUSY 1 (by decide)).trans (fset _ TAG_STAT_WWAIT 0 (by decide))).trans (withTag _ _)

theorem wdata (d : List Byte) : ∀ (l : List Nat) (s : State), (∀ k ∈ l, k < 4) →
    TagOnly s (l.foldl (fun s k => s.wr (TAG_WDATA k) (BitVec.ofNat 64 (leAt d (4 * k) 4))) s)
  | [], s, _ => refl s
  | k :: l, s, h => by
    obtain ⟨hk, hl⟩ := List.forall_mem_cons.mp h
    exact (wr s _ (by simp only [TAG_WDATA]; omega)).trans (wdata d l _ hl)

theorem faultWrites (s : State) : TagOnly s s.faultWrites := by
  unfold State.faultWrites
  split
  · exact refl s
  · next l d rest _ =>
    split
    · exact refl s
    · have h := wdata d (List.range 4) s fun k hk => List.mem_range.mp hk
      exact (((h.trans (fset _ TAG_WCMD_OP 2 (by decide))).trans (fset _ TAG_WCMD_LINE l (by decide))).trans
        (withTag _ _)).trans (wiredAsked _ l d)

theorem lastFault (s : State) : TagOnly s s.lastFault := by
  simp only [State.lastFault]
  exact (withTag s _).trans (faultWrites _)

end TagOnly

/-! ### The stages of the entry (13 R321) -/

/-- The safe state, every key destroyed, and the BMK erased by a SNUFF. -/
def State.snuffed (s : State) : State := s.safeState.destroyKeys.eraseBmk.raise SYS_BOOTTAMP_SNUFF

/-- A suspended erase resumes (14 R343). -/
def State.resumesErase (s : State) : State :=
  if s.on FLC_STAT_SUSP then { s.lower FLC_STAT_SUSP with flc := { s.flc with resumedAt := s.tb } } else s

/-- The mode is QUENCH, and the memory PHYs are gated. -/
def State.inQuench (s : State) : State := State.setMode { s with sys := { s.sys with ddrTrained := false } } .quench

/-- Core 0 stands at Kindling's QUENCH entry. -/
def State.atKindling (s : State) : State :=
  (s.setCore (.ctl 0) { coreAtReset with pc := Config.quenchEntry }).fset (SYS_CORE_CTRL_STATE 0) 1

theorem State.quenchEntry_snuff (s : State) :
    s.quenchEntry true = s.snuffed.resumesErase.inQuench.atKindling.lastFault := by rfl

/-- The contexts, the keys and the engines are in `t` as in `s`. -/
structure SameStores (s t : State) : Prop where
  dsp : t.dsp = s.dsp
  kst : t.kst = s.kst
  rng : t.rng = s.rng
  cph : t.cph = s.cph
  mau : t.mau = s.mau
  cphQ : t.cphQ = s.cphQ
  mauQ : t.mauQ = s.mauQ
  bmk : t.sys.bmk = s.sys.bmk

theorem SameStores.trans {s t u : State} (h : SameStores s t) (k : SameStores t u) : SameStores s u :=
  ⟨k.dsp.trans h.dsp, k.kst.trans h.kst, k.rng.trans h.rng, k.cph.trans h.cph, k.mau.trans h.mau, k.cphQ.trans h.cphQ,
    k.mauQ.trans h.mauQ, k.bmk.trans h.bmk⟩

theorem SameStores.refl (s : State) : SameStores s s := ⟨rfl, rfl, rfl, rfl, rfl, rfl, rfl, rfl⟩

theorem SameStores.of_regs {s t : State} (h : RegsOnly s t) : SameStores s t := by
  obtain ⟨r, rfl⟩ := h
  exact ⟨rfl, rfl, rfl, rfl, rfl, rfl, rfl, rfl⟩

theorem SameStores.withFlc (s : State) (x : FlcState) : SameStores s { s with flc := x } :=
  ⟨rfl, rfl, rfl, rfl, rfl, rfl, rfl, rfl⟩

theorem SameStores.withCrd (s : State) (x : CrdState) : SameStores s { s with crd := x } :=
  ⟨rfl, rfl, rfl, rfl, rfl, rfl, rfl, rfl⟩

theorem SameStores.withSys (s : State) (x : SysState) (h : x.bmk = s.sys.bmk) : SameStores s { s with sys := x } :=
  ⟨rfl, rfl, rfl, rfl, rfl, rfl, rfl, h⟩

theorem State.rd_withFlc (s : State) (x : FlcState) (a : Nat) : ({ s with flc := x } : State).rd a = s.rd a := by rfl

theorem sameStores_resumesErase (s : State) : SameStores s s.resumesErase := by
  unfold State.resumesErase
  split
  · exact (SameStores.of_regs ((RegsOnly.refl s).lower FLC_STAT_SUSP)).trans (.withFlc _ _)
  · exact .refl s

theorem State.rd_resumesErase (s : State) {a : Nat} (h : a ≠ FLC_STAT) : s.resumesErase.rd a = s.rd a := by
  unfold State.resumesErase
  split
  · exact (State.rd_withFlc _ _ a).trans (State.rd_lower_ne s FLC_STAT_SUSP h)
  · rfl

/-- FORCE falls where CUSTODY is left (13 Table 13.2). -/
def State.forceFalls (s : State) : State := if s.sys.mode = .custody then s.lower DUO_CTRL_FORCE else s

theorem forceFalls_regsOnly (s : State) : RegsOnly s s.forceFalls := .ite _ ((RegsOnly.refl s).lower _) (.refl s)

theorem State.rd_forceFalls (s : State) {a : Nat} (h : a ≠ DUO_CTRL) : s.forceFalls.rd a = s.rd a := by
  unfold State.forceFalls
  split
  · exact State.rd_lower_ne s DUO_CTRL_FORCE h
  · rfl

theorem State.on_duoEn_forceFalls (s : State) : s.forceFalls.on DUO_CTRL_EN = s.on DUO_CTRL_EN := by
  unfold State.forceFalls
  split
  · exact State.on_lower_apart _ DUO_CTRL_FORCE DUO_CTRL_EN (by simp [Fld.fits]) (by simp [Fld.apart])
  · rfl

theorem sameStores_quorumClose (s : State) : SameStores s s.quorumClose :=
  (SameStores.of_regs ((((RegsOnly.refl s).lower CRD_QSTAT_AUTH).lower CRD_QSTAT_OPEN).lower CRD_QSTAT_BUSY)).trans
    (.withCrd _ _)

theorem State.rd_withCrd (s : State) (c : CrdState) (a : Nat) : ({ s with crd := c } : State).rd a = s.rd a := by rfl

theorem State.rd_quorumClose (s : State) {a : Nat} (h : a ≠ CRD_QSTAT) : s.quorumClose.rd a = s.rd a := by
  calc s.quorumClose.rd a
    _ = _ := State.rd_withCrd _ _ _
    _ = _ := State.rd_lower_ne _ CRD_QSTAT_BUSY h
    _ = _ := State.rd_lower_ne _ CRD_QSTAT_OPEN h
    _ = s.rd a := State.rd_lower_ne _ CRD_QSTAT_AUTH h

theorem State.setMode_quench (s : State) : s.setMode .quench =
    if s.sys.mode = .quench then s else (s.forceFalls.quorumClose).inMode .quench := by rfl

theorem sameStores_inMode (s : State) (m : Mode) : SameStores s (s.inMode m) := by
  have h : RegsOnly s (if s.counting then s.raise SYS_EVT_MODE_CHG else s) := .ite _ ((RegsOnly.refl s).raise _) (.refl s)
  exact (SameStores.of_regs h).trans (.withSys _ _ rfl)

theorem State.rd_inMode (s : State) (m : Mode) {a : Nat} (h : a ≠ SYS_EVT) : (s.inMode m).rd a = s.rd a := by
  have hr : ∀ (t : State) (y : SysState), ({ t with sys := y } : State).rd a = t.rd a := fun _ _ => rfl
  refine (hr _ _).trans ?_
  split
  · exact State.rd_raise_ne s SYS_EVT_MODE_CHG h
  · rfl

theorem State.mode_inMode (s : State) (m : Mode) : (s.inMode m).sys.mode = m := by rfl

theorem State.ddrTrained_inMode (s : State) (m : Mode) : (s.inMode m).sys.ddrTrained = s.sys.ddrTrained := by
  simp only [State.inMode]
  split <;> simp

theorem sameStores_setMode (s : State) : SameStores s (s.setMode .quench) := by
  rw [State.setMode_quench]
  split
  · exact .refl s
  · exact ((SameStores.of_regs (forceFalls_regsOnly s)).trans (sameStores_quorumClose _)).trans (sameStores_inMode _ _)

theorem sameStores_inQuench (s : State) : SameStores s s.inQuench :=
  (SameStores.withSys s { s.sys with ddrTrained := false } rfl).trans (sameStores_setMode _)

theorem State.rd_setMode (s : State) {a : Nat} (h1 : a ≠ DUO_CTRL) (h2 : a ≠ CRD_QSTAT) (h3 : a ≠ SYS_EVT) :
    (s.setMode .quench).rd a = s.rd a := by
  rw [State.setMode_quench]
  split
  · rfl
  · rw [State.rd_inMode _ _ h3, State.rd_quorumClose _ h2, State.rd_forceFalls _ h1]

theorem State.rd_inQuench (s : State) {a : Nat} (h1 : a ≠ DUO_CTRL) (h2 : a ≠ CRD_QSTAT) (h3 : a ≠ SYS_EVT) :
    s.inQuench.rd a = s.rd a := State.rd_setMode _ h1 h2 h3

theorem State.on_duoEn_inQuench (s : State) : s.inQuench.on DUO_CTRL_EN = s.on DUO_CTRL_EN := by
  have hs : ∀ t : State, (t.setMode .quench).on DUO_CTRL_EN = t.on DUO_CTRL_EN := fun t => by
    rw [State.setMode_quench]
    split
    · rfl
    · rw [State.on_of_rd (State.rd_inMode _ _ (by decide)), State.on_of_rd (State.rd_quorumClose _ (by decide)),
        State.on_duoEn_forceFalls]
  exact hs _

theorem State.mode_setMode (s : State) (m : Mode) : (s.setMode m).sys.mode = m := by
  unfold State.setMode
  split
  · assumption
  · exact State.mode_inMode _ _

theorem State.sys_forceFalls (s : State) : s.forceFalls.sys = s.sys := by
  unfold State.forceFalls
  split <;> simp

theorem State.sys_quorumClose (s : State) : s.quorumClose.sys = s.sys := by simp [State.quorumClose]

/-- The mode is QUENCH, and the PHYs are gated. -/
theorem State.sys_inQuench (s : State) : s.inQuench.sys.mode = .quench ∧ s.inQuench.sys.ddrTrained = false := by
  refine ⟨State.mode_setMode _ _, ?_⟩
  have hs : ∀ t : State, (t.setMode .quench).sys.ddrTrained = t.sys.ddrTrained := fun t => by
    rw [State.setMode_quench]
    split
    · rfl
    · rw [State.ddrTrained_inMode, State.sys_quorumClose, State.sys_forceFalls]
  exact hs _

/-! ### What the end of the entry leaves alone -/

/-- The registers that the steps after the destruction leave alone. -/
def NoEntry (a : Nat) : Prop :=
  a ≠ FLC_STAT ∧ a ≠ DUO_CTRL ∧ a ≠ CRD_QSTAT ∧ a ≠ SYS_EVT ∧ a ≠ SYS_CORE_CTRL 0 ∧ a / 0x100000 ≠ 0x40F

theorem State.rd_atKindling (s : State) {a : Nat} (h : a ≠ SYS_CORE_CTRL 0) : s.atKindling.rd a = s.rd a :=
  State.rd_fset_ne _ (SYS_CORE_CTRL_STATE 0) _ h

theorem State.rd_quenchEntry (s : State) {a : Nat} (h : NoEntry a) : (s.quenchEntry true).rd a = s.snuffed.rd a := by
  obtain ⟨h1, h2, h3, h4, h5, h6⟩ := h
  rw [State.quenchEntry_snuff, (TagOnly.lastFault _).2 a h6, State.rd_atKindling _ h5, State.rd_inQuench _ h2 h3 h4,
    State.rd_resumesErase _ h1]

theorem State.on_duoEn_quenchEntry (s : State) : (s.quenchEntry true).on DUO_CTRL_EN = s.snuffed.on DUO_CTRL_EN := by
  rw [State.quenchEntry_snuff, State.on_of_rd ((TagOnly.lastFault _).2 _ (by decide)),
    State.on_of_rd (State.rd_atKindling _ (by decide)), State.on_duoEn_inQuench, State.on_of_rd (State.rd_resumesErase _ (by decide))]

theorem sameStores_lastFault (s : State) : SameStores s s.lastFault := by
  obtain ⟨r, x, h⟩ := (TagOnly.lastFault s).1
  rw [h]
  exact ⟨rfl, rfl, rfl, rfl, rfl, rfl, rfl, rfl⟩

theorem sameStores_atKindling (s : State) : SameStores s s.atKindling := ⟨rfl, rfl, rfl, rfl, rfl, rfl, rfl, rfl⟩

theorem sameStores_quenchEntry (s : State) : SameStores s.snuffed (s.quenchEntry true) :=
  (((sameStores_resumesErase _).trans (sameStores_inQuench _)).trans (sameStores_atKindling _)).trans (sameStores_lastFault _)

theorem State.core_lastFault (s : State) : s.lastFault.core (.ctl 0) = s.core (.ctl 0) ∧ s.lastFault.sys = s.sys := by
  obtain ⟨r, x, h⟩ := (TagOnly.lastFault s).1
  rw [h]
  exact ⟨rfl, rfl⟩

theorem State.core_atKindling (s : State) : s.atKindling.core (.ctl 0) = { coreAtReset with pc := Config.quenchEntry } := by
  have h : s.atKindling.cores = sput {} s.cores 0 { coreAtReset with pc := Config.quenchEntry } := State.fset_cores _ _ _
  unfold State.core
  rw [h]
  exact sget_sput_self _ _ _ _

/-- Core 0 stands at Kindling's QUENCH entry and runs; the mode is QUENCH. -/
theorem State.quenchEntry_core (s : State) :
    (s.quenchEntry true).core (.ctl 0) = { coreAtReset with pc := Config.quenchEntry } ∧
    (s.quenchEntry true).fget (SYS_CORE_CTRL_STATE 0) = 1 ∧ (s.quenchEntry true).sys.mode = .quench ∧
    (s.quenchEntry true).sys.ddrTrained = false := by
  rw [State.quenchEntry_snuff]
  obtain ⟨hcore, hsys⟩ := s.snuffed.resumesErase.inQuench.atKindling.core_lastFault
  obtain ⟨hm, hd⟩ := s.snuffed.resumesErase.sys_inQuench
  refine ⟨hcore.trans (State.core_atKindling _), ?_, ?_, ?_⟩
  · rw [State.fget_of_rd ((TagOnly.lastFault _).2 _ (by decide)), State.atKindling,
      State.fget_fset_self _ _ _ (by simp [Fld.fits])]
    rfl
  · rw [hsys]; exact hm
  · rw [hsys]; exact hd

/-! ### What is destroyed (13 R321) -/

/-- The keys, the engines and the random blocks are gone; the registers do not say so yet. -/
def State.wiped (s : State) : State :=
  { s with
    kst := { s.kst with records := [], cached := [], nexts := [], transient := [], log := [], waiting := [], raises := [],
                        hotValid := [], refresh := [], running := none, mounting := false, checkpointing := false,
                        hotKey := 0, sealingKey := 0 }
    cphQ := []
    mauQ := []
    cph := []
    mau := []
    cphTake := []
    mauBuf := []
    damaged := s.damaged.filter fun e => decide (e.1 < slotKey 0) }

theorem State.destroyKeys_eq (s : State) : s.destroyKeys =
    { (s.wiped.lower KST_STAT_MOUNTED).setBuffer [] with
      rng := { (s.wiped.lower KST_STAT_MOUNTED).rng with buffer := [] } } := by rfl

theorem State.rd_wiped (s : State) (a : Nat) : s.wiped.rd a = s.rd a := by rfl

theorem State.rd_withRng (s : State) (x : RngState) (a : Nat) : ({ s with rng := x } : State).rd a = s.rd a := by rfl

theorem State.rd_destroyKeys (s : State) {a : Nat} (h : a ≠ RNG_STAT) :
    s.destroyKeys.rd a = (s.wiped.lower KST_STAT_MOUNTED).rd a := by
  rw [State.destroyKeys_eq, State.rd_withRng, State.setBuffer, State.rd_fset_ne _ RNG_STAT_BLOCKS _ h]
  rfl

theorem State.rd_eraseBmk (s : State) {a : Nat} (h : a ≠ SYS_BOOTTAMP) : s.eraseBmk.rd a = s.rd a := by
  have hr : ∀ (t : State) y k, ({ t with sys := y, kst := k } : State).rd a = t.rd a := fun _ _ _ => rfl
  exact (hr _ _ _).trans (State.rd_lower_ne s SYS_BOOTTAMP_BMK_VALID h)

theorem State.rd_snuffed_late (s : State) {a : Nat} (h1 : a ≠ RNG_STAT) (h2 : a ≠ SYS_BOOTTAMP) :
    s.snuffed.rd a = (s.safeState.wiped.lower KST_STAT_MOUNTED).rd a := by
  rw [State.snuffed, State.rd_raise_ne _ SYS_BOOTTAMP_SNUFF h2, State.rd_eraseBmk _ h2, State.rd_destroyKeys _ h1]

theorem State.rd_snuffed (s : State) {a : Nat} (h1 : a ≠ KST_STAT) (h2 : a ≠ RNG_STAT) (h3 : a ≠ SYS_BOOTTAMP) :
    s.snuffed.rd a = s.safeState.rd a := by
  rw [State.rd_snuffed_late _ h2 h3, State.rd_lower_ne _ KST_STAT_MOUNTED h1, State.rd_wiped]

theorem State.on_mounted_snuffed (s : State) : s.snuffed.on KST_STAT_MOUNTED = false := by
  rw [State.on_of_rd (State.rd_snuffed_late _ (by decide) (by decide))]
  exact State.on_lower_self _ _ (by simp [Fld.fits])

theorem State.on_snuff_snuffed (s : State) : s.snuffed.on SYS_BOOTTAMP_SNUFF = true :=
  State.on_raise_self _ _ (by simp [Fld.fits]) (by simp)

/-- No key, no engine state and no random block remains, nor the BMK. -/
theorem State.snuffed_stores (s : State) :
    let t := s.snuffed
    t.kst.records = [] ∧ t.kst.cached = [] ∧ t.kst.transient = [] ∧ t.kst.hotKey = 0 ∧ t.kst.sealingKey = 0 ∧
    t.kst.sealedRecs = [] ∧ t.kst.tail = [] ∧ t.rng.buffer = [] ∧ t.cph = [] ∧ t.mau = [] ∧ t.cphQ = [] ∧ t.mauQ = [] ∧
    t.sys.bmk = 0 ∧ t.dsp = s.safeState.dsp := by
  simp [State.snuffed, State.eraseBmk, State.destroyKeys_eq, State.setBuffer, State.wiped]

/-! ### QUENCH entry after a SNUFF (16 R373) -/

theorem State.on_quenchEntry (s : State) (f : Fld) (h : NoEntry f.addr) : (s.quenchEntry true).on f = s.snuffed.on f :=
  State.on_of_rd (s.rd_quenchEntry h)

/-- The registers that QUENCH entry leaves as the safe state does. -/
theorem State.rd_quenchEntry_safe (s : State) {a : Nat} (h : NoEntry a) (h1 : a ≠ KST_STAT) (h2 : a ≠ RNG_STAT)
    (h3 : a ≠ SYS_BOOTTAMP) : (s.quenchEntry true).rd a = s.safeState.rd a :=
  (s.rd_quenchEntry h).trans (s.rd_snuffed h1 h2 h3)

theorem State.quenched_quenchEntry (s : State) : quenched (s.quenchEntry true) := by
  obtain ⟨hsafe, hsvc, hadm, hduo, hrole, -, hctx, -, -, hcores⟩ := s.safeNow_safeState
  have hst := sameStores_quenchEntry s
  obtain ⟨hrec, hcached, htrans, hhot, hseal, -, -, hbuf, hcph, hmau, hcphQ, hmauQ, -, hdsp⟩ := s.snuffed_stores
  obtain ⟨hcore, hrun, hmode, hddr⟩ := s.quenchEntry_core
  have hlow : ∀ {a : Nat}, a = FLT_STAT ∨ a = SVC_CTRL ∨ a = ADM_CTRL ∨ a = DUO_STAT →
      (s.quenchEntry true).rd a = s.safeState.rd a := by
    rintro a (rfl | rfl | rfl | rfl) <;>
      exact s.rd_quenchEntry_safe (by unfold NoEntry; decide) (by decide) (by decide) (by decide)
  refine ⟨hmode, ?_, ?_, ?_, ?_, ?_, fun c => ?_, ?_, ?_, ?_, ?_, ?_, ?_, ?_, ?_, ?_, ?_, ?_, hddr, hcore, hrun,
    fun n hn => ?_⟩
  · rw [State.on_of_rd (hlow (by simp)), hsafe]
  · rw [State.on_of_rd (hlow (by simp)), hsvc]
  · rw [State.on_of_rd (hlow (by simp)), hadm]
  · rw [State.on_duoEn_quenchEntry, State.on_of_rd (s.rd_snuffed (by decide) (by decide) (by decide)), hduo]
  · rw [State.fget_of_rd (hlow (by simp)), hrole]
  · rw [State.ctx_congr (congrArg DspState.ctxs (hst.dsp.trans hdsp))]
    exact hctx c
  · rw [hst.kst, hrec]
  · rw [hst.kst, hcached]
  · rw [hst.kst, htrans]
  · rw [hst.kst, hhot]
  · rw [hst.kst, hseal]
  · rw [hst.rng, hbuf]
  · rw [hst.cph, hcph]
  · rw [hst.mau, hmau]
  · rw [hst.cphQ, hcphQ]
  · rw [hst.mauQ, hmauQ]
  · rw [s.on_quenchEntry _ (by unfold NoEntry; decide), s.on_mounted_snuffed]
  · have hlt := n.isLt
    have hne : n.val ≠ 0 := Fin.val_ne_of_ne hn
    have hentry : NoEntry (SYS_CORE_CTRL n) := by
      simp only [NoEntry, SYS_CORE_CTRL, FLC_STAT, DUO_CTRL, CRD_QSTAT, SYS_EVT]; omega
    rw [State.fget_of_rd (s.rd_quenchEntry_safe hentry (by simp only [SYS_CORE_CTRL, KST_STAT]; omega)
      (by simp only [SYS_CORE_CTRL, RNG_STAT]; omega) (by simp only [SYS_CORE_CTRL, SYS_BOOTTAMP]; omega))]
    exact hcores n

end Sys2Proof.Machine
end

section
/-!
SUPPORT. Proofs/ReactionRounds.lean: a round of one source (16 R372-R375): the record of the first event, and each of the
four reactions.
-/

namespace Sys2Proof.Machine

/-! ### When a round takes place (16 R374) -/

/-- A round is due: 50 ns after it began, or where only severe RETIRE sources have events. -/
def State.roundDue (s : State) : Bool :=
  s.powered && (match s.flt.round with
    | some r => s.passed r.start 50
    | none => !s.flt.again.isEmpty)

theorem reactionRound_idle {dt : Nat} {s : State} (h : (s.elapse dt).roundDue = false) :
    exec (.reactionRound dt) s = .next (s.elapse dt) := by
  have hrun : exec (.reactionRound dt) s = timed dt State.roundDue s State.reactionRound := by rfl
  rw [hrun, timed_neg h]

theorem reactionRound_runs {dt : Nat} {s : State} (h : (s.elapse dt).roundDue = true) :
    exec (.reactionRound dt) s = .next (s.elapse dt).reactionRound := by
  have hrun : exec (.reactionRound dt) s = timed dt State.roundDue s State.reactionRound := by rfl
  rw [hrun, timed_pos h]

theorem State.roundDue_some {s : State} {r : Round} (h : s.flt.round = some r) :
    s.roundDue = (s.powered && s.passed r.start 50) := by
  simp only [State.roundDue, h]

theorem State.roundDue_none {s : State} (h : s.flt.round = none) (ha : s.flt.again = []) : s.roundDue = false := by
  simp [State.roundDue, h, ha]

/-! ### A round of one source -/

/-- The round has begun to react: none is under way. -/
def State.roundOver (s : State) : State := { s with flt := { s.flt with round := none } }

theorem State.lateSources_nil (s : State) (k : Nat) : s.lateSources k [] = s := by rfl

/-- A round of one source that became severe within the 50 ns, and no further event of a severe source. -/
theorem State.reactionRound_single {s : State} {r : Round} {x : RoundSrc} (ha : s.flt.again = []) (hr : s.flt.round = some r)
    (hx : r.srcs = [x]) (ht : x.time ≤ r.start + 50) : s.reactionRound = s.roundOver.runRound [x] := by
  have hearly : r.srcs.filter (fun x => decide (x.time ≤ r.start + 50)) = [x] := by simp [hx, ht]
  have hlate : r.srcs.filter (fun x => decide (r.start + 50 < x.time)) = [] := by simp [hx, ht]
  simp only [State.reactionRound, State.roundOver, ha, List.foldl_nil, hr, hearly, hlate, State.lateSources_nil]

/-- The round is recorded: its event, and the first source (16 R375). -/
def State.marked (s : State) (x : RoundSrc) : State := (s.raise FLT_EVT_ROUND).recordFirst [x] (s.reactOf x.src)

/-- The strongest reaction of the round runs. -/
def State.reacted (s : State) (x : RoundSrc) (k : Nat) : State :=
  let s := if k = 3 then s.snuff else if k = 2 then s.isolate else s
  if k = 3 then { s with flt := { s.flt with bySnuff := s.flt.bySnuff ||| (1#128 <<< x.src) } } else s

/-- The unit of a RETIRE source is retired. -/
def State.retires (s : State) (x : RoundSrc) : State := if s.reactOf x.src = 1 then s.retireUnit x.src x.unit else s

theorem State.strongest_single (s : State) (x : RoundSrc) : s.strongest [x] = s.reactOf x.src := Nat.zero_max _

theorem State.runRound_single (s : State) (x : RoundSrc) :
    s.runRound [x] = ((s.marked x).reacted x (s.reactOf x.src)).retires x := by
  unfold State.runRound
  rw [State.strongest_single]
  rfl

/-! ### The record of the first source (16 R375) -/

theorem State.recordFirst_single (s : State) (x : RoundSrc) (k : Nat) : s.recordFirst [x] k =
    if s.on FLT_FIRST_VALID then s
    else (s.wr FLT_FIRST (BitVec.ofNat 64 (2 ^ 31 + (if x.forced then 2 ^ 29 else 0) + k * 2 ^ 24 + x.unit % 256 * 2 ^ 16 +
      x.src))).wr FLT_FIRST_TS (BitVec.ofNat 64 x.time) := by
  simp [State.recordFirst, firstSrc]

theorem marked_regsOnly (s : State) (x : RoundSrc) : RegsOnly s (s.marked x) := by
  have h := (RegsOnly.refl s).raise FLT_EVT_ROUND
  rw [State.marked, State.recordFirst_single]
  exact .ite _ h ((h.wr _ _).wr _ _)

theorem State.rd_marked (s : State) (x : RoundSrc) {a : Nat} (h1 : a ≠ FLT_EVT) (h2 : a ≠ FLT_FIRST) (h3 : a ≠ FLT_FIRST_TS) :
    (s.marked x).rd a = s.rd a := by
  have hr : (s.raise FLT_EVT_ROUND).rd a = s.rd a := State.rd_raise_ne s FLT_EVT_ROUND h1
  rw [State.marked, State.recordFirst_single]
  split
  · exact hr
  · rw [State.rd_wr_ne _ _ h3, State.rd_wr_ne _ _ h2, hr]

theorem State.on_round_marked (s : State) (x : RoundSrc) : (s.marked x).on FLT_EVT_ROUND = true := by
  have hr : (s.raise FLT_EVT_ROUND).on FLT_EVT_ROUND = true := State.on_raise_self _ _ (by simp [Fld.fits]) (by simp)
  rw [State.marked, State.recordFirst_single]
  split
  · exact hr
  · rw [State.on_of_rd (State.rd_wr_ne _ _ (by decide)), State.on_of_rd (State.rd_wr_ne _ _ (by decide)), hr]

/-- FLT_FIRST and FLT_FIRST_TS take the source where they hold none, and stay where they hold one. -/
theorem State.first_marked (s : State) (x : RoundSrc) :
    (s.on FLT_FIRST_VALID = false → (s.marked x).rd FLT_FIRST_TS = BitVec.ofNat 64 x.time ∧ (s.marked x).rd FLT_FIRST =
      BitVec.ofNat 64 (2 ^ 31 + (if x.forced then 2 ^ 29 else 0) + s.reactOf x.src * 2 ^ 24 + x.unit % 256 * 2 ^ 16 + x.src)) ∧
    (s.on FLT_FIRST_VALID = true → (s.marked x).rd FLT_FIRST = s.rd FLT_FIRST ∧
      (s.marked x).rd FLT_FIRST_TS = s.rd FLT_FIRST_TS) := by
  have hv : (s.raise FLT_EVT_ROUND).on FLT_FIRST_VALID = s.on FLT_FIRST_VALID :=
    State.on_of_rd (State.rd_raise_ne s FLT_EVT_ROUND (by decide))
  rw [State.marked, State.recordFirst_single, hv]
  refine ⟨fun h => ?_, fun h => ?_⟩
  · rw [h, if_neg Bool.false_ne_true]
    exact ⟨State.rd_wr_self _ _ _, (State.rd_wr_ne _ _ (by decide)).trans (State.rd_wr_self _ _ _)⟩
  · rw [if_pos h]
    exact ⟨State.rd_raise_ne s FLT_EVT_ROUND (by decide), State.rd_raise_ne s FLT_EVT_ROUND (by decide)⟩

/-! ### ISOLATE and SNUFF (16 R373) -/

theorem State.rd_withFlt (s : State) (x : FltState) (a : Nat) : ({ s with flt := x } : State).rd a = s.rd a := by rfl

theorem State.isolate_eq {s : State} (hi : s.on FLT_STAT_ISOLATED = false) (hm : s.sys.mode ≠ .quench) : s.isolate =
    { s.safeState.raise FLT_STAT_ISOLATED with flt := { s.safeState.flt with startCore0 := true } } := by
  rw [State.isolate, if_neg (by rw [hi]; simpa using hm)]

theorem State.snuff_eq {s : State} (hm : s.sys.mode ≠ .quench) : s.snuff =
    { (s.raise FLT_STAT_SNUFFED).quenchEntry true with
      flt := { ((s.raise FLT_STAT_SNUFFED).quenchEntry true).flt with startCore0 := false } } := by
  have h : (s.raise FLT_STAT_SNUFFED).sys.mode ≠ .quench := by rwa [State.raise_sys]
  exact if_neg h

/-- The registers that a round leaves alone once it is recorded. -/
def NoRound (a : Nat) : Prop := (0x40D00000 < a ∧ a < 0x40D00040) ∨ (0x40D00400 ≤ a ∧ a < 0x40D00600)

theorem State.rd_safeState_round (s : State) {a : Nat} (h : NoRound a) : s.safeState.rd a = s.rd a := by
  unfold NoRound at h
  rw [s.rd_safeState (by unfold NoCore NoEvent; omega)
      (by simp only [Apart, NoEvent, ADM_STAT, DUO_STAT, DUO_EVT, SVC_CTRL]; omega),
    s.rd_silenced (by simp only [SVC_CTRL]; omega) (by simp only [ADM_CTRL]; omega) (by simp only [DUO_CTRL]; omega)]
  exact State.rd_raise_ne s FLT_STAT_SAFE (by simp only [FLT_STAT]; omega)

theorem State.rd_quenchEntry_round (s : State) {a : Nat} (h : NoRound a) : (s.quenchEntry true).rd a = s.rd a := by
  have hs := s.rd_safeState_round h
  unfold NoRound at h
  have hentry : NoEntry a := by
    simp only [NoEntry, FLC_STAT, DUO_CTRL, CRD_QSTAT, SYS_EVT, SYS_CORE_CTRL]; omega
  rw [s.rd_quenchEntry_safe hentry (by simp only [KST_STAT]; omega) (by simp only [RNG_STAT]; omega)
    (by simp only [SYS_BOOTTAMP]; omega), hs]

theorem State.rd_isolate (s : State) {a : Nat} (h : NoRound a) : s.isolate.rd a = s.rd a := by
  have hne : a ≠ FLT_STAT := by unfold NoRound at h; simp only [FLT_STAT]; omega
  unfold State.isolate
  split
  · rfl
  · rw [State.rd_withFlt, State.rd_raise_ne _ FLT_STAT_ISOLATED hne, State.rd_safeState_round _ h]

theorem State.rd_snuff (s : State) {a : Nat} (h : NoRound a) : s.snuff.rd a = s.rd a := by
  have hne : a ≠ FLT_STAT := by unfold NoRound at h; simp only [FLT_STAT]; omega
  have hr := State.rd_raise_ne s FLT_STAT_SNUFFED hne
  simp only [State.snuff]
  split
  · exact hr
  · rw [State.rd_withFlt, State.rd_quenchEntry_round _ h, hr]

theorem State.rd_reacted (s : State) (x : RoundSrc) (k : Nat) {a : Nat} (h : NoRound a) : (s.reacted x k).rd a = s.rd a := by
  simp only [State.reacted]
  split
  · exact (State.rd_withFlt _ _ _).trans (s.rd_snuff h)
  · split
    · exact s.rd_isolate h
    · rfl

/-- A unit is retired for a source of the cipher engines or of the modular units alone. -/
theorem State.retireUnit_other (s : State) {n : Nat} (u : Nat) (h : ¬(64 ≤ n ∧ n ≤ 68)) : s.retireUnit n u = s := by
  rw [State.retireUnit, if_neg (by omega), if_neg (by omega)]

theorem reactOf_congr {s t : State} {n : Nat} (h : t.rd (FLT_CFG n) = s.rd (FLT_CFG n)) : t.reactOf n = s.reactOf n :=
  State.fget_of_rd h

/-- A source whose reaction is not RETIRE retires no unit, whatever its round does. -/
theorem State.retires_none {s t : State} {x : RoundSrc} (h : s.reactOf x.src ≠ 1)
    (hr : ∀ n < 128, t.rd (FLT_CFG n) = s.rd (FLT_CFG n)) : t.retires x = t := by
  unfold State.retires
  by_cases hx : 64 ≤ x.src ∧ x.src ≤ 68
  · rw [if_neg (by rw [reactOf_congr (hr _ (by omega))]; exact h)]
  · rw [t.retireUnit_other _ hx, ite_self]

theorem keepsFlt_retires (s : State) (x : RoundSrc) : KeepsFlt s (s.retires x) := .ite _ (.retireUnit s _ _) (.refl s)

theorem safeNow_isolated {s : State} (h : safeNow s) (f : FltState) :
    safeNow { s.raise FLT_STAT_ISOLATED with flt := f } := by
  obtain ⟨hsafe, hsvc, hadm, hduo, hrole, hlan, hctx, hdescs, hrefs, hcores⟩ := h
  have hrd : ∀ {a : Nat}, a ≠ FLT_STAT → ({ s.raise FLT_STAT_ISOLATED with flt := f } : State).rd a = s.rd a := fun ha =>
    (State.rd_withFlt _ _ _).trans (State.rd_raise_ne s FLT_STAT_ISOLATED ha)
  refine ⟨?_, (State.on_of_rd (hrd (by decide))).trans hsvc, (State.on_of_rd (hrd (by decide))).trans hadm,
    (State.on_of_rd (hrd (by decide))).trans hduo, (State.fget_of_rd (hrd (by decide))).trans hrole,
    (State.fget_of_rd (hrd (by decide))).trans hlan, fun c => ?_, ?_, ?_, fun n => ?_⟩
  · rw [State.on_of_rd (State.rd_withFlt _ _ _),
      State.on_raise_apart _ FLT_STAT_ISOLATED FLT_STAT_SAFE (by simp [Fld.fits]) (by simp [Fld.apart]), hsafe]
  · exact (congrArg Ctx.st (State.ctx_congr (congrArg DspState.ctxs (State.raise_dsp s FLT_STAT_ISOLATED)) c)).trans (hctx c)
  · exact (congrArg AdmState.descs (State.raise_adm s FLT_STAT_ISOLATED)).trans hdescs
  · exact (congrArg SvcState.refusals (State.raise_svc s FLT_STAT_ISOLATED)).trans hrefs
  · rw [State.fget_of_rd (hrd (by simp only [SYS_CORE_CTRL, FLT_STAT]; omega))]
    exact hcores n

theorem quenched_withFlt {s : State} (h : quenched s) (f : FltState) : quenched { s with flt := f } := h

/-- What a round that isolates leaves (16 R373). -/
theorem State.isolate_spec {s : State} (hi : s.on FLT_STAT_ISOLATED = false) (hm : s.sys.mode ≠ .quench) :
    safeNow s.isolate ∧ s.isolate.on FLT_STAT_ISOLATED = true ∧ s.isolate.flt.startCore0 = true := by
  rw [State.isolate_eq hi hm]
  exact ⟨safeNow_isolated s.safeNow_safeState _,
    (State.on_of_rd (State.rd_withFlt _ _ _)).trans (State.on_raise_self _ FLT_STAT_ISOLATED (by simp [Fld.fits]) (by simp)), rfl⟩

theorem State.on_snuffed_quenchEntry (s : State) : ((s.raise FLT_STAT_SNUFFED).quenchEntry true).on FLT_STAT_SNUFFED = true := by
  have hrd : ((s.raise FLT_STAT_SNUFFED).quenchEntry true).rd FLT_STAT =
      ((s.raise FLT_STAT_SNUFFED).raise FLT_STAT_SAFE).rd FLT_STAT := by
    rw [State.rd_quenchEntry_safe _ (by unfold NoEntry; decide) (by decide) (by decide) (by decide),
      State.rd_safeState _ (by unfold NoCore NoEvent; decide) (by unfold Apart NoEvent; decide),
      State.rd_silenced _ (by decide) (by decide) (by decide)]
  rw [State.on_of_rd (f := FLT_STAT_SNUFFED) hrd,
    State.on_raise_apart _ FLT_STAT_SAFE FLT_STAT_SNUFFED (by simp [Fld.fits]) (by simp [Fld.apart])]
  exact State.on_raise_self _ _ (by simp [Fld.fits]) (by simp)

/-- What a round that snuffs leaves (16 R373). -/
theorem State.snuff_spec {s : State} (hm : s.sys.mode ≠ .quench) :
    quenched s.snuff ∧ s.snuff.on FLT_STAT_SNUFFED = true ∧ s.snuff.sys.bmk = 0 ∧ s.snuff.on SYS_BOOTTAMP_SNUFF = true ∧
      s.snuff.kst.sealedRecs = [] ∧ s.snuff.kst.tail = [] ∧ s.snuff.flt.startCore0 = false := by
  have hst := sameStores_quenchEntry (s.raise FLT_STAT_SNUFFED)
  obtain ⟨-, -, -, -, -, hsealed, htail, -, -, -, -, -, hbmk, -⟩ := (s.raise FLT_STAT_SNUFFED).snuffed_stores
  rw [State.snuff_eq hm]
  refine ⟨quenched_withFlt (State.quenched_quenchEntry _) _, ?_, hst.bmk.trans hbmk, ?_,
    (congrArg KstState.sealedRecs hst.kst).trans hsealed, (congrArg KstState.tail hst.kst).trans htail, rfl⟩
  · rw [State.on_of_rd (State.rd_withFlt _ _ _), State.on_snuffed_quenchEntry]
  · rw [State.on_of_rd (State.rd_withFlt _ _ _), State.on_quenchEntry _ _ (by unfold NoEntry; decide),
      State.on_snuff_snuffed]

end Sys2Proof.Machine
end

section
/-!
SUPPORT. Proofs/FaultCollector.lean: what a round of one source and a write of FLT_SEVk leave, and O55.
-/

namespace Sys2Proof.Machine

/-- What a round of one source leaves, 50 ns after it began (16 R372-R375). -/
theorem State.reactionRound_spec {s : State} {r : Round} {x : RoundSrc} (ha : s.flt.again = []) (hr : s.flt.round = some r)
    (hx : r.srcs = [x]) (ht : x.time ≤ r.start + 50) :
    let k := s.fget (FLT_CFG_REACT x.src)
    let t := s.reactionRound
    t.on FLT_EVT_ROUND = true ∧
    (s.on FLT_FIRST_VALID = false → t.rd FLT_FIRST_TS = BitVec.ofNat 64 x.time ∧ t.rd FLT_FIRST =
      BitVec.ofNat 64 (2 ^ 31 + (if x.forced = true then 2 ^ 29 else 0) + k * 2 ^ 24 + x.unit % 256 * 2 ^ 16 + x.src)) ∧
    (s.on FLT_FIRST_VALID = true → t.rd FLT_FIRST = s.rd FLT_FIRST ∧ t.rd FLT_FIRST_TS = s.rd FLT_FIRST_TS) ∧
    (k = 0 → t = { s with regs := t.regs, flt := { s.flt with round := none } }) ∧
    (k = 1 → 66 ≤ x.src → x.src ≤ 68 → x.unit < 136 → t.mauSet MAU_ACTIVE x.unit = false) ∧
    (k = 2 → s.on FLT_STAT_ISOLATED = false → s.sys.mode ≠ .quench →
      safeNow t ∧ t.on FLT_STAT_ISOLATED = true ∧ t.flt.startCore0 = true) ∧
    (k = 3 → s.sys.mode ≠ .quench → quenched t ∧ t.on FLT_STAT_SNUFFED = true ∧ t.sys.bmk = 0 ∧
      t.on SYS_BOOTTAMP_SNUFF = true ∧ t.kst.sealedRecs = [] ∧ t.kst.tail = [] ∧ t.flt.startCore0 = false) := by
  intro k t
  let m := s.roundOver.marked x
  have hrun : t = (m.reacted x k).retires x := by
    simp only [t, State.reactionRound_single ha hr hx ht, State.runRound_single]
    rfl
  have hm : RegsOnly s.roundOver m := marked_regsOnly s.roundOver x
  have hmode : m.sys.mode = s.sys.mode := by rw [hm.eq]; rfl
  have hcfg : ∀ n < 128, (m.reacted x k).rd (FLT_CFG n) = m.rd (FLT_CFG n) := fun n hn =>
    State.rd_reacted _ _ _ (by simp only [NoRound, FLT_CFG]; omega)
  have hreact : m.reactOf x.src = k := reactOf_congr (s := s) (State.rd_marked s.roundOver x
    (by simp only [FLT_CFG, FLT_EVT]; omega) (by simp only [FLT_CFG, FLT_FIRST]; omega)
    (by simp only [FLT_CFG, FLT_FIRST_TS]; omega))
  have hrest : k ≠ 1 → t = m.reacted x k := fun hk => hrun.trans (State.retires_none (hreact.trans_ne hk) hcfg)
  have hlog : ∀ {a : Nat}, NoRound a → t.rd a = m.rd a := fun {a} h => by
    rw [hrun, keepsFlt_retires _ _ a (by unfold NoRound at h; omega), State.rd_reacted _ _ _ h]
  obtain ⟨hfree, hheld⟩ := s.roundOver.first_marked x
  have hts := hlog (a := FLT_FIRST_TS) (by unfold NoRound; decide)
  have hfirst := hlog (a := FLT_FIRST) (by unfold NoRound; decide)
  refine ⟨?_, fun hv => ?_, fun hv => ?_, fun hk => ?_, fun hk h1 h2 hu => ?_, fun hk hi hq => ?_, fun hk hq => ?_⟩
  · rw [State.on_of_rd (hlog (by unfold NoRound; decide))]
    exact State.on_round_marked _ x
  · rw [hts, hfirst]
    exact hfree hv
  · rw [hts, hfirst]
    exact hheld hv
  · have hid : m.reacted x k = m := by rw [hk]; rfl
    rw [hrest (by omega), hid]
    exact hm.eq
  · have hid : m.reacted x k = m := by rw [hk]; rfl
    rw [hrun, hid, State.retires, if_pos (hreact.trans hk), State.retireUnit, if_neg (by omega), if_pos ⟨h1, h2⟩, if_pos hu]
    exact State.mauSet_active_mauRetireUnit hu m
  · have hid : m.reacted x k = m.isolate := by rw [hk]; rfl
    rw [hrest (by omega), hid]
    exact State.isolate_spec ((State.on_of_rd (State.rd_marked s.roundOver x (by decide) (by decide) (by decide))).trans hi)
      (by rwa [hmode])
  · have hid : m.reacted x k = { m.snuff with flt := { m.snuff.flt with bySnuff := m.snuff.flt.bySnuff ||| (1#128 <<< x.src) } } := by
      rw [hk]; rfl
    obtain ⟨hquench, hsnuffed, hbmk, htamp, hsealed, htail, hstart⟩ := State.snuff_spec (s := m) (by rwa [hmode])
    rw [hrest (by omega), hid]
    exact ⟨quenched_withFlt hquench _, (State.on_of_rd (State.rd_withFlt _ _ _)).trans hsnuffed, hbmk,
      (State.on_of_rd (State.rd_withFlt _ _ _)).trans htamp, hsealed, htail, hstart⟩

/-- What a written FLT_SEVk leaves (16 R376). -/
theorem State.severeClear_spec (s : State) (k : Fin 4) (v : Word32) :
    let held := fun n => s.on (causeFld n) = true ∨ s.flt.bySnuff.getLsbD n = true
    let asked := fun n => n / 32 = k.val ∧ v.getLsbD (n % 32) = true
    let t := s.severeClear k v
    (∀ n < 128, t.on (sevFld n) = true ↔ s.on (sevFld n) = true ∧ ¬(asked n ∧ ¬held n)) ∧
    (∀ n < 128, asked n → ¬held n → t.on (FLT_CNT_OPEN n) = false ∧ t.fget (FLT_CNT_CNT n) = 0) ∧
    (t.on FLT_EVT_CLR_REJ = true ↔ s.on FLT_EVT_CLR_REJ = true ∨ ∃ n < 128, asked n ∧ held n) ∧
    (s.on FLT_STAT_ISOLATED = true → (∀ n < 128, t.on (sevFld n) = true → s.fget (FLT_CFG_REACT n) ≠ 2) →
      t.on FLT_STAT_ISOLATED = false ∧ (s.sys.mode ≠ .quench → t.on FLT_STAT_SAFE = false)) ∧
    ((∃ n < 128, t.on (sevFld n) = true ∧ s.fget (FLT_CFG_REACT n) = 2) → t.rd FLT_STAT = s.rd FLT_STAT) ∧
    t = { s with regs := t.regs } := by
  intro held asked t
  have hl : ∀ n ∈ fltBits k v, n < 128 := fun n hn => by have := (mem_fltBits.mp hn).1; omega
  obtain ⟨hsev, hshut, hrej, hstat, hcfg, hregs⟩ := clearSevere_fold (fltBits k v) s hl
  have ht : t = ((fltBits k v).foldl State.clearSevere s).isolationEnds := s.severeClear_eq k v
  rw [ht]
  generalize hu : (fltBits k v).foldl State.clearSevere s = u at *
  have hasked : ∀ n, n ∈ fltBits k v ↔ asked n := fun n => mem_fltBits
  have hheld : ∀ n, s.heldSevere n = true ↔ held n := fun n => by rw [State.heldSevere, Bool.or_eq_true]
  have hfree : ∀ n, s.heldSevere n = false ↔ ¬held n := fun n => by rw [← hheld, Bool.not_eq_true]
  have hrd : ∀ {r : Nat}, r ≠ FLT_STAT → u.isolationEnds.rd r = u.rd r := fun h => u.rd_isolationEnds h
  have hon : ∀ n, u.isolationEnds.on (sevFld n) = u.on (sevFld n) := fun n =>
    State.on_of_rd (hrd (by simp only [sevFld, bitFld, FLT_SEV, FLT_STAT]; omega))
  have hreact : ∀ n < 128, u.fget (FLT_CFG_REACT n) = s.fget (FLT_CFG_REACT n) := fun n hn => State.fget_of_rd (hcfg n hn)
  have hcnt : ∀ n, u.isolationEnds.rd (FLT_CNT n) = u.rd (FLT_CNT n) := fun n =>
    hrd (by simp only [FLT_CNT, FLT_STAT]; omega)
  refine ⟨fun n hn => ?_, fun n hn ha hh => ?_, ?_, fun hi hno => ?_, fun ⟨n, hn, hs, hr⟩ => ?_,
    (hregs.trans (isolationEnds_regsOnly u)).eq⟩
  · rw [hon, hsev n hn, hasked, hfree]
  · obtain ⟨ho, hc⟩ := hshut n hn (.inr ⟨(hasked n).2 ha, (hfree n).2 hh⟩)
    exact ⟨(State.on_of_rd (hcnt n)).trans ho, (State.fget_of_rd (hcnt n)).trans hc⟩
  · rw [State.on_of_rd (hrd (by decide)), hrej]
    refine or_congr_right ⟨fun ⟨n, hn, hh⟩ => ⟨n, hl n hn, (hasked n).1 hn, (hheld n).1 hh⟩,
      fun ⟨n, _, hn, hh⟩ => ⟨n, (hasked n).2 hn, (hheld n).2 hh⟩⟩
  · have hnot : u.isolateHeld = false := Bool.eq_false_iff.2 fun h => by
      obtain ⟨n, hn, hs, hr⟩ := u.isolateHeld_iff.1 h
      exact hno n hn ((hon n).trans hs) ((hreact n hn).symm.trans hr)
    obtain ⟨h1, h2⟩ := State.isolationEnds_of_not_held ((State.on_of_rd hstat).trans hi) hnot
    exact ⟨h1, fun hm => h2 (by rw [hregs.eq]; exact hm)⟩
  · rw [State.isolationEnds_of_held (u.isolateHeld_iff.2 ⟨n, hn, (hon n).symm.trans hs, (hreact n hn).trans hr⟩)]
    exact hstat

end Sys2Proof.Machine

namespace Sys2Proof
open Sys2Proof.Machine

/-- Settles O55: each clause is what one operation of the collector does; a round is followed through the safe state and
QUENCH entry by what each of their steps leaves alone. -/
theorem faultsAreCollected : Obligations.FaultsAreCollected := by
  unfold Obligations.FaultsAreCollected
  refine ⟨fun dt n e s => ?_, fun n s => ?_, fun dt s => ?_, fun dt s => ?_,
    fun a k v s h => ⟨_, severeClear_eq h, s.severeClear_spec k v⟩, fun a k v s => ?_, fun a k b s => ?_, fun a n v s => ?_⟩
  · intro u i who x at_ flash hit d ranOut c0 c need
    have hn : n.val < 128 := n.isLt
    have hd : u.withOwnWord n at_ = d := by
      simp only [d, hit, State.withOwnWord, ownWord, flash, Fin.ext_iff]
      rfl
    have hc0 : d.metCount n = c0 := by
      rw [State.metCount_congr (s := u) (t := d) rfl rfl rfl]
      simp only [State.metCount, State.windowOver_iff]
      rfl
    have hneed : d.fltN n = need := by rfl
    refine ⟨fun h => faultEvent_idle ?_, fun hp hl h => ⟨_, faultEvent_collected hp hl, ?_⟩, fun hp hl h1 h2 h3 => ?_⟩
    · rw [Bool.and_eq_false_iff]
      exact h
    · obtain ⟨hsticky, hdam, h74, h77, h78, hlog, hframe⟩ := u.fault_ownLog_spec hn at_ who
      refine ⟨hsticky, hd ▸ hdam, fun hx => h74 (congrArg Fin.val hx), fun hx => h77 (congrArg Fin.val hx),
        fun hx => h78 (congrArg Fin.val hx), fun hx hv => ?_, hframe⟩
      rw [hlog ((h.resolve_left hx).imp (congrArg Fin.val) (congrArg Fin.val)) hv]
      simp only [Fin.ext_iff]
      rfl
    · have hrun : exec i s = .next (d.fault n who false) := by
        rw [faultEvent_collected hp hl, State.ownLog_none _ _ (Fin.val_ne_of_ne h1) (Fin.val_ne_of_ne h2)
          (Fin.val_ne_of_ne h3), hd]
      have hcount : d.metCount n + 1 = c := by rw [hc0]
      refine ⟨fun hs => ?_, fun hs hc => ⟨_, hrun, ?_⟩, fun hs hc => ⟨_, hrun, ?_⟩⟩
      · rw [hrun, State.fault_severe_eq hn d who false hs]
        rfl
      · have h := State.fault_below_spec hn d who false hs (by rw [hcount, hneed]; exact hc)
        rw [hcount, hc0] at h
        exact h
      · have h := State.fault_reached_spec hn d who false hs (by rw [hcount, hneed]; exact hc)
        rw [hneed] at h
        exact h
  · exact timed_happens (b := fun s => s.powered && s.windowOver n) (fun _ _ => rfl) fun u => by
      rw [Bool.and_eq_true, State.windowOver_iff]
  · intro u i
    refine ⟨fun h => reactionRound_idle ?_, fun r x hp ha hr hd hx ht => ⟨_, reactionRound_runs ?_,
      State.reactionRound_spec ha hr hx ht⟩⟩
    · rcases h with h | ⟨h, ha⟩ | ⟨r, h, hd⟩
      · rw [State.roundDue, h, Bool.false_and]
      · exact State.roundDue_none h ha
      · rw [State.roundDue_some h, hd, Bool.and_false]
    · rw [State.roundDue_some hr, hp, hd]
      rfl
  · intro u i v from_ halted
    have hcond : (u.powered && u.flt.startCore0 && !u.bootFailed) = true ↔
        u.powered = true ∧ u.flt.startCore0 = true ∧ ¬halted := u.startsIsolated_iff
    refine ⟨fun h => isolateCoreStart_idle (Bool.eq_false_iff.2 fun hk => ?_), fun hp hc hh => ?_⟩
    · obtain ⟨hp, hc, hh⟩ := hcond.1 hk
      rcases h with h | h | h
      · rw [h] at hp; exact Bool.false_ne_true hp
      · rw [h] at hc; exact Bool.false_ne_true hc
      · exact hh h
    · have hrun : exec i s = .next u.startIsolated := isolateCoreStart_starts (hcond.2 ⟨hp, hc, hh⟩)
      refine ⟨fun hz => ?_, fun hz => ⟨fun t hr => ?_, fun e t he hr => ?_, fun bs x hr => ?_⟩⟩
      · rw [hrun, State.startIsolated_none hz]
      · rw [hrun, State.startIsolated_waits hz (State.startFrom_waits hr)]
      · rw [hrun, State.startIsolated_ends hz (fun h => he (Except.error.inj h)) (State.startFrom_fails he hr)]
      · obtain ⟨hno, hyes⟩ := State.startFrom_zero hr
        intro t pcc c1 fit
        refine ⟨fun hf => ?_, fun hf => ?_⟩
        · rw [hrun, State.startIsolated_ends (r := .ok false) hz nofun (hno hf)]
        · rw [hrun, State.startIsolated_ends (r := .ok true) hz nofun (hyes hf)]
          rfl
  · intro may i
    refine ⟨fun hv => ?_, fun hv hm => ?_, fun hv hm h => ⟨_, faultStickyClear_sets a k v s h, ?_⟩⟩
    · have h := faultStickyClear_sets a k v s
      rwa [State.stickyClear, if_pos hv] at h
    · have h := faultStickyClear_sets a k v s
      rwa [State.stickyClear, if_neg hv, if_neg hm] at h
    · rw [State.stickyClear, if_neg hv, if_pos hm]
      refine ⟨fun n _ => ?_, (RegsOnly.foldl (fun s n => (RegsOnly.refl s).lower _) _ s).eq, fun r hr =>
        rd_foldl_lower_stky k hr _ s fun n hn => (mem_fltBits.mp hn).1⟩
      rw [on_sticky_foldl_lower, decide_eq_decide.mpr mem_fltBits, Bool.decide_and, Bool.decide_eq_true]
  · intro n v may i
    have h := faultForce_sets a k v s
    rw [State.faultForce_single] at h
    refine ⟨?_, fun hl => ?_, fun hl hr hm => ?_, fun hl hm => ?_⟩
    · have h0 := faultForce_sets a k 0 s
      rwa [State.faultForce, fltBits_zero] at h0
    · rwa [if_pos hl] at h
    · rwa [if_neg (by rw [hl]; exact Bool.noConfusion), if_pos ⟨hr, hm⟩] at h
    · rwa [if_neg (by rw [hl]; exact Bool.noConfusion), if_neg fun hk => hm.elim (Nat.not_lt.mpr hk.1) hk.2] at h
  · intro old new t fixed looser
    have h := faultConfigWrite_sets a n v s
    have hfixed : fltFixed n = fixed := by
      simp only [fltFixed, fixed, Fin.ext_iff]
      rfl
    have hlooser : s.looserIn t n = true ↔ looser := s.looserIn_iff t n
    rw [State.faultConfig_eq, hfixed] at h
    simp only [← hlooser]
    exact h

end Sys2Proof
end

section
/-!
SUPPORT. Proofs/FrontCounters.lean: the counters of the front end (02 R45, 19 R418) leave every register but the
counters alone, and a frame that leaves (02 R34, R40) adds to the output what the port's state says.
-/

namespace Sys2Proof.Machine

/-! ### Counting -/

/-- `a` lies outside the block of counters: below it, above it, or in another bank. -/
def NotCounter (a : Nat) : Prop := a < 0x41100000 ∨ 0x41200000 ≤ a

theorem State.rd_count_apart (s : State) {e : Nat} (n : Nat) {a : Nat} (he : e < 0x10000) (h : NotCounter a) :
    (s.count e n).rd a = s.rd a := by
  unfold NotCounter at h
  exact State.rd_count s e n (by simp only [PMC_CNT]; omega) (by simp only [PMC_OVF]; omega) (by simp only [PMC_SNAPC]; omega)

theorem count_regsOnly (s : State) (e n : Nat) : RegsOnly s (s.count e n) := ⟨_, State.count_eq s e n⟩

theorem RegsFlt.count {s t : State} (h : RegsFlt s t) (e n : Nat) : RegsFlt s (t.count e n) := by
  obtain ⟨r, f, rfl⟩ := h
  exact ⟨_, f, State.count_eq _ e n⟩

/-! ### A frame that leaves -/

/-- The frame and its bytes are counted. -/
def State.sentCounted (s : State) (p : Fin 4) (len : Nat) : State := (s.count (16 * p.val + 2) 1).count (16 * p.val + 3) len

theorem sentCounted_regsOnly (s : State) (p : Fin 4) (len : Nat) : RegsOnly s (s.sentCounted p len) :=
  (count_regsOnly s _ _).trans (count_regsOnly _ _ _)

theorem State.rd_sentCounted (s : State) (p : Fin 4) (len : Nat) {a : Nat} (h : NotCounter a) :
    (s.sentCounted p len).rd a = s.rd a :=
  (State.rd_count_apart _ _ (by omega) h).trans (State.rd_count_apart _ _ (by omega) h)

theorem State.secy_congr {s t : State} {p : Nat} (h : t.rd (ETH_MSEC_CTRL p) = s.rd (ETH_MSEC_CTRL p)) : t.secy p = s.secy p :=
  State.on_of_rd h

theorem State.sendFrame_eq (s : State) (p : Fin 4) (b : List Byte) (t : Nat) : s.sendFrame p b t =
    let u := s.sentCounted p (frameLen (s.secy p) b)
    let v := u.emit (.frame p t (u.wireBytes p b))
    if v.secy p then v.usePn (v.txSa p) else v := by rfl

/-- On a port without MACsec the content leaves as it is, padded (02 R40). -/
theorem State.sendFrame_plain {s : State} {p : Fin 4} (h : s.secy p = false) (b : List Byte) (t : Nat) :
    s.sendFrame p b t = (s.sentCounted p (frameLen false b)).emit (.frame p t (padFrame b)) := by
  have hs : (s.sentCounted p (frameLen false b)).secy p = false :=
    (State.secy_congr (s.rd_sentCounted p _ (.inr (by simp only [ETH_MSEC_CTRL]; omega)))).trans h
  have hw : (s.sentCounted p (frameLen false b)).wireBytes p b = padFrame b := by
    rw [State.wireBytes, hs]
    rfl
  have he : ((s.sentCounted p (frameLen false b)).emit (.frame p t (padFrame b))).secy p = false := hs
  rw [State.sendFrame_eq, h]
  simp only [hw, he]
  rfl

@[simp] theorem State.usePn_freeCtr (s : State) (k : Nat) : (s.usePn k).freeCtr = s.freeCtr := by
  simp only [State.usePn]; repeat' split
  all_goals rfl

@[simp] theorem State.sendFrame_freeCtr (s : State) (p : Fin 4) (b : List Byte) (t : Nat) :
    (s.sendFrame p b t).freeCtr = s.freeCtr := by
  simp only [State.sendFrame]; split <;> simp

end Sys2Proof.Machine
end

section
/-!
SUPPORT. Proofs/FrameArrival.lean: steps 1 to 4 of 02 Table 2.5: what a frame that arrives is counted as, at which of
these steps it is dropped, and where its content goes: to the management queue (02 R65), to the duo link, or to step 5.
-/

namespace Sys2Proof.Machine

/-! ### The arrival (02 R43) -/

/-- The frame and its bytes are counted. -/
def State.arrived (s : State) (port : Fin 4) (f : RxFrame) : State :=
  (s.count (16 * port.val) 1).count (16 * port.val + 1) f.length

theorem arrived_regsOnly (s : State) (port : Fin 4) (f : RxFrame) : RegsOnly s (s.arrived port f) :=
  (count_regsOnly s _ _).trans (count_regsOnly _ _ _)

theorem State.rd_arrived (s : State) (port : Fin 4) (f : RxFrame) {a : Nat} (h : NotCounter a) :
    (s.arrived port f).rd a = s.rd a :=
  (State.rd_count_apart _ _ (by omega) h).trans (State.rd_count_apart _ _ (by omega) h)

theorem State.on_arrived (s : State) (port : Fin 4) (f : RxFrame) {x : Fld} (h : NotCounter x.addr) :
    (s.arrived port f).on x = s.on x := State.on_of_rd (s.rd_arrived port f h)

theorem State.fget_arrived (s : State) (port : Fin 4) (f : RxFrame) {x : Fld} (h : NotCounter x.addr) :
    (s.arrived port f).fget x = s.fget x := State.fget_of_rd (s.rd_arrived port f h)

theorem State.secy_arrived (s : State) (port : Fin 4) (f : RxFrame) : (s.arrived port f).secy port = s.secy port :=
  s.on_arrived port f (.inr (by simp only [ETH_MSEC_CTRL]; omega))

theorem State.peerPort_arrived (s : State) (port : Fin 4) (f : RxFrame) :
    (s.arrived port f).peerPort port = s.peerPort port := by
  unfold State.peerPort
  rw [s.on_arrived port f (.inl (by decide))]

@[simp] theorem State.arrived_svc (s : State) (port : Fin 4) (f : RxFrame) : (s.arrived port f).svc = s.svc := by
  simp [State.arrived]
@[simp] theorem State.arrived_adm (s : State) (port : Fin 4) (f : RxFrame) : (s.arrived port f).adm = s.adm := by
  simp [State.arrived]
@[simp] theorem State.arrived_sys (s : State) (port : Fin 4) (f : RxFrame) : (s.arrived port f).sys = s.sys := by
  simp [State.arrived]
@[simp] theorem State.arrived_tb (s : State) (port : Fin 4) (f : RxFrame) : (s.arrived port f).tb = s.tb := by
  simp [State.arrived]

theorem frameReceive_down {dt : Nat} {port : Fin 4} {f : RxFrame} {s : State}
    (h : ¬((s.elapse dt).powered = true ∧ (s.elapse dt).portOn port = true ∧ (s.elapse dt).svc.linkUp.getLsbD port = true)) :
    exec (.frameReceive dt port f) s = .next (s.elapse dt) :=
  timed_neg (c := fun u => u.powered && u.portOn port && u.svc.linkUp.getLsbD port) (f := fun u => u.receive port f)
    (Bool.eq_false_iff.mpr fun k => h (by simpa [and_assoc] using k))

theorem frameReceive_up {dt : Nat} {port : Fin 4} {f : RxFrame} {s : State} (hp : (s.elapse dt).powered = true)
    (ho : (s.elapse dt).portOn port = true) (hl : (s.elapse dt).svc.linkUp.getLsbD port = true) :
    exec (.frameReceive dt port f) s = .next ((s.elapse dt).receive port f) :=
  timed_pos (c := fun u => u.powered && u.portOn port && u.svc.linkUp.getLsbD port) (f := fun u => u.receive port f)
    (by rw [hp, ho, hl]; rfl)

/-! ### Steps 1 and 2 (02 R37, R43) -/

/-- What step 2 makes of a frame that step 1 let pass. -/
def State.stepTwo (s : State) (port : Fin 4) (f : RxFrame) : State :=
  if s.secy port then
    if !secTagged f.bytes then s.dropTwo port
    else match s.secOpened port f.bytes with
      | none => s.dropTwo port
      | some (k, pn, c) =>
        let s := s.rxAdvance port k (secAn f.bytes) pn
        if vlanTagged c then s.dropAt port 1 else s.frameOn port (some k) f.length c
  else if secTagged f.bytes || s.on SVC_CTRL_MSEC_REQ then s.dropTwo port
  else s.frameOn port none f.length f.bytes

/-- Step 1 drops the frame (02 R32, R43). -/
def RxFrame.damaged (f : RxFrame) : Bool :=
  !f.fecOk || !f.fcsOk || decide (f.length < 64) || decide (9216 < f.length) || vlanTagged f.bytes

theorem State.receive_eq (s : State) (port : Fin 4) (f : RxFrame) : s.receive port f =
    let n := if f.fecOk then s.arrived port f else (s.arrived port f).signal (100 + port.val) 0
    if f.damaged then droppedAt n port 1 else n.stepTwo port f := by rfl

theorem State.receive_damaged {s : State} {port : Fin 4} {f : RxFrame} (hfec : f.fecOk = true)
    (h : f.fcsOk = false ∨ f.length < 64 ∨ 9216 < f.length ∨ vlanTagged f.bytes = true) :
    s.receive port f = droppedAt (s.arrived port f) port 1 := by
  have hbad : f.damaged = true := by
    unfold RxFrame.damaged
    rcases h with h | h | h | h <;> simp [h]
  rw [State.receive_eq, hbad, hfec]
  rfl

theorem State.receive_uncorrected {s : State} {port : Fin 4} {f : RxFrame} (hfec : f.fecOk = false) :
    s.receive port f = droppedAt ((s.arrived port f).signal (100 + port.val) 0) port 1 := by
  have hbad : f.damaged = true := by simp [RxFrame.damaged, hfec]
  rw [State.receive_eq, hbad, hfec]
  rfl

/-- Step 1 lets the frame pass. -/
def RxFrame.sound (f : RxFrame) : Prop :=
  f.fecOk = true ∧ f.fcsOk = true ∧ vlanTagged f.bytes = false ∧ 64 ≤ f.length ∧ f.length ≤ 9216

theorem State.receive_sound {s : State} {port : Fin 4} {f : RxFrame} (h : f.sound) :
    s.receive port f = (s.arrived port f).stepTwo port f := by
  obtain ⟨hfec, hfcs, htag, hmin, hmax⟩ := h
  have hgood : f.damaged = false := by simp [RxFrame.damaged, hfec, hfcs, htag, hmin, hmax]
  rw [State.receive_eq, hgood, hfec]
  rfl

/-- Without MACsec on the port, a frame is dropped that has a SecTAG, or that has none where one is required. -/
theorem State.stepTwo_unprotected {s : State} {port : Fin 4} {f : RxFrame} (hs : s.secy port = false)
    (h : s.on SVC_CTRL_MSEC_REQ = true ∨ secTagged f.bytes = true) : s.stepTwo port f = droppedAt s port 2 := by
  have hdrop : (secTagged f.bytes || s.on SVC_CTRL_MSEC_REQ) = true := by rcases h with h | h <;> simp [h]
  simp only [State.stepTwo, State.dropTwo, hs, hdrop, if_true, Bool.false_eq_true, if_false]
  rfl

/-- With MACsec on the port, a frame without a SecTAG is a verification failure (02 R37). -/
theorem State.stepTwo_untagged {s : State} {port : Fin 4} {f : RxFrame} (hs : s.secy port = true)
    (h : secTagged f.bytes = false) :
    s.stepTwo port f = ((droppedAt s port 2).count 0x05E 1).signal (88 + port.val) 0 := by
  simp only [State.stepTwo, State.dropTwo, hs, h, Bool.not_false, if_true]
  rfl

theorem State.stepTwo_plain {s : State} {port : Fin 4} {f : RxFrame} (hs : s.secy port = false)
    (ht : secTagged f.bytes = false) (hr : s.on SVC_CTRL_MSEC_REQ = false) :
    s.stepTwo port f = s.frameOn port none f.length f.bytes := by
  simp only [State.stepTwo, hs, ht, hr, Bool.or_self, Bool.false_eq_true, if_false]

/-- A plain frame goes to step 3 (02 Table 2.5). -/
theorem frameReceive_plain {dt : Nat} {port : Fin 4} {f : RxFrame} {s : State} (h : PlainFrame (s.elapse dt) port f) :
    exec (.frameReceive dt port f) s =
      .next (((s.elapse dt).arrived port f).frameOn port none f.length f.bytes) := by
  obtain ⟨⟨hp, ho, hl⟩, hsound, htag, hsecy, hreq⟩ := h
  rw [frameReceive_up hp ho hl, State.receive_sound hsound, State.stepTwo_plain _ htag]
  · rw [State.on_arrived _ _ _ (.inl (by decide)), hreq]
  · rw [State.secy_arrived, hsecy]

/-! ### Step 3 (02 R31, R33, R65) -/

/-- The content of a frame is a CRP message over Ethernet (02 R31). -/
def isCrp (s : State) (c : List Byte) : Prop := beAt c 12 2 = 0x88B5 ∧ s.on SVC_CTRL_ETYPE_EN = true

/-- The address to which the response to such a message goes (02 R34). -/
def replyTo (c : List Byte) : Reply := { dst := BitVec.ofNat 48 (beAt c 6 6), encap := .ether }

theorem State.parseFrame_crp {s : State} {c : List Byte} (h : isCrp s c) (port : Nat) (short : Bool) :
    s.parseFrame port short c = .crp (replyTo c) (c.drop 14) short := if_pos h

theorem State.parseFrame_other {s : State} {c : List Byte} (h : ¬isCrp s c)
    (hudp : beAt c 12 2 ≠ 0x86DD ∨ s.on SVC_CTRL_UDP_EN = false) (port : Nat) (short : Bool) :
    s.parseFrame port short c = .management := by
  refine (if_neg h).trans (if_neg ?_)
  rintro ⟨htype, hen, -⟩
  rcases hudp with hne | hoff
  · exact hne htype
  · exact Bool.eq_false_iff.mp hoff hen

theorem State.frameOn_other {s : State} {c : List Byte} (h : ¬isCrp s c)
    (hudp : beAt c 12 2 ≠ 0x86DD ∨ s.on SVC_CTRL_UDP_EN = false) (port : Fin 4) (len : Nat) :
    s.frameOn port none len c = s.toManagement port 0 len c := by
  unfold State.frameOn
  rw [State.parseFrame_other h hudp]
  rfl

/-- The bytes of the management queue's next receive slot: its header, with the receive timestamp, and the frame. -/
def State.mgqEntry (s : State) (port : Fin 4) (len : Nat) (c : List Byte) : List Byte :=
  slotHeader (s.tb - rxNs len) c.length port 0 (if isPtpEvent c then 1 else 0) ++ c

/-- The management queue takes frames, and this one fits a slot. -/
def State.mgqTakes (s : State) (c : List Byte) : Prop := s.on SVC_MGQ_CTRL_EN = true ∧ c.length ≤ 2032

theorem State.toManagement_lost {s : State} {c : List Byte} (h : s.on SVC_MGQ_CTRL_EN = false ∨ 2032 < c.length)
    (port : Fin 4) (len : Nat) : s.toManagement port 0 len c = s :=
  if_pos (by rcases h with h | h <;> simp [h])

theorem State.toManagement_full {s : State} {c : List Byte} (h : s.mgqTakes c)
    (hfull : (s.fget SVC_MGQ_CTRL_RX_HEAD + 1) % 64 = s.fget SVC_MGQ_CTRL_RX_TAIL) (port : Fin 4) (len : Nat) :
    s.toManagement port 0 len c = s.raise SVC_EVT_MGQ_OVF := by
  obtain ⟨hen, hlen⟩ := h
  exact (if_neg (by simp [hen, hlen])).trans (if_pos hfull)

/-- The write of a frame into the next receive slot. -/
def State.mgqWrite (s : State) (port : Fin 4) (len : Nat) (c : List Byte) : Ans Unit :=
  s.writeBlock ⟨.mgq, 0⟩ ((s.rd SVC_MGQ_BASE).toNat + 2048 * s.fget SVC_MGQ_CTRL_RX_HEAD) (s.mgqEntry port len c)

theorem State.toManagement_written {s t : State} {port : Fin 4} {len : Nat} {c : List Byte} (h : s.mgqTakes c)
    (hroom : (s.fget SVC_MGQ_CTRL_RX_HEAD + 1) % 64 ≠ s.fget SVC_MGQ_CTRL_RX_TAIL)
    (hw : s.mgqWrite port len c = (.ok (), t)) :
    s.toManagement port 0 len c = t.fset SVC_MGQ_CTRL_RX_HEAD ((s.fget SVC_MGQ_CTRL_RX_HEAD + 1) % 64) := by
  obtain ⟨hen, hlen⟩ := h
  unfold State.mgqWrite State.mgqEntry at hw
  refine (if_neg (by simp [hen, hlen])).trans ((if_neg hroom).trans ?_)
  unfold State.mgqSlot
  rw [hw]

/-- A bus error loses the frame (log entry 32). -/
theorem State.toManagement_failed {s t : State} {port : Fin 4} {len : Nat} {c : List Byte} {e : BusErr} (h : s.mgqTakes c)
    (hroom : (s.fget SVC_MGQ_CTRL_RX_HEAD + 1) % 64 ≠ s.fget SVC_MGQ_CTRL_RX_TAIL)
    (hw : s.mgqWrite port len c = (.error e, t)) : s.toManagement port 0 len c = t := by
  obtain ⟨hen, hlen⟩ := h
  unfold State.mgqWrite State.mgqEntry at hw
  refine (if_neg (by simp [hen, hlen])).trans ((if_neg hroom).trans ?_)
  unfold State.mgqSlot
  rw [hw]

/-! ### Step 4 (02 R40, R63) -/

theorem State.frameOn_crp {s : State} {c : List Byte} (h : isCrp s c) (port : Fin 4) (len : Nat) :
    s.frameOn port none len c =
      if beAt (c.drop 14) 0 1 / 16 ≠ 1 then droppedAt s port 4
      else if s.peerPort port then
        if 2 ≤ beAt (c.drop 14) 0 1 % 16 ∧ beAt (c.drop 14) 0 1 % 16 ≤ 7 ∧ 32 ≤ (c.drop 14).length then
          s.toDuo (peerMsgOf port (c.drop 14))
        else droppedAt s port 4
      else if beAt (c.drop 14) 0 1 % 16 = 0 ∧ 40 ≤ (c.drop 14).length then
        s.hostRequest port none (replyTo c) (c.drop 14) (decide (len = 64))
      else droppedAt s port 4 := by
  unfold State.frameOn
  rw [State.parseFrame_crp h]
  rfl

/-- Step 4 fails: VER is not 1, TYPE is none that the port takes, or the header is cut. -/
def badMessage (s : State) (port : Fin 4) (m : List Byte) : Prop :=
  beAt m 0 1 / 16 ≠ 1 ∨ (s.peerPort port = false ∧ (beAt m 0 1 % 16 ≠ 0 ∨ m.length < 40)) ∨
    (s.peerPort port = true ∧ (beAt m 0 1 % 16 < 2 ∨ 7 < beAt m 0 1 % 16 ∨ m.length < 32))

theorem State.frameOn_badMessage {s : State} {c : List Byte} {port : Fin 4} (h : isCrp s c)
    (hb : badMessage s port (c.drop 14)) (len : Nat) : s.frameOn port none len c = droppedAt s port 4 := by
  rw [State.frameOn_crp h]
  rcases hb with hver | ⟨hhost, hb⟩ | ⟨hpeer, hb⟩
  · exact if_pos hver
  · rw [hhost, if_neg Bool.false_ne_true, if_neg (c := _ ∧ _) (by omega), ite_self]
  · rw [hpeer, if_pos rfl, if_neg (c := _ ∧ _) (by omega), ite_self]

theorem State.frameOn_peer {s : State} {c : List Byte} {port : Fin 4} (h : isCrp s c)
    (hver : beAt (c.drop 14) 0 1 / 16 = 1) (hpeer : s.peerPort port = true) (hlo : 2 ≤ beAt (c.drop 14) 0 1 % 16)
    (hhi : beAt (c.drop 14) 0 1 % 16 ≤ 7) (hlen : 32 ≤ (c.drop 14).length) (len : Nat) :
    s.frameOn port none len c = s.toDuo (peerMsgOf port (c.drop 14)) := by
  rw [State.frameOn_crp h, if_neg (not_not.mpr hver), if_pos hpeer, if_pos ⟨hlo, hhi, hlen⟩]

theorem State.frameOn_host {s : State} {c : List Byte} {port : Fin 4} (h : isCrp s c) (hhost : s.peerPort port = false)
    (hreq : beAt (c.drop 14) 0 1 = 0x10) (hlen : 40 ≤ (c.drop 14).length) (len : Nat) :
    s.frameOn port none len c = s.hostRequest port none (replyTo c) (c.drop 14) (decide (len = 64)) := by
  rw [State.frameOn_crp h, hreq, hhost, if_neg (by decide), if_neg Bool.false_ne_true, if_pos ⟨by decide, hlen⟩]

theorem State.toDuo_eq (s : State) (m : PeerMsg) : s.toDuo m =
    if s.on DUO_CTRL_EN = true ∧ (s.sys.mode = .boot ∨ s.sys.mode = .service ∨ s.sys.mode = .custody) then
      { s with duo := { s.duo with inbox := s.duo.inbox ++ [m] } } else s := by
  unfold State.toDuo State.duoTakes
  simp only [Bool.and_eq_true, Bool.or_eq_true, decide_eq_true_eq, or_assoc]

end Sys2Proof.Machine
end

section
/-!
SUPPORT. Proofs/RequestChecks.lean: steps 5 to 10 of 02 Table 2.5 (02 R43, R47, R52-R55; 06 R183): the first of them that
fails names the refusal, and the registers they read are none that counting changes.
-/

namespace Sys2Proof.Machine

/-! ### Fields of words -/

theorem natBits_low (n width : Nat) : natBits n 0 width = n % 2 ^ width := by
  rw [natBits, Nat.pow_zero, Nat.div_one]

theorem natBits_one (n lo : Nat) : natBits n lo 1 = n / 2 ^ lo % 2 := by rw [natBits, Nat.pow_one]

/-- Two bytes of a message spell less than 2^16. -/
theorem beAt_two_lt (l : List Byte) (off : Nat) : beAt l off 2 < 0x10000 := by
  have hfold : ∀ (bs : List Byte) (a : Nat), bs.length ≤ 2 →
      bs.foldl (fun n b => n * 256 + b.toNat) a < (a + 1) * 0x10000 := by
    intro bs a h
    match bs, h with
    | [], _ => simp; omega
    | [x], _ => have := x.isLt; simp only [List.foldl]; omega
    | [x, y], _ => have := x.isLt; have := y.isLt; simp only [List.foldl]; omega
  simpa [beAt, beNat] using hfold (slice l off 2) 0 (by unfold slice; exact List.length_take_le _ _)

/-! ### Steps 7 to 10 (02 R43, R52-R55; 06 R183) -/

/-- The permission of step 8: of requester entry `k` for a request over a port, of the ring for an internal one. -/
def permits : Option Nat → Nat → Nat → Bool
  | some k => fun w0 mask => decide (natBits w0 30 1 = 1) && decide (mask / 2 ^ k % 2 = 1)
  | none => fun w0 _ => decide (natBits w0 29 1 = 1)

variable {s : State} {q : CrpReq} {e : Option Nat} {plenOk : Bool}

theorem headerFails_iff :
    (q.flags / 2 ≠ 0 ∨ q.cls / 8 ≠ 0 ∨ q.status ≠ 0 ∨ q.seq = 0 ∨ 8192 < q.plen ∨ (!plenOk) = true) ↔
      badHeader q (plenOk = true) := by
  have hflags : q.flags / 2 ≠ 0 ↔ 2 ≤ q.flags := by omega
  have hcls : q.cls / 8 ≠ 0 ↔ 8 ≤ q.cls := by omega
  rw [badHeader, hflags, hcls, Bool.not_eq_true', Bool.not_eq_true]

theorem serviceFails_iff :
    (!decide (q.service = 1) && (decide (q.service < 0x10) || decide (0xFFF < q.service) ||
      decide (natBits (s.dispWord s.bank q.service 0) 31 1 = 0) ||
      !permits e (s.dispWord s.bank q.service 0)
        (s.dispWord s.bank q.service 4 + s.dispWord s.bank q.service 5 * 2 ^ 32) ||
      (s.costEntry s.bank q.service).isNone)) = true ↔ badService s q e := by
  unfold badService
  cases e <;>
    simp only [permits, natBits_one, Bool.and_eq_true, Bool.or_eq_true, Bool.not_eq_true', decide_eq_true_eq,
      decide_eq_false_iff_not, Option.isNone_iff_eq_none, Bool.and_eq_false_iff, Decidable.not_and_iff_or_not, or_assoc, ne_eq]

theorem State.checkRequest_header (h : badHeader q (plenOk = true)) :
    s.checkRequest q plenOk (permits e) = some ⟨7, 0x20, 0⟩ := if_pos (headerFails_iff.mpr h)

theorem State.checkRequest_service (hh : ¬badHeader q (plenOk = true)) (h : badService s q e) :
    s.checkRequest q plenOk (permits e) = some ⟨8, 0x24, 0⟩ :=
  (if_neg fun k => hh (headerFails_iff.mp k)).trans (if_pos (serviceFails_iff.mpr h))

/-- Steps 9 and 10, for a request whose header and service are in order. -/
def State.checkClassAndPayload (s : State) (q : CrpReq) : Option FrontRefusal :=
  let w := s.dispWord s.bank q.service
  let minCls := natBits (w 0) 23 3
  let nop := decide (q.service = 1)
  let keyReq := natBits (w 0) 26 2
  if !nop && (decide (q.cls < minCls) ||
      (decide (q.cls = 0) && (decide (256 < q.plen) || decide (256 < natBits (w 2) 0 14)))) then some ⟨9, 0x25, minCls⟩
  else if nop && decide (q.cls = 0) && decide (256 < q.plen) then some ⟨9, 0x25, 0⟩
  else if !handleOk q.handle then some ⟨10, 0x26, 0⟩
  else if nop then (if q.handle ≠ 0 ∨ q.plen ≠ 0 then some ⟨10, 0x26, 0⟩ else none)
  else if q.plen < natBits (w 1) 0 14 ∨ natBits (w 1) 16 14 < q.plen ∨ (keyReq = 0 ∧ q.handle ≠ 0) ∨
      (keyReq = 1 ∧ q.handle = 0) then some ⟨10, 0x26, 0⟩
  else none

theorem State.checkRequest_late (hh : ¬badHeader q (plenOk = true)) (hs : ¬badService s q e) :
    s.checkRequest q plenOk (permits e) = s.checkClassAndPayload q :=
  (if_neg fun k => hh (headerFails_iff.mp k)).trans (if_neg fun k => hs (serviceFails_iff.mp k))

/-- Step 9 refuses with the tightest class that the service's dispatch entry permits (02 R54). -/
theorem State.checkClassAndPayload_class (h : badClass s q) :
    s.checkClassAndPayload q = some ⟨9, 0x25, minClass s q⟩ := by
  by_cases hnop : q.service = 1
  · have hcls : q.cls = 0 ∧ 256 < q.plen := by simpa [badClass, minClass, hnop] using h
    simp [State.checkClassAndPayload, minClass, hnop, hcls]
  · have hcond : q.cls < natBits (s.dispWord s.bank q.service 0) 23 3 ∨
        q.cls = 0 ∧ (256 < q.plen ∨ 256 < natBits (s.dispWord s.bank q.service 2) 0 14) := by
      simpa [badClass, minClass, hnop, natBits_low, natBits] using h
    refine (if_pos ?_).trans ?_
    · simpa [hnop] using hcond
    · simp [minClass, hnop, natBits]

/-- Step 10 (02 R53, R55). -/
def State.checkPayload (s : State) (q : CrpReq) : Option FrontRefusal :=
  let w := s.dispWord s.bank q.service
  let keyReq := natBits (w 0) 26 2
  if !handleOk q.handle then some ⟨10, 0x26, 0⟩
  else if decide (q.service = 1) then (if q.handle ≠ 0 ∨ q.plen ≠ 0 then some ⟨10, 0x26, 0⟩ else none)
  else if q.plen < natBits (w 1) 0 14 ∨ natBits (w 1) 16 14 < q.plen ∨ (keyReq = 0 ∧ q.handle ≠ 0) ∨
      (keyReq = 1 ∧ q.handle = 0) then some ⟨10, 0x26, 0⟩
  else none

theorem State.checkClassAndPayload_late (h : ¬badClass s q) : s.checkClassAndPayload q = s.checkPayload q := by
  by_cases hnop : q.service = 1
  · have hcls : ¬(q.cls = 0 ∧ 256 < q.plen) := by simpa [badClass, minClass, hnop] using h
    refine (if_neg (by simp [hnop])).trans (if_neg ?_)
    simpa [hnop] using hcls
  · have hcond : ¬(q.cls < natBits (s.dispWord s.bank q.service 0) 23 3 ∨
        q.cls = 0 ∧ (256 < q.plen ∨ 256 < natBits (s.dispWord s.bank q.service 2) 0 14)) := by
      simpa [badClass, minClass, hnop, natBits_low, natBits] using h
    exact (if_neg (by simpa [hnop] using hcond)).trans (if_neg (by simp [hnop]))

theorem handleOk_iff (h : Nat) : handleOk h = true ↔ h / 2 ^ 34 % 64 = 0 := by rw [handleOk, decide_eq_true_eq]

/-- The last condition of step 10, for a service with a dispatch entry. -/
theorem payloadFits_iff (hnop : q.service ≠ 1) (hok : handleOk q.handle = true) :
    (q.plen < natBits (s.dispWord s.bank q.service 1) 0 14 ∨ natBits (s.dispWord s.bank q.service 1) 16 14 < q.plen ∨
      (natBits (s.dispWord s.bank q.service 0) 26 2 = 0 ∧ q.handle ≠ 0) ∨
      (natBits (s.dispWord s.bank q.service 0) 26 2 = 1 ∧ q.handle = 0)) ↔ badPayload s q := by
  have hbits : q.handle / 2 ^ 34 % 64 = 0 := (handleOk_iff _).mp hok
  rw [badPayload, hbits]
  simp [hnop, natBits]

theorem State.checkPayload_eq (s : State) (q : CrpReq) [Decidable (badPayload s q)] :
    s.checkPayload q = if badPayload s q then some ⟨10, 0x26, 0⟩ else none := by
  unfold State.checkPayload
  dsimp only
  by_cases hok : handleOk q.handle = true
  · rw [hok, if_neg (by decide)]
    by_cases hnop : q.service = 1
    · have hiff : badPayload s q ↔ (q.handle ≠ 0 ∨ q.plen ≠ 0) := by
        rw [badPayload, (handleOk_iff _).mp hok]
        simp [hnop]
      simp only [hnop, decide_true, if_true, hiff]
    · rw [if_neg (by simp [hnop])]
      simp only [payloadFits_iff hnop hok]
  · have hbad : badPayload s q := .inl fun k => hok ((handleOk_iff _).mpr k)
    rw [Bool.not_eq_true] at hok
    rw [hok, if_pos hbad]
    exact if_pos rfl

theorem State.checkPayload_bad (h : badPayload s q) : s.checkPayload q = some ⟨10, 0x26, 0⟩ := by
  classical rw [State.checkPayload_eq, if_pos h]

theorem State.checkPayload_fine (h : ¬badPayload s q) : s.checkPayload q = none := by
  classical rw [State.checkPayload_eq, if_neg h]

/-! ### Counting changes nothing that these steps read -/

/-- Two states hold the same in every register but the counters. -/
def AlikeButCounters (s t : State) : Prop := ∀ a, NotCounter a → t.rd a = s.rd a

theorem alike_arrived (s : State) (port : Fin 4) (f : RxFrame) : AlikeButCounters s (s.arrived port f) :=
  fun _ => s.rd_arrived port f

theorem AlikeButCounters.bank {s t : State} (h : AlikeButCounters s t) : t.bank = s.bank :=
  State.fget_of_rd (h _ (.inl (by decide)))

theorem AlikeButCounters.dispWord {s t : State} (h : AlikeButCounters s t) {svc w : Nat} (hs : svc < 0x10000) (hw : w < 8)
    (b : Nat) : t.dispWord b svc w = s.dispWord b svc w := by
  have hout : NotCounter (bankAddr b (DSP_DISP svc w)) := by
    unfold NotCounter bankAddr
    simp only [DSP_DISP]
    omega
  unfold State.dispWord State.rdb
  rw [h _ hout]

theorem AlikeButCounters.costWord {s t : State} (h : AlikeButCounters s t) {svc w : Nat} (hs : svc < 0x10000) (hw : w < 16)
    (b : Nat) : t.costWord b svc w = s.costWord b svc w := by
  have hout : NotCounter (bankAddr b (ADM_COST svc w)) := by
    unfold NotCounter bankAddr
    simp only [ADM_COST]
    omega
  unfold State.costWord State.rdb
  rw [h _ hout]

theorem AlikeButCounters.costEntry {s t : State} (h : AlikeButCounters s t) {svc : Nat} (hs : svc < 0x10000) (b : Nat) :
    t.costEntry b svc = s.costEntry b svc := by
  have hstages : ∀ n, (List.range (natBits n 24 3)).map (fun i =>
        (natBits (t.costWord b svc (2 + i)) 28 4, natBits (t.costWord b svc (2 + i)) 0 27)) =
      (List.range (natBits n 24 3)).map fun i =>
        (natBits (s.costWord b svc (2 + i)) 28 4, natBits (s.costWord b svc (2 + i)) 0 27) := by
    refine fun n => List.map_congr_left fun i hi => ?_
    have hlt : i < natBits n 24 3 := List.mem_range.mp hi
    have hmax : natBits n 24 3 < 8 := Nat.mod_lt _ (by decide)
    rw [h.costWord hs (by omega)]
  unfold State.costEntry
  simp only [h.costWord hs (show 0 < 16 by decide), h.costWord hs (show 1 < 16 by decide), hstages]

/-- Steps 7 to 10 judge a request alike in both. -/
theorem AlikeButCounters.checkRequest {s t : State} (h : AlikeButCounters s t) {q : CrpReq} (hq : q.service < 0x10000)
    (plenOk : Bool) (may : Nat → Nat → Bool) : t.checkRequest q plenOk may = s.checkRequest q plenOk may := by
  have hd : ∀ w, w < 8 → t.dispWord t.bank q.service w = s.dispWord s.bank q.service w := fun w hw => by
    rw [h.bank, h.dispWord hq hw]
  have hc : t.costEntry t.bank q.service = s.costEntry s.bank q.service := by rw [h.bank, h.costEntry hq]
  unfold State.checkRequest
  simp only [hd 0 (by decide), hd 1 (by decide), hd 2 (by decide), hd 4 (by decide), hd 5 (by decide), hc]

/-! ### Steps 5 and 6 (02 R47) -/

/-- The device takes requests: it is in SERVICE or CUSTODY and SVC_CTRL.EN is 1. -/
def State.takesRequests (s : State) : Bool :=
  (decide (s.sys.mode = .service) || decide (s.sys.mode = .custody)) && s.on SVC_CTRL_EN

theorem State.takesRequests_iff (s : State) : s.takesRequests = true ↔
    s.on SVC_CTRL_EN = true ∧ (s.sys.mode = .service ∨ s.sys.mode = .custody) := by
  simp only [State.takesRequests, Bool.and_eq_true, Bool.or_eq_true, decide_eq_true_eq]
  exact and_comm

/-- The one enabled entry of requester `id` permits requests without MACsec over the port. -/
theorem State.requesterFor_plain {s : State} {id port k : Nat} (he : s.entriesFor id = [k])
    (hp : (s.requester k).plain.getLsbD port = true) (hr : s.on SVC_CTRL_MSEC_REQ = false) :
    s.requesterFor id port none = some k := by
  unfold State.requesterFor
  rw [he]
  simp only [hp, hr, Bool.not_false, Bool.and_self, if_true]

theorem State.requesterFor_uncovered {s : State} {id port k : Nat} (he : s.entriesFor id = [k])
    (hp : (s.requester k).plain.getLsbD port = false) : s.requesterFor id port none = none := by
  unfold State.requesterFor
  rw [he]
  simp only [hp, Bool.false_and, Bool.false_eq_true, if_false]

theorem State.requesterFor_unnamed {s : State} {id : Nat} (he : (s.entriesFor id).length ≠ 1) (port : Nat)
    (sc : Option Nat) : s.requesterFor id port sc = none := by
  unfold State.requesterFor
  split
  · next heq => rw [heq] at he; exact absurd rfl he
  · rfl

/-! ### A request on a host port (02 R43) -/

/-- PLEN agrees with what follows the header; a padded frame may hold more. -/
def plenAgrees (padded : Bool) (m : List Byte) (q : CrpReq) : Bool :=
  if padded then decide (40 + q.plen ≤ m.length) else decide (40 + q.plen = m.length)

theorem plenAgrees_iff (padded : Bool) (m : List Byte) (q : CrpReq) : plenAgrees padded m q = true ↔
    (m.length = 40 + q.plen ∨ (padded = true ∧ 40 + q.plen ≤ m.length)) := by
  cases padded <;> simp [plenAgrees] <;> omega

/-- A request that passed steps 5 to 10 as one of the requester entry `k`, as step 11 sees it. -/
def arrivalOf (s : State) (port : Fin 4) (k : Nat) (r : Reply) (q : CrpReq) : Arrival :=
  { time := s.tb, port := port, rq := k, req := q, reply := r, before := {} }

/-- Steps 11 and 12. -/
def State.stepsEleven (s : State) (x : Arrival) (m : List Byte) : State :=
  match s.stepElevenTurn x with
  | (.stale, t) => t.refuseEleven x .stale
  | (.replayed, t) => t.refuseEleven x .replayed
  | (.pass, t) => t.handOver (t.descOf (.port x.port) x.reply x.req m x.rq t.tb)

variable {m : List Byte} {padded : Bool} {port : Fin 4} {sc : Option Nat} {r : Reply}

theorem State.hostRequest_closed (h : s.takesRequests = false) :
    s.hostRequest port sc r m padded = droppedAt s port 5 := by
  refine if_pos ?_
  unfold State.takesRequests at h
  rw [h]
  rfl

theorem State.hostRequest_open (h : s.takesRequests = true) : s.hostRequest port sc r m padded =
    match s.requesterFor (CrpReq.parse m).requester port sc with
    | none => s.refuseAt port r (CrpReq.parse m) ⟨6, 0x21, 0⟩
    | some k => match s.checkRequest (CrpReq.parse m) (plenAgrees padded m (CrpReq.parse m)) (permits (some k)) with
      | some x => s.refuseAt port r (CrpReq.parse m) x
      | none => s.stepsEleven (arrivalOf s port k r (CrpReq.parse m)) m := by
  refine (if_neg ?_).trans rfl
  unfold State.takesRequests at h
  rw [h]
  decide

theorem State.hostRequest_unknown (h : s.takesRequests = true)
    (hk : s.requesterFor (CrpReq.parse m).requester port sc = none) :
    s.hostRequest port sc r m padded = s.refuseAt port r (CrpReq.parse m) ⟨6, 0x21, 0⟩ := by
  rw [State.hostRequest_open h, hk]

theorem State.hostRequest_refused {k : Nat} {x : FrontRefusal} (h : s.takesRequests = true)
    (hk : s.requesterFor (CrpReq.parse m).requester port sc = some k)
    (hx : s.checkRequest (CrpReq.parse m) (plenAgrees padded m (CrpReq.parse m)) (permits (some k)) = some x) :
    s.hostRequest port sc r m padded = s.refuseAt port r (CrpReq.parse m) x := by
  rw [State.hostRequest_open h, hk]
  simp only [hx]

theorem State.hostRequest_eleven {k : Nat} (h : s.takesRequests = true)
    (hk : s.requesterFor (CrpReq.parse m).requester port sc = some k)
    (hx : s.checkRequest (CrpReq.parse m) (plenAgrees padded m (CrpReq.parse m)) (permits (some k)) = none) :
    s.hostRequest port sc r m padded = s.stepsEleven (arrivalOf s port k r (CrpReq.parse m)) m := by
  rw [State.hostRequest_open h, hk]
  simp only [hx]

end Sys2Proof.Machine
end

section
/-!
SUPPORT. Proofs/ReplayWindow.lean: step 11 of 02 Table 2.5 (02 R48-R50): the window of 8,192 sequence numbers, the turn
of a request before which none of a higher port came in its instant, and the refusals STALE and REPLAYED.
-/

namespace Sys2Proof.Machine

/-! ### The window (02 R48) -/

/-- The bits of a run of `k` from `lo` on, around the end of the window. -/
theorem getLsbD_windowMask {lo k i : Nat} (hk : k ≤ 8192) (hi : i < 8192) :
    (windowMask lo k).getLsbD i = decide ((i + 8192 - lo % 8192) % 8192 < k) := by
  have hlo : lo % 8192 < 8192 := Nat.mod_lt _ (by decide)
  have hones : ∀ j, (BitVec.ofNat 8192 (2 ^ k - 1)).getLsbD j = decide (j < k) := fun j => by
    rw [BitVec.getLsbD_ofNat, Nat.testBit_two_pow_sub_one, ← Bool.decide_and]
    exact decide_eq_decide.mpr ⟨And.right, fun h => ⟨by omega, h⟩⟩
  rw [windowMask, BitVec.getLsbD_rotateLeft, Nat.mod_mod, hones, hones, Bool.cond_decide]
  split
  · exact decide_eq_decide.mpr (by omega)
  · rw [← Bool.decide_and]
    exact decide_eq_decide.mpr (by omega)

/-- The bit of sequence number `seq` in the window. -/
theorem getLsbD_seqBit (seq : Nat) {i : Nat} (hi : i < 8192) :
    (1#8192 <<< (seq % 8192)).getLsbD i = decide (i = seq % 8192) := by
  simp only [BitVec.getLsbD_shiftLeft, BitVec.getLsbD_one, hi, decide_true, show decide (0 < 8192) = true from rfl,
    Bool.true_and]
  rw [← decide_not, ← Bool.decide_and]
  exact decide_eq_decide.mpr (by omega)

theorem checkAndMark_stale {e : Requester} {seq : Nat} (h : seq + 8192 ≤ e.high) : checkAndMark e seq = (.stale, e) :=
  (if_neg (by omega)).trans (if_pos h)

theorem checkAndMark_replayed {e : Requester} {seq : Nat} (hle : seq ≤ e.high) (hin : e.high < seq + 8192)
    (hseen : e.seen.getLsbD (seq % 8192) = true) : checkAndMark e seq = (.replayed, e) :=
  (if_neg (by omega)).trans ((if_neg (by omega)).trans (if_pos hseen))

/-- What the window holds once `seq` is marked: the new HIGH, the number itself, and none of those passed over (02 R48). -/
def marks (e t : Requester) (seq : Nat) : Prop :=
  t.high = max e.high seq ∧ ∀ k, t.high < k + 8192 → k ≤ t.high → t.seen.getLsbD (k % 8192) =
    if k = seq then true else if e.high < k then false else e.seen.getLsbD (k % 8192)

/-- A number above HIGH moves the window up. -/
theorem checkAndMark_ahead {e : Requester} {seq : Nat} (h : e.high < seq) :
    ∃ t, checkAndMark e seq = (.pass, t) ∧ marks e t seq := by
  refine ⟨_, if_pos h, by simp only; omega, fun k hlow hhigh => ?_⟩
  simp only at hlow hhigh ⊢
  have hi : k % 8192 < 8192 := Nat.mod_lt _ (by decide)
  rw [BitVec.getLsbD_or, BitVec.getLsbD_and, BitVec.getLsbD_not, getLsbD_seqBit _ hi, getLsbD_windowMask (by omega) hi]
  simp only [hi, decide_true, Bool.true_and]
  by_cases hk : k = seq
  · simp [hk]
  · have hne : k % 8192 ≠ seq % 8192 := by omega
    rw [if_neg hk, decide_eq_false hne, Bool.or_false]
    split
    · next hpast => rw [decide_eq_true (by omega)]; simp
    · next hold => rw [decide_eq_false (by omega)]; simp

/-- A number in the window that was not seen is marked there. -/
theorem checkAndMark_within {e : Requester} {seq : Nat} (hle : seq ≤ e.high) (hin : e.high < seq + 8192)
    (hseen : e.seen.getLsbD (seq % 8192) = false) : ∃ t, checkAndMark e seq = (.pass, t) ∧ marks e t seq := by
  refine ⟨_, (if_neg (by omega)).trans ((if_neg (by omega)).trans (if_neg (by rw [hseen]; decide))), by simp only; omega,
    fun k hlow hhigh => ?_⟩
  simp only at hlow hhigh ⊢
  have hi : k % 8192 < 8192 := Nat.mod_lt _ (by decide)
  rw [BitVec.getLsbD_or, getLsbD_seqBit _ hi]
  by_cases hk : k = seq
  · simp [hk]
  · have hne : k % 8192 ≠ seq % 8192 := by omega
    rw [if_neg hk, if_neg (by omega), decide_eq_false hne, Bool.or_false]

theorem checkAndMark_passes {e : Requester} {seq : Nat}
    (h : e.high < seq ∨ (e.high < seq + 8192 ∧ e.seen.getLsbD (seq % 8192) = false)) :
    ∃ t, checkAndMark e seq = (.pass, t) ∧ marks e t seq := by
  by_cases hahead : e.high < seq
  · exact checkAndMark_ahead hahead
  · obtain ⟨hin, hseen⟩ := h.resolve_left hahead
    exact checkAndMark_within (Nat.le_of_not_lt hahead) hin hseen

/-! ### The turn of a request (02 R49) -/

/-- The requests of the present instant that step 11 judged. -/
def State.judgedNow (s : State) : List Arrival := s.svc.instant.filter fun y => decide (y.time = s.tb)

/-- The request `x` has taken its turn, and its entry holds `t`. -/
def State.turned (s : State) (x : Arrival) (t : Requester) : State :=
  { s with svc := { s.svc with
      rq := sput {} s.svc.rq x.rq t, instant := s.judgedNow ++ [{ x with before := s.requester x.rq }] } }

theorem State.requester_turned (s : State) (x : Arrival) (t : Requester) : (s.turned x t).requester x.rq = t :=
  sget_sput_self _ _ _ _

/-- Where no request of the same entry came over a higher port in the instant, no turn is taken again. -/
theorem State.judgedNow_partition {s : State} {x : Arrival}
    (h : ∀ y ∈ s.svc.instant, y.time = s.tb → y.rq = x.rq → y.port ≤ x.port) :
    s.judgedNow.partition (fun y => decide (y.rq = x.rq ∧ x.port < y.port)) = ([], s.judgedNow) := by
  have hnone : ∀ y ∈ s.judgedNow, ¬(y.rq = x.rq ∧ x.port < y.port) := fun y hy ⟨hrq, hlt⟩ => by
    obtain ⟨hmem, hnow⟩ := List.mem_filter.mp hy
    exact absurd hlt (Fin.not_lt.mpr (h y hmem (of_decide_eq_true hnow) hrq))
  rw [List.partition_eq_filter_filter, List.filter_eq_nil_iff.mpr, List.filter_eq_self.mpr]
  · exact fun y hy => by simp only [Function.comp, decide_eq_false (hnone y hy), Bool.not_false]
  · exact fun y hy => by simpa only [decide_eq_true_eq] using hnone y hy

/-- Step 11 for an entry that stays below the largest sequence number. -/
theorem State.stepEleven_eq {s : State} {k seq : Nat} {r : MarkResult} {t : Requester}
    (hm : checkAndMark (s.requester k) seq = (r, t)) (hroom : (s.requester k).high < seqMax) (ht : t.high < seqMax) :
    s.stepEleven k seq = (r, s.setRequester k t) := by
  unfold State.stepEleven
  dsimp only
  rw [if_neg (Nat.ne_of_lt hroom), hm]
  simp only [if_neg (fun k : t.high = seqMax ∧ _ => Nat.ne_of_lt ht k.1)]

theorem State.stepElevenTurn_eq {s : State} {x : Arrival} {r : MarkResult} {t : Requester}
    (halone : ∀ y ∈ s.svc.instant, y.time = s.tb → y.rq = x.rq → y.port ≤ x.port)
    (hm : checkAndMark (s.requester x.rq) x.req.seq = (r, t)) (hroom : (s.requester x.rq).high < seqMax)
    (ht : t.high < seqMax) : s.stepElevenTurn x = (r, s.turned x t) := by
  have hpart := State.judgedNow_partition halone
  unfold State.judgedNow at hpart
  have hstep : State.stepEleven { s with svc := { s.svc with instant := s.judgedNow } } x.rq x.req.seq =
      (r, State.setRequester { s with svc := { s.svc with instant := s.judgedNow } } x.rq t) :=
    State.stepEleven_eq hm hroom ht
  unfold State.judgedNow at hstep
  unfold State.stepElevenTurn
  simp only [hpart, State.stepElevenOf, hstep, List.foldl]
  rfl

/-! ### Refusals of step 11 (02 R44, Table 2.7) -/

/-- What sending and holding refusals leaves alone: the requester entries and ADM. -/
def RefusalFrame (s t : State) : Prop := t.svc.rq = s.svc.rq ∧ t.adm = s.adm

theorem RefusalFrame.trans {s t u : State} (h : RefusalFrame s t) (k : RefusalFrame t u) : RefusalFrame s u :=
  ⟨k.1.trans h.1, k.2.trans h.2⟩

theorem refusalFrame_count (s : State) (e n : Nat) : RefusalFrame s (s.count e n) :=
  ⟨congrArg SvcState.rq (State.count_svc s e n), State.count_adm s e n⟩

theorem refusalFrame_usePn (s : State) (k : Nat) : RefusalFrame s (s.usePn k) := by
  simp only [State.usePn]
  split <;> split <;> exact ⟨rfl, rfl⟩

theorem refusalFrame_sendFrame (s : State) (p : Fin 4) (b : List Byte) (t : Nat) : RefusalFrame s (s.sendFrame p b t) := by
  have hsent : RefusalFrame s ((s.sentCounted p (frameLen (s.secy p) b)).emit
      (.frame p t ((s.sentCounted p (frameLen (s.secy p) b)).wireBytes p b))) :=
    (refusalFrame_count s _ _).trans (refusalFrame_count _ _ _)
  rw [State.sendFrame_eq]
  dsimp only
  split
  · exact hsent.trans (refusalFrame_usePn _ _)
  · exact hsent

theorem refusalFrame_takePort (s : State) (p t : Nat) : RefusalFrame s (s.takePort p t) := ⟨rfl, rfl⟩

theorem refusalFrame_hold (s : State) (l : List PendingRefusal) :
    RefusalFrame s { s with svc := { s.svc with refusals := l } } := ⟨rfl, rfl⟩

theorem refusalFrame_startRefusals (port : Fin 4) (n : Nat) : ∀ s : State, RefusalFrame s (s.startRefusals port n) := by
  induction n with
  | zero => exact fun s => ⟨rfl, rfl⟩
  | succ n ih =>
    intro s
    simp only [State.startRefusals]
    split
    · exact ⟨rfl, rfl⟩
    · split
      · exact (((refusalFrame_hold s _).trans (refusalFrame_sendFrame _ _ _ _)).trans (refusalFrame_takePort _ _ _)).trans
          (ih _)
      · exact ⟨rfl, rfl⟩

theorem refusalFrame_refuse (s : State) (port : Fin 4) (r : Reply) (q : CrpReq) (status detail bound : Nat)
    (turn : Option (Nat × Nat)) : RefusalFrame s (s.refuse port r q status detail bound turn) := by
  unfold State.refuse
  split
  · exact refusalFrame_count s _ _
  · exact (refusalFrame_hold s _).trans (refusalFrame_startRefusals port _ _)

/-- The answer of step 11, once the request has taken its turn. -/
def State.answeredEleven (s : State) (x : Arrival) (status detail : Nat) : State :=
  ((s.turned x (s.requester x.rq)).count (16 * x.port.val + 14) 1).refuse x.port x.reply x.req status detail (s.tb + 380)
    (some (x.rq, x.req.seq))

theorem State.answeredEleven_frame (s : State) (x : Arrival) (status detail : Nat) :
    (s.answeredEleven x status detail).requester x.rq = s.requester x.rq ∧
      (s.answeredEleven x status detail).adm = s.adm := by
  obtain ⟨hrq, hadm⟩ := (refusalFrame_count (s.turned x (s.requester x.rq)) (16 * x.port.val + 14) 1).trans
    (refusalFrame_refuse _ x.port x.reply x.req status detail (s.tb + 380) (some (x.rq, x.req.seq)))
  refine ⟨?_, hadm⟩
  unfold State.requester State.answeredEleven
  rw [hrq]
  exact s.requester_turned x _

variable {s : State} {x : Arrival} {m : List Byte}

/-- A number below the window is STALE (02 Table 2.7). -/
theorem State.stepsEleven_stale (halone : ∀ y ∈ s.svc.instant, y.time = s.tb → y.rq = x.rq → y.port ≤ x.port)
    (hroom : (s.requester x.rq).high < seqMax) (h : x.req.seq + 8192 ≤ (s.requester x.rq).high) :
    s.stepsEleven x m = s.answeredEleven x 0x22 ((s.requester x.rq).high % 2 ^ 32) := by
  unfold State.stepsEleven
  rw [State.stepElevenTurn_eq halone (checkAndMark_stale h) hroom hroom]
  simp only [State.refuseEleven, State.stepElevenRefusal, if_true, State.requester_turned]
  rfl

/-- A number in the window that was seen is REPLAYED. -/
theorem State.stepsEleven_replayed (halone : ∀ y ∈ s.svc.instant, y.time = s.tb → y.rq = x.rq → y.port ≤ x.port)
    (hroom : (s.requester x.rq).high < seqMax) (hle : x.req.seq ≤ (s.requester x.rq).high)
    (hin : (s.requester x.rq).high < x.req.seq + 8192)
    (hseen : (s.requester x.rq).seen.getLsbD (x.req.seq % 8192) = true) :
    s.stepsEleven x m = s.answeredEleven x 0x23 0 := by
  unfold State.stepsEleven
  rw [State.stepElevenTurn_eq halone (checkAndMark_replayed hle hin hseen) hroom hroom]
  rfl

/-! ### Step 12 (03 R77) -/

/-- Behind descriptors of which none of its instant came over a higher port, a descriptor goes to the end. -/
theorem insertDesc_last {d : Desc} : ∀ {l : List Desc}, (∀ x ∈ l, x.ingress = d.ingress → x.src.rank ≤ d.src.rank) →
    insertDesc d l = l ++ [d] := by
  intro l
  induction l with
  | nil => exact fun _ => rfl
  | cons y l ih =>
    intro h
    have hy : ¬(d.ingress = y.ingress ∧ d.src.rank < y.src.rank) := fun ⟨hi, hlt⟩ =>
      Nat.not_le.mpr hlt (h y List.mem_cons_self hi.symm)
    rw [insertDesc, if_neg hy, ih fun x hx => h x (List.mem_cons_of_mem _ hx)]
    rfl

/-- The descriptor that ADM gets of request `x`. -/
def State.descriptor (s : State) (x : Arrival) (m : List Byte) : Desc := s.descOf (.port x.port) x.reply x.req m x.rq s.tb

/-- A request that passes step 11 is marked and handed over behind the descriptors that stand there. -/
theorem State.stepsEleven_passes (halone : ∀ y ∈ s.svc.instant, y.time = s.tb → y.rq = x.rq → y.port ≤ x.port)
    (hroom : (s.requester x.rq).high < seqMax) (hseq : x.req.seq < seqMax)
    (h : (s.requester x.rq).high < x.req.seq ∨
      ((s.requester x.rq).high < x.req.seq + 8192 ∧ (s.requester x.rq).seen.getLsbD (x.req.seq % 8192) = false))
    (hlast : ∀ d ∈ s.adm.descs, d.ingress = s.tb → d.src.rank ≤ x.port.val) :
    ∃ t, marks (s.requester x.rq) t x.req.seq ∧ s.stepsEleven x m =
      { s.turned x t with adm := { s.adm with descs := s.adm.descs ++ [s.descriptor x m] } } := by
  obtain ⟨t, hcheck, hmarks⟩ := checkAndMark_passes h
  have ht : t.high < seqMax := by rw [hmarks.1]; exact Nat.max_lt.mpr ⟨hroom, hseq⟩
  refine ⟨t, hmarks, ?_⟩
  unfold State.stepsEleven
  rw [State.stepElevenTurn_eq halone hcheck hroom ht]
  have hdesc : insertDesc (s.descriptor x m) s.adm.descs = s.adm.descs ++ [s.descriptor x m] := insertDesc_last hlast
  rw [← hdesc]
  rfl

end Sys2Proof.Machine
end

section
/-!
SUPPORT. Proofs/FrameReceive.lean: FRAME_RECEIVE as a whole (02 R43): each step of 02 Table 2.5 as an equation of the
command, with what the registers held when the frame arrived. O31 is settled from these.
-/

namespace Sys2Proof.Machine

/-- The request that a frame spells which carries a CRP message over Ethernet. -/
abbrev RxFrame.crp (f : RxFrame) : CrpReq := CrpReq.parse (f.bytes.drop 14)

variable {dt : Nat} {port : Fin 4} {f : RxFrame} {s : State}

/-! ### Steps 1 to 4 -/

theorem frameReceive_sound (hp : (s.elapse dt).powered = true) (ho : (s.elapse dt).portOn port = true)
    (hl : (s.elapse dt).svc.linkUp.getLsbD port = true) (h : f.sound) :
    exec (.frameReceive dt port f) s = .next (((s.elapse dt).arrived port f).stepTwo port f) := by
  rw [frameReceive_up hp ho hl, State.receive_sound h]

theorem isCrp_arrived (s : State) (port : Fin 4) (f : RxFrame) (c : List Byte) : isCrp (s.arrived port f) c ↔ isCrp s c := by
  unfold isCrp
  rw [s.on_arrived port f (.inl (by decide))]

/-- A frame that is no CRP goes to the management queue (02 R65). -/
theorem frameReceive_management (h : PlainFrame (s.elapse dt) port f) (hc : ¬isCrp (s.elapse dt) f.bytes)
    (hudp : beAt f.bytes 12 2 ≠ 0x86DD ∨ (s.elapse dt).on SVC_CTRL_UDP_EN = false) :
    exec (.frameReceive dt port f) s = .next (((s.elapse dt).arrived port f).toManagement port 0 f.length f.bytes) := by
  rw [frameReceive_plain h, State.frameOn_other]
  · rwa [isCrp_arrived]
  · rwa [State.on_arrived _ _ _ (.inl (by decide))]

theorem mgqTakes_arrived (hen : s.on SVC_MGQ_CTRL_EN = true) (hlen : f.bytes.length ≤ 2032) :
    (s.arrived port f).mgqTakes f.bytes := ⟨by rwa [State.on_arrived _ _ _ (.inl (by decide))], hlen⟩

theorem mgqHead_arrived : (s.arrived port f).fget SVC_MGQ_CTRL_RX_HEAD = s.fget SVC_MGQ_CTRL_RX_HEAD :=
  s.fget_arrived port f (.inl (by decide))

theorem mgqTail_arrived : (s.arrived port f).fget SVC_MGQ_CTRL_RX_TAIL = s.fget SVC_MGQ_CTRL_RX_TAIL :=
  s.fget_arrived port f (.inl (by decide))

/-- The write of the next receive slot. -/
theorem mgqWrite_arrived (s : State) (port : Fin 4) (f : RxFrame) :
    (s.arrived port f).mgqWrite port f.length f.bytes = (s.arrived port f).writeBlock ⟨.mgq, 0⟩
      ((s.rd SVC_MGQ_BASE).toNat + 2048 * s.fget SVC_MGQ_CTRL_RX_HEAD) (s.mgqEntry port f.length f.bytes) := by
  rw [State.mgqWrite, mgqHead_arrived, s.rd_arrived port f (.inl (by decide)), State.mgqEntry, State.arrived_tb]
  rfl

section
variable (h : PlainFrame (s.elapse dt) port f) (hc : ¬isCrp (s.elapse dt) f.bytes)
  (hudp : beAt f.bytes 12 2 ≠ 0x86DD ∨ (s.elapse dt).on SVC_CTRL_UDP_EN = false)
include h hc hudp

theorem frameReceive_lost (hl : (s.elapse dt).on SVC_MGQ_CTRL_EN = false ∨ 2032 < f.bytes.length) :
    exec (.frameReceive dt port f) s = .next ((s.elapse dt).arrived port f) := by
  rw [frameReceive_management h hc hudp, State.toManagement_lost]
  rwa [State.on_arrived _ _ _ (.inl (by decide))]

variable (hen : (s.elapse dt).on SVC_MGQ_CTRL_EN = true) (hlen : f.bytes.length ≤ 2032)
include hen hlen

theorem frameReceive_full
    (hf : ((s.elapse dt).fget SVC_MGQ_CTRL_RX_HEAD + 1) % 64 = (s.elapse dt).fget SVC_MGQ_CTRL_RX_TAIL) :
    exec (.frameReceive dt port f) s = .next (((s.elapse dt).arrived port f).raise SVC_EVT_MGQ_OVF) := by
  rw [frameReceive_management h hc hudp, State.toManagement_full (mgqTakes_arrived hen hlen)]
  rwa [mgqHead_arrived, mgqTail_arrived]

variable (hroom : ((s.elapse dt).fget SVC_MGQ_CTRL_RX_HEAD + 1) % 64 ≠ (s.elapse dt).fget SVC_MGQ_CTRL_RX_TAIL) {t : State}
include hroom

theorem frameReceive_queued
    (hw : ((s.elapse dt).arrived port f).mgqWrite port f.length f.bytes = (.ok (), t)) :
    exec (.frameReceive dt port f) s =
      .next (t.fset SVC_MGQ_CTRL_RX_HEAD (((s.elapse dt).fget SVC_MGQ_CTRL_RX_HEAD + 1) % 64)) := by
  rw [frameReceive_management h hc hudp, State.toManagement_written (mgqTakes_arrived hen hlen) _ hw, mgqHead_arrived]
  rwa [mgqHead_arrived, mgqTail_arrived]

theorem frameReceive_unwritten {e : BusErr}
    (hw : ((s.elapse dt).arrived port f).mgqWrite port f.length f.bytes = (.error e, t)) :
    exec (.frameReceive dt port f) s = .next t := by
  rw [frameReceive_management h hc hudp, State.toManagement_failed (mgqTakes_arrived hen hlen) _ hw]
  rwa [mgqHead_arrived, mgqTail_arrived]

end

theorem frameReceive_badMessage (h : PlainFrame (s.elapse dt) port f) (hc : isCrp (s.elapse dt) f.bytes)
    (hb : badMessage (s.elapse dt) port (f.bytes.drop 14)) :
    exec (.frameReceive dt port f) s = .next (droppedAt ((s.elapse dt).arrived port f) port 4) := by
  rw [frameReceive_plain h, State.frameOn_badMessage ((isCrp_arrived _ _ _ _).mpr hc)]
  unfold badMessage
  rwa [State.peerPort_arrived]

theorem toDuo_arrived (s : State) (port : Fin 4) (f : RxFrame) (m : PeerMsg) : (s.arrived port f).toDuo m =
    if s.on DUO_CTRL_EN = true ∧ (s.sys.mode = .boot ∨ s.sys.mode = .service ∨ s.sys.mode = .custody) then
      { s.arrived port f with duo := { s.duo with inbox := s.duo.inbox ++ [m] } } else s.arrived port f := by
  rw [State.toDuo_eq, State.on_arrived _ _ _ (.inl (by decide))]
  obtain ⟨g, hg⟩ := arrived_regsOnly s port f
  rw [hg]

/-- The message of a peer port leaves for the duo link (02 R63). -/
theorem frameReceive_peer (h : PlainFrame (s.elapse dt) port f) (hc : isCrp (s.elapse dt) f.bytes)
    (hver : beAt (f.bytes.drop 14) 0 1 / 16 = 1) (hpeer : (s.elapse dt).peerPort port = true)
    (hlo : 2 ≤ beAt (f.bytes.drop 14) 0 1 % 16) (hhi : beAt (f.bytes.drop 14) 0 1 % 16 ≤ 7)
    (hlen : 32 ≤ (f.bytes.drop 14).length) :
    exec (.frameReceive dt port f) s =
      .next (((s.elapse dt).arrived port f).toDuo (peerMsgOf port (f.bytes.drop 14))) := by
  rw [frameReceive_plain h, State.frameOn_peer ((isCrp_arrived _ _ _ _).mpr hc) hver _ hlo hhi hlen]
  rwa [State.peerPort_arrived]

/-- The frame of a host port passes steps 1 to 4 (02 Table 2.5). -/
theorem frameReceive_host (h : HostFrame (s.elapse dt) port f) :
    exec (.frameReceive dt port f) s = .next (((s.elapse dt).arrived port f).hostRequest port none (replyTo f.bytes)
      (f.bytes.drop 14) (decide (f.length = 64))) := by
  obtain ⟨hreq, hlen⟩ := h.request
  rw [frameReceive_plain h.toPlainFrame, State.frameOn_host ((isCrp_arrived _ _ _ _).mpr h.crp) _ hreq hlen]
  rw [State.peerPort_arrived, h.host]

/-! ### Steps 5 to 10 -/

theorem takesRequests_arrived (s : State) (port : Fin 4) (f : RxFrame) :
    (s.arrived port f).takesRequests = s.takesRequests := by
  unfold State.takesRequests
  rw [State.arrived_sys, s.on_arrived port f (.inl (by decide))]

theorem requester_arrived (s : State) (port : Fin 4) (f : RxFrame) (k : Nat) :
    (s.arrived port f).requester k = s.requester k := by
  unfold State.requester
  rw [State.arrived_svc]

theorem entriesFor_arrived (s : State) (port : Fin 4) (f : RxFrame) (id : Nat) :
    (s.arrived port f).entriesFor id = s.entriesFor id := by
  unfold State.entriesFor
  rw [State.arrived_svc]

/-- A refusal of steps 6 to 10 is counted and may start within 380 ns (02 R44, R45). -/
def State.refusedAt (s : State) (port : Fin 4) (f : RxFrame) (step status detail : Nat) : State :=
  ((s.arrived port f).count (16 * port.val + 3 + step) 1).refuse port (replyTo f.bytes) f.crp status detail
    (s.tb + 380)

theorem refuseAt_arrived (s : State) (port : Fin 4) (f : RxFrame) (step status detail : Nat) :
    (s.arrived port f).refuseAt port (replyTo f.bytes) f.crp ⟨step, status, detail⟩ =
      s.refusedAt port f step status detail := by
  rw [State.refuseAt, State.arrived_tb]
  rfl

theorem frameReceive_closed (h : HostFrame (s.elapse dt) port f) (hc : (s.elapse dt).takesRequests = false) :
    exec (.frameReceive dt port f) s = .next (droppedAt ((s.elapse dt).arrived port f) port 5) := by
  rw [frameReceive_host h, State.hostRequest_closed ((takesRequests_arrived _ _ _).trans hc)]

/-- Step 6: no enabled entry, or more than one, or one that does not cover the port (02 R47). -/
theorem frameReceive_unknown (h : HostFrame (s.elapse dt) port f) (ht : (s.elapse dt).takesRequests = true)
    (hk : ((s.elapse dt).entriesFor f.crp.requester).length ≠ 1 ∨
      ∃ e, (s.elapse dt).entriesFor f.crp.requester = [e] ∧
        ((s.elapse dt).requester e).plain.getLsbD port = false) :
    exec (.frameReceive dt port f) s = .next ((s.elapse dt).refusedAt port f 6 0x21 0) := by
  rw [frameReceive_host h, State.hostRequest_unknown ((takesRequests_arrived _ _ _).trans ht), refuseAt_arrived]
  rcases hk with hk | ⟨e, he, hp⟩
  · exact State.requesterFor_unnamed (by rwa [entriesFor_arrived]) _ _
  · exact State.requesterFor_uncovered ((entriesFor_arrived _ _ _ _).trans he) (by rwa [requester_arrived])

/-- A request of the enabled entry `e`, which covers the port, that passes steps 1 to 6. -/
structure Named (s : State) (port : Fin 4) (f : RxFrame) (e : Nat) : Prop where
  frame : HostFrame s port f
  takes : s.takesRequests = true
  entry : s.entriesFor f.crp.requester = [e]
  covers : (s.requester e).plain.getLsbD port = true

/-- What steps 7 to 10 find. -/
def State.judged (s : State) (f : RxFrame) (e : Nat) : Option FrontRefusal :=
  s.checkRequest f.crp (plenAgrees (decide (f.length = 64)) (f.bytes.drop 14) f.crp) (permits (some e))

variable {e : Nat}

theorem requesterFor_arrived (h : Named s port f e) :
    (s.arrived port f).requesterFor f.crp.requester port none = some e := by
  obtain ⟨-, -, hreq⟩ := h.frame.plain
  exact State.requesterFor_plain ((entriesFor_arrived _ _ _ _).trans h.entry) (by rw [requester_arrived, h.covers])
    ((s.on_arrived port f (.inl (by decide))).trans hreq)

theorem judged_arrived (s : State) (port : Fin 4) (f : RxFrame) (e : Nat) : (s.arrived port f).judged f e = s.judged f e :=
  (alike_arrived s port f).checkRequest (beAt_two_lt _ _) _ _

theorem frameReceive_refused {step status detail : Nat} (h : Named (s.elapse dt) port f e)
    (hx : (s.elapse dt).judged f e = some ⟨step, status, detail⟩) :
    exec (.frameReceive dt port f) s = .next ((s.elapse dt).refusedAt port f step status detail) := by
  rw [frameReceive_host h.frame, State.hostRequest_refused ((takesRequests_arrived _ _ _).trans h.takes)
    (requesterFor_arrived h) ((judged_arrived _ _ _ _).trans hx), refuseAt_arrived]

/-- The request as step 11 sees it. -/
def State.arrival (s : State) (port : Fin 4) (f : RxFrame) (e : Nat) : Arrival :=
  arrivalOf s port e (replyTo f.bytes) f.crp

theorem frameReceive_eleven (h : Named (s.elapse dt) port f e) (hx : (s.elapse dt).judged f e = none) :
    exec (.frameReceive dt port f) s =
      .next (((s.elapse dt).arrived port f).stepsEleven ((s.elapse dt).arrival port f e) (f.bytes.drop 14)) := by
  rw [frameReceive_host h.frame, State.hostRequest_eleven ((takesRequests_arrived _ _ _).trans h.takes)
    (requesterFor_arrived h) ((judged_arrived _ _ _ _).trans hx)]
  unfold State.arrival arrivalOf
  rw [State.arrived_tb]

/-! ### What steps 7 to 10 find -/

/-- Step 7 asks that PLEN agrees with what follows the header. -/
def headerBad (f : RxFrame) : Prop :=
  badHeader f.crp ((f.bytes.drop 14).length = 40 + f.crp.plen ∨
    (f.length = 64 ∧ 40 + f.crp.plen ≤ (f.bytes.drop 14).length))

theorem headerBad_iff (f : RxFrame) :
    badHeader f.crp (plenAgrees (decide (f.length = 64)) (f.bytes.drop 14) f.crp = true) ↔ headerBad f := by
  unfold headerBad
  rw [plenAgrees_iff, decide_eq_true_eq]

theorem State.judged_header (h : headerBad f) : s.judged f e = some ⟨7, 0x20, 0⟩ :=
  State.checkRequest_header ((headerBad_iff f).mpr h)

theorem State.judged_service (hh : ¬headerBad f) (h : badService s f.crp (some e)) :
    s.judged f e = some ⟨8, 0x24, 0⟩ :=
  State.checkRequest_service (fun k => hh ((headerBad_iff f).mp k)) h

theorem State.judged_late (hh : ¬headerBad f) (hs : ¬badService s f.crp (some e)) :
    s.judged f e = s.checkClassAndPayload f.crp :=
  State.checkRequest_late (fun k => hh ((headerBad_iff f).mp k)) hs

theorem State.judged_payload (hh : ¬headerBad f) (hs : ¬badService s f.crp (some e))
    (hc : ¬badClass s f.crp) (h : badPayload s f.crp) : s.judged f e = some ⟨10, 0x26, 0⟩ := by
  rw [State.judged_late hh hs, State.checkClassAndPayload_late hc, State.checkPayload_bad h]

theorem State.judged_passes (hh : ¬headerBad f) (hs : ¬badService s f.crp (some e))
    (hc : ¬badClass s f.crp) (h : ¬badPayload s f.crp) : s.judged f e = none := by
  rw [State.judged_late hh hs, State.checkClassAndPayload_late hc, State.checkPayload_fine h]

/-! ### Step 11 after the arrival -/

theorem judgedNow_arrived (s : State) (port : Fin 4) (f : RxFrame) : (s.arrived port f).judgedNow = s.judgedNow := by
  unfold State.judgedNow
  rw [State.arrived_svc, State.arrived_tb]

theorem alone_arrived (h : ∀ y ∈ s.svc.instant, y.time = s.tb → y.rq = e → y.port ≤ port) :
    ∀ y ∈ (s.arrived port f).svc.instant, y.time = (s.arrived port f).tb → y.rq = (s.arrival port f e).rq →
      y.port ≤ (s.arrival port f e).port := by
  rw [State.arrived_svc, State.arrived_tb]
  exact h

theorem descriptor_arrived (s : State) (port : Fin 4) (f : RxFrame) (x : Arrival) (m : List Byte) :
    (s.arrived port f).descriptor x m = s.descriptor x m := by
  unfold State.descriptor State.descOf
  rw [State.arrived_tb, s.fget_arrived port f (.inl (by decide)), (alike_arrived s port f).bank]

/-- The answer of step 11: the entry stands as it did, and the turn is noted. -/
theorem answeredEleven_arrived (s : State) (port : Fin 4) (f : RxFrame) (e status detail : Nat) :
    ((s.arrived port f).answeredEleven (s.arrival port f e) status detail).requester e = s.requester e ∧
    ((s.arrived port f).answeredEleven (s.arrival port f e) status detail).adm.descs = s.adm.descs ∧
    ∃ rq, (s.arrived port f).answeredEleven (s.arrival port f e) status detail =
      (State.count { s.arrived port f with svc := { (s.arrived port f).svc with
          rq := rq, instant := s.judgedNow ++ [{ s.arrival port f e with before := s.requester e }] } }
        (16 * port.val + 14) 1).refuse port (replyTo f.bytes) f.crp status detail (s.tb + 380)
        (some (e, f.crp.seq)) := by
  obtain ⟨hrq, hadm⟩ := (s.arrived port f).answeredEleven_frame (s.arrival port f e) status detail
  refine ⟨hrq.trans (requester_arrived s port f e), by rw [hadm, State.arrived_adm],
    sput {} s.svc.rq e (s.requester e), ?_⟩
  obtain ⟨g, hg⟩ := arrived_regsOnly s port f
  rw [hg]
  rfl

/-- What a request that passed leaves, beside the counters: its entry, its turn and its descriptor. -/
theorem passed_arrived (s : State) (port : Fin 4) (f : RxFrame) (x : Arrival) (t : Requester) (l : List Desc) :
    { (s.arrived port f).turned x t with adm := { (s.arrived port f).adm with descs := l } } =
      { s with
        regs := (s.arrived port f).regs, adm := { s.adm with descs := l }
        svc := { s.svc with
          rq := sput {} s.svc.rq x.rq t, instant := s.judgedNow ++ [{ x with before := s.requester x.rq }] } } := by
  unfold State.turned
  rw [judgedNow_arrived, requester_arrived]
  obtain ⟨g, hg⟩ := arrived_regsOnly s port f
  rw [hg]

section
variable (h : Named (s.elapse dt) port f e) (hx : (s.elapse dt).judged f e = none)
  (hroom : ((s.elapse dt).requester e).high < seqMax)
  (halone : ∀ y ∈ (s.elapse dt).svc.instant, y.time = (s.elapse dt).tb → y.rq = e → y.port ≤ port)
include h hx hroom halone

/-- A number below the window is answered STALE, with the low half of HIGH (02 Table 2.7). -/
theorem frameReceive_stale (hold : f.crp.seq + 8192 ≤ ((s.elapse dt).requester e).high) :
    exec (.frameReceive dt port f) s = .next (((s.elapse dt).arrived port f).answeredEleven ((s.elapse dt).arrival port f e)
      0x22 (((s.elapse dt).requester e).high % 2 ^ 32)) := by
  rw [← requester_arrived (s.elapse dt) port f e] at hroom hold ⊢
  rw [frameReceive_eleven h hx, State.stepsEleven_stale (alone_arrived halone) hroom hold]
  rfl

/-- A number that was seen is answered REPLAYED. -/
theorem frameReceive_replayed (hle : f.crp.seq ≤ ((s.elapse dt).requester e).high)
    (hin : ((s.elapse dt).requester e).high < f.crp.seq + 8192)
    (hseen : ((s.elapse dt).requester e).seen.getLsbD (f.crp.seq % 8192) = true) :
    exec (.frameReceive dt port f) s = .next (((s.elapse dt).arrived port f).answeredEleven ((s.elapse dt).arrival port f e)
      0x23 0) := by
  rw [← requester_arrived (s.elapse dt) port f e] at hroom hle hin hseen
  rw [frameReceive_eleven h hx, State.stepsEleven_replayed (alone_arrived halone) hroom hle hin hseen]

/-- A request that passes step 11 is marked, and ADM gets its descriptor (03 R77). -/
theorem frameReceive_passes
    (hnew : ((s.elapse dt).requester e).high < f.crp.seq ∨
      (((s.elapse dt).requester e).high < f.crp.seq + 8192 ∧
        ((s.elapse dt).requester e).seen.getLsbD (f.crp.seq % 8192) = false))
    (hmax : f.crp.seq < seqMax)
    (hlast : ∀ d ∈ (s.elapse dt).adm.descs, d.ingress = (s.elapse dt).tb → d.src.rank ≤ port.val) :
    ∃ t, marks ((s.elapse dt).requester e) t f.crp.seq ∧
      exec (.frameReceive dt port f) s = .next { s.elapse dt with
        regs := ((s.elapse dt).arrived port f).regs
        adm := { (s.elapse dt).adm with descs := (s.elapse dt).adm.descs ++
          [(s.elapse dt).descriptor ((s.elapse dt).arrival port f e) (f.bytes.drop 14)] }
        svc := { (s.elapse dt).svc with
          rq := sput {} (s.elapse dt).svc.rq e t
          instant := (s.elapse dt).judgedNow ++
            [{ (s.elapse dt).arrival port f e with before := (s.elapse dt).requester e }] } } := by
  rw [← requester_arrived (s.elapse dt) port f e] at hroom hnew
  obtain ⟨t, hmarks, hpassed⟩ := State.stepsEleven_passes (m := f.bytes.drop 14) (alone_arrived halone) hroom hmax hnew
    (by rw [State.arrived_adm, State.arrived_tb]; exact hlast)
  refine ⟨t, requester_arrived (s.elapse dt) port f e ▸ hmarks, ?_⟩
  rw [frameReceive_eleven h hx, hpassed, passed_arrived, descriptor_arrived, State.arrived_adm]
  rfl

end

end Sys2Proof.Machine

namespace Sys2Proof
open Sys2Proof.Machine

/-- Settles O31: the command is an equation at each step of 02 Table 2.5 (`frameReceive_…`), with what steps 7 to 10 find
in `judged_…` and the window after step 11 in `marks`. -/
theorem framesAreCheckedInOrder : Obligations.FramesAreCheckedInOrder := by
  unfold Obligations.FramesAreCheckedInOrder
  intro dt port f s u n i m typ q r padded crp head refused turns refusedLate
  refine ⟨frameReceive_down, fun hp ho hl => ⟨fun hfec h => ?_, fun hfec => ?_, fun hfec hfcs htag hmin hmax => ?_⟩,
    fun hplain => ⟨fun hc hudp => ⟨frameReceive_lost hplain hc hudp, frameReceive_full hplain hc hudp, ?_, ?_⟩,
      frameReceive_badMessage hplain, fun hc hver hpeer hlo hhi hlen => ?_⟩,
    fun hhost => ⟨fun hclosed => ?_, fun hen hmode => ?_⟩⟩
  · exact (frameReceive_up hp ho hl).trans (congrArg _ (State.receive_damaged hfec h))
  · exact (frameReceive_up hp ho hl).trans (congrArg _ (State.receive_uncorrected hfec))
  · have hstep := frameReceive_sound hp ho hl ⟨hfec, hfcs, htag, hmin, hmax⟩
    refine ⟨fun hsecy h => hstep.trans (congrArg _ (State.stepTwo_unprotected ?_ ?_)),
      fun hsecy h => hstep.trans (congrArg _ (State.stepTwo_untagged ?_ h))⟩
    · rwa [State.secy_arrived]
    · rwa [State.on_arrived _ _ _ (.inl (by decide))]
    · rwa [State.secy_arrived]
  · exact fun t hen hlen hroom hw =>
      frameReceive_queued hplain hc hudp hen hlen hroom ((mgqWrite_arrived u port f).trans hw)
  · exact fun e t hen hlen hroom hw =>
      frameReceive_unwritten hplain hc hudp hen hlen hroom ((mgqWrite_arrived u port f).trans hw)
  · exact (frameReceive_peer hplain hc hver hpeer hlo hhi hlen).trans (congrArg _ (toDuo_arrived u port f _))
  · refine frameReceive_closed hhost (Bool.eq_false_iff.mpr fun h => ?_)
    obtain ⟨hon, hmode⟩ := (State.takesRequests_iff _).mp h
    rcases hclosed with hoff | ⟨hserv, hcust⟩
    · exact Bool.eq_false_iff.mp hoff hon
    · exact hmode.elim hserv hcust
  · have htakes : u.takesRequests = true := (State.takesRequests_iff u).mpr ⟨hen, hmode⟩
    refine ⟨fun h => frameReceive_unknown hhost htakes (.inl h), fun e he hcov => frameReceive_unknown hhost htakes
      (.inr ⟨e, he, hcov⟩), fun e he hcov => ?_⟩
    intro x badServ badHead
    have hnamed : Named u port f e := ⟨hhost, htakes, he, hcov⟩
    refine ⟨fun h7 => frameReceive_refused hnamed (State.judged_header h7),
      fun h7 h8 => frameReceive_refused hnamed (State.judged_service h7 h8),
      fun h7 h8 h9 => frameReceive_refused hnamed ((State.judged_late h7 h8).trans (State.checkClassAndPayload_class h9)),
      fun h7 h8 h9 h10 => frameReceive_refused hnamed (State.judged_payload h7 h8 h9 h10),
      fun h7 h8 h9 h10 hroom halone => ?_⟩
    have hpass : u.judged f e = none := State.judged_passes h7 h8 h9 h10
    refine ⟨fun hold => ⟨_, frameReceive_stale hnamed hpass hroom halone hold, answeredEleven_arrived u port f e _ _⟩,
      fun hle hin hseen => ⟨_, frameReceive_replayed hnamed hpass hroom halone hle hin hseen,
        answeredEleven_arrived u port f e _ _⟩, fun hnew hmax hlast => ?_⟩
    obtain ⟨t, ⟨hhigh, hseen⟩, hexec⟩ := frameReceive_passes hnamed hpass hroom halone hnew hmax hlast
    have hself : sget {} (sput {} u.svc.rq e t) e = t := sget_sput_self _ _ _ _
    rw [← hself] at hhigh hseen
    exact ⟨_, hexec, hhigh, hseen, fun y hy => sget_sput_ne _ _ _ _ hy, rfl, rfl, rfl⟩

end Sys2Proof
end

section
/-!
SUPPORT. Proofs/ResponseGrant.lean: the grant of a response (02 R41, R42, R59; 03 R75): when the transmit unit of a port
takes one, what the response carries, and what its context and the port are left with. O38 is settled from these.
-/

namespace Sys2Proof.Machine

/-! ### The counts of a response (03 R84) -/

theorem reportOverrun_regsFlt {s t : State} (h : RegsFlt s t) : RegsFlt s t.reportOverrun :=
  ((h.raise _).count _ _).signal _ _

theorem countLate_regsFlt (s : State) (x : Ctx) (late : Bool) : RegsFlt s (s.countLate x late) := by
  have hcount : RegsFlt s (if late = true then s.count 0x04F 1 else s) := .ite _ ((RegsFlt.refl s).count _ _) (.refl s)
  unfold State.countLate
  dsimp only
  split
  · exact .ite _ (reportOverrun_regsFlt hcount) hcount
  · exact hcount

@[simp] theorem State.countLate_dsp (s : State) (x : Ctx) (late : Bool) : (s.countLate x late).dsp = s.dsp := by
  obtain ⟨r, f, h⟩ := countLate_regsFlt s x late; rw [h]
@[simp] theorem State.countLate_svc (s : State) (x : Ctx) (late : Bool) : (s.countLate x late).svc = s.svc := by
  obtain ⟨r, f, h⟩ := countLate_regsFlt s x late; rw [h]
@[simp] theorem State.countLate_out (s : State) (x : Ctx) (late : Bool) : (s.countLate x late).out = s.out := by
  obtain ⟨r, f, h⟩ := countLate_regsFlt s x late; rw [h]
@[simp] theorem State.countLate_freeCtr (s : State) (x : Ctx) (late : Bool) : (s.countLate x late).freeCtr = s.freeCtr := by
  obtain ⟨r, f, h⟩ := countLate_regsFlt s x late; rw [h]

/-! ### The context becomes FREE (06 Table 6.5) -/

/-- What freeing a context leaves alone: the front end, the output and the free values. -/
def FreeFrame (s t : State) : Prop := t.svc = s.svc ∧ t.out = s.out ∧ t.freeCtr = s.freeCtr

theorem freeFrame_wasted (s : State) (c : Nat) : FreeFrame s (s.wasted c) := by
  unfold State.wasted
  split
  · exact ⟨State.count_svc .., State.count_out .., State.count_freeCtr ..⟩
  · exact ⟨rfl, rfl, rfl⟩

theorem freeFrame_abortWhere (s : State) (c : Nat) (p : EngCmd → Bool) : FreeFrame s (s.abortWhere c p) := by
  unfold State.abortWhere
  exact ⟨State.countBusy_svc .., State.countBusy_out .., State.countBusy_freeCtr ..⟩

theorem freeFrame_unbind (s : State) (i : Nat) : FreeFrame s (s.unbind i) := by
  simp only [State.unbind]
  split
  · exact ⟨rfl, rfl, rfl⟩
  · split <;> exact ⟨rfl, rfl, rfl⟩

theorem FreeFrame.trans {s t u : State} (h : FreeFrame s t) (k : FreeFrame t u) : FreeFrame s u :=
  let ⟨hsvc, hout, hctr⟩ := h
  let ⟨ksvc, kout, kctr⟩ := k
  ⟨ksvc.trans hsvc, kout.trans hout, kctr.trans hctr⟩

theorem freeFrame_unbound (s : State) (c : Nat) : FreeFrame s (s.unbound c) := by
  have habort : FreeFrame s ((s.wasted c).abortAll c) := (freeFrame_wasted s c).trans (freeFrame_abortWhere _ _ _)
  unfold State.unbound
  split
  · exact habort.trans (freeFrame_unbind _ _)
  · exact habort

theorem freeFrame_freeCtx (s : State) (c : Nat) : FreeFrame s (s.freeCtx c) := freeFrame_unbound s c

theorem State.st_freeCtx (s : State) (c : Nat) : ((s.freeCtx c).ctx c).st = .free := by
  obtain ⟨x, h⟩ := s.exists_ctxs_freeCtx c
  unfold State.ctx
  rw [h, sget_sput_self]

theorem State.ctx_freeCtx_ne (s : State) {c y : Nat} (h : y ≠ c) : (s.freeCtx c).ctx y = s.ctx y := by
  obtain ⟨x, hx⟩ := s.exists_ctxs_freeCtx c
  unfold State.ctx
  rw [hx, sget_sput_ne _ _ _ _ h, sget_sput_ne _ _ _ _ h]

/-! ### When the transmit unit takes a response (03 R73, R75) -/

theorem responseGrant_unpowered {dt : Nat} {p : Fin 4} {s : State} (h : (s.elapse dt).powered = false) :
    exec (.responseGrant dt p) s = .next (s.elapse dt) :=
  timed_neg (f := fun u => if (u.flushRefusals p).portFree p ≤ (u.flushRefusals p).tb then (u.flushRefusals p).grant p
    else u.flushRefusals p) h

theorem responseGrant_powered {dt : Nat} {p : Fin 4} {s : State} (h : (s.elapse dt).powered = true) :
    exec (.responseGrant dt p) s = .next (if ((s.elapse dt).flushRefusals p).portFree p ≤ ((s.elapse dt).flushRefusals p).tb
      then ((s.elapse dt).flushRefusals p).grant p else (s.elapse dt).flushRefusals p) :=
  timed_pos (f := fun u => if (u.flushRefusals p).portFree p ≤ (u.flushRefusals p).tb then (u.flushRefusals p).grant p
    else u.flushRefusals p) h

/-- The responses that the transmit unit of port `p` may take now. -/
def State.grantableOn (s : State) (p : Fin 4) : List (Nat × Ctx) :=
  s.live.filter fun e => decide (e.2.src = .port p ∧ e.2.st = .ending) && e.2.grantable && s.txMayRun p e.2

theorem State.grant_none {s : State} {p : Fin 4} (h : s.grantableOn p = []) : s.grant p = s := by
  have hfirst : firstByKey (s.grantableOn p) = none := firstByKey_eq_none.mpr h
  unfold State.grant
  unfold State.grantableOn at hfirst
  rw [hfirst]

theorem State.grant_some {s : State} {p : Fin 4} {c : Nat} {x : Ctx} {r : Response}
    (h : firstByKey (s.grantableOn p) = some (c, x)) (hr : x.resp = some r) : s.grant p = s.grantTo p c x r := by
  unfold State.grant
  unfold State.grantableOn at h
  simp only [h, hr]

/-! ### What the response carries (02 R41, R42) -/

/-- LATE of the response of `x`: past the deadline, or a free bit between the key and the deadline (log entry 23). -/
def State.lateBit (s : State) (x : Ctx) : Bool :=
  match x.key with
  | some e => x.late || decide (e + 180 < s.tb) || (decide (e < s.tb) && Config.freeBit s.freeCtr)
  | none => x.late

/-- The FLAGS of a response (02 R41). -/
def respFlags (x : Ctx) (late locked : Bool) : Nat :=
  (if x.req.tsreq = true then 1 else 0) + (if late = true then 2 else 0) + (if x.mirrored = true then 4 else 0) +
    (if locked = true then 8 else 0)

/-- The response as it is sent. -/
def sentResponse (x : Ctx) (r : Response) (late locked : Bool) : Response :=
  { r with flags := respFlags x late locked, ts := if x.req.tsreq = true then some (x.ingress, x.respAt) else none }

theorem State.finalResponse_eq (s : State) (x : Ctx) (r : Response) :
    s.finalResponse x r = (sentResponse x r (s.lateBit x) (Config.freeBit (s.freeCtr + 1)), s.lateBit x) := by rfl

theorem State.lateBit_late {s : State} {x : Ctx} {e : Nat} (hk : x.key = some e) (h : x.late = true ∨ e + 180 < s.tb) :
    s.lateBit x = true := by
  rw [State.lateBit, hk]
  rcases h with h | h <;> simp [h]

theorem State.lateBit_onTime {s : State} {x : Ctx} {e : Nat} (hk : x.key = some e) (h : s.tb ≤ e) (hl : x.late = false) :
    s.lateBit x = false := by
  rw [State.lateBit, hk]
  have h180 : ¬e + 180 < s.tb := by omega
  simp [hl, h180, Nat.not_lt.mpr h]

theorem State.lateBit_unkeyed {s : State} {x : Ctx} (hk : x.key = none) : s.lateBit x = x.late := by
  rw [State.lateBit, hk]

/-! ### What the grant leaves -/

/-- The frame's content with the response of context entry `x`. -/
def State.answerFrame (s : State) (p : Fin 4) (x : Ctx) (r : Response) : List Byte :=
  s.crpFrame p x.reply ((sentResponse x r (s.lateBit x) (Config.freeBit (s.freeCtr + 1))).bytes x.req s.devid)

/-- The frame with the response of `x` has left port `p`. -/
def State.answerSent (s : State) (p : Fin 4) (x : Ctx) (r : Response) : State :=
  (s.drawn 2).sendFrame p (s.answerFrame p x r) s.tb

/-- The response of `x` has left on port `p`, which is taken for as long as the wire is, and is counted. -/
def State.answered (s : State) (p : Fin 4) (x : Ctx) (r : Response) : State :=
  ((s.answerSent p x r).takePort p (s.tb + wireNs (frameLen (s.secy p) (s.answerFrame p x r)))).countLate x
    (s.lateBit x)

theorem State.crpFrame_drawn (s : State) (n : Nat) (p : Fin 4) (a : Reply) (m : List Byte) :
    (s.drawn n).crpFrame p a m = s.crpFrame p a m := by rfl

theorem State.grantTo_sent {s : State} {p : Fin 4} {c : Nat} {x : Ctx} {r : Response} (hs : x.isState = false)
    (h : s.canSend p = true) : s.grantTo p c x r = (s.answered p x r).freeCtx c := by
  have hd : (s.drawn 2).canSend p = true := h
  have hv : (s.drawn 2).devid = s.devid := rfl
  have hm : (s.drawn 2).secy p = s.secy p := rfl
  simp only [State.grantTo, State.finalResponse_eq, hd, hv, hm, State.mirrorEnding, hs, Bool.false_and, Bool.false_eq_true,
    if_false, if_true, State.answered, State.answerSent, State.answerFrame, State.crpFrame_drawn, State.drawn_tb]

theorem State.grantTo_dropped {s : State} {p : Fin 4} {c : Nat} {x : Ctx} {r : Response} (hs : x.isState = false)
    (h : s.canSend p = false) : s.grantTo p c x r = ((s.drawn 2).raise SVC_EVT_RESP_DROP).freeCtx c := by
  have hd : (s.drawn 2).canSend p = false := h
  simp only [State.grantTo, State.finalResponse_eq, hd, State.mirrorEnding, hs, Bool.false_and, Bool.false_eq_true, if_false]

theorem State.answered_frame (s : State) (p : Fin 4) (x : Ctx) (r : Response) :
    (s.answered p x r).dsp = s.dsp ∧ (s.answered p x r).freeCtr = s.freeCtr + 2 := by
  have ht : ∀ (u : State) t, (u.takePort p t).dsp = u.dsp ∧ (u.takePort p t).freeCtr = u.freeCtr := fun _ _ => ⟨rfl, rfl⟩
  simp [State.answered, State.answerSent, ht]

/-- On a port without MACsec the answer goes out as it is, and the port is taken. -/
theorem State.answered_plain {s : State} {p : Fin 4} (h : s.secy p = false) (x : Ctx) (r : Response) :
    (s.answered p x r).out = s.out ++ [.frame p s.tb (padFrame (s.answerFrame p x r))] ∧
    (s.answered p x r).portFree p = s.tb + wireNs (frameLen false (s.answerFrame p x r)) := by
  have hd : (s.drawn 2).secy p = false := h
  have ht : ∀ (u : State) t, (u.takePort p t).out = u.out ∧ (u.takePort p t).svc.txBusy = sput 0 u.svc.txBusy p t :=
    fun _ _ => ⟨rfl, rfl⟩
  have hout : (s.answerSent p x r).out = s.out ++ [.frame p s.tb (padFrame (s.answerFrame p x r))] := by
    rw [State.answerSent, State.sendFrame_plain hd, State.emit_out]
    obtain ⟨g, hg⟩ := sentCounted_regsOnly (s.drawn 2) p (frameLen false (s.answerFrame p x r))
    rw [hg]
    rfl
  constructor
  · rw [State.answered, State.countLate_out, (ht _ _).1, hout]
  · rw [State.answered, State.portFree, State.countLate_svc, (ht _ _).2, sget_sput_self, h]

theorem wireNs_pos (n : Nat) : 0 < wireNs n := by unfold wireNs; omega

end Sys2Proof.Machine

namespace Sys2Proof
open Sys2Proof.Machine

/-- Settles O38: `grantTo` in its two cases (`grantTo_sent`, `grantTo_dropped`), and the freeing of a context, which
leaves the port, the output and the other contexts alone. -/
theorem responsesAreGranted : Obligations.ResponsesAreGranted := by
  unfold Obligations.ResponsesAreGranted
  intro dt p s i u able
  have hable : able = u.grantableOn p := rfl
  refine ⟨responseGrant_unpowered, fun hp h => ?_, fun c x r hp hfree hfirst hr hs => ?_⟩
  · refine (responseGrant_powered hp).trans (congrArg _ ?_)
    rcases h with h | h
    · exact if_neg (Nat.not_le.mpr h)
    · rw [State.grant_none h, ite_self]
  have hexec : exec i s = .next (u.grantTo p c x r) :=
    (responseGrant_powered hp).trans (congrArg _ ((if_pos hfree).trans (State.grant_some hfirst hr)))
  cases hsend : u.canSend p with
  | false =>
    rw [State.grantTo_dropped hs hsend] at hexec
    obtain ⟨-, hout, hctr⟩ := freeFrame_freeCtx ((u.drawn 2).raise SVC_EVT_RESP_DROP) c
    refine ⟨_, hexec, State.st_freeCtx _ _, fun y hy => State.ctx_freeCtx_ne _ hy, hctr, fun _ => ⟨?_, hout⟩,
      fun h => Bool.noConfusion h⟩
    rw [State.on_of_rd (State.rd_freeCtx _ _ (by decide))]
    exact State.on_raise_self _ _ (by simp [Fld.fits]) (by decide)
  | true =>
    rw [State.grantTo_sent hs hsend] at hexec
    obtain ⟨hdsp, hdrawn⟩ := u.answered_frame p x r
    obtain ⟨hsvc, hout, hctr⟩ := freeFrame_freeCtx (u.answered p x r) c
    refine ⟨_, hexec, State.st_freeCtx _ _, fun y hy => ?_, hctr.trans hdrawn, fun h => Bool.noConfusion h,
      fun _ hsecy => ?_⟩
    · rw [State.ctx_freeCtx_ne _ hy, State.ctx_congr (congrArg _ hdsp)]
    · obtain ⟨hleaves, htaken⟩ := State.answered_plain hsecy x r
      refine ⟨u.lateBit x, Config.freeBit (u.freeCtr + 1), ⟨fun e => State.lateBit_late, fun e => State.lateBit_onTime,
        State.lateBit_unkeyed⟩, hout.trans hleaves, ?_⟩
      have hpos := wireNs_pos (frameLen false (u.answerFrame p x r))
      rw [State.portFree, hsvc]
      exact Nat.lt_of_lt_of_eq (Nat.lt_add_of_pos_right hpos) htaken.symm

end Sys2Proof
end

section
/-!
SUPPORT. Proofs/RequesterFloor.lean: what a granted write of SVC_RQ_FLOOR does to a disabled requester entry (02 R50):
besides HIGH and the window, it ends the turns that requests of the entry took in the present instant (02 R49). O32,
which leaves these turns as they were, is refuted from this.
-/

namespace Sys2Proof.Machine

/-- The write of HIGH of a disabled entry forgets the arrivals of that entry, for whose turns the old window counted. -/
theorem State.instant_rqFloor {s : State} (v : Word) (h : (s.requester (s.fget SVC_RQ_SEL_INDEX)).en = false) :
    (s.rqFloor v).svc.instant = s.svc.instant.filter fun x => decide (x.rq ≠ s.fget SVC_RQ_SEL_INDEX) := by
  unfold State.rqFloor
  simp only [h, Bool.false_eq_true, if_false]
  split
  · simp [State.setRequester]
  · rfl

theorem regEffect_svc {s : State} {a : Acc} {row : RegRow} {r : Nat} {v : Word} (h : r / 0x100000 = 0x402) :
    s.regEffect a row r v = s.writeSvc row r v := by
  simp only [State.regEffect, h]

theorem writeSvc_rqFloor (s : State) (row : RegRow) (v : Word) : s.writeSvc row SVC_RQ_FLOOR v = s.rqFloor v := by
  rw [State.writeSvc, if_neg (by decide), if_neg (by decide), if_neg (by decide), if_neg (by decide), if_neg (by decide),
    if_pos rfl]

theorem svcRqFloor_isDouble : isDouble SVC_RQ_FLOOR = true := by decide +kernel

/-- A granted write of both words of SVC_RQ_FLOOR is `rqFloor`, and no low word is held any more. -/
theorem rqFloorWrite_eq {s : State} {a : Acc} {v : Word} (h : MayWrite s a SVC_RQ_FLOOR (v.setWidth 32))
    (ht : s.actCheck a (SVC_RQ_FLOOR + 4) .write = none) :
    exec (.rqFloorWrite a v) s = .next (State.rqFloor
      { s with heldLow := sput none (sput none s.heldLow (halfKey a SVC_RQ_FLOOR) (some (v.setWidth 32)))
                            (halfKey a SVC_RQ_FLOOR) none } v) := by
  obtain ⟨row, hw⟩ := writeRow64_eq h svcRqFloor_isDouble ht fun w => rfl
  rw [regEffect_svc (by decide), writeSvc_rqFloor] at hw
  exact hw

/-- With it the turns of a disabled entry in the instant end, and no others. -/
theorem rqFloorWrite_instant {s : State} {a : Acc} {v : Word} (h : MayWrite s a SVC_RQ_FLOOR (v.setWidth 32))
    (ht : s.actCheck a (SVC_RQ_FLOOR + 4) .write = none) (hen : (s.requester (s.fget SVC_RQ_SEL_INDEX)).en = false) :
    Completes (.rqFloorWrite a v) s fun t =>
      t.svc.instant = s.svc.instant.filter fun x => decide (x.rq ≠ s.fget SVC_RQ_SEL_INDEX) :=
  ⟨_, rqFloorWrite_eq h ht, State.instant_rqFloor v hen⟩

/-- The block after reset, with a request of requester entry 0 that took its turn in the present instant. -/
def turnTaken : State :=
  { State.reset with svc := { instant := [{ time := 0, port := 0, rq := 0, req := {}, reply := {}, before := {} }] } }

/-- An access of control core 0 with every permission. -/
def fullAccess : Acc := { master := .ctl 0, perms := 0x7FFF }

theorem turnTaken_mayWrite : MayWrite turnTaken fullAccess SVC_RQ_FLOOR ((0 : Word).setWidth 32) ∧
    turnTaken.actCheck fullAccess (SVC_RQ_FLOOR + 4) .write = none :=
  ⟨⟨by decide, by decide +kernel, by decide +kernel, by decide +kernel, by decide +kernel⟩, by decide +kernel⟩

/-- SVC_RQ_SEL names entry 0 there, which is disabled. -/
theorem turnTaken_entry : turnTaken.fget SVC_RQ_SEL_INDEX = 0 ∧ (turnTaken.requester 0).en = false := by decide +kernel

end Sys2Proof.Machine

namespace Sys2Proof
open Sys2Proof.Machine

/-- Refutes O32: SVC_RQ_FLOOR of a disabled entry also ends the turns of its requests in the instant
(`rqFloorWrite_instant`), where the statement keeps them; `turnTaken` holds such a turn. -/
theorem not_frontEndIsManaged : ¬ Obligations.FrontEndIsManaged := by
  unfold Obligations.FrontEndIsManaged
  rintro ⟨-, ⟨-, -, hfloor, -⟩, -⟩
  obtain ⟨hmay, htable⟩ := turnTaken_mayWrite
  obtain ⟨hsel, hdis⟩ := turnTaken_entry
  have hen : (turnTaken.requester (turnTaken.fget SVC_RQ_SEL_INDEX)).en = false := hsel ▸ hdis
  obtain ⟨t, hexec, hinst⟩ := rqFloorWrite_instant hmay htable hen
  have hends : t.svc.instant = [] := by rw [hinst, hsel]; rfl
  have stated := Host.Outcome.next.inj (hexec.symm.trans (hfloor fullAccess 0 turnTaken hmay htable))
  have hkeeps : t.svc.instant = turnTaken.svc.instant := by
    rw [stated, if_neg (Bool.eq_false_iff.mp hen)]
    rfl
  exact List.cons_ne_nil _ _ (hkeeps.symm.trans hends)

end Sys2Proof
end

section
/-!
SUPPORT. Proofs/CipherSeal.lean: a command of a cipher engine whose words spell a GCM encryption with VFY set (08 R212).
08 R213 refuses it at issue, but a state may hold it in a unit; there it writes its tag. O40 is refuted from it.
-/

namespace Sys2Proof.Machine

/-- A GCM encryption always succeeds. -/
theorem CphCmd.compute_seal {m : CphCmd} (hop : m.op = 0x101) (hdec : m.dec = false)
    (key input aux iv tag rand : List Byte) : (m.compute key input aux iv tag rand).status = 0 := by
  simp [CphCmd.compute, hop, hdec]

/-- A GCM encryption of nothing whose word 0 has VFY set as well; no other field is set. -/
def verifyingSeal : EngCmd :=
  { ctx := 0, ticket := 1, pool := .cph, words := [0x0101000200000000], base := 0xC000, top := 0xD000, perms := 0x7FFF,
    index := 0 }

/-- Unit 1 runs it, with an AES-128 key of zeros. -/
def sealState : State :=
  { State.reset with
    cph := [(1, { cmd := some verifyingSeal
                  key := some { type := 1, use := none, wrappable := true, bytes := List.replicate 16 0 } })]
    dsp := { ctxs := [(0, { st := .parked, tickets := [(1, .outstanding)] })] } }

theorem verifyingSeal_parsed : let m := cphParse verifyingSeal.words
    m.op = 0x101 ∧ m.dec = false ∧ m.osel = false ∧ m.vfy = true ∧ m.lengthOk = true := by decide +kernel

theorem sealState_unit : let u := sealState.elapse 0
    (u.cphUnit 1).want = 0 ∧ (u.cphUnit 1).cmd = some verifyingSeal ∧ u.ticket 0 1 = .outstanding ∧
    (cphParse verifyingSeal.words).slotsOk (u.cphUnit 1).key (u.cphUnit 1).plain = true ∧ u.dsp.mem = [] := by decide +kernel

/-- The command ends with the first byte of its tag at TAG_OFF. -/
theorem sealState_tag : Completes (.cphCompletion 0 1 true) sealState fun t => prvGet t.dsp.mem 0xC000 = 0x58 :=
  ⟨_, rfl, by decide +kernel⟩

end Sys2Proof.Machine

namespace Sys2Proof
open Sys2Proof.Machine

/-- Refutes O40: its clause for a command with VFY and without OSEL leaves the context memory as it was, for every
operation; `verifyingSeal` is a GCM encryption, whose tag is written all the same (`sealState_tag`). -/
theorem not_cipherEnginesRunCommands : ¬ Obligations.CipherEnginesRunCommands := by
  unfold Obligations.CipherEnginesRunCommands
  rintro ⟨-, hdone⟩
  obtain ⟨hwant, hcmd, hticket, hslots, hmem⟩ := sealState_unit
  obtain ⟨hop, hdec, hosel, hvfy, hlen⟩ := verifyingSeal_parsed
  obtain ⟨t, hexec, htag⟩ := sealState_tag
  obtain ⟨t', hexec', status, -, -, -, -, -, -, -, -, -, hresult, -⟩ :=
    ((hdone 0 1 true sealState).2 verifyingSeal hwant hcmd).1 rfl hticket
  obtain ⟨hstatus, -, hkept, -⟩ := hresult hlen hslots
  obtain rfl := Host.Outcome.next.inj (hexec.symm.trans hexec')
  have hok : status = 0 := by
    rw [hstatus, if_neg (by rw [hosel]; simp), CphCmd.compute_seal hop hdec]
  rw [hkept hok hosel hvfy, hmem] at htag
  exact absurd htag (by decide)

end Sys2Proof
end

section
/-!
SUPPORT. Proofs/StrayTake.lean: a state in which a spare is to take the role of a unit that does not exist (08 R222). O42 is
refuted from it.
-/

namespace Sys2Proof.Machine

/-- A unit register holds no bit for a unit numbered 64 or more. -/
theorem cphSet_eq_false_of_ge (s : State) (a : Nat) {u : Nat} (h : 64 ≤ u) : s.cphSet a u = false :=
  BitVec.getLsbD_of_ge _ _ h

/-- Spare 2 is to take the role of a unit 64, which does not exist, and spare 3 is idle. -/
def strayTake : State := { State.reset.wr CPH_SPARE 0xC with cphTake := [(64, 2)] }

theorem strayTake_mayWrite : MayWrite strayTake fullAccess CPH_RETIRE 0x80000002 :=
  ⟨by decide, by decide +kernel, by decide +kernel, by decide +kernel, by decide +kernel⟩

theorem strayTake_spares : strayTake.cphSet CPH_RETIRED 2 = false ∧ strayTake.cphSet CPH_SPARE 2 = true ∧
    strayTake.cphIdleSpare = some 3 := by decide +kernel

end Sys2Proof.Machine

namespace Sys2Proof
open Sys2Proof.Machine

/-- Refutes O42: where a spare is retired for which a unit `r` waits, the statement has `r` in CPH_RETIRED for every
number `r`, where its clause on CPH_SPARE_TAKEOVER asks `r < 18`. In `strayTake` unit 64 waits, and no write of a
register can hold a bit for it. -/
theorem not_enginesRetireAndReturn : ¬ Obligations.EnginesRetireAndReturn := by
  unfold Obligations.EnginesRetireAndReturn
  rintro ⟨⟨hretire, -⟩, -⟩
  obtain ⟨-, -, -, -, hwaits, -⟩ := hretire fullAccess 0x80000002 strayTake
  obtain ⟨hretired, hspare, hidle⟩ := strayTake_spares
  obtain ⟨t, -, -, -, hstray, -⟩ := hwaits 64 3 (by decide) (by decide) hretired hspare rfl (by decide) (by decide) hidle
    strayTake_mayWrite
  exact Bool.false_ne_true ((cphSet_eq_false_of_ge t CPH_RETIRED (Nat.le_refl 64)).symm.trans hstray)

end Sys2Proof
end

section
/-!
SUPPORT. Proofs/Tempo.lean: the tempo factors, the Taper readings and what comes of them (03 R82, R83), the end of an entry
that overruns (03 R84), and a write of ADM_CTRL (03 R72). O34 is settled from these.
-/

namespace Sys2Proof.Machine

/-! ### What Taper and tempo change -/

/-- `t` is `s` but for its registers, its collector and the pools whose staleness is reported. -/
def TaperFrame (s t : State) : Prop :=
  ∃ r f b, t = { s with regs := r, flt := f, adm := { s.adm with staleSeen := b } }

section
variable {s t u : State}

theorem TaperFrame.eq (h : TaperFrame s t) :
    t = { s with regs := t.regs, flt := t.flt, adm := { s.adm with staleSeen := t.adm.staleSeen } } := by
  obtain ⟨r, f, b, rfl⟩ := h; rfl

theorem TaperFrame.trans (h : TaperFrame s t) (k : TaperFrame t u) : TaperFrame s u := by
  obtain ⟨r, f, b, rfl⟩ := h
  obtain ⟨r', f', b', rfl⟩ := k
  exact ⟨r', f', b', rfl⟩

theorem RegsFlt.taperFrame (h : RegsFlt s t) : TaperFrame s t := by
  obtain ⟨r, f, rfl⟩ := h; exact ⟨r, f, _, rfl⟩

theorem TaperFrame.tempoOld (h : TaperFrame s t) (hc : t.rd ADM_CTRL = s.rd ADM_CTRL) (q : Nat) :
    t.tempoOld q = s.tempoOld q := by
  have hage : t.fget ADM_CTRL_STALE_US = s.fget ADM_CTRL_STALE_US := State.fget_of_rd hc
  unfold State.tempoOld State.staleUs
  rw [hage]
  obtain ⟨r, f, b, rfl⟩ := h
  rfl

end

theorem State.tempoOld_iff (s : State) (p : Nat) : s.tempoOld p = true ↔
    sget 0 s.adm.tempoAt p + max (s.fget ADM_CTRL_STALE_US) 12 * 1000 < s.tb := decide_eq_true_iff

/-- An event bit that is set stays set when an event is reported. -/
theorem State.on_raise_of_on {s : State} {f g : Fld} (hf : f.fits) (hg : g.fits) (hfw : f.width = 1) (hgw : g.width = 1)
    (h : s.on f = true) : (s.raise g).on f = true := by
  by_cases hsame : f = g
  · exact hsame ▸ State.on_raise_self s f hf hfw.ge
  · have hbit : f.addr ≠ g.addr ∨ f.lo ≠ g.lo := by
      by_contra hno
      push Not at hno
      exact hsame (by cases f; cases g; simp_all)
    refine (State.on_raise_apart s g f hg ?_).trans h
    rcases hbit with ha | hl
    · exact .inl ha.symm
    · exact .inr (by omega)

/-! ### Staleness (03 R83) -/

theorem or_bit_of_getLsbD : ∀ (b : BitVec 3) (p : Fin 3), b.getLsbD p = true → b ||| (1#3 <<< p.val) = b := by decide
theorem getLsbD_or_bit : ∀ (b : BitVec 3) (p q : Fin 3),
    (b ||| (1#3 <<< p.val)).getLsbD q = (decide (q = p) || b.getLsbD q) := by decide
theorem getLsbD_and_not_bit : ∀ (b : BitVec 3) (p q : Fin 3),
    (b &&& ~~~(1#3 <<< p.val)).getLsbD q = (!decide (q = p) && b.getLsbD q) := by decide

section
variable (s : State)

theorem State.reportStale_frame (p : Nat) : TaperFrame s (s.reportStale p) := by
  unfold State.reportStale
  split
  · exact ⟨_, _, _, rfl⟩
  · split <;> exact ⟨_, _, _, rfl⟩

@[simp] theorem State.reportStale_flt (p : Nat) : (s.reportStale p).flt = s.flt := by
  unfold State.reportStale
  split
  · rfl
  · split <;> rfl

theorem State.rd_reportStale (p : Nat) {a : Nat} (h : a ≠ ADM_EVT) : (s.reportStale p).rd a = s.rd a := by
  unfold State.reportStale
  split
  · rfl
  · split
    · rfl
    · exact State.rd_fset_ne s ADM_EVT_STALE 1 h

theorem State.on_reportStale {f : Fld} (p : Nat) (hf : f.fits) (hw : f.width = 1) (h : s.on f = true) :
    (s.reportStale p).on f = true := by
  unfold State.reportStale
  split
  · exact h
  · split
    · exact h
    · exact State.on_raise_of_on hf (by simp [Fld.fits]) hw rfl h

/-- The pools whose staleness is reported: `p` is among them exactly while its factor is stale. -/
theorem State.staleSeen_reportStale (p : Fin 3) : (s.reportStale p).adm.staleSeen =
    if s.tempoOld p then s.adm.staleSeen ||| (1#3 <<< p.val) else s.adm.staleSeen &&& ~~~(1#3 <<< p.val) := by
  unfold State.reportStale
  cases s.tempoOld p with
  | false => rfl
  | true =>
    cases hseen : s.adm.staleSeen.getLsbD p with
    | false => rfl
    | true => exact (or_bit_of_getLsbD _ p hseen).symm

theorem State.on_stale_reportStale {p : Nat} (hold : s.tempoOld p = true) (hnew : s.adm.staleSeen.getLsbD p = false) :
    (s.reportStale p).on ADM_EVT_STALE = true := by
  unfold State.reportStale
  rw [if_neg (by simp [hold]), if_neg (by simp [hnew])]
  exact State.on_raise_self s ADM_EVT_STALE (by simp [Fld.fits]) (by decide)

/-! ### The effective factor of a pool (03 R83) -/

/-- The factor as far as tempo gives it: 1.0 where it is stale. -/
def State.tempoPart (p : Nat) : Nat := if s.tempoOld p then 0x10000 else (s.rd (ADM_TEMPO p)).toNat

/-- A ratio `r` of Taper raised by TMARGIN, and by XMARGIN beyond 1.0, in Q16.16, rounded up. -/
def State.taperOf (r : Nat) : Nat :=
  (r * (65536 + (if 65536 < r then s.fget ADM_TAPER_TMARGIN + s.fget ADM_TAPER_XMARGIN else s.fget ADM_TAPER_TMARGIN)) +
    65535) / 65536

theorem State.taperTerm_eq (p : Nat) : s.taperTerm p = s.taperOf (s.rd (ADM_TAPRD p)).toNat := by rfl

/-- The staleness of pool `p` and of all is noted. -/
def State.staleNoted (p : Nat) : State := (s.reportStale p).setStale

theorem State.staleNoted_frame (p : Nat) : TaperFrame s (s.staleNoted p) :=
  (s.reportStale_frame p).trans ((RegsFlt.refl _).fset ADM_STAT_STALE _).taperFrame

@[simp] theorem State.staleNoted_adm (p : Nat) : (s.staleNoted p).adm = (s.reportStale p).adm := by
  rw [State.staleNoted, State.setStale, State.put_adm]
@[simp] theorem State.staleNoted_flt (p : Nat) : (s.staleNoted p).flt = s.flt := by
  rw [State.staleNoted, State.setStale, State.put_flt, State.reportStale_flt]

theorem State.rd_staleNoted (p : Nat) {a : Nat} (he : a ≠ ADM_EVT) (hs : a ≠ ADM_STAT) : (s.staleNoted p).rd a = s.rd a :=
  (State.rd_fset_ne _ ADM_STAT_STALE _ hs).trans (s.rd_reportStale p he)

end

theorem State.taperOf_congr {s t : State} (h : t.rd ADM_TAPER = s.rd ADM_TAPER) (r : Nat) : t.taperOf r = s.taperOf r := by
  unfold State.taperOf
  rw [State.fget_of_rd (f := ADM_TAPER_TMARGIN) h, State.fget_of_rd (f := ADM_TAPER_XMARGIN) h]

section
variable (s : State) (p : Nat)

theorem State.setTeff_eq : s.setTeff p =
    (if (s.rd (ADM_TEMPO p)).toNat < s.taperTerm p then (s.staleNoted p).raise ADM_EVT_TAPER_UP else s.staleNoted p).wr
      (ADM_TEFF p) (BitVec.ofNat 64 (max (s.tempoPart p) (s.taperTerm p) % 2 ^ 32)) := by
  have htempo : (s.staleNoted p).rd (ADM_TEMPO p) = s.rd (ADM_TEMPO p) :=
    s.rd_staleNoted p (by simp only [ADM_TEMPO, ADM_EVT]; omega) (by simp only [ADM_TEMPO, ADM_STAT]; omega)
  have hread : (s.staleNoted p).rd (ADM_TAPRD p) = s.rd (ADM_TAPRD p) :=
    s.rd_staleNoted p (by simp only [ADM_TAPRD, ADM_EVT]; omega) (by simp only [ADM_TAPRD, ADM_STAT]; omega)
  have hterm : (s.staleNoted p).taperTerm p = s.taperTerm p := by
    rw [State.taperTerm_eq, State.taperTerm_eq, hread,
      State.taperOf_congr (s.rd_staleNoted p (a := ADM_TAPER) (by decide) (by decide))]
  have hraise : ((s.staleNoted p).raise ADM_EVT_TAPER_UP).taperTerm p = (s.staleNoted p).taperTerm p := by
    rw [State.taperTerm_eq, State.taperTerm_eq,
      State.rd_raise_ne _ ADM_EVT_TAPER_UP (by simp only [ADM_TAPRD, ADM_EVT]; omega),
      State.taperOf_congr (State.rd_raise_ne _ ADM_EVT_TAPER_UP (by decide))]
  have hdef : s.setTeff p = (if ((s.staleNoted p).rd (ADM_TEMPO p)).toNat < (s.staleNoted p).taperTerm p then
      (s.staleNoted p).raise ADM_EVT_TAPER_UP else s.staleNoted p).wr (ADM_TEFF p) (BitVec.ofNat 64 (max (s.tempoPart p)
        ((if ((s.staleNoted p).rd (ADM_TEMPO p)).toNat < (s.staleNoted p).taperTerm p then
          (s.staleNoted p).raise ADM_EVT_TAPER_UP else s.staleNoted p).taperTerm p) % 2 ^ 32)) := rfl
  rw [hdef, htempo, hterm]
  split
  · rw [hraise, hterm]
  · rw [hterm]

theorem State.setTeff_frame : TaperFrame s (s.setTeff p) := by
  rw [State.setTeff_eq]
  exact (s.staleNoted_frame p).trans
    ((RegsFlt.ite _ ((RegsFlt.refl _).raise ADM_EVT_TAPER_UP) (.refl _)).wr _ _).taperFrame

@[simp] theorem State.setTeff_flt : (s.setTeff p).flt = s.flt := by
  rw [State.setTeff_eq, State.wr_flt]
  split
  · rw [State.raise_flt, State.staleNoted_flt]
  · rw [State.staleNoted_flt]

theorem State.rd_setTeff {a : Nat} (he : a ≠ ADM_EVT) (hs : a ≠ ADM_STAT) (hf : a ≠ ADM_TEFF p) :
    (s.setTeff p).rd a = s.rd a := by
  rw [State.setTeff_eq, State.rd_wr_ne _ _ hf]
  split
  · exact (State.rd_fset_ne _ ADM_EVT_TAPER_UP 1 he).trans (s.rd_staleNoted p he hs)
  · exact s.rd_staleNoted p he hs

theorem State.rd_teff_setTeff : (s.setTeff p).rd (ADM_TEFF p) =
    BitVec.ofNat 64 (max (s.tempoPart p) (s.taperTerm p) % 2 ^ 32) := by
  rw [State.setTeff_eq, State.rd_wr_self]

/-- The events that the factor of a pool reports stand beside those that stood. -/
theorem State.on_setTeff_of_noted {f : Fld} (ha : f.addr = ADM_EVT) (hf : f.fits) (hw : f.width = 1)
    (h : (s.reportStale p).on f = true) : (s.setTeff p).on f = true := by
  have hnoted : (s.staleNoted p).on f = true :=
    (State.on_of_rd (State.rd_fset_ne _ ADM_STAT_STALE _ (by rw [ha]; decide))).trans h
  rw [State.setTeff_eq, State.on_of_rd (State.rd_wr_ne _ _ (by rw [ha]; simp only [ADM_TEFF, ADM_EVT]; omega))]
  split
  · exact State.on_raise_of_on hf (by simp [Fld.fits]) hw rfl hnoted
  · exact hnoted

theorem State.on_setTeff {f : Fld} (ha : f.addr = ADM_EVT) (hf : f.fits) (hw : f.width = 1) (h : s.on f = true) :
    (s.setTeff p).on f = true :=
  s.on_setTeff_of_noted p ha hf hw (s.on_reportStale p hf hw h)

theorem State.on_stale_setTeff (hold : s.tempoOld p = true) (hnew : s.adm.staleSeen.getLsbD p = false) :
    (s.setTeff p).on ADM_EVT_STALE = true :=
  s.on_setTeff_of_noted p rfl (by simp [Fld.fits]) rfl (s.on_stale_reportStale hold hnew)

theorem State.on_taperUp_setTeff (h : (s.rd (ADM_TEMPO p)).toNat < s.taperTerm p) :
    (s.setTeff p).on ADM_EVT_TAPER_UP = true := by
  rw [State.setTeff_eq, if_pos h, State.on_of_rd (State.rd_wr_ne _ _ (by simp only [ADM_TEFF, ADM_EVT]; omega))]
  exact State.on_raise_self _ ADM_EVT_TAPER_UP (by simp [Fld.fits]) (by decide)

/-- ADM_STAT.STALE says whether any factor is stale. -/
theorem State.on_statStale_setTeff : (s.setTeff p).on ADM_STAT_STALE = true ↔ ∃ q < 3, s.tempoOld q = true := by
  have hold : ∀ q, (s.reportStale p).tempoOld q = s.tempoOld q :=
    (s.reportStale_frame p).tempoOld (s.rd_reportStale p (by decide))
  have hnoted : (s.staleNoted p).on ADM_STAT_STALE = (s.tempoOld 0 || s.tempoOld 1 || s.tempoOld 2) := by
    rw [State.staleNoted, State.setStale, State.on_put_self _ _ _ (by simp [Fld.fits]) (by decide), hold, hold, hold]
  have hset : (s.setTeff p).on ADM_STAT_STALE = (s.staleNoted p).on ADM_STAT_STALE := by
    rw [State.setTeff_eq, State.on_of_rd (State.rd_wr_ne _ _ (by simp only [ADM_TEFF, ADM_STAT]; omega))]
    split
    · exact State.on_raise_apart _ ADM_EVT_TAPER_UP ADM_STAT_STALE (by simp [Fld.fits]) (.inl (by decide))
    · rfl
  rw [hset, hnoted]
  constructor
  · simp only [Bool.or_eq_true]
    rintro ((h | h) | h)
    exacts [⟨0, by omega, h⟩, ⟨1, by omega, h⟩, ⟨2, by omega, h⟩]
  · rintro ⟨q, hq, h⟩
    interval_cases q <;> simp [h]

end

theorem State.staleSeen_setTeff (s : State) (p : Fin 3) : (s.setTeff p).adm.staleSeen =
    if s.tempoOld p then s.adm.staleSeen ||| (1#3 <<< p.val) else s.adm.staleSeen &&& ~~~(1#3 <<< p.val) := by
  rw [State.setTeff_eq, State.wr_adm, ← s.staleSeen_reportStale p]
  split
  · rw [State.raise_adm, State.staleNoted_adm]
  · rw [State.staleNoted_adm]

theorem State.getLsbD_staleSeen_setTeff (s : State) (p q : Fin 3) : (s.setTeff p).adm.staleSeen.getLsbD q =
    if q = p then s.tempoOld p else s.adm.staleSeen.getLsbD q := by
  rw [State.staleSeen_setTeff]
  cases s.tempoOld p
  · rw [if_neg Bool.false_ne_true, getLsbD_and_not_bit]; by_cases h : q = p <;> simp [h]
  · rw [if_pos rfl, getLsbD_or_bit]; by_cases h : q = p <;> simp [h]


/-! ### A Taper reading (03 R72, R83) -/

/-- A reading stands in ADM_TAPRDp, and TAPER_BEYOND says that it passes 1.0 where the last one did not. -/
def State.taperRead (s : State) (p : Nat) (r : Word32) : State :=
  let s' := s.wr (ADM_TAPRD p) (r.setWidth 64)
  if (s.rd (ADM_TAPRD p)).toNat ≤ 65536 ∧ 65536 < r.toNat then (s'.raise ADM_EVT_TAPER_BEYOND).signal 70 0 else s'

theorem State.taper_eq (s : State) (p : Nat) (r : Word32) : s.taper p r = (s.taperRead p r).setTeff p := by rfl

section
variable (s : State) (p : Nat) (r : Word32)

theorem State.taperRead_regsFlt : RegsFlt s (s.taperRead p r) :=
  .ite _ ((((RegsFlt.refl s).wr _ _).raise _).signal _ _) ((RegsFlt.refl s).wr _ _)

@[simp] theorem State.taperRead_adm : (s.taperRead p r).adm = s.adm := by
  obtain ⟨_, _, hr⟩ := s.taperRead_regsFlt p r
  rw [hr]

/-- A fault event of source 70 leaves the registers of ADM alone. -/
theorem State.rd_signal_adm {a : Nat} (h : a < 0x40400000) : (s.signal 70 0).rd a = s.rd a :=
  State.rd_signal s 70 0 (by simp only [FLT_STKY]; omega) (by simp only [FLT_SEV]; omega) (by simp only [FLT_CNT]; omega)

theorem State.rd_taperRead {a : Nat} (ha : a < 0x40400000) (he : a ≠ ADM_EVT) :
    (s.taperRead p r).rd a = if a = ADM_TAPRD p then r.setWidth 64 else s.rd a := by
  rw [← State.rd_wr]
  simp only [State.taperRead]
  split
  · rw [State.rd_signal_adm _ ha, State.rd_raise_ne _ ADM_EVT_TAPER_BEYOND he]
  · rfl

theorem State.rd_taprd_taperRead (hp : p < 3) : (s.taperRead p r).rd (ADM_TAPRD p) = r.setWidth 64 := by
  rw [State.rd_taperRead _ _ _ (by simp only [ADM_TAPRD]; omega) (by simp only [ADM_TAPRD, ADM_EVT]; omega), if_pos rfl]

theorem State.on_taperRead {f : Fld} (ha : f.addr = ADM_EVT) (hf : f.fits) (hw : f.width = 1) (h : s.on f = true) :
    (s.taperRead p r).on f = true := by
  have hwr : (s.wr (ADM_TAPRD p) (r.setWidth 64)).on f = true :=
    (State.on_of_rd (State.rd_wr_ne _ _ (by rw [ha]; simp only [ADM_EVT, ADM_TAPRD]; omega))).trans h
  simp only [State.taperRead]
  split
  · rw [State.on_of_rd (State.rd_signal_adm _ (by rw [ha]; decide))]
    exact State.on_raise_of_on hf (by simp [Fld.fits]) hw rfl hwr
  · exact hwr

theorem State.on_beyond_taperRead (h : (s.rd (ADM_TAPRD p)).toNat ≤ 65536 ∧ 65536 < r.toNat) :
    (s.taperRead p r).on ADM_EVT_TAPER_BEYOND = true := by
  simp only [State.taperRead, if_pos h]
  rw [State.on_of_rd (State.rd_signal_adm _ (by decide))]
  exact State.on_raise_self _ ADM_EVT_TAPER_BEYOND (by simp [Fld.fits]) (by decide)

theorem State.taper_frame : TaperFrame s (s.taper p r) :=
  (s.taperRead_regsFlt p r).taperFrame.trans (State.setTeff_frame _ p)

theorem State.rd_taper {a : Nat} (ha : a < 0x40400000) (he : a ≠ ADM_EVT) (hs : a ≠ ADM_STAT) (hf : a ≠ ADM_TEFF p)
    (hr : a ≠ ADM_TAPRD p) : (s.taper p r).rd a = s.rd a := by
  rw [State.taper_eq, State.rd_setTeff _ _ he hs hf, State.rd_taperRead _ _ _ ha he, if_neg hr]

theorem State.on_taper {f : Fld} (ha : f.addr = ADM_EVT) (hf : f.fits) (hw : f.width = 1) (h : s.on f = true) :
    (s.taper p r).on f = true := by
  rw [State.taper_eq]
  exact State.on_setTeff _ p ha hf hw (s.on_taperRead p r ha hf hw h)

end

/-- From `u`, the readings of the first `k` tempo pools have been taken: `t` is the outcome. -/
structure Tapered (u : State) (reading : Nat → Word32) (k : Nat) (t : State) : Prop where
  frame : TaperFrame u t
  kept : ∀ a, a < 0x40400000 → a ≠ ADM_EVT → a ≠ ADM_STAT → (∀ p < k, a ≠ ADM_TEFF p ∧ a ≠ ADM_TAPRD p) → t.rd a = u.rd a
  taprd : ∀ p < k, t.rd (ADM_TAPRD p) = (reading p).setWidth 64
  teff : ∀ p < k, t.rd (ADM_TEFF p) =
    BitVec.ofNat 64 (max (u.tempoPart p) (u.taperOf (reading p).toNat) % 2 ^ 32)
  stale : 0 < k → (t.on ADM_STAT_STALE = true ↔ ∃ q < 3, u.tempoOld q = true)
  seen : ∀ p < 3, t.adm.staleSeen.getLsbD p = if p < k then u.tempoOld p else u.adm.staleSeen.getLsbD p
  reported : ∀ p < k, u.tempoOld p = true → u.adm.staleSeen.getLsbD p = false → t.on ADM_EVT_STALE = true
  up : ∀ p < k, (u.rd (ADM_TEMPO p)).toNat < u.taperOf (reading p).toNat → t.on ADM_EVT_TAPER_UP = true
  beyond : ∀ p < k, (u.rd (ADM_TAPRD p)).toNat ≤ 65536 ∧ 65536 < (reading p).toNat → t.on ADM_EVT_TAPER_BEYOND = true

theorem tapered_zero (u : State) (reading : Nat → Word32) : Tapered u reading 0 u where
  frame := (RegsFlt.refl u).taperFrame
  kept _ _ _ _ _ := rfl
  taprd _ h := absurd h (Nat.not_lt_zero _)
  teff _ h := absurd h (Nat.not_lt_zero _)
  stale h := absurd h (Nat.lt_irrefl 0)
  seen _ _ := rfl
  reported _ h := absurd h (Nat.not_lt_zero _)
  up _ h := absurd h (Nat.not_lt_zero _)
  beyond _ h := absurd h (Nat.not_lt_zero _)

/-! With the reading of pool `k` in its register, its factor is computed from what `u` holds and from that reading. -/

section
variable {u t : State} {reading : Nat → Word32} {k : Nat} (h : Tapered u reading k t)
include h

theorem Tapered.rd_admCtrl : t.rd ADM_CTRL = u.rd ADM_CTRL :=
  h.kept _ (by decide) (by decide) (by decide) fun p _ => by simp only [ADM_CTRL, ADM_TEFF, ADM_TAPRD]; omega

theorem Tapered.tempoOld_taperRead (r : Word32) (q : Nat) : (t.taperRead k r).tempoOld q = u.tempoOld q :=
  (h.frame.trans (t.taperRead_regsFlt k r).taperFrame).tempoOld (by
    rw [State.rd_taperRead _ _ _ (by decide) (by decide), if_neg (by simp only [ADM_CTRL, ADM_TAPRD]; omega),
      h.rd_admCtrl]) q

variable (hk : k < 3)
include hk

theorem Tapered.rd_taprd : t.rd (ADM_TAPRD k) = u.rd (ADM_TAPRD k) :=
  h.kept _ (by simp only [ADM_TAPRD]; omega) (by simp only [ADM_TAPRD, ADM_EVT]; omega)
    (by simp only [ADM_TAPRD, ADM_STAT]; omega) fun p _ => by simp only [ADM_TAPRD, ADM_TEFF]; omega

theorem Tapered.rd_tempo_taperRead (r : Word32) : (t.taperRead k r).rd (ADM_TEMPO k) = u.rd (ADM_TEMPO k) := by
  rw [State.rd_taperRead _ _ _ (by simp only [ADM_TEMPO]; omega) (by simp only [ADM_TEMPO, ADM_EVT]; omega),
    if_neg (by simp only [ADM_TEMPO, ADM_TAPRD]; omega)]
  exact h.kept _ (by simp only [ADM_TEMPO]; omega) (by simp only [ADM_TEMPO, ADM_EVT]; omega)
    (by simp only [ADM_TEMPO, ADM_STAT]; omega) fun p _ => by simp only [ADM_TEMPO, ADM_TEFF, ADM_TAPRD]; omega

theorem Tapered.tempoPart_taperRead (r : Word32) : (t.taperRead k r).tempoPart k = u.tempoPart k := by
  unfold State.tempoPart
  rw [h.tempoOld_taperRead, h.rd_tempo_taperRead hk]

theorem Tapered.taperTerm_taperRead (r : Word32) : (t.taperRead k r).taperTerm k = u.taperOf r.toNat := by
  have hmargin : (t.taperRead k r).rd ADM_TAPER = u.rd ADM_TAPER := by
    rw [State.rd_taperRead _ _ _ (by decide) (by decide), if_neg (by simp only [ADM_TAPER, ADM_TAPRD]; omega)]
    exact h.kept _ (by decide) (by decide) (by decide) fun p _ => by simp only [ADM_TAPER, ADM_TEFF, ADM_TAPRD]; omega
  rw [State.taperTerm_eq, State.rd_taprd_taperRead _ _ _ hk, State.taperOf_congr hmargin,
    BitVec.toNat_setWidth_of_le (by decide)]

/-- The next pool's reading. -/
theorem Tapered.step : Tapered u reading (k + 1) (t.taper k (reading k)) := by
  have hlast : ∀ {p}, p < k + 1 → ¬p < k → p = k := by omega
  refine ⟨h.frame.trans (State.taper_frame ..), fun a ha he hs hp => ?_, fun p hp => ?_, fun p hp => ?_, fun _ => ?_,
    fun p hp => ?_, fun p hp ho hn => ?_, fun p hp hup => ?_, fun p hp hb => ?_⟩
  · rw [State.rd_taper _ _ _ ha he hs (hp k (Nat.lt_succ_self k)).1 (hp k (Nat.lt_succ_self k)).2]
    exact h.kept a ha he hs fun p hpk => hp p (Nat.lt_succ_of_lt hpk)
  · by_cases hpk : p < k
    · rw [State.rd_taper _ _ _ (by simp only [ADM_TAPRD]; omega) (by simp only [ADM_TAPRD, ADM_EVT]; omega)
        (by simp only [ADM_TAPRD, ADM_STAT]; omega) (by simp only [ADM_TAPRD, ADM_TEFF]; omega)
        (by simp only [ADM_TAPRD]; omega)]
      exact h.taprd p hpk
    · rw [hlast hp hpk, State.taper_eq, State.rd_setTeff _ _ (by simp only [ADM_TAPRD, ADM_EVT]; omega)
        (by simp only [ADM_TAPRD, ADM_STAT]; omega) (by simp only [ADM_TAPRD, ADM_TEFF]; omega)]
      exact State.rd_taprd_taperRead _ _ _ hk
  · by_cases hpk : p < k
    · rw [State.rd_taper _ _ _ (by simp only [ADM_TEFF]; omega) (by simp only [ADM_TEFF, ADM_EVT]; omega)
        (by simp only [ADM_TEFF, ADM_STAT]; omega) (by simp only [ADM_TEFF]; omega)
        (by simp only [ADM_TAPRD, ADM_TEFF]; omega)]
      exact h.teff p hpk
    · rw [hlast hp hpk, State.taper_eq, State.rd_teff_setTeff, h.tempoPart_taperRead hk, h.taperTerm_taperRead hk]
  · rw [State.taper_eq, State.on_statStale_setTeff]
    simp only [h.tempoOld_taperRead]
  · have hlsb := State.getLsbD_staleSeen_setTeff (t.taperRead k (reading k)) ⟨k, hk⟩ ⟨p, hp⟩
    simp only [h.tempoOld_taperRead, State.taperRead_adm, Fin.mk.injEq] at hlsb
    rw [State.taper_eq, hlsb, h.seen p hp]
    by_cases hpk : p = k
    · simp [hpk]
    · rw [if_neg hpk]
      exact if_congr (by omega) rfl rfl
  · by_cases hpk : p < k
    · exact State.on_taper _ _ _ rfl (by simp [Fld.fits]) rfl (h.reported p hpk ho hn)
    · rw [hlast hp hpk] at ho hn
      rw [State.taper_eq]
      refine State.on_stale_setTeff _ _ ((h.tempoOld_taperRead _ k).trans ho) ?_
      rw [State.taperRead_adm, h.seen k hk, if_neg (Nat.lt_irrefl k), hn]
  · by_cases hpk : p < k
    · exact State.on_taper _ _ _ rfl (by simp [Fld.fits]) rfl (h.up p hpk hup)
    · rw [hlast hp hpk] at hup
      rw [State.taper_eq]
      exact State.on_taperUp_setTeff _ _ (by rwa [h.rd_tempo_taperRead hk, h.taperTerm_taperRead hk])
  · by_cases hpk : p < k
    · exact State.on_taper _ _ _ rfl (by simp [Fld.fits]) rfl (h.beyond p hpk hb)
    · rw [hlast hp hpk] at hb
      rw [State.taper_eq]
      refine State.on_setTeff _ _ rfl (by simp [Fld.fits]) rfl (State.on_beyond_taperRead _ _ _ ?_)
      rwa [h.rd_taprd hk]

end


/-- The readings of the three tempo pools, by pool. -/
def readingOf (sc cph mau : Word32) (p : Nat) : Word32 := if p = 0 then sc else if p = 1 then cph else mau

theorem tapered_three (u : State) (sc cph mau : Word32) :
    Tapered u (readingOf sc cph mau) 3 (((u.taper 0 sc).taper 1 cph).taper 2 mau) :=
  (((tapered_zero u _).step (by decide)).step (by decide)).step (by decide)

/-! ### Activity (03 R82) -/

/-- The activity of pool `p` after a window with the share `a`. -/
def State.nextActivity (s : State) (p : Nat) (a : BitVec 17) : Word :=
  BitVec.ofNat 64 (max (min a.toNat 0x10000) ((s.rd (ADM_ACT p)).toNat - s.fget ADM_LGUARD_DECAY))

theorem State.activity_eq (s : State) (p : Nat) (a : BitVec 17) :
    s.activity p a = s.wr (ADM_ACT p) (s.nextActivity p a) := by
  rfl

/-- The activity of one pool is none of another's business. -/
theorem State.nextActivity_wr (s : State) {p q : Nat} (h : p ≠ q) (a : BitVec 17) (v : Word) :
    (s.wr (ADM_ACT q) v).nextActivity p a = s.nextActivity p a := by
  unfold State.nextActivity
  rw [State.rd_wr_ne _ _ (by simp only [ADM_ACT]; omega),
    State.fget_of_rd (State.rd_wr_ne _ _ (by simp only [ADM_LGUARD, ADM_ACT]; omega))]

/-- The activities of the three pools with LGUARD are written, each from what it was. -/
theorem State.activities_eq (u : State) (sc cph mau : BitVec 17) :
    ((u.activity 0 sc).activity 1 cph).activity 2 mau =
      ((u.wr (ADM_ACT 0) (u.nextActivity 0 sc)).wr (ADM_ACT 1) (u.nextActivity 1 cph)).wr (ADM_ACT 2)
        (u.nextActivity 2 mau) := by
  rw [State.activity_eq, State.activity_eq, State.activity_eq, State.nextActivity_wr _ (by decide),
    State.nextActivity_wr _ (by decide), State.nextActivity_wr _ (by decide)]

/-! ### The events (03 R82-R84) -/

theorem entryOverrun_happens (c : Fin 8192) (s : State) : Happens (.entryOverrun · c) s
    (fun u => (u.ctx c).st ≠ .free ∧ (u.ctx c).st ≠ .ending ∧ (u.ctx c).committed = false ∧
      ∃ e, (u.ctx c).key = some e ∧ e + 20000 < u.tb) (fun u => u.cancel c) :=
  timed_happens (b := fun s => s.overdue c) (fun _ _ => rfl) fun u => by
    cases hk : (u.ctx c).key <;> simp [State.overdue, hk, and_assoc]

theorem activityWindowEnd_happens (sc cph mau : BitVec 17) (s : State) : Happens (.activityWindowEnd · sc cph mau) s
    (fun u => u.powered = true) (fun u => ((u.activity 0 sc).activity 1 cph).activity 2 mau) :=
  timed_happens (fun _ _ => rfl) fun _ => Iff.rfl

theorem taperReading_happens (sc cph mau : Word32) (s : State) : Happens (.taperReading · sc cph mau) s
    (fun u => u.powered = true) (fun u => ((u.taper 0 sc).taper 1 cph).taper 2 mau) :=
  timed_happens (fun _ _ => rfl) fun _ => Iff.rfl

theorem tempoStale_happens (p : Fin 3) (s : State) : Happens (.tempoStale · p) s
    (fun u => u.powered = true ∧ u.tempoOld p = true) (fun u => u.setTeff p) :=
  timed_happens (fun _ _ => rfl) fun _ => Bool.and_eq_true_iff

/-! ### A write of ADM_CTRL (03 R72, 16 R373) -/

theorem regEffect_adm {s : State} {a : Acc} {row : RegRow} {r : Nat} {v : Word} (h : r / 0x100000 = 0x403) :
    s.regEffect a row r v = s.writeAdm row r v := by
  simp only [State.regEffect, h]

theorem admCtrl_row : (regRow? ADM_CTRL).any (fun row => isReg ADM_CTRL row &&
    decide (row.banked = false ∧ row.rw = 0xFF71 ∧ row.w1c = 0)) = true := by decide +kernel

theorem State.admCtrl_written (s : State) {row : RegRow} (v : Word32) (hrw : row.rw = 0xFF71) (hw1c : row.w1c = 0) :
    s.plainWrite row ADM_CTRL (v.setWidth 64) =
      s.wr ADM_CTRL ((s.rd ADM_CTRL &&& ~~~0xFF71#64) ||| (v.setWidth 64 &&& 0xFF71)) := by
  rw [plainWrite_rw _ _ hrw hw1c, written]
  rfl

/-- A granted write of ADM_CTRL: it is ignored where it would enable ADM in isolation; else it computes the blocking terms
and the effective factors anew. -/
theorem fastclsWrite_sets (a : Acc) (v : Word32) (s : State) : Sets (.fastclsWrite a v) a ADM_CTRL v s
    (if s.on FLT_STAT_ISOLATED = true ∧ v.getLsbD 0 = true then s
     else (s.wr ADM_CTRL ((s.rd ADM_CTRL &&& ~~~0xFF71#64) ||| (v.setWidth 64 &&& 0xFF71))).recompute.setTeffs) := by
  intro h
  obtain ⟨row, -, hrow⟩ := Option.any_eq_true .. |>.mp admCtrl_row
  obtain ⟨hreg, hfacts⟩ := Bool.and_eq_true .. |>.mp hrow
  obtain ⟨hbank, hrw, hw1c⟩ := of_decide_eq_true hfacts
  have hbit : (v.setWidth 64).getLsbD 0 = v.getLsbD 0 := by simp
  refine (writeRow_eq h hreg).trans (congrArg _ ?_)
  rw [regEffect_adm (by decide), State.writeAdm, if_neg (by simp [hbank]), if_pos rfl, State.admCtrl_written s v hrw hw1c,
    hbit]
  exact if_congr (Bool.and_eq_true ..).to_iff rfl rfl

end Sys2Proof.Machine

namespace Sys2Proof
open Sys2Proof.Machine

/-- Settles O34: the readings of the three pools are taken one after the other (`Tapered.step`), and each other event is
one function of the state. -/
theorem stagesTempoAndTaperAct : Obligations.StagesTempoAndTaperAct := by
  unfold Obligations.StagesTempoAndTaperAct
  refine ⟨⟨fun c s => ?_, fun dt sc cph mau s => ?_⟩, fun dt sc cph mau s => ?_, fun dt p s => ?_,
    fun a v s => fastclsWrite_sets a v s⟩
  · exact entryOverrun_happens c s
  · obtain ⟨hpos, hneg⟩ := activityWindowEnd_happens sc cph mau s dt
    refine ⟨fun hp => hneg (Bool.eq_false_iff.1 hp), fun hp =>
      ⟨_, (hpos hp).trans (congrArg _ (State.activities_eq ..)), ?_⟩⟩
    refine ⟨rfl, ?_, ?_, State.rd_wr_self .., fun r h0 h1 h2 => ?_⟩
    · rw [State.rd_wr_ne _ _ (by decide), State.rd_wr_ne _ _ (by decide), State.rd_wr_self]; rfl
    · rw [State.rd_wr_ne _ _ (by decide), State.rd_wr_self]; rfl
    · rw [State.rd_wr_ne _ _ h2, State.rd_wr_ne _ _ h1, State.rd_wr_ne _ _ h0]
  · obtain ⟨hpos, hneg⟩ := taperReading_happens sc cph mau s dt
    refine ⟨fun hp => hneg (Bool.eq_false_iff.1 hp), fun hp => ⟨_, hpos hp, ?_⟩⟩
    have h := tapered_three (s.elapse dt) sc cph mau
    have hold := (s.elapse dt).tempoOld_iff
    refine ⟨h.frame.eq, ?_, fun p hp => ⟨?_, fun ho hn => h.reported p hp ((hold p).2 ho) hn⟩,
      fun p hp => ⟨h.taprd p hp, ?_⟩, fun ⟨p, hp, hu⟩ => h.up p hp hu, fun ⟨p, hp, hb⟩ => h.beyond p hp hb⟩
    · exact (h.stale (by decide)).trans (by simp only [hold])
    · rw [h.seen p hp, if_pos hp]; exact hold p
    · rw [h.teff p hp, State.tempoPart]
      simp only [hold]
      rfl
  · obtain ⟨hpos, hneg⟩ := tempoStale_happens p s dt
    have hold := (s.elapse dt).tempoOld_iff p
    refine ⟨fun h => hneg fun ⟨hpow, ho⟩ => h ⟨hpow, hold.1 ho⟩, fun hpow ho => ⟨_, hpos ⟨hpow, hold.2 ho⟩, ?_⟩⟩
    have hstale := hold.2 ho
    refine ⟨(State.on_statStale_setTeff _ _).2 ⟨p, p.isLt, hstale⟩, ?_, ?_, State.on_stale_setTeff _ _ hstale,
      State.on_taperUp_setTeff _ _, fun r he hs hf => State.rd_setTeff _ _ he hs hf, ?_⟩
    · rw [State.rd_teff_setTeff, State.tempoPart, if_pos hstale]; rfl
    · rw [State.staleSeen_setTeff, if_pos hstale]
    · have hframe := (State.setTeff_frame (s.elapse dt) p).eq
      rwa [State.setTeff_flt] at hframe

end Sys2Proof
end

section
/-!
SUPPORT. Proofs/Admission.lean: the arithmetic of the admission decision (03 R76, R78), what its verdict is at each check,
and what an accepted request leaves (03 R73, R77, R79, R80). O33 is settled from these.
-/

namespace Sys2Proof.Machine

/-! ### Rounding up (03 R76) -/

theorem cdiv_le_iff {a b n : Nat} (hb : 0 < b) : cdiv a b ≤ n ↔ a ≤ n * b := by
  rw [cdiv, ← Nat.ceilDiv_eq_add_pred_div, ceilDiv_le_iff_le_mul hb, Nat.mul_comm]

theorem cdiv_eq_ceil {a b : Nat} (hb : 0 < b) : cdiv a b = ⌈(a : ℚ) / b⌉₊ :=
  eq_of_forall_ge_iff fun n => by
    rw [cdiv_le_iff hb, Nat.ceil_le, div_le_iff₀ (Nat.cast_pos.2 hb)]
    exact_mod_cast Iff.rfl

/-! ### The wait of a stage (03 R78) -/

theorem State.longCap_le_general (s : State) (p : Nat) : s.longCap p ≤ s.general p := Nat.min_le_right _ _

theorem State.waitNs_eq (s : State) (cls e : Nat) (fc : Bool) (x : LStage) :
    s.waitNs cls x e fc = waitOf s cls e fc x := by
  rcases hterms : s.terms x.pool cls (decide (0 < s.oldLive)) with ⟨bs, bl, bf⟩
  have hle := s.longCap_le_general x.pool
  simp only [State.waitNs, waitOf, hterms, Bool.and_eq_true, decide_eq_true_eq]
  generalize s.poolSum x.pool e (fun _ _ => true) = hp
  generalize s.poolSum x.pool e (fun _ x => x.long) = hpl
  generalize s.poolSum x.pool e (fun c _ => c.fast) = hpf
  generalize s.fastUnits x.pool = fast
  generalize s.general x.pool = g at *
  generalize s.longCap x.pool = l at *
  have ha : 0 < g → cdiv (hp + l * max bs bl + (g - l) * bs) g = ⌈((hp + l * max bs bl + (g - l : Nat) * bs : ℚ)) / g⌉₊ := by
    intro hg
    rw [cdiv_eq_ceil hg]
    push_cast
    rfl
  split
  · next h =>
    rw [cdiv_eq_ceil h.2, ← Nat.ceil_add_natCast (by positivity)]
  split
  · rfl
  next hg =>
  have hg := Nat.pos_of_ne_zero hg
  split
  · split
    · rfl
    · next hl =>
      have hl := Nat.pos_of_ne_zero hl
      rw [cdiv_eq_ceil (Nat.mul_pos hg hl)]
      congr 2
      push_cast
      field_simp
  split
  · next hlg =>
    have hd : 0 < g - l := by omega
    rw [ha hg, cdiv_eq_ceil hd, ← Nat.ceil_mono.map_min]
    congr 3
    push_cast
    field_simp
  · rw [ha hg]

/-- The waits and the charges of the stages add up, unless one cannot run. -/
theorem State.pathNs_eq (s : State) (cls e : Nat) (fc : Bool) : ∀ l : List LStage, s.pathNs cls e fc l =
    if ∃ x ∈ l, waitOf s cls e fc x = none then none
    else some (l.map fun x => (waitOf s cls e fc x).getD 0 + x.charge).sum
  | [] => by simp [State.pathNs]
  | x :: l => by
    simp only [State.pathNs, State.waitNs_eq, State.pathNs_eq s cls e fc l]
    cases hx : waitOf s cls e fc x with
    | none => simp [hx]
    | some w => by_cases hl : ∃ y ∈ l, waitOf s cls e fc y = none <;> simp [hx, hl]

/-! ### What a later entry's slack falls by (03 R78) -/

/-- The value of a fraction. -/
def fracVal (f : Nat × Nat) : ℚ := f.1 / f.2

theorem fracVal_fracAdd {a b : Nat × Nat} (ha : 0 < a.2) (hb : 0 < b.2) : fracVal (fracAdd a b) = fracVal a + fracVal b := by
  have ha' : (a.2 : ℚ) ≠ 0 := by positivity
  have hb' : (b.2 : ℚ) ≠ 0 := by positivity
  simp only [fracVal, fracAdd]
  push_cast
  field_simp

/-- Fractions with positive denominators add up to one. -/
theorem foldl_fracAdd {f : Nat → Nat × Nat} (hf : ∀ p, 0 < (f p).2) (l : List Nat) : ∀ {a : Nat × Nat}, 0 < a.2 →
    0 < (l.foldl (fun a p => fracAdd a (f p)) a).2 ∧
    fracVal (l.foldl (fun a p => fracAdd a (f p)) a) = fracVal a + (l.map fun p => fracVal (f p)).sum := by
  induction l with
  | nil => exact fun ha => ⟨ha, by simp⟩
  | cons p l ih =>
    intro a ha
    obtain ⟨hpos, hval⟩ := ih (a := fracAdd a (f p)) (Nat.mul_pos ha (hf p))
    refine ⟨hpos, hval.trans ?_⟩
    rw [fracVal_fracAdd ha (hf p), List.map_cons, List.sum_cons, add_assoc]

/-- The share of pool `p` in `deltaOf`. -/
def shareOf (u : State) (j : Ctx) (stages : List LStage) (fc : Bool) (p : Nat) : ℚ :=
  let mine := stages.filter fun x => decide (x.pool = p)
  let c : ℚ := (mine.map LStage.charge).sum
  let cl : ℚ := ((mine.filter LStage.long).map LStage.charge).sum
  let g := u.general p
  let l := u.longCap p
  if (j.stages.any fun x => decide (x.pool = p)) = false then 0
  else if j.fast = true ∧ 0 < u.fastUnits p then (if fc = true then c / u.fastUnits p else 0)
  else (if l < g then c / (g - l : Nat) else c / g) + (if 0 < l then cl / l else 0)

theorem deltaOf_eq (u : State) (j : Ctx) (stages : List LStage) (fc : Bool) :
    deltaOf u j stages fc = ⌈((List.range 10).map (shareOf u j stages fc)).sum⌉₊ := by rfl

theorem State.deltaShare_eq (s : State) (j : Ctx) (stages : List LStage) (fc : Bool) (p : Nat) :
    0 < (s.deltaShare j stages fc p).2 ∧ fracVal (s.deltaShare j stages fc p) = shareOf s j stages fc p := by
  have hle := s.longCap_le_general p
  simp only [State.deltaShare, shareOf]
  generalize (stages.filter fun x => decide (x.pool = p)) = mine
  generalize s.fastUnits p = fast
  generalize s.general p = g at *
  generalize s.longCap p = l at *
  by_cases hm : mine = []
  · subst hm
    simp [fracVal]
  by_cases hj : (j.stages.any fun x => decide (x.pool = p)) = false
  · simp [hj, fracVal]
  by_cases hf : j.fast = true ∧ 0 < fast
  · by_cases hfc : fc = true <;> simp [hm, hj, hf, hfc, fracVal]
  simp only [List.isEmpty_iff, hm, hj, hf, Bool.or_eq_true, Bool.not_eq_true', if_false, Bool.and_eq_true,
    decide_eq_true_eq]
  generalize ((mine.map LStage.charge).sum) = c
  generalize (((mine.filter LStage.long).map LStage.charge).sum) = cl
  by_cases hg : g = 0
  · have hl : l = 0 := by omega
    simp [hg, hl, fracVal]
  by_cases hl : l = 0
  · simp [hg, hl, fracVal, Nat.pos_of_ne_zero hg]
  have hl' : (l : ℚ) ≠ 0 := Nat.cast_ne_zero.2 hl
  have hlp := Nat.pos_of_ne_zero hl
  have hfrac : ∀ d, 0 < d → 0 < d * l ∧ fracVal (c * l + cl * d, d * l) = (c : ℚ) / d + (cl : ℚ) / l := by
    intro d hd
    have hd' : (d : ℚ) ≠ 0 := Nat.cast_ne_zero.2 hd.ne'
    refine ⟨Nat.mul_pos hd hlp, ?_⟩
    simp only [fracVal]
    push_cast
    field_simp
  simp only [hg, hl, if_false, hlp, if_true]
  by_cases hlg : l < g
  · simpa [hlg] using hfrac (g - l) (by omega)
  · simpa [hlg] using hfrac g (Nat.pos_of_ne_zero hg)

theorem State.delta_eq (s : State) (j : Ctx) (stages : List LStage) (fc : Bool) :
    s.delta j stages fc = deltaOf s j stages fc := by
  obtain ⟨hpos, hval⟩ := foldl_fracAdd (fun p => (s.deltaShare_eq j stages fc p).1) (List.range 10) (a := (0, 1)) Nat.one_pos
  rw [deltaOf_eq, State.delta, cdiv_eq_ceil hpos]
  refine congrArg _ (hval.trans ?_)
  simp only [fracVal, Nat.cast_zero, zero_div, zero_add]
  exact congrArg _ (List.map_congr_left fun p _ => (s.deltaShare_eq j stages fc p).2)

/-! ### Commits, MIRRORs and bindings leave ADM alone (10 R262, R267, 12 R299) -/

@[simp] theorem State.setRec_adm (s : State) (i : Nat) (r : KeyRec) : (s.setRec i r).adm = s.adm := by rfl
@[simp] theorem State.slotHealed_adm (s : State) (i : Nat) : (s.slotHealed i).adm = s.adm := by rfl
@[simp] theorem State.destroyRec_adm (s : State) (i : Nat) : (s.destroyRec i).adm = s.adm := by rfl
@[simp] theorem State.journalPut_adm (s : State) (e : JEntry) : (s.journalPut e).adm = s.adm := by rfl
@[simp] theorem State.dropRaises_adm (s : State) (cs : List (Nat × Nat × KeyRec)) : (s.dropRaises cs).adm = s.adm := by rfl
@[simp] theorem State.stallCommit_adm (s : State) (w : WaitingCommit) : (s.stallCommit w).adm = s.adm := by rfl

@[simp] theorem State.dirty_adm (s : State) (i : Nat) : (s.dirty i).adm = s.adm := by
  simp only [State.dirty]; split <;> simp [State.setCached]

@[simp] theorem State.askRefresh_adm (s : State) (i n : Nat) : (s.askRefresh i n).adm = s.adm := by
  simp only [State.askRefresh]; split <;> rfl

@[simp] theorem State.applyEntry_adm (s : State) (e : JEntry) (b : Bool) : (s.applyEntry e b).adm = s.adm := by
  simp only [State.applyEntry, State.journalPut_adm, apply_ite State.adm, State.askRefresh_adm, State.dirty_adm,
    State.destroyRec_adm, State.setRec_adm, ite_self]

@[simp] theorem State.commit_adm (s : State) (cs : List (Nat × Nat × KeyRec)) (b : Bool) : (s.commit cs b).1.adm = s.adm := by
  simp only [State.commit]
  rw [foldl_keeps State.adm fun _ _ => State.applyEntry_adm _ _ _]
  simp

@[simp] theorem State.sendPeerFrame_adm (s : State) (p : Fin 4) (h b : List Byte) : (s.sendPeerFrame p h b).adm = s.adm := by
  simp only [State.sendPeerFrame, State.transmit]
  split
  · exact (refusalFrame_sendFrame _ _ _ _).2
  · rfl

@[simp] theorem State.sendSegments_adm (p : Fin 4) (typ jseq nseg : Nat) (b : List Byte) (n : Nat) :
    ∀ (k : Nat) (s : State), (s.sendSegments p typ jseq nseg b k n).adm = s.adm := by
  induction n with
  | zero => exact fun _ _ => rfl
  | succ n ih =>
    intro k s
    simp only [State.sendSegments]
    rw [ih, State.sendPeerFrame_adm]

@[simp] theorem State.sealMirror_adm (s : State) (j ctr : Nat) (b : List Byte) : (s.sealMirror j ctr b).adm = s.adm := by
  simp only [State.sealMirror, State.sendBody]; split <;> simp

@[simp] theorem State.sendMirror_adm (s : State) (j : Nat) (es : List JEntry) (b : List Byte) :
    (s.sendMirror j es b).adm = s.adm := by
  simp only [State.sendMirror, apply_ite State.adm, State.sealMirror_adm, ite_self]

@[simp] theorem State.raiseCeil_adm (s : State) (i : Nat) : (s.raiseCeil i).adm = s.adm := by
  simp only [State.raiseCeil, apply_ite State.adm, State.sendMirror_adm, State.commit_adm, State.stallCommit_adm, ite_self]

@[simp] theorem State.pinBound_adm (s : State) (i : Nat) : (s.pinBound i).1.adm = s.adm :=
  State.pinBound_keeps State.adm (fun _ _ _ => rfl) (fun _ _ => rfl) (fun _ _ => rfl) s i

@[simp] theorem State.bindKey_adm (s : State) (c : Nat) : (s.bindKey c).1.adm = s.adm := by
  simp only [State.bindKey, apply_ite Prod.fst, apply_ite State.adm, State.raiseCeil_adm, State.raise_adm, State.svcWrite,
    State.setCtx_adm, State.pinBound_adm, ite_self]

@[simp] theorem State.makeReady_adm (s : State) (c : Nat) : (s.makeReady c).adm = s.adm := by
  simp only [State.makeReady, apply_ite State.adm, State.setCtx_adm, State.bindKey_adm, ite_self]

/-- A context that becomes READY: the others are as they were, its own but for its state and what it bound. -/
theorem State.makeReady_at (s : State) (c : Nat) : (∀ y, y ≠ c → (s.makeReady c).ctx y = s.ctx y) ∧
    ∃ b v n, (s.makeReady c).ctx c = { s.ctx c with st := .ready, bound := b, boundVersion := v, useN := n } := by
  obtain ⟨hothers, b, v, n, hown⟩ := s.bindKey_bindsAt c
  refine ⟨fun y hy => (s.ctx_makeReady_ne hy).trans (hothers y hy), b, v, n, ?_⟩
  rw [State.ctx_makeReady_self, hown]

/-! ### The deltas of an accepted request (03 R78) -/

/-- Each entry that `deltas` names loses its delta. -/
def State.lessSlack (s : State) (deltas : List (Nat × Nat)) : State :=
  deltas.foldl (fun s d => s.setCtx d.1 { s.ctx d.1 with slack := (s.ctx d.1).slack.map fun v => v - (d.2 : Int) }) s

/-- What the slack of the entry of context `k` falls by. -/
def fallOf (deltas : List (Nat × Nat)) (k : Nat) : Nat := ((deltas.filter fun d => decide (d.1 = k)).map (·.2)).sum

theorem fallOf_deltas (u : State) (stages : List LStage) (fc : Bool) (l : List (Nat × Ctx)) (k : Nat) :
    fallOf (l.map fun j => (j.1, u.delta j.2 stages fc)) k =
      ((l.filter fun y => decide (y.1 = k)).map fun y => deltaOf u y.2 stages fc).sum := by
  simp only [fallOf, List.filter_map, List.map_map, Function.comp_def, State.delta_eq]

/-- What no context touches the deltas keep. -/
theorem State.lessSlack_keeps {β : Type} (g : State → β) (hg : ∀ s c x, g (s.setCtx c x) = g s) (s : State)
    (deltas : List (Nat × Nat)) : g (s.lessSlack deltas) = g s :=
  foldl_keeps g (fun _ _ => hg _ _ _) deltas s

theorem State.ctx_lessSlack (y : Nat) : ∀ (deltas : List (Nat × Nat)) (s : State), (s.lessSlack deltas).ctx y =
    { s.ctx y with slack := (s.ctx y).slack.map fun v => v - (fallOf deltas y : Nat) }
  | [], s => by simp [State.lessSlack, fallOf]
  | d :: deltas, s => by
    have htail := State.ctx_lessSlack y deltas
      (s.setCtx d.1 { s.ctx d.1 with slack := (s.ctx d.1).slack.map fun v => v - (d.2 : Int) })
    refine htail.trans ?_
    by_cases hd : d.1 = y
    · subst hd
      simp [fallOf, Function.comp_def, sub_sub]
    · simp [State.ctx_setCtx_ne _ _ (Ne.symm hd), fallOf, hd]

/-! ### The context of an accepted request (03 R73, R77, 06 Table 6.5) -/

/-- The entry has a stage of its fetch before it (06 R177). -/
def fetches (stages : List LStage) : Bool := stages.any fun l => (decide (l.pool = 3) || decide (l.pool = 4)) && !l.done

/-- The ledger entry of a request that is taken. -/
def State.entryOf (s : State) (q : Desc) (key : Option Nat) (slack : Option Int) (fast : Bool) (stages : List LStage)
    (isState isRand : Bool) : Ctx :=
  let nop := decide (q.req.service = 1)
  let w2 := s.dispWord q.bank q.req.service 2
  { st := .fetch, src := q.src, reply := q.reply, req := q.req, rq := q.rq, ingress := q.ingress, key := key,
    slack := slack, fast := fast, order := s.adm.decided, epoch := q.epoch, bank := q.bank, stages := stages,
    isState := isState, isRand := isRand, nop := nop, prog := if nop then 1024 else s.progOf q,
    respMax := if nop then 0 else natBits w2 0 14, ktype := if nop then 0 else natBits w2 16 16 }

/-- Context `c` holds entry `x` and its message, and the request is counted. -/
def State.entered (s : State) (c : Nat) (q : Desc) (x : Ctx) : State :=
  ((State.setCtx { s with adm := { s.adm with decided := s.adm.decided + 1 } } c x).svcWrite (areaBase c) q.message).count
    (0x040 + q.req.cls) 1

/-- A cache fetch that is not needed any more is counted. -/
def State.hitCounted (s : State) (q : Desc) : State :=
  if q.req.handle ≠ 0 ∧ s.tier (handleIndex q.req.handle) = Tier.cache then s.count 0x050 1 else s

/-- A request that is not a follower's is entered, and READY at once where it has nothing to fetch. -/
theorem State.accept_plain {s : State} {c : Nat} {q : Desc} {key : Option Nat} {slack : Option Int} {fast : Bool}
    {stages : List LStage} {isState isRand : Bool} (h : isState = false ∨ s.fget ADM_STAT_LANTERN ≠ 2) :
    s.accept c q key slack fast stages isState isRand =
      let a := s.entered c q (s.entryOf q key slack fast stages isState isRand)
      if fetches stages = true then a else (a.hitCounted q).makeReady c := by
  have hf : (isState && decide (State.fget { s with adm := { s.adm with decided := s.adm.decided + 1 } }
      ADM_STAT_LANTERN = 2)) = false := by
    rcases h with h | h
    · rw [h, Bool.false_and]
    · exact (congrArg _ (decide_eq_false h)).trans (Bool.and_false _)
  dsimp only at hf
  simp only [State.accept, hf, Bool.false_eq_true, if_false]
  rfl

theorem State.entered_adm (s : State) (c : Nat) (q : Desc) (x : Ctx) :
    (s.entered c q x).adm = { s.adm with decided := s.adm.decided + 1 } := State.count_adm _ _ _

theorem State.entered_dsp (s : State) (c : Nat) (q : Desc) (x : Ctx) :
    (s.entered c q x).dsp.ctxs = (s.setCtx c x).dsp.ctxs := by
  simp only [State.entered, State.count_dsp]
  rfl

theorem State.hitCounted_adm (s : State) (q : Desc) : (s.hitCounted q).adm = s.adm := by
  simp only [State.hitCounted, apply_ite State.adm, State.count_adm, ite_self]

theorem State.hitCounted_dsp (s : State) (q : Desc) : (s.hitCounted q).dsp = s.dsp := by
  simp only [State.hitCounted, apply_ite State.dsp, State.count_dsp, ite_self]

/-- What a request that is no follower's leaves of ADM and of the contexts. -/
theorem State.accept_leaves {s : State} {c : Nat} {q : Desc} {key : Option Nat} {slack : Option Int} {fast : Bool}
    {stages : List LStage} {isState isRand : Bool} (h : isState = false ∨ s.fget ADM_STAT_LANTERN ≠ 2) :
    let t := s.accept c q key slack fast stages isState isRand
    t.adm = { s.adm with decided := s.adm.decided + 1 } ∧ (∀ y, y ≠ c → t.ctx y = s.ctx y) ∧
    ∃ b v n, t.ctx c = { s.entryOf q key slack fast stages isState isRand with
      st := if fetches stages = true then .fetch else .ready, bound := b, boundVersion := v, useN := n } := by
  simp only [State.accept_plain h]
  have hctx := State.ctx_congr (s.entered_dsp c q (s.entryOf q key slack fast stages isState isRand))
  have hadm := s.entered_adm c q (s.entryOf q key slack fast stages isState isRand)
  have hothers : ∀ y, y ≠ c → (s.entered c q (s.entryOf q key slack fast stages isState isRand)).ctx y = s.ctx y :=
    fun y hy => (hctx y).trans (s.ctx_setCtx_ne _ hy)
  have hown := (hctx c).trans (s.ctx_setCtx_self c _)
  generalize s.entered c q (s.entryOf q key slack fast stages isState isRand) = a at *
  by_cases hf : fetches stages = true
  · simp only [hf, if_true]
    exact ⟨hadm, hothers, none, _, none, hown⟩
  · simp only [if_neg hf]
    have hhit := State.ctx_congr (congrArg DspState.ctxs (a.hitCounted_dsp q))
    obtain ⟨hready, b, v, n, hc⟩ := (a.hitCounted q).makeReady_at c
    refine ⟨?_, fun y hy => (hready y hy).trans ((hhit y).trans (hothers y hy)), b, v, n, ?_⟩
    · rw [State.makeReady_adm, State.hitCounted_adm, hadm]
    · rw [hc, hhit, hown]

/-! ### What ADM_DECISION makes of a verdict (03 R77) -/

/-- What the verdict on the front descriptor leaves: a decline is counted and answered, with its record's fetch queued
where that is why; an accepted request takes the context, or waits while that is not FREE (log entry 7). -/
def State.decidedAs (u : State) (c : Nat) (q : Desc) (rest : List Desc) : Verdict → State
  | .decline status detail =>
    let v := State.count { u with adm := { u.adm with descs := rest } } (declineEvent status detail) 1
    let w := if status = 0x10 ∧ detail = 3 then
        { v with adm := { v.adm with beFetch := v.adm.beFetch ++ [handleIndex q.req.handle] } } else v
    w.refuseTo q.src q.reply q.req status detail (q.ingress + 680)
  | .accept key slack fast stages deltas =>
    if (u.ctx c).st = .free then
      let v := State.lessSlack { u with adm := { u.adm with descs := rest } } deltas
      match v.costEntry q.bank q.req.service with
      | some ce => v.accept c q key slack fast stages ce.state ce.rand
      | none => v
    else u

theorem State.admNext_nil {u : State} {c : Nat} (h : u.adm.descs = []) : u.admNext c = u := by
  simp only [State.admNext, h]

theorem State.admNext_early {u : State} {c : Nat} {q : Desc} {rest : List Desc} (h : u.adm.descs = q :: rest)
    (ho : u.instantOver q.ingress = false) : u.admNext c = u := by
  simp only [State.admNext, h, ho, Bool.false_eq_true, if_false]

/-! The descriptors that wait are no part of a decision on one of them. -/

theorem State.pathNs_withDescs (u : State) (l : List Desc) (cls e : Nat) (fc : Bool) (stages : List LStage) :
    State.pathNs { u with adm := { u.adm with descs := l } } cls e fc stages = u.pathNs cls e fc stages := by
  induction stages with
  | nil => rfl
  | cons x stages ih => simp only [State.pathNs, ih]; rfl

theorem State.decideReq_withDescs (u : State) (q : Desc) (l : List Desc) :
    State.decideReq { u with adm := { u.adm with descs := l } } q = u.decideReq q := by
  have hpath := u.pathNs_withDescs l
  unfold State.decideReq
  simp only [hpath]
  rfl

theorem State.admNext_decides {u : State} {c : Nat} {q : Desc} {rest : List Desc} (h : u.adm.descs = q :: rest)
    (ho : u.instantOver q.ingress = true) : u.admNext c = u.decidedAs c q rest (u.decideReq q) := by
  simp only [State.admNext, h, ho, if_true, State.admDecide, State.decideReq_withDescs]
  cases hv : u.decideReq q with
  | decline status detail => rfl
  | accept key slack fast stages deltas => rfl

/-- Where the request is late: its record's fetch is queued if it has one to make (03 R88). -/
theorem State.decidedAs_late (u : State) (c : Nat) (q : Desc) (rest : List Desc) (fetch : List LStage) :
    u.decidedAs c q rest (.decline 0x10 (if fetch.isEmpty = true then 2 else 3)) =
      if fetch = [] then declined u q rest 0x049 0x10 2
      else
        let v := State.count { u with adm := { u.adm with descs := rest } } 0x04A 1
        State.refuseTo { v with adm := { v.adm with beFetch := v.adm.beFetch ++ [handleIndex q.req.handle] } }
          q.src q.reply q.req 0x10 3 (q.ingress + 680) := by
  cases fetch with
  | nil => rfl
  | cons x l => rfl

theorem State.decidedAs_accept_busy {u : State} {c : Nat} (h : ¬(u.ctx c).st = .free) (q : Desc) (rest : List Desc)
    (key : Option Nat) (slack : Option Int) (fast : Bool) (stages : List LStage) (deltas : List (Nat × Nat)) :
    u.decidedAs c q rest (.accept key slack fast stages deltas) = u := if_neg h

theorem State.decidedAs_accept_takes {u : State} {c : Nat} {q : Desc} {ce : CostEntry}
    (hce : u.costEntry q.bank q.req.service = some ce) (hfree : (u.ctx c).st = .free)
    (hplain : ce.state = false ∨ u.fget ADM_STAT_LANTERN ≠ 2) (rest : List Desc)
    (key : Option Nat) (slack : Option Int) (fast : Bool) (stages : List LStage) (deltas : List (Nat × Nat)) :
    takes u c q rest key slack fast stages (fallOf deltas)
      (u.decidedAs c q rest (.accept key slack fast stages deltas)) := by
  have hctx := fun y => State.ctx_lessSlack y deltas { u with adm := { u.adm with descs := rest } }
  have hcost := State.lessSlack_keeps (fun s => s.costEntry q.bank q.req.service) (fun _ _ _ => rfl)
    { u with adm := { u.adm with descs := rest } } deltas
  have hlan := State.lessSlack_keeps (fun s => s.fget ADM_STAT_LANTERN) (fun _ _ _ => rfl)
    { u with adm := { u.adm with descs := rest } } deltas
  have hadm := State.lessSlack_keeps State.adm (fun _ _ _ => rfl) { u with adm := { u.adm with descs := rest } } deltas
  simp only [State.decidedAs, if_pos hfree]
  generalize State.lessSlack { u with adm := { u.adm with descs := rest } } deltas = v at *
  rw [hcost.trans hce]
  dsimp only
  obtain ⟨hvadm, hothers, b, n, m, hown⟩ := State.accept_leaves (s := v) (c := c) (q := q) (key := key) (slack := slack)
    (fast := fast) (stages := stages) (isState := ce.state) (isRand := ce.rand) (hplain.imp_right fun h => hlan ▸ h)
  generalize v.accept c q key slack fast stages ce.state ce.rand = t at *
  simp only [takes, hown, hvadm, hadm]
  exact ⟨rfl, rfl, rfl, rfl, rfl, rfl, rfl, rfl, rfl, (congrArg AdmState.decided hadm :), rfl, rfl, rfl, trivial, trivial,
    fun y hy => (hothers y hy).trans (hctx y)⟩

/-! ### The decision's checks in turn (03 R78) -/

/-- One check of the decision: the verdict where it fails, and what is decided where it does not. -/
theorem verdict_ite {o : Out} {u : State} {c : Nat} {q : Desc} {rest : List Desc} {p p' : Prop} [Decidable p]
    [Decidable p'] {v w : Verdict} {A B : Prop} (h : o = .next (u.decidedAs c q rest (if p then v else w))) (hp : p' ↔ p)
    (ha : o = .next (u.decidedAs c q rest v) → A) (hb : o = .next (u.decidedAs c q rest w) → B) :
    if p' then A else B := by
  by_cases hc : p
  · rw [if_pos hc] at h
    rw [if_pos (hp.2 hc)]
    exact ha h
  · rw [if_neg hc] at h
    rw [if_neg (hp.not.2 hc)]
    exact hb h

theorem respFrame_eq (q : Desc) (n : Nat) : respFrame q n =
    (if q.reply.encap = .ether then 30 else 78) + 40 + (if q.req.tsreq = true then 16 else 0) + n + 20 := by
  simp only [respFrame]
  cases q.reply.encap <;> simp

theorem State.instantOver_iff (s : State) (t : Nat) : s.instantOver t = true ↔ t < s.tb ∨ s.sys.refclkEth = false := by
  simp [State.instantOver]

theorem State.decideReq_off {u : State} {q : Desc}
    (h : u.costEntry q.bank q.req.service = none ∨ u.on ADM_CTRL_EN = false) : u.decideReq q = .decline 0x10 2 := by
  unfold State.decideReq
  cases hce : u.costEntry q.bank q.req.service with
  | none => rfl
  | some ce =>
    have hoff := h.resolve_left (by simp [hce])
    simp only [hoff, Bool.not_false, if_true]

end Sys2Proof.Machine

namespace Sys2Proof
open Sys2Proof.Machine

/-- Settles O33: the checks of the decision are taken in turn (`verdict_ite`), each with the verdict that it gives; what a
verdict leaves is `State.decidedAs`, and the waits and deltas of 03 R78 are those of `State.pathNs_eq` and
`State.delta_eq`. -/
theorem admissionDecides : Obligations.AdmissionDecides := by
  intro dt c s
  have hexec : exec (.admDecision dt c) s = .next ((s.elapse dt).admNext c) := rfl
  simp only [Completes]
  generalize exec (.admDecision dt c) s = o at *
  generalize s.elapse dt = u at *
  refine ⟨fun h => ?_, fun q rest h hlate hclk => ?_, fun q rest h hover => ⟨fun hnone => ?_, fun ce hce hen => ?_⟩⟩
  · rw [hexec, State.admNext_nil h]
  · rw [hexec, State.admNext_early h (Bool.eq_false_iff.2 fun ho => ?_)]
    rcases (u.instantOver_iff _).1 ho with ho | ho
    · omega
    · simp [hclk] at ho
  all_goals rw [State.admNext_decides h ((u.instantOver_iff _).2 hover)] at hexec
  · rw [hexec, State.decideReq_off hnone]
    rfl
  simp only [State.decideReq, hce, hen, Bool.not_true, Bool.false_eq_true, if_false] at hexec
  -- the mode, the lantern, random numbers, the key store, the ledger, the response of the port, a place in each pool
  refine verdict_ite hexec Iff.rfl id fun hexec => ?_
  refine verdict_ite hexec Iff.rfl id fun hexec => ?_
  refine verdict_ite hexec Iff.rfl id fun hexec => ?_
  refine verdict_ite hexec (by simp) id fun hexec => ?_
  refine verdict_ite hexec Iff.rfl id fun hexec => ?_
  refine verdict_ite hexec ?_ id fun hexec => ?_
  · rw [respFrame_eq]
    cases q.src <;> simp
  refine verdict_ite hexec ?_ id fun hexec => ?_
  · rw [List.any_eq_true]
    exact exists_congr fun x => and_congr_right fun _ => by simp [or_comm]
  have hend : q.ingress + u.rdb q.bank (ADM_CLASS_BOUND q.req.cls) - 180 = phaseEnd u q := rfl
  rw [hend] at hexec
  generalize u.fetchStage q ++ u.serviceStages q ce ++ u.txStage q ce = stages at hexec ⊢
  generalize (decide (q.req.cls ≤ u.fget ADM_CTRL_FASTCLS) && !(u.serviceStages q ce).any LStage.long) = fc at hexec ⊢
  refine verdict_ite hexec Iff.rfl (fun hexec => ⟨fun hbusy => ?_, fun hfree hplain => ?_⟩) fun hexec => ?_
  · rw [hexec, State.decidedAs_accept_busy hbusy]
  · exact ⟨_, hexec, State.decidedAs_accept_takes hce hfree hplain ..⟩
  rw [State.pathNs_eq] at hexec
  by_cases hpath : ∃ x ∈ stages, waitOf u q.req.cls (phaseEnd u q) fc x = none
  · rw [if_pos hpath] at hexec
    rw [if_pos (Or.inl hpath)]
    exact hexec.trans (congrArg _ (u.decidedAs_late c q rest _))
  rw [if_neg hpath] at hexec
  refine verdict_ite hexec (or_iff_right hpath) (fun hexec => ?_) fun hexec => ?_
  · exact hexec.trans (congrArg _ (u.decidedAs_late c q rest _))
  rw [List.filter_congr (l := u.live) (q := fun y => y.2.key.any fun k => decide (phaseEnd u q < k))
    fun y _ => by cases y.2.key <;> rfl] at hexec
  refine verdict_ite hexec ?_ id (fun hexec => ⟨fun hbusy => ?_, fun hfree hplain => ?_⟩)
  · rw [List.any_map, List.any_eq_true]
    refine exists_congr fun y => and_congr Iff.rfl ?_
    simp only [Function.comp_def, State.delta_eq]
    cases (u.ctx y.1).slack <;> simp
  · rw [hexec, State.decidedAs_accept_busy hbusy]
  · refine ⟨_, hexec, ?_⟩
    rw [← funext (fallOf_deltas u stages fc _)]
    exact State.decidedAs_accept_takes hce hfree hplain ..

end Sys2Proof
end

section
/-!
SUPPORT. Proofs/IntegerInstructions.lean: the integer instructions (04 R101-R106), each as the shared operation it is
(`opA`, `divide`, `checked`, `opI`, `opShift`) of a value, and what those values are as numbers and bits. O1 to O6 are
settled from these.
-/

namespace Sys2Proof

open Sys2Proof.Machine

/-! ### Register and unary instructions (04 R101) -/

theorem ite_slt_eq_min (a b : Word) : (if a.slt b then a else b) = BitVec.ofInt 64 (min a.toInt b.toInt) := by
  simp only [BitVec.slt, decide_eq_true_eq]
  split
  · next h => rw [min_eq_left h.le, BitVec.ofInt_toInt]
  · next h => rw [min_eq_right (not_lt.1 h), BitVec.ofInt_toInt]

theorem ite_slt_eq_max (a b : Word) : (if a.slt b then b else a) = BitVec.ofInt 64 (max a.toInt b.toInt) := by
  simp only [BitVec.slt, decide_eq_true_eq]
  split
  · next h => rw [max_eq_right h.le, BitVec.ofInt_toInt]
  · next h => rw [max_eq_left (not_lt.1 h), BitVec.ofInt_toInt]

theorem ite_ult_eq_min (a b : Word) : (if a.ult b then a else b) = BitVec.ofNat 64 (min a.toNat b.toNat) := by
  simp only [BitVec.ult, decide_eq_true_eq]
  split
  · next h => rw [min_eq_left h.le, BitVec.ofNat_toNat, BitVec.setWidth_eq]
  · next h => rw [min_eq_right (not_lt.1 h), BitVec.ofNat_toNat, BitVec.setWidth_eq]

theorem ite_ult_eq_max (a b : Word) : (if a.ult b then b else a) = BitVec.ofNat 64 (max a.toNat b.toNat) := by
  simp only [BitVec.ult, decide_eq_true_eq]
  split
  · next h => rw [max_eq_right h.le, BitVec.ofNat_toNat, BitVec.setWidth_eq]
  · next h => rw [max_eq_left (not_lt.1 h), BitVec.ofNat_toNat, BitVec.setWidth_eq]

theorem high_word_ofInt (x : Int) : BitVec.ofInt 64 (x / 2 ^ 64) = (BitVec.ofInt 128 x).extractLsb' 64 64 := by
  apply BitVec.eq_of_toNat_eq
  simp only [BitVec.toNat_ofInt, BitVec.extractLsb'_toNat, Nat.shiftRight_eq_div_pow]
  omega

theorem high_word_ofNat (x : Nat) : BitVec.ofNat 64 (x / 2 ^ 64) = (BitVec.ofNat 128 x).extractLsb' 64 64 := by
  apply BitVec.eq_of_toNat_eq
  simp only [BitVec.toNat_ofNat, BitVec.extractLsb'_toNat, Nat.shiftRight_eq_div_pow]
  omega

theorem moveIf_gives {i : Instr} {h : Hart} {f : FmtA} {s : State} {p : Word → Bool} {fm : Form}
    (hi : exec i s = s.execute h fm (moveIf h f p)) (hx : Executes h s) (hl : fm.legal h (s.core h) = true)
    (hp : p (s.gpr h f.rb) = true) : Gives i h s f.rd (s.gpr h f.ra) :=
  gives_of hi hx hl fun u hu => by simp only [moveIf, State.gives, State.gpr_of_fetched hu, hp, if_true]

theorem moveIf_leaves {i : Instr} {h : Hart} {f : FmtA} {s : State} {p : Word → Bool} {fm : Form}
    (hi : exec i s = s.execute h fm (moveIf h f p)) (hx : Executes h s) (hl : fm.legal h (s.core h) = true)
    (hp : p (s.gpr h f.rb) = false) : Leaves i h s (s.core h).advance :=
  leaves_same hi hx hl fun u hu => by simp [moveIf, State.gpr_of_fetched hu, hp]

theorem swapBytes_four_lt (v : Word) : (swapBytes 4 v).toNat < 2 ^ 32 := by
  have h := leNat_lt (leBytes 4 v.toNat).reverse
  simp only [List.length_reverse, leBytes_length] at h
  simp only [swapBytes, BitVec.toNat_ofNat]
  omega

/-- A register operation without a check of its own, by its dispatch and the value it computes. -/
theorem formA_gives {i : Instr} {h : Hart} {f : FmtA} {s : State} {g : Word → Word → Word} {fn : BitVec 11} {v : Word}
    (hx : Executes h s) (hi : exec i s = s.execute h (formA fn f) (opA h f g)) (hv : g (s.gpr h f.ra) (s.gpr h f.rb) = v) :
    Gives i h s f.rd v :=
  opA_gives hi hx (legalA ..) hv

/-- A unary operation whose rb is 0, likewise. -/
theorem formUnary_gives {i : Instr} {h : Hart} {f : FmtA} {s : State} {g : Word → Word → Word} {fn : BitVec 11} {v : Word}
    (hx : Executes h s) (hz : f.rb = 0) (hi : exec i s = s.execute h (formUnary fn f) (opA h f g))
    (hv : g (s.gpr h f.ra) (s.gpr h f.rb) = v) : Gives i h s f.rd v :=
  opA_gives hi hx (legalU _ _ hz) hv

theorem formUnary_raises {i : Instr} {h : Hart} {f : FmtA} {s : State} {fn : BitVec 11} {body : State → Res}
    (hx : Executes h s) (hz : f.rb ≠ 0) (hi : exec i s = s.execute h (formUnary fn f) body) :
    Raises i h s (encA 0x01 fn f) excIllegal :=
  raises_illegal hi hx rfl (illegalU _ _ hz)

/-- Settles O1: each instruction is `opA` or `moveIf` of its value; the values are `slt_iff`, `leadZeros_spec`, `swap_byte`
and the other facts on words above. -/
theorem registerAndUnaryInstructionsGive : Obligations.RegisterAndUnaryInstructionsGive := by
  refine ⟨fun h f s hx => ⟨formA_gives hx rfl rfl, formA_gives hx rfl rfl, formA_gives hx rfl rfl, formA_gives hx rfl rfl,
    formA_gives hx rfl rfl, formA_gives hx rfl rfl, formA_gives hx rfl (slt_iff ..), formA_gives hx rfl (sltu_iff ..),
    formA_gives hx rfl rfl, formA_gives hx rfl rfl, formA_gives hx rfl rfl, ?_, ?_,
    formA_gives hx rfl (ite_slt_eq_min ..), formA_gives hx rfl (ite_slt_eq_max ..), formA_gives hx rfl (ite_ult_eq_min ..),
    formA_gives hx rfl (ite_ult_eq_max ..), formA_gives hx rfl rfl, formA_gives hx rfl (high_word_ofInt _),
    formA_gives hx rfl (high_word_ofNat _)⟩, fun h f s hx => ⟨fun hz => ?_, fun hz => ?_, ?_⟩⟩
  · split
    · next hb => exact moveIf_gives rfl hx (legalA ..) (decide_eq_true hb)
    · next hb => exact moveIf_leaves rfl hx (legalA ..) (decide_eq_false hb)
  · split
    · next hb => exact moveIf_leaves rfl hx (legalA ..) (decide_eq_false (not_not.2 hb))
    · next hb => exact moveIf_gives rfl hx (legalA ..) (decide_eq_true hb)
  · obtain ⟨hn, hzeros, hone⟩ := leadZeros_spec (s.gpr h f.ra) 64
    exact ⟨⟨_, hn, formUnary_gives hx hz rfl rfl, hzeros, hone⟩, formUnary_gives hx hz rfl (by rw [setBits_eq]),
      ⟨_, formUnary_gives hx hz rfl rfl, swap_byte _ 8 (by decide)⟩,
      ⟨_, formUnary_gives hx hz rfl rfl, swapBytes_four_lt _, swap_byte _ 4 (by decide)⟩⟩
  · exact ⟨formUnary_raises hx hz rfl, formUnary_raises hx hz rfl, formUnary_raises hx hz rfl, formUnary_raises hx hz rfl⟩
  · exact ⟨formA_gives hx rfl (by rw [sx32, low32, low32, low_add, sx]),
      formA_gives hx rfl (by rw [sx32, low32, low32, low_sub, sx]), formA_gives hx rfl rfl, formA_gives hx rfl rfl,
      formA_gives hx rfl rfl⟩

/-! ### Divisions and overflow (04 R102, R103) -/

theorem legalDiv {fn : BitVec 11} {f : FmtA} {h : Hart} (c : Core) (hc : isCtl h = true) :
    (formDiv fn f).legal h c = true := by
  cases h with
  | ctl n => rfl
  | svc k => cases hc
  | wick => cases hc

theorem formDiv_raises {i : Instr} {h : Hart} {f : FmtA} {s : State} {fn : BitVec 11} {body : State → Res}
    (hx : Executes h s) (hc : isCtl h = false) (hi : exec i s = s.execute h (formDiv fn f) body) :
    Raises i h s (encA 0x01 fn f) excIllegal := by
  refine raises_illegal hi hx rfl ?_
  cases h with
  | ctl n => cases hc
  | svc k => rfl
  | wick => rfl

/-- A division that raises no DIVZ gives its value. -/
theorem divide_gives {i : Instr} {h : Hart} {f : FmtA} {s : State} {g : Word → Word → Word} {fn : BitVec 11} {v : Word}
    (hx : Executes h s) (hc : isCtl h = true) (hz : ¬(s.gpr h f.rb = 0 ∧ (s.core h).ectrl.getLsbD 1 = true))
    (hi : exec i s = s.execute h (formDiv fn f) (divide h f g)) (hv : g (s.gpr h f.ra) (s.gpr h f.rb) = v) :
    Gives i h s f.rd v :=
  gives_of hi hx (legalDiv _ hc) fun u hu => by
    rw [divide, State.gpr_of_fetched hu, State.gpr_of_fetched hu, State.core_of_fetched hu, Core.divzOn, if_neg hz,
      State.gives, hv]

theorem divide_raises {i : Instr} {h : Hart} {f : FmtA} {s : State} {g : Word → Word → Word} {fn : BitVec 11}
    (hx : Executes h s) (hc : isCtl h = true) (hz : s.gpr h f.rb = 0) (hon : (s.core h).ectrl.getLsbD 1 = true)
    (hi : exec i s = s.execute h (formDiv fn f) (divide h f g)) : Raises i h s (encA 0x01 fn f) { cause := 6 } :=
  raises_of hi hx (legalDiv _ hc) rfl fun u hu => by
    rw [divide, State.gpr_of_fetched hu, State.core_of_fetched hu, Core.divzOn, if_pos ⟨hz, hon⟩]

/-- Settles O2: `divide` gives the quotient or remainder where the divisor is not zero or DZ_EN is 0, and raises DIVZ
otherwise; the corner case is one of the first kind. -/
theorem divisionsGive : Obligations.DivisionsGive := by
  refine fun h f s hx => ⟨fun hc hb => ?_, fun hc ha hb => ?_, fun hc hb hoff => ?_, fun hc hb hon => ?_, fun hc => ?_⟩
  · have hz : ¬(s.gpr h f.rb = 0 ∧ (s.core h).ectrl.getLsbD 1 = true) := fun k => hb k.1
    exact ⟨divide_gives hx hc hz rfl (if_neg hb), divide_gives hx hc hz rfl (if_neg hb),
      divide_gives hx hc hz rfl (if_neg hb), divide_gives hx hc hz rfl (if_neg hb)⟩
  · have hz : ¬(s.gpr h f.rb = 0 ∧ (s.core h).ectrl.getLsbD 1 = true) := fun k => absurd (hb.symm.trans k.1) (by decide)
    exact ⟨divide_gives hx hc hz rfl (by rw [ha, hb]; decide), divide_gives hx hc hz rfl (by rw [ha, hb]; decide)⟩
  · have hz : ¬(s.gpr h f.rb = 0 ∧ (s.core h).ectrl.getLsbD 1 = true) := fun k => Bool.eq_false_iff.1 hoff k.2
    exact ⟨divide_gives hx hc hz rfl (if_pos hb), divide_gives hx hc hz rfl (if_pos hb),
      divide_gives hx hc hz rfl (if_pos hb), divide_gives hx hc hz rfl (if_pos hb)⟩
  · exact ⟨divide_raises hx hc hb hon rfl, divide_raises hx hc hb hon rfl, divide_raises hx hc hb hon rfl,
      divide_raises hx hc hb hon rfl⟩
  · exact ⟨formDiv_raises hx hc rfl, formDiv_raises hx hc rfl, formDiv_raises hx hc rfl, formDiv_raises hx hc rfl⟩

theorem not_fits64_and_ovfOn_iff (v : Int) (c : Core) (h : Hart) : (!fits64 v && c.ovfOn h) = true ↔
    (v < -(2 ^ 63) ∨ 2 ^ 63 ≤ v) ∧ (c.ectrl.getLsbD 0 = true ∨ isService h = true) := by
  rw [Bool.and_eq_true, Bool.not_eq_true', fits64_iff, Core.ovfOn, Bool.or_eq_true, or_comm (a := isService h = true)]

/-- An operation with overflow detection raises OVF where the result does not fit and detection is on, and gives the
wrapped result otherwise. -/
theorem checked_acts {i : Instr} {h : Hart} {f : FmtA} {s : State} {g : Int → Int → Int} {fn : BitVec 11} {v : Int}
    (hx : Executes h s) (hi : exec i s = s.execute h (formA fn f) (checked h f g))
    (hv : v = g (s.gpr h f.ra).toInt (s.gpr h f.rb).toInt) :
    if (v < -(2 ^ 63) ∨ 2 ^ 63 ≤ v) ∧ ((s.core h).ectrl.getLsbD 0 = true ∨ isService h = true)
    then Raises i h s (encA 0x01 fn f) { cause := 7 }
    else Gives i h s f.rd (BitVec.ofInt 64 v) := by
  have hiff := not_fits64_and_ovfOn_iff v (s.core h) h
  split
  · next ho =>
    refine raises_of hi hx (legalA ..) rfl fun u hu => ?_
    simp only [checked, State.gpr_of_fetched hu, State.core_of_fetched hu, ← hv, if_pos (hiff.2 ho)]
  · next ho =>
    refine gives_of hi hx (legalA ..) fun u hu => ?_
    simp only [checked, State.gpr_of_fetched hu, State.core_of_fetched hu, ← hv, if_neg (hiff.not.2 ho), State.gives]

/-- Settles O3: each of the three is `checked` of its operation on integers. -/
theorem overflowIsDetected : Obligations.OverflowIsDetected := by
  rintro h f s op fn v hx (⟨rfl, rfl, hv⟩ | ⟨rfl, rfl, hv⟩ | ⟨rfl, rfl, hv⟩)
  · exact checked_acts (i := .addv h f) hx rfl hv
  · exact checked_acts (i := .subv h f) hx rfl hv
  · exact checked_acts (i := .mulv h f) hx rfl hv

/-! ### Immediates (04 R104) -/

theorem formI_gives {i : Instr} {h : Hart} {f : FmtI} {s : State} {g : Word → BitVec 16 → Word} {op : BitVec 6} {v : Word}
    (hx : Executes h s) (hi : exec i s = s.execute h (formI op f) (opI h f g)) (hv : g (s.gpr h f.ra) f.imm = v) :
    Gives i h s f.rd v :=
  opI_gives hi hx (legalI ..) hv

theorem slt_ofInt16_iff (a : Word) (i : BitVec 16) :
    ofBool (a.slt (i.signExtend 64)) = if a.toInt < i.toInt then 1 else 0 := by
  rw [slt_iff, BitVec.toInt_signExtend_of_le (by decide)]

/-- The low word of a number is that of its value. -/
theorem ofInt_toInt_low (a : Word) : BitVec.ofInt 32 a.toInt = a.setWidth 32 := by
  apply BitVec.eq_of_toNat_eq
  simp [BitVec.toInt_eq_toNat_cond]; split <;> omega

/-- LUI: the shifted extension is the extended product. -/
theorem shiftLeft_signExtend16 (i : BitVec 16) : i.signExtend 64 <<< 16 = BitVec.ofInt 64 (i.toInt * 2 ^ 16) := by
  rw [sx16]
  apply BitVec.eq_of_toNat_eq
  simp only [BitVec.toNat_shiftLeft, BitVec.toNat_ofInt, Nat.shiftLeft_eq]
  omega

theorem legalLui {f : FmtI} (h : Hart) (c : Core) :
    Form.legal { word := encI 0x09 f, ok := decide (f.ra = 0) } h c = decide (f.ra = 0) := by
  cases h <;> simp [Form.legal, Form.inProfile]

/-- Settles O4: each instruction is `opI` of its value; LUI's form is legal where ra is 0. -/
theorem immediateInstructionsGive : Obligations.ImmediateInstructionsGive := by
  refine fun h f s hx => ⟨formI_gives hx rfl (by rw [sx16]), formI_gives hx rfl ?_, formI_gives hx rfl (by rw [zx16]),
    formI_gives hx rfl (by rw [zx16]), formI_gives hx rfl (by rw [zx16]), formI_gives hx rfl (slt_ofInt16_iff ..),
    formI_gives hx rfl (by rw [sltu_iff, sx16]), ?_⟩
  · rw [sx32, sx', low32, sx16', BitVec.ofInt_add, ofInt_toInt_low]
  · split
    · next hz => exact opI_gives rfl hx ((legalLui ..).trans (decide_eq_true hz)) (shiftLeft_signExtend16 _)
    · next hz => exact raises_illegal rfl hx rfl ((legalLui ..).trans (decide_eq_false hz))

/-! ### Shifts by an immediate (04 R105) -/

theorem legalShift {sel : BitVec 4} {wide : Bool} {f : FmtShift} (h : Hart) (c : Core) :
    (formShift sel wide f).legal h c = (decide (f.mid = 0) && (wide || decide (f.sh.toNat < 32))) := by
  cases h <;> simp [Form.legal, Form.inProfile, formShift]

theorem opShift_gives {i : Instr} {h : Hart} {f : FmtShift} {s : State}
    {g : Word → Nat → Word} {sel : BitVec 4} {wide : Bool}
    {v : Word} (hx : Executes h s) (hz : f.mid = 0) (hw : wide = true ∨ f.sh.toNat < 32)
    (hi : exec i s = s.execute h (formShift sel wide f) (opShift h f g)) (hv : g (s.gpr h f.ra) f.sh.toNat = v) :
    Gives i h s f.rd v :=
  gives_of hi hx ((legalShift ..).trans (by simpa [hz] using hw)) fun u hu => by
    rw [opShift, State.gpr_of_fetched hu, State.gives, hv]

theorem formShift_raises {i : Instr} {h : Hart} {f : FmtShift} {s : State} {sel : BitVec 4} {wide : Bool}
    {body : State → Res}
    (hx : Executes h s) (hz : f.mid ≠ 0 ∨ wide = false ∧ 32 ≤ f.sh.toNat)
    (hi : exec i s = s.execute h (formShift sel wide f) body) : Raises i h s (encShift sel f) excIllegal :=
  raises_illegal hi hx rfl <| (legalShift ..).trans <| by
    rcases hz with hz | ⟨rfl, hz⟩
    · rw [decide_eq_false hz, Bool.false_and]
    · rw [decide_eq_false (Nat.not_lt.2 hz), Bool.false_or, Bool.and_false]

/-- Settles O5: each shift is `opShift`, and its form is legal as `legalShift` says. -/
theorem immediateShiftsGive : Obligations.ImmediateShiftsGive := by
  refine fun h f s hx => ⟨fun hz => ?_, fun hz hw => ?_, fun hz => ?_, fun hz => ?_⟩
  · exact ⟨opShift_gives hx hz (.inl rfl) rfl rfl, opShift_gives hx hz (.inl rfl) rfl rfl,
      opShift_gives hx hz (.inl rfl) rfl rfl⟩
  · exact ⟨opShift_gives hx hz (.inr hw) rfl rfl, opShift_gives hx hz (.inr hw) rfl rfl,
      opShift_gives hx hz (.inr hw) rfl rfl⟩
  · exact ⟨formShift_raises hx (.inl hz) rfl, formShift_raises hx (.inl hz) rfl, formShift_raises hx (.inl hz) rfl⟩
  · have hz' := hz.imp_right (And.intro (rfl : false = false))
    exact ⟨formShift_raises hx hz' rfl, formShift_raises hx hz' rfl, formShift_raises hx hz' rfl⟩

/-! ### Bit fields (04 R106) -/

theorem legalField {sel : BitVec 2} {f : FmtField} (h : Hart) (c : Core) :
    (formField sel f).legal h c = decide (f.mid = 0 ∧ f.pos.toNat + (f.len1.toNat + 1) ≤ 64) := by
  cases h <;> simp [Form.legal, Form.inProfile, formField, FmtField.len] <;> rfl

/-- A field that lies in the register is legal; the operation writes its result into gd. -/
theorem formField_gives {i : Instr} {h : Hart} {f : FmtField} {s : State} {g : State → Word} {sel : BitVec 2}
    (hx : Executes h s) (hf : f.mid = 0 ∧ f.pos.toNat + (f.len1.toNat + 1) ≤ 64)
    (hi : exec i s = s.execute h (formField sel f) fun s => s.gives h f.rd (g s)) (hg : ∀ u, Noted h s u → g u = g s) :
    Gives i h s f.rd (g s) :=
  gives_of hi hx ((legalField ..).trans (decide_eq_true hf)) fun u hu => by rw [hg u hu, State.gives]

theorem formField_raises {i : Instr} {h : Hart} {f : FmtField} {s : State} {sel : BitVec 2} {body : State → Res}
    (hx : Executes h s) (hf : ¬(f.mid = 0 ∧ f.pos.toNat + (f.len1.toNat + 1) ≤ 64))
    (hi : exec i s = s.execute h (formField sel f) body) : Raises i h s (encField sel f) excIllegal :=
  raises_illegal hi hx rfl ((legalField ..).trans (decide_eq_false hf))

theorem getLsbD_ofNat_bitsOf {n : Nat} (v : Word) (lo wd : Nat) {i : Nat} (hi : i < n) :
    (BitVec.ofNat n (bitsOf v lo wd)).getLsbD i = (decide (i < wd) && v.getLsbD (lo + i)) := by
  rw [BitVec.getLsbD_ofNat, bitsOf_testBit, BitVec.testBit_toNat, decide_eq_true hi, Bool.true_and]

/-- EXTS: the bits above the field repeat its highest. -/
theorem getLsbD_signExtend_bitsOf (v : Word) (lo wd : Nat) {i : Nat} (hi : i < 64) :
    ((BitVec.ofNat (wd + 1) (bitsOf v lo (wd + 1))).signExtend 64).getLsbD i = v.getLsbD (lo + min i wd) := by
  rw [BitVec.getLsbD_signExtend, decide_eq_true hi, Bool.true_and, BitVec.msb_eq_getLsbD_last]
  split
  · next h => rw [getLsbD_ofNat_bitsOf _ _ _ h, decide_eq_true h, Bool.true_and, min_eq_left (by omega)]
  · next h =>
    rw [Nat.add_sub_cancel, getLsbD_ofNat_bitsOf _ _ _ (Nat.lt_succ_self wd), decide_eq_true (Nat.lt_succ_self wd),
      Bool.true_and, min_eq_right (by omega)]

/-- INS: the field takes the low bits, the others stay. -/
theorem getLsbD_withBits (w v : Word) {lo wd : Nat} (h : lo + (wd + 1) ≤ 64) (i : Nat) :
    (withBits w lo (wd + 1) v.toNat).getLsbD i =
      if lo ≤ i ∧ i ≤ lo + wd then v.getLsbD (i - lo) else w.getLsbD i := by
  rw [← BitVec.testBit_toNat, withBits_toNat w v.toNat h]
  by_cases h1 : i < lo
  · rw [if_pos h1, if_neg (by omega), BitVec.testBit_toNat]
  · by_cases h2 : i < lo + (wd + 1)
    · rw [if_neg h1, if_pos h2, if_pos (by omega), BitVec.testBit_toNat]
    · rw [if_neg h1, if_neg h2, if_neg (by omega), BitVec.testBit_toNat]

/-- Settles O6: the bits of the three results are `getLsbD_ofNat_bitsOf`, `getLsbD_signExtend_bitsOf` and
`getLsbD_withBits`. -/
theorem bitFieldInstructionsGive : Obligations.BitFieldInstructionsGive := by
  intro h f s hx
  split
  · next hf =>
    refine ⟨⟨_, formField_gives hx hf rfl fun u hu => by rw [State.gpr_of_fetched hu], fun i hi => ?_⟩,
      ⟨_, formField_gives hx hf rfl fun u hu => by rw [State.gpr_of_fetched hu], fun i hi => ?_⟩,
      ⟨_, formField_gives hx hf rfl fun u hu => by rw [State.gpr_of_fetched hu, State.gpr_of_fetched hu], fun i hi => ?_⟩⟩
    · rw [getLsbD_ofNat_bitsOf _ _ _ hi, FmtField.len]
      congr 2
      exact propext Nat.lt_succ_iff
    · exact getLsbD_signExtend_bitsOf _ _ _ hi
    · exact getLsbD_withBits _ _ hf.2 i
  · next hf => exact ⟨formField_raises hx hf rfl, formField_raises hx hf rfl, formField_raises hx hf rfl⟩

end Sys2Proof
end

section
/-!
SUPPORT. Proofs/Encodings.lean: the words of Wenak (04 R94-R98, Tables 4.2 to 4.8): a format reads its fields back from the
word it makes of them, and makes the word again of the fields it reads; which word each instruction has, and which
instruction each opcode and function name. O19, O20 and O21 are settled from these.
-/

namespace Sys2Proof

open Sys2Proof.Machine

/-! ### Pieces of a word -/

/-- The last piece of a word is read back. -/
theorem piece_last {m n : Nat} (x : BitVec m) (y : BitVec n) : (x ++ y).extractLsb' 0 n = y :=
  BitVec.extractLsb'_append_eq_right

/-- A piece stays where it is when another is put behind it. -/
theorem piece_before {m n lo k : Nat} {x : BitVec m} {z : BitVec k} {y : BitVec n} (h : x.extractLsb' lo k = z) :
    (x ++ y).extractLsb' (lo + n) k = z := by
  rw [BitVec.extractLsb'_append_eq_of_le (Nat.le_add_left ..), Nat.add_sub_cancel, h]

/-- Two pieces of a word that lie side by side make one. -/
theorem pieces_join {N m n lo hi : Nat} (w : BitVec N) (h : hi = lo + n) :
    w.extractLsb' hi m ++ w.extractLsb' lo n = w.extractLsb' lo (m + n) :=
  BitVec.extractLsb'_append_extractLsb'_eq_extractLsb' h

/-! ### The fields of the formats (04 Table 4.2) -/

theorem decA_encA (op : BitVec 6) (fn : BitVec 11) (f : FmtA) : decA (encA op fn f) = f := by
  obtain ⟨rd, ra, rb⟩ := f
  simp only [decA, FmtA.mk.injEq]
  exact ⟨piece_before (piece_before (piece_before (piece_last _ _))), piece_before (piece_before (piece_last _ _)),
    piece_before (piece_last _ _)⟩

theorem fields_encA (op : BitVec 6) (fn : BitVec 11) (f : FmtA) :
    fieldAt (encA op fn f) 26 6 = op ∧ fieldAt (encA op fn f) 0 11 = fn ∧ decA (encA op fn f) = f :=
  ⟨piece_before (piece_before (piece_before (piece_before BitVec.extractLsb'_eq_self))), piece_last _ _, decA_encA ..⟩

theorem encA_fields (w : Word32) : encA (fieldAt w 26 6) (fieldAt w 0 11) (decA w) = w := by
  simp only [encA, decA, fieldAt, pieces_join w (show 26 = 21 + 5 from rfl), pieces_join w (show 21 = 16 + 5 from rfl),
    pieces_join w (show 16 = 11 + 5 from rfl), pieces_join w (show 11 = 0 + 11 from rfl), -Nat.reduceAdd]
  exact BitVec.extractLsb'_eq_self

theorem decI_encI (op : BitVec 6) (f : FmtI) : decI (encI op f) = f := by
  obtain ⟨rd, ra, imm⟩ := f
  simp only [decI, FmtI.mk.injEq]
  exact ⟨piece_before (piece_before (piece_last _ _)), piece_before (piece_last _ _), piece_last _ _⟩

theorem fields_encI (op : BitVec 6) (f : FmtI) :
    fieldAt (encI op f) 26 6 = op ∧ decI (encI op f) = f :=
  ⟨piece_before (piece_before (piece_before BitVec.extractLsb'_eq_self)), decI_encI ..⟩

theorem encI_fields (w : Word32) : encI (fieldAt w 26 6) (decI w) = w := by
  simp only [encI, decI, fieldAt, pieces_join w (show 26 = 21 + 5 from rfl), pieces_join w (show 21 = 16 + 5 from rfl),
    pieces_join w (show 16 = 0 + 16 from rfl), -Nat.reduceAdd]
  exact BitVec.extractLsb'_eq_self

theorem decShift_encShift (sel : BitVec 4) (f : FmtShift) : decShift (encShift sel f) = f := by
  obtain ⟨rd, ra, mid, sh⟩ := f
  simp only [decShift, FmtShift.mk.injEq]
  exact ⟨piece_before (piece_before (piece_before (piece_before (piece_last _ _)))),
    piece_before (piece_before (piece_before (piece_last _ _))), piece_before (piece_last _ _), piece_last _ _⟩

theorem fields_encShift (sel : BitVec 4) (f : FmtShift) :
    fieldAt (encShift sel f) 26 6 = 0x0A#6 ∧ fieldAt (encShift sel f) 12 4 = sel ∧ decShift (encShift sel f) = f :=
  ⟨piece_before (piece_before (piece_before (piece_before (piece_before BitVec.extractLsb'_eq_self)))),
    piece_before (piece_before (piece_last _ _)), decShift_encShift ..⟩

theorem encShift_fields {w : Word32} (ho : fieldAt w 26 6 = 0x0A#6) : encShift (fieldAt w 12 4) (decShift w) = w := by
  simp only [encShift, decShift, ← ho, fieldAt, pieces_join w (show 26 = 21 + 5 from rfl),
    pieces_join w (show 21 = 16 + 5 from rfl), pieces_join w (show 16 = 12 + 4 from rfl),
    pieces_join w (show 12 = 6 + 6 from rfl), pieces_join w (show 6 = 0 + 6 from rfl), -Nat.reduceAdd]
  exact BitVec.extractLsb'_eq_self

theorem decField_encField (sel : BitVec 2) (f : FmtField) : decField (encField sel f) = f := by
  obtain ⟨rd, ra, mid, pos, len1⟩ := f
  simp only [decField, FmtField.mk.injEq]
  exact ⟨piece_before (piece_before (piece_before (piece_before (piece_before (piece_last _ _))))),
    piece_before (piece_before (piece_before (piece_before (piece_last _ _)))),
      piece_before (piece_before (piece_last _ _)), piece_before (piece_last _ _), piece_last _ _⟩

theorem fields_encField (sel : BitVec 2) (f : FmtField) :
    fieldAt (encField sel f) 26 6 = 0x0B#6 ∧ fieldAt (encField sel f) 14 2 = sel ∧ decField (encField sel f) = f :=
  ⟨piece_before (piece_before (piece_before (piece_before (piece_before (piece_before BitVec.extractLsb'_eq_self))))),
    piece_before (piece_before (piece_before (piece_last _ _))), decField_encField ..⟩

theorem encField_fields {w : Word32} (ho : fieldAt w 26 6 = 0x0B#6) : encField (fieldAt w 14 2) (decField w) = w := by
  simp only [encField, decField, ← ho, fieldAt, pieces_join w (show 26 = 21 + 5 from rfl),
    pieces_join w (show 21 = 16 + 5 from rfl), pieces_join w (show 16 = 14 + 2 from rfl),
    pieces_join w (show 14 = 12 + 2 from rfl), pieces_join w (show 12 = 6 + 6 from rfl),
    pieces_join w (show 6 = 0 + 6 from rfl), -Nat.reduceAdd]
  exact BitVec.extractLsb'_eq_self

theorem decM_encM (op : BitVec 6) (f : FmtM) : decM (encM op f) = f := by
  obtain ⟨rt, ra, cb, imm⟩ := f
  simp only [decM, FmtM.mk.injEq]
  exact ⟨piece_before (piece_before (piece_before (piece_last _ _))), piece_before (piece_before (piece_last _ _)),
    piece_before (piece_last _ _), piece_last _ _⟩

theorem fields_encM (op : BitVec 6) (f : FmtM) :
    fieldAt (encM op f) 26 6 = op ∧ decM (encM op f) = f :=
  ⟨piece_before (piece_before (piece_before (piece_before BitVec.extractLsb'_eq_self))), decM_encM ..⟩

theorem encM_fields (w : Word32) : encM (fieldAt w 26 6) (decM w) = w := by
  simp only [encM, decM, fieldAt, pieces_join w (show 26 = 21 + 5 from rfl), pieces_join w (show 21 = 16 + 5 from rfl),
    pieces_join w (show 16 = 12 + 4 from rfl), pieces_join w (show 12 = 0 + 12 from rfl), -Nat.reduceAdd]
  exact BitVec.extractLsb'_eq_self

theorem decT_encT (fn : BitVec 7) (f : FmtT) : decT (encT fn f) = f := by
  obtain ⟨rd, ra, rb, cb⟩ := f
  simp only [decT, FmtT.mk.injEq]
  exact ⟨piece_before (piece_before (piece_before (piece_before (piece_last _ _)))),
    piece_before (piece_before (piece_before (piece_last _ _))), piece_before (piece_before (piece_last _ _)),
      piece_before (piece_last _ _)⟩

theorem fields_encT (fn : BitVec 7) (f : FmtT) :
    fieldAt (encT fn f) 26 6 = 0x1D#6 ∧ fieldAt (encT fn f) 0 7 = fn ∧ decT (encT fn f) = f :=
  ⟨piece_before (piece_before (piece_before (piece_before (piece_before BitVec.extractLsb'_eq_self)))), piece_last _ _,
    decT_encT ..⟩

theorem encT_fields {w : Word32} (ho : fieldAt w 26 6 = 0x1D#6) : encT (fieldAt w 0 7) (decT w) = w := by
  simp only [encT, decT, ← ho, fieldAt, pieces_join w (show 26 = 21 + 5 from rfl),
    pieces_join w (show 21 = 16 + 5 from rfl), pieces_join w (show 16 = 11 + 5 from rfl),
    pieces_join w (show 11 = 7 + 4 from rfl), pieces_join w (show 7 = 0 + 7 from rfl), -Nat.reduceAdd]
  exact BitVec.extractLsb'_eq_self

theorem decB_encB (op : BitVec 6) (f : FmtB) : decB (encB op f) = f := by
  obtain ⟨ra, rb, disp⟩ := f
  simp only [decB, FmtB.mk.injEq]
  exact ⟨piece_before (piece_before (piece_last _ _)), piece_before (piece_last _ _), piece_last _ _⟩

theorem fields_encB (op : BitVec 6) (f : FmtB) :
    fieldAt (encB op f) 26 6 = op ∧ decB (encB op f) = f :=
  ⟨piece_before (piece_before (piece_before BitVec.extractLsb'_eq_self)), decB_encB ..⟩

theorem encB_fields (w : Word32) : encB (fieldAt w 26 6) (decB w) = w := by
  simp only [encB, decB, fieldAt, pieces_join w (show 26 = 21 + 5 from rfl), pieces_join w (show 21 = 16 + 5 from rfl),
    pieces_join w (show 16 = 0 + 16 from rfl), -Nat.reduceAdd]
  exact BitVec.extractLsb'_eq_self

theorem decJ_encJ (op : BitVec 6) (f : FmtJ) : decJ (encJ op f) = f := by
  obtain ⟨disp⟩ := f
  simp only [decJ, FmtJ.mk.injEq]
  exact piece_last _ _

theorem fields_encJ (op : BitVec 6) (f : FmtJ) :
    fieldAt (encJ op f) 26 6 = op ∧ decJ (encJ op f) = f :=
  ⟨piece_before BitVec.extractLsb'_eq_self, decJ_encJ ..⟩

theorem encJ_fields (w : Word32) : encJ (fieldAt w 26 6) (decJ w) = w := by
  simp only [encJ, decJ, fieldAt, pieces_join w (show 26 = 0 + 26 from rfl), -Nat.reduceAdd]
  exact BitVec.extractLsb'_eq_self

theorem decC_encC (op : BitVec 6) (fn : BitVec 9) (f : FmtC) : decC (encC op fn f) = f := by
  obtain ⟨x, y, z, u⟩ := f
  simp only [decC, FmtC.mk.injEq]
  exact ⟨piece_before (piece_before (piece_before (piece_before (piece_last _ _)))),
    piece_before (piece_before (piece_before (piece_last _ _))), piece_before (piece_before (piece_last _ _)),
      piece_before (piece_last _ _)⟩

theorem fields_encC (op : BitVec 6) (fn : BitVec 9) (f : FmtC) :
    fieldAt (encC op fn f) 26 6 = op ∧ fieldAt (encC op fn f) 0 9 = fn ∧ decC (encC op fn f) = f :=
  ⟨piece_before (piece_before (piece_before (piece_before (piece_before BitVec.extractLsb'_eq_self)))), piece_last _ _,
    decC_encC ..⟩

theorem encC_fields (w : Word32) : encC (fieldAt w 26 6) (fieldAt w 0 9) (decC w) = w := by
  simp only [encC, decC, fieldAt, pieces_join w (show 26 = 22 + 4 from rfl), pieces_join w (show 22 = 18 + 4 from rfl),
    pieces_join w (show 18 = 14 + 4 from rfl), pieces_join w (show 14 = 9 + 5 from rfl),
    pieces_join w (show 9 = 0 + 9 from rfl), -Nat.reduceAdd]
  exact BitVec.extractLsb'_eq_self

theorem decS_encS (fn : BitVec 4) (f : FmtS) : decS (encS fn f) = f := by
  obtain ⟨rd, ra, imm⟩ := f
  simp only [decS, FmtS.mk.injEq]
  exact ⟨piece_before (piece_before (piece_before (piece_last _ _))), piece_before (piece_before (piece_last _ _)),
    piece_last _ _⟩

theorem fields_encS (fn : BitVec 4) (f : FmtS) :
    fieldAt (encS fn f) 26 6 = 0x2C#6 ∧ fieldAt (encS fn f) 12 4 = fn ∧ decS (encS fn f) = f :=
  ⟨piece_before (piece_before (piece_before (piece_before BitVec.extractLsb'_eq_self))), piece_before (piece_last _ _),
    decS_encS ..⟩

theorem encS_fields {w : Word32} (ho : fieldAt w 26 6 = 0x2C#6) : encS (fieldAt w 12 4) (decS w) = w := by
  simp only [encS, decS, ← ho, fieldAt, pieces_join w (show 26 = 21 + 5 from rfl),
    pieces_join w (show 21 = 16 + 5 from rfl), pieces_join w (show 16 = 12 + 4 from rfl),
    pieces_join w (show 12 = 0 + 12 from rfl), -Nat.reduceAdd]
  exact BitVec.extractLsb'_eq_self

theorem decE_encE (fn : BitVec 4) (f : FmtE) : decE (encE fn f) = f := by
  obtain ⟨rd, ra, ce, imm⟩ := f
  simp only [decE, FmtE.mk.injEq]
  exact ⟨piece_before (piece_before (piece_before (piece_before (piece_last _ _)))),
    piece_before (piece_before (piece_before (piece_last _ _))), piece_before (piece_before (piece_last _ _)),
      piece_last _ _⟩

theorem fields_encE (fn : BitVec 4) (f : FmtE) :
    fieldAt (encE fn f) 26 6 = 0x2E#6 ∧ fieldAt (encE fn f) 8 4 = fn ∧ decE (encE fn f) = f :=
  ⟨piece_before (piece_before (piece_before (piece_before (piece_before BitVec.extractLsb'_eq_self)))),
    piece_before (piece_last _ _), decE_encE ..⟩

theorem encE_fields {w : Word32} (ho : fieldAt w 26 6 = 0x2E#6) : encE (fieldAt w 8 4) (decE w) = w := by
  simp only [encE, decE, ← ho, fieldAt, pieces_join w (show 26 = 21 + 5 from rfl),
    pieces_join w (show 21 = 16 + 5 from rfl), pieces_join w (show 16 = 12 + 4 from rfl),
    pieces_join w (show 12 = 8 + 4 from rfl), pieces_join w (show 8 = 0 + 8 from rfl), -Nat.reduceAdd]
  exact BitVec.extractLsb'_eq_self

theorem decInfo_encInfo (sel : BitVec 4) (f : FmtC) (hz : f.z = 0) : decInfo (encInfo sel f) = f := by
  obtain ⟨x, y, z, u⟩ := f
  simp only [decInfo, FmtC.mk.injEq]
  exact ⟨piece_before (piece_before (piece_before (piece_before (piece_last _ _)))),
    piece_before (piece_before (piece_before (piece_last _ _))), hz.symm, piece_before (piece_last _ _)⟩

/-- CINFO's word holds its selector where Z stands. -/
theorem fields_encInfo (sel : BitVec 4) (f : FmtC) (hz : f.z = 0) : fieldAt (encInfo sel f) 26 6 = 0x2A#6 ∧
    fieldAt (encInfo sel f) 0 9 = 0x07#9 ∧ fieldAt (encInfo sel f) 14 4 = sel ∧ decInfo (encInfo sel f) = f :=
  ⟨piece_before (piece_before (piece_before (piece_before (piece_before BitVec.extractLsb'_eq_self)))), piece_last _ _,
    piece_before (piece_before (piece_last _ _)), decInfo_encInfo sel f hz⟩

theorem encInfo_fields {w : Word32} (ho : fieldAt w 26 6 = 0x2A#6) (hf : fieldAt w 0 9 = 0x07#9) :
    encInfo (fieldAt w 14 4) (decInfo w) = w := by
  simp only [encInfo, decInfo, ← ho, ← hf, fieldAt, pieces_join w (show 26 = 22 + 4 from rfl),
    pieces_join w (show 22 = 18 + 4 from rfl), pieces_join w (show 18 = 14 + 4 from rfl),
    pieces_join w (show 14 = 9 + 5 from rfl), pieces_join w (show 9 = 0 + 9 from rfl), -Nat.reduceAdd]
  exact BitVec.extractLsb'_eq_self

theorem fields_ill (op : BitVec 6) (r : BitVec 26) : fieldAt (op ++ r) 26 6 = op ∧ fieldAt (op ++ r) 0 26 = r :=
  ⟨BitVec.extractLsb'_append_eq_left, BitVec.extractLsb'_append_eq_right⟩

theorem ill_fields (w : Word32) : fieldAt w 26 6 ++ fieldAt w 0 26 = w :=
  pieces_join w (show 26 = 0 + 26 from rfl) |>.trans BitVec.extractLsb'_eq_self

/-! ### The instruction that an opcode and a function name (04 Tables 4.3 to 4.8) -/

theorem decode_formsA (h : Hart) (w : Word32) : ∀ e ∈ formsA h, fieldAt w 26 6 = e.2.1 → fieldAt w 0 11 = e.2.2 →
    decodeWenak h w = e.1 (decA w) := by
  intro e he ho hf
  fin_cases he <;> simp only [decodeWenak, decodeOpa, decodeJrx, ho, hf, BitVec.reduceToNat]

theorem decode_formsI (h : Hart) (w : Word32) : ∀ e ∈ formsI h, fieldAt w 26 6 = e.2 →
    decodeWenak h w = e.1 (decI w) := by
  intro e he ho
  fin_cases he <;> simp only [decodeWenak, ho, BitVec.reduceToNat]

theorem decode_formsShift (h : Hart) (w : Word32) : ∀ e ∈ formsShift h, fieldAt w 26 6 = 0x0A#6 → fieldAt w 12 4 = e.2 →
    decodeWenak h w = e.1 (decShift w) := by
  intro e he ho hf
  fin_cases he <;> simp only [decodeWenak, decodeShi, ho, hf, BitVec.reduceToNat]

theorem decode_formsField (h : Hart) (w : Word32) : ∀ e ∈ formsField h, fieldAt w 26 6 = 0x0B#6 → fieldAt w 14 2 = e.2 →
    decodeWenak h w = e.1 (decField w) := by
  intro e he ho hf
  fin_cases he <;> simp only [decodeWenak, decodeBfx, ho, hf, BitVec.reduceToNat]

theorem decode_formsM (h : Hart) (w : Word32) : ∀ e ∈ formsM h, fieldAt w 26 6 = e.2 →
    decodeWenak h w = e.1 (decM w) := by
  intro e he ho
  fin_cases he <;> simp only [decodeWenak, ho, BitVec.reduceToNat]

theorem decode_formsT (h : Hart) (w : Word32) : ∀ e ∈ formsT h, fieldAt w 26 6 = 0x1D#6 → fieldAt w 0 7 = e.2 →
    decodeWenak h w = e.1 (decT w) := by
  intro e he ho hf
  fin_cases he <;> simp only [decodeWenak, decodeAmo, ho, hf, BitVec.reduceToNat]

theorem decode_formsB (h : Hart) (w : Word32) : ∀ e ∈ formsB h, fieldAt w 26 6 = e.2 →
    decodeWenak h w = e.1 (decB w) := by
  intro e he ho
  fin_cases he <;> simp only [decodeWenak, ho, BitVec.reduceToNat]

theorem decode_formsJ (h : Hart) (w : Word32) : ∀ e ∈ formsJ h, fieldAt w 26 6 = e.2 →
    decodeWenak h w = e.1 (decJ w) := by
  intro e he ho
  fin_cases he <;> simp only [decodeWenak, ho, BitVec.reduceToNat]

theorem decode_formsC (h : Hart) (w : Word32) : ∀ e ∈ formsC h, fieldAt w 26 6 = e.2.1 → fieldAt w 0 9 = e.2.2 →
    decodeWenak h w = e.1 (decC w) := by
  intro e he ho hf
  fin_cases he <;> simp only [decodeWenak, decodeCxfer, decodeCap, ho, hf, BitVec.reduceToNat]

theorem decode_formsS (h : Hart) (w : Word32) : ∀ e ∈ formsS h, fieldAt w 26 6 = 0x2C#6 → fieldAt w 12 4 = e.2 →
    decodeWenak h w = e.1 (decS w) := by
  intro e he ho hf
  fin_cases he <;> simp only [decodeWenak, decodeSys, ho, hf, BitVec.reduceToNat]

theorem decode_formsE (h : Hart) (w : Word32) : ∀ e ∈ formsE h, fieldAt w 26 6 = 0x2E#6 → fieldAt w 8 4 = e.2 →
    decodeWenak h w = e.1 (decE w) := by
  intro e he ho hf
  fin_cases he <;> simp only [decodeWenak, decodeEng, ho, hf, BitVec.reduceToNat]

theorem decode_formsInfo (h : Hart) (w : Word32) : ∀ e ∈ formsInfo h, fieldAt w 26 6 = 0x2A#6 → fieldAt w 0 9 = 0x07#9 →
    fieldAt w 14 4 = e.2 → decodeWenak h w = e.1 (decInfo w) := by
  intro e he ho hf hs
  fin_cases he <;> simp only [decodeWenak, decodeCap, decodeInfo, ho, hf, hs, BitVec.reduceToNat]

/-! ### The word that an instruction has -/

theorem encode_formsA (h : Hart) : ∀ e ∈ formsA h, ∀ f, encodeWenak (e.1 f) = some (encA e.2.1 e.2.2 f) := by
  intro e he f
  fin_cases he <;> rfl

theorem encode_formsI (h : Hart) : ∀ e ∈ formsI h, ∀ f, encodeWenak (e.1 f) = some (encI e.2 f) := by
  intro e he f
  fin_cases he <;> rfl

theorem encode_formsShift (h : Hart) : ∀ e ∈ formsShift h, ∀ f, encodeWenak (e.1 f) = some (encShift e.2 f) := by
  intro e he f
  fin_cases he <;> rfl

theorem encode_formsField (h : Hart) : ∀ e ∈ formsField h, ∀ f, encodeWenak (e.1 f) = some (encField e.2 f) := by
  intro e he f
  fin_cases he <;> rfl

theorem encode_formsM (h : Hart) : ∀ e ∈ formsM h, ∀ f, encodeWenak (e.1 f) = some (encM e.2 f) := by
  intro e he f
  fin_cases he <;> rfl

theorem encode_formsT (h : Hart) : ∀ e ∈ formsT h, ∀ f, encodeWenak (e.1 f) = some (encT e.2 f) := by
  intro e he f
  fin_cases he <;> rfl

theorem encode_formsB (h : Hart) : ∀ e ∈ formsB h, ∀ f, encodeWenak (e.1 f) = some (encB e.2 f) := by
  intro e he f
  fin_cases he <;> rfl

theorem encode_formsJ (h : Hart) : ∀ e ∈ formsJ h, ∀ f, encodeWenak (e.1 f) = some (encJ e.2 f) := by
  intro e he f
  fin_cases he <;> rfl

theorem encode_formsC (h : Hart) : ∀ e ∈ formsC h, ∀ f, encodeWenak (e.1 f) = some (encC e.2.1 e.2.2 f) := by
  intro e he f
  fin_cases he <;> rfl

theorem encode_formsS (h : Hart) : ∀ e ∈ formsS h, ∀ f, encodeWenak (e.1 f) = some (encS e.2 f) := by
  intro e he f
  fin_cases he <;> rfl

theorem encode_formsE (h : Hart) : ∀ e ∈ formsE h, ∀ f, encodeWenak (e.1 f) = some (encE e.2 f) := by
  intro e he f
  fin_cases he <;> rfl

theorem encode_formsInfo (h : Hart) : ∀ e ∈ formsInfo h, ∀ f, encodeWenak (e.1 f) = some (encInfo e.2 f) := by
  intro e he f
  fin_cases he <;> rfl

/-- Settles O19: the word of an instruction has the fields it was made of, and opcode and function name the instruction. -/
theorem instructionsDecodeFromTheirWords : Obligations.InstructionsDecodeFromTheirWords := by
  intro h
  refine ⟨?A, ?I, ?Shift, ?Field, ?M, ?T, ?B, ?J, ?C, ?Info, ?S, ?E, fun r => ⟨?_, rfl, ?_, rfl⟩⟩
  case A =>
    intro e he f
    obtain ⟨ho, hf, hd⟩ := fields_encA e.2.1 e.2.2 f
    exact ⟨(decode_formsA h _ e he ho hf).trans (by rw [hd]), encode_formsA h e he f⟩
  case I =>
    intro e he f
    obtain ⟨ho, hd⟩ := fields_encI e.2 f
    exact ⟨(decode_formsI h _ e he ho).trans (by rw [hd]), encode_formsI h e he f⟩
  case Shift =>
    intro e he f
    obtain ⟨ho, hf, hd⟩ := fields_encShift e.2 f
    exact ⟨(decode_formsShift h _ e he ho hf).trans (by rw [hd]), encode_formsShift h e he f⟩
  case Field =>
    intro e he f
    obtain ⟨ho, hf, hd⟩ := fields_encField e.2 f
    exact ⟨(decode_formsField h _ e he ho hf).trans (by rw [hd]), encode_formsField h e he f⟩
  case M =>
    intro e he f
    obtain ⟨ho, hd⟩ := fields_encM e.2 f
    exact ⟨(decode_formsM h _ e he ho).trans (by rw [hd]), encode_formsM h e he f⟩
  case T =>
    intro e he f
    obtain ⟨ho, hf, hd⟩ := fields_encT e.2 f
    exact ⟨(decode_formsT h _ e he ho hf).trans (by rw [hd]), encode_formsT h e he f⟩
  case B =>
    intro e he f
    obtain ⟨ho, hd⟩ := fields_encB e.2 f
    exact ⟨(decode_formsB h _ e he ho).trans (by rw [hd]), encode_formsB h e he f⟩
  case J =>
    intro e he f
    obtain ⟨ho, hd⟩ := fields_encJ e.2 f
    exact ⟨(decode_formsJ h _ e he ho).trans (by rw [hd]), encode_formsJ h e he f⟩
  case C =>
    intro e he f
    obtain ⟨ho, hf, hd⟩ := fields_encC e.2.1 e.2.2 f
    exact ⟨(decode_formsC h _ e he ho hf).trans (by rw [hd]), encode_formsC h e he f⟩
  case S =>
    intro e he f
    obtain ⟨ho, hf, hd⟩ := fields_encS e.2 f
    exact ⟨(decode_formsS h _ e he ho hf).trans (by rw [hd]), encode_formsS h e he f⟩
  case E =>
    intro e he f
    obtain ⟨ho, hf, hd⟩ := fields_encE e.2 f
    exact ⟨(decode_formsE h _ e he ho hf).trans (by rw [hd]), encode_formsE h e he f⟩
  case Info =>
    intro e he f hz
    obtain ⟨ho, hf, hs, hd⟩ := fields_encInfo e.2 f hz
    exact ⟨(decode_formsInfo h _ e he ho hf hs).trans (by rw [hd]), encode_formsInfo h e he f⟩
  · obtain ⟨ho, hr⟩ := fields_ill 0x00#6 r
    simp only [decodeWenak, ho, hr, BitVec.reduceToNat]
  · obtain ⟨ho, hr⟩ := fields_ill 0x3F#6 r
    simp only [decodeWenak, ho, hr, BitVec.reduceToNat]

/-! ### A word that decodes to an instruction is its word -/

section

variable {w : Word32}

theorem encA_of_fields {op : BitVec 6} {fn : BitVec 11} (ho : (fieldAt w 26 6).toNat = op.toNat)
    (hf : (fieldAt w 0 11).toNat = fn.toNat) : some (encA op fn (decA w)) = some w := by
  rw [← BitVec.eq_of_toNat_eq ho, ← BitVec.eq_of_toNat_eq hf, encA_fields]

theorem encI_of_fields {op : BitVec 6} (ho : (fieldAt w 26 6).toNat = op.toNat) : some (encI op (decI w)) = some w := by
  rw [← BitVec.eq_of_toNat_eq ho, encI_fields]

theorem encShift_of_fields {sel : BitVec 4} (ho : (fieldAt w 26 6).toNat = 0x0A) (hs : (fieldAt w 12 4).toNat = sel.toNat) :
    some (encShift sel (decShift w)) = some w := by
  rw [← BitVec.eq_of_toNat_eq hs, encShift_fields (BitVec.eq_of_toNat_eq ho)]

theorem encField_of_fields {sel : BitVec 2} (ho : (fieldAt w 26 6).toNat = 0x0B) (hs : (fieldAt w 14 2).toNat = sel.toNat) :
    some (encField sel (decField w)) = some w := by
  rw [← BitVec.eq_of_toNat_eq hs, encField_fields (BitVec.eq_of_toNat_eq ho)]

theorem encM_of_fields {op : BitVec 6} (ho : (fieldAt w 26 6).toNat = op.toNat) : some (encM op (decM w)) = some w := by
  rw [← BitVec.eq_of_toNat_eq ho, encM_fields]

theorem encT_of_fields {fn : BitVec 7} (ho : (fieldAt w 26 6).toNat = 0x1D) (hf : (fieldAt w 0 7).toNat = fn.toNat) :
    some (encT fn (decT w)) = some w := by
  rw [← BitVec.eq_of_toNat_eq hf, encT_fields (BitVec.eq_of_toNat_eq ho)]

theorem encB_of_fields {op : BitVec 6} (ho : (fieldAt w 26 6).toNat = op.toNat) : some (encB op (decB w)) = some w := by
  rw [← BitVec.eq_of_toNat_eq ho, encB_fields]

theorem encJ_of_fields {op : BitVec 6} (ho : (fieldAt w 26 6).toNat = op.toNat) : some (encJ op (decJ w)) = some w := by
  rw [← BitVec.eq_of_toNat_eq ho, encJ_fields]

theorem encC_of_fields {op : BitVec 6} {fn : BitVec 9} (ho : (fieldAt w 26 6).toNat = op.toNat)
    (hf : (fieldAt w 0 9).toNat = fn.toNat) : some (encC op fn (decC w)) = some w := by
  rw [← BitVec.eq_of_toNat_eq ho, ← BitVec.eq_of_toNat_eq hf, encC_fields]

theorem encInfo_of_fields {sel : BitVec 4} (ho : (fieldAt w 26 6).toNat = 0x2A) (hf : (fieldAt w 0 9).toNat = 0x07)
    (hs : (fieldAt w 14 4).toNat = sel.toNat) : some (encInfo sel (decInfo w)) = some w := by
  rw [← BitVec.eq_of_toNat_eq hs, encInfo_fields (BitVec.eq_of_toNat_eq ho) (BitVec.eq_of_toNat_eq hf)]

theorem encS_of_fields {fn : BitVec 4} (ho : (fieldAt w 26 6).toNat = 0x2C) (hf : (fieldAt w 12 4).toNat = fn.toNat) :
    some (encS fn (decS w)) = some w := by
  rw [← BitVec.eq_of_toNat_eq hf, encS_fields (BitVec.eq_of_toNat_eq ho)]

theorem encE_of_fields {fn : BitVec 4} (ho : (fieldAt w 26 6).toNat = 0x2E) (hf : (fieldAt w 8 4).toNat = fn.toNat) :
    some (encE fn (decE w)) = some w := by
  rw [← BitVec.eq_of_toNat_eq hf, encE_fields (BitVec.eq_of_toNat_eq ho)]

theorem ill_of_fields {op : BitVec 6} (ho : (fieldAt w 26 6).toNat = op.toNat) : some (op ++ fieldAt w 0 26) = some w := by
  rw [← BitVec.eq_of_toNat_eq ho]
  exact congrArg some (ill_fields w)

theorem encode_decodeOpa (h : Hart) (ho : (fieldAt w 26 6).toNat = 0x01) : encodeWenak (decodeOpa h w) = some w := by
  unfold decodeOpa
  split
  rotate_right
  · rfl
  all_goals exact encA_of_fields (op := 0x01) ho ‹_›

theorem encode_decodeShi (h : Hart) (ho : (fieldAt w 26 6).toNat = 0x0A) : encodeWenak (decodeShi h w) = some w := by
  unfold decodeShi
  split
  rotate_right
  · rfl
  all_goals exact encShift_of_fields ho ‹_›

theorem encode_decodeBfx (h : Hart) (ho : (fieldAt w 26 6).toNat = 0x0B) : encodeWenak (decodeBfx h w) = some w := by
  unfold decodeBfx
  split
  rotate_right
  · rfl
  all_goals exact encField_of_fields ho ‹_›

theorem encode_decodeAmo (h : Hart) (ho : (fieldAt w 26 6).toNat = 0x1D) : encodeWenak (decodeAmo h w) = some w := by
  unfold decodeAmo
  split
  rotate_right
  · rfl
  all_goals exact encT_of_fields ho ‹_›

theorem encode_decodeJrx (h : Hart) (ho : (fieldAt w 26 6).toNat = 0x28) : encodeWenak (decodeJrx h w) = some w := by
  unfold decodeJrx
  split
  rotate_right
  · rfl
  all_goals exact encA_of_fields (op := 0x28) ho ‹_›

theorem encode_decodeCxfer (h : Hart) (ho : (fieldAt w 26 6).toNat = 0x29) : encodeWenak (decodeCxfer h w) = some w := by
  unfold decodeCxfer
  split
  rotate_right
  · rfl
  all_goals exact encC_of_fields (op := 0x29) ho ‹_›

theorem encode_decodeInfo (h : Hart) (ho : (fieldAt w 26 6).toNat = 0x2A) (hf : (fieldAt w 0 9).toNat = 0x07) :
    encodeWenak (decodeInfo h w) = some w := by
  unfold decodeInfo
  split
  rotate_right
  · rfl
  all_goals exact encInfo_of_fields ho hf ‹_›

theorem encode_decodeCap (h : Hart) (ho : (fieldAt w 26 6).toNat = 0x2A) : encodeWenak (decodeCap h w) = some w := by
  unfold decodeCap
  split
  rotate_right
  · rfl
  case h_10 hf => exact encode_decodeInfo h ho hf
  all_goals exact encC_of_fields (op := 0x2A) ho ‹_›

theorem encode_decodeSys (h : Hart) (ho : (fieldAt w 26 6).toNat = 0x2C) : encodeWenak (decodeSys h w) = some w := by
  unfold decodeSys
  split
  rotate_right
  · rfl
  all_goals exact encS_of_fields ho ‹_›

theorem encode_decodeEng (h : Hart) (ho : (fieldAt w 26 6).toNat = 0x2E) : encodeWenak (decodeEng h w) = some w := by
  unfold decodeEng
  split
  rotate_right
  · rfl
  all_goals exact encE_of_fields ho ‹_›

end

/-- Settles O20: by the opcode, then the function or selector, the fields of the word make it again. -/
theorem everyWordEncodesBack : Obligations.EveryWordEncodesBack := by
  intro h w
  unfold decodeWenak
  split
  case h_1 ho => exact ill_of_fields ho
  case h_2 ho => exact encode_decodeOpa h ho
  case h_3 ho => exact encode_decodeShi h ho
  case h_4 ho => exact encode_decodeBfx h ho
  case h_5 ho => exact encode_decodeAmo h ho
  case h_6 ho => exact encode_decodeJrx h ho
  case h_7 ho => exact encode_decodeCxfer h ho
  case h_8 ho => exact encode_decodeCap h ho
  case h_9 ho => exact encode_decodeSys h ho
  case h_10 ho => exact encode_decodeEng h ho
  case h_11 ho => exact ill_of_fields ho
  case h_12 | h_13 | h_14 | h_15 | h_16 | h_17 | h_18 | h_19 => exact encI_of_fields ‹_›
  case h_20 | h_21 | h_22 | h_23 | h_24 | h_25 | h_26 | h_27 | h_28 | h_29 | h_30 | h_31 | h_32 => exact encM_of_fields ‹_›
  case h_33 | h_34 | h_35 | h_36 | h_37 | h_38 => exact encB_of_fields ‹_›
  case h_39 | h_40 => exact encJ_of_fields ‹_›
  case h_41 ho => exact encM_of_fields ho
  case h_42 => rfl

/-- Settles O21: each word is read by the decoding tables. -/
theorem wordsDecodeRight : Obligations.WordsDecodeRight := by
  refine fun h => ⟨rfl, rfl, rfl, rfl, rfl, rfl, rfl, rfl, rfl, rfl, rfl, rfl, rfl, fun w hw => ?_⟩
  fin_cases hw <;> rfl

end Sys2Proof
end

section
/-!
SUPPORT. Proofs/MemoryInstructions.lean: loads, stores and atomics (04 R107-R112): what a core reads of plain memory, and
the registers that a store leaves. O7, O8 and O9 are settled from these.
-/

namespace Sys2Proof

open Sys2Proof.Machine

/-! ### Plain memory -/

theorem tagged_range {s : State} {a : Nat} (h : s.tagged a = true) : 0x20000000 ≤ a ∧ a < 0x22000000 ∨ 0x100000000 ≤ a := by
  simp only [State.tagged, State.inDdr, State.inCore, inSram, Bool.or_eq_true, Bool.and_eq_true, decide_eq_true_eq] at h
  omega

theorem tagged_regions {s : State} {a : Nat} (h : s.tagged a = true) :
    inRegs a = false ∧ inFlash a = false ∧ s.readable a = true := by
  have hr := tagged_range h
  refine ⟨?_, ?_, ?_⟩
  · simp only [inRegs, Bool.and_eq_false_iff, decide_eq_false_iff_not]; omega
  · simp only [inFlash, Bool.and_eq_false_iff, decide_eq_false_iff_not]; omega
  · simp only [State.readable, Bool.or_assoc]
    simp only [State.tagged] at h
    rw [h, Bool.or_true, Bool.or_true]

theorem loadByte_high (s : State) {a : Nat} (h : 0x10000 ≤ a) : s.loadByte a = memGet s.mem a := by
  have hr : ¬inRom a = true := by simpa [inRom] using h
  unfold State.loadByte
  split
  · exact if_neg hr
  · rfl

theorem loadBytes_high (s : State) (n : Nat) : ∀ {a : Nat}, 0x10000 ≤ a →
    s.loadBytes a n = (List.range n).map fun i => memGet s.mem (a + i) := by
  induction n with
  | zero => intro a _; rfl
  | succ n ih =>
    intro a h
    rw [State.loadBytes, loadByte_high s h, ih (Nat.le_succ_of_le h), List.range_succ_eq_map, List.map_cons, List.map_map]
    simp [Function.comp_def, Nat.add_assoc, Nat.add_comm 1]

theorem prvRead_eq_map (m : List Host.Cell) (n : Nat) : ∀ a : Nat,
    prvRead m a n = (List.range n).map fun i => prvGet m (a + i) := by
  induction n with
  | zero => intro a; rfl
  | succ n ih =>
    intro a
    rw [prvRead, ih, List.range_succ_eq_map, List.map_cons, List.map_map]
    simp [Function.comp_def, Nat.add_assoc, Nat.add_comm 1]

theorem tagged_noted {h : Hart} {s u : State} (hu : Noted h s u) (a : Nat) : u.tagged a = s.tagged a := by
  have hs : u.sys = s.sys := by rw [(noted_same hu).eq]
  simp only [State.tagged, State.inDdr, State.inCore, coreBytes_noted hu, hs]

theorem damagedAt_noted {h : Hart} {s u : State} (hu : Noted h s u) (m : EccArray) (a n : Nat) :
    u.damagedAt m a n = s.damagedAt m a n := by
  rw [(noted_same hu).eq]; rfl

theorem holdsTags_noted {h : Hart} {s u : State} (hu : Noted h s u) (h' : Hart) (a : Nat) :
    u.holdsTags h' a = s.holdsTags h' a := by
  cases h' with
  | ctl n => exact tagged_noted hu a
  | svc k => rfl
  | wick => rfl

/-- A granted read of the shared SRAM or the DDR core region, with no damaged word, answers the bytes there. -/
theorem busRead_tagged {s : State} {a : Acc} {addr n : Nat} {ty : Access} (ht : s.tagged addr = true)
    (hm : a.master ≠ .wick) (hc : s.actCheck a addr ty = none) (hd : s.damagedAt .bus addr n = false) :
    s.busRead a addr n ty = (.ok (s.loadBytes addr n), s) := by
  obtain ⟨-, hf, hr⟩ := tagged_regions ht
  have hp : s.passes a addr ty = (.ok (), s) := by
    unfold State.passes
    split
    · rfl
    · exact enter_granted hm hc
  simp [State.busRead, hp, hr, hf, State.erasing, State.readNow, hd]

/-- A data read of plain memory answers what memory lists, the first byte the least significant. -/
theorem dataRead_plain {h : Hart} {s u : State} {p : BitVec 16} {ea n : Nat} (hu : Noted h s u) (hp : PlainRead h s p ea n) :
    u.dataRead h p ea n = (.ok (leNat ((List.range n).map fun i => listed h s (ea + i))), u) := by
  have he := (noted_same hu).eq
  cases h with
  | ctl k =>
    obtain ⟨ht, hb, hc, hd⟩ := hp
    have hb' : (u.core (.ctl k)).storeBuf = [] := by rw [State.core_of_fetched hu]; exact hb
    have hm : u.mem = s.mem := by rw [he]
    have hr := tagged_range ht
    rw [← tagged_noted hu] at ht
    rw [← actCheck_noted hu] at hc
    rw [← damagedAt_noted hu] at hd
    simp only [State.dataRead, regsFor, (tagged_regions ht).1, State.spaceRead,
      busRead_tagged (a := ⟨.ctl k, p⟩) ht nofun hc hd, hb', List.foldl_nil,
      loadBytes_high u n (show 0x10000 ≤ ea by omega), listed, hm, Bool.false_eq_true, if_false]
  | svc k =>
    obtain ⟨hin, hd⟩ := hp
    rw [← damagedAt_noted hu] at hd
    have hm : u.dsp = s.dsp := by rw [he]
    have hin' : (inProgStore ea || inCtxStore ea) = true := by simpa using hin
    simp only [State.dataRead, regsFor, State.spaceRead, hin', hd, prvRead_eq_map, listed, hm, Bool.false_eq_true,
      if_true, if_false]
  | wick =>
    obtain ⟨hin, hd⟩ := hp
    rw [← damagedAt_noted hu] at hd
    have hm : u.wck = s.wck := by rw [he]
    have hr : inWickRegs ea = false := by simp only [inWickRegs, Bool.and_eq_false_iff, decide_eq_false_iff_not]; omega
    simp only [State.dataRead, regsFor, hr, State.spaceRead, hin, hd, prvRead_eq_map, listed, hm, Bool.false_eq_true,
      if_true, if_false]

theorem regsFor_plain {h : Hart} {s : State} {p : BitVec 16} {ea n : Nat} (hp : PlainRead h s p ea n) :
    regsFor h ea = false := by
  cases h with
  | ctl k => exact (tagged_regions hp.1).1
  | svc k => rfl
  | wick =>
    have hin := hp.1
    simp only [regsFor, inWickRegs, Bool.and_eq_false_iff, decide_eq_false_iff_not]; omega

/-! ### Loads (04 R108, R110) -/

/-- A capability read that memory answers changes nothing but what a read of the flash array does. -/
theorem capRead_ok {u v : State} {h : Hart} {p : BitVec 16} {a : Nat} {x : Cap} (he : u.capRead h p a = (.ok x, v)) :
    Noted h u v := by
  unfold State.capRead at he
  split at he
  · simp at he
  · next hs =>
    split at he
    · simp at he
    · exact (Prod.mk.inj he).2 ▸ .of (State.spaceRead_ok hs)

theorem legalCapM {op : BitVec 6} {f : FmtM} (h : Hart) (c : Core) :
    (formCapM op f).legal h c = decide (f.rt.toNat < 16) := by
  cases h <;> simp [Form.legal, Form.inProfile, formCapM]

/-- Each load of 04 R108 is `loadOp` of its size and extension. -/
theorem exec_loadForms (h : Hart) (f : FmtM) (s : State) : ∀ e ∈ loadForms h, ∃ ext : Nat → Word,
    exec (e.1 f) s = s.execute h (formM e.2.1 f) (loadOp h f e.2.2.1 ext) ∧ ∀ v, ext v = BitVec.ofInt 64 (e.2.2.2 v) := by
  have hz : ∀ v : Nat, zext v = BitVec.ofInt 64 v := fun v => (BitVec.ofInt_natCast ..).symm
  simp only [loadForms, List.forall_mem_cons, List.not_mem_nil, false_implies, implies_true, and_true]
  exact ⟨⟨sext 8, rfl, fun v => sxn _ (by decide)⟩, ⟨zext, rfl, hz⟩, ⟨sext 16, rfl, fun v => sxn _ (by decide)⟩,
    ⟨zext, rfl, hz⟩, ⟨sext 32, rfl, fun v => sxn _ (by decide)⟩, ⟨zext, rfl, hz⟩, ⟨zext, rfl, hz⟩⟩

/-- Settles O7: the data loads are `load_ok` with the extension of each; LCAP makes its checks and reads a capability. -/
theorem loadsGive : Obligations.LoadsGive := by
  refine fun h f s hx => ⟨?_, fun ht => ?_, fun ht => ?_⟩
  · intro e he
    obtain ⟨ext, hi, hg⟩ := exec_loadForms h f s e he
    have key := load_ok hi hx hg
    dsimp only at key ⊢
    split
    · next hc => simpa only [hc] using key
    · next hc =>
      simp only [hc] at key
      refine ⟨fun hp => ?_, ?_⟩
      · rw [dataRead_plain (State.fetch_ok hx.2) hp] at key
        exact key.2 (regsFor_plain hp)
      · split
        · next hd => simpa only [hd] using key
        · next hd => simpa only [hd] using key
  · exact raises_illegal rfl hx rfl ((legalCapM ..).trans (decide_eq_false (Nat.not_lt.2 ht)))
  · have hl := (legalCapM (op := 0x17) (f := f) h (s.core h)).trans (decide_eq_true ht)
    dsimp only
    rw [← checkAccess_eq]
    split
    · next x hc =>
      refine raises_of rfl hx hl rfl fun u hu => ?_
      simp only [State.memAddr, State.cap_of_fetched hu, State.gpr_of_fetched hu]
      rw [hc]
    · next hc =>
      have hu := State.fetch_ok hx.2
      have key : exec (.lcap h f) s = _ := State.execute_fetched hx hl
      simp only [State.memAddr, State.cap_of_fetched hu, State.gpr_of_fetched hu] at key
      rw [hc] at key
      simp only at key
      split
      · next he => rw [he] at key; exact key
      · next x v he =>
        rw [he] at key
        have hv := hu.trans (capRead_ok he)
        refine ⟨_, key, ?_⟩
        have hcr : v.hasCore h := State.hasCore_of_fetched hv (State.begins_hasCore hx.1)
        rw [Res.finish, State.setCap, State.core_setCore hcr, State.setCore_setCore, State.core_of_fetched hv]
        exact State.retired_frame hx.1 hv _

/-! ### Stores (04 R108-R110, R112) -/

theorem capBytes_length (c : Cap) : (capBytes c).length = 16 := by simp [capBytes, leBytes_length]

theorem aligned_of_checkAccess {cb : Cap} {need : List Nat} {ea n : Nat} (h : cb.checkAccess need ea n = none) :
    ea % n = 0 := by
  by_contra hn
  unfold Cap.checkAccess at h
  split at h
  · cases h
  · split at h
    · cases h
    · cases h

theorem buffers_noted {h : Hart} {s u : State} (hu : Noted h s u) (ea : Nat) : u.buffers h ea = s.buffers h ea := by
  have hs : u.sys = s.sys := by rw [(noted_same hu).eq]
  simp only [State.buffers, State.core_of_fetched hu, hs]

theorem dataWrite_buffered {u : State} {h : Hart} {p : BitVec 16} {ea : Nat} {bs : List Byte} {tag : Bool}
    (hreg : regsFor h ea = false) (hb : u.buffers h ea = true) : u.dataWrite h p ea bs tag =
      (.ok (), u.setCore h { u.core h with
        storeBuf := (u.core h).storeBuf ++ [{ addr := ea, bytes := bs, tag := tag, perms := p }] }) := by
  simp only [State.dataWrite, hreg, hb, Bool.false_eq_true, if_false, if_true]

section

variable {i : Instr} {h : Hart} {s : State} {p : BitVec 16} {ea : Nat} {bs : List Byte} {tag : Bool}

/-- The instruction retires with what the write of its bytes leaves. -/
def RetiresWrite (i : Instr) (h : Hart) (s : State) (p : BitVec 16) (ea : Nat) (bs : List Byte) (tag : Bool) : Prop :=
  ∀ v, (s.fetch h).2.dataWrite h p ea bs tag = (.ok (), v) → exec i s = .next ((v.setCore h (v.core h).advance).retired h)

theorem RetiresWrite.stores (hw : RetiresWrite i h s p ea bs tag) (hx : Executes h s) (hr : Reaches h s p ea)
    (hreg : regsFor h ea = false) (hne : bs ≠ []) (ht : tag = true → ea % 16 = 0 ∧ bs.length = 16) :
    Completes i s (Stores h s · ea bs tag (s.core h).advance) :=
  have hd := dataWrite_stored (tag := tag) (bs := bs) (State.fetch_ok hx.2) hr hreg
  stores_of (hw _ hd) hx (State.fetch_ok hx.2) hr hne ht hd hreg

theorem RetiresWrite.buffers (hw : RetiresWrite i h s p ea bs tag) (hx : Executes h s) (hreg : regsFor h ea = false)
    (hb : s.buffers h ea = true) : Leaves i h s (Core.advance { s.core h with
      storeBuf := (s.core h).storeBuf ++ [{ addr := ea, bytes := bs, tag := tag, perms := p }] }) := by
  have hu := State.fetch_ok hx.2
  have hd := dataWrite_buffered (p := p) (bs := bs) (tag := tag) hreg ((buffers_noted hu ea).trans hb)
  refine ⟨_, hw _ hd, ?_⟩
  rw [State.core_setCore (State.hasCore_of_fetched hu (State.begins_hasCore hx.1)), State.setCore_setCore,
    State.core_of_fetched hu]
  exact State.retired_frame hx.1 hu _

end

/-- Each store of 04 R108 is `storeOp` of its size. -/
theorem exec_storeForms (h : Hart) (f : FmtM) (s : State) : ∀ e ∈ storeForms h,
    exec (e.1 f) s = s.execute h (formM e.2.1 f) (storeOp h f e.2.2) ∧ 0 < e.2.2 := by
  simp only [storeForms, List.forall_mem_cons, List.not_mem_nil, false_implies, implies_true, and_true]
  exact ⟨⟨rfl, by decide⟩, ⟨rfl, by decide⟩, ⟨rfl, by decide⟩, ⟨rfl, by decide⟩⟩

/-- Settles O8: once its checks pass, a store is the write of its bytes (`RetiresWrite`), which reaches memory or joins the
buffer. -/
theorem storesPut : Obligations.StoresPut := by
  refine fun h f s hx => ⟨fun e he => ?_, fun ht => ?_, fun ht => ?_⟩
  · obtain ⟨hi, hn⟩ := exec_storeForms h f s e he
    dsimp only
    rw [← checkAccess_eq]
    split
    · next hc =>
      refine raises_of hi hx (legalM ..) rfl fun u hu => ?_
      simp only [storeOp, State.memAddr, State.cap_of_fetched hu, State.gpr_of_fetched hu]
      rw [hc]
    · next hc =>
      have hu := State.fetch_ok hx.2
      have key := hi.trans (State.execute_fetched hx (legalM ..))
      simp only [storeOp, State.memAddr, State.cap_of_fetched hu, State.gpr_of_fetched hu] at key
      rw [hc] at key
      simp only at key
      have hw : RetiresWrite (e.1 f) h s (s.cap h f.cb).perms (effAddr (s.cap h f.cb) (s.gpr h f.ra) f.imm)
          (leBytes e.2.2 (s.gpr h f.rt).toNat) false := fun v hv => by rw [hv] at key; exact key
      refine ⟨fun hr hreg => ?_, hw.buffers hx, ?_⟩
      · exact hw.stores hx hr hreg (List.ne_nil_of_length_pos (by rw [leBytes_length]; exact hn)) (by simp)
      · split
        · next hd => rw [hd] at key; exact key
        · next hd => exact hw _ hd
  · exact raises_illegal rfl hx rfl ((legalCapM ..).trans (decide_eq_false (Nat.not_lt.2 ht)))
  · have hl := (legalCapM (op := 0x1C) (f := f) h (s.core h)).trans (decide_eq_true ht)
    dsimp only
    rw [← checkAccess_eq]
    split
    · next hc =>
      refine raises_of rfl hx hl rfl fun u hu => ?_
      simp only [State.memAddr, State.cap_of_fetched hu, State.gpr_of_fetched hu]
      rw [hc]
    · next hc =>
      split
      · next hb =>
        refine raises_of rfl hx hl rfl fun u hu => ?_
        simp only [State.memAddr, State.cap_of_fetched hu, State.gpr_of_fetched hu, holdsTags_noted hu]
        rw [hc]
        simp only [hb, Bool.not_false, Bool.and_self, if_true]
        rfl
      · next hb =>
        have hu := State.fetch_ok hx.2
        have key : exec (.scap h f) s = _ := State.execute_fetched hx hl
        simp only [State.memAddr, State.cap_of_fetched hu, State.gpr_of_fetched hu, holdsTags_noted hu] at key
        rw [hc] at key
        simp only at key
        rw [if_neg (by simpa using hb)] at key
        have hw : RetiresWrite (.scap h f) h s (s.cap h f.cb).perms (effAddr (s.cap h f.cb) (s.gpr h f.ra) f.imm)
            (capBytes (s.cap h (f.rt.setWidth 4))) (s.cap h (f.rt.setWidth 4)).tag :=
          fun v hv => by rw [hv] at key; exact key
        refine ⟨fun hr hreg => ?_, ?_⟩
        · refine hw.stores hx hr hreg (List.ne_nil_of_length_pos (by rw [capBytes_length]; decide)) fun _ =>
            ⟨aligned_of_checkAccess hc, capBytes_length _⟩
        · split
          · next hd => rw [hd] at key; exact key
          · next hd => exact hw _ hd

/-! ### Atomics (04 R111) -/

theorem hasCore_ctl (s : State) (n : Fin 16) : s.hasCore (.ctl n) := fun _ hk => nomatch hk

/-- A control core's instruction retires that has put bytes into memory and changed its own registers. -/
theorem retired_storeBytes {s u : State} {n : Fin 16} {ea : Nat} {bs : List Byte} (hx : Executes (.ctl n) s)
    (hu : Noted (.ctl n) s u) (hne : bs ≠ []) (c : Core) :
    Stores (.ctl n) s (((u.storeBytes ea bs).setCore (.ctl n) c).retired (.ctl n)) ea bs false c := by
  have hs : SameAfter (.ctl n) (s.storeBytes ea bs) (u.storeBytes ea bs) := by
    have he := (noted_same hu).eq
    rw [show u.storeBytes ea bs = { s.storeBytes ea bs with regs := u.regs, flc := u.flc } by rw [he]; rfl]
    exact (noted_same hu).lift rfl rfl rfl
  have fr := State.retired_frame_of (s := s.storeBytes ea bs) (hasCore_ctl _ _)
    (fun e he => (State.runs_counts hx.1 e he :)) hs c
  generalize ((u.storeBytes ea bs).setCore (.ctl n) c).retired (.ctl n) = t at fr ⊢
  have hmem : t.mem = memWrite s.mem ea bs := by rw [fr.rest]; rfl
  have htags : t.tags = (s.storeBytes ea bs).tags := by rw [fr.rest]
  have hdam : t.damaged = healed s.damaged .bus ea bs.length := by rw [fr.rest]; rfl
  have hdsp : t.dsp.mem = s.dsp.mem ∧ t.dsp.tags = s.dsp.tags := by rw [fr.rest]; exact ⟨rfl, rfl⟩
  have hwck : t.wck = s.wck := by rw [fr.rest]; rfl
  refine { bytes := fun a => ?_, tags := fun a => ?_, svcBytes := fun a => ?_, svcTags := fun a => ?_,
           wickBytes := fun a => ?_, wickTags := fun a => ?_, damaged := hdam, only := ?_, core := fr.core }
  · rw [hmem, memGet_memWrite]; simp [isCtl]
  · rw [htags, State.tagAt_storeBytes s ea hne]; simp [isCtl]
  · simp [hdsp.1, isService]
  · simp [hdsp.2, isService]
  · simp [hwck]
  · simp [hwck]
  · rw [hmem, htags, hdam, hdsp.1, hdsp.2, hwck]
    exact fr.toCoreOnly

theorem core_storeBytes (s : State) (ea : Nat) (bs : List Byte) (h : Hart) : (s.storeBytes ea bs).core h = s.core h := by
  cases h <;> rfl

theorem legalAmo {fn : BitVec 7} {f : FmtT} (h : Hart) (c : Core) : (formAmo fn f).legal h c = isCtl h := by
  cases h <;> rfl

/-- Each atomic of 04 R111 is `amoOp` of its update. -/
theorem exec_atomicForms (h : Hart) (f : FmtT) (s : State) : ∀ e ∈ atomicForms h,
    exec (e.1 f) s = s.execute h (formAmo e.2.1 f) (amoOp h f e.2.2) := by
  simp only [atomicForms, List.forall_mem_cons, List.not_mem_nil, false_implies, implies_true, and_true]
  exact ⟨rfl, rfl, rfl, rfl, rfl⟩

/-- The read-modify-write of a granted access: where memory is tagged it answers the old value and stores the new one,
unless a word is damaged; elsewhere it fails. -/
theorem rmw_granted {u : State} {n : Fin 16} {p : BitVec 16} {ea : Nat} (upd : Word → Word)
    (hc : u.actCheck ⟨.ctl n, p⟩ ea .rmw = none) : u.rmw (.ctl n) p ea upd =
      if (u.tagged ea && u.damagedAt .bus ea 8) = true then (.error .ecc, u.eccRead ea 8)
      else if u.tagged ea = true then (.ok (BitVec.ofNat 64 (leNat (u.loadBytes ea 8))),
        u.storeBytes ea (leBytes 8 (upd (BitVec.ofNat 64 (leNat (u.loadBytes ea 8)))).toNat))
      else (.error .target, u) := by
  simp only [State.rmw, accOf, enter_granted (a := ⟨.ctl n, p⟩) nofun hc]

theorem loadBytes_noted {h : Hart} {s u : State} (hu : Noted h s u) (a n : Nat) : u.loadBytes a n = s.loadBytes a n := by
  induction n generalizing a with
  | zero => rfl
  | succ n ih =>
    rw [State.loadBytes, State.loadBytes, ih, (noted_same hu).eq]
    rfl

/-- Settles O9: an atomic on a control core is its read-modify-write (`rmw_granted`), and has no form on another core. -/
theorem atomicsUpdate : Obligations.AtomicsUpdate := by
  refine ⟨fun n f s hx hb e he => ?_, fun h f s hx hc e he => ?_⟩
  · have hi := exec_atomicForms (.ctl n) f s e he
    dsimp only
    rw [← checkAccess_eq]
    split
    · next hk =>
      refine raises_of hi hx (legalAmo ..) rfl fun u hu => ?_
      simp only [amoOp, State.cap_of_fetched hu, State.gpr_of_fetched hu]
      rw [hk]
    · next hk =>
      intro hact
      have hu := State.fetch_ok hx.2
      have hsettle : ((s.fetch (.ctl n)).2).settle (.ctl n) = (s.fetch (.ctl n)).2 := by
        simp only [State.settle, State.drainBuf, State.core_of_fetched hu, hb]
        rfl
      have key := hi.trans (State.execute_fetched hx (legalAmo ..))
      simp only [amoOp, State.cap_of_fetched hu, State.gpr_of_fetched hu, hsettle] at key
      rw [hk] at key
      simp only [rmw_granted _ ((actCheck_noted hu ..).trans hact), tagged_noted hu, damagedAt_noted hu,
        loadBytes_noted hu] at key
      split
      · next hd =>
        rw [if_pos (by simpa using hd)] at key
        exact ⟨_, hu, key⟩
      · next hd =>
        rw [if_neg (by simpa using hd)] at key
        split
        · next ht =>
          rw [if_pos ht] at key
          refine ⟨_, key, ?_⟩
          rw [Res.finish, State.setGpr, State.core_setCore (hasCore_ctl _ _), State.setCore_setCore, core_storeBytes,
            State.core_of_fetched hu]
          exact retired_storeBytes hx hu (List.ne_nil_of_length_pos (by rw [leBytes_length]; decide)) _
        · next ht =>
          rw [if_neg ht] at key
          exact ⟨_, hu, key⟩
  · exact raises_illegal (exec_atomicForms h f s e he) hx rfl ((legalAmo ..).trans hc)

end Sys2Proof
end

section
/-!
SUPPORT. Proofs/TableLookup.lean: TLI (04 R134-R137): the words of its table that load, the first that does not, and its
arithmetic. O10 is settled from these.
-/

namespace Sys2Proof

open Sys2Proof.Machine

/-! ### The words of a table -/

/-- The word at `a` loads through `ct` as `v`. -/
def WordLoads (h : Hart) (s : State) (ct : Cap) (a v : Nat) : Prop :=
  accessFault ct [pR] a 4 = none ∧ Reads h s ct.perms a 4 v

/-- Instruction `i` ends with what stops the load of the word at `a`: a check that it fails, or the bus error of every read
of it. -/
structure WordFails (i : Instr) (h : Hart) (s : State) (w : Word32) (ct : Cap) (a : Nat) : Prop where
  fault : ∀ e, accessFault ct [pR] a 4 = some e → Raises i h s w e
  bus : accessFault ct [pR] a 4 = none → ∀ b, (∀ u, Noted h s u → (u.dataRead h ct.perms a 4).1 = .error b) →
    ∃ u, Noted h s u ∧
      exec i s = .next ((u.dataRead h ct.perms a 4).2.raiseExc h w (excBus b (BitVec.ofNat 64 a)))

section

variable {h : Hart} {s : State} {ct : Cap}

theorem tableWord_loads {u : State} {a v : Nat} (hu : Noted h s u) (hl : WordLoads h s ct a v) :
    ∃ t, Noted h s t ∧ u.tableWord h ct a = (.ok v, t) := by
  obtain ⟨hk, hr⟩ := hl
  obtain ⟨t, ht, hd⟩ := hr u hu
  refine ⟨t, ht, ?_⟩
  simp only [State.tableWord, checkAccess_eq, hk, hd]

theorem tableWords_load {n : Nat} : ∀ {a : Nat} {w : Nat → Nat} {u : State}, Noted h s u →
    (∀ i < n, WordLoads h s ct (a + 4 * i) (w i)) →
    ∃ t, Noted h s t ∧ u.tableWords h ct a n = (.ok ((List.range n).map w), t) := by
  induction n with
  | zero => exact fun hu _ => ⟨_, hu, rfl⟩
  | succ n ih =>
    intro a w u hu hl
    obtain ⟨t, ht, hw⟩ := tableWord_loads hu (hl 0 (Nat.succ_pos n))
    obtain ⟨v, hv, hws⟩ := ih (a := a + 4) (w := fun i => w (i + 1)) ht fun i hi => by
      rw [Nat.add_assoc, Nat.add_comm 4, ← Nat.mul_succ]
      exact hl (i + 1) (Nat.succ_lt_succ hi)
    refine ⟨v, hv, ?_⟩
    rw [Nat.mul_zero, Nat.add_zero] at hw
    rw [State.tableWords, hw]
    simp only [hws, List.range_succ_eq_map, List.map_cons, List.map_map]
    rfl

/-- Where the words before it load, the word that does not ends the loads. -/
theorem tableWords_stop {k : Nat} : ∀ {n a : Nat} {w : Nat → Nat} {u : State}, k < n → Noted h s u →
    (∀ i < k, WordLoads h s ct (a + 4 * i) (w i)) →
    ∃ t, Noted h s t ∧ ∀ x v, t.tableWord h ct (a + 4 * k) = (.error x, v) → u.tableWords h ct a n = (.error x, v) := by
  induction k with
  | zero =>
    intro n a w u hn hu _
    obtain ⟨m, rfl⟩ := Nat.exists_eq_succ_of_ne_zero (Nat.pos_iff_ne_zero.1 hn)
    refine ⟨u, hu, fun x v hw => ?_⟩
    rw [Nat.mul_zero, Nat.add_zero] at hw
    rw [State.tableWords, hw]
  | succ k ih =>
    intro n a w u hn hu hl
    obtain ⟨m, rfl⟩ := Nat.exists_eq_succ_of_ne_zero (Nat.ne_zero_of_lt hn)
    obtain ⟨t, ht, hw⟩ := tableWord_loads hu (hl 0 (Nat.succ_pos k))
    obtain ⟨v, hv, hstop⟩ := ih (n := m) (a := a + 4) (w := fun i => w (i + 1)) (Nat.lt_of_succ_lt_succ hn) ht fun i hi => by
      rw [Nat.add_assoc, Nat.add_comm 4, ← Nat.mul_succ]
      exact hl (i + 1) (Nat.succ_lt_succ hi)
    refine ⟨v, hv, fun x y hy => ?_⟩
    rw [Nat.mul_zero, Nat.add_zero] at hw
    rw [State.tableWords, hw]
    rw [Nat.mul_succ, Nat.add_comm (4 * k), ← Nat.add_assoc] at hy
    simp only [hstop x y hy]

/-- An instruction that raises what a word's load raises. -/
theorem wordFails_of {i : Instr} {f : Form} {body : State → Res} {a : Nat} {w : Word32} (hi : exec i s = s.execute h f body)
    (hx : Executes h s) (hl : f.legal h (s.core h) = true) (hw : f.word = w)
    (hb : ∀ u, Noted h s u → ∃ t, Noted h s t ∧ ∀ x v, t.tableWord h ct a = (.error x, v) → body u = .raises x v) :
    WordFails i h s w ct a := by
  subst hw
  obtain ⟨u, hu, he⟩ := State.execute_of (body := body) hx hl
  obtain ⟨t, ht, hstop⟩ := hb u hu
  refine ⟨fun e hk => ⟨t, ht, ?_⟩, fun hk b herr => ⟨t, ht, ?_⟩⟩
  · rw [hi, he, hstop e t (by simp only [State.tableWord, checkAccess_eq, hk]), Res.finish]
  · have hd := herr t ht
    rw [hi, he, hstop (excBus b (BitVec.ofNat 64 a)) (t.dataRead h ct.perms a 4).2 ?_, Res.finish]
    simp only [State.tableWord, checkAccess_eq, hk]
    generalize t.dataRead h ct.perms a 4 = r at hd ⊢
    obtain ⟨r1, r2⟩ := r
    dsimp only at hd
    simp only [hd]

end

/-! ### Points and value (04 R136) -/

/-- The points a lookup loads. -/
theorem tablePoints_eq (x x0 step : Int) (n : Nat) : tablePoints x x0 step n =
    (List.range (if (tliPlace x x0 step n).two = true then 2 else 1)).map ((tliPlace x x0 step n).first + ·) := by
  unfold tablePoints tliPlace
  split
  · rfl
  · dsimp only
    split <;> rfl

/-- Rounding a quotient towards plus infinity. -/
theorem ceil_intCast_div (a : Int) {d : Int} (hd : 0 ≤ d) : ⌈(a : ℚ) / (d : ℚ)⌉ = -(-a / d) := by
  obtain ⟨n, rfl⟩ := Int.eq_ofNat_of_zero_le hd
  exact Rat.ceil_intCast_div_natCast a n

theorem tliResult_eq (x x0 : Int) {step : Int} (n : Nat) (w : Nat → Nat) (hs : 0 < step) :
    tliResult (tliPlace x x0 step n) step
        ((List.range (if (tliPlace x x0 step n).two = true then 2 else 1)).map fun j =>
          w ((tliPlace x x0 step n).first + j)) =
      BitVec.ofNat 64 ((BitVec.ofInt 32 (tableValue x x0 step n fun i => q16 (w i)).1).toNat +
        (if (tableValue x x0 step n fun i => q16 (w i)).2.1 then 2 ^ 32 else 0) +
        (if (tableValue x x0 step n fun i => q16 (w i)).2.2 then 2 ^ 33 else 0)) := by
  unfold tableValue tliPlace
  split
  · rfl
  · dsimp only
    split
    · rfl
    · rw [ceil_intCast_div _ hs.le]
      rfl

theorem tableOk_iff (w0 w1 w2 w3 : Nat) : tableOk w0 w1 w2 w3 = true ↔
    w0 / 2 ^ 24 = 1 ∧ w0 / 512 % 2 ^ 15 = 0 ∧ w3 = 0 ∧ 2 ≤ w0 % 512 ∧ w0 % 512 ≤ 256 ∧ 0 < q16 w2 ∧
      q16 w1 + ((w0 % 512 : Nat) - 1) * q16 w2 ≤ 0x7FFFFFFF := by
  simp only [tableOk, Bool.and_eq_true, decide_eq_true_eq, and_assoc]

/-! ### TLI (04 R134-R137) -/

theorem legalTli {f : FmtM} (h : Hart) (c : Core) :
    Form.legal { word := encM 0x2D f, svc := false } h c = !isService h := by
  cases h <;> rfl

section

variable {h : Hart} {f : FmtM} {s : State} {w : Nat → Nat}

/-- The base of the table that the instruction names. -/
def tableAt (h : Hart) (f : FmtM) (s : State) : Nat := (s.cap h f.cb).base.toNat + 4 * f.imm.toNat

/-- Where the lookup falls, by the header words. -/
def lookupPlace (h : Hart) (f : FmtM) (s : State) (w : Nat → Nat) : TliPlace :=
  tliPlace ((s.gpr h f.ra).setWidth 32).toInt (q16 (w 1)) (q16 (w 2)) (w 0 % 512)

theorem tli_header_fails (hx : Executes h s) (hs : isService h = false) {i : Nat} (hi : i < 4)
    (hl : ∀ j < i, WordLoads h s (s.cap h f.cb) (tableAt h f s + 4 * j) (w j)) :
    WordFails (.tli h f) h s (encM 0x2D f) (s.cap h f.cb) (tableAt h f s + 4 * i) := by
  refine wordFails_of (i := .tli h f) rfl hx ((legalTli ..).trans (by rw [hs]; rfl)) rfl fun u hu => ?_
  obtain ⟨t, ht, hstop⟩ := tableWords_stop hi hu hl
  refine ⟨t, ht, fun x v hw => ?_⟩
  have := hstop x v hw
  simp only [tableAt] at this
  simp only [State.cap_of_fetched hu, this]

theorem tli_malformed (hx : Executes h s) (hs : isService h = false)
    (hl : ∀ j < 4, WordLoads h s (s.cap h f.cb) (tableAt h f s + 4 * j) (w j))
    (hok : tableOk (w 0) (w 1) (w 2) (w 3) = false) :
    Raises (.tli h f) h s (encM 0x2D f) { cause := 0x0A, addr := BitVec.ofNat 64 (tableAt h f s) } := by
  refine raises_after (i := .tli h f) rfl hx ((legalTli ..).trans (by rw [hs]; rfl)) rfl fun u hu => ?_
  obtain ⟨t, ht, hw⟩ := tableWords_load hu hl
  refine ⟨t, ht, ?_⟩
  simp only [tableAt] at hw
  simp only [State.cap_of_fetched hu, hw]
  exact if_pos (by simpa using hok)

/-- How many points the lookup loads. -/
def lookupPoints (h : Hart) (f : FmtM) (s : State) (w : Nat → Nat) : Nat := if (lookupPlace h f s w).two = true then 2 else 1

theorem pointAt_eq (a first k : Nat) : a + 0x10 + 4 * first + 4 * k = a + 4 * (4 + (first + k)) := by omega

theorem tli_point_fails (hx : Executes h s) (hs : isService h = false)
    (hl : ∀ j < 4, WordLoads h s (s.cap h f.cb) (tableAt h f s + 4 * j) (w j)) (hok : tableOk (w 0) (w 1) (w 2) (w 3) = true)
    {k : Nat} (hk : k < lookupPoints h f s w)
    (hp : ∀ j < k, WordLoads h s (s.cap h f.cb) (tableAt h f s + 4 * (4 + ((lookupPlace h f s w).first + j)))
      (w (4 + ((lookupPlace h f s w).first + j)))) :
    WordFails (.tli h f) h s (encM 0x2D f) (s.cap h f.cb) (tableAt h f s + 4 * (4 + ((lookupPlace h f s w).first + k))) := by
  refine wordFails_of (i := .tli h f) rfl hx ((legalTli ..).trans (by rw [hs]; rfl)) rfl fun u hu => ?_
  obtain ⟨t, ht, hw⟩ := tableWords_load hu hl
  rw [show (List.range 4).map w = [w 0, w 1, w 2, w 3] from rfl] at hw
  obtain ⟨v, hv, hstop⟩ := tableWords_stop (a := tableAt h f s + 0x10 + 4 * (lookupPlace h f s w).first)
    (w := fun j => w (4 + ((lookupPlace h f s w).first + j))) hk ht fun j hj => by rw [pointAt_eq]; exact hp j hj
  refine ⟨v, hv, fun x y hy => ?_⟩
  rw [← pointAt_eq] at hy
  have hrun := hstop x y hy
  simp only [tableAt, lookupPoints, lookupPlace] at hw hrun
  simp only [State.cap_of_fetched hu, State.gpr_of_fetched ht, hw]
  refine (if_neg (by simpa using hok)).trans ?_
  generalize hX : t.tableWords .. = X
  rw [hX.symm.trans hrun]

theorem tli_gives (hx : Executes h s) (hs : isService h = false)
    (hl : ∀ j < 4, WordLoads h s (s.cap h f.cb) (tableAt h f s + 4 * j) (w j)) (hok : tableOk (w 0) (w 1) (w 2) (w 3) = true)
    (hp : ∀ j < lookupPoints h f s w, WordLoads h s (s.cap h f.cb)
      (tableAt h f s + 4 * (4 + ((lookupPlace h f s w).first + j)))
      (w (4 + ((lookupPlace h f s w).first + j)))) :
    Gives (.tli h f) h s f.rt (tliResult (lookupPlace h f s w) (q16 (w 2))
      ((List.range (lookupPoints h f s w)).map fun j => w (4 + ((lookupPlace h f s w).first + j)))) := by
  refine gives_after (i := .tli h f) rfl hx ((legalTli ..).trans (by rw [hs]; rfl)) fun u hu => ?_
  obtain ⟨t, ht, hw⟩ := tableWords_load hu hl
  rw [show (List.range 4).map w = [w 0, w 1, w 2, w 3] from rfl] at hw
  obtain ⟨v, hv, hws⟩ := tableWords_load (a := tableAt h f s + 0x10 + 4 * (lookupPlace h f s w).first)
    (w := fun j => w (4 + ((lookupPlace h f s w).first + j))) ht fun j hj => by rw [pointAt_eq]; exact hp j hj
  refine ⟨v, hv, ?_⟩
  simp only [tableAt, lookupPoints, lookupPlace] at hw hws
  simp only [State.cap_of_fetched hu, State.gpr_of_fetched ht, hw]
  refine (if_neg (by simpa using hok)).trans ?_
  generalize hX : t.tableWords .. = X
  rw [hX.symm.trans hws]
  rfl

end

/-- Settles O10: the header's words load or the first that does not ends the instruction; of a well-formed header the points
do likewise, and the value is `tliResult_eq`. -/
theorem tableLookupGives : Obligations.TableLookupGives := by
  refine ⟨fun h f s hx hs => raises_illegal rfl hx rfl ((legalTli ..).trans (by rw [hs]; rfl)), ?_⟩
  intro h f s w hx hs ct ta q n x loads fails
  have hfails : ∀ {i}, WordFails (.tli h f) h s (encM 0x2D f) ct (ta + 4 * i) → fails i := by
    intro i hf
    dsimp only [fails]
    split
    · next e he => exact hf.fault e he
    · next he => exact hf.bus he
  refine ⟨fun i hi hl => hfails (tli_header_fails hx hs hi hl), fun hl => ?_⟩
  have hiff := tableOk_iff (w 0) (w 1) (w 2) (w 3)
  split
  · next hok =>
    have hok' := hiff.2 hok
    have hps : tablePoints x (q (w 1)) (q (w 2)) n =
        (List.range (lookupPoints h f s w)).map ((lookupPlace h f s w).first + ·) := tablePoints_eq ..
    have hget : ∀ k < lookupPoints h f s w, (tablePoints x (q (w 1)) (q (w 2)) n).getD k 0 =
      (lookupPlace h f s w).first + k := by
      intro k hk
      rw [hps]
      simp [List.getD_eq_getElem?_getD, hk]
    have hlen : (tablePoints x (q (w 1)) (q (w 2)) n).length = lookupPoints h f s w := by rw [hps]; simp
    refine ⟨fun k hk hj => ?_, fun hp => ?_⟩
    · rw [hlen] at hk
      rw [hget k hk]
      refine hfails (tli_point_fails hx hs hl hok' hk fun j hjk => ?_)
      rw [← hget j (hjk.trans hk)]
      exact hj j hjk
    · have hg := tli_gives hx hs hl hok' fun j hj => hp _ (by rw [hps]; exact List.mem_map.2 ⟨j, List.mem_range.2 hj, rfl⟩)
      have hr := tliResult_eq x (q (w 1)) n (fun i => w (4 + i)) (step := q (w 2)) hok.2.2.2.2.2.1
      exact (congrArg (Gives (.tli h f) h s f.rt) hr).mp hg
  · next hok => exact tli_malformed hx hs hl (Bool.eq_false_iff.2 (hiff.not.2 hok))

end Sys2Proof
end

section
/-!
SUPPORT. Proofs/Jumps.lean: branches and jumps (04 R113-R118) and the domain switch (04 R121; 05 R148, R149). O11 and O12
are settled from these.
-/

namespace Sys2Proof

open Sys2Proof.Machine

/-! ### Branches and jumps (04 R113-R118) -/

section

variable {i : Instr} {h : Hart} {s : State} {fm : Form} {body : State → Res} {w : Word32}

theorem jumpTo_raises {u : State} {link : Option (BitVec 5)} {T : Int} {x : Exc} (hu : Noted h s u)
    (hc : checkTarget (s.core h).pcc T = some x) : jumpTo h link T u = .raises x u := by
  simp only [jumpTo, State.core_of_fetched hu, hc]

/-- An instruction that jumps to `T` makes the checks of 04 R115, and then branches. -/
theorem jumpsTo_of {link : Option (BitVec 5)} {T : Int} (hi : exec i s = s.execute h fm body) (hx : Executes h s)
    (hl : fm.legal h (s.core h) = true) (hw : fm.word = w) (hb : ∀ u, Noted h s u → body u = jumpTo h link T u) :
    JumpsTo i h s w link T := by
  dsimp only [JumpsTo]
  split
  · next hm => exact raises_of hi hx hl hw fun u hu => (hb u hu).trans (jumpTo_raises hu (if_pos hm))
  · next hm =>
    split
    · next hr =>
      exact raises_of hi hx hl hw fun u hu => (hb u hu).trans (jumpTo_raises hu ((if_neg hm).trans (if_pos hr)))
    · next hr =>
      have hc : checkTarget (s.core h).pcc T = none := (if_neg hm).trans (if_neg hr)
      cases link with
      | none => exact leaves_jump hi hx hl fun u hu => by simp only [hb u hu, jumpTo, State.core_of_fetched hu, hc]
      | some rd =>
        exact leaves_branch hi hx hl fun u hu => by
          simp only [hb u hu, jumpTo, State.core_of_fetched hu, hc, State.setGpr]

end

/-- The form of a branch or jump is legal outside a delay slot, where its fields are right and the profile has it. -/
theorem legal_jump {w : Word32} {ok svc : Bool} {h : Hart} {c : Core} (hs : c.slot = none) (hok : ok = true)
    (hp : svc = true ∨ isService h = false) : Form.legal { word := w, ok := ok, svc := svc, slot := false } h c = true := by
  subst hok
  cases h <;> simp_all [Form.legal, Form.inProfile, isService]

/-- And in no other case. -/
theorem illegal_jump {w : Word32} {ok svc : Bool} {h : Hart} {c : Core}
    (hb : c.slot ≠ none ∨ ok = false ∨ svc = false ∧ isService h = true) :
    Form.legal { word := w, ok := ok, svc := svc, slot := false } h c = false := by
  rcases hb with hb | rfl | ⟨rfl, hb⟩
  · simp [Form.legal, Option.isNone_eq_false_iff.2 (Option.isSome_iff_ne_none.2 hb)]
  · rfl
  · cases h <;> simp_all [Form.legal, Form.inProfile, isService]

/-- On a service core the displacement is 2 or more (04 R118). -/
theorem displaced_eq_true {n : Nat} {h : Hart} {d : BitVec n} (hd : isService h = true → 2 ≤ d.toInt) :
    (!isService h || decide (2 ≤ d.toInt)) = true := by
  cases hs : isService h
  · rfl
  · exact decide_eq_true (hd hs)

theorem displaced_eq_false {n : Nat} {h : Hart} {d : BitVec n} (hd : isService h = true ∧ d.toInt < 2) :
    (!isService h || decide (2 ≤ d.toInt)) = false := by
  rw [hd.1, decide_eq_false (Int.not_le.2 hd.2)]
  rfl

theorem ofInt_pc_add_eight (pc : BitVec 48) : BitVec.ofInt 48 ((pc.toNat : Int) + 8) = pc + 8 := by
  rw [BitVec.ofInt_add, BitVec.ofInt_natCast, BitVec.ofNat_toNat, BitVec.setWidth_eq]
  rfl

/-- Each branch of 04 R113 is `branchIf` of its condition. -/
theorem exec_branchForms (h : Hart) (f : FmtB) (s : State) : ∀ e ∈ branchForms h, ∃ p : Word → Word → Bool,
    exec (e.1 f) s = s.execute h (formB h e.2.1 f) (branchIf h f p) ∧ ∀ a b, p a b = true ↔ e.2.2 a b := by
  simp only [branchForms, List.forall_mem_cons, List.not_mem_nil, false_implies, implies_true, and_true]
  refine ⟨⟨_, rfl, fun a b => ?_⟩, ⟨_, rfl, fun a b => ?_⟩, ⟨_, rfl, fun a b => ?_⟩, ⟨_, rfl, fun a b => ?_⟩,
    ⟨_, rfl, fun a b => ?_⟩, ⟨_, rfl, fun a b => ?_⟩⟩
  · exact decide_eq_true_iff
  · exact decide_eq_true_iff
  · exact decide_eq_true_iff
  · simp [BitVec.slt]
  · exact decide_eq_true_iff
  · simp [BitVec.ult]

/-- Settles O11: a jump, and a branch taken, is `jumpsTo_of`; a branch not taken goes on behind its delay slot. -/
theorem branchesAndJumpsGo : Obligations.BranchesAndJumpsGo := by
  intro h s hx
  refine ⟨fun f e he => ?_, fun f => ⟨fun hb => ?_, fun hs hd => ?_, fun hb => ?_, fun hs hv => ?_⟩,
    fun f => ⟨fun hb => ?_, fun hs hv hd hr => ?_, fun hb => ?_, fun hs hv hr => ?_⟩⟩
  · obtain ⟨p, hi, hp⟩ := exec_branchForms h f s e he
    refine ⟨fun hb => raises_illegal hi hx rfl (illegal_jump (hb.imp_right fun hd => .inl (displaced_eq_false hd))),
      fun hs hd => ?_⟩
    have hl : (formB h e.2.1 f).legal h (s.core h) = true := legal_jump hs (displaced_eq_true hd) (.inl rfl)
    refine ⟨fun hc => jumpsTo_of hi hx hl rfl fun u hu => ?_, fun hc => ?_⟩
    · simp only [branchIf, State.core_of_fetched hu]
      exact if_pos ((hp ..).2 hc)
    · rw [afterBranch, ofInt_pc_add_eight]
      exact leaves_jump hi hx hl fun u hu => by
        simp only [branchIf, State.core_of_fetched hu]
        exact if_neg ((hp ..).not.2 hc)
  · exact raises_illegal rfl hx rfl (illegal_jump (hb.imp_right fun hd => .inl (displaced_eq_false hd)))
  · exact jumpsTo_of rfl hx (legal_jump hs (displaced_eq_true hd) (.inl rfl)) rfl
      fun u hu => by rw [State.core_of_fetched hu]
  · exact raises_illegal rfl hx rfl (illegal_jump (hb.imp_right fun hv => .inr ⟨rfl, hv⟩))
  · exact jumpsTo_of rfl hx (legal_jump hs rfl (.inr hv)) rfl fun u hu => by rw [State.core_of_fetched hu]
  · refine raises_illegal rfl hx rfl (illegal_jump (hb.imp_right fun hb => ?_))
    rcases hb with hv | hd | hr
    · exact .inr ⟨rfl, hv⟩
    · exact .inl (by rw [decide_eq_false hd, Bool.false_and])
    · exact .inl (by rw [decide_eq_false hr, Bool.and_false])
  · exact jumpsTo_of rfl hx (legal_jump hs (by rw [decide_eq_true hd, decide_eq_true hr]; rfl) (.inr hv)) rfl
      fun u hu => by rw [State.gpr_of_fetched hu]
  · refine raises_illegal rfl hx rfl (illegal_jump (hb.imp_right fun hb => ?_))
    rcases hb with hv | hr
    · exact .inr ⟨rfl, hv⟩
    · exact .inl (decide_eq_false hr)
  · exact jumpsTo_of rfl hx (legal_jump hs (decide_eq_true hr) (.inr hv)) rfl fun u hu => by rw [State.gpr_of_fetched hu]

/-! ### The domain switch (04 R121; 05 R148, R149) -/

/-- The form of CJMP and CRET is legal outside a delay slot on a control core, where its fields are zero. -/
theorem legal_switch {w : Word32} {ok : Bool} {h : Hart} {c : Core} (hs : c.slot = none) (hok : ok = true)
    (hc : isCtl h = true) :
    Form.legal { word := w, ok := ok, svc := false, wick := false, slot := false } h c = true := by
  subst hok
  cases h <;> simp_all [Form.legal, Form.inProfile, isCtl]

theorem illegal_switch {w : Word32} {ok : Bool} {h : Hart} {c : Core}
    (hb : c.slot ≠ none ∨ ok = false ∨ isCtl h = false) :
    Form.legal { word := w, ok := ok, svc := false, wick := false, slot := false } h c = false := by
  rcases hb with hb | rfl | hb
  · simp [Form.legal, Option.isNone_eq_false_iff.2 (Option.isSome_iff_ne_none.2 hb)]
  · rfl
  · cases h <;> simp_all [Form.legal, Form.inProfile, isCtl]

/-- A core with no store buffered and no deferred error has nothing to complete first. -/
theorem settled_of_empty {h : Hart} {s u : State} (hu : Noted h s u) (hb : (s.core h).storeBuf = [])
    (hd : (s.core h).defErr = none)
    (g : State → Res) : settled h u g = g u := by
  have hsettle : u.settle h = u := by
    cases h with
    | ctl n =>
      simp only [State.settle, State.drainBuf, State.core_of_fetched hu, hb]
      rfl
    | svc k => rfl
    | wick => rfl
  simp [settled, hsettle, State.core_of_fetched hu, hd]

theorem usable_iff (c : Cap) : c.usable = true ↔ c.tag = true ∧ c.otype = 0 := by
  rw [Cap.usable, Bool.and_eq_true, decide_eq_true_eq]

theorem recordOk_iff (entry data : Cap) : recordOk entry data = true ↔
    (entry.tag = true ∧ entry.otype = 0 ∧ permBit entry.perms pX = true) ∧
      (data = {} ∨ data.tag = true ∧ data.otype = 0) := by
  simp only [recordOk, Bool.and_eq_true, Bool.or_eq_true, decide_eq_true_eq, usable_iff, and_assoc]

/-- The checks of a gate capability in their order (05 R148). -/
theorem gateFault_eq (c : Cap) : gateFault c =
    if c.tag = false then some 1 else if c.otype = 0 ∨ c.otype = 0xFFFF then some 2
    else if permBit c.perms pX = false ∨ permBit c.perms pR = false ∨ permBit c.perms pLC = false then some 3
    else if c.base.toNat % 16 ≠ 0 ∨ c.limit < c.base.toNat + 32 then some 4 else none := by
  simp only [gateFault, Bool.not_eq_true', Bool.and_eq_false_iff, or_assoc]

/-- The registers of a domain entered from core `c`, but for its place (05 R148). -/
def entered (c : Core) (entry data : Cap) : Core :=
  { ((c.setCap 13 data).setCap 15 { c.pcc with otype := 0xFFFF }).setGpr 31 ((c.pc + 4).setWidth 64) with pcc := entry }

/-- What CJMP does through a gate whose checks pass and whose record reads as `entry` and `data`. -/
theorem enterGate_eq {n : Fin 16} {s u : State} {g entry data : Cap} (hu : Noted (.ctl n) s u)
    (he : ReadsCap (.ctl n) s g.perms g.base.toNat entry) (hd : ReadsCap (.ctl n) s g.perms (g.base.toNat + 16) data) :
    ∃ t, Noted (.ctl n) s t ∧
      enterGate (.ctl n) g u = if recordOk entry data then switchTo (.ctl n) entry data t else .raises (excCap 9) t := by
  obtain ⟨v, hv, hev⟩ := he u hu
  obtain ⟨t, ht, hdt⟩ := hd v hv
  exact ⟨t, ht, by simp only [enterGate, hev, hdt]⟩

theorem gate_fields_eq_false {x z : BitVec 4} {u : BitVec 5} (hb : x ≠ 0 ∨ z ≠ 0 ∨ u ≠ 0) :
    decide (x = 0 ∧ z = 0 ∧ u = 0) = false :=
  decide_eq_false fun ⟨hx, hz, hu⟩ => hb.elim (· hx) (·.elim (· hz) (· hu))

/-- Settles O12: CJMP is `gateFault`, then the two reads of its record (`enterGate_eq`); CRET tests c15. -/
theorem domainsSwitchAndReturn : Obligations.DomainsSwitchAndReturn := by
  refine ⟨fun n f s entry data hx => ⟨fun hb => ?_, fun hs hx0 hz hu0 hbuf hdef => ?_⟩,
    fun h f s hx => ⟨fun hc => ⟨?_, ?_⟩, fun hb => ?_, fun hc hs hx0 hy hz hu0 => ?_⟩⟩
  · exact raises_illegal rfl hx rfl (illegal_switch (hb.imp_right fun hb => .inl (gate_fields_eq_false hb)))
  · have hok : decide (f.x = 0 ∧ f.z = 0 ∧ f.u = 0) = true := decide_eq_true ⟨hx0, hz, hu0⟩
    have hraise : ∀ d, gateFault (s.cap (.ctl n) f.y) = some d →
        Raises (.cjmp (.ctl n) f) (.ctl n) s (encC 0x29 0 f) (excCap d) :=
      fun d hg => raises_of rfl hx (legal_switch hs hok rfl) rfl fun u hu => by simp only [State.cap_of_fetched hu, hg]
    have hgate := gateFault_eq (s.cap (.ctl n) f.y)
    dsimp only
    split
    · next ht => exact hraise 1 (hgate.trans (if_pos ht))
    next ht =>
    rw [if_neg ht] at hgate
    split
    · next ho => exact hraise 2 (hgate.trans (if_pos ho))
    next ho =>
    rw [if_neg ho] at hgate
    split
    · next hp => exact hraise 3 (hgate.trans (if_pos hp))
    next hp =>
    rw [if_neg hp] at hgate
    split
    · next hr => exact hraise 4 (hgate.trans (if_pos hr))
    next hr =>
    rw [if_neg hr] at hgate
    intro he hd
    split
    · next hrec =>
      refine leaves_switch (i := .cjmp (.ctl n) f) (c := entered (s.core (.ctl n)) entry data) rfl hx
        (legal_switch hs hok rfl)
        fun u hu => ?_
      obtain ⟨t, htn, henter⟩ := enterGate_eq hu he hd
      refine ⟨t, htn, ?_⟩
      simp only [State.cap_of_fetched hu, hgate, settled_of_empty hu hbuf hdef, henter]
      rw [if_pos ((recordOk_iff ..).2 hrec), switchTo, State.core_of_fetched htn, entered]
    · next hrec =>
      refine raises_after rfl hx (legal_switch hs hok rfl) rfl fun u hu => ?_
      obtain ⟨t, htn, henter⟩ := enterGate_eq hu he hd
      refine ⟨t, htn, ?_⟩
      simp only [State.cap_of_fetched hu, hgate, settled_of_empty hu hbuf hdef, henter]
      rw [if_neg ((recordOk_iff ..).not.2 hrec)]
  · exact raises_illegal rfl hx rfl (illegal_switch (.inr (.inr hc)))
  · exact raises_illegal rfl hx rfl (illegal_switch (.inr (.inr hc)))
  · refine raises_illegal rfl hx rfl (illegal_switch (hb.imp_right fun hb => .inl (decide_eq_false ?_)))
    rintro ⟨kx, ky, kz, ku⟩
    simp [kx, ky, kz, ku] at hb
  · have hok : decide (f.x = 0 ∧ f.y = 0 ∧ f.z = 0 ∧ f.u = 0) = true := decide_eq_true ⟨hx0, hy, hz, hu0⟩
    split
    · next hr =>
      intro hbuf hdef
      refine leaves_switch (i := .cret h f) (c := { s.core h with pcc := { s.cap h 15 with otype := 0 } }) rfl hx
        (legal_switch hs hok hc) fun u hu => ⟨u, hu, ?_⟩
      simp only [State.cap_of_fetched hu, settled_of_empty hu hbuf hdef, State.core_of_fetched hu, State.gpr_of_fetched hu]
      rw [if_pos (by simpa using hr)]
    · next hr =>
      refine raises_of rfl hx (legal_switch hs hok hc) rfl fun u hu => ?_
      simp only [State.cap_of_fetched hu]
      rw [if_neg (by simpa using hr)]

end Sys2Proof
end

section
/-!
SUPPORT. Proofs/Capabilities.lean: the capability instructions (04 R119, R120; 05 R143, R147). O13 is settled from these.
-/

namespace Sys2Proof

open Sys2Proof.Machine

/-! ### Forms -/

/-- A form that every profile has and a delay slot may hold is legal where its fields are right. -/
theorem legal_plain {w : Word32} {ok : Bool} (h : Hart) (c : Core) : Form.legal { word := w, ok := ok } h c = ok := by
  cases h <;> simp [Form.legal, Form.inProfile]

/-- CLOCK and CUNLOCK are a control core's only (04 R138, R140). -/
theorem legalSeal {fn : BitVec 9} {f : FmtC} {ok : Bool} (h : Hart) (c : Core) :
    (formSeal fn f ok).legal h c = (ok && isCtl h) := by
  cases h <;> simp [Form.legal, Form.inProfile, formSeal, isCtl]

/-! ### Derivation (05 R143, Table 5.3) -/

/-- The source of a derivation must be tagged and unsealed. -/
theorem checkUse_nil (c : Cap) :
    c.checkUse [] = if c.tag = false then some 1 else if c.otype ≠ 0 then some 2 else none := by
  simp only [Cap.checkUse, Bool.not_eq_true', List.all_nil, if_true]

theorem narrowOk_iff (c : Cap) (x y : Nat) :
    narrowOk c (c.base.toNat + x) (c.base.toNat + x + y) = true ↔ c.base.toNat + x + y ≤ c.limit ∧
      ¬(c.base.toNat + x + y = 0 ∧ c.base.toNat + x = 0) ∧ c.base.toNat + x < 2 ^ 48 := by
  simp only [narrowOk, Bool.and_eq_true, decide_eq_true_eq, Bool.not_eq_true', Bool.and_eq_false_iff,
    decide_eq_false_iff_not]
  omega

theorem inWindow_iff (c : Cap) (t : BitVec 16) :
    inWindow c t.toNat = true ↔ c.base.toNat ≤ 0x3FFF0000 + t.toNat ∧ 0x3FFF0000 + t.toNat < c.limit := by
  rw [inWindow, Bool.and_eq_true, decide_eq_true_eq, decide_eq_true_eq, typeAddr]

section

variable {i : Instr} {h : Hart} {s : State} {fm : Form} {body : State → Res} {w : Word32}

/-- An instruction that derives from cY makes the checks of its source, and where they pass it does `P`. -/
theorem derive_of {y : BitVec 4} {P : Prop} (hi : exec i s = s.execute h fm body) (hx : Executes h s)
    (hl : fm.legal h (s.core h) = true) (hw : fm.word = w)
    (hr : ∀ d, (s.cap h y).checkUse [] = some d → ∀ u, Noted h s u → body u = .raises (excCap d) u)
    (hg : (s.cap h y).checkUse [] = none → P) :
    if (s.cap h y).tag = false then Raises i h s w (excCap 1)
    else if (s.cap h y).otype ≠ 0 then Raises i h s w (excCap 2)
    else P := by
  have hc := checkUse_nil (s.cap h y)
  split
  · next ht => exact raises_of hi hx hl hw (hr 1 (hc.trans (if_pos ht)))
  · next ht =>
    rw [if_neg ht] at hc
    split
    · next ho => exact raises_of hi hx hl hw (hr 2 (hc.trans (if_pos ho)))
    · next ho => exact hg (hc.trans (if_neg ho))

/-- CLOCK and CUNLOCK check tag, seal, permission and type in this order, and then write cX (05 R147). -/
theorem seal_of {x : BitVec 4} {v : Cap} {noTag badSeal noPerm typed : Prop} [Decidable noTag] [Decidable badSeal]
    [Decidable noPerm] [Decidable typed] (hi : exec i s = s.execute h fm body) (hx : Executes h s)
    (hl : fm.legal h (s.core h) = true) (hw : fm.word = w)
    (hb : ∀ u, Noted h s u → body u = if noTag then .raises (excCap 1) u else if badSeal then .raises (excCap 2) u
      else if noPerm then .raises (excCap 3) u else if typed then .seq (u.setCap h x v) else .raises (excCap 5) u) :
    if noTag then Raises i h s w (excCap 1) else if badSeal then Raises i h s w (excCap 2)
    else if noPerm then Raises i h s w (excCap 3) else if typed then GivesCap i h s x v else Raises i h s w (excCap 5) := by
  split
  · next h1 => exact raises_of hi hx hl hw fun u hu => (hb u hu).trans (if_pos h1)
  next h1 =>
  simp only [if_neg h1] at hb
  split
  · next h2 => exact raises_of hi hx hl hw fun u hu => (hb u hu).trans (if_pos h2)
  next h2 =>
  simp only [if_neg h2] at hb
  split
  · next h3 => exact raises_of hi hx hl hw fun u hu => (hb u hu).trans (if_pos h3)
  next h3 =>
  simp only [if_neg h3] at hb
  split
  · next h4 => exact givesCap_of hi hx hl fun u hu => (hb u hu).trans (if_pos h4)
  · next h4 => exact raises_of hi hx hl hw fun u hu => (hb u hu).trans (if_neg h4)

end

/-! ### Inspection (04 R120) -/

theorem perms_within_iff (a b : BitVec 16) :
    a &&& ~~~b = 0 ↔ ((List.range 16).all fun p => !permBit a p || permBit b p) = true := by
  rw [List.all_eq_true]
  constructor
  · intro h p hp
    have hbit := congrArg (·.getLsbD p) h
    have hlt := List.mem_range.1 hp
    simp only [BitVec.getLsbD_and, BitVec.getLsbD_not, hlt, decide_true, Bool.true_and] at hbit
    rw [permBit, permBit, Bool.or_eq_true, Bool.not_eq_true']
    grind
  · intro h
    apply BitVec.eq_of_getLsbD_eq
    intro p hp
    have hbit := h p (List.mem_range.2 hp)
    rw [permBit, permBit, Bool.or_eq_true, Bool.not_eq_true'] at hbit
    simp only [BitVec.getLsbD_and, BitVec.getLsbD_not, hp, decide_true, Bool.true_and]
    grind

theorem grantsNoMore_iff (c a : Cap) : grantsNoMore c a = true ↔
    (c.tag = true ∧ c.otype = 0) ∧ (a.tag = true ∧ a.otype = 0) ∧ c.base.toNat ≤ a.base.toNat ∧ a.limit ≤ c.limit ∧
      ((List.range 16).all fun p => !permBit a.perms p || permBit c.perms p) = true := by
  simp only [grantsNoMore, Bool.and_eq_true, decide_eq_true_eq, usable_iff, perms_within_iff, and_assoc]

theorem length_ofNat (l b : Nat) (hb : b < 2 ^ 48) : BitVec.ofNat 64 (l + 2 ^ 64 - b) = BitVec.ofInt 64 ((l : Int) - b) := by
  apply BitVec.eq_of_toNat_eq
  rw [BitVec.toNat_ofNat, BitVec.toNat_ofInt]
  omega

/-- A read of cY gives its value. -/
theorem capInfo_gives {i : Instr} {h : Hart} {s : State} {f : FmtC} {sel : BitVec 4} {g : Cap → Nat} {v : Word}
    (hi : exec i s = s.execute h (formInfo sel f) (capInfo h f g)) (hx : Executes h s) (hz : f.x = 0)
    (hv : BitVec.ofNat 64 (g (s.cap h f.y)) = v) : Gives i h s f.u v :=
  gives_of hi hx ((legal_plain ..).trans (decide_eq_true hz)) fun u hu => by rw [capInfo, State.cap_of_fetched hu, hv]

/-- The reads of a capability and the tests of two ask X = 0. -/
theorem inspects_raises {i : Instr} {h : Hart} {s : State} {f : FmtC} {w : Word32} {body : State → Res}
    (hi : exec i s = s.execute h { word := w, ok := decide (f.x = 0) } body) (hx : Executes h s) (hz : f.x ≠ 0) :
    Raises i h s w excIllegal :=
  raises_illegal hi hx rfl ((legal_plain ..).trans (decide_eq_false hz))

/-- Settles O13: the derivations are `derive_of`, sealing is `seal_of`, and inspection is `capInfo_gives`. -/
theorem capabilityInstructionsAct : Obligations.CapabilityInstructionsAct := by
  refine ⟨fun h f s hx => ⟨fun hz hu => ⟨?_, ?_⟩, fun hb => ⟨?_, ?_⟩, fun hy hz hu => ?_, fun hb => ?_, fun hb => ?_,
    fun hz hu => ?_, fun hz => ?_, fun hz => ?_⟩, fun h f s hx => ⟨fun hc => ⟨?_, ?_⟩, fun hc => ?_, fun hu => ?_,
      fun hc hu => ?_⟩,
    fun h f s hx => ⟨fun hz => ⟨?_, ?_, ?_, ?_, ?_, ?_, ?_, ?_⟩, fun hz => ⟨?_, ?_, ?_, ?_, ?_, ?_, ?_, ?_⟩⟩⟩
  · exact givesCap_of rfl hx ((legal_plain ..).trans (decide_eq_true ⟨hz, hu⟩)) fun u hu => by
      rw [State.givesCap, State.cap_of_fetched hu]
  · exact givesCap_of rfl hx ((legal_plain ..).trans (decide_eq_true ⟨hz, hu⟩)) fun u hu => by
      rw [State.givesCap, State.cap_of_fetched hu]
  · exact raises_illegal rfl hx rfl ((legal_plain ..).trans (decide_eq_false (not_and_or.2 hb)))
  · exact raises_illegal rfl hx rfl ((legal_plain ..).trans (decide_eq_false (not_and_or.2 hb)))
  · exact givesCap_of rfl hx ((legal_plain ..).trans (decide_eq_true ⟨hy, hz, hu⟩)) fun u hu => by
      rw [State.givesCap, State.core_of_fetched hu]
  · exact raises_illegal rfl hx rfl ((legal_plain ..).trans (decide_eq_false fun ⟨hy, hz, hu⟩ =>
      hb.elim (· hy) (·.elim (· hz) (· hu))))
  · exact raises_illegal rfl hx rfl ((legal_plain ..).trans (decide_eq_false fun ⟨hz, hu⟩ => hb.elim (· hz) hu))
  · have hl : (formC 1 f (decide (f.z = 0 ∧ f.u ≠ 31))).legal h (s.core h) = true :=
      (legal_plain ..).trans (decide_eq_true ⟨hz, hu⟩)
    refine derive_of rfl hx hl rfl (fun d hd u hu => by simp only [State.cap_of_fetched hu, hd]) fun hd => ?_
    split
    · next hn =>
      refine givesCap_of rfl hx hl fun u hu => ?_
      simp only [State.cap_of_fetched hu, State.gpr_of_fetched hu, hd]
      exact if_pos ((narrowOk_iff ..).2 hn)
    · next hn =>
      refine raises_of rfl hx hl rfl fun u hu => ?_
      simp only [State.cap_of_fetched hu, State.gpr_of_fetched hu, hd]
      exact if_neg ((narrowOk_iff ..).not.2 hn)
  · exact raises_illegal rfl hx rfl ((legal_plain ..).trans (decide_eq_false hz))
  · have hl : (formC 2 f (decide (f.z = 0))).legal h (s.core h) = true := (legal_plain ..).trans (decide_eq_true hz)
    refine derive_of rfl hx hl rfl (fun d hd u hu => by simp only [State.cap_of_fetched hu, hd]) fun hd => ?_
    exact givesCap_of rfl hx hl fun u hu => by
      simp only [State.cap_of_fetched hu, State.gpr_of_fetched hu, hd, State.givesCap]
  · exact raises_illegal rfl hx rfl ((legalSeal ..).trans (by rw [hc, Bool.and_false]))
  · exact raises_illegal rfl hx rfl ((legalSeal ..).trans (by rw [hc, Bool.and_false]))
  · refine seal_of rfl hx ((legalSeal ..).trans (by rw [hc, Bool.and_true])) rfl fun u hu => ?_
    simp only [State.cap_of_fetched hu, State.gpr_of_fetched hu, State.givesCap, ← inWindow_iff]
    split_ifs <;> simp_all
  · exact raises_illegal rfl hx rfl ((legalSeal ..).trans (by rw [decide_eq_false hu, Bool.false_and]))
  · refine seal_of rfl hx ((legalSeal ..).trans (by rw [hc, decide_eq_true hu, Bool.and_true])) rfl fun u hu => ?_
    simp only [State.cap_of_fetched hu, State.givesCap, ← inWindow_iff]
    split_ifs <;> simp_all
  · exact capInfo_gives rfl hx hz rfl
  · exact capInfo_gives rfl hx hz rfl
  · exact capInfo_gives rfl hx hz (length_ofNat _ _ (BitVec.isLt _))
  · exact capInfo_gives rfl hx hz rfl
  · exact capInfo_gives rfl hx hz rfl
  · exact capInfo_gives rfl hx hz (by split <;> rfl)
  · exact gives_of rfl hx ((legal_plain ..).trans (decide_eq_true hz)) fun u hu => by
      simp only [State.cap_of_fetched hu, grantsNoMore_iff]
  · exact gives_of rfl hx ((legal_plain ..).trans (decide_eq_true hz)) fun u hu => by
      simp only [State.cap_of_fetched hu]
  · exact inspects_raises rfl hx hz
  · exact inspects_raises rfl hx hz
  · exact inspects_raises rfl hx hz
  · exact inspects_raises rfl hx hz
  · exact inspects_raises rfl hx hz
  · exact inspects_raises rfl hx hz
  · exact inspects_raises rfl hx hz
  · exact inspects_raises rfl hx hz

end Sys2Proof
end

section
/-!
SUPPORT. Proofs/OldFetch.lean: a fetch that the flash array had stalled before the switch of the access table (07 R205; 14
R337). When the array serves it, the last old access is over and ACT_EVT.EPOCH_DONE rises, which line 14 of the control
cores shows (05 Table 5.7): an instruction that looks at the lines sees this event of its own fetch. O22 and O23 are
refuted from it.
-/

namespace Sys2Proof.Machine

/-- The end of a hart's stalled accesses leaves the registers of the harts. -/
theorem State.core_accessesOver (s : State) (h h' : Hart) : (s.accessesOver h).core h' = s.core h' := by
  rw [State.accessesOver_eq]
  cases h' <;> rfl

/-- Control core 0 runs in the flash array with line 14 enabled; the fetch at its PC is the one old access that is left,
and the array is free for it. -/
def oldFetch : State :=
  { (State.reset.wr (SYS_CORE_CTRL 0) 1).wr ACT_EPOCH_DRAIN 1 with
    cores := [(0, { coreAtReset with
      pc := 0x10000000, pcc := { tag := true, perms := 0x7FFF, base := 0x10000000, top := 0x20000000 }, ien := 0x4000 })]
    flc := { stalled :=
      [{ master := .ctl 0, granule := 0x10000000 / 32, ty := .fetch, inE1 := false, ready := true, old := true }] } }

theorem eq_ok_of_isOk {x : Except Exc Unit} (h : x.isOk = true) : x = .ok () := by
  cases x with
  | ok => rfl
  | error => exact absurd h Bool.false_ne_true

theorem oldFetch_executes : Executes (.ctl 0) oldFetch := ⟨by decide +kernel, eq_ok_of_isOk (by decide +kernel)⟩

/-- Before the fetch no line is pending. -/
theorem oldFetch_ipend : oldFetch.ipend (.ctl 0) = 0 := by decide +kernel

theorem oldFetch_lines : ∀ l < 16, oldFetch.pending? (.ctl 0) l = false := by decide +kernel

/-- SRD of IPEND gives bit 14. -/
theorem oldFetch_srd : Completes (.srd (.ctl 0) { rd := 1, ra := 0, imm := 0x021 }) oldFetch
    fun t => t.gpr (.ctl 0) 1 = 0x4000 :=
  ⟨_, rfl, by decide +kernel⟩

/-- WAIT does not wait. -/
theorem oldFetch_wait : Completes (.wait (.ctl 0) { rd := 0, ra := 0, imm := 0 }) oldFetch fun t =>
    (t.core (.ctl 0)).waiting = false :=
  ⟨_, rfl, by decide +kernel⟩

end Sys2Proof.Machine

namespace Sys2Proof

open Sys2Proof.Machine

/-- Refutes O22: SRD of IPEND reads the lines after its own fetch, where the statement has those before it. In `oldFetch`
the fetch raises ACT_EVT.EPOCH_DONE, and SRD gives bit 14, which IPEND did not have (`oldFetch_srd`). -/
theorem not_systemRegistersReadAndWrite : ¬ Obligations.SystemRegistersReadAndWrite := by
  intro h
  obtain ⟨hread, -⟩ := h (.ctl 0) { rd := 1, ra := 0, imm := 0x021 } oldFetch oldFetch_executes
  have hgives := hread (0x021, [pSYS], BitVec.ofNat 64 (oldFetch.ipend (.ctl 0))) (by simp [sysValues]) rfl rfl
  rw [if_pos (by decide +kernel), oldFetch_ipend] at hgives
  obtain ⟨t, hexec, hretires⟩ := hgives
  obtain ⟨t', hexec', hgpr⟩ := oldFetch_srd
  obtain rfl := Host.Outcome.next.inj (hexec.symm.trans hexec')
  rw [State.gpr, hretires.core] at hgpr
  exact absurd hgpr (by decide +kernel)

/-- Refutes O23: WAIT looks at the lines after its own fetch, where the statement asks for those before it. In `oldFetch`
no line is pending before, and the fetch raises line 14, so that WAIT retires (`oldFetch_wait`). -/
theorem not_controlInstructionsAct : ¬ Obligations.ControlInstructionsAct := by
  intro h
  obtain ⟨-, -, -, -, -, -, -, -, hwait, -⟩ := h (.ctl 0) { rd := 0, ra := 0, imm := 0 } oldFetch oldFetch_executes
  obtain ⟨-, hhalts⟩ := hwait (by decide) ⟨rfl, rfl, rfl⟩ rfl
  obtain ⟨u, -, hexec⟩ := hhalts fun l hl _ => oldFetch_lines l hl
  obtain ⟨t, hexec', hwaiting⟩ := oldFetch_wait
  obtain rfl := Host.Outcome.next.inj (hexec.symm.trans hexec')
  rw [State.core_accessesOver, State.core_setCore (hasCore_ctl u 0)] at hwaiting
  exact Bool.false_ne_true hwaiting.symm

end Sys2Proof
end

section
/-!
SUPPORT. Proofs/StoreBuffer.lean: the store buffer of a control core: a store enters the interconnect (07 R204), lands and
leaves the buffer (07 R205), and FENCE completes them all (04 R112). O24 is settled from these.
-/

namespace Sys2Proof.Machine

/-- The registers of a control core are those of its number. -/
theorem State.core_ctl_congr {s t : State} (hc : t.cores = s.cores) (n : Fin 16) : t.core (.ctl n) = s.core (.ctl n) := by
  show sget {} t.cores n.val = sget {} s.cores n.val
  rw [hc]

/-- A denial is recorded in no core. -/
@[simp] theorem State.violate_cores (s : State) (a : Acc) (addr : Nat) (ty : Access) (d : Denial) :
    (s.violate a addr ty d).cores = s.cores := by
  simp only [State.violate]
  split <;> split <;> simp

@[simp] theorem State.enter_cores (s : State) (a : Acc) (addr : Nat) (ty : Access) :
    (s.enter a addr ty).2.cores = s.cores := by
  unfold State.enter
  split
  · rfl
  · split
    · rfl
    · exact State.violate_cores ..

@[simp] theorem State.drainOld_cores (s : State) : s.drainOld.cores = s.cores := by
  simp only [State.drainOld]
  split
  · rfl
  · split <;> simp

section

variable (s : State) (n : Fin 16)

theorem State.core_setBuf (b : List BufStore) : (s.setBuf n b).core (.ctl n) = { s.core (.ctl n) with storeBuf := b } :=
  State.core_setCore (hasCore_ctl s n) _

theorem State.storeBuf_deferError (a : Nat) : ((s.deferError n a).core (.ctl n)).storeBuf = (s.core (.ctl n)).storeBuf := by
  rw [State.deferError, State.core_setCore (hasCore_ctl s n)]

/-- A store that lands changes no buffer. -/
theorem State.storeBuf_storeLands (b : BufStore) :
    ((s.storeLands n b).core (.ctl n)).storeBuf = (s.core (.ctl n)).storeBuf := by
  unfold State.storeLands
  split
  · split <;> rfl
  · exact State.storeBuf_deferError ..

variable {s n} {b : BufStore} {rest : List BufStore}

/-- The oldest store leaves the buffer when it has entered the interconnect. -/
theorem State.storeBuf_storeCompletes (hb : (s.core (.ctl n)).storeBuf = b :: rest) :
    ((s.storeCompletes n).core (.ctl n)).storeBuf = if b.entered then rest else b :: rest := by
  simp only [State.storeCompletes, hb]
  split
  · have hl : (((s.setBuf n rest).storeLands n b).core (.ctl n)).storeBuf = rest := by
      rw [State.storeBuf_storeLands, State.core_setBuf]
    split
    · rw [State.core_ctl_congr (State.drainOld_cores _), hl]
    · exact hl
  · exact hb

theorem State.length_storeCompletes_le :
    ((s.storeCompletes n).core (.ctl n)).storeBuf.length ≤ (s.core (.ctl n)).storeBuf.length := by
  cases hb : (s.core (.ctl n)).storeBuf with
  | nil => rw [show s.storeCompletes n = s by simp only [State.storeCompletes, hb], hb]
  | cons b rest =>
    rw [State.storeBuf_storeCompletes hb]
    split <;> simp

end

/-- A buffer of `k` stores whose front has entered the interconnect, or one of a store fewer. -/
def Advanced (k : Nat) (l : List BufStore) : Prop :=
  (∃ b rest, l = b :: rest ∧ b.entered = true ∧ l.length = k) ∨ l.length + 1 = k

/-- So is a buffer in which the oldest store that had not entered has entered. -/
theorem advanced_of_split {done rest : List BufStore} {b : BufStore} (hd : ∀ x ∈ done, x.entered = true) :
    Advanced (done ++ b :: rest).length (done ++ { b with entered := true } :: rest) := by
  cases done with
  | nil => exact .inl ⟨_, _, rfl, rfl, rfl⟩
  | cons d done => exact .inl ⟨_, _, rfl, hd d (List.mem_cons_self ..), by simp⟩

/-- The first store of a buffer that has not entered stands behind those that have. -/
theorem split_of_find? {l : List BufStore} {b : BufStore} (hf : l.find? (fun b => !b.entered) = some b) :
    (∀ x ∈ l.takeWhile (·.entered), x.entered = true) ∧
      l = l.takeWhile (·.entered) ++ b :: (l.dropWhile (·.entered)).drop 1 := by
  obtain ⟨hb, done, rest, rfl, hd⟩ := List.find?_eq_some_iff_append.1 hf
  have hd : ∀ x ∈ done, x.entered = true := fun x hx => by simpa using hd x hx
  have hb : b.entered = false := by simpa using hb
  have ht : (done ++ b :: rest).takeWhile (·.entered) = done := by
    rw [List.takeWhile_append_of_pos hd, List.takeWhile_cons_of_neg (by simp [hb]), List.append_nil]
  rw [ht, List.dropWhile_append_of_pos hd, List.dropWhile_cons_of_neg (by simp [hb])]
  exact ⟨hd, rfl⟩

/-- After `storeEnters` a store has entered at the front, or a denied one is gone. -/
theorem State.advanced_storeEnters {s : State} {n : Fin 16} (hne : (s.core (.ctl n)).storeBuf ≠ []) :
    Advanced (s.core (.ctl n)).storeBuf.length ((s.storeEnters n).core (.ctl n)).storeBuf := by
  simp only [State.storeEnters]
  split
  · next hf =>
    obtain ⟨b, rest, hb⟩ := List.exists_cons_of_ne_nil hne
    rw [hb, List.find?_eq_none] at hf
    exact .inl ⟨b, rest, hb, by simpa using hf b (List.mem_cons_self ..), rfl⟩
  · next b hf =>
    obtain ⟨hd, hl⟩ := split_of_find? hf
    split
    · rw [State.core_setBuf, congrArg List.length hl]
      exact advanced_of_split hd
    · rw [State.storeBuf_deferError, State.core_setBuf, congrArg List.length hl]
      exact .inr (by simp [Nat.add_assoc])

/-- A step of the drain shortens the buffer. -/
theorem State.length_drainStep {s : State} {n : Fin 16} (hne : (s.core (.ctl n)).storeBuf ≠ []) :
    (((s.storeEnters n).storeCompletes n).core (.ctl n)).storeBuf.length < (s.core (.ctl n)).storeBuf.length := by
  rcases State.advanced_storeEnters hne with ⟨b, rest, hb, he, hk⟩ | hk
  · rw [State.storeBuf_storeCompletes hb, if_pos he, ← hk, hb]
    exact Nat.lt_succ_self _
  · exact Nat.lt_of_le_of_lt State.length_storeCompletes_le (by omega)

theorem State.storeBuf_drainSteps {n : Fin 16} (k : Nat) : ∀ s : State, (s.core (.ctl n)).storeBuf.length ≤ k →
    ((s.drainSteps n k).core (.ctl n)).storeBuf = [] := by
  induction k with
  | zero => exact fun s hk => List.length_eq_zero_iff.1 (Nat.le_zero.1 hk)
  | succ k ih =>
    intro s hk
    refine ih _ ?_
    by_cases hne : (s.core (.ctl n)).storeBuf = []
    · have hs : s.storeEnters n = s := by simp only [State.storeEnters, hne]; rfl
      rw [hs]
      exact Nat.le_trans State.length_storeCompletes_le (by rw [hne]; exact Nat.zero_le _)
    · exact Nat.le_of_lt_succ (Nat.lt_of_lt_of_le (State.length_drainStep hne) hk)

/-- Completing a core's earlier stores empties its buffer. -/
theorem State.storeBuf_settle (s : State) (n : Fin 16) : ((s.settle (.ctl n)).core (.ctl n)).storeBuf = [] :=
  State.storeBuf_drainSteps _ s (Nat.le_refl _)

theorem State.storeBuf_retired {s : State} {n : Fin 16} :
    ((s.retired (.ctl n)).core (.ctl n)).storeBuf = (s.core (.ctl n)).storeBuf := by
  rw [State.retired, State.countSlot_core, State.core_accessesOver, State.core_setCore (hasCore_ctl s n)]

/-- Whatever comes of FENCE, the buffer is empty after it. -/
theorem State.storeBuf_fence (s : State) (n : Fin 16) (w : Word32) :
    (((settled (.ctl n) s .seq).finish (.ctl n) w).core (.ctl n)).storeBuf = [] := by
  simp only [settled]
  split
  · rw [Res.finish, State.core_accessesOver, State.storeBuf_settle]
  · rw [Res.finish, State.storeBuf_retired, State.core_setCore (hasCore_ctl _ n)]
    exact State.storeBuf_settle s n

/-- A granted store at the front of the buffer enters the interconnect. -/
theorem State.storeEnters_granted {s : State} {n : Fin 16} {b : BufStore} {rest : List BufStore}
    (hb : (s.core (.ctl n)).storeBuf = b :: rest) (he : b.entered = false)
    (ha : s.actCheck ⟨.ctl n, b.perms⟩ b.addr .write = none) :
    s.storeEnters n = s.setBuf n ({ b with entered := true } :: rest) := by
  have hf : (b :: rest).find? (fun b => !b.entered) = some b := List.find?_cons_of_pos (by simp [he])
  simp only [State.storeEnters, hb, hf, enter_granted (a := ⟨.ctl n, b.perms⟩) nofun ha]
  simp [he]

theorem State.writable_setBuf (s : State) (n : Fin 16) (l : List BufStore) (a : Nat) :
    (s.setBuf n l).writable a = s.writable a := by rfl

section

variable {s : State} {n : Fin 16} {b : BufStore} {rest : List BufStore}

/-- The store at the front completes: it lands, and leaves the buffer. -/
theorem State.storeCompletes_eq (hb : (s.core (.ctl n)).storeBuf = b :: rest) (he : b.entered = true) (ho : b.old = false) :
    s.storeCompletes n = (s.setBuf n rest).storeLands n b := by
  simp only [State.storeCompletes, hb, he, ho, if_true, Bool.false_eq_true, if_false]

theorem State.storeCompletes_lands (hb : (s.core (.ctl n)).storeBuf = b :: rest) (he : b.entered = true) (ho : b.old = false)
    (hw : s.writable b.addr = true) (ht : b.tag = false) :
    s.storeCompletes n = (s.setBuf n rest).storeBytes b.addr b.bytes := by
  rw [State.storeCompletes_eq hb he ho, State.storeLands, State.writable_setBuf, if_pos hw, if_neg (by rw [ht]; decide)]

theorem State.storeCompletes_defers (hb : (s.core (.ctl n)).storeBuf = b :: rest) (he : b.entered = true)
    (ho : b.old = false)
    (hw : s.writable b.addr = false) (hd : (s.core (.ctl n)).defErr = none) :
    s.storeCompletes n = s.setCore (.ctl n) { s.core (.ctl n) with storeBuf := rest, defErr := some (b.addr, false) } := by
  rw [State.storeCompletes_eq hb he ho, State.storeLands, State.writable_setBuf, if_neg (by rw [hw]; decide),
    State.deferError, State.core_setBuf, State.setBuf, State.setCore_setCore]
  simp only [hd]

end

end Sys2Proof.Machine

namespace Sys2Proof

open Sys2Proof.Machine

theorem legalFence {f : FmtS} (h : Hart) (c : Core) :
    Form.legal { formS 7 f f.bare with svc := false } h c = (f.bare && !isService h) := by
  cases h <;> simp [Form.legal, Form.inProfile, formS, isService]

theorem bare_iff (f : FmtS) : f.bare = true ↔ f.rd = 0 ∧ f.ra = 0 ∧ f.imm = 0 := decide_eq_true_iff

/-- Settles O24: FENCE drains the buffer step by step (`State.storeBuf_drainSteps`); the two events are `storeEnters` and
`storeCompletes` of the store at the front. -/
theorem bufferedStoresComplete : Obligations.BufferedStoresComplete := by
  refine ⟨fun h f s hx => ⟨fun hb => ?_, fun hs hd ha hi => ⟨fun hbuf hdef => ?_, ?_⟩⟩, fun n b rest s hp hb he ha => ?_,
    fun dt n b rest s hp hb he ho => ⟨fun hw ht => ?_, fun hw hd => ?_⟩⟩
  · refine raises_illegal rfl hx rfl ((legalFence ..).trans ?_)
    rw [Bool.and_eq_false_iff, Bool.not_eq_false', ← Bool.not_eq_true, bare_iff]
    tauto
  · have hl := (legalFence h (s.core h)).trans (by rw [(bare_iff f).2 ⟨hd, ha, hi⟩, hs])
    exact leaves_same rfl hx hl fun u hu => settled_of_empty hu hbuf hdef _
  · rintro n rfl
    have hl := (legalFence (.ctl n) (s.core (.ctl n))).trans (by rw [(bare_iff f).2 ⟨hd, ha, hi⟩, hs])
    exact ⟨_, State.execute_fetched hx hl, State.storeBuf_fence ..⟩
  · exact congrArg Host.Outcome.next ((if_pos hp).trans (State.storeEnters_granted hb he ha))
  · exact congrArg Host.Outcome.next ((if_pos hp).trans (State.storeCompletes_lands hb he ho hw ht))
  · exact congrArg Host.Outcome.next ((if_pos hp).trans (State.storeCompletes_defers hb he ho hw hd))

end Sys2Proof
end

section
/-!
SUPPORT. Proofs/EngineInstructions.lean: the engine instructions of a service core (04 R128-R133) and END (04 R127; 06
R174). O28 is settled from these.
-/

namespace Sys2Proof.Machine

/-! ### Contexts -/

theorem State.setCtx_setCtx (s : State) (c : Nat) (x y : Ctx) : (s.setCtx c x).setCtx c y = s.setCtx c y := by
  simp only [State.setCtx, sput_sput]

/-- Where a service core runs context `c`, its instruction does its work for `c`. -/
theorem withCtx_of {s : State} {k : Fin 64} {c : Nat} (hc : s.ctxOn k = some c) (g : Fin 64 → Nat → Res) :
    withCtx (.svc k) s g = g k c := by
  simp only [withCtx, hc]

/-! ### Tickets (04 R130-R133) -/

section

variable {s : State} {c : Nat}

theorem State.freeTicket_eq_none (h : ∀ i < 8, s.ticket c i ≠ .free) : s.freeTicket c = none :=
  List.find?_eq_none.2 fun i hi => by simpa using h i (List.mem_range.1 hi)

theorem State.freeTicket_eq_some {i : Nat} (hi : i < 8) (hf : s.ticket c i = .free) (hl : ∀ j < i, s.ticket c j ≠ .free) :
    s.freeTicket c = some i :=
  List.find?_range_eq_some.2 ⟨decide_eq_true hf, List.mem_range.2 hi, fun j hj => by simpa using hl j hj⟩

/-- EISS queues its command in its pool, and the ticket is outstanding. -/
theorem State.issue_commandOf (t : Nat) (f : FmtE) (ce : Cap) :
    let u := s.setTicket c t .outstanding
    let e := s.commandOf c t f ce
    s.issue e = { u with
      cphQ := if f.imm.toNat / 64 = 0 then u.cphQ ++ [e] else u.cphQ
      mauQ := if f.imm.toNat / 64 = 0 then u.mauQ else u.mauQ ++ [e] } := by
  by_cases hp : f.imm.toNat / 64 = 0
  · simp only [State.issue, State.commandOf, if_pos hp]
  · simp only [State.issue, State.commandOf, if_neg hp]

/-- EWAIT ends the SC stage and frees the core; the context parks, or is READY again (04 R132). -/
theorem State.park_eq (t : Nat) (rd : BitVec 5) : s.park c t rd = s.setCtx c { s.ctx c with
    stages := completeStage (fun l => decide (l.pool = 0) && l.started) (s.ctx c).stages
    core := none
    st := if s.ticket c t = .outstanding then .parked else .ready
    await := some (t, rd)
    resumed := !decide (s.ticket c t = .outstanding) } := by
  have ht : (s.scEnds c).ticket c t = s.ticket c t := by
    rw [State.ticket, State.scEnds, State.ctx_setCtx_self, State.ticket]
  rw [State.park, ht, State.scEnds, State.ctx_setCtx_self, State.setCtx_setCtx]
  by_cases h : s.ticket c t = .outstanding <;> simp [h]

/-- The EWAIT of a resumed context takes the word, and its ticket is free. -/
theorem State.takeWord_eq (h : Hart) (t : Nat) (rd : BitVec 5) (w : Word) : s.takeWord h c t rd w =
    (s.setCtx c { s.ctx c with
      tickets := sput .free (s.ctx c).tickets t .free, await := none, resumed := false }).setGpr h rd w := by
  rw [State.takeWord, State.setTicket, State.ctx_setCtx_self, State.setCtx_setCtx]

end

end Sys2Proof.Machine

namespace Sys2Proof

open Sys2Proof.Machine

/-! ### Instructions of a service core -/

/-- A service core reads no flash array. -/
theorem eq_of_noted_svc {k : Fin 64} {s u : State} (hu : Noted (.svc k) s u) : u = s := by
  obtain ⟨l, rfl⟩ := hu
  induction l with
  | nil => rfl
  | cons x l ih => exact ih

/-- The engine instructions and END are a service core's only (04 R138, R140). -/
theorem legalE {fn : BitVec 4} {f : FmtE} {ok : Bool} (h : Hart) (c : Core) :
    (formE fn f ok).legal h c = (ok && isService h) := by
  cases h <;> simp [Form.legal, Form.inProfile, formE, isService]

theorem checkUse_singleton (c : Cap) (p : Nat) : c.checkUse [p] =
    if c.tag = false then some 1 else if c.otype ≠ 0 then some 2
    else if permBit c.perms p = false then some 3 else none := by
  simp only [Cap.checkUse, Bool.not_eq_true', List.all_cons, List.all_nil, Bool.and_true]
  cases permBit c.perms p <;> rfl

section

variable {i : Instr} {k : Fin 64} {c : Nat} {s : State} {fm : Form} {g : State → Nat → Res} {w : Word32}

/-- An instruction of a service core does its work for the core's context. -/
theorem exec_svc {body : State → Res} (hi : exec i s = s.execute (.svc k) fm body) (hx : Executes (.svc k) s)
    (hl : fm.legal (.svc k) (s.core (.svc k)) = true) : exec i s = .next ((body s).finish (.svc k) fm.word) := by
  rw [hi, State.execute_fetched hx hl, eq_of_noted_svc (State.fetch_ok hx.2)]

theorem raises_svc {body : State → Res} {x : Exc} (hi : exec i s = s.execute (.svc k) fm body) (hx : Executes (.svc k) s)
    (hl : fm.legal (.svc k) (s.core (.svc k)) = true) (hw : fm.word = w)
    (hb : body s = .raises x s) : Raises i (.svc k) s w x :=
  raises_of hi hx hl hw fun u hu => by rw [eq_of_noted_svc hu, hb]

theorem follows_svc {body : State → Res} {t : State} (hi : exec i s = s.execute (.svc k) fm body) (hx : Executes (.svc k) s)
    (hl : fm.legal (.svc k) (s.core (.svc k)) = true) (hb : body s = .seq t) : exec i s = .next (follows (.svc k) t) := by
  rw [exec_svc hi hx hl, hb]
  rfl

end


/-! ### EABORT (04 R133) -/

/-- An abort leaves the tickets. -/
theorem ticket_abortWhere (s : State) (c t : Nat) (p : EngCmd → Bool) : (s.abortWhere c p).ticket c t = s.ticket c t := by
  unfold State.abortWhere
  rw [State.ticket, State.ctx_setCtx_self, State.ticket]

/-- It leaves no command that it picks in a queue. -/
theorem queues_abortWhere (s : State) (c : Nat) (p : EngCmd → Bool) :
    ∀ e ∈ (s.abortWhere c p).cphQ ++ (s.abortWhere c p).mauQ, ¬(e.ctx = c ∧ p e = true) := by
  have hq : (s.abortWhere c p).cphQ = s.cphQ.filter (fun x => !(decide (x.ctx = c) && p x)) ∧
      (s.abortWhere c p).mauQ = s.mauQ.filter (fun x => !(decide (x.ctx = c) && p x)) := by
    unfold State.abortWhere
    constructor <;> simp
  rw [hq.1, hq.2, ← List.filter_append]
  intro e he
  have hkept := (List.mem_filter.1 he).2
  rintro ⟨hc, hp⟩
  simp [hc, hp] at hkept

theorem queues_postTicket (s : State) (c t : Nat) (w : Word) :
    (s.postTicket c t w).cphQ = s.cphQ ∧ (s.postTicket c t w).mauQ = s.mauQ := by
  simp only [State.postTicket]
  split <;> exact ⟨rfl, rfl⟩

/-- An outstanding ticket completes with the word posted. -/
theorem ticket_postTicket {s : State} {c t : Nat} (w : Word) (ho : s.ticket c t = .outstanding) :
    (s.postTicket c t w).ticket c t = .done w := by
  rw [State.postTicket, if_pos (show sget .free (s.ctx c).tickets t = .outstanding from ho), State.ticket,
    State.ctx_setCtx_self]
  exact sget_sput_self Ticket.free (s.ctx c).tickets t (.done w)

/-- `u` is `t` but for the register map and the registers of the contexts. -/
def RegsAlone (t u : State) : Prop := ∃ R D, u = { t with regs := R, dsp := { t.dsp with regs := D } }

theorem RegsAlone.trans {t u v : State} (h : RegsAlone t u) (h' : RegsAlone u v) : RegsAlone t v := by
  obtain ⟨_, _, rfl⟩ := h
  obtain ⟨R, D, rfl⟩ := h'
  exact ⟨R, D, rfl⟩

theorem regsAlone_setCore (k : Fin 64) (t : State) (x : Core) : RegsAlone t (t.setCore (.svc k) x) := by
  cases hc : t.ctxOn k with
  | none => exact ⟨t.regs, t.dsp.regs, by simp only [State.setCore, hc]⟩
  | some c => exact ⟨t.regs, sput {} t.dsp.regs c x, by simp only [State.setCore, hc]⟩

theorem regsAlone_countSlot (h : Hart) (n : Nat) (t : State) : RegsAlone t (t.countSlot h n) :=
  ⟨_, t.dsp.regs, State.countSlot_eq ..⟩

/-- A retiring instruction of a service core changes no more. -/
theorem regsAlone_follows (k : Fin 64) (t : State) : RegsAlone t (follows (.svc k) t) :=
  ((regsAlone_setCore k t _).trans (regsAlone_setCore k _ _)).trans (regsAlone_countSlot (.svc k) 0 _)

/-- The word that EABORT posts has STATUS 0xFFFF. -/
theorem aborted_word : (doneWord 0 0xFFFF).getLsbD 63 = true ∧ bitsOf (doneWord 0 0xFFFF) 48 15 = 0 ∧
    bitsOf (doneWord 0 0xFFFF) 16 16 = 0 ∧ bitsOf (doneWord 0 0xFFFF) 0 16 = 0xFFFF := by decide

/-- EABORT of an outstanding ticket completes it, and no queue holds its command. -/
theorem follows_abort (s : State) (k : Fin 64) {c t : Nat} (ho : s.ticket c t = .outstanding) :
    let u := follows (.svc k) ((s.abortWhere c fun e => decide (e.ticket = t)).postTicket c t (doneWord 0 0xFFFF))
    u.ticket c t = .done (doneWord 0 0xFFFF) ∧ ∀ e ∈ u.cphQ ++ u.mauQ, ¬(e.ctx = c ∧ e.ticket = t) := by
  dsimp only
  obtain ⟨R, D, hu⟩ := regsAlone_follows k ((s.abortWhere c fun e => decide (e.ticket = t)).postTicket c t
    (doneWord 0 0xFFFF))
  rw [hu]
  obtain ⟨hcph, hmau⟩ := queues_postTicket (s.abortWhere c fun e => decide (e.ticket = t)) c t (doneWord 0 0xFFFF)
  refine ⟨ticket_postTicket _ ((ticket_abortWhere ..).trans ho), ?_⟩
  simp only [hcph, hmau]
  simpa using queues_abortWhere s c fun e => decide (e.ticket = t)

/-! ### The instructions of 04 R128-R133 -/

/-- The engine instructions raise ILLEGAL with wrong fields, and on a control core and Wick's core always. -/
theorem engine_illegal {i : Instr} {h : Hart} {s : State} {fn : BitVec 4} {f : FmtE} {ok : Bool} {body : State → Res}
    (hi : exec i s = s.execute h (formE fn f ok) body) (hx : Executes h s) (hs : ok = false ∨ isService h = false) :
    Raises i h s (encE fn f) excIllegal :=
  raises_illegal hi hx rfl ((legalE ..).trans (by rcases hs with hs | hs <;> simp [hs]))

/-- On a service core they are legal with right fields. -/
theorem legalE_svc {fn : BitVec 4} {f : FmtE} {ok : Bool} {k : Fin 64} {c : Core} (hok : ok = true) :
    (formE fn f ok).legal (.svc k) c = true := by
  rw [legalE, hok]
  rfl

section

variable {k : Fin 64} {c : Nat} {f : FmtE} {s : State}

/-- The fields of an EISS are right: a reserved pool, or ra and imm8[5:4] zero. -/
theorem eiss_fields (hb : 2 ≤ f.imm.toNat / 64 ∨ f.ra = 0 ∧ f.imm.toNat / 16 % 4 = 0) :
    (decide (2 ≤ f.imm.toNat / 64) || decide (f.ra = 0 ∧ f.imm.toNat / 16 % 4 = 0)) = true := by
  rwa [Bool.or_eq_true, decide_eq_true_eq, decide_eq_true_eq]

variable (hx : Executes (.svc k) s)

include hx

theorem eiss_reserved (hp : 2 ≤ f.imm.toNat / 64) : Raises (.eiss (.svc k) f) (.svc k) s (encE 1 f) excReserved :=
  raises_svc rfl hx (legalE_svc (eiss_fields (.inl hp))) rfl (if_pos hp)

section

variable (hp : f.imm.toNat / 64 < 2) (hra : f.ra = 0) (hz : f.imm.toNat / 16 % 4 = 0)

include hp hra hz

/-- EISS makes the checks of its capability, and where they pass it does `P`. -/
theorem eiss_checks {P : Prop} (hg : (s.cap (.svc k) f.ce).checkUse [pENG] = none → P) :
    let ce := s.cap (.svc k) f.ce
    if ce.tag = false then Raises (.eiss (.svc k) f) (.svc k) s (encE 1 f) (excCap 1)
    else if ce.otype ≠ 0 then Raises (.eiss (.svc k) f) (.svc k) s (encE 1 f) (excCap 2)
    else if permBit ce.perms pENG = false then Raises (.eiss (.svc k) f) (.svc k) s (encE 1 f) (excCap 3)
    else P := by
  have hraise : ∀ d, (s.cap (.svc k) f.ce).checkUse [pENG] = some d →
      Raises (.eiss (.svc k) f) (.svc k) s (encE 1 f) (excCap d) := fun d hd => by
    refine raises_svc rfl hx (legalE_svc (eiss_fields (.inr ⟨hra, hz⟩))) rfl ?_
    simp only [if_neg (Nat.not_le.2 hp), hd]
  have hc := checkUse_singleton (s.cap (.svc k) f.ce) pENG
  dsimp only
  split
  · next h1 => exact hraise 1 (hc.trans (if_pos h1))
  next h1 =>
  rw [if_neg h1] at hc
  split
  · next h2 => exact hraise 2 (hc.trans (if_pos h2))
  next h2 =>
  rw [if_neg h2] at hc
  split
  · next h3 => exact hraise 3 (hc.trans (if_pos h3))
  · next h3 => exact hg (hc.trans (if_neg h3))

variable (hcap : (s.cap (.svc k) f.ce).checkUse [pENG] = none) (hc : s.ctxOn k = some c)

include hcap hc

/-- With no ticket free EISS raises ENGINE. -/
theorem eiss_noTicket (hall : ∀ i < 8, s.ticket c i ≠ .free) :
    Raises (.eiss (.svc k) f) (.svc k) s (encE 1 f) { cause := 9 } := by
  refine raises_svc rfl hx (legalE_svc (eiss_fields (.inr ⟨hra, hz⟩))) rfl ?_
  simp only [if_neg (Nat.not_le.2 hp), hcap, withCtx_of hc, State.freeTicket_eq_none hall]
  rfl

variable {i : Nat} {d : IssueDesc} (ht : s.freeTicket c = some i) (hd : s.issueDesc c = some d)

include ht hd

/-- A command that its pool accepts is issued. -/
theorem eiss_issues (ha : s.poolAccepts c (s.commandOf c i f (s.cap (.svc k) f.ce)) d (s.cap (.svc k) f.ce) = true) :
    exec (.eiss (.svc k) f) s = .next (follows (.svc k)
      ((s.issue (s.commandOf c i f (s.cap (.svc k) f.ce))).setGpr (.svc k) f.rd (BitVec.ofNat 64 i))) := by
  refine follows_svc rfl hx (legalE_svc (eiss_fields (.inr ⟨hra, hz⟩))) ?_
  simp only [if_neg (Nat.not_le.2 hp), hcap, withCtx_of hc, ht, hd]
  exact if_pos ha

/-- One that it rejects raises ENGINE. -/
theorem eiss_rejected (ha : ¬s.poolAccepts c (s.commandOf c i f (s.cap (.svc k) f.ce)) d (s.cap (.svc k) f.ce) = true) :
    Raises (.eiss (.svc k) f) (.svc k) s (encE 1 f) { cause := 9 } := by
  refine raises_svc rfl hx (legalE_svc (eiss_fields (.inr ⟨hra, hz⟩))) rfl ?_
  simp only [if_neg (Nat.not_le.2 hp), hcap, withCtx_of hc, ht, hd]
  exact if_neg ha

end

variable (hc : s.ctxOn k = some c)

include hc

theorem eput_stages (hz : f.rd = 0 ∧ f.ce = 0 ∧ f.imm.toNat < 16) : exec (.eput (.svc k) f) s = .next (follows (.svc k)
    (s.setCtx c { s.ctx c with ew := sput 0 (s.ctx c).ew f.imm.toNat (s.gpr (.svc k) f.ra) })) := by
  obtain ⟨hrd, hce, hi⟩ := hz
  refine follows_svc rfl hx (legalE_svc ?_) ?_
  · rw [decide_eq_true ⟨hrd, hce⟩, decide_eq_true hi, Bool.and_self]
  · rw [withCtx_of hc, Nat.mod_eq_of_lt hi]

section

variable (hce : f.ce = 0) (hi : f.imm = 0)

include hce hi

/-- EWAIT in its first run raises ENGINE for a free ticket, and parks the context otherwise. -/
theorem ewait_parks (hr : (s.ctx c).resumed = false) :
    if s.ticket c (s.ticketOf (.svc k) f) = .free then Raises (.ewait (.svc k) f) (.svc k) s (encE 2 f) { cause := 9 }
    else exec (.ewait (.svc k) f) s = .next (s.park c (s.ticketOf (.svc k) f) f.rd) := by
  have hl : (formTicket 2 f).legal (.svc k) (s.core (.svc k)) = true := legalE_svc (decide_eq_true ⟨hce, hi⟩)
  split
  · next hfree =>
    refine raises_svc rfl hx hl rfl ?_
    simp only [withCtx_of hc, hr]
    exact if_pos hfree
  · next hfree =>
    refine (exec_svc rfl hx hl).trans (congrArg Host.Outcome.next ?_)
    simp only [withCtx_of hc, hr]
    exact congrArg (Res.finish (.svc k) (formTicket 2 f).word) (if_neg hfree)

/-- In the run after it has waited it takes the word. -/
theorem ewait_takes {i : Nat} {rd : BitVec 5} {w : Word} (hr : (s.ctx c).resumed = true)
    (ha : (s.ctx c).await = some (i, rd)) (hd : s.ticket c i = .done w) :
    exec (.ewait (.svc k) f) s = .next (follows (.svc k) (s.takeWord (.svc k) c i rd w)) := by
  refine follows_svc rfl hx (legalE_svc (decide_eq_true ⟨hce, hi⟩)) ?_
  simp only [withCtx_of hc, hr, ha, hd]

theorem epoll_free (ht : s.ticket c (s.ticketOf (.svc k) f) = .free) :
    Raises (.epoll (.svc k) f) (.svc k) s (encE 3 f) { cause := 9 } := by
  refine raises_svc rfl hx (legalE_svc (decide_eq_true ⟨hce, hi⟩)) rfl ?_
  simp only [withCtx_of hc, ht]
  rfl

theorem epoll_outstanding (ht : s.ticket c (s.ticketOf (.svc k) f) = .outstanding) :
    Gives (.epoll (.svc k) f) (.svc k) s f.rd 0 :=
  gives_of rfl hx (legalE_svc (decide_eq_true ⟨hce, hi⟩)) fun u hu => by
    obtain rfl := eq_of_noted_svc hu
    simp only [withCtx_of hc, ht]

theorem epoll_done {w : Word} (ht : s.ticket c (s.ticketOf (.svc k) f) = .done w) : exec (.epoll (.svc k) f) s =
    .next (follows (.svc k) ((s.setTicket c (s.ticketOf (.svc k) f) .free).setGpr (.svc k) f.rd w)) := by
  refine follows_svc rfl hx (legalE_svc (decide_eq_true ⟨hce, hi⟩)) ?_
  simp only [withCtx_of hc, ht]

variable (hrd : f.rd = 0)

include hrd

theorem eabort_free (ht : s.ticket c (s.ticketOf (.svc k) f) = .free) :
    Raises (.eabort (.svc k) f) (.svc k) s (encE 4 f) { cause := 9 } := by
  refine raises_svc rfl hx (legalE_svc (decide_eq_true ⟨hrd, hce, hi⟩)) rfl ?_
  simp only [withCtx_of hc, ht]
  rfl

theorem eabort_done {w : Word} (ht : s.ticket c (s.ticketOf (.svc k) f) = .done w) :
    Leaves (.eabort (.svc k) f) (.svc k) s (s.core (.svc k)).advance :=
  leaves_same rfl hx (legalE_svc (decide_eq_true ⟨hrd, hce, hi⟩)) fun u hu => by
    obtain rfl := eq_of_noted_svc hu
    simp only [withCtx_of hc, ht]

theorem eabort_outstanding (ht : s.ticket c (s.ticketOf (.svc k) f) = .outstanding) : exec (.eabort (.svc k) f) s =
    .next (follows (.svc k) ((s.abortWhere c fun e => decide (e.ticket = s.ticketOf (.svc k) f)).postTicket c
      (s.ticketOf (.svc k) f) (doneWord 0 0xFFFF))) := by
  refine follows_svc rfl hx (legalE_svc (decide_eq_true ⟨hrd, hce, hi⟩)) ?_
  simp only [withCtx_of hc, ht]

end

end

/-! ### END (04 R127; 06 R174) -/

/-- A command that executes a form in the state `s` raises ILLEGAL where the form is not legal. -/
theorem executes_illegal {i : Instr} {s₀ s : State} {h : Hart} {fm : Form} {body : State → Res}
    {w : Word32} (hi : exec i s₀ = s.execute h fm body) (hx : Executes h s) (hw : fm.word = w)
    (hl : fm.legal h (s.core h) = false) : ∃ v, Noted h s v ∧ exec i s₀ = .next (v.raiseExc h w excIllegal) := by
  subst hw
  obtain ⟨hb, hf⟩ := hx
  refine ⟨_, State.fetch_ok hf, ?_⟩
  have hc : ((s.fetch h).2).core h = s.core h := State.core_of_fetched (State.fetch_ok hf)
  rw [hi, State.execute, event_of _ _ _ hb]
  cases he : s.fetch h with
  | mk r u =>
    rw [he] at hf hc
    obtain rfl : r = .ok () := hf
    dsimp only at hc ⊢
    rw [hc, hl]
    rfl

/-- The form of END. -/
def formEnd (f : FmtS) : Form := { formS 8 f f.bare with ctl := false, wick := false, slot := false }

theorem legalEnd {f : FmtS} (h : Hart) (c : Core) : (formEnd f).legal h c = (f.bare && isService h && c.slot.isNone) := by
  cases h <;> simp [Form.legal, Form.inProfile, formEnd, formS, isService]

/-- A service core that executes an instruction does not run NOP's fixed program. -/
theorem nop_of_executes {k : Fin 64} {c : Nat} {s : State} (hx : Executes (.svc k) s) (hc : s.ctxOn k = some c) :
    (s.ctx c).nop = false := by
  have hb := hx.1
  simp only [State.begins, State.onNop, hc, Bool.and_eq_true, Bool.not_eq_true'] at hb
  exact hb.2

theorem exec_end_svc {k : Fin 64} {c dt : Nat} {f : FmtS} {s : State} (hx : Executes (.svc k) (s.elapse dt))
    (hc : (s.elapse dt).ctxOn k = some c) : exec (.endCtx (.svc k) f dt) s =
      (s.elapse dt).execute (.svc k) (formEnd f) fun s => .stays (s.endOp c k) := by
  show execEndCtx (.svc k) f dt s = _
  simp only [execEndCtx, hc, nop_of_executes hx hc]
  rfl

/-- END without operands and outside a delay slot takes effect. -/
theorem exec_end_retires {k : Fin 64} {c dt : Nat} {f : FmtS} {s : State} (hx : Executes (.svc k) (s.elapse dt))
    (hc : (s.elapse dt).ctxOn k = some c) (hrd : f.rd = 0) (hra : f.ra = 0) (hi : f.imm = 0)
    (hs : ((s.elapse dt).core (.svc k)).slot = none) : exec (.endCtx (.svc k) f dt) s = .next ((s.elapse dt).endOp c k) := by
  have hl : (formEnd f).legal (.svc k) ((s.elapse dt).core (.svc k)) = true :=
    (legalEnd ..).trans (by simp [(bare_iff f).2 ⟨hrd, hra, hi⟩, isService, hs])
  rw [exec_end_svc hx hc, State.execute_fetched hx hl, eq_of_noted_svc (State.fetch_ok hx.2)]
  rfl

theorem exec_end_other {h : Hart} {dt : Nat} {f : FmtS} {s : State} (hs : isService h = false) :
    exec (.endCtx h f dt) s = (s.elapse dt).execute h (formEnd f) .stays := by
  cases h with
  | svc k => exact absurd hs Bool.true_eq_false.mp
  | ctl n => rfl
  | wick => rfl

@[simp] theorem wasted_tb (s : State) (c : Nat) : (s.wasted c).tb = s.tb := by
  unfold State.wasted
  split <;> simp

@[simp] theorem abortWhere_tb (s : State) (c : Nat) (p : EngCmd → Bool) : (s.abortWhere c p).tb = s.tb := by
  unfold State.abortWhere
  simp

/-- Context `c` is ENDING with the response `r`, which was written at `tb`: its tickets are gone and its core is free. -/
structure Answers (t : State) (c : Nat) (r : Response) (tb : Nat) : Prop where
  st : (t.ctx c).st = .ending
  core : (t.ctx c).core = none
  tickets : (t.ctx c).tickets = []
  resp : (t.ctx c).resp = some r
  respAt : (t.ctx c).respAt = tb
  grantable : (t.ctx c).grantable = true

theorem answers_endWith (t : State) (c : Nat) (r : Response) : Answers (t.endWith c r) c r t.tb := by
  unfold State.endWith
  constructor <;> simp [State.abortAll]

/-- What END makes of its state before it looks at the response block. -/
def retiring (s : State) (c : Nat) (k : Fin 64) : State :=
  let s := (s.countSlot (.svc k) 0).scEnds c
  s.setCtx c { s.ctx c with committed := (s.ctx c).isState }

/-- The response block of context `c` describes a response that a program may give (06 R174). -/
def Describes (s : State) (c : Nat) : Prop :=
  let b := s.svcRead (areaBase c + 0x2040) 16
  (leAt b 0 1 ≤ 3 ∨ 0x30 ≤ leAt b 0 1 ∧ leAt b 0 1 ≤ 0x32 ∨ 0x80 ≤ leAt b 0 1) ∧ leAt b 2 2 ≤ (s.ctx c).respMax ∧
    s.damagedAt .ctx (areaBase c + 0x2040) 16 = false ∧ s.damagedAt .ctx (areaBase c + 0x2080) (leAt b 2 2) = false

/-- That response. -/
def described (s : State) (c : Nat) : Response :=
  let b := s.svcRead (areaBase c + 0x2040) 16
  { status := leAt b 0 1, detail := leAt b 4 4, result := leAt b 8 8,
    payload := s.svcRead (areaBase c + 0x2080) (leAt b 2 2) }

theorem statusOk_iff (n : Nat) : statusOk n = true ↔ n ≤ 3 ∨ 0x30 ≤ n ∧ n ≤ 0x32 ∨ 0x80 ≤ n := by
  simp only [statusOk, Bool.or_eq_true, Bool.and_eq_true, decide_eq_true_eq, or_assoc]

theorem blockResponse_of_describes {s : State} {c : Nat} (hn : (s.ctx c).nop = false) (hd : Describes s c) :
    s.blockResponse c = some (described s c) := by
  obtain ⟨hs, hp, h1, h2⟩ := hd
  simp [State.blockResponse, State.respDamaged, hn, h1, h2, (statusOk_iff _).2 hs, hp, described]

theorem blockResponse_eq_none {s : State} {c : Nat} (hn : (s.ctx c).nop = false) (hd : ¬Describes s c) :
    s.blockResponse c = none := by
  simp only [State.blockResponse, hn, Bool.false_eq_true, if_false]
  split
  · rfl
  · next hdam =>
    simp only [State.respDamaged, Bool.or_eq_true, not_or, Bool.not_eq_true] at hdam
    refine if_neg fun hok => hd ?_
    rw [Bool.and_eq_true, statusOk_iff, decide_eq_true_eq] at hok
    exact ⟨hok.1, hok.2, hdam.1, hdam.2⟩

theorem countSlot_fields (s : State) (h : Hart) (n : Nat) : (s.countSlot h n).dsp = s.dsp ∧
    (s.countSlot h n).damaged = s.damaged ∧ (s.countSlot h n).tb = s.tb := by
  rw [State.countSlot_eq]
  exact ⟨rfl, rfl, rfl⟩

/-- The context's entry, but that its SC stage has ended, its core is free, and it counts as committed where it is a STATE
entry. -/
theorem ctx_retiring (s : State) (c : Nat) (k : Fin 64) : (retiring s c k).ctx c = { s.ctx c with
    stages := completeStage (fun l => decide (l.pool = 0) && l.started) (s.ctx c).stages, core := none
    committed := (s.ctx c).isState } := by
  have hc : (s.countSlot (.svc k) 0).ctx c = s.ctx c := State.ctx_congr (by rw [(countSlot_fields ..).1]) c
  rw [retiring, State.ctx_setCtx_self, State.scEnds, State.ctx_setCtx_self, hc]

theorem retiring_fields (s : State) (c : Nat) (k : Fin 64) : (retiring s c k).dsp.mem = s.dsp.mem ∧
    (retiring s c k).damaged = s.damaged ∧ (retiring s c k).tb = s.tb := by
  obtain ⟨hdsp, hdam, htb⟩ := countSlot_fields s (.svc k) 0
  exact ⟨(rfl : _ = (s.countSlot (.svc k) 0).dsp.mem).trans (congrArg DspState.mem hdsp), hdam, htb⟩

theorem describes_retiring (s : State) (c : Nat) (k : Fin 64) : Describes (retiring s c k) c ↔ Describes s c := by
  obtain ⟨hmem, hdam, -⟩ := retiring_fields s c k
  have hread : (retiring s c k).svcRead = s.svcRead := by funext a n; rw [State.svcRead, State.svcRead, hmem]
  have hdamaged : (retiring s c k).damagedAt = s.damagedAt := by funext m a n; rw [State.damagedAt, State.damagedAt, hdam]
  have hmax : ((retiring s c k).ctx c).respMax = (s.ctx c).respMax := by rw [ctx_retiring]
  unfold Describes
  rw [hread, hdamaged, hmax]

theorem described_retiring (s : State) (c : Nat) (k : Fin 64) : described (retiring s c k) c = described s c := by
  simp only [described, State.svcRead, (retiring_fields s c k).1]

/-- END answers with the response that the block describes, where it commits nothing. -/
theorem endOp_describes {s : State} {c : Nat} {k : Fin 64} (hn : (s.ctx c).nop = false) (hst : (s.ctx c).isState = false)
    (hd : Describes s c) : Answers (s.endOp c k) c (described s c) s.tb := by
  have hb := blockResponse_of_describes (by rw [ctx_retiring, hn]) ((describes_retiring s c k).2 hd)
  have hs : ((retiring s c k).ctx c).isState = false := by rw [ctx_retiring, hst]
  rw [described_retiring] at hb
  have he : s.endOp c k = (retiring s c k).endWith c (described s c) := by
    rw [retiring] at hb hs ⊢
    simp only [State.endOp, State.endRun, hb, hs]
    rfl
  rw [he, ← (retiring_fields s c k).2.2]
  exact answers_endWith ..

/-- Otherwise it sets DSP_EVT.RESP_BAD and answers FAULT. -/
theorem endOp_not_describes {s : State} {c : Nat} {k : Fin 64} (hn : (s.ctx c).nop = false) (hd : ¬Describes s c) :
    (s.endOp c k).on DSP_EVT_RESP_BAD = true ∧ Answers (s.endOp c k) c
      { status := 0x39, detail := 0x40000 + k.val } s.tb := by
  have hb := blockResponse_eq_none (by rw [ctx_retiring, hn]) ((describes_retiring s c k).not.2 hd)
  obtain ⟨t, ht, he⟩ : ∃ t : State, t.tb = s.tb ∧ s.endOp c k =
      (t.raise DSP_EVT_RESP_BAD).endWith c (faultResp 4 k.val) := by
    refine ⟨if (retiring s c k).respDamaged c then (retiring s c k).signal 56 0 else retiring s c k, ?_, ?_⟩
    · split <;> simp [(retiring_fields s c k).2.2]
    · rw [retiring] at hb ⊢
      simp only [State.endOp, State.endRun, hb]
  rw [he]
  constructor
  · rw [State.on_of_rd (State.rd_endWith _ c _ true (by decide))]
    exact State.on_raise_self t DSP_EVT_RESP_BAD (by simp [Fld.fits]) (by decide)
  · rw [← ht]
    exact answers_endWith ..

/-- Settles O28, instruction by instruction; the answer of END is `endOp_describes` and `endOp_not_describes`. -/
theorem engineInstructionsAct : Obligations.EngineInstructionsAct := by
  refine ⟨⟨fun h f s hx hs => ⟨engine_illegal rfl hx (.inr hs), engine_illegal rfl hx (.inr hs),
        engine_illegal rfl hx (.inr hs), engine_illegal rfl hx (.inr hs), engine_illegal rfl hx (.inr hs)⟩,
      fun k c f s hx hc => ⟨?_, eiss_reserved hx, fun hp hb => ?_, fun hp hra hz => ?_, fun hb => ⟨?_, ?_⟩,
        fun hce hi hr => ?_, fun i rd w hce hi hr ha hd => ?_, fun hce hi => ?_, fun hb => ?_, fun hrd hce hi => ?_⟩⟩,
    fun dt f s => ⟨fun h hs hx => ?_,
      fun k c hx hc => ⟨fun hb => ?_, fun hrd hra hi hsl => ⟨fun hr hst => ?_, fun hr => ?_⟩⟩⟩⟩
  · split
    · next hz => exact eput_stages hx hc hz
    · next hz => exact engine_illegal rfl hx (.inl (by rw [← Bool.decide_and, decide_eq_false]; tauto))
  · refine engine_illegal rfl hx (.inl ?_)
    rw [decide_eq_false (Nat.not_le.2 hp), decide_eq_false (by tauto), Bool.or_self]
  · refine eiss_checks hx hp hra hz fun hcap => ⟨eiss_noTicket hx hp hra hz hcap hc, fun i d hi hfree hlow hdesc => ?_⟩
    have ht := State.freeTicket_eq_some hi hfree hlow
    by_cases ha : s.poolAccepts c (s.commandOf c i f (s.cap (.svc k) f.ce)) d (s.cap (.svc k) f.ce) = true
    · refine (if_pos ha).mpr ((eiss_issues hx hp hra hz hcap hc ht hdesc ha).trans ?_)
      rw [State.issue_commandOf]
      rfl
    · exact (if_neg ha).mpr (eiss_rejected hx hp hra hz hcap hc ht hdesc ha)
  · exact engine_illegal rfl hx (.inl (decide_eq_false (not_and_or.2 hb)))
  · exact engine_illegal rfl hx (.inl (decide_eq_false (not_and_or.2 hb)))
  · rw [← State.park_eq]
    exact ewait_parks hx hc hce hi hr
  · rw [← State.takeWord_eq]
    exact ewait_takes hx hc hce hi hr ha hd
  · split
    · next ht => exact epoll_free hx hc hce hi ht
    · next ht => exact epoll_outstanding hx hc hce hi ht
    · next w ht => exact epoll_done hx hc hce hi ht
  · exact engine_illegal rfl hx (.inl (decide_eq_false (by tauto)))
  · split
    · next ht => exact eabort_free hx hc hce hi hrd ht
    · next w ht => exact eabort_done hx hc hce hi hrd ht
    · next ht =>
      obtain ⟨hdone, hqueues⟩ := follows_abort s k ht
      exact ⟨_, eabort_outstanding hx hc hce hi hrd ht, ⟨_, hdone, aborted_word⟩, hqueues⟩
  · exact executes_illegal (exec_end_other hs) hx rfl ((legalEnd ..).trans (by rw [hs, Bool.and_false, Bool.false_and]))
  · refine executes_illegal (exec_end_svc hx hc) hx rfl ((legalEnd ..).trans ?_)
    rw [Bool.and_eq_false_iff, Bool.and_eq_false_iff, ← Bool.not_eq_true, bare_iff, Option.isNone_eq_false_iff,
      Option.isSome_iff_ne_none]
    tauto
  · have ha := endOp_describes (k := k) (nop_of_executes hx hc) hst hr
    exact ⟨_, exec_end_retires hx hc hrd hra hi hsl, ha.st, ha.core, ha.tickets, ha.resp, ha.respAt, ha.grantable⟩
  · obtain ⟨hbad, ha⟩ := endOp_not_describes (k := k) (nop_of_executes hx hc) hr
    exact ⟨_, exec_end_retires hx hc hrd hra hi hsl, hbad, ha.st, ha.core, ha.tickets, ha.resp, ha.respAt, ha.grantable⟩

end Sys2Proof
end

section
/-!
SUPPORT. Proofs/StrayKey.lean: a state whose map of double-bit errors holds a key that is no word's, where the words of
memory have multiples of 4 as their keys (`damKey`). O25 is refuted from it.
-/

namespace Sys2Proof.Machine

/-- The capability at EVEC. -/
def handler : Cap := { tag := true, perms := 0x7FFF, base := 0x10000, top := 0x20000 }

/-- Core 0 may enter an exception, with its frame at 0x20001FC0. The stray key stands 13 bytes above: a word there would lie
across the first and the second part of the frame. -/
def strayKey : State :=
  { State.reset.storeBytes 0x20000000 (capBytes handler) with
    tags := tagPut [] 0x20000000 true
    damaged := [(0x20001FCD, true)]
    cores := [(0, { coreAtReset with
      c := [(14, { tag := true, perms := 0x7FFF, base := 0x20001000, top := 0x20002000 })], evec := 0x20000000 })] }

/-- The entry of an illegal instruction at 0x40. -/
def illegalEntry : Entry := { x := excIllegal, epc := 0x40 }

theorem strayKey_vector : let u := strayKey.settle (.ctl 0)
    (u.core (.ctl 0)).estat.getLsbD 15 = false ∧
      u.readVec (.ctl 0) (u.core (.ctl 0)).evec.toNat = (.ok handler, u) := by decide +kernel

theorem strayKey_stack : let u := strayKey.settle (.ctl 0)
    let st := (u.core (.ctl 0)).cap 14
    let F := st.limit - 64
    st.tag = true ∧ st.otype = 0 ∧ permBit st.perms pW = true ∧ permBit st.perms pSC = true ∧ st.base.toNat + 64 ≤ st.limit ∧
      st.limit % 16 = 0 ∧ 0x20000000 ≤ F ∧ F + 64 ≤ 0x22000000 ∧
      ∀ o ∈ [0x00, 0x10, 0x20, 0x28, 0x30, 0x38], u.actCheck ⟨.ctl 0, st.perms⟩ (F + o) .write = none := by decide +kernel

/-- Entry leaves the key: none of the six writes of the frame covers all four bytes from it on. -/
theorem strayKey_stays : (strayKey.enterExc (.ctl 0) illegalEntry).damaged = [(0x20001FCD, true)] := by decide +kernel

/-- One write of the whole frame takes it away. -/
theorem strayKey_healed : let u := strayKey.settle (.ctl 0)
    healed u.damaged .bus (((u.core (.ctl 0)).cap 14).limit - 64) 64 = [] := by decide +kernel

end Sys2Proof.Machine

namespace Sys2Proof

open Sys2Proof.Machine

/-- Refutes O25: the statement has the codewords of the frame written anew as by one write of 64 bytes, for every map of
double-bit errors, where entry writes the six parts of the frame one after the other (05 R158). The two differ in a key that
is no multiple of 4 and lies across two parts: the one of `strayKey` stays (`strayKey_stays`), and one write would take it
away (`strayKey_healed`). -/
theorem not_exceptionEntrySavesAndJumps : ¬ Obligations.ExceptionEntrySavesAndJumps := by
  unfold Obligations.ExceptionEntrySavesAndJumps
  rintro ⟨henters, -⟩
  obtain ⟨hrsv, hvec⟩ := strayKey_vector
  obtain ⟨htag, hotype, hw, hsc, hsize, halign, hlow, hhigh, hwrites⟩ := strayKey_stack
  obtain ⟨-, -, -, hdamaged, -⟩ := henters 0 strayKey illegalEntry handler hrsv hvec rfl rfl (by decide) htag hotype hw hsc
    hsize halign hlow hhigh hwrites (by decide) (by decide)
  have hgone : (strayKey.enterExc (.ctl 0) illegalEntry).damaged = [] := hdamaged.trans strayKey_healed
  exact List.cons_ne_nil _ _ (strayKey_stays.symm.trans hgone)

end Sys2Proof
end

section
/-!
SUPPORT. Proofs/Entry.lean: what a running control core enters at a boundary (05 R153-R156, R163, R164): the exception of
an instruction, the enabled line of least number, a deferred bus error; and the end of a WAIT. O26 is settled from these.
-/

namespace Sys2Proof.Machine

/-- An exception whose access does not wait enters with what its instruction is: its word, its address or that of the
branch before it, and where that branch goes on (05 R153). -/
theorem State.raiseExc_ctl (s : State) (n : Fin 16) (w : Word32) {x : Exc} (hx : x.wait = false) :
    s.raiseExc (.ctl n) w x = ((s.accessesOver (.ctl n)).countSlot (.ctl n) 1).enterExc (.ctl n)
      { x := x, instr := if x.fetch then 0 else w.setWidth 64, epc := (s.core (.ctl n)).reportPc
        bd := (s.core (.ctl n)).slot.isSome, tgt := ((s.core (.ctl n)).slot.map (·.2)).getD 0
        sh := (s.core (.ctl n)).shadow } := by
  simp only [State.raiseExc, hx, Bool.false_eq_true, if_false, State.takeExc, State.countSlot_core, State.core_accessesOver]

/-- The line that a core would take is the enabled one of least number (05 R164). -/
theorem State.enabledLine_of_least {s : State} {h : Hart} {l : Nat} (hl : l < 16)
    (hdue : (s.core h).ien.getLsbD l = true ∧ s.pending? h l = true)
    (hleast : ∀ k < l, ¬((s.core h).ien.getLsbD k = true ∧ s.pending? h k = true)) : s.enabledLine h = some l := by
  refine List.find?_range_eq_some.2 ⟨?_, List.mem_range.2 hl, fun k hk => ?_⟩
  · rw [hdue.1, hdue.2]
    rfl
  · simpa using not_and_or.1 (hleast k hk)

/-- A control core takes an interrupt at a boundary where IE is set and RSV clear, outside a hold window and a delay slot,
while no access of its instruction is under way. -/
theorem State.interruptDue_ctl {s : State} {n : Fin 16} (hie : (s.core (.ctl n)).estat.getLsbD 12 = true)
    (hrsv : (s.core (.ctl n)).estat.getLsbD 15 = false) (hhold : (s.core (.ctl n)).holdcnt = 0)
    (hslot : (s.core (.ctl n)).slot = none) (hmid : s.midAccess (.ctl n) = false) :
    s.interruptDue (.ctl n) = s.enabledLine (.ctl n) := by
  simp only [State.interruptDue, isService, hie, hrsv, hhold, hslot, hmid]
  rfl

/-- While IE is 0 it takes none. -/
theorem State.interruptDue_masked {s : State} {h : Hart} (hie : (s.core h).estat.getLsbD 12 = false) :
    s.interruptDue h = none := by
  simp only [State.interruptDue, hie, Bool.not_false, Bool.or_true, Bool.true_or, if_true]

theorem State.deferredDue_none {s : State} {h : Hart} (hd : (s.core h).defErr = none) : s.deferredDue h = false := by
  simp [State.deferredDue, hd]

/-- A WAIT that ends retires. -/
theorem State.wait_retires {s : State} {n : Fin 16} (hpow : s.powered = true) :
    Retires (.ctl n) s ((s.setCore (.ctl n) (s.core (.ctl n)).advance).retired (.ctl n)) (s.core (.ctl n)).advance :=
  State.retired_frame_of (hasCore_ctl s n) (fun _ _ => by simp [State.counting, hpow]) (.refl _ s) _

section

variable {s : State} {n : Fin 16} (hpow : s.powered = true) (hrun : s.fget (SYS_CORE_CTRL_STATE n) = 1)
  (hent : s.entering n = false)

include hpow hrun hent

/-- A running control core outside WAIT and outside an entry retires instructions. -/
theorem State.runs_ctl (hw : (s.core (.ctl n)).waiting = false) : s.runs (.ctl n) = true := by
  simp [State.runs, hpow, hrun, hent, hw]

/-- One in WAIT would, once the WAIT is over. -/
theorem State.runs_awake : (s.setCore (.ctl n) { s.core (.ctl n) with waiting := false }).runs (.ctl n) = true :=
  State.runs_ctl (s := s.setCore (.ctl n) _) hpow hrun hent (by rw [State.core_setCore (hasCore_ctl s n)])

/-- INTERRUPT_ENTRY where an interrupt is due and nothing comes before it (05 R156): `t` is the state once a WAIT has
retired. -/
theorem execInterruptEntry_due {l : Nat} {t : State} (hstop : s.stopDue (.ctl n) = false)
    (hdef : s.deferredDue (.ctl n) = false) (hdue : s.interruptDue (.ctl n) = some l)
    (ht : (if (s.core (.ctl n)).waiting then (s.setCore (.ctl n) (s.core (.ctl n)).advance).retired (.ctl n) else s) = t) :
    execInterruptEntry (.ctl n) s = .next (t.enterExc (.ctl n)
      { x := { cause := 0x10, detail := l }, epc := (t.core (.ctl n)).pc, sh := (t.core (.ctl n)).shadow }) := by
  unfold execInterruptEntry
  rw [event_of _ _ _ (by simp [State.runs_awake hpow hrun hent, hstop, hdef, hdue]), hdue, ← ht]

/-- WAIT_WAKE where no interrupt is due but a line is enabled and pending (05 R164). -/
theorem execWaitWake_due (hstop : s.stopDue (.ctl n) = false) (hdef : s.deferredDue (.ctl n) = false)
    (hdue : s.interruptDue (.ctl n) = none) (hline : (s.enabledLine (.ctl n)).isSome = true)
    (hw : (s.core (.ctl n)).waiting = true) :
    execWaitWake (.ctl n) s = .next ((s.setCore (.ctl n) (s.core (.ctl n)).advance).retired (.ctl n)) := by
  unfold execWaitWake
  rw [event_of _ _ _ (by simp [State.runs_awake hpow hrun hent, hstop, hdef, hdue, hline, hw])]

/-- DEFERRED_BUS_ERROR where an error is due (05 R155). -/
theorem execDeferredBusError_due {a : Nat} {more : Bool} (hstop : s.stopDue (.ctl n) = false)
    (hslot : (s.core (.ctl n)).slot = none) (hmid : s.midAccess (.ctl n) = false)
    (herr : (s.core (.ctl n)).defErr = some (a, more)) :
    execDeferredBusError n s = .next ((s.setCore (.ctl n) { s.core (.ctl n) with defErr := none }).enterExc (.ctl n)
      { x := { cause := 5, detail := 4, addr := BitVec.ofNat 64 a }, epc := (s.core (.ctl n)).pc
        sh := (s.core (.ctl n)).shadow, imp := true, more := more }) := by
  unfold execDeferredBusError
  rw [event_of _ _ _ (by simp [hpow, hrun, hent, hstop, State.deferredDue, herr, hslot, hmid])]
  simp only [herr]

end

end Sys2Proof.Machine

namespace Sys2Proof

open Sys2Proof.Machine

/-- Settles O26: an instruction's exception is `State.raiseExc_ctl`; the three events happen where they are due
(`execInterruptEntry_due`, `execWaitWake_due`, `execDeferredBusError_due`), and a WAIT that ends retires first. -/
theorem interruptsAndDeferredErrorsEnter : Obligations.InterruptsAndDeferredErrorsEnter := by
  intro n s h c running due first
  refine ⟨fun w x hx => if_pos hx, fun w x hx => ?_, ?_, ?_, ?_⟩
  · rw [State.raiseExc_ctl s n w hx]
    simp only [c, h, Core.reportPc]
    cases (s.core (.ctl n)).slot with
    | none => rfl
    | some b => rfl
  · rintro l ⟨hpow, hrun, hstop, hent⟩ ⟨hl, hdue, hleast⟩ hie hrsv hhold hslot hdef hmid
    have hint : s.interruptDue h = some l :=
      (State.interruptDue_ctl hie hrsv hhold hslot hmid).trans (State.enabledLine_of_least hl hdue hleast)
    have key := fun {t} => execInterruptEntry_due (t := t) hpow hrun hent hstop (State.deferredDue_none hdef) hint
    refine ⟨fun hw => key (if_neg (ne_true_of_eq_false hw)), fun hw => ⟨_, State.wait_retires hpow, ?_⟩⟩
    refine (key (if_pos hw)).trans ?_
    rw [(State.wait_retires hpow).core]
    simp only [Core.advance, Core.nextPc]
    rw [hslot]
  · rintro l ⟨hpow, hrun, hstop, hent⟩ ⟨hl, hdue, hleast⟩ hie hdef - hw
    exact ⟨_, execWaitWake_due hpow hrun hent hstop (State.deferredDue_none hdef) (State.interruptDue_masked hie)
      (by rw [State.enabledLine_of_least hl hdue hleast]; rfl) hw, State.wait_retires hpow⟩
  · rintro a more ⟨hpow, hrun, hstop, hent⟩ herr hslot hmid
    exact execDeferredBusError_due hpow hrun hent hstop hslot hmid herr

end Sys2Proof
end

section
/-!
SUPPORT. Proofs/Eret.lean: the exception return (05 R160): the words of a frame, what the frame restores, and the check of
the stack capability in it. O27 is settled from these.
-/

namespace Sys2Proof

open Sys2Proof.Machine

/-! ### The frame is read back (05 Table 5.6) -/

/-- The words of a frame are data reads, one after the other. -/
theorem frameWords_cons {u t t' : State} {h : Hart} {p : BitVec 16} {a n v : Nat} {ws : List Word}
    (hr : regsFor h a = false) (hv : u.dataRead h p a 8 = (.ok v, t)) (hws : t.frameWords h p (a + 8) n = (.ok ws, t')) :
    u.frameWords h p a (n + 1) = (.ok (BitVec.ofNat 64 v :: ws), t') := by
  have hword : u.frameWord h p a = (.ok (BitVec.ofNat 64 v), t) := by
    simp only [State.dataRead, hr, Bool.false_eq_true, if_false] at hv
    simp only [State.frameWord]
    cases hs : u.spaceRead h p a 8 with
    | mk r w =>
      rw [hs] at hv
      cases r with
      | error e => cases hv
      | ok b =>
        obtain ⟨hb, rfl⟩ := Prod.mk.inj hv
        rw [← Except.ok.inj hb]
  simp only [State.frameWords, hword, hws]

/-- The registers of core `c` that a frame holds, as ERET restores them. -/
def restored (c : Core) (pcc b : Cap) (epc estat bad instr : Nat) : Core :=
  { c.setCap 14 b with
    pcc := pcc
    epc := BitVec.ofNat 64 epc &&& epcMask
    estat := BitVec.ofNat 64 estat &&& estatMask
    ebadaddr := BitVec.ofNat 64 bad
    einstr := BitVec.ofNat 64 instr &&& 0xFFFFFFFF#64 }

theorem ofNat_shiftLeft_two (x : Nat) : BitVec.ofNat 48 x <<< 2 = BitVec.ofNat 48 (4 * x) := by
  apply BitVec.eq_of_toNat_eq
  simp only [BitVec.toNat_shiftLeft, BitVec.toNat_ofNat, Nat.shiftLeft_eq]
  omega

section

variable {h : Hart} {s : State} {F epc estat bad instr : Nat} {pcc b : Cap}

/-- A frame all of whose reads pass is restored: ERET goes to EPC, or, where BD is set, to the delay slot behind it and
then to TGT. -/
theorem restoreFrame_eq {u : State} (hu : Noted h s u)
    (hpcc : ReadsCap h s (s.cap h 14).perms F pcc) (hb : ReadsCap h s (s.cap h 14).perms (F + 0x10) b)
    (hr : ∀ i < 4, regsFor h (F + 0x20 + 8 * i) = false) (he : Reads h s (s.cap h 14).perms (F + 0x20) 8 epc)
    (hs : Reads h s (s.cap h 14).perms (F + 0x28) 8 estat) (ha : Reads h s (s.cap h 14).perms (F + 0x30) 8 bad)
    (hi : Reads h s (s.cap h 14).perms (F + 0x38) 8 instr) :
    ∃ t, Noted h s t ∧ restoreFrame h F u = .switch (t.setCore h (restored (s.core h) pcc b epc estat bad instr))
      (if (s.core h).estat.getLsbD 16 = true then (s.core h).epc.setWidth 48 + 4 else (s.core h).epc.setWidth 48)
      (if (s.core h).estat.getLsbD 16 = true then
        some ((s.core h).epc.setWidth 48, BitVec.ofNat 48 (4 * bitsOf (s.core h).estat 18 46)) else none) false := by
  obtain ⟨u1, h1, e1⟩ := hpcc u hu
  obtain ⟨u2, h2, e2⟩ := hb u1 h1
  obtain ⟨u3, h3, e3⟩ := he u2 h2
  obtain ⟨u4, h4, e4⟩ := hs u3 h3
  obtain ⟨u5, h5, e5⟩ := ha u4 h4
  obtain ⟨u6, h6, e6⟩ := hi u5 h5
  have hwords : u2.frameWords h (s.cap h 14).perms (F + 0x20) 4 =
      (.ok [BitVec.ofNat 64 epc, BitVec.ofNat 64 estat, BitVec.ofNat 64 bad, BitVec.ofNat 64 instr], u6) :=
    frameWords_cons (hr 0 (by decide)) e3 <| frameWords_cons (hr 1 (by decide)) e4 <|
      frameWords_cons (hr 2 (by decide)) e5 <| frameWords_cons (hr 3 (by decide)) e6 rfl
  have hcap : (s.core h).cap 14 = s.cap h 14 := rfl
  refine ⟨u6, h6, ?_⟩
  simp only [restoreFrame, hcap, e1, e2, hwords, State.core_of_fetched hu, ofNat_shiftLeft_two]
  split <;> rfl

theorem frameOk_iff {st : Cap} (hu : st.usable = true) :
    frameOk st b = true ↔ b.tag = true ∧ st.base = b.base ∧ st.limit + 64 = b.limit := by
  simp only [frameOk, hu, Bool.true_and, Bool.and_eq_true, decide_eq_true_eq, and_assoc]

/-- ERET on c14 checks the stack capability that stands in the frame. -/
theorem eretOp_eq {u : State} (hu : Noted h s u) (hst : (s.cap h 14).usable = true)
    (hrsv : (s.core h).estat.getLsbD 15 = false)
    (hb : ReadsCap h s (s.cap h 14).perms ((s.cap h 14).limit + 0x10) b) :
    ∃ t, Noted h s t ∧ eretOp h u =
      if frameOk (s.cap h 14) b then restoreFrame h (s.cap h 14).limit t else .raises (excCap 7) t := by
  obtain ⟨t, ht, hread⟩ := hb u hu
  have hstack : u.frameStack h = (.ok b, t) := by
    have hcap : (s.core h).cap 14 = s.cap h 14 := rfl
    simp only [State.frameStack, Core.stackAt, State.core_of_fetched hu, hrsv, Bool.false_eq_true, if_false, hcap, hread]
  exact ⟨t, ht, by simp only [eretOp, State.cap_of_fetched hu, hst, hstack, Bool.not_true, Bool.false_eq_true, if_false]⟩

end

/-! ### The instruction -/

section

variable {h : Hart} {f : FmtS} {c : Core}

theorem legal_eret (hc : isService h = false) (hs : c.slot = none) (hf : f.bare = true) :
    Form.legal { formS 4 f f.bare with svc := false, slot := false } h c = true :=
  legal_jump (w := encS 4 f) (svc := false) hs hf (.inr hc)

theorem illegal_eret (hb : isService h = true ∨ c.slot ≠ none ∨ f.bare = false) :
    Form.legal { formS 4 f f.bare with svc := false, slot := false } h c = false :=
  illegal_jump (w := encS 4 f) (svc := false)
    (hb.elim (fun hc => .inr (.inr ⟨rfl, hc⟩)) (·.imp_right .inl))

end

/-- Settles O27: the form, SYS, and c14 are checked in turn; then the stack capability in the frame (`eretOp_eq`), and the
rest of the frame is restored (`restoreFrame_eq`). -/
theorem exceptionReturnRestores : Obligations.ExceptionReturnRestores := by
  intro h f s pcc b epc estat bad instr hx
  refine ⟨fun hb => ?_, fun hc hslot hrd hra himm => ?_⟩
  · refine raises_illegal rfl hx rfl (illegal_eret (hb.imp_right (·.imp_right fun hb => decide_eq_false ?_)))
    rintro ⟨hrd, hra, himm⟩
    exact hb.elim (· hrd) (·.elim (· hra) (· himm))
  have hl := legal_eret hc hslot (decide_eq_true ⟨hrd, hra, himm⟩ : f.bare = true)
  refine ⟨fun hsys => ?_, fun hsys hbuf hdef => ⟨fun hst => ?_, fun htag hotype hrsv hpcc hb hr he hs ha hi => ?_⟩⟩
  · refine raises_of rfl hx hl rfl fun u hu => ?_
    simp only [State.core_of_fetched hu, hsys, Bool.false_eq_true, if_false]
  · refine raises_of rfl hx hl rfl fun u hu => ?_
    have hun : (s.cap h 14).usable = false := by
      rw [Bool.eq_false_iff, Ne, usable_iff]
      rintro ⟨htag, hotype⟩
      exact hst.elim (fun hn => Bool.false_ne_true (hn.symm.trans htag)) (· hotype)
    simp only [State.core_of_fetched hu, hsys, if_true, settled_of_empty hu hbuf hdef, eretOp, State.cap_of_fetched hu, hun,
      Bool.not_false]
  have hst : (s.cap h 14).usable = true := (usable_iff _).2 ⟨htag, hotype⟩
  split
  · next hok =>
    refine leaves_switch (i := .eret h f) (c := restored (s.core h) pcc b epc estat bad instr) rfl hx hl fun u hu => ?_
    obtain ⟨t, ht, hop⟩ := eretOp_eq hu hst hrsv hb
    obtain ⟨t', ht', hrest⟩ := restoreFrame_eq ht hpcc hb hr he hs ha hi
    refine ⟨t', ht', ?_⟩
    simp only [State.core_of_fetched hu, hsys, if_true, settled_of_empty hu hbuf hdef]
    rw [hop, if_pos ((frameOk_iff hst).2 hok), hrest]
  · next hbad =>
    refine raises_after rfl hx hl rfl fun u hu => ?_
    obtain ⟨t, ht, hop⟩ := eretOp_eq hu hst hrsv hb
    refine ⟨t, ht, ?_⟩
    simp only [State.core_of_fetched hu, hsys, if_true, settled_of_empty hu hbuf hdef]
    rw [hop, if_neg ((frameOk_iff hst).not.2 hbad)]

end Sys2Proof
end

section
/-!
SUPPORT. Proofs/DispatchWrites.lean: granted writes of the registers that start a program load, an epoch switch or an
internal request, or free a program slot (06 R179, R184-R186; 03 R69).
-/

namespace Sys2Proof.Machine

theorem regEffect_dsp {s : State} {a : Acc} {row : RegRow} {r : Nat} {v : Word} (h : r / 0x100000 = 0x404) :
    s.regEffect a row r v = s.writeDsp row r v := by
  simp only [State.regEffect, h]

/-- The map holds a 32-bit register at `r`, once for both banks. -/
def isUnbanked (r : Nat) : Bool := (regRow? r).any fun row => isReg r row && !row.banked

theorem dispatchRegs_unbanked :
    ∀ r ∈ [DSP_LDR_CTRL, DSP_PSLOT_STAT, DSP_EPOCH, DSP_IREQ_GO, ADM_EPOCH], isUnbanked r = true := by decide +kernel

/-- A granted write of such a register answers its block's effect. -/
theorem sets_unbanked {i : Instr} {a : Acc} {r : Nat} {v : Word32} {s t : State} (hr : isUnbanked r = true)
    (hi : exec i s = s.writeRow a r v)
    (ht : ∀ row : RegRow, row.banked = false → s.regEffect a row r (v.setWidth 64) = t) : Sets i a r v s t := by
  intro h
  obtain ⟨row, -, hrow⟩ := Option.any_eq_true .. |>.mp hr
  obtain ⟨hreg, hbank⟩ := Bool.and_eq_true .. |>.mp hrow
  rw [hi, writeRow_eq h hreg, ht row (Bool.not_eq_true' _ |>.mp hbank)]

section
variable (a : Acc) (v : Word32) (s : State)

theorem programLoad_sets : Sets (.programLoad a v) a DSP_LDR_CTRL v s (s.loaderGo v) :=
  sets_unbanked (dispatchRegs_unbanked _ (by simp)) rfl fun row hb => by
    rw [regEffect_dsp (by decide)]
    simp [State.writeDsp, hb]

theorem pslotFree_sets : Sets (.pslotFree a v) a DSP_PSLOT_STAT v s (s.pslotFree v) :=
  sets_unbanked (dispatchRegs_unbanked _ (by simp)) rfl fun row hb => by
    rw [regEffect_dsp (by decide)]
    simp [State.writeDsp, hb]

theorem ireqSubmit_sets : Sets (.ireqSubmit a v) a DSP_IREQ_GO v s (s.ireqSubmit v) :=
  sets_unbanked (dispatchRegs_unbanked _ (by simp)) rfl fun row hb => by
    rw [regEffect_dsp (by decide)]
    simp [State.writeDsp, hb]

/-- The switch starts alike from either unit (06 R184). -/
theorem epochSwitch_sets (adm : Bool) :
    Sets (.epochSwitch a adm v) a (if adm = true then ADM_EPOCH else DSP_EPOCH) v s (s.epochSwitch v) := by
  cases adm with
  | true =>
    exact sets_unbanked (dispatchRegs_unbanked _ (by simp)) rfl fun row hb => by
      rw [if_pos rfl, regEffect_adm (by decide)]
      simp [State.writeAdm, hb]
  | false =>
    exact sets_unbanked (dispatchRegs_unbanked _ (by simp)) rfl fun row hb => by
      rw [if_neg Bool.false_ne_true, regEffect_dsp (by decide)]
      simp [State.writeDsp, hb]

end

end Sys2Proof.Machine
end

section
/-!
SUPPORT. Proofs/BlockTransfers.lean: what a transfer over the interconnect leaves alone (07 R194): a block that is read
touches the registers and the flash controller, a block that is written the registers, the fault collector and memory.
-/

namespace Sys2Proof.Machine

/-! ### A block that is read -/

/-- `t` is `s` but for its registers and its flash controller. -/
def RegsFlc (s t : State) : Prop := ∃ r f, t = { s with regs := r, flc := f }

theorem RegsFlc.refl (s : State) : RegsFlc s s := ⟨_, _, rfl⟩

theorem RegsFlc.trans {s t u : State} (h : RegsFlc s t) (k : RegsFlc t u) : RegsFlc s u := by
  obtain ⟨r, f, rfl⟩ := h
  obtain ⟨r', f', rfl⟩ := k
  exact ⟨r', f', rfl⟩

theorem RegsFlc.dsp {s t : State} (h : RegsFlc s t) : t.dsp = s.dsp := by obtain ⟨r, f, rfl⟩ := h; rfl
theorem RegsFlc.mem {s t : State} (h : RegsFlc s t) : t.mem = s.mem := by obtain ⟨r, f, rfl⟩ := h; rfl

theorem drainStalls_regsFlc (s : State) (f : FlcState) (l : List Stall) :
    RegsFlc s (State.drainStalls { s with flc := f } l) := ⟨_, _, State.drainStalls_eq _ _⟩

theorem endStalls_regsFlc (s : State) (m : Master) : RegsFlc s (s.endStalls m) := drainStalls_regsFlc s _ _

theorem serve_regsFlc (s : State) (m : Master) (addr : Nat) (ty : Access) : RegsFlc s (s.flashRead.serve m addr ty) :=
  drainStalls_regsFlc s _ _

theorem State.readNow_ok {s t : State} {addr n : Nat} {bs : List Byte} (h : s.readNow addr n = (.ok bs, t)) : t = s := by
  unfold State.readNow at h
  split at h
  · cases h
  · exact (Prod.mk.inj h).2.symm

theorem State.busRead_regsFlc {s t : State} {a : Acc} {addr n : Nat} {ty : Access} {bs : List Byte}
    (h : s.busRead a addr n ty = (.ok bs, t)) : RegsFlc s t := by
  unfold State.busRead at h
  split at h
  · cases h
  · next hp =>
    obtain rfl := State.passes_ok hp
    split at h
    · cases h
    split at h
    · cases h
    · rw [State.readNow_ok h]
      split
      · exact serve_regsFlc _ _ _ _
      · exact .refl _

theorem State.burstRead_regsFlc {a : Acc} (n : Nat) : ∀ {s t : State} {addr : Nat} {bs : List Byte},
    s.burstRead a addr n = (.ok bs, t) → RegsFlc s t := by
  induction n with
  | zero => intro s t addr bs h; cases h; exact .refl _
  | succ n ih =>
    intro s t addr bs h
    unfold State.burstRead at h
    split at h
    · cases h
    · next hfirst =>
      split at h
      · cases h
      · next hrest => cases h; exact (State.busRead_regsFlc hfirst).trans (ih hrest)

theorem State.readBlock_regsFlc {s t : State} {a : Acc} {addr len : Nat} {bs : List Byte}
    (h : s.readBlock a addr len = (.ok bs, t)) : RegsFlc s t := by
  unfold State.readBlock at h
  dsimp only at h
  split at h
  · cases h
  · next hb => cases h; exact State.burstRead_regsFlc _ hb

/-! ### A block that is written -/

/-- `t` is `s` but for its registers, its fault collector and the memory of the interconnect. -/
def BusWritten (s t : State) : Prop :=
  ∃ r f m d g, t = { s with regs := r, flt := f, mem := m, damaged := d, tags := g }

theorem BusWritten.refl (s : State) : BusWritten s s := ⟨_, _, _, _, _, rfl⟩

theorem BusWritten.trans {s t u : State} (h : BusWritten s t) (k : BusWritten t u) : BusWritten s u := by
  obtain ⟨r, f, m, d, g, rfl⟩ := h
  obtain ⟨r', f', m', d', g', rfl⟩ := k
  exact ⟨r', f', m', d', g', rfl⟩

theorem BusWritten.of_regsFlt {s t : State} (h : RegsFlt s t) : BusWritten s t := by
  obtain ⟨r, f, rfl⟩ := h
  exact ⟨r, f, _, _, _, rfl⟩

theorem BusWritten.dsp {s t : State} (h : BusWritten s t) : t.dsp = s.dsp := by obtain ⟨r, f, m, d, g, rfl⟩ := h; rfl
theorem BusWritten.out {s t : State} (h : BusWritten s t) : t.out = s.out := by obtain ⟨r, f, m, d, g, rfl⟩ := h; rfl
theorem BusWritten.freeCtr {s t : State} (h : BusWritten s t) : t.freeCtr = s.freeCtr := by
  obtain ⟨r, f, m, d, g, rfl⟩ := h; rfl

/-- A denial is recorded in registers, and the fault collector hears of it (07 R206). -/
theorem violate_regsFlt (s : State) (a : Acc) (addr : Nat) (ty : Access) (d : Denial) :
    RegsFlt s (s.violate a addr ty d) := by
  have hcount : RegsFlt s ((s.raise ACT_EVT_VIOL).count 0x05B 1) := ((RegsFlt.refl s).raise _).count _ _
  have hlog := RegsFlt.ite (((s.raise ACT_EVT_VIOL).count 0x05B 1).on ACT_VIOL_INFO_VALID = true)
    (hcount.raise ACT_VIOL_INFO_MORE)
    ((hcount.wr ACT_VIOL_ADDR (BitVec.ofNat 64 addr)).wr ACT_VIOL_INFO
      (BitVec.ofNat 64 (0x80000000 + d.rule * 0x10000 + midOf a.master * 0x100 + d.reason * 0x10 + accCode ty)))
  exact .ite _ (((hlog.raise _).raise _).signal _ _) (hlog.signal _ _)

theorem enter_busWritten (s : State) (a : Acc) (addr : Nat) (ty : Access) : BusWritten s (s.enter a addr ty).2 := by
  unfold State.enter
  split
  · exact .refl s
  split
  · exact .refl s
  · exact .of_regsFlt (violate_regsFlt s a addr ty _)

theorem busWrite_busWritten (s : State) (a : Acc) (addr : Nat) (bs : List Byte) (tag : Bool) :
    BusWritten s (s.busWrite a addr bs tag).2 := by
  have he := enter_busWritten s a addr .write
  unfold State.busWrite
  split
  · next h => rw [h] at he; exact he
  · next u h =>
    rw [h] at he
    split
    · refine he.trans ?_
      cases tag <;> exact ⟨_, _, _, _, _, rfl⟩
    · exact he

theorem burstWrite_busWritten (a : Acc) (n : Nat) : ∀ (s : State) (addr : Nat) (bs : List Byte),
    BusWritten s (s.burstWrite a addr bs n).2 := by
  induction n with
  | zero => exact fun s _ _ => .refl s
  | succ n ih =>
    intro s addr bs
    unfold State.burstWrite
    split
    · exact .refl s
    · have hw := busWrite_busWritten s a addr (bs.take (32 - addr % 32)) false
      dsimp only
      split
      · next h => rw [h] at hw; exact hw
      · next h => rw [h] at hw; exact hw.trans (ih _ _ _)

theorem writeBlock_busWritten (s : State) (a : Acc) (addr : Nat) (bs : List Byte) :
    BusWritten s (s.writeBlock a addr bs).2 := burstWrite_busWritten a _ s addr bs

end Sys2Proof.Machine
end

section
/-!
SUPPORT. Proofs/ProgramLoad.lean: the end of a program load (06 R179, Table 6.8): where it fails and with which code, and
what a pass leaves in the slot. The first half of O35 is settled from these.
-/

namespace Sys2Proof.Machine

/-! ### The codes (06 Table 6.8) -/

/-- No check reports the code 0, which is a pass. -/
theorem State.imageFault_ne_zero {s : State} {im : Image} {code k : Nat} (h : s.imageFault im = some (code, k)) :
    code ≠ 0 := by
  unfold State.imageFault at h
  dsimp only at h
  repeat' split at h
  all_goals cases h <;> decide

/-- The load has ended without a program: the code and its INDEX are in DSP_LDR_RES. -/
def State.loadFails (s : State) (code k : Nat) : State :=
  State.raise (((State.lower { s with dsp := { s.dsp with loading := none } } DSP_LDR_CTRL_BUSY |>.endStalls .loader).fset
    DSP_LDR_RES_ERR code).fset DSP_LDR_RES_INDEX k) DSP_EVT_LDR_ERR

theorem State.loadEnds_fails {code : Nat} (s : State) (k : Nat) (h : code ≠ 0) : s.loadEnds code k = s.loadFails code k := by
  rw [State.loadEnds, if_neg h]
  rfl

/-! ### The steps of a load (06 R179) -/

/-- The load under way is carried on. -/
def State.loadStep (s : State) : State :=
  match s.dsp.loading with
  | some (src, slot) => s.loadImage src slot
  | none => s

theorem State.loadStep_some {s : State} {src slot : Nat} (h : s.dsp.loading = some (src, slot)) :
    s.loadStep = s.loadImage src slot := by
  rw [State.loadStep, h]

theorem programLoadDone_eq (dt : Nat) (s : State) : exec (.programLoadDone dt) s =
    timed dt (fun s => s.powered && s.dsp.loading.isSome) s State.loadStep := by rfl

theorem programLoadDone_idle {dt : Nat} {s : State} (h : (s.elapse dt).powered = false ∨ (s.elapse dt).dsp.loading = none) :
    exec (.programLoadDone dt) s = .next (s.elapse dt) := by
  rw [programLoadDone_eq]
  refine timed_neg ?_
  rcases h with h | h
  · simp only [h, Bool.false_and]
  · simp only [h, Option.isSome_none, Bool.and_false]

theorem programLoadDone_loads {dt src slot : Nat} {s : State} (hp : (s.elapse dt).powered = true)
    (hl : (s.elapse dt).dsp.loading = some (src, slot)) :
    exec (.programLoadDone dt) s = .next ((s.elapse dt).loadImage src slot) := by
  rw [programLoadDone_eq, timed_pos (by simp only [hp, hl, Option.isSome_some, Bool.and_self]), State.loadStep_some hl]

section
variable {s t w : State} {src slot : Nat} {h r : List Byte} {nissue ncode nconst : Nat}

theorem State.loadImage_inUse (hs : s.slotIdle slot = false) : s.loadImage src slot = s.loadFails 1 0 := by
  rw [State.loadImage, hs, if_pos (by decide), State.loadEnds_fails _ _ (by decide)]

theorem State.loadImage_unread {x : BusErr} (hs : s.slotIdle slot = true)
    (hh : (s.emptySlot slot).readBlock ⟨.loader, 0⟩ src 32 = (.error x, t)) :
    s.loadImage src slot = if x = .wait then t else t.loadFails 2 0 := by
  rw [← State.loadEnds_fails t 0 (show 2 ≠ 0 by decide)]
  simp only [State.loadImage, hs, Bool.not_true, Bool.false_eq_true, if_false, hh]
  cases x <;> rfl

section
variable (hs : s.slotIdle slot = true) (hh : (s.emptySlot slot).readBlock ⟨.loader, 0⟩ src 32 = (.ok h, t))
include hs hh

theorem State.loadImage_badHeader (hl : headerLens h = none) : s.loadImage src slot = t.loadFails 3 0 := by
  rw [← State.loadEnds_fails t 0 (show 3 ≠ 0 by decide)]
  simp only [State.loadImage, hs, Bool.not_true, Bool.false_eq_true, if_false, hh, hl]

variable (hl : headerLens h = some (nissue, ncode, nconst))
include hl

theorem State.loadImage_cutShort {x : BusErr}
    (hb : t.readBlock ⟨.loader, 0⟩ (src + 32) (16 * nissue + 4 * ncode + nconst) = (.error x, w)) :
    s.loadImage src slot = if x = .wait then w else w.loadFails 2 0 := by
  rw [← State.loadEnds_fails w 0 (show 2 ≠ 0 by decide)]
  simp only [State.loadImage, hs, Bool.not_true, Bool.false_eq_true, if_false, hh, hl, hb]
  cases x <;> rfl

variable (hb : t.readBlock ⟨.loader, 0⟩ (src + 32) (16 * nissue + 4 * ncode + nconst) = (.ok r, w))
include hb

theorem State.loadImage_faulty {code k : Nat} (hf : w.imageFault (imageOf h r nissue ncode nconst) = some (code, k)) :
    s.loadImage src slot = w.loadFails code k := by
  rw [← State.loadEnds_fails w k (State.imageFault_ne_zero hf)]
  simp only [State.loadImage, hs, Bool.not_true, Bool.false_eq_true, if_false, hh, hl, hb, hf]

theorem State.loadImage_passes (hf : w.imageFault (imageOf h r nissue ncode nconst) = none) :
    s.loadImage src slot = (w.fillSlot slot (imageOf h r nissue ncode nconst)).loadEnds 0 0 := by
  simp only [State.loadImage, hs, Bool.not_true, Bool.false_eq_true, if_false, hh, hl, hb, hf]

end

end

/-- What was read left every program, context and byte of memory alone, but for the slot that was emptied. -/
theorem State.loadRead_frame {s t w : State} {a b slot m n : Nat} {h r : List Byte}
    (hh : (s.emptySlot slot).readBlock ⟨.loader, 0⟩ a m = (.ok h, t)) (hb : t.readBlock ⟨.loader, 0⟩ b n = (.ok r, w)) :
    w.dsp = (s.emptySlot slot).dsp ∧ w.mem = s.mem :=
  have hread := (State.readBlock_regsFlc hh).trans (State.readBlock_regsFlc hb)
  ⟨hread.dsp, hread.mem⟩

/-! ### What a load that ends leaves -/

/-- A load that ends touches beside the registers its own flag and the accesses that the flash array held up for it. -/
theorem State.loadEnds_frame (s : State) (code k : Nat) :
    (s.loadEnds code k).dsp.progs = s.dsp.progs ∧ (s.loadEnds code k).dsp.ctxs = s.dsp.ctxs ∧
      (s.loadEnds code k).dsp.loading = none ∧ (s.loadEnds code k).mem = s.mem := by
  have hend := endStalls_regsFlc (State.lower { s with dsp := { s.dsp with loading := none } } DSP_LDR_CTRL_BUSY) .loader
  simp only [State.loadEnds, State.raise_dsp, State.fset_dsp, State.raise_mem, State.fset_mem, hend.dsp, hend.mem,
    State.lower_dsp, State.lower_mem, and_self]

/-- The result of a pass: DONE is set, and the loader is free. -/
theorem State.loadEnds_passed (s : State) : (s.loadEnds 0 0).on DSP_EVT_LDR_DONE = true ∧
    (s.loadEnds 0 0).on DSP_LDR_CTRL_BUSY = false ∧ (s.loadEnds 0 0).fget DSP_LDR_RES_ERR = 0 := by
  rw [State.loadEnds, if_pos rfl]
  refine ⟨State.on_raise_self _ _ (by simp [Fld.fits]) (by decide), ?_, ?_⟩
  · rw [State.on_raise_apart _ _ _ (by simp [Fld.fits]) (.inl (by decide)),
      State.on_fset_apart _ _ _ _ (by simp [Fld.fits]) (.inl (by decide)),
      State.on_fset_apart _ _ _ _ (by simp [Fld.fits]) (.inl (by decide)),
      State.on_of_rd ((Drains.endStalls _ _).regs _ (by unfold NoEvent; decide) (by decide))]
    exact State.on_lower_self _ _ (by simp [Fld.fits])
  · rw [State.raise, State.fget_fset_apart _ _ _ _ (by simp [Fld.fits]) (.inl (by decide)),
      State.fget_fset_apart _ _ _ _ (by simp [Fld.fits]) (.inr (.inr (by decide)))]
    exact State.fget_fset_self _ _ _ (by simp [Fld.fits])

theorem State.prog_emptySlot_ne (s : State) {slot m : Nat} (h : m ≠ slot) : (s.emptySlot slot).prog m = s.prog m := by
  unfold State.prog State.emptySlot
  dsimp only
  rw [sget_sput_ne _ _ _ _ h]

/-- The slot holds what the image says. -/
theorem State.prog_fillSlot (s : State) (slot : Nat) (im : Image) :
    let p := (s.fillSlot slot im).prog slot
    p.loaded = true ∧ p.id = im.id ∧ p.ver = im.ver ∧ p.ncode = im.code.length ∧ p.descs = im.descs.map (·.1) := by
  dsimp only
  unfold State.prog State.fillSlot
  dsimp only
  rw [sget_sput_self]
  exact ⟨rfl, rfl, rfl, rfl, rfl⟩

theorem State.prog_fillSlot_ne (s : State) {slot m : Nat} (im : Image) (h : m ≠ slot) :
    (s.fillSlot slot im).prog m = s.prog m := by
  unfold State.prog State.fillSlot
  dsimp only
  rw [sget_sput_ne _ _ _ _ h]

theorem State.prog_congr {s t : State} (h : t.dsp.progs = s.dsp.progs) (m : Nat) : t.prog m = s.prog m := by
  unfold State.prog; rw [h]

/-- A pass fills the slot, frees the loader and leaves everything else that a program runs on. -/
theorem State.loadPasses_spec {s t w : State} {src slot nissue ncode nconst a m n : Nat} {h r : List Byte}
    (hh : (s.emptySlot slot).readBlock ⟨.loader, 0⟩ src m = (.ok h, t)) (hb : t.readBlock ⟨.loader, 0⟩ a n = (.ok r, w)) :
    let im := imageOf h r nissue ncode nconst
    let f := (w.fillSlot slot im).loadEnds 0 0
    let p := f.prog slot
    p.loaded = true ∧ p.id = leAt h 20 4 ∧ p.ver = leAt h 24 4 ∧ p.ncode = ncode ∧ p.descs = im.descs.map (·.1) ∧
      f.on DSP_EVT_LDR_DONE = true ∧ f.on DSP_LDR_CTRL_BUSY = false ∧ f.fget DSP_LDR_RES_ERR = 0 ∧ f.dsp.loading = none ∧
      (∀ m, m ≠ slot → f.prog m = s.prog m) ∧ f.dsp.ctxs = s.dsp.ctxs ∧ f.mem = s.mem := by
  intro im f p
  obtain ⟨hdsp, hmem⟩ := State.loadRead_frame hh hb
  obtain ⟨hprogs, hctxs, hloading, hfmem⟩ := (w.fillSlot slot im).loadEnds_frame 0 0
  obtain ⟨hdone, hbusy, herr⟩ := (w.fillSlot slot im).loadEnds_passed
  have hprog : ∀ m, f.prog m = (w.fillSlot slot im).prog m := State.prog_congr hprogs
  obtain ⟨hloaded, hid, hver, hlen, hdescs⟩ := w.prog_fillSlot slot im
  rw [← hprog] at hloaded hid hver hlen hdescs
  have hcode : im.code.length = ncode := (List.length_map _).trans List.length_range
  refine ⟨hloaded, hid, hver, hlen.trans hcode, hdescs, hdone, hbusy, herr, hloading, fun m hm => ?_, ?_,
    hfmem.trans hmem⟩
  · rw [hprog, State.prog_fillSlot_ne w im hm, State.prog_congr (congrArg DspState.progs hdsp), State.prog_emptySlot_ne s hm]
  · have hread : w.dsp.ctxs = s.dsp.ctxs := by rw [hdsp]; rfl
    exact hctxs.trans hread

/-! ### The registers of the loader (06 R179, R185) -/

theorem State.loaderGo_eq (s : State) (v : Word32) :
    let t := s.fset DSP_LDR_CTRL_SLOT v.toNat
    s.loaderGo v = if v.getLsbD 31 = true ∧ t.on DSP_LDR_CTRL_BUSY = false then
        { t.raise DSP_LDR_CTRL_BUSY with dsp := { s.dsp with loading := some ((t.rd DSP_LDR_SRC).toNat, v.toNat % 1024) } }
      else t := by
  intro t
  have hcond := Bool.and_eq_true (v.getLsbD 31) (!t.on DSP_LDR_CTRL_BUSY)
  rw [Bool.not_eq_true'] at hcond
  exact if_congr hcond.to_iff rfl rfl

theorem State.slotIdle_iff (s : State) (n : Nat) : s.slotIdle n = true ↔
    s.references 0 n = false ∧ s.references 1 n = false ∧ s.slotLive n = 0 := by
  simp only [State.slotIdle, Bool.and_eq_true, Bool.not_eq_true', decide_eq_true_eq, and_assoc]

theorem State.pslotFree_eq (s : State) (v : Word32) :
    let n := s.fget DSP_PSLOT_SEL_SLOT
    s.pslotFree v = if v.getLsbD 31 = false then s
      else if s.references 0 n = false ∧ s.references 1 n = false ∧ s.slotLive n = 0 then s.emptySlot n
      else s.raise DSP_EVT_EPOCH_ERR := by
  intro n
  rw [← ite_not]
  exact if_congr (Bool.not_eq_false _).symm.to_iff (if_congr (s.slotIdle_iff n) rfl rfl) rfl

end Sys2Proof.Machine
end

section
/-!
SUPPORT. Proofs/EpochSwitch.lean: the joint switch of both banks (03 R69; 06 R184): the cost entries that the validation
writes, where it fails, and what a pass puts in force. O35 is settled from these and Proofs/ProgramLoad.lean.
-/

namespace Sys2Proof.Machine

/-! ### The cost entries (06 R184, step 2) -/

/-- `a` is a register of the map, and no word of a cost entry. -/
def NoCost (a : Nat) : Prop := a < 0x40340000 ∨ 0x40360000 ≤ a ∧ a < 2 ^ 48

/-- Entries of other keys can be removed from a map. -/
theorem sget_filter {α : Type} (d : α) {p : Nat × α → Bool} {k : Nat} (h : ∀ v, p (k, v) = true) (m : Sparse α) :
    sget d (m.filter p) k = sget d m k := by
  induction m with
  | nil => rfl
  | cons e t ih =>
    obtain ⟨k', v⟩ := e
    by_cases hk : k' = k
    · subst hk
      rw [List.filter_cons_of_pos (h v)]
      simp [sget]
    · by_cases hp : p (k', v) = true
      · rw [List.filter_cons_of_pos hp]
        simp [sget, hk, ih]
      · rw [List.filter_cons_of_neg hp, ih]
        simp [sget, hk]

/-- A word of a cost entry, as the validation writes it. -/
def State.putCost (s : State) (b v w n : Nat) : State := s.wr (bankAddr b (ADM_COST v w)) (BitVec.ofNat 64 n)

theorem State.rd_putCost (s : State) (b n : Nat) {v w a : Nat} (hv : v < 4096) (hw : w < 8) (h : NoCost a) :
    (s.putCost b v w n).rd a = s.rd a :=
  State.rd_wr_ne _ _ (by unfold NoCost at h; simp only [bankAddr, ADM_COST]; omega)

/-- The COST word of a stage, 0 where the program has no such stage. -/
def stageWord : Option PStage → Nat
  | some st => st.pool * 2 ^ 28 + min st.cost costMax
  | none => 0

theorem State.writeCost_eq (s : State) (b v : Nat) :
    let p := s.prog (natBits (s.dispWord b v 0) 0 10)
    s.writeCost b v = (List.range 6).foldl (fun t i => t.putCost b v (2 + i) (stageWord p.stages[i]?))
      ((s.putCost b v 0 (2 ^ 31 + (if p.rand then 2 ^ 30 else 0) + (if p.state then 2 ^ 29 else 0) + p.stages.length * 2 ^ 24 +
        natBits (s.dispWord b v 2) 0 14)).putCost b v 1 p.lpath) := by
  unfold State.writeCost
  dsimp only
  congr 1
  funext t i
  split <;> simp only [State.putCost, stageWord, *]

/-- `t` is `s` but for words of cost entries. -/
structure CostsOnly (s t : State) : Prop where
  regs : RegsOnly s t
  rd : ∀ a, NoCost a → t.rd a = s.rd a

theorem CostsOnly.refl (s : State) : CostsOnly s s := ⟨.refl s, fun _ _ => rfl⟩

theorem CostsOnly.trans {s t u : State} (h : CostsOnly s t) (k : CostsOnly t u) : CostsOnly s u :=
  ⟨h.regs.trans k.regs, fun a ha => (k.rd a ha).trans (h.rd a ha)⟩

theorem CostsOnly.foldl {α : Type} {f : State → α → State} : ∀ {l : List α}, (∀ s, ∀ a ∈ l, CostsOnly s (f s a)) →
    ∀ s, CostsOnly s (l.foldl f s)
  | [], _ => CostsOnly.refl
  | a :: _, hf => fun s => (hf s a List.mem_cons_self).trans
      (CostsOnly.foldl (fun s b hb => hf s b (List.mem_cons_of_mem _ hb)) _)

theorem putCost_costsOnly (s : State) (b n : Nat) {v w : Nat} (hv : v < 4096) (hw : w < 8) :
    CostsOnly s (s.putCost b v w n) := ⟨(RegsOnly.refl s).wr _ _, fun _ h => s.rd_putCost b n hv hw h⟩

theorem writeCost_costsOnly (s : State) (b : Nat) {v : Nat} (hv : v < 4096) : CostsOnly s (s.writeCost b v) := by
  rw [State.writeCost_eq]
  refine ((putCost_costsOnly s b _ hv (by decide)).trans (putCost_costsOnly _ b _ hv (by decide))).trans
    (CostsOnly.foldl (fun t i hi => putCost_costsOnly t b _ hv ?_) _)
  have := List.mem_range.mp hi
  omega

/-- The number of a service with a dispatch entry has 12 bits. -/
theorem State.lt_of_mem_dispatched {s : State} {b v : Nat} (h : v ∈ s.dispatched b) : v < 4096 := by
  obtain ⟨e, -, he⟩ := List.mem_filterMap.mp h
  dsimp only at he
  split at he
  · next hin =>
    obtain ⟨hlo, hhi, -, -⟩ := hin
    obtain rfl := Option.some.inj he
    simp only [bankAddr] at hlo hhi ⊢
    omega
  · cases he

theorem writeCosts_costsOnly (s : State) (b : Nat) : CostsOnly s (s.writeCosts b) := by
  refine CostsOnly.trans ⟨⟨_, rfl⟩, fun a ha => sget_filter 0 (fun v => ?_) _⟩
    (CostsOnly.foldl (fun t v hv => writeCost_costsOnly t b (State.lt_of_mem_dispatched hv)) _)
  have hout : ¬(bankAddr b 0x40340000 ≤ a ∧ a < bankAddr b 0x40340000 + 0x20000) := by
    unfold NoCost at ha
    simp only [bankAddr]
    omega
  rcases not_and_or.mp hout with h | h <;> simp [h]

/-! ### The validation (06 R184) -/

/-- SWITCH starts the joint switch, or fails with code 6 while entries of the old epoch live. -/
theorem State.epochSwitch_eq (s : State) (v : Word32) : s.epochSwitch v =
    if v.getLsbD 31 = false ∨ s.on DSP_EPOCH_BUSY = true then s
    else if 0 < s.oldLive then (s.fset DSP_EPOCH_ERR 6).raise DSP_EVT_EPOCH_ERR
    else (s.raise DSP_EPOCH_BUSY).raise ADM_EPOCH_BUSY := by
  have hcond := Bool.or_eq_true (!v.getLsbD 31) (s.on DSP_EPOCH_BUSY)
  rw [Bool.not_eq_true'] at hcond
  exact if_congr hcond.to_iff rfl rfl

/-- The switch is under way no more. -/
def State.unbusy (s : State) : State := (s.lower DSP_EPOCH_BUSY).lower ADM_EPOCH_BUSY

theorem unbusy_regsOnly (s : State) : RegsOnly s s.unbusy := ((RegsOnly.refl s).lower _).lower _

theorem State.bank_unbusy (s : State) : s.unbusy.bank = s.bank :=
  State.fget_of_rd ((State.rd_fset_ne _ _ _ (by decide)).trans (State.rd_fset_ne _ _ _ (by decide)))

theorem State.epochNum_unbusy (s : State) : s.unbusy.fget ADM_EPOCH_NUM = s.fget ADM_EPOCH_NUM :=
  (State.fget_fset_apart _ ADM_EPOCH_BUSY _ _ (by simp [Fld.fits]) (.inr (.inr (by decide)))).trans
    (State.fget_of_rd (State.rd_fset_ne _ _ _ (by decide)))

theorem epochSwitchDone_idle {dt : Nat} {s : State} (h : (s.elapse dt).on DSP_EPOCH_BUSY = false) :
    exec (.epochSwitchDone dt) s = .next (s.elapse dt) := 
  timed_neg (c := fun s => s.on DSP_EPOCH_BUSY) (f := State.switchEnds) h

theorem epochSwitchDone_ends {dt : Nat} {s : State} (h : (s.elapse dt).on DSP_EPOCH_BUSY = true) :
    exec (.epochSwitchDone dt) s =
      .next ((s.elapse dt).unbusy.switchTo (1 - (s.elapse dt).unbusy.bank)) := by
  rw [State.bank_unbusy]
  exact timed_pos (c := fun s => s.on DSP_EPOCH_BUSY) (f := State.switchEnds) h

theorem State.switchTo_faulty {s : State} {b svc e : Nat} (h : s.firstFault b (s.dispatched b) = some (svc, e)) :
    s.switchTo b = s.switchFails e svc := by
  rw [State.switchTo, h]

theorem State.switchTo_valid {s : State} {b : Nat} (h : s.firstFault b (s.dispatched b) = none) :
    s.switchTo b = if (s.writeCosts b).bankValid b = true then (s.writeCosts b).bankSwitches b
      else ((s.writeCosts b).switchFails 7 0).raise ADM_EVT_EPOCH_ERR := by
  rw [State.switchTo, h]

/-- ADM's part of the validation failed (Table 6.10): the log of the failure. -/
theorem State.switchFails_spec (s : State) :
    let t := (s.switchFails 7 0).raise ADM_EVT_EPOCH_ERR
    t.fget DSP_EPOCH_ERR = 7 ∧ t.on DSP_EVT_EPOCH_ERR = true ∧ t.on ADM_EVT_EPOCH_ERR = true ∧ t.bank = s.bank ∧
      t.fget ADM_EPOCH_NUM = s.fget ADM_EPOCH_NUM ∧ RegsOnly s t := by
  have hrest : ∀ a, a ≠ DSP_EPOCH → a ≠ DSP_EPOCH_ESVC → a ≠ DSP_EVT → a ≠ ADM_EVT →
      ((s.switchFails 7 0).raise ADM_EVT_EPOCH_ERR).rd a = s.rd a := fun a h1 h2 h3 h4 =>
    (State.rd_fset_ne _ _ _ h4).trans ((State.rd_fset_ne _ _ _ h3).trans
      ((State.rd_fset_ne _ _ _ h2).trans (State.rd_fset_ne _ _ _ h1)))
  refine ⟨?_, ?_, State.on_raise_self _ _ (by simp [Fld.fits]) (by decide),
    State.fget_of_rd (hrest _ (by decide) (by decide) (by decide) (by decide)),
    State.fget_of_rd (hrest _ (by decide) (by decide) (by decide) (by decide)),
    ((((RegsOnly.refl s).fset _ _).fset _ _).raise _).raise _⟩
  · calc _ = (s.fset DSP_EPOCH_ERR 7).fget DSP_EPOCH_ERR :=
          State.fget_of_rd ((State.rd_fset_ne _ _ _ (by decide)).trans ((State.rd_fset_ne _ _ _ (by decide)).trans
            (State.rd_fset_ne _ _ _ (by decide))))
      _ = 7 := State.fget_fset_self _ _ _ (by simp [Fld.fits])
  · exact (State.on_of_rd (State.rd_fset_ne _ _ _ (by decide))).trans
      (State.on_raise_self _ _ (by simp [Fld.fits]) (by decide))

/-! ### The switch (03 R69) -/

/-- The units of the fast class are assigned in registers of the engines. -/
theorem assignFast_frame (s : State) : RegsOnly s s.assignFast ∧ ∀ a < 0x40500000, s.assignFast.rd a = s.rd a := by
  constructor
  · exact ((RegsOnly.refl s).wr _ _).trans (RegsOnly.foldl (fun t k => (RegsOnly.refl t).wr _ _) _ _)
  · intro a ha
    refine (foldl_keeps (fun t : State => t.rd a) (fun t k => State.rd_wr_ne _ _ ?_) _ _).trans (State.rd_wr_ne _ _ ?_)
    · simp only [MAU_FASTROLE]; omega
    · simp only [CPH_FASTROLE]; omega

/-- Both units count the epoch `n`, and the peer's number has been compared with it (12 R307). -/
def State.numbered (s : State) (n : Nat) : State :=
  ((s.fset DSP_EPOCH_NUM n).judgeSkew.fset ADM_EPOCH_NUM n).fset DSP_EPOCH_ERR 0

theorem State.bankSwitches_eq (s : State) (b : Nat) :
    s.bankSwitches b = ((s.numbered s.nextEpoch).useBank b).assignFast := by rfl

theorem State.nextEpoch_lt (s : State) : s.nextEpoch < 2 ^ 16 := by
  have h : s.fget ADM_EPOCH_NUM < 2 ^ 16 := bitsOf_lt _ _ _
  unfold State.nextEpoch
  split <;> omega

theorem State.rd_judgeSkew (s : State) (a : Nat) : s.judgeSkew.rd a = s.rd a := by rfl

/-- The numbers of the epoch, and that the switch has not failed. -/
theorem State.numbered_regs (s : State) {n : Nat} (h : n < 2 ^ 16) : (s.numbered n).fget ADM_EPOCH_NUM = n ∧
    (s.numbered n).fget DSP_EPOCH_NUM = n ∧ (s.numbered n).fget DSP_EPOCH_ERR = 0 := by
  have hmod : n % 2 ^ 16 = n := Nat.mod_eq_of_lt h
  refine ⟨?_, ?_, State.fget_fset_self _ _ _ (by simp [Fld.fits])⟩
  · exact (State.fget_of_rd (State.rd_fset_ne _ _ _ (by decide))).trans
      ((State.fget_fset_self _ _ _ (by simp [Fld.fits])).trans hmod)
  · calc _ = (s.fset DSP_EPOCH_NUM n).fget DSP_EPOCH_NUM :=
          (State.fget_fset_apart _ DSP_EPOCH_ERR _ _ (by simp [Fld.fits]) (.inr (.inr (by decide)))).trans
            (State.fget_of_rd ((State.rd_fset_ne _ _ _ (by decide)).trans (State.rd_judgeSkew _ _)))
      _ = n := (State.fget_fset_self _ _ _ (by simp [Fld.fits])).trans hmod

/-- A peer that runs the new epoch ends the skew (12 R307). -/
theorem State.numbered_skew {s : State} {n : Nat} (h : n < 2 ^ 16) (hp : s.duo.peerDnum = some n) :
    (s.numbered n).duo.skewSince = none := by
  have hnum : (s.fset DSP_EPOCH_NUM n).fget DSP_EPOCH_NUM = n :=
    (State.fget_fset_self _ _ _ (by simp [Fld.fits])).trans (Nat.mod_eq_of_lt h)
  simp only [State.numbered, State.fset_duo, State.judgeSkew, hp, hnum, if_true]

/-- `t` is `s` but for its registers, the blocking terms and the skew of the duo link. -/
def EpochFrame (s t : State) : Prop := ∃ r terms old skew, t =
  { s with regs := r, adm := { s.adm with terms := terms, oldTerms := old }, duo := { s.duo with skewSince := skew } }

theorem EpochFrame.trans {s t u : State} (h : EpochFrame s t) (k : EpochFrame t u) : EpochFrame s u := by
  obtain ⟨r, terms, old, skew, rfl⟩ := h
  obtain ⟨r', terms', old', skew', rfl⟩ := k
  exact ⟨r', terms', old', skew', rfl⟩

theorem EpochFrame.of_regsOnly {s t : State} (h : RegsOnly s t) : EpochFrame s t := by
  obtain ⟨r, rfl⟩ := h
  exact ⟨r, _, _, _, rfl⟩

theorem EpochFrame.eq {s t : State} (h : EpochFrame s t) : t = { s with
    regs := t.regs, adm := { s.adm with terms := t.adm.terms, oldTerms := t.adm.oldTerms }
    duo := { s.duo with skewSince := t.duo.skewSince } } := by
  obtain ⟨r, terms, old, skew, rfl⟩ := h; rfl

theorem numbered_epochFrame (s : State) (n : Nat) : EpochFrame s (s.numbered n) :=
  have hjudged : EpochFrame (s.fset DSP_EPOCH_NUM n) (s.fset DSP_EPOCH_NUM n).judgeSkew := ⟨_, _, _, _, rfl⟩
  ((EpochFrame.of_regsOnly ((RegsOnly.refl s).fset _ _)).trans hjudged).trans
    (.of_regsOnly (((RegsOnly.refl _).fset _ _).fset _ _))

theorem useBank_epochFrame (s : State) (b : Nat) : EpochFrame s (s.useBank b) := by
  obtain ⟨r, hr⟩ := ((RegsOnly.refl s).fset ADM_STAT_BANK b).fset DSP_STAT_BANK b
  unfold State.useBank
  rw [hr]
  exact ⟨_, _, _, _, rfl⟩

theorem State.regs_useBank (s : State) (b : Nat) :
    (s.useBank b).regs = ((s.fset ADM_STAT_BANK b).fset DSP_STAT_BANK b).regs := by rfl

theorem State.rd_useBank (s : State) (b a : Nat) :
    (s.useBank b).rd a = ((s.fset ADM_STAT_BANK b).fset DSP_STAT_BANK b).rd a := State.rd_congr (s.regs_useBank b) a

theorem State.oldTerms_useBank (s : State) (b : Nat) : (s.useBank b).adm.oldTerms = s.adm.terms := by rfl

theorem State.duo_useBank (s : State) (b : Nat) : (s.useBank b).duo = s.duo := by
  simp only [State.useBank, State.fset_duo]

theorem State.adm_numbered (s : State) (n : Nat) : (s.numbered n).adm = s.adm := by
  simp only [State.numbered, State.fset_adm, State.judgeSkew]

/-- Bank `b` is in force; the other registers that name the epoch stand. -/
theorem State.useBank_regs (s : State) (b : Nat) : (s.useBank b).bank = b % 2 ∧ (s.useBank b).fget DSP_STAT_BANK = b % 2 ∧
    ∀ a, a ≠ ADM_STAT → a ≠ DSP_STAT → (s.useBank b).rd a = s.rd a := by
  refine ⟨?_, ?_, fun a h1 h2 => ?_⟩
  · exact (State.fget_of_rd ((s.rd_useBank b _).trans (State.rd_fset_ne _ _ _ (by decide)))).trans
      (State.fget_fset_self _ ADM_STAT_BANK _ (by simp [Fld.fits]))
  · exact (State.fget_of_rd (s.rd_useBank b _)).trans (State.fget_fset_self _ DSP_STAT_BANK _ (by simp [Fld.fits]))
  · exact (s.rd_useBank b _).trans ((State.rd_fset_ne _ _ _ h2).trans (State.rd_fset_ne _ _ _ h1))

/-- What a pass puts in force in both units. -/
theorem State.bankSwitches_spec (s : State) (b : Nat) :
    let t := s.bankSwitches b
    t.bank = b % 2 ∧ t.fget DSP_STAT_BANK = b % 2 ∧ t.fget ADM_EPOCH_NUM = s.nextEpoch ∧ t.fget DSP_EPOCH_NUM = s.nextEpoch ∧
      t.fget DSP_EPOCH_ERR = 0 ∧ t.adm.oldTerms = s.adm.terms ∧
      (s.duo.peerDnum = some s.nextEpoch → t.duo.skewSince = none) ∧ EpochFrame s t := by
  obtain ⟨hregs, hrd⟩ := assignFast_frame ((s.numbered s.nextEpoch).useBank b)
  obtain ⟨hbank, hdsp, huse⟩ := (s.numbered s.nextEpoch).useBank_regs b
  obtain ⟨hadm, hnum, herr⟩ := s.numbered_regs s.nextEpoch_lt
  have hkeep : ∀ a, a ≠ ADM_STAT → a ≠ DSP_STAT → a < 0x40500000 →
      (s.bankSwitches b).rd a = (s.numbered s.nextEpoch).rd a := fun a h1 h2 h3 => (hrd a h3).trans (huse a h1 h2)
  refine ⟨(State.fget_of_rd (hrd _ (by decide))).trans hbank, (State.fget_of_rd (hrd _ (by decide))).trans hdsp,
    (State.fget_of_rd (hkeep _ (by decide) (by decide) (by decide))).trans hadm,
    (State.fget_of_rd (hkeep _ (by decide) (by decide) (by decide))).trans hnum,
    (State.fget_of_rd (hkeep _ (by decide) (by decide) (by decide))).trans herr, ?_, fun hp => ?_,
    ((numbered_epochFrame s _).trans (useBank_epochFrame _ b)).trans (.of_regsOnly hregs)⟩
  · rw [State.bankSwitches_eq, hregs.eq, State.oldTerms_useBank, State.adm_numbered]
  · rw [State.bankSwitches_eq, hregs.eq, State.duo_useBank]
    exact State.numbered_skew s.nextEpoch_lt hp

theorem RegsOnly.units {s t : State} (h : RegsOnly s t) : t.adm = s.adm ∧ t.duo = s.duo := by
  obtain ⟨r, rfl⟩ := h; exact ⟨rfl, rfl⟩

end Sys2Proof.Machine

namespace Sys2Proof
open Sys2Proof.Machine

/-- Settles O35: a load ends as the first step of it that fails says, or fills its slot (`State.loadImage_…`); the switch
ends with the first entry that fails, with ADM's refusal (`State.switchFails_spec`), or in force
(`State.bankSwitches_spec`). -/
theorem programsLoadAndEpochsSwitch : Obligations.ProgramsLoadAndEpochsSwitch := by
  unfold Obligations.ProgramsLoadAndEpochsSwitch
  refine ⟨⟨fun a v s => ?_, fun dt s => ?_, fun a v s => ?_⟩, fun a adm v s => ?_, fun dt s => ?_⟩
  · intro t
    have hgo : s.loaderGo v = _ := State.loaderGo_eq s v
    rw [← hgo]
    exact programLoad_sets a v s
  · intro u i fails
    refine ⟨programLoadDone_idle, fun src slot hp hl => ?_⟩
    have hexec : exec i s = .next (u.loadImage src slot) := programLoadDone_loads hp hl
    rw [hexec]
    refine ⟨fun hs => congrArg _ (State.loadImage_inUse hs), fun hs => ⟨fun x t hh => ?_, fun h t hh => ⟨fun hn => ?_,
      fun nissue ncode nconst hn => ⟨fun x w hb => ?_, fun r w hb => ⟨fun code k hf => ?_, fun hf => ?_⟩⟩⟩⟩⟩
    · exact congrArg _ (State.loadImage_unread hs hh)
    · exact congrArg _ (State.loadImage_badHeader hs hh hn)
    · exact congrArg _ (State.loadImage_cutShort hs hh hn hb)
    · exact congrArg _ (State.loadImage_faulty hs hh hn hb hf)
    · rw [State.loadImage_passes hs hh hn hb hf] at hexec
      exact ⟨_, hexec, State.loadPasses_spec hh hb⟩
  · intro n
    have hfree : s.pslotFree v = _ := State.pslotFree_eq s v
    rw [← hfree]
    exact pslotFree_sets a v s
  · exact (State.epochSwitch_eq s v) ▸ epochSwitch_sets a v s adm
  · intro u i w b
    refine ⟨epochSwitchDone_idle, fun hon => ?_⟩
    have hexec : exec i s = .next (w.switchTo b) := epochSwitchDone_ends hon
    refine ⟨fun svc e hf => hexec.trans (congrArg _ (State.switchTo_faulty hf)), fun hf => ?_⟩
    have hcosts := writeCosts_costsOnly w b
    have hbank : (w.writeCosts b).bank = u.bank :=
      (State.fget_of_rd (hcosts.rd _ (.inl (by decide)))).trans u.bank_unbusy
    have hnum : (w.writeCosts b).fget ADM_EPOCH_NUM = u.fget ADM_EPOCH_NUM :=
      (State.fget_of_rd (hcosts.rd _ (.inl (by decide)))).trans u.epochNum_unbusy
    have hregs : RegsOnly u (w.writeCosts b) := (unbusy_regsOnly u).trans hcosts.regs
    rw [State.switchTo_valid hf] at hexec
    refine ⟨fun hv => ?_, fun hv => ?_⟩
    · rw [if_neg (Bool.eq_false_iff.mp hv)] at hexec
      obtain ⟨herr, hdsp, hadm, hb, hn, hr⟩ := (w.writeCosts b).switchFails_spec
      exact ⟨_, hexec, herr, hdsp, hadm, hb.trans hbank, hn.trans hnum, (hregs.trans hr).eq⟩
    · rw [if_pos hv] at hexec
      obtain ⟨hb, hstat, hadm, hdsp, herr, hold, hskew, hframe⟩ := (w.writeCosts b).bankSwitches_spec b
      have hnext : (w.writeCosts b).nextEpoch = if u.fget ADM_EPOCH_NUM = 0xFFFF then 1 else u.fget ADM_EPOCH_NUM + 1 := by
        rw [State.nextEpoch, hnum]
      obtain ⟨huadm, huduo⟩ := hregs.units
      rw [hnext] at hadm hdsp hskew
      rw [huadm] at hold
      rw [huduo] at hskew
      refine ⟨_, hexec, hb, hstat, hadm, hdsp, herr, hold, hskew, ?_⟩
      rw [← hold]
      exact ((EpochFrame.of_regsOnly hregs).trans hframe).eq

end Sys2Proof
end

section
/-!
SUPPORT. Proofs/InternalRequests.lean: the ring of internal requests (06 R186): when a slot is taken, what its read finds,
how its request is judged, and what the answer to an internal request leaves. O36 is settled from these.
-/

namespace Sys2Proof.Machine

/-! ### A slot is taken -/

section
variable {s : State} {v : Word32}

/-- The slot of the ring that a write of DSP_IREQ_GO names. -/
def slotNamed (v : Word32) : Fin 16 := Fin.ofNat 16 v.toNat

/-- Slot `i` is outstanding, or its answer has not been taken yet. -/
def State.slotBusy (s : State) (i : Fin 16) : Prop :=
  s.dsp.ringBusy.getLsbD i.val = true ∨ s.on (bitFld DSP_IREQ_DONE i.val) = true

theorem State.ireqHeld_iff (s : State) : s.ireqHeld = true ↔ ∃ k, ArrayWait.ireq k ∈ s.flc.waits := by
  rw [State.ireqHeld, List.any_eq_true]
  constructor
  · rintro ⟨w, hw, hk⟩
    cases w with
    | ireq k => exact ⟨k, hw⟩
    | _ => cases hk
  · exact fun ⟨k, hk⟩ => ⟨_, hk, rfl⟩

theorem State.ireqSubmit_off (h : v.getLsbD 31 = false ∨ s.on DSP_CTRL_IREQ_EN = false) : s.ireqSubmit v = s := by
  refine if_pos ?_
  rcases h with h | h
  · rw [h]; rfl
  · rw [h, Bool.not_false, Bool.or_true]

section
variable (hgo : v.getLsbD 31 = true) (hen : s.on DSP_CTRL_IREQ_EN = true)
include hgo hen

theorem State.ireqSubmit_busy (h : s.slotBusy (slotNamed v)) : s.ireqSubmit v = s.raise DSP_EVT_IREQ_BUSY := by
  refine (if_neg ?_).trans (if_pos (Bool.or_eq_true _ _ |>.mpr h))
  rw [hgo, hen]
  decide

variable (hfree : ¬s.slotBusy (slotNamed v))
include hfree

theorem State.ireqSubmit_free : s.ireqSubmit v =
    if s.ireqHeld = true then (s.ringMarked (slotNamed v) true).waitsFor (.ireq (slotNamed v))
    else (s.ringMarked (slotNamed v) true).ireqTake (slotNamed v) := by
  refine (if_neg ?_).trans (if_neg fun k => hfree (Bool.or_eq_true _ _ |>.mp k))
  rw [hgo, hen]
  decide

/-- A slot that stands behind one which the flash array holds up waits (14 R337). -/
theorem State.ireqSubmit_waits (h : ∃ k, ArrayWait.ireq k ∈ s.flc.waits) :
    s.ireqSubmit v = (s.ringMarked (slotNamed v) true).waitsFor (.ireq (slotNamed v)) := by
  rw [State.ireqSubmit_free hgo hen hfree, if_pos (s.ireqHeld_iff.mpr h)]

theorem State.ireqSubmit_takes (h : ¬∃ k, ArrayWait.ireq k ∈ s.flc.waits) :
    s.ireqSubmit v = (s.ringMarked (slotNamed v) true).ireqTake (slotNamed v) := by
  rw [State.ireqSubmit_free hgo hen hfree, if_neg fun k => h (s.ireqHeld_iff.mp k)]

end

end

/-! ### The read of a slot -/

/-- Where slot `i` of the ring lies. -/
def State.ringSlot (s : State) (i : Fin 16) : Nat := (s.rd DSP_IREQ_BASE).toNat + 0x8000 * i.val

/-- What becomes of slot `i` where its read ends in `e`: it waits for the flash array, or is outstanding no more. -/
def State.ireqUnread (s : State) (i : Fin 16) (e : BusErr) : State :=
  if e = .wait then s.waitsFor (.ireq i) else (s.endStalls .ireq).ringMarked i false

section
variable {s t w : State} {i : Fin 16} {h msg : List Byte}

theorem State.ireqTake_headerFails {e : BusErr} (hh : s.readBlock ⟨.ireq, 0⟩ (s.ringSlot i) 40 = (.error e, t)) :
    s.ireqTake i = t.ireqUnread i e := by
  unfold State.ringSlot at hh
  simp only [State.ireqTake, hh]
  cases e <;> rfl

variable (hh : s.readBlock ⟨.ireq, 0⟩ (s.ringSlot i) 40 = (.ok h, t))
include hh

theorem State.ireqTake_payloadFails {e : BusErr}
    (hp : t.readBlock ⟨.ireq, 0⟩ (s.ringSlot i) (40 + min (CrpReq.parse h).plen 8192) = (.error e, w)) :
    s.ireqTake i = w.ireqUnread i e := by
  unfold State.ringSlot at hh hp
  simp only [State.ireqTake, hh, hp]
  cases e <;> rfl

theorem State.ireqTake_read
    (hp : t.readBlock ⟨.ireq, 0⟩ (s.ringSlot i) (40 + min (CrpReq.parse h).plen 8192) = (.ok msg, w)) :
    s.ireqTake i = (w.endStalls .ireq).ireqJudge i (CrpReq.parse h) msg := by
  unfold State.ringSlot at hh hp
  simp only [State.ireqTake, hh, hp]

end

/-! ### The request is judged (02 R43) -/

/-- The request in slot `i` is refused. -/
def State.ireqRefused (s : State) (i : Fin 16) (q : CrpReq) (status detail : Nat) : State :=
  s.ringAnswer i (({ status := status, detail := detail } : Response).bytes q s.devid)

/-- Every source stands before the ring or with it, so that a descriptor of the ring goes to the end. -/
theorem Source.rank_le_ring (x : Source) (i : Fin 16) : x.rank ≤ (Source.ring i).rank := by
  cases x with
  | port p => exact Nat.le_of_lt p.isLt
  | ring _ => exact Nat.le_refl 4

theorem State.handOver_ring {s : State} {d : Desc} {i : Fin 16} (h : d.src = .ring i) :
    s.handOver d = { s with adm := { s.adm with descs := s.adm.descs ++ [d] } } := by
  have hlast : insertDesc d s.adm.descs = s.adm.descs ++ [d] :=
    insertDesc_last fun x _ _ => h ▸ Source.rank_le_ring x.src i
  rw [State.handOver, hlast]

section
variable {s x : State} {i : Fin 16} {q : CrpReq} {msg : List Byte} (hx : x = s.count 0x05A 1)
include hx

/-- A request that names a requester (log entry 137). -/
theorem State.ireqJudge_foreign (hq : q.requester ≠ 0) : s.ireqJudge i q msg = x.ireqRefused i q 0x21 0 := by
  subst hx
  exact if_pos hq

variable (hq : q.requester = 0)
include hq

theorem State.ireqJudge_own : s.ireqJudge i q msg = match x.checkRequest q true (permits none) with
    | some r => x.ireqRefused i q r.status r.detail
    | none => x.handOver (x.descOf (.ring i) {} q msg 0 x.tb) := by
  subst hx
  exact (if_neg (not_not.mpr hq)).trans rfl

theorem State.ireqJudge_refused {r : FrontRefusal} (hc : x.checkRequest q true (permits none) = some r) :
    s.ireqJudge i q msg = x.ireqRefused i q r.status r.detail := by
  rw [State.ireqJudge_own hx hq, hc]

theorem State.ireqJudge_passes (hc : x.checkRequest q true (permits none) = none) :
    s.ireqJudge i q msg = { x with adm := { x.adm with
      descs := x.adm.descs ++ [x.descOf (.ring i) {} q msg 0 x.tb] } } := by
  rw [State.ireqJudge_own hx hq, hc]
  exact State.handOver_ring rfl

end

/-! ### The answer of an internal request -/

/-- The answer is in the slot of the ring, and is counted. -/
def State.ringAnswered (s : State) (i : Fin 16) (x : Ctx) (r : Response) : State :=
  ((s.drawn 2).ringAnswer i ((sentResponse x r (s.lateBit x) (Config.freeBit (s.freeCtr + 1))).bytes x.req
    s.devid)).countLate x (s.lateBit x)

theorem State.writeRing_eq {s : State} {c : Nat} {i : Fin 16} {r : Response} (hsrc : (s.ctx c).src = .ring i)
    (hr : (s.ctx c).resp = some r) (hs : (s.ctx c).isState = false) :
    s.writeRing c = (s.ringAnswered i (s.ctx c) r).freeCtx c := by
  simp only [State.writeRing, hsrc, hr, State.finalResponse_eq, State.mirrorEnding, hs, Bool.false_and,
    Bool.false_eq_true, if_false, State.ringAnswered]

theorem ireqResponseWritten_idle {dt : Nat} {c : Fin 8192} {s : State}
    (h : ((s.elapse dt).ctx c).st ≠ .ending ∨ ((s.elapse dt).ctx c).grantable = false) :
    exec (.ireqResponseWritten dt c) s = .next (s.elapse dt) := by
  refine timed_neg (c := fun s => decide ((s.ctx c.val).st = .ending) && (s.ctx c.val).grantable)
    (f := fun s => s.writeRing c.val) ?_
  rcases h with h | h
  · simp only [h, decide_false, Bool.false_and]
  · simp only [h, Bool.and_false]

theorem ireqResponseWritten_written {dt : Nat} {c : Fin 8192} {s : State} (hst : ((s.elapse dt).ctx c).st = .ending)
    (hg : ((s.elapse dt).ctx c).grantable = true) :
    exec (.ireqResponseWritten dt c) s = .next ((s.elapse dt).writeRing c.val) :=
  timed_pos (c := fun s => decide ((s.ctx c.val).st = .ending) && (s.ctx c.val).grantable)
    (f := fun s => s.writeRing c.val) (by simp only [hst, hg, decide_true, Bool.and_self])

/-- The counts of a response leave the registers but the events alone. -/
theorem State.rd_countLate (s : State) (x : Ctx) (late : Bool) {a : Nat} (h : NoEvent a) (hne : a ≠ ADM_EVT) :
    (s.countLate x late).rd a = s.rd a := by
  have hcount : (if late = true then s.count 0x04F 1 else s).rd a = s.rd a := by
    cases late with
    | true => exact State.rd_count_low _ _ _ h.1
    | false => rfl
  have hover : ∀ t : State, t.reportOverrun.rd a = t.rd a := fun t =>
    (State.rd_signal_noEvent _ (by decide) _ h).trans ((State.rd_count_low _ _ _ h.1).trans (State.rd_fset_ne _ _ _ hne))
  unfold State.countLate
  dsimp only
  generalize (if late = true then s.count 0x04F 1 else s) = t at hcount ⊢
  split
  · split
    · exact (hover t).trans hcount
    · exact hcount
  · exact hcount

/-- An answer in the ring sets DONE of its slot, which is outstanding no more, and touches no context. -/
theorem State.ringAnswer_spec (s : State) (i : Fin 16) (bs : List Byte) :
    (s.ringAnswer i bs).on (bitFld DSP_IREQ_DONE i.val) = true ∧
    (s.ringAnswer i bs).dsp = { s.dsp with ringBusy := s.dsp.ringBusy &&& ~~~(1#16 <<< i.val) } ∧
    (s.ringAnswer i bs).out = s.out ∧ (s.ringAnswer i bs).freeCtr = s.freeCtr := by
  have hw := writeBlock_busWritten s ⟨.ireq, 0⟩ ((s.rd DSP_IREQ_BASE).toNat + 0x8000 * i.val + 0x4000) bs
  unfold State.ringAnswer
  dsimp only
  refine ⟨?_, ?_, hw.out, hw.freeCtr⟩
  · exact State.on_raise_self _ (bitFld DSP_IREQ_DONE i.val) (by have := i.isLt; simp only [bitFld, Fld.fits]; omega)
      (by simp [bitFld])
  · rw [hw.dsp]

theorem State.ringBusy_freeCtx (s : State) (c : Nat) : (s.freeCtx c).dsp.ringBusy = s.dsp.ringBusy := by
  have habort : ((s.wasted c).abortAll c).dsp.ringBusy = s.dsp.ringBusy := by
    obtain ⟨l, hl⟩ := (s.wasted c).exists_ctxs_abortWhere c fun _ => true
    rw [State.abortAll, hl, State.wasted_dsp]
  have hunbound : (s.unbound c).dsp.ringBusy = s.dsp.ringBusy := by
    unfold State.unbound
    split
    · rw [State.unbind_dsp, habort]
    · exact habort
  exact hunbound

theorem State.ringAnswered_spec (s : State) (i : Fin 16) (x : Ctx) (r : Response) :
    (s.ringAnswered i x r).on (bitFld DSP_IREQ_DONE i.val) = true ∧
    (s.ringAnswered i x r).dsp = { s.dsp with ringBusy := s.dsp.ringBusy &&& ~~~(1#16 <<< i.val) } ∧
    (s.ringAnswered i x r).out = s.out ∧ (s.ringAnswered i x r).freeCtr = s.freeCtr + 2 := by
  obtain ⟨hdone, hdsp, hout, hctr⟩ := (s.drawn 2).ringAnswer_spec i
    ((sentResponse x r (s.lateBit x) (Config.freeBit (s.freeCtr + 1))).bytes x.req s.devid)
  refine ⟨?_, (State.countLate_dsp _ _ _).trans hdsp, (State.countLate_out _ _ _).trans hout,
    (State.countLate_freeCtr _ _ _).trans hctr⟩
  exact (State.on_of_rd (State.rd_countLate _ _ _ (a := DSP_IREQ_DONE) (by unfold NoEvent; decide) (by decide))).trans hdone

end Sys2Proof.Machine

namespace Sys2Proof
open Sys2Proof.Machine

/-- Settles O36: a write of DSP_IREQ_GO is `State.ireqSubmit`, in the cases of the slot, of its two reads, and of the
checks; an answer is `State.ringAnswered`, and its context becomes FREE. -/
theorem internalRequestsAct : Obligations.InternalRequestsAct := by
  unfold Obligations.InternalRequestsAct
  refine ⟨fun a v s => ?_, fun dt c s => ?_⟩
  · intro i base row busy
    have puts : ∀ {t}, s.ireqSubmit v = t → Sets row a DSP_IREQ_GO v s t := fun h => h ▸ ireqSubmit_sets a v s
    refine ⟨fun h => puts (State.ireqSubmit_off h), fun hgo hen => ⟨fun hb => puts (State.ireqSubmit_busy hgo hen hb),
      fun hb => ⟨fun hheld => puts (State.ireqSubmit_waits hgo hen hb hheld), fun hheld => ?_⟩⟩⟩
    have takes : s.ireqSubmit v = (s.ringMarked i true).ireqTake i := State.ireqSubmit_takes hgo hen hb hheld
    refine ⟨fun e t hh => ?_, fun h t hh => ⟨fun e w hp => ?_, fun msg w hp => ?_⟩⟩
    · have hun := takes.trans (State.ireqTake_headerFails hh)
      exact ⟨fun he => puts (hun.trans (if_pos he)), fun he => puts (hun.trans (if_neg he))⟩
    · have hun := takes.trans (State.ireqTake_payloadFails hh hp)
      exact ⟨fun he => puts (hun.trans (if_pos he)), fun he => puts (hun.trans (if_neg he))⟩
    · intro x refused badHead badServ
      have judged := takes.trans (State.ireqTake_read hh hp)
      have refuses : ∀ {step status detail : Nat}, (CrpReq.parse h).requester = 0 →
          x.checkRequest (CrpReq.parse h) true (permits none) = some ⟨step, status, detail⟩ → refused status detail :=
        fun hq hc => puts (judged.trans (State.ireqJudge_refused (x := x) (r := ⟨_, _, _⟩) rfl hq hc))
      have hplen : badHead ↔ badHeader (CrpReq.parse h) (true = true) := by rw [eq_self]
      have late : ¬badHead → ¬badServ →
          x.checkRequest (CrpReq.parse h) true (permits none) = x.checkClassAndPayload (CrpReq.parse h) :=
        fun hh hs => State.checkRequest_late (hplen.not.mp hh) hs
      refine ⟨fun hq => ?_, fun hq hh => ?_, fun hq hh hs => ?_, fun hq hh hs hc => ?_, fun hq hh hs hc hp => ?_,
        fun hq hh hs hc hp => ?_⟩
      · exact puts (judged.trans (State.ireqJudge_foreign (x := x) rfl hq))
      · exact refuses hq (State.checkRequest_header (hplen.mp hh))
      · exact refuses hq (State.checkRequest_service (hplen.not.mp hh) hs)
      · exact refuses hq ((late hh hs).trans (State.checkClassAndPayload_class hc))
      · exact refuses hq ((late hh hs).trans ((State.checkClassAndPayload_late hc).trans (State.checkPayload_bad hp)))
      · exact puts (judged.trans (State.ireqJudge_passes (x := x) rfl hq
          ((late hh hs).trans ((State.checkClassAndPayload_late hc).trans (State.checkPayload_fine hp)))))
  · intro u x i
    refine ⟨ireqResponseWritten_idle, fun slot r hst hg hsrc hr hs => ?_⟩
    obtain ⟨hdone, hdsp, hout, hctr⟩ := u.ringAnswered_spec slot x r
    obtain ⟨-, hfout, hfctr⟩ := freeFrame_freeCtx (u.ringAnswered slot x r) c
    refine ⟨_, (ireqResponseWritten_written hst hg).trans (congrArg _ (State.writeRing_eq hsrc hr hs)), State.st_freeCtx _ _,
      ?_, ?_, hfctr.trans hctr, hfout.trans hout, fun y hy => ?_⟩
    · exact (State.on_of_rd (State.rd_freeCtx _ _ (a := DSP_IREQ_DONE) (by decide))).trans hdone
    · rw [State.ringBusy_freeCtx, hdsp]
    · exact (State.ctx_freeCtx_ne _ hy).trans (State.ctx_congr (by rw [hdsp]) y)

end Sys2Proof
end

section
/-!
SUPPORT. Proofs/AccessTableSwitch.lean: the staging rules of the access table as registers (07 R201), and its switch (07
R203, R205): which rules fail it, and what it leaves in the register map. O39 is settled from these.
-/

namespace Sys2Proof.Machine

/-! ### The staging rules in the register map (07 R208) -/

/-- The address of word `k` of staging rule `n`. -/
def stagingAddr (n : Fin 1024) (k : Fin 6) : Nat := 0x40110000 + 32 * n.val + 4 * k.val

/-- The row of the registers at offset `o` of every staging rule, with the RW bits `m`. -/
def ruleRow (o : Nat) (dbl : Bool) (m : Nat) : RegRow := ⟨0x40110000 + o, 32, 1024, dbl, m, 0, false⟩

/-- The row that holds word `k` of every staging rule: START, END, ATTR and MSET. -/
def stagingRow : Fin 6 → RegRow
  | 0 | 1 => ruleRow 0 true 0xFFFFFFFFFFE0
  | 2 | 3 => ruleRow 8 true 0xFFFFFFFFFFE0
  | 4 => ruleRow 0x10 false 0xC0000007
  | 5 => ruleRow 0x14 false 0x7FFFFF

/-- The words of a row of repeated registers. -/
theorem RegRow.covers_iff {row : RegRow} (hs : row.stride ≠ 0) (a : Nat) : row.covers a = true ↔
    row.base ≤ a ∧ (a - row.base) / row.stride < row.count ∧ (a - row.base) % row.stride < if row.dbl then 8 else 4 := by
  simp only [RegRow.covers, if_neg hs, Bool.and_eq_true, decide_eq_true_eq]

theorem RegRow.covers_iff_single {row : RegRow} (hs : row.stride = 0) (a : Nat) : row.covers a = true ↔
    row.base ≤ a ∧ a < row.base + if row.dbl then 8 else 4 := by
  simp only [RegRow.covers, if_pos hs, Bool.and_eq_true, decide_eq_true_eq]

theorem width_le_eight (dbl : Bool) : (if dbl then 8 else 4) ≤ 8 := by cases dbl <;> decide

/-- The row may cover a word from `lo` on and below `hi`. -/
def RegRow.reaches (row : RegRow) (lo hi : Nat) : Bool :=
  decide (row.base < hi) && decide (lo < row.base + max 8 (row.stride * row.count))

theorem RegRow.reaches_of_covers {row : RegRow} {a lo hi : Nat} (hlo : lo ≤ a) (hhi : a < hi) (h : row.covers a = true) :
    row.reaches lo hi = true := by
  have hw := width_le_eight row.dbl
  simp only [RegRow.reaches, Bool.and_eq_true, decide_eq_true_eq]
  by_cases hs : row.stride = 0
  · obtain ⟨hbase, hspan⟩ := (RegRow.covers_iff_single hs a).mp h
    omega
  · obtain ⟨hbase, hcount, -⟩ := (RegRow.covers_iff hs a).mp h
    have hspan := (Nat.div_lt_iff_lt_mul (Nat.pos_of_ne_zero hs)).mp hcount
    rw [Nat.mul_comm] at hspan
    omega

/-- The row of a word is found among the rows that reach into a window around it. -/
theorem regRow?_eq_find?_reaching {a lo hi : Nat} (hlo : lo ≤ a) (hhi : a < hi) :
    regRow? a = (regRows.filter (·.reaches lo hi)).find? (·.covers a) := by
  rw [List.find?_filter]
  refine List.find?_congr fun row _ => ?_
  cases h : row.covers a
  · simp
  · simp [RegRow.reaches_of_covers hlo hhi h]

theorem regRows_reaching_staging :
    regRows.filter (·.reaches 0x40110000 0x40118000) = [stagingRow 0, stagingRow 2, stagingRow 4, stagingRow 5] := by
  decide +kernel

theorem covers_ruleRow {o : Nat} (dbl : Bool) (m : Nat) (n : Fin 1024) (k : Fin 6) (ho : o ≤ 24) :
    (ruleRow o dbl m).covers (stagingAddr n k) = decide (o ≤ 4 * k.val ∧ 4 * k.val < o + if dbl then 8 else 4) := by
  have offset : ∀ w ≤ 8, (0x40110000 + o ≤ stagingAddr n k ∧ (stagingAddr n k - (0x40110000 + o)) / 32 < 1024 ∧
      (stagingAddr n k - (0x40110000 + o)) % 32 < w) ↔ o ≤ 4 * k.val ∧ 4 * k.val < o + w := by
    intro w hw
    unfold stagingAddr
    by_cases h : o ≤ 4 * k.val
    · rw [show 0x40110000 + 32 * n.val + 4 * k.val - (0x40110000 + o) = 32 * n.val + (4 * k.val - o) by omega]
      omega
    · omega
  rw [Bool.eq_iff_iff, RegRow.covers_iff (row := ruleRow o dbl m) (Nat.succ_ne_zero 31), decide_eq_true_eq]
  exact offset _ (width_le_eight dbl)

theorem regRow?_staging (n : Fin 1024) (k : Fin 6) : regRow? (stagingAddr n k) = some (stagingRow k) := by
  rw [regRow?_eq_find?_reaching (lo := 0x40110000) (hi := 0x40118000) (by unfold stagingAddr; omega)
    (by unfold stagingAddr; omega), regRows_reaching_staging]
  simp only [stagingRow, List.find?_cons, covers_ruleRow (o := 0) _ _ n k (by decide),
    covers_ruleRow (o := 8) _ _ n k (by decide), covers_ruleRow (o := 0x10) _ _ n k (by decide),
    covers_ruleRow (o := 0x14) _ _ n k (by decide)]
  fin_cases k <;> rfl

/-- The word of a rule that its word `k` belongs to: START and END have two words. -/
def firstWord : Fin 6 → Fin 6
  | 1 => 0
  | 3 => 2
  | k => k

theorem regOf_stagingRow (n : Fin 1024) (k : Fin 6) :
    (stagingRow k).regOf (stagingAddr n k) = stagingAddr n (firstWord k) := by
  fin_cases k <;> simp [firstWord, stagingRow, ruleRow, stagingAddr, RegRow.regOf] <;> omega

theorem stagingRow_w1c (k : Fin 6) : (stagingRow k).w1c = 0 := by fin_cases k <;> rfl

theorem stagingAddr_bounds (n : Fin 1024) (k : Fin 6) :
    0x40110000 ≤ stagingAddr n k ∧ stagingAddr n k < 0x40118000 ∧ stagingAddr n k % 4 = 0 := by
  unfold stagingAddr; omega

theorem isStaging_stagingAddr (n : Fin 1024) (k : Fin 6) : isStaging (stagingAddr n k) = true := by
  obtain ⟨hlo, hhi, -⟩ := stagingAddr_bounds n k
  simp [isStaging, hlo, hhi]

theorem rule_of_stagingAddr (n : Fin 1024) (k : Fin 6) : (stagingAddr n k - 0x40110000) / 32 = n.val := by
  unfold stagingAddr; omega

/-! ### Writes of the staging rules (07 R201) -/

/-- A write of a staging rule requires ACT (05 R145). -/
theorem writeNeeds_staging (force : Bool) (v : Word32) (n : Fin 1024) (k : Fin 6) :
    writeNeeds force (stagingAddr n k) v = [pACT] := by
  obtain ⟨hlo, hhi, -⟩ := stagingAddr_bounds n k
  have hclr : stagingAddr n k ≠ ACT_DBGSTKY_CLR := by simp only [ACT_DBGSTKY_CLR]; omega
  rw [writeNeeds, if_neg (by omega), if_pos (by omega), if_neg hclr, if_pos ⟨hlo, hhi⟩]

/-- RULE_STAGING_WRITE, granted, is the write of that word. -/
theorem ruleStagingWrite_sets (a : Acc) (n : Fin 1024) (k : Fin 6) (v : Word32) (s : State) :
    Sets (.ruleStagingWrite a n k v) a (stagingAddr n k) v s (s.wordWrite a (stagingRow k) (stagingAddr n k) v) := by
  intro h
  obtain ⟨hlo, hhi, hal⟩ := stagingAddr_bounds n k
  have hin : inRegs (stagingAddr n k) = true := by
    simp only [inRegs, Bool.and_eq_true, decide_eq_true_eq]; omega
  have hneeds : a.holdsAll (writeNeeds (s.on DUO_CTRL_FORCE) ((stagingRow k).regOf (stagingAddr n k)) v) = true := by
    rw [regOf_stagingRow, writeNeeds_staging, ← writeNeeds_staging (s.on DUO_CTRL_FORCE) v n k]
    exact h.perms
  show s.writeRow a (stagingAddr n k) v = _
  unfold State.writeRow
  rw [event_of _ _ _ (masterUp_of h), anyWrite_reg h hin hal]
  simp only [State.regWrite, regRow?_staging, if_neg h.master, hneeds, if_true]

theorem stagingShut_iff {s : State} {n : Nat} :
    s.stagingShut n = true ↔ s.on ACT_EPOCH_BUSY = true ∨ s.on (ACT_ARULE_ATTR_LOCK n) = true := by
  simp [State.stagingShut]

/-- A write of a staging rule that is shut is refused. -/
theorem wordWrite_shut {s : State} {n : Fin 1024} (a : Acc) (k : Fin 6) (v : Word32) (h : s.stagingShut n = true) :
    s.wordWrite a (stagingRow k) (stagingAddr n k) v = s.raise ACT_EVT_CFG_REJ := by
  simp only [State.wordWrite, regOf_stagingRow, isStaging_stagingAddr, rule_of_stagingAddr, h, Bool.and_self, if_true]

/-- A staging register does no more than its access types say. -/
theorem regEffect_staging (s : State) (a : Acc) (n : Fin 1024) (j k : Fin 6) (v : Word) :
    s.regEffect a (stagingRow k) (stagingAddr n j) v =
      s.wr (stagingAddr n j) (written (stagingRow k).rw (s.rd (stagingAddr n j)) v) := by
  obtain ⟨hlo, hhi, -⟩ := stagingAddr_bounds n j
  have hne : ∀ q < 0x40110000, stagingAddr n j ≠ q := by omega
  have hact : stagingAddr n j / 0x100000 = 0x401 := by omega
  simp only [State.regEffect, hact, State.writeAct, hne ACT_CTRL (by decide), hne ACT_EPOCH (by decide),
    hne ACT_VIOL_INFO (by decide), hne ACT_DBGSTKY_CLR (by decide), if_false, plainWrite_rw _ _ rfl (stagingRow_w1c k)]

section
variable {s : State} {n : Fin 1024} {k : Fin 6} (a : Acc) (v : Word32) (h : s.stagingShut n = false)
include h

/-- A register of one word is written at once. -/
theorem wordWrite_open_single (hd : (stagingRow k).dbl = false) (hk : firstWord k = k) :
    s.wordWrite a (stagingRow k) (stagingAddr n k) v =
      s.wr (stagingAddr n k) (written (stagingRow k).rw (s.rd (stagingAddr n k)) (v.setWidth 64)) := by
  simp [State.wordWrite, regOf_stagingRow, rule_of_stagingAddr, h, hd, hk, regEffect_staging]

/-- The low word of START or END is held for its master (00 R7). -/
theorem wordWrite_open_low (hd : (stagingRow k).dbl = true) (hk : firstWord k = k) :
    s.wordWrite a (stagingRow k) (stagingAddr n k) v =
      { s with heldLow := sput none s.heldLow (halfKey a (stagingAddr n k)) (some v) } := by
  simp [State.wordWrite, regOf_stagingRow, rule_of_stagingAddr, h, hd, hk]

/-- The high word of START or END takes effect with the low word that is held (00 R7). -/
theorem wordWrite_open_high {low : Word32} (hd : (stagingRow k).dbl = true)
    (hk : stagingAddr n k ≠ stagingAddr n (firstWord k))
    (hl : sget none s.heldLow (halfKey a (stagingAddr n (firstWord k))) = some low) :
    s.wordWrite a (stagingRow k) (stagingAddr n k) v =
      { s.wr (stagingAddr n (firstWord k)) (written (stagingRow k).rw (s.rd (stagingAddr n (firstWord k)))
          (v.setWidth 64 <<< 32 ||| low.setWidth 64)) with
        heldLow := sput none s.heldLow (halfKey a (stagingAddr n (firstWord k))) none } := by
  simp only [State.wordWrite, regOf_stagingRow, rule_of_stagingAddr, h, hd, hk, hl, regEffect_staging, Bool.and_false,
    Bool.not_true, Bool.false_eq_true, if_false, Option.getD_some]
  rfl

end

/-! ### RULE_STAGING_WRITE -/

theorem stagingAddr_attr (n : Fin 1024) : stagingAddr n 4 = ACT_RULE_ATTR n := by simp only [stagingAddr, ACT_RULE_ATTR]; omega

theorem stagingAddr_mset (n : Fin 1024) : stagingAddr n 5 = ACT_RULE_MSET n := by simp only [stagingAddr, ACT_RULE_MSET]; omega

section
variable {s : State} {n : Fin 1024} (a : Acc) (v : Word32)

theorem ruleStagingWrite_shut (k : Fin 6)
    (h : s.on ACT_EPOCH_BUSY = true ∨ s.on (ACT_ARULE_ATTR_LOCK n) = true) :
    Sets (.ruleStagingWrite a n k v) a (stagingAddr n k) v s (s.raise ACT_EVT_CFG_REJ) :=
  wordWrite_shut a k v (stagingShut_iff.mpr h) ▸ ruleStagingWrite_sets a n k v s

variable (h : s.stagingShut n = false)
include h

theorem ruleStagingWrite_attr : Sets (.ruleStagingWrite a n 4 v) a (ACT_RULE_ATTR n) v s
    (s.wr (ACT_RULE_ATTR n) (written 0xC0000007 (s.rd (ACT_RULE_ATTR n)) (v.setWidth 64))) := by
  have hw := ruleStagingWrite_sets a n 4 v s
  rw [wordWrite_open_single a v h rfl rfl, stagingAddr_attr] at hw
  exact hw

theorem ruleStagingWrite_mset : Sets (.ruleStagingWrite a n 5 v) a (ACT_RULE_MSET n) v s
    (s.wr (ACT_RULE_MSET n) (written 0x7FFFFF (s.rd (ACT_RULE_MSET n)) (v.setWidth 64))) := by
  have hw := ruleStagingWrite_sets a n 5 v s
  rw [wordWrite_open_single a v h rfl rfl, stagingAddr_mset] at hw
  exact hw

theorem ruleStagingWrite_low {k : Fin 6} (hk : k = 0 ∨ k = 2) : Sets (.ruleStagingWrite a n k v) a (stagingAddr n k) v s
    { s with heldLow := sput none s.heldLow (halfKey a (stagingAddr n k)) (some v) } := by
  have hreg : (stagingRow k).dbl = true ∧ firstWord k = k := by rcases hk with rfl | rfl <;> exact ⟨rfl, rfl⟩
  exact wordWrite_open_low a v h hreg.1 hreg.2 ▸ ruleStagingWrite_sets a n k v s

theorem ruleStagingWrite_high {k : Fin 6} {low : Word32} {r : Nat} (hk : k = 1 ∨ k = 3)
    (hr : r = 0x40110000 + 32 * n.val + 4 * (k.val - 1)) (hl : sget none s.heldLow (halfKey a r) = some low) :
    Sets (.ruleStagingWrite a n k v) a (r + 4) v s
      { s.wr r (written 0xFFFFFFFFFFE0 (s.rd r) (v.setWidth 64 <<< 32 ||| low.setWidth 64)) with
        heldLow := sput none s.heldLow (halfKey a r) none } := by
  have hreg : (stagingRow k).dbl = true ∧ (stagingRow k).rw = 0xFFFFFFFFFFE0 ∧ (firstWord k).val = k.val - 1 := by
    rcases hk with rfl | rfl <;> exact ⟨rfl, rfl, rfl⟩
  obtain ⟨hd, hrw, hfirst⟩ := hreg
  have hlow : stagingAddr n (firstWord k) = r := by rw [stagingAddr, hfirst, hr]
  have hhigh : stagingAddr n k = r + 4 := by unfold stagingAddr; omega
  have hw := ruleStagingWrite_sets a n k v s
  rw [wordWrite_open_high a v h hd (by omega) (hlow ▸ hl), hlow, hhigh, hrw] at hw
  exact hw

end

/-! ### ACT_EPOCH and ACT_DBGSTKY_CLR (07 R202, R203) -/

theorem regEffect_act {s : State} {a : Acc} {row : RegRow} {r : Nat} {v : Word} (h : r / 0x100000 = 0x401) :
    s.regEffect a row r v = s.writeAct a row r v := by
  simp only [State.regEffect, h]

theorem actEpoch_isReg : (regRow? ACT_EPOCH).any (isReg ACT_EPOCH) = true := by decide +kernel

theorem actDbgstkyClr_isReg : (regRow? ACT_DBGSTKY_CLR).any (isReg ACT_DBGSTKY_CLR) = true := by decide +kernel

theorem actEpochSwitch_sets (a : Acc) (v : Word32) (s : State) : Sets (.actEpochSwitch a v) a ACT_EPOCH v s
    (if v.getLsbD 31 = true ∧ s.on ACT_EPOCH_BUSY = false then s.raise ACT_EPOCH_BUSY else s) := by
  intro h
  obtain ⟨row, hw⟩ := exists_writeRow h actEpoch_isReg
  refine hw.trans (congrArg _ ?_)
  rw [regEffect_act (by decide), State.writeAct, if_neg (by decide), if_pos rfl, setWidth_up_down]
  simp [State.actSwitch]

theorem ofControl_iff {a : Acc} : a.ofControl = true ↔ ∃ n, a.master = .ctl n := by
  unfold Acc.ofControl
  split
  · next n h => exact ⟨fun _ => ⟨n, h⟩, fun _ => rfl⟩
  · next h => exact ⟨fun hf => absurd hf Bool.false_ne_true, fun ⟨n, hn⟩ => absurd hn (h n)⟩

theorem dbgstkyClear_sets (a : Acc) (v : Word32) (s : State) : Sets (.dbgstkyClear a v) a ACT_DBGSTKY_CLR v s
    (if v.getLsbD 0 = true ∧ ∃ n, a.master = .ctl n then s.lower ACT_DBGSTKY_HIT else s) := by
  intro h
  obtain ⟨row, hw⟩ := exists_writeRow h actDbgstkyClr_isReg
  refine hw.trans (congrArg _ ?_)
  have hbit : (v.setWidth 64).getLsbD 0 = v.getLsbD 0 := by simp
  rw [regEffect_act (by decide), State.writeAct, if_neg (by decide), if_neg (by decide), if_neg (by decide), if_pos rfl, hbit]
  simp only [Bool.and_eq_true, ofControl_iff]

/-! ### Words copied to higher keys -/

section
variable {α : Type} (d : α)

theorem sget_filter_none {p : Nat × α → Bool} {k : Nat} (h : ∀ v, p (k, v) = false) (m : Sparse α) :
    sget d (m.filter p) k = d := by
  induction m with
  | nil => rfl
  | cons e t ih =>
    obtain ⟨k', v⟩ := e
    by_cases hp : p (k', v) = true
    · have hk : k' ≠ k := by rintro rfl; simp [h v] at hp
      rw [List.filter_cons_of_pos hp]
      simp [sget, hk, ih]
    · rw [List.filter_cons_of_neg hp, ih]

/-- An entry of a map with rising keys is what its key reads as. -/
theorem sget_of_mem {m : Sparse α} (hm : m.Pairwise fun a b => a.1 < b.1) {k : Nat} {v : α} (h : (k, v) ∈ m) :
    sget d m k = v := by
  induction m with
  | nil => cases h
  | cons e t ih =>
    obtain ⟨k', v'⟩ := e
    obtain ⟨hlt, ht⟩ := List.pairwise_cons.mp hm
    rcases List.mem_cons.mp h with heq | hmem
    · cases heq; simp [sget]
    · have hk : k' ≠ k := Nat.ne_of_lt (hlt _ hmem)
      simpa [sget, hk] using ih ht hmem

theorem mem_of_sget_ne {m : Sparse α} {k : Nat} (h : sget d m k ≠ d) : (k, sget d m k) ∈ m := by
  induction m with
  | nil => exact absurd rfl h
  | cons e t ih =>
    obtain ⟨k', v'⟩ := e
    by_cases hk : k' = k
    · simp [sget, hk]
    · simp only [sget, hk, if_false] at h ⊢
      exact List.mem_cons_of_mem _ (ih h)

/-- The entries of `l`, each written `o` above its key. -/
def copiedUp [DecidableEq α] (o : Nat) (l m : Sparse α) : Sparse α := l.foldl (fun m e => sput d m (e.1 + o) e.2) m

theorem sget_copiedUp_ne [DecidableEq α] {o k : Nat} {l : Sparse α} (h : ∀ e ∈ l, e.1 + o ≠ k) (m : Sparse α) :
    sget d (copiedUp d o l m) k = sget d m k := by
  induction l generalizing m with
  | nil => rfl
  | cons e t ih =>
    refine (ih (fun x hx => h x (List.mem_cons_of_mem _ hx)) _).trans ?_
    exact sget_sput_ne _ _ _ _ (h e List.mem_cons_self).symm

theorem sget_copiedUp [DecidableEq α] {o k : Nat} {l : Sparse α} (hl : l.Pairwise fun a b => a.1 < b.1) {m : Sparse α}
    (hm : sget d m (k + o) = d) : sget d (copiedUp d o l m) (k + o) = sget d l k := by
  induction l generalizing m with
  | nil => exact hm
  | cons e t ih =>
    obtain ⟨k', v⟩ := e
    obtain ⟨hlt, ht⟩ := List.pairwise_cons.mp hl
    by_cases hk : k' = k
    · subst hk
      have hrest : ∀ x ∈ t, x.1 + o ≠ k' + o := fun x hx => by have := hlt x hx; omega
      exact (sget_copiedUp_ne d hrest _).trans ((sget_sput_self d m (k' + o) v).trans (if_pos rfl).symm)
    · have hput : sget d (sput d m (k' + o) v) (k + o) = d := by rw [sget_sput_ne _ _ _ _ (by omega), hm]
      exact (ih ht hput).trans (if_neg hk).symm

end

/-! ### The staging rules come into force (07 R203) -/

theorem State.rulesInForce_regs (s : State) : s.rulesInForce.regs =
    copiedUp 0 0x10000 (s.regs.filter fun e => isStaging e.1)
      (s.regs.filter fun e => !(decide (0x40120000 ≤ e.1) && decide (e.1 < 0x40128000))) := rfl

theorem isStaging_iff {r : Nat} : isStaging r = true ↔ 0x40110000 ≤ r ∧ r < 0x40118000 := by
  simp [isStaging]

/-- Outside the active rules nothing changes. -/
theorem State.rd_rulesInForce_ne (s : State) {r : Nat} (h : r < 0x40120000 ∨ 0x40128000 ≤ r) : s.rulesInForce.rd r = s.rd r := by
  unfold State.rd
  rw [State.rulesInForce_regs, sget_copiedUp_ne 0 fun e he => ?_]
  · exact sget_filter 0 (fun v => by simp; omega) _
  · have := isStaging_iff.mp (List.mem_filter.mp he).2
    omega

/-- The active copy of a staging register reads as the staging register did. -/
theorem State.rd_rulesInForce_active {s : State} (hs : Canonical s) {r : Nat} (hr : isStaging r = true) :
    s.rulesInForce.rd (r + 0x10000) = s.rd r := by
  obtain ⟨hlo, hhi⟩ := isStaging_iff.mp hr
  unfold State.rd
  rw [State.rulesInForce_regs, sget_copiedUp 0 (((swf_iff _ _).mp hs.regs).1.filter _)]
  · exact sget_filter 0 (fun _ => hr) _
  · exact sget_filter_none 0 (fun v => by simp; omega) _

/-! ### The rules that fail the switch (07 R203) -/

theorem lowest_eq_min? (l : List Nat) : lowest l = l.min? := by
  induction l with
  | nil => rfl
  | cons n t ih => rw [lowest, ih, List.min?_cons]; cases t.min? <;> rfl

/-- Staging rule `n` is enabled and its START exceeds its END. -/
def State.ruleBad (s : State) (n : Nat) : Prop :=
  s.on (ACT_RULE_ATTR_EN n) = true ∧ s.rd (ACT_RULE_END n) < s.rd (ACT_RULE_START n)

theorem State.mem_rulesFailing {s : State} (hs : Canonical s) (n : Nat) : n ∈ s.rulesFailing ↔ n < 1024 ∧ s.ruleBad n := by
  have hsort := ((swf_iff _ _).mp hs.regs).1
  have hen : s.on (ACT_RULE_ATTR_EN n) = (s.rd (ACT_RULE_ATTR n)).getLsbD 31 := State.on_bitFld s (ACT_RULE_ATTR n) 31
  simp only [State.rulesFailing, List.mem_filterMap, State.ruleBad, hen]
  constructor
  · rintro ⟨⟨r, v⟩, hmem, h⟩
    simp only [Option.ite_none_right_eq_some, Option.some.injEq] at h
    obtain ⟨⟨hlo, hhi, hattr, hbit, hlt⟩, hn⟩ := h
    rw [hn] at hlt
    have hr : r = ACT_RULE_ATTR n := by simp only [ACT_RULE_ATTR]; omega
    have hv : s.rd (ACT_RULE_ATTR n) = v := sget_of_mem 0 hsort (hr ▸ hmem)
    exact ⟨by omega, hv ▸ hbit, hlt⟩
  · rintro ⟨hn, hbit, hlt⟩
    have hne : s.rd (ACT_RULE_ATTR n) ≠ 0 := fun h => by simp [h] at hbit
    have hrule : (ACT_RULE_ATTR n - 0x40110000) / 32 = n := by simp only [ACT_RULE_ATTR]; omega
    refine ⟨(ACT_RULE_ATTR n, s.rd (ACT_RULE_ATTR n)), mem_of_sget_ne 0 hne, ?_⟩
    simp only [hrule, Option.ite_none_right_eq_some, and_true]
    exact ⟨by simp only [ACT_RULE_ATTR]; omega, by simp only [ACT_RULE_ATTR]; omega, by simp only [ACT_RULE_ATTR]; omega, hbit, hlt⟩

/-- The first bad rule is the one that the switch reports. -/
theorem State.lowest_rulesFailing_some {s : State} (hs : Canonical s) {n : Nat} (hn : n < 1024) (hbad : s.ruleBad n)
    (hleast : ∀ m < n, ¬s.ruleBad m) : lowest s.rulesFailing = some n := by
  rw [lowest_eq_min?, List.min?_eq_some_iff]
  refine ⟨(State.mem_rulesFailing hs n).mpr ⟨hn, hbad⟩, fun m hm => ?_⟩
  exact Nat.le_of_not_lt fun hlt => hleast m hlt ((State.mem_rulesFailing hs m).mp hm).2

theorem State.lowest_rulesFailing_none {s : State} (hs : Canonical s) (h : ∀ n < 1024, ¬s.ruleBad n) :
    lowest s.rulesFailing = none := by
  have hnil : s.rulesFailing = [] := List.eq_nil_iff_forall_not_mem.mpr fun n hn =>
    have ⟨hlt, hbad⟩ := (State.mem_rulesFailing hs n).mp hn
    h n hlt hbad
  rw [hnil, lowest]

/-! ### The switch instant (07 R203, R205) -/

/-- The switch fails at rule `n`: the active table stays. -/
def State.actFails (s : State) (n : Nat) : State :=
  (((s.raise ACT_EPOCH_ERR).fset ACT_EPOCH_ERRRULE n).raise ACT_EVT_EPOCH_ERR).lower ACT_EPOCH_BUSY

/-- A switch is under way and no access of the old epoch is live. -/
def State.switchReady (s : State) : Prop :=
  s.powered = true ∧ s.on ACT_EPOCH_BUSY = true ∧ s.fget ACT_EPOCH_DRAIN_OLD_LIVE = 0

section
variable {dt : Nat} {s : State}

theorem actSwitchInstant_idle (h : ¬(s.elapse dt).switchReady) : exec (.actSwitchInstant dt) s = .next (s.elapse dt) := by
  refine (timed_neg (Bool.eq_false_iff.mpr fun hc => h ?_) : execActSwitchInstant dt s = _)
  simpa [State.switchReady, and_assoc] using hc

theorem actSwitchInstant_fails {n : Nat} (h : (s.elapse dt).switchReady) (hn : lowest (s.elapse dt).rulesFailing = some n) :
    exec (.actSwitchInstant dt) s = .next ((s.elapse dt).actFails n) := by
  obtain ⟨hp, hb, hl⟩ := h
  refine (timed_pos (by simp [hp, hb, hl]) : execActSwitchInstant dt s = _).trans (congrArg _ ?_)
  rw [hn]; rfl

theorem actSwitchInstant_passes (h : (s.elapse dt).switchReady) (hn : lowest (s.elapse dt).rulesFailing = none) :
    exec (.actSwitchInstant dt) s = .next (s.elapse dt).actSwitched := by
  obtain ⟨hp, hb, hl⟩ := h
  refine (timed_pos (by simp [hp, hb, hl]) : execActSwitchInstant dt s = _).trans (congrArg _ ?_)
  rw [hn]

end

theorem State.on_busy_actFails (s : State) (n : Nat) : (s.actFails n).on ACT_EPOCH_BUSY = false :=
  State.on_lower_self _ _ (by simp [Fld.fits])

theorem State.on_epochErr_actFails (s : State) (n : Nat) : (s.actFails n).on ACT_EVT_EPOCH_ERR = true := by
  unfold State.actFails
  rw [State.on_lower_apart _ _ _ (by simp [Fld.fits]) (by simp [Fld.apart])]
  exact State.on_raise_self _ _ (by simp [Fld.fits]) (by decide)

theorem State.actFails_frame (s : State) (n : Nat) :
    (s.actFails n).mem = s.mem ∧ (s.actFails n).dsp = s.dsp ∧ (s.actFails n).sys = s.sys := by
  simp [State.actFails]

/-- The new epoch in ACT_EPOCH and ACT_EVT. -/
def State.epochBegins (s : State) : State :=
  (((s.fset ACT_EPOCH_NUM (s.fget ACT_EPOCH_NUM + 1)).lower ACT_EPOCH_ERR).lower ACT_EPOCH_BUSY).raise ACT_EVT_EPOCH_DONE

theorem State.regsOnly_epochBegins (s : State) : RegsOnly s s.epochBegins :=
  ((((RegsOnly.refl s).fset _ _).lower _).lower _).raise _

theorem State.regsOnly_rulesInForce (s : State) : RegsOnly s s.rulesInForce := ⟨_, rfl⟩

/-- The accesses in flight do not stand in the register map. -/
theorem State.inFlight_of_regsOnly {s t : State} (h : RegsOnly s t) : t.inFlight = s.inFlight := by
  obtain ⟨r, rfl⟩ := h; rfl

theorem State.markFlight_of_regsOnly {s t : State} (h : RegsOnly s t) : t.markFlight = { s.markFlight with regs := t.regs } := by
  obtain ⟨r, rfl⟩ := h; rfl

theorem State.rd_markFlight (s : State) (r : Nat) : s.markFlight.rd r = s.rd r := by rfl

/-- The switch instant in order: the rules, the epoch, and the accesses in flight. -/
theorem State.actSwitched_eq (s : State) :
    s.actSwitched = (s.rulesInForce.epochBegins.fset ACT_EPOCH_DRAIN_OLD_LIVE s.inFlight).markFlight := by
  rw [← State.inFlight_of_regsOnly (s.regsOnly_rulesInForce.trans s.rulesInForce.regsOnly_epochBegins)]
  unfold State.actSwitched State.epochBegins
  rfl

section
variable (s : State)

/-- Beside registers, the switch marks the accesses in flight and changes nothing. -/
theorem State.actSwitched_eq_markFlight : s.actSwitched = { s.markFlight with regs := s.actSwitched.regs } := by
  rw [State.actSwitched_eq]
  exact State.markFlight_of_regsOnly ((s.regsOnly_rulesInForce.trans s.rulesInForce.regsOnly_epochBegins).fset _ _)

theorem State.actSwitched_frame :
    s.actSwitched.mem = s.mem ∧ s.actSwitched.dsp = s.dsp ∧ s.actSwitched.sys = s.sys := by
  rw [State.actSwitched_eq_markFlight]
  exact ⟨rfl, rfl, rfl⟩

theorem State.rd_epochBegins_ne {r : Nat} (h1 : r ≠ ACT_EPOCH) (h2 : r ≠ ACT_EVT) : s.epochBegins.rd r = s.rd r := by
  rw [State.epochBegins, State.rd_raise_ne _ _ h2, State.rd_lower_ne _ _ h1, State.rd_lower_ne _ _ h1, State.rd_fset_ne _ _ _ h1]

theorem State.on_busy_epochBegins : s.epochBegins.on ACT_EPOCH_BUSY = false := by
  rw [State.epochBegins, State.on_raise_apart _ _ _ (by simp [Fld.fits]) (by simp [Fld.apart])]
  exact State.on_lower_self _ _ (by simp [Fld.fits])

theorem State.on_err_epochBegins : s.epochBegins.on ACT_EPOCH_ERR = false := by
  rw [State.epochBegins, State.on_raise_apart _ _ _ (by simp [Fld.fits]) (by simp [Fld.apart]),
    State.on_lower_apart _ _ _ (by simp [Fld.fits]) (by simp [Fld.apart])]
  exact State.on_lower_self _ _ (by simp [Fld.fits])

theorem State.on_done_epochBegins : s.epochBegins.on ACT_EVT_EPOCH_DONE = true :=
  State.on_raise_self _ _ (by simp [Fld.fits]) (by decide)

theorem State.fget_num_epochBegins : s.epochBegins.fget ACT_EPOCH_NUM = (s.fget ACT_EPOCH_NUM + 1) % 2 ^ 16 := by
  unfold State.epochBegins State.raise State.lower
  rw [State.fget_fset_apart _ _ _ _ (by simp [Fld.fits]) (by simp [Fld.apart]),
    State.fget_fset_apart _ _ _ _ (by simp [Fld.fits]) (by simp [Fld.apart]),
    State.fget_fset_apart _ _ _ _ (by simp [Fld.fits]) (by simp [Fld.apart])]
  exact State.fget_fset_self _ _ _ (by simp [Fld.fits])

theorem State.rd_actSwitched {r : Nat} (h : r ≠ ACT_EPOCH_DRAIN) : s.actSwitched.rd r = s.rulesInForce.epochBegins.rd r := by
  rw [State.actSwitched_eq, State.rd_markFlight]
  exact State.rd_fset_ne _ _ _ h

theorem State.on_busy_actSwitched : s.actSwitched.on ACT_EPOCH_BUSY = false :=
  (State.on_of_rd (s.rd_actSwitched (by decide))).trans (State.on_busy_epochBegins _)

theorem State.on_err_actSwitched : s.actSwitched.on ACT_EPOCH_ERR = false :=
  (State.on_of_rd (s.rd_actSwitched (by decide))).trans (State.on_err_epochBegins _)

theorem State.on_done_actSwitched : s.actSwitched.on ACT_EVT_EPOCH_DONE = true :=
  (State.on_of_rd (s.rd_actSwitched (by decide))).trans (State.on_done_epochBegins _)

theorem State.fget_num_actSwitched : s.actSwitched.fget ACT_EPOCH_NUM = (s.fget ACT_EPOCH_NUM + 1) % 2 ^ 16 := by
  have hold : s.rulesInForce.fget ACT_EPOCH_NUM = s.fget ACT_EPOCH_NUM :=
    State.fget_of_rd (s.rd_rulesInForce_ne (.inl (by decide)))
  rw [State.fget_of_rd (f := ACT_EPOCH_NUM) (s.rd_actSwitched (by decide)), State.fget_num_epochBegins, hold]

theorem State.fget_oldLive_actSwitched : s.actSwitched.fget ACT_EPOCH_DRAIN_OLD_LIVE = s.inFlight % 2 ^ 13 := by
  rw [State.actSwitched_eq, State.fget_of_rd (State.rd_markFlight _ _)]
  exact State.fget_fset_self _ _ _ (by simp [Fld.fits])

theorem State.rd_actSwitched_ne {r : Nat} (h1 : r ≠ ACT_EPOCH) (h2 : r ≠ ACT_EPOCH_DRAIN) (h3 : r ≠ ACT_EVT) :
    s.actSwitched.rd r = s.rulesInForce.rd r :=
  (s.rd_actSwitched h2).trans (State.rd_epochBegins_ne _ h1 h3)

/-- A register that is neither an active rule nor ACT's own status reads as before. -/
theorem State.rd_actSwitched_frame {r : Nat} (h1 : r ≠ ACT_EPOCH) (h2 : r ≠ ACT_EPOCH_DRAIN) (h3 : r ≠ ACT_EVT)
    (h : r < 0x40120000 ∨ 0x40128000 ≤ r) : s.actSwitched.rd r = s.rd r :=
  (s.rd_actSwitched_ne h1 h2 h3).trans (s.rd_rulesInForce_ne h)

end

/-- Every staging rule is the active rule now, and stays as it was. -/
theorem State.rd_actSwitched_rules {s : State} (hs : Canonical s) {r : Nat} (hr : isStaging r = true) :
    s.actSwitched.rd (r + 0x10000) = s.rd r ∧ s.actSwitched.rd r = s.rd r := by
  obtain ⟨hlo, hhi⟩ := isStaging_iff.mp hr
  have hne : ∀ q < 0x40110000, r ≠ q ∧ r + 0x10000 ≠ q := by omega
  obtain ⟨h1, h1'⟩ := hne ACT_EPOCH (by decide)
  obtain ⟨h2, h2'⟩ := hne ACT_EPOCH_DRAIN (by decide)
  obtain ⟨h3, h3'⟩ := hne ACT_EVT (by decide)
  exact ⟨(s.rd_actSwitched_ne h1' h2' h3').trans (State.rd_rulesInForce_active hs hr),
    s.rd_actSwitched_frame h1 h2 h3 (.inl (by omega))⟩

end Sys2Proof.Machine

namespace Sys2Proof

open Sys2Proof.Machine

/-- Settles O39: a write of a staging rule is the word write of its register (`ruleStagingWrite_sets`), shut or open; the
rules that fail the switch are the bad ones (`State.mem_rulesFailing`), and a switch that passes is `State.actSwitched`. -/
theorem accessTableSwitches : Obligations.AccessTableSwitches := by
  unfold Obligations.AccessTableSwitches
  refine ⟨fun a n v s => ?_, fun a v s => ⟨?_, dbgstkyClear_sets a v s⟩, fun dt s => ?_⟩
  · intro shut w put key
    refine ⟨fun h k => ruleStagingWrite_shut a v k h, fun h => ?_⟩
    have hopen : s.stagingShut n = false := Bool.eq_false_iff.mpr fun hshut => h (stagingShut_iff.mp hshut)
    refine ⟨?_, ?_, fun k hk => ?_, fun k low hk hl => ?_⟩
    · exact ruleStagingWrite_attr a v hopen
    · exact ruleStagingWrite_mset a v hopen
    · exact ruleStagingWrite_low a v hopen hk
    · exact ruleStagingWrite_high a v hopen hk rfl hl
  · exact actEpochSwitch_sets a v s
  · intro u i ready bad
    have canon : Canonical s → Canonical u := (State.elapse_kept s dt (Kept.refl s)).canonical
    refine ⟨actSwitchInstant_idle, fun h => ?_, fun hs h => ⟨fun n hn hbad hleast => ?_, fun hgood => ?_⟩⟩
    · cases hl : lowest u.rulesFailing with
      | some n =>
        exact ⟨_, actSwitchInstant_fails h hl, u.on_busy_actFails n, .inl (u.on_epochErr_actFails n), u.actFails_frame n⟩
      | none =>
        exact ⟨_, actSwitchInstant_passes h hl, u.on_busy_actSwitched, .inr u.on_done_actSwitched, u.actSwitched_frame⟩
    · exact actSwitchInstant_fails h (State.lowest_rulesFailing_some (canon hs) hn hbad hleast)
    · exact ⟨u.actSwitched, actSwitchInstant_passes h (State.lowest_rulesFailing_none (canon hs) hgood),
        fun r hlo hhi => State.rd_actSwitched_rules (canon hs) (isStaging_iff.mpr ⟨hlo, hhi⟩), u.fget_num_actSwitched,
        u.on_busy_actSwitched, u.on_err_actSwitched, u.on_done_actSwitched, u.fget_oldLive_actSwitched,
        fun r h1 h2 h3 => u.rd_actSwitched_frame h1 h2 h3, u.actSwitched_eq_markFlight⟩

end Sys2Proof
end

section
/-!
SUPPORT. Proofs/StrayContext.lean: a state in which a modular unit runs a command of a context number beyond the 13 bits
that MAU_CHKLOG has for it (09 R245). O41 is refuted from it.
-/

namespace Sys2Proof.Machine

/-- A command of context 2 ^ 47, which does not exist: at bit 16 of the captured word its number spells bit 63. -/
def strayCtxCmd : EngCmd :=
  { ctx := 2 ^ 47, ticket := 1, pool := .mau, words := [], base := 0xC000, top := 0xD000, perms := 0x7FFF, index := 0 }

/-- Unit 1 runs it. -/
def strayCtxState : State := { State.reset with mau := [(1, { cmd := some strayCtxCmd })] }

theorem strayCtxState_unit : let u := strayCtxState.elapse 0
    (u.mauUnit 1).cmd = some strayCtxCmd ∧ (u.mauUnit 1).migrating = none := by decide +kernel

/-- A double-bit error ends the command, and the capture holds KIND 2 and unit 1 alone: the context number, added to VALID,
carried it out of the word. -/
theorem strayCtxState_dbe :
    Completes (.mauCompletion 0 1 2) strayCtxState fun t => t.rd MAU_CHKLOG = 0x2001 :=
  ⟨_, rfl, by decide +kernel⟩

/-- With that capture MAU_CHKLOG is not valid. -/
theorem State.chklog_not_valid {s : State} (h : s.rd MAU_CHKLOG = 0x2001) : s.on MAU_CHKLOG_VALID = false := by
  rw [State.on, State.fget, h]
  decide

end Sys2Proof.Machine

namespace Sys2Proof
open Sys2Proof.Machine

/-- Refutes O41: where a double-bit error ends a command, the statement has MAU_CHKLOG.VALID set for a command of every
context number, where contexts are numbered below 8192 and the register has 13 bits for them. In `strayCtxState` the
number is 2 ^ 47, and the capture loses VALID (`strayCtxState_dbe`). -/
theorem not_modularUnitsRunCommands : ¬ Obligations.ModularUnitsRunCommands := by
  unfold Obligations.ModularUnitsRunCommands
  rintro ⟨-, hcompletion, -⟩
  obtain ⟨hcmd, hfixed⟩ := strayCtxState_unit
  obtain ⟨-, hfault, -⟩ := (hcompletion 0 1 2 strayCtxState).2 strayCtxCmd hcmd hfixed
  obtain ⟨t, hexec, hcapture⟩ := strayCtxState_dbe
  obtain ⟨t', hexec', -, -, -, -, -, hvalid, -⟩ := hfault (.inl rfl)
  obtain rfl := Host.Outcome.next.inj (hexec.symm.trans hexec')
  exact Bool.false_ne_true ((State.chklog_not_valid hcapture).symm.trans hvalid)

end Sys2Proof
end

section
/-!
SUPPORT. Proofs/WaitingMirror.lean: a state in which the log buffer is empty and a MIRROR waits for room under the limit of
dirty pins (10 R267, R268; 12 R301). O44 is refuted from it.
-/

namespace Sys2Proof.Machine

/-- The creation of an AES-128 record at index 0 by the first commit of the journal. -/
def firstEntry : JEntry :=
  { jseq := 1, index := 0, op := 1, devid := 0, image := { type := 1, hchk := 1, version := 1, key := List.replicate 16 0 } }

/-- The MIRROR of that commit waits, as one does that met dirty pins up to their limit; the log buffer has emptied, and the
pins have ended with the refresh of their hot regions. -/
def waitingMirror : State :=
  { State.reset with duo := { buffer := [{ jseq := 1, requester := 0, seq := 0, entries := [firstEntry], resp := none }] } }

/-- LOG_FRAME_PROGRAMMED applies the MIRROR though it finds no frame group to program: its frames enter the log buffer. -/
theorem waitingMirror_applied : Completes (.logFrameProgrammed 0) waitingMirror fun t => t.kst.log.length = 1 :=
  ⟨_, rfl, by decide +kernel⟩

theorem waitingMirror_log : (waitingMirror.elapse 0).kst.log = [] := by decide +kernel

end Sys2Proof.Machine

namespace Sys2Proof
open Sys2Proof.Machine

/-- Refutes O44: where the log buffer is empty, the statement has LOG_FRAME_PROGRAMMED change nothing. In `waitingMirror` a
MIRROR that continues the journal waits beside an empty log buffer, and the command applies it (`waitingMirror_applied`). -/
theorem not_keyStoreWorksOn : ¬ Obligations.KeyStoreWorksOn := by
  unfold Obligations.KeyStoreWorksOn
  rintro ⟨-, -, hlog, -⟩
  obtain ⟨hidle, -⟩ := hlog 0 waitingMirror
  obtain ⟨t, hexec, happlied⟩ := waitingMirror_applied
  have hsame : t = waitingMirror.elapse 0 := Host.Outcome.next.inj (hexec.symm.trans (hidle (.inr waitingMirror_log)))
  rw [hsame, waitingMirror_log] at happlied
  exact absurd happlied (by decide)

end Sys2Proof
end

section
/-!
SUPPORT. Proofs/StrayWaiter.lean: a state in which a cipher engine runs a command of a context that awaits its MIRROR (12
R300), which has run no instruction. O48 is refuted from it.
-/

namespace Sys2Proof.Machine

/-- A command of context 0. -/
def strayWaiterCmd : EngCmd :=
  { ctx := 0, ticket := 0, pool := .cph, words := [], base := 0x4000, top := 0x5000, perms := 0x7FFF, index := 0 }

/-- Context 0 awaits its MIRROR and has reached E; engine 0 has run a command of it for 5 ns. -/
def strayWaiter : State :=
  { State.reset with
    tb := 5
    dsp := { ctxs := [(0, { st := .parked, isState := true, key := some 0 })] }
    cph := [(0, { cmd := some strayWaiterCmd })] }

/-- The answer NO_LANTERN aborts the command, whose time enters the busy count of the cipher engines (19 R418). -/
theorem strayWaiter_counted : Completes (.mirrorWaitExpiry 0 0) strayWaiter fun t => t.rd (PMC_CNT 0x057) = 5 :=
  ⟨_, rfl, by decide +kernel⟩

theorem strayWaiter_uncounted : (strayWaiter.elapse 0).rd (PMC_CNT 0x057) = 0 := by decide +kernel

/-- The conditions under which the context is answered NO_LANTERN (12 R300). -/
theorem strayWaiter_late : let x := (strayWaiter.elapse 0).ctx 0
    x.st = .parked ∧ x.isState = true ∧ x.await = none ∧ x.mirrored = false ∧ x.committed = false ∧ x.core = none ∧
      x.key = some 0 := by decide +kernel

end Sys2Proof.Machine

namespace Sys2Proof
open Sys2Proof.Machine

/-- Refutes O48: a context whose MIRROR does not come is answered, and the statement has every register as before, for
every state of the engines. In `strayWaiter` an engine runs a command of the context, and its busy time is counted as the
command is aborted (`strayWaiter_counted`). -/
theorem not_mirrorsAndResyncAct : ¬ Obligations.MirrorsAndResyncAct := by
  unfold Obligations.MirrorsAndResyncAct
  intro h
  obtain ⟨-, -, -, hexpiry, -⟩ := h 0 strayWaiter
  obtain ⟨hparked, hstate, hawait, hmirrored, hcommitted, hcore, hkey⟩ := strayWaiter_late
  obtain ⟨t, hexec, -, -, -, hregs, -⟩ :=
    (hexpiry 0).2 ⟨hparked, hstate, hawait, hmirrored, hcommitted, hcore, 0, hkey, Nat.zero_le _⟩
  obtain ⟨t', hexec', hcounted⟩ := strayWaiter_counted
  obtain rfl := Host.Outcome.next.inj (hexec.symm.trans hexec')
  rw [State.rd_congr hregs, strayWaiter_uncounted] at hcounted
  exact absurd hcounted (by decide)

end Sys2Proof
end

section
/-!
SUPPORT. Proofs/KeyStoreControl.lean: a granted write of KST_CMD, which operation it starts, and what the end of an
operation leaves in the key store's registers (10 R274).
-/

namespace Sys2Proof.Machine

/-! ### Writes of KST_CMD (10 R274) -/

theorem regEffect_kst {s : State} {a : Acc} {row : RegRow} {r : Nat} {v : Word} (h : r / 0x100000 = 0x407) :
    s.regEffect a row r v = s.writeKst row r v := by
  simp only [State.regEffect, h]

theorem kstCmd_unbanked : isUnbanked KST_CMD = true := by decide +kernel

/-- A granted write of KST_CMD is `kstCmd`. -/
theorem kstCmd_sets {i : Instr} {a : Acc} {v : Word32} {s : State} (hi : exec i s = s.writeRow a KST_CMD v) :
    Sets i a KST_CMD v s (s.kstCmd v) :=
  sets_unbanked kstCmd_unbanked hi fun row _ => by
    rw [regEffect_kst (by decide), State.writeKst]
    dsimp only
    rw [if_pos rfl, setWidth_up_down]

/-- Operation `n` starts, unless one runs. -/
def State.cmdStarts (s : State) (n : Nat) : State :=
  if s.on KST_CMD_BUSY = true then s
  else { (((s.fset KST_CMD_OP n).raise KST_CMD_BUSY).raise KST_STAT_CMD_BUSY).fset KST_CMD_ERR 0 with
    kst := { s.kst with running := some n } }

/-- GO with an operation of the table starts it. -/
theorem State.kstCmd_starts (s : State) {v : Word32} {n : Nat} (hgo : v.getLsbD 31 = true) (hop : v.toNat % 16 = n)
    (hn : 1 ≤ n ∧ n ≤ 6) : s.kstCmd v = s.cmdStarts n := by
  simp only [State.kstCmd, State.cmdStarts, hop, hgo, Bool.not_true, Bool.false_eq_true, if_false, if_pos hn]
  rfl

/-- GO with another code ends at once with ERR 8. -/
theorem State.kstCmd_rejects (s : State) {v : Word32} {n : Nat} (hgo : v.getLsbD 31 = true) (hop : v.toNat % 16 = n)
    (hn : ¬(1 ≤ n ∧ n ≤ 6)) : s.kstCmd v =
      if s.on KST_CMD_BUSY = true then s else ((s.fset KST_CMD_OP n).fset KST_CMD_ERR 8).raise KST_EVT_CMD_ERR := by
  simp only [State.kstCmd, hop, hgo, Bool.not_true, Bool.false_eq_true, if_false, if_neg hn]

/-- The word that carries GO and a code of four bits. -/
theorem goWord_spells : ∀ op : BitVec 4, (0x80000000#32 ||| op.setWidth 32).getLsbD 31 = true ∧
    (0x80000000#32 ||| op.setWidth 32).toNat % 16 = op.toNat := by decide

/-! ### The end of an operation (10 R274) -/

theorem State.kst_cmdEnds (s : State) (e : Nat) : (s.cmdEnds e).kst = { s.kst with running := none } := by rfl

theorem State.running_cmdEnds (s : State) (e : Nat) : (s.cmdEnds e).kst.running = none := by rw [State.kst_cmdEnds]

theorem State.cached_cmdEnds (s : State) (e : Nat) : (s.cmdEnds e).kst.cached = s.kst.cached := by rw [State.kst_cmdEnds]

theorem State.records_cmdEnds (s : State) (e : Nat) : (s.cmdEnds e).kst.records = s.kst.records := by
  rw [State.kst_cmdEnds]

theorem State.cachedAt_cmdEnds (s : State) (e i : Nat) : (s.cmdEnds e).cachedAt i = s.cachedAt i := by
  rw [State.cachedAt, State.cached_cmdEnds, State.cachedAt]

theorem State.regs_withKst (s : State) (k : KstState) : ({ s with kst := k } : State).regs = s.regs := by rfl

/-- A field is set alike where the registers are alike. -/
theorem State.regs_fset_congr {s t : State} (h : s.regs = t.regs) (f : Fld) (v : Nat) :
    (s.fset f v).regs = (t.fset f v).regs := by
  simp only [State.fset, State.wr_regs, State.rd_congr h, h]

theorem State.regs_cmdEnds (s : State) (e : Nat) : (s.cmdEnds e).regs =
    ((((s.lower KST_CMD_BUSY).lower KST_STAT_CMD_BUSY).fset KST_CMD_ERR e).raise
      (if e = 0 then KST_EVT_CMD_DONE else KST_EVT_CMD_ERR)).regs := by
  unfold State.cmdEnds State.raise
  exact State.regs_fset_congr (State.regs_fset_congr (State.regs_withKst _ _) _ _) _ _

/-- An end touches no registers but KST_CMD, KST_STAT and KST_EVT. -/
theorem State.rd_cmdEnds_ne (s : State) (e : Nat) {a : Nat} (hc : a ≠ KST_CMD) (hs : a ≠ KST_STAT) (hv : a ≠ KST_EVT) :
    (s.cmdEnds e).rd a = s.rd a := by
  have hevt : (if e = 0 then KST_EVT_CMD_DONE else KST_EVT_CMD_ERR).addr = KST_EVT := by split <;> rfl
  rw [State.rd_congr (s.regs_cmdEnds e), State.raise, State.rd_fset_ne _ _ _ (hevt ▸ hv), State.rd_fset_ne _ _ _ hc,
    State.lower, State.rd_fset_ne _ _ _ hs, State.lower, State.rd_fset_ne _ _ _ hc]

theorem cmdEvent_apart (e : Nat) : (if e = 0 then KST_EVT_CMD_DONE else KST_EVT_CMD_ERR).fits ∧
    (if e = 0 then KST_EVT_CMD_DONE else KST_EVT_CMD_ERR).apart KST_CMD_ERR ∧
    (if e = 0 then KST_EVT_CMD_DONE else KST_EVT_CMD_ERR).apart KST_CMD_BUSY ∧
    (if e = 0 then KST_EVT_CMD_DONE else KST_EVT_CMD_ERR).apart KST_EVT_CKPT_DONE := by
  split <;> simp [Fld.fits, Fld.apart]

theorem State.fget_err_cmdEnds (s : State) (e : Nat) : (s.cmdEnds e).fget KST_CMD_ERR = e % 16 := by
  obtain ⟨hfits, hapart, -, -⟩ := cmdEvent_apart e
  rw [State.fget_congr (s.regs_cmdEnds e), State.raise, State.fget_fset_apart _ _ _ _ hfits hapart]
  exact State.fget_fset_self _ _ _ (by simp [Fld.fits])

theorem State.on_busy_cmdEnds (s : State) (e : Nat) : (s.cmdEnds e).on KST_CMD_BUSY = false := by
  obtain ⟨hfits, -, hapart, -⟩ := cmdEvent_apart e
  rw [State.on_congr (s.regs_cmdEnds e), State.on_raise_apart _ _ _ hfits hapart,
    State.on_fset_apart _ _ _ _ (by simp [Fld.fits]) (by simp [Fld.apart]),
    State.on_lower_apart _ _ _ (by simp [Fld.fits]) (by simp [Fld.apart])]
  exact State.on_lower_self _ _ (by simp [Fld.fits])

theorem State.on_done_cmdEnds (s : State) : (s.cmdEnds 0).on KST_EVT_CMD_DONE = true := by
  rw [State.on_congr (s.regs_cmdEnds 0), if_pos rfl]
  exact State.on_raise_self _ _ (by simp [Fld.fits]) (by simp)

theorem State.on_err_cmdEnds (s : State) {e : Nat} (h : e ≠ 0) : (s.cmdEnds e).on KST_EVT_CMD_ERR = true := by
  rw [State.on_congr (s.regs_cmdEnds e), if_neg h]
  exact State.on_raise_self _ _ (by simp [Fld.fits]) (by simp)

theorem State.on_ckpt_cmdEnds (s : State) (e : Nat) : (s.cmdEnds e).on KST_EVT_CKPT_DONE = s.on KST_EVT_CKPT_DONE := by
  obtain ⟨hfits, -, -, hapart⟩ := cmdEvent_apart e
  rw [State.on_congr (s.regs_cmdEnds e), State.on_raise_apart _ _ _ hfits hapart,
    State.on_fset_apart _ _ _ _ (by simp [Fld.fits]) (by simp [Fld.apart]),
    State.on_lower_apart _ _ _ (by simp [Fld.fits]) (by simp [Fld.apart]),
    State.on_lower_apart _ _ _ (by simp [Fld.fits]) (by simp [Fld.apart])]

theorem kstEnded_eq (u : State) (e : Nat) : kstEnded u e = u.cmdEnds e := by rfl

/-! ### The operation that ends (10 R274) -/

section
variable {dt : Nat} {ok : Bool} {s : State}

theorem kstCmdComplete_idle (h : (s.elapse dt).kst.running = none) :
    exec (.kstCmdComplete dt ok) s = .next (s.elapse dt) := by
  show execKstCmdComplete dt ok s = _
  simp only [execKstCmdComplete, h]

theorem kstCmdComplete_pin (h : (s.elapse dt).kst.running = some 1) :
    exec (.kstCmdComplete dt ok) s = .next ((s.elapse dt).cmdPin ok) := by
  show execKstCmdComplete dt ok s = _
  simp only [execKstCmdComplete, h]

theorem kstCmdComplete_unpin (h : (s.elapse dt).kst.running = some 2) :
    exec (.kstCmdComplete dt ok) s = .next (s.elapse dt).cmdUnpin := by
  show execKstCmdComplete dt ok s = _
  simp only [execKstCmdComplete, h]

theorem kstCmdComplete_prefetch (h : (s.elapse dt).kst.running = some 3) :
    exec (.kstCmdComplete dt ok) s = .next ((s.elapse dt).cmdPrefetch ok) := by
  show execKstCmdComplete dt ok s = _
  simp only [execKstCmdComplete, h]

theorem kstCmdComplete_evict (h : (s.elapse dt).kst.running = some 4) :
    exec (.kstCmdComplete dt ok) s = .next (s.elapse dt).cmdEvict := by
  show execKstCmdComplete dt ok s = _
  simp only [execKstCmdComplete, h]

theorem kstCmdComplete_checkpointFails (h : (s.elapse dt).kst.running = some 5) :
    exec (.kstCmdComplete dt false) s = .next ((s.elapse dt).cmdEnds 6) := by
  show execKstCmdComplete dt false s = _
  simp only [execKstCmdComplete, h, Bool.false_eq_true, if_false]

theorem kstCmdComplete_checkpoint {b : Bool} {t : State} (h : (s.elapse dt).kst.running = some 5)
    (ht : (s.elapse dt).takeCheckpoint = (b, t)) :
    exec (.kstCmdComplete dt true) s = .next (t.cmdEnds (if b = true then 0 else 6)) := by
  show execKstCmdComplete dt true s = _
  simp only [execKstCmdComplete, h, if_true, ht]
  cases b <;> rfl

theorem kstCmdComplete_import (h : (s.elapse dt).kst.running = some 6) :
    exec (.kstCmdComplete dt ok) s = .next ((s.elapse dt).cmdImport ok) := by
  show execKstCmdComplete dt ok s = _
  simp only [execKstCmdComplete, h]

end

end Sys2Proof.Machine
end

section
/-!
SUPPORT. Proofs/KeyStorePins.lean: PIN, UNPIN, PREFETCH and EVICT as what each does in its cases (10 R274), with the fetch
that a record needs which the cache does not hold (10 R265, R266).
-/

namespace Sys2Proof.Machine

/-! ### The fetch of a command -/

/-- The record of an index is in the cache, or its fetch verifies (10 R265, R266). -/
def State.SoundFetch (s : State) (i : Nat) (ok : Bool) : Prop :=
  s.tier i = .cache ∨ (ok = true ∧ (s.tier i = .hot ∨ (s.sealedAt i).image.type = 0 ∨
    ((s.sealedAt i).bad = false ∧ (s.sealedAt i).key = s.kst.sealingKey)))

@[simp] theorem State.countFetch_kst (s : State) (i : Nat) : (s.countFetch i).kst = s.kst := by
  unfold State.countFetch
  split <;> simp

theorem State.fetchVerifies_countFetch (s : State) (hot : Bool) (i j : Nat) (ok : Bool) :
    (s.countFetch j).fetchVerifies hot i ok = s.fetchVerifies hot i ok := by
  unfold State.fetchVerifies State.sealedAt
  rw [State.countFetch_kst]

theorem State.bringIn_cached {s : State} {i : Nat} (ok : Bool) (h : s.tier i = .cache) :
    s.bringIn i ok = (.ok (s.install i), s) := by
  simp only [State.bringIn, h]

/-- A record that the cache does not hold is fetched. -/
theorem State.bringIn_fetches {s : State} {i : Nat} (ok : Bool) (h : s.tier i ≠ .cache) : s.bringIn i ok =
    if s.fetchVerifies (decide (s.tier i = .hot)) i ok = true then (.ok ((s.countFetch i).install i), s.countFetch i)
    else (.error (), (s.countFetch i).integrityFailure (decide (s.tier i = .hot)) i) := by
  unfold State.bringIn
  split
  · next hc => exact absurd hc h
  · simp only [State.fetchVerifies_countFetch]

theorem State.bringIn_sound {s : State} {i : Nat} {ok : Bool} (h : s.SoundFetch i ok) :
    ∃ t r : State, t.kst = s.kst ∧ s.bringIn i ok = (.ok (t.install i), r) := by
  by_cases hc : s.tier i = .cache
  · exact ⟨s, s, rfl, State.bringIn_cached ok hc⟩
  · have hv : s.fetchVerifies (decide (s.tier i = .hot)) i ok = true :=
      (s.fetchVerifies_iff _ _ _).mpr (by simpa only [decide_eq_true_eq] using h.resolve_left hc)
    exact ⟨s.countFetch i, _, s.countFetch_kst i, by rw [State.bringIn_fetches ok hc, if_pos hv]⟩

theorem State.bringIn_unsound {s : State} {i : Nat} {ok : Bool} (h : ¬s.SoundFetch i ok) :
    ∃ t : State, t.kst.cached = s.kst.cached ∧ s.bringIn i ok = (.error (), t) := by
  have hc : s.tier i ≠ .cache := fun hc => h (.inl hc)
  have hv : ¬s.fetchVerifies (decide (s.tier i = .hot)) i ok = true := fun hv =>
    h (.inr (by simpa only [decide_eq_true_eq] using (s.fetchVerifies_iff _ _ _).mp hv))
  obtain ⟨-, -, hcached, -⟩ := (s.countFetch i).integrityFailure_frame (decide (s.tier i = .hot)) i
  exact ⟨_, hcached.trans (congrArg KstState.cached (s.countFetch_kst i)), by rw [State.bringIn_fetches ok hc, if_neg hv]⟩

theorem State.records_install (s : State) (i : Nat) : (s.install i).kst.records = s.kst.records :=
  State.install_keeps (fun s => s.kst.records) (fun _ _ _ => rfl) (fun _ _ => rfl) s i

theorem State.exists_cachedAt_install (s : State) (i : Nat) : ∃ c, (s.install i).cachedAt i = some c :=
  Option.isSome_iff_exists.mp (s.isSome_cachedAt_install i)

theorem fixedSlot_iff (n : Nat) : fixedSlot n = true ↔ 1 ≤ n ∧ n ≤ 0xFFF := by
  simp [fixedSlot]

/-! ### PIN (10 R274) -/

/-- PIN of the record at index `i` in a slot that may take it. -/
def State.pinFetched (s : State) (i slot : Nat) (ok : Bool) : State :=
  match s.bringIn i ok with
  | (.error _, s) => s.cmdEnds 5
  | (.ok s, _) => (match s.cachedAt i with
    | some c => s.setCached i (some { c with fixed := some slot })
    | none => s).cmdEnds 0

theorem State.cmdPin_eq (s : State) (ok : Bool) : s.cmdPin ok =
    let h := (s.rd KST_CMD_HANDLE).toNat
    let i := handleIndex h
    let slot := s.fget KST_CMD_SLOT_SLOT
    if s.handleMatches h = false then s.cmdEnds 1
    else if ¬(1 ≤ slot ∧ slot ≤ 0xFFF) ∨ s.fixedRec slot ≠ none ∨ (s.cachedAt i).bind Cached.fixed ≠ none then s.cmdEnds 2
    else if s.fget KST_PINMAX_LINES < s.cacheLines (fun c => c.fixed.isSome) + (s.recAt i).lines then s.cmdEnds 3
    else s.pinFetched i slot ok := by
  extract_lets h i slot
  have hheld : (match s.cachedAt i with
      | some c => c.fixed
      | none => none).isSome = true ↔ (s.cachedAt i).bind Cached.fixed ≠ none := by
    cases s.cachedAt i <;> simp [Option.isSome_iff_ne_none]
  have hslot : (!fixedSlot slot || (s.fixedRec slot).isSome || (match s.cachedAt i with
      | some c => c.fixed
      | none => none).isSome) = true ↔
      ¬(1 ≤ slot ∧ slot ≤ 0xFFF) ∨ s.fixedRec slot ≠ none ∨ (s.cachedAt i).bind Cached.fixed ≠ none := by
    rw [Bool.or_eq_true, Bool.or_eq_true, hheld, Option.isSome_iff_ne_none, ← fixedSlot_iff, Bool.not_eq_true', Bool.not_eq_true,
      or_assoc]
  by_cases h1 : s.handleMatches h = false
  · rw [if_pos h1]
    exact if_pos (by rw [h1]; rfl)
  rw [if_neg h1]
  refine (if_neg (by simpa using h1)).trans ?_
  by_cases h2 : ¬(1 ≤ slot ∧ slot ≤ 0xFFF) ∨ s.fixedRec slot ≠ none ∨ (s.cachedAt i).bind Cached.fixed ≠ none
  · rw [if_pos h2]
    exact if_pos (hslot.mpr h2)
  rw [if_neg h2]
  refine (if_neg (mt hslot.mp h2)).trans ?_
  rfl

theorem State.pinFetched_sound {s : State} {i slot : Nat} {ok : Bool} (h : s.SoundFetch i ok) :
    let t := s.pinFetched i slot ok
    t.fget KST_CMD_ERR = 0 ∧ t.on KST_CMD_BUSY = false ∧ t.kst.running = none ∧
      (∃ c, t.cachedAt i = some c ∧ c.fixed = some slot) ∧ t.kst.records = s.kst.records := by
  obtain ⟨t, r, hkst, hin⟩ := State.bringIn_sound h
  obtain ⟨c, hc⟩ := t.exists_cachedAt_install i
  have heq : s.pinFetched i slot ok = ((t.install i).setCached i (some { c with fixed := some slot })).cmdEnds 0 := by
    simp only [State.pinFetched, hin, hc]
  rw [heq]
  exact ⟨State.fget_err_cmdEnds _ _, State.on_busy_cmdEnds _ _, State.running_cmdEnds _ _,
    ⟨_, (State.cachedAt_cmdEnds _ _ _).trans (State.cachedAt_setCached _ _ _), rfl⟩,
    (State.records_cmdEnds _ _).trans ((t.records_install i).trans (congrArg KstState.records hkst))⟩

theorem State.pinFetched_unsound {s : State} {i slot : Nat} {ok : Bool} (h : ¬s.SoundFetch i ok) :
    let t := s.pinFetched i slot ok
    t.fget KST_CMD_ERR = 5 ∧ t.on KST_EVT_CMD_ERR = true ∧ t.kst.running = none ∧ t.kst.cached = s.kst.cached := by
  obtain ⟨t, hcached, hin⟩ := State.bringIn_unsound h
  have heq : s.pinFetched i slot ok = t.cmdEnds 5 := by simp only [State.pinFetched, hin]
  rw [heq]
  exact ⟨State.fget_err_cmdEnds _ _, State.on_err_cmdEnds _ (by decide), State.running_cmdEnds _ _,
    (State.cached_cmdEnds _ _).trans hcached⟩

/-! ### UNPIN (10 R274) -/

theorem State.cmdUnpin_empty {s : State}
    (h : ¬(1 ≤ s.fget KST_CMD_SLOT_SLOT ∧ s.fget KST_CMD_SLOT_SLOT ≤ 0xFFF) ∨ s.fixedRec (s.fget KST_CMD_SLOT_SLOT) = none) :
    s.cmdUnpin = s.cmdEnds 2 := by
  have hnone : (if fixedSlot (s.fget KST_CMD_SLOT_SLOT) = true then s.fixedRec (s.fget KST_CMD_SLOT_SLOT) else none) = none := by
    rcases h with h | h
    · exact if_neg (mt (fixedSlot_iff _).mp h)
    · rw [h, ite_self]
  simp only [State.cmdUnpin, hnone]

theorem State.cmdUnpin_frees {s : State} {j : Nat} {r : KeyRec} {c : Cached}
    (hslot : 1 ≤ s.fget KST_CMD_SLOT_SLOT ∧ s.fget KST_CMD_SLOT_SLOT ≤ 0xFFF)
    (hr : s.fixedRec (s.fget KST_CMD_SLOT_SLOT) = some (j, r)) (hc : s.cachedAt j = some c) :
    s.cmdUnpin = ((s.setCached j (some { c with fixed := none })).slotHealed (s.fget KST_CMD_SLOT_SLOT)).cmdEnds 0 := by
  simp only [State.cmdUnpin, if_pos ((fixedSlot_iff _).mpr hslot), hr, hc]

/-! ### PREFETCH (10 R274) -/

theorem State.cmdPrefetch_unnamed {s : State} (ok : Bool) (h : s.handleMatches (s.rd KST_CMD_HANDLE).toNat = false) :
    s.cmdPrefetch ok = s.cmdEnds 1 := by
  simp only [State.cmdPrefetch, h, Bool.not_false, if_true]

theorem State.cmdPrefetch_sound {s : State} {ok : Bool} (hm : ¬s.handleMatches (s.rd KST_CMD_HANDLE).toNat = false)
    (h : s.SoundFetch (handleIndex (s.rd KST_CMD_HANDLE).toNat) ok) :
    let t := s.cmdPrefetch ok
    t.fget KST_CMD_ERR = 0 ∧ t.kst.running = none ∧ (∃ c, t.cachedAt (handleIndex (s.rd KST_CMD_HANDLE).toNat) = some c) ∧
      t.kst.records = s.kst.records := by
  obtain ⟨t, r, hkst, hin⟩ := State.bringIn_sound h
  have heq : s.cmdPrefetch ok = (t.install (handleIndex (s.rd KST_CMD_HANDLE).toNat)).cmdEnds 0 := by
    simp only [State.cmdPrefetch, hm, hin, Bool.not_eq_true', Bool.true_eq_false, if_false]
  rw [heq]
  obtain ⟨c, hc⟩ := t.exists_cachedAt_install (handleIndex (s.rd KST_CMD_HANDLE).toNat)
  exact ⟨State.fget_err_cmdEnds _ _, State.running_cmdEnds _ _, ⟨c, (State.cachedAt_cmdEnds _ _ _).trans hc⟩,
    (State.records_cmdEnds _ _).trans ((t.records_install _).trans (congrArg KstState.records hkst))⟩

theorem State.cmdPrefetch_unsound {s : State} {ok : Bool} (hm : ¬s.handleMatches (s.rd KST_CMD_HANDLE).toNat = false)
    (h : ¬s.SoundFetch (handleIndex (s.rd KST_CMD_HANDLE).toNat) ok) :
    (s.cmdPrefetch ok).fget KST_CMD_ERR = 5 ∧ (s.cmdPrefetch ok).kst.cached = s.kst.cached := by
  obtain ⟨t, hcached, hin⟩ := State.bringIn_unsound h
  have heq : s.cmdPrefetch ok = t.cmdEnds 5 := by
    simp only [State.cmdPrefetch, hm, hin, Bool.not_eq_true', Bool.true_eq_false, if_false]
  rw [heq]
  exact ⟨State.fget_err_cmdEnds _ _, (State.cached_cmdEnds _ _).trans hcached⟩

/-! ### EVICT (10 R274) -/

theorem Cached.pinned_iff (c : Cached) :
    c.pinned = true ↔ c.fixed ≠ none ∨ 0 < c.binds ∨ 0 < c.dirty ∨ c.refreshing ≠ [] := by
  simp [Cached.pinned, Cached.dirtyPin, Option.isSome_iff_ne_none, or_assoc]

theorem State.cmdEvict_unnamed {s : State} (h : s.handleMatches (s.rd KST_CMD_HANDLE).toNat = false) :
    s.cmdEvict = s.cmdEnds 1 := by
  simp only [State.cmdEvict, h, Bool.not_false, if_true]

theorem State.cmdEvict_absent {s : State} (hm : ¬s.handleMatches (s.rd KST_CMD_HANDLE).toNat = false)
    (h : s.cachedAt (handleIndex (s.rd KST_CMD_HANDLE).toNat) = none) : s.cmdEvict = s.cmdEnds 0 := by
  simp only [State.cmdEvict, hm, h, Bool.not_eq_true', Bool.true_eq_false, if_false]

theorem State.cmdEvict_cached {s : State} {c : Cached} (hm : ¬s.handleMatches (s.rd KST_CMD_HANDLE).toNat = false)
    (h : s.cachedAt (handleIndex (s.rd KST_CMD_HANDLE).toNat) = some c) :
    s.cmdEvict = if c.fixed ≠ none ∨ 0 < c.binds ∨ 0 < c.dirty ∨ c.refreshing ≠ [] then s.cmdEnds 4
      else (s.setCached (handleIndex (s.rd KST_CMD_HANDLE).toNat) none).cmdEnds 0 := by
  simp only [State.cmdEvict, hm, h, Bool.not_eq_true', Bool.true_eq_false, if_false, c.pinned_iff]

end Sys2Proof.Machine
end

section
/-!
SUPPORT. Proofs/Checkpoints.lean: a checkpoint (10 R270): where the access table denies it, and the root record that it
writes to the block whose turn it is (14 R330, R344).
-/

namespace Sys2Proof.Machine

/-! ### KST's writes enter the interconnect (07 R195) -/

theorem State.kstEnters_granted {s : State} : ∀ {l : List Nat}, (∀ a ∈ l, s.actCheck ⟨.kst, 0⟩ a .write = none) →
    s.kstEnters l = (.ok (), s)
  | [], _ => rfl
  | a :: l, h => by
    rw [State.kstEnters, enter_granted (by simp) (h a List.mem_cons_self)]
    exact State.kstEnters_granted fun b hb => h b (List.mem_cons_of_mem a hb)

/-- The first denial ends them, and is recorded. -/
theorem State.kstEnters_denied {s : State} {l : List Nat} {a : Nat} {d : Denial} (h : FirstDenied s l a d) :
    s.kstEnters l = (.error .act, s.violate ⟨.kst, 0⟩ a .write d) := by
  obtain ⟨pre, post, rfl, hpre, hd⟩ := h
  induction pre with
  | nil =>
    rw [List.nil_append, State.kstEnters, enter_denied (by simp) hd]
  | cons b pre ih =>
    rw [List.cons_append, State.kstEnters, enter_granted (by simp) (hpre b List.mem_cons_self)]
    exact ih fun c hc => hpre c (List.mem_cons_of_mem b hc)

/-! ### The root record (10 R270, 14 R330) -/

/-- The root record of a checkpoint taken now. -/
def State.nextRoot (s : State) : Root :=
  { rootseq := (s.rd TMP_ROOTSEQ).toNat + 1, treeRoot := rootOf (treeAfter s.kst.sealedRecs s.kst.tail),
    logPos := s.kst.lsn, jseqSnap := s.kst.durable }

/-- The key store with that root: of its copies two are kept, and the tree has every frame programmed. -/
def State.rooted (s : State) : State :=
  { s with kst := { s.kst with
      roots := (s.kst.roots ++ [s.nextRoot]).drop ((s.kst.roots ++ [s.nextRoot]).length - 2), lastCheckpoint := s.tb,
      checkpointing := false, sealedRecs := treeAfter s.kst.sealedRecs s.kst.tail, tail := [],
      treeRoot := s.nextRoot.treeRoot } }

/-- The state that a checkpoint leaves. -/
def State.checkpointed (s : State) : State :=
  (((s.rooted.writeRoot s.nextRoot).wr TMP_ROOTSEQ (BitVec.ofNat 64 s.nextRoot.rootseq)).wr KST_SNAP
    (BitVec.ofNat 64 s.kst.durable)).raise KST_EVT_CKPT_DONE

theorem State.takeCheckpoint_granted {s : State}
    (h : ∀ a ∈ checkpointWrites ((s.rd TMP_ROOTSEQ).toNat + 1), s.actCheck ⟨.kst, 0⟩ a .write = none) :
    s.takeCheckpoint = (true, s.checkpointed) := by
  have henters := State.kstEnters_granted h
  unfold checkpointWrites at henters
  unfold State.takeCheckpoint rootAddr
  dsimp only
  rw [henters]
  rfl

theorem State.takeCheckpoint_denied {s : State} {a : Nat} {d : Denial}
    (h : FirstDenied s (checkpointWrites ((s.rd TMP_ROOTSEQ).toNat + 1)) a d) :
    let v := s.violate ⟨.kst, 0⟩ a .write d
    s.takeCheckpoint = (false, { v with kst := { v.kst with checkpointing := false, lastCheckpoint := s.tb } }) := by
  have henters := State.kstEnters_denied h
  have htb : (s.violate ⟨.kst, 0⟩ a .write d).tb = s.tb := by
    obtain ⟨r, f, hv⟩ := violate_regsFlt s ⟨.kst, 0⟩ a .write d
    rw [hv]
  unfold checkpointWrites at henters
  unfold State.takeCheckpoint rootAddr
  dsimp only
  rw [henters, ← htb]

/-- An erased block reads as ones, and every byte outside it as before. -/
theorem memGet_blank (m : List Host.Cell) (a x : Nat) :
    memGet (m.filter fun e => !(decide (a ≤ e.1) && decide (e.1 < a + 0x10000))) x =
      if a ≤ x ∧ x < a + 0x10000 then memDefault x else memGet m x := by
  unfold memGet
  split
  · next h => exact sget_filter_none _ (fun _ => by simp [h.1, h.2]) m
  · next h => exact sget_filter _ (fun _ => by simp; omega) m

/-- The 256 bytes of a root record. -/
def rootPage (r : Root) : List Byte :=
  (List.range 256).map fun k => Config.rootByte r.rootseq r.treeRoot r.logPos r.jseqSnap k

/-- Memory with the block of a root record erased and the record at its start (14 R330). -/
def memWithRoot (m : List Host.Cell) (r : Root) : List Host.Cell :=
  memWrite (m.filter fun e => !(decide (rootAddr r.rootseq ≤ e.1) && decide (e.1 < rootAddr r.rootseq + 0x10000)))
    (rootAddr r.rootseq) (rootPage r)

/-- Writing a root record changes memory, the erase count and the flag of its block, and registers. -/
theorem State.writeRoot_eq (s : State) (r : Root) : ∃ regs damaged flags, s.writeRoot r = { s with
    regs := regs, damaged := damaged
    mem := memWithRoot s.mem r
    flc := { s.flc with
      counts := sput 0 s.flc.counts (flcBlock (rootAddr r.rootseq))
        (min 0xFFFFF (sget 0 s.flc.counts (flcBlock (rootAddr r.rootseq)) + 1))
      flags := flags } } := by
  have herase : ∃ regs, s.eraseE1 (flcBlock (rootAddr r.rootseq)) = { s with
      regs := regs
      flc := { s.flc with
        counts := sput 0 s.flc.counts (flcBlock (rootAddr r.rootseq))
          (min 0xFFFFF (sget 0 s.flc.counts (flcBlock (rootAddr r.rootseq)) + 1))
        flags := sput false s.flc.flags (flcBlock (rootAddr r.rootseq)) true } } := by
    unfold State.eraseE1
    dsimp only
    split <;> exact ⟨_, rfl⟩
  obtain ⟨regs, herase⟩ := herase
  unfold State.writeRoot
  dsimp only
  rw [herase]
  exact ⟨_, _, _, rfl⟩

theorem flcBlock_rootAddr (n : Nat) : flcBlock (rootAddr n) = 5 + n % 2 := by
  unfold flcBlock rootAddr
  omega

/-- The block of a root record reads as the record and, behind it, as ones (14 R327). -/
theorem memGet_rootBlock (m : List Host.Cell) (r : Root) {k : Nat} (hk : k < 0x10000) :
    memGet (memWithRoot m r) (rootAddr r.rootseq + k) =
      if k < 256 then Config.rootByte r.rootseq r.treeRoot r.logPos r.jseqSnap k else 0xFF := by
  unfold memWithRoot
  have hlen : (rootPage r).length = 256 := by simp [rootPage]
  have hlo : 0x10050000 ≤ rootAddr r.rootseq ∧ rootAddr r.rootseq ≤ 0x10060000 := by unfold rootAddr; omega
  split
  · next h =>
    rw [memGet_memWrite_in _ _ _ _ (hlen ▸ h)]
    simp [rootPage]
  · next h =>
    rw [memGet_memWrite_out _ _ _ _ (.inr (by omega)), memGet_blank, if_pos (by omega), memDefault, if_neg (by omega), inFlash,
      decide_eq_true (by omega), decide_eq_true (by omega)]
    rfl

theorem memGet_rootBlock_out (m : List Host.Cell) (r : Root) {x : Nat}
    (hx : x < rootAddr r.rootseq ∨ rootAddr r.rootseq + 0x10000 ≤ x) :
    memGet (memWithRoot m r) x = memGet m x := by
  unfold memWithRoot
  have hlen : (rootPage r).length = 256 := by simp [rootPage]
  rw [memGet_memWrite_out _ _ _ _ (by omega), memGet_blank, if_neg (by omega)]

theorem State.checkpointed_spec (s : State) : Checkpointed s s.checkpointed := by
  obtain ⟨regs, damaged, flags, hwrite⟩ := s.rooted.writeRoot_eq s.nextRoot
  have hregs : RegsOnly (s.rooted.writeRoot s.nextRoot) s.checkpointed := by
    unfold State.checkpointed
    exact (((RegsOnly.refl _).wr _ _).wr _ _).raise _
  have hevt : ∀ {a : Nat}, a ≠ KST_EVT → ∀ t : State, (t.raise KST_EVT_CKPT_DONE).rd a = t.rd a := fun h t =>
    State.rd_fset_ne t _ _ h
  have hseq : s.checkpointed.rd TMP_ROOTSEQ = BitVec.ofNat 64 s.nextRoot.rootseq := by
    rw [State.checkpointed, hevt (by decide), State.rd_wr_ne _ _ (by decide), State.rd_wr, if_pos rfl]
  have hsnap : s.checkpointed.rd KST_SNAP = BitVec.ofNat 64 s.kst.durable := by
    rw [State.checkpointed, hevt (by decide), State.rd_wr, if_pos rfl]
  have hdone : s.checkpointed.on KST_EVT_CKPT_DONE = true := by
    unfold State.checkpointed
    exact State.on_raise_self _ _ (by simp [Fld.fits]) (by simp)
  obtain ⟨r, ht⟩ := hregs
  have hrooted : s.rooted = { s with kst := s.rooted.kst } := rfl
  rw [hwrite, hrooted] at ht
  generalize hk : s.rooted.kst = k at ht
  generalize hm : memWithRoot _ s.nextRoot = m at ht
  generalize s.checkpointed = t at *
  subst ht
  refine ⟨?_, hseq, hsnap, hdone, fun k hk => ?_, fun a ha => ?_, fun b => ?_, rfl⟩
  · subst hk
    rfl
  · show memGet m (rootAddr s.nextRoot.rootseq + k) = _
    rw [← hm]
    exact memGet_rootBlock s.mem s.nextRoot hk
  · show memGet m a = memGet s.mem a
    rw [← hm]
    exact memGet_rootBlock_out s.mem s.nextRoot ha
  show sget 0 (sput 0 s.flc.counts (flcBlock (rootAddr s.nextRoot.rootseq)) _) b = _
  rw [sget_sput, flcBlock_rootAddr]
  split
  · next h => exact h ▸ (if_pos rfl).symm
  · next h => exact (if_neg h).symm

theorem State.exists_cmdEnds (s : State) (e : Nat) :
    ∃ r, s.cmdEnds e = { s with regs := r, kst := { s.kst with running := none } } := by
  obtain ⟨q, hq⟩ : RegsOnly s ((s.lower KST_CMD_BUSY).lower KST_STAT_CMD_BUSY) := ((RegsOnly.refl s).lower _).lower _
  obtain ⟨r, hr⟩ : RegsOnly { (s.lower KST_CMD_BUSY).lower KST_STAT_CMD_BUSY with kst := { s.kst with running := none } }
      (s.cmdEnds e) := by
    unfold State.cmdEnds
    exact ((RegsOnly.refl _).fset _ _).raise _
  exact ⟨r, by rw [hr, hq]⟩

/-- The command CHECKPOINT ends with the checkpoint. -/
theorem Checkpointed.cmdEnds {u t : State} (h : Checkpointed u t) : Checkpointed u (t.cmdEnds 0) := by
  obtain ⟨hkst, hseq, hsnap, hdone, hblock, hrest, hcounts, hframe⟩ := h
  have hseq' := (t.rd_cmdEnds_ne 0 (a := TMP_ROOTSEQ) (by decide) (by decide) (by decide)).trans hseq
  have hsnap' := (t.rd_cmdEnds_ne 0 (a := KST_SNAP) (by decide) (by decide) (by decide)).trans hsnap
  have hdone' := (t.on_ckpt_cmdEnds 0).trans hdone
  obtain ⟨r, hr⟩ := t.exists_cmdEnds 0
  generalize t.cmdEnds 0 = x at *
  subst hr
  exact ⟨congrArg (fun k : KstState => { k with running := none }) hkst, hseq', hsnap', hdone', hblock, hrest, hcounts,
    congrArg (fun y : State => { y with regs := r, kst := { t.kst with running := none } }) hframe⟩

end Sys2Proof.Machine
end

section
/-!
SUPPORT. Proofs/ImportedRecords.lean: the commit of one record that no context makes (10 R260, R263, R267), and its MIRROR.
-/

namespace Sys2Proof.Machine

/-! ### Sending leaves the key store alone (12 R299) -/

/-- The key store and its registers are as before. -/
def SameKst (s t : State) : Prop := t.kst = s.kst ∧ ∀ a, a / 0x100000 = 0x407 → t.rd a = s.rd a

theorem SameKst.refl (s : State) : SameKst s s := ⟨rfl, fun _ _ => rfl⟩

theorem SameKst.trans {s t u : State} (h : SameKst s t) (k : SameKst t u) : SameKst s u :=
  ⟨k.1.trans h.1, fun a ha => (k.2 a ha).trans (h.2 a ha)⟩

/-- A change elsewhere that leaves the registers alone. -/
theorem SameKst.of_regs {s t : State} (hk : t.kst = s.kst) (hr : t.regs = s.regs) : SameKst s t :=
  ⟨hk, fun a _ => State.rd_congr hr a⟩

theorem sameKst_count (s : State) (e n : Nat) : SameKst s (s.count e n) :=
  ⟨State.count_kst s e n, fun _ ha => State.rd_count_low s e n (by omega)⟩

theorem sameKst_usePn (s : State) (k : Nat) : SameKst s (s.usePn k) := by
  have hpn : SameKst s (if (s.sa k).pn + 1 = pnThresh then s.raise SVC_EVT_PN_THRESH else s) := by
    split
    · exact ⟨rfl, fun a ha => State.rd_fset_ne _ _ _ (by simp only [SVC_EVT]; omega)⟩
    · exact .refl s
  refine hpn.trans ?_
  unfold State.usePn
  dsimp only
  generalize (if (s.sa k).pn + 1 = pnThresh then s.raise SVC_EVT_PN_THRESH else s) = w
  split <;> exact .of_regs rfl rfl

theorem sameKst_sendFrame (s : State) (p : Fin 4) (b : List Byte) (t : Nat) : SameKst s (s.sendFrame p b t) := by
  have hsent : SameKst s ((s.sentCounted p (frameLen (s.secy p) b)).emit
      (.frame p t ((s.sentCounted p (frameLen (s.secy p) b)).wireBytes p b))) :=
    (sameKst_count s _ _).trans ((sameKst_count _ _ _).trans (.of_regs rfl rfl))
  rw [State.sendFrame_eq]
  dsimp only
  split
  · exact hsent.trans (sameKst_usePn _ _)
  · exact hsent

theorem sameKst_sendPeerFrame (s : State) (p : Fin 4) (h b : List Byte) : SameKst s (s.sendPeerFrame p h b) := by
  have hdrawn : SameKst s (s.drawn 1) := .of_regs rfl rfl
  simp only [State.sendPeerFrame, State.transmit]
  split
  · exact hdrawn.trans (sameKst_sendFrame _ _ _ _)
  · exact hdrawn

theorem sameKst_sendSegments (p : Fin 4) (typ jseq nseg : Nat) (b : List Byte) (n : Nat) :
    ∀ (k : Nat) (s : State), SameKst s (s.sendSegments p typ jseq nseg b k n) := by
  induction n with
  | zero => exact fun _ s => .refl s
  | succ n ih => exact fun k s => (sameKst_sendPeerFrame s p _ _).trans (ih _ _)

theorem sameKst_sealMirror (s : State) (j ctr : Nat) (b : List Byte) : SameKst s (s.sealMirror j ctr b) := by
  unfold State.sealMirror
  split
  · exact .refl s
  · exact sameKst_sendSegments _ _ _ _ _ _ _ _

theorem sameKst_sendMirror (s : State) (j : Nat) (es : List JEntry) (b : List Byte) : SameKst s (s.sendMirror j es b) := by
  unfold State.sendMirror
  split
  · exact .refl s
  have hduo : ∀ (t : State) (d : DuoState), SameKst t { t with duo := d } := fun _ _ => .of_regs rfl rfl
  extract_lets d w ctr e v f
  have hw : SameKst s w := by
    show SameKst s (if _ then s else _)
    split
    · exact .refl s
    · exact hduo s _
  split
  · exact hw.trans ((hduo w _).trans (hduo v _))
  · exact (hw.trans (hduo w _)).trans (sameKst_sealMirror v _ _ _)

/-! ### One entry applied (10 R265, R267, R271) -/

section
variable {β : Type} (g : State → β) (hset : ∀ s i x, g (s.setCached i x) = g s)
include hset

/-- What marking a record dirty keeps is what changes of the cache, its clock and its slots keep. -/
theorem State.dirty_keeps (hclock : ∀ (s : State) n, g { s with kst := { s.kst with useClock := n } } = g s)
    (hheal : ∀ s n, g (s.slotHealed n) = g s) (s : State) (i : Nat) : g (s.dirty i) = g s := by
  have hinstall := s.install_keeps g hset hclock i
  unfold State.dirty
  dsimp only
  split
  · exact (hheal _ _).trans ((hheal _ _).trans ((hset _ _ _).trans hinstall))
  · exact hinstall

theorem State.askRefresh_keeps (hrefresh : ∀ (s : State) l, g { s with kst := { s.kst with refresh := l } } = g s)
    (s : State) (i n : Nat) : g (s.askRefresh i n) = g s := by
  unfold State.askRefresh
  dsimp only
  split
  · exact (hrefresh _ _).trans (hset _ _ _)
  · exact hrefresh _ _

end

/-- The record that an image leaves where no raise of CEIL is under way for it (10 R269). -/
def State.seenImage (s : State) (e : JEntry) : KeyRec :=
  if (s.kst.raises.any fun x => decide (x.index = e.index)) = true then { e.image with ceil := (s.recAt e.index).ceil }
  else e.image

/-- What a commit is known by: the records, NEXT of the counted ones, and the registers. -/
def State.committed (s : State) : Sparse KeyRec × Sparse Nat × Sparse Word := (s.kst.records, s.kst.nexts, s.regs)

/-- An entry with an image replaces the record at its index, and changes neither NEXT nor a register. -/
theorem State.committed_applyEntry {s : State} {e : JEntry} (h : e.image.type ≠ 0) :
    (s.applyEntry e).committed = (s.setRec e.index (s.seenImage e)).committed := by
  unfold State.applyEntry
  simp only [if_true, if_neg h]
  have hset : ∀ (s : State) i x, (s.setCached i x).committed = s.committed := fun _ _ _ => rfl
  have hask : ∀ (t : State) (c : Prop) [Decidable c] i n,
      (if c then t.askRefresh i n else t).committed = t.committed := fun t c _ i n => by
    split
    · exact State.askRefresh_keeps State.committed hset (fun _ _ => rfl) t i n
    · rfl
  refine (hask _ _ _ _).trans ?_
  exact State.dirty_keeps State.committed hset (fun _ _ => rfl) (fun _ _ => rfl) (s.setRec e.index (s.seenImage e)) e.index

/-- It puts one frame group into the log buffer. -/
theorem State.length_log_applyEntry (s : State) (e : JEntry) (b : Bool) :
    (s.applyEntry e b).kst.log.length = s.kst.log.length + 1 := by
  have hset : ∀ (s : State) i x, (s.setCached i x).kst.log = s.kst.log := fun _ _ _ => rfl
  have hdirty : ∀ (t : State) i, (t.dirty i).kst.log = t.kst.log :=
    State.dirty_keeps (fun s => s.kst.log) hset (fun _ _ => rfl) (fun _ _ => rfl)
  have hask : ∀ (t : State) i n, (t.askRefresh i n).kst.log = t.kst.log :=
    State.askRefresh_keeps (fun s => s.kst.log) hset fun _ _ => rfl
  have hseen : ∀ t : State, t.kst.log = s.kst.log → ∀ l : LogEntry,
      ((t.dirty e.index).kst.log ++ [l]).length = s.kst.log.length + 1 := fun t ht l => by
    rw [hdirty, ht, List.length_append, List.length_singleton]
  unfold State.applyEntry
  simp only [State.journalPut, apply_ite State.kst, apply_ite KstState.log, hask, ite_self]
  refine hseen _ ?_ _
  simp only [State.destroyRec, State.setRec, apply_ite State.kst, apply_ite KstState.log, ite_self]

/-! ### A record created by a commit of its own (10 R260, R263) -/

/-- The state in which the commit of the record `r`, created at index `i`, takes its JSEQ. -/
def State.commitBegun (s : State) (i : Nat) (r : KeyRec) : State := (s.resetNexts [(1, i, r)]).dropRaises [(1, i, r)]

/-- The state in which its entry applies. -/
def State.entryReady (s : State) (i : Nat) (r : KeyRec) : State :=
  let d := s.commitBegun i r
  (({ d with duo := { d.duo with ctr := d.duo.ctr + 1 + 1 } } : State).wr KST_JSEQ
    (BitVec.ofNat 64 ((d.rd KST_JSEQ).toNat + 1))).count 0x053 1

/-- Its entry. -/
def State.onlyEntry (s : State) (i : Nat) (r : KeyRec) : JEntry :=
  let d := s.commitBegun i r
  { jseq := (d.rd KST_JSEQ).toNat + 1, index := i, op := 1, devid := d.devid
    image := { r with ceil := d.pendingCeil i r.ceil }
    salt := if d.duo.saltWait then none else some d.duo.salt, ctr := d.duo.ctr }

theorem State.commitAlone_eq (s : State) (i : Nat) (r : KeyRec) :
    ∃ j b, s.commitAlone [(1, i, r)] = ((s.entryReady i r).applyEntry (s.onlyEntry i r)).sendMirror j [s.onlyEntry i r] b := by
  unfold State.commitAlone State.commit State.entryReady State.onlyEntry State.commitBegun
  simp only [List.mapIdx_cons, List.mapIdx_nil, List.length_singleton, List.foldl_cons, List.foldl_nil, Nat.add_zero]
  exact ⟨_, _, rfl⟩

theorem State.kst_entryReady (s : State) (i : Nat) (r : KeyRec) : (s.entryReady i r).kst =
    { s.kst with nexts := sput 0 s.kst.nexts i r.count
                 raises := s.kst.raises.filter fun x => !([(1, i, r)].any fun c => decide (c.2.2.type = 0 ∧ c.2.1 = x.index)) } := by
  unfold State.entryReady
  rw [State.count_kst]
  rfl

theorem State.jseq_entryReady (s : State) (i : Nat) (r : KeyRec) :
    (s.entryReady i r).rd KST_JSEQ = BitVec.ofNat 64 ((s.rd KST_JSEQ).toNat + 1) := by
  unfold State.entryReady
  dsimp only
  rw [State.rd_count_low _ _ _ (by decide), State.rd_wr, if_pos rfl]
  rfl

/-- Where no raise of the record is under way, its image is the record as it is created. -/
theorem State.seenImage_onlyEntry {s : State} {i : Nat} {r : KeyRec} (h : ∀ x ∈ s.kst.raises, x.index ≠ i) :
    (s.entryReady i r).seenImage (s.onlyEntry i r) = r := by
  have hnone : ∀ x ∈ (s.entryReady i r).kst.raises, ¬x.index = (s.onlyEntry i r).index := fun x hx => by
    rw [State.kst_entryReady] at hx
    exact h x (List.mem_filter.mp hx).1
  have hceil : (s.commitBegun i r).pendingCeil i r.ceil = r.ceil := by
    have hfilter : ((s.commitBegun i r).kst.raises.filter fun x => decide (x.index = i)) = [] :=
      List.filter_eq_nil_iff.mpr fun x hx => by simpa using h x (List.mem_filter.mp hx).1
    rw [State.pendingCeil, hfilter]
    rfl
  unfold State.seenImage
  rw [if_neg (by simpa only [Bool.not_eq_true, List.any_eq_false, decide_eq_true_eq] using hnone)]
  unfold State.onlyEntry
  dsimp only
  rw [hceil]

/-- A record of a type, committed on its own: its JSEQ, NEXT, its place in the log, and the records. -/
theorem State.commitAlone_one {s : State} {i : Nat} {r : KeyRec} (h : r.type ≠ 0) :
    (s.commitAlone [(1, i, r)]).rd KST_JSEQ = BitVec.ofNat 64 ((s.rd KST_JSEQ).toNat + 1) ∧
    sget 0 (s.commitAlone [(1, i, r)]).kst.nexts i = r.count ∧
    (s.commitAlone [(1, i, r)]).kst.log.length = s.kst.log.length + 1 ∧
    ∀ k, (s.commitAlone [(1, i, r)]).recAt k =
      if k = i then (s.entryReady i r).seenImage (s.onlyEntry i r) else s.recAt k := by
  obtain ⟨j, b, heq⟩ := s.commitAlone_eq i r
  have hready := s.kst_entryReady i r
  have hjseq := s.jseq_entryReady i r
  have htype : (s.onlyEntry i r).image.type ≠ 0 := h
  have hindex : (s.onlyEntry i r).index = i := rfl
  rw [heq]
  generalize s.onlyEntry i r = e at *
  generalize s.entryReady i r = d at *
  obtain ⟨hsent, hrd⟩ := sameKst_sendMirror (d.applyEntry e) j [e] b
  have happlied := State.committed_applyEntry (s := d) htype
  simp only [State.committed, Prod.mk.injEq] at happlied
  obtain ⟨hrecs, hnexts, hregs⟩ := happlied
  refine ⟨?_, ?_, ?_, fun k => ?_⟩
  · exact (hrd _ (by decide)).trans ((State.rd_congr hregs _).trans hjseq)
  · rw [hsent, hnexts, State.setRec]
    simp only [hready]
    exact sget_sput_self _ _ _ _
  · rw [hsent, State.length_log_applyEntry, hready]
  · simp only [State.recAt, hsent, hrecs, State.setRec, hindex, sget_sput, hready]

/-- A record of a type, created by a commit of its own. -/
theorem State.commitAlone_created {s : State} {i : Nat} {r new : KeyRec} (hnew : new = s.asCreated i r) (h : r.type ≠ 0) :
    Created s i r (s.commitAlone [(1, i, new)]) := by
  have htype : new.type ≠ 0 := by rwa [hnew, State.asCreated]
  have hcount : new.count = r.count := by rw [hnew, State.asCreated]
  obtain ⟨hjseq, hnext, hlog, hrecs⟩ := State.commitAlone_one (s := s) (i := i) htype
  refine ⟨hjseq, hnext.trans hcount, hlog, fun k hk => ?_, fun hraises => ?_⟩
  · rw [hrecs, if_neg hk]
  · rw [hrecs, if_pos rfl, State.seenImage_onlyEntry hraises, hnew, State.asCreated]

theorem Created.cmdEnds {u t : State} {i : Nat} {r : KeyRec} (h : Created u i r t) (e : Nat) : Created u i r (t.cmdEnds e) := by
  obtain ⟨hjseq, hnext, hlog, hothers, hself⟩ := h
  have hrec : ∀ k, (t.cmdEnds e).recAt k = t.recAt k := fun k => by rw [State.recAt, State.records_cmdEnds, State.recAt]
  refine ⟨(t.rd_cmdEnds_ne e (by decide) (by decide) (by decide)).trans hjseq, ?_, ?_, fun k hk => (hrec k).trans (hothers k hk),
    fun hr => (hrec i).trans (hself hr)⟩
  · rw [State.kst_cmdEnds]
    exact hnext
  · rw [State.kst_cmdEnds]
    exact hlog

end Sys2Proof.Machine
end

section
/-!
SUPPORT. Proofs/KeyStoreImports.lean: IMPORT as what it does in its cases (10 R264, R267, R274).
-/

namespace Sys2Proof.Machine

/-! ### The checks of an import -/

theorem State.spanFree_iff (s : State) (i n : Nat) : s.spanBusy i n = false ↔ i + n ≤ (s.rd KST_NIDX).toNat ∧
    ∀ e ∈ s.kst.records, e.2.type ≠ 0 → i + n ≤ e.1 ∨ e.1 + e.2.lines ≤ i := by
  simp only [State.spanBusy, Bool.or_eq_false_iff, decide_eq_false_iff_not, List.any_eq_false, decide_eq_true_eq, not_and, not_lt]
  exact and_congr_right fun _ => forall₃_congr fun _ _ _ => by omega

/-- A limit is given exactly where the record counts. -/
theorem limitFits_iff (r : KeyRec) : (decide (r.limit = 0) != r.counted) = true ↔ (r.flags % 2 = 1 ↔ r.limit ≠ 0) := by
  by_cases hl : r.limit = 0 <;> simp [KeyRec.counted, hl]

theorem coldIndex_iff (s : State) (i : Nat) (r : KeyRec) : (!(r.counted && decide (i < (s.rd KST_HOTLINES).toNat))) = true ↔
    (r.flags % 2 = 1 → (s.rd KST_HOTLINES).toNat ≤ i) := by
  simp only [KeyRec.counted, Bool.not_and, Bool.or_eq_true, Bool.not_eq_true', decide_eq_false_iff_not]
  omega

theorem State.importOk_iff (s : State) (i : Nat) (r : KeyRec) : s.importOk i r = true ↔ Creatable s i r := by
  rw [State.importOk, Bool.and_eq_true, Bool.and_eq_true, Bool.and_eq_true, Bool.and_eq_true, decide_eq_true_eq, limitFits_iff,
    Bool.not_eq_true', State.spanFree_iff, coldIndex_iff, Creatable]
  tauto

theorem Creatable.type_ne {s : State} {i : Nat} {r : KeyRec} (h : Creatable s i r) : r.type ≠ 0 := fun h0 => by
  obtain ⟨-, hlen, -⟩ := h
  rw [h0] at hlen
  exact Bool.false_ne_true hlen

theorem State.commitFits_iff (s : State) (op i : Nat) (r : KeyRec) : s.commitFits [(op, i, r)] = true ↔ RoomFor s i r := by
  simp [State.commitFits, State.roomFor, State.logHas, RoomFor]

theorem State.importRecord_right {s : State} {i : Nat} {img : List Byte}
    (h : img.length = 64 + leAt img 2 2 ∧ Creatable s i (recOfImage img)) :
    s.importRecord i img = some (s.asCreated i (recOfImage img)) :=
  if_pos ⟨h.1, (s.importOk_iff i _).mpr h.2⟩

theorem State.importRecord_wrong {s : State} {i : Nat} {img : List Byte}
    (h : ¬(img.length = 64 + leAt img 2 2 ∧ Creatable s i (recOfImage img))) : s.importRecord i img = none :=
  if_neg fun hok => h ⟨hok.1, (s.importOk_iff i _).mp hok.2⟩

/-! ### The blob -/

/-- The read of the blob that an IMPORT names. -/
def State.blobRead (s : State) : Ans (List Byte) :=
  s.readBlock ⟨.kst, 0⟩ (s.fget KST_CMD_SRC_ADDR * 16) (72 + 8 * ((Config.freeWord s.freeCtr).toNat % 161))

theorem State.unwrapBlob_eq (s : State) (kek : List Byte) : s.unwrapBlob kek = match s.blobRead.1 with
    | .ok b => (.ok (kwpUnwrap kek b), s.blobRead.2.drawn 1)
    | .error .wait => (.error .wait, s.blobRead.2)
    | .error _ => (.ok none, s.blobRead.2.drawn 1) := by
  unfold State.unwrapBlob
  rw [← State.blobRead]
  rcases s.blobRead with ⟨e | b, t⟩
  · cases e <;> rfl
  · rfl

/-- What an IMPORT does once its key can unwrap. -/
def State.importUnwrapped (s : State) (i : Nat) (kek : List Byte) : State :=
  match s.unwrapBlob kek with
  | (.error _, s) => s
  | (.ok none, s) => s.cmdEnds 7
  | (.ok (some img), s) => match s.importRecord i img with
    | none => s.cmdEnds 7
    | some r => if s.commitFits [(1, i, r)] then (s.commitAlone [(1, i, r)]).cmdEnds 0 else s.stallCommit ⟨none, [(1, i, r)]⟩

section
variable {s : State} {i : Nat} {kek : List Byte}

theorem State.importUnwrapped_waits (h : s.blobRead.1 = .error .wait) : s.importUnwrapped i kek = s.blobRead.2 := by
  simp only [State.importUnwrapped, State.unwrapBlob_eq, h]

theorem State.importUnwrapped_unread {e : BusErr} (h : s.blobRead.1 = .error e) (he : e ≠ .wait) :
    s.importUnwrapped i kek = (s.blobRead.2.drawn 1).cmdEnds 7 := by
  cases e with
  | wait => exact absurd rfl he
  | _ => simp only [State.importUnwrapped, State.unwrapBlob_eq, h]

variable {b : List Byte}

theorem State.importUnwrapped_sealed (h : s.blobRead.1 = .ok b) (hw : kwpUnwrap kek b = none) :
    s.importUnwrapped i kek = (s.blobRead.2.drawn 1).cmdEnds 7 := by
  simp only [State.importUnwrapped, State.unwrapBlob_eq, h, hw]

variable {img : List Byte}

theorem State.importUnwrapped_wrong (h : s.blobRead.1 = .ok b) (hw : kwpUnwrap kek b = some img)
    (hr : ¬(img.length = 64 + leAt img 2 2 ∧ Creatable (s.blobRead.2.drawn 1) i (recOfImage img))) :
    s.importUnwrapped i kek = (s.blobRead.2.drawn 1).cmdEnds 7 := by
  simp only [State.importUnwrapped, State.unwrapBlob_eq, h, hw, State.importRecord_wrong hr]

variable (h : s.blobRead.1 = .ok b) (hw : kwpUnwrap kek b = some img)
  (hr : img.length = 64 + leAt img 2 2 ∧ Creatable (s.blobRead.2.drawn 1) i (recOfImage img))
include h hw hr

theorem State.importUnwrapped_commits
    (hroom : RoomFor (s.blobRead.2.drawn 1) i ((s.blobRead.2.drawn 1).asCreated i (recOfImage img))) :
    s.importUnwrapped i kek =
      ((s.blobRead.2.drawn 1).commitAlone [(1, i, (s.blobRead.2.drawn 1).asCreated i (recOfImage img))]).cmdEnds 0 := by
  simp only [State.importUnwrapped, State.unwrapBlob_eq, h, hw, State.importRecord_right hr,
    if_pos ((State.commitFits_iff _ _ _ _).mpr hroom)]

theorem State.importUnwrapped_creates
    (hroom : RoomFor (s.blobRead.2.drawn 1) i ((s.blobRead.2.drawn 1).asCreated i (recOfImage img))) :
    let t := s.importUnwrapped i kek
    Created (s.blobRead.2.drawn 1) i (recOfImage img) t ∧ t.kst.running = none ∧ t.on KST_CMD_BUSY = false ∧
      t.fget KST_CMD_ERR = 0 := by
  rw [State.importUnwrapped_commits h hw hr hroom]
  exact ⟨Created.cmdEnds (State.commitAlone_created rfl (Creatable.type_ne hr.2)) 0, State.running_cmdEnds _ _, State.on_busy_cmdEnds _ _,
    State.fget_err_cmdEnds _ _⟩

theorem State.importUnwrapped_stalls
    (hroom : ¬RoomFor (s.blobRead.2.drawn 1) i ((s.blobRead.2.drawn 1).asCreated i (recOfImage img))) :
    s.importUnwrapped i kek =
      (s.blobRead.2.drawn 1).stallCommit ⟨none, [(1, i, (s.blobRead.2.drawn 1).asCreated i (recOfImage img))]⟩ := by
  simp only [State.importUnwrapped, State.unwrapBlob_eq, h, hw, State.importRecord_right hr,
    if_neg (mt (State.commitFits_iff _ _ _ _).mp hroom)]

end

/-! ### IMPORT (10 R274) -/

theorem KeyRec.unwraps_iff (k : KeyRec) : (k.type ≠ 2 ∨ (!k.useBit 3) = true) ↔ (k.type ≠ 2 ∨ k.use / 8 % 2 = 0) := by
  simp [KeyRec.useBit]

section
variable {s : State} (ok : Bool)

theorem State.cmdImport_waits (h : importWaits s.kst.waiting = true) : s.cmdImport ok = s := by
  simp only [State.cmdImport, h, if_true]

variable (hidle : ¬importWaits s.kst.waiting = true)
include hidle

theorem State.cmdImport_refused (h : s.sys.mode ≠ .custody ∨ s.holds = false) : s.cmdImport ok = s.cmdEnds 7 := by
  simp only [State.cmdImport, if_neg hidle, Bool.not_eq_true', if_pos h]

variable (hmay : ¬(s.sys.mode ≠ .custody ∨ s.holds = false))
include hmay

theorem State.cmdImport_unslotted (h : ¬(1 ≤ s.fget KST_CMD_SLOT_SLOT ∧ s.fget KST_CMD_SLOT_SLOT ≤ 0xFFF)) :
    s.cmdImport ok = s.cmdEnds 2 := by
  have hslot : fixedSlot (s.fget KST_CMD_SLOT_SLOT) = false := Bool.eq_false_iff.mpr (mt (fixedSlot_iff _).mp h)
  simp only [State.cmdImport, if_neg hidle, Bool.not_eq_true', if_neg hmay, if_pos hslot]

variable (hslot : 1 ≤ s.fget KST_CMD_SLOT_SLOT ∧ s.fget KST_CMD_SLOT_SLOT ≤ 0xFFF)
include hslot

theorem State.cmdImport_keyless (h : s.fixedRec (s.fget KST_CMD_SLOT_SLOT) = none) : s.cmdImport ok = s.cmdEnds 1 := by
  have hfixed := (fixedSlot_iff _).mpr hslot
  simp only [State.cmdImport, if_neg hidle, Bool.not_eq_true', if_neg hmay, hfixed, Bool.true_eq_false, if_false, h]

/-- With a key in its slot, an IMPORT looks whether the key may unwrap and can be read, and then unwraps. -/
theorem State.cmdImport_keyed {j : Nat} {k : KeyRec} (h : s.fixedRec (s.fget KST_CMD_SLOT_SLOT) = some (j, k)) :
    s.cmdImport ok = if k.type ≠ 2 ∨ k.use / 8 % 2 = 0 then s.cmdEnds 1
      else if ok = false ∨ s.slotBad (s.fget KST_CMD_SLOT_SLOT) = true then s.cmdEnds 5
      else s.importUnwrapped (handleIndex (s.rd KST_CMD_HANDLE).toNat) k.key := by
  have hfixed := (fixedSlot_iff _).mpr hslot
  simp only [State.cmdImport, if_neg hidle, Bool.not_eq_true', if_neg hmay, hfixed, Bool.true_eq_false, if_false, h]
  simp only [← Bool.not_eq_true', k.unwraps_iff]
  rfl

end

end Sys2Proof.Machine
end

section
/-!
OBLIGATION. Proofs/KeyStoreCommands.lean: the commands of the key store (10 R274), by which O43 is settled.
-/

namespace Sys2Proof
open Sys2Proof.Machine

theorem kstCmd_sets_starts {i : Instr} {a : Acc} {v : Word32} {s : State} {n : Nat} (hi : exec i s = s.writeRow a KST_CMD v)
    (hv : v.getLsbD 31 = true ∧ v.toNat % 16 = n ∧ 1 ≤ n ∧ n ≤ 6) : Sets i a KST_CMD v s (s.cmdStarts n) := by
  obtain ⟨hgo, hop, hn⟩ := hv
  exact s.kstCmd_starts hgo hop hn ▸ kstCmd_sets hi

theorem kstCmd_sets_rejects {a : Acc} {s : State} {op : BitVec 4} (h : op = 0 ∨ 7 ≤ op.toNat) :
    Sets (.kstCmdInvalid a op) a KST_CMD (0x80000000#32 ||| op.setWidth 32) s
      (if s.on KST_CMD_BUSY = true then s else ((s.fset KST_CMD_OP op.toNat).fset KST_CMD_ERR 8).raise KST_EVT_CMD_ERR) := by
  obtain ⟨hgo, hop⟩ := goWord_spells op
  have hn : ¬(1 ≤ op.toNat ∧ op.toNat ≤ 6) := by
    rintro ⟨hlo, hhi⟩
    rcases h with rfl | h
    · exact absurd hlo (by decide)
    · omega
  exact s.kstCmd_rejects hgo hop hn ▸ kstCmd_sets rfl

theorem kstCmdComplete_checkpointDenied {dt : Nat} {s t : State} (h : (s.elapse dt).kst.running = some 5)
    (ht : (s.elapse dt).takeCheckpoint = (false, t)) : exec (.kstCmdComplete dt true) s = .next (kstEnded t 6) := by
  rw [kstCmdComplete_checkpoint h ht, if_neg Bool.false_ne_true, kstEnded_eq]

/-- Settles O43: each operation by what it does in its cases. -/
theorem keyStoreCommandsAct : Obligations.KeyStoreCommandsAct := by
  unfold Obligations.KeyStoreCommandsAct
  refine ⟨fun a s => ?_, fun dt ok s => ?_⟩
  · exact ⟨kstCmd_sets_starts rfl (by decide), kstCmd_sets_starts rfl (by decide), kstCmd_sets_starts rfl (by decide),
      kstCmd_sets_starts rfl (by decide), kstCmd_sets_starts rfl (by decide), kstCmd_sets_starts rfl (by decide),
      fun op h => kstCmd_sets_rejects h⟩
  · extract_lets u h i slot run ends pinned frames sound named
    have hends : ∀ {e : Nat} {t : State}, exec run s = .next t → t = u.cmdEnds e → ends e := fun he ht => by
      rw [ht] at he
      exact he.trans (congrArg Host.Outcome.next (kstEnded_eq _ _).symm)
    refine ⟨kstCmdComplete_idle, fun hrun => ?_, fun hrun => ?_, fun hrun => ?_, fun hrun => ?_, fun hrun => ?_, fun hrun => ?_⟩
    -- PIN
    · have hexec : exec run s = .next (u.cmdPin ok) := kstCmdComplete_pin hrun
      have hpin := u.cmdPin_eq ok
      split_ifs with hname hslot hmax
      · exact hends hexec (hpin.trans (if_pos hname))
      · exact hends hexec (hpin.trans ((if_neg hname).trans (if_pos hslot)))
      · exact hends hexec (hpin.trans ((if_neg hname).trans ((if_neg hslot).trans (if_pos hmax))))
      · have hfetched : exec run s = .next (u.pinFetched i slot ok) :=
          hexec.trans (congrArg _ (hpin.trans ((if_neg hname).trans ((if_neg hslot).trans (if_neg hmax)))))
        exact ⟨fun hs => ⟨_, hfetched, State.pinFetched_sound hs⟩, fun hs => ⟨_, hfetched, State.pinFetched_unsound hs⟩⟩
    -- UNPIN
    · have hexec : exec run s = .next u.cmdUnpin := kstCmdComplete_unpin hrun
      split_ifs with hempty
      · exact hends hexec (State.cmdUnpin_empty hempty)
      · intro j r c hr hc
        rw [hexec, State.cmdUnpin_frees (by_contra fun hn => hempty (.inl hn)) hr hc, kstEnded_eq]
    -- PREFETCH
    · have hexec : exec run s = .next (u.cmdPrefetch ok) := kstCmdComplete_prefetch hrun
      split_ifs with hname
      · exact hends hexec (State.cmdPrefetch_unnamed ok hname)
      · exact ⟨fun hs => ⟨_, hexec, State.cmdPrefetch_sound hname hs⟩,
          fun hs => ⟨_, hexec, State.cmdPrefetch_unsound hname hs⟩⟩
    -- EVICT
    · have hexec : exec run s = .next u.cmdEvict := kstCmdComplete_evict hrun
      split_ifs with hname
      · exact hends hexec (State.cmdEvict_unnamed hname)
      · refine ⟨fun hc => hends hexec (State.cmdEvict_absent hname hc), fun c hc => ?_⟩
        have hevict := State.cmdEvict_cached hname hc
        split_ifs with hheld
        · exact hends hexec (hevict.trans (if_pos hheld))
        · rw [hexec, hevict, if_neg hheld, kstEnded_eq]
    -- CHECKPOINT
    · refine ⟨fun hok => ?_, fun a d hok hd => ?_, fun hok hg => ?_⟩
      · subst hok
        exact hends (kstCmdComplete_checkpointFails hrun) rfl
      · subst hok
        exact kstCmdComplete_checkpointDenied hrun (State.takeCheckpoint_denied hd)
      · subst hok
        exact ⟨_, kstCmdComplete_checkpoint hrun (State.takeCheckpoint_granted hg), Checkpointed.cmdEnds u.checkpointed_spec,
          State.running_cmdEnds _ _, State.on_busy_cmdEnds _ _, State.on_done_cmdEnds _, State.fget_err_cmdEnds _ _⟩
    -- IMPORT
    · have hexec : exec run s = .next (u.cmdImport ok) := kstCmdComplete_import hrun
      by_cases hwaits : importWaits u.kst.waiting = true
      · rw [if_pos hwaits, hexec, State.cmdImport_waits ok hwaits]
      rw [if_neg hwaits]
      by_cases hmay : u.sys.mode ≠ .custody ∨ u.holds = false
      · rw [if_pos hmay]
        exact hends hexec (State.cmdImport_refused ok hwaits hmay)
      rw [if_neg hmay]
      by_cases hslot : named
      swap
      · rw [if_pos hslot]
        exact hends hexec (State.cmdImport_unslotted ok hwaits hmay hslot)
      rw [if_neg (not_not.mpr hslot)]
      refine ⟨fun hkey => hends hexec (State.cmdImport_keyless ok hwaits hmay hslot hkey), fun j k hkey => ?_⟩
      have hkeyed := State.cmdImport_keyed ok hwaits hmay hslot hkey
      split_ifs with hkind hbad
      · exact hends hexec (hkeyed.trans (if_pos hkind))
      · exact hends hexec (hkeyed.trans ((if_neg hkind).trans (if_pos hbad)))
      have hunwraps : exec run s = .next (u.importUnwrapped i k.key) :=
        hexec.trans (congrArg _ (hkeyed.trans ((if_neg hkind).trans (if_neg hbad))))
      refine ⟨fun hread => ?_, fun e hread he => ?_, fun b hread => ⟨fun hblob => ?_, fun img hblob =>
        ⟨fun hr => ?_, fun hr hroom => ?_, fun hr hroom => ?_⟩⟩⟩
      · exact hunwraps.trans (congrArg _ (State.importUnwrapped_waits hread))
      · exact hunwraps.trans (congrArg _ (State.importUnwrapped_unread hread he))
      · exact hunwraps.trans (congrArg _ (State.importUnwrapped_sealed hread hblob))
      · exact hunwraps.trans (congrArg _ (State.importUnwrapped_wrong hread hblob hr))
      · exact ⟨_, hunwraps, State.importUnwrapped_creates hread hblob hr hroom⟩
      · exact hunwraps.trans (congrArg _ (State.importUnwrapped_stalls hread hblob hr hroom))

end Sys2Proof
end
